-- ==== Sys2Proof/Word.lean ====
section
/-! DEFINITION. The words the manual works with: bytes (R7), 32-bit and 64-bit words, and the
names for the counts that are not bit patterns (ticks, sub-ticks, object keys). -/

namespace Sys2Proof

/-- One byte of a packet, an image, a record or of capture memory (R7). -/
abbrev Byte := BitVec 8

/-- A 32-bit word: CRC registers (R195, R232), LFSR states (R76). -/
abbrev Word32 := BitVec 32

/-- A 64-bit word: a lane word (R140), a record word (R413). -/
abbrev Word64 := BitVec 64

/-- A byte string: a DOMAIN value, a packet body, a frame. -/
abbrev Bytes := List Byte

/-- A count of ticks of the tick domain (R9, R14). -/
abbrev Tick := Nat

/-- A time in sub-ticks: 64 x tick + sub-tick (R9). -/
abbrev SubTime := Nat

/-- The name of a dictionary object: index x 256 + sub-index (R496). -/
abbrev Key := Nat

/-- The tick of a time. -/
def tickOf (t : SubTime) : Tick := t / 64

/-- The sub-tick field of a time, 0 to 63 (R9). -/
def subOf (t : SubTime) : Nat := t % 64

/-- The time at the start of a tick. -/
def ofTick (t : Tick) : SubTime := 64 * t

end Sys2Proof
end

