-- ==== Sys2Proof/Syntax.lean ====
section
/-! DEFINITION. The commands and events that change the engine: one constructor per row of the
operation table. An operand is what the sender of the command supplies: a packet, a word, a frame, a
measured value, the instance an event concerns. -/

namespace Sys2Proof

/-- Who issued a command (R34, R35, R529): the port, the issuing core on port 2, and on port 1 the source
address (in the form of R231), UDP port and link-layer address; on port 0 the command slot. -/
structure Issuer where
  port : Nat
  core : Nat := 255
  addr : Bytes := []
  udp : Nat := 0
  mac : Nat := 0
  slot : Nat := 0
deriving DecidableEq, Repr

/-- The packet fields of a command that is one write of one object: issuer, TAG, FLAGS (R502), the
trailer that stands at the packet's end when FLAGS bit 1 is set (R548), and the value written. -/
structure WriteCmd where
  iss : Issuer
  tag : Nat := 0
  flags : Nat := 0
  trailer : Bytes := []
  value : Nat := 1
deriving DecidableEq, Repr

/-- As WriteCmd, for a DOMAIN object. -/
structure BytesCmd where
  iss : Issuer
  tag : Nat := 0
  flags : Nat := 0
  trailer : Bytes := []
  value : Bytes
deriving DecidableEq, Repr

/-- The signal of one logic channel's ball in one tick, as the crosspoint meets it after the path delay of R115:
its changes, each a sub-tick and the new level in microvolts (R98, R114). -/
structure Wave where
  lc : Nat
  changes : List (Nat × Int)
deriving DecidableEq, Repr

/-- What the receiver of one serial lane measures anew in one tick: the differential amplitude in millivolts (R136), the recovered symbol rate
in units of 10^-3 Bd as measured against SYN-L (R135), a cycle slip (R724), the unit intervals since the last transition (R136), and the codes to
which the adaptation moves the CTLE, the twelve DFE taps and the three PAM4 slicer levels (R146, R149). -/
structure LaneSense where
  lane : Nat
  mv : Option Nat := none
  rate : Option Nat := none
  slip : Bool := false
  still : Option Nat := none
  ctle : Option Nat := none
  dfe : Option (List Int) := none
  slicers : Option (List Int) := none
deriving DecidableEq, Repr

/-- How a cell of an SRAM array differs from a good one (R631): it is stuck at a value, it does not rise or does not fall when written, or it is
inverted when another cell of its row, by word and bit position, rises or falls. -/
inductive CellFault where
  | stuck (value : Bool)
  | noRise
  | noFall
  | coupled (word col : Nat) (rise : Bool)
deriving DecidableEq, Repr

/-- A faulty cell: the instance, the place of its row, spare rows after the others, the word in the row and the bit position, 72 in the spare column
(R626). -/
structure Defect where
  inst : Nat
  place : Nat
  word : Nat
  col : Nat
  fault : CellFault
deriving DecidableEq, Repr

/-- What reaches the engine in one tick besides the commands: the logic-channel signals, the
phase-detector cycles of each synthesiser (R75), the stored SRAM bits that change by themselves, as instance, word and bit, the words with changed bits
that their owners read and those that they write (R626, R630), the cells that become faulty (R631), the bits that change in a Hoop FIFO, as FIFO, word
counted from the next one to be read, and bit (R653), the bursts of capture memory that come to hold errors, by address / 64, in one x4 device position or
in two (R370), the coded blocks that fail verification (R467), the telemetry indices swept (R528), stretched tick periods (R92), and what the
sensors read, where they read anew: the junction temperature in 0.125 °C and the rails in millivolts (R716); and what the lanes' receivers measure. -/
structure TickInput where
  waves : List Wave := []
  pfd : List Nat := []
  upsets : List (Nat × Nat × Nat) := []
  sramReads : List (Nat × Nat) := []
  sramWrites : List (Nat × Nat) := []
  defects : List Defect := []
  hoopFlips : List (Nat × Nat × Nat) := []
  memFaults : List (Nat × Bool) := []
  verifyFail : List (Nat × Nat) := []
  swept : List Nat := []
  fences : Nat := 0
  /-- TRIG_IN pins whose level at the ball has changed since the last tick boundary (R291). -/
  pins : List (Nat × Bool) := []
  lanes : List LaneSense := []
  tj : Option Int := none
  rails : List (Nat × Int) := []
deriving DecidableEq, Repr

/-- What an eye scan counts (R161): for each eye, from the lowest, the errors at its points: the 64 phase points at the centre voltage and then the
127 voltage points at phase 0 for a SUMMARY scan, all 64 x 127 points, phase by phase, for a FULL one. -/
structure EyeData where
  errors : List (List Nat) := []
deriving DecidableEq, Repr

/-- A frame on the management network, as far as the engine acts on it (R529, R530): source address in the form
of R231, source UDP port, source link-layer address, target, payload. -/
structure NetIn where
  addr : Bytes
  udp : Nat := 0
  /-- The UDP port it is sent to. -/
  port : Nat := 47120
  mac : Nat := 0
  target : Bytes := []
  data : Bytes := []
deriving DecidableEq, Repr

/-- The outcome of a host access by the port: the bytes read, or the failure reported by the link (R584). -/
inductive HostRead where
  | data (b : Bytes)
  | failed
deriving DecidableEq, Repr

/-- An operand that carries nothing: the engine computes from its state and from the inputs of the ticks what could stand there (the result of the
error correction of a lane, the equaliser's codes at lock, what a memory test or a saved row holds). -/
abbrev Blank := Unit

/-- The commands and events of the engine, one constructor per row of the operation table. -/
inductive Instr where
  | tick (inp : TickInput)
  | laneWord (lane : Nat) (raw : Nat) (stamp : Nat) (fec : Blank)
  | ethFrame (lane : Nat)
  | scannerVisit (lane : Nat)
  | hiBerWindow (dec : Nat)
  | cdrSignalDetect (lane : Nat)
  | cdrFreqLock (lane : Nat)
  | cdrLock (lane : Nat) (ctle : Blank) (dfe : Blank)
  | cdrSignalLoss (lane : Nat) (partialBits : Nat)
  | cdrFreqLoss (lane : Nat) (partialBits : Nat)
  | cdrTransitionLoss (lane : Nat) (partialBits : Nat)
  | linkFailRetry (link : Nat)
  | noMarkerTimeout (link : Nat)
  | eyeScanStart (lane : Nat)
  | eyeScanEnd (eye : EyeData)
  | comparatorSettle (lc : Nat) (lower : Bool) (microvolts : Int)
  | trigInAccept (pin : Nat) (level : Bool)
  | trigOutStart (pin : Nat)
  | trigOutEnd (pin : Nat)
  | eventRead (bb : Nat)
  | cascadeMessageSend (port : Nat)
  | cascadeMessageReceive (port : Nat) (chars : Bytes)
  | alignWordSend (port : Nat)
  | alignWordReceive (port : Nat) (count : Nat) (arrival : Nat) (point : Bytes) (rtt : Nat)
  | alignWordTimeout (port : Nat)
  | cascadeSyncLoss (port : Nat)
  | tickLoad
  | ppsEdge (time : Nat)
  | vrefEdge (time : Nat) (aboveHi : Bool)
  | loopUpdate
  | ppsMiss
  | vrefMiss
  | hostTimeout
  | refclkLoss
  | refclkReturn
  | step
  | slewEnd
  | timeMapPoint
  | refclkClassify (hertz : Nat)
  | synLock (syn : Nat)
  | clkoutRestart (n : Nat)
  | clkoutStart (n : Nat)
  | clkoutStop (n : Nat)
  | picotStep (n : Nat)
  | read (iss : Issuer) (pkt : Bytes)
  | write (iss : Issuer) (pkt : Bytes)
  | pairTimeout (port : Nat)
  | commit (iss : Issuer) (pkt : Bytes)
  | commitLand (port : Nat)
  | discard (iss : Issuer) (pkt : Bytes)
  | segStart (iss : Issuer) (pkt : Bytes)
  | segData (iss : Issuer) (pkt : Bytes)
  | segEnd (iss : Issuer) (pkt : Bytes)
  | segAbort (iss : Issuer) (pkt : Bytes)
  | transferIdleTimeout (port xfer : Nat)
  | segRead (iss : Issuer) (pkt : Bytes)
  | echo (iss : Issuer) (pkt : Bytes)
  | hello (iss : Issuer) (pkt : Bytes)
  | attest (iss : Issuer) (pkt : Bytes)
  | prove (iss : Issuer) (pkt : Bytes)
  | close (iss : Issuer) (pkt : Bytes)
  | sessionIdleTimeout (slot : Nat)
  | handshakeTimeout (slot : Nat)
  | proveLockoutEnd (port : Nat)
  | sessionClose (c : WriteCmd) (slot : Nat)
  | ownerKey (c : BytesCmd)
  | ownerKeyProgrammed
  | policyFloor (c : WriteCmd)
  | fwSecRaise (c : WriteCmd)
  | mirrorCopy
  | stepNow (c : WriteCmd)
  | slewNow (c : WriteCmd)
  | realign (c : WriteCmd)
  | freqCorr (c : WriteCmd)
  | phaseCorr (c : WriteCmd)
  | picotSteps (c : WriteCmd) (n : Nat)
  | swTrigger (c : WriteCmd)
  | eyeRequest (c : WriteCmd) (lane : Nat)
  | clear (c : WriteCmd) (slot : Nat)
  | train (c : WriteCmd)
  | trainEnd (failSteps : List (Nat × Nat))
  | free (c : WriteCmd) (queue : Nat)
  | closePage (c : WriteCmd) (queue : Nat)
  | grant (c : BytesCmd)
  | renew (c : BytesCmd)
  | release (c : BytesCmd)
  | query (c : BytesCmd)
  | leaseExpire (index : Nat)
  | pageAlloc
  | chunkFlush (queue : Nat)
  | segmentClose (queue : Nat)
  | segmentOpen (queue : Nat)
  | drainEnd (queue : Nat)
  | lookup (c : BytesCmd)
  | install (c : BytesCmd)
  | update (c : BytesCmd)
  | remove (c : BytesCmd)
  | tableRead (c : BytesCmd)
  | clearStats (c : BytesCmd)
  | flushLearnt (c : BytesCmd)
  | flushLearntDone (lane : Nat)
  | stateRestore (c : BytesCmd)
  | jobStart (c : BytesCmd) (job : Nat)
  | resume (c : BytesCmd) (job : Nat)
  | finish (c : BytesCmd) (job : Nat)
  | abort (c : BytesCmd) (job : Nat)
  | jobRun
  | jobEnd (verifyFail destFail memError : Bool)
  | releaseHandle (c : WriteCmd)
  | handleTimeout (handle : Nat)
  | cmdDoorbell (value : Nat) (slotBytes : Bytes)
  | rspAck (value : Nat)
  | noteHead (value : Nat)
  | descTail (ring value : Nat)
  | cplHead (ring value : Nat)
  | bar0Write (offset value : Nat) (width : Nat)
  | descFetch (ring : Nat) (desc : HostRead)
  | descGrant (ring : Nat)
  | descRead (ring : Nat) (memErr : Bool)
  | descRenew (ring : Nat)
  | descRelease (ring : Nat)
  | ringEnable (c : WriteCmd) (ring : Nat)
  | ringDisable (c : WriteCmd) (ring : Nat)
  | mapInvalidate (c : WriteCmd)
  | bar2Read (addr : Nat) (count : Nat) (entry : Bytes)
  | bar2Write (addr : Nat)
  | port0Reset
  | bmeClear
  | bmeSet
  | datagramDiscard (d : NetIn) (fragment : Bool)
  | arpRequest (d : NetIn)
  | neighbourSolicitation (d : NetIn)
  | icmpEchoRequest (d : NetIn)
  | nextHopReply (d : NetIn)
  | nextHopRetry (addr : Bytes)
  | nextHopExpiry (addr : Bytes)
  | notificationSend (sub : Nat)
  | sgmiiSyncLoss
  | lockRequest (core : Nat) (pkt : Bytes)
  | lockTimeout
  | coreReset (c : WriteCmd) (core : Nat)
  | watchdogExpiry (core : Nat)
  | coreFault (core : Nat)
  | fwRestart (c : WriteCmd)
  | fwCheckEnd (slotA slotB config0 config1 : Bytes)
  | flashImage (c : BytesCmd)
  | flashConfig (c : BytesCmd)
  | watchPoll (entry : Nat)
  | flowhealthSample (lane : Nat)
  | signatureTap (entry : Nat)
  | golden (c : BytesCmd) (entry : Nat)
  | streamExport (entry : Nat)
  | streamSend (entry : Nat)
  | resend (c : WriteCmd) (entry : Nat)
  | darnerBorrow (inst : Nat) (fails : Blank)
  | borrowEnd
  | marchPreserve (c : WriteCmd)
  | marchDestroy (c : WriteCmd)
  | marchRecover (c : WriteCmd)
  | marchEnd (rows : Blank) (cols : Blank)
  | fuseRepairs (c : WriteCmd)
  | fuseProgrammed
  | resetWarm (c : WriteCmd)
  | resetControl (c : WriteCmd)
  | resetData (c : WriteCmd)
  | resetManagement (c : WriteCmd)
  | warmReset
  | controlReset
  | dataReset
  | managementReset
  | powerOnReset (straps : Nat)
  | standbyEntry (micros : Nat) (rows : Blank) (cols : Blank)
  | thermalTrip (tj : Int)
  | supplyFault (rail : Nat)
  | faultEntry
  | warmResetEnd (micros : Nat) (rows : Blank) (cols : Blank)
  | pcieLinkUp (speed width : Nat)
  | cascadeSync (port : Nat)
  | sgmiiSync
  | vdpCommand (d : NetIn)
  | flashProgrammed
  | coreBooted (core : Nat)
deriving DecidableEq, Repr

end Sys2Proof
end

