-- ==== Sys2Proof/Decode.lean ====
section
/-! DEFINITION. The command that a word spells by the bits of the operation table. -/

namespace Sys2Proof

/-- No row of the operation table gives bits: a command arrives as a packet, a word or an event, never as a
numbered word, so no word spells one. -/
def decodeTableWord (_nbits _w : Nat) : Option Instr := none

end Sys2Proof
end

