-- ==== Sys2Proof/Config.lean ====
section
/-! DEFINITION. What the manual leaves to the maker, to a published standard or open altogether:
values without a body, so that no statement can rest on one (the assumption log names each), and
the constants of the part. -/

namespace Sys2Proof.Config

/-- A fresh free value: the n-th value of a quantity the manual does not state. -/
opaque freeNat : Nat → Nat

/-- The secret number drawn for the n-th handshake's ephemeral pair, before it is brought into the range of private keys (R542). -/
opaque ephemeralSecret : Nat → Nat

/-- The secret number drawn for the n-th signature of the identity key (R536, R543), before it is brought into range. -/
opaque signSecret : Nat → Nat

/-- The 32-byte nonce Ne of the n-th handshake (R542). -/
opaque nonce : Nat → Bytes

/-- The session number drawn for the n-th handshake, before it is made non-zero (R542). -/
opaque sessionDraw : Nat → Nat

/-- The maker's choice of symbols for one encoding (R458): of a MODE (STATIC, DYNAMIC or REUSE), the
move-to-front list, LAST_LENGTHS and the items of a block, the PAYLOAD_BITS and the payload. -/
opaque stitchEncode : Nat → List Nat → List Nat → List Nat → Nat × Bytes

/-- The maker's match selection (R481): for the stream's history, the input at a block's start and the BLOCK_MODE, the length and
the distance of each symbol of the block; a length below 3 is a literal, so is every symbol after the list's end, and none ends the block. -/
opaque deflateMatches : Bytes → Bytes → Nat → List (Option (Nat × Nat))

/-- The maker's code lengths (R481): for the lengths and distances of a block, the bits of its dynamic header after BTYPE. -/
opaque deflateHeader : List (Nat × Nat) → List Bool

/-- The alignment marker that opens a marked codeword, by ETH_MODE, which IEEE 802.3 gives (R203): the bits of its first 257 line bits that must match,
first bit in bit 0, and their values. -/
opaque markerMask : Nat → Nat

/-- The marker's bits. -/
opaque markerBits : Nat → Nat

/-- The tick within its bound at which a decoder, the flow engine or a port hands an item on
(R175, R248, R293); the bound is taken by the model. -/
opaque delay : Nat → Nat → Nat

end Sys2Proof.Config
end

