-- ==== Sys2Proof/Machine/Keys.lean ====
section
/-! DEFINITION. The keys of the dictionary's objects (index x 256 + sub-index), one name per row of the
object tables: the block, then the object's name. `n` is the instance, `j` the member. -/

namespace Sys2Proof.Machine.Obj

/-- 2100:01 DISC_SRC (R65). -/
def tbDiscSrc : Key := 0x2100 * 256 + 0x01
/-- 2100:02 CASCADE_PORT (R65). -/
def tbCascadePort : Key := 0x2100 * 256 + 0x02
/-- 2100:03 JUMP_POLICY (R65). -/
def tbJumpPolicy : Key := 0x2100 * 256 + 0x03
/-- 2100:04 LOCK_WINDOW (R65). -/
def tbLockWindow : Key := 0x2100 * 256 + 0x04
/-- 2100:05 LOCK_COUNT (R65). -/
def tbLockCount : Key := 0x2100 * 256 + 0x05
/-- 2100:06 HO_AVG_LOG2 (R65). -/
def tbHoAvgLog2 : Key := 0x2100 * 256 + 0x06
/-- 2100:07 PPS_MISS_LIMIT (R65). -/
def tbPpsMissLimit : Key := 0x2100 * 256 + 0x07
/-- 2100:08 PPS_EDGE (R65). -/
def tbPpsEdge : Key := 0x2100 * 256 + 0x08
/-- 2100:09 TIME_MAP_INTERVAL (R65). -/
def tbTimeMapInterval : Key := 0x2100 * 256 + 0x09
/-- 2100:10 DISC_STATE (R65). -/
def tbDiscState : Key := 0x2100 * 256 + 0x10
/-- 2100:11 LAST_JUMP (R65). -/
def tbLastJump : Key := 0x2100 * 256 + 0x11
/-- 2100:12 HOLDOVER_TICKS (R65). -/
def tbHoldoverTicks : Key := 0x2100 * 256 + 0x12
/-- 2100:13 TIME_ACTION (R65). -/
def tbTimeAction : Key := 0x2100 * 256 + 0x13
/-- 2100:14 TICK_NOW (R65). -/
def tbTickNow : Key := 0x2100 * 256 + 0x14
/-- 2108:01 VREF_NUM (R65). -/
def vrefVrefNum : Key := 0x2108 * 256 + 0x01
/-- 2108:02 VREF_DEN (R65). -/
def vrefVrefDen : Key := 0x2108 * 256 + 0x02
/-- 2108:03 VREF_EDGE (R65). -/
def vrefVrefEdge : Key := 0x2108 * 256 + 0x03
/-- 2108:04 VREF_THR_LO (R65). -/
def vrefVrefThrLo : Key := 0x2108 * 256 + 0x04
/-- 2108:05 VREF_THR_HI (R65). -/
def vrefVrefThrHi : Key := 0x2108 * 256 + 0x05
/-- 2108:06 VREF_HYST (R65). -/
def vrefVrefHyst : Key := 0x2108 * 256 + 0x06
/-- 2108:07 VREF_TOL (R65). -/
def vrefVrefTol : Key := 0x2108 * 256 + 0x07
/-- 2108:08 VREF_MISS_LIMIT (R65). -/
def vrefVrefMissLimit : Key := 0x2108 * 256 + 0x08
/-- 2110:01 TAI_AT (R65). -/
def taiTaiAt : Key := 0x2110 * 256 + 0x01
/-- 2110:02 TAI_SEC (R65). -/
def taiTaiSec : Key := 0x2110 * 256 + 0x02
/-- 2110:03 TAI_NS (R65). -/
def taiTaiNs : Key := 0x2110 * 256 + 0x03
/-- 2110:04 UTC_OFFSET (R65). -/
def taiUtcOffset : Key := 0x2110 * 256 + 0x04
/-- 2120:01 FREQ_CORR (R65). -/
def corrFreqCorr : Key := 0x2120 * 256 + 0x01
/-- 2120:02 PHASE_CORR (R65). -/
def corrPhaseCorr : Key := 0x2120 * 256 + 0x02
/-- 2120:03 HOST_TIMEOUT (R65). -/
def corrHostTimeout : Key := 0x2120 * 256 + 0x03
/-- 5E00+n:01 CABLE_DELAY (R65). -/
def cpCableDelay (n : Nat) : Key := (0x5E00 + n) * 256 + 0x01
/-- 5E00+n:02 ALIGN_STATE (R65). -/
def cpAlignState (n : Nat) : Key := (0x5E00 + n) * 256 + 0x02
/-- 5E00+n:03 RTT (R65). -/
def cpRtt (n : Nat) : Key := (0x5E00 + n) * 256 + 0x03
/-- 5E00+n:04 PHASE_ERR (R65). -/
def cpPhaseErr (n : Nat) : Key := (0x5E00 + n) * 256 + 0x04
/-- 2200:01 REFCLK_CLASS (R94). -/
def refRefclkClass : Key := 0x2200 * 256 + 0x01
/-- 2201:01 SYN_WORD (R94). -/
def synTSynWord : Key := 0x2201 * 256 + 0x01
/-- 2201:02 LOCKED (R94). -/
def synTLocked : Key := 0x2201 * 256 + 0x02
/-- 2201:03 BAND (R94). -/
def synTBand : Key := 0x2201 * 256 + 0x03
/-- 2201:04 DITHER_EN (R94). -/
def synTDitherEn : Key := 0x2201 * 256 + 0x04
/-- 2201:05 DITHER_SEED (R94). -/
def synTDitherSeed : Key := 0x2201 * 256 + 0x05
/-- 2201:06 TICK_FENCE_COUNT (R94). -/
def synTTickFenceCount : Key := 0x2201 * 256 + 0x06
/-- 2202:01 SYN_WORD (R94). -/
def synLSynWord : Key := 0x2202 * 256 + 0x01
/-- 2202:02 LOCKED (R94). -/
def synLLocked : Key := 0x2202 * 256 + 0x02
/-- 2202:03 BAND (R94). -/
def synLBand : Key := 0x2202 * 256 + 0x03
/-- 2202:04 DITHER_EN (R94). -/
def synLDitherEn : Key := 0x2202 * 256 + 0x04
/-- 2202:05 DITHER_SEED (R94). -/
def synLDitherSeed : Key := 0x2202 * 256 + 0x05
/-- 2204+n:01 SYN_WORD (R94). -/
def synOSynWord (n : Nat) : Key := (0x2204 + n) * 256 + 0x01
/-- 2204+n:02 RELOCK_MODE (R94). -/
def synORelockMode (n : Nat) : Key := (0x2204 + n) * 256 + 0x02
/-- 2204+n:03 DITHER_EN (R94). -/
def synODitherEn (n : Nat) : Key := (0x2204 + n) * 256 + 0x03
/-- 2204+n:04 DITHER_SEED (R94). -/
def synODitherSeed (n : Nat) : Key := (0x2204 + n) * 256 + 0x04
/-- 2204+n:05 OUT_ENABLE (R94). -/
def synOOutEnable (n : Nat) : Key := (0x2204 + n) * 256 + 0x05
/-- 2204+n:06 START_AT (R94). -/
def synOStartAt (n : Nat) : Key := (0x2204 + n) * 256 + 0x06
/-- 2204+n:07 STOP_AT (R94). -/
def synOStopAt (n : Nat) : Key := (0x2204 + n) * 256 + 0x07
/-- 2204+n:08 PICOT_STEPS (R94). -/
def synOPicotSteps (n : Nat) : Key := (0x2204 + n) * 256 + 0x08
/-- 2204+n:09 PICOT_PENDING (R94). -/
def synOPicotPending (n : Nat) : Key := (0x2204 + n) * 256 + 0x09
/-- 2204+n:0A PICOT_INTERVAL (R94). -/
def synOPicotInterval (n : Nat) : Key := (0x2204 + n) * 256 + 0x0A
/-- 2204+n:0B PICOT_DISCARDED (R94). -/
def synOPicotDiscarded (n : Nat) : Key := (0x2204 + n) * 256 + 0x0B
/-- 2204+n:0C LOCKED (R94). -/
def synOLocked (n : Nat) : Key := (0x2204 + n) * 256 + 0x0C
/-- 2204+n:0D BAND (R94). -/
def synOBand (n : Nat) : Key := (0x2204 + n) * 256 + 0x0D
/-- 2204+n:0E STATE (R94). -/
def synOState (n : Nat) : Key := (0x2204 + n) * 256 + 0x0E
/-- 2210:01–2210:40 BAND_ENTRY (R94). -/
def bandBandEntry (j : Nat) : Key := 0x2210 * 256 + (0x01 + j)
/-- 3000+n:01 ENABLE (R130). -/
def lcEnable (n : Nat) : Key := (0x3000 + n) * 256 + 0x01
/-- 3000+n:02 WIN_MODE (R130). -/
def lcWinMode (n : Nat) : Key := (0x3000 + n) * 256 + 0x02
/-- 3000+n:03 THR_HI (R130). -/
def lcThrHi (n : Nat) : Key := (0x3000 + n) * 256 + 0x03
/-- 3000+n:04 THR_LO (R130). -/
def lcThrLo (n : Nat) : Key := (0x3000 + n) * 256 + 0x04
/-- 3000+n:05 HYST_HI (R130). -/
def lcHystHi (n : Nat) : Key := (0x3000 + n) * 256 + 0x05
/-- 3000+n:06 HYST_LO (R130). -/
def lcHystLo (n : Nat) : Key := (0x3000 + n) * 256 + 0x06
/-- 3000+n:07 FILTER_N (R130). -/
def lcFilterN (n : Nat) : Key := (0x3000 + n) * 256 + 0x07
/-- 3000+n:08 FILTER_T (R130). -/
def lcFilterT (n : Nat) : Key := (0x3000 + n) * 256 + 0x08
/-- 3000+n:09 TIE (R130). -/
def lcTie (n : Nat) : Key := (0x3000 + n) * 256 + 0x09
/-- 3000+n:0A DESKEW (R130). -/
def lcDeskew (n : Nat) : Key := (0x3000 + n) * 256 + 0x0A
/-- 3000+n:0B SAMPLE_SRC (R130). -/
def lcSampleSrc (n : Nat) : Key := (0x3000 + n) * 256 + 0x0B
/-- 3000+n:0C FLAGS (R130). -/
def lcFlags (n : Nat) : Key := (0x3000 + n) * 256 + 0x0C
/-- 3000+n:0D FLAGS_PEEK (R130). -/
def lcFlagsPeek (n : Nat) : Key := (0x3000 + n) * 256 + 0x0D
/-- 3000+n:0E STATE (R130). -/
def lcState (n : Nat) : Key := (0x3000 + n) * 256 + 0x0E
/-- 2400+g:01 TERM (R131). -/
def lgTerm (n : Nat) : Key := (0x2400 + n) * 256 + 0x01
/-- 2400+g:02 STORE_MODE (R131). -/
def lgStoreMode (n : Nat) : Key := (0x2400 + n) * 256 + 0x02
/-- 2400+g:03 VCAL (R131). -/
def lgVcal (n : Nat) : Key := (0x2400 + n) * 256 + 0x03
/-- 2400+g:04 SWAP_MASK (R131). -/
def lgSwapMask (n : Nat) : Key := (0x2400 + n) * 256 + 0x04
/-- 2400+g:05 TOGGLE_OFFSET (R131). -/
def lgToggleOffset (n : Nat) : Key := (0x2400 + n) * 256 + 0x05
/-- 2400+g:06 FIFO_PEAK (R131). -/
def lgFifoPeak (n : Nat) : Key := (0x2400 + n) * 256 + 0x06
/-- 6010+g:(c+0x01) LOST_EDGES (R132). -/
def lcCntLostEdges (n : Nat) (j : Nat) : Key := (0x6010 + n) * 256 + (0x01 + j)
/-- 6010+g:(c+0x11) GLITCH_COUNT (R132). -/
def lcCntGlitchCount (n : Nat) (j : Nat) : Key := (0x6010 + n) * 256 + (0x11 + j)
/-- 6010+g:(c+0x21) STATE_EST_COUNT (R132). -/
def lcCntStateEstCount (n : Nat) (j : Nat) : Key := (0x6010 + n) * 256 + (0x21 + j)
/-- 3100+n:01 ENABLE (R165). -/
def laneEnable (n : Nat) : Key := (0x3100 + n) * 256 + 0x01
/-- 3100+n:02 CDR_STATE (R165). -/
def laneCdrState (n : Nat) : Key := (0x3100 + n) * 256 + 0x02
/-- 3100+n:03 MODULATION (R165). -/
def laneModulation (n : Nat) : Key := (0x3100 + n) * 256 + 0x03
/-- 3100+n:04 BAUD_NUM (R165). -/
def laneBaudNum (n : Nat) : Key := (0x3100 + n) * 256 + 0x04
/-- 3100+n:05 BAUD_DEN (R165). -/
def laneBaudDen (n : Nat) : Key := (0x3100 + n) * 256 + 0x05
/-- 3100+n:06 POLARITY (R165). -/
def lanePolarity (n : Nat) : Key := (0x3100 + n) * 256 + 0x06
/-- 3100+n:07 GRAY (R165). -/
def laneGray (n : Nat) : Key := (0x3100 + n) * 256 + 0x07
/-- 3100+n:08 LOCK_PPM (R165). -/
def laneLockPpm (n : Nat) : Key := (0x3100 + n) * 256 + 0x08
/-- 3100+n:09 SIGDET_MV (R165). -/
def laneSigdetMv (n : Nat) : Key := (0x3100 + n) * 256 + 0x09
/-- 3100+n:0A LOSS_REASON (R165). -/
def laneLossReason (n : Nat) : Key := (0x3100 + n) * 256 + 0x0A
/-- 3100+n:0B LINK (R165). -/
def laneLink (n : Nat) : Key := (0x3100 + n) * 256 + 0x0B
/-- 3100+n:10 EQ_MODE (R165). -/
def laneEqMode (n : Nat) : Key := (0x3100 + n) * 256 + 0x10
/-- 3100+n:11 CTLE_SET (R165). -/
def laneCtleSet (n : Nat) : Key := (0x3100 + n) * 256 + 0x11
/-- 3100+n:12 CTLE_LIVE (R165). -/
def laneCtleLive (n : Nat) : Key := (0x3100 + n) * 256 + 0x12
/-- 3100+n:(0x1F+j) DFE_SET (R165). -/
def laneDfeSet (n : Nat) (j : Nat) : Key := (0x3100 + n) * 256 + (0x1F + j)
/-- 3100+n:(0x2F+j) DFE_LIVE (R165). -/
def laneDfeLive (n : Nat) (j : Nat) : Key := (0x3100 + n) * 256 + (0x2F + j)
/-- 3100+n:40 EYE_MODE (R165). -/
def laneEyeMode (n : Nat) : Key := (0x3100 + n) * 256 + 0x40
/-- 3100+n:41 EYE_INTERVAL (R165). -/
def laneEyeInterval (n : Nat) : Key := (0x3100 + n) * 256 + 0x41
/-- 3100+n:42 EYE_DWELL_LOG2 (R165). -/
def laneEyeDwellLog2 (n : Nat) : Key := (0x3100 + n) * 256 + 0x42
/-- 3100+n:43 EYE_ERR_LIMIT (R165). -/
def laneEyeErrLimit (n : Nat) : Key := (0x3100 + n) * 256 + 0x43
/-- 3100+n:44 EYE_REQUEST (R165). -/
def laneEyeRequest (n : Nat) : Key := (0x3100 + n) * 256 + 0x44
/-- 3100+n:45 EYE_LOG (R165). -/
def laneEyeLog (n : Nat) : Key := (0x3100 + n) * 256 + 0x45
/-- 3100+n:46 EYE_MAP (R165). -/
def laneEyeMap (n : Nat) : Key := (0x3100 + n) * 256 + 0x46
/-- 3300+k:01 LANE_LIST (R166). -/
def linkLaneList (n : Nat) : Key := (0x3300 + n) * 256 + 0x01
/-- 3300+k:02 DESKEW_MODE (R166). -/
def linkDeskewMode (n : Nat) : Key := (0x3300 + n) * 256 + 0x02
/-- 3300+k:03 LINK_STATE (R166). -/
def linkLinkState (n : Nat) : Key := (0x3300 + n) * 256 + 0x03
/-- 3300+k:04 FAIL_REASON (R166). -/
def linkFailReason (n : Nat) : Key := (0x3300 + n) * 256 + 0x04
/-- 3300+k:05 MISALIGN_COUNT (R166). -/
def linkMisalignCount (n : Nat) : Key := (0x3300 + n) * 256 + 0x05
/-- 3300+k:(0x10+i) LANE_SKEW (R166). -/
def linkLaneSkew (n : Nat) (j : Nat) : Key := (0x3300 + n) * 256 + (0x10 + j)
/-- 3300+k:(0x20+i) DESKEW_SET (R166). -/
def linkDeskewSet (n : Nat) (j : Nat) : Key := (0x3300 + n) * 256 + (0x20 + j)
/-- 6040+n:01 WORDS (R167). -/
def laneCntWords (n : Nat) : Key := (0x6040 + n) * 256 + 0x01
/-- 6040+n:02 CDR_LOSS_COUNT (R167). -/
def laneCntCdrLossCount (n : Nat) : Key := (0x6040 + n) * 256 + 0x02
/-- 6040+n:03 UNLOCKED_TICKS (R167). -/
def laneCntUnlockedTicks (n : Nat) : Key := (0x6040 + n) * 256 + 0x03
/-- 6040+n:04 DISCARDED_BITS (R167). -/
def laneCntDiscardedBits (n : Nat) : Key := (0x6040 + n) * 256 + 0x04
/-- 6040+n:05 EYE_SCANS (R167). -/
def laneCntEyeScans (n : Nat) : Key := (0x6040 + n) * 256 + 0x05
/-- 3200+n:01 PERSONALITY (R219). -/
def decPersonality (n : Nat) : Key := (0x3200 + n) * 256 + 0x01
/-- 3200+n:02 DEC_STATE (R219). -/
def decDecState (n : Nat) : Key := (0x3200 + n) * 256 + 0x02
/-- 3200+n:03 EVENT_MASK (R219). -/
def decEventMask (n : Nat) : Key := (0x3200 + n) * 256 + 0x03
/-- 3200+n:04 CODE_ERROR_MASK (R219). -/
def decCodeErrorMask (n : Nat) : Key := (0x3200 + n) * 256 + 0x04
/-- 3200+n:05 LOSS_REASON (R219). -/
def decLossReason (n : Nat) : Key := (0x3200 + n) * 256 + 0x05
/-- 3200+n:10 SDI_RATE (R219). -/
def decSdiRate (n : Nat) : Key := (0x3200 + n) * 256 + 0x10
/-- 3200+n:11 SCAN (R219). -/
def decScan (n : Nat) : Key := (0x3200 + n) * 256 + 0x11
/-- 3200+n:12 SIG_ENABLE (R219). -/
def decSigEnable (n : Nat) : Key := (0x3200 + n) * 256 + 0x12
/-- 3200+n:13 PAYLOAD_ID (R219). -/
def decPayloadId (n : Nat) : Key := (0x3200 + n) * 256 + 0x13
/-- 3200+n:14 LAST_LN (R219). -/
def decLastLn (n : Nat) : Key := (0x3200 + n) * 256 + 0x14
/-- 3200+n:15 LAST_SIGNATURE (R219). -/
def decLastSignature (n : Nat) : Key := (0x3200 + n) * 256 + 0x15
/-- 3200+n:(0x20+j) ANC_FILTER (R219). -/
def decAncFilter (n : Nat) (j : Nat) : Key := (0x3200 + n) * 256 + (0x20 + j)
/-- 3200+n:30 ETH_MODE (R219). -/
def decEthMode (n : Nat) : Key := (0x3200 + n) * 256 + 0x30
/-- 3200+n:31 FEC_MODE (R219). -/
def decFecMode (n : Nat) : Key := (0x3200 + n) * 256 + 0x31
/-- 3200+n:32 MAX_FRAME (R219). -/
def decMaxFrame (n : Nat) : Key := (0x3200 + n) * 256 + 0x32
/-- 3200+n:33 BLOCK_LOCK (R219). -/
def decBlockLock (n : Nat) : Key := (0x3200 + n) * 256 + 0x33
/-- 3200+n:34 HI_BER (R219). -/
def decHiBer (n : Nat) : Key := (0x3200 + n) * 256 + 0x34
/-- 3200+n:40 COMMA_A (R219). -/
def decCommaA (n : Nat) : Key := (0x3200 + n) * 256 + 0x40
/-- 3200+n:41 COMMA_B (R219). -/
def decCommaB (n : Nat) : Key := (0x3200 + n) * 256 + 0x41
/-- 3200+n:42 DISP_CHECK (R219). -/
def decDispCheck (n : Nat) : Key := (0x3200 + n) * 256 + 0x42
/-- 3200+n:43 MARK_SYMBOL (R219). -/
def decMarkSymbol (n : Nat) : Key := (0x3200 + n) * 256 + 0x43
/-- 3200+n:44 ALIGN_COUNT (R219). -/
def decAlignCount (n : Nat) : Key := (0x3200 + n) * 256 + 0x44
/-- 3200+n:50 SCR_MODE (R219). -/
def decScrMode (n : Nat) : Key := (0x3200 + n) * 256 + 0x50
/-- 3200+n:51 SCR_LEN (R219). -/
def decScrLen (n : Nat) : Key := (0x3200 + n) * 256 + 0x51
/-- 3200+n:52 SCR_POLY (R219). -/
def decScrPoly (n : Nat) : Key := (0x3200 + n) * 256 + 0x52
/-- 3200+n:53 SCR_SEED (R219). -/
def decScrSeed (n : Nat) : Key := (0x3200 + n) * 256 + 0x53
/-- 3200+n:54 SCR_RESET (R219). -/
def decScrReset (n : Nat) : Key := (0x3200 + n) * 256 + 0x54
/-- 3200+n:55 SCR_RESET_SYM (R219). -/
def decScrResetSym (n : Nat) : Key := (0x3200 + n) * 256 + 0x55
/-- 3200+n:56 SCR_BIT_ORDER (R219). -/
def decScrBitOrder (n : Nat) : Key := (0x3200 + n) * 256 + 0x56
/-- 3200+n:57 SCR_K_ADVANCE (R219). -/
def decScrKAdvance (n : Nat) : Key := (0x3200 + n) * 256 + 0x57
/-- 3200+n:60 SYNC_DATA (R219). -/
def decSyncData (n : Nat) : Key := (0x3200 + n) * 256 + 0x60
/-- 3200+n:61 SYNC_CTRL (R219). -/
def decSyncCtrl (n : Nat) : Key := (0x3200 + n) * 256 + 0x61
/-- 3200+n:62 HDR_TOLERANCE (R219). -/
def decHdrTolerance (n : Nat) : Key := (0x3200 + n) * 256 + 0x62
/-- 3200+n:63 LOCK_HDRS (R219). -/
def decLockHdrs (n : Nat) : Key := (0x3200 + n) * 256 + 0x63
/-- 3200+n:64 LOSS_BAD (R219). -/
def decLossBad (n : Nat) : Key := (0x3200 + n) * 256 + 0x64
/-- 3200+n:65 MARK_PATTERN (R219). -/
def decMarkPattern (n : Nat) : Key := (0x3200 + n) * 256 + 0x65
/-- 3200+n:66 MARK_MASK (R219). -/
def decMarkMask (n : Nat) : Key := (0x3200 + n) * 256 + 0x66
/-- 3200+n:67 SCR_SCOPE (R219). -/
def decScrScope (n : Nat) : Key := (0x3200 + n) * 256 + 0x67
/-- 6060+n:01 SYNC_LOSS_COUNT (R221). -/
def decCntSyncLossCount (n : Nat) : Key := (0x6060 + n) * 256 + 0x01
/-- 6060+n:02 LINES (R221). -/
def decCntLines (n : Nat) : Key := (0x6060 + n) * 256 + 0x02
/-- 6060+n:03 FRAMES (R221). -/
def decCntFrames (n : Nat) : Key := (0x6060 + n) * 256 + 0x03
/-- 6060+n:04 LINE_CRC_ERR (R221). -/
def decCntLineCrcErr (n : Nat) : Key := (0x6060 + n) * 256 + 0x04
/-- 6060+n:05 TRS_ERR (R221). -/
def decCntTrsErr (n : Nat) : Key := (0x6060 + n) * 256 + 0x05
/-- 6060+n:06 LN_JUMP (R221). -/
def decCntLnJump (n : Nat) : Key := (0x6060 + n) * 256 + 0x06
/-- 6060+n:07 ANC_PACKETS (R221). -/
def decCntAncPackets (n : Nat) : Key := (0x6060 + n) * 256 + 0x07
/-- 6060+n:08 ANC_CSUM_ERR (R221). -/
def decCntAncCsumErr (n : Nat) : Key := (0x6060 + n) * 256 + 0x08
/-- 6060+n:09 ANC_DROPPED (R221). -/
def decCntAncDropped (n : Nat) : Key := (0x6060 + n) * 256 + 0x09
/-- 6060+n:0A CODE_ERRORS (R221). -/
def decCntCodeErrors (n : Nat) : Key := (0x6060 + n) * 256 + 0x0A
/-- 6060+n:0B ETH_FRAMES (R221). -/
def decCntEthFrames (n : Nat) : Key := (0x6060 + n) * 256 + 0x0B
/-- 6060+n:0C FCS_ERR (R221). -/
def decCntFcsErr (n : Nat) : Key := (0x6060 + n) * 256 + 0x0C
/-- 6060+n:0D PACKETS_ABORTED (R221). -/
def decCntPacketsAborted (n : Nat) : Key := (0x6060 + n) * 256 + 0x0D
/-- 6060+n:0E CW_TOTAL (R221). -/
def decCntCwTotal (n : Nat) : Key := (0x6060 + n) * 256 + 0x0E
/-- 6060+n:0F CW_CORRECTED (R221). -/
def decCntCwCorrected (n : Nat) : Key := (0x6060 + n) * 256 + 0x0F
/-- 6060+n:10 CW_UNCORR (R221). -/
def decCntCwUncorr (n : Nat) : Key := (0x6060 + n) * 256 + 0x10
/-- 6060+n:11 SYM_CORRECTED (R221). -/
def decCntSymCorrected (n : Nat) : Key := (0x6060 + n) * 256 + 0x11
/-- 6060+n:12 SIGNATURES (R221). -/
def decCntSignatures (n : Nat) : Key := (0x6060 + n) * 256 + 0x12
/-- 6060+n:13 RUNTS (R221). -/
def decCntRunts (n : Nat) : Key := (0x6060 + n) * 256 + 0x13
/-- 6060+n:14 TRUNCATED (R221). -/
def decCntTruncated (n : Nat) : Key := (0x6060 + n) * 256 + 0x14
/-- 3400:01 TS_RATE_RTP (R256). -/
def flowTsRateRtp : Key := 0x3400 * 256 + 0x01
/-- 3400:02 TS_RATE_VIDEO (R256). -/
def flowTsRateVideo : Key := 0x3400 * 256 + 0x02
/-- 3400:03 TS_RATE_AUDIO (R256). -/
def flowTsRateAudio : Key := 0x3400 * 256 + 0x03
/-- 3400:04 TS_RATE_ANC (R256). -/
def flowTsRateAnc : Key := 0x3400 * 256 + 0x04
/-- 3410:01 TABLE_CMD (R256). -/
def tableTableCmd : Key := 0x3410 * 256 + 0x01
/-- 3410:(0x02+p) TABLE_RESULT (R256). -/
def tableTableResult (j : Nat) : Key := 0x3410 * 256 + (0x02 + j)
/-- 3420+n:01 FLOW_ENABLE (R256). -/
def flFlowEnable (n : Nat) : Key := (0x3420 + n) * 256 + 0x01
/-- 3420+n:02 LEARN_MODE (R256). -/
def flLearnMode (n : Nat) : Key := (0x3420 + n) * 256 + 0x02
/-- 3420+n:03 HASH_SEED (R256). -/
def flHashSeed (n : Nat) : Key := (0x3420 + n) * 256 + 0x03
/-- 3420+n:04 PT_20 (R256). -/
def flPt20 (n : Nat) : Key := (0x3420 + n) * 256 + 0x04
/-- 3420+n:05 PT_30 (R256). -/
def flPt30 (n : Nat) : Key := (0x3420 + n) * 256 + 0x05
/-- 3420+n:06 PT_40 (R256). -/
def flPt40 (n : Nat) : Key := (0x3420 + n) * 256 + 0x06
/-- 3420+n:07 RTP_PORT_LO (R256). -/
def flRtpPortLo (n : Nat) : Key := (0x3420 + n) * 256 + 0x07
/-- 3420+n:08 RTP_PORT_HI (R256). -/
def flRtpPortHi (n : Nat) : Key := (0x3420 + n) * 256 + 0x08
/-- 3420+n:09 PTP_ENABLE (R256). -/
def flPtpEnable (n : Nat) : Key := (0x3420 + n) * 256 + 0x09
/-- 3420+n:0A DEFAULT_QUEUE (R256). -/
def flDefaultQueue (n : Nat) : Key := (0x3420 + n) * 256 + 0x0A
/-- 3420+n:0B DEFAULT_TAG (R256). -/
def flDefaultTag (n : Nat) : Key := (0x3420 + n) * 256 + 0x0B
/-- 3420+n:0C OVERFLOW_QUEUE (R256). -/
def flOverflowQueue (n : Nat) : Key := (0x3420 + n) * 256 + 0x0C
/-- 3420+n:0D EVENT_QUEUE (R256). -/
def flEventQueue (n : Nat) : Key := (0x3420 + n) * 256 + 0x0D
/-- 3420+n:0E PTP_QUEUE (R256). -/
def flPtpQueue (n : Nat) : Key := (0x3420 + n) * 256 + 0x0E
/-- 3420+n:0F EVENT_MASK (R256). -/
def flEventMask (n : Nat) : Key := (0x3420 + n) * 256 + 0x0F
/-- 3420+n:10 LOSS_JUMP_MAX (R256). -/
def flLossJumpMax (n : Nat) : Key := (0x3420 + n) * 256 + 0x10
/-- 3420+n:11 MISORDER_MAX (R256). -/
def flMisorderMax (n : Nat) : Key := (0x3420 + n) * 256 + 0x11
/-- 3420+n:12 LATE_NS (R256). -/
def flLateNs (n : Nat) : Key := (0x3420 + n) * 256 + 0x12
/-- 3420+n:13 SNAP_LEN (R256). -/
def flSnapLen (n : Nat) : Key := (0x3420 + n) * 256 + 0x13
/-- 3420+n:14 EVICT_SILENT (R256). -/
def flEvictSilent (n : Nat) : Key := (0x3420 + n) * 256 + 0x14
/-- 3420+n:(0x20+k) STOP_US (R256). -/
def flStopUs (n : Nat) (j : Nat) : Key := (0x3420 + n) * 256 + (0x20 + j)
/-- 3420+n:30 VALID_COUNT (R256). -/
def flValidCount (n : Nat) : Key := (0x3420 + n) * 256 + 0x30
/-- 3420+n:31 SIG_SLOTS_FREE (R256). -/
def flSigSlotsFree (n : Nat) : Key := (0x3420 + n) * 256 + 0x31
/-- 6080+n:01 PACKETS (R257). -/
def flCntPackets (n : Nat) : Key := (0x6080 + n) * 256 + 0x01
/-- 6080+n:02 CLASSIFIED (R257). -/
def flCntClassified (n : Nat) : Key := (0x6080 + n) * 256 + 0x02
/-- 6080+n:(0x02+r) UNCLASSIFIED (R257). -/
def flCntUnclassified (n : Nat) (j : Nat) : Key := (0x6080 + n) * 256 + (0x02 + j)
/-- 6080+n:0A PTP_EVENTS (R257). -/
def flCntPtpEvents (n : Nat) : Key := (0x6080 + n) * 256 + 0x0A
/-- 6080+n:0B LEARNT (R257). -/
def flCntLearnt (n : Nat) : Key := (0x6080 + n) * 256 + 0x0B
/-- 6080+n:0C EVICTED (R257). -/
def flCntEvicted (n : Nat) : Key := (0x6080 + n) * 256 + 0x0C
/-- 6080+n:0D SEQ_RESTART (R257). -/
def flCntSeqRestart (n : Nat) : Key := (0x6080 + n) * 256 + 0x0D
/-- 6080+n:0E MISBOUND (R257). -/
def flCntMisbound (n : Nat) : Key := (0x6080 + n) * 256 + 0x0E
/-- 6080+n:0F OVERFLOW_STORED (R257). -/
def flCntOverflowStored (n : Nat) : Key := (0x6080 + n) * 256 + 0x0F
/-- 6080+n:10 SIGNATURES (R257). -/
def flCntSignatures (n : Nat) : Key := (0x6080 + n) * 256 + 0x10
/-- 3600+n:01 TYPE (R297). -/
def cuType (n : Nat) : Key := (0x3600 + n) * 256 + 0x01
/-- 3600+n:02 SOURCE (R297). -/
def cuSource (n : Nat) : Key := (0x3600 + n) * 256 + 0x02
/-- 3600+n:03 MODE (R297). -/
def cuMode (n : Nat) : Key := (0x3600 + n) * 256 + 0x03
/-- 3600+n:04 HIST_CH (R297). -/
def cuHistCh (n : Nat) : Key := (0x3600 + n) * 256 + 0x04
/-- 3600+n:05–:08 P (R297). -/
def cuP (n : Nat) (j : Nat) : Key := (0x3600 + n) * 256 + (0x05 + j)
/-- 3600+n:09–:0C TERMS (R297). -/
def cuTerms (n : Nat) (j : Nat) : Key := (0x3600 + n) * 256 + (0x09 + j)
/-- 3600+n:0D OUTPUT (R297). -/
def cuOutput (n : Nat) : Key := (0x3600 + n) * 256 + 0x0D
/-- 5E10+i:01 INVERT (R299). -/
def trigInInvert (n : Nat) : Key := (0x5E10 + n) * 256 + 0x01
/-- 5E10+i:02 FILTER (R299). -/
def trigInFilter (n : Nat) : Key := (0x5E10 + n) * 256 + 0x02
/-- 5E10+i:03 LEVEL (R299). -/
def trigInLevel (n : Nat) : Key := (0x5E10 + n) * 256 + 0x03
/-- 5E00+n:05 RX_LATENCY (R299). -/
def cpRxLatency (n : Nat) : Key := (0x5E00 + n) * 256 + 0x05
/-- 5E20:01 SW_TRIGGER (R299). -/
def swSwTrigger : Key := 0x5E20 * 256 + 0x01
/-- 6100+n:01 MATCH_TICKS (R300). -/
def cuCntMatchTicks (n : Nat) : Key := (0x6100 + n) * 256 + 0x01
/-- 6100+n:02 LAST_TIME (R300). -/
def cuCntLastTime (n : Nat) : Key := (0x6100 + n) * 256 + 0x02
/-- 6200:(h+0x01) VALID_DEPTH (R300). -/
def histValidDepth (j : Nat) : Key := 0x6200 * 256 + (0x01 + j)
/-- 3800+b:01 RUN (R334). -/
def bbRun (n : Nat) : Key := (0x3800 + n) * 256 + 0x01
/-- 3800+b:02 SLOT (R334). -/
def bbSlot (n : Nat) : Key := (0x3800 + n) * 256 + 0x02
/-- 3800+b:03 STATE (R334). -/
def bbState (n : Nat) : Key := (0x3800 + n) * 256 + 0x03
/-- 3800+b:04 LEVEL (R334). -/
def bbLevel (n : Nat) : Key := (0x3800 + n) * 256 + 0x04
/-- 3800+b:05 LAST_EVENT (R334). -/
def bbLastEvent (n : Nat) : Key := (0x3800 + n) * 256 + 0x05
/-- 3800+b:06 EVT_OVERRUN (R334). -/
def bbEvtOverrun (n : Nat) : Key := (0x3800 + n) * 256 + 0x06
/-- 3800+b:(0x10+j) CNT (R334). -/
def bbCnt (n : Nat) (j : Nat) : Key := (0x3800 + n) * 256 + (0x10 + j)
/-- 3800+b:(0x14+j) TMR (R334). -/
def bbTmr (n : Nat) (j : Nat) : Key := (0x3800 + n) * 256 + (0x14 + j)
/-- 3800+b:(0x18+j) CNT_LIMIT (R334). -/
def bbCntLimit (n : Nat) (j : Nat) : Key := (0x3800 + n) * 256 + (0x18 + j)
/-- 3800+b:(0x1C+j) TMR_LIMIT (R334). -/
def bbTmrLimit (n : Nat) (j : Nat) : Key := (0x3800 + n) * 256 + (0x1C + j)
/-- 3800+b:(0x20+j) CNT_PRESET (R334). -/
def bbCntPreset (n : Nat) (j : Nat) : Key := (0x3800 + n) * 256 + (0x20 + j)
/-- 3800+b:30 PATCH (R334). -/
def bbPatch (n : Nat) : Key := (0x3800 + n) * 256 + 0x30
/-- 5E30+i:01 INVERT (R335). -/
def trigOutInvert (n : Nat) : Key := (0x5E30 + n) * 256 + 0x01
/-- 5E30+i:02 WIDTH (R335). -/
def trigOutWidth (n : Nat) : Key := (0x5E30 + n) * 256 + 0x02
/-- 5E30+i:03 LEVEL (R335). -/
def trigOutLevel (n : Nat) : Key := (0x5E30 + n) * 256 + 0x03
/-- 6300+b:01 EVENTS (R336). -/
def bbCntEvents (n : Nat) : Key := (0x6300 + n) * 256 + 0x01
/-- 6300+b:02 EVENTS_LOST (R336). -/
def bbCntEventsLost (n : Nat) : Key := (0x6300 + n) * 256 + 0x02
/-- 6300+b:03 TRIGGERS (R336). -/
def bbCntTriggers (n : Nat) : Key := (0x6300 + n) * 256 + 0x03
/-- 6300+b:04 PREMATURE (R336). -/
def bbCntPremature (n : Nat) : Key := (0x6300 + n) * 256 + 0x04
/-- 6300+b:05 MISSED (R336). -/
def bbCntMissed (n : Nat) : Key := (0x6300 + n) * 256 + 0x05
/-- 6300+b:06 CONVERTED (R336). -/
def bbCntConverted (n : Nat) : Key := (0x6300 + n) * 256 + 0x06
/-- 6300+b:07 TRIG_IGNORED (R336). -/
def bbCntTrigIgnored (n : Nat) : Key := (0x6300 + n) * 256 + 0x07
/-- 6300+b:08 STORE_CONFLICTS (R336). -/
def bbCntStoreConflicts (n : Nat) : Key := (0x6300 + n) * 256 + 0x08
/-- 6300+b:09 CNT_WRAPS (R336). -/
def bbCntCntWraps (n : Nat) : Key := (0x6300 + n) * 256 + 0x09
/-- 6300+b:0A TMR_WRAPS (R336). -/
def bbCntTmrWraps (n : Nat) : Key := (0x6300 + n) * 256 + 0x0A
/-- 6308:(0x01+n) CASC_DROPPED (R336). -/
def cascCascDropped (j : Nat) : Key := 0x6308 * 256 + (0x01 + j)
/-- 6308:(0x05+n) CASC_RX_BAD (R336). -/
def cascCascRxBad (j : Nat) : Key := 0x6308 * 256 + (0x05 + j)
/-- 3810+s:01 IMAGE (R361). -/
def slotImage (n : Nat) : Key := (0x3810 + n) * 256 + 0x01
/-- 3810+s:02 SLOT_STATE (R361). -/
def slotSlotState (n : Nat) : Key := (0x3810 + n) * 256 + 0x02
/-- 3810+s:03 BUILD_ID (R361). -/
def slotBuildId (n : Nat) : Key := (0x3810 + n) * 256 + 0x03
/-- 3810+s:04 IMAGE_LEN (R361). -/
def slotImageLen (n : Nat) : Key := (0x3810 + n) * 256 + 0x04
/-- 3810+s:05 IMAGE_CRC (R361). -/
def slotImageCrc (n : Nat) : Key := (0x3810 + n) * 256 + 0x05
/-- 3810+s:06 USERS (R361). -/
def slotUsers (n : Nat) : Key := (0x3810 + n) * 256 + 0x06
/-- 3810+s:07 CLEAR (R361). -/
def slotClear (n : Nat) : Key := (0x3810 + n) * 256 + 0x07
/-- 3810+s:08 STAGED_LEN (R361). -/
def slotStagedLen (n : Nat) : Key := (0x3810 + n) * 256 + 0x08
/-- 3810+s:09 LOAD_STATUS (R361). -/
def slotLoadStatus (n : Nat) : Key := (0x3810 + n) * 256 + 0x09
/-- 3810+s:0A FAIL_FIELD (R361). -/
def slotFailField (n : Nat) : Key := (0x3810 + n) * 256 + 0x0A
/-- 5000:01 CHANNEL_MASK (R405). -/
def cmmChannelMask : Key := 0x5000 * 256 + 0x01
/-- 5000:02 DPC (R405). -/
def cmmDpc : Key := 0x5000 * 256 + 0x02
/-- 5000:03 RANKS (R405). -/
def cmmRanks : Key := 0x5000 * 256 + 0x03
/-- 5000:04 DEVICE_WIDTH (R405). -/
def cmmDeviceWidth : Key := 0x5000 * 256 + 0x04
/-- 5000:05 DENSITY_GBIT (R405). -/
def cmmDensityGbit : Key := 0x5000 * 256 + 0x05
/-- 5000:06 DATA_RATE (R405). -/
def cmmDataRate : Key := 0x5000 * 256 + 0x06
/-- 5000:07 TIMINGS (R405). -/
def cmmTimings : Key := 0x5000 * 256 + 0x07
/-- 5000:08 TRAIN (R405). -/
def cmmTrain : Key := 0x5000 * 256 + 0x08
/-- 5000:09 MEM_STATE (R405). -/
def cmmMemState : Key := 0x5000 * 256 + 0x09
/-- 5000:0A TOTAL_PAGES (R405). -/
def cmmTotalPages : Key := 0x5000 * 256 + 0x0A
/-- 5000:0B USABLE_PAGES (R405). -/
def cmmUsablePages : Key := 0x5000 * 256 + 0x0B
/-- 5000:0C MIRROR_PAGES (R405). -/
def cmmMirrorPages : Key := 0x5000 * 256 + 0x0C
/-- 5000:0D FREE_PAGES (R405). -/
def cmmFreePages : Key := 0x5000 * 256 + 0x0D
/-- 5000:0E PEAK_MBPS (R405). -/
def cmmPeakMbps : Key := 0x5000 * 256 + 0x0E
/-- 5000:0F GUARANTEE_MBPS (R405). -/
def cmmGuaranteeMbps : Key := 0x5000 * 256 + 0x0F
/-- 5000:10 READ_GUARANTEE_MBPS (R405). -/
def cmmReadGuaranteeMbps : Key := 0x5000 * 256 + 0x10
/-- 5000:11 COMMITTED_MBPS (R405). -/
def cmmCommittedMbps : Key := 0x5000 * 256 + 0x11
/-- 5000:12 SHARED_USED (R405). -/
def cmmSharedUsed : Key := 0x5000 * 256 + 0x12
/-- 5000:13 FLUSH_TICKS (R405). -/
def cmmFlushTicks : Key := 0x5000 * 256 + 0x13
/-- 5000:14 LEASE_TIMEOUT_MS (R405). -/
def cmmLeaseTimeoutMs : Key := 0x5000 * 256 + 0x14
/-- 5000:15 LEASE_CMD (R405). -/
def cmmLeaseCmd : Key := 0x5000 * 256 + 0x15
/-- 5000:(0x16+p) LEASE_RESULT (R405). -/
def cmmLeaseResult (j : Nat) : Key := 0x5000 * 256 + (0x16 + j)
/-- 5000:19 LEASES_ACTIVE (R405). -/
def cmmLeasesActive : Key := 0x5000 * 256 + 0x19
/-- 5020+p:01 RESERVE (R406). -/
def poolReserve (n : Nat) : Key := (0x5020 + n) * 256 + 0x01
/-- 5020+p:02 LIMIT (R406). -/
def poolLimit (n : Nat) : Key := (0x5020 + n) * 256 + 0x02
/-- 5020+p:03 HELD (R406). -/
def poolHeld (n : Nat) : Key := (0x5020 + n) * 256 + 0x03
/-- 5020+p:04 COMMITTED (R406). -/
def poolCommitted (n : Nat) : Key := (0x5020 + n) * 256 + 0x04
/-- 4000+q:01 RUN (R407). -/
def qRun (n : Nat) : Key := (0x4000 + n) * 256 + 0x01
/-- 4000+q:02 STATE (R407). -/
def qState (n : Nat) : Key := (0x4000 + n) * 256 + 0x02
/-- 4000+q:03 SRC_KIND (R407). -/
def qSrcKind (n : Nat) : Key := (0x4000 + n) * 256 + 0x03
/-- 4000+q:04 SOURCE (R407). -/
def qSource (n : Nat) : Key := (0x4000 + n) * 256 + 0x04
/-- 4000+q:05 MODE (R407). -/
def qMode (n : Nat) : Key := (0x4000 + n) * 256 + 0x05
/-- 4000+q:06 PRE (R407). -/
def qPre (n : Nat) : Key := (0x4000 + n) * 256 + 0x06
/-- 4000+q:07 POST (R407). -/
def qPost (n : Nat) : Key := (0x4000 + n) * 256 + 0x07
/-- 4000+q:08 SEGMENTS (R407). -/
def qSegments (n : Nat) : Key := (0x4000 + n) * 256 + 0x08
/-- 4000+q:09 REQUIRE_FULL_PRE (R407). -/
def qRequireFullPre (n : Nat) : Key := (0x4000 + n) * 256 + 0x09
/-- 4000+q:0A QGROUP (R407). -/
def qQgroup (n : Nat) : Key := (0x4000 + n) * 256 + 0x0A
/-- 4000+q:0B POOL (R407). -/
def qPool (n : Nat) : Key := (0x4000 + n) * 256 + 0x0B
/-- 4000+q:0C QMIN (R407). -/
def qQmin (n : Nat) : Key := (0x4000 + n) * 256 + 0x0C
/-- 4000+q:0D QMAX (R407). -/
def qQmax (n : Nat) : Key := (0x4000 + n) * 256 + 0x0D
/-- 4000+q:0E COMMIT_RATE (R407). -/
def qCommitRate (n : Nat) : Key := (0x4000 + n) * 256 + 0x0E
/-- 4000+q:0F WEIGHT (R407). -/
def qWeight (n : Nat) : Key := (0x4000 + n) * 256 + 0x0F
/-- 4000+q:10 STAGE_KIB (R407). -/
def qStageKib (n : Nat) : Key := (0x4000 + n) * 256 + 0x10
/-- 4000+q:11 FREE (R407). -/
def qFree (n : Nat) : Key := (0x4000 + n) * 256 + 0x11
/-- 4000+q:12 CLOSE_PAGE (R407). -/
def qClosePage (n : Nat) : Key := (0x4000 + n) * 256 + 0x12
/-- 4000+q:20 CAPTURE (R407). -/
def qCapture (n : Nat) : Key := (0x4000 + n) * 256 + 0x20
/-- 4000+q:21 SEGMENT (R407). -/
def qSegment (n : Nat) : Key := (0x4000 + n) * 256 + 0x21
/-- 4000+q:22 OLDEST_SEQ (R407). -/
def qOldestSeq (n : Nat) : Key := (0x4000 + n) * 256 + 0x22
/-- 4000+q:23 NEWEST_CLOSED_SEQ (R407). -/
def qNewestClosedSeq (n : Nat) : Key := (0x4000 + n) * 256 + 0x23
/-- 4000+q:24 OPEN_PFN (R407). -/
def qOpenPfn (n : Nat) : Key := (0x4000 + n) * 256 + 0x24
/-- 4000+q:25 HELD_PAGES (R407). -/
def qHeldPages (n : Nat) : Key := (0x4000 + n) * 256 + 0x25
/-- 4000+q:26 PINNED_PAGES (R407). -/
def qPinnedPages (n : Nat) : Key := (0x4000 + n) * 256 + 0x26
/-- 4000+q:27 BYTES (R407). -/
def qBytes (n : Nat) : Key := (0x4000 + n) * 256 + 0x27
/-- 4000+q:28 ITEMS_LOST (R407). -/
def qItemsLost (n : Nat) : Key := (0x4000 + n) * 256 + 0x28
/-- 4000+q:29 GAPS (R407). -/
def qGaps (n : Nat) : Key := (0x4000 + n) * 256 + 0x29
/-- 4000+q:2A ALLOC_FAIL (R407). -/
def qAllocFail (n : Nat) : Key := (0x4000 + n) * 256 + 0x2A
/-- 4000+q:2B RECYCLED (R407). -/
def qRecycled (n : Nat) : Key := (0x4000 + n) * 256 + 0x2B
/-- 4000+q:2C CTRL_LOST (R407). -/
def qCtrlLost (n : Nat) : Key := (0x4000 + n) * 256 + 0x2C
/-- 4000+q:2D STAGE_PEAK (R407). -/
def qStagePeak (n : Nat) : Key := (0x4000 + n) * 256 + 0x2D
/-- 5100+m:01 TRAIN_STATE (R408). -/
def mcTrainState (n : Nat) : Key := (0x5100 + n) * 256 + 0x01
/-- 5100+m:02 FAIL_STEP (R408). -/
def mcFailStep (n : Nat) : Key := (0x5100 + n) * 256 + 0x02
/-- 6410+m:01 CORRECTED (R408). -/
def mcCntCorrected (n : Nat) : Key := (0x6410 + n) * 256 + 0x01
/-- 6410+m:02 UNCORRECTABLE (R408). -/
def mcCntUncorrectable (n : Nat) : Key := (0x6410 + n) * 256 + 0x02
/-- 6410+m:03 BYTES_WRITTEN (R408). -/
def mcCntBytesWritten (n : Nat) : Key := (0x6410 + n) * 256 + 0x03
/-- 6410+m:04 BYTES_READ (R408). -/
def mcCntBytesRead (n : Nat) : Key := (0x6410 + n) * 256 + 0x04
/-- 5400:01 RESET_PAGES (R493). -/
def coderResetPages : Key := 0x5400 * 256 + 0x01
/-- 5400:02 CONTEXTS_FREE (R493). -/
def coderContextsFree : Key := 0x5400 * 256 + 0x02
/-- 5400:(0x10+p) STATE_SEL (R493). -/
def coderStateSel (j : Nat) : Key := 0x5400 * 256 + (0x10 + j)
/-- 5400:(0x13+p) STATE (R493). -/
def coderState (j : Nat) : Key := 0x5400 * 256 + (0x13 + j)
/-- 5410+n:01 CODE_MODE (R493). -/
def laneCodeCodeMode (n : Nat) : Key := (0x5410 + n) * 256 + 0x01
/-- 5410+n:02 FILET_FORMAT (R493). -/
def laneCodeFiletFormat (n : Nat) : Key := (0x5410 + n) * 256 + 0x02
/-- 5410+n:03 FILET_COMPONENTS (R493). -/
def laneCodeFiletComponents (n : Nat) : Key := (0x5410 + n) * 256 + 0x03
/-- 5430+g:01 CODE_MODE (R493). -/
def lgCodeCodeMode (n : Nat) : Key := (0x5430 + n) * 256 + 0x01
/-- 5440+d:01 FILET_ENABLE (R493). -/
def decFiletFiletEnable (n : Nat) : Key := (0x5440 + n) * 256 + 0x01
/-- 5440+d:02 FILET_PAIR (R493). -/
def decFiletFiletPair (n : Nat) : Key := (0x5440 + n) * 256 + 0x02
/-- 5440+d:03 FILET_COMPONENTS (R493). -/
def decFiletFiletComponents (n : Nat) : Key := (0x5440 + n) * 256 + 0x03
/-- 5500+j:01 JOB_DESC (R494). -/
def jobJobDesc (n : Nat) : Key := (0x5500 + n) * 256 + 0x01
/-- 5500+j:02 JOB_RESULT (R494). -/
def jobJobResult (n : Nat) : Key := (0x5500 + n) * 256 + 0x02
/-- 5500+j:03 JOB_STATE (R494). -/
def jobJobState (n : Nat) : Key := (0x5500 + n) * 256 + 0x03
/-- 55F0:01 HANDLES_FREE (R494). -/
def deflHandlesFree : Key := 0x55F0 * 256 + 0x01
/-- 55F0:02 HANDLE_TIMEOUT_MS (R494). -/
def deflHandleTimeoutMs : Key := 0x55F0 * 256 + 0x02
/-- 55F0:03 RELEASE_HANDLE (R494). -/
def deflReleaseHandle : Key := 0x55F0 * 256 + 0x03
/-- 6440:01 BLOCKS_CODED (R495). -/
def coderCntBlocksCoded : Key := 0x6440 * 256 + 0x01
/-- 6440:(0x02+m) MODE_BLOCKS (R495). -/
def coderCntModeBlocks (j : Nat) : Key := 0x6440 * 256 + (0x02 + j)
/-- 6440:06 VERIFY_FAILS (R495). -/
def coderCntVerifyFails : Key := 0x6440 * 256 + 0x06
/-- 6440:07 NO_CONTEXT (R495). -/
def coderCntNoContext : Key := 0x6440 * 256 + 0x07
/-- 6440:08 RAW_BYTES_IN (R495). -/
def coderCntRawBytesIn : Key := 0x6440 * 256 + 0x08
/-- 6440:09 CODED_BYTES_OUT (R495). -/
def coderCntCodedBytesOut : Key := 0x6440 * 256 + 0x09
/-- 6440:0A FILET_WORDS (R495). -/
def coderCntFiletWords : Key := 0x6440 * 256 + 0x0A
/-- 6440:0B FILET_DROPPED (R495). -/
def coderCntFiletDropped : Key := 0x6440 * 256 + 0x0B
/-- 6441:01 DEFLATE_JOBS (R495). -/
def deflCntDeflateJobs : Key := 0x6441 * 256 + 0x01
/-- 6441:02 DEFLATE_VERIFY_FAILS (R495). -/
def deflCntDeflateVerifyFails : Key := 0x6441 * 256 + 0x02
/-- 6441:03 DEFLATE_BYTES_IN (R495). -/
def deflCntDeflateBytesIn : Key := 0x6441 * 256 + 0x03
/-- 6441:04 DEFLATE_BYTES_OUT (R495). -/
def deflCntDeflateBytesOut : Key := 0x6441 * 256 + 0x04
/-- 1000:01 VENDOR (R501). -/
def idVendor : Key := 0x1000 * 256 + 0x01
/-- 1000:02 PART (R501). -/
def idPart : Key := 0x1000 * 256 + 0x02
/-- 1000:03 VARIANT (R501). -/
def idVariant : Key := 0x1000 * 256 + 0x03
/-- 1000:04 GRADE (R501). -/
def idGrade : Key := 0x1000 * 256 + 0x04
/-- 1000:05 REVISION (R501). -/
def idRevision : Key := 0x1000 * 256 + 0x05
/-- 1000:06 SERIAL (R501). -/
def idSerial : Key := 0x1000 * 256 + 0x06
/-- 1000:07 DICT_VERSION (R501). -/
def idDictVersion : Key := 0x1000 * 256 + 0x07
/-- 1000:08 LANES (R501). -/
def idLanes : Key := 0x1000 * 256 + 0x08
/-- 1000:09 LC_GROUPS (R501). -/
def idLcGroups : Key := 0x1000 * 256 + 0x09
/-- 1000:0A MEM_CHANNELS (R501). -/
def idMemChannels : Key := 0x1000 * 256 + 0x0A
/-- 1000:0B SERVICE_CORES (R501). -/
def idServiceCores : Key := 0x1000 * 256 + 0x0B
/-- 1F00+p:01 STAGED_OBJECTS (R533). -/
def portStagedObjects (n : Nat) : Key := (0x1F00 + n) * 256 + 0x01
/-- 1F00+p:02 STAGED_BYTES (R533). -/
def portStagedBytes (n : Nat) : Key := (0x1F00 + n) * 256 + 0x02
/-- 1F00+p:03 PENDING_COMMITS (R533). -/
def portPendingCommits (n : Nat) : Key := (0x1F00 + n) * 256 + 0x03
/-- 1F00+p:04 NEXT_TARGET (R533). -/
def portNextTarget (n : Nat) : Key := (0x1F00 + n) * 256 + 0x04
/-- 1F00+p:05 CLAMP_REPORT (R533). -/
def portClampReport (n : Nat) : Key := (0x1F00 + n) * 256 + 0x05
/-- 1F00+p:06 REPORT_JSEQ (R533). -/
def portReportJseq (n : Nat) : Key := (0x1F00 + n) * 256 + 0x06
/-- 1F00+p:07 LAST_ERROR (R533). -/
def portLastError (n : Nat) : Key := (0x1F00 + n) * 256 + 0x07
/-- 1F00+p:08 LAST_ERROR_JSEQ (R533). -/
def portLastErrorJseq (n : Nat) : Key := (0x1F00 + n) * 256 + 0x08
/-- 1F00+p:09 OPEN_TRANSFERS (R533). -/
def portOpenTransfers (n : Nat) : Key := (0x1F00 + n) * 256 + 0x09
/-- 1100:01 MAC_ADDR (R534). -/
def commMacAddr : Key := 0x1100 * 256 + 0x01
/-- 1100:02 IPV4_ADDR (R534). -/
def commIpv4Addr : Key := 0x1100 * 256 + 0x02
/-- 1100:03 IPV4_PREFIX (R534). -/
def commIpv4Prefix : Key := 0x1100 * 256 + 0x03
/-- 1100:04 IPV4_GATEWAY (R534). -/
def commIpv4Gateway : Key := 0x1100 * 256 + 0x04
/-- 1100:05 IPV6_ADDR (R534). -/
def commIpv6Addr : Key := 0x1100 * 256 + 0x05
/-- 1100:06 IPV6_PREFIX (R534). -/
def commIpv6Prefix : Key := 0x1100 * 256 + 0x06
/-- 1100:07 IPV6_GATEWAY (R534). -/
def commIpv6Gateway : Key := 0x1100 * 256 + 0x07
/-- 1100:08 VDP_PORT (R534). -/
def commVdpPort : Key := 0x1100 * 256 + 0x08
/-- 1110+k:01 SUB_ADDR (R534). -/
def subSubAddr (n : Nat) : Key := (0x1110 + n) * 256 + 0x01
/-- 1110+k:02 SUB_PORT (R534). -/
def subSubPort (n : Nat) : Key := (0x1110 + n) * 256 + 0x02
/-- 1110+k:03 SUB_MASK (R534). -/
def subSubMask (n : Nat) : Key := (0x1110 + n) * 256 + 0x03
/-- 1110+k:04 SUB_NSEQ (R534). -/
def subSubNseq (n : Nat) : Key := (0x1110 + n) * 256 + 0x04
/-- 1110+k:05 SUB_DROPPED (R534). -/
def subSubDropped (n : Nat) : Key := (0x1110 + n) * 256 + 0x05
/-- 6000+p:01 ACCEPTED (R535). -/
def portCntAccepted (n : Nat) : Key := (0x6000 + n) * 256 + 0x01
/-- 6000+p:02 CHECK_FAIL (R535). -/
def portCntCheckFail (n : Nat) : Key := (0x6000 + n) * 256 + 0x02
/-- 6000+p:03 OVERSIZE (R535). -/
def portCntOversize (n : Nat) : Key := (0x6000 + n) * 256 + 0x03
/-- 6000+p:04 AUTH_FAIL (R535). -/
def portCntAuthFail (n : Nat) : Key := (0x6000 + n) * 256 + 0x04
/-- 6000+p:05 REPLAYS (R535). -/
def portCntReplays (n : Nat) : Key := (0x6000 + n) * 256 + 0x05
/-- 6000+p:06 RETRIES (R535). -/
def portCntRetries (n : Nat) : Key := (0x6000 + n) * 256 + 0x06
/-- 6000+p:07 TAG_REUSE (R535). -/
def portCntTagReuse (n : Nat) : Key := (0x6000 + n) * 256 + 0x07
/-- 1020:01 CERT_CHAIN (R569). -/
def certCertChain : Key := 0x1020 * 256 + 0x01
/-- 1020:02 DEVICE_PUBKEY (R569). -/
def certDevicePubkey : Key := 0x1020 * 256 + 0x02
/-- 1020:03 ROOT_KEY (R569). -/
def certRootKey : Key := 0x1020 * 256 + 0x03
/-- 1200:01 OWNER_STATE (R569). -/
def secOwnerState : Key := 0x1200 * 256 + 0x01
/-- 1200:02 OWNER_KEY (R569). -/
def secOwnerKey : Key := 0x1200 * 256 + 0x02
/-- 1200:03 POLICY (R569). -/
def secPolicy : Key := 0x1200 * 256 + 0x03
/-- 1200:04 POLICY_FLOOR (R569). -/
def secPolicyFloor : Key := 0x1200 * 256 + 0x04
/-- 1200:05 SESSION_IDLE_S (R569). -/
def secSessionIdleS : Key := 0x1200 * 256 + 0x05
/-- 1200:06 FW_SEC_MIN (R569). -/
def secFwSecMin : Key := 0x1200 * 256 + 0x06
/-- 1200:07 FW_SEC_RAISE (R569). -/
def secFwSecRaise : Key := 0x1200 * 256 + 0x07
/-- 1210+k:01 STATE (R570). -/
def sessState (n : Nat) : Key := (0x1210 + n) * 256 + 0x01
/-- 1210+k:02 PORT (R570). -/
def sessPort (n : Nat) : Key := (0x1210 + n) * 256 + 0x02
/-- 1210+k:03 PEER (R570). -/
def sessPeer (n : Nat) : Key := (0x1210 + n) * 256 + 0x03
/-- 1210+k:04 LAST_COUNTER (R570). -/
def sessLastCounter (n : Nat) : Key := (0x1210 + n) * 256 + 0x04
/-- 1210+k:05 OPENED_TICK (R570). -/
def sessOpenedTick (n : Nat) : Key := (0x1210 + n) * 256 + 0x05
/-- 1210+k:06 LAST_USE_TICK (R570). -/
def sessLastUseTick (n : Nat) : Key := (0x1210 + n) * 256 + 0x06
/-- 1210+k:07 CLOSE (R570). -/
def sessClose (n : Nat) : Key := (0x1210 + n) * 256 + 0x07
/-- 1300:01 NEXT_ENO (R571). -/
def jnlNextEno : Key := 0x1300 * 256 + 0x01
/-- 1300:02 OLDEST_ENO (R571). -/
def jnlOldestEno : Key := 0x1300 * 256 + 0x02
/-- 1300:03 LAST_JSEQ (R571). -/
def jnlLastJseq : Key := 0x1300 * 256 + 0x03
/-- 1300:04 MIRROR_ENTRIES (R571). -/
def jnlMirrorEntries : Key := 0x1300 * 256 + 0x04
/-- 1300:05 MIRROR_STATE (R571). -/
def jnlMirrorState : Key := 0x1300 * 256 + 0x05
/-- 1300:06 MIRROR_OLDEST_ENO (R571). -/
def jnlMirrorOldestEno : Key := 0x1300 * 256 + 0x06
/-- 1300:07 CURSOR (R571). -/
def jnlCursor : Key := 0x1300 * 256 + 0x07
/-- 1300:08 BLOCK (R571). -/
def jnlBlock : Key := 0x1300 * 256 + 0x08
/-- 1300:09 BLOCK_ENO (R571). -/
def jnlBlockEno : Key := 0x1300 * 256 + 0x09
/-- 6020:01 ENTRIES (R572). -/
def jnlCntEntries : Key := 0x6020 * 256 + 0x01
/-- 6020:02 MIRROR_LOST (R572). -/
def jnlCntMirrorLost : Key := 0x6020 * 256 + 0x02
/-- 6020:03 SESSIONS_OPENED (R572). -/
def jnlCntSessionsOpened : Key := 0x6020 * 256 + 0x03
/-- 6020:04 PROVE_FAILS (R572). -/
def jnlCntProveFails : Key := 0x6020 * 256 + 0x04
/-- 6020:05 SESSIONS_TIMED_OUT (R572). -/
def jnlCntSessionsTimedOut : Key := 0x6020 * 256 + 0x05
/-- 5810+k:01 DESC_BASE (R597). -/
def ringDescBase (n : Nat) : Key := (0x5810 + n) * 256 + 0x01
/-- 5810+k:02 CPL_BASE (R597). -/
def ringCplBase (n : Nat) : Key := (0x5810 + n) * 256 + 0x02
/-- 5810+k:03 RING_SIZE (R597). -/
def ringRingSize (n : Nat) : Key := (0x5810 + n) * 256 + 0x03
/-- 5810+k:04 VECTOR (R597). -/
def ringVector (n : Nat) : Key := (0x5810 + n) * 256 + 0x04
/-- 5810+k:05 ENABLE (R597). -/
def ringEnable (n : Nat) : Key := (0x5810 + n) * 256 + 0x05
/-- 5810+k:06 STATE (R597). -/
def ringState (n : Nat) : Key := (0x5810 + n) * 256 + 0x06
/-- 5810+k:07 ERROR (R597). -/
def ringError (n : Nat) : Key := (0x5810 + n) * 256 + 0x07
/-- 5810+k:08 DESC_HEAD (R597). -/
def ringDescHead (n : Nat) : Key := (0x5810 + n) * 256 + 0x08
/-- 5810+k:09 CPL_TAIL (R597). -/
def ringCplTail (n : Nat) : Key := (0x5810 + n) * 256 + 0x09
/-- 5800:01 LINK_STATE (R598). -/
def hostLinkState : Key := 0x5800 * 256 + 0x01
/-- 5800:02 LINK_SPEED (R598). -/
def hostLinkSpeed : Key := 0x5800 * 256 + 0x02
/-- 5800:03 LINK_WIDTH (R598). -/
def hostLinkWidth : Key := 0x5800 * 256 + 0x03
/-- 5800:04 MAP_BASE (R598). -/
def hostMapBase : Key := 0x5800 * 256 + 0x04
/-- 5800:05 MAP_INVALIDATE (R598). -/
def hostMapInvalidate : Key := 0x5800 * 256 + 0x05
/-- 5800:06 NOTE_BASE (R598). -/
def hostNoteBase : Key := 0x5800 * 256 + 0x06
/-- 5800:07 NOTE_SIZE (R598). -/
def hostNoteSize : Key := 0x5800 * 256 + 0x07
/-- 5800:08 NOTE_MASK (R598). -/
def hostNoteMask : Key := 0x5800 * 256 + 0x08
/-- 6480:01 PORT_RESETS (R599). -/
def hostCntPortResets : Key := 0x6480 * 256 + 0x01
/-- 6480:02 DOORBELL_IGNORED (R599). -/
def hostCntDoorbellIgnored : Key := 0x6480 * 256 + 0x02
/-- 6480:03 BAR2_FAULTS (R599). -/
def hostCntBar2Faults : Key := 0x6480 * 256 + 0x03
/-- 6480:04 NOTE_DROPPED (R599). -/
def hostCntNoteDropped : Key := 0x6480 * 256 + 0x04
/-- 6480:05 READOUT_BYTES (R599). -/
def hostCntReadoutBytes : Key := 0x6480 * 256 + 0x05
/-- 5A00:01 FW_STATE (R624). -/
def fwFwState : Key := 0x5A00 * 256 + 0x01
/-- 5A00:02 FW_SLOT (R624). -/
def fwFwSlot : Key := 0x5A00 * 256 + 0x02
/-- 5A00:03 FW_VERSION (R624). -/
def fwFwVersion : Key := 0x5A00 * 256 + 0x03
/-- 5A00:04 FW_REJECT (R624). -/
def fwFwReject : Key := 0x5A00 * 256 + 0x04
/-- 5A00:05 FLASH_IMAGE (R624). -/
def fwFlashImage : Key := 0x5A00 * 256 + 0x05
/-- 5A00:06 FLASH_CONFIG (R624). -/
def fwFlashConfig : Key := 0x5A00 * 256 + 0x06
/-- 5A00:07 CONFIG_STATE (R624). -/
def fwConfigState : Key := 0x5A00 * 256 + 0x07
/-- 5A00:08 FW_RESTART (R624). -/
def fwFwRestart : Key := 0x5A00 * 256 + 0x08
/-- 5A10+c:01 STATE (R624). -/
def coreState (n : Nat) : Key := (0x5A10 + n) * 256 + 0x01
/-- 5A10+c:02 RESET (R624). -/
def coreReset (n : Nat) : Key := (0x5A10 + n) * 256 + 0x02
/-- 5A10+c:03 WDT_MS (R624). -/
def coreWdtMs (n : Nat) : Key := (0x5A10 + n) * 256 + 0x03
/-- 5A10+c:04 RESETS (R624). -/
def coreResets (n : Nat) : Key := (0x5A10 + n) * 256 + 0x04
/-- 5A10+c:05 LAST_RESET (R624). -/
def coreLastReset (n : Nat) : Key := (0x5A10 + n) * 256 + 0x05
/-- 5A10+c:06 LOCK_TIMEOUTS (R624). -/
def coreLockTimeouts (n : Nat) : Key := (0x5A10 + n) * 256 + 0x06
/-- 5A20+w:01 ENABLE (R625). -/
def watchEnable (n : Nat) : Key := (0x5A20 + n) * 256 + 0x01
/-- 5A20+w:02 FIRST_Q (R625). -/
def watchFirstQ (n : Nat) : Key := (0x5A20 + n) * 256 + 0x02
/-- 5A20+w:03 QCOUNT (R625). -/
def watchQcount (n : Nat) : Key := (0x5A20 + n) * 256 + 0x03
/-- 5A20+w:04 FULL_POLICY (R625). -/
def watchFullPolicy (n : Nat) : Key := (0x5A20 + n) * 256 + 0x04
/-- 5A20+w:05 LIVE_Q (R625). -/
def watchLiveQ (n : Nat) : Key := (0x5A20 + n) * 256 + 0x05
/-- 5A20+w:06 KEPT (R625). -/
def watchKept (n : Nat) : Key := (0x5A20 + n) * 256 + 0x06
/-- 5A40+n:01 ENABLE (R625). -/
def fhEnable (n : Nat) : Key := (0x5A40 + n) * 256 + 0x01
/-- 5A40+n:02 PERIOD_MS (R625). -/
def fhPeriodMs (n : Nat) : Key := (0x5A40 + n) * 256 + 0x02
/-- 5A40+n:03 LOSS_ALARM (R625). -/
def fhLossAlarm (n : Nat) : Key := (0x5A40 + n) * 256 + 0x03
/-- 5A40+n:04 JITTER_ALARM_NS (R625). -/
def fhJitterAlarmNs (n : Nat) : Key := (0x5A40 + n) * 256 + 0x04
/-- 5A40+n:05 TABLE (R625). -/
def fhTable (n : Nat) : Key := (0x5A40 + n) * 256 + 0x05
/-- 5A40+n:06 ALARMS (R625). -/
def fhAlarms (n : Nat) : Key := (0x5A40 + n) * 256 + 0x06
/-- 5A40+n:07 TABLE_HI (R625). -/
def fhTableHi (n : Nat) : Key := (0x5A40 + n) * 256 + 0x07
/-- 5A60+s:01 ENABLE (R625). -/
def sigEnable (n : Nat) : Key := (0x5A60 + n) * 256 + 0x01
/-- 5A60+s:02 SRC (R625). -/
def sigSrc (n : Nat) : Key := (0x5A60 + n) * 256 + 0x02
/-- 5A60+s:03 SOURCE (R625). -/
def sigSource (n : Nat) : Key := (0x5A60 + n) * 256 + 0x03
/-- 5A60+s:04 MODE (R625). -/
def sigMode (n : Nat) : Key := (0x5A60 + n) * 256 + 0x04
/-- 5A60+s:05 GOLDEN (R625). -/
def sigGolden (n : Nat) : Key := (0x5A60 + n) * 256 + 0x05
/-- 5A60+s:06 MATCHES (R625). -/
def sigMatches (n : Nat) : Key := (0x5A60 + n) * 256 + 0x06
/-- 5A60+s:07 MISMATCHES (R625). -/
def sigMismatches (n : Nat) : Key := (0x5A60 + n) * 256 + 0x07
/-- 5A60+s:08 SKIPPED (R625). -/
def sigSkipped (n : Nat) : Key := (0x5A60 + n) * 256 + 0x08
/-- 5A60+s:09 LAST_MISMATCH (R625). -/
def sigLastMismatch (n : Nat) : Key := (0x5A60 + n) * 256 + 0x09
/-- 5A80+k:01 ENABLE (R625). -/
def streamEnable (n : Nat) : Key := (0x5A80 + n) * 256 + 0x01
/-- 5A80+k:02 DEST_ADDR (R625). -/
def streamDestAddr (n : Nat) : Key := (0x5A80 + n) * 256 + 0x02
/-- 5A80+k:03 DEST_PORT (R625). -/
def streamDestPort (n : Nat) : Key := (0x5A80 + n) * 256 + 0x03
/-- 5A80+k:04 QUEUE (R625). -/
def streamQueue (n : Nat) : Key := (0x5A80 + n) * 256 + 0x04
/-- 5A80+k:05 RATE_MBPS (R625). -/
def streamRateMbps (n : Nat) : Key := (0x5A80 + n) * 256 + 0x05
/-- 5A80+k:06 WRAPPER (R625). -/
def streamWrapper (n : Nat) : Key := (0x5A80 + n) * 256 + 0x06
/-- 5A80+k:07 RESEND (R625). -/
def streamResend (n : Nat) : Key := (0x5A80 + n) * 256 + 0x07
/-- 5A80+k:08 SENT (R625). -/
def streamSent (n : Nat) : Key := (0x5A80 + n) * 256 + 0x08
/-- 5C00:01 DARNER_ENABLE (R654). -/
def integDarnerEnable : Key := 0x5C00 * 256 + 0x01
/-- 5C00:02 CE_THRESHOLD (R654). -/
def integCeThreshold : Key := 0x5C00 * 256 + 0x02
/-- 5C00:03 MARCH_PRESERVE (R654). -/
def integMarchPreserve : Key := 0x5C00 * 256 + 0x03
/-- 5C00:04 MARCH_DESTROY (R654). -/
def integMarchDestroy : Key := 0x5C00 * 256 + 0x04
/-- 5C00:05 MARCH_RECOVER (R654). -/
def integMarchRecover : Key := 0x5C00 * 256 + 0x05
/-- 5C00:06 MARCH_STATE (R654). -/
def integMarchState : Key := 0x5C00 * 256 + 0x06
/-- 5C00:07 MARCH_RESULT (R654). -/
def integMarchResult : Key := 0x5C00 * 256 + 0x07
/-- 5C00:08 FUSE_REPAIRS (R654). -/
def integFuseRepairs : Key := 0x5C00 * 256 + 0x08
/-- 5C00:09 REPAIRS_PENDING (R654). -/
def integRepairsPending : Key := 0x5C00 * 256 + 0x09
/-- 5C01:(0x01+f) HOOP_STATUS (R654). -/
def hoopHoopStatus (j : Nat) : Key := 0x5C01 * 256 + (0x01 + j)
/-- 5C10+i:01 NAME (R654). -/
def instName (n : Nat) : Key := (0x5C10 + n) * 256 + 0x01
/-- 5C10+i:02 STATE (R654). -/
def instState (n : Nat) : Key := (0x5C10 + n) * 256 + 0x02
/-- 5C10+i:03 DARNER_EN (R654). -/
def instDarnerEn (n : Nat) : Key := (0x5C10 + n) * 256 + 0x03
/-- 5C10+i:04 SPARE_ROWS_USED (R654). -/
def instSpareRowsUsed (n : Nat) : Key := (0x5C10 + n) * 256 + 0x04
/-- 5C10+i:05 SPARE_COLUMN (R654). -/
def instSpareColumn (n : Nat) : Key := (0x5C10 + n) * 256 + 0x05
/-- 5C10+i:06 NEXT_ROW (R654). -/
def instNextRow (n : Nat) : Key := (0x5C10 + n) * 256 + 0x06
/-- 6500+i:01 CE (R655). -/
def instCntCe (n : Nat) : Key := (0x6500 + n) * 256 + 0x01
/-- 6500+i:02 UE (R655). -/
def instCntUe (n : Nat) : Key := (0x6500 + n) * 256 + 0x02
/-- 6500+i:03 DARNER_FAILS (R655). -/
def instCntDarnerFails (n : Nat) : Key := (0x6500 + n) * 256 + 0x03
/-- 6500+i:04 BORROWS (R655). -/
def instCntBorrows (n : Nat) : Key := (0x6500 + n) * 256 + 0x04
/-- 6600+f:01 CORRECTED (R655). -/
def hoopCntCorrected (n : Nat) : Key := (0x6600 + n) * 256 + 0x01
/-- 6600+f:02 OVERRUNS (R655). -/
def hoopCntOverruns (n : Nat) : Key := (0x6600 + n) * 256 + 0x02
/-- 6600+f:03 REWINDS (R655). -/
def hoopCntRewinds (n : Nat) : Key := (0x6600 + n) * 256 + 0x03
/-- 6600+f:04 FLUSHES (R655). -/
def hoopCntFlushes (n : Nat) : Key := (0x6600 + n) * 256 + 0x04
/-- 2000:01 DEV_STATE (R676). -/
def devDevState : Key := 0x2000 * 256 + 0x01
/-- 2000:02 STRAPS (R676). -/
def devStraps : Key := 0x2000 * 256 + 0x02
/-- 2000:03 RESET (R676). -/
def devReset : Key := 0x2000 * 256 + 0x03
/-- 2000:04 FAULT_CAUSE (R676). -/
def devFaultCause : Key := 0x2000 * 256 + 0x04
/-- 2000:05 FAULT_INST (R676). -/
def devFaultInst : Key := 0x2000 * 256 + 0x05
/-- 2000:06 LAST_RESET (R676). -/
def devLastReset : Key := 0x2000 * 256 + 0x06
/-- 2000:07 BOOT_TIME (R676). -/
def devBootTime : Key := 0x2000 * 256 + 0x07
/-- 6700:01 TJ (R716). -/
def teleTj : Key := 0x6700 * 256 + 0x01
/-- 6700:02 TJ_PEAK (R716). -/
def teleTjPeak : Key := 0x6700 * 256 + 0x02
/-- 6700:03 SUPPLY_FLAGS (R716). -/
def teleSupplyFlags : Key := 0x6700 * 256 + 0x03
/-- 6700:04 THERMAL_TRIPS (R716). -/
def teleThermalTrips : Key := 0x6700 * 256 + 0x04
/-- 6700:(0x10+k) RAIL_MV (R716). -/
def teleRailMv (j : Nat) : Key := 0x6700 * 256 + (0x10 + j)
/-- 5A20+n:0F STATE (R625). -/
def watchState (n : Nat) : Key := (0x5A20 + n) * 256 + 0x0F
/-- 5A40+n:0F STATE (R625). -/
def fhState (n : Nat) : Key := (0x5A40 + n) * 256 + 0x0F
/-- 5A60+n:0F STATE (R625). -/
def sigState (n : Nat) : Key := (0x5A60 + n) * 256 + 0x0F
/-- 5A80+n:0F STATE (R625). -/
def streamState (n : Nat) : Key := (0x5A80 + n) * 256 + 0x0F

end Sys2Proof.Machine.Obj
end

