-- ==== Sys2Proof/Machine/Objects.lean ====
section
/-! DEFINITION. The object dictionary of R496: every object the chapters define, with its type,
access, Range, default and Zero behaviour, and a name for the key of each (index x 256 + sub-index).
The rows follow the object tables of the chapters, row by row. -/

namespace Sys2Proof.Machine

/-- The types of R498. -/
inductive Ty where
  | bool | u8 | u16 | u32 | u64 | i8 | i16 | i32 | i64 | enum8 | time | str | dom
deriving DecidableEq, Repr

/-- The access codes of R500 (the C suffix is ObjDef.crit). -/
inductive Acc where
  | ro | wo | rw | rws
deriving DecidableEq, Repr

/-- The Range and Zero columns, as R499, R10 and R504 read them. `special` leaves the check to the
object's chapter. -/
inductive Rng where
  | any
  | clamp (lo hi : Int)
  | zeroOwn (lo hi : Int)
  | parts (zeroRejected : Bool) (ps : List (Int × Int))
  | enum (hi : Nat)
  | bits (mask : Nat)
  | pow2 (lo hi : Nat)
  | len (lo hi : Nat)
  | special
deriving DecidableEq, Repr

/-- One row of an object table: the instances base .. base + span - 1, the members sub .. sub + subSpan - 1. -/
structure ObjDef where
  base : Nat
  span : Nat
  sub : Nat
  subSpan : Nat
  ty : Ty
  acc : Acc
  crit : Bool
  rng : Rng
  dflt : Nat
  zeroEmpty : Bool
deriving DecidableEq, Repr

/-- The objects of indices 1000 to 10FF. -/
def objs10 : List ObjDef := [
  ⟨0x1000, 1, 0x01, 1, .str, .ro, false, .any, 0, false⟩,
  ⟨0x1000, 1, 0x02, 1, .str, .ro, false, .any, 0, false⟩,
  ⟨0x1000, 1, 0x03, 1, .enum8, .ro, false, .any, 0, false⟩,
  ⟨0x1000, 1, 0x04, 1, .enum8, .ro, false, .any, 0, false⟩,
  ⟨0x1000, 1, 0x05, 1, .str, .ro, false, .any, 0, false⟩,
  ⟨0x1000, 1, 0x06, 1, .u64, .ro, false, .any, 0, false⟩,
  ⟨0x1000, 1, 0x07, 1, .u16, .ro, false, .any, 1, false⟩,
  ⟨0x1000, 1, 0x08, 1, .u8, .ro, false, .any, 0, false⟩,
  ⟨0x1000, 1, 0x09, 1, .u8, .ro, false, .any, 0, false⟩,
  ⟨0x1000, 1, 0x0A, 1, .u8, .ro, false, .any, 0, false⟩,
  ⟨0x1000, 1, 0x0B, 1, .u8, .ro, false, .any, 0, false⟩,
  ⟨0x1020, 1, 0x01, 1, .dom, .ro, false, .len 1 4096, 0, false⟩,
  ⟨0x1020, 1, 0x02, 1, .dom, .ro, false, .len 96 96, 0, false⟩,
  ⟨0x1020, 1, 0x03, 1, .dom, .ro, false, .len 96 96, 0, false⟩]

/-- The objects of indices 1100 to 11FF. -/
def objs11 : List ObjDef := [
  ⟨0x1100, 1, 0x01, 1, .u64, .ro, false, .any, 0, false⟩,
  ⟨0x1100, 1, 0x02, 1, .u32, .rw, false, .any, 0, false⟩,
  ⟨0x1100, 1, 0x03, 1, .u8, .rw, false, .zeroOwn 1 30, 0, false⟩,
  ⟨0x1100, 1, 0x04, 1, .u32, .rw, false, .any, 0, false⟩,
  ⟨0x1100, 1, 0x05, 1, .dom, .rw, false, .len 16 16, 0, false⟩,
  ⟨0x1100, 1, 0x06, 1, .u8, .rw, false, .clamp 1 128, 64, false⟩,
  ⟨0x1100, 1, 0x07, 1, .dom, .rw, false, .len 16 16, 0, false⟩,
  ⟨0x1100, 1, 0x08, 1, .u16, .ro, false, .any, 47120, false⟩,
  ⟨0x1110, 8, 0x01, 1, .dom, .rw, false, .len 16 16, 0, false⟩,
  ⟨0x1110, 8, 0x02, 1, .u16, .rw, false, .zeroOwn 1 65535, 0, false⟩,
  ⟨0x1110, 8, 0x03, 1, .u32, .rw, false, .bits 0x3FFF, 0, false⟩,
  ⟨0x1110, 8, 0x04, 1, .u64, .ro, false, .any, 0, false⟩,
  ⟨0x1110, 8, 0x05, 1, .u32, .ro, false, .any, 0, false⟩]

/-- The objects of indices 1200 to 12FF. -/
def objs12 : List ObjDef := [
  ⟨0x1200, 1, 0x01, 1, .enum8, .ro, false, .any, 0, false⟩,
  ⟨0x1200, 1, 0x02, 1, .dom, .rw, false, .len 96 96, 0, false⟩,
  ⟨0x1200, 1, 0x03, 1, .u8, .rw, true, .clamp 0 3, 0, false⟩,
  ⟨0x1200, 1, 0x04, 1, .u8, .rw, true, .clamp 0 3, 0, false⟩,
  ⟨0x1200, 1, 0x05, 1, .u32, .rw, true, .zeroOwn 1 86400, 600, false⟩,
  ⟨0x1200, 1, 0x06, 1, .u16, .ro, false, .any, 0, false⟩,
  ⟨0x1200, 1, 0x07, 1, .u16, .wo, true, .any, 0, true⟩,
  ⟨0x1210, 8, 0x01, 1, .enum8, .ro, false, .any, 0, false⟩,
  ⟨0x1210, 8, 0x02, 1, .u8, .ro, false, .any, 0, false⟩,
  ⟨0x1210, 8, 0x03, 1, .dom, .ro, false, .len 18 18, 0, false⟩,
  ⟨0x1210, 8, 0x04, 1, .u64, .ro, false, .any, 0, false⟩,
  ⟨0x1210, 8, 0x05, 1, .u64, .ro, false, .any, 0, false⟩,
  ⟨0x1210, 8, 0x06, 1, .u64, .ro, false, .any, 0, false⟩,
  ⟨0x1210, 8, 0x07, 1, .bool, .wo, true, .any, 0, true⟩]

/-- The objects of indices 1300 to 13FF. -/
def objs13 : List ObjDef := [
  ⟨0x1300, 1, 0x01, 1, .u64, .ro, false, .any, 0, false⟩,
  ⟨0x1300, 1, 0x02, 1, .u64, .ro, false, .any, 0, false⟩,
  ⟨0x1300, 1, 0x03, 1, .u64, .ro, false, .any, 0, false⟩,
  ⟨0x1300, 1, 0x04, 1, .u32, .rws, false, .special, 0, false⟩,
  ⟨0x1300, 1, 0x05, 1, .enum8, .ro, false, .any, 0, false⟩,
  ⟨0x1300, 1, 0x06, 1, .u64, .ro, false, .any, 0, false⟩,
  ⟨0x1300, 1, 0x07, 1, .u64, .rw, false, .any, 0, false⟩,
  ⟨0x1300, 1, 0x08, 1, .dom, .ro, false, .len 1 131072, 0, false⟩,
  ⟨0x1300, 1, 0x09, 1, .u64, .ro, false, .any, 0, false⟩]

/-- The objects of indices 1F00 to 1FFF. -/
def objs1F : List ObjDef := [
  ⟨0x1F00, 3, 0x01, 1, .u16, .ro, false, .any, 0, false⟩,
  ⟨0x1F00, 3, 0x02, 1, .u32, .ro, false, .any, 0, false⟩,
  ⟨0x1F00, 3, 0x03, 1, .u8, .ro, false, .any, 0, false⟩,
  ⟨0x1F00, 3, 0x04, 1, .time, .ro, false, .any, 0, false⟩,
  ⟨0x1F00, 3, 0x05, 1, .dom, .ro, false, .len 1 131072, 0, false⟩,
  ⟨0x1F00, 3, 0x06, 1, .u64, .ro, false, .any, 0, false⟩,
  ⟨0x1F00, 3, 0x07, 1, .u32, .ro, false, .any, 0, false⟩,
  ⟨0x1F00, 3, 0x08, 1, .u64, .ro, false, .any, 0, false⟩,
  ⟨0x1F00, 3, 0x09, 1, .u8, .ro, false, .any, 0, false⟩]

/-- The objects of indices 2000 to 20FF. -/
def objs20 : List ObjDef := [
  ⟨0x2000, 1, 0x01, 1, .enum8, .ro, false, .any, 0, false⟩,
  ⟨0x2000, 1, 0x02, 1, .u8, .ro, false, .any, 0, false⟩,
  ⟨0x2000, 1, 0x03, 1, .enum8, .wo, true, .enum 4, 0, true⟩,
  ⟨0x2000, 1, 0x04, 1, .enum8, .ro, false, .any, 0, false⟩,
  ⟨0x2000, 1, 0x05, 1, .u16, .ro, false, .any, 65535, false⟩,
  ⟨0x2000, 1, 0x06, 1, .enum8, .ro, false, .any, 1, false⟩,
  ⟨0x2000, 1, 0x07, 1, .u32, .ro, false, .any, 0, false⟩]

/-- The objects of indices 2100 to 21FF. -/
def objs21a : List ObjDef := [
  ⟨0x2100, 1, 0x01, 1, .enum8, .rws, false, .enum 4, 0, false⟩,
  ⟨0x2100, 1, 0x02, 1, .u8, .rws, false, .clamp 0 3, 0, false⟩,
  ⟨0x2100, 1, 0x03, 1, .enum8, .rws, false, .enum 2, 0, false⟩,
  ⟨0x2100, 1, 0x04, 1, .u32, .rws, false, .clamp 2 65535, 64, false⟩,
  ⟨0x2100, 1, 0x05, 1, .u8, .rws, false, .clamp 1 255, 4, false⟩,
  ⟨0x2100, 1, 0x06, 1, .u8, .rws, false, .clamp 0 10, 6, false⟩,
  ⟨0x2100, 1, 0x07, 1, .u8, .rws, false, .clamp 1 16, 3, false⟩,
  ⟨0x2100, 1, 0x08, 1, .enum8, .rws, false, .enum 1, 0, false⟩,
  ⟨0x2100, 1, 0x09, 1, .u32, .rws, false, .zeroOwn 1000 4294967295, 1000000, false⟩,
  ⟨0x2100, 1, 0x10, 1, .enum8, .ro, false, .any, 0, false⟩,
  ⟨0x2100, 1, 0x11, 1, .i64, .ro, false, .any, 0, false⟩,
  ⟨0x2100, 1, 0x12, 1, .u64, .ro, false, .any, 0, false⟩,
  ⟨0x2100, 1, 0x13, 1, .enum8, .wo, true, .enum 3, 0, false⟩,
  ⟨0x2100, 1, 0x14, 1, .time, .ro, false, .any, 0, false⟩,
  ⟨0x2108, 1, 0x01, 1, .u32, .rws, false, .zeroOwn 1000 4294967295, 0, false⟩,
  ⟨0x2108, 1, 0x02, 1, .u32, .rws, false, .clamp 1 4294967295, 1, false⟩,
  ⟨0x2108, 1, 0x03, 1, .enum8, .rws, false, .enum 1, 0, false⟩,
  ⟨0x2108, 1, 0x04, 1, .u16, .rws, false, .clamp 0 4095, 680, false⟩,
  ⟨0x2108, 1, 0x05, 1, .u16, .rws, false, .clamp 0 4095, 920, false⟩,
  ⟨0x2108, 1, 0x06, 1, .u8, .rws, false, .clamp 0 255, 8, false⟩,
  ⟨0x2108, 1, 0x07, 1, .u16, .rws, false, .clamp 1 65535, 50, false⟩,
  ⟨0x2108, 1, 0x08, 1, .u8, .rws, false, .clamp 1 255, 16, false⟩,
  ⟨0x2110, 1, 0x01, 1, .time, .rws, false, .any, 0, false⟩,
  ⟨0x2110, 1, 0x02, 1, .u64, .rws, false, .clamp 0 281474976710655, 0, false⟩]

/-- The objects of indices 2100 to 21FF, continued. -/
def objs21b : List ObjDef := [
  ⟨0x2110, 1, 0x03, 1, .u32, .rws, false, .clamp 0 999999999, 0, false⟩,
  ⟨0x2110, 1, 0x04, 1, .i16, .rws, false, .any, 0, false⟩,
  ⟨0x2120, 1, 0x01, 1, .i32, .rw, false, .clamp (-219902325) 219902325, 0, false⟩,
  ⟨0x2120, 1, 0x02, 1, .i64, .wo, false, .any, 0, true⟩,
  ⟨0x2120, 1, 0x03, 1, .u32, .rw, false, .zeroOwn 1 4294967295, 0, false⟩]

/-- All the objects of indices 2100 to 21FF. -/
def objs21 : List ObjDef := objs21a ++ objs21b

/-- The objects of indices 2200 to 22FF. -/
def objs22a : List ObjDef := [
  ⟨0x2200, 1, 0x01, 1, .enum8, .ro, false, .any, 0, false⟩,
  ⟨0x2201, 1, 0x01, 1, .u64, .ro, false, .special, 0, false⟩,
  ⟨0x2201, 1, 0x02, 1, .bool, .ro, false, .any, 0, false⟩,
  ⟨0x2201, 1, 0x03, 1, .u8, .ro, false, .any, 255, false⟩,
  ⟨0x2201, 1, 0x04, 1, .bool, .rws, false, .any, 0, false⟩,
  ⟨0x2201, 1, 0x05, 1, .u32, .rws, false, .clamp 1 4294967295, 1, false⟩,
  ⟨0x2201, 1, 0x06, 1, .u32, .ro, false, .any, 0, false⟩,
  ⟨0x2202, 1, 0x01, 1, .u64, .rws, false, .special, 0, false⟩,
  ⟨0x2202, 1, 0x02, 1, .bool, .ro, false, .any, 0, false⟩,
  ⟨0x2202, 1, 0x03, 1, .u8, .ro, false, .any, 255, false⟩,
  ⟨0x2202, 1, 0x04, 1, .bool, .rws, false, .any, 0, false⟩,
  ⟨0x2202, 1, 0x05, 1, .u32, .rws, false, .clamp 1 4294967295, 1, false⟩,
  ⟨0x2204, 4, 0x01, 1, .u64, .rws, false, .special, 0, false⟩,
  ⟨0x2204, 4, 0x02, 1, .enum8, .rws, false, .enum 1, 0, false⟩,
  ⟨0x2204, 4, 0x03, 1, .bool, .rws, false, .any, 0, false⟩,
  ⟨0x2204, 4, 0x04, 1, .u32, .rws, false, .clamp 1 4294967295, 1, false⟩,
  ⟨0x2204, 4, 0x05, 1, .bool, .rws, false, .any, 0, false⟩,
  ⟨0x2204, 4, 0x06, 1, .time, .rws, false, .any, 0, false⟩,
  ⟨0x2204, 4, 0x07, 1, .time, .rws, false, .any, 0, false⟩,
  ⟨0x2204, 4, 0x08, 1, .i32, .wo, false, .clamp (-1048576) 1048576, 0, true⟩,
  ⟨0x2204, 4, 0x09, 1, .i32, .ro, false, .any, 0, false⟩,
  ⟨0x2204, 4, 0x0A, 1, .u16, .rws, false, .clamp 16 65535, 16, false⟩,
  ⟨0x2204, 4, 0x0B, 1, .u32, .ro, false, .any, 0, false⟩,
  ⟨0x2204, 4, 0x0C, 1, .bool, .ro, false, .any, 0, false⟩]

/-- The objects of indices 2200 to 22FF, continued. -/
def objs22b : List ObjDef := [
  ⟨0x2204, 4, 0x0D, 1, .u8, .ro, false, .any, 255, false⟩,
  ⟨0x2204, 4, 0x0E, 1, .enum8, .ro, false, .any, 0, false⟩,
  ⟨0x2210, 1, 0x01, 64, .u64, .rw, false, .special, 0, false⟩]

/-- All the objects of indices 2200 to 22FF. -/
def objs22 : List ObjDef := objs22a ++ objs22b

/-- The objects of indices 2400 to 24FF. -/
def objs24 : List ObjDef := [
  ⟨0x2400, 16, 0x01, 1, .enum8, .rws, false, .enum 1, 0, false⟩,
  ⟨0x2400, 16, 0x02, 1, .enum8, .rws, false, .enum 1, 0, false⟩,
  ⟨0x2400, 16, 0x03, 1, .u16, .rws, false, .clamp 0 4095, 800, false⟩,
  ⟨0x2400, 16, 0x04, 1, .u8, .rws, false, .any, 0, false⟩,
  ⟨0x2400, 16, 0x05, 1, .u16, .ro, false, .any, 0, false⟩,
  ⟨0x2400, 16, 0x06, 1, .u8, .ro, false, .any, 0, false⟩]

/-- The objects of indices 3000 to 30FF. -/
def objs30 : List ObjDef := [
  ⟨0x3000, 256, 0x01, 1, .bool, .rws, false, .any, 0, false⟩,
  ⟨0x3000, 256, 0x02, 1, .enum8, .rws, false, .enum 1, 0, false⟩,
  ⟨0x3000, 256, 0x03, 1, .u16, .rws, false, .clamp 0 4095, 1520, false⟩,
  ⟨0x3000, 256, 0x04, 1, .u16, .rws, false, .clamp 0 4095, 1200, false⟩,
  ⟨0x3000, 256, 0x05, 1, .u8, .rws, false, .clamp 0 255, 8, false⟩,
  ⟨0x3000, 256, 0x06, 1, .u8, .rws, false, .clamp 0 255, 8, false⟩,
  ⟨0x3000, 256, 0x07, 1, .u8, .rws, false, .special, 1, false⟩,
  ⟨0x3000, 256, 0x08, 1, .u8, .rws, false, .special, 0, false⟩,
  ⟨0x3000, 256, 0x09, 1, .enum8, .rws, false, .enum 3, 0, false⟩,
  ⟨0x3000, 256, 0x0A, 1, .i16, .rws, false, .clamp (-2048) 2048, 0, false⟩,
  ⟨0x3000, 256, 0x0B, 1, .enum8, .rws, false, .enum 2, 0, false⟩,
  ⟨0x3000, 256, 0x0C, 1, .u8, .ro, false, .any, 0, false⟩,
  ⟨0x3000, 256, 0x0D, 1, .u8, .ro, false, .any, 0, false⟩,
  ⟨0x3000, 256, 0x0E, 1, .enum8, .ro, false, .any, 2, false⟩]

/-- The objects of indices 3100 to 31FF. -/
def objs31 : List ObjDef := [
  ⟨0x3100, 32, 0x01, 1, .bool, .rws, false, .any, 0, false⟩,
  ⟨0x3100, 32, 0x02, 1, .enum8, .ro, false, .any, 0, false⟩,
  ⟨0x3100, 32, 0x03, 1, .enum8, .rws, false, .enum 1, 0, false⟩,
  ⟨0x3100, 32, 0x04, 1, .u64, .rws, false, .special, 10312500000, false⟩,
  ⟨0x3100, 32, 0x05, 1, .u32, .rws, false, .clamp 1 4294967295, 1, false⟩,
  ⟨0x3100, 32, 0x06, 1, .bool, .rws, false, .any, 0, false⟩,
  ⟨0x3100, 32, 0x07, 1, .bool, .rws, false, .any, 1, false⟩,
  ⟨0x3100, 32, 0x08, 1, .u16, .rws, false, .clamp 50 1000, 300, false⟩,
  ⟨0x3100, 32, 0x09, 1, .u16, .rws, false, .clamp 20 200, 50, false⟩,
  ⟨0x3100, 32, 0x0A, 1, .enum8, .ro, false, .any, 0, false⟩,
  ⟨0x3100, 32, 0x0B, 1, .u8, .ro, false, .any, 255, false⟩,
  ⟨0x3100, 32, 0x10, 1, .enum8, .rws, false, .enum 2, 0, false⟩,
  ⟨0x3100, 32, 0x11, 1, .u8, .rws, false, .clamp 0 31, 12, false⟩,
  ⟨0x3100, 32, 0x12, 1, .u8, .ro, false, .any, 0, false⟩,
  ⟨0x3100, 32, 0x20, 12, .i8, .rws, false, .special, 0, false⟩,
  ⟨0x3100, 32, 0x30, 12, .i8, .ro, false, .any, 0, false⟩,
  ⟨0x3100, 32, 0x40, 1, .enum8, .rws, false, .enum 2, 1, false⟩,
  ⟨0x3100, 32, 0x41, 1, .u32, .rws, false, .zeroOwn 1 4294967295, 3600, false⟩,
  ⟨0x3100, 32, 0x42, 1, .u8, .rws, false, .clamp 16 32, 24, false⟩,
  ⟨0x3100, 32, 0x43, 1, .u32, .rws, false, .any, 0, false⟩,
  ⟨0x3100, 32, 0x44, 1, .bool, .wo, false, .any, 0, true⟩,
  ⟨0x3100, 32, 0x45, 1, .dom, .ro, false, .len 1 2048, 0, false⟩,
  ⟨0x3100, 32, 0x46, 1, .dom, .ro, false, .len 8128 24384, 0, false⟩]

/-- The objects of indices 3200 to 32FF. -/
def objs32a : List ObjDef := [
  ⟨0x3200, 32, 0x01, 1, .enum8, .rws, false, .enum 4, 0, false⟩,
  ⟨0x3200, 32, 0x02, 1, .enum8, .ro, false, .any, 0, false⟩,
  ⟨0x3200, 32, 0x03, 1, .u16, .rws, false, .any, 16380, false⟩,
  ⟨0x3200, 32, 0x04, 1, .u16, .rws, false, .any, 254, false⟩,
  ⟨0x3200, 32, 0x05, 1, .enum8, .ro, false, .any, 0, false⟩,
  ⟨0x3200, 32, 0x10, 1, .enum8, .rws, false, .enum 5, 0, false⟩,
  ⟨0x3200, 32, 0x11, 1, .enum8, .rws, false, .enum 2, 0, false⟩,
  ⟨0x3200, 32, 0x12, 1, .bool, .rws, false, .any, 0, false⟩,
  ⟨0x3200, 32, 0x13, 1, .u32, .ro, false, .any, 0, false⟩,
  ⟨0x3200, 32, 0x14, 1, .u16, .ro, false, .any, 0, false⟩,
  ⟨0x3200, 32, 0x15, 1, .u32, .ro, false, .any, 0, false⟩,
  ⟨0x3200, 32, 0x20, 16, .u32, .rws, false, .bits 3221291007, 0, false⟩,
  ⟨0x3200, 32, 0x30, 1, .enum8, .rws, false, .enum 2, 0, false⟩,
  ⟨0x3200, 32, 0x31, 1, .enum8, .rws, false, .enum 2, 0, false⟩,
  ⟨0x3200, 32, 0x32, 1, .u16, .rws, false, .clamp 64 16383, 9728, false⟩,
  ⟨0x3200, 32, 0x33, 1, .bool, .ro, false, .any, 0, false⟩,
  ⟨0x3200, 32, 0x34, 1, .bool, .ro, false, .any, 0, false⟩,
  ⟨0x3200, 32, 0x40, 1, .u16, .rws, false, .clamp 0 1023, 380, false⟩,
  ⟨0x3200, 32, 0x41, 1, .u16, .rws, false, .clamp 0 1023, 643, false⟩,
  ⟨0x3200, 32, 0x42, 1, .bool, .rws, false, .any, 1, false⟩,
  ⟨0x3200, 32, 0x43, 1, .u16, .rws, false, .clamp 0 511, 444, false⟩,
  ⟨0x3200, 32, 0x44, 1, .u8, .rws, false, .clamp 1 255, 3, false⟩,
  ⟨0x3200, 32, 0x50, 1, .enum8, .rws, false, .enum 2, 0, false⟩,
  ⟨0x3200, 32, 0x51, 1, .u8, .rws, false, .clamp 2 32, 16, false⟩]

/-- The objects of indices 3200 to 32FF, continued. -/
def objs32b : List ObjDef := [
  ⟨0x3200, 32, 0x52, 1, .u32, .rws, false, .special, 32796, false⟩,
  ⟨0x3200, 32, 0x53, 1, .u32, .rws, false, .any, 65535, false⟩,
  ⟨0x3200, 32, 0x54, 1, .enum8, .rws, false, .enum 2, 1, false⟩,
  ⟨0x3200, 32, 0x55, 1, .u16, .rws, false, .clamp 0 511, 284, false⟩,
  ⟨0x3200, 32, 0x56, 1, .enum8, .rws, false, .enum 1, 0, false⟩,
  ⟨0x3200, 32, 0x57, 1, .bool, .rws, false, .any, 1, false⟩,
  ⟨0x3200, 32, 0x60, 1, .u8, .rws, false, .clamp 0 15, 3, false⟩,
  ⟨0x3200, 32, 0x61, 1, .u8, .rws, false, .clamp 0 15, 12, false⟩,
  ⟨0x3200, 32, 0x62, 1, .u8, .rws, false, .clamp 0 1, 1, false⟩,
  ⟨0x3200, 32, 0x63, 1, .u8, .rws, false, .clamp 1 255, 64, false⟩,
  ⟨0x3200, 32, 0x64, 1, .u8, .rws, false, .clamp 1 64, 16, false⟩,
  ⟨0x3200, 32, 0x65, 1, .u32, .rws, false, .any, 0, false⟩,
  ⟨0x3200, 32, 0x66, 1, .u32, .rws, false, .any, 0, false⟩,
  ⟨0x3200, 32, 0x67, 1, .enum8, .rws, false, .enum 1, 0, false⟩]

/-- All the objects of indices 3200 to 32FF. -/
def objs32 : List ObjDef := objs32a ++ objs32b

/-- The objects of indices 3300 to 33FF. -/
def objs33 : List ObjDef := [
  ⟨0x3300, 16, 0x01, 1, .u64, .rws, false, .special, 18446744073709551615, false⟩,
  ⟨0x3300, 16, 0x02, 1, .enum8, .rws, false, .enum 1, 0, false⟩,
  ⟨0x3300, 16, 0x03, 1, .enum8, .ro, false, .any, 0, false⟩,
  ⟨0x3300, 16, 0x04, 1, .enum8, .ro, false, .any, 0, false⟩,
  ⟨0x3300, 16, 0x05, 1, .u32, .ro, false, .any, 0, false⟩,
  ⟨0x3300, 16, 0x10, 8, .i8, .ro, false, .any, 0, false⟩,
  ⟨0x3300, 16, 0x20, 8, .u8, .rws, false, .clamp 0 128, 0, false⟩]

/-- The objects of indices 3400 to 34FF. -/
def objs34a : List ObjDef := [
  ⟨0x3400, 1, 0x01, 1, .u32, .rws, false, .clamp 16000 100000000, 90000, false⟩,
  ⟨0x3400, 1, 0x02, 1, .u32, .rws, false, .clamp 16000 100000000, 90000, false⟩,
  ⟨0x3400, 1, 0x03, 1, .u32, .rws, false, .clamp 16000 100000000, 48000, false⟩,
  ⟨0x3400, 1, 0x04, 1, .u32, .rws, false, .clamp 16000 100000000, 90000, false⟩,
  ⟨0x3410, 1, 0x01, 1, .dom, .wo, false, .len 56 56, 0, true⟩,
  ⟨0x3410, 1, 0x02, 3, .dom, .ro, false, .len 40 40, 0, false⟩,
  ⟨0x3420, 32, 0x01, 1, .bool, .rws, false, .any, 0, false⟩,
  ⟨0x3420, 32, 0x02, 1, .enum8, .rws, false, .enum 1, 0, false⟩,
  ⟨0x3420, 32, 0x03, 1, .u32, .rws, false, .any, 4294967295, false⟩,
  ⟨0x3420, 32, 0x04, 1, .u8, .rws, false, .clamp 0 127, 0, false⟩,
  ⟨0x3420, 32, 0x05, 1, .u8, .rws, false, .clamp 0 127, 0, false⟩,
  ⟨0x3420, 32, 0x06, 1, .u8, .rws, false, .clamp 0 127, 0, false⟩,
  ⟨0x3420, 32, 0x07, 1, .u16, .rws, false, .clamp 0 65535, 1024, false⟩,
  ⟨0x3420, 32, 0x08, 1, .u16, .rws, false, .special, 65535, false⟩,
  ⟨0x3420, 32, 0x09, 1, .bool, .rws, false, .any, 1, false⟩,
  ⟨0x3420, 32, 0x0A, 1, .u16, .rws, false, .parts false [(0, 4095), (65535, 65535)], 65535, false⟩,
  ⟨0x3420, 32, 0x0B, 1, .u8, .rws, false, .clamp 0 255, 0, false⟩,
  ⟨0x3420, 32, 0x0C, 1, .u16, .rws, false, .parts false [(0, 4095), (65535, 65535)], 65535, false⟩,
  ⟨0x3420, 32, 0x0D, 1, .u16, .rws, false, .parts false [(0, 4095), (65535, 65535)], 65535, false⟩,
  ⟨0x3420, 32, 0x0E, 1, .u16, .rws, false, .parts false [(0, 4095), (65535, 65535)], 65535, false⟩,
  ⟨0x3420, 32, 0x0F, 1, .u8, .rws, false, .any, 126, false⟩,
  ⟨0x3420, 32, 0x10, 1, .u16, .rws, false, .clamp 1 32767, 3000, false⟩,
  ⟨0x3420, 32, 0x11, 1, .u16, .rws, false, .clamp 1 32767, 100, false⟩,
  ⟨0x3420, 32, 0x12, 1, .u32, .rws, false, .any, 0, false⟩]

/-- The objects of indices 3400 to 34FF, continued. -/
def objs34b : List ObjDef := [
  ⟨0x3420, 32, 0x13, 1, .u16, .rws, false, .zeroOwn 64 16383, 0, false⟩,
  ⟨0x3420, 32, 0x14, 1, .bool, .rws, false, .any, 1, false⟩,
  ⟨0x3420, 32, 0x20, 4, .u32, .rws, false, .zeroOwn 10 500000000, 0, false⟩,
  ⟨0x3420, 32, 0x30, 1, .u16, .ro, false, .any, 0, false⟩,
  ⟨0x3420, 32, 0x31, 1, .u8, .ro, false, .any, 8, false⟩]

/-- All the objects of indices 3400 to 34FF. -/
def objs34 : List ObjDef := objs34a ++ objs34b

/-- The objects of indices 3600 to 36FF. -/
def objs36 : List ObjDef := [
  ⟨0x3600, 256, 0x01, 1, .enum8, .rws, false, .enum 12, 0, false⟩,
  ⟨0x3600, 256, 0x02, 1, .u16, .rws, false, .special, 0, false⟩,
  ⟨0x3600, 256, 0x03, 1, .enum8, .rws, false, .special, 0, false⟩,
  ⟨0x3600, 256, 0x04, 1, .u8, .rws, false, .parts false [(0, 63), (255, 255)], 255, false⟩,
  ⟨0x3600, 256, 0x05, 4, .u64, .rws, false, .special, 0, false⟩,
  ⟨0x3600, 256, 0x09, 4, .u64, .rws, false, .special, 0, false⟩,
  ⟨0x3600, 256, 0x0D, 1, .bool, .ro, false, .any, 0, false⟩]

/-- The objects of indices 3800 to 38FF. -/
def objs38 : List ObjDef := [
  ⟨0x3800, 8, 0x01, 1, .bool, .rws, false, .any, 0, false⟩,
  ⟨0x3800, 8, 0x02, 1, .u8, .rws, false, .parts false [(0, 15), (255, 255)], 255, false⟩,
  ⟨0x3800, 8, 0x03, 1, .enum8, .ro, false, .any, 0, false⟩,
  ⟨0x3800, 8, 0x04, 1, .u8, .ro, false, .any, 0, false⟩,
  ⟨0x3800, 8, 0x05, 1, .u64, .ro, false, .any, 0, false⟩,
  ⟨0x3800, 8, 0x06, 1, .bool, .ro, false, .any, 0, false⟩,
  ⟨0x3800, 8, 0x10, 4, .u64, .ro, false, .any, 0, false⟩,
  ⟨0x3800, 8, 0x14, 4, .u64, .ro, false, .any, 0, false⟩,
  ⟨0x3800, 8, 0x18, 4, .u64, .ro, false, .any, 0, false⟩,
  ⟨0x3800, 8, 0x1C, 4, .u64, .ro, false, .any, 0, false⟩,
  ⟨0x3800, 8, 0x20, 4, .u64, .ro, false, .any, 0, false⟩,
  ⟨0x3800, 8, 0x30, 1, .dom, .rws, false, .len 66 1056, 0, true⟩,
  ⟨0x3810, 16, 0x01, 1, .dom, .rws, false, .len 4300 32768, 0, true⟩,
  ⟨0x3810, 16, 0x02, 1, .enum8, .ro, false, .any, 0, true⟩,
  ⟨0x3810, 16, 0x03, 1, .u32, .ro, false, .any, 0, false⟩,
  ⟨0x3810, 16, 0x04, 1, .u32, .ro, false, .any, 0, false⟩,
  ⟨0x3810, 16, 0x05, 1, .u32, .ro, false, .any, 0, false⟩,
  ⟨0x3810, 16, 0x06, 1, .u8, .ro, false, .any, 0, false⟩,
  ⟨0x3810, 16, 0x07, 1, .bool, .wo, false, .any, 0, true⟩,
  ⟨0x3810, 16, 0x08, 1, .u32, .ro, false, .any, 0, false⟩,
  ⟨0x3810, 16, 0x09, 1, .enum8, .ro, false, .any, 0, false⟩,
  ⟨0x3810, 16, 0x0A, 1, .u32, .ro, false, .any, 0, false⟩]

/-- The objects of indices 4000 to 40FF (and of the queues up to 4FFF). -/
def objs40a : List ObjDef := [
  ⟨0x4000, 4096, 0x01, 1, .bool, .rws, false, .any, 0, false⟩,
  ⟨0x4000, 4096, 0x02, 1, .enum8, .ro, false, .any, 0, false⟩,
  ⟨0x4000, 4096, 0x03, 1, .enum8, .rws, false, .enum 8, 0, false⟩,
  ⟨0x4000, 4096, 0x04, 1, .u16, .rws, false, .special, 0, false⟩,
  ⟨0x4000, 4096, 0x05, 1, .enum8, .rws, false, .enum 3, 0, false⟩,
  ⟨0x4000, 4096, 0x06, 1, .u32, .rws, false, .clamp 0 4294967295, 0, false⟩,
  ⟨0x4000, 4096, 0x07, 1, .u32, .rws, false, .clamp 1 4294967295, 1000, false⟩,
  ⟨0x4000, 4096, 0x08, 1, .u16, .rws, false, .clamp 1 65535, 1, false⟩,
  ⟨0x4000, 4096, 0x09, 1, .bool, .rws, false, .any, 0, false⟩,
  ⟨0x4000, 4096, 0x0A, 1, .u8, .rws, false, .parts false [(0, 63), (255, 255)], 255, false⟩,
  ⟨0x4000, 4096, 0x0B, 1, .u8, .rws, false, .clamp 0 15, 0, false⟩,
  ⟨0x4000, 4096, 0x0C, 1, .u32, .rws, false, .any, 0, false⟩,
  ⟨0x4000, 4096, 0x0D, 1, .u32, .rws, false, .any, 0, false⟩,
  ⟨0x4000, 4096, 0x0E, 1, .u32, .rws, false, .special, 0, false⟩,
  ⟨0x4000, 4096, 0x0F, 1, .u8, .rws, false, .clamp 0 255, 1, false⟩,
  ⟨0x4000, 4096, 0x10, 1, .u16, .rws, false, .clamp 4 1024, 16, false⟩,
  ⟨0x4000, 4096, 0x11, 1, .bool, .wo, false, .any, 0, true⟩,
  ⟨0x4000, 4096, 0x12, 1, .bool, .wo, false, .any, 0, true⟩,
  ⟨0x4000, 4096, 0x20, 1, .u32, .ro, false, .any, 0, false⟩,
  ⟨0x4000, 4096, 0x21, 1, .u16, .ro, false, .any, 0, false⟩,
  ⟨0x4000, 4096, 0x22, 1, .u32, .ro, false, .any, 0, false⟩,
  ⟨0x4000, 4096, 0x23, 1, .u32, .ro, false, .any, 4294967295, false⟩,
  ⟨0x4000, 4096, 0x24, 1, .u32, .ro, false, .any, 268435455, false⟩,
  ⟨0x4000, 4096, 0x25, 1, .u32, .ro, false, .any, 0, false⟩]

/-- The objects of indices 4000 to 40FF, continued. -/
def objs40b : List ObjDef := [
  ⟨0x4000, 4096, 0x26, 1, .u32, .ro, false, .any, 0, false⟩,
  ⟨0x4000, 4096, 0x27, 1, .u64, .ro, false, .any, 0, false⟩,
  ⟨0x4000, 4096, 0x28, 1, .u64, .ro, false, .any, 0, false⟩,
  ⟨0x4000, 4096, 0x29, 1, .u32, .ro, false, .any, 0, false⟩,
  ⟨0x4000, 4096, 0x2A, 1, .u32, .ro, false, .any, 0, false⟩,
  ⟨0x4000, 4096, 0x2B, 1, .u32, .ro, false, .any, 0, false⟩,
  ⟨0x4000, 4096, 0x2C, 1, .u32, .ro, false, .any, 0, false⟩,
  ⟨0x4000, 4096, 0x2D, 1, .u32, .ro, false, .any, 0, false⟩]

/-- All the objects of indices 4000 to 40FF. -/
def objs40 : List ObjDef := objs40a ++ objs40b

/-- The objects of indices 5000 to 50FF. -/
def objs50a : List ObjDef := [
  ⟨0x5000, 1, 0x01, 1, .u16, .rws, false, .special, 0, false⟩,
  ⟨0x5000, 1, 0x02, 1, .u8, .rws, false, .clamp 1 2, 1, false⟩,
  ⟨0x5000, 1, 0x03, 1, .u8, .rws, false, .parts false [(1, 1), (2, 2), (4, 4)], 2, false⟩,
  ⟨0x5000, 1, 0x04, 1, .u8, .rws, false, .parts true [(4, 4), (8, 8)], 4, false⟩,
  ⟨0x5000, 1, 0x05, 1, .u8, .rws, false, .parts true [(16, 16), (24, 24), (32, 32)], 16, false⟩,
  ⟨0x5000, 1, 0x06, 1, .u16, .rws, false, .special, 4800, false⟩,
  ⟨0x5000, 1, 0x07, 1, .dom, .rws, false, .len 64 64, 0, false⟩,
  ⟨0x5000, 1, 0x08, 1, .bool, .wo, false, .any, 0, true⟩,
  ⟨0x5000, 1, 0x09, 1, .enum8, .ro, false, .any, 0, false⟩,
  ⟨0x5000, 1, 0x0A, 1, .u32, .ro, false, .any, 0, false⟩,
  ⟨0x5000, 1, 0x0B, 1, .u32, .ro, false, .any, 0, false⟩,
  ⟨0x5000, 1, 0x0C, 1, .u32, .ro, false, .any, 0, false⟩,
  ⟨0x5000, 1, 0x0D, 1, .u32, .ro, false, .any, 0, false⟩,
  ⟨0x5000, 1, 0x0E, 1, .u32, .ro, false, .any, 0, false⟩,
  ⟨0x5000, 1, 0x0F, 1, .u32, .ro, false, .any, 0, false⟩,
  ⟨0x5000, 1, 0x10, 1, .u32, .ro, false, .any, 0, false⟩,
  ⟨0x5000, 1, 0x11, 1, .u32, .ro, false, .any, 0, false⟩,
  ⟨0x5000, 1, 0x12, 1, .u32, .ro, false, .any, 0, false⟩,
  ⟨0x5000, 1, 0x13, 1, .u32, .rws, false, .clamp 1000 4294967295, 1000000, false⟩,
  ⟨0x5000, 1, 0x14, 1, .u32, .rws, false, .clamp 1 60000, 100, false⟩,
  ⟨0x5000, 1, 0x15, 1, .dom, .wo, false, .len 32 32, 0, true⟩,
  ⟨0x5000, 1, 0x16, 3, .dom, .ro, false, .len 24 24, 0, false⟩,
  ⟨0x5000, 1, 0x19, 1, .u16, .ro, false, .any, 0, false⟩,
  ⟨0x5020, 16, 0x01, 1, .u32, .rws, false, .special, 0, false⟩]

/-- The objects of indices 5000 to 50FF, continued. -/
def objs50b : List ObjDef := [
  ⟨0x5020, 16, 0x02, 1, .u32, .rws, false, .special, 0, false⟩,
  ⟨0x5020, 16, 0x03, 1, .u32, .ro, false, .any, 0, false⟩,
  ⟨0x5020, 16, 0x04, 1, .u32, .ro, false, .any, 0, false⟩]

/-- All the objects of indices 5000 to 50FF. -/
def objs50 : List ObjDef := objs50a ++ objs50b

/-- The objects of indices 5100 to 51FF. -/
def objs51 : List ObjDef := [
  ⟨0x5100, 12, 0x01, 1, .enum8, .ro, false, .any, 0, false⟩,
  ⟨0x5100, 12, 0x02, 1, .enum8, .ro, false, .any, 0, false⟩]

/-- The objects of indices 5400 to 54FF. -/
def objs54 : List ObjDef := [
  ⟨0x5400, 1, 0x01, 1, .u16, .rws, false, .clamp 0 65535, 1, false⟩,
  ⟨0x5400, 1, 0x02, 1, .u16, .ro, false, .any, 8192, false⟩,
  ⟨0x5400, 1, 0x10, 3, .u32, .rw, false, .bits 0x70FFF, 0, false⟩,
  ⟨0x5400, 1, 0x13, 3, .dom, .rw, false, .len 160 160, 0, false⟩,
  ⟨0x5410, 32, 0x01, 1, .enum8, .rws, false, .enum 1, 1, false⟩,
  ⟨0x5410, 32, 0x02, 1, .enum8, .rws, false, .enum 4, 0, false⟩,
  ⟨0x5410, 32, 0x03, 1, .u8, .rws, false, .clamp 0 7, 1, false⟩,
  ⟨0x5430, 16, 0x01, 1, .enum8, .rws, false, .enum 1, 1, false⟩,
  ⟨0x5440, 32, 0x01, 1, .bool, .rws, false, .any, 0, false⟩,
  ⟨0x5440, 32, 0x02, 1, .u8, .rws, false, .clamp 1 16, 1, false⟩,
  ⟨0x5440, 32, 0x03, 1, .u8, .rws, false, .clamp 0 7, 1, false⟩]

/-- The objects of indices 5500 to 55FF. -/
def objs55 : List ObjDef := [
  ⟨0x5500, 16, 0x01, 1, .dom, .wo, false, .len 64 64, 0, true⟩,
  ⟨0x5500, 16, 0x02, 1, .dom, .ro, false, .len 48 48, 0, false⟩,
  ⟨0x5500, 16, 0x03, 1, .enum8, .ro, false, .any, 0, false⟩,
  ⟨0x55F0, 1, 0x01, 1, .u8, .ro, false, .any, 16, false⟩,
  ⟨0x55F0, 1, 0x02, 1, .u32, .rws, false, .zeroOwn 1 4294967295, 10000, false⟩,
  ⟨0x55F0, 1, 0x03, 1, .u16, .wo, false, .any, 0, false⟩]

/-- The objects of indices 5800 to 58FF. -/
def objs58 : List ObjDef := [
  ⟨0x5810, 64, 0x01, 1, .u64, .rw, false, .any, 0, false⟩,
  ⟨0x5810, 64, 0x02, 1, .u64, .rw, false, .any, 0, false⟩,
  ⟨0x5810, 64, 0x03, 1, .u32, .rw, false, .pow2 64 65536, 256, false⟩,
  ⟨0x5810, 64, 0x04, 1, .u8, .rw, false, .clamp 16 255, 0, false⟩,
  ⟨0x5810, 64, 0x05, 1, .bool, .rw, false, .any, 0, false⟩,
  ⟨0x5810, 64, 0x06, 1, .enum8, .ro, false, .any, 0, false⟩,
  ⟨0x5810, 64, 0x07, 1, .enum8, .ro, false, .any, 0, false⟩,
  ⟨0x5810, 64, 0x08, 1, .u32, .ro, false, .any, 0, false⟩,
  ⟨0x5810, 64, 0x09, 1, .u32, .ro, false, .any, 0, false⟩,
  ⟨0x5800, 1, 0x01, 1, .enum8, .ro, false, .any, 0, false⟩,
  ⟨0x5800, 1, 0x02, 1, .u8, .ro, false, .any, 0, false⟩,
  ⟨0x5800, 1, 0x03, 1, .u8, .ro, false, .any, 0, false⟩,
  ⟨0x5800, 1, 0x04, 1, .u64, .rw, false, .any, 0, false⟩,
  ⟨0x5800, 1, 0x05, 1, .bool, .wo, false, .any, 0, true⟩,
  ⟨0x5800, 1, 0x06, 1, .u64, .rw, false, .any, 0, false⟩,
  ⟨0x5800, 1, 0x07, 1, .u16, .rw, false, .pow2 64 4096, 256, false⟩,
  ⟨0x5800, 1, 0x08, 1, .u32, .rw, false, .bits 0x3FFF, 16383, false⟩]

/-- The objects of indices 5A00 to 5AFF. -/
def objs5Aa : List ObjDef := [
  ⟨0x5A00, 1, 0x01, 1, .enum8, .ro, false, .any, 0, false⟩,
  ⟨0x5A00, 1, 0x02, 1, .u8, .ro, false, .any, 255, false⟩,
  ⟨0x5A00, 1, 0x03, 1, .u32, .ro, false, .any, 0, false⟩,
  ⟨0x5A00, 1, 0x04, 1, .enum8, .ro, false, .any, 0, false⟩,
  ⟨0x5A00, 1, 0x05, 1, .dom, .wo, true, .len 1 10485760, 0, true⟩,
  ⟨0x5A00, 1, 0x06, 1, .dom, .wo, true, .len 1 65536, 0, true⟩,
  ⟨0x5A00, 1, 0x07, 1, .enum8, .ro, false, .any, 0, false⟩,
  ⟨0x5A00, 1, 0x08, 1, .bool, .wo, true, .any, 0, true⟩,
  ⟨0x5A10, 4, 0x01, 1, .enum8, .ro, false, .any, 0, false⟩,
  ⟨0x5A10, 4, 0x02, 1, .bool, .wo, true, .any, 0, true⟩,
  ⟨0x5A10, 4, 0x03, 1, .u32, .rw, true, .clamp 10 60000, 1000, false⟩,
  ⟨0x5A10, 4, 0x04, 1, .u32, .ro, false, .any, 0, false⟩,
  ⟨0x5A10, 4, 0x05, 1, .enum8, .ro, false, .any, 0, false⟩,
  ⟨0x5A10, 4, 0x06, 1, .u32, .ro, false, .any, 0, false⟩,
  ⟨0x5A20, 16, 0x01, 1, .bool, .rws, false, .any, 0, false⟩,
  ⟨0x5A20, 16, 0x02, 1, .u16, .rws, false, .clamp 0 4095, 0, false⟩,
  ⟨0x5A20, 16, 0x03, 1, .u8, .rws, false, .clamp 2 8, 2, false⟩,
  ⟨0x5A20, 16, 0x04, 1, .enum8, .rws, false, .enum 1, 0, false⟩,
  ⟨0x5A20, 16, 0x05, 1, .u16, .ro, false, .any, 65535, false⟩,
  ⟨0x5A20, 16, 0x06, 1, .u32, .ro, false, .any, 0, false⟩,
  ⟨0x5A40, 32, 0x01, 1, .bool, .rws, false, .any, 0, false⟩,
  ⟨0x5A40, 32, 0x02, 1, .u32, .rws, false, .clamp 10 3600000, 1000, false⟩,
  ⟨0x5A40, 32, 0x03, 1, .u32, .rws, false, .any, 1, false⟩,
  ⟨0x5A40, 32, 0x04, 1, .u32, .rws, false, .any, 0, false⟩]

/-- The objects of indices 5A00 to 5AFF, continued. -/
def objs5Ab : List ObjDef := [
  ⟨0x5A40, 32, 0x05, 1, .dom, .ro, false, .len 1 131072, 0, false⟩,
  ⟨0x5A40, 32, 0x06, 1, .u32, .ro, false, .any, 0, false⟩,
  ⟨0x5A40, 32, 0x07, 1, .dom, .ro, false, .len 1 131072, 0, false⟩,
  ⟨0x5A60, 8, 0x01, 1, .bool, .rws, false, .any, 0, false⟩,
  ⟨0x5A60, 8, 0x02, 1, .enum8, .rws, false, .enum 1, 0, false⟩,
  ⟨0x5A60, 8, 0x03, 1, .u32, .rws, false, .any, 0, false⟩,
  ⟨0x5A60, 8, 0x04, 1, .enum8, .rws, false, .enum 1, 0, false⟩,
  ⟨0x5A60, 8, 0x05, 1, .dom, .rw, false, .len 4 4096, 0, false⟩,
  ⟨0x5A60, 8, 0x06, 1, .u64, .ro, false, .any, 0, false⟩,
  ⟨0x5A60, 8, 0x07, 1, .u64, .ro, false, .any, 0, false⟩,
  ⟨0x5A60, 8, 0x08, 1, .u32, .ro, false, .any, 0, false⟩,
  ⟨0x5A60, 8, 0x09, 1, .time, .ro, false, .any, 0, false⟩,
  ⟨0x5A80, 4, 0x01, 1, .bool, .rws, false, .any, 0, false⟩,
  ⟨0x5A80, 4, 0x02, 1, .dom, .rws, false, .len 16 16, 0, false⟩,
  ⟨0x5A80, 4, 0x03, 1, .u16, .rws, false, .zeroOwn 1 65535, 0, false⟩,
  ⟨0x5A80, 4, 0x04, 1, .u16, .rws, false, .clamp 0 4095, 0, false⟩,
  ⟨0x5A80, 4, 0x05, 1, .u16, .rws, false, .clamp 1 900, 400, false⟩,
  ⟨0x5A80, 4, 0x06, 1, .enum8, .rws, false, .enum 2, 2, false⟩,
  ⟨0x5A80, 4, 0x07, 1, .u32, .wo, false, .any, 0, false⟩,
  ⟨0x5A80, 4, 0x08, 1, .u32, .ro, false, .any, 0, false⟩,
  ⟨0x5A20, 16, 0x0F, 1, .enum8, .ro, false, .any, 0, false⟩,
  ⟨0x5A40, 32, 0x0F, 1, .enum8, .ro, false, .any, 0, false⟩,
  ⟨0x5A60, 8, 0x0F, 1, .enum8, .ro, false, .any, 0, false⟩,
  ⟨0x5A80, 4, 0x0F, 1, .enum8, .ro, false, .any, 0, false⟩]

/-- All the objects of indices 5A00 to 5AFF. -/
def objs5A : List ObjDef := objs5Aa ++ objs5Ab

/-- The objects of indices 5C00 to 5CFF. -/
def objs5C : List ObjDef := [
  ⟨0x5C00, 1, 0x01, 1, .bool, .rw, false, .any, 1, false⟩,
  ⟨0x5C00, 1, 0x02, 1, .u8, .rw, false, .clamp 1 255, 4, false⟩,
  ⟨0x5C00, 1, 0x03, 1, .u16, .wo, false, .special, 0, false⟩,
  ⟨0x5C00, 1, 0x04, 1, .u16, .wo, true, .special, 0, false⟩,
  ⟨0x5C00, 1, 0x05, 1, .u16, .wo, true, .special, 0, false⟩,
  ⟨0x5C00, 1, 0x06, 1, .enum8, .ro, false, .any, 0, false⟩,
  ⟨0x5C00, 1, 0x07, 1, .enum8, .ro, false, .any, 0, false⟩,
  ⟨0x5C00, 1, 0x08, 1, .bool, .wo, true, .any, 0, true⟩,
  ⟨0x5C00, 1, 0x09, 1, .u16, .ro, false, .any, 0, false⟩,
  ⟨0x5C01, 1, 0x01, 11, .u8, .ro, false, .any, 0, false⟩,
  ⟨0x5C10, 232, 0x01, 1, .str, .ro, false, .any, 0, false⟩,
  ⟨0x5C10, 232, 0x02, 1, .enum8, .ro, false, .any, 0, false⟩,
  ⟨0x5C10, 232, 0x03, 1, .bool, .rw, false, .any, 1, false⟩,
  ⟨0x5C10, 232, 0x04, 1, .u8, .ro, false, .any, 0, false⟩,
  ⟨0x5C10, 232, 0x05, 1, .u8, .ro, false, .any, 255, false⟩,
  ⟨0x5C10, 232, 0x06, 1, .u16, .ro, false, .any, 0, false⟩]

/-- The objects of indices 5E00 to 5EFF. -/
def objs5E : List ObjDef := [
  ⟨0x5E00, 4, 0x01, 1, .u32, .rw, false, .clamp 0 64000, 0, false⟩,
  ⟨0x5E00, 4, 0x02, 1, .enum8, .ro, false, .any, 0, false⟩,
  ⟨0x5E00, 4, 0x03, 1, .u32, .ro, false, .any, 0, false⟩,
  ⟨0x5E00, 4, 0x04, 1, .i32, .ro, false, .any, 0, false⟩,
  ⟨0x5E10, 8, 0x01, 1, .bool, .rws, false, .any, 0, false⟩,
  ⟨0x5E10, 8, 0x02, 1, .u8, .rws, false, .clamp 1 255, 1, false⟩,
  ⟨0x5E10, 8, 0x03, 1, .bool, .ro, false, .any, 0, false⟩,
  ⟨0x5E00, 4, 0x05, 1, .u8, .ro, false, .any, 0, false⟩,
  ⟨0x5E20, 1, 0x01, 1, .u32, .wo, false, .any, 0, true⟩,
  ⟨0x5E30, 8, 0x01, 1, .bool, .rws, false, .any, 0, false⟩,
  ⟨0x5E30, 8, 0x02, 1, .u16, .rws, false, .clamp 1 65535, 4, false⟩,
  ⟨0x5E30, 8, 0x03, 1, .bool, .ro, false, .any, 0, false⟩]

/-- The objects of indices 6000 to 60FF. -/
def objs60a : List ObjDef := [
  ⟨0x6010, 16, 0x01, 16, .u64, .ro, false, .any, 0, false⟩,
  ⟨0x6010, 16, 0x11, 16, .u32, .ro, false, .any, 0, false⟩,
  ⟨0x6010, 16, 0x21, 16, .u32, .ro, false, .any, 0, false⟩,
  ⟨0x6040, 32, 0x01, 1, .u64, .ro, false, .any, 0, false⟩,
  ⟨0x6040, 32, 0x02, 1, .u32, .ro, false, .any, 0, false⟩,
  ⟨0x6040, 32, 0x03, 1, .u64, .ro, false, .any, 0, false⟩,
  ⟨0x6040, 32, 0x04, 1, .u64, .ro, false, .any, 0, false⟩,
  ⟨0x6040, 32, 0x05, 1, .u32, .ro, false, .any, 0, false⟩,
  ⟨0x6060, 32, 0x01, 1, .u32, .ro, false, .any, 0, false⟩,
  ⟨0x6060, 32, 0x02, 1, .u64, .ro, false, .any, 0, false⟩,
  ⟨0x6060, 32, 0x03, 1, .u64, .ro, false, .any, 0, false⟩,
  ⟨0x6060, 32, 0x04, 1, .u64, .ro, false, .any, 0, false⟩,
  ⟨0x6060, 32, 0x05, 1, .u32, .ro, false, .any, 0, false⟩,
  ⟨0x6060, 32, 0x06, 1, .u32, .ro, false, .any, 0, false⟩,
  ⟨0x6060, 32, 0x07, 1, .u64, .ro, false, .any, 0, false⟩,
  ⟨0x6060, 32, 0x08, 1, .u32, .ro, false, .any, 0, false⟩,
  ⟨0x6060, 32, 0x09, 1, .u32, .ro, false, .any, 0, false⟩,
  ⟨0x6060, 32, 0x0A, 1, .u64, .ro, false, .any, 0, false⟩,
  ⟨0x6060, 32, 0x0B, 1, .u64, .ro, false, .any, 0, false⟩,
  ⟨0x6060, 32, 0x0C, 1, .u64, .ro, false, .any, 0, false⟩,
  ⟨0x6060, 32, 0x0D, 1, .u32, .ro, false, .any, 0, false⟩,
  ⟨0x6060, 32, 0x0E, 1, .u64, .ro, false, .any, 0, false⟩,
  ⟨0x6060, 32, 0x0F, 1, .u64, .ro, false, .any, 0, false⟩,
  ⟨0x6060, 32, 0x10, 1, .u64, .ro, false, .any, 0, false⟩]

/-- The objects of indices 6000 to 60FF, continued. -/
def objs60b : List ObjDef := [
  ⟨0x6060, 32, 0x11, 1, .u64, .ro, false, .any, 0, false⟩,
  ⟨0x6060, 32, 0x12, 1, .u64, .ro, false, .any, 0, false⟩,
  ⟨0x6060, 32, 0x13, 1, .u32, .ro, false, .any, 0, false⟩,
  ⟨0x6060, 32, 0x14, 1, .u32, .ro, false, .any, 0, false⟩,
  ⟨0x6080, 32, 0x01, 1, .u64, .ro, false, .any, 0, false⟩,
  ⟨0x6080, 32, 0x02, 1, .u64, .ro, false, .any, 0, false⟩,
  ⟨0x6080, 32, 0x03, 7, .u64, .ro, false, .any, 0, false⟩,
  ⟨0x6080, 32, 0x0A, 1, .u64, .ro, false, .any, 0, false⟩,
  ⟨0x6080, 32, 0x0B, 1, .u32, .ro, false, .any, 0, false⟩,
  ⟨0x6080, 32, 0x0C, 1, .u32, .ro, false, .any, 0, false⟩,
  ⟨0x6080, 32, 0x0D, 1, .u32, .ro, false, .any, 0, false⟩,
  ⟨0x6080, 32, 0x0E, 1, .u64, .ro, false, .any, 0, false⟩,
  ⟨0x6080, 32, 0x0F, 1, .u64, .ro, false, .any, 0, false⟩,
  ⟨0x6080, 32, 0x10, 1, .u64, .ro, false, .any, 0, false⟩,
  ⟨0x6000, 3, 0x01, 1, .u64, .ro, false, .any, 0, false⟩,
  ⟨0x6000, 3, 0x02, 1, .u32, .ro, false, .any, 0, false⟩,
  ⟨0x6000, 3, 0x03, 1, .u32, .ro, false, .any, 0, false⟩,
  ⟨0x6000, 3, 0x04, 1, .u32, .ro, false, .any, 0, false⟩,
  ⟨0x6000, 3, 0x05, 1, .u32, .ro, false, .any, 0, false⟩,
  ⟨0x6000, 3, 0x06, 1, .u32, .ro, false, .any, 0, false⟩,
  ⟨0x6000, 3, 0x07, 1, .u32, .ro, false, .any, 0, false⟩,
  ⟨0x6020, 1, 0x01, 1, .u64, .ro, false, .any, 0, false⟩,
  ⟨0x6020, 1, 0x02, 1, .u64, .ro, false, .any, 0, false⟩,
  ⟨0x6020, 1, 0x03, 1, .u32, .ro, false, .any, 0, false⟩]

/-- The objects of indices 6000 to 60FF, continued. -/
def objs60c : List ObjDef := [
  ⟨0x6020, 1, 0x04, 1, .u32, .ro, false, .any, 0, false⟩,
  ⟨0x6020, 1, 0x05, 1, .u32, .ro, false, .any, 0, false⟩]

/-- All the objects of indices 6000 to 60FF. -/
def objs60 : List ObjDef := objs60a ++ objs60b ++ objs60c

/-- The objects of indices 6100 to 61FF. -/
def objs61 : List ObjDef := [
  ⟨0x6100, 256, 0x01, 1, .u64, .ro, false, .any, 0, false⟩,
  ⟨0x6100, 256, 0x02, 1, .time, .ro, false, .any, 0, false⟩]

/-- The objects of indices 6200 to 62FF. -/
def objs62 : List ObjDef := [
  ⟨0x6200, 1, 0x01, 64, .u32, .ro, false, .any, 0, false⟩]

/-- The objects of indices 6300 to 63FF. -/
def objs63 : List ObjDef := [
  ⟨0x6300, 8, 0x01, 1, .u64, .ro, false, .any, 0, false⟩,
  ⟨0x6300, 8, 0x02, 1, .u64, .ro, false, .any, 0, false⟩,
  ⟨0x6300, 8, 0x03, 1, .u64, .ro, false, .any, 0, false⟩,
  ⟨0x6300, 8, 0x04, 1, .u32, .ro, false, .any, 0, false⟩,
  ⟨0x6300, 8, 0x05, 1, .u32, .ro, false, .any, 0, false⟩,
  ⟨0x6300, 8, 0x06, 1, .u32, .ro, false, .any, 0, false⟩,
  ⟨0x6300, 8, 0x07, 1, .u32, .ro, false, .any, 0, false⟩,
  ⟨0x6300, 8, 0x08, 1, .u32, .ro, false, .any, 0, false⟩,
  ⟨0x6300, 8, 0x09, 1, .u32, .ro, false, .any, 0, false⟩,
  ⟨0x6300, 8, 0x0A, 1, .u32, .ro, false, .any, 0, false⟩,
  ⟨0x6308, 1, 0x01, 4, .u32, .ro, false, .any, 0, false⟩,
  ⟨0x6308, 1, 0x05, 4, .u32, .ro, false, .any, 0, false⟩]

/-- The objects of indices 6400 to 64FF. -/
def objs64 : List ObjDef := [
  ⟨0x6410, 12, 0x01, 1, .u64, .ro, false, .any, 0, false⟩,
  ⟨0x6410, 12, 0x02, 1, .u32, .ro, false, .any, 0, false⟩,
  ⟨0x6410, 12, 0x03, 1, .u64, .ro, false, .any, 0, false⟩,
  ⟨0x6410, 12, 0x04, 1, .u64, .ro, false, .any, 0, false⟩,
  ⟨0x6440, 1, 0x01, 1, .u64, .ro, false, .any, 0, false⟩,
  ⟨0x6440, 1, 0x02, 4, .u64, .ro, false, .any, 0, false⟩,
  ⟨0x6440, 1, 0x06, 1, .u32, .ro, false, .any, 0, false⟩,
  ⟨0x6440, 1, 0x07, 1, .u64, .ro, false, .any, 0, false⟩,
  ⟨0x6440, 1, 0x08, 1, .u64, .ro, false, .any, 0, false⟩,
  ⟨0x6440, 1, 0x09, 1, .u64, .ro, false, .any, 0, false⟩,
  ⟨0x6440, 1, 0x0A, 1, .u64, .ro, false, .any, 0, false⟩,
  ⟨0x6440, 1, 0x0B, 1, .u64, .ro, false, .any, 0, false⟩,
  ⟨0x6441, 1, 0x01, 1, .u64, .ro, false, .any, 0, false⟩,
  ⟨0x6441, 1, 0x02, 1, .u32, .ro, false, .any, 0, false⟩,
  ⟨0x6441, 1, 0x03, 1, .u64, .ro, false, .any, 0, false⟩,
  ⟨0x6441, 1, 0x04, 1, .u64, .ro, false, .any, 0, false⟩,
  ⟨0x6480, 1, 0x01, 1, .u32, .ro, false, .any, 0, false⟩,
  ⟨0x6480, 1, 0x02, 1, .u32, .ro, false, .any, 0, false⟩,
  ⟨0x6480, 1, 0x03, 1, .u32, .ro, false, .any, 0, false⟩,
  ⟨0x6480, 1, 0x04, 1, .u32, .ro, false, .any, 0, false⟩,
  ⟨0x6480, 1, 0x05, 1, .u64, .ro, false, .any, 0, false⟩]

/-- The objects of indices 6500 to 65FF. -/
def objs65 : List ObjDef := [
  ⟨0x6500, 232, 0x01, 1, .u64, .ro, false, .any, 0, false⟩,
  ⟨0x6500, 232, 0x02, 1, .u32, .ro, false, .any, 0, false⟩,
  ⟨0x6500, 232, 0x03, 1, .u32, .ro, false, .any, 0, false⟩,
  ⟨0x6500, 232, 0x04, 1, .u64, .ro, false, .any, 0, false⟩]

/-- The objects of indices 6600 to 66FF. -/
def objs66 : List ObjDef := [
  ⟨0x6600, 11, 0x01, 1, .u64, .ro, false, .any, 0, false⟩,
  ⟨0x6600, 11, 0x02, 1, .u32, .ro, false, .any, 0, false⟩,
  ⟨0x6600, 11, 0x03, 1, .u32, .ro, false, .any, 0, false⟩,
  ⟨0x6600, 11, 0x04, 1, .u32, .ro, false, .any, 0, false⟩]

/-- The objects of indices 6700 to 67FF. -/
def objs67 : List ObjDef := [
  ⟨0x6700, 1, 0x01, 1, .i16, .ro, false, .any, 0, false⟩,
  ⟨0x6700, 1, 0x02, 1, .i16, .ro, false, .any, 0, false⟩,
  ⟨0x6700, 1, 0x03, 1, .u8, .ro, false, .any, 0, false⟩,
  ⟨0x6700, 1, 0x04, 1, .u32, .ro, false, .any, 0, false⟩,
  ⟨0x6700, 1, 0x10, 5, .i16, .ro, false, .any, 0, false⟩]

/-- The rows that may hold an index, by its upper byte (R496). -/
def rowsOf (hi : Nat) : List ObjDef :=
  match hi with
  | 0x10 => objs10
  | 0x11 => objs11
  | 0x12 => objs12
  | 0x13 => objs13
  | 0x1F => objs1F
  | 0x20 => objs20
  | 0x21 => objs21
  | 0x22 => objs22
  | 0x24 => objs24
  | 0x30 => objs30
  | 0x31 => objs31
  | 0x32 => objs32
  | 0x33 => objs33
  | 0x34 => objs34
  | 0x36 => objs36
  | 0x38 => objs38
  | 0x50 => objs50
  | 0x51 => objs51
  | 0x54 => objs54
  | 0x55 => objs55
  | 0x58 => objs58
  | 0x5A => objs5A
  | 0x5C => objs5C
  | 0x5E => objs5E
  | 0x60 => objs60
  | 0x61 => objs61
  | 0x62 => objs62
  | 0x63 => objs63
  | 0x64 => objs64
  | 0x65 => objs65
  | 0x66 => objs66
  | 0x67 => objs67
  | h => if 0x40 ≤ h ∧ h ≤ 0x4F then objs40 else []

/-- Does a row name the object of an index and a sub-index (R497)? -/
def ObjDef.names (d : ObjDef) (ix sub : Nat) : Bool :=
  d.base ≤ ix && ix < d.base + d.span && d.sub ≤ sub && sub < d.sub + d.subSpan

/-- SNAP_TICK, sub-index 0xFF of every telemetry index (R528). -/
def snapTickDef (ix : Nat) : ObjDef := ⟨ix, 1, 0xFF, 1, .time, .ro, false, .any, 0, false⟩

/-- Is any object of an index defined (R497)? -/
def indexDefined (ix : Nat) : Bool :=
  (rowsOf (ix / 256)).any (fun d => d.base ≤ ix && ix < d.base + d.span)

/-- The row of an object, none where the manual defines no such object (R496, R497). -/
def findObj (k : Key) : Option ObjDef :=
  match (rowsOf (k / 65536)).find? (fun d => d.names (k / 256) (k % 256)) with
  | some d => some d
  | none =>
    if k % 256 = 0xFF ∧ 0x6000 ≤ k / 256 ∧ k / 256 ≤ 0x6FFF ∧ indexDefined (k / 256) then
      some (snapTickDef (k / 256))
    else none

/-- The width in bits of a value of a type; 0 for the byte strings (R498). -/
def Ty.width : Ty → Nat
  | .bool | .u8 | .i8 | .enum8 => 8
  | .u16 | .i16 => 16
  | .u32 | .i32 => 32
  | .u64 | .i64 => 64
  | .time => 80
  | .str | .dom => 0

/-- Is the type one of the signed ones (R498)? -/
def Ty.signed : Ty → Bool
  | .i8 | .i16 | .i32 | .i64 => true
  | _ => false

/-- Is a value of the type held as a byte string? -/
def Ty.bytes : Ty → Bool
  | .str | .dom => true
  | _ => false

/-- The default of an object: the Default column. STOP_US of class k is 1,000 x 10^k (R256), VECTOR of
ring k is 16 + k (R597). -/
def dfltOf (k : Key) : Nat :=
  if 0x3420 ≤ k / 256 ∧ k / 256 < 0x3440 ∧ 0x20 ≤ k % 256 ∧ k % 256 < 0x24 then 1000 * 10 ^ (k % 256 - 0x20)
  else if 0x5810 ≤ k / 256 ∧ k / 256 < 0x5850 ∧ k % 256 = 4 then 16 + (k / 256 - 0x5810)
  else match findObj k with
    | some d => d.dflt
    | none => 0

end Sys2Proof.Machine
end

