-- ==== Sys2Proof/Machine/Sparse.lean ====
section
/-! DEFINITION. Sparse tables: a list of (key, value) pairs with strictly rising keys, in which a key
that is not listed reads as the table's rest value. The dictionary, the byte-string objects and the
state of the instances of every block are held in such tables. -/

namespace Sys2Proof.Machine

/-- A sparse table. -/
abbrev Tab (α : Type) := List (Nat × α)

/-- The listed value of a key, if any. -/
def Tab.find {α : Type} : Tab α → Nat → Option α
  | [], _ => none
  | (k, v) :: t, i => if k = i then some v else Tab.find t i

/-- The value of a key; `d` where it is not listed. -/
def Tab.getD {α : Type} (t : Tab α) (i : Nat) (d : α) : α := (t.find i).getD d

/-- Take a key out of the table. -/
def Tab.del {α : Type} : Tab α → Nat → Tab α
  | [], _ => []
  | (k, v) :: t, i => if k = i then Tab.del t i else (k, v) :: Tab.del t i

/-- Put a pair before the first key that is greater. -/
def Tab.ins {α : Type} : Tab α → Nat → α → Tab α
  | [], i, x => [(i, x)]
  | (k, v) :: t, i, x => if i < k then (i, x) :: (k, v) :: t else (k, v) :: Tab.ins t i x

/-- Give a key a value. -/
def Tab.set {α : Type} (t : Tab α) (i : Nat) (x : α) : Tab α := (t.del i).ins i x

/-- Give a key a value; the rest value `d` is not listed. -/
def Tab.put {α : Type} [DecidableEq α] (t : Tab α) (i : Nat) (d x : α) : Tab α :=
  if x = d then t.del i else t.set i x

/-- Change the value of a key. -/
def Tab.modify {α : Type} [DecidableEq α] (t : Tab α) (i : Nat) (d : α) (f : α → α) : Tab α :=
  t.put i d (f (t.getD i d))

/-- The keys of a table, rising. -/
def Tab.keys {α : Type} (t : Tab α) : List Nat := t.map (·.1)

/-- Are the keys strictly rising? -/
def Tab.sorted {α : Type} : Tab α → Bool
  | [] => true
  | [_] => true
  | a :: b :: t => a.1 < b.1 && Tab.sorted (b :: t)

/-- The smallest number from `lo` on below `lo + fuel` that the test accepts. -/
def firstFrom (p : Nat → Bool) : Nat → Nat → Option Nat
  | 0, _ => none
  | fuel + 1, lo => if p lo then some lo else firstFrom p fuel (lo + 1)

/-- The numbers lo .. lo + n - 1. -/
def upFrom : Nat → Nat → List Nat
  | 0, _ => []
  | n + 1, lo => lo :: upFrom n (lo + 1)

/-- The numbers 0 .. n - 1. -/
abbrev below (n : Nat) : List Nat := upFrom n 0

end Sys2Proof.Machine
end

