-- ==== Sys2Proof/Machine/Operands.lean ====
section
/-! DEFINITION. Byte order, fields and check values: how a value stands in bytes (R7, R8), the CRCs the
chapters name (R186, R195, R232) and the two's complement reading of a field. -/

namespace Sys2Proof.Machine

/-- Bits [hi:lo] of a number (R8). -/
def bits (x hi lo : Nat) : Nat := (x >>> lo) % 2 ^ (hi + 1 - lo)

/-- One bit of a number. -/
def bit (x i : Nat) : Bool := x.testBit i

/-- A truth value as a bit. -/
def ofBool (b : Bool) : Nat := if b then 1 else 0

/-- A number cut to n bits. -/
def cut (n x : Nat) : Nat := x % 2 ^ n

/-- The n bits of a number read as two's complement (R498). -/
def toInt (n x : Nat) : Int := if x % 2 ^ n < 2 ^ (n - 1) then (x % 2 ^ n : Nat) else ((x % 2 ^ n : Nat) : Int) - 2 ^ n

/-- An integer as n bits of two's complement. -/
def ofInt (n : Nat) (x : Int) : Nat := (x % (2 ^ n : Int)).toNat

/-- An integer moved into lo .. hi. -/
def clampI (lo hi x : Int) : Int := if x < lo then lo else if hi < x then hi else x

/-- A number moved into lo .. hi. -/
def clampN (lo hi x : Nat) : Nat := if x < lo then lo else if hi < x then hi else x

/-- A number that saturates at the largest of n bits. -/
def satN (n x : Nat) : Nat := if x < 2 ^ n then x else 2 ^ n - 1

/-- The quotient rounded up. -/
def ceilDiv (a b : Nat) : Nat := if b = 0 then 0 else (a + b - 1) / b

/-- A number as n bytes, little-endian (R7). -/
def le : Nat → Nat → Bytes
  | 0, _ => []
  | n + 1, x => BitVec.ofNat 8 x :: le n (x / 256)

/-- The number that bytes spell, little-endian (R7). -/
def ofLe : Bytes → Nat
  | [] => 0
  | b :: t => b.toNat + 256 * ofLe t

/-- The number that bytes spell, first byte most significant. -/
def ofBe (b : Bytes) : Nat := b.foldl (fun a x => a * 256 + x.toNat) 0

/-- A number as n bytes, most significant first. -/
def be (n x : Nat) : Bytes := (le n x).reverse

/-- n zero bytes. -/
def zeros (n : Nat) : Bytes := List.replicate n 0

/-- Bytes from an offset on, at most n, zero-filled to n. -/
def slice (b : Bytes) (off n : Nat) : Bytes :=
  let x := (b.drop off).take n
  x ++ zeros (n - x.length)

/-- The little-endian field of n bytes at an offset of a byte string. -/
def fieldAt (b : Bytes) (off n : Nat) : Nat := ofLe (slice b off n)

/-- The big-endian field of n bytes at an offset of a byte string (network headers). -/
def netAt (b : Bytes) (off n : Nat) : Nat := ofBe (slice b off n)

/-- A byte string zero-filled to a multiple of m bytes. -/
def padTo (m : Nat) (b : Bytes) : Bytes := b ++ zeros ((m - b.length % m) % m)

/-- The bytes of 64-bit words, little-endian (R428). -/
def leWords : List Nat → Bytes
  | [] => []
  | w :: t => le 8 w ++ leWords t

/-- The 64-bit words of bytes. -/
def wordsOf (fuel : Nat) (b : Bytes) : List Nat :=
  match fuel with
  | 0 => []
  | f + 1 => if b.isEmpty then [] else fieldAt b 0 8 :: wordsOf f (b.drop 8)

/-- One bit step of a reflected CRC with polynomial `poly`. -/
def crcBit (poly c : Nat) : Nat := if c % 2 = 1 then (c / 2) ^^^ poly else c / 2

/-- One byte of a reflected CRC. -/
def crcByte (poly c : Nat) (b : Byte) : Nat :=
  let x := c ^^^ b.toNat
  crcBit poly (crcBit poly (crcBit poly (crcBit poly (crcBit poly (crcBit poly (crcBit poly (crcBit poly x)))))))

/-- The register of the CRC-32 of R195 after bytes, started from `c` (0xFFFFFFFF at first). -/
def crc32Run (c : Nat) (b : Bytes) : Nat := b.foldl (crcByte 0xEDB88320) c

/-- The CRC-32 of R195. -/
def crc32 (b : Bytes) : Nat := crc32Run 0xFFFFFFFF b ^^^ 0xFFFFFFFF

/-- The CRC-32C (Castagnoli, reflected) of R232 with a starting register. -/
def crc32cRun (c : Nat) (b : Bytes) : Nat := b.foldl (crcByte 0x82F63B78) c

/-- The CRC of R186 (x^18 + x^5 + x^4 + 1, initial 0) after one more 10-bit word, least significant
bit first: the reflected polynomial has bits 17, 13 and 12. -/
def crc18Word (c w : Nat) : Nat :=
  (below 10).foldl (fun c i => crcBit 0x23000 (c ^^^ bits w i i)) c

/-- The even parity of a number's low n bits: true where the count of ones is odd. -/
def oddOnes (n x : Nat) : Bool := ((below n).filter (bit x)).length % 2 = 1

/-- How many of the low n bits are ones. -/
def ones (n x : Nat) : Nat := ((below n).filter (bit x)).length

/-- A time in the form of R42: the tick in bits [63:0], the sub-tick in [69:64]. -/
def timeVal (t : SubTime) : Nat := cut 64 (tickOf t) + 2 ^ 64 * subOf t

/-- The time a TIME value names (R42). -/
def ofTimeVal (v : Nat) : SubTime := 64 * cut 64 v + bits v 69 64

/-- Bits of a byte string, least significant bit of the first byte first (R460). -/
def bitsOfBytes : Bytes → List Bool
  | [] => []
  | b :: t => (below 8).map (fun i => bit b.toNat i) ++ bitsOfBytes t

/-- The number whose bit i is the i-th of the list. -/
def natOfBits : List Bool → Nat
  | [] => 0
  | b :: t => ofBool b + 2 * natOfBits t

/-- The bytes that bits fill, from bit 0 of each upward; the last is filled with zeros. -/
def bytesOfBits : List Bool → Bytes
  | [] => []
  | a :: b :: c :: d :: e :: f :: g :: h :: t => BitVec.ofNat 8 (natOfBits [a, b, c, d, e, f, g, h]) :: bytesOfBits t
  | l => [BitVec.ofNat 8 (natOfBits l)]

/-- The last n elements of a list. -/
def lastN {α : Type} (n : Nat) (l : List α) : List α := l.drop (l.length - n)

/-- Replace the element at a place. -/
def listSet {α : Type} (l : List α) (i : Nat) (x : α) : List α := l.set i x

end Sys2Proof.Machine
end

