-- ==== Sys2Proof/Machine/State.lean ====
section
/-! DEFINITION. The state of the engine: every dictionary object, and the state behind the objects
that the chapters give each block. Plain data throughout; an instance that stands as a reset leaves it
is not listed in its block's table. -/

namespace Sys2Proof.Machine

/-- A value of an object: a number (R498) or a byte string. -/
inductive Val where
  | num (n : Nat)
  | byt (b : Bytes)
deriving DecidableEq, Repr

/-- What leaves the engine at a port, a pin or a bus, in order. -/
inductive Output where
  /-- A response packet to the issuer of a command (R505). -/
  | response (iss : Issuer) (data : Bytes)
  /-- An MSI-X message of a vector (R580). -/
  | msix (vector : Nat)
  /-- The data of a BAR2 read (R591). -/
  | bar2 (addr : Nat) (data : Bytes)
  /-- A write into host memory (R581, R583, R586). -/
  | hostWrite (addr : Nat) (data : Bytes)
  /-- A datagram from port 1 (R529, R532, R619): destination address, UDP port, payload. -/
  | datagram (addr : Bytes) (udp : Nat) (data : Bytes)
  /-- An answer to ARP (0), a neighbour solicitation (1) or an echo request (2) (R530). -/
  | answer (kind : Nat) (dest : Bytes) (data : Bytes)
  /-- A next-hop resolution request (R530). -/
  | resolve (addr : Bytes)
  /-- A word or message sent on a cascade port (R61, R324). -/
  | cascade (port : Nat) (data : Bytes)
  /-- A flash command (R712): its code, its address and the bytes it programs. -/
  | flash (code addr : Nat) (data : Bytes)
deriving DecidableEq, Repr

/-- One entry of a clamp report (R508). -/
structure RepEntry where
  key : Key := 0
  status : Nat := 0
  fieldId : Nat := 0
  written : Nat := 0
  applied : Nat := 0
  byJseq : Nat := 0
deriving DecidableEq, Repr

/-- What became of one entry of a WRITE or of one object of a COMMIT. -/
structure ObjOut where
  key : Key := 0
  /-- Status (R509) and reason (R510) of the entry. -/
  status : Nat := 0
  reason : Nat := 0
  /-- The value applied or staged, for the journal (R563); none where nothing was. -/
  applied : Option Val := none
  rep : List RepEntry := []
deriving DecidableEq, Repr

/-- What a command that completes later than its boundary waits for. -/
inductive Wait where
  /-- One full pass of a lane's scanner (R253). -/
  | flush (lane : Nat)
  /-- The programming of OTP: the owner key, the repair fuses (R539, R645). -/
  | ownerKey | fuses
  /-- A flash write (R603, R621). -/
  | flash
deriving DecidableEq, Repr

/-- A command applied at the boundary that opens the next tick, whose outcome is sent when the tick
opens (R505, R513, R563). -/
structure Landing where
  iss : Issuer
  op : Nat := 2
  flags : Nat := 0
  /-- The trailer of an authenticated command, followed by its session's key K (R552). -/
  trailer : Bytes := []
  tag : Nat := 0
  jseq : Nat := 0
  pktCrc : Nat := 0
  effect : Tick := 0
  /-- Status fixed at once, for commands whose status follows no entry. -/
  fixed : Option (Nat × Nat) := none
  outs : List ObjOut := []
  final : Bool := true
  /-- The outcome is brought by another event, and the response waits for it. -/
  waits : Option Wait := none
deriving DecidableEq, Repr

/-- One staged object (R518). -/
structure Staged where
  key : Key
  val : Val
  written : Val
  out : ObjOut
  /-- The command that staged it (R355, R513), and the core it came from (R610). -/
  jseq : Nat := 0
  core : Nat := 255
deriving DecidableEq, Repr

/-- A pending commit (R517, R518). -/
structure Pending where
  iss : Issuer
  jseq : Nat
  tag : Nat
  flags : Nat
  trailer : Bytes
  pktCrc : Nat
  target : Tick
  set : List Staged
deriving DecidableEq, Repr

/-- A held member of a pair (R521). -/
structure HeldPair where
  iss : Issuer
  jseq : Nat
  tag : Nat
  key : Key
  written : Val
  since : Tick
deriving DecidableEq, Repr

/-- A packet that has passed its check (R502): body and trailer apart. -/
structure Pkt where
  op : Nat
  flags : Nat
  entries : Nat
  tag : Nat
  body : Bytes
  trailer : Bytes
  raw : Bytes
deriving DecidableEq, Repr

/-- An accepted packet: its issuer, the packet, its trailer with K (R552), its session slot and its JSEQ. -/
structure Accepted where
  iss : Issuer
  pkt : Pkt
  auth : Bytes
  slot : Nat
  jseq : Nat
deriving DecidableEq, Repr

/-- An entry of a WRITE on its way: settled; or a checked value that acts at the boundary, alone, or with its pair: both members written
together, or the partner held (R521). -/
inductive Entry where
  | settled (o : ObjOut)
  | acts (chk : ObjOut) (written : Val)
  | pairs (chk : ObjOut) (written : Val)
  | mate (chk : ObjOut) (written : Val) (held : HeldPair)
deriving DecidableEq, Repr

/-- What waits for the boundary that opens the next tick (R22, R512, R513): a WRITE with its entries, a STRICT WRITE, a held member whose
partner has come, with the partner's value, a held member whose time has passed, a DISCARD, a commit of a port that lands; and, under the configuration that they leave, a point of the time
map and the start of an output pulse (R16). -/
inductive Due where
  | write (a : Accepted) (es : List Entry)
  | strict (a : Accepted) (byTransfer : Bool) (l : List (Key × Bytes))
  | held (h : HeldPair) (mate : ObjOut)
  | alone (h : HeldPair)
  | discard (a : Accepted) (what : Nat)
  | commit (port jseq : Nat)
  | point
  | pulse (pin : Nat)
deriving DecidableEq, Repr

/-- An open transfer to a DOMAIN object (R523). -/
structure Transfer where
  xfer : Nat
  iss : Issuer
  key : Key
  total : Nat
  data : Bytes
  last : Tick
  /-- The session that opened it, for a critical DOMAIN (R553). -/
  session : Bytes
deriving DecidableEq, Repr

/-- A read buffer (R526). -/
structure ReadBuf where
  key : Key
  data : Bytes
  /-- A word of the buffer is uncorrectable (R626). -/
  bad : Bool := false
deriving DecidableEq, Repr

/-- One entry of a port's retry cache (R531). -/
structure CacheEntry where
  tag : Nat
  addr : Bytes
  udp : Nat
  core : Nat
  crc : Nat
  /-- The JSEQ of the command, 0 where it has none. -/
  jseq : Nat
  /-- The response sent, once the command has completed. -/
  resp : Option Bytes
deriving DecidableEq, Repr

/-- A command port: staging store, pending commits, held pairs, transfers, retry cache (R518-R531). -/
structure PortState where
  staging : List Staged := []
  pend : List Pending := []
  held : List HeldPair := []
  cache : List CacheEntry := []
  /-- Consecutive failed PROVEs and the tick of the eighth (R545). -/
  proveFails : Nat := 0
  lockedAt : Option Tick := none
deriving DecidableEq, Repr

/-- A session slot's secrets and its idle clock (R541-R546); STATE, PORT, PEER, LAST_COUNTER and the
ticks are objects. -/
structure Session where
  id : Bytes := []
  qh : Bytes := []
  nh : Bytes := []
  qe : Bytes := []
  ne : Bytes := []
  key : Bytes := []
  /-- Which draw of the ephemeral values the handshake took. -/
  draw : Nat := 0
  helloAt : Tick := 0
  /-- The tick of the PROVE or of the latest accepted command: the idle clock (R546, R550). -/
  usedAt : Tick := 0
deriving DecidableEq, Repr

/-- One journal entry (R561). -/
structure JEntry where
  eno : Nat
  jseq : Nat
  tick : Tick
  kind : Nat
  flags : Nat
  data2 : Nat
  data : Nat
deriving DecidableEq, Repr

/-- The journal's writer (R560): the entries written in the open tick, and those that wait, oldest first. -/
structure JPace where
  count : Nat := 0
  wait : List JEntry := []
deriving DecidableEq, Repr

/-- One notification (R532). -/
structure Note where
  cls : Nat
  source : Nat
  tick : Tick
  detail : Nat
deriving DecidableEq, Repr

/-- A point of the time map (R43); TAI in units of 2^-16 ns. -/
structure TimePoint where
  at_ : SubTime := 0
  tai : Nat := 0
  rate : Int := 0
  seq : Nat := 0
  valid : Bool := false
  stepped : Bool := false
  slew : Bool := false
  holdover : Bool := false
  dstate : Nat := 0
  source : Nat := 0
  utc : Nat := 0
deriving DecidableEq, Repr

/-- The timebase behind the objects of R65. -/
structure TimeBase where
  /-- The tick counter runs (R39). -/
  counting : Bool := false
  /-- REFCLK is present and within 1,000 ppm (R48, R84). -/
  refclk : Bool := false
  /-- Consecutive accepted edges, consecutive missing edges (R48). -/
  edges : Nat := 0
  misses : Nat := 0
  /-- The last accepted edge, and for VREF how many periods lie between it and the next predicted one. -/
  lastEdge : Option SubTime := none
  ahead : Nat := 1
  /-- Accepted VREF edges since the last loop update (R48). -/
  sinceUpdate : Nat := 0
  /-- The selected source is qualified and not lost. -/
  sourceOk : Bool := false
  /-- The first correction of the host source has been written; the tick of the latest (R48). -/
  lastCorr : Option Tick := none
  lastUpdate : Tick := 0
  /-- The last feedback ratios of SYN-T, newest first, in units of 2^-32 (R53). -/
  words : List Nat := []
  /-- Discipline offset and slew offset, units of 2^-40 (R52, R59, R91). -/
  offset : Int := 0
  slewOffset : Int := 0
  slewStart : Tick := 0
  slewFrom : Int := 0
  rate : Int := 0
  /-- The point in force, the next point's SEQ, and whether TAI has been written (R43-R47). -/
  point : TimePoint := {}
  nextSeq : Nat := 0
  taiValid : Bool := false
  /-- A TAI write waits for the next PPS edge (R722). -/
  taiWaits : Bool := false
  /-- A step that lands at the next boundary: J in sub-ticks and the CAUSE of R448. -/
  step : Option (Int × Nat) := none
  /-- The TAI of the VREF edge on which the target was last based, units of 2^-16 ns, not cut to a second (R54). -/
  grid : Int := 0
  /-- The tick at which HOLDOVER was entered. -/
  holdSince : Tick := 0
  /-- The cycles of REFCLK up to the open tick's boundary, with a remainder in parts of `cycDen` (R80, R86). -/
  cyc : Nat := 0
  cycRem : Nat := 0
  cycDen : Nat := 1
deriving DecidableEq, Repr

/-- A cascade port (R61-R64, R324). -/
structure CascPort where
  /-- 8b/10b synchronised. -/
  sync : Bool := false
  /-- Messages waiting to be sent: the tick from which each may leave, its code and its source octet. -/
  queue : List (Tick × Nat × SubTime) := []
  /-- The port sends an alignment word until this tick (R324). -/
  busyUntil : Tick := 0
  /-- The ticks of the last alignment word received and sent, and of the last message sent. -/
  lastWord : Option Tick := none
  lastSent : Option Tick := none
  lastMsg : Option Tick := none
  /-- The change of the tick count to be loaded, sub-ticks (R63). -/
  load : Option Int := none
  /-- The primary's point that came with the last word (R64). -/
  carried : TimePoint := {}
deriving DecidableEq, Repr

/-- A synthesiser: SYN-T 0, SYN-L 1, SYN-O0 to SYN-O3 2 to 5 (R75-R89). -/
structure Synth where
  /-- The output has been started by R87 and not stopped by R88, and the boundaries at which it will be. -/
  on : Bool := false
  opens : List Tick := []
  closes : List Tick := []
  /-- A gated relock or a power-down holds the output closed until its restart (R80, R82), or will from this boundary on. -/
  hold : Bool := false
  holdAt : Option Tick := none
  gate : Bool := false
  /-- A relock began at this tick and has not locked, and the phase-detector cycles since (R79). -/
  relockAt : Option Tick := none
  cycles : Nat := 0
  /-- Lock came at this cycle of REFCLK; the restart of a GATED output counts from it (R80). -/
  lockedAt : Option Nat := none
  lfsr : Nat := 1
  acc1 : Nat := 0
  acc2 : Nat := 0
  acc3 : Nat := 0
  c2p : Nat := 0
  c3p : Nat := 0
  c3pp : Nat := 0
  /-- The divider of the last phase-detector cycle (R75). -/
  divide : Nat := 0
  frozen : Bool := false
  /-- The cycle of REFCLK at which the last Picot step was due (R86). -/
  lastStep : Nat := 0
  /-- The word the VCO and the dividers run by, and the one before the relock (R81). -/
  inUse : Nat := 0
  was : Nat := 0
  /-- The feedback ratio that a glide has reached, and the tick by which it ends (R78). -/
  ratio : Nat := 0
  glideEnd : Tick := 0
  /-- The output divider (R70): released, at which boundary, and the boundary at which its gate closed; its place in the output period in
  128ths of a VCO period, with a remainder; steps of R86 still to be taken; the output's level. -/
  run : Bool := false
  since : Tick := 0
  shut : Option Tick := none
  phase : Nat := 0
  rem : Nat := 0
  den : Nat := 1
  owe : Int := 0
  level : Bool := false
deriving DecidableEq, Repr

/-- A record on its way into a page (R413, R416). -/
structure Rec where
  ty : Nat
  src : Nat
  tick : Tick
  body : Bytes
deriving DecidableEq, Repr

/-- The records of one source item, which stand together in one page (R423). -/
structure Group where
  recs : List Rec
  /-- Source items, for loss counting (R397); 0 for a control record. -/
  items : Nat := 0
  /-- Time of the first and the last source item. -/
  first : SubTime := 0
  last : SubTime := 0
  /-- A control record of R396. -/
  ctl : Bool := false
  /-- Must stand first in a new page: the SEGMENT_OPEN of a segment (R443). -/
  newPage : Bool := false
  /-- An opening record, not counted in BYTES (R446). -/
  opening : Bool := false
  seg : Nat := 1
  /-- Time of its earliest item, where that is not the first (R319). -/
  old : Option SubTime := none
  /-- The tick in which a record under construction took its first item (R387, R425). -/
  since : Option Tick := none
  /-- Counters that count it once it is stored, with their amounts (R495). -/
  tally : List (Key × Nat) := []
deriving DecidableEq, Repr

/-- A page held by a queue. -/
structure Page where
  pfn : Nat
  capture : Nat
  seq : Nat
  seg : Nat
  prev : Nat
  /-- Bytes placed from the page's start, header included. -/
  fill : Nat := 64
  closed : Bool := false
  pinned : Bool := false
  consumed : Bool := false
  freePending : Bool := false
  base : Tick := 0
  /-- The base of R414 now in force. -/
  anchor : Tick := 0
  lastTick : Tick := 0
  records : Nat := 0
  used : Nat := 0
  firstTy : Nat := 0
  lastTy : Nat := 0
  /-- Time of the first source item (R391), and of the earliest (R319). -/
  firstItem : Option SubTime := none
  oldItem : Option SubTime := none
  srcKind : Nat := 0
  source : Nat := 0
  /-- It takes no more records: the capture stopped in it, or the page after it is open (R386, R721). -/
  ending : Bool := false
  /-- NEXT and EARLY of a page that is complete and closes as soon as its staged chunks are written (R386). -/
  sealed : Option (Nat × Bool) := none
  /-- Where the padding of the closing page begins, once part of it stands in the last chunk (R418, R721). -/
  padFrom : Option Nat := none
deriving DecidableEq, Repr

/-- Staged bytes of one page, from a byte offset; complete at a multiple of 256 (R387). -/
structure Chunk where
  pfn : Nat
  off : Nat
  data : Bytes
  since : Tick
  /-- Where the last record with bytes in the chunk ends (R387). -/
  upto : Nat := 0
deriving DecidableEq, Repr

/-- A stopped capture whose records wait for a page while the queue has started the next one (R720, R721): what Queue holds of a capture. -/
structure Past where
  capture : Nat
  seq : Nat
  segBytes : Nat
  waiting : List Group
  pinned : Bool
  trigSeg : Nat
  srcKind : Nat
  source : Nat
  stopAt : Tick
deriving DecidableEq, Repr

/-- A loss run (R397). -/
structure Loss where
  start : Tick
  last : Tick
  items : Nat
  cause : Nat
deriving DecidableEq, Repr

/-- A block under construction (R425, R426). -/
structure Builder where
  items : List Nat
  first : SubTime
  last : SubTime
  since : Tick
  coded : Bool
deriving DecidableEq, Repr

/-- An EDGE_BUNDLE under construction (R430). -/
structure EdgeBuilder where
  tick : Tick
  entries : List Nat
  first : SubTime
  last : SubTime
  since : Tick
  /-- Time of the earliest edge (R319). -/
  old : SubTime
deriving DecidableEq, Repr

/-- A coder context (R464, R466, R469). -/
structure Coder where
  mtf : List Nat := [0, 0, 0, 0, 0, 0, 0, 0]
  lens : List Nat := List.replicate 32 0
  lastValid : Bool := false
  blocks : Nat := 0
  items : Nat := 0
  rawBytes : Nat := 0
  codedBytes : Nat := 0
  /-- The next block is reset by R466. -/
  reset : Bool := true
  /-- A state was restored since the last capture started (R472). -/
  restored : Bool := false
  /-- The restored state is the one the next block of the capture starts from (R472). -/
  carried : Bool := false
  srcKind : Nat := 0
  source : Nat := 0
deriving DecidableEq, Repr

/-- A queue behind the objects of R407. -/
structure Queue where
  /-- Pages of every capture, oldest first. -/
  pages : List Page := []
  /-- Groups that wait for a page. -/
  waiting : List Group := []
  chunks : List Chunk := []
  /-- A page must be opened though no record waits: capture start and CLOSE_PAGE (R379, R386). -/
  wantPage : Bool := false
  /-- Records of the boundary that opens the next tick, with their place in the order of R420. -/
  inbox : List (Nat × Group) := []
  /-- A segment opens at the boundary that opens the next tick; the tick at which the current one opened. -/
  opening : Bool := false
  openedAt : Tick := 0
  storage : Bool := true
  /-- Acceptance tick and POST of the open post-trigger window (R320). -/
  window : Option Tick := none
  /-- C of the re-arm (R320). -/
  rearm : Option Tick := none
  loss : Option Loss := none
  rearmLoss : Option Loss := none
  missed : List Rec := []
  builders : Tab Builder := []
  edges : Option EdgeBuilder := none
  blockNo : Tab Nat := []
  coders : Tab Coder := []
  segBytes : Nat := 0
  tokens : Nat := 0
  deficit : Nat := 0
  /-- The capture stopped at this tick with records waiting (R720). -/
  stopAt : Option Tick := none
  /-- Capturing, or stopped with chunks still to write (R721). -/
  draining : Bool := false
  seq : Nat := 0
  /-- The segment last opened in the capture. -/
  segNo : Nat := 1
  segsOf : Nat := 1
  mode : Nat := 0
  /-- SRC_KIND and SOURCE at the capture's start (R410). -/
  srcKind : Nat := 0
  source : Nat := 0
  /-- The segment that last accepted a TRIGGER in the capture, 0 for none (R391). -/
  trigSeg : Nat := 0
  past : List Past := []
deriving DecidableEq, Repr

/-- A lease (R399-R402). -/
structure Lease where
  gen : Nat
  holder : Nat
  queue : Nat
  capture : Nat
  first : Nat
  count : Nat
  timeout : Nat
  since : Tick
  expiryFree : Bool
deriving DecidableEq, Repr

/-- The capture memory manager behind the objects of R405. -/
structure Cmm where
  /-- The free list: runs of page frames, head first (R374). -/
  free : List (Nat × Nat) := []
  leases : Tab Lease := []
  /-- The generation of each table index used so far (R400). -/
  gens : Tab Nat := []
  /-- The IDs of the leases that were revoked (R402). -/
  revoked : List Nat := []
  /-- The queue last served by an allocation, and the allocations of this tick (R390). -/
  rr : Nat := 0
  allocs : Nat := 0
  rr1 : Nat := 0
  rr2 : Nat := 0
  /-- The write queue of each memory channel: chunks waiting, and what its share of the guarantee has earned of the next (R393, R394). -/
  wq : Tab (Nat × Nat) := []
  /-- Holders that were reset, with the tick of the reset: their leases go in the tick after it (R401). -/
  gone : List (Nat × Tick) := []
  /-- The coded blocks, by queue and logical lane, whose self-check fails in the open tick (R467). -/
  fails : List (Nat × Nat) := []
  /-- The lease table has changed for the tick that opens next (R25). -/
  leased : Bool := false
  /-- Training runs since this tick (R367), with the mask it trains. -/
  training : Option (Tick × Nat) := none
  /-- CHANNEL_MASK of the last training, which the training results belong to (R368, R408). -/
  trainMask : Nat := 0
  /-- MIRROR_ENTRIES in effect since the last training (R567). -/
  mirror : Nat := 0
deriving DecidableEq, Repr

/-- One comparator of a logic channel (R99, R103-R110). -/
structure Comp where
  known : Bool := false
  /-- The sub-sample after the settling ticks has been judged (R104). -/
  settled : Bool := false
  /-- The first tick after the settling ticks. -/
  settleAt : Tick := 0
  /-- Raw output, and the filtered level f. -/
  raw : Bool := false
  f : Bool := false
  /-- The last FILTER_N (raw, xt) entries, newest first. -/
  hist : List (Bool × Option SubTime) := []
  run : Nat := 0
  away : Bool := false
  etime : SubTime := 0
  last0 : Option SubTime := none
  last1 : Option SubTime := none
deriving DecidableEq, Repr

/-- One entry of an edge FIFO (R118), with the GAP that stands before it (R121): first tick, last tick, count. -/
structure EdgeEntry where
  time : SubTime
  lower : Bool
  level : Bool
  state : Nat
  gap : Option (Tick × Tick × Nat) := none
deriving DecidableEq, Repr

/-- An accepted edge on its way to the condition units (R117, R275). -/
structure LcEdge where
  slot : Nat
  lower : Bool
  level : Bool
  time : SubTime
  before : Nat
  after : Nat
deriving DecidableEq, Repr

/-- What a channel delivers to the condition units for one of its ticks (R117). -/
structure LcSample where
  due : Tick
  states : List Nat
  edges : List LcEdge
  /-- The upper, the lower comparator started at the boundary that opened the tick (R283). -/
  upStart : Bool := false
  loStart : Bool := false
deriving DecidableEq, Repr

/-- A logic channel behind the objects of R130. -/
structure Channel where
  up : Comp := {}
  lo : Comp := {}
  fifo : List EdgeEntry := []
  lost : Option (Tick × Tick × Nat) := none
  pipe : List LcSample := []
  /-- The states that reach the units in the current tick, four from each tick of the channel, the edges, and the comparator starts by place
  among the states and lower comparator (R275, R283). -/
  view : List Nat := [2, 2, 2, 2]
  edges : List LcEdge := []
  starts : List (Nat × Bool) := []
  /-- Level at the ball, microvolts. -/
  ball : Int := 0
  /-- Flags set in the tick now open, which a read in this tick does not see (R126). -/
  flags : Nat := 0
deriving DecidableEq, Repr

/-- An input on its way to the condition units (R262). -/
inductive Arrival where
  /-- A lane word, the tick of its first bit, and its bit period in ticks as a fraction (R174, R264). -/
  | word (lane : Nat) (w : Nat) (t : SubTime) (num den : Nat)
  /-- A symbol of a decoder's stream, or an invalid one (R268, R269). -/
  | symbol (lane stream : Nat) (value : Option Nat) (t : SubTime)
  /-- A loss of synchronisation of a lane's decoder, or of lock of the lane (R265, R269). -/
  | broken (lane : Nat) (lock : Bool)
  /-- An item of a LANE_FIELD kind: its value, or its bytes (R271). -/
  | field (lane kind : Nat) (x : Nat) (data : Bytes) (t : SubTime)
  /-- A flow event (R246, R285). -/
  | flow (lane kind fid tag count : Nat) (late : Int) (t : SubTime)
  /-- A video event of a decoder, or of a flow when `flow` holds (R194, R287). -/
  | video (inst : Nat) (flow : Option Nat) (kind ln sig : Nat) (incomplete : Bool) (t : SubTime)
  /-- Errors of a decoder in one tick, one (kind, count) each (R288). -/
  | code (inst : Nat) (kinds : List (Nat × Nat)) (t : SubTime)
  /-- A new conditioned level of a TRIG_IN pin (R292, R293). -/
  | trigIn (pin : Nat) (level : Bool) (t : SubTime)
  /-- A cascade trigger message (R292, R324). -/
  | casc (port code : Nat) (t : SubTime)
  /-- Pulsed software lines (R294). -/
  | soft (lines : Nat) (t : SubTime)
deriving DecidableEq, Repr

/-- A condition unit behind the objects of R297: its internal state (R261) and the bits it is still to present. -/
structure CondUnit where
  /-- The previous lane word, and the tick of its first bit (R264). -/
  prev : Option Nat := none
  prevAt : Tick := 0
  /-- Latest symbols per stream, newest first (R266). -/
  syms : Tab (List (Nat × SubTime)) := []
  pulse : Option SubTime := none
  /-- The open pulse has already given its EARLY bit (R282). -/
  early : Bool := false
  /-- The open code-error window: its first tick and its count (R288). -/
  window : Option (Tick × Nat) := none
  prevPat : Option Bool := none
  /-- Bits to present: tick and event time (R262). -/
  sched : List (Tick × SubTime) := []
  /-- The commit tick of the configuration in force, for AT and PERIODIC (R290). -/
  since : Tick := 0
deriving DecidableEq, Repr

/-- What a taken branch asks of the queues at the next tick (R318-R322). -/
structure TrigAct where
  bb : Nat
  level : Nat
  branch : Nat
  trigger : Bool
  mark : Bool
  group : Nat
  time : SubTime
  fallback : Bool
  storeOp : Nat
  storeGroup : Nat
deriving DecidableEq, Repr

/-- A Bobbin behind the objects of R334. -/
structure Bobbin where
  /-- The branches of the program in force that are not all zero, by 4 x level + branch (R345). -/
  recs : Tab Nat := []
  /-- The slot the copy was taken from (R359). -/
  slot : Nat := 255
  entry : Tick := 0
  run : List Nat := [0, 0, 0, 0]
  /-- The event Hoop FIFO, oldest first (R328), and whether an event was lost since the last entry. -/
  fifo : List Nat := []
  lost : Bool := false
deriving DecidableEq, Repr

/-- A TRIG_IN pin (R291, R726) or a TRIG_OUT pin (R323). -/
structure Pin where
  /-- TRIG_OUT: requested starts, by the boundary at which the pin goes active. -/
  starts : List Tick := []
  /-- TRIG_OUT: the boundary at which the pulse ends. -/
  until_ : Option Tick := none
  /-- TRIG_IN: the tick of the first sample since the reset or of the last accepted change. -/
  since : Tick := 0
  level : Bool := false
  /-- TRIG_IN: the level at the ball, and how many samples in a row have differed from the conditioned level (R291). -/
  ball : Bool := false
  count : Nat := 0
deriving DecidableEq, Repr

/-- A descriptor fetched by a ring and not yet complete (R583-R589). -/
structure Fetched where
  count : Nat
  desc : Bytes
deriving DecidableEq, Repr

/-- A readout ring behind the objects of R597. -/
structure Ring where
  tail : Nat := 0
  cplHead : Nat := 0
  /-- Lease of the latest successful GRANT (R585). -/
  lease : Option Nat := none
  fetched : List Fetched := []
  /-- Bytes of the oldest descriptor's READ that have been transferred, and whether one of its bursts was uncorrectable (R587, R589). -/
  sent : Nat := 0
  failed : Bool := false
deriving DecidableEq, Repr

/-- The PCIe host port behind the objects of R598: the registers of BAR0 (R576) and the BAR2 cache (R590). -/
structure HostPort where
  cmdBusy : Nat := 0
  rspReady : Nat := 0
  intStatus : Nat := 0
  ringPending : Nat := 0
  noteHead : Nat := 0
  /-- NSEQ of port 0 (R581). -/
  noteSeq : Nat := 0
  /-- Contents of the command slots and of the response slots. -/
  cmdSlots : Tab Bytes := []
  rspSlots : Tab Bytes := []
  /-- The MSI-X table, by 32-bit word, and the PBA, by vector. -/
  msix : Tab Nat := []
  pba : List Nat := []
  rings : Tab Ring := []
  /-- The ring that the round-robin of R587 served last. -/
  served : Nat := 63
  /-- Packets whose doorbell has rung and that are not yet in HF0, in doorbell order, and the tick in which the first word of the first was
  written (R578, R651). -/
  mail : List (Issuer × Bytes) := []
  mailAt : Option Tick := none
  /-- Bytes of BAR2 reads served in the open tick (R592). -/
  bar2Count : Nat := 0
  /-- Cached window pages: page number to (PFN, LEASE_ID) (R590, R591). -/
  cache : Tab (Nat × Nat) := []
  busMaster : Bool := false
deriving DecidableEq, Repr

/-- The fuses and the OTP of the unit: what the factory and the owner have programmed (R1, R73, R128, R536, R538,
R556, R559, R645). -/
structure Otp where
  /-- 0 EPC-8856, 1 EPC-8832, 2 EPC-8816. -/
  variant : Nat := 0
  grade : Nat := 0
  serial : Nat := 0
  mac : Nat := 0
  bands : Tab Nat := []
  toggle : Tab Nat := []
  /-- Path delay from ball to comparator, per channel, sub-ticks (R115). -/
  pathDelay : Tab Nat := []
  certChain : Bytes := []
  pubKey : Bytes := []
  /-- The identity key's private half, which no port can read (R536). -/
  privKey : Nat := 0
  /-- Subsystem IDs of the host port, where they are fused (R574). -/
  subVendor : Option Nat := none
  subDevice : Option Nat := none
  rootKey : Bytes := []
  ownerKey : Bytes := []
  policyFloor : Nat := 0
  secMin : Nat := 0
  secRaises : Nat := 0
  /-- Fused repairs: instance and row, instance and spare column (R645). -/
  repairs : List (Nat × Nat) := []
  columns : List (Nat × Nat) := []
  /-- The faulty cells of the unit's SRAM, which no reset mends (R631). -/
  defects : List Defect := []
deriving DecidableEq, Repr

/-- An ancillary packet being read on one data stream (R187): the last two words with their times, and the words so far. -/
structure AncRead where
  p1 : Nat := 0
  p2 : Nat := 0
  t1 : Tick := 0
  t2 : Tick := 0
  open_ : Bool := false
  words : List Nat := []
  at_ : Tick := 0
  off : Nat := 0
deriving DecidableEq, Repr

/-- The SDI decoder of one lane (R179-R199): descrambler, TRS search, line structure and frame. -/
structure SdiLane where
  nrzi : Bool := false
  lfsr : Nat := 0
  /-- Bits still discarded while the descrambler fills (R181). -/
  fill : Nat := 10
  sr : Nat := 0
  bitNo : Nat := 0
  eavs : List Nat := []
  sync : Bool := false
  /-- Word times in a line, word time and stream of the next word, its bits so far and the time of its first bit. -/
  lineWords : Nat := 0
  wt : Nat := 0
  strm : Nat := 0
  acc : Nat := 0
  accBits : Nat := 0
  accT : Tick := 0
  /-- Word time of the SAV last seen, and the progress of a SAV now arriving. -/
  sav : Option Nat := none
  pre : Nat := 0
  preOk : Bool := true
  preT : Tick := 0
  miss : Nat := 0
  present : Bool := true
  f : Bool := false
  v : Bool := false
  prevF : Bool := false
  prevV : Bool := false
  eavT : Tick := 0
  ln0 : Nat := 0
  ln : Nat := 0
  lnKnown : Bool := false
  skipCrc : Nat := 2
  crc : List Nat := []
  cr0 : List Nat := []
  active : Bool := false
  startField : Bool := false
  anc : Tab AncRead := []
  /-- Words of the active line, for the signature, and samples for the Filet track. -/
  lineBytes : Bytes := []
  luma : List Nat := []
  chroma : List Nat := []
  sampleT : Tick := 0
deriving DecidableEq, Repr

/-- The frame an SDI decoder has open (R193-R199). -/
structure SdiFrame where
  open_ : Bool := false
  lines : Nat := 0
  signed : Bool := false
  incomplete : Bool := false
  crc : Nat := 0xFFFFFFFF
  bytes : Nat := 0
  /-- Lines of each logical lane that the signature has not yet taken, with the time of their first sample after the deskew. -/
  queue : Tab (List (Tick × Bytes)) := []
  taken : Nat := 0
  /-- The frame closed at this time with this many active lines; its signature waits for the lanes' last lines. -/
  closed : Option (Tick × Nat) := none
  /-- Logical lanes whose closing EAV has been read to its end. -/
  ended : List Nat := []
deriving DecidableEq, Repr

/-- One decoded group or block that waits for the other lanes of its link. -/
structure CodeItem where
  value : Nat
  valid : Bool
  payload : Nat
  time : Tick
  /-- The item holds a deskew marker (R169). -/
  mark : Bool := false
deriving DecidableEq, Repr

/-- A frame that a decoder has read (R205, R206): the time of the first bit after its start frame delimiter, its bytes from the destination address
through the frame check sequence as received, and the flags that the decoding gives it (bit 1 CODE_ERR, 2 FEC_UNCORR, 5 HI_BER); FCS_ERR, RUNT and
TRUNCATED follow from the bytes. -/
structure Frame where
  time : Nat
  data : Bytes
  flags : Nat := 0
  /-- MAX_FRAME when the frame ended. -/
  limit : Nat := 9728
deriving DecidableEq, Repr

/-- A frame being read (R205): the octets up to the start frame delimiter still to come, and the frame so far. -/
structure EthRead where
  skip : Nat
  time : Option Tick := none
  data : Bytes := []
  code : Bool := false
  fec : Bool := false
  hiBer : Bool := false
deriving DecidableEq, Repr

/-- The forward error correction of a lane (R203, R204): the latest bits, in which a marker is looked for; the bits since the start of the last
marker's place; markers found and missing in a row; and the bits of the present codeword, with the number of its first bit in the lane's stream. -/
structure FecLane where
  win : Nat := 0
  pos : Option Nat := none
  found : Nat := 0
  gone : Nat := 0
  acc : Nat := 0
  accBits : Nat := 0
  start : Nat := 0
deriving DecidableEq, Repr

/-- The decoder of one lane under the coded personalities (R201-R218). -/
structure CodeLane where
  sync : Bool := false
  win : Nat := 0
  bitNo : Nat := 0
  acc : Nat := 0
  accBits : Nat := 0
  accT : Tick := 0
  /-- Times of the first bits of payload octets 0 and 4 of the block (R206). -/
  octT0 : Tick := 0
  octT4 : Tick := 0
  /-- Commas found at one offset (R210). -/
  commaOff : Nat := 0
  commas : Nat := 0
  rd : Bool := false
  score : Nat := 0
  good : Nat := 0
  /-- Validity of the last 64 headers, newest first. -/
  hdrs : List Bool := []
  /-- One bit is skipped before the next block (R214). -/
  slip : Bool := false
  scr : Nat := 0
  items : List CodeItem := []
  eth : Option EthRead := none
  fec : FecLane := {}
deriving DecidableEq, Repr

/-- What one lane's bits go through: the personality's own part is used. The bits so far are numbered, and the numbers of the first bits of the
latest words and their stamps are kept (R174). -/
structure Front where
  sdi : SdiLane := {}
  code : CodeLane := {}
  count : Nat := 0
  words : List (Nat × Tick) := []
deriving DecidableEq, Repr

/-- A line decoder behind the objects of R219, by its logical lanes. -/
structure Decoder where
  fronts : Tab Front := []
  frame : SdiFrame := {}
  /-- Ancillary packets that wait to leave the decoder (R189). -/
  ancQ : List (List Rec) := []
  /-- Errors of the open tick: kind and count, logical lane and time of the first (R176). -/
  errs : List (Nat × Nat) := []
  errAt : Option (Nat × Tick) := none
  /-- Bad headers and codewords in the present 125 us interval, and its start (R207). -/
  bad : Nat := 0
  badSince : Tick := 0
  /-- Frames read and not yet delivered, with the tick of the word that completed each (R205). -/
  ready : List (Tick × Frame) := []
  /-- The lanes of a link stand at one marker (R155). -/
  aligned : Bool := false
  /-- A loss of synchronisation of the open tick: its tick and its first cause (R172), and an entry to SYNC after it in that tick. -/
  lossPend : Option (Tick × Nat) := none
  syncPend : Option Tick := none
  /-- The latest time, after the deskew, of an event that makes a signature INCOMPLETE (R199). -/
  flaw : Option Tick := none
  /-- A link without AUTO deskew, aligned by time alone as yet (R211): the items presented or discarded of each logical lane since, its last marker's
  number and time, and the items still to be discarded. -/
  loose : Bool := false
  count : Tab Nat := []
  marked : Tab (Nat × Tick) := []
  skip : Tab Nat := []
  /-- LN and time of the last EAV of each logical lane, and an EAV of lane 0 still to be compared (R191). -/
  eav : Tab (Nat × Tick) := []
  check : Option (Nat × Tick × Tick) := none
  /-- The time of the last bit read of each logical lane (R191). -/
  seen : Tab Tick := []
deriving DecidableEq, Repr

/-- A serial lane behind the objects of R165. -/
structure Lane where
  /-- The open GAP: tick of the first loss, partial words discarded (R144). -/
  gap : Option (Tick × Nat) := none
  /-- A further loss, of which it is not yet known whether a word that came before it will close that GAP. -/
  gap2 : Option (Tick × Nat) := none
  /-- The tick of the entry into LOCKED, the bit period in ticks and the MODULATION since, and the words since: the first one's stamp, their number
  and the last one's stamp (R140). -/
  lockAt : Option Tick := none
  form : Option (Nat × Nat × Nat) := none
  chain : Option (Tick × Nat × Tick) := none
  /-- The last loss of lock: the boundary that ends its tick, and the bits of the partial word discarded (R144). -/
  cut : Option (Tick × Nat) := none
  /-- The boundaries at which POLARITY has lately changed, oldest first, and POLARITY before each (R139). -/
  pols : List (Tick × Bool) := []
  /-- The tick in which the last word left the elastic buffer (R142). -/
  wordAt : Option Tick := none
  /-- What the receiver measures: amplitude in millivolts, symbol rate in 10^-3 Bd, unit intervals since the last transition (R135, R136). -/
  mv : Nat := 0
  rate : Nat := 0
  still : Nat := 0
  /-- Ticks in a row with the amplitude above, and below, SIGDET_MV; windows in a row within, and beyond, LOCK_PPM; the first tick of the present
  window; and the tick since which the phase loop has tracked without a cycle slip (R136). -/
  loud : Nat := 0
  quiet : Nat := 0
  near : Nat := 0
  far : Nat := 0
  windowAt : Tick := 0
  cleanAt : Tick := 0
  /-- The equaliser's codes, CTLE first, that were in force before each change of the last 4,096 ticks, newest first (R724). -/
  codes : List (Tick × List Int) := []
  /-- The three PAM4 slicer levels, in units of 1/128 of slicer full scale (R149). -/
  slicers : List Int := [0, 0, 0]
  /-- The eye monitor: tick at which the last scan ended, and a scan requested (R160). -/
  lastEye : Tick := 0
  eyeAsked : Bool := false
  /-- The finder of the deskew markers (R153). -/
  finder : Front := {}
deriving DecidableEq, Repr

/-- A running eye scan (R160-R164): lane, mode, dwell, and how it must end if not normally. -/
structure EyeRun where
  lane : Nat
  mode : Nat
  dwell : Nat
  abort : Nat
  start : Tick := 0
deriving DecidableEq, Repr

/-- A link behind the objects of R166. -/
structure Link where
  delays : List Nat := []
  /-- Departure from ALIGNED and lane words withheld since (R157). -/
  gap : Option (Tick × Nat) := none
  /-- Marker times by logical lane, newest first, and the markers of logical lane 0 in this SEARCH (R154). -/
  marks : Tab (List Tick) := []
  zeroMarks : Nat := 0
  /-- The time of the last bit examined on each logical lane, and the markers of logical lane 0 whose sets are still to be judged (R154, R156). -/
  seen : Tab Tick := []
  sets : List Tick := []
  since : Tick := 0
  lastZero : Tick := 0
  misaligned : Nat := 0
  /-- Words of the last 128 ticks: tick of arrival, logical lane, word, stamp (R155, R158). -/
  buf : List (Tick × Nat × Nat × Tick) := []
deriving DecidableEq, Repr

/-- A sample of a Filet track: component, position in the line, value, time of its packet (R478). -/
structure FlowSample where
  comp : Nat
  pos : Nat
  value : Nat
  time : Tick
deriving DecidableEq, Repr

/-- A flow context (R239), with what R246, R251 and R479 keep beside its 32 bytes. -/
structure FlowCtx where
  fp : Nat := 0
  queue : Nat := 0
  tag : Nat := 0
  essence : Nat := 0
  valid : Bool := false
  installed : Bool := false
  sigEn : Bool := false
  seqInit : Bool := false
  inFrame : Bool := false
  silent : Bool := false
  queueEn : Bool := false
  stopSel : Nat := 0
  maxSeq : Nat := 0
  cycles : Nat := 0
  lastTs : Nat := 0
  lastArr : Nat := 0
  jitter : Nat := 0
  lost : Nat := 0
  reordered : Nat := 0
  late : Nat := 0
  jitInit : Bool := false
  packets : Nat := 0
  /-- A packet of the context has arrived: NEW has been raised (R246). -/
  seen : Bool := false
  /-- The open signature: CRC register, bytes covered, INCOMPLETE (R198, R199). -/
  sig : Option (Nat × Nat × Bool) := none
  /-- The open row of the Filet track and its samples (R479). -/
  row : Option Nat := none
  samples : List FlowSample := []
deriving DecidableEq, Repr

/-- The flow engine's lane (R224, R244, R255): the tick of the last frame, the tick in which a frame or a table command last
used the flow table's memory, the scanner's place and the tick of its last visit, and the visits each FLUSH_LEARNT still waits
for. -/
structure FlowLane where
  frameAt : Option Tick := none
  usedAt : Option Tick := none
  tableAt : Option Tick := none
  bucket : Nat := 0
  visitAt : Option Tick := none
  flushes : List Nat := []
deriving DecidableEq, Repr

/-- An export job (R484-R491): its descriptor's fields, its place in the order of acceptance and its progress. -/
structure Job where
  op : Nat
  final : Bool
  notify : Bool
  cont : Bool
  wrapper : Nat
  block : Nat
  dest : Nat
  addr : Nat
  outLen : Nat
  queue : Nat
  capture : Nat
  first : Nat
  offset : Nat
  inLen : Nat
  /-- The handle it names, for RESUME, FINISH and START with CONTINUE. -/
  handle : Nat
  iss : Issuer
  /-- The state slot it holds (R487). -/
  slot : Nat
  order : Nat
  running : Bool := false
  startAt : Tick := 0
  /-- The lease under which it reads the present page, its SEQ and the offset in it; the input still to read, what has been read, and the outcome that
  has stopped the reading (R482). -/
  lease : Option Nat := none
  page : Nat := 0
  at_ : Nat := 0
  left : Nat := 0
  got : Bytes := []
  cut : Option Nat := none
  abort : Bool := false
deriving DecidableEq, Repr

/-- A state slot of the deflater (R487): a stream, and a stopped job's input still to consume. -/
structure DeflSlot where
  gen : Nat := 0
  /-- A handle names the slot. -/
  live : Bool := false
  /-- The job that holds the slot. -/
  job : Option Nat := none
  history : Bytes := []
  wrapper : Nat := 0
  check : Nat := 0
  total : Nat := 0
  final : Bool := false
  queue : Nat := 0
  capture : Nat := 0
  first : Nat := 0
  offset : Nat := 0
  remain : Nat := 0
  /-- The last tick at which a job named the handle (R491). -/
  named : Tick := 0
deriving DecidableEq, Repr

/-- A next hop of the management network (R530): whether it is resolved, the tick of the last reply, or of the last
request, how many requests have gone unanswered, and the datagrams that wait for it: subscriber, if a
notification, destination, UDP port and payload. -/
structure NextHop where
  addr : Bytes
  resolved : Bool := false
  since : Tick := 0
  asked : Nat := 1
  waiting : List (Option Nat × Bytes × Nat × Bytes) := []
deriving DecidableEq, Repr

/-- The port-2 write lock (R606): its holder, what the holder writes, the tick of its first word, and whether the packet
will be complete; the requests that wait, the last holder, and whether a core's packet is being dropped. -/
structure Lock where
  holder : Option Nat := none
  data : Bytes := []
  start : Tick := 0
  waiting : List (Nat × Bytes) := []
  last : Nat := 3
  /-- The lock was released in this tick (R606). -/
  freed : Tick := 0
deriving DecidableEq, Repr

/-- A service core (R609): ticks of its resets by watchdog or fault, and the latch of the third in 60 s. -/
structure CoreRun where
  faults : List Tick := []
  latched : Bool := false
deriving DecidableEq, Repr

/-- The configuration block that SC0 applies (R622): the entries still to be sent, whether staged values wait for their COMMIT, whether an entry
has failed, and whether the COMMIT at the end has been sent. -/
structure ConfigRun where
  left : List (Key × Bytes)
  staged : Bool := false
  bad : Bool := false
  ended : Bool := false
deriving DecidableEq, Repr

/-- The flash as the cores know it (R601, R621): the generations of the two configuration copies as last read or written,
the write in progress (firmware slot 0 or 1, copy 2 or 3) with its generation, and the check of R602 in progress. -/
structure Flash where
  gen0 : Option Nat := none
  gen1 : Option Nat := none
  writing : Option (Nat × Nat) := none
  checking : Bool := false
  /-- The configuration block that is being applied (R622). -/
  applying : Option ConfigRun := none
deriving DecidableEq, Repr

/-- A SIGNATURE entry (R617, R618): the events that wait in its tap, and its place in the golden list. -/
structure SigRun where
  tap : List (Nat × Bool × SubTime) := []
  place : Option Nat := none
deriving DecidableEq, Repr

/-- A STREAM entry (R619): captures still to send, the capture being sent, the job slot that exports it, the stream bytes that wait
in service memory, the offset sent so far, whether the job has ended for good, and the next tick at which its rate lets it send. -/
structure StreamRun where
  todo : List Nat := []
  cur : Option Nat := none
  job : Option Nat := none
  ready : Bytes := []
  sent : Nat := 0
  ended : Bool := false
  nextAt : Tick := 0
  /-- The last capture of the queue that STREAM has seen end. -/
  seen : Nat := 0
  /-- The tag of the job descriptor that STREAM has written and that is not yet answered (R483), and the slot of the job before it. -/
  asked : Option (Nat × Option Nat) := none
deriving DecidableEq, Repr

/-- A FLOWHEALTH lane (R614-R616): the beginning of the scanner pass of its last sample, and the counters of that sample by FID: PACKETS, LOST,
REORDERED, LATE; the copies of the contexts that the scanner has given it, by FID; and where the present pass began, and the latest whole one. -/
structure HealthRun where
  lastAt : Tick := 0
  prev : Tab (Nat × Nat × Nat × Nat) := []
  copy : Tab FlowCtx := []
  begun : Option Tick := none
  whole : Option Tick := none
deriving DecidableEq, Repr

/-- A borrow of the Darner (R637): instance, row, first tick. -/
structure Borrow where
  inst : Nat
  row : Nat
  start : Tick
  /-- The save buffer, by word of the row: the bits in which a word that it holds differs from what was written (R637, R638). -/
  saved : Tab Nat := []
deriving DecidableEq, Repr

/-- The test and repair of the SRAM (R631-R645). -/
structure Repair where
  /-- Rows that need repair, and soft repairs that are not fused: (instance, row). -/
  needs : List (Nat × Nat) := []
  soft : List (Nat × Nat) := []
  /-- The spare row that serves a row, latest last: (instance, row, spare row), and the spare rows that have failed the March test (R642). -/
  spares : List (Nat × Nat × Nat) := []
  badSpares : List (Nat × Nat) := []
  /-- The bits of a stored word that differ from what was written, by instance x 2^17 + word (R630). -/
  flips : Tab Nat := []
  /-- Corrected errors of a row since power-on reset, by instance x 65536 + row (R641). -/
  rowCe : Tab Nat := []
  borrow : Option Borrow := none
  /-- The end of each instance's last borrow (R636), and the instance last borrowed. -/
  lastEnd : Tab Tick := []
  place : Nat := 231
  /-- A March request: its mode (1 PRESERVE, 2 DESTROY, 3 RECOVER) and its instances (R633). -/
  march : Option (Nat × List Nat) := none
  /-- A RECOVER that names FAULT_INST has ended since FAULT was entered (R670). -/
  recovered : Bool := false
deriving DecidableEq, Repr

/-- Device resets and faults on their way (R667-R671). -/
structure DevRun where
  /-- Reset requests: the boundary and the kind of each (R671). -/
  resets : List (Tick × Nat) := []
  /-- Causes of FAULT detected and not yet acted on, with the instance of an SRAM cause (R667). -/
  causes : List (Nat × Nat) := []
  /-- The last tick at which a rail was out of its range, if one has been (R670). -/
  railBad : Option Tick := none
  /-- The lane receivers and front ends are powered down by a THERMAL cause (R668, R669). -/
  cold : Bool := false
deriving DecidableEq, Repr

/-- Work that waits for the next tick: what one tick has no more room for (R15, R255, R592), and a page allocation behind a lease change (R25). -/
inductive Parked where
  | word (lane raw stamp : Nat)
  | frame (lane : Nat)
  | visit (lane : Nat)
  | alloc
  | bar2 (addr count : Nat) (entry : Bytes)
deriving DecidableEq, Repr

/-- The state of the engine. -/
structure State where
  /-- The tick now open (R14). -/
  tick : Nat := 0
  /-- Every integer and TIME object whose value is not its default, by key. -/
  dict : Tab Nat := []
  /-- Every DOMAIN and STRING object that is not empty, by key. -/
  doms : Tab Bytes := []
  /-- The service cores' own copies of the port-2 objects of R519, by core x 2^24 + key. -/
  coreDict : Tab Nat := []
  coreDoms : Tab Bytes := []
  ports : Tab PortState := []
  /-- Read buffers: ports 0 and 1, and 2 + core for port 2 (R526, R519). -/
  readBufs : Tab ReadBuf := []
  transfers : List Transfer := []
  landing : List Landing := []
  /-- What waits for the boundary that opens the next tick, in the order of acceptance (R22, R512). -/
  due : List Due := []
  /-- What waits for the next tick, in order (R15, R25, R592). -/
  parked : List Parked := []
  sessions : Tab Session := []
  /-- Handshakes begun since power-on: the number of the next draw of R542. -/
  draws : Nat := 0
  /-- The journal ring, newest entry first (R560), and its DDR mirror (R566). -/
  journal : List JEntry := []
  mirror : List JEntry := []
  /-- The journal entries that wait for a tick in which fewer than 16 have been written (R560). -/
  jPace : JPace := {}
  time : TimeBase := {}
  casc : Tab CascPort := []
  syn : Tab Synth := []
  queues : Tab Queue := []
  cmm : Cmm := {}
  /-- Capture memory, byte by byte (R371). -/
  mem : List Host.Cell := []
  /-- The 64-byte bursts of capture memory whose stored bits have errors, by address / 64: 1 in one x4 device position, 2 in two (R370). -/
  memBad : Tab Nat := []
  chans : Tab Channel := []
  lgRr : Tab Nat := []
  arrivals : List (Tick × Arrival) := []
  units : Tab CondUnit := []
  /-- The units that present 1 in the current tick, with their event times (R262). -/
  cuOut : Tab SubTime := []
  /-- History rings: the positions that hold 1, newest first (R295). -/
  rings : Tab (List Int) := []
  bbs : Tab Bobbin := []
  /-- The cross-signals that are 1 in the current tick, with their event times (R315). -/
  xs : Tab SubTime := []
  /-- Actions on queues decided in the current tick, for the next one (R318). -/
  acts : List TrigAct := []
  /-- What STATE, LEVEL, CNT and TMR read in the open tick where its decisions have already set the values of the next (R311). -/
  bbShown : Tab Nat := []
  trigIn : Tab Pin := []
  trigOut : Tab Pin := []
  /-- The event reader's round-robin place and the FIFOs it has read in this tick (R329). -/
  evLast : Nat := 7
  evRead : List Nat := []
  host : HostPort := {}
  /-- Ingress Hoop FIFOs HF0-HF2: the packets held, oldest first (R646, R647). -/
  hoop : Tab (List (Issuer × Bytes)) := []
  /-- Bits that have changed in the words of a Hoop FIFO: FIFO, word counted from the next one to be read, bit (R653). -/
  hoopFlips : List (Nat × Nat × Nat) := []
  /-- Notifications queued for the subscribers, with their NSEQ (R532). -/
  subQ : Tab (List (Nat × Note)) := []
  /-- Factory and owner fuses. -/
  otp : Otp := {}
  lanes : Tab Lane := []
  links : Tab Link := []
  decs : Tab Decoder := []
  /-- The eye monitor's running scan. -/
  eye : Option EyeRun := none
  /-- The boundary at which each history ring was last cleared (R296); a load of the tick count can put it, and positions, before tick 0. -/
  ringClr : Tab Int := []
  /-- The flow engine's lanes, and the flow contexts by FID (R234). -/
  flowLanes : Tab FlowLane := []
  flows : Tab FlowCtx := []
  /-- Commands whose outcome another event brings (R505): what they wait for, and the command. -/
  deferred : List (Wait × Landing) := []
  /-- Export jobs by job slot, the state slots, and the number of the next accepted job. -/
  jobs : Tab Job := []
  deflSlots : Tab DeflSlot := []
  jobOrder : Nat := 0
  /-- The ports from which a packet was accepted in the open tick (R511). -/
  taken : List Nat := []
  /-- The management port: link synchronisation, next hops (R530, R711). -/
  sgmii : Bool := false
  hops : List NextHop := []
  lock : Lock := {}
  cores : Tab CoreRun := []
  /-- The shared service memory (R600), byte by byte. -/
  shm : List Host.Cell := []
  flash : Flash := {}
  sigs : Tab SigRun := []
  streams : Tab StreamRun := []
  health : Tab HealthRun := []
  repair : Repair := {}
  dev : DevRun := {}
  /-- Telemetry as last swept, by index: the tick and the values (R528). -/
  swept : Tab (Tick × Tab Nat) := []
  /-- The model's own counter of free values. -/
  free : Nat := 0
  /-- What has left the engine, oldest first. -/
  out : List Output := []
  /-- The commands that wait, first in, first out. -/
  pending : List Instr := []
deriving DecidableEq, Repr

/-- Why the machine stops. The engine's chapters give every command of the table an effect, so nothing raises a fault;
the type has one member because a type of outcomes is asked for. -/
inductive Fault where
  /-- Raised by no command; safe. -/
  | none_
deriving DecidableEq, Repr

/-- Why a command has no meaning. -/
inductive Refusal where
  /-- Raised by the dispatcher for a row not modelled; safe. -/
  | notModelled (mnemonic : String)
deriving DecidableEq, Repr

/-- The factory band entry of a code (R73): DESIGN CHOICE, assumption 5; codes 24 to 39 cover 9.68-10.34 GHz. -/
def factoryBand (code : Nat) : Nat := (9680000 + 40000 * (code - 24)) + 2 ^ 32 * (9740000 + 40000 * (code - 24))

/-- The fuses of the unit the model starts from: an EPC-8856 whose factory fuses are programmed and whose owner
has programmed nothing (DESIGN CHOICE, assumption 5). -/
def Otp.factory : Otp := { bands := (upFrom 16 24).map (fun c => (c, factoryBand c)) }

/-- The engine right after power-on reset (R656-R659, R673): BOOT, every object at its default, the band table as
OTP gives it, nothing captured, no command waiting. -/
def State.reset : State :=
  { otp := Otp.factory, dict := Otp.factory.bands.map (fun p => (0x2210 * 256 + 1 + p.1, p.2)) }

end Sys2Proof.Machine
end

