-- ==== Sys2Proof/Machine/Ops.lean ====
section
/-! DEFINITION. The named operations every block uses: reading and writing objects, counting, capture
memory, what leaves the engine, interrupts and notifications, the journal, and free values. -/

namespace Sys2Proof.Machine

/-- The answer of every meaning that ends in a next state. -/
abbrev Ans := Host.Outcome State Fault Refusal

/-- The resting value of a DOMAIN or STRING object (the Default columns): zero bytes of full length for the
objects whose default is Zero or 0, R366 for TIMINGS, nothing elsewhere. -/
def domDflt (k : Key) : Bytes :=
  if k = Obj.commIpv6Addr ∨ k = Obj.commIpv6Gateway then zeros 16
  else if k % 256 = 1 ∧ 0x1110 ≤ k / 256 ∧ k / 256 < 0x1118 then zeros 16
  else if k % 256 = 2 ∧ 0x5A80 ≤ k / 256 ∧ k / 256 < 0x5A84 then zeros 16
  else if k % 256 = 3 ∧ 0x1210 ≤ k / 256 ∧ k / 256 < 0x1218 then zeros 18
  else if k % 256 = 2 ∧ 0x5500 ≤ k / 256 ∧ k / 256 < 0x5510 then zeros 48
  else if k / 256 = 0x5000 ∧ 0x16 ≤ k % 256 ∧ k % 256 < 0x19 then zeros 24
  else if k / 256 = 0x3410 ∧ 2 ≤ k % 256 ∧ k % 256 < 5 then zeros 40
  else if k = Obj.cmmTimings then
    [16000, 16000, 16000, 32000, 48000, 30000, 295000, 160000, 130000, 2500, 5000, 5000, 20000, 13333, 10000,
      3900000].flatMap (fun v => le 4 v)
  else []

/-- The value of an integer or TIME object, as a number of its width. -/
def State.obj (s : State) (k : Key) : Nat := s.dict.getD k (dfltOf k)

/-- Give an integer or TIME object a value. -/
def State.setObj (s : State) (k : Key) (v : Nat) : State := { s with dict := s.dict.put k (dfltOf k) v }

/-- The bytes of a DOMAIN or STRING object. -/
def State.dom (s : State) (k : Key) : Bytes := s.doms.getD k (domDflt k)

/-- Give a DOMAIN or STRING object its bytes. -/
def State.setDom (s : State) (k : Key) (v : Bytes) : State := { s with doms := s.doms.put k (domDflt k) v }

/-- Is a BOOL object 1? -/
def State.flag (s : State) (k : Key) : Bool := s.obj k != 0

/-- The value of a signed object. -/
def State.int (s : State) (k : Key) : Int :=
  match findObj k with
  | some d => toInt d.ty.width (s.obj k)
  | none => 0

/-- Give a signed object a value. -/
def State.setInt (s : State) (k : Key) (v : Int) : State :=
  match findObj k with
  | some d => s.setObj k (ofInt d.ty.width v)
  | none => s

/-- The largest value an object's type holds. -/
def maxOf (k : Key) : Nat :=
  match findObj k with
  | some d => 2 ^ d.ty.width - 1
  | none => 0

/-- Add to a counter, which saturates at its maximum. DESIGN CHOICE (assumption 48): so do PICOT_DISCARDED (R85) and TICK_FENCE_COUNT (R92), of
which the spec says neither that nor that they wrap. -/
def State.bump (s : State) (k : Key) (n : Nat) : State := s.setObj k (min (s.obj k + n) (maxOf k))

/-- Set objects in order. -/
def State.setObjs (s : State) (l : List (Key × Nat)) : State := l.foldl (fun s p => s.setObj p.1 p.2) s

/-- Give an object the value its Default column states. -/
def State.rest (s : State) (k : Key) : State := { s with dict := s.dict.del k, doms := s.doms.del k }

/-- Give every listed object that the test names its default. -/
def State.restAll (s : State) (p : Key → Bool) : State :=
  { s with dict := s.dict.filter (fun e => !p e.1), doms := s.doms.filter (fun e => !p e.1) }

/-- The next free value: the model's counter is read and advanced. -/
def State.fresh (s : State) : Nat × State := (Config.freeNat s.free, { s with free := s.free + 1 })

/-- Does what comes now belong to the next tick: earlier work of its kind waits for it (R15, R255)? -/
def State.belongsLater (s : State) (same : Parked → Bool) : Bool := s.parked.any same

/-- Something waits for the boundary that opens the next tick (R22, R512). -/
def State.await (s : State) (d : Due) : State := { s with due := s.due ++ [d] }

/-- Work of the data plane waits for the next tick. -/
def State.postpone (s : State) (p : Parked) : State := { s with parked := s.parked ++ [p] }

/-- Put something out. -/
def State.emit (s : State) (o : Output) : State := { s with out := s.out ++ [o] }

/-- Put several things out, in order. -/
def State.emits (s : State) (l : List Output) : State := { s with out := s.out ++ l }

/-- The byte of capture memory at an address; memory that nothing has written reads as zero. -/
def State.memByte (s : State) (a : Nat) : Byte := Tab.getD s.mem a 0

/-- Write one byte of capture memory. -/
def State.setMem (s : State) (a : Nat) (b : Byte) : State := { s with mem := Tab.put s.mem a 0 b }

/-- Write bytes from an address on. -/
def State.setMemBytes (s : State) (a : Nat) : Bytes → State
  | [] => s
  | b :: t => (s.setMem a b).setMemBytes (a + 1) t

/-- Read n bytes from an address on. -/
def State.memBytes (s : State) (a n : Nat) : Bytes := (upFrom n a).map s.memByte

/-- Clear the bytes lo .. lo + n - 1. -/
def State.memClear (s : State) (lo n : Nat) : State :=
  { s with mem := s.mem.filter (fun c => c.1 < lo || lo + n ≤ c.1) }

/-- Serial lanes present (R2). -/
def lanesOf (variant : Nat) : Nat := if variant = 0 then 32 else if variant = 1 then 16 else 8

/-- Logic-channel groups present (R2). -/
def groupsOf (variant : Nat) : Nat := if variant = 2 then 8 else 16

/-- Memory channels present (R2). -/
def memChansOf (variant : Nat) : Nat := if variant = 0 then 12 else if variant = 1 then 8 else 6

/-- Service cores present (R2). -/
def coresOf (variant : Nat) : Nat := if variant = 2 then 2 else 4

/-- Flow contexts of the unit (R2). -/
def flowsOf (variant : Nat) : Nat := lanesOf variant * 8192

/-- Is an SRAM instance absent (R627)? -/
def instAbsent (variant i : Nat) : Bool :=
  (64 ≤ i && i < 96 && lanesOf variant ≤ i - 64) || (174 ≤ i && i < 178 && coresOf variant ≤ i - 174)

/-- Does an index name an instance absent on the variant (R3, R497)? Service objects are present on every
variant (R1). -/
def absentIndex (variant ix : Nat) : Bool :=
  let within (b n have_ : Nat) : Bool := b + have_ ≤ ix && ix < b + n
  within 0x3100 32 (lanesOf variant) || within 0x6040 32 (lanesOf variant) || within 0x3200 32 (lanesOf variant)
    || within 0x6060 32 (lanesOf variant) || within 0x3420 32 (lanesOf variant) || within 0x6080 32 (lanesOf variant)
    || within 0x5410 32 (lanesOf variant) || within 0x5440 32 (lanesOf variant)
    || within 0x3000 256 (16 * groupsOf variant) || within 0x2400 16 (groupsOf variant)
    || within 0x6010 16 (groupsOf variant) || within 0x5430 16 (groupsOf variant)
    || within 0x5100 12 (memChansOf variant) || within 0x6410 12 (memChansOf variant)
    || within 0x5A10 4 (coresOf variant)
    || (0x5C10 ≤ ix && ix < 0x5C10 + 232 && instAbsent variant (ix - 0x5C10))
    || (0x6500 ≤ ix && ix < 0x6500 + 232 && instAbsent variant (ix - 0x6500))

/-- Does a lane exist on the unit? -/
def State.hasLane (s : State) (n : Nat) : Bool := n < lanesOf s.otp.variant

/-- Does a logic channel exist on the unit? -/
def State.hasLc (s : State) (n : Nat) : Bool := n < 16 * groupsOf s.otp.variant

/-! DEV_STATE (R663). -/

/-- Is the data plane running: the engine is neither in BOOT nor in FAULT (R659, R669)? -/
def State.running (s : State) : Bool := s.obj Obj.devDevState != 0 && s.obj Obj.devDevState != 5

/-- Has start-up ended (R658)? -/
def State.booted (s : State) : Bool := s.obj Obj.devDevState != 0

/-! Interrupts and notifications. -/

/-- Raise an MSI-X vector (R580); a vector is masked while bit 0 of the fourth word of its table entry is set, as it is at reset. -/
def State.raise (s : State) (v : Nat) : State :=
  let h := s.host
  let h := if v < 16 then { h with intStatus := h.intStatus ||| 2 ^ v } else h
  let masked := bit (h.msix.getD (4 * v + 3) 1) 0
  if masked then { s with host := { h with pba := if h.pba.contains v then h.pba else h.pba ++ [v] } }
  else ({ s with host := h }).emit (.msix v)

/-- The vector of a notification class (R580). -/
def vectorOf (cls : Nat) : Nat := if cls < 8 then 2 + cls else if cls = 8 then 10 else if cls = 13 then 11 else 1

/-- The 32 bytes of a notification (R532). -/
def noteBytes (n : Note) (nseq : Nat) : Bytes :=
  le 1 n.cls ++ le 1 0 ++ le 2 n.source ++ le 4 0 ++ le 8 nseq ++ le 8 n.tick ++ le 8 n.detail

/-- Deliver a notification to the port-0 ring (R581, R595). -/
def State.noteHost (s : State) (n : Note) : State :=
  let base := s.obj Obj.hostNoteBase
  if base = 0 ∨ !bit (s.obj Obj.hostNoteMask) n.cls then s
  else if !s.host.busMaster then s.bump Obj.hostCntNoteDropped 1
  else
    let size := s.obj Obj.hostNoteSize
    let nseq := s.host.noteSeq
    let s1 := { s with host := { s.host with noteSeq := nseq + 1 } }
    if size ≤ cut 32 (nseq + (2 ^ 32 - s.host.noteHead)) then (s1.bump Obj.hostCntNoteDropped 1).raise 1
    else (s1.emit (.hostWrite (base + 32 * (nseq % size)) (noteBytes n nseq))).raise (vectorOf n.cls)

/-- Is a subscriber on (R521)? -/
def State.subOn (s : State) (k : Nat) : Bool :=
  s.dom (Obj.subSubAddr k) != zeros 16 && s.obj (Obj.subSubPort k) != 0

/-- Queue a notification for one subscriber (R532). -/
def State.noteSub (s : State) (n : Note) (k : Nat) : State :=
  if s.subOn k && bit (s.obj (Obj.subSubMask k)) n.cls then
    let nseq := s.obj (Obj.subSubNseq k)
    let q := s.subQ.getD k []
    let s1 := s.setObj (Obj.subSubNseq k) (nseq + 1)
    if 64 ≤ q.length then s1.bump (Obj.subSubDropped k) 1
    else { s1 with subQ := s1.subQ.put k [] (q ++ [(nseq, n)]) }
  else s

/-- Raise a notification (R532, R581). -/
def State.notify (s : State) (cls source detail : Nat) (t : Tick) : State :=
  let n : Note := ⟨cls, source, t, detail⟩
  (below 8).foldl (fun s k => s.noteSub n k) (s.noteHost n)

/-! The journal. -/

/-- An entry goes into the ring (R560, R566). -/
def State.jStore (s : State) (e : JEntry) : State :=
  let s1 := { s with journal := (e :: s.journal).take 65536, jPace := { s.jPace with count := s.jPace.count + 1 } }
  let s2 := (s1.setObj Obj.jnlNextEno (e.eno + 1)).setObj Obj.jnlOldestEno (e.eno + 1 - 65536)
  s2.bump Obj.jnlCntEntries 1

/-- The ENO of the next entry: entries are written in the order in which they come, so each has its ENO from the start (R560). -/
def State.jNextEno (s : State) : Nat := s.obj Obj.jnlNextEno + s.jPace.wait.length

/-- Write one journal entry (R560, R565): at once, or after those that wait, where 16 have been written in this tick. -/
def State.jWrite (s : State) (kind flags jseq : Nat) (t : Tick) (data2 data : Nat) : State :=
  let e : JEntry := ⟨s.jNextEno, jseq, t, kind, flags, data2, data⟩
  if s.jPace.wait = [] ∧ s.jPace.count < 16 then s.jStore e
  else { s with jPace := { s.jPace with wait := s.jPace.wait ++ [e] } }

/-- The latest entry, written or waiting. -/
def State.jLatest (s : State) : Option JEntry := (s.jPace.wait.getLast?).or s.journal.head?

/-- A tick opens: of the entries that wait the first 16 are written (R560). -/
def State.jTick (s : State) : State :=
  (s.jPace.wait.take 16).foldl State.jStore { s with jPace := { count := 0, wait := s.jPace.wait.drop 16 } }

/-- Write a SYSTEM entry (R562). -/
def State.jSystem (s : State) (event detail : Nat) (t : Tick) : State :=
  s.jWrite 5 0 (s.obj Obj.jnlLastJseq) t event detail

/-- Take the next JSEQ (R503). -/
def State.nextJseq (s : State) : Nat × State :=
  let j := s.obj Obj.jnlLastJseq + 1
  (j, s.setObj Obj.jnlLastJseq j)

/-- The 32 bytes of a journal entry (R561). -/
def JEntry.bytes (e : JEntry) : Bytes :=
  le 8 e.jseq ++ le 8 e.tick ++ le 1 e.kind ++ le 1 e.flags ++ le 2 (e.eno / 65536) ++ le 4 e.data2 ++ le 8 e.data

/-! DEV_STATE changes. -/

/-- Set DEV_STATE, with the notification of R665. -/
def State.setDev (s : State) (d : Nat) (t : Tick) : State :=
  let old := s.obj Obj.devDevState
  if old = d then s
  else (s.setObj Obj.devDevState d).notify 11 0 (d + 256 * old + 65536 * s.obj Obj.devFaultCause) t

end Sys2Proof.Machine
end

