-- ==== Sys2Proof/Machine/Fec.lean ====
section
/-! DEFINITION. The Reed-Solomon forward error correction of 25GBASE-R and 50GBASE-R and the 256b/257b transcoding (R200, R203, R204). The
codes are those IEEE 802.3 names: symbols of 10 bits over the field of x^10 + x^3 + 1, RS(528,514) and RS(544,514), generator roots
alpha^0 to alpha^(n-515) (PRESUMED, assumption 49). -/

namespace Sys2Proof.Machine

/-- A product in the field of 1,024 elements: the bits of `b` from the lowest up, `a` doubled at each. -/
def gfMulStep : Nat → Nat → Nat → Nat → Nat
  | 0, _, _, acc => acc
  | f + 1, a, b, acc =>
    let a2 := 2 * a
    gfMulStep f (if a2 < 1024 then a2 else a2 ^^^ 0x409) (b / 2) (if b % 2 = 1 then acc ^^^ a else acc)

/-- Product. -/
def gfMul (a b : Nat) : Nat := gfMulStep 10 a b 0

/-- Power. -/
def gfPow (a n : Nat) : Nat := (List.replicate n a).foldl gfMul 1

/-- Inverse: the power 1,022, whose binary digits are nine ones and a zero. -/
def gfInv (a : Nat) : Nat := ((below 9).foldl (fun (r : Nat × Nat) _ => let q := gfMul r.2 r.2; (gfMul r.1 q, q)) (1, a)).1

/-- The value of a polynomial, highest coefficient first. -/
def gfEval (p : List Nat) (x : Nat) : Nat := p.foldl (fun acc c => gfMul acc x ^^^ c) 0

/-- The parity symbols of a code: 14 with 25GBASE-R, 30 with 50GBASE-R. -/
def fecParity (mode : Nat) : Nat := if mode = 2 then 30 else 14

/-- The symbols and the bits of a codeword. -/
def fecSymbols (mode : Nat) : Nat := 514 + fecParity mode

/-- Bits of a codeword. -/
def fecBits (mode : Nat) : Nat := 10 * fecSymbols mode

/-- The bits from one marker to the next: 1,024 codewords. -/
def fecSpacing (mode : Nat) : Nat := 1024 * fecBits mode

/-- Syndromes of a received word, at the roots in ascending order. -/
def syndromes (r : Nat) (word : List Nat) : List Nat := (below r).map (fun j => gfEval word (gfPow 2 j))

/-- One step of the search for the error locator (Berlekamp and Massey): locator, last other locator, its discrepancy, length, gap. -/
structure Locator where
  c : List Nat := [1]
  b : List Nat := [1]
  d : Nat := 1
  len : Nat := 0
  gap : Nat := 1

/-- Sum of two polynomials, lowest coefficient first. -/
def gfAdd (p q : List Nat) : List Nat := (below (max p.length q.length)).map (fun i => p.getD i 0 ^^^ q.getD i 0)

/-- One syndrome more. -/
def Locator.step (l : Locator) (syn : List Nat) (n : Nat) : Locator :=
  let d := (below (l.len + 1)).foldl (fun acc i => acc ^^^ gfMul (l.c.getD i 0) (if i ≤ n then syn.getD (n - i) 0 else 0)) 0
  if d = 0 then { l with gap := l.gap + 1 }
  else
    let k := gfMul d (gfInv l.d)
    let c := gfAdd l.c (List.replicate l.gap 0 ++ l.b.map (gfMul k))
    if 2 * l.len ≤ n then { c := c, b := l.c, d := d, len := n + 1 - l.len, gap := 1 }
    else { l with c := c, gap := l.gap + 1 }

/-- The corrected word and how many symbols were corrected; none where the word is not within the code's reach (R204). -/
def rsCorrect (r : Nat) (word : List Nat) : Option (List Nat × Nat) :=
  let syn := syndromes r word
  if syn.all (· == 0) then some (word, 0)
  else
    let l := (below r).foldl (fun l n => l.step syn n) ({} : Locator)
    let n := word.length
    let places := (below n).filter (fun p => gfEval l.c.reverse (gfInv (gfPow 2 p)) == 0)
    if r / 2 < l.len ∨ places.length ≠ l.len then none
    else
      let omega := (below r).map (fun i => (below (i + 1)).foldl (fun acc j => acc ^^^ gfMul (l.c.getD j 0) (syn.getD (i - j) 0)) 0)
      let slope := (below l.c.length).map (fun i => if i % 2 = 0 then l.c.getD (i + 1) 0 else 0)
      let fixed := (below n).map (fun i =>
        let p := n - 1 - i
        let y := word.getD i 0
        if places.contains p then
          let x := gfInv (gfPow 2 p)
          y ^^^ gfMul (gfPow 2 p) (gfMul (gfEval omega.reverse x) (gfInv (gfEval slope.reverse x)))
        else y)
      if (syndromes r fixed).all (· == 0) then some (fixed, l.len) else none

/-- Which line bit of a codeword holds bit b of symbol i: in order with 25GBASE-R; with 50GBASE-R two symbols at a time, bit by bit, as the
two lanes of the code are multiplexed. -/
def fecPlace (mode i b : Nat) : Nat := if mode = 2 then 20 * (i / 2) + 2 * b + i % 2 else 10 * i + b

/-- The symbols of a codeword from its line bits, first bit in bit 0. -/
def fecWordSymbols (mode w : Nat) : List Nat :=
  (below (fecSymbols mode)).map (fun i => ((below 10).map (fun b => ofBool (bit w (fecPlace mode i b)) * 2 ^ b)).sum)

/-- What a codeword gives (R204): the 5,140 bits of its message, the symbols corrected, and whether it is uncorrected. -/
def fecDecode (mode fecMode w : Nat) : Nat × Nat × Bool :=
  let sym := fecWordSymbols mode w
  let message (l : List Nat) : Nat := ((l.take 514).zip (below 514)).foldl (fun acc e => acc + e.1 * 2 ^ (10 * e.2)) 0
  let r := fecParity mode
  if fecMode = 2 then (message sym, 0, !(syndromes r sym).all (· == 0))
  else
    match rsCorrect r sym with
    | some (l, k) => (message l, k, false)
    | none => (message sym, 0, true)

/-- A 66-bit block out of a codeword: its header's first bit in bit 0, the codeword bits that hold the first bits of its payload and of its payload
octet 4, and whether it is an error block. -/
structure FecBlock where
  block : Nat
  at0 : Nat
  at4 : Nat
  bad : Bool := false

/-- The second half of a block type that goes with the first (R203). -/
def typeHalf (g : Nat) : Option Nat :=
  [none, some 14, some 13, some 3, some 11, some 5, some 6, some 8, some 7, some 9, some 10, some 4, some 12, some 2, some 1, some 15].getD g none

/-- The first control block of a 257-bit block whose first five bits are as they were before they were scrambled; none where all are data. -/
def firstControl (x : Nat) : Option Nat := if bit x 0 then none else (below 4).find? (fun j => !bit x (j + 1))

/-- The four 66-bit blocks of a 257-bit block (R203), whose 58 payload bits before it stand in `scr`, the latest in bit 0: a control block's type is
completed from its first half, which is scrambled as all of its payload is. -/
def unpack257 (scr x : Nat) : List (Nat × Bool) :=
  let x := x ^^^ bits x 12 8
  if bit x 0 then (below 4).map (fun j => (2 + 4 * bits x (64 * j + 64) (64 * j + 1), false))
  else
    let data (j : Nat) : Bool := bit x (j + 1)
    match firstControl x with
    | none => (below 4).map (fun _ => (0, true))
    | some c =>
      let low := bits x (64 * c + 8) 5
      let high := x / 2 ^ (64 * c + 9)
      let before := (below (64 * c + 4)).foldl (fun s i => (2 * s + ofBool (bit low i)) % 2 ^ 58) scr
      let s0 := (below (64 * c)).foldl (fun s i => (2 * s + ofBool (bit low i)) % 2 ^ 58) scr
      let g := ((below 4).foldl (fun (r : Nat × Nat) i =>
        let b := bit low (64 * c + i)
        (r.1 + ofBool ((b != bit r.2 38) != bit r.2 57) * 2 ^ i, (2 * r.2 + ofBool b) % 2 ^ 58)) (0, s0)).1
      match typeHalf g with
      | none => (below 4).map (fun _ => (0, true))
      | some h =>
        let hs := ((below 4).foldl (fun (r : Nat × Nat) i =>
          let b : Bool := (bit h i != bit r.2 38) != bit r.2 57
          (r.1 + ofBool b * 2 ^ i, (2 * r.2 + ofBool b) % 2 ^ 58)) (0, before)).1
        let p := low + hs * 2 ^ (64 * c + 4) + high * 2 ^ (64 * c + 8)
        (below 4).map (fun j => ((if data j then 2 else 1) + 4 * bits p (64 * j + 63) (64 * j), false))

/-- The descrambler's state after a block's payload. -/
def afterBlock (scr block : Nat) : Nat := (below 64).foldl (fun s i => (2 * s + ofBool (bit block (i + 2))) % 2 ^ 58) scr

/-- The blocks of a codeword's message from its 257-bit block `k` on. -/
def fecBlocks (mode msg : Nat) (bad : Bool) : Nat → Nat → Nat → List FecBlock
  | 0, _, _ => []
  | f + 1, k, scr =>
    let line (m : Nat) : Nat := fecPlace mode (m / 10) (m % 10)
    let x := bits msg (257 * k + 256) (257 * k)
    let l := unpack257 scr x
    let c := firstControl (x ^^^ bits x 12 8)
    let place (q : Nat) : Nat := line (257 * k + q + (if c.any (q < 64 * · + 4) then 5 else 1))
    let mine := (l.zip (below 4)).map (fun e =>
      { block := e.1.1, at0 := place (64 * e.2), at4 := place (64 * e.2 + 32), bad := bad || e.1.2 : FecBlock })
    mine ++ fecBlocks mode msg bad f (k + 1) (l.foldl (fun s e => afterBlock s e.1) scr)

end Sys2Proof.Machine
end

