-- ==== Sys2Proof/Machine/Records.lean ====
section
/-! DEFINITION. Page and record formats (chapter "Page and record formats", R409-R449): the bytes of the page
header, of the record header, and of the body of every record type. -/

namespace Sys2Proof.Machine

/-- A record's length in 8-byte units, header included (R413, R419). -/
def Rec.units (r : Rec) : Nat := 1 + ceilDiv r.body.length 8

/-- The bytes of a record under a base tick (R413, R414, R419). -/
def Rec.bytes (r : Rec) (base : Tick) : Bytes :=
  le 1 r.ty ++ le 1 r.units ++ le 2 r.src ++ le 4 (if r.ty = 1 ∨ r.ty = 2 then 0 else r.tick - base) ++ padTo 8 r.body

/-- An ANCHOR (R415, R449). -/
def anchorRec (t : Tick) : Rec := ⟨1, 0, t, le 8 t⟩

/-- A PAD of n units (R418). -/
def padBytes (n : Nat) : Bytes := le 1 2 ++ le 1 n ++ zeros (8 * n - 2)

/-- PAD records that fill n units: 255 at a time and then the rest (R418). -/
def padFill : Nat → Nat → Bytes
  | 0, _ => []
  | f + 1, n => if n = 0 then [] else if n ≤ 255 then padBytes n else padBytes 255 ++ padFill f (n - 255)

/-- Does a record need an ANCHOR under a base (R415)? -/
def needsAnchor (base t : Tick) : Bool := t < base || base + 4294967295 < t

/-- The records of a group with the ANCHORs they need, from a base on, with the base afterwards. -/
def withAnchors : Tick → List Rec → List (Rec × Tick) × Tick
  | base, [] => ([], base)
  | base, r :: t =>
    if needsAnchor base r.tick then
      let (l, b) := withAnchors r.tick t
      ((anchorRec r.tick, r.tick) :: (r, r.tick) :: l, b)
    else
      let (l, b) := withAnchors base t
      ((r, base) :: l, b)

/-- The page header (R410, R411), closed with a NEXT field and flags. -/
def pageHeader (q : Nat) (p : Page) (next flags : Nat) : Bytes :=
  let b := le 4 0x45474150 ++ le 1 1 ++ le 1 flags ++ le 2 q ++ le 4 p.capture ++ le 4 p.seq ++ le 4 p.pfn
    ++ le 4 next ++ le 4 p.prev ++ le 2 p.seg ++ le 1 p.srcKind ++ le 1 0 ++ le 2 p.source ++ le 2 p.used
    ++ le 2 p.records ++ le 2 0 ++ le 8 p.base ++ le 8 p.lastTick ++ le 4 0
  b ++ le 4 (crc32 b)

/-- A GAP record (R432): cause, SOURCE, start, ticks covered, items. -/
def gapRec (cause src : Nat) (start : Tick) (len items : Nat) : Rec :=
  ⟨0x32, src, start, le 8 len ++ le 1 0 ++ le 6 (satN 48 items) ++ le 1 cause⟩

/-- The flags, sub-tick and event fields shared by TRIGGER and MARK bodies (R444, R445). -/
def trigBody (e : SubTime) (outcome reason : Nat) (short fallback : Bool) (level branch group seg hi : Nat) : Bytes :=
  le 8 (cut 64 (tickOf e))
    ++ le 8 (subOf e + 2 ^ 6 * outcome + 2 ^ 8 * reason + 2 ^ 24 * ofBool short + 2 ^ 25 * ofBool fallback
      + 2 ^ 26 * branch + 2 ^ 28 * level + 2 ^ 32 * group + 2 ^ 48 * seg)
    ++ le 8 hi

/-- SEGMENT_OPEN (R446). -/
def segOpenRec (q seg segs mode kind source capture pre post : Nat) (t : Tick) : Rec :=
  ⟨0x33, q, t, le 2 seg ++ le 2 segs ++ le 1 mode ++ le 1 kind ++ le 2 source ++ le 4 capture ++ le 4 0 ++ le 4 pre ++ le 4 post⟩

/-- SEGMENT_CLOSE (R446); its BYTES is set when it is placed. -/
def segCloseRec (q seg reason bytes : Nat) (t : Tick) : Rec := ⟨0x34, q, t, le 2 seg ++ le 1 reason ++ zeros 5 ++ le 8 bytes⟩

/-- CONFIG_CHANGE (R447). -/
def configRec (kind port core objects jseq : Nat) (t : Tick) : Rec :=
  ⟨0x35, 0, t, le 8 jseq ++ le 1 kind ++ le 1 port ++ le 1 core ++ le 2 (satN 16 objects) ++ zeros 3⟩

/-- The 32-byte point of R43. -/
def TimePoint.bytes (p : TimePoint) : Bytes :=
  le 8 (tickOf p.at_) ++ le 2 (subOf p.at_) ++ le 6 (p.tai / (1000000000 * 2 ^ 16))
    ++ le 4 (p.tai / 2 ^ 16 % 1000000000) ++ le 2 p.tai ++ le 4 (ofInt 32 p.rate) ++ le 1 p.dstate ++ le 1 p.source
    ++ le 2 p.utc ++ le 1 (ofBool p.valid + 2 * ofBool p.holdover + 4 * ofBool p.stepped + 8 * ofBool p.slew) ++ le 1 p.seq

/-- TIME_MAP (R448). -/
def timeMapRec (p : TimePoint) : Rec := ⟨0x40, 0, tickOf p.at_, p.bytes⟩

/-- TIME_STEP (R448). DESIGN CHOICE (assumption 39): a step that does not fit the I64, such as that of the first TAI written today, stands in
STEP modulo 2^64. -/
def timeStepRec (j : Int) (cause : Nat) (t : Tick) : Rec := ⟨0x41, 0, t, le 8 (ofInt 64 j) ++ le 1 cause ++ zeros 7⟩

/-- STATE_EST (R431). -/
def stateEstRec (group chan reason sub state : Nat) (level lower : Bool) (t : Tick) : Rec :=
  ⟨0x15, group, t, le 8 (chan + 2 ^ 6 * ofBool lower + 2 ^ 7 * ofBool level + 2 ^ 8 * state + 2 ^ 10 * sub + 2 ^ 16 * reason)⟩

/-- One entry of an EDGE_BUNDLE without its DTICK (R430). -/
def edgeEntry (chan : Nat) (lower level : Bool) (state sub : Nat) : Nat :=
  chan + 2 ^ 4 * ofBool lower + 2 ^ 5 * ofBool level + 2 ^ 6 * state + 2 ^ 8 * sub

/-- An EDGE_BUNDLE of entries, filled to a whole unit (R430). -/
def edgeRec (group : Nat) (t : Tick) (entries : List Nat) : Rec :=
  ⟨0x12, group, t, (entries ++ if entries.length % 2 = 1 then [0xFFFFFFFF] else []).flatMap (le 4)⟩

/-- The block header (R426) without BYTES, LAST and PART. -/
def blockHeader (span bytes logical no : Nat) (vfail reset coded last : Bool) (part items : Nat) : Bytes :=
  le 8 ((items - 1) + 2 ^ 8 * part + 2 ^ 9 * ofBool last + 2 ^ 10 * ofBool coded + 2 ^ 11 * ofBool reset
    + 2 ^ 12 * ofBool vfail + 2 ^ 16 * no + 2 ^ 24 * logical + 2 ^ 36 * bytes + 2 ^ 48 * satN 16 span)

/-- The one or two records of a block (R426, R427). -/
def blockRecs (ty src : Nat) (t : Tick) (span logical no : Nat) (vfail reset coded : Bool) (items : Nat) (data : Bytes) :
    List Rec :=
  if data.length ≤ 2024 then
    [⟨ty, src, t, blockHeader span data.length logical no vfail reset coded true 0 items ++ data⟩]
  else
    [⟨ty, src, t, blockHeader span 2024 logical no vfail reset coded false 0 items ++ data.take 2024⟩,
     ⟨ty, src, t, blockHeader span (data.length - 2024) logical no vfail reset coded true 1 items ++ data.drop 2024⟩]

/-- Cut bytes into pieces of at most n. -/
def pieces : Nat → Nat → Bytes → List Bytes
  | 0, _, _ => []
  | f + 1, n, b => if b.isEmpty then [] else b.take n :: pieces f n (b.drop n)

/-- The PACKET_CONT records of stored bytes beyond the first 2,016 (R435, R436). -/
def contRecs (src : Nat) (t : Tick) : Nat → List Bytes → List Rec
  | _, [] => []
  | n, b :: l => ⟨0x21, src, t, le 8 (n + 2 ^ 4 * b.length) ++ b⟩ :: contRecs src t (n + 1) l

/-- A PACKET and its PACKET_CONTs (R434-R436): `kind`, REASON, frame flags, original length, FID, the ANC fields
as the upper 28 bits of the second word, and the stored bytes. -/
def packetRecs (src : Nat) (t : Tick) (kind reason flags orig fid anc : Nat) (data : Bytes) : List Rec :=
  let rest := pieces 8 2024 (data.drop 2016)
  ⟨0x20, src, t,
    le 8 (kind + 2 ^ 4 * rest.length + 2 ^ 8 * reason + 2 ^ 12 * flags + 2 ^ 18 * satN 14 orig + 2 ^ 32 * data.length
        + 2 ^ 46 * fid)
      ++ le 8 (anc * 2 ^ 28) ++ data.take 2016⟩ :: contRecs src t 1 rest

/-- FLOW_EVENT (R437, R438); `key` is the 40-byte flow key for NEW, empty otherwise. -/
def flowEventRec (lane : Nat) (t : Tick) (kind essence fid detail : Nat) (key : Bytes) : Rec :=
  ⟨0x22, lane, t, le 8 (kind + 2 ^ 32 * essence + 2 ^ 46 * fid) ++ le 8 detail ++ key⟩

/-- VIDEO_EVENT (R439, R440). -/
def videoEventRec (src : Nat) (t : Tick) (kind : Nat) (incomplete : Bool) (fid : Option Nat) (detail : Nat) : Rec :=
  ⟨0x23, src, t, le 8 (kind + 2 ^ 8 * ofBool incomplete + (match fid with | some f => 2 ^ 9 + 2 ^ 46 * f | none => 0))
    ++ le 8 detail⟩

/-- CODE_ERROR (R441). -/
def codeErrorRec (dec : Nat) (t : Tick) (kinds count logical : Nat) : Rec :=
  ⟨0x24, dec, t, le 8 (2 ^ 8 * kinds + 2 ^ 16 * satN 16 count + 2 ^ 32 * logical)⟩

/-- FILET (R442). -/
def filetRec (src : Nat) (t : Tick) (ln comp : Nat) (fid : Option Nat) (group : Nat) (words : List Nat) : Rec :=
  ⟨0x14, src, t, le 8 (group + (match fid with | some f => 2 ^ 14 * f + 2 ^ 33 | none => 0) + 2 ^ 34 * comp + 2 ^ 37 * ln
    + 2 ^ 48 * words.length) ++ leWords words⟩

/-- Is the type a control record of R396 (TRIGGER, MARK, CONFIG_CHANGE, SEGMENT_OPEN, SEGMENT_CLOSE, TIME_MAP, TIME_STEP, GAP)? -/
def isCtl (ty : Nat) : Bool := 0x30 ≤ ty && ty ≤ 0x41

end Sys2Proof.Machine
end

