-- ==== Sys2Proof/Machine/Coder.lean ====
section
/-! DEFINITION. The stitch coder (chapter "Stitch coder", R453-R472): the symbol alphabet, the canonical code, the
decoder that every coded block must satisfy, and the bytes of a context state. The choice of symbols is
the maker's (R458); the model takes any choice that decodes to the block and is no longer than STORED. -/

namespace Sys2Proof.Machine

/-- The lengths of the static code (R459). -/
def staticLens : List Nat :=
  [2, 4, 5, 5, 7, 7, 7, 7, 8, 8, 8, 8, 8, 8, 4, 2, 4, 7, 7, 7, 7, 8, 8, 6, 6, 6, 6, 6, 6, 6, 6, 5]

/-- One item taken into the move-to-front list: update() of R463. -/
def mtfUpdate (m : List Nat) (w : Nat) : List Nat :=
  if m.head? = some w then m
  else
    match m.findIdx? (· == w) with
    | some j => w :: m.eraseIdx j
    | none => w :: m.take 7

/-- The words after a run of items. -/
def mtfAll (m ws : List Nat) : List Nat := ws.foldl mtfUpdate m

/-- The first code of each length, canonical (R461). -/
def firstCode (lens : List Nat) : Nat → Nat
  | 0 => 0
  | n + 1 => 2 * (firstCode lens n + if n = 0 then 0 else (lens.filter (· == n)).length)

/-- The symbol whose code of `n` bits is `c`, if any. -/
def symbolOf (lens : List Nat) (n c : Nat) : Option Nat :=
  let f := firstCode lens n
  if c < f then none
  else ((below lens.length).filter (fun s => lens.getD s 0 == n))[c - f]?

/-- The next symbol of a stream (R460): codes are read from their most significant bit. -/
def nextSymbol (lens : List Nat) : Nat → Nat → Nat → List Bool → Option (Nat × List Bool)
  | 0, _, _, _ => none
  | _ + 1, _, _, [] => none
  | f + 1, n, c, b :: t =>
    match symbolOf lens (n + 1) (2 * c + ofBool b) with
    | some s => some (s, t)
    | none => nextSymbol lens f (n + 1) (2 * c + ofBool b) t

/-- Replace byte i of a word. -/
def setByte (w i b : Nat) : Nat := w - bits w (8 * i + 7) (8 * i) * 2 ^ (8 * i) + b * 2 ^ (8 * i)

/-- Take extra bits, least significant first (R460). -/
def takeBits (n : Nat) (s : List Bool) : Option (Nat × List Bool) :=
  if s.length < n then none else some (natOfBits (s.take n), s.drop n)

/-- Decode a symbol stream to exactly n items (R463); none where R465 calls it invalid. -/
def decodeSyms (lens : List Nat) : Nat → Nat → List Nat → List Bool → Option (List Nat)
  | 0, n, _, s => if n = 0 ∧ s = [] then some [] else none
  | f + 1, n, m, s =>
    if n = 0 then (if s = [] then some [] else none)
    else
      match nextSymbol lens 15 0 0 s with
      | none => none
      | some (y, s) =>
        let lit (w : Nat) (s : List Bool) : Option (List Nat) := (decodeSyms lens f (n - 1) (mtfUpdate m w) s).map (w :: ·)
        let rep (k : Nat) (s : List Bool) : Option (List Nat) :=
          if n < k then none else (decodeSyms lens f (n - k) m s).map (List.replicate k (m.headD 0) ++ ·)
        if y ≤ 13 then rep (y + 1) s
        else if y = 14 then
          match takeBits 8 s with
          | some (r, s) => rep (15 + r) s
          | none => none
        else if y = 15 then
          match takeBits 64 s with
          | some (w, s) => lit w s
          | none => none
        else if y ≤ 22 then lit (m.getD (y - 15) 0) s
        else if y ≤ 30 then
          match takeBits 8 s with
          | some (b, s) => lit (setByte (m.headD 0) (y - 23) b) s
          | none => none
        else
          match takeBits 32 s with
          | some (lo, s) => lit (2 ^ 32 * bits (m.headD 0) 63 32 + lo) s
          | none => none

/-- Do 32 code lengths satisfy R462? -/
def lensOk (l : List Nat) : Bool :=
  l.length = 32 && l.all (· ≤ 15)
    && ((l.filter (· != 0)).map (fun n => 2 ^ (15 - n))).sum = 2 ^ 15 || l.length = 32 && l.filter (· != 0) = [1]

/-- The lengths a DYNAMIC payload begins with. -/
def headerLens (s : List Bool) : List Nat := (below 32).map (fun i => natOfBits ((s.drop (4 * i)).take 4))

/-- Decode the payload of a block of n items under a context (R463): the items and the context's code afterwards. -/
def decodeBlock (c : Coder) (mode nbits n : Nat) (payload : Bytes) : Option (List Nat × List Nat × Bool) :=
  let s := bitsOfBytes payload
  if payload.length ≠ ceilDiv nbits 8 ∨ (s.drop nbits).any id then none
  else
    let s := s.take nbits
    match mode with
    | 0 => if nbits = 64 * n then some (wordsOf n payload, c.lens, c.lastValid) else none
    | 1 => (decodeSyms staticLens (n + 1) n c.mtf s).map (fun w => (w, c.lens, c.lastValid))
    | 2 =>
      let l := headerLens s
      if s.length < 128 ∨ !lensOk l then none
      else (decodeSyms l (n + 1) n c.mtf (s.drop 128)).map (fun w => (w, l, true))
    | 3 => if c.lastValid then (decodeSyms c.lens (n + 1) n c.mtf s).map (fun w => (w, c.lens, c.lastValid)) else none
    | _ => none

/-- The encoding of a block in one mode: mode, payload bits, payload; none where what the maker's choice of symbols gives
does not decode to the items under the rules of R463. -/
def encodingIn (c : Coder) (items : List Nat) (mode : Nat) : Option (Nat × Nat × Bytes) :=
  let (nbits, p) := Config.stitchEncode mode c.mtf c.lens items
  if (decodeBlock c mode nbits items.length p).map (·.1) = some items then some (mode, nbits, p) else none

/-- The shorter of two encodings, the first on a tie. -/
def fewerBytes (a b : Nat × Nat × Bytes) : Nat × Nat × Bytes := if b.2.2.length < a.2.2.length then b else a

/-- What the coder stores for a block (R458): of STORED, STATIC, DYNAMIC and, with LAST_VALID, REUSE the one with the fewest
bytes, the one with the lower MODE on a tie: mode, payload bits, payload. -/
def encodeBlock (c : Coder) (items : List Nat) : Nat × Nat × Bytes :=
  ((if c.lastValid then [1, 2, 3] else [1, 2]).filterMap (encodingIn c items)).foldl fewerBytes (0, 64 * items.length, leWords items)

/-- Two 4-bit fields to a byte. -/
def nibbles : List Nat → Bytes
  | a :: b :: t => BitVec.ofNat 8 (a + 16 * b) :: nibbles t
  | [a] => [BitVec.ofNat 8 a]
  | [] => []

/-- Bytes 0-83 of the context state (R469), which HIST_TAG covers. -/
def Coder.head (c : Coder) : Bytes := leWords c.mtf ++ nibbles c.lens ++ le 4 (ofBool c.lastValid)

/-- The frame of a coded block (R456) and its payload. -/
def codedData (c : Coder) (items : List Nat) : Nat × Bytes :=
  let (mode, nbits, p) := encodeBlock c items
  (mode, le 4 (mode + 2 ^ 6 * (items.length - 1) + 2 ^ 14 * nbits) ++ le 4 0 ++ le 4 (crc32 (leWords items)) ++ le 4 (crc32 c.head) ++ p)

/-- The context after a block of items coded in a mode, with the bytes stored. -/
def Coder.after (c : Coder) (items : List Nat) (mode nbits : Nat) (p : Bytes) : Coder :=
  let (l, v) := match decodeBlock c mode nbits items.length p with
    | some (_, l, v) => (l, v)
    | none => (c.lens, c.lastValid)
  { c with mtf := mtfAll c.mtf items, lens := l, lastValid := v, blocks := c.blocks + 1, items := c.items + items.length,
           rawBytes := c.rawBytes + 8 * items.length, codedBytes := c.codedBytes + 16 + p.length, reset := false, carried := false }

/-- A context in the reset state of R464. -/
def Coder.fresh (c : Coder) : Coder := { srcKind := c.srcKind, source := c.source, reset := true }

/-- The 160 bytes of a context state (R469) of a queue's logical lane. -/
def Coder.bytes (c : Coder) (queue logical : Nat) : Bytes :=
  let b := c.head ++ le 4 1 ++ le 8 c.items ++ le 8 c.blocks ++ le 1 c.srcKind ++ le 1 logical ++ le 2 c.source ++ le 2 queue
    ++ le 2 0 ++ le 8 c.rawBytes ++ le 8 c.codedBytes ++ zeros 28
  b ++ le 4 (crc32 b)

/-- The four-bit fields of bytes. -/
def unnibble : Bytes → List Nat
  | [] => []
  | b :: t => b.toNat % 16 :: b.toNat / 16 :: unnibble t

/-- Does a written state pass R471 for a context? -/
def stateOk (c : Coder) (queue logical : Nat) (b : Bytes) : Bool :=
  let lens := unnibble (slice b 64 16)
  b.length = 160 && fieldAt b 84 4 = 1 && fieldAt b 156 4 = crc32 (b.take 156) && fieldAt b 104 1 = c.srcKind
    && fieldAt b 105 1 = logical && fieldAt b 106 2 = c.source && fieldAt b 108 2 = queue
    && fieldAt b 80 4 ≤ 1 && fieldAt b 110 2 = 0 && slice b 128 28 = zeros 28
    && (fieldAt b 80 4 = 0 || lensOk lens)

/-- The context a written state gives (R471, R472). -/
def stateOf (c : Coder) (b : Bytes) : Coder :=
  { c with mtf := wordsOf 8 (slice b 0 64), lens := unnibble (slice b 64 16), lastValid := fieldAt b 80 4 = 1,
           items := fieldAt b 88 8, blocks := fieldAt b 96 8, rawBytes := fieldAt b 112 8, codedBytes := fieldAt b 120 8,
           restored := true }

end Sys2Proof.Machine
end

