-- ==== Sys2Proof/Machine/Flags.lean ====
section
/-! DEFINITION. Status codes (R509), reasons (R510), clamp reports (R508, R351) and the point a time maps to (R44):
what a check of one object answers. -/

namespace Sys2Proof.Machine

abbrev stOk : Nat := 0x00
abbrev stClamped : Nat := 0x01
abbrev stSuperseded : Nat := 0x02
abbrev stPairPending : Nat := 0x03
abbrev stStaged : Nat := 0x04
abbrev stEmpty : Nat := 0x05
abbrev stRejected : Nat := 0x10
abbrev stAuthFail : Nat := 0x11
abbrev stReplay : Nat := 0x12
abbrev stBusy : Nat := 0x13
abbrev stRevoked : Nat := 0x14
abbrev stOversize : Nat := 0x15
abbrev stNotPresent : Nat := 0x16

abbrev reHeader : Nat := 1
abbrev reAccess : Nat := 2
abbrev reNoObject : Nat := 3
abbrev reType : Nat := 4
abbrev reRange : Nat := 5
abbrev reTargetPast : Nat := 6
abbrev reTargetFar : Nat := 7
abbrev reStagingFull : Nat := 8
abbrev rePendingFull : Nat := 9
abbrev reSegOrder : Nat := 10
abbrev reSegCrc : Nat := 11
abbrev reSegLimit : Nat := 12
abbrev rePairTimeout : Nat := 13
abbrev reCancelled : Nat := 14
abbrev reTickLoaded : Nat := 15
abbrev reNoBand : Nat := 16
abbrev reStrict : Nat := 17
abbrev reTagReuse : Nat := 18

/-- The report reasons of R352 that serve every object (R508). -/
abbrev rpCleared : Nat := 0x10
abbrev rpRaised : Nat := 0x11
abbrev rpLowered : Nat := 0x12
abbrev rpReplaced : Nat := 0x13

/-- The reason that stands for a status of its own kind. -/
def ObjOut.applies (o : ObjOut) : Bool := o.status ≤ 4 && o.status != 3

/-- Applied as written. -/
def okOut (k : Key) (v : Val) : ObjOut := { key := k, applied := some v }

/-- Refused with a status and a reason; nothing changes. -/
def badOut (k : Key) (status reason : Nat) : ObjOut :=
  { key := k, status := status, reason := reason, rep := [{ key := k, status := status }] }

/-- REJECTED with reason RANGE. -/
def rejOut (k : Key) : ObjOut := badOut k stRejected reRange

/-- Nothing to do. -/
def emptyOut (k : Key) : ObjOut := { key := k, status := stEmpty }

/-- A report entry of a clamp of a whole object (R508). -/
def clampEntry (k : Key) (reason width written applied : Nat) : RepEntry :=
  { key := k, status := stClamped, fieldId := reason * 2 ^ 24 + (width - 1) * 2 ^ 8, written := written, applied := applied }

/-- A report entry of a clamped field of bits [hi:lo]. -/
def clampField (k : Key) (reason hi lo written applied : Nat) : RepEntry :=
  { key := k, status := stClamped, fieldId := reason * 2 ^ 24 + hi * 2 ^ 8 + lo, written := written, applied := applied }

/-- A report entry of a field of a DOMAIN (R351): byte and bit of its least significant bit. -/
def domField (k : Key) (status reason byte bit_ : Nat) : RepEntry :=
  { key := k, status := status, fieldId := reason * 2 ^ 24 + bit_ * 2 ^ 16 + cut 16 byte }

/-- Applied with a clamp. -/
def clampedOut (k : Key) (v : Val) (rep : List RepEntry) : ObjOut :=
  { key := k, status := if rep = [] then stOk else stClamped, applied := some v, rep := rep }

/-- The queues that any object or page belongs to: those whose objects are not all at their defaults. -/
def State.queueList (s : State) : List Nat :=
  (s.dict.filterMap (fun e => let i := e.1 / 256; if 0x4000 ≤ i ∧ i < 0x5000 then some (i - 0x4000) else none)).foldr
    (fun q l => if l.head? = some q then l else q :: l) []

/-- The lanes of a link, logical lane 0 first (R150). -/
def State.linkLanes (s : State) (k : Nat) : List Nat :=
  ((below 8).map (fun i => bits (s.obj (Obj.linkLaneList k)) (8 * i + 7) (8 * i))).takeWhile (· != 0xFF)

/-- Ticks in TAI of units 2^-16 ns (R44). -/
def taiUnits (t : SubTime) : Nat := 1024 * t

/-- TAI of one second in units of 2^-16 ns. -/
abbrev oneSecond : Nat := 1000000000 * 2 ^ 16

/-- What a rate makes of a span of sub-ticks, forward or back, in units of 2^-16 ns (R44). -/
def taiSpan (span rate : Int) : Int := span * 1024 * ((2 ^ 40 : Int) + rate) / 2 ^ 40

/-- TAI at an instant, in units of 2^-16 ns (R44); the map in force reaches back before its point too. -/
def TimePoint.taiAt (p : TimePoint) (t : SubTime) : Nat := ((p.tai : Int) + taiSpan ((t : Int) - p.at_) p.rate).toNat

/-- The point in force carried to an instant (R443); before the first TAI write it shows the TAI of R46. -/
def TimePoint.moved (p : TimePoint) (t : SubTime) : TimePoint :=
  { p with at_ := t, tai := if p.valid then p.taiAt t else taiUnits t % oneSecond, stepped := false }

/-- The time of a bit of a lane word (R174): the tick of the word's first bit and the bit period in ticks. -/
def bitTick (stamp i num den : Nat) : Tick := if den = 0 then stamp else stamp + (2 * i * num + den) / (2 * den)

end Sys2Proof.Machine
end

