-- ==== Sys2Proof/Machine/Cmm.lean ====
section
/-! DEFINITION. The capture memory manager (chapter "Capture memory and its manager", R362-R408, R720, R721) with the
placing of records into pages (R409-R425, R443) and the blocks of the coder. -/

namespace Sys2Proof.Machine

/-- "None" wherever a PFN is stored (R371). -/
abbrev noPfn : Nat := 0x0FFFFFFF

/-- A queue's state behind its objects. -/
def State.queue (s : State) (q : Nat) : Queue := s.queues.getD q {}

/-- Give a queue its state. -/
def State.setQueue (s : State) (q : Nat) (x : Queue) : State := { s with queues := s.queues.put q {} x }

/-- Is capture memory trained under the mask in force (R368, R408)? -/
def State.memTrained (s : State) : Bool := s.obj Obj.cmmMemState = 2 && s.obj Obj.cmmChannelMask = s.cmm.trainMask

/-- Is a queue CAPTURING? -/
def State.capturing (s : State) (q : Nat) : Bool := s.obj (Obj.qState q) = 1

/-- Is a queue in the re-arm of R320 at a tick: from C until the next segment opens? -/
def Queue.inRearm (x : Queue) (t : Tick) : Bool :=
  match x.rearm with
  | some c => c ≤ t
  | none => false

/-- Does the queue count as capturing for the rounds of R394 and the sums of R382 (R721)? -/
def State.activeQueue (s : State) (q : Nat) : Bool := s.capturing q || (s.queue q).draining

/-- The open page that takes records: the last one, neither closed nor ending. -/
def Queue.open_ (x : Queue) : Option Page :=
  match x.pages.getLast? with
  | some p => if p.closed || p.ending then none else some p
  | none => none

/-- Change the page of a frame. -/
def Queue.setPage (x : Queue) (p : Page) : Queue :=
  { x with pages := x.pages.map (fun y => if y.pfn = p.pfn then p else y) }

/-- Bytes of a group's records, without ANCHORs. -/
def Group.bytes (g : Group) : Nat := (g.recs.map (fun r => 8 * r.units)).sum

/-- Bytes staged in a queue: chunks not yet written and groups that wait (R396). -/
def Queue.fill (x : Queue) : Nat :=
  (x.chunks.map (·.data.length)).sum + (x.waiting.map Group.bytes).sum + (x.past.map (fun p => (p.waiting.map Group.bytes).sum)).sum

/-- The highest staging fill is kept (R407). -/
def State.notePeak (s : State) (q : Nat) : State := s.setObj (Obj.qStagePeak q) (max (s.obj (Obj.qStagePeak q)) (s.queue q).fill)

/-! Placing. -/

/-- Append bytes of one record, which ends at `upto`, at an offset of a page to the staged chunks, cut at multiples of 256 (R387). -/
def pushBytes (pfn : Nat) (since : Tick) (upto : Nat) : Nat → Nat → List Chunk → Bytes → List Chunk
  | 0, _, cs, _ => cs
  | f + 1, off, cs, b =>
    if b.isEmpty then cs
    else
      let n := 256 - off % 256
      let piece := b.take n
      let joined := match cs.getLast? with
        | some c => if c.pfn = pfn ∧ c.off + c.data.length = off ∧ off % 256 ≠ 0 then
            some (cs.dropLast ++ [{ c with data := c.data ++ piece, upto := upto }]) else none
        | none => none
      pushBytes pfn since upto f (off + piece.length) (joined.getD (cs ++ [⟨pfn, off, piece, since, upto⟩])) (b.drop n)

/-- Append whole records, back to back from an offset of a page. -/
def pushRecs (pfn : Nat) (since : Tick) : Nat → List Chunk → List Bytes → List Chunk
  | _, cs, [] => cs
  | off, cs, b :: l => pushRecs pfn since (off + b.length) (pushBytes pfn since (off + b.length) 300 off cs b) l

/-- The earliest time of a group's items (R319). -/
def Group.oldest (g : Group) : SubTime := g.old.getD g.first

/-- A group set into a page, with the bytes of its records; none where it does not fit (R386, R409, R414, R415). -/
def placeIn (p : Page) (g : Group) : Option (Page × List Bytes) :=
  match g.recs with
  | [] => some (p, [])
  | r :: _ =>
    let (l, a) := withAnchors (if p.records = 0 then r.tick else p.anchor) g.recs
    let bs := l.map (fun x => x.1.bytes x.2)
    let n := (bs.map (·.length)).sum
    if 65536 < p.fill + n then none
    else
      some ({ p with fill := p.fill + n, base := if p.records = 0 then r.tick else p.base, anchor := a,
                     lastTick := (g.recs.map (·.tick)).foldl max p.lastTick, records := p.records + l.length,
                     used := (p.fill + n - 64) / 8, firstTy := if p.records = 0 then r.ty else p.firstTy,
                     lastTy := (g.recs.getLast?.map (·.ty)).getD p.lastTy,
                     firstItem := if g.items = 0 then p.firstItem else some (p.firstItem.getD g.first),
                     oldItem := if g.items = 0 then p.oldItem else some (min (p.oldItem.getD g.oldest) g.oldest) }, bs)

/-- A SEGMENT_CLOSE takes its BYTES where it is placed (R446). -/
def patchClose (bytes : Nat) (g : Group) : Group :=
  { g with recs := g.recs.map (fun r => if r.ty = 0x34 then { r with body := r.body.take 8 ++ le 8 bytes } else r) }

/-- A page being filled: what still waits, the page, BYTES of the segment so far, the staged chunks, the bytes of the ANCHORs it took. -/
structure Placing where
  waiting : List Group
  page : Page
  segBytes : Nat
  chunks : List Chunk
  anchors : Nat := 0

/-- Groups go into a page in order, up to the first that does not fit or must stand first in a page of its own (R386, R443). -/
def placeAll (now : Tick) : List Group → Placing → Placing
  | [], x => { x with waiting := [] }
  | g :: l, x =>
    if g.newPage && x.page.records != 0 then { x with waiting := g :: l }
    else
      let g := patchClose x.segBytes g
      match placeIn x.page g with
      | none => { x with waiting := g :: l }
      | some (p, bs) =>
        let n := (bs.map (·.length)).sum
        placeAll now l { x with page := p, chunks := pushRecs p.pfn (g.since.getD now) x.page.fill x.chunks bs, anchors := x.anchors + (n - g.bytes),
                                segBytes := if g.newPage then 0 else if g.opening then x.segBytes else x.segBytes + n }

/-- Put a group into the open page, or let it wait for one: the queue, and the bytes of the ANCHORs written. -/
def Queue.put (x : Queue) (g : Group) (now : Tick) : Queue × Nat :=
  let wait : Queue × Nat := ({ x with waiting := x.waiting ++ [g] }, 0)
  match x.open_ with
  | none => wait
  | some p =>
    if x.waiting ≠ [] ∨ x.wantPage ∨ g.newPage then wait
    else
      let r := placeAll now [g] ⟨[], p, x.segBytes, x.chunks, 0⟩
      ({ x.setPage r.page with chunks := r.chunks, segBytes := r.segBytes, waiting := r.waiting }, r.anchors)

/-- Put a group into a queue's staging (R375), with what counts it. -/
def State.putGroup (s : State) (q : Nat) (g : Group) (now : Tick) : State :=
  let (x, n) := (s.queue q).put g now
  let s := (s.setQueue q x).bump (Obj.qBytes q) (g.bytes + n)
  g.tally.foldl (fun s e => s.bump e.1 e.2) (s.notePeak q)

/-- Capacity of a queue's staging (R396). -/
def State.stageBytes (s : State) (q : Nat) : Nat := 1024 * s.obj (Obj.qStageKib q)

/-- Close an open loss run: its GAP, from the reserve, before the next stored record (R397, R398). -/
def State.closeLoss (s : State) (q : Nat) (now : Tick) : State :=
  let x := s.queue q
  match x.loss with
  | none => s
  | some l =>
    let s := ((s.setQueue q { x with loss := none }).bump (Obj.qGaps q) 1).bump (Obj.qItemsLost q) l.items
    let g : Group := { recs := [gapRec l.cause q l.start (l.last - l.start + 1) l.items], ctl := true, seg := s.obj (Obj.qSegment q) }
    if s.stageBytes q < x.fill + 24 then s.bump (Obj.qCtrlLost q) 1 else s.putGroup q g now

/-- A whole group reaches a queue: it is staged, or dropped into a loss run (R396, R397). -/
def State.stage (s : State) (q : Nat) (g : Group) (now : Tick) : State :=
  let x := s.queue q
  let cap := s.stageBytes q
  if g.ctl then
    let s := s.closeLoss q now
    if cap < (s.queue q).fill + g.bytes then s.bump (Obj.qCtrlLost q) g.recs.length else s.putGroup q g now
  else if cap < x.fill + g.bytes + 256 then
    let first := ((g.recs.head?.map (·.tick)).getD now)
    let last := ((g.recs.getLast?.map (·.tick)).getD now)
    let n := max 1 g.items
    let l : Loss := match x.loss with
      | some l => { l with last := last, items := l.items + n }
      | none => ⟨first, last, n, if x.waiting ≠ [] then 2 else 1⟩
    s.setQueue q { x with loss := some l, coders := x.coders.map (fun e => (e.1, { e.2 with reset := true })) }
  else (s.closeLoss q now).putGroup q g now

/-! Blocks and bundles under construction. -/

/-- The CODE_MODE of a queue's source (R453, R454): STITCH of the lane, of the member lane or of the group. -/
def State.codedSource (s : State) (q logical : Nat) : Bool :=
  let src := s.obj (Obj.qSource q)
  match s.obj (Obj.qSrcKind q) with
  | 1 => s.flag (Obj.laneCodeCodeMode src)
  | 2 => s.flag (Obj.laneCodeCodeMode ((s.linkLanes src).getD logical 0))
  | 3 => s.flag (Obj.lgCodeCodeMode src)
  | _ => false

/-- The contexts of the 8,192 that are not held (R454). -/
def State.contextsFree (s : State) : Nat := 8192 - (s.queues.map (fun e => e.2.coders.length)).sum

/-- Complete the block a builder holds (R426-R429, R453-R468): the coder's choice and verdict, and the records. -/
def State.endBlock (s : State) (q logical : Nat) (fails : List (Nat × Nat)) (now : Tick) : State :=
  let x := s.queue q
  match x.builders.find logical with
  | none => s
  | some b =>
    let x := { x with builders := x.builders.del logical }
    let no := x.blockNo.getD logical 0
    let x := { x with blockNo := x.blockNo.put logical 0 ((no + 1) % 256) }
    let kind := s.obj (Obj.qSrcKind q)
    let src := s.obj (Obj.qSource q)
    let recSrc := if kind = 2 then ((s.linkLanes src).getD logical 0) else src
    let span := tickOf b.last - tickOf b.first
    let raw := leWords b.items
    let group (ty : Nat) (vf reset coded : Bool) (data : Bytes) : Group :=
      { recs := blockRecs ty recSrc (tickOf b.first) span logical no vf reset coded b.items.length data,
        items := b.items.length, first := b.first, last := b.last, seg := s.obj (Obj.qSegment q), since := some b.since }
    let rawTy := if kind = 3 then 0x13 else 0x10
    let storeRaw (s : State) (x : Queue) (vf : Bool) : State :=
      let x := { x with coders := match x.coders.find logical with
        | some c => x.coders.set logical { c with reset := true }
        | none => x.coders }
      (s.setQueue q x).stage q (group rawTy vf false false raw) now
    if !b.coded then storeRaw s x false
    else
      match x.coders.find logical with
      | none => storeRaw (s.bump Obj.coderCntNoContext 1) x false
      | some c =>
        let start := if c.reset then c.fresh else c
        let (mode, data) := codedData start b.items
        let s := s.bump Obj.coderCntRawBytesIn raw.length
        if (fails ++ s.cmm.fails).contains (q, logical) then
          storeRaw (s.bump Obj.coderCntVerifyFails 1) { x with coders := x.coders.set logical c.fresh } true
        else
          let (m, nbits, p) := encodeBlock start b.items
          let x := { x with coders := x.coders.set logical (start.after b.items m nbits p) }
          let g := group (if kind = 3 then 0x13 else 0x11) false c.reset true data
          (s.setQueue q x).stage q { g with tally := [(Obj.coderCntBlocksCoded, 1), (Obj.coderCntModeBlocks mode, 1),
                                                      (Obj.coderCntCodedBytesOut, data.length)] } now

/-- Complete a block; where its record ends a loss run, the GAP completes the blocks of the other logical lanes too (R397, R425). -/
def State.finishBlock (s : State) (q logical : Nat) (fails : List (Nat × Nat)) (now : Tick) : State :=
  let lost := (s.queue q).loss.isSome
  let s := s.endBlock q logical fails now
  if lost ∧ (s.queue q).loss = none then (s.queue q).builders.keys.foldl (fun s l => s.endBlock q l fails now) s else s

/-- Complete the EDGE_BUNDLE under construction (R430). -/
def State.finishEdges (s : State) (q : Nat) (now : Tick) : State :=
  let x := s.queue q
  match x.edges with
  | none => s
  | some e =>
    (s.setQueue q { x with edges := none }).stage q
      { recs := [edgeRec (s.obj (Obj.qSource q)) e.tick e.entries], items := e.entries.length, first := e.first,
        last := e.last, seg := s.obj (Obj.qSegment q), old := some e.old, since := some e.since } now

/-- Complete everything under construction in a queue (R425). -/
def State.finishAll (s : State) (q : Nat) (fails : List (Nat × Nat)) (now : Tick) : State :=
  ((s.queue q).builders.keys).foldl (fun s l => s.finishBlock q l fails now) (s.finishEdges q now)

/-- Does a queue take data items in the tick that is open: capturing, storage on, not in re-arm (R322, R433)? -/
def State.takesItems (s : State) (q : Nat) (now : Tick) : Bool :=
  s.capturing q && (s.queue q).storage && !(s.queue q).inRearm now

/-- Items that reach a queue in its re-arm form the REARM run (R397, R433): the times of the first and of the last record they would have been. -/
def State.rearmLost (s : State) (q items : Nat) (first last now : Tick) : State :=
  let x := s.queue q
  if s.capturing q && x.inRearm now && x.storage then
    s.setQueue q { x with rearmLoss := some (match x.rearmLoss with
      | some l => { l with last := last, items := l.items + max 1 items }
      | none => ⟨first, last, max 1 items, 6⟩) }
  else s

/-- The ticks of the first and of the last record of a group. -/
def recSpan (recs : List Rec) (now : Tick) : Tick × Tick := ((recs.head?.map (·.tick)).getD now, (recs.getLast?.map (·.tick)).getD now)

/-- Does a queue take a record in the tick that is open: data while its storage is on, a MARK whatever the storage state (R322)? -/
def State.takesRec (s : State) (q : Nat) (recs : List Rec) (now : Tick) : Bool :=
  s.takesItems q now || (recs.any (fun r => r.ty == 0x31) && s.capturing q && !(s.queue q).inRearm now)

/-- A whole group of data records arrives for a queue (R322, R396, R420 item 7, R423, R425). -/
def State.deliverGroup (s : State) (q : Nat) (g : Group) (now : Tick) : State :=
  if s.takesRec q g.recs now then
    (s.finishAll q [] now).stage q { g with ctl := (g.recs.head?.map (fun r => isCtl r.ty)).getD false, seg := s.obj (Obj.qSegment q) } now
  else s.rearmLost q g.items (recSpan g.recs now).1 (recSpan g.recs now).2 now

/-- Data records of tick `now` reach a queue: at once where that tick is open, else with the records of its boundary, in the last place of R420. -/
def State.deliver (s : State) (q : Nat) (recs : List Rec) (items : Nat) (first last : SubTime) (now : Tick) (tally : List (Key × Nat) := []) : State :=
  let g : Group := { recs := recs, items := items, first := first, last := last, tally := tally }
  if s.tick < now then s.setQueue q { s.queue q with inbox := (s.queue q).inbox ++ [(7, g)] } else s.deliverGroup q g now

/-- A control record enters a queue in its place of R420 for the boundary of tick `now` when it is that of the next
tick, and at once when it is of the open tick. -/
def State.control (s : State) (q cls : Nat) (r : Rec) : State :=
  let x := s.queue q
  s.setQueue q { x with inbox := x.inbox ++ [(cls, { recs := [r], ctl := true, seg := s.obj (Obj.qSegment q) })] }

/-- A control record of the tick now being processed is written at once. -/
def State.controlNow (s : State) (q : Nat) (r : Rec) (now : Tick) : State :=
  (s.finishAll q [] now).stage q { recs := [r], ctl := true, seg := s.obj (Obj.qSegment q) } now

/-- Complete a block that holds 256 items (R425). -/
def State.fullBlock (s : State) (q logical : Nat) (fails : List (Nat × Nat)) (now : Tick) : State :=
  match (s.queue q).builders.find logical with
  | some b => if 256 ≤ b.items.length then s.finishBlock q logical fails now else s
  | none => s

/-- One more item of a block, which stays open (R425, R429, R453-R455). -/
def State.addWord (s : State) (q logical w : Nat) (t : SubTime) (now : Tick) : State :=
  if s.takesItems q now then
    let s := s.fullBlock q logical [] now
    let s := if (s.queue q).edges.isSome then s.finishEdges q now else s
    let x := s.queue q
    let coded := s.codedSource q logical
    let b : Builder := match x.builders.find logical with
      | some b => { b with items := b.items ++ [w], last := t }
      | none => ⟨[w], t, t, now, coded⟩
    -- a block that opens without a context of its source looks for one (R454)
    let x := if (x.builders.find logical).isNone ∧ coded ∧ (x.coders.find logical).isNone ∧ s.contextsFree ≠ 0 then
        { x with coders := x.coders.set logical { srcKind := s.obj (Obj.qSrcKind q), source := s.obj (Obj.qSource q) } } else x
    s.setQueue q { x with builders := x.builders.set logical b }
  else s.rearmLost q 1 (tickOf t) (tickOf t) now

/-- One more item of a block, which is complete with its 256th (R425). -/
def State.addItem (s : State) (q logical w : Nat) (t : SubTime) (fails : List (Nat × Nat)) (now : Tick) : State :=
  (s.addWord q logical w t now).fullBlock q logical fails now

/-- Complete every full block, with the coder's verdicts of the tick (R425, R467). -/
def State.fullBlocks (s : State) (fails : List (Nat × Nat)) (now : Tick) : State :=
  s.queues.keys.foldl (fun s q => (s.queue q).builders.keys.foldl (fun s l => s.fullBlock q l fails now) s) s

/-- One more edge of an EDGE_BUNDLE (R430): an edge whose DTICK would not fit opens a new record. -/
def State.addEdge (s : State) (q chan : Nat) (lower level : Bool) (state : Nat) (t : SubTime) (now : Tick) : State :=
  if s.takesItems q now then
    let s := (s.queue q).builders.keys.foldl (fun s l => s.finishBlock q l [] now) s
    let fits (e : EdgeBuilder) : Bool :=
      tickOf t < e.tick + 131072 && e.tick ≤ tickOf t + 131072
    let s := match (s.queue q).edges with
      | some e => if fits e && e.entries.length < 508 then s else s.finishEdges q now
      | none => s
    let x := s.queue q
    let e : EdgeBuilder := (x.edges).getD ⟨tickOf t, [], t, t, now, t⟩
    let entry := edgeEntry chan lower level state (subOf t) + 2 ^ 14 * ofInt 18 ((tickOf t : Int) - e.tick)
    let e := { e with entries := e.entries ++ [entry], last := t, old := min e.old t }
    let s := s.setQueue q { x with edges := some e }
    if 508 ≤ e.entries.length then s.finishEdges q now else s
  else s.rearmLost q 1 (tickOf t) (tickOf t) now

/-! Opening a segment, closing it, stopping a capture. -/

/-- The opening records of a segment at its opening tick (R443, R433, R319). -/
def State.openingGroups (s : State) (q : Nat) (t : Tick) : List Group :=
  let x := s.queue q
  let seg := x.segNo
  let kind := s.obj (Obj.qSrcKind q)
  let src := s.obj (Obj.qSource q)
  let o := segOpenRec q seg x.segsOf x.mode kind src (s.obj (Obj.qCapture q)) (s.obj (Obj.qPre q)) (s.obj (Obj.qPost q)) t
  let cfg := configRec 3 0xFF 0xFF 0 (s.obj Obj.jnlLastJseq) t
  let map := timeMapRec (s.time.point.moved (ofTick t))
  let snaps := if kind = 3 then
      ((below 16).filter (fun c => s.flag (Obj.lcEnable (16 * src + c)))).map
        (fun c => stateEstRec src c 3 0 (s.obj (Obj.lcState (16 * src + c))) false false t)
    else []
  let one (first : Bool) (r : Rec) : Group := { recs := [r], ctl := isCtl r.ty, newPage := first, opening := true, seg := seg }
  let gap : List Group := match x.rearmLoss with
    | some l => [{ recs := [gapRec 6 q l.start (l.last - l.start + 1) l.items], ctl := true, seg := seg }]
    | none => []
  one true o :: one false cfg :: one false map :: snaps.map (one false)
    ++ gap ++ x.missed.map (fun r => { recs := [r], ctl := true, seg := seg })

/-- The opening records of a segment that opens at a boundary take their place among its records, and the REARM run is counted (R398, R433). -/
def State.openNow (s : State) (q cls : Nat) (t : Tick) : State :=
  let x := s.queue q
  if !x.opening then s
  else
    let l := (s.openingGroups q t).map (fun g => (cls, g))
    let s := match x.rearmLoss with
      | some r => (s.bump (Obj.qGaps q) 1).bump (Obj.qItemsLost q) r.items
      | none => s
    s.setQueue q { x with inbox := x.inbox ++ l, opening := false, rearmLoss := none, missed := [] }

/-- Is a group a TIME_STEP? -/
def Group.isStep (g : Group) : Bool := g.recs.any (fun r => r.ty == 0x41)

/-- Write the records of the boundary that opens a tick, in the order of R420. A queue that stops there, or is in its re-arm, takes none that its
segment would take (R421, R422, R433), and of time points at an opening only those that follow a step (R443). -/
def State.flushInbox (s : State) (q : Nat) (t : Tick) : State :=
  let fresh := (s.queue q).opening
  let s := s.openNow q 4 t
  let x := s.queue q
  if x.inbox = [] then s
  else
    let cls (n : Nat) : List Group := (x.inbox.filter (fun e => e.1 = n)).map (·.2)
    let live := s.capturing q && !x.inRearm t
    let steps := (cls 5).filter Group.isStep
    let points := (cls 5).filter (fun g => !g.isStep)
    let times := if !live ∨ (fresh ∧ steps = []) then [] else steps ++ points
    let l := cls 2 ++ (if live ∧ !fresh then cls 3 else []) ++ cls 4 ++ times ++ (if live then cls 6 else [])
    let s := s.setQueue q { x with inbox := [] }
    let s := l.foldl (fun s g => (s.finishAll q [] t).stage q g t) s
    let s := if live then s else
      (points.filter (fun g => g.items != 0)).foldl (fun s g => s.rearmLost q g.items (recSpan g.recs t).1 (recSpan g.recs t).2 t) s
    (cls 7).foldl (fun s g => s.deliverGroup q g t) s

/-- What is left of a capture that has stopped leaves the queue's place for the next one: its last page takes no more records, and what still waits
for a page is kept apart (R720, R721). -/
def State.leaveCapture (s : State) (q : Nat) (t : Tick) : State :=
  let s := s.flushInbox q t
  let x := s.queue q
  let p : Past := ⟨s.obj (Obj.qCapture q), x.seq, x.segBytes, x.waiting, x.mode = 0 || x.mode = 3, x.trigSeg, x.srcKind, x.source, x.stopAt.getD t⟩
  s.setQueue q { x with pages := x.pages.map (fun y => if y.closed then y else { y with ending := true }), waiting := [],
                        past := if x.waiting = [] then x.past else x.past ++ [p] }

/-- Start a capture at the boundary of tick T (R379, R472). -/
def State.startCapture (s : State) (q : Nat) (t : Tick) : State :=
  let s := s.leaveCapture q t
  let x := s.queue q
  let mode := s.obj (Obj.qMode q)
  let kind := s.obj (Obj.qSrcKind q)
  let src := s.obj (Obj.qSource q)
  let coders := (x.coders.filter (fun e => e.2.restored ∧ e.2.srcKind = kind ∧ e.2.source = src)).map
    (fun e => (e.1, { e.2 with reset := false, restored := false, carried := true }))
  let lanes := if kind = 2 then below (s.linkLanes src).length else if kind = 1 ∨ kind = 3 then [0] else []
  let s := ((s.bump (Obj.qCapture q) 1).setObj (Obj.qState q) 1).setObj (Obj.qSegment q) 1
  let s := s.setObj (Obj.qNewestClosedSeq q) 0xFFFFFFFF
  let s := s.setQueue q { x with coders := [] }
  let room := s.contextsFree - coders.length
  let fresh := (lanes.filter (fun l => s.codedSource q l && (Tab.find coders l).isNone)).take room
  let coders : Tab Coder := fresh.foldl (fun c l => Tab.set c l { srcKind := kind, source := src }) coders
  s.setQueue q { x with opening := true, openedAt := t, storage := true, window := none, rearm := none, loss := none,
                        rearmLoss := none, missed := [], builders := [], edges := none, blockNo := [],
                        coders := coders,
                        segNo := 1, segBytes := 0, seq := 0, segsOf := if mode = 2 then s.obj (Obj.qSegments q) else 1, mode := mode,
                        srcKind := kind, source := src, trigSeg := 0, wantPage := false, stopAt := none }

/-- Put PAD bytes into the chunk that is not complete, in a page the test names, so that it becomes eligible (R387). -/
def Queue.padChunk (x : Queue) (which : Page → Bool) (now : Tick) : Queue :=
  match x.pages.find? (fun p => !p.closed && p.fill % 256 != 0 && which p) with
  | none => x
  | some p =>
    let n := 256 - p.fill % 256
    let x := x.setPage { p with fill := p.fill + n }
    { x with chunks := pushBytes p.pfn now (p.fill + n) 2 p.fill x.chunks (padBytes (n / 8)) }

/-- The part of a closing page's padding that it does not hold yet (R418). -/
def Page.endPad (p : Page) : Bytes :=
  let start := p.padFrom.getD p.fill
  (padFill 34 ((65536 - start) / 8)).drop (p.fill - start)

/-- The padding of a page that is to close goes into its last chunk, which becomes eligible with it (R418, R721). -/
def Queue.padLast (x : Queue) (which : Page → Bool) (now : Tick) : Queue :=
  match x.pages.find? (fun p => !p.closed && p.fill % 256 != 0 && which p) with
  | none => x
  | some p =>
    let n := 256 - p.fill % 256
    let x := x.setPage { p with fill := p.fill + n, padFrom := some p.fill }
    { x with chunks := pushBytes p.pfn now (p.fill + n) 2 p.fill x.chunks (p.endPad.take n) }

/-- A CONFIG_CHANGE of the boundary that opens the next tick is not for this queue after all (R27, R421, R422). -/
def Queue.unconfig (x : Queue) : Queue := { x with inbox := x.inbox.filter (fun e => e.1 != 3) }

/-! Pages. -/

/-- Pages held (R388). -/
def State.heldPages (s : State) (q : Nat) : Nat := (s.queue q).pages.length

/-- The queues of a pool. -/
def State.poolQueues (s : State) (p : Nat) : List Nat := s.queueList.filter (fun q => s.obj (Obj.qPool q) = p)

/-- committed_p (R388). -/
def State.committedPages (s : State) (p : Nat) : Nat :=
  ((s.poolQueues p).map (fun q => max (s.heldPages q) (s.obj (Obj.qQmin q)))).sum

/-- SHARED (R388). -/
def State.sharedPages (s : State) : Nat :=
  s.obj Obj.cmmUsablePages - ((below 16).map (fun p => s.obj (Obj.poolReserve p))).sum

/-- shared_used (R388). -/
def State.sharedUsed (s : State) : Nat :=
  ((below 16).map (fun p => s.committedPages p - s.obj (Obj.poolReserve p))).sum

/-- Pages on the free list (R374). -/
def Cmm.freePages (c : Cmm) : Nat := (c.free.map (·.2)).sum

/-- Take the page at the head of the free list. -/
def takeFree (l : List (Nat × Nat)) : Option (Nat × List (Nat × Nat)) :=
  match l with
  | [] => none
  | (a, n) :: t => if n = 0 then none else some (a, if n = 1 then t else (a + 1, n - 1) :: t)

/-- A freed page joins the tail of the free list (R374). -/
def joinFree (l : List (Nat × Nat)) (pfn : Nat) : List (Nat × Nat) :=
  match l.getLast? with
  | some (a, n) => if a + n = pfn then l.dropLast ++ [(a, n + 1)] else l ++ [(pfn, 1)]
  | none => [(pfn, 1)]

/-- Does a lease cover a page (R399)? -/
def Cmm.covers (c : Cmm) (q : Nat) (p : Page) : Bool :=
  c.leases.any (fun e => e.2.queue = q && e.2.capture = p.capture && e.2.first ≤ p.seq && p.seq < e.2.first + e.2.count)

/-- Free one page of a queue. -/
def State.freePage (s : State) (q : Nat) (p : Page) : State :=
  let x := s.queue q
  let s := s.setQueue q { x with pages := x.pages.filter (fun y => y.pfn != p.pfn), chunks := x.chunks.filter (fun c => c.pfn != p.pfn) }
  { s with cmm := { s.cmm with free := joinFree s.cmm.free p.pfn } }

/-- Free what R399 and R385 let go: FREE_PENDING pages without a lease, and consumed pages without a lease that
are the oldest of their capture. -/
def State.sweepPages (s : State) (q : Nat) : Nat → State
  | 0 => s
  | n + 1 =>
    let x := s.queue q
    let gone := x.pages.find? (fun p => !s.cmm.covers q p && (p.freePending
      || (p.consumed && (x.pages.find? (fun y => y.capture = p.capture)).map (·.pfn) = some p.pfn)))
    match gone with
    | some p => (s.freePage q p).sweepPages q n
    | none => s

/-- Stored errors go from the bursts that a write covers, and single ones from those that it touches (R370). -/
def State.scrubMem (s : State) (a n : Nat) : State :=
  { s with memBad := s.memBad.filter (fun e =>
      64 * e.1 + 64 ≤ a || a + n ≤ 64 * e.1 || (e.2 != 1 && (64 * e.1 < a || a + n < 64 * e.1 + 64))) }

/-- Write bytes into capture memory, with their check bits (R370). -/
def State.writeMem (s : State) (a : Nat) (b : Bytes) : State := (s.scrubMem a b.length).setMemBytes a b

/-- The channel of a chunk (R372): the (c mod N)-th set bit of CHANNEL_MASK. -/
def State.chunkChannel (s : State) (pfn off : Nat) : Nat :=
  let set_ := (below 12).filter (bit (s.obj Obj.cmmChannelMask))
  set_.getD ((256 * pfn + off / 256) % set_.length) 0

/-- Write bytes into capture memory and count them by channel (R408). -/
def State.storeMem (s : State) (a : Nat) (b : Bytes) : State :=
  (upFrom (if b = [] then 0 else ceilDiv (a % 256 + b.length) 256) (a / 256)).foldl (fun s c =>
    s.bump (Obj.mcCntBytesWritten (s.chunkChannel (c / 256) (256 * (c % 256)))) (min (a + b.length) (256 * c + 256) - max a (256 * c))) (s.writeMem a b)

/-- A page whose records are complete and whose chunks are written closes: its end is padded and its header written (R386, R410, R411, R418). -/
def State.closePage (s : State) (q : Nat) (p : Page) (next : Nat) (early : Bool) (now : Tick) : State :=
  let x := s.queue q
  let pad := p.endPad
  let head := (256 - p.fill % 256) % 256
  let flags := ofBool (p.seq = 0) + 2 * ofBool (next = noPfn) + 4 * ofBool (p.firstTy = 0x33) + 8 * ofBool (p.lastTy = 0x34)
    + 16 * ofBool early
  let x := { x with chunks := pushBytes p.pfn now 65536 2 p.fill x.chunks (pad.take head) }
  let s := s.setQueue q (x.setPage { p with fill := 65536, closed := true, ending := false, sealed := none })
  let s := (s.storeMem (65536 * p.pfn + p.fill + head) (pad.drop head)).storeMem (65536 * p.pfn) (pageHeader q p next flags)
  if p.capture = s.obj (Obj.qCapture q) then s.setObj (Obj.qNewestClosedSeq q) p.seq else s

/-- The pages of a queue that are complete close once none of their chunks is staged: the CMM never writes to a closed page (R24, R386). -/
def State.closeSealed (s : State) (q : Nat) (now : Tick) : State :=
  (s.queue q).pages.foldl (fun s p =>
    match p.sealed with
    | some (next, early) => if p.closed || (s.queue q).chunks.any (fun c => c.pfn == p.pfn) then s else s.closePage q p next early now
    | none => s) s

/-- A page takes no more records: its last chunk is padded, its NEXT and EARLY are known, and it closes as soon as its chunks are written (R386). -/
def State.sealPage (s : State) (q : Nat) (p : Page) (next : Nat) (early : Bool) (now : Tick) : State :=
  let x := (s.queue q).padLast (fun y => y.pfn = p.pfn) now
  let x := { x with pages := x.pages.map (fun y => if y.pfn = p.pfn then { y with ending := true, sealed := some (next, early) } else y) }
  ((s.setQueue q x).notePeak q).closeSealed q now

/-- What waits goes into the open page, as far as it fits: the queue, and the bytes of the ANCHORs written. -/
def Queue.placeWaiting (now : Tick) (x : Queue) : Queue × Nat :=
  match x.open_ with
  | none => (x, 0)
  | some p =>
    let r := placeAll now x.waiting ⟨[], p, x.segBytes, x.chunks, 0⟩
    ({ x.setPage r.page with chunks := r.chunks, segBytes := r.segBytes, waiting := r.waiting }, r.anchors)

/-- Does a queue need a page (R386, R390, R720)? A CLOSE_PAGE of the re-arm waits for the next segment's page (assumption 27). -/
def State.needsPage (s : State) (q : Nat) : Bool :=
  let x := s.queue q
  s.activeQueue q && (x.past ≠ [] || x.waiting ≠ [] || (x.wantPage && x.rearm.isNone))

/-- The contexts of a queue start afresh with a page whose SEQ is a multiple of RESET_PAGES (R466), but for a restored state that page 0 finds
unused (R472). -/
def resetsAt (pages seq : Nat) (c : Coder) : Bool := pages != 0 && seq % pages == 0 && !(seq == 0 && c.carried)

/-- Open a page of a frame for a queue: the page before is complete, what waits is placed (R386, R410). -/
def State.openPage (s : State) (q pfn : Nat) (now : Tick) : State :=
  let x := s.queue q
  let cap := s.obj (Obj.qCapture q)
  let before := x.open_.filter (fun p => p.capture == cap)
  let early := x.wantPage || (x.waiting.head?.map (·.newPage)).getD false
  let s := match before with
    | some p => s.sealPage q p pfn early now
    | none => s
  let x := s.queue q
  let coders := x.coders.map (fun e => (e.1, if resetsAt (s.obj Obj.coderResetPages) x.seq e.2 then { e.2 with reset := true } else e.2))
  let seg := (x.waiting.head?.map (·.seg)).getD x.segNo
  let page : Page :=
    { pfn := pfn, capture := cap, seq := x.seq, seg := seg, prev := (before.map (·.pfn)).getD noPfn,
      pinned := x.mode = 0 || x.mode = 3 || x.trigSeg = seg, srcKind := x.srcKind, source := x.source }
  let (x, n) := Queue.placeWaiting now { x with coders := coders, pages := x.pages ++ [page], seq := x.seq + 1, wantPage := false }
  ((s.setQueue q x).bump (Obj.qBytes q) n).notePeak q

/-- The last page of an earlier capture of a queue that is not complete yet. -/
def Queue.pastPage (x : Queue) (p : Past) : Option Page := (x.pages.filter (fun y => y.capture = p.capture && !y.closed && y.sealed.isNone)).getLast?

/-- Open a page for a capture that stopped while its last page was full, behind which the queue has started the next (R720, R721). -/
def State.openPast (s : State) (q pfn : Nat) (p : Past) (now : Tick) : State :=
  let before := (s.queue q).pastPage p
  let s := match before with
    | some y => s.sealPage q y pfn false now
    | none => s
  let x := s.queue q
  let seg := (p.waiting.head?.map (·.seg)).getD 1
  let page : Page :=
    { pfn := pfn, capture := p.capture, seq := p.seq, seg := seg, prev := (before.map (·.pfn)).getD noPfn, pinned := p.pinned || p.trigSeg = seg,
      srcKind := p.srcKind, source := p.source, ending := true }
  let r := placeAll now p.waiting ⟨[], page, p.segBytes, x.chunks, 0⟩
  let rest := if r.waiting = [] then x.past.drop 1 else { p with seq := p.seq + 1, segBytes := r.segBytes, waiting := r.waiting } :: x.past.drop 1
  ((s.setQueue q { x with pages := x.pages ++ [r.page], chunks := r.chunks, past := rest }).bump (Obj.qBytes q) r.anchors).notePeak q

/-- A capture stops: its segment closes with a REASON, its page ends when its chunks are written (R380, R383, R720, R721). -/
def State.stopCapture (s : State) (q reason : Nat) (t : Tick) (state : Nat) : State :=
  let s := (s.finishAll q [] t).openNow q 2 t
  let x := { (s.queue q).unconfig with window := none }
  let s := if x.rearm.isSome then s.setQueue q { x with rearm := none, rearmLoss := none, missed := [] }
    else (s.setQueue q x).control q 2 (segCloseRec q x.segNo reason 0 t)
  let x := { s.queue q with stopAt := some t, draining := true }
  let (x, n) := if x.wantPage then Queue.placeWaiting t { x with wantPage := false } else (x, 0)
  (((s.setQueue q x).bump (Obj.qBytes q) n).setObj (Obj.qState q) state).setObj (Obj.qSegment q) 0

/-- The pages that may be recycled (R391): the oldest page of each segment that has no accepted trigger, not open, not leased, not pinned. -/
def State.candidates (s : State) (q : Nat) : List Page :=
  (s.queue q).pages.filter (fun p => (p.closed || p.sealed.isSome) && !p.pinned && !s.cmm.covers q p
    && ((s.queue q).pages.find? (fun y => y.capture = p.capture && y.seg = p.seg)).map (·.pfn) = some p.pfn)

/-- recycle(q, own_only) of R391: the owner and the page. -/
def State.recyclable (s : State) (q : Nat) (own : Bool) : Option (Nat × Page) :=
  let owners := (s.poolQueues (s.obj (Obj.qPool q))).filter (fun o => o = q || (!own && s.obj (Obj.qQmin o) < s.heldPages o))
  (owners.flatMap (fun o => (s.candidates o).map (fun p => (o, p)))).foldl
    (fun best c => match best with
      | none => some c
      | some b => if c.2.base < b.2.base then some c else best) none

/-- alloc(q) of R391: the frame and the state without it; none where the allocation fails. -/
def State.allocPage (s : State) (q : Nat) : Option (Nat × State) :=
  let p := s.obj (Obj.qPool q)
  let held := s.heldPages q
  let qmax := s.obj (Obj.qQmax q)
  let committed := s.committedPages p
  let limit := s.obj (Obj.poolLimit p)
  let free : Option (Nat × State) := (takeFree s.cmm.free).map (fun (a, l) => (a, { s with cmm := { s.cmm with free := l } }))
  let recycle (own : Bool) : Option (Nat × State) := match s.recyclable q own with
    | some (o, v) =>
      let x := s.queue o
      some (v.pfn, ((s.setQueue o { x with pages := x.pages.filter (fun y => y.pfn != v.pfn),
                                            chunks := x.chunks.filter (fun c => c.pfn != v.pfn) }).bump (Obj.qRecycled o) 1).sweepPages o x.pages.length)
    | none => none
  if qmax ≠ 0 ∧ qmax ≤ held then recycle true
  else if held < s.obj (Obj.qQmin q) then free
  else if committed < s.obj (Obj.poolReserve p) then free
  else if (limit = 0 ∨ committed < limit) ∧ s.sharedUsed < s.sharedPages then free
  else recycle false

/-- What is counted of records that are dropped at a stop without a page, and of a loss run open there (R720): the data records and the run that
follows them are one loss run. -/
def State.countDropped (s : State) (q : Nat) (waiting : List Group) (loss : Option Loss) : State :=
  let data := waiting.filter (fun g => !g.ctl)
  let ctl := waiting.filter (·.ctl)
  -- the GAP of a run that the stop has closed, which has been counted
  let closed := ctl.any (fun g => g.recs.any (fun r => r.ty == 0x32 && [some 1, some 2].contains ((r.body.getLast?).map (·.toNat))))
  let s := (s.bump (Obj.qItemsLost q) ((data.map (fun g => max 1 g.items)).sum + (loss.map (·.items)).getD 0)).bump (Obj.qCtrlLost q)
    ((ctl.map (fun g => g.recs.length)).sum + ofBool loss.isSome)
  if loss.isSome ∨ (data ≠ [] ∧ !closed) then s.bump (Obj.qGaps q) 1 else s

/-- The records that wait are dropped at a stop without a page, and the full page is complete (R720). -/
def State.dropWaiting (s : State) (q : Nat) (now : Tick) : State :=
  let x := s.queue q
  let s := (s.countDropped q x.waiting x.loss).setQueue q { x with waiting := [], loss := none }
  match x.open_ with
  | some p => s.sealPage q p noPfn false now
  | none => s

/-- The same for a stopped capture behind which the queue has started the next one. -/
def State.dropPast (s : State) (q : Nat) (p : Past) (now : Tick) : State :=
  let x := s.queue q
  let s := (s.countDropped q p.waiting none).setQueue q { x with past := x.past.drop 1 }
  match x.pastPage p with
  | some y => s.sealPage q y noPfn false now
  | none => s

/-- Is a page the last one of a stopped capture, with all its records placed (R721)? -/
def State.lastPage (s : State) (q : Nat) (p : Page) : Bool :=
  let x := s.queue q
  !p.closed && p.sealed.isNone && !x.past.any (fun y => y.capture = p.capture)
    && (p.ending || (!s.capturing q && x.waiting = [] && x.inbox = []))

/-- The page of a stopped capture whose staged chunks are all written (R721). -/
def State.drainedPage (s : State) (q : Nat) : Option Page :=
  (s.queue q).pages.find? (fun p => s.lastPage q p && (s.queue q).chunks.all (fun c => c.pfn != p.pfn))

/-- The last chunk of a stopped queue is completed by the padding of its page, so that it drains (R386, R418, R721). -/
def State.padStopped (s : State) (q : Nat) (now : Tick) : State :=
  let x := s.queue q
  if x.draining then (s.setQueue q (x.padLast (s.lastPage q) now)).notePeak q else s

/-! Trimming and the scheduler. -/

/-- Trim one waiting segment (R391): its pages in order. -/
def State.trimSegment (s : State) (q capture seg : Nat) (t : Tick) : Nat → State
  | 0 => s
  | n + 1 =>
    let x := s.queue q
    match x.pages.filter (fun p => p.capture = capture && p.seg = seg) with
    | a :: b :: _ :: _ =>
      let due : Bool := match b.firstItem with
        | some i => i + 64 * (s.obj (Obj.qPre q) + 16384) ≤ 64 * t
        | none => false
      if due && !s.cmm.covers q a && !a.pinned then (s.freePage q a).trimSegment q capture seg t n else s
    | _ => s

/-- Trim the waiting segments of a queue (R391, R392). -/
def State.trim (s : State) (q : Nat) (t : Tick) : State :=
  let x := s.queue q
  if s.capturing q && (x.mode = 1 || x.mode = 2) && x.window.isNone && x.rearm.isNone then
    (s.trimSegment q (s.obj (Obj.qCapture q)) (s.obj (Obj.qSegment q)) t x.pages.length).sweepPages q x.pages.length
  else s

/-- A queue's oldest eligible chunk: it is complete, and so are the chunks that the records in it reach into, since no record is split between chunks
written at different times (R387); its page is open (R394). -/
def Queue.eligible (x : Queue) : Option Chunk :=
  x.chunks.find? (fun c => (c.off + c.data.length) % 256 = 0
    && x.pages.any (fun p => p.pfn = c.pfn && !p.closed && 256 * ceilDiv c.upto 256 ≤ p.fill))

/-- Is a queue ready (R394): an eligible chunk whose channel has room in its write queue of 16? -/
def State.ready (s : State) (q : Nat) : Bool :=
  match (s.queue q).eligible with
  | some c => decide ((s.cmm.wq.getD (s.chunkChannel c.pfn c.off) (0, 0)).1 < 16)
  | none => false

/-- Write a queue's oldest eligible chunk (R394); a complete page closes with its last one. -/
def State.grant (s : State) (q : Nat) : State :=
  let x := s.queue q
  match x.eligible with
  | none => s
  | some c =>
    let m := s.chunkChannel c.pfn c.off
    let w := s.cmm.wq.getD m (0, 0)
    let s := s.setQueue q { x with chunks := x.chunks.filter (fun y => y.pfn != c.pfn || y.off != c.off) }
    let s := { s with cmm := { s.cmm with wq := s.cmm.wq.set m (w.1 + 1, w.2) } }
    (s.storeMem (65536 * c.pfn + c.off) c.data).closeSealed q s.tick

/-- The write queues of the memory channels empty by a tick: each at least by its share of GUARANTEE_MBPS (R393), beyond that by a free number of
chunks, since no rule gives the pace (R394). -/
def State.emptyQueues (s : State) : State :=
  let n := max 1 (ones 12 (s.obj Obj.cmmChannelMask))
  s.cmm.wq.keys.foldl (fun s m =>
    let (count, credit) := s.cmm.wq.getD m (0, 0)
    let (r, s) := s.fresh
    let credit := credit + s.obj Obj.cmmGuaranteeMbps / n
    let left := count - (credit / 256000 + r % 17)
    { s with cmm := { s.cmm with wq := if left = 0 then s.cmm.wq.del m else s.cmm.wq.set m (left, credit % 256000) } }) s

/-- A round of queues starting at a place. -/
def roundFrom (l : List Nat) (start : Nat) : List Nat := l.filter (start ≤ ·) ++ l.filter (· < start)

/-- The committed phase of R394: grants so far and the state. -/
def State.committedPhase (s : State) : List Nat → Nat → Nat × State
  | [], g => (g, s)
  | q :: l, g =>
    let x := s.queue q
    if g = 4 then (g, s)
    else if s.ready q && 256000 ≤ x.tokens then
      let s := (s.setQueue q { x with tokens := x.tokens - 256000 }).grant q
      ({ s with cmm := { s.cmm with rr1 := q + 1 } } : State).committedPhase l (g + 1)
    else s.committedPhase l g

/-- The weighted phase of R394. -/
def State.weightedPhase (s : State) : List Nat → Nat → State
  | [], _ => s
  | q :: l, g =>
    let x := s.queue q
    let w := s.obj (Obj.qWeight q)
    if g = 4 then s
    else if s.ready q && 0 < w then
      let d := if x.deficit < 256 then x.deficit + 256 * w else x.deficit
      if 256 ≤ d then
        let s := (s.setQueue q { x with deficit := d - 256 }).grant q
        ({ s with cmm := { s.cmm with rr2 := q + 1 } } : State).weightedPhase l (g + 1)
      else (s.setQueue q { x with deficit := d }).weightedPhase l g
    else s.weightedPhase l g

/-- The write grants of one tick (R394). -/
def State.writeGrants (s : State) : State :=
  let s := s.emptyQueues
  let qs := s.queueList.filter s.activeQueue
  let s := qs.foldl (fun s q =>
    let x := s.queue q
    s.setQueue q { x with tokens := min (x.tokens + s.obj (Obj.qCommitRate q)) 65536000, deficit := if s.ready q then x.deficit else 0 }) s
  let (g, s) := s.committedPhase (roundFrom qs s.cmm.rr1) 0
  s.weightedPhase (roundFrom qs s.cmm.rr2) g

/-! Leases. -/

/-- The live lease of an ID: its generation in the upper half (R400). -/
def Cmm.leaseOf (c : Cmm) (id : Nat) : Option Lease :=
  match c.leases.find (id % 65536) with
  | some l => if l.gen = id / 65536 then some l else none
  | none => none

/-- The pages a lease covers. -/
def State.leasePages (s : State) (l : Lease) : List Page :=
  (s.queue l.queue).pages.filter (fun p => p.capture = l.capture && l.first ≤ p.seq && p.seq < l.first + l.count)

/-- End a lease: with `consume` its pages count as consumed (R399, R402); the end of a lease of holder 0x40 empties the BAR2
cache (R590). -/
def State.endLease (s : State) (id : Nat) (consume revoked : Bool) : State :=
  match s.cmm.leaseOf id with
  | none => s
  | some l =>
    let x := s.queue l.queue
    let x := if consume then { x with pages := x.pages.map (fun p =>
        if p.capture = l.capture ∧ l.first ≤ p.seq ∧ p.seq < l.first + l.count then { p with consumed := true } else p) } else x
    let s := s.setQueue l.queue x
    let s := { s with cmm := { s.cmm with leases := s.cmm.leases.del (id % 65536), leased := true,
                                          revoked := if revoked then s.cmm.revoked ++ [id] else s.cmm.revoked },
                      host := if l.holder = 0x40 then { s.host with cache := [] } else s.host }
    s.sweepPages l.queue (x.pages.length)

/-- Revoke a lease (R402). -/
def State.revoke (s : State) (id : Nat) : State :=
  match s.cmm.leaseOf id with
  | some l => s.endLease id l.expiryFree true
  | none => s

/-- Revoke every lease of a holder (R401). -/
def State.revokeHolder (s : State) (h : Nat) : State :=
  (s.cmm.leases.filter (fun e => e.2.holder = h)).foldl (fun s e => s.revoke (65536 * e.2.gen + e.1)) s

/-- A holder is reset in tick t (R401). -/
def State.resetHolder (s : State) (h : Nat) (t : Tick) : State := { s with cmm := { s.cmm with gone := s.cmm.gone ++ [(h, t)] } }

/-- The leases of the holders that were reset before tick u go (R390, R401). -/
def State.revokeGone (s : State) (u : Tick) : State :=
  (s.cmm.gone.filter (fun e => e.2 < u)).foldl (fun s e => s.revokeHolder e.1)
    { s with cmm := { s.cmm with gone := s.cmm.gone.filter (fun e => u ≤ e.2) } }

/-- Take a lease (R399, R400): the ID and the state, none where a page is not held and closed, or the table is full. -/
def State.takeLease (s : State) (holder q capture first count timeout : Nat) (expiryFree : Bool) : Option (Nat × State) × Nat :=
  let pages := (s.queue q).pages.filter (fun p => p.capture = capture && first ≤ p.seq && p.seq < first + count && p.closed)
  if pages.length < count ∨ count = 0 then (none, 1)
  else if 4096 ≤ s.cmm.leases.length then (none, 2)
  else
    let (r, s) := s.fresh
    let i := (firstFrom (fun i => (s.cmm.leases.find (i % 4096)).isNone) 4096 (r % 4096)).getD 0 % 4096
    let gen := match s.cmm.gens.find i with
      | some g => (g + 1) % 65536
      | none => 0
    let l : Lease := ⟨gen, holder, q, capture, first, count, timeout, s.tick + 1, expiryFree⟩
    (some (65536 * gen + i, { s with cmm := { s.cmm with leases := s.cmm.leases.set i l, leased := true, gens := s.cmm.gens.set i gen,
                                                         revoked := s.cmm.revoked.filter (· != 65536 * gen + i) } }), 0)

/-- The 24-byte LEASE_RESULT (R404): what it says of a lease stands with outcome DONE (assumption 27). -/
def State.leaseResult (s : State) (outcome holder id : Nat) : Bytes :=
  match if outcome = 0 then s.cmm.leaseOf id else none with
  | none => le 1 outcome ++ zeros 3 ++ le 1 holder ++ zeros 3 ++ le 4 id ++ zeros 12
  | some l =>
    let pages := s.leasePages l
    let first := (pages.head?.map (·.pfn)).getD 0
    let last := (pages.getLast?.map (·.pfn)).getD 0
    let gone := (s.tick + 1 - l.since) / 1000000
    le 1 outcome ++ zeros 3 ++ le 1 l.holder ++ zeros 3 ++ le 4 id ++ le 4 first ++ le 4 last ++ le 4 (l.timeout - gone)

/-- The holder of commands of a port (R401). -/
def holderOf (port core : Nat) : Nat := if port = 0 then 0x40 else if port = 1 then 0x41 else 0x48 + core

/-- A restart of a lease's timer (R402). -/
def State.touchLease (s : State) (id : Nat) (t : Tick) : State :=
  match s.cmm.leaseOf id with
  | some l => { s with cmm := { s.cmm with leases := s.cmm.leases.set (id % 65536) { l with since := t } } }
  | none => s

/-- Does a LEASE_CMD have a result: not a no-op, and no field refused (R403, R404)? -/
def leaseAnswers (b : Bytes) : Bool :=
  let op := fieldAt b 0 1
  let count := fieldAt b 8 2
  op != 0 && op ≤ 4 && (op != 1 || (count != 0 && count ≤ 4096))

/-- LEASE_CMD (R399-R404): the object's outcome, and LEASE_RESULT of the port. -/
def State.leaseCmd (s : State) (port core : Nat) (b : Bytes) : State × ObjOut :=
  let k := Obj.cmmLeaseCmd
  let op := fieldAt b 0 1
  let flags := fieldAt b 1 1
  let count := fieldAt b 8 2
  let id := fieldAt b 16 4
  let holder := holderOf port core
  let done (s : State) (outcome h id status : Nat) (rep : List RepEntry) : State × ObjOut :=
    (s.setDom (Obj.cmmLeaseResult port) (s.leaseResult outcome h id),
      if status = stOk then clampedOut k (.byt b) rep
      else badOut k status (if status = stRejected then reRange else 0))
  let grant : Bool := op = 1
  let rep := (if flags / 4 ≠ 0 then [domField k stClamped rpCleared 1 0] else [])
    ++ (if grant ∧ 4095 < fieldAt b 2 2 then [domField k stClamped rpLowered 2 0] else [])
    ++ (if fieldAt b 10 2 ≠ 0 then [domField k stClamped rpCleared 10 0] else [])
    ++ (if grant ∧ 60000 < fieldAt b 20 4 then [domField k stClamped rpLowered 20 0] else [])
    ++ (if fieldAt b 24 8 ≠ 0 then [domField k stClamped rpCleared 24 0] else [])
  if op = 0 then (s, emptyOut k)
  else if 4 < op then (s, rejOut k)
  else if op = 1 then
    let q := min (fieldAt b 2 2) 4095
    let tmo := fieldAt b 20 4
    if count = 0 then (s, emptyOut k)
    else if 4096 < count then (s, rejOut k)
    else
      let timeout := if tmo = 0 then s.obj Obj.cmmLeaseTimeoutMs else min tmo 60000
      match s.takeLease holder q (fieldAt b 12 4) (fieldAt b 4 4) count timeout (bit flags 1) with
      | (some (id, s), _) => done s 0 holder id stOk rep
      | (none, o) => done s o holder 0 stRejected []
  else if s.cmm.revoked.contains id then done s 4 holder id stRevoked []
  else
    match s.cmm.leaseOf id with
    | none => done s 3 holder id stRejected []
    | some l =>
      if op = 4 then done s 0 l.holder id stOk rep
      else if l.holder ≠ holder then done s 3 holder id stRejected []
      else if op = 2 then done (s.touchLease id (s.tick + 1)) 0 holder id stOk rep
      else
        let r := s.leaseResult 0 holder id
        let s := s.endLease id (bit flags 0) false
        (s.setDom (Obj.cmmLeaseResult port) r, clampedOut k (.byt b) rep)

/-! Reading capture memory. -/

/-- The byte of a staged chunk that is still to be written to an address. -/
def State.staged (s : State) (a : Nat) : Option Byte :=
  s.queues.findSome? (fun e => e.2.chunks.findSome? (fun c =>
    if 65536 * c.pfn + c.off ≤ a ∧ a < 65536 * c.pfn + c.off + c.data.length then some (c.data.getD (a - 65536 * c.pfn - c.off) 0) else none))

/-- The byte a reader gets at an address: a staged chunk hides the memory it is still to be written to. -/
def State.capByte (s : State) (a : Nat) : Byte := (s.staged a).getD (s.memByte a)

/-- The bytes of a page from an offset on, for a reader. -/
def State.pageRead (s : State) (pfn off n : Nat) : Bytes := (upFrom n (65536 * pfn + off)).map s.capByte

/-- The faulty bursts that a read of n bytes at an address meets: those that begin in it and, with `first`, the one that it begins in (R370). -/
def State.faultsIn (s : State) (a n : Nat) (first : Bool) : List (Nat × Nat) :=
  s.memBad.filter (fun e => a < 64 * e.1 + 64 && 64 * e.1 < a + n && (first || a ≤ 64 * e.1) && (s.staged (64 * e.1)).isNone)

/-- Does a read meet an uncorrectable burst (R370)? -/
def State.readBad (s : State) (pfn off n : Nat) (first : Bool) : Bool := (s.faultsIn (65536 * pfn + off) n first).any (fun e => e.2 != 1)

/-- Count what readers read and the bursts that were corrected or could not be, by channel (R370, R408). -/
def State.countRead (s : State) (pfn off n : Nat) (first : Bool) : State :=
  let s := (s.faultsIn (65536 * pfn + off) n first).foldl (fun s e =>
    let m := s.chunkChannel (e.1 / 1024) (64 * e.1 % 65536)
    s.bump (if e.2 = 1 then Obj.mcCntCorrected m else Obj.mcCntUncorrectable m) 1) s
  (upFrom (ceilDiv (off % 256 + n) 256) (off / 256)).foldl (fun s c =>
    s.bump (Obj.mcCntBytesRead (s.chunkChannel pfn (256 * c))) (min (off + n) (256 * c + 256) - max off (256 * c))) s

/-- Errors come into stored bursts (R370); what an uncorrectable one then reads as is free. -/
def State.upsetMem (s : State) (burst : Nat) (two : Bool) : State :=
  if !two then { s with memBad := s.memBad.put burst 0 (max 1 (s.memBad.getD burst 0)) }
  else
    let (v, s) := s.fresh
    { s.setMemBytes (64 * burst) (le 64 v) with memBad := s.memBad.put burst 0 2 }

/-- Where the mirror holds an entry (R373, R566). -/
def State.mirrorAddr (s : State) (eno : Nat) : Nat := 65536 * s.obj Obj.cmmUsablePages + 32 * (eno % max 1 s.cmm.mirror)

end Sys2Proof.Machine
end

