-- ==== Sys2Proof/Machine/Capture.lean ====
section
/-! DEFINITION. What commands and triggers do to the queues (R318-R322, R362-R369, R375-R389): starting and stopping,
the checks of a commit, TRIGGER, MARK and STORE, segments, training. -/

namespace Sys2Proof.Machine

/-! Triggers (R319-R322). -/

/-- The queues of a group (R378), ascending. -/
def State.groupQueues (s : State) (g : Nat) : List Nat := s.queueList.filter (fun q => s.obj (Obj.qQgroup q) = g)

/-- Time of the oldest item a queue's current segment, or its current capture, holds. -/
def State.oldestItem (s : State) (q : Nat) (wholeCapture : Bool) : Option SubTime :=
  let x := s.queue q
  let cap := s.obj (Obj.qCapture q)
  let pages := x.pages.filterMap (fun p => if p.capture = cap ∧ (wholeCapture ∨ p.seg = x.segNo) then p.oldItem else none)
  let wait := x.waiting.filterMap (fun g => if g.items ≠ 0 ∧ (wholeCapture ∨ g.seg = x.segNo) then some g.oldest else none)
  let build := x.builders.map (fun e => e.2.first) ++ (x.edges.map (·.old)).toList
  match pages ++ wait ++ build with
  | [] => none
  | t :: l => some (l.foldl min t)

/-- A TRIGGER record (R444). -/
def triggerRec (s : State) (q : Nat) (a : TrigAct) (outcome : Nat) (short : Bool) (span : Int) (t : Tick) : Rec :=
  ⟨0x30, a.bb, t, trigBody a.time outcome 0 short a.fallback a.level a.branch a.group (s.queue q).segNo span.toNat⟩

/-- A MARK record (R445). -/
def markRec (s : State) (q : Nat) (a : TrigAct) (group reason : Nat) (t : Tick) : Rec :=
  ⟨0x31, a.bb, t, trigBody a.time 0 reason false a.fallback a.level a.branch group (s.queue q).segNo 0⟩

/-- The queue takes one TRIGGER at acceptance tick A (R319). -/
def State.takeTrigger (s : State) (a : TrigAct) (t : Tick) (q : Nat) : State :=
  let x := s.queue q
  if !s.capturing q then s.bump (Obj.bbCntTrigIgnored a.bb) 1
  else
    let span (w : Bool) : Int := match s.oldestItem q w with
      | some o => (a.time : Int) - o
      | none => 0
    if x.mode = 0 ∨ x.mode = 3 then
      s.controlNow q (triggerRec s q a 0 false (span true) t) t
    else if x.inRearm t then
      (s.setQueue q { x with missed := x.missed ++ [⟨0x30, a.bb, t, trigBody a.time 2 0 false a.fallback a.level a.branch a.group x.segNo 0⟩] }).bump
        (Obj.bbCntMissed a.bb) 1
    else if x.window.isSome then
      (s.controlNow q (markRec s q a a.group 2 t) t).bump (Obj.bbCntConverted a.bb) 1
    else
      let p := span false
      let full : Bool := 64 * (s.obj (Obj.qPre q) : Int) ≤ p
      if full || !s.flag (Obj.qRequireFullPre q) then
        let s := s.controlNow q (triggerRec s q a 0 (!full) p t) t
        let x := s.queue q
        let cap := s.obj (Obj.qCapture q)
        let pages := x.pages.map (fun y => if y.capture = cap ∧ y.seg = x.segNo then { y with pinned := true } else y)
        s.setQueue q { x with window := some t, trigSeg := x.segNo, pages := pages }
      else (s.controlNow q (triggerRec s q a 1 false p t) t).bump (Obj.bbCntPremature a.bb) 1

/-- A MARK of acceptance tick t enters a capturing queue (R318, R322); one taken in the re-arm stands in the next segment among the MISSED triggers, in
the order in which they were taken (R420), since SEGMENT_CLOSE stays the last record of its page (R422). -/
def State.markQueue (s : State) (q : Nat) (r : Rec) (t : Tick) : State :=
  let x := s.queue q
  if x.inRearm t then s.setQueue q { x with missed := x.missed ++ [r] } else s.controlNow q r t

/-- STORE_ON (1) and STORE_OFF (2) of one queue (R322). -/
def State.takeStore (s : State) (a : TrigAct) (t : Tick) (q : Nat) : State :=
  let x := s.queue q
  let on := a.storeOp = 1
  if !s.capturing q ∨ x.storage = on then s
  else
    let s := s.markQueue q (markRec s q a a.group (if on then 4 else 3) t) t
    s.setQueue q { s.queue q with storage := on }

/-- Does an action's STORE operation on a queue win: no lower-numbered Bobbin operates on the queue in the tick (R314)? -/
def State.storeWins (s : State) (l : List TrigAct) (a : TrigAct) (q : Nat) : Bool :=
  !l.any (fun b => b.bb < a.bb && (b.storeOp = 1 || b.storeOp = 2) && s.obj (Obj.qQgroup q) = b.storeGroup)

/-- Does the queue meet both operations in the tick (R314)? -/
def State.storeBoth (s : State) (l : List TrigAct) (q : Nat) : Bool :=
  [1, 2].all (fun op => l.any (fun b => b.storeOp = op && s.obj (Obj.qQgroup q) = b.storeGroup))

/-- Everything one taken branch asks of the queues, among all the actions `l` of the tick (R314, R318, R321). -/
def State.takeAction (s : State) (t : Tick) (l : List TrigAct) (a : TrigAct) : State :=
  let qs := s.groupQueues a.group
  let s := if a.trigger then qs.foldl (fun s q => s.takeTrigger a t q) s else s
  let s := if a.mark then
      qs.foldl (fun s q => if s.capturing q then s.markQueue q (markRec s q a a.group 1 t) t else s) s
    else s
  if a.storeOp = 1 ∨ a.storeOp = 2 then
    (s.groupQueues a.storeGroup).foldl (fun s q =>
      if s.storeWins l a q then s.takeStore a t q
      else if s.storeBoth l q then s.bump (Obj.bbCntStoreConflicts a.bb) 1 else s) s
  else s

/-! Commands on one queue. -/

/-- The boundary C at which a post-trigger window ends, if one is open (R320). -/
def State.windowEnd (s : State) (q : Nat) : Option Tick := (s.queue q).window.map (· + s.obj (Obj.qPost q))

/-- The segment closes at the boundary of tick T (R320). -/
def State.closeSegment (s : State) (q : Nat) (t : Tick) : State :=
  let x := s.queue q
  if x.mode = 2 ∧ x.segNo < x.segsOf then
    let s := s.finishAll q [] t
    let s := s.control q 2 (segCloseRec q x.segNo 1 0 t)
    (s.setQueue q { (s.queue q).unconfig with window := none, rearm := some t }).setObj (Obj.qSegment q) 0
  else s.stopCapture q 1 t 2

/-- The next segment opens at the boundary of tick T (R320, R443). -/
def State.openSegment (s : State) (q : Nat) (t : Tick) : State :=
  let x := s.queue q
  (s.setQueue q { x with rearm := none, opening := true, openedAt := t, segNo := x.segNo + 1 }).setObj (Obj.qSegment q) (x.segNo + 1)

/-- FREE (R385, R454, R721). -/
def State.freeQueue (s : State) (q : Nat) : State × ObjOut :=
  let k := Obj.qFree q
  if s.activeQueue q then (s, badOut k stBusy 0)
  else
    let x := s.queue q
    let s := s.setQueue q { x with pages := x.pages.map (fun p => { p with freePending := true }), coders := [] }
    (s.sweepPages q x.pages.length, okOut k (.num 1))

/-- CLOSE_PAGE (R386, R407). -/
def State.askClose (s : State) (q : Nat) : State × ObjOut :=
  let k := Obj.qClosePage q
  let x := s.queue q
  if !s.capturing q then (s, rejOut k)
  else
    match x.open_ with
    | some p =>
      -- a page that is full already closes as the next record asks (R411)
      if p.records = 0 then (s, emptyOut k) else (if x.waiting = [] then s.setQueue q { x with wantPage := true } else s, okOut k (.num 1))
    | none => (s, emptyOut k)

/-! The checks a commit makes (R376, R382, R384, R389). -/

/-- The queue a key belongs to. -/
def queueOf (k : Key) : Option Nat := let i := k / 256; if 0x4000 ≤ i ∧ i < 0x5000 then some (i - 0x4000) else none

/-- Is a key one of the queue objects that R384 holds during a capture? -/
def heldDuringCapture (k : Key) : Bool := [0x03, 0x04, 0x05, 0x06, 0x07, 0x08, 0x0B, 0x10].contains (k % 256)

/-- The range of SOURCE by SRC_KIND (R375): least and greatest, and the index that names the instance. -/
def sourceRange (kind : Nat) : Nat × Nat × Option Nat :=
  match kind with
  | 1 => (0, 31, some 0x3100)
  | 2 => (0, 15, none)
  | 3 => (0, 15, some 0x2400)
  | 5 => (1, 255, none)
  | 6 => (0, 31, some 0x3200)
  | 7 => (0, 7, none)
  | 8 => (0, 0, none)
  | _ => (0, 65535, none)

/-- The verdict of R375 and R376 on a queue's source in the state that would follow. -/
def sourceVerdict (new : State) (q : Nat) : Option (Nat × Nat) :=
  let kind := new.obj (Obj.qSrcKind q)
  let src := new.obj (Obj.qSource q)
  let (lo, hi, ix) := sourceRange kind
  if src < lo ∨ hi < src then some (stRejected, reRange)
  else if (ix.map (fun b => absentIndex new.otp.variant (b + src))).getD false then some (stNotPresent, 0)
  else if kind = 5 ∧ (new.queueList.any (fun r => r ≠ q && new.obj (Obj.qSrcKind r) = 5 && new.obj (Obj.qSource r) = src)) then
    some (stRejected, reRange)
  else none

/-- Would a queue be CAPTURING after a commit that starts `starts` (R382)? -/
def State.startSums (old new : State) (starts : List Nat) : Bool :=
  let qs := old.queueList.filter old.activeQueue
  let all := qs ++ starts.filter (fun q => !qs.contains q)
  16384 < (all.map (fun q => new.obj (Obj.qStageKib q))).sum
    || new.obj Obj.cmmGuaranteeMbps < (all.map (fun q => new.obj (Obj.qCommitRate q))).sum

/-- Does R389 refuse the pool and quota objects of a commit? -/
def quotaBad (new : State) : Bool :=
  let usable := new.obj Obj.cmmUsablePages
  let pools := below 16
  usable < (pools.map (fun p => new.obj (Obj.poolReserve p))).sum
    || pools.any (fun p => new.obj (Obj.poolReserve p) < ((new.poolQueues p).map (fun q => new.obj (Obj.qQmin q))).sum)
    || usable < (pools.map (fun p => max (new.committedPages p) (new.obj (Obj.poolReserve p)))).sum

/-- Is a key a pool or quota object (R389)? -/
def quotaKey (k : Key) : Bool :=
  (0x5020 ≤ k / 256 && k / 256 < 0x5030) || ((queueOf k).isSome && [0x0B, 0x0C, 0x0D].contains (k % 256))

/-- Do what the commit would leave, and the starts that nothing else refuses, exceed the sums of R382 and R389? -/
def sumVerdict (old new : State) (vals : List (Key × Nat)) (k : Key) : Option (Nat × Nat) :=
  let starts := vals.filterMap (fun e => match queueOf e.1 with
    | some r => if e.1 % 256 = 1 ∧ e.2 = 1 ∧ !old.capturing r then some r else none
    | none => none)
  let run : Bool := match queueOf k with
    | some q => k % 256 == 0x01 && starts.contains q
    | none => false
  if (run && old.startSums new starts) || (quotaKey k && quotaBad new) then some (stRejected, reRange) else none

/-- The verdict of the capture chapter on one object of a commit by itself; `vals` is all it carries. -/
def captureVerdict (old new : State) (vals : List (Key × Nat)) (k : Key) : Option (Nat × Nat) :=
  match queueOf k with
  | some q =>
    let written (sub : Nat) : Option Nat := (vals.find? (fun e => e.1 = (0x4000 + q) * 256 + sub)).map (·.2)
    let stopping := written 0x01 = some 0
    if heldDuringCapture k && old.activeQueue q && old.capturing q && !stopping && old.obj k != new.obj k then some (stBusy, 0)
    else if (k % 256 = 0x03 ∨ k % 256 = 0x04) ∧ (sourceVerdict new q).isSome then sourceVerdict new q
    else if k % 256 = 0x01 ∧ written 0x01 = some 1 ∧ !old.capturing q then
      if !old.memTrained ∨ new.obj (Obj.qSrcKind q) = 0 then some (stRejected, reRange) else none
    else none
  | none => none

/-- Capacity of one module in GB (R365). -/
def moduleGb (ranks width density : Nat) : Nat := if width = 0 then 0 else ranks * (64 / width) * density / 8

/-- The verdict on the population objects (R363, R365). -/
def populationVerdict (new : State) (k : Key) : Option (Nat × Nat) :=
  if k = Obj.cmmChannelMask then
    let m := new.obj k
    if 2 ^ memChansOf new.otp.variant ≤ m ∧ m < 2 ^ 12 then some (stNotPresent, 0)
    else if m ≠ 0 ∧ m ≠ 0x03F ∧ m ≠ 0x0FF ∧ m ≠ 0xFFF then some (stRejected, reRange)
    else none
  else if k = Obj.cmmRanks ∨ k = Obj.cmmDeviceWidth ∨ k = Obj.cmmDensityGbit then
    let gb := moduleGb (new.obj Obj.cmmRanks) (new.obj Obj.cmmDeviceWidth) (new.obj Obj.cmmDensityGbit)
    if gb < 32 ∨ 256 < gb then some (stRejected, reRange) else none
  else none

/-- DATA_RATE as R364 clamps it. -/
def clampRate (dpc rate : Nat) : Nat :=
  let r := clampN 3200 (if dpc = 2 then 5200 else 6400) rate
  r - r % 400

/-- The largest counts of R727, tAA first. -/
def timingMax : List Nat := [127, 127, 127, 255, 511, 255, 4095, 4095, 2047, 63, 63, 63, 255, 255, 63, 65535]

/-- The count of clock cycles that a value in picoseconds needs at a data rate (R366, R727): rounded up, at least one. -/
def timingCount (rate v : Nat) : Nat := max 1 (ceilDiv (v * rate) 2000000)

/-- TIMINGS as the controller can program it (R366, R727): the value of each field at a data rate. -/
def clampTiming (rate i v : Nat) : Nat :=
  let m := timingMax.getD i 0
  if m < timingCount rate v then m * 2000000 / rate else v

/-- The counts that the controller programs (R727), tAA first, from TIMINGS and DATA_RATE. -/
def State.timingCounts (s : State) : List Nat :=
  (below 16).map (fun i => min (timingMax.getD i 0) (timingCount (s.obj Obj.cmmDataRate) (fieldAt (s.dom Obj.cmmTimings) (4 * i) 4)))

/-- The stops a commit makes come first, on the configuration before it (R384). -/
def State.runStops (s : State) (vals : List (Key × Nat)) (t : Tick) : State :=
  vals.foldl (fun s e => match queueOf e.1 with
    | some q => if e.1 % 256 = 1 ∧ e.2 = 0 ∧ s.capturing q then s.stopCapture q 2 t 0 else s
    | none => s) s

/-- The captures a commit starts (R379). -/
def State.runStarts (s : State) (vals : List (Key × Nat)) (t : Tick) : State :=
  vals.foldl (fun s e => match queueOf e.1 with
    | some q => if e.1 % 256 = 1 ∧ e.2 = 1 ∧ !s.capturing q then s.startCapture q t else s
    | none => s) s

/-- CONFIG_CHANGE in every queue that counts as capturing at T (R26, R421, R422). -/
def State.configChange (s : State) (kind port core objects jseq : Nat) (t : Tick) : State :=
  s.queueList.foldl (fun s q =>
    let x := s.queue q
    if s.capturing q && !x.inRearm t && !x.opening && x.openedAt != t then s.control q 3 (configRec kind port core objects jseq t) else s) s

/-- DEV_STATE follows the queues between READY and RUN (R663, R665). -/
def State.devSync (s : State) (t : Tick) : State :=
  let d := s.obj Obj.devDevState
  if d = 3 ∨ d = 4 then s.setDev (if s.queueList.any s.capturing then 4 else 3) t else s

/-! Training (R367-R373, R393). -/

/-- TRAIN (R367, R369). -/
def State.train (s : State) (t : Tick) : State × ObjOut :=
  let k := Obj.cmmTrain
  let mask := s.obj Obj.cmmChannelMask
  if (s.queueList.any s.capturing) ∨ s.cmm.leases ≠ [] ∨ s.cmm.training.isSome then (s, badOut k stBusy 0)
  else if mask = 0 then (s, rejOut k)
  else
    let s := (s.setObj Obj.cmmMemState 1)
    let s := (below 12).foldl (fun s m => if bit mask m then (s.setObj (Obj.mcTrainState m) 2).setObj (Obj.mcFailStep m) 0 else s) s
    ({ s with queues := s.queues.map (fun e => (e.1, { e.2 with pages := [], chunks := [], waiting := [], past := [], inbox := [], draining := false, stopAt := none })), mem := [], memBad := [],
              cmm := { s.cmm with free := [], training := some (t, mask), trainMask := mask, wq := [] } }, okOut k (.num 1))

/-- The memory figures of R371, R373 and R393 from the population in force. -/
def State.sizeMemory (s : State) : State :=
  let mask := s.obj Obj.cmmChannelMask
  let n := ones 12 mask
  let gb := moduleGb (s.obj Obj.cmmRanks) (s.obj Obj.cmmDeviceWidth) (s.obj Obj.cmmDensityGbit)
  let total := n * s.obj Obj.cmmDpc * gb * 16384
  let mirror := s.obj Obj.jnlMirrorEntries / 2048
  let usable := total - ceilDiv total 16384 - mirror
  let peak := n * s.obj Obj.cmmDataRate * 8
  let s := s.setObjs [(Obj.cmmTotalPages, total), (Obj.cmmUsablePages, usable), (Obj.cmmMirrorPages, mirror),
    (Obj.cmmPeakMbps, peak), (Obj.cmmGuaranteeMbps, peak * 125 / 192), (Obj.cmmReadGuaranteeMbps, peak * 25 / 256)]
  -- the mirror is made anew, and takes what the ring still holds (R567, R568)
  let s := s.setObjs [(Obj.jnlMirrorState, ofBool (s.obj Obj.jnlMirrorEntries != 0)), (Obj.jnlMirrorOldestEno, s.obj Obj.jnlOldestEno)]
  { s with mirror := [], cmm := { s.cmm with free := if usable = 0 then [] else [(0, usable)], mirror := s.obj Obj.jnlMirrorEntries } }

/-- Training ends with the failed channels and their steps (R367, R368). -/
def State.finishTraining (s : State) (fails : List (Nat × Nat)) : State :=
  match s.cmm.training with
  | none => s
  | some (_, mask) =>
    let fails := fails.filter (fun e => e.1 < 12 && bit mask e.1 && 1 ≤ e.2 && e.2 ≤ 7)
    let s := (below 12).foldl (fun s m =>
      if bit mask m then
        match Tab.find fails m with
        | some step => (s.setObj (Obj.mcTrainState m) 4).setObj (Obj.mcFailStep m) step
        | none => s.setObj (Obj.mcTrainState m) 3
      else s) s
    let s := { s with cmm := { s.cmm with training := none } }
    if fails = [] then (s.setObj Obj.cmmMemState 2).sizeMemory else s.setObj Obj.cmmMemState 3

/-! Values that are computed when they are read. -/

/-- The queue, pool and memory objects that R388 and R405-R407 derive. -/
def captureView (s : State) (k : Key) : Option Nat :=
  match queueOf k with
  | some q =>
    let x := s.queue q
    let cur := x.pages.filter (fun p => p.capture = s.obj (Obj.qCapture q))
    match k % 256 with
    | 0x22 => some ((cur.head?.map (·.seq)).getD 0)
    | 0x24 => some ((x.open_.map (·.pfn)).getD noPfn)
    | 0x25 => some x.pages.length
    | 0x26 => some (x.pages.filter (·.pinned)).length
    | _ => none
  | none =>
    if k = Obj.cmmMemState then (if s.obj k = 2 ∧ !s.memTrained then some 3 else none)
    else if k = Obj.cmmFreePages then some s.cmm.freePages
    else if k = Obj.cmmCommittedMbps then some (((s.queueList.filter s.activeQueue).map (fun q => s.obj (Obj.qCommitRate q))).sum)
    else if k = Obj.cmmSharedUsed then some s.sharedUsed
    else if k = Obj.cmmLeasesActive then some s.cmm.leases.length
    else if k = Obj.coderContextsFree then some s.contextsFree
    else if 0x5020 ≤ k / 256 ∧ k / 256 < 0x5030 then
      let p := k / 256 - 0x5020
      if k % 256 = 3 then some (((s.poolQueues p).map s.heldPages).sum)
      else if k % 256 = 4 then some (s.committedPages p)
      else none
    else if 0x5100 ≤ k / 256 ∧ k / 256 < 0x510C ∧ k % 256 = 1 then
      let mask := s.obj Obj.cmmChannelMask
      if !bit mask (k / 256 - 0x5100) then some 0 else if mask = s.cmm.trainMask then none else some 1
    else none

/-- A change of CODE_MODE resets the contexts of its source at their next block (R455, R466). -/
def State.codeEffects (s old : State) (keys : List Key) : State :=
  let lanes := (below 32).filter (fun n => keys.contains (Obj.laneCodeCodeMode n) && s.obj (Obj.laneCodeCodeMode n) != old.obj (Obj.laneCodeCodeMode n))
  let groups := (below 16).filter (fun g => keys.contains (Obj.lgCodeCodeMode g) && s.obj (Obj.lgCodeCodeMode g) != old.obj (Obj.lgCodeCodeMode g))
  let hit (q logical : Nat) : Bool :=
    let src := s.obj (Obj.qSource q)
    match s.obj (Obj.qSrcKind q) with
    | 1 => lanes.contains src
    | 2 => lanes.contains ((s.linkLanes src).getD logical 32)
    | 3 => groups.contains src
    | _ => false
  { s with queues := s.queues.map (fun e =>
      (e.1, { e.2 with coders := e.2.coders.map (fun c => (c.1, if hit e.1 c.1 then { c.2 with reset := true } else c.2)) })) }

/-! The coder's STATE (R470, R471). -/

/-- The context a port's STATE_SEL names, if its queue holds it. -/
def State.selected (s : State) (port : Nat) (sel : Nat) : Option (Nat × Nat × Coder) :=
  let _ := port
  let q := bits sel 11 0
  let l := bits sel 18 16
  ((s.queue q).coders.find l).map (fun c => (q, l, c))

/-- A read of STATE: its 160 bytes, none where NOT_PRESENT. -/
def State.readCoder (s : State) (port sel : Nat) : Option Bytes :=
  (s.selected port sel).map (fun (q, l, c) => c.bytes q l)

/-- A write of STATE (R471). -/
def State.writeCoder (s : State) (port sel : Nat) (b : Bytes) : State × ObjOut :=
  let k := Obj.coderState port
  match s.selected port sel with
  | none => (s, badOut k stNotPresent 0)
  | some (q, l, c) =>
    if s.capturing q then (s, badOut k stBusy 0)
    else if stateOk c q l b then
      let x := s.queue q
      (s.setQueue q { x with coders := x.coders.set l (stateOf c b) }, okOut k (.byt b))
    else (s, rejOut k)

/-! The commands of the capture memory that no packet carries. -/

/-- The next queue of the round that needs a page gets one in the open tick, or its allocation fails; a STOP_ON_FULL queue then stops (R390, R391, R396,
R383). -/
def State.takeAlloc (s : State) : State :=
  if !s.running ∨ 8 ≤ s.cmm.allocs then s
  else
    match (roundFrom (s.queueList.filter s.needsPage) s.cmm.rr).head? with
    | none => s
    | some q =>
      let s := { s with cmm := { s.cmm with rr := q + 1, allocs := s.cmm.allocs + 1 } }
      match s.allocPage q with
      | some (pfn, s) =>
        match (s.queue q).past with
        | p :: _ => s.openPast q pfn p s.tick
        | [] => s.openPage q pfn s.tick
      | none =>
        let s := s.bump (Obj.qAllocFail q) 1
        match (s.queue q).past with
        | p :: _ => s.dropPast q p s.tick
        | [] =>
        if (s.queue q).stopAt.isSome && !s.capturing q then s.dropWaiting q s.tick
        else if (s.queue q).mode = 3 ∧ s.capturing q then
          (((s.stopCapture q 3 s.tick 2).flushInbox q s.tick).dropWaiting q s.tick).devSync (s.tick + 1)
        else s

/-- PAGE_ALLOC (R25, R390, R391): after a change of the lease table it is of the next tick, which the change is of. -/
def execPageAlloc (s : State) : Ans := .next (if s.cmm.leased || s.belongsLater (· == .alloc) then s.postpone .alloc else s.takeAlloc)

/-- CHUNK_FLUSH (R387, R425): what has been under construction, or in a chunk, for FLUSH_TICKS is completed. -/
def execChunkFlush (q : Nat) (s : State) : Ans :=
  let due (since : Tick) : Bool := since + s.obj Obj.cmmFlushTicks ≤ s.tick
  let x := s.queue q
  let late := (x.builders.filter (fun e => due e.2.since)).map (·.1)
  let s1 := late.foldl (fun s l => s.finishBlock q l [] s.tick) s
  let s2 := if (x.edges.map (fun e => due e.since)).getD false then s1.finishEdges q s.tick else s1
  let x := s2.queue q
  let stale := x.chunks.find? (fun c => (c.off + c.data.length) % 256 ≠ 0 ∧ due c.since)
  .next (match stale with
    | some c => (s2.setQueue q (x.padChunk (fun p => p.pfn = c.pfn) s.tick)).notePeak q
    | none => s2)

/-- SEGMENT_CLOSE (R320): the post-trigger window has run out. -/
def execSegmentClose (q : Nat) (s : State) : Ans :=
  match s.windowEnd q with
  | some c => if c ≤ s.tick + 1 ∧ s.capturing q then .next ((s.closeSegment q (s.tick + 1)).devSync (s.tick + 1)) else .next s
  | none => .next s

/-- SEGMENT_OPEN (R320): four ticks after the close the next segment opens. -/
def execSegmentOpen (q : Nat) (s : State) : Ans :=
  match (s.queue q).rearm with
  | some c => if c + 4 ≤ s.tick + 1 ∧ s.capturing q then .next (s.openSegment q (s.tick + 1)) else .next s
  | none => .next s

/-- DRAIN_END (R721): the chunks of a stopped capture are written and its page closes, padded. -/
def execDrainEnd (q : Nat) (s : State) : Ans :=
  if !(s.queue q).draining then .next s
  else
    let s1 := match s.drainedPage q with
      | some p => s.closePage q p noPfn true s.tick
      | none => s
    let x := s1.queue q
    let left := x.past ≠ [] || x.pages.any (fun p => !p.closed && (p.ending && p.capture != s1.obj (Obj.qCapture q) || !s1.capturing q))
      || (!s1.capturing q && (x.waiting ≠ [] || x.inbox ≠ []))
    .next (if left then s1 else s1.setQueue q { x with draining := false, stopAt := none })

/-- LEASE_EXPIRE (R402): TIMEOUT ms have passed since the lease's timer restarted. -/
def execLeaseExpire (i : Nat) (s : State) : Ans :=
  match s.cmm.leases.find i with
  | some l => if l.since + 1000000 * l.timeout ≤ s.tick + 1 then .next (s.revoke (65536 * l.gen + i)) else .next s
  | none => .next s

end Sys2Proof.Machine
end

