-- ==== Sys2Proof/Machine/Shift.lean ====
section
/-! DEFINITION. A load of the tick counter (R40, R63) renumbers the ticks and takes no time. Every tick and time from which the engine measures how long
ago something was, or how long it still has to run, moves with the count; ticks that were written by a host, an image or a primary, and
those in what has been written already, stay (DESIGN CHOICE, log 39). A tick before the new zero is held at zero. -/

namespace Sys2Proof.Machine

/-- A tick after the count has changed by d. -/
def moveTick (d : Int) (t : Tick) : Tick := ((t : Int) + d).toNat

/-- A time after the count has changed by d ticks. -/
def moveTime (d : Int) (t : SubTime) : SubTime := ((t : Int) + 64 * d).toNat

/-- Change every listed value of a table. -/
def Tab.mapVals {α : Type} (t : Tab α) (f : α → α) : Tab α := t.map (fun e => (e.1, f e.2))

/-- Change the values of the first n keys, those that are not listed too. -/
def Tab.mapAll {α : Type} [DecidableEq α] (t : Tab α) (n : Nat) (d : α) (f : α → α) : Tab α := (below n).foldl (fun t i => t.modify i d f) t

def TimeBase.move (d : Int) (x : TimeBase) : TimeBase :=
  { x with lastEdge := x.lastEdge.map (moveTime d), lastCorr := x.lastCorr.map (moveTick d), lastUpdate := moveTick d x.lastUpdate,
           slewStart := moveTick d x.slewStart, holdSince := moveTick d x.holdSince, point := { x.point with at_ := moveTime d x.point.at_ } }

def CascPort.move (d : Int) (x : CascPort) : CascPort :=
  { x with queue := x.queue.map (fun e => (moveTick d e.1, e.2.1, moveTime d e.2.2)), busyUntil := moveTick d x.busyUntil,
           lastWord := x.lastWord.map (moveTick d), lastSent := x.lastSent.map (moveTick d), lastMsg := x.lastMsg.map (moveTick d) }

def Synth.move (d : Int) (x : Synth) : Synth :=
  { x with holdAt := x.holdAt.map (moveTick d), relockAt := x.relockAt.map (moveTick d),
           glideEnd := moveTick d x.glideEnd, since := moveTick d x.since, shut := x.shut.map (moveTick d) }

def Queue.move (d : Int) (x : Queue) : Queue :=
  { x with chunks := x.chunks.map (fun c => { c with since := moveTick d c.since }),
           waiting := x.waiting.map (fun g => { g with since := g.since.map (moveTick d) }),
           builders := x.builders.mapVals (fun b => { b with since := moveTick d b.since }),
           edges := x.edges.map (fun e => { e with since := moveTick d e.since }),
           past := x.past.map (fun p => { p with stopAt := moveTick d p.stopAt }), openedAt := moveTick d x.openedAt,
           stopAt := x.stopAt.map (moveTick d), window := x.window.map (moveTick d), rearm := x.rearm.map (moveTick d) }

def Comp.move (d : Int) (x : Comp) : Comp :=
  { x with settleAt := moveTick d x.settleAt, hist := x.hist.map (fun e => (e.1, e.2.map (moveTime d))), etime := moveTime d x.etime,
           last0 := x.last0.map (moveTime d), last1 := x.last1.map (moveTime d) }

def LcEdge.move (d : Int) (x : LcEdge) : LcEdge := { x with time := moveTime d x.time }

def Channel.move (d : Int) (x : Channel) : Channel :=
  { x with up := x.up.move d, lo := x.lo.move d, edges := x.edges.map (LcEdge.move d),
           pipe := x.pipe.map (fun p => { p with due := moveTick d p.due, edges := p.edges.map (LcEdge.move d) }) }

def Arrival.move (d : Int) : Arrival → Arrival
  | .word n w t a b => .word n w (moveTime d t) a b
  | .symbol n k v t => .symbol n k v (moveTime d t)
  | .broken n l => .broken n l
  | .field n k x b t => .field n k x b (moveTime d t)
  | .flow n k f g c l t => .flow n k f g c l (moveTime d t)
  | .video i f k l g z t => .video i f k l g z (moveTime d t)
  | .code i k t => .code i k (moveTime d t)
  | .trigIn p l t => .trigIn p l (moveTime d t)
  | .casc p c t => .casc p c (moveTime d t)
  | .soft l t => .soft l (moveTime d t)

def CondUnit.move (d : Int) (x : CondUnit) : CondUnit :=
  { x with prevAt := moveTick d x.prevAt, syms := x.syms.mapVals (fun l => l.map (fun e => (e.1, moveTime d e.2))), pulse := x.pulse.map (moveTime d),
           window := x.window.map (fun e => (moveTick d e.1, e.2)), sched := x.sched.map (fun e => (moveTick d e.1, moveTime d e.2)),
           since := moveTick d x.since }

def Pin.move (d : Int) (x : Pin) : Pin :=
  { x with starts := x.starts.map (moveTick d), until_ := x.until_.map (moveTick d), since := moveTick d x.since }

def SdiLane.move (d : Int) (x : SdiLane) : SdiLane :=
  { x with accT := moveTick d x.accT, preT := moveTick d x.preT, eavT := moveTick d x.eavT, sampleT := moveTick d x.sampleT,
           anc := x.anc.mapVals (fun a => { a with t1 := moveTick d a.t1, t2 := moveTick d a.t2, at_ := moveTick d a.at_ }) }

def CodeLane.move (d : Int) (x : CodeLane) : CodeLane :=
  { x with accT := moveTick d x.accT, octT0 := moveTick d x.octT0, octT4 := moveTick d x.octT4,
           items := x.items.map (fun e => { e with time := moveTick d e.time }),
           eth := x.eth.map (fun e => { e with time := e.time.map (moveTick d) }) }

def Front.move (d : Int) (x : Front) : Front :=
  { x with sdi := x.sdi.move d, code := x.code.move d, words := x.words.map (fun e => (e.1, moveTick d e.2)) }

def Decoder.move (d : Int) (x : Decoder) : Decoder :=
  { x with fronts := x.fronts.mapVals (Front.move d),
           frame := { x.frame with closed := x.frame.closed.map (fun e => (moveTick d e.1, e.2)),
                                   queue := x.frame.queue.mapVals (fun l => l.map (fun e => (moveTick d e.1, e.2))) },
           errAt := x.errAt.map (fun e => (e.1, moveTick d e.2)), badSince := moveTick d x.badSince,
           ready := x.ready.map (fun e => (moveTick d e.1, { e.2 with time := moveTick d e.2.time })),
           lossPend := x.lossPend.map (fun e => (moveTick d e.1, e.2)), syncPend := x.syncPend.map (moveTick d), flaw := x.flaw.map (moveTick d),
           marked := x.marked.mapVals (fun e => (e.1, moveTick d e.2)), eav := x.eav.mapVals (fun e => (e.1, moveTick d e.2)),
           check := x.check.map (fun e => (e.1, moveTick d e.2.1, moveTick d e.2.2)), seen := x.seen.mapVals (moveTick d) }

def Lane.move (d : Int) (x : Lane) : Lane :=
  { x with gap := x.gap.map (fun e => (moveTick d e.1, e.2)), gap2 := x.gap2.map (fun e => (moveTick d e.1, e.2)), lockAt := x.lockAt.map (moveTick d),
           chain := x.chain.map (fun e => (moveTick d e.1, e.2.1, moveTick d e.2.2)), cut := x.cut.map (fun e => (moveTick d e.1, e.2)), pols := x.pols.map (fun e => (moveTick d e.1, e.2)), wordAt := x.wordAt.map (moveTick d),
           windowAt := moveTick d x.windowAt, cleanAt := moveTick d x.cleanAt, codes := x.codes.map (fun e => (moveTick d e.1, e.2)),
           lastEye := moveTick d x.lastEye, finder := x.finder.move d }

def Link.move (d : Int) (x : Link) : Link :=
  { x with gap := x.gap.map (fun e => (moveTick d e.1, e.2)), marks := x.marks.mapVals (fun l => l.map (moveTick d)), seen := x.seen.mapVals (moveTick d),
           sets := x.sets.map (moveTick d), since := moveTick d x.since, lastZero := moveTick d x.lastZero,
           buf := x.buf.map (fun e => (moveTick d e.1, e.2.1, e.2.2.1, moveTick d e.2.2.2)) }

def FlowCtx.move (d : Int) (x : FlowCtx) : FlowCtx :=
  { x with lastArr := ofInt 40 ((x.lastArr : Int) + d), samples := x.samples.map (fun e => { e with time := moveTick d e.time }) }

def FlowLane.move (d : Int) (x : FlowLane) : FlowLane :=
  { x with frameAt := x.frameAt.map (moveTick d), usedAt := x.usedAt.map (moveTick d), tableAt := x.tableAt.map (moveTick d), visitAt := x.visitAt.map (moveTick d) }

def HealthRun.move (d : Int) (x : HealthRun) : HealthRun :=
  { x with lastAt := moveTick d x.lastAt, begun := x.begun.map (moveTick d), whole := x.whole.map (moveTick d), copy := x.copy.mapVals (FlowCtx.move d) }

def Repair.move (d : Int) (x : Repair) : Repair :=
  { x with borrow := x.borrow.map (fun b => { b with start := moveTick d b.start }), lastEnd := x.lastEnd.mapVals (moveTick d) }

def DevRun.move (d : Int) (x : DevRun) : DevRun :=
  { x with resets := x.resets.map (fun e => (moveTick d e.1, e.2)), railBad := x.railBad.map (moveTick d) }

def Parked.move (d : Int) : Parked → Parked
  | .word n w t => .word n w (moveTick d t)
  | .frame n => .frame n
  | .visit n => .visit n
  | .alloc => .alloc
  | .bar2 a n e => .bar2 a n e

/-- The ports, transfers, sessions and what lands at the boundary. -/
def State.moveHost (d : Int) (s : State) : State :=
  { s with
    ports := s.ports.mapVals (fun p => { p with held := p.held.map (fun h => { h with since := moveTick d h.since }), lockedAt := p.lockedAt.map (moveTick d) }),
    transfers := s.transfers.map (fun x => { x with last := moveTick d x.last }),
    landing := s.landing.map (fun l => { l with effect := moveTick d l.effect }),
    deferred := s.deferred.map (fun e => (e.1, { e.2 with effect := moveTick d e.2.effect })),
    sessions := s.sessions.mapVals (fun x => { x with helloAt := moveTick d x.helloAt, usedAt := moveTick d x.usedAt }),
    hops := s.hops.map (fun h => { h with since := moveTick d h.since }),
    lock := { s.lock with start := moveTick d s.lock.start, freed := moveTick d s.lock.freed },
    host := { s.host with mailAt := s.host.mailAt.map (moveTick d) },
    cores := s.cores.mapVals (fun c => { c with faults := c.faults.map (moveTick d) }),
    dev := s.dev.move d }

/-- The clocks, the queues and their leases, and the services. -/
def State.moveStore (d : Int) (s : State) : State :=
  { s with
    time := s.time.move d, casc := s.casc.mapVals (CascPort.move d), syn := s.syn.mapVals (Synth.move d), queues := s.queues.mapVals (Queue.move d),
    cmm := { s.cmm with leases := s.cmm.leases.mapVals (fun l => { l with since := moveTick d l.since }),
                        training := s.cmm.training.map (fun e => (moveTick d e.1, e.2)), gone := s.cmm.gone.map (fun e => (e.1, moveTick d e.2)) },
    jobs := s.jobs.mapVals (fun j => { j with startAt := moveTick d j.startAt }),
    deflSlots := s.deflSlots.mapVals (fun x => { x with named := moveTick d x.named }),
    streams := s.streams.mapVals (fun x => { x with nextAt := moveTick d x.nextAt }),
    health := s.health.mapVals (HealthRun.move d), repair := s.repair.move d }

/-- The inputs, the decoders, the flow engine and the trigger. -/
def State.moveInputs (d : Int) (s : State) : State :=
  { s with
    parked := s.parked.map (Parked.move d),
    chans := s.chans.mapVals (Channel.move d), arrivals := s.arrivals.map (fun e => (moveTick d e.1, e.2.move d)),
    units := s.units.mapVals (CondUnit.move d), cuOut := s.cuOut.mapVals (moveTime d), xs := s.xs.mapVals (moveTime d),
    rings := s.rings.mapVals (fun l => l.map (· + d)), ringClr := s.ringClr.mapAll 64 0 (· + d),
    bbs := s.bbs.mapVals (fun b => { b with entry := moveTick d b.entry }),
    acts := s.acts.map (fun a => { a with time := moveTime d a.time }),
    trigIn := s.trigIn.mapAll 8 {} (Pin.move d), trigOut := s.trigOut.mapVals (Pin.move d),
    decs := s.decs.mapAll 56 {} (Decoder.move d), lanes := s.lanes.mapAll 56 {} (Lane.move d), links := s.links.mapVals (Link.move d),
    eye := s.eye.map (fun e => { e with start := moveTick d e.start }),
    flowLanes := s.flowLanes.mapVals (FlowLane.move d), flows := s.flows.mapVals (FlowCtx.move d) }

/-- The state after the count of ticks has changed by d (R63). -/
def State.shiftTicks (d : Int) (s : State) : State := { ((s.moveHost d).moveStore d).moveInputs d with tick := moveTick d s.tick }

end Sys2Proof.Machine
end

