-- ==== Sys2Proof/Machine/Time.lean ====
section
/-! DEFINITION. Time, timestamps and discipline (R39-R65, R722, R723): the time map, the discipline sources and states,
steps and slews, and cascade alignment. -/

namespace Sys2Proof.Machine

/-- DISC_STATE codes of R54. -/
abbrev dsStarting : Nat := 0
abbrev dsAcquiring : Nat := 1
abbrev dsLocked : Nat := 2
abbrev dsHoldover : Nat := 3
abbrev dsSlewing : Nat := 4
abbrev dsHeld : Nat := 5

/-- Change the timebase. -/
def State.setTime (s : State) (f : TimeBase → TimeBase) : State := { s with time := f s.time }

/-- A cascade port's state. -/
def State.cascPort (s : State) (n : Nat) : CascPort := s.casc.getD n {}

/-- Change a cascade port. -/
def State.setCasc (s : State) (n : Nat) (f : CascPort → CascPort) : State := { s with casc := s.casc.put n {} (f (s.cascPort n)) }

/-- The RATE that the loop and the slew give (R43, R59): a slew that lengthens the tick has a positive RATE. -/
def TimeBase.rateNow (b : TimeBase) : Int := b.rate - b.slewOffset

/-- TAI that the map in force gives an instant; before the first TAI write that of R46. -/
def TimeBase.taiOf (b : TimeBase) (t : SubTime) : Nat := if b.taiValid then b.point.taiAt t else taiUnits t % oneSecond

/-- TAI that goes on from second to second before the first TAI write too, against which VREF edges are measured. -/
def TimeBase.taiRun (b : TimeBase) (t : SubTime) : Nat := if b.taiValid then b.point.taiAt t else taiUnits t

/-- A new point at an instant (R43-R46), in force from then on, with TAI moved by `j` units of 2^-16 ns. -/
def State.newPoint (s : State) (t : SubTime) (j : Int) (stepped : Bool) : State :=
  let b := s.time
  let d := s.obj Obj.tbDiscState
  let p : TimePoint :=
    { at_ := t, tai := if b.taiValid then (Int.ofNat (b.point.taiAt t) + j).toNat else taiUnits t % oneSecond, rate := b.rateNow,
      seq := b.nextSeq, valid := b.taiValid, stepped := stepped, slew := b.slewOffset != 0,
      holdover := d == dsHoldover || d == dsHeld, dstate := d, source := s.obj Obj.tbDiscSrc, utc := s.obj Obj.taiUtcOffset }
  s.setTime (fun b => { b with point := p, nextSeq := (b.nextSeq + 1) % 256 })

/-- Write the point in force into a queue at the boundary that opens the next tick (R45). A queue one of whose segments opens there
gets the point with its opening records, and no second one; only the stepped point of R58 follows its TIME_STEP there too. -/
def State.pointInto (s : State) (q : Nat) : State :=
  let x := s.queue q
  if !s.capturing q ∨ (x.opening ∧ !s.time.point.stepped) then s
  else if x.inRearm (s.tick + 1) then (if s.obj (Obj.qSrcKind q) = 8 then s.rearmLost q 1 (s.tick + 1) (s.tick + 1) (s.tick + 1) else s)
  else if s.obj (Obj.qSrcKind q) = 8 ∧ !x.storage then s
  else
    -- a point is the item of a queue whose source is the time-map stream (R319, R391)
    let p := s.time.point
    let g : Group := { recs := [timeMapRec p], ctl := true, seg := s.obj (Obj.qSegment q) }
    let g := if s.obj (Obj.qSrcKind q) = 8 then { g with items := 1, first := p.at_, last := p.at_ } else g
    s.setQueue q { x with inbox := x.inbox ++ [(5, g)] }

/-- Write the point in force to the time-map queues, and to every capturing queue where `all` holds (R45). -/
def State.writePoint (s : State) (all : Bool) : State :=
  s.queueList.foldl (fun s q => if all || s.obj (Obj.qSrcKind q) = 8 then s.pointInto q else s) s

/-- TIME_STEP followed by the stepped point into every capturing queue (R58, R448). -/
def State.writeStep (s : State) (j : Int) (cause : Nat) (t : Tick) : State :=
  let s := s.queueList.foldl (fun s q =>
    if s.capturing q && !(s.queue q).inRearm t then s.control q 5 (timeStepRec j cause t) else s) s
  s.writePoint true

/-- DETAIL of the class-12 notification (R56). -/
def discDetail (s : State) (new old : Nat) : Nat :=
  new + 2 ^ 8 * old + 2 ^ 16 * s.obj Obj.tbDiscSrc + 2 ^ 32 * ofInt 32 (clampI (-2147483648) 2147483647 (s.int Obj.tbLastJump))

/-- DISC_STATE moves (R54): a point in every capturing queue (R45) and a notification (R56). -/
def State.setDisc (s : State) (d : Nat) (t : SubTime) : State :=
  let old := s.obj Obj.tbDiscState
  if old = d then s
  else
    let s := s.setObj Obj.tbDiscState d
    let s := if s.time.counting then (s.newPoint t 0 false).writePoint true else s
    s.notify 12 0 (discDetail s d old) (s.tick + 1)

/-- A jump in TAI units for one in sub-ticks. -/
def jumpUnits (j : Int) : Int := 1024 * j

/-- LOCK_WINDOW in sub-ticks. -/
def State.lockWindow (s : State) : Int := s.obj Obj.tbLockWindow

/-- The nominal REFCLK frequency by class, hertz (R90, R94). -/
def refHz (cls : Nat) : Nat := [0, 10000000, 25000000, 100000000, 125000000, 156250000].getD cls 0

/-- The nominal feedback ratio of SYN-T by class (R90). -/
def refRatio (cls : Nat) : Nat := [0, 1000, 400, 100, 80, 64].getD cls 0

/-- SYN-T's word for a feedback ratio in units of 2^-32: P 1, D 10 (R67, R90). -/
def synTWordOf (ratio : Nat) : Nat := 10 * 2 ^ 48 + 2 ^ 43 + cut 43 ratio

/-- Set SYN-T to an offset in units of 2^-40, clamped at +500 ppm (R91), the fraction rounded down to a code. -/
def State.steer (s : State) : State :=
  let nominal : Nat := refRatio (s.obj Obj.refRefclkClass) * 2 ^ 32
  let o := min (s.time.offset + s.time.slewOffset) 549755813
  let ratio := ((nominal : Int) + (nominal : Int) * o / 2 ^ 40).toNat
  s.setObj Obj.synTSynWord (synTWordOf ratio)

/-- One loop update (R48, R52, R53): the discipline offset is the loop's, within 200 ppm; for HOST it is FREQ_CORR. How RATE follows from
the loop is left open (R46): DESIGN CHOICE, assumption 39: a free value within 200 ppm, and minus FREQ_CORR for HOST. -/
def State.loop (s : State) (t : Tick) : State :=
  let (r, s) := s.fresh
  let free : Int := (r % 439804651 : Nat) - (219902325 : Int)
  let host := s.obj Obj.tbDiscSrc = 4
  let offset : Int := if host then s.int Obj.corrFreqCorr else free
  let s := (s.setTime (fun b => { b with offset := offset, lastUpdate := t, sinceUpdate := 0 })).steer
  let (r2, s) := s.fresh
  let rate : Int := if host then -offset else (r2 % 439804651 : Nat) - (219902325 : Int)
  s.setTime (fun b => { b with rate := rate, words := (cut 43 (s.obj Obj.synTSynWord) :: b.words).take 1024 })

/-- The fractional word of the holdover (R53): the mean of the last updates, rounded to the nearest. DESIGN CHOICE (assumption 39): where
fewer than 2^HO_AVG_LOG2 updates have been made it is the mean of those there are, and the word in force where there are none. -/
def holdWord (words : List Nat) (log2 now : Nat) : Nat :=
  let l := words.take (2 ^ log2)
  if l = [] then now else (2 * l.sum + l.length) / (2 * l.length)

/-- The selected source is lost (R54, R55). -/
def State.sourceLost (s : State) (t : Tick) : State :=
  let s := s.setTime (fun b => { b with sourceOk := false, edges := 0, lastEdge := none, misses := 0, ahead := 1 })
  let d := s.obj Obj.tbDiscState
  if d = dsLocked ∨ d = dsSlewing ∨ d = dsHeld then
    let now := cut 43 (s.obj Obj.synTSynWord)
    let w := if d = dsHeld then now else holdWord s.time.words (s.obj Obj.tbHoAvgLog2) now
    let s := s.setObj Obj.synTSynWord (synTWordOf w)
    let s := s.setTime (fun b => { b with slewOffset := 0, holdSince := if d = dsHeld then b.holdSince else t })
    s.setDisc dsHoldover (ofTick t)
  else s

/-- Start a slew of a jump measured at an instant (R54, R59): the map takes the source's TAI there. DESIGN CHOICE (assumption 39): a slew
begun while another runs replaces what was left of it. -/
def State.startSlew (s : State) (j : Int) (t : SubTime) : State :=
  s.setTime (fun b => { b with slewOffset := if j < 0 then -54975581 else 54975581, slewStart := tickOf t, slewFrom := j })

/-- The selected source qualifies with a jump J in sub-ticks at an instant (R54, R55, R57). -/
def State.qualify (s : State) (j : Int) (t : SubTime) : State :=
  let d := s.obj Obj.tbDiscState
  let s := s.setTime (fun b => { b with sourceOk := true })
  let w := s.lockWindow
  let a := j.natAbs
  let big : Bool := w < (a : Int)
  let policy := s.obj Obj.tbJumpPolicy
  let casc := s.obj Obj.tbDiscSrc = 3
  let s := if d = dsAcquiring ∨ d = dsHoldover ∨ d = dsHeld then s.setInt Obj.tbLastJump j else s
  if d = dsAcquiring then
    -- before the first TAI write R46 fixes the mapping, which does not move
    let s := if big && !casc && s.time.taiValid then s.setTime (fun b => { b with step := some (j, 1) }) else s
    s.setDisc dsLocked t
  else if d = dsHoldover then
    if !big then s.setDisc dsLocked t
    else if policy = 0 ∧ a < 64000 then
      let s := (s.startSlew j t).setObj Obj.tbDiscState dsSlewing
      let s := ((s.newPoint t (jumpUnits j) false).writePoint true).steer
      s.notify 12 0 (discDetail s dsSlewing d) (s.tick + 1)
    else if policy = 1 ∧ !casc then (s.setTime (fun b => { b with step := some (j, 2) })).setDisc dsLocked t
    else s.setDisc dsHeld t
  else s

/-- Is the source locked on, so that its edges update the loop (R48)? -/
def State.following (s : State) : Bool := s.obj Obj.tbDiscState = dsLocked || s.obj Obj.tbDiscState = dsSlewing

/-- ALIGN_STATE of a cascade port; RX_LATENCY is fixed when the port comes to be ALIGNED, a free value of 1 to 16 ticks, and is 0 while it is
not (R65, R293, R299). -/
def State.alignTo (s : State) (n st : Nat) : State :=
  let s := s.setObj (Obj.cpAlignState n) st
  if st ≠ 3 then s.setObj (Obj.cpRxLatency n) 0
  else if s.obj (Obj.cpRxLatency n) ≠ 0 then s
  else let (r, s) := s.fresh; s.setObj (Obj.cpRxLatency n) (1 + r % 16)

/-- Enter ACQUIRING (R54); a slew that runs ends, with its point (R45), and SYN-T follows (R91); REFCLK qualifies at once while SYN-T is locked
(R48). DESIGN CHOICE (assumption 39): a step that waits for the boundary is dropped, since it was measured against the source before. -/
def State.acquire (s : State) (t : Tick) : State :=
  let slewing := s.time.slewOffset != 0
  let s := s.setTime (fun b => { b with edges := 0, misses := 0, lastEdge := none, ahead := 1, sinceUpdate := 0, sourceOk := false,
                                        lastCorr := none, slewOffset := 0, step := none })
  let s := if slewing then s.steer else s
  let s := if slewing && s.obj Obj.tbDiscState == dsAcquiring then (s.newPoint (ofTick t) 0 false).writePoint false
    else s.setDisc dsAcquiring (ofTick t)
  let src := s.obj Obj.tbDiscSrc
  let s := (below 4).foldl (fun s n =>
    let st := if src = 3 ∧ n = s.obj Obj.tbCascadePort then (if (s.cascPort n).sync then 2 else 1) else 0
    (s.setCasc n (fun p => { p with load := none, lastWord := none })).alignTo n st) s
  if src = 0 ∧ s.flag Obj.synTLocked ∧ s.time.refclk then s.qualify 0 (ofTick t) else s

/-- Apply the step that waits, at the boundary of tick T (R58, R60). -/
def State.doStep (s : State) (t : Tick) : State :=
  match s.time.step with
  | none => s
  | some (j, cause) =>
    let s := s.setTime (fun b => { b with step := none })
    (s.newPoint (ofTick t) (jumpUnits j) true).writeStep j cause t

/-- The TAI value the three objects give, units of 2^-16 ns. -/
def State.taiWritten (s : State) : Nat := s.obj Obj.taiTaiSec * oneSecond + s.obj Obj.taiTaiNs * 2 ^ 16

/-- A TAI write takes effect: TAI_SEC and TAI_NS hold at `at_` (R47, R60, R722); what VREF edges are measured against moves with the map.
DESIGN CHOICE (assumption 39): the move is rounded down to whole sub-ticks before it is compared with LOCK_WINDOW and reported. -/
def State.taiWrite (s : State) (at_ : SubTime) (t : Tick) : State :=
  let s := s.doStep t
  let j := ((s.taiWritten : Int) - s.time.taiOf at_) / 1024
  let base : Int := (s.taiWritten : Int) + taiSpan ((ofTick t : Int) - at_) s.time.rateNow
  let moved : Int := base - s.time.taiRun (ofTick t)
  let s := s.setTime (fun b => { b with taiValid := true, taiWaits := false, grid := b.grid + moved,
                                        point := { b.point with at_ := ofTick t, tai := base.toNat, rate := b.rateNow, valid := true } })
  if s.lockWindow < (j.natAbs : Int) then (s.newPoint (ofTick t) 0 true).writeStep j 4 t
  else (s.newPoint (ofTick t) 0 false).writePoint false

/-! The edges of the sources. -/

/-- The jump of a PPS edge in sub-ticks, in [-0.5 s, +0.5 s) (R57). DESIGN CHOICE (assumption 39): it is rounded down to whole sub-ticks
before it is compared with LOCK_WINDOW and reported. -/
def ppsJump (tai : Nat) : Int :=
  let r := tai % oneSecond
  let u : Int := if 2 * r ≤ oneSecond then -(r : Int) else (oneSecond : Int) - r
  u / 1024

/-- An accepted edge of a source: its time and which predicted edge it is. -/
def State.tookEdge (s : State) (t : SubTime) : State :=
  s.setTime (fun b => { b with lastEdge := some t, edges := b.edges + 1, misses := 0, ahead := 1, sinceUpdate := b.sinceUpdate + 1 })

/-- PPS_EDGE (R48, R54, R57, R722). -/
def execPpsEdge (time : Nat) (s : State) : Ans :=
  if s.obj Obj.tbDiscSrc ≠ 1 ∨ !s.time.counting ∨ s.tick < tickOf time then .next s
  else
    let b := s.time
    let near : Bool := match b.lastEdge with
      | some e => ((time : Int) - e - 64000000000 * b.ahead).natAbs ≤ 64000000
      | none => false
    if b.sourceOk && b.lastEdge.isSome && !near then .next s
    else
      let s1 := if near then s.tookEdge time else s.setTime (fun b => { b with lastEdge := some time, edges := 1, misses := 0, ahead := 1 })
      let j := ppsJump (s1.time.taiOf time)
      let s2 := if s1.obj Obj.tbLockCount ≤ s1.time.edges ∧ !s1.time.sourceOk then s1.qualify j time
        else if s1.obj Obj.tbDiscState = dsHeld ∧ s1.time.sourceOk then s1.setInt Obj.tbLastJump j
        else s1
      -- a step that the edge brings comes first at the boundary (R60)
      let s3 := if s2.time.taiWaits then s2.taiWrite time (s.tick + 1) else s2
      .next (if s3.following then s3.loop (s.tick + 1) else s3)

/-- The predicted VREF edge `ahead` periods after the last, times VREF_DEN, in sub-ticks (R50). -/
def vrefPredicted (s : State) (e : SubTime) (ahead : Nat) : Nat :=
  e * s.obj Obj.vrefVrefDen + 64 * s.obj Obj.vrefVrefNum * ahead

/-- The jump of a VREF edge modulo one period, in sub-ticks (R54, R57). DESIGN CHOICE (assumption 39): it is rounded down to whole
sub-ticks before it is compared with LOCK_WINDOW and reported. -/
def vrefJump (s : State) (t : SubTime) : Int :=
  let den := s.obj Obj.vrefVrefDen
  let period : Nat := s.obj Obj.vrefVrefNum * 2 ^ 16
  let d : Int := ((s.time.taiRun t : Int) - s.time.grid) * den
  let r := d % period
  let u : Int := if 2 * r ≤ period then -r else period - r
  u / (1024 * den)

/-- What an accepted VREF edge does (R48, R54, R57): it may complete the qualification, and while HELD its jump is measured. -/
def State.vrefTook (s : State) (time : SubTime) : State :=
  let s1 := if s.obj Obj.tbLockCount ≤ s.time.edges ∧ !s.time.sourceOk then
      let s := if s.obj Obj.tbDiscState = dsAcquiring then s.setTime (fun b => { b with grid := b.taiRun time }) else s
      s.qualify (vrefJump s time) time
    else if s.obj Obj.tbDiscState = dsHeld ∧ s.time.sourceOk then s.setInt Obj.tbLastJump (vrefJump s time)
    else s
  if s1.following ∧ 256 ≤ s1.time.sinceUpdate then s1.loop (s.tick + 1) else s1

/-- VREF_EDGE (R48, R50, R54, R57): a crossing of the lower threshold in the direction VREF_EDGE gives. -/
def execVrefEdge (time : Nat) (aboveHi : Bool) (s : State) : Ans :=
  if s.obj Obj.tbDiscSrc ≠ 2 ∨ !s.time.counting ∨ s.tick < tickOf time ∨ (s.obj Obj.vrefVrefEdge = 1 ∧ !aboveHi) then .next s
  else
    let b := s.time
    let tol := 64 * s.obj Obj.vrefVrefTol * s.obj Obj.vrefVrefDen
    match b.lastEdge with
    | none => .next ((s.setTime (fun b => { b with lastEdge := some time, edges := 1, misses := 0, ahead := 1 })).vrefTook time)
    | some e =>
      let off := (((time * s.obj Obj.vrefVrefDen : Nat) : Int) - vrefPredicted s e b.ahead).natAbs
      .next (if tol < off then s else (s.tookEdge time).vrefTook time)

/-- LOOP_UPDATE (R48, R52, R91): every 1,024 ticks with DISC_SRC REFCLK. -/
def execLoopUpdate (s : State) : Ans :=
  if s.obj Obj.tbDiscSrc = 0 ∧ s.following ∧ s.time.lastUpdate + 1024 ≤ s.tick + 1 then .next (s.loop (s.tick + 1)) else .next s

/-- PPS_MISS (R48): the window of the predicted edge closes empty. -/
def execPpsMiss (s : State) : Ans :=
  match s.time.lastEdge with
  | some e =>
    if s.obj Obj.tbDiscSrc = 1 ∧ e + 64000000000 * s.time.ahead + 64000000 ≤ 64 * (s.tick + 1) then
      let s1 := s.setTime (fun b => { b with misses := b.misses + 1, ahead := b.ahead + 1, edges := 0 })
      .next (if s.obj Obj.tbPpsMissLimit ≤ s1.time.misses ∨ !s.time.sourceOk then s1.sourceLost (s.tick + 1) else s1)
    else .next s
  | none => .next s

/-- VREF_MISS (R48): a predicted edge is missing. -/
def execVrefMiss (s : State) : Ans :=
  match s.time.lastEdge with
  | some e =>
    let den := s.obj Obj.vrefVrefDen
    if s.obj Obj.tbDiscSrc = 2 ∧ vrefPredicted s e s.time.ahead + 64 * s.obj Obj.vrefVrefTol * den < 64 * (s.tick + 1) * den then
      let s1 := s.setTime (fun b => { b with misses := b.misses + 1, ahead := b.ahead + 1, edges := 0 })
      .next (if s.obj Obj.vrefVrefMissLimit ≤ s1.time.misses ∨ !s.time.sourceOk then s1.sourceLost (s.tick + 1) else s1)
    else .next s
  | none => .next s

/-- HOST_TIMEOUT (R48): no correction for HOST_TIMEOUT ms. -/
def execHostTimeout (s : State) : Ans :=
  match s.time.lastCorr with
  | some c =>
    let ms := s.obj Obj.corrHostTimeout
    if s.obj Obj.tbDiscSrc = 4 ∧ ms ≠ 0 ∧ c + 1000000 * ms ≤ s.tick + 1 then
      .next ((s.setTime (fun b => { b with lastCorr := none })).sourceLost (s.tick + 1))
    else .next s
  | none => .next s

/-- STEP (R58): a step that waits lands at this boundary. -/
def execStep (s : State) : Ans := .next (s.doStep (s.tick + 1))

/-- The residual of a slew at a tick, sub-ticks (R59). -/
def State.residual (s : State) (t : Tick) : Nat := s.time.slewFrom.natAbs - (t - s.time.slewStart) * 64 * 50 / 1000000

/-- SLEW_END (R54, R59): the residual is within LOCK_WINDOW. -/
def execSlewEnd (s : State) : Ans :=
  if s.time.slewOffset ≠ 0 ∧ s.residual (s.tick + 1) ≤ s.obj Obj.tbLockWindow then
    let s1 := (s.setTime (fun b => { b with slewOffset := 0 })).steer
    .next (if s1.obj Obj.tbDiscState = dsSlewing then s1.setDisc dsLocked (ofTick (s.tick + 1))
      else (s1.newPoint (ofTick (s.tick + 1)) 0 false).writePoint false)
  else .next s

/-- A point of the time map stands at the boundary of a tick whose count is a multiple of TIME_MAP_INTERVAL (R45). -/
def State.mapPoint (s : State) (t : Tick) : State :=
  let n := s.obj Obj.tbTimeMapInterval
  if n ≠ 0 ∧ t % n = 0 ∧ s.time.counting then (s.newPoint (ofTick t) 0 false).writePoint false else s

/-- TIME_MAP_POINT (R16, R45): the point stands at the boundary that opens the next tick, under the interval then in force. -/
def execTimeMapPoint (s : State) : Ans := .next (if s.due.contains .point then s else s.await .point)

/-! Commands on the timebase (R51, R54, R723). -/

/-- FREQ_CORR (R48, R51). While DISC_SRC is not HOST it keeps its value and does nothing else (DESIGN CHOICE, assumption 39). -/
def State.freqCorr (s : State) (v : Nat) (t : Tick) : State :=
  let s := s.setObj Obj.corrFreqCorr v
  if s.obj Obj.tbDiscSrc = 4 then
    let s := s.setTime (fun b => { b with lastCorr := some t })
    let s := if s.time.sourceOk then s else s.qualify 0 (ofTick t)
    s.loop t
  else s

/-- PHASE_CORR (R48, R51): the value is an I64 in sub-ticks. DESIGN CHOICE (assumption 39): while DISC_SRC is not HOST, and for a slew
while the word of the holdover is held (R53, R55), it completes and does nothing. -/
def State.phaseCorr (s : State) (v : Nat) (t : Tick) : State × ObjOut :=
  let k := Obj.corrPhaseCorr
  let p := toInt 64 v
  if p = 0 then (s, emptyOut k)
  else if s.obj Obj.tbDiscSrc ≠ 4 then (s, okOut k (.num v))
  else
    let took (s : State) : State :=
      let s := s.setTime (fun b => { b with lastCorr := if b.lastCorr.isSome then some t else none })
      if s.following then s.loop t else s
    let holds := s.obj Obj.tbDiscState = dsHoldover ∨ s.obj Obj.tbDiscState = dsHeld
    if p.natAbs < 64000 ∧ holds then (took s, okOut k (.num v))
    else if p.natAbs < 64000 then
      let s := took (s.startSlew p (ofTick t)).steer
      ((s.newPoint (ofTick t) (jumpUnits p) false).writePoint false, okOut k (.num v))
    else if s.obj Obj.tbJumpPolicy = 1 then (took (s.setTime (fun b => { b with step := some (p, 2) })), okOut k (.num v))
    else (s, rejOut k)

/-- TIME_ACTION (R54, R723): 1 STEP_NOW, 2 SLEW_NOW, 3 REALIGN. DESIGN CHOICE (assumption 39): 0 is "No action, OK" in every state, as the
object's Zero column has it, though R723 calls every write outside HELD BUSY. -/
def State.timeAction (s : State) (v : Nat) (t : Tick) : State × ObjOut :=
  let k := Obj.tbTimeAction
  let j := s.int Obj.tbLastJump
  let casc := s.obj Obj.tbDiscSrc = 3
  if v = 0 then (s, okOut k (.num 0))
  else if s.obj Obj.tbDiscState ≠ dsHeld then (s, badOut k stBusy 0)
  else if v = 1 then
    if casc then (s, rejOut k)
    else ((s.setTime (fun b => { b with step := some (j, 3) })).setDisc dsLocked (ofTick t), okOut k (.num v))
  else if v = 2 then
    if 64000 ≤ j.natAbs then (s, rejOut k)
    else
      let s := (s.startSlew j (ofTick t)).setObj Obj.tbDiscState dsSlewing
      let s := ((s.newPoint (ofTick t) (jumpUnits j) false).writePoint true).steer
      (s.notify 12 0 (discDetail s dsSlewing dsHeld) t, okOut k (.num v))
  else if !casc then (s, rejOut k)
  else if s.queueList.any s.capturing then (s, badOut k stBusy 0)
  else (s.acquire t, okOut k (.num v))

/-! Cascade alignment (R61-R64). -/

/-- Is a cascade port the one that alignment is taken from? -/
def State.alignPort (s : State) (n : Nat) : Bool := s.obj Obj.tbDiscSrc = 3 && s.obj Obj.tbCascadePort = n

/-- ALIGN_WORD_SEND (R29, R30, R61, R324): every 1,024 ticks, on a 250 MHz cycle boundary, the tick count and the point in force. How long
the word occupies the port is a free value below its period. -/
def execAlignWordSend (n : Nat) (s : State) : Ans :=
  let p := s.cascPort n
  let due : Bool := (p.lastSent.map (fun x => decide (x + 1024 ≤ s.tick + 1))).getD true
  let idle : Bool := (p.lastMsg.map (fun x => decide (x + 16 ≤ s.tick + 1))).getD true
  if n < 4 ∧ p.sync ∧ (s.tick + 1) % 4 = 0 ∧ !s.alignPort n ∧ due ∧ idle ∧ s.time.counting then
    let (r, s) := s.fresh
    .next ((s.setCasc n (fun p => { p with lastSent := some (s.tick + 1), busyUntil := s.tick + 1 + r % 1024 })).emit
      (.cascade n (le 8 (s.tick + 1) ++ s.time.point.bytes)))
  else .next s

/-- The point that 32 bytes spell (R43), with SOURCE CASCADE (R64). -/
def pointOf (b : Bytes) : TimePoint :=
  { at_ := 64 * fieldAt b 0 8 + fieldAt b 8 2 % 64,
    tai := fieldAt b 10 6 * oneSecond + fieldAt b 16 4 * 2 ^ 16 + fieldAt b 20 2,
    rate := toInt 32 (fieldAt b 22 4), dstate := fieldAt b 26 1, source := 3, utc := fieldAt b 28 2,
    valid := bit (fieldAt b 30 1) 0, holdover := bit (fieldAt b 30 1) 1, stepped := bit (fieldAt b 30 1) 2,
    slew := bit (fieldAt b 30 1) 3, seq := fieldAt b 31 1 }

/-- The secondary takes the primary's mapping (R64), without TAI where the primary has none: the primary's point counts in the primary's ticks,
which once aligned are its own. -/
def State.takeMapping (s : State) (p : TimePoint) : State :=
  s.setTime (fun b =>
    if p.valid then { b with taiValid := true, rate := p.rate,
                             point := { b.point with at_ := p.at_, tai := p.tai, rate := p.rate, source := 3, valid := true } }
    else { b with taiValid := false, rate := p.rate, point := { b.point with at_ := p.at_, tai := p.tai, rate := p.rate, source := 3, valid := false } })

/-- ALIGN_WORD_RECEIVE (R48, R62-R64): a word that carried `count` arrived at `arrival` (sub-ticks). DESIGN CHOICE (assumption 39): a jump beyond
the I64 of LAST_JUMP, as where the primary has TAI and the secondary none, is kept modulo 2^64. -/
def execAlignWordReceive (n count arrival : Nat) (point : Bytes) (rtt : Nat) (s : State) : Ans :=
  if 4 ≤ n ∨ !(s.cascPort n).sync ∨ s.tick < tickOf arrival ∨ !s.time.counting then .next s
  else
    let s0 := (s.setObj (Obj.cpRtt n) (satN 32 rtt))
    if !s.alignPort n then .next s0
    else
      let err : Int := (arrival : Int) - (64 * count + s.obj (Obj.cpCableDelay n))
      let s1 := (s0.setCasc n (fun p => { p with lastWord := some s.tick })).setInt (Obj.cpPhaseErr n) (clampI (-2147483648) 2147483647 err)
      let d := s1.obj Obj.tbDiscState
      let p := pointOf point
      if d = dsAcquiring then
        let st := if s1.queueList.any s1.capturing then 4 else 2
        .next ((s1.setCasc n (fun c => { c with load := some (-err), carried := p })).alignTo n st)
      else
        let s2 := s1.alignTo n 3
        let j : Int :=
          if p.valid then ((p.taiAt (64 * count) : Int) - s1.time.taiOf (arrival - s.obj (Obj.cpCableDelay n))) / 1024 else -err
        if d = dsHoldover ∧ !s2.time.sourceOk then .next (s2.qualify j arrival)
        else if d = dsHeld then .next (s2.setInt Obj.tbLastJump j)
        else .next ((s2.loop (s.tick + 1)).takeMapping p)

/-- The change of the tick count a pending load makes, in whole ticks (R63). -/
def loadTicks (l : Int) : Int := (l + 32) / 64

/-- The load of the tick counter at the next boundary (R40, R63): none while a queue captures. -/
def State.tickLoad (s : State) : Option State :=
  let n := s.obj Obj.tbCascadePort
  let p := s.cascPort n
  match p.load with
  | none => none
  | some l =>
    if s.queueList.any s.capturing ∨ s.obj Obj.tbDiscSrc ≠ 3 then none
    else
      let s := s.shiftTicks (loadTicks l)
      let t := s.tick
      let s := (s.setCasc n (fun p => { p with load := none, lastWord := some t })).alignTo n 3
      some ((s.qualify 0 (ofTick (t + 1))).takeMapping p.carried)

/-- ALIGN_WORD_TIMEOUT (R48): no alignment word for 4,096 ticks. -/
def execAlignWordTimeout (n : Nat) (s : State) : Ans :=
  match (s.cascPort n).lastWord with
  | some w =>
    if s.alignPort n ∧ w + 4096 ≤ s.tick + 1 then
      .next (((s.setCasc n (fun p => { p with lastWord := none, load := none })).alignTo n 2).sourceLost (s.tick + 1))
    else .next s
  | none => .next s

/-- CASCADE_SYNC_LOSS (R48): a port loses 8b/10b synchronisation. -/
def execCascadeSyncLoss (n : Nat) (s : State) : Ans :=
  if n < 4 ∧ (s.cascPort n).sync then
    let s1 := s.setCasc n (fun p => { p with sync := false, lastWord := none, load := none })
    .next (if s.alignPort n then (s1.alignTo n 1).sourceLost (s.tick + 1) else s1)
  else .next s

/-- CASCADE_SYNC (R48, R61): a port gains 8b/10b synchronisation. -/
def execCascadeSync (n : Nat) (s : State) : Ans :=
  if n < 4 ∧ !(s.cascPort n).sync ∧ s.time.counting then
    let s1 := s.setCasc n (fun p => { p with sync := true, lastSent := none })
    .next (if s.alignPort n then s1.alignTo n 2 else s1)
  else .next s

/-! A commit on the timebase. -/

/-- Is a key one of TAI_AT, TAI_SEC and TAI_NS? -/
def taiKey (k : Key) : Bool := k = Obj.taiTaiAt || k = Obj.taiTaiSec || k = Obj.taiTaiNs

/-- The verdict of the timebase on one object of a commit (R65, R722). -/
def timeVerdict (old new : State) (k : Key) : Option (Nat × Nat) :=
  if k = Obj.tbDiscSrc ∧ new.obj k = 2 ∧ new.obj Obj.vrefVrefNum = 0 then some (stRejected, reRange)
  else if taiKey k ∧ new.obj Obj.taiTaiAt = 0 ∧ new.obj Obj.tbDiscSrc ≠ 1
      ∧ (old.obj Obj.taiTaiAt ≠ new.obj Obj.taiTaiAt ∨ old.obj Obj.taiTaiSec ≠ new.obj Obj.taiTaiSec ∨ old.obj Obj.taiTaiNs ≠ new.obj Obj.taiTaiNs) then
    some (stRejected, reRange)
  else none

/-- What a commit's changes of the timebase do at its boundary (R54, R722); a new UTC_OFFSET stands in every point written from then on,
the opening points of R443 among them. -/
def State.timeEffects (s old : State) (keys : List Key) (t : Tick) : State :=
  let s := if (keys.contains Obj.tbDiscSrc || keys.contains Obj.tbCascadePort) && s.obj Obj.tbDiscState != dsStarting then
      s.acquire t else s
  let s := s.setTime (fun b => { b with point := { b.point with utc := s.obj Obj.taiUtcOffset } })
  let changed (k : Key) : Bool := old.obj k != s.obj k
  if changed Obj.taiTaiAt || changed Obj.taiTaiSec || changed Obj.taiTaiNs then
    if s.obj Obj.taiTaiAt = 0 then s.setTime (fun b => { b with taiWaits := true })
    else s.taiWrite (ofTimeVal (s.obj Obj.taiTaiAt)) t
  else s

/-- The timebase objects that are computed when read. -/
def timeView (s : State) (k : Key) : Option Nat :=
  if k = Obj.tbTickNow then some (timeVal (ofTick s.tick))
  else if k = Obj.tbHoldoverTicks then
    some (if s.obj Obj.tbDiscState = dsHoldover ∨ s.obj Obj.tbDiscState = dsHeld then s.tick - s.time.holdSince else 0)
  else none

end Sys2Proof.Machine
end

