-- ==== Sys2Proof/Machine/Synth.lean ====
section
/-! DEFINITION. Clock synthesis and clock outputs (R66-R95): frequency words, the VCO band table, the modulator, relocks
and glides, Picot steps, starting and stopping the outputs. Synthesisers are numbered SYN-T 0, SYN-L 1, SYN-O0 to SYN-O3 2 to 5. -/

namespace Sys2Proof.Machine

/-- A synthesiser's state. -/
def State.synth (s : State) (i : Nat) : Synth := s.syn.getD i {}

/-- Change a synthesiser. -/
def State.setSynth (s : State) (i : Nat) (f : Synth → Synth) : State := { s with syn := s.syn.put i {} (f (s.synth i)) }

/-- The objects of a synthesiser: word, LOCKED, BAND, DITHER_EN, DITHER_SEED. -/
def synWordKey (i : Nat) : Key := if i = 0 then Obj.synTSynWord else if i = 1 then Obj.synLSynWord else Obj.synOSynWord (i - 2)

/-- LOCKED of a synthesiser. -/
def synLockedKey (i : Nat) : Key := if i = 0 then Obj.synTLocked else if i = 1 then Obj.synLLocked else Obj.synOLocked (i - 2)

/-- BAND of a synthesiser. -/
def synBandKey (i : Nat) : Key := if i = 0 then Obj.synTBand else if i = 1 then Obj.synLBand else Obj.synOBand (i - 2)

/-- DITHER_EN of a synthesiser. -/
def synDitherKey (i : Nat) : Key := if i = 0 then Obj.synTDitherEn else if i = 1 then Obj.synLDitherEn else Obj.synODitherEn (i - 2)

/-- DITHER_SEED of a synthesiser. -/
def synSeedKey (i : Nat) : Key := if i = 0 then Obj.synTDitherSeed else if i = 1 then Obj.synLDitherSeed else Obj.synODitherSeed (i - 2)

/-- Fields of a SYN_WORD (R67). -/
def wordD (w : Nat) : Nat := bits w 61 48
/-- Reference divider. -/
def wordP (w : Nat) : Nat := bits w 47 43
/-- Integer feedback ratio. -/
def wordN (w : Nat) : Nat := bits w 42 32
/-- Feedback ratio in units of 2^-32. -/
def wordRatio (w : Nat) : Nat := bits w 42 0

/-- Put a SYN_WORD together. -/
def mkWord (d p n f : Nat) : Nat := d * 2 ^ 48 + p * 2 ^ 43 + n * 2 ^ 32 + f

/-- The REFCLK frequency in force, hertz. -/
def State.fref (s : State) : Nat := refHz (s.obj Obj.refRefclkClass)

/-- f_vco as a numerator over P x 2^32 hertz (R66). -/
def vcoNum (fref w : Nat) : Nat := fref * wordRatio w

/-- The band R71 selects for a word: the largest margin, the lower code on a tie; none where no band contains f_vco. -/
def State.selectBand (s : State) (w : Nat) : Option Nat :=
  let num := vcoNum s.fref w
  let den := wordP w * 2 ^ 32 * 1000
  let best := (below 64).foldl (fun (best : Option (Nat × Nat)) k =>
    let e := s.obj (Obj.bandBandEntry k)
    let lo := bits e 31 0 * den
    let hi := bits e 63 32 * den
    if e = 0 ∨ wordP w = 0 ∨ num < lo ∨ hi < num then best
    else
      let m := min (num - lo) (hi - num)
      match best with
      | some (_, b) => if b < m then some (k, m) else best
      | none => some (k, m)) none
  best.map (·.1)

/-- The output range of a synthesiser, hertz (R69). -/
def outRange (i : Nat) : Nat × Nat := if i = 1 then (100000000, 625000000) else (1000000, 1600000000)

/-- The check of a written SYN_WORD (R68): the word as clamped, its report, and whether f_vco is in 8-12 GHz with a band. -/
def State.checkWord (s : State) (i : Nat) (k : Key) (w : Nat) : Nat × List RepEntry × Bool :=
  let fref := s.fref
  let top := bits w 63 62
  let r0 := if top ≠ 0 then [clampField k rpCleared 63 62 w 0] else []
  let p0 := wordP w
  let p1 := clampN 1 16 p0
  let pmax := fref / 10000000
  let p := if 1 ≤ pmax ∧ pmax < p1 then pmax else p1
  let rp := if p = p0 then [] else [clampField k (if p < p0 then rpLowered else rpRaised) 47 43 p0 p]
  let n0 := wordN w
  let n := clampN 48 1200 n0
  let rn := if n = n0 then [] else [clampField k (if n < n0 then rpLowered else rpRaised) 42 32 n0 n]
  let f := bits w 31 0
  let num := fref * (n * 2 ^ 32 + f)
  let den := p * 2 ^ 32
  let (lo, hi) := outRange i
  let d0 := wordD w
  let dmin := max 2 (ceilDiv num (hi * den))
  let dmax := min 16383 (num / (lo * den))
  let d := clampN dmin dmax (clampN 2 16383 d0)
  let rd := if d = d0 then [] else [clampField k (if d < d0 then rpLowered else rpRaised) 61 48 d0 d]
  let w' := mkWord d p n f
  let inBand := 8000000000 * den ≤ num && num ≤ 12000000000 * den && (s.selectBand w').isSome
  (w', r0 ++ rp ++ rn ++ rd, inBand)

/-- Is a new word a glide of the old one (R77)? -/
def State.isGlide (s : State) (i old new : Nat) : Bool :=
  let a := wordRatio old
  let b := wordRatio new
  wordP old == wordP new && wordD old == wordD new && old != 0
    && s.selectBand new == some (s.obj (synBandKey i))
    && ((b : Int) - a).natAbs * 1000000 ≤ 1000 * a

/-- One phase-detector cycle of a synthesiser (R75, R76). -/
def pfdCycle (x : Synth) (dither : Bool) (w : Nat) : Synth :=
  let v := x.lfsr
  let d := if dither then v % 2 else 0
  let nb := (bits v 0 0 + bits v 10 10 + bits v 30 30 + bits v 31 31) % 2
  let inp := bits w 31 0 + d
  let a1 : Nat := x.acc1 + inp
  let c1 : Nat := a1 / 2 ^ 32
  let a2 : Nat := x.acc2 + a1 % 2 ^ 32
  let c2 : Nat := a2 / 2 ^ 32
  let a3 : Nat := x.acc3 + a2 % 2 ^ 32
  let c3 : Nat := a3 / 2 ^ 32
  let y : Int := (c1 : Int) + ((c2 : Int) - x.c2p) + ((c3 : Int) - 2 * x.c3p + x.c3pp)
  { x with lfsr := v / 2 + nb * 2 ^ 31, acc1 := a1 % 2 ^ 32, acc2 := a2 % 2 ^ 32, acc3 := a3 % 2 ^ 32, c2p := c2, c3p := c3, c3pp := x.c3p,
           divide := ((wordN w : Int) + y).toNat }

/-- A phase-detector cycle in the engine; the cycles of a relock are counted (R79). -/
def State.pfd (s : State) (i : Nat) : State :=
  if s.obj (synWordKey i) = 0 ∨ 6 ≤ i ∨ (s.synth i).frozen then s
  else s.setSynth i (fun x => { pfdCycle x (s.flag (synDitherKey i)) (s.obj (synWordKey i)) with
                                  cycles := if x.relockAt.isSome then x.cycles + 1 else x.cycles })

/-- Cycles of REFCLK in one tick, as SYN-T divides and multiplies it (R66, R91), and the fraction of one carried over: both clocks follow
REFCLK, so its frequency does not matter. -/
def State.cycStep (s : State) : Nat × Nat × Nat :=
  let w := s.obj Obj.synTSynWord
  let den := wordRatio w
  if !s.time.refclk ∨ den = 0 then (s.time.cyc, s.time.cycRem, s.time.cycDen)
  else
    let acc := (if s.time.cycDen = den then s.time.cycRem else s.time.cycRem * den / s.time.cycDen) + wordD w * wordP w * 2 ^ 32
    (s.time.cyc + acc / den, acc % den, den)

/-- The whole cycles of REFCLK that have passed by the boundary that ends the open tick. -/
def State.refCyc (s : State) : Nat := s.cycStep.1

/-- The open tick's cycles of REFCLK are counted. -/
def State.countCyc (s : State) : State :=
  s.setTime (fun b => { b with cyc := s.cycStep.1, cycRem := s.cycStep.2.1, cycDen := s.cycStep.2.2 })

/-! The outputs (R70, R80-R82, R86-R89). -/

/-- The gate stands as the output's starts, stops and holds ask, from boundary b on: an opening gate releases the divider from reset (R87),
a closing one lets the high phase in progress end (R88). -/
def Synth.gateTo (x : Synth) (b : Tick) : Synth :=
  let want := x.on && !x.hold
  if want && !x.gate then { x with gate := true, run := true, since := b, shut := none, phase := 0, rem := 0, owe := 0 }
  else if !want && x.gate then { x with gate := false, shut := some b }
  else x

/-- From boundary t + 3 on, or at once where its gate is closed, an output is held closed (R80, R82). -/
def Synth.holdFrom (x : Synth) (t : Tick) : Synth :=
  if x.gate then { x with holdAt := some (min (x.holdAt.getD (t + 3)) (t + 3)) } else { x with hold := true }

/-- The output divider in the tick that opens at u, which lasts num / den 128ths of a VCO period longer than the last (R70): an even D is high
for D / 2 VCO periods and low for D / 2, an odd D high for (D + 1) / 2. Rising edges from the gate's closing on are suppressed (R88), also the first one where the gate opens and closes at one
boundary. -/
def Synth.advance (x : Synth) (num den : Nat) (u : Tick) : Synth :=
  let d := wordD x.inUse
  if !x.run ∨ den = 0 then x
  else if u ≤ x.since then { x with phase := 0, rem := 0, den := den, level := x.gate, run := x.gate }
  else
    let acc := (if x.den = den then x.rem else x.rem * den / x.den) + num
    let total := ((x.phase + acc / den : Nat) + x.owe).toNat
    let high := 128 * ((d + 1) / 2)
    let p := total % (128 * d)
    let rose : Bool := 128 * d ≤ total && p = 0 && acc % den = 0
    if x.gate || x.shut.any (u ≤ ·) then
      let level : Bool := p < high && (x.gate || !rose)
      { x with phase := p, rem := acc % den, den := den, owe := 0, level := level, run := x.gate || level }
    else if total < high then { x with phase := total, rem := acc % den, den := den, owe := 0 }
    else { x with run := false, level := false, phase := 0, rem := 0, owe := 0 }

/-- What a tick adds to a divider that runs by a word at a ratio: both clocks follow REFCLK, so its frequency does not matter (R66). -/
def State.tickSpan (s : State) (w ratio : Nat) : Nat × Nat :=
  let t := s.obj Obj.synTSynWord
  (128 * wordD t * wordP t * ratio, wordP w * wordRatio t)

/-- A value between two bounds, the n-th free one. -/
def within (lo hi n : Nat) : Nat := lo + Config.freeNat n % (hi + 1 - lo)

/-- What a tick adds to a divider while its VCO is in relock or frozen: in CONTINUOUS mode the fence of R81 keeps every output period at or
above 1 / ((1 + 200 ppm) max f) and at or below 2 / min f; elsewhere the VCO lies somewhere in its range of R66. A free value. -/
def State.looseSpan (s : State) (x : Synth) (n : Nat) : Nat :=
  let (a, b) := s.tickSpan x.was (wordRatio x.was)
  let (c, e) := s.tickSpan x.inUse x.ratio
  let d := wordD x.inUse
  let b := b * wordD x.was
  let e := e * d
  if x.relockAt.isSome ∧ x.gate ∧ !x.holdAt.isSome ∧ b ≠ 0 ∧ e ≠ 0 then
    let most := max (a * d * 5001 / (5000 * b)) (c * d * 5001 / (5000 * e))
    let least := min (ceilDiv (a * d) (2 * b)) (ceilDiv (c * d) (2 * e))
    within least (max least most) n
  else within 1024 1536 n

/-- A glide in tick u (R78): the ratio moves towards that of the word, and stands there 50 us after the commit. -/
def Synth.glide (x : Synth) (u : Tick) (n : Nat) : Synth :=
  let w := wordRatio x.inUse
  if x.glideEnd ≤ u then { x with ratio := w }
  else if x.ratio ≤ w then { x with ratio := within x.ratio w n }
  else { x with ratio := within w x.ratio n }

/-- The output of a synthesiser in tick u; SYN-L, whose output has no rows of its own, is also held and restarted here (R80, R83). -/
def State.clockOut (s : State) (u : Tick) (i : Nat) : State :=
  let x := s.synth i
  if !x.run ∧ !x.hold then s
  else
    let x := if i ≠ 1 then x
      else
        let x := if x.holdAt.any (· ≤ u) then { x with hold := true, holdAt := none } else x
        let ends : Bool := x.lockedAt.any (fun l => l + 1024 ≤ s.time.cyc)
        (if ends then { x with hold := false } else x).gateTo u
    let x := x.glide u s.free
    let loose := x.relockAt.isSome || x.frozen
    let (num, den) := if loose then (s.looseSpan x (s.free + 1), 1) else s.tickSpan x.inUse x.ratio
    { s.setSynth i (fun _ => x.advance num den u) with free := s.free + 2 }

/-- The synthesisers' outputs in tick u. -/
def State.clocksTick (s : State) (u : Tick) : State := [1, 2, 3, 4, 5].foldl (fun s i => s.clockOut u i) s

/-- STATE of an output (R94). The table names its values only; DESIGN CHOICE (assumption 48): LOCKING from a relock's start to its lock, RUNNING
while the gate is open, GATED while a started output waits for its restart, STOPPED else. -/
def Synth.shown (x : Synth) (word : Nat) : Nat :=
  if word = 0 then 0 else if x.relockAt.isSome then 1 else if x.gate then 2 else if x.hold && x.on then 3 else 4

/-- STATE follows. -/
def State.showSyn (s : State) (n : Nat) : State :=
  s.setObj (Obj.synOState n) ((s.synth (n + 2)).shown (s.obj (Obj.synOSynWord n)))

/-- Start a relock at the boundary of tick T (R74, R76, R79, R80, R85). DESIGN CHOICE (assumption 48): where no band of the table contains
f_vco any more, the synthesiser keeps its BAND and goes on. -/
def State.relock (s : State) (i : Nat) (t : Tick) (gated : Bool) : State :=
  let w := s.obj (synWordKey i)
  let s := s.setObj (synBandKey i) ((s.selectBand w).getD (s.obj (synBandKey i)))
  let s := s.setObj (synLockedKey i) 0
  let s := s.setSynth i (fun x =>
    let x := { x with relockAt := some t, cycles := 0, lockedAt := none, frozen := false, was := x.inUse, inUse := w, ratio := wordRatio w,
                      phase := if x.inUse = 0 then 0 else x.phase * wordD w / wordD x.inUse, on := x.on || i = 1,
                      lfsr := max 1 (s.obj (synSeedKey i)), acc1 := 0, acc2 := 0, acc3 := 0, c2p := 0, c3p := 0, c3pp := 0 }
    if gated then x.holdFrom t else x)
  if i < 2 then s
  else
    let n := i - 2
    let pend := (s.int (Obj.synOPicotPending n)).natAbs
    ((s.bump (Obj.synOPicotDiscarded n) pend).setObj (Obj.synOPicotPending n) 0).showSyn n

/-- What a commit does to the synthesisers at its boundary (R76-R83, R87, R88, R95). DESIGN CHOICE (assumption 48): a committed word equal to
the one in force is no new word and does nothing, also where the table would now select another band; a relock of an output that was powered
down restarts it as a gated one; a DITHER_SEED that a commit carries is loaded though it equal the one in force (R76); the sub-tick of
START_AT and STOP_AT is dropped: their boundary is that of their tick (R87, R88). -/
def State.synEffects (s old : State) (keys : List Key) (t : Tick) : State :=
  (below 6).foldl (fun s i =>
    let wk := synWordKey i
    let s := if keys.contains (synSeedKey i) then s.setSynth i (fun x => { x with lfsr := max 1 (s.obj (synSeedKey i)) }) else s
    let w0 := old.obj wk
    let w := s.obj wk
    let relocks : Bool := keys.contains wk && w != 0 && w != w0 && !old.isGlide i w0 w
    let gatedMode : Bool := if i < 2 then true else s.obj (Obj.synORelockMode (i - 2)) = 0
    let s :=
      if !keys.contains wk || w = w0 then s
      else if w = 0 then
        let s := s.setObjs [(synLockedKey i, 0), (synBandKey i, 0xFF)]
        let s := s.setSynth i (fun x => { x with relockAt := none, lockedAt := none }.holdFrom t)
        if i < 2 then s else s.showSyn (i - 2)
      else if relocks then s.relock i t (gatedMode || w0 = 0)
      else s.setSynth i (fun x => { x with inUse := w, glideEnd := t + 50000 })
    if i < 2 then s
    else
      let n := i - 2
      let en := s.flag (Obj.synOOutEnable n)
      if en = old.flag (Obj.synOOutEnable n) then s
      else if en then
        let at_ := cut 64 (s.obj (Obj.synOStartAt n))
        s.setSynth i (fun x => { x with opens := x.opens ++ [max at_ t + 3] })
      else
        let at_ := cut 64 (s.obj (Obj.synOStopAt n))
        let c := if relocks && gatedMode then t + 3 else max at_ t + 3
        s.setSynth i (fun x => { x with closes := x.closes ++ [c] })) s

/-- Is a memory channel trained, as its TRAIN_STATE reads (R408)? -/
def State.trained (s : State) (m : Nat) : Bool :=
  bit (s.obj Obj.cmmChannelMask) m && s.obj Obj.cmmChannelMask = s.cmm.trainMask && s.obj (Obj.mcTrainState m) = 3

/-- The verdict on synthesiser words and start times at a commit (R68, R83). -/
def synVerdict (old new : State) (k : Key) : Option (Nat × Nat) :=
  if k = Obj.synLSynWord then
    let anyLane := (below 32).any (fun n => old.flag (Obj.laneEnable n))
    let anyMem := (below 12).any old.trained
    if anyLane || anyMem then some (stBusy, 0)
    else if (old.checkWord 1 k (new.obj k)).2.2 then none else some (stRejected, reNoBand)
  else if 0x2204 ≤ k / 256 ∧ k / 256 < 0x2208 ∧ k % 256 = 1 then
    if new.obj k = 0 ∨ (old.checkWord (k / 256 - 0x2204 + 2) k (new.obj k)).2.2 then none else some (stRejected, reNoBand)
  else none

/-- A START_AT or STOP_AT earlier than the commit tick is replaced by it where the commit starts or stops the output (R87, R88): the value
then in force. DESIGN CHOICE (assumption 48): the sub-tick counts for nothing in 'earlier', and a STOP_AT of the past is replaced and reported
also where R95 does not use it. -/
def replaceTime (old new : State) (k : Key) (t : Tick) : Option Nat :=
  let n := k / 256 - 0x2204
  let v := new.obj k
  let was := old.flag (Obj.synOOutEnable n)
  let is_ := new.flag (Obj.synOOutEnable n)
  if ((k = Obj.synOStartAt n ∧ !was ∧ is_) ∨ (k = Obj.synOStopAt n ∧ was ∧ !is_)) ∧ v ≠ 0 ∧ cut 64 v < t then some (timeVal (ofTick t)) else none

/-- A written band-table entry (R72): each field clamped; none where it is refused. -/
def checkBand (k : Key) (v : Nat) : Option (Nat × List RepEntry) :=
  if v = 0 then some (0, [])
  else
    let lo := clampN 8000000 12000000 (bits v 31 0)
    let hi := clampN 8000000 12000000 (bits v 63 32)
    let r (a b x y : Nat) : List RepEntry := if x = y then [] else [clampField k (if y < x then rpLowered else rpRaised) a b x y]
    if hi ≤ lo then none else some (lo + 2 ^ 32 * hi, r 31 0 (bits v 31 0) lo ++ r 63 32 (bits v 63 32) hi)

/-- PICOT_STEPS (R85): the value is an I32. -/
def State.picotWrite (s : State) (n v : Nat) : State × ObjOut :=
  let k := Obj.synOPicotSteps n
  let x := toInt 32 v
  if x = 0 then (s, emptyOut k)
  else
    let sum := s.int (Obj.synOPicotPending n) + x
    let c := clampI (-1048576) 1048576 sum
    (s.setInt (Obj.synOPicotPending n) c,
      clampedOut k (.num v) (if c = sum then [] else [clampEntry k (if c < sum then rpLowered else rpRaised) 32 v (ofInt 32 (x + (c - sum)))]))

/-! Events. -/

/-- PICOT_STEP (R86): one step every PICOT_INTERVAL cycles of REFCLK delays the output phase by 1/128 of a VCO period, or advances it, in the
one output period it lands in. A step is due PICOT_INTERVAL cycles after the last one was, so that their spacing keeps to the cycles though
each lands at a tick boundary; after a time without steps the next counts from the cycle it is taken at. -/
def execPicotStep (n : Nat) (s : State) : Ans :=
  let p := s.int (Obj.synOPicotPending n)
  let x := s.synth (n + 2)
  let iv := s.obj (Obj.synOPicotInterval n)
  if n < 4 ∧ p ≠ 0 ∧ s.time.refclk ∧ x.lastStep + iv ≤ s.refCyc then
    let e : Int := if 0 < p then -1 else 1
    let due := if s.refCyc < x.lastStep + 2 * iv then x.lastStep + iv else s.refCyc
    .next ((s.setInt (Obj.synOPicotPending n) (p + e)).setSynth (n + 2) (fun x => { x with lastStep := due, owe := x.owe + e }))
  else .next s

/-- SYN_LOCK (R79): 256 phase-detector cycles at least have passed since a relock began, and the last 256 of them were clean. -/
def execSynLock (i : Nat) (s : State) : Ans :=
  let x := s.synth i
  if 6 ≤ i ∨ x.relockAt.isNone ∨ x.cycles < 256 ∨ !s.time.refclk ∨ s.obj (synWordKey i) = 0 then .next s
  else
    let s1 := (s.setObj (synLockedKey i) 1).setSynth i (fun x => { x with relockAt := none, lockedAt := some s.refCyc })
    .next (if i < 2 then s1 else s1.showSyn (i - 2))

/-- CLKOUT_RESTART (R80): 1,024 cycles of REFCLK after lock a gated output restarts. -/
def execClkoutRestart (n : Nat) (s : State) : Ans :=
  let x := s.synth (n + 2)
  if n < 4 ∧ x.hold ∧ x.lockedAt.any (fun l => l + 1024 ≤ s.refCyc) then
    .next ((s.setSynth (n + 2) (fun x => { x with hold := false }.gateTo (s.tick + 1))).showSyn n)
  else .next s

/-- CLKOUT_START (R87, R89): the gate opens at its boundary, or at the restart of R80 where that is later. -/
def execClkoutStart (n : Nat) (s : State) : Ans :=
  let b := s.tick + 1
  if n < 4 ∧ (s.synth (n + 2)).opens.any (· ≤ b) then
    .next ((s.setSynth (n + 2) (fun x => { x with on := true, opens := x.opens.filter (b < ·) }.gateTo b)).showSyn n)
  else .next s

/-- CLKOUT_STOP (R80, R82, R88): the gate closes at its boundary, for a stop or for the hold of a gated relock. -/
def execClkoutStop (n : Nat) (s : State) : Ans :=
  let b := s.tick + 1
  let x := s.synth (n + 2)
  if n < 4 ∧ (x.closes.any (· ≤ b) ∨ x.holdAt.any (· ≤ b)) then
    .next ((s.setSynth (n + 2) (fun x =>
      { x with on := x.on && !x.closes.any (· ≤ b), closes := x.closes.filter (b < ·),
               hold := x.hold || x.holdAt.any (· ≤ b), holdAt := if x.holdAt.any (· ≤ b) then none else x.holdAt }.gateTo b)).showSyn n)
  else .next s

/-- REFCLK_LOSS (R48, R49, R84, R92). -/
def execRefclkLoss (s : State) : Ans :=
  if !s.time.refclk then .next s
  else
    let s1 := s.setTime (fun b => { b with refclk := false })
    let s2 := (below 6).foldl (fun s i =>
      if s.obj (synWordKey i) = 0 then s
      else (s.setObj (synLockedKey i) 0).setSynth i (fun x => { x with frozen := true, lockedAt := none })) s1
    .next (s2.sourceLost (s.tick + 1))

/-- REFCLK_RETURN (R84, R92): REFCLK has been present and in range for 1 ms. -/
def execRefclkReturn (s : State) : Ans :=
  if s.time.refclk ∨ s.obj Obj.refRefclkClass = 0 then .next s
  else
    let t := s.tick + 1
    let s1 := (s.setTime (fun b => { b with refclk := true })).setObj Obj.synTLocked 1
    let s2 := s1.setSynth 0 (fun x => { x with frozen := false })
    let s3 := [1, 2, 3, 4, 5].foldl (fun s i =>
      if s.obj (synWordKey i) = 0 then s
      else s.relock i t (i = 1 || s.obj (Obj.synORelockMode (i - 2)) = 0)) s2
    .next (if s3.obj Obj.tbDiscSrc = 0 ∧ s3.time.counting then s3.qualify 0 (ofTick t) else s3)

/-- The class of a REFCLK frequency: within 5 per cent of one of R90. -/
def classify (hz : Nat) : Nat :=
  ([1, 2, 3, 4, 5].find? (fun c => refHz c * 95 ≤ hz * 100 ∧ hz * 100 ≤ refHz c * 105)).getD 0

/-- REFCLK_CLASSIFY (R71, R74, R90): REFCLK is counted in the power-up sequence and SYN-T and SYN-L are set. -/
def execRefclkClassify (hertz : Nat) (s : State) : Ans :=
  if s.obj Obj.devDevState ≠ 0 ∨ s.time.counting then .next s
  else
    let c := classify hertz
    let s1 := s.setObj Obj.refRefclkClass c
    if c = 0 then .next (s1.setTime (fun b => { b with refclk := false }))
    else
      let s2 := s1.setObjs [(Obj.synTSynWord, mkWord 10 1 (refRatio c) 0), (Obj.synLSynWord, mkWord 64 1 (refRatio c) 0)]
      .next (((s2.setTime (fun b => { b with refclk := true })).relock 0 (s.tick + 1) true).relock 1 (s.tick + 1) true)

end Sys2Proof.Machine
end

