-- ==== Sys2Proof/Machine/Lc.lean ====
section
/-! DEFINITION. Logic channels and window monitors (R96-R132): thresholds, comparator start, the majority filter, edge
times, window states, edge FIFOs, sampled mode and the sticky flags. -/

namespace Sys2Proof.Machine

/-- A channel's state. -/
def State.chan (s : State) (n : Nat) : Channel := s.chans.getD n {}

/-- Give a channel its state. -/
def State.setChan (s : State) (n : Nat) (c : Channel) : State := { s with chans := s.chans.put n {} c }

/-- Threshold voltage of a code, microvolts (R98). -/
def codeMicro (k : Nat) : Int := -1000000 + 1250 * (k : Int)

/-- The trip points of a comparator, upper and lower, microvolts (R99). -/
def trips (k h : Nat) : Int × Int := (codeMicro k + 625 * h, codeMicro k - 625 * h)

/-- The output of a comparator for a level, from its last output; a code above 4,000 leaves it low (R98, R99). -/
def compare (k h : Nat) (old : Bool) (v : Int) : Bool :=
  let (hi, lo) := trips k h
  if 4000 < k then false else if hi < v then true else if v < lo then false else old

/-- THR and HYST of a comparator of a channel. -/
def State.thr (s : State) (n : Nat) (lower : Bool) : Nat × Nat :=
  if lower then (s.obj (Obj.lcThrLo n), s.obj (Obj.lcHystLo n)) else (s.obj (Obj.lcThrHi n), s.obj (Obj.lcHystHi n))

/-- Group of a channel (R96). -/
def groupOf (n : Nat) : Nat := n / 16

/-- The window state of R102 from the two comparators. -/
def windowState (window : Bool) (up lo : Comp) : Nat :=
  if !up.known then 2 else if up.f then 3 else if !window then 0 else if !lo.known then 2 else if lo.f then 1 else 0

/-- FILTER_N of a channel. -/
def State.filterN (s : State) (n : Nat) : Nat := s.obj (Obj.lcFilterN n)

/-- FILTER_T in force; zero means a simple majority (R107). -/
def State.filterT (s : State) (n : Nat) : Nat :=
  let t := s.obj (Obj.lcFilterT n)
  if t = 0 then (s.filterN n + 1) / 2 else t

/-- The least width w of an accepted level (R108). -/
def State.minWidth (s : State) (n : Nat) : Nat :=
  if s.obj (Obj.lgStoreMode (groupOf n)) = 1 then 1 else if s.obj (Obj.lcWinMode n) = 1 then 4 else 2

/-- The pipeline of R117 in ticks. -/
def State.lcDelay (s : State) (n : Nat) : Nat := 6 + ceilDiv (s.filterN n + s.minWidth n - 2) 4

/-- A comparator made known with a level: the filter window fills with it (R104-R106). -/
def Comp.know (c : Comp) (n : Nat) (level : Bool) : Comp :=
  { c with known := true, settled := true, raw := level, f := level, hist := List.replicate n (level, none), run := 0, away := false,
           last0 := none, last1 := none }

/-- A comparator starts at a boundary (R103). -/
def Comp.start (c : Comp) (t : Tick) : Comp :=
  { c with known := false, settled := false, settleAt := t + 64, hist := [], run := 0, away := false, last0 := none, last1 := none }

/-- What one sub-sample of the filter gives. -/
structure FilterOut where
  comp : Comp
  edge : Option (Bool × SubTime)
  glitches : Nat

/-- The majority filter of R109 for one sub-sample: raw output, the time of a raw change in the slot, start of the slot. -/
def filterStep (n thr w : Nat) (c : Comp) (raw : Bool) (xt : Option SubTime) (slotStart : SubTime) : FilterOut :=
  let hist := ((raw, xt) :: c.hist).take n
  let new := !c.f
  let held : Bool := thr ≤ (hist.filter (fun e => e.1 == new)).length
  let last (b : Bool) : Option SubTime := if b then c.last1 else c.last0
  let put (c : Comp) : Comp := match xt with
    | some x => if raw then { c with last1 := some x } else { c with last0 := some x }
    | none => c
  let c := { c with hist := hist, raw := raw }
  if held then
    let etime := if c.run = 0 then
        match (hist.reverse.find? (fun e => e.1 == new && e.2.isSome)).bind (·.2) with
        | some x => x
        | none => (last new).getD slotStart
      else c.etime
    if w ≤ c.run + 1 then ⟨put { c with f := new, run := 0, away := false, etime := etime }, some (new, etime), 0⟩
    else ⟨put { c with run := c.run + 1, etime := etime }, none, 0⟩
  else
    let g1 := if 0 < c.run then 1 else 0
    let away := c.away || raw != c.f
    if away && hist.all (fun e => e.1 == c.f) then ⟨put { c with run := 0, away := false }, none, g1 + 1⟩
    else ⟨put { c with run := 0, away := away }, none, g1⟩

/-- The input a channel's comparators see in a tick: the level before it and the changes in it (R127, R128). -/
def State.lcInput (s : State) (waves : Tab (List (Nat × Int))) (n : Nat) (u : Tick) : Int × List (Nat × Int) :=
  let g := groupOf n
  let vcal := codeMicro (s.obj (Obj.lgVcal g))
  match s.obj (Obj.lcTie n) with
  | 1 => (0, [])
  | 2 => (vcal, [])
  | 3 =>
    -- the factory measures TOGGLE_OFFSET on the recorded edge, from which R115 has taken the path delay
    let off := s.obj (Obj.lgToggleOffset g) + s.otp.pathDelay.getD n 0
    let level (x : Nat) : Int := if (64 * u + x + 256 * 2 - off % 256) % 256 < 128 then vcal else 0
    let before : Int := if (64 * u + 256 * 2 - 1 - off % 256) % 256 < 128 then vcal else 0
    (before, ((below 64).filter (fun x => (64 * u + x + 256 * 2 - off % 256) % 128 = 0)).map (fun x => (x, level x)))
  | _ =>
    let m := if bit (s.obj (Obj.lgSwapMask g)) (n % 16 / 2) then (if n % 2 = 0 then n + 1 else n - 1) else n
    ((s.chan m).ball, waves.getD m [])

/-- What one slot of one comparator gives. -/
structure SlotOut where
  comp : Comp
  edge : Option (Bool × SubTime)
  glitches : Nat
  /-- A STATE_EST of reason EXIT: level and sub-tick. -/
  exit : Option (Bool × Nat)

/-- One slot of one comparator: its input changes, its raw output, its start and its filter (R99, R105, R109, R114). DESIGN CHOICE
(assumption 29): of several raw changes in one slot the last gives xt, and raw is the level after it, also where it ends as it began. -/
def compSlot (k h n thr w : Nat) (u : Tick) (slot : Nat) (level : Int) (changes : List (Nat × Int)) (c : Comp) : SlotOut :=
  let here := changes.filter (fun e => e.1 / 16 = slot)
  let (hi, lo) := trips k h
  let walk (c : Comp) (start : Int) (l : List (Nat × Int)) : Comp × Option SubTime :=
    let c0 := { c with raw := compare k h c.raw start }
    l.foldl (fun (a : Comp × Option SubTime) e =>
      let r := compare k h a.1.raw e.2
      if r = a.1.raw then a else ({ a.1 with raw := r }, some (64 * u + e.1))) (c0, none)
  if !c.known then
    if !c.settled then ⟨(walk c level here).1, none, 0, none⟩
    else
      match (if slot = 0 ∧ here = [] then (0, level) :: here else here).find? (fun e => hi < e.2 || e.2 < lo) with
      | none => ⟨c, none, 0, none⟩
      | some e =>
        let lv : Bool := hi < e.2 && k ≤ 4000
        let (c1, xt) := walk (c.know n lv) e.2 (here.filter (fun x => e.1 < x.1))
        let r := filterStep n thr w c1 c1.raw xt (64 * u + 16 * slot)
        ⟨r.comp, r.edge, r.glitches, some (lv, e.1)⟩
  else
    let (c1, xt) := walk c level here
    let r := filterStep n thr w c1 c1.raw xt (64 * u + 16 * slot)
    ⟨r.comp, r.edge, r.glitches, none⟩

/-- What a tick of one channel gives before it is stored. -/
structure ChanTick where
  up : Comp
  lo : Comp
  /-- Accepted edges: slot, lower, level, raw crossing time. -/
  edges : List (Nat × Bool × Bool × SubTime) := []
  states : List Nat := []
  /-- Filtered levels as SAMPLE_SRC delivers them, by slot. -/
  samples : List Bool := []
  glitches : Nat := 0
  /-- STATE_EST of reason EXIT: lower, level, sub-tick, state. -/
  exits : List (Bool × Bool × Nat × Nat) := []
  ovr : Bool := false

/-- One slot of a channel. -/
def State.chanSlot (s : State) (n : Nat) (u : Tick) (input : Int × List (Nat × Int)) (a : ChanTick) (slot : Nat) : ChanTick :=
  let window : Bool := s.obj (Obj.lcWinMode n) = 1
  let level := ((input.2.filter (fun e => e.1 < 16 * slot)).getLast?.map (·.2)).getD input.1
  let fin := ((input.2.filter (fun e => e.1 < 16 * slot + 16)).getLast?.map (·.2)).getD input.1
  let ovr := a.ovr || fin < -1050000 || 4050000 < fin
  if !s.flag (Obj.lcEnable n) then { a with ovr := ovr, states := a.states ++ [2], samples := a.samples ++ [false] }
  else
    let fn := s.filterN n
    let ft := s.filterT n
    let w := s.minWidth n
    let (ku, hu) := s.thr n false
    let (kl, hl) := s.thr n true
    let ru := compSlot ku hu fn ft w u slot level input.2 a.up
    let rl : SlotOut := if window then compSlot kl hl fn ft w u slot level input.2 a.lo else ⟨a.lo, none, 0, none⟩
    let st := windowState window ru.comp rl.comp
    let src := if window then s.obj (Obj.lcSampleSrc n) else 0
    let sample : Bool := if src = 0 then ru.comp.known && ru.comp.f else if src = 1 then rl.comp.known && rl.comp.f else st == 1
    let edge (lower : Bool) (e : Option (Bool × SubTime)) : List (Nat × Bool × Bool × SubTime) :=
      (e.map (fun x => (slot, lower, x.1, x.2))).toList
    let exit (lower : Bool) (e : Option (Bool × Nat)) : List (Bool × Bool × Nat × Nat) := (e.map (fun x => (lower, x.1, x.2, st))).toList
    { up := ru.comp, lo := rl.comp, edges := a.edges ++ edge false ru.edge ++ edge true rl.edge, states := a.states ++ [st],
      samples := a.samples ++ [sample], glitches := a.glitches + ru.glitches + rl.glitches,
      exits := a.exits ++ exit false ru.exit ++ exit true rl.exit, ovr := ovr }

/-- Does edge a stand before edge b (R113)? -/
def edgeBefore (a b : Nat × Bool × Bool × SubTime) : Bool :=
  if a.2.2.2 = b.2.2.2 then (if a.2.2.1 then a.2.1 else !a.2.1) else a.2.2.2 < b.2.2.2

/-- Insert an edge in its order. -/
def insertEdge (e : Nat × Bool × Bool × SubTime) : List (Nat × Bool × Bool × SubTime) → List (Nat × Bool × Bool × SubTime)
  | [] => [e]
  | x :: l => if edgeBefore e x then e :: x :: l else x :: insertEdge e l

/-- The height of a window state, none for UNKNOWN (R125). -/
def stateRank (st : Nat) : Option Nat := if st = 0 then some 0 else if st = 1 then some 1 else if st = 3 then some 2 else none

/-- The sticky flags an accepted edge sets (R125). -/
def edgeFlags (window : Bool) (before after : Nat) : Nat :=
  let rf := match stateRank before, stateRank after with
    | some a, some b => if a < b then 1 else if b < a then 2 else 0
    | _, _ => 0
  rf + (if window && after == 1 && before != 1 then 4 else 0) + (if window && before == 1 && after != 1 then 8 else 0)

/-- The queues of a group. -/
def State.sourceQueues (s : State) (kind src : Nat) : List Nat :=
  s.queueList.filter (fun q => s.obj (Obj.qSrcKind q) = kind && s.obj (Obj.qSource q) = src && s.capturing q)

/-- A STATE_EST record reaches the group's queues and is counted (R104, R105, R132). -/
def State.stateEst (s : State) (n reason sub state : Nat) (level lower : Bool) (t : Tick) : State :=
  let g := groupOf n
  let r := stateEstRec g (n % 16) reason sub state level lower t
  let s := s.bump (Obj.lcCntStateEstCount g (n % 16)) 1
  (s.sourceQueues 3 g).foldl (fun s q => s.deliver q [r] 1 (64 * t + sub) (64 * t + sub) t) s

/-- Put one edge into a channel's FIFO (R118, R121). -/
def pushEdge (c : Channel) (t : SubTime) (lower level : Bool) (state : Nat) : Channel × Bool :=
  if 64 ≤ c.fifo.length then
    ({ c with lost := some (match c.lost with
        | some (a, _, n) => (a, tickOf t, n + 1)
        | none => (tickOf t, tickOf t, 1)) }, true)
  else ({ c with fifo := c.fifo ++ [⟨t, lower, level, state, c.lost⟩], lost := none }, false)

/-- One channel in one tick (R97-R128): filters, flags, FIFO and the pipeline to the condition units. DESIGN CHOICE (assumption 29): the time
order of R113 is kept among the edges accepted in one tick; an edge accepted in a later tick stands after them whatever its time. -/
def State.chanTick (s : State) (waves : Tab (List (Nat × Int))) (u : Tick) (n : Nat) : State × List Bool :=
  let c := s.chan n
  let input := s.lcInput waves n u
  let a := (below 4).foldl (s.chanSlot n u input) { up := c.up, lo := c.lo }
  let window : Bool := s.obj (Obj.lcWinMode n) = 1
  let g := groupOf n
  let sampled : Bool := s.obj (Obj.lgStoreMode g) = 1
  let shift : Int := s.int (Obj.lcDeskew n) - s.otp.pathDelay.getD n 0
  let edges := (a.edges.map (fun e => (e.1, e.2.1, e.2.2.1, ((e.2.2.2 : Int) + shift).toNat))).foldl (fun l e => insertEdge e l) []
  -- the states before and after each edge, in their order, with what was known at the sub-sample that accepted it
  let knew (lower was : Bool) (slot : Nat) : Bool := was || a.exits.any (fun e => e.1 == lower && e.2.2.1 / 16 ≤ slot)
  let first (lower was f : Bool) : Bool := if was then f else ((a.exits.find? (fun e => e.1 == lower)).map (·.2.1)).getD f
  let start : Bool × Bool := (first false c.up.known c.up.f, first true c.lo.known c.lo.f)
  let seq := edges.foldl (fun (x : (Bool × Bool) × List LcEdge) e =>
    let st (p : Bool × Bool) : Nat := windowState window { a.up with f := p.1, known := a.up.known && knew false c.up.known e.1 }
      { a.lo with f := p.2, known := a.lo.known && knew true c.lo.known e.1 }
    let after := if e.2.1 then (x.1.1, e.2.2.1) else (e.2.2.1, x.1.2)
    (after, x.2 ++ [⟨e.1, e.2.1, e.2.2.1, e.2.2.2, st x.1, st after⟩])) (start, [])
  let lcEdges := seq.2
  let flags := lcEdges.foldl (fun f e => f ||| edgeFlags window e.before e.after) 0
  let flags := flags ||| (if a.glitches = 0 then 0 else 16) ||| (if a.ovr then 32 else 0)
  let s := if a.glitches = 0 then s else s.bump (Obj.lcCntGlitchCount g (n % 16)) a.glitches
  let s := s.setObj (Obj.lcState n) (a.states.getLastD 2)
  let due := u + s.lcDelay n
  let began (p : Comp) : Bool := p.settleAt == u + 64
  let c := { c with pipe := c.pipe ++ [(⟨due, a.states, lcEdges, began c.up, began c.lo⟩ : LcSample)] }
  let c := { c with up := a.up, lo := a.lo, flags := c.flags ||| flags }
  let stored := if sampled then (c, 0) else
    lcEdges.foldl (fun (x : Channel × Nat) e =>
      let (c, lost) := pushEdge x.1 e.time e.lower e.level e.after
      (c, x.2 + ofBool lost)) (c, 0)
  let c := stored.1
  let s := if stored.2 = 0 then s else s.bump (Obj.lcCntLostEdges g (n % 16)) stored.2
  let s := s.setObj (Obj.lgFifoPeak g) (max (s.obj (Obj.lgFifoPeak g)) c.fifo.length)
  let here := c.pipe.filter (fun x => x.due ≤ u)
  let c := { c with pipe := c.pipe.filter (fun x => u < x.due),
                    view := if here ≠ [] then here.flatMap (·.states) else lastN 4 c.view,
                    edges := here.zipIdx.flatMap (fun x => x.1.edges.map (fun e => { e with slot := 4 * x.2 + e.slot })),
                    starts := here.zipIdx.flatMap (fun x =>
                      (if x.1.upStart then [(4 * x.2, false)] else []) ++ (if x.1.loStart then [(4 * x.2, true)] else [])) }
  let s := s.setChan n c
  (a.exits.foldl (fun s e => s.stateEst n 2 e.2.2.1 e.2.2.2 e.2.1 e.1 u) s, a.samples)

/-- Take one entry of a channel's FIFO to the group's queues (R119, R121, R430). -/
def State.drainOne (s : State) (u : Tick) (n : Nat) : State :=
  let c := s.chan n
  match c.fifo with
  | [] => s
  | e :: rest =>
    let s := s.setChan n { c with fifo := rest }
    (s.sourceQueues 3 (groupOf n)).foldl (fun s q =>
      let s := match e.gap with
        | some (a, b, k) => s.deliver q [gapRec 3 n a (b - a + 1) k] 1 (64 * a) (64 * a) u
        | none => s
      s.addEdge q (n % 16) e.lower e.level e.state e.time u) s

/-- Drain one group (R119): round-robin, at most 4 entries, at most 2 from a channel. -/
def State.drainGroup (s : State) (u : Tick) (g : Nat) : State :=
  let rr := s.lgRr.getD g 0
  let chans := ((below 16).map (fun i => 16 * g + (rr + i) % 16))
  let pass (s : State × Nat × Nat) : State × Nat × Nat :=
    chans.foldl (fun (x : State × Nat × Nat) n =>
      if x.2.1 < 4 && (x.1.chan n).fifo ≠ [] then (x.1.drainOne u n, x.2.1 + 1, (n + 1) % 16) else x) s
  let r := pass (pass (s, 0, rr))
  { r.1 with lgRr := r.1.lgRr.put g 0 r.2.2 }

/-- The levels at the balls at the end of a tick, once every channel of the group has been served (R127). -/
def State.keepBalls (s : State) (waves : Tab (List (Nat × Int))) (g : Nat) : State :=
  (below 16).foldl (fun s i =>
    match ((waves.getD (16 * g + i) []).getLast?.map (·.2)) with
    | some v => s.setChan (16 * g + i) { s.chan (16 * g + i) with ball := v }
    | none => s) s

/-- One group in one tick: its channels, its sampled word (R122, R123), its drain. DESIGN CHOICE (assumption 30): the edges accepted in a tick
enter their FIFOs before the tick's drain, and may leave in it. -/
def State.groupTick (s : State) (waves : Tab (List (Nat × Int))) (fails : List (Nat × Nat)) (u : Tick) (g : Nat) : State :=
  let busy (n : Nat) : Bool := s.flag (Obj.lcEnable n) || (waves.find n).isSome || (s.chans.find n).isSome
  let r := ((below 16).filter (fun c => busy (16 * g + c))).foldl (fun (x : State × Nat) c =>
    let (s, samples) := x.1.chanTick waves u (16 * g + c)
    (s, x.2 + natOfBits samples * 2 ^ (4 * c))) (s, 0)
  let t := r.1.keepBalls waves g
  let t := if s.obj (Obj.lgStoreMode g) = 1 then (t.sourceQueues 3 g).foldl (fun s q => s.addItem q 0 r.2 (ofTick u) fails u) t else t
  t.drainGroup u g

/-- All groups in one tick. -/
def State.lcTick (s : State) (waves : List Wave) (fails : List (Nat × Nat)) (u : Tick) : State :=
  let w : Tab (List (Nat × Int)) := waves.map (fun w => (w.lc, w.changes))
  (below (groupsOf s.otp.variant)).foldl (fun s g => s.groupTick w fails u g) s

/-- The levels at the balls while the channels are halted. -/
def State.ballsOnly (s : State) (waves : List Wave) : State :=
  (below (groupsOf s.otp.variant)).foldl (fun s g => s.keepBalls (waves.map (fun w => (w.lc, w.changes))) g) s

/-- Flags set in the tick before become readable (R126). -/
def State.joinFlags (s : State) : State :=
  (s.chans.filter (fun e => e.2.flags ≠ 0)).foldl (fun s e =>
    (s.setObj (Obj.lcFlags e.1) (s.obj (Obj.lcFlags e.1) ||| e.2.flags)).setChan e.1 { s.chan e.1 with flags := 0 }) s

/-- Start the comparators of a channel that are named (R103); the lower one of a SINGLE channel is powered down (R100). -/
def State.startChan (s : State) (n : Nat) (t : Tick) (upper lower : Bool) : State :=
  let c := s.chan n
  let c := { c with up := if upper then c.up.start t else c.up, lo := if lower then c.lo.start t else c.lo }
  (s.setChan n c).setObj (Obj.lcState n) (windowState (s.obj (Obj.lcWinMode n) = 1) c.up c.lo)

/-- What TIE puts on a channel's comparators at the start of a tick, where it disconnects the ball (R128). -/
def State.tieLevel (s : State) (n : Nat) (u : Tick) : Option Int :=
  if s.obj (Obj.lcTie n) = 0 then none
  else
    let (v, l) := s.lcInput [] n u
    some (((l.find? (fun e => e.1 = 0)).map (·.2)).getD v)

/-- COMPARATOR_SETTLE (R104, R106, R128): the first sub-sample after the settling ticks, with the level at the ball in microvolts; a channel whose TIE
is set sees its tie instead. A comparator without hysteresis becomes known there even where the input lies at its threshold exactly; the level
it then takes is not stated and is a free value. -/
def execComparatorSettle (n : Nat) (lower : Bool) (microvolts : Int) (s : State) : Ans :=
  let c := s.chan n
  let x := if lower then c.lo else c.up
  let window : Bool := s.obj (Obj.lcWinMode n) = 1
  if !s.hasLc n ∨ !s.flag (Obj.lcEnable n) ∨ x.known ∨ x.settled ∨ x.settleAt = 0 ∨ s.tick + 1 < x.settleAt ∨ (lower && !window) then .next s
  else
    let (k, h) := s.thr n lower
    let (hi, lo) := trips k h
    let put (x : Comp) : Channel := if lower then { c with lo := x } else { c with up := x }
    let v := (s.tieLevel n (s.tick + 1)).getD microvolts
    let level : Option Bool := if 4000 < k then some false else if hi < v then some true else if v < lo then some false else none
    let (r, s') := s.fresh
    match level with
    | none =>
      if h ≠ 0 then .next (s.setChan n (put { x with settled := true }))
      else
        let l : Bool := r % 2 = 1
        let c1 := put (x.know (s.filterN n) l)
        let st := windowState window c1.up c1.lo
        .next (((s'.setChan n c1).setObj (Obj.lcState n) st).stateEst n 1 0 st l lower (s.tick + 1))
    | some l =>
      let c1 := put (x.know (s.filterN n) l)
      let st := windowState window c1.up c1.lo
      .next (((s.setChan n c1).setObj (Obj.lcState n) st).stateEst n 1 0 st l lower (s.tick + 1))

/-- R101: THR_HI and THR_LO as a commit leaves them for a window-mode channel. -/
def windowFix (hi lo hHi hLo : Nat) : Nat × Nat :=
  if 2 * lo + hLo < 2 * hi - hHi ∧ hHi ≤ 2 * hi then (hi, lo)
  else
    let h := (2 * lo + hLo + hHi) / 2 + 1
    if h ≤ 4095 then (h, lo)
    else
      let top := 2 * 4095 - hHi - hLo
      (4095, min lo ((top - 1) / 2))

/-- What a commit does to the logic channels at its boundary (R103, R112, R124). -/
def State.lcEffects (s old : State) (t : Tick) (keys : List Key) : State :=
  let touched (g : Nat) : Bool := keys.any (fun k => k / 256 = 0x2400 + g || (0x3000 + 16 * g ≤ k / 256 && k / 256 < 0x3000 + 16 * g + 16))
  ((below (groupsOf s.otp.variant)).filter touched).foldl (fun s g =>
    (below 16).foldl (fun s c =>
      let n := 16 * g + c
      let ch (k : Key) : Bool := old.obj k != s.obj k
      let swapBit : Bool := bit (old.obj (Obj.lgSwapMask g)) (c / 2) != bit (s.obj (Obj.lgSwapMask g)) (c / 2)
      let both : Bool := ch (Obj.lcEnable n) || ch (Obj.lcWinMode n) || ch (Obj.lcTie n) || ch (Obj.lgTerm g)
        || (swapBit && s.obj (Obj.lcTie n) == 0)
      let upper : Bool := both || ch (Obj.lcThrHi n) || ch (Obj.lcHystHi n)
      let lower : Bool := both || (s.obj (Obj.lcWinMode n) == 1 && (ch (Obj.lcThrLo n) || ch (Obj.lcHystLo n)))
      let s := if upper || lower then s.startChan n t upper lower else s
      if ch (Obj.lcFilterN n) || ch (Obj.lcFilterT n) then
        let x := s.chan n
        let refill (p : Comp) : Comp := if p.known then { p with hist := List.replicate (s.filterN n) (p.f, none), run := 0, away := false } else p
        s.setChan n { x with up := refill x.up, lo := refill x.lo }
      else s) s) s

/-- Every comparator starts and the flags and counters of the channels are cleared: the front ends start (R103, R126, R132). -/
def State.startFrontEnds (s : State) (t : Tick) : State :=
  let s := s.restAll (fun k => (0x6010 ≤ k / 256 && k / 256 < 0x6020)
    || (0x3000 ≤ k / 256 && k / 256 < 0x3100 && (k % 256 = 0x0C || k % 256 = 0x0E)))
  let base : Comp := { settleAt := t + 64 }
  { s with chans := s.chans.map (fun e => (e.1, { ball := e.2.ball, up := base, lo := base })), lgRr := [] }

end Sys2Proof.Machine
end

