-- ==== Sys2Proof/Machine/Line.lean ====
section
/-! DEFINITION. The line codes (R178-R218): what one lane's bit stream yields under each personality, bit by bit. -/

namespace Sys2Proof.Machine

/-- What a lane's bits give: symbols for the condition units, and the events of the personality. -/
inductive DecOut where
  /-- A symbol of a data stream; none where it is invalid (R268, R269). -/
  | symbol (stream : Nat) (value : Option Nat) (t : Tick)
  /-- A group or block to be presented, for a link with those of its other lanes (R211, R215). -/
  | item (c : CodeItem)
  /-- A deskew marker (R153). -/
  | mark (t : Tick)
  /-- SDI: an EAV and its CRC words have been read, with its V. -/
  | eavEnd (v : Bool)
  /-- SDI: an EAV with its line number, whether the EAV was there, and the LN before (R185, R194). -/
  | line (ln : Nat) (f v : Bool) (present : Bool) (prev : Option Nat) (prevF prevV : Bool) (t : Tick)
  /-- SDI: the SAV of a field's first active line. -/
  | firstActive (t : Tick)
  /-- SDI: an active line has ended: words for the signature, samples, and the time of the first sample. -/
  | lineEnd (ln : Nat) (bytes : Bytes) (luma chroma : List Nat) (t : Tick)
  | trsErr (stream ln : Nat) (t : Tick)
  | crcErr (stream ln : Nat) (t : Tick)
  /-- SDI: an ancillary packet: stream, LN, vertical blanking, word offset of its DID, its words. -/
  | anc (stream ln : Nat) (vertical : Bool) (off : Nat) (words : List Nat) (t : Tick)
  /-- An error of a kind of R177. -/
  | error (kind : Nat) (t : Tick)
  | acquired
  /-- The code's own loss rule is met; an Ethernet frame was being read (R173). -/
  | lost (open_ : Bool)
  /-- An Ethernet frame has been read to its end (R205). -/
  | frame (f : Frame)
  /-- A codeword of the forward error correction (R204): not corrected, symbols corrected. -/
  | codeword (bad : Bool) (symbols : Nat) (t : Tick)
deriving DecidableEq, Repr

/-! ## SDI (R179-R191) -/

/-- Data streams of an SDI_RATE (R179). -/
def sdiStreams (rate : Nat) : Nat := [2, 2, 4, 8, 16, 32].getD rate 2

/-- Is an XYZ word's protection right (R184)? -/
def xyzOk (w : Nat) : Bool :=
  let f := bit w 8
  let v := bit w 7
  let h := bit w 6
  bit w 9 && bit w 5 == (v != h) && bit w 4 == (f != h) && bit w 3 == (f != v) && bit w 2 == ((f != v) != h) && bits w 1 0 == 0

/-- The TRS of R182 in a window of 40 K bits, oldest at bit 0: its XYZ word of stream 1, if the preamble is there. -/
def trsIn (k sr : Nat) : Option Nat :=
  if sr % 2 ^ (10 * k) = 2 ^ (10 * k) - 1 ∧ (sr >>> (10 * k)) % 2 ^ (20 * k) = 0 then
    let w := (sr >>> (30 * k)) % 1024
    if bit w 9 then some w else none
  else none

/-- The CRCs of the K streams at the start of a line. -/
def freshCrc (k : Nat) : List Nat := List.replicate k 0

/-- Is a header word of an ancillary packet in parity (R187)? -/
def ancParity (w : Nat) : Bool := bit w 8 == oddOnes 8 w && bit w 9 == !bit w 8

/-- One word of a stream in blanking (R187): an ancillary packet may begin, go on or end. -/
def ancWord (a : AncRead) (stream ln wt : Nat) (vertical : Bool) (w : Nat) (t : Tick) : AncRead × List DecOut :=
  if a.open_ then
    let words := a.words ++ [w]
    let n := words.length
    let bad := if n ≤ 3 && !ancParity w then [DecOut.error 7 t] else []
    if 3 ≤ n ∧ n = 4 + words.getD 2 0 % 256 then
      ({ p1 := a.p2, p2 := w, t1 := a.t2, t2 := t }, bad ++ [.anc stream ln vertical a.off words a.at_])
    else ({ a with words := words, p1 := a.p2, p2 := w, t1 := a.t2, t2 := t }, bad)
  else if a.p1 = 0 ∧ a.p2 = 0x3FF ∧ w = 0x3FF then
    ({ p1 := a.p2, p2 := w, t1 := a.t2, t2 := t, open_ := true, at_ := a.t1, off := wt + 1 }, [])
  else ({ a with p1 := a.p2, p2 := w, t1 := a.t2, t2 := t }, [])

/-- An XYZ word of a stream: its check, and F and V as the line takes them (R184). -/
def xyzWord (x : SdiLane) (w : Nat) : SdiLane × List DecOut :=
  if !x.preOk then (x, [])
  else
    let ok := xyzOk w
    let e := if ok then [] else [DecOut.trsErr (x.strm + 1) x.ln x.preT]
    (if x.strm = 0 ∧ ok ∧ x.wt = 3 then { x with f := bit w 8, v := bit w 7 } else x, e)

/-- One 10-bit word of a line in SYNC (R183-R191). -/
def sdiWord (k : Nat) (x : SdiLane) (w : Nat) (t : Tick) : SdiLane × List DecOut :=
  let first : Bool := x.strm = 0
  let last : Bool := x.strm + 1 = k
  let sym := DecOut.symbol (x.strm + 1) (some w) t
  -- a preamble is followed word time by word time, at an EAV's place and anywhere else
  let x := if first ∧ x.pre = 0 then { x with preOk := true, preT := t } else x
  let want : Bool := if x.pre = 0 then w == 0x3FF else if x.pre ≤ 2 then w == 0 else true
  let x := { x with preOk := x.preOk && want }
  let sav : Bool := x.pre = 3 && x.preOk && 3 < x.wt && (!bit w 6 || x.sav == some (x.wt - 3))
  -- the EAV's own words
  let r1 : SdiLane × List DecOut :=
    if x.wt = 0 then (if first then { x with eavT := t } else x, [])
    else if x.wt = 3 then
      let x := if first then
          let y := { x with prevF := x.f, prevV := x.v, present := x.preOk }
          if x.preOk then { y with miss := 0 } else { y with miss := x.miss + 1 }
        else x
      xyzWord x w
    else if x.wt = 4 then (if first then { x with ln0 := w } else x, [])
    else if x.wt = 5 then
      if first then
        let ln := bits x.ln0 8 2 + 128 * bits w 5 2
        ({ x with ln := if x.present then ln else x.ln, lnKnown := x.lnKnown || x.present, active := x.present && !x.v,
                  startField := x.present && !x.v && x.prevV },
         [.line ln x.f x.v x.present (if x.lnKnown then some x.ln else none) x.prevF x.prevV x.eavT])
      else (x, [])
    else if x.wt = 6 then ({ x with cr0 := (if first then [] else x.cr0) ++ [w] }, [])
    else if x.wt = 7 then
      let want := bits (x.cr0.getD x.strm 0) 8 0 + 512 * bits w 8 0
      let bad := x.skipCrc = 0 && want != x.crc.getD x.strm 0
      ({ x with skipCrc := if last then x.skipCrc - 1 else x.skipCrc },
        (if bad then [.crcErr (x.strm + 1) x.ln x.eavT] else []) ++ (if last then [.eavEnd x.v] else []))
    else (x, [])
  let x := r1.1
  -- the SAV and what follows it
  let atSav : Bool := x.sav == some (x.wt - 3) && 8 ≤ x.wt
  let r2 : SdiLane × List DecOut :=
    if sav then
      let (x, e) := xyzWord x w
      (if first then { x with sav := some (x.wt - 3), miss := 0 } else x,
        e ++ (if first && x.active && x.startField then [.firstActive x.preT] else []))
    else if atSav && first then ({ x with miss := x.miss + 1 }, [])
    else (x, [])
  let x := if sav && last then { r2.1 with crc := freshCrc k, startField := false } else r2.1
  let after : Bool := match x.sav with
    | some p => p + 3 < x.wt
    | none => false
  let inSav : Bool := match x.sav with
    | some p => p ≤ x.wt && x.wt ≤ p + 3
    | none => false
  let x := if after || x.wt ≤ 5 then { x with crc := x.crc.set x.strm (crc18Word (x.crc.getD x.strm 0) w) } else x
  let x := if after && x.active then
      { x with lineBytes := x.lineBytes ++ [BitVec.ofNat 8 w, BitVec.ofNat 8 (w / 256)],
               sampleT := if x.lineBytes = [] then t else x.sampleT,
               luma := if x.strm % 2 = 1 then x.luma ++ [2 ^ 32 * t + 2 ^ 16 * x.strm + w] else x.luma,
               chroma := if x.strm % 2 = 0 then x.chroma ++ [2 ^ 32 * t + 2 ^ 16 * x.strm + w] else x.chroma }
    else x
  let r3 : SdiLane × List DecOut :=
    if 8 ≤ x.wt && !inSav && !(after && !x.v) then
      let (a, e) := ancWord (x.anc.getD x.strm {}) (x.strm + 1) x.ln x.wt after w t
      ({ x with anc := x.anc.put x.strm {} a }, e)
    else if x.wt = 0 ∨ inSav then ({ x with anc := x.anc.del x.strm }, [])
    else (x, [])
  let x := r3.1
  -- step to the next word
  let pre := if !last then x.pre else if x.pre = 3 then 0 else if x.preOk then x.pre + 1 else 0
  let pre := if last ∧ x.wt + 1 = x.lineWords then 0 else if last ∧ x.wt < 3 then x.wt + 1 else pre
  let x := { x with pre := pre, preOk := if last ∧ pre = 0 then true else if last ∧ x.wt < 3 then x.preOk else if pre = 0 then true else x.preOk }
  let x := if last then { x with strm := 0, wt := if x.wt + 1 = x.lineWords then 0 else x.wt + 1 } else { x with strm := x.strm + 1 }
  let ends : Bool := last && x.wt == 0
  let r4 : SdiLane × List DecOut :=
    if ends && x.active then
      ({ x with active := false, lineBytes := [], luma := [], chroma := [] }, [.lineEnd x.ln x.lineBytes x.luma x.chroma x.sampleT])
    else (x, [])
  let lost := if 4 ≤ x.miss then [DecOut.lost false] else []
  (r4.1, sym :: r1.2 ++ r2.2 ++ r3.2 ++ r4.2 ++ lost)

/-- One received bit of an SDI lane (R181-R183), at time t; `back` gives the time of the bit so many bits before it. -/
def sdiBit (k : Nat) (x : SdiLane) (b : Bool) (t : Tick) (back : Nat → Tick) : SdiLane × List DecOut :=
  let nrz : Bool := b != x.nrzi
  let o : Bool := (nrz != bit x.lfsr 3) != bit x.lfsr 8
  let x := { x with nrzi := b, lfsr := (2 * x.lfsr + ofBool nrz) % 512 }
  if 0 < x.fill then ({ x with fill := x.fill - 1 }, [])
  else if !x.sync then
    let sr := x.sr / 2 + ofBool o * 2 ^ (40 * k - 1)
    let x := { x with sr := sr, bitNo := x.bitNo + 1 }
    if x.bitNo < 40 * k then (x, [])
    else
      match trsIn k sr with
      | none => (x, [])
      | some w =>
        if !bit w 6 then
          match x.eavs.head? with
          | some p => ({ x with sav := some ((x.bitNo - p) / (10 * k)) }, [])
          | none => (x, [])
        else
          let eavs := (x.bitNo :: x.eavs).take 3
          let t := back (40 * k - 1)
          match eavs with
          | [c, d, a] =>
            if c - d = d - a ∧ (c - d) % (10 * k) = 0 then
              ({ x with sync := true, eavs := [], sr := 0, lineWords := (c - d) / (10 * k), wt := 4, strm := 0, f := bit w 8, v := bit w 7,
                        prevF := bit w 8, prevV := bit w 7, present := true, eavT := t, preT := t, skipCrc := 2, crc := freshCrc k,
                        accBits := 0, acc := 0, miss := 0 }, [.mark t, .acquired])
            else ({ x with eavs := eavs }, [.mark t])
          | l => ({ x with eavs := l }, [.mark t])
  else
    let x := if x.accBits = 0 then { x with accT := t, acc := 0 } else x
    let acc := x.acc + ofBool o * 2 ^ x.accBits
    if x.accBits + 1 = 10 then sdiWord k { x with acc := 0, accBits := 0 } acc x.accT
    else ({ x with acc := acc, accBits := x.accBits + 1 }, [])

/-! ## Coded lanes (R201-R218) -/

/-- 5b/6b of 8b/10b for negative running disparity, bit 0 = a (IEEE 802.3 clause 36). -/
def code6 : List Nat :=
  [0x39, 0x2E, 0x2D, 0x23, 0x2B, 0x25, 0x26, 0x07, 0x27, 0x29, 0x2A, 0x0B, 0x2C, 0x0D, 0x0E, 0x3A,
   0x36, 0x31, 0x32, 0x13, 0x34, 0x15, 0x16, 0x17, 0x33, 0x19, 0x1A, 0x1B, 0x1C, 0x1D, 0x1E, 0x35]

/-- 3b/4b for negative running disparity, bit 0 = f. -/
def code4 : List Nat := [0xD, 0x9, 0xA, 0x3, 0xB, 0x5, 0x6, 0x7]

/-- The 4-bit part of a control group before the running disparity's choice. -/
def codeK4 : List Nat := [0x2, 0x9, 0xA, 0xC, 0x4, 0x5, 0x6, 0x1]

/-- One octet as a code group under a running disparity (true: positive), bit 0 = a; none for a K octet outside the table. -/
def encode8b10b (k : Bool) (oct : Nat) (rd : Bool) : Option Nat :=
  let x := oct % 32
  let y := oct / 32
  if k then
    let six := if x = 28 then 0x3C else code6.getD x 0
    if x = 28 ∨ (y = 7 ∧ (x = 23 ∨ x = 27 ∨ x = 29 ∨ x = 30)) then
      let g := six + 64 * codeK4.getD y 0
      some (if rd then 1023 - g else g)
    else none
  else
    let six0 := code6.getD x 0
    let flip6 := ones 6 six0 != 3 || x == 7
    let six := if rd && flip6 then 63 - six0 else six0
    let rd1 : Bool := if ones 6 six0 == 3 then rd else !rd
    let alt : Bool := y = 7 && (if rd1 then x == 11 || x == 13 || x == 14 else x == 17 || x == 18 || x == 20)
    let four0 := if alt then 0xE else code4.getD y 0
    let flip4 := ones 4 four0 != 2 || y == 3
    some (six + 64 * (if rd1 && flip4 then 15 - four0 else four0))

/-- The octet and K flag of a group (9 bits, K in bit 8), and whether it belongs to the running disparity. -/
def decode8b10b (g : Nat) (rd : Bool) : Option (Nat × Bool) :=
  let ks := [28, 60, 92, 124, 156, 188, 220, 252, 247, 251, 253, 254]
  let at_ (rd : Bool) : Option Nat :=
    match (below 256).find? (fun o => encode8b10b false o rd == some g) with
    | some o => some o
    | none => (ks.find? (fun o => encode8b10b true o rd == some g)).map (· + 256)
  match at_ rd with
  | some v => some (v, true)
  | none => (at_ (!rd)).map (fun v => (v, false))

/-- The running disparity after a group, by the rule of clause 36 for its parts of six and of four bits: more ones than zeros make it positive,
fewer negative, and 000111 and 0011 positive, 111000 and 1100 negative. -/
def rdAfter (rd : Bool) (g : Nat) : Bool :=
  let a := g % 64
  let b := g / 64
  let r1 : Bool := if 3 < ones 6 a ∨ a = 0x38 then true else if ones 6 a < 3 ∨ a = 0x07 then false else rd
  if 2 < ones 4 b ∨ b = 0xC then true else if ones 4 b < 2 ∨ b = 0x3 then false else r1

/-- The objects of a coded decoder. -/
structure CodeCfg where
  pers : Nat
  commaA : Nat
  commaB : Nat
  dispCheck : Bool
  mark : Nat
  alignCount : Nat
  scrMode : Nat
  scrLen : Nat
  scrPoly : Nat
  scrSeed : Nat
  scrReset : Nat
  scrResetSym : Nat
  msbFirst : Bool
  kAdvance : Bool
  syncData : Nat
  syncCtrl : Nat
  tol : Nat
  lockHdrs : Nat
  lossBad : Nat
  markPattern : Nat
  markMask : Nat
  allBlocks : Bool
  ethMode : Nat
  fecMode : Nat
  hiBer : Bool
deriving DecidableEq, Repr

/-- One bit through the descrambler (R216): the bit out and the state. -/
def scrBit (c : CodeCfg) (s : Nat) (b : Bool) : Bool × Nat :=
  let k := oddOnes 32 (s &&& c.scrPoly)
  if c.scrMode = 1 then (b != k, (2 * s + ofBool k) % 2 ^ c.scrLen) else (b != k, (2 * s + ofBool b) % 2 ^ c.scrLen)

/-- Bits through the descrambler in order. -/
def scrBits (c : CodeCfg) : Nat → List Bool → List Bool × Nat
  | s, [] => ([], s)
  | s, b :: t =>
    let (o, s) := scrBit c s b
    let (l, s) := scrBits c s t
    (o :: l, s)

/-- The seed loaded at an entry to SYNC or a reset (R218). -/
def CodeCfg.seed (c : CodeCfg) : Nat := if c.scrMode = 1 ∧ c.scrSeed = 0 then 1 else c.scrSeed

/-- The bits of a number, lowest first. -/
def bitList (n x : Nat) : List Bool := (below n).map (bit x)

/-- A symbol through the descrambler (R217, R218). -/
def scrSymbol (c : CodeCfg) (s v : Nat) (isMark : Bool) : Nat × Nat :=
  let b := bitList 8 v
  let b := if c.msbFirst then b.reverse else b
  if c.scrMode = 0 then (v, s)
  else if c.scrMode = 1 ∧ ((c.scrReset = 1 ∧ v = c.scrResetSym) ∨ (c.scrReset = 2 ∧ isMark)) then (v, c.seed)
  else if 256 ≤ v then (v, if c.kAdvance then (scrBits c s b).2 else s)
  else
    let (o, s) := scrBits c s b
    (natOfBits (if c.msbFirst then o.reverse else o), s)

/-- The error score of R210 after a group. -/
def scoreAfter (x : CodeLane) (bad : Bool) : CodeLane :=
  if bad then { x with score := x.score + 1, good := 0 }
  else if x.good + 1 = 4 then { x with score := x.score - 1, good := 0 }
  else { x with good := x.good + 1 }

/-- One code group in SYNC (R209-R211, R217). -/
def codeGroup (c : CodeCfg) (x : CodeLane) (g : Nat) (t : Tick) : CodeLane × List DecOut :=
  let d := decode8b10b g x.rd
  let x := { x with rd := rdAfter x.rd g }
  match d with
  | none =>
    let x := scoreAfter x true
    (x, [.error 2 t, .item ⟨0, false, 0, t, false⟩] ++ (if 4 ≤ x.score then [.lost false] else []))
  | some (v, right) =>
    let disp := c.dispCheck && !right
    let x := scoreAfter x disp
    let isMark := v == c.mark
    let (o, s) := scrSymbol c x.scr v isMark
    ({ x with scr := s }, (if disp then [.error 1 t] else []) ++ (if isMark then [.mark t] else []) ++ [.item ⟨o, true, 0, t, isMark⟩]
      ++ (if 4 ≤ x.score then [.lost false] else []))

/-- One received bit under C8B10B (R210). -/
def code8Bit (c : CodeCfg) (x : CodeLane) (b : Bool) (t : Tick) : CodeLane × List DecOut :=
  if x.sync then
    let x := if x.accBits = 0 then { x with accT := t, acc := 0 } else x
    let acc := x.acc + ofBool b * 2 ^ x.accBits
    if x.accBits + 1 = 10 then codeGroup c { x with acc := 0, accBits := 0 } acc x.accT
    else ({ x with acc := acc, accBits := x.accBits + 1 }, [])
  else
    let win := x.win / 2 + ofBool b * 512
    let x := { x with win := win, bitNo := x.bitNo + 1 }
    if 10 ≤ x.bitNo ∧ (win = c.commaA ∨ (win = c.commaB ∧ c.commaB ≠ 0)) then
      let off := x.bitNo % 10
      let n := if off = x.commaOff then x.commas + 1 else 1
      if c.alignCount ≤ n then
        ({ x with sync := true, commas := 0, accBits := 0, rd := rdAfter false win, score := 0, good := 0, scr := c.seed }, [.acquired])
      else ({ x with commaOff := off, commas := n }, [])
    else (x, [])

/-- The kind of a 4-bit sync header (R213): 1 data, 2 control, 3 bad. -/
def headerKind (c : CodeCfg) (h : Nat) : Nat :=
  let near (p : Nat) : Bool := ones 4 (h ^^^ p) ≤ c.tol
  if near c.syncData && !near c.syncCtrl then 1 else if near c.syncCtrl && !near c.syncData then 2 else 3

/-- Block lock (R201, R214): one header, good or bad, in SEARCH and in SYNC. -/
def headerStep (need maxBad : Nat) (x : CodeLane) (good : Bool) (seed : Nat) : CodeLane × List DecOut :=
  if x.sync then
    let h := (good :: x.hdrs).take 64
    ({ x with hdrs := h }, if maxBad ≤ (h.filter (· == false)).length then [.lost x.eth.isSome] else [])
  else if !good then ({ x with good := 0, slip := true }, [])
  else if need ≤ x.good + 1 then ({ x with sync := true, good := 0, hdrs := [], scr := seed }, [.acquired])
  else ({ x with good := x.good + 1 }, [])

/-- One block of 132 bits (R212-R218). -/
def block132 (c : CodeCfg) (x : CodeLane) (w : Nat) (t : Tick) : CodeLane × List DecOut :=
  let k := headerKind c (w % 16)
  let was := x.sync
  let (x, o) := headerStep c.lockHdrs c.lossBad x (k != 3) c.seed
  let err := if k = 3 then [DecOut.error 3 t] else []
  if !was then (x, err ++ o)
  else
    let p := w / 16
    let isMark : Bool := k == 2 && c.markMask != 0 && ((p ^^^ c.markPattern) &&& c.markMask) == 0
    let inScope := c.scrMode != 0 && (c.allBlocks || k == 1)
    let (p', s) :=
      if c.scrMode = 1 ∧ c.scrReset = 2 ∧ isMark then (p, c.seed)
      else if inScope then
        let (l, s) := scrBits c x.scr (bitList 128 p)
        (natOfBits l, s)
      else (p, x.scr)
    ({ x with scr := s }, err ++ (if isMark then [.mark t] else []) ++ [.item ⟨256 * k + p' % 256, k != 3, p', t, isMark⟩] ++ o)

/-- The block types of IEEE 802.3 (R202): those of clause 49, or of clause 82 with 50GBASE-R, which has no start and no ordered set in lane 4. -/
def blockTypes (mode : Nat) : List Nat :=
  [0x1E, 0x78, 0x4B, 0x87, 0x99, 0xAA, 0xB4, 0xCC, 0xD2, 0xE1, 0xFF] ++ (if mode = 2 then [] else [0x2D, 0x33, 0x66, 0x55])

/-- The descrambler of R202, G(x) = 1 + x^39 + x^58, over the 64 payload bits of a block. -/
def scr58 : Nat → List Bool → List Bool × Nat
  | s, [] => ([], s)
  | s, b :: t =>
    let (l, s') := scr58 ((2 * s + ofBool b) % 2 ^ 58) t
    (((b != bit s 38) != bit s 57) :: l, s')

/-- What a descrambled 66-bit block is (R202): 0 control characters or an ordered set, 1 data, 2 a start in lane 0, 3 a start in lane 4, 4 + k a
terminate after k data octets, 12 an error block: an invalid header or type, or a control block with an error character or an undefined one. Idle and
low-power idle are control characters. -/
def blockKind (mode h p : Nat) : Nat :=
  if h = 2 then 1
  else if h ≠ 1 ∨ !(blockTypes mode).contains (p % 256) then 12
  else
    match p % 256 with
    | 0x1E => if (below 8).all (fun i => [0x00, 0x06, 0x2D, 0x33, 0x4B, 0x55, 0x66, 0x78].contains (bits p (7 * i + 14) (7 * i + 8))) then 0 else 12
    | 0x78 => 2
    | 0x33 => 3
    | 0x66 => 3
    | 0x87 => 4
    | 0x99 => 5
    | 0xAA => 6
    | 0xB4 => 7
    | 0xCC => 8
    | 0xD2 => 9
    | 0xE1 => 10
    | 0xFF => 11
    | _ => 0

/-- Octets of a frame arrive (R205, R206): those up to the start frame delimiter pass, and the first after it gives the frame its time. `t0` and `t4` are
the times of the first bits of octets 0 and 4 of the block. -/
def EthRead.octets (e : EthRead) (b : Bytes) (t0 t4 : Tick) (bad : Bool) : EthRead :=
  let now := b.drop e.skip
  { e with skip := e.skip - b.length, data := e.data ++ now, fec := e.fec || (bad && now != []),
           time := if now = [] then e.time else some (e.time.getD (if e.skip < 4 then t0 else t4)) }

/-- A frame ends. -/
def EthRead.done (e : EthRead) (code : Bool) (t : Tick) : Frame :=
  { time := e.time.getD t, data := e.data, flags := 2 * ofBool (e.code || code) + 4 * ofBool e.fec + 32 * ofBool e.hiBer }

/-- What a block does to the frame being read, and the frames it ends (R173, R205). A start opens a frame: the start character and seven octets of
preamble and delimiter pass. Control characters or a start within a frame end it by an error. An error block within a frame is eight error
octets, each the code 0xFE of the error character (DESIGN CHOICE, assumption 50). -/
def ethBlock (e : Option EthRead) (k p : Nat) (t0 t4 : Tick) (bad hiBer : Bool) : Option EthRead × List DecOut :=
  let octs (from_ n : Nat) : Bytes := (below n).map (fun i => BitVec.ofNat 8 (bits p (8 * (from_ + i) + 7) (8 * (from_ + i))))
  let cut_ : List DecOut := match e with
    | some e => [.frame (e.done true t0)]
    | none => []
  if k = 2 then (some { skip := 0, hiBer := hiBer }, cut_)
  else if k = 3 then (some { skip := 4, hiBer := hiBer }, cut_)
  else if k = 0 then (none, cut_)
  else
    match e with
    | none => (none, [])
    | some e =>
      if k = 1 then (some (e.octets (octs 0 8) t0 t4 bad), [])
      else if k = 12 then (some { e.octets (List.replicate 8 0xFE) t0 t4 bad with code := true }, [])
      else (none, [.frame ((e.octets (octs 1 (k - 4)) t0 t4 bad).done false t0)])

/-- One block of 66 bits in SYNC (R202, R205), whose header's first bit is bit 0; `bad` marks one derived from an uncorrected codeword, which decodes as
error characters. Its VALUE of R268 has the header as IEEE 802.3 writes it: 0b01 data, 0b10 control (assumption 50). -/
def ethCode (c : CodeCfg) (x : CodeLane) (w : Nat) (bad : Bool) (t t0 t4 : Tick) : CodeLane × List DecOut :=
  let h := w % 4
  let (l, s) := scr58 x.scr (bitList 64 (w / 4))
  let p := natOfBits l
  let k := if bad then 12 else blockKind c.ethMode h p
  let (e, o) := ethBlock x.eth k p t0 t4 bad c.hiBer
  let undefined_ : Bool := !bad && h == 1 && !(blockTypes c.ethMode).contains (p % 256)
  let v := if h = 2 then 1 else if h = 1 then 2 else h
  ({ x with scr := s, eth := e },
    (if undefined_ then [.error 4 t] else []) ++ o ++ [.item ⟨256 * v + p % 256, h == 1 || h == 2, p, t, false⟩])

/-- One block of 66 bits without forward error correction (R201). -/
def block66 (c : CodeCfg) (x : CodeLane) (w : Nat) (t : Tick) : CodeLane × List DecOut :=
  let h := w % 4
  let was := x.sync
  let err := if h = 0 ∨ h = 3 then [DecOut.error 3 t] else []
  let (x, o) := headerStep 64 16 x (h == 1 || h == 2) x.scr
  if !was then ({ x with scr := (scr58 x.scr (bitList 64 (w / 4))).2, eth := none }, err ++ o)
  else
    let (y, o') := ethCode c x w false t x.octT0 x.octT4
    (y, err ++ o' ++ o)

/-- A codeword has come to its end (R203, R204): its blocks go through the decoder. In the marked codeword the first 257 bits are the marker. `timeOf` gives
the time of a bit of the lane's stream by its number. -/
def fecCodeword (c : CodeCfg) (x : CodeLane) (marked : Bool) (timeOf : Nat → Tick) : CodeLane × List DecOut :=
  let f := x.fec
  let (msg, n, bad) := fecDecode c.ethMode c.fecMode f.acc
  let at_ (i : Nat) : Tick := timeOf (f.start + i)
  let blocks := fecBlocks c.ethMode msg bad (if marked then 19 else 20) (if marked then 1 else 0) x.scr
  let t := at_ 0
  blocks.foldl (fun (r : CodeLane × List DecOut) b =>
    let (y, o) := ethCode c r.1 b.block b.bad (at_ b.at0) (at_ b.at0) (at_ b.at4)
    (y, r.2 ++ o)) ({ x with fec := { f with acc := 0, accBits := 0, start := f.start + fecBits c.ethMode } },
      .codeword bad n t :: if bad then [.error 5 t] else [])

/-- One received bit under RS-FEC (R203); `no` is its number in the lane's stream. A marker found opens the count to the place of the next; two in a row
at their spacing are SYNC, three missing in a row a loss. A place without its marker ends a search at once. -/
def fecBit (c : CodeCfg) (x : CodeLane) (b : Bool) (no : Nat) (timeOf : Nat → Tick) : CodeLane × List DecOut :=
  let m := c.ethMode
  let f := x.fec
  let win := f.win / 2 + ofBool b * 2 ^ 256
  let here : Bool := 257 ≤ no + 1 && (win ^^^ Config.markerBits m) &&& Config.markerMask m == 0
  let f := { f with win := win, pos := f.pos.map (· + 1) }
  let place : Bool := f.pos == some (fecSpacing m + 257)
  if !x.sync then
    let f : FecLane :=
      if place && here then { f with found := f.found + 1, pos := some 257 }
      else if f.pos.isSome && !place then f
      else if here then { f with found := 1, pos := some 257 }
      else { f with found := 0, pos := none }
    if 2 ≤ f.found then
      ({ x with sync := true, fec := { f with gone := 0, acc := win, accBits := 257, start := no - 256 }, eth := none }, [.acquired])
    else ({ x with fec := f }, [])
  else
    let f := if place then { f with pos := some 257, gone := if here then 0 else f.gone + 1 } else f
    let f := { f with acc := f.acc + ofBool b * 2 ^ f.accBits, accBits := f.accBits + 1 }
    let lost := if 3 ≤ f.gone then [DecOut.lost x.eth.isSome] else []
    if f.accBits = fecBits m then
      let (y, o) := fecCodeword c { x with fec := f } (f.pos == some (fecBits m)) timeOf
      (y, o ++ lost)
    else ({ x with fec := f }, lost)

/-- One received bit of a block code of n bits (R201, R214): a bad header in SEARCH moves the offset by one bit. -/
def blockBit (n : Nat) (f : CodeLane → Nat → Tick → CodeLane × List DecOut) (x : CodeLane) (b : Bool) (t : Tick) : CodeLane × List DecOut :=
  if x.slip then ({ x with slip := false, accBits := 0, acc := 0 }, [])
  else
    let x := if x.accBits = 0 then { x with accT := t, acc := 0 } else if x.accBits = 2 then { x with octT0 := t }
      else if x.accBits = 34 then { x with octT4 := t } else x
    let acc := x.acc + ofBool b * 2 ^ x.accBits
    if x.accBits + 1 = n then f { x with acc := 0, accBits := 0 } acc x.accT
    else ({ x with acc := acc, accBits := x.accBits + 1 }, [])

/-- The time of bit `j` of a front's stream (R174): the stamp of the word that holds it and its place there. -/
def Front.timeOf (x : Front) (num den j : Nat) : Tick :=
  match x.words.find? (fun e => e.1 ≤ j) with
  | some (first, stamp) => bitTick stamp (j - first) num den
  | none => 0

/-- One received bit under a personality (R178-R218). -/
def frontBit (c : CodeCfg) (k num den : Nat) (x : Front) (b : Bool) : Front × List DecOut :=
  let no := x.count
  let t := x.timeOf num den no
  let x := { x with count := no + 1 }
  match c.pers with
  | 1 => let (s, o) := sdiBit k x.sdi b t (fun n => x.timeOf num den (no - n)); ({ x with sdi := s }, o)
  | 2 =>
    if c.fecMode = 0 then let (s, o) := blockBit 66 (block66 c) x.code b t; ({ x with code := s }, o)
    else let (s, o) := fecBit c x.code b no (x.timeOf num den); ({ x with code := s }, o)
  | 3 => let (s, o) := code8Bit c x.code b t; ({ x with code := s }, o)
  | 4 => let (s, o) := blockBit 132 (block132 c) x.code b t; ({ x with code := s }, o)
  | _ => (x, [])

/-- The bits of a word through a front; a loss of the code's own lock restarts the search at once. -/
def frontBits (c : CodeCfg) (k num den : Nat) : List Nat → Nat → Front → Front × List DecOut
  | [], _, f => (f, [])
  | i :: t, w, f =>
    let (f, o) := frontBit c k num den f (bit w i)
    let f := if o.any (fun e => match e with | .lost _ => true | _ => false) then { count := f.count, words := f.words } else f
    let (f, o') := frontBits c k num den t w f
    (f, o ++ o')

/-- A word of 64 bits with its stamp through a front. The latest 96 words are kept, which hold every codeword and every TRS. -/
def frontWord (c : CodeCfg) (k num den w stamp : Nat) (f : Front) : Front × List DecOut :=
  frontBits c k num den (below 64) w { f with words := (f.count, stamp) :: f.words.take 95 }

end Sys2Proof.Machine
end

