-- ==== Sys2Proof/Machine/Units.lean ====
section
/-! DEFINITION. Condition units, the trigger-input pins and the history rings (chapter "Condition units", R258-R300,
R725, R726). -/

namespace Sys2Proof.Machine

/-- The configuration of a unit: its objects together (R258), whether they come from the dictionary or an image. -/
structure UnitCfg where
  type : Nat := 0
  source : Nat := 0
  mode : Nat := 0
  hist : Nat := 255
  p0 : Nat := 0
  p1 : Nat := 0
  p2 : Nat := 0
  p3 : Nat := 0
  terms : List Nat := [0, 0, 0, 0]
deriving DecidableEq, Repr

/-- The objects of a unit. -/
def State.unitCfg (s : State) (n : Nat) : UnitCfg :=
  { type := s.obj (Obj.cuType n), source := s.obj (Obj.cuSource n), mode := s.obj (Obj.cuMode n), hist := s.obj (Obj.cuHistCh n),
    p0 := s.obj (Obj.cuP n 0), p1 := s.obj (Obj.cuP n 1), p2 := s.obj (Obj.cuP n 2), p3 := s.obj (Obj.cuP n 3),
    terms := (below 4).map (fun j => s.obj (Obj.cuTerms n j)) }

/-- The objects of a unit, from a configuration. -/
def UnitCfg.objs (c : UnitCfg) (n : Nat) : List (Key × Nat) :=
  [(Obj.cuType n, c.type), (Obj.cuSource n, c.source), (Obj.cuMode n, c.mode), (Obj.cuHistCh n, c.hist),
   (Obj.cuP n 0, c.p0), (Obj.cuP n 1, c.p1), (Obj.cuP n 2, c.p2), (Obj.cuP n 3, c.p3)]
    ++ (below 4).map (fun j => (Obj.cuTerms n j, c.terms.getD j 0))

/-- The bits of P0 to P3 that R298 names for a type; none where the word is ignored. -/
def namedBits (type j : Nat) : Option Nat :=
  let sym := 0x83FF03FF * 2 ^ 32 + 0x83FF03FF
  let full := 2 ^ 64 - 1
  let row : List (Option Nat) := match type with
    | 1 => [some full, some full, some 0x3F, none]
    | 2 => [some sym, some sym, some 0xFF, none]
    | 3 => [some full, some full, some full, some 0xFFFFFF]
    | 5 => [some 0xF, none, none, none]
    | 6 => [some 0xFFFFFFFF, some 0xFFFFFFFF, some 0x103, none]
    | 7 => [some 0xFFFF, some 3, none, none]
    | 8 => [some 0x3FFFF, some 0x7E, some 0xFFFFFFFF, none]
    | 9 => [some 0x3FFE, some 0x3FFFFFFFF, some 0x3FFFF, some 0x87FF]
    | 10 => [some 0xFE, some 0xFFFFFFFF, some 0xFFFFFFFF, none]
    | 11 => [some full, some full, some 0xFFFFFFFF, none]
    | 12 => [some 0xFFFF, none, none, none]
    | _ => [none, none, none, none]
  row.getD j none

/-- One change the engine makes to a unit's word: which word (0-3 the P words, 4 SOURCE, 5-8 the TERMS words), the field's bits, the reason, and what was
written and applied there. -/
structure UnitFix where
  word : Nat
  hi : Nat
  lo : Nat
  reason : Nat
  was : Nat
  now : Nat
deriving DecidableEq, Repr

/-- A word of a configuration: 0 to 3 the P words, 4 SOURCE, 5 to 8 the TERMS words. -/
def UnitCfg.word (c : UnitCfg) (j : Nat) : Nat := ([c.p0, c.p1, c.p2, c.p3, c.source] ++ c.terms).getD j 0

/-- Set a word of a configuration. -/
def UnitCfg.setWord (c : UnitCfg) (j v : Nat) : UnitCfg :=
  match j with
  | 0 => { c with p0 := v }
  | 1 => { c with p1 := v }
  | 2 => { c with p2 := v }
  | 3 => { c with p3 := v }
  | 4 => { c with source := v }
  | _ => { c with terms := c.terms.set (j - 5) v }

/-- Give a field of a word a value, with the report entry where it changes. -/
def fixField (x : UnitCfg × List UnitFix) (word hi lo reason value : Nat) : UnitCfg × List UnitFix :=
  let w := x.1.word word
  let old := bits w hi lo
  if old = value then x
  else (x.1.setWord word (w - old * 2 ^ lo + value * 2 ^ lo), x.2 ++ [⟨word, hi, lo, reason, old, value⟩])

/-- The runs of bits that a mask leaves out of 64, highest and lowest bit, from bit 0 upward. -/
def gapsOf (m : Nat) : List (Nat × Nat) :=
  ((below 64).foldl (fun (l : List (Nat × Nat)) i =>
    if bit m i then l
    else match l with
      | (hi, lo) :: r => if hi + 1 = i then (i, lo) :: r else (i, i) :: l
      | [] => [(i, i)]) []).reverse

/-- The TERMS words that R298 names for a type. -/
def namedTerms (type : Nat) : Nat := if type = 4 then 4 else if type = 5 then 1 else 0

/-- The clamps of R260, R272, R273, R282, R285, R287, R288, R289 and R298 on a unit's words; words that R298 marks "—" for the type are not checked. -/
def UnitCfg.fix (c : UnitCfg) : UnitCfg × List UnitFix :=
  let r := (below 4).foldl (fun (x : UnitCfg × List UnitFix) j =>
    match namedBits c.type j with
    | none => x
    | some m => (gapsOf m).foldl (fun x g => fixField x j g.1 g.2 rpCleared 0) x) (c, [])
  let r := (below (namedTerms c.type)).foldl (fun x j => (below 16).foldl (fun (x : UnitCfg × List UnitFix) i =>
    if 8 ≤ bits (x.1.word (5 + j)) (4 * i + 3) (4 * i) then fixField x (5 + j) (4 * i + 3) (4 * i) rpReplaced 0 else x) x) r
  let lower (x : UnitCfg × List UnitFix) (w hi lo top : Nat) : UnitCfg × List UnitFix :=
    fixField x w hi lo rpLowered (min top (bits (x.1.word w) hi lo))
  let raise (x : UnitCfg × List UnitFix) (w hi lo least : Nat) : UnitCfg × List UnitFix :=
    fixField x w hi lo rpRaised (max least (bits (x.1.word w) hi lo))
  match c.type with
  | 2 => lower r 2 7 0 32
  | 3 =>
    let r := if bits c.p3 23 16 = 1 then lower r 3 15 0 16375 else if bits c.p3 23 16 = 5 then lower r 3 15 0 8 else r
    let m := r.1.p2
    let r := fixField r 0 63 0 rpLowered (r.1.p0 &&& m)
    let r := fixField r 1 63 0 rpLowered (r.1.p1 &&& m)
    if 4 ≤ c.mode then raise r 1 63 0 r.1.p0 else r
  | 6 => let r := lower r 2 1 0 2; if 2 ≤ c.mode then raise r 1 31 0 (bits r.1.p0 31 0) else r
  | 7 => lower r 1 1 0 2
  | 8 => if c.mode = 1 then fixField r 4 15 0 rpReplaced (bits r.1.p0 17 0 / 8192) else r
  | 9 =>
    let r := if bits r.1.p1 33 32 = 3 then fixField r 1 33 32 rpReplaced 0 else r
    if c.mode = 1 then fixField r 4 15 0 rpReplaced (bits r.1.p2 17 0 / 8192) else r
  | 10 => raise (raise r 1 31 0 1) 2 31 0 1
  | 11 => raise (raise r 1 63 0 1) 2 31 0 1
  | _ => r

/-- The verdict of R260 and R271 on a unit: status and reason of a refusal. -/
def UnitCfg.verdict (c : UnitCfg) (variant : Nat) : Option (Nat × Nat) :=
  let lane : Bool := c.type = 1 || c.type = 2 || c.type = 3 || c.type = 8 || c.type = 9 || c.type = 10
  let group : Bool := c.type = 4 || c.type = 7
  let chan : Bool := c.type = 5 || c.type = 6
  let ranged : Bool :=
    if lane then c.source < 32 else if group then c.source < 16 else if chan then c.source < 256
    else if c.type = 11 then c.source = 0
    else if c.type = 12 then c.source < 8 || (0x10 ≤ c.source && c.source < 0x14) || c.source = 0x20 else true
  let absent : Bool :=
    (lane && lanesOf variant ≤ c.source) || (group && groupsOf variant ≤ c.source) || (chan && 16 * groupsOf variant ≤ c.source)
  let maxMode : Option Nat := [none, some 1, none, some 5, some 2, some 7, some 3, some 3, some 2, some 1, none, some 3, some 3].getD c.type none
  let modeOk : Bool := match maxMode with
    | some m => c.mode ≤ m
    | none => true
  let fieldOk : Bool := c.type != 3 || (1 ≤ bits c.p3 23 16 && bits c.p3 23 16 ≤ 5)
  if !ranged || !modeOk || !fieldOk then some (stRejected, reRange)
  else if absent then some (stNotPresent, 0) else none

/-- The units whose TYPE is not OFF. -/
def State.unitList (s : State) : List Nat :=
  s.dict.filterMap (fun e => if 0x3600 ≤ e.1 / 256 ∧ e.1 / 256 < 0x3700 ∧ e.1 % 256 = 1 then some (e.1 / 256 - 0x3600) else none)

/-- The history channel the unit shares with another one, if any (R295). -/
def State.histClash (s : State) (n : Nat) : Bool :=
  let h := s.obj (Obj.cuHistCh n)
  h < 64 && (below 256).any (fun m => m != n && s.obj (Obj.cuHistCh m) == h)

/-- The verdict on a unit as written, and then on the SOURCE that the engine sets for it (R260, R285, R287). -/
def UnitCfg.judged (c : UnitCfg) (variant : Nat) : Option (Nat × Nat) := (c.verdict variant).orElse (fun _ => c.fix.1.verdict variant)

/-- The verdict of R260 and R295 on an object of a unit, as a commit writes it, before its clamps. -/
def unitVerdict (new : State) (k : Key) : Option (Nat × Nat) :=
  if 0x3600 ≤ k / 256 ∧ k / 256 < 0x3700 then
    let n := k / 256 - 0x3600
    match (new.unitCfg n).judged new.otp.variant with
    | some r => some r
    | none => if new.histClash n then some (stRejected, reRange) else none
  else none

/-- The fixes of one word, in the order of their bits. -/
def fixesAt (l : List UnitFix) (word : Nat) : List UnitFix :=
  (l.filter (fun x => x.word = word)).foldl (fun r x => r.takeWhile (fun y => y.lo ≤ x.lo) ++ [x] ++ r.dropWhile (fun y => y.lo ≤ x.lo)) []

/-- The clamps of R260 on a unit as a commit would leave it: object, value, report. -/
def unitFixes (new : State) (n : Nat) : List (Key × Nat × List RepEntry) :=
  let r := (new.unitCfg n).fix
  (below 9).filterMap (fun j =>
    let k := if j = 4 then Obj.cuSource n else if j < 4 then Obj.cuP n j else Obj.cuTerms n (j - 5)
    let f := fixesAt r.2 j
    if f = [] then none else some (k, r.1.word j, f.map (fun x => clampField k x.reason x.hi x.lo x.was x.now)))

/-! ## Matching -/

/-- A term code on a window state (R273). -/
def termHolds (code state : Nat) : Bool :=
  match code with
  | 0 => true
  | 1 => state == 3
  | 2 => state == 0 || state == 1
  | 3 => state == 0
  | 4 => state == 1
  | 5 => state == 0 || state == 3
  | 6 => state == 2
  | 7 => state != 2
  | _ => true

/-- The earliest of the times. -/
def earliest (l : List SubTime) : Option SubTime :=
  l.foldl (fun m t => match m with
    | some x => some (min x t)
    | none => some t) none

/-- The latest of the times. -/
def latest (l : List SubTime) : Option SubTime :=
  l.foldl (fun m t => match m with
    | some x => some (max x t)
    | none => some t) none

/-- LANE_PATTERN on one word (R264): the offset of the lowest matching window. -/
def patternAt (c : UnitCfg) (prev : Option Nat) (w : Nat) : Option Nat :=
  let x := w * 2 ^ 64 + prev.getD 0
  (below 64).find? (fun o => (c.mode != 1 || o == bits c.p2 5 0) && (o == 63 || prev.isSome)
    && ((bits x (o + 64) (o + 1) ^^^ c.p0) &&& c.p1) == 0)

/-- The enabled entries from SYM0 onwards (R266). -/
def symEntries (c : UnitCfg) : List Nat :=
  [bits c.p0 31 0, bits c.p0 63 32, bits c.p1 31 0, bits c.p1 63 32].takeWhile (fun e => bit e 31)

/-- The time of the first symbol of a sequence that the newest symbol completes (R266). -/
def symMatch (c : UnitCfg) (l : List (Nat × SubTime)) : Option SubTime :=
  let e := (symEntries c).reverse
  if e = [] ∨ l.length < e.length then none
  else
    let z := e.zip l
    if z.all (fun p => ((p.2.1 ^^^ bits p.1 9 0) &&& bits p.1 25 16) == 0) then z.getLast?.map (·.2.2) else none

/-- The relation of a LANE_FIELD unit (R271). -/
def fieldHolds (c : UnitCfg) (x : Nat) : Bool :=
  let v := x &&& c.p2
  match c.mode with
  | 0 => v == c.p0
  | 1 => v != c.p0
  | 2 => decide (v < c.p0)
  | 3 => decide (c.p0 ≤ v)
  | 4 => decide (c.p0 ≤ v ∧ v ≤ c.p1)
  | _ => decide (v < c.p0 ∨ c.p1 < v)

/-- The value a LANE_FIELD unit extracts from an item that carries bytes (R271). -/
def fieldBytes (c : UnitCfg) (data : Bytes) : Option Nat :=
  let off := bits c.p3 15 0
  if data.length < off + 8 then none else some (ofBe ((data.drop off).take 8))

/-- What one arrival gives a unit: its state afterwards, and the times of what matched (R262). The counted errors of a CODE_ERROR unit all
match here; whether its count is reached is judged with the whole tick. -/
def unitArrival (c : UnitCfg) (x : CondUnit) (u : Tick) (a : Arrival) : CondUnit × List SubTime :=
  match c.type, a with
  | 1, .word lane w t num den =>
    if lane ≠ c.source then (x, [])
    else
      let r := match patternAt c x.prev w with
        | some 63 => [ofTick t]
        | some o => [ofTick (bitTick x.prevAt (o + 1) num den)]
        | none => []
      ({ x with prev := some w, prevAt := t }, r)
  | 1, .broken lane true => if lane = c.source then ({ x with prev := none }, []) else (x, [])
  | 2, .symbol lane stream value t =>
    if lane ≠ c.source ∨ (stream ≠ 0 ∧ bits c.p2 7 0 ≠ 0 ∧ bits c.p2 7 0 ≠ stream % 64) then (x, [])
    else
      match value with
      | none => ({ x with syms := x.syms.del stream }, [])
      | some v =>
        let l := ((v, t) :: x.syms.getD stream []).take 4
        ({ x with syms := x.syms.set stream l }, (symMatch c l).toList)
  | 2, .broken lane false => if lane = c.source then ({ x with syms := [] }, []) else (x, [])
  | 3, .field lane kind v data t =>
    if lane ≠ c.source ∨ kind ≠ bits c.p3 23 16 then (x, [])
    else
      let v := if kind = 1 ∨ kind = 5 then fieldBytes c data else some v
      (x, match v with
        | some v => if fieldHolds c v then [t] else []
        | none => [])
  | 8, .flow lane kind fid tag count late t =>
    let which : Bool := match c.mode with
      | 1 => fid == bits c.p0 17 0
      | 2 => tag == bits c.p0 7 0
      | _ => true
    let param := bits c.p2 31 0
    let enough : Bool := if kind = 2 then param ≤ count else if kind = 4 then decide ((param : Int) ≤ late) else true
    (x, if lane == c.source && bit c.p1 kind && which && enough then [t] else [])
  | 9, .video inst flow kind ln sig incomplete t =>
    let from_ : Bool := match flow with
      | none => c.mode == 0 && inst == c.source
      | some f => c.mode == 1 && f == bits c.p2 17 0
    let lnOk : Bool := !bit c.p3 15 || !(kind == 1 || kind == 5) || ln == bits c.p3 10 0
    let sm := bits c.p1 33 32
    let sigOk : Bool := kind != 6 || sm == 0 || (!incomplete && (sig == bits c.p1 31 0) == (sm == 1))
    (x, if from_ && bit c.p0 kind && lnOk && sigOk then [t] else [])
  | 10, .code inst kinds t =>
    let n := ((kinds.filter (fun k => bit c.p0 k.1)).map (·.2)).sum
    if inst ≠ c.source ∨ n = 0 then (x, [])
    else
      let w : Tick × Nat := match x.window with
        | some (a, k) => if u < a + bits c.p1 31 0 then (a, k + n) else (u, n)
        | none => (u, n)
      ({ x with window := some w }, [t])
  | 12, .trigIn pin level t =>
    (x, if c.source = pin ∧ ((c.mode = 0 ∧ level) ∨ (c.mode = 1 ∧ !level)) then [t] else [])
  | 12, .casc port code t =>
    (x, if c.source = 0x10 + port ∧ ((code ^^^ bits c.p0 7 0) &&& bits c.p0 15 8) = 0 then [t] else [])
  | 12, .soft lines t => (x, if c.source = 0x20 ∧ bit lines (bits c.p0 4 0) then [t] else [])
  | _, _ => (x, [])

/-- The state that reaches the units at a place among the states of a tick; a channel that delivers fewer places keeps its last ones. -/
def Channel.stateAt (c : Channel) (slot : Nat) : Nat := c.view.getD (if slot < c.view.length then slot else c.view.length - 4 + slot % 4) 2

/-- How many places the states of some channels have in this tick: four, or more where a shorter delay has come into force (R117). -/
def State.places (s : State) (l : List Nat) : Nat := (l.map (fun n => (s.chan n).view.length)).foldl max 4

/-- The term code of a channel in an LC_PATTERN unit (R274, R277). -/
def termOf (c : UnitCfg) (n : Nat) : Nat :=
  let j := n / 16 - c.source
  if n / 16 < c.source ∨ 4 ≤ j then 0 else bits (c.terms.getD j 0) (4 * (n % 16) + 3) (4 * (n % 16))

/-- The channels an LC_PATTERN unit constrains (R725). -/
def patternChans (c : UnitCfg) : List Nat :=
  (upFrom 64 (16 * c.source)).filter (fun n => n < 256 && termOf c n != 0)

/-- The largest R117 delay among channels (R725). -/
def State.worstDelay (s : State) (l : List Nat) : Nat := (l.map s.lcDelay).foldl max 0

/-- LC_PATTERN in one tick (R277, R278). -/
def State.lcPattern (s : State) (c : UnitCfg) (x : CondUnit) (u : Tick) : CondUnit × List SubTime :=
  let ch := patternChans c
  let d := s.worstDelay (if ch = [] then (upFrom 64 (16 * c.source)).filter s.hasLc else ch)
  let views := ch.map (fun n => (n, s.chan n))
  let edgesAt (slot : Nat) (gain : Bool) : List SubTime := views.flatMap (fun v =>
    (v.2.edges.filter (fun e => e.slot == slot && termHolds (termOf c v.1) e.before != gain && termHolds (termOf c v.1) e.after == gain)).map (·.time))
  let r := (below (s.places ch)).foldl (fun (a : Option Bool × List SubTime) slot =>
    let holds := views.all (fun v => termHolds (termOf c v.1) (v.2.stateAt slot))
    let t : List SubTime := match c.mode with
      | 0 => if holds then [64 * (u - d) + 16 * (slot % 4)] else []
      | 1 => if holds && a.1 == some false then (latest (edgesAt slot true)).toList else []
      | _ => if !holds && a.1 == some true then (earliest (edgesAt slot false)).toList else []
    (some holds, a.2 ++ t)) (x.prevPat, [])
  ({ x with prevPat := r.1 }, r.2)

/-- Is a channel in window mode? -/
def State.windowMode (s : State) (n : Nat) : Bool := s.obj (Obj.lcWinMode n) == 1

/-- Is an edge of one of the kinds of R279? -/
def edgeKind (mode : Nat) (e : LcEdge) : Bool :=
  match mode with
  | 0 => !e.lower && e.level
  | 1 => !e.lower && !e.level
  | 2 => !e.lower
  | 3 => e.lower && e.level
  | 4 => e.lower && !e.level
  | 5 => e.lower
  | 6 => e.before != 1 && e.after == 1
  | _ => e.before == 1 && e.after != 1

/-- LC_EDGE in one tick (R279, R280). -/
def State.lcEdge (s : State) (c : UnitCfg) : List SubTime :=
  let g := bits c.p0 3 0
  let q (e : LcEdge) : Bool := (below 16).all (fun i =>
    let n := 16 * g + i
    let code := bits (c.terms.getD 0 0) (4 * i + 3) (4 * i)
    termHolds code (if n = c.source then e.after else (s.chan n).stateAt e.slot))
  if 3 ≤ c.mode ∧ !s.windowMode c.source then []
  else ((s.chan c.source).edges.filter (fun e => edgeKind c.mode e && q e)).map (·.time)

/-- Does an edge open (true) or close (false) a pulse (R281)? -/
def pulseEdge (pulse : Nat) (e : LcEdge) : Option Bool :=
  match pulse with
  | 0 => if e.lower then none else some e.level
  | 1 => if e.lower then none else some (!e.level)
  | _ => if e.before != 1 && e.after == 1 then some true else if e.before == 1 && e.after != 1 then some false else none

/-- The bound an EARLY pulse exceeds (R282). -/
def earlyBound (c : UnitCfg) : Option Nat :=
  if bit c.p2 8 then
    if c.mode = 1 then some (bits c.p0 31 0) else if c.mode = 3 then some (bits c.p1 31 0) else none
  else none

/-- One edge at an LC_WIDTH unit (R281, R282): a pulse opens, or closes and is judged. -/
def widthEdge (c : UnitCfg) (r : CondUnit × List SubTime) (e : LcEdge) : CondUnit × List SubTime :=
  match pulseEdge (bits c.p2 1 0) e with
  | none => r
  | some true => ({ r.1 with pulse := some e.time, early := false }, r.2)
  | some false =>
    match r.1.pulse with
    | none => r
    | some o =>
      let a := bits c.p0 31 0
      let b := bits c.p1 31 0
      let w := satN 32 (e.time - o)
      let y := { r.1 with pulse := none, early := false }
      let over_ : Bool := match earlyBound c with
        | some bd => bd < w
        | none => false
      if over_ then (y, if r.1.early then r.2 else r.2 ++ [o + (earlyBound c).getD 0 + 1])
      else
        let hit : Bool := match c.mode with
          | 0 => decide (w < a)
          | 1 => decide (a < w)
          | 2 => decide (a ≤ w ∧ w ≤ b)
          | _ => decide (w < a ∨ b < w)
        (y, if hit then r.2 ++ [e.time] else r.2)

/-- LC_WIDTH in one tick (R281-R283). A comparator's start abandons the pulse where it stands among the edges: edges accepted before the start
and still on their way count as before it. -/
def State.lcWidth (s : State) (c : UnitCfg) (x : CondUnit) (u : Tick) : CondUnit × List SubTime :=
  let ch := s.chan c.source
  let d := s.lcDelay c.source
  let inside : Bool := bits c.p2 1 0 = 2
  let r := (below (ch.view.length / 4)).foldl (fun (r : CondUnit × List SubTime) i =>
    let r := if ch.starts.any (fun e => e.1 = 4 * i && (!e.2 || inside)) then ({ r.1 with pulse := none, early := false }, r.2) else r
    (ch.edges.filter (fun e => e.slot / 4 = i)).foldl (widthEdge c) r) (x, [])
  match r.1.pulse, earlyBound c with
  | some o, some bd =>
    if !r.1.early && tickOf (o + bd + 1) + d ≤ u then ({ r.1 with early := true }, r.2 ++ [o + bd + 1]) else r
  | _, _ => r

/-- LC_WINDOW in one tick (R284). -/
def State.lcWindow (s : State) (c : UnitCfg) (u : Tick) : List SubTime :=
  let mask := bits c.p0 15 0
  let side := bits c.p1 1 0
  let all_ := ((below 16).filter (bit mask)).map (fun i => 16 * c.source + i)
  let ch := all_.filter s.windowMode
  let d := s.worstDelay all_
  let at_ (slot n : Nat) : Nat := (s.chan n).stateAt slot
  let slots := below (s.places ch)
  let sideOk (st : Nat) : Bool := (st == 3 && side != 2) || (st == 0 && side != 1)
  if mask = 0 then []
  else
    match c.mode with
    | 0 => ((slots.find? (fun i => ch.any (fun n => sideOk (at_ i n)))).map (fun i => 64 * (u - d) + 16 * (i % 4))).toList
    | 2 => ((slots.find? (fun i => ch.length == all_.length && ch.all (fun n => at_ i n == 1))).map (fun i => 64 * (u - d) + 16 * (i % 4))).toList
    | 1 => ch.flatMap (fun n => ((s.chan n).edges.filter (fun e => e.before == 1 && e.after != 1 && (side == 0 || sideOk e.after))).map (·.time))
    | _ => ch.flatMap (fun n => ((s.chan n).edges.filter (fun e => e.before != 1 && e.after == 1)).map (·.time))

/-- TIME_COMPARE in tick u (R289, R290). -/
def timeCompare (c : UnitCfg) (since u : Tick) : Bool :=
  let t := c.p0
  let w := bits c.p2 31 0
  match c.mode with
  | 0 => decide (since ≤ t ∧ t ≤ u ∧ u < t + w)
  | 1 => decide (t ≤ u)
  | 2 => decide (u < t)
  | _ => decide (t ≤ u) && (let o := t + (u - t) / c.p1 * c.p1; decide (since ≤ o ∧ u < o + w))

/-- An EXT unit in HIGH or LOW mode: the pin's conditioned level in the tick (R292). -/
def State.extLevel (s : State) (c : UnitCfg) : List SubTime :=
  if c.type = 12 ∧ c.source < 8 ∧ 2 ≤ c.mode ∧ (s.flag (Obj.trigInLevel c.source)) = (c.mode = 2) then
    [ofTick ((s.trigIn.getD c.source {}).since)]
  else []

/-- The evaluation delay E of a type (R262). -/
def unitDelay (type : Nat) : Nat := if type = 3 then 2 else 1

/-- Does a CODE_ERROR unit's count reach COUNT_MIN (R288)? -/
def codeReached (c : UnitCfg) (x : CondUnit) : Bool := c.type != 10 || x.window.any (fun w => bits c.p2 31 0 ≤ w.2)

/-- One unit in tick u: its inputs, and what it presents (R262). -/
def State.unitTick (s : State) (here : List Arrival) (u : Tick) (n : Nat) : State :=
  let c := s.unitCfg n
  let x := s.units.getD n {}
  let r := here.foldl (fun (r : CondUnit × List SubTime) a => let y := unitArrival c r.1 u a; (y.1, r.2 ++ y.2)) (x, [])
  let r := if codeReached c r.1 then r else (r.1, [])
  let r2 := match c.type with
    | 4 => s.lcPattern c r.1 u
    | 5 => (r.1, s.lcEdge c)
    | 6 => s.lcWidth c r.1 u
    | 7 => (r.1, s.lcWindow c u)
    | 12 => (r.1, s.extLevel c)
    | _ => (r.1, [])
  let x := r2.1
  let x := match earliest (r.2 ++ r2.2) with
    | some t => { x with sched := x.sched ++ [(u + unitDelay c.type, t)] }
    | none => x
  let now := (x.sched.filter (fun p => p.1 = u)).map (·.2) ++ (if c.type = 11 ∧ timeCompare c x.since u then [ofTick u] else [])
  let s := { s with units := s.units.put n {} { x with sched := x.sched.filter (fun p => u < p.1) } }
  match earliest now with
  | some t => (({ s with cuOut := s.cuOut ++ [(n, t)] }).bump (Obj.cuCntMatchTicks n) 1).setObj (Obj.cuCntLastTime n) (timeVal t)
  | none => s

/-- A pin's new conditioned level becomes visible in the tick in which it reaches the units (R299). -/
def State.showPins (s : State) (here : List Arrival) : State :=
  here.foldl (fun s a => match a with
    | .trigIn pin level t =>
      { s.setObj (Obj.trigInLevel pin) (ofBool level) with trigIn := s.trigIn.modify pin {} (fun p => { p with since := tickOf t }) }
    | _ => s) s

/-- Every unit in tick u. -/
def State.unitsTick (s : State) (u : Tick) : State :=
  let here := (s.arrivals.filter (fun a => a.1 ≤ u)).map (·.2)
  let s := { s with arrivals := s.arrivals.filter (fun a => u < a.1), cuOut := [] }
  let s := s.showPins here
  s.unitList.foldl (fun s n => s.unitTick here u n) s

/-- The ring of a history channel keeps 524,288 positions (R295). -/
abbrev ringDepth : Nat := 524288

/-- VALID_DEPTH of a history channel in tick u (R296, R309). -/
def State.histDepth (s : State) (h : Nat) (u : Tick) : Nat := min ringDepth ((u : Int) - s.ringClr.getD h 0).toNat

/-- The history write at the end of tick u (R295). -/
def State.historyTick (s : State) (u : Tick) : State :=
  s.cuOut.foldl (fun s e =>
    let h := s.obj (Obj.cuHistCh e.1)
    if h < 64 then
      { s with rings := s.rings.put h [] ((u : Int) :: (s.rings.getD h []).filter (fun p => (u : Int) < p + ringDepth)) }
    else s) s

/-- Clear a history ring at a boundary (R296). -/
def State.clearRing (s : State) (h : Nat) (t : Tick) : State :=
  if h < 64 then { s with rings := s.rings.del h, ringClr := s.ringClr.put h 0 t } else s

/-- What a reader of a unit's or a ring's object sees in the open tick (R297, R300). -/
def State.unitView (s : State) (k : Key) : Option Nat :=
  if 0x3600 ≤ k / 256 ∧ k / 256 < 0x3700 ∧ k % 256 = 0x0D then some (ofBool (s.cuOut.find (k / 256 - 0x3600)).isSome)
  else if k / 256 = 0x6200 ∧ 1 ≤ k % 256 ∧ k % 256 < 65 then some (s.histDepth (k % 256 - 1) s.tick)
  else none

/-- What a commit does to the units at its boundary (R261, R296, R358): `forced` units count as changed whatever their values. -/
def State.unitEffects (s old : State) (t : Tick) (keys : List Key) (forced : List Nat) : State :=
  let touched (n : Nat) : Bool := forced.contains n || (keys.any (fun k => k / 256 = 0x3600 + n) && s.unitCfg n != old.unitCfg n)
  ((below 256).filter touched).foldl (fun s n =>
    let a := old.unitCfg n
    let b := s.unitCfg n
    let x : CondUnit := { since := t, sched := if b.type = 0 then [] else (old.units.getD n {}).sched }
    let s := { s with units := s.units.put n {} x }
    if a.type != b.type || a.source != b.source || a.hist != b.hist then (s.clearRing a.hist t).clearRing b.hist t else s) s

/-- The pins are sampled at the boundary that opens a tick (R291): a sample inverted by INVERT that differs from the conditioned level counts
towards FILTER, and one that agrees ends the count. -/
def State.samplePins (s : State) (changes : List (Nat × Bool)) : State :=
  { s with trigIn := (below 8).foldl (fun t i =>
      t.modify i {} (fun p =>
        let ball := ((changes.filter (fun e => e.1 = i)).getLast?.map (·.2)).getD p.ball
        let differs : Bool := (ball != s.flag (Obj.trigInInvert i)) != p.level
        { p with ball := ball, count := if differs then p.count + 1 else 0 })) s.trigIn }

/-- Sampling of the pins restarts, their conditioned levels low, and no accepted change is on its way (R726). -/
def State.restartPins (s : State) (t : Tick) : State :=
  let s := { s with trigIn := (below 8).map (fun i => (i, { since := t, ball := (s.trigIn.getD i {}).ball })),
                    arrivals := s.arrivals.filter (fun a => match a.2 with
                      | .trigIn _ _ _ => false
                      | _ => true) }
  (below 8).foldl (fun s i => s.setObj (Obj.trigInLevel i) 0) s

/-- TRIG_IN_ACCEPT (R291, R293): FILTER samples in a row at the new level, the last in the open tick, make it the conditioned level. -/
def execTrigInAccept (pin : Nat) (level : Bool) (s : State) : Ans :=
  let p := s.trigIn.getD pin {}
  let f := s.obj (Obj.trigInFilter pin)
  if 8 ≤ pin ∨ p.level = level ∨ !s.running ∨ p.count < f then .next s
  else
    let first := s.tick + 1 - p.count
    .next { s with trigIn := s.trigIn.put pin {} { p with level := level, count := 0 },
                   arrivals := s.arrivals ++ [(first + 1 + f, .trigIn pin level (ofTick first))] }

/-- The software lines pulsed at the boundary that opens a tick (R294): writes of one boundary are combined. -/
def State.pulseLines (s : State) (t : Tick) (lines : Nat) : State :=
  let old := (s.arrivals.filterMap (fun a => match a with
    | (d, .soft l _) => if d = t then some l else none
    | _ => none)).foldl (· ||| ·) 0
  let rest := s.arrivals.filter (fun a => match a with
    | (d, .soft _ _) => d != t
    | _ => true)
  { s with arrivals := rest ++ [(t, .soft (old ||| lines) (ofTick t))] }

end Sys2Proof.Machine
end

