-- ==== Sys2Proof/Machine/Decoders.lean ====
section
/-! DEFINITION. Line decoders (chapter "Line decoders and video structure", R168-R221, R473-R477): what the events of the
line codes do to the decoder's objects, its queues and the condition units. -/

namespace Sys2Proof.Machine

/-- A decoder's state behind its objects. -/
def State.dec (s : State) (n : Nat) : Decoder := s.decs.getD n {}

/-- Give a decoder its state. -/
def State.setDec (s : State) (n : Nat) (d : Decoder) : State := { s with decs := s.decs.put n {} d }

/-- The lanes a decoder reads: its own, or those of the link it is logical lane 0 of (R168). -/
def State.decLanes (s : State) (n : Nat) : List Nat :=
  let k := s.obj (Obj.laneLink n)
  if k < 16 then s.linkLanes k else [n]

/-- Ticks per received bit of a lane, as a fraction (R134, R174). -/
def State.bitPeriod (s : State) (lane : Nat) : Nat × Nat :=
  (1000000000 * s.obj (Obj.laneBaudDen lane), s.obj (Obj.laneBaudNum lane) * (1 + s.obj (Obj.laneModulation lane)))

/-- The coded personality's objects of a decoder. -/
def State.codeCfg (s : State) (n : Nat) : CodeCfg :=
  { pers := s.obj (Obj.decPersonality n), commaA := s.obj (Obj.decCommaA n), commaB := s.obj (Obj.decCommaB n),
    dispCheck := s.flag (Obj.decDispCheck n), mark := s.obj (Obj.decMarkSymbol n), alignCount := s.obj (Obj.decAlignCount n),
    scrMode := s.obj (Obj.decScrMode n), scrLen := s.obj (Obj.decScrLen n), scrPoly := s.obj (Obj.decScrPoly n),
    scrSeed := s.obj (Obj.decScrSeed n), scrReset := s.obj (Obj.decScrReset n), scrResetSym := s.obj (Obj.decScrResetSym n),
    msbFirst := s.flag (Obj.decScrBitOrder n), kAdvance := s.flag (Obj.decScrKAdvance n), syncData := s.obj (Obj.decSyncData n),
    syncCtrl := s.obj (Obj.decSyncCtrl n), tol := s.obj (Obj.decHdrTolerance n), lockHdrs := s.obj (Obj.decLockHdrs n),
    lossBad := s.obj (Obj.decLossBad n), markPattern := s.obj (Obj.decMarkPattern n), markMask := s.obj (Obj.decMarkMask n),
    allBlocks := s.flag (Obj.decScrScope n), ethMode := s.obj (Obj.decEthMode n), fecMode := s.obj (Obj.decFecMode n),
    hiBer := s.flag (Obj.decHiBer n) }

/-- The bound of R175 on an item of a decoder, and the tick at which the item reaches the units: within the bound,
the same for every item of the kind (assumption 9). `long` is FRAME_END with SIGNATURE. -/
def State.decDue (s : State) (n : Nat) (long : Bool) (now : Tick) : Tick :=
  let bound := match s.obj (Obj.decPersonality n) with
    | 0 => 1
    | 1 => if long then 24 else 12
    | 2 => if s.obj (Obj.decFecMode n) = 0 then 14 else 40
    | 3 => 6
    | _ => 8
  now + 1 + Config.delay n (ofBool long) % bound

/-- The tick at which SYNC_LOST and SYNC_ACQUIRED of a decoder reach the units: within the bound of the personality's first row of R175. -/
def State.syncDue (s : State) (n : Nat) (now : Tick) : Tick :=
  if s.obj (Obj.decPersonality n) = 2 then now + 1 + Config.delay n 0 % 14 else s.decDue n false now

/-- An input goes on its way to the units. -/
def State.arrive (s : State) (due : Tick) (a : Arrival) : State := { s with arrivals := s.arrivals ++ [(due, a)] }

/-- The queues that receive a decoder's events (R177). -/
def State.videoQueues (s : State) (n : Nat) : List Nat := s.sourceQueues 6 n

/-- Records of a decoder reach its queues. -/
def State.toVideo (s : State) (n : Nat) (recs : List Rec) (t now : Tick) (tally : List (Key × Nat) := []) : State :=
  (s.videoQueues n).foldl (fun s q => s.deliver q recs 1 (ofTick t) (ofTick t) now tally) s

/-- A video event (R177, R194, R440): to the units always, to the queues when EVENT_MASK selects its kind. -/
def State.videoEvent (s : State) (n kind ln sig : Nat) (incomplete : Bool) (detail : Nat) (t now : Tick) : State :=
  let due := if kind = 11 ∨ kind = 12 then s.syncDue n t else s.decDue n (kind = 4 ∨ kind = 6) now
  let s := s.arrive due (.video n none kind ln sig incomplete (ofTick t))
  if bit (s.obj (Obj.decEventMask n)) kind then s.toVideo n [videoEventRec n t kind incomplete none detail] t now else s

/-- Errors of one kind (R176, R177): counted, seen by the units, kept for the tick's record where the mask selects them. -/
def State.codeError (s : State) (n kind count logical : Nat) (t now : Tick) : State :=
  if count = 0 then s
  else
    let s := (s.bump (Obj.decCntCodeErrors n) count).arrive (s.decDue n false now) (.code n [(kind, count)] (ofTick t))
    if bit (s.obj (Obj.decCodeErrorMask n)) kind then
      let d := s.dec n
      s.setDec n { d with errs := d.errs ++ [(kind, count)], errAt := some (d.errAt.getD (logical, t)) }
    else s

/-- The record of a tick's errors (R176, R441). -/
def State.flushErrors (s : State) (n : Nat) (now : Tick) : State :=
  let d := s.dec n
  match d.errAt with
  | none => s
  | some (logical, t) =>
    let kinds := d.errs.foldl (fun m e => m ||| 2 ^ e.1) 0
    (s.setDec n { d with errs := [], errAt := none }).toVideo n
      [codeErrorRec n t kinds ((d.errs.map (·.2)).sum) logical] t now

/-! ## Synchronisation -/

/-- A flow or frame signature goes to the tap of every running SIGNATURE entry that names it (R617). -/
def State.tapSignature (s : State) (inst : Nat) (flow : Option Nat) (sig : Nat) (incomplete : Bool) (t : SubTime) : State :=
  (below 8).foldl (fun s k =>
    let named := match flow with
      | some fid => s.obj (Obj.sigSrc k) = 1 && s.obj (Obj.sigSource k) = fid
      | none => s.obj (Obj.sigSrc k) = 0 && s.obj (Obj.sigSource k) = inst
    if !named || s.obj (Obj.sigState k) ≠ 1 then s
    else
      let x := s.sigs.getD k {}
      if 256 ≤ x.tap.length then s.bump (Obj.sigSkipped k) 1
      else { s with sigs := s.sigs.put k {} { x with tap := x.tap ++ [(sig, incomplete, t)] } }) s

/-- The signature takes the lines that every logical lane has delivered, in lane order (R196, R197): line by line of logical lane 0, each lane's line of the
same time, which the deskew brings within a tick, whatever LN it bears; a lane that has gone on without that line, or that has ended the frame,
gives nothing for it, and a line that logical lane 0 has not is not covered. -/
def takeLines (lanes : Nat) : Nat → SdiFrame → SdiFrame
  | 0, f => f
  | fuel + 1, f =>
    match (f.queue.getD 0 []) with
    | [] => f
    | (at0, b0) :: rest =>
      let mine (i : Nat) : List (Tick × Bytes) := (f.queue.getD i []).dropWhile (fun e => e.1 + 1024 < at0)
      let ready (i : Nat) : Bool := mine i != [] || (f.closed.isSome && f.ended.contains i)
      if (below lanes).all (fun i => i = 0 || ready i) then
        let part (i : Nat) : Bytes :=
          if i = 0 then b0
          else match mine i with
            | e :: _ => if e.1 ≤ at0 + 1024 then e.2 else []
            | [] => []
        let b := (below lanes).flatMap part
        let left (i : Nat) : List (Tick × Bytes) :=
          if i = 0 then rest
          else match mine i with
            | e :: l => if e.1 ≤ at0 + 1024 then l else e :: l
            | [] => []
        takeLines lanes fuel { f with crc := crc32Run f.crc b, bytes := f.bytes + b.length, taken := f.taken + 1,
                                      queue := (below lanes).map (fun i => (i, left i)) }
      else f

/-- SIGNATURE of a frame that has closed at a time with so many active lines, where the signature has taken them all (R194-R196). -/
def State.signFrame (s : State) (n : Nat) (f : SdiFrame) (t : Tick) (lines : Nat) (now : Tick) : State :=
  if !f.signed ∨ f.taken < lines then s
  else
    let sig := f.crc ^^^ 0xFFFFFFFF
    let s := (s.setObj (Obj.decLastSignature n) sig).bump (Obj.decCntSignatures n) 1
    (s.videoEvent n 6 0 sig f.incomplete (sig + 2 ^ 32 * cut 32 f.bytes) t now).tapSignature n none sig f.incomplete (ofTick t)

/-- SIGNATURE once the frame has closed, every lane's last line and its CRC are in, and the lanes' last EAVs have been compared (R194, R196, R199). -/
def State.finishFrame (s : State) (n now : Tick) : State :=
  let d := s.dec n
  let lanes := (s.decLanes n).length
  let f := takeLines lanes ((d.frame.queue.getD 0 []).length + 1) d.frame
  match f.closed with
  | none => s.setDec n { d with frame := f }
  | some (t, lines) =>
    if f.signed ∧ (f.taken < lines ∨ !(below lanes).all f.ended.contains ∨ d.check.isSome) then s.setDec n { d with frame := f }
    else (s.setDec n { d with frame := {} }).signFrame n f t lines now

/-- A loss of synchronisation in tick t (R171-R173): everything open is abandoned, but a frame whose closing EAV had come is complete and keeps its
signature; the record is written when the tick ends. Symbols on their way, from before the loss, reach the units before it (R269). `open_` adds an Ethernet frame that was being read where the decoder itself lost its lock. -/
def State.decLose (s : State) (n reason : Nat) (t : Tick) (open_ : Bool) : State :=
  let d := s.dec n
  let clean : Decoder := { d with fronts := [], frame := {}, aligned := false, eav := [], check := none, seen := [], flaw := none, loose := false }
  let again (r : Nat) : Option (Tick × Nat) := some (match d.lossPend with
    | some p => if p.1 = t then (t, min p.2 r) else (t, r)
    | none => (t, r))
  if s.obj (Obj.decDecState n) = 2 then
    let aborted : Bool := open_ || d.fronts.any (fun f => f.2.code.eth.isSome)
    let s := match d.frame.closed with
      | some (at_, lines) => s.signFrame n (takeLines (s.decLanes n).length ((d.frame.queue.getD 0 []).length + 1) d.frame) at_ lines s.tick
      | none => s
    let after := s.arrivals.foldl (fun m e => match e.2 with
      | .symbol l _ _ _ => if l = n then max m e.1 else m
      | _ => m) (s.tick + 1)
    let s := (s.setDec n { clean with lossPend := again reason, syncPend := none }).arrive after (.broken n false)
    let s := if aborted then s.bump (Obj.decCntPacketsAborted n) 1 else s
    s.setObjs [(Obj.decDecState n, 1), (Obj.decBlockLock n, 0)]
  else
    s.setDec n { clean with lossPend := if d.lossPend.any (·.1 = t) then again reason else d.lossPend }

/-- The SYNC_LOST of a tick that ends (R171, R172), and the SYNC_ACQUIRED that came after the loss. -/
def State.flushLoss (s : State) (n : Nat) (now : Tick) : State :=
  let d := s.dec n
  match d.lossPend with
  | none => s
  | some (t, reason) =>
    let s := ((s.setDec n { d with lossPend := none, syncPend := none }).bump (Obj.decCntSyncLossCount n) 1).setObj (Obj.decLossReason n) reason
    let s := s.videoEvent n 11 0 0 false reason t now
    match d.syncPend with
    | some at_ => s.videoEvent n 12 0 0 false 0 at_ now
    | none => s

/-- Does every logical lane stand in synchronisation? -/
def State.allSynced (s : State) (n : Nat) : Bool :=
  let p := s.obj (Obj.decPersonality n)
  (below (s.decLanes n).length).all (fun i =>
    let f := (s.dec n).fronts.getD i {}
    if p = 1 then f.sdi.sync else f.code.sync)

/-- Entry to SYNC (R170, R194). -/
def State.decSync (s : State) (n now : Tick) : State :=
  let s := s.setObj (Obj.decDecState n) 2
  let s := if s.obj (Obj.decPersonality n) = 2 then s.setObj (Obj.decBlockLock n) 1 else s
  if (s.dec n).lossPend.isSome then s.setDec n { s.dec n with syncPend := some now } else s.videoEvent n 12 0 0 false 0 now now

/-! ## SDI -/

/-- A time of logical lane i after the deskew. -/
def State.deskewed (s : State) (n i : Nat) (t : Tick) : Tick := t + (s.links.getD (s.obj (Obj.laneLink n)) {}).delays.getD i 0

/-- Something of logical lane i at time t that makes the open frame's signature INCOMPLETE, or that of the frame whose opening EAV it comes with, though that
EAV's line is not yet known (R199). -/
def State.markIncomplete (s : State) (n i : Nat) (t : Tick) : State :=
  let d := s.dec n
  let d := { d with flaw := some (max (s.deskewed n i t) (d.flaw.getD 0)) }
  s.setDec n (if d.frame.open_ ∨ d.frame.closed.isSome then { d with frame := { d.frame with incomplete := true } } else d)

/-- LINE, LN_JUMP, the frame's opening and closing, and the lane comparison of a link (R185, R191, R193, R194). -/
def State.sdiLine (s : State) (n i ln : Nat) (f v : Bool) (prev : Option Nat) (prevV : Bool) (t now : Tick) : State :=
  let jump : Bool := match prev with
    | some p => ln != p + 1 && ln != 1
    | none => false
  let s := if jump then
      ((s.bump (Obj.decCntLnJump n) 1).videoEvent n 10 ln 0 false (ln + 2 ^ 16 * prev.getD 0) t now).markIncomplete n i t
    else s
  let d := s.dec n
  let d := { d with eav := d.eav.set i (ln, t), frame := if v then d.frame else { d.frame with ended := d.frame.ended.filter (· != i) } }
  let s := s.setDec n d
  if i ≠ 0 then s
  else
    let s := (s.bump (Obj.decCntLines n) 1).setObj (Obj.decLastLn n) ln
    let due := s.decDue n false now
    let s := (s.videoEvent n 1 ln 0 false (ln + 2 ^ 11 * ofBool f + 2 ^ 12 * ofBool v) t now).arrive due (.field n 2 ln [] (ofTick t))
    let d := s.dec n
    let s := if 1 < (s.decLanes n).length then s.setDec n { d with check := some (ln, t, now) } else s
    let whole : Bool := s.obj (Obj.decScan n) != 0
    let d := s.dec n
    if prevV && !v && (!whole || !f) then
      s.setDec n { d with frame := { open_ := true, lines := 1, signed := s.flag (Obj.decSigEnable n), incomplete := jump || d.flaw.any (s.deskewed n 0 t ≤ · + 2) } }
    else if !prevV && v && d.frame.open_ && (!whole || f) then
      let lines := d.frame.lines
      let s := (s.setDec n { d with frame := { d.frame with open_ := false, closed := some (t, lines) } }).bump (Obj.decCntFrames n) 1
      (s.videoEvent n 4 0 0 false (cut 16 lines) t now).finishFrame n now
    else if !v && d.frame.open_ then s.setDec n { d with frame := { d.frame with lines := d.frame.lines + 1 } }
    else s

/-- The comparison of R191, once every other lane has been read past the line number of an EAV that came within 1 tick of logical lane 0's. -/
def State.linkCheck (s : State) (n now : Tick) : State :=
  let d := s.dec n
  match d.check with
  | none => s
  | some (ln, t, _) =>
    let lanes := s.decLanes n
    let delays := (s.links.getD (s.obj (Obj.laneLink n)) {}).delays
    let shift (i : Nat) (x : Tick) : Int := (x : Int) + delays.getD i 0
    let (num, den) := s.bitPeriod n
    let span := bitTick 0 (60 * sdiStreams (s.obj (Obj.decSdiRate n))) num den + 2
    if (below lanes.length).any (fun i => i != 0 && decide (shift i (d.seen.getD i 0) < shift 0 t + span)) then s
    else
      let s := s.setDec n { d with check := none }
      ((below lanes.length).foldl (fun s i =>
        if i = 0 then s
        else
          let e := d.eav.getD i (0, 0)
          if e.1 = ln ∧ (shift i e.2 - shift 0 t).natAbs ≤ 1 then s
          else (s.videoEvent n 13 e.1 0 false (e.1 + 2 ^ 16 * i) t now).markIncomplete n 0 t) s).finishFrame n now

/-- An ANC_FILTER entry matches a packet (R189, R220). -/
def ancMatch (e did sdid : Nat) : Bool := bit e 31 && bits e 7 0 == did && (bit e 30 || bits e 15 8 == sdid)

/-- An ancillary packet (R187-R190). -/
def State.sdiAnc (s : State) (n stream ln : Nat) (vertical : Bool) (off : Nat) (words : List Nat) (t now : Tick) : State :=
  let did := words.getD 0 0 % 256
  let sdid := words.getD 1 0 % 256
  let dc := words.getD 2 0 % 256
  let sum := ((words.dropLast.map (· % 512)).sum) % 512
  let badSum : Bool := sum != words.getLastD 0 % 512
  let badPar : Bool := (words.take 3).any (fun w => !ancParity w)
  let due := s.decDue n false now
  let s := if badSum then
      (s.bump (Obj.decCntAncCsumErr n) 1).videoEvent n 8 ln 0 false (ln + 2 ^ 16 * stream + 2 ^ 32 * did + 2 ^ 40 * sdid) t now
    else s
  let s := s.arrive due (.field n 4 (2 ^ 24 * stream + 2 ^ 16 * did + 2 ^ 8 * sdid + dc) [] (ofTick t))
  let s := if did = 0x41 ∧ sdid = 1 then
      let v := ((below 4).map (fun i => 2 ^ (8 * i) * (words.getD (3 + i) 0 % 256))).sum
      let s := s.arrive due (.field n 3 v [] (ofTick t))
      if v = s.obj (Obj.decPayloadId n) then s else (s.setObj (Obj.decPayloadId n) v).videoEvent n 7 0 0 false v t now
    else s
  if (below 16).any (fun j => ancMatch (s.obj (Obj.decAncFilter n j)) did sdid) then
    let d := s.dec n
    if 16 ≤ d.ancQ.length then s.bump (Obj.decCntAncDropped n) 1
    else
      let data := words.flatMap (fun w => le 2 w)
      let anc := ofBool badPar + 2 * ofBool badSum + 2 ^ 2 * stream + 2 ^ 8 * ofBool vertical + 2 ^ 9 * ln + 2 ^ 20 * cut 16 off
      s.setDec n { d with ancQ := d.ancQ ++ [packetRecs n t 3 0 0 data.length 0 anc data] }
  else s

/-- The packet that leaves the decoder in a tick (R189). -/
def State.releaseAnc (s : State) (n now : Tick) : State :=
  let d := s.dec n
  match d.ancQ with
  | [] => s
  | r :: rest =>
    ((s.setDec n { d with ancQ := rest }).bump (Obj.decCntAncPackets n) 1).toVideo n r ((r.head?.map (·.tick)).getD now) now

/-- Cut a list into groups of 16; a shorter last group is filled with its last sample (R475). -/
def groups16 : Nat → List Nat → List (List Nat)
  | 0, _ => []
  | f + 1, l => if l = [] then [] else
      let g := l.take 16
      (g ++ List.replicate (16 - g.length) (g.getLastD 0)) :: groups16 f (l.drop 16)

/-- The Filet word of a group (R473, R474). -/
def filetWord (g : List Nat) : Nat :=
  let lo := g.foldl min (g.headD 0)
  let hi := g.foldl max 0
  let d := hi - lo
  let lv := g.map (fun x => if d = 0 then 0 else (6 * (x - lo) + d) / (2 * d))
  ((below 16).map (fun i => 4 ^ i * (lv.getD i 0))).sum + 2 ^ 32 * lo + 2 ^ 48 * hi

/-- The FILET records of one component of a line, at most 253 words each (R476): samples with their times. -/
def filetRecs (src ln comp : Nat) (fid : Option Nat) : Nat → Nat → List (Nat × Tick) → List Rec
  | 0, _, _ => []
  | f + 1, first, l =>
    match l with
    | [] => []
    | (_, t) :: _ =>
      let now := l.take (16 * 253)
      let words := (groups16 254 (now.map (·.1))).map filetWord
      filetRec src t ln comp fid first words :: filetRecs src ln comp fid f (first + 253) (l.drop (16 * 253))

/-- The Filet track of an active line (R475-R477). -/
def State.sdiFilet (s : State) (n ln : Nat) (luma chroma : List Nat) (now : Tick) : State :=
  if s.flag (Obj.decFiletFiletEnable n) then
    let p := s.obj (Obj.decFiletFiletPair n)
    let mask := s.obj (Obj.decFiletFiletComponents n)
    let pick (strm : Nat) (l : List Nat) : List (Nat × Tick) :=
      (l.filter (fun x => bits x 31 16 == strm)).map (fun x => (bits x 9 0, x / 2 ^ 32))
    let c := pick (2 * p - 2) chroma
    let part (odd : Bool) : List (Nat × Tick) := (c.zip (below c.length)).filterMap (fun z => if z.2 % 2 = ofBool odd then some z.1 else none)
    let comps := [(0, pick (2 * p - 1) luma), (1, part false), (2, part true)]
    let recs := (comps.filter (fun x => bit mask x.1)).flatMap (fun x => filetRecs n ln x.1 none 64 0 x.2)
    recs.foldl (fun s r => s.toVideo n [r] r.tick now [(Obj.coderCntFiletWords, (r.body.length - 8) / 8)]) s
  else s

/-! ## Coded items -/

/-- One symbol or block as the decoder presents it (R211, R215, R268, R271). -/
def State.presentItem (s : State) (n : Nat) (c : CodeItem) (now : Tick) : State :=
  let p := s.obj (Obj.decPersonality n)
  let due := s.decDue n false now
  let s := s.arrive due (.symbol n 0 (if p = 3 ∧ !c.valid then none else some c.value) (ofTick c.time))
  if p = 4 then s.arrive due (.field n 5 0 (le 16 c.payload) (ofTick c.time)) else s

/-- The items of one lane's front. -/
def Decoder.items (d : Decoder) (i : Nat) : List CodeItem := (d.fronts.getD i {}).code.items

/-- Give one lane its items. -/
def Decoder.setItems (d : Decoder) (i : Nat) (l : List CodeItem) : Decoder :=
  let f := d.fronts.getD i {}
  { d with fronts := d.fronts.set i { f with code := { f.code with items := l } } }

/-- Bring the lanes of a link together where it has no marker (R155, R211, R215): an item that lies half a period or more before the latest of the
lanes' first ones is discarded; `num` / `den` is the period in ticks. -/
def levelLanes (lanes num den : Nat) (delays : List Nat) : Nat → Decoder → Decoder
  | 0, d => d
  | fuel + 1, d =>
    let heads := (below lanes).filterMap (fun i => ((d.items i).head?).map (fun c => (i, c.time + delays.getD i 0)))
    if heads.length < lanes then d
    else
      let hi := heads.foldl (fun m h => max m h.2) 0
      let early := heads.filter (fun h => num ≤ 2 * (hi - h.2) * den)
      if early = [] then { d with aligned := true }
      else levelLanes lanes num den delays fuel (early.foldl (fun d h => d.setItems h.1 ((d.items h.1).drop 1)) d)

/-- Bring the lanes of a link to one marker (R155): what lies before it is discarded. -/
def alignLanes (lanes : Nat) (delays : List Nat) : Nat → Decoder → Decoder
  | 0, d => d
  | fuel + 1, d =>
    let d := (below lanes).foldl (fun d i => d.setItems i ((d.items i).dropWhile (fun c => !c.mark))) d
    let heads := (below lanes).filterMap (fun i => ((d.items i).head?).map (fun c => (i, c.time + delays.getD i 0)))
    if heads.length < lanes then d
    else
      let lo := heads.foldl (fun m h => min m h.2) ((heads.headD (0, 0)).2)
      let hi := heads.foldl (fun m h => max m h.2) 0
      if hi ≤ lo + 2 then { d with aligned := true }
      else
        alignLanes lanes delays fuel
          (heads.foldl (fun d h => if h.2 + 2 < hi then d.setItems h.1 ((d.items h.1).drop 1) else d) d)

/-- Present the items of a link in lockstep (R211, R215). -/
def State.presentLink (s : State) (n now : Tick) (lanes : Nat) : Nat → State
  | 0 => s
  | fuel + 1 =>
    let d := s.dec n
    let heads := (below lanes).filterMap (fun i => (d.items i).head?)
    if heads.length < lanes then s
    else
      let d := (below lanes).foldl (fun d i => d.setItems i ((d.items i).drop 1)) d
      (heads.foldl (fun s c => s.presentItem n c now) (s.setDec n d)).presentLink n now lanes fuel

/-- An item of a link that is aligned by time alone: once every lane's last marker lies within 2 ticks of the others', the lanes that stand further on in
their items than the one least far on give up the difference, and the alignment is that of the bits (R155, R211). -/
def Decoder.tighten (d : Decoder) (lanes i : Nat) (delays : List Nat) (c : CodeItem) : Decoder :=
  let at_ := d.count.getD i 0
  let d := { d with count := d.count.put i 0 (at_ + 1) }
  if !c.mark then d
  else
    let d := { d with marked := d.marked.set i (at_, c.time + delays.getD i 0) }
    let l := (below lanes).filterMap (fun j => (d.marked.find j).map (fun m => (j, m)))
    let lo := l.foldl (fun m e => min m e.2.2) (c.time + delays.getD i 0)
    if l.length < lanes ∨ l.any (fun e => lo + 2 < e.2.2) then d
    else
      let first := l.foldl (fun m e => min m e.2.1) at_
      { d with loose := false, skip := l.map (fun e => (e.1, e.2.1 - first)) }

/-- The items of a lane that the bit alignment discards. -/
def Decoder.drop (d : Decoder) (i : Nat) : Decoder :=
  let k := min (d.skip.getD i 0) (d.items i).length
  { d.setItems i ((d.items i).drop k) with skip := d.skip.put i 0 (d.skip.getD i 0 - k) }

/-- One item of a logical lane. Under MANUAL deskew a link starts by the lanes' times, which are whole ticks, and is brought to its bits by the first markers
that all its lanes have at one time (DESIGN CHOICE, assumption 34: R155 does not say by what the decoder aligns at bit level). -/
def State.codeItem (s : State) (n i : Nat) (c : CodeItem) (now : Tick) : State :=
  let lanes := (s.decLanes n).length
  if lanes ≤ 1 then s.presentItem n c now
  else
    let d := s.dec n
    let k := s.obj (Obj.laneLink n)
    let delays := (s.links.getD k {}).delays
    let d := d.setItems i (d.items i ++ [c])
    let d := if d.aligned then (if d.loose then (below lanes).foldl Decoder.drop (d.tighten lanes i delays c) else d.drop i)
      else if s.obj (Obj.linkDeskewMode k) = 1 then
        let (num, den) := s.bitPeriod n
        let d := levelLanes lanes ((if s.obj (Obj.decPersonality n) = 3 then 10 else 132) * num) den delays 64 d
        if d.aligned then { d with loose := true, count := (below lanes).map (fun j => (j, (d.items j).length)), marked := [], skip := [] } else d
      else { alignLanes lanes delays 32 d with loose := false, skip := [] }
    let s := s.setDec n d
    if d.aligned then s.presentLink n now lanes 32 else s

/-- Bad headers and codewords of the present interval (R207). -/
def State.countBad (s : State) (n count : Nat) : State :=
  let d := s.dec n
  let s := s.setDec n { d with bad := d.bad + count }
  if 16 ≤ d.bad + count then s.setObj (Obj.decHiBer n) 1 else s

/-! ## One event of a lane's line code -/

/-- What one event of logical lane i does (R170-R215). -/
def State.decOut (s : State) (n i now : Tick) (e : DecOut) : State :=
  let synced : Bool := s.obj (Obj.decDecState n) = 2
  match e with
  | .acquired => if s.allSynced n && !synced then s.decSync n now else s
  | .lost open_ => if synced then s.decLose n 4 now open_ else s
  | .mark _ => s
  | .symbol stream v t => if synced then s.arrive (s.decDue n false now) (.symbol n (stream + 64 * i) v (ofTick t)) else s
  | .item c => if synced then s.codeItem n i c now else s
  | .line ln f v present prev _ prevV t => if synced && present then s.sdiLine n i ln f v prev prevV t now else s
  | .eavEnd v =>
    let d := s.dec n
    if v && (d.frame.open_ || d.frame.closed.isSome) then
      (s.setDec n { d with frame := { d.frame with ended := i :: d.frame.ended.filter (· != i) } }).finishFrame n now
    else s
  | .firstActive t =>
    if !synced ∨ i ≠ 0 then s
    else
      let ln := s.obj (Obj.decLastLn n)
      let d := s.dec n
      let f : Bool := (d.fronts.getD 0 {}).sdi.f
      let s := if s.obj (Obj.decScan n) ≠ 0 then s.videoEvent n 2 ln 0 false (ln + 2 ^ 11 * ofBool f) t now else s
      if d.frame.open_ && d.frame.lines = 1 then s.videoEvent n 3 ln 0 false ln t now else s
  | .lineEnd ln bytes luma chroma at_ =>
    if !synced then s
    else
      let d := s.dec n
      let s := if d.frame.signed && (d.frame.open_ || d.frame.closed.isSome) then
          (s.setDec n { d with frame := { d.frame with queue := d.frame.queue.set i (d.frame.queue.getD i [] ++ [(s.deskewed n i at_, bytes)]) } }).finishFrame n now
        else s
      if i = 0 then s.sdiFilet n ln luma chroma now else s
  | .trsErr stream ln t =>
    if synced then ((s.bump (Obj.decCntTrsErr n) 1).videoEvent n 9 ln 0 false (ln + 2 ^ 16 * stream) t now).markIncomplete n i t else s
  | .crcErr stream ln t =>
    if synced then ((s.bump (Obj.decCntLineCrcErr n) 1).videoEvent n 5 ln 0 false (ln + 2 ^ 16 * stream) t now).markIncomplete n i t else s
  | .anc stream ln vertical off words t => if synced then s.sdiAnc n stream ln vertical off words t now else s
  | .error kind t =>
    -- an invalid header counts in SEARCH too (R201, R207, R213)
    if synced ∨ kind = 3 then
      let s := s.codeError n kind 1 i t now
      if (kind = 3 ∨ kind = 5) ∧ s.obj (Obj.decPersonality n) = 2 then s.countBad n 1 else s
    else s
  | .codeword bad k _ =>
    let s := (s.bump (Obj.decCntCwTotal n) 1).bump (Obj.decCntCwUncorr n) (ofBool bad)
    (s.bump (Obj.decCntCwCorrected n) (if k = 0 then 0 else 1)).bump (Obj.decCntSymCorrected n) k
  | .frame f =>
    if synced then let d := s.dec n; s.setDec n { d with ready := d.ready ++ [(now, { f with limit := s.obj (Obj.decMaxFrame n) })] } else s

/-! ## One lane word -/

/-- A lane word, or a link's word of logical lane i, reaches decoder n (R168-R175). -/
def State.decWord (s : State) (n i lane w stamp now : Nat) : State :=
  let st := s.obj (Obj.decDecState n)
  let s := if st = 0 ∨ st = 3 then s.setObj (Obj.decDecState n) 1 else s
  let p := s.obj (Obj.decPersonality n)
  if p = 0 then
    if s.obj (Obj.decDecState n) = 2 then s else s.decSync n now
  else
    let d := s.dec n
    let (num, den) := s.bitPeriod lane
    let (f, o) := frontWord (s.codeCfg n) (sdiStreams (s.obj (Obj.decSdiRate n))) num den w stamp (d.fronts.getD i {})
    let s := s.setDec n { d with fronts := d.fronts.set i f, seen := d.seen.set i (bitTick stamp 64 num den) }
    o.foldl (fun s e => s.decOut n i now e) s

/-- The decoders' work at a tick boundary: the ancillary packet of the tick, the link check. -/
def State.decTick (s : State) (u : Tick) : State :=
  s.decs.keys.foldl (fun s n => (s.releaseAnc n u).linkCheck n u) s

/-- A tick ends: what each decoder gathered in it is written, as the masks of that tick select (R171, R172, R176, R177). -/
def State.decClose (s : State) : State := s.decs.keys.foldl (fun s n => (s.flushErrors n s.tick).flushLoss n s.tick) s

/-- HI_BER_WINDOW (R207): the end of a 125 us interval. -/
def execHiBerWindow (n : Nat) (s : State) : Ans :=
  let d := s.dec n
  if 32 ≤ n ∨ s.obj (Obj.decPersonality n) ≠ 2 ∨ s.tick < d.badSince + 125000 then .next s
  else
    let s := if d.bad < 16 then s.setObj (Obj.decHiBer n) 0 else s
    .next (s.setDec n { d with bad := 0, badSince := s.tick })

end Sys2Proof.Machine
end

