-- ==== Sys2Proof/Machine/Lanes.lean ====
section
/-! DEFINITION. Serial lanes, links and the eye monitor (chapter "Serial lane receivers", R133-R167, R724), with what a commit
does to lanes, links and decoders (R134-R152, R168-R171, R178, R200, R213, R216, R218, R477). -/

namespace Sys2Proof.Machine

/-- A lane's state behind its objects. -/
def State.lane (s : State) (n : Nat) : Lane := s.lanes.getD n {}

/-- Give a lane its state. -/
def State.setLane (s : State) (n : Nat) (x : Lane) : State := { s with lanes := s.lanes.put n {} x }

/-- A link's state behind its objects. -/
def State.lnk (s : State) (k : Nat) : Link := s.links.getD k {}

/-- Give a link its state. -/
def State.setLnk (s : State) (k : Nat) (x : Link) : State := { s with links := s.links.put k {} x }

/-- Is a lane's CDR LOCKED? -/
def State.locked (s : State) (n : Nat) : Bool := s.obj (Obj.laneCdrState n) == 4

/-- The logical number of a lane in a link (R150). -/
def State.logicalOf (s : State) (k lane : Nat) : Nat := (s.linkLanes k).findIdx (· == lane)

/-! ## Words -/

/-- POLARITY as it was for a bit that arrived at a time (R139): before the first change after it, or as it is now. -/
def Lane.polarityAt (x : Lane) (now : Bool) (t : Tick) : Bool := ((x.pols.find? (fun p => t < p.1)).map (·.2)).getD now

/-- The bit period of a lane's words, and their MODULATION: those of the present or last LOCKED period. -/
def State.wordForm (s : State) (n : Nat) : Nat × Nat × Nat :=
  (s.lane n).form.getD ((s.bitPeriod n).1, (s.bitPeriod n).2, s.obj (Obj.laneModulation n))

/-- The 64 bits of a lane word from what the sampler received (R139-R141): NRZ bits, or 32 PAM4 levels, two bits each. DESIGN CHOICE (assumption
31): a word that straddles a commit of GRAY is decoded whole by the GRAY in force when it leaves the elastic buffer. -/
def State.wordOf (s : State) (n raw stamp : Nat) : Nat :=
  let (num, den, mode) := s.wordForm n
  let pol (i : Nat) : Bool := (s.lane n).polarityAt (s.flag (Obj.lanePolarity n)) (if den = 0 then stamp else stamp + i * num / den)
  if mode = 0 then
    natOfBits ((below 64).map (fun i => bit raw i != pol i))
  else
    natOfBits ((below 32).flatMap (fun i =>
      let l := bits raw (2 * i + 1) (2 * i)
      let l := if pol (2 * i) then 3 - l else l
      let v := if s.flag (Obj.laneGray n) then [0, 1, 3, 2].getD l 0 else l
      [bit v 1, bit v 0]))

/-- A GAP of a lane or a link reaches its queues (R144, R157). -/
def State.sourceGap (s : State) (kind src cause start stop items : Nat) (now : Tick) : State :=
  let n := max 1 items
  (s.sourceQueues kind src).foldl (fun s q => s.deliver q [gapRec cause src start (max 1 (stop - start)) n] n (ofTick start) (ofTick start) now) s

/-! ## Links -/

/-- The deskew delay of a logical lane. -/
def Link.delay (x : Link) (i : Nat) : Nat := x.delays.getD i 0

/-- A link presents one word of a logical lane to its queues and its decoder (R155, R158). -/
def State.linkPresent (s : State) (k i w stamp now : Nat) : State :=
  let lanes := s.linkLanes k
  let s := (s.sourceQueues 2 k).foldl (fun s q => s.addWord q i w (ofTick stamp) now) s
  s.decWord (lanes.headD 0) i (lanes.getD i 0) w stamp now

/-- A link leaves ALIGNED, or any state, for another at the boundary of a tick, by a cause that arose in tick `cause` (R151, R157, R172). -/
def State.linkLeave (s : State) (k state reason : Nat) (t cause : Tick) : State :=
  let x := s.lnk k
  let was := s.obj (Obj.linkLinkState k)
  let s := if was = 3 then (s.setLnk k { x with gap := some (t, 0) }).decLose ((s.linkLanes k).headD 0) 2 cause false else s
  s.setObjs [(Obj.linkLinkState k, state), (Obj.linkFailReason k, reason)]

/-- A link enters ALIGNED with its delays at a boundary (R155, R157). -/
def State.linkAlign (s : State) (k : Nat) (delays : List Nat) (t : Tick) : State :=
  let x := s.lnk k
  let ready := (x.buf.filter (fun b => t ≤ b.1 + delays.getD b.2.1 0)).length
  let s := match x.gap with
    | some (start, n) => s.sourceGap 2 k 5 start t (n - ready) t
    | none => s
  let s := s.setLnk k { x with gap := none, delays := delays, since := t, misaligned := 0, buf := x.buf.filter (fun b => t ≤ b.1 + delays.getD b.2.1 0) }
  s.setObjs [(Obj.linkLinkState k, 3), (Obj.linkFailReason k, 0)]

/-- Do the member lanes agree in MODULATION, BAUD_NUM and BAUD_DEN (R151)? -/
def State.ratesAgree (s : State) (k : Nat) : Bool :=
  match s.linkLanes k with
  | [] => true
  | a :: l => l.all (fun b => s.obj (Obj.laneModulation a) == s.obj (Obj.laneModulation b) && s.obj (Obj.laneBaudNum a) == s.obj (Obj.laneBaudNum b)
      && s.obj (Obj.laneBaudDen a) == s.obj (Obj.laneBaudDen b))

/-- What WAIT_LOCK waits for (R151): to FAIL where the rates differ, on where every member is LOCKED. -/
def State.linkTry (s : State) (k : Nat) (t : Tick) : State :=
  let lanes := s.linkLanes k
  if s.obj (Obj.linkLinkState k) ≠ 1 ∨ lanes = [] then s
  else if !s.ratesAgree k then
    (s.setLnk k { s.lnk k with since := t }).setObjs [(Obj.linkLinkState k, 4), (Obj.linkFailReason k, 1)]
  else if !lanes.all s.locked then s
  else if s.obj (Obj.linkDeskewMode k) = 1 then s.linkAlign k ((below 8).map (fun i => s.obj (Obj.linkDeskewSet k i))) t
  else
    let s := lanes.foldl (fun s l => s.setLane l { s.lane l with finder := {} }) s
    (s.setLnk k { s.lnk k with marks := [], zeroMarks := 0, seen := [], sets := [], since := t, lastZero := t }).setObjs [(Obj.linkLinkState k, 2), (Obj.linkFailReason k, 0)]

/-- A link goes to WAIT_LOCK; `clear` also clears its skews (R151, R152). -/
def State.linkWait (s : State) (k : Nat) (clear : Bool) (t : Tick) : State :=
  let s := s.linkLeave k 1 0 t t
  let s := s.setLnk k { s.lnk k with delays := [], marks := [], zeroMarks := 0, misaligned := 0, buf := [], seen := [], sets := [] }
  let s := if clear then (below 8).foldl (fun s i => s.setObj (Obj.linkLaneSkew k i) 0) s else s
  s.linkTry k t

/-- The distance of two times. -/
def dist (a b : Nat) : Nat := if a ≤ b then b - a else a - b

/-- The marker of a lane nearest to a time (R154). DESIGN CHOICE (assumption 31): of two equally near the later. -/
def nearest (m0 : Tick) (l : List Tick) : Option Tick :=
  l.foldl (fun b m => match b with
    | some x => if dist m m0 < dist x m0 then some m else some x
    | none => some m) none

/-- Is the nearest marker of a lane to one of logical lane 0 known: it came no earlier, or none nearer can come, since the lane has been read that far past
it, or its marker recurs too seldom: once a line under SDI (R169)? -/
def nearestKnown (sdi : Bool) (seen m0 : Tick) (l : List Tick) : Bool :=
  match nearest m0 l with
  | none => false
  | some m =>
    m0 ≤ m || (sdi && m0 - m ≤ 64) || m0 + (m0 - m) ≤ seen

/-- The offsets s_i of a marker of logical lane 0, if every lane has its paired marker (R154). -/
def pairing (sdi : Bool) (lanes : Nat) (seen : Tab Tick) (marks : Tab (List Tick)) (m0 : Tick) : Option (List Int) :=
  let l := (below lanes).map (fun i => if i = 0 then some (0 : Int) else
    let ms := marks.getD i []
    if nearestKnown sdi (seen.getD i 0) m0 ms then (nearest m0 ms).map (fun m => (m : Int) - m0) else none)
  if l.all (·.isSome) then some (l.map (·.getD 0)) else none

/-- SEARCH: pair the markers seen, or give up after 16 of logical lane 0 (R151, R154, R155). -/
def State.linkSearch (s : State) (k : Nat) (t : Tick) : State :=
  let x := s.lnk k
  let n := (s.linkLanes k).length
  let sdi : Bool := s.obj (Obj.decPersonality ((s.linkLanes k).headD 0)) = 1
  let found := (x.marks.getD 0 []).filterMap (fun m0 => pairing sdi n x.seen x.marks m0)
  let good := found.find? (fun l => l.all (fun d => d.natAbs ≤ 64))
  match good with
  | some l =>
    let top := l.foldl max 0
    let s := (below 8).foldl (fun s i => s.setInt (Obj.linkLaneSkew k i) (l.getD i 0)) s
    s.linkAlign k (l.map (fun d => (top - d).toNat)) t
  | none =>
    if x.zeroMarks < 16 then s
    else
      let none_ : Bool := (below n).any (fun i => x.marks.getD i [] = [])
      (s.setLnk k { x with since := t }).setObjs [(Obj.linkLinkState k, 4), (Obj.linkFailReason k, if none_ then 3 else 2)]

/-- ALIGNED: the oldest marker set not yet judged, once every lane has been read past it (R156). -/
def State.linkCheckSet (s : State) (k : Nat) (t : Tick) : State :=
  let x := s.lnk k
  match x.sets with
  | [] => s
  | m0 :: rest =>
    let n := (s.linkLanes k).length
    let at0 := m0 + x.delay 0
    if (below n).any (fun i => x.seen.getD i 0 + x.delay i ≤ at0 + 1) then s
    else
      let x := { x with sets := rest }
      let off := (below n).any (fun i => !((x.marks.getD i []).any (fun m => dist (m + x.delay i) at0 ≤ 1)))
      if !off then s.setLnk k { x with misaligned := 0 }
      else
        let s := s.bump (Obj.linkMisalignCount k) 1
        if 4 ≤ x.misaligned + 1 then
          let s := s.linkLeave k 2 0 t (t - 1)
          let s := (s.linkLanes k).foldl (fun s l => s.setLane l { s.lane l with finder := {} }) s
          s.setLnk k { s.lnk k with marks := [], zeroMarks := 0, seen := [], sets := [], since := t, lastZero := t, misaligned := 0, delays := [] }
        else s.setLnk k { x with misaligned := x.misaligned + 1 }

/-- The marker times in a lane's line code output, and whether each is that of an SDI line (R153, R169). -/
def markTimes (o : List DecOut) : List (Tick × Bool) :=
  o.filterMap (fun e => match e with
    | .mark t => some (t, false)
    | .line _ _ _ true _ _ _ t => some (t, true)
    | _ => none)

/-- One marker of logical lane i; the EAV that completes an acquisition is one marker, though its line is reported too. The markers of the last
512 ticks are kept, and the newest. -/
def Link.marked (x : Link) (i : Nat) (aligned : Bool) (m : Tick) (line : Bool) : Link :=
  let l := x.marks.getD i []
  if line ∧ l.head? = some m then x
  else { x with marks := x.marks.set i (m :: l.filter (fun a => m ≤ a + 512)), zeroMarks := if i = 0 then x.zeroMarks + 1 else x.zeroMarks,
                lastZero := if i = 0 then m else x.lastZero, sets := if i = 0 ∧ aligned then x.sets ++ [m] else x.sets }

/-- A word of a member lane in SEARCH or ALIGNED under AUTO: its markers (R153-R156). -/
def State.linkMarks (s : State) (k i lane w stamp : Nat) (t : Tick) : State :=
  let n := (s.linkLanes k).headD 0
  let (num, den) := s.bitPeriod lane
  let (f, o) := frontWord (s.codeCfg n) (sdiStreams (s.obj (Obj.decSdiRate n))) num den w stamp (s.lane lane).finder
  let s := s.setLane lane { s.lane lane with finder := f }
  let st := s.obj (Obj.linkLinkState k)
  let x := (markTimes o).foldl (fun x m => x.marked i (st = 3) m.1 m.2) (s.lnk k)
  let s := s.setLnk k { x with seen := x.seen.set i (bitTick stamp 64 num den) }
  if st = 2 then s.linkSearch k t else x.sets.foldl (fun s _ => s.linkCheckSet k t) s

/-- A lane word of a link member (R151-R158). -/
def State.linkWord (s : State) (k lane w stamp now : Nat) : State :=
  let i := s.logicalOf k lane
  let auto : Bool := s.obj (Obj.linkDeskewMode k) = 0
  let st := s.obj (Obj.linkLinkState k)
  let x := s.lnk k
  let direct : Bool := st = 3 && x.since ≤ now && x.delay i = 0
  let s := if direct then s.linkPresent k i w stamp now
    else
      let x := { x with buf := x.buf.filter (fun b => now ≤ b.1 + 128) ++ [(now, i, w, stamp)],
                        gap := if st = 3 then x.gap else x.gap.map (fun g => (g.1, g.2 + 1)) }
      s.setLnk k x
  if auto && (st = 2 || st = 3) then s.linkMarks k i lane w stamp (now + 1) else s

/-- The deskew buffers at a tick: the words due are presented (R155). -/
def State.linkTick (s : State) (u : Tick) : State :=
  s.links.keys.foldl (fun s k =>
    let x := s.lnk k
    if s.obj (Obj.linkLinkState k) ≠ 3 ∨ u < x.since then s
    else
      let due := x.buf.filter (fun b => b.1 + x.delay b.2.1 = u)
      let s := s.setLnk k { x with buf := x.buf.filter (fun b => b.1 + x.delay b.2.1 != u) }
      due.foldl (fun s b => s.linkPresent k b.2.1 b.2.2.1 b.2.2.2 u) s) s

/-- May a word with this stamp be the next of a lane (R140): the first begins with the first bit after the entry into LOCKED, and every later one 64 bits after the
one before? The rate is within 2,000 ppm of the stated one, LOCK_PPM and the discipline together. -/
def Lane.follows (x : Lane) (num den stamp : Nat) : Bool :=
  match x.chain with
  | none => x.lockAt.all (fun t => t ≤ stamp && stamp ≤ t + 1)
  | some (first, k, last) =>
    last * 1000 * den + 64 * num * 998 < (stamp + 1) * 1000 * den && stamp * 1000 * den < (last + 1) * 1000 * den + 64 * num * 1002
      && first * 1000 * den + k * 64 * num * 998 < (stamp + 1) * 1000 * den && stamp * 1000 * den < (first + 1) * 1000 * den + k * 64 * num * 1002

/-- May a word of a lane, received with a stamp, leave its elastic buffer in the open tick (R140, R142, R144, R171): it is the lane's next; the lane is LOCKED, or
lost its lock with the word whole, so that the partial word that was discarded came after it; and all 64 bits are in hand? -/
def State.wordDue (s : State) (lane stamp : Nat) : Bool :=
  let (num, den, _) := s.wordForm lane
  let stale : Bool := !s.locked lane && (match (s.lane lane).cut with
    | some (b, p) => stamp * den + (64 + p) * num ≤ b * den
    | none => false)
  s.running && (s.lane lane).follows num den stamp && s.hasLane lane && (s.locked lane || stale) && decide (stamp * den + 64 * num ≤ (s.tick + 1) * den)

/-- A lane word in the open tick (R140-R145, R168-R171). The first word after a relock follows the break of the stream (R265). -/
def State.takeWord (s : State) (lane raw stamp : Nat) : State :=
  if !s.wordDue lane stamp then s
  else
    let x := s.lane lane
    let locked := s.locked lane
    let now := s.tick
    let w := s.wordOf lane raw stamp
    let (num, den, _) := s.wordForm lane
    let x := { x with wordAt := some now, chain := some (match x.chain with
      | some (a, k, _) => (a, k + 1, stamp)
      | none => (stamp, 1, stamp)) }
    let s := (s.bump (Obj.laneCntWords lane) 1).setLane lane x
    let s := match x.gap with
      | some (start, n) =>
        if locked || x.gap2.isSome then
          ((s.sourceGap 1 lane 4 start stamp n now).arrive (now + 1) (.broken lane true)).setLane lane { x with gap := x.gap2, gap2 := none }
        else s
      | none => s
    let s := (s.sourceQueues 1 lane).foldl (fun s q => s.addWord q 0 w (ofTick stamp) now) s
    let s := s.arrive (now + 1) (.word lane w stamp num den)
    if !locked then s
    else
      let k := s.obj (Obj.laneLink lane)
      if k < 16 then s.linkWord k lane w stamp now else s.decWord lane 0 lane w stamp now

/-- Is a parked item a word of a lane? -/
def Parked.wordOf (lane : Nat) (p : Parked) : Bool :=
  match p with
  | .word l _ _ => l == lane
  | _ => false

/-- LANE_WORD (R15, R140-R145, R168-R171): a word leaves the elastic buffer of a lane, at most one a tick; a second one, or one
behind one that waits, leaves in the next tick. -/
def execLaneWord (lane raw stamp : Nat) (_fec : Blank) (s : State) : Ans :=
  if s.belongsLater (Parked.wordOf lane) || (s.lane lane).wordAt == some s.tick then .next (if lane < 32 then s.postpone (.word lane raw stamp) else s)
  else .next (s.takeWord lane raw stamp)

/-! ## Clock recovery -/

/-- The codes of a lane's equaliser in use: the CTLE and the twelve taps. -/
def State.liveCodes (s : State) (n : Nat) : List Int :=
  (s.obj (Obj.laneCtleLive n) : Int) :: (upFrom 12 1).map (fun j => s.int (Obj.laneDfeLive n j))

/-- The equaliser comes to other codes; those it leaves are kept for 4,096 ticks (R146, R724). -/
def State.setCodes (s : State) (n ctle : Nat) (dfe : List Int) : State :=
  let was := s.liveCodes n
  let s := (upFrom 12 1).foldl (fun s j => s.setInt (Obj.laneDfeLive n j)
    (clampI (if j = 1 then -64 else -32) (if j = 1 then 63 else 31) (dfe.getD (j - 1) 0))) (s.setObj (Obj.laneCtleLive n) (min 31 ctle))
  if s.liveCodes n = was then s
  else s.setLane n { s.lane n with codes := (s.tick, was) :: (s.lane n).codes.filter (fun e => s.tick ≤ e.1 + 4096) }

/-- The equaliser is seeded from the SET values (R146, R147). -/
def State.seedEq (s : State) (n : Nat) : State :=
  s.setCodes n (s.obj (Obj.laneCtleSet n)) ((upFrom 12 1).map (fun j => s.int (Obj.laneDfeSet n j)))

/-- Have the codes each moved by at most one over the last 4,096 ticks (R724)? -/
def State.settled (s : State) (n : Nat) : Bool :=
  let held := s.liveCodes n :: ((s.lane n).codes.filter (fun e => s.tick ≤ e.1 + 4096)).map (·.2)
  (below 13).all (fun j => held.all (fun a => held.all (fun b => a.getD j 0 - b.getD j 0 ≤ 1)))

/-- A lane enters FREQ_ACQ (R136, R147): the measurement windows begin again, and in ADAPT the equaliser is seeded. -/
def State.freqAcq (s : State) (n : Nat) : State :=
  let s := s.setLane n { s.lane n with windowAt := s.tick, near := 0, far := 0 }
  if s.obj (Obj.laneEqMode n) = 0 then s.seedEq n else s

/-- A scan that runs on a lane is aborted (R163). -/
def State.abortEye (s : State) (n result : Nat) : State :=
  match s.eye with
  | some e => if e.lane = n ∧ e.abort = 0 then { s with eye := some { e with abort := result } } else s
  | none => s

/-- A lane leaves a CDR state for another with a reason (R136, R138, R144); `partial_` is the number of bits in hand. -/
def State.laneDrop (s : State) (n state reason partial_ : Nat) (t : Tick) : State :=
  let was := s.locked n
  let s := s.setObjs [(Obj.laneCdrState n, state), (Obj.laneLossReason n, reason)]
  let s := if state = 2 then s.freqAcq n else s
  if !was then s
  else
    let x := s.lane n
    let item := if partial_ = 0 then 0 else 1
    let s := s.setLane n { x with gap := some (x.gap.getD (t, item)), gap2 := if x.gap.isSome then some (t, item) else none,
                                  cut := some (s.tick + 1, partial_) }
    let s := (s.bump (Obj.laneCntCdrLossCount n) 1).bump (Obj.laneCntDiscardedBits n) partial_
    let s := (s.arrive (t + 1) (.broken n true)).abortEye n 2
    let k := s.obj (Obj.laneLink n)
    if k < 16 then
      let s := if s.logicalOf k n = 0 then s.decLose n 1 t false else s
      if s.obj (Obj.linkLinkState k) = 2 ∨ s.obj (Obj.linkLinkState k) = 3 then s.linkWait k false t else s
    else s.decLose n 1 t false

/-- The state of a lane's CDR, where the data plane runs and the lane is there; 0 otherwise. -/
def State.cdr (s : State) (n : Nat) : Nat := if s.running && s.hasLane n then s.obj (Obj.laneCdrState n) else 0

/-- CDR_SIGNAL_DETECT (R136, R147). -/
def execCdrSignalDetect (lane : Nat) (s : State) : Ans :=
  .next (if s.cdr lane ≠ 1 ∨ (s.lane lane).loud < 1000 then s else (s.setObj (Obj.laneCdrState lane) 2).freqAcq lane)

/-- CDR_FREQ_LOCK (R135, R136): the phase loop begins to track. -/
def execCdrFreqLock (lane : Nat) (s : State) : Ans :=
  .next (if s.cdr lane ≠ 2 ∨ (s.lane lane).near < 4 then s
    else (s.setObj (Obj.laneCdrState lane) 3).setLane lane { s.lane lane with cleanAt := s.tick })

/-- CDR_LOCK (R136, R724). -/
def execCdrLock (lane : Nat) (_ctle _dfe : Blank) (s : State) : Ans :=
  if s.cdr lane ≠ 3 ∨ s.tick < (s.lane lane).cleanAt + 16384 ∨ (s.obj (Obj.laneEqMode lane) = 0 ∧ !s.settled lane) then .next s
  else
    let x := s.lane lane
    let s := (s.setObj (Obj.laneCdrState lane) 4).setLane lane
      { x with lockAt := some s.tick, chain := none, form := some ((s.bitPeriod lane).1, (s.bitPeriod lane).2, s.obj (Obj.laneModulation lane)),
               gap := x.gap.map (fun g => (g.1, g.2 + (x.gap2.map (·.2)).getD 0)), gap2 := none }
    let k := s.obj (Obj.laneLink lane)
    .next (if k < 16 then s.linkTry k (s.tick + 1) else s)

/-- CDR_SIGNAL_LOSS (R136). -/
def execCdrSignalLoss (lane partialBits : Nat) (s : State) : Ans :=
  .next (if s.cdr lane < 2 ∨ (s.lane lane).quiet < 1000 then s else s.laneDrop lane 1 1 (min 63 partialBits) s.tick)

/-- CDR_FREQ_LOSS (R135, R136). -/
def execCdrFreqLoss (lane partialBits : Nat) (s : State) : Ans :=
  .next (if s.cdr lane < 3 ∨ (s.lane lane).far < 2 then s else s.laneDrop lane 2 2 (min 63 partialBits) s.tick)

/-- CDR_TRANSITION_LOSS (R136). -/
def execCdrTransitionLoss (lane partialBits : Nat) (s : State) : Ans :=
  .next (if s.cdr lane ≠ 4 ∨ (s.lane lane).still < 2048 then s else s.laneDrop lane 2 3 (min 63 partialBits) s.tick)

/-- What the receiver of a lane has measured in the tick that ends when tick `u` opens (R135, R136): the amplitude against SIGDET_MV, the windows of
4,096 ticks against LOCK_PPM of num / den Bd, and the slips. -/
def Lane.sense (x : Lane) (thr num den ppm : Nat) (m : LaneSense) (u : Tick) : Lane :=
  let mv := m.mv.getD x.mv
  let rate := m.rate.getD x.rate
  let x := { x with mv := mv, rate := rate, still := m.still.getD x.still, loud := if thr < mv then min 1000 (x.loud + 1) else 0,
                    quiet := if mv < thr then min 1000 (x.quiet + 1) else 0, cleanAt := if m.slip then u else x.cleanAt }
  if u < x.windowAt + 4096 then x
  else if dist (rate * den) (1000 * num) * 1000000 ≤ ppm * 1000 * num then { x with windowAt := u, near := min 4 (x.near + 1), far := 0 }
  else { x with windowAt := u, near := 0, far := min 2 (x.far + 1) }

/-- What the adaptation of a lane has moved (R146, R149): the CTLE and the taps in ADAPT once the lane has left NO_SIGNAL, the slicer levels of PAM4 in
every mode but FREEZE. -/
def State.adapt (s : State) (n : Nat) (m : LaneSense) : State :=
  let mode := s.obj (Obj.laneEqMode n)
  let s := if mode = 0 ∧ 2 ≤ s.obj (Obj.laneCdrState n) then
      s.setCodes n (m.ctle.getD (s.obj (Obj.laneCtleLive n))) (m.dfe.getD ((s.liveCodes n).drop 1))
    else s
  match m.slicers with
  | some l => if mode ≠ 1 ∧ s.obj (Obj.laneModulation n) = 1 then s.setLane n { s.lane n with slicers := l.take 3 } else s
  | none => s

/-- The lanes at the tick boundary that opens tick `u`: the receivers, and UNLOCKED_TICKS (R167). -/
def State.laneTick (s : State) (l : List LaneSense) (u : Tick) : State :=
  (below (lanesOf s.otp.variant)).foldl (fun s n =>
    if !s.flag (Obj.laneEnable n) then s
    else
      let m := (l.find? (fun m => m.lane == n)).getD { lane := n }
      let s := if s.locked n then s else s.bump (Obj.laneCntUnlockedTicks n) 1
      let s := s.setLane n ((s.lane n).sense (s.obj (Obj.laneSigdetMv n)) (s.obj (Obj.laneBaudNum n)) (s.obj (Obj.laneBaudDen n)) (s.obj (Obj.laneLockPpm n)) m u)
      s.adapt n m) s

/-- LINK_FAIL_RETRY (R151): 1 ms after a FAIL for NO_MARKER or SKEW_RANGE. -/
def execLinkFailRetry (link : Nat) (s : State) : Ans :=
  .next (if s.running && s.obj (Obj.linkLinkState link) = 4 && s.obj (Obj.linkFailReason link) ≠ 1 && (s.lnk link).since + 1000000 ≤ s.tick + 1 then
    s.linkWait link false (s.tick + 1) else s)

/-- NO_MARKER_TIMEOUT (R151): logical lane 0 gave no marker for 1 s. -/
def execNoMarkerTimeout (link : Nat) (s : State) : Ans :=
  .next (if s.running && s.obj (Obj.linkLinkState link) = 2 && (s.lnk link).lastZero + 1000000000 ≤ s.tick then
    (s.setLnk link { s.lnk link with since := s.tick + 1 }).setObjs [(Obj.linkLinkState link, 4), (Obj.linkFailReason link, 3)] else s)

/-! ## Eye monitor -/

/-- Does a lane's scan fall due (R160)? -/
def State.eyeDue (s : State) (n : Nat) : Bool :=
  let x := s.lane n
  let iv := s.obj (Obj.laneEyeInterval n)
  s.hasLane n && s.obj (Obj.laneEyeMode n) != 0 && (x.eyeAsked || (iv != 0 && x.lastEye + 1000000000 * iv ≤ s.tick))

/-- The place, among the points of a scan in EYE_MODE `mode`, of the phase point `p` at the centre voltage (R161). -/
def phasePoint (mode p : Nat) : Nat := if mode = 2 then p * 127 + 63 else p

/-- The place of the voltage point `v` at phase 0 (R161). -/
def voltPoint (mode v : Nat) : Nat := if mode = 2 then 32 * 127 + v else 64 + v

/-- How many open points in a row include the point `c`. -/
def openRun (l : List Bool) (c : Nat) : Nat :=
  if l.getD c false then ((l.drop c).takeWhile (·)).length + ((l.take c).reverse.takeWhile (·)).length else 0

/-- WIDTH and HEIGHT of an eye (R161, R162). The centre is judged by the point of the phase sweep. -/
def eyeSize (mode limit : Nat) (errors : List Nat) : Nat × Nat :=
  let good (i : Nat) : Bool := errors.getD i 0 ≤ limit
  if good (phasePoint mode 32) then
    (openRun ((below 64).map (fun p => good (phasePoint mode p))) 32, openRun ((below 127).map (fun v => good (voltPoint mode v))) 63)
  else (0, 0)

/-- The EYE_LOG entry (R164). DESIGN CHOICE (assumption 31): of a DURATION that does not fit its field, the low 32 bits. -/
def eyeEntry (t lane mode result tj dwell modulation : Nat) (sizes : List (Nat × Nat)) (centre duration : Nat) : Bytes :=
  let w (i : Nat) : Bytes := le 1 (sizes.getD i (0, 0)).1 ++ le 1 (sizes.getD i (0, 0)).2
  le 8 t ++ le 1 lane ++ le 1 mode ++ le 1 result ++ le 1 tj ++ le 1 dwell ++ le 1 modulation ++ le 2 0 ++ w 0 ++ w 1 ++ w 2 ++ le 2 0
    ++ le 4 centre ++ le 4 duration

/-- A scan of a lane ends, with the errors of its points if normally (R161-R164). DESIGN CHOICE (assumption 31): a FULL scan that ends otherwise has measured
no points and leaves EYE_MAP as it is. -/
def State.eyeEnd (s : State) (n mode dwell result start : Nat) (e : EyeData) : State :=
  let tj := ofInt 8 (s.int Obj.teleTj / 8)
  let md := s.obj (Obj.laneModulation n)
  let eyes := if result = 0 then (below (1 + 2 * md)).map (fun i => (e.errors.getD i []).map (min (2 ^ dwell))) else []
  let centre := (eyes.map (fun l => l.getD (phasePoint mode 32) 0)).sum
  let (r, s) := s.fresh
  let sizes := eyes.map (eyeSize mode (s.obj (Obj.laneEyeErrLimit n)))
  let log := s.dom (Obj.laneEyeLog n)
    ++ eyeEntry s.tick n mode result tj dwell md sizes (if centre < 2 ^ 32 then centre else r % 2 ^ 32) ((s.tick - start) / 1000)
  let s := (s.setDom (Obj.laneEyeLog n) (lastN 2048 log)).bump (Obj.laneCntEyeScans n) 1
  let s := if result = 0 ∧ mode = 2 then
      s.setDom (Obj.laneEyeMap n) (eyes.flatMap (fun l => (below 8128).flatMap (fun i => le 1 (min 255 (l.getD i 0))))) else s
  { s.setLane n { s.lane n with lastEye := s.tick } with eye := none }

/-- How many bits each eye of a scan compares (R161). -/
def eyeBits (mode dwell : Nat) : Nat := (if mode = 2 then 8128 else 191) * 2 ^ dwell

/-- EYE_SCAN_START (R160, R163): the lowest due lane's turn. -/
def execEyeScanStart (lane : Nat) (s : State) : Ans :=
  let mode := s.obj (Obj.laneEyeMode lane)
  let dwell := s.obj (Obj.laneEyeDwellLog2 lane)
  if !s.running ∨ s.eye.isSome ∨ (below 32).find? s.eyeDue ≠ some lane then .next s
  else
    let s := s.setLane lane { s.lane lane with eyeAsked := false }
    .next (if s.locked lane then { s with eye := some { lane := lane, mode := mode, dwell := dwell, abort := 0, start := s.tick } } else s.eyeEnd lane mode dwell 1 s.tick {})

/-- EYE_SCAN_END (R161-R164): a scan ends normally once its bits can have come, at a rate up to 1,000 ppm above the stated one. -/
def execEyeScanEnd (eye : EyeData) (s : State) : Ans :=
  match s.eye with
  | none => .next s
  | some e =>
    let (num, den) := s.bitPeriod e.lane
    .next (if e.abort = 0 ∧ (s.tick - e.start) * den * 1001 < eyeBits e.mode e.dwell * num * 1000 then s
      else s.eyeEnd e.lane e.mode e.dwell e.abort e.start eye)

/-- A write of EYE_REQUEST (R160, R165). -/
def State.eyeRequest (s : State) (n v : Nat) : State × ObjOut :=
  let k := Obj.laneEyeRequest n
  if v = 0 then (s, emptyOut k)
  else if s.obj (Obj.laneEyeMode n) = 0 then (s, badOut k stRejected reRange)
  else (s.setLane n { s.lane n with eyeAsked := true }, okOut k (.num v))

/-! ## Commits -/

/-- The clamps of R134 and R150 and of the decoder objects (R200, R216, R218, R477) on what a commit would leave. DESIGN CHOICE (assumption 31): PAM4 with a
BAUD_DEN so large that 10 GBd needs a BAUD_NUM beyond U64 holds that number whole. -/
def lineFixes (new : State) (k : Key) : List (Key × Nat × List RepEntry) :=
  let ix := k / 256
  let one (key v reason width : Nat) : List (Key × Nat × List RepEntry) :=
    if new.obj key = v then [] else [(key, v, [clampEntry key reason width (new.obj key) v])]
  if 0x3100 ≤ ix ∧ ix < 0x3120 then
    let n := ix - 0x3100
    let den := new.obj (Obj.laneBaudDen n)
    let num := new.obj (Obj.laneBaudNum n)
    let pam : Bool := new.obj (Obj.laneModulation n) = 1
    let lo := (if pam then 10000000000 else 1250000000) * den
    let hi := (if pam then 28125000000 else 32000000000) * den
    if num < lo then one (Obj.laneBaudNum n) lo rpRaised 64 else if hi < num then one (Obj.laneBaudNum n) hi rpLowered 64 else []
  else if 0x3300 ≤ ix ∧ ix < 0x3310 then
    let key := Obj.linkLaneList (ix - 0x3300)
    let v := new.obj key
    let cnt := (new.linkLanes (ix - 0x3300)).length
    let after := (below 8).filter (fun i => cnt ≤ i && bits v (8 * i + 7) (8 * i) != 255)
    if after = [] then []
    else [(key, v % 2 ^ (8 * cnt) + (2 ^ 64 - 2 ^ (8 * cnt)), after.map (fun i => clampField key rpRaised (8 * i + 7) (8 * i) (bits v (8 * i + 7) (8 * i)) 255))]
  else if 0x3200 ≤ ix ∧ ix < 0x3220 then
    let n := ix - 0x3200
    let fec := Obj.decFecMode n
    let l := new.obj (Obj.decScrLen n)
    let poly := new.obj (Obj.decScrPoly n)
    let cut_ := poly % 2 ^ l
    let set_ := if bit cut_ (l - 1) then cut_ else cut_ + 2 ^ (l - 1)
    (match new.obj (Obj.decEthMode n) with
      | 0 => one fec 0 rpLowered 8
      | 2 => if new.obj fec = 0 then one fec 1 rpRaised 8 else []
      | _ => [])
    ++ (if poly = set_ then [] else [(Obj.decScrPoly n, set_,
        (if cut_ = poly then [] else [clampField (Obj.decScrPoly n) rpCleared 31 l (bits poly 31 l) 0])
          ++ (if set_ = cut_ then [] else [clampField (Obj.decScrPoly n) rpRaised (l - 1) (l - 1) 0 1]))])
    ++ (if new.obj (Obj.decScrMode n) = 1 ∧ new.obj (Obj.decScrSeed n) = 0 then one (Obj.decScrSeed n) 1 rpRaised 32 else [])
    ++ one (Obj.decFiletFiletPair n) (min (new.obj (Obj.decFiletFiletPair n)) (sdiStreams (new.obj (Obj.decSdiRate n)) / 2)) rpLowered 8
  else if 0x5440 ≤ ix ∧ ix < 0x5460 then
    let n := ix - 0x5440
    one (Obj.decFiletFiletPair n) (min (new.obj (Obj.decFiletFiletPair n)) (sdiStreams (new.obj (Obj.decSdiRate n)) / 2)) rpLowered 8
  else []

/-- Does a link suit the personality of the decoder of its logical lane 0 (R169, R178)? -/
def State.linkSuits (s : State) (k : Nat) : Bool :=
  match s.linkLanes k with
  | [] => true
  | n :: l =>
    let c := l.length + 1
    match s.obj (Obj.decPersonality n) with
    | 0 => s.obj (Obj.linkDeskewMode k) == 1
    | 1 => c == 1 || c == 2 || c == 4
    | 2 => c == 1
    | _ => true

/-- Is a LANE_LIST one that R150 refuses? -/
def State.badList (s : State) (k : Nat) : Bool :=
  let l := s.linkLanes k
  !l.Nodup || l.any (fun n => !s.hasLane n || (below 16).any (fun j => j != k && (s.linkLanes j).contains n))

/-- The verdicts of R150, R169, R178 and R213. -/
def lineVerdict (new : State) (k : Key) : Option (Nat × Nat) :=
  let ix := k / 256
  let bad : Bool :=
    if 0x3300 ≤ ix ∧ ix < 0x3310 then
      (k = Obj.linkLaneList (ix - 0x3300) && new.badList (ix - 0x3300)) || !new.linkSuits (ix - 0x3300)
    else if 0x3200 ≤ ix ∧ ix < 0x3220 then
      let n := ix - 0x3200
      ((below 16).any (fun j => (new.linkLanes j).head? == some n && !new.linkSuits j))
        || ((k % 256 = 0x60 || k % 256 = 0x61 || k % 256 = 0x62)
            && decide (ones 4 (new.obj (Obj.decSyncData n) ^^^ new.obj (Obj.decSyncCtrl n)) < 2 * new.obj (Obj.decHdrTolerance n) + 1))
    else false
  if bad then some (stRejected, reRange) else none

/-- The sub-indices that belong to a personality (R171, R219); SIG_ENABLE has its own rule (R199). -/
def persObjects (p : Nat) : List Nat :=
  match p with
  | 1 => [0x10, 0x11] ++ upFrom 16 0x20
  | 2 => upFrom 3 0x30
  | 3 => upFrom 5 0x40 ++ upFrom 8 0x50
  | 4 => upFrom 6 0x50 ++ upFrom 8 0x60
  | _ => []

/-- One lane at the boundary of a commit (R136, R139, R146, R148). -/
def State.laneCommit (s old : State) (n : Nat) (t : Tick) : State :=
  let ch (k : Key) : Bool := old.obj k != s.obj k
  let baud : Bool := ch (Obj.laneModulation n) || ch (Obj.laneBaudNum n) || ch (Obj.laneBaudDen n)
  let eqs : Bool := ch (Obj.laneCtleSet n) || (upFrom 12 1).any (fun j => ch (Obj.laneDfeSet n j))
  let on : Bool := s.flag (Obj.laneEnable n)
  let was := old.obj (Obj.laneCdrState n)
  let (r, s) := s.fresh
  let part := if was = 4 then r % 64 else 0
  let s := if ch (Obj.lanePolarity n) then
      s.setLane n { s.lane n with pols := (s.lane n).pols.filter (fun p => t ≤ p.1 + 4096) ++ [(t, old.flag (Obj.lanePolarity n))] } else s
  let s := if s.obj (Obj.laneEqMode n) = 2 ∧ (ch (Obj.laneEqMode n) ∨ eqs) then s.seedEq n else s
  let s := if baud || ch (Obj.laneEqMode n) || eqs then s.abortEye n 3 else s
  if ch (Obj.laneEnable n) then
    if on then (s.setObj (Obj.laneCdrState n) 1).setLane n { s.lane n with loud := 0, quiet := 0 } else s.laneDrop n 0 5 part t
  else if on && (baud || ch (Obj.laneLockPpm n)) then s.laneDrop n 1 4 part t
  else s

/-- One link at the boundary of a commit (R150-R152). -/
def State.linkCommit (s old : State) (k : Nat) (t : Tick) : State :=
  let a := old.linkLanes k
  let b := s.linkLanes k
  let st := s.obj (Obj.linkLinkState k)
  let deskew : Bool := old.obj (Obj.linkDeskewMode k) != s.obj (Obj.linkDeskewMode k)
    || (s.obj (Obj.linkDeskewMode k) == 1 && (below 8).any (fun i => old.obj (Obj.linkDeskewSet k i) != s.obj (Obj.linkDeskewSet k i)))
  if old.obj (Obj.linkLaneList k) ≠ s.obj (Obj.linkLaneList k) then
    -- the link leaves ALIGNED under its old list
    let s := if st = 3 then (s.setLnk k { s.lnk k with gap := some (t, 0) }).decLose (a.headD 0) 2 t false else s
    let s := s.setObj (Obj.linkLinkState k) 1
    let gone := a.filter (fun n => !b.contains n)
    let s := gone.foldl (fun s n =>
      if s.obj (Obj.laneLink n) = k then
        let s := s.setObj (Obj.laneLink n) 0xFF
        if s.obj (Obj.decDecState n) = 3 then s.setObj (Obj.decDecState n) 0 else s
      else s) s
    let s := b.foldl (fun s n => if a.contains n then s else (s.decLose n 2 t false).setObj (Obj.laneLink n) k) s
    let s := (b.zip (below b.length)).foldl (fun s p =>
      if p.2 = 0 then (if s.obj (Obj.decDecState p.1) = 3 then s.setObj (Obj.decDecState p.1) 0 else s)
      else (s.decLose p.1 2 t false).setObj (Obj.decDecState p.1) 3) s
    if b = [] then
      (s.setLnk k { gap := (s.lnk k).gap }).setObjs ([(Obj.linkLinkState k, 0), (Obj.linkFailReason k, 0)] ++ (below 8).map (fun i => (Obj.linkLaneSkew k i, 0)))
    else s.linkWait k true t
  else if b = [] then s
  else if deskew then s.linkWait k false t
  else if st = 4 ∧ s.obj (Obj.linkFailReason k) = 1 ∧ s.ratesAgree k then s.linkWait k false t
  else s.linkTry k t

/-- What a commit does to lanes, links and decoders at its boundary. -/
def State.lineEffects (s old : State) (t : Tick) (keys : List Key) : State :=
  let in_ (b n : Nat) : List Nat := (below n).filter (fun i => keys.any (fun k => k / 256 = b + i))
  let s := (in_ 0x3100 32).foldl (fun s n => s.laneCommit old n t) s
  let s := (in_ 0x3200 32).foldl (fun (s : State) (n : Nat) =>
    let p := s.obj (Obj.decPersonality n)
    let ch (k : Key) : Bool := old.obj k != s.obj k
    let hit : Bool := ch (Obj.decPersonality n) || (persObjects p).any (fun j => ch ((0x3200 + n) * 256 + j))
    let s := if hit then s.decLose n 3 t false else s
    if hit && (s.obj (Obj.laneLink n) < 16) && (s.linkLanes (s.obj (Obj.laneLink n))).head? == some n then
      let k := s.obj (Obj.laneLink n)
      let st := s.obj (Obj.linkLinkState k)
      if (st = 2 ∨ st = 3) ∧ s.obj (Obj.linkDeskewMode k) = 0 then
        (s.linkLanes k).foldl (fun s l => s.setLane l { s.lane l with finder := {} }) s
      else s
    else s) s
  -- lanes that one link loses leave before another link takes them
  let lists := in_ 0x3300 16
  let ks := lists ++ (below 16).filter (fun k => !lists.contains k && s.obj (Obj.linkLinkState k) != 0 && (in_ 0x3100 32) != [])
  ks.foldl (fun s k => s.linkCommit old k t) s

/-- Every enabled lane restarts at NO_SIGNAL with reason RECONFIG, and the decoders with them (R673). -/
def State.restartLanes (s : State) (t : Tick) : State :=
  (below (lanesOf s.otp.variant)).foldl (fun s n =>
    if s.flag (Obj.laneEnable n) then
      let (r, s) := s.fresh
      s.laneDrop n 1 4 (if s.locked n then r % 64 else 0) t
    else s) s

end Sys2Proof.Machine
end

