-- ==== Sys2Proof/Machine/Crypto.lean ====
section
/-! DEFINITION. The published computations that R11 fixes by edition and R536-R558 use: SHA-256 and SHA-384 (FIPS 180-4), HMAC
(FIPS 198-1), HKDF (RFC 5869), the curve P-384 with ECDSA (FIPS 186-5) and ECDH (SP 800-56A), and the certificate of R558
(RFC 5280). Their constants are those of the standards, which the manual cites and does not print (PRESUMED, log 8). -/

namespace Sys2Proof.Machine

/-! SHA-2. -/

/-- A member of the SHA-2 family: the word's bits, the constants of its rounds, the start value, and the three shifts of each of its
four mixing functions; the third of the last two shifts, the others rotate. -/
structure Sha where
  w : Nat
  rounds : List Nat
  start : List Nat
  big0 : Nat × Nat × Nat
  big1 : Nat × Nat × Nat
  small0 : Nat × Nat × Nat
  small1 : Nat × Nat × Nat

/-- The round constants of SHA-384: the fractions of the cube roots of the first eighty primes, in quarters. -/
def shaRounds1 : List Nat :=
  [0x428A2F98D728AE22, 0x7137449123EF65CD, 0xB5C0FBCFEC4D3B2F, 0xE9B5DBA58189DBBC, 0x3956C25BF348B538,
    0x59F111F1B605D019, 0x923F82A4AF194F9B, 0xAB1C5ED5DA6D8118, 0xD807AA98A3030242, 0x12835B0145706FBE,
    0x243185BE4EE4B28C, 0x550C7DC3D5FFB4E2, 0x72BE5D74F27B896F, 0x80DEB1FE3B1696B1, 0x9BDC06A725C71235,
    0xC19BF174CF692694, 0xE49B69C19EF14AD2, 0xEFBE4786384F25E3, 0x0FC19DC68B8CD5B5, 0x240CA1CC77AC9C65]

/-- The second quarter. -/
def shaRounds2 : List Nat :=
  [0x2DE92C6F592B0275, 0x4A7484AA6EA6E483, 0x5CB0A9DCBD41FBD4, 0x76F988DA831153B5, 0x983E5152EE66DFAB,
    0xA831C66D2DB43210, 0xB00327C898FB213F, 0xBF597FC7BEEF0EE4, 0xC6E00BF33DA88FC2, 0xD5A79147930AA725,
    0x06CA6351E003826F, 0x142929670A0E6E70, 0x27B70A8546D22FFC, 0x2E1B21385C26C926, 0x4D2C6DFC5AC42AED,
    0x53380D139D95B3DF, 0x650A73548BAF63DE, 0x766A0ABB3C77B2A8, 0x81C2C92E47EDAEE6, 0x92722C851482353B]

/-- The third quarter. -/
def shaRounds3 : List Nat :=
  [0xA2BFE8A14CF10364, 0xA81A664BBC423001, 0xC24B8B70D0F89791, 0xC76C51A30654BE30, 0xD192E819D6EF5218,
    0xD69906245565A910, 0xF40E35855771202A, 0x106AA07032BBD1B8, 0x19A4C116B8D2D0C8, 0x1E376C085141AB53,
    0x2748774CDF8EEB99, 0x34B0BCB5E19B48A8, 0x391C0CB3C5C95A63, 0x4ED8AA4AE3418ACB, 0x5B9CCA4F7763E373,
    0x682E6FF3D6B2B8A3, 0x748F82EE5DEFB2FC, 0x78A5636F43172F60, 0x84C87814A1F0AB72, 0x8CC702081A6439EC]

/-- The fourth quarter. -/
def shaRounds4 : List Nat :=
  [0x90BEFFFA23631E28, 0xA4506CEBDE82BDE9, 0xBEF9A3F7B2C67915, 0xC67178F2E372532B, 0xCA273ECEEA26619C,
    0xD186B8C721C0C207, 0xEADA7DD6CDE0EB1E, 0xF57D4F7FEE6ED178, 0x06F067AA72176FBA, 0x0A637DC5A2C898A6,
    0x113F9804BEF90DAE, 0x1B710B35131C471B, 0x28DB77F523047D84, 0x32CAAB7B40C72493, 0x3C9EBE0A15C9BEBC,
    0x431D67C49C100D4C, 0x4CC5D4BECB3E42B6, 0x597F299CFC657E2A, 0x5FCB6FAB3AD6FAEC, 0x6C44198C4A475817]

/-- The eighty round constants. -/
def shaRounds : List Nat := shaRounds1 ++ shaRounds2 ++ shaRounds3 ++ shaRounds4

/-- SHA-384. -/
def sha384Kind : Sha where
  w := 64
  rounds := shaRounds
  start :=
  [0xCBBB9D5DC1059ED8, 0x629A292A367CD507, 0x9159015A3070DD17, 0x152FECD8F70E5939,
    0x67332667FFC00B31, 0x8EB44A8768581511, 0xDB0C2E0D64F98FA7, 0x47B5481DBEFA4FA4]
  big0 := (28, 34, 39)
  big1 := (14, 18, 41)
  small0 := (1, 8, 7)
  small1 := (19, 61, 6)

/-- SHA-256: its round constants are the upper halves of the first 64. -/
def sha256Kind : Sha where
  w := 32
  rounds := (shaRounds.take 64).map (· >>> 32)
  start :=
  [0x6A09E667, 0xBB67AE85, 0x3C6EF372, 0xA54FF53A, 0x510E527F, 0x9B05688C, 0x1F83D9AB, 0x5BE0CD19]
  big0 := (2, 13, 22)
  big1 := (6, 11, 25)
  small0 := (7, 18, 3)
  small1 := (17, 19, 10)

/-- A word rotated right. -/
def rotr (w x n : Nat) : Nat := (x >>> n) ||| cut w (x <<< (w - n))

/-- Three rotations combined. -/
def turn3 (w x : Nat) (r : Nat × Nat × Nat) : Nat := rotr w x r.1 ^^^ rotr w x r.2.1 ^^^ rotr w x r.2.2

/-- Two rotations and a shift combined. -/
def turn2 (w x : Nat) (r : Nat × Nat × Nat) : Nat := rotr w x r.1 ^^^ rotr w x r.2.1 ^^^ (x >>> r.2.2)

/-- One round: the sixteen words of the schedule that come next, the eight working values, and the round's constant. -/
def Sha.round (k : Sha) (st : List Nat × List Nat) (c : Nat) : List Nat × List Nat :=
  match st.2 with
  | [a, b, d, e, f, g, h, i] =>
    let m (n : Nat) : Nat := st.1.getD n 0
    let choose := (f &&& g) ^^^ ((2 ^ k.w - 1 - f) &&& h)
    let major := (a &&& b) ^^^ (a &&& d) ^^^ (b &&& d)
    let x := i + turn3 k.w f k.big1 + choose + c + m 0
    let y := turn3 k.w a k.big0 + major
    let more := turn2 k.w (m 14) k.small1 + m 9 + turn2 k.w (m 1) k.small0 + m 0
    (st.1.drop 1 ++ [cut k.w more], [cut k.w (x + y), a, b, d, cut k.w (e + x), f, g, h])
  | _ => st

/-- One block of sixteen words. -/
def Sha.block (k : Sha) (v : List Nat) (m : List Nat) : List Nat :=
  List.zipWith (fun x y => cut k.w (x + y)) v (k.rounds.foldl k.round (m, v)).2

/-- Big-endian words of a byte string. -/
def beWords (size : Nat) : Nat → Bytes → List Nat
  | 0, _ => []
  | n + 1, b => ofBe (b.take size) :: beWords size n (b.drop size)

/-- The blocks of a padded message, one after the other. -/
def Sha.run (k : Sha) : Nat → List Nat → Bytes → List Nat
  | 0, v, _ => v
  | n + 1, v, b => k.run n (k.block v (beWords (k.w / 8) 16 b)) (b.drop (2 * k.w))

/-- A message padded to whole blocks: a one bit, zeros, and the length in bits in two words. -/
def Sha.pad (k : Sha) (b : Bytes) : Bytes :=
  let size := 2 * k.w
  let tail := k.w / 4
  b ++ [0x80] ++ zeros ((2 * size - 1 - tail - b.length % size) % size) ++ be tail (8 * b.length)

/-- The digest of a message. -/
def Sha.hash (k : Sha) (b : Bytes) : Bytes :=
  let p := k.pad b
  (k.run (p.length / (2 * k.w)) k.start p).flatMap (be (k.w / 8))

/-- SHA-256 (FIPS 180-4). -/
def sha256 (b : Bytes) : Bytes := sha256Kind.hash b

/-- SHA-384 (FIPS 180-4). -/
def sha384 (b : Bytes) : Bytes := (sha384Kind.hash b).take 48

/-- HMAC (FIPS 198-1) with a digest and its block size in bytes. -/
def hmac (hash : Bytes → Bytes) (size : Nat) (key msg : Bytes) : Bytes :=
  let k := if size < key.length then hash key else key
  let k := k ++ zeros (size - k.length)
  hash (k.map (· ^^^ 0x5C) ++ hash (k.map (· ^^^ 0x36) ++ msg))

/-- The first 16 bytes of HMAC-SHA-256 (R544, R548). -/
def mac16 (key msg : Bytes) : Bytes := (hmac sha256 64 key msg).take 16

/-- HKDF-SHA-384 (RFC 5869) of at most one digest of output. -/
def hkdf384 (salt ikm info : Bytes) (len : Nat) : Bytes :=
  (hmac sha384 128 (hmac sha384 128 salt ikm) (info ++ [1])).take len

/-! The curve P-384. -/

/-- The field of P-384. -/
def curveP : Nat := 2 ^ 384 - 2 ^ 128 - 2 ^ 96 + 2 ^ 32 - 1

/-- The coefficient b of P-384. -/
def curveB : Nat := 0xB3312FA7E23EE7E4988E056BE3F82D19181D9C6EFE8141120314088F5013875AC656398D8A2ED19D2A85C8EDD3EC2AEF

/-- The order of the base point of P-384. -/
def curveN : Nat := 0xFFFFFFFFFFFFFFFFFFFFFFFFFFFFFFFFFFFFFFFFFFFFFFFFC7634D81F4372DDF581A0DB248B0A77AECEC196ACCC52973

/-- A power modulo m, of an exponent below 2^fuel. -/
def powMod (m : Nat) : Nat → Nat → Nat → Nat
  | 0, _, _ => 1
  | f + 1, b, e => (if e % 2 = 1 then b else 1) * powMod m f (b * b % m) (e / 2) % m

/-- The inverse modulo a prime of 384 bits. -/
def invMod (m x : Nat) : Nat := powMod m 384 (x % m) (m - 2)

/-- A point of the curve: none is the point at infinity. -/
abbrev Point := Option (Nat × Nat)

/-- The base point of P-384. -/
def curveG : Point := some
  (0xAA87CA22BE8B05378EB1C71EF320AD746E1D3B628BA79B9859F741E082542A385502F25DBF55296C3A545E3872760AB7,
   0x3617DE4A96262C6F5D9E98BF9292DC29F8F41DBD289A147CE9DA3113B5F0B8C00A60B1CE1D7E819D7A431D7C90EA0E5F)

/-- The third point on a line of the given slope through two points, mirrored. -/
def chord (slope x1 y1 x2 : Nat) : Point :=
  let p := curveP
  let x := (slope * slope + 2 * p - x1 - x2) % p
  some (x, (slope * (x1 + p - x) + p - y1) % p)

/-- The sum of two points. -/
def Point.add : Point → Point → Point
  | none, b => b
  | a, none => a
  | some (x1, y1), some (x2, y2) =>
    let p := curveP
    if x1 ≠ x2 then chord ((y2 + p - y1) * invMod p (x2 + p - x1) % p) x1 y1 x2
    else if (y1 + y2) % p = 0 then none
    else chord (3 * (x1 * x1 + p - 1) * invMod p (2 * y1) % p) x1 y1 x2

/-- A multiple of a point, for a factor below 2^fuel. -/
def Point.times : Nat → Nat → Point → Point
  | 0, _, _ => none
  | f + 1, k, a =>
    let r := Point.times f (k / 2) (a.add a)
    if k % 2 = 1 then r.add a else r

/-- A public key of 96 bytes as a point, where it is one of the curve: x and then y, most significant byte first. -/
def curvePoint (b : Bytes) : Point :=
  let p := curveP
  let x := netAt b 0 48
  let y := netAt b 48 48
  if b.length = 96 ∧ x < p ∧ y < p ∧ y * y % p = (x * x * x + 3 * (p - x) + curveB) % p then some (x, y) else none

/-- Is a key a point of the curve other than infinity (R538)? -/
def pointOk (b : Bytes) : Bool := (curvePoint b).isSome

/-- A point as 96 bytes. -/
def pointBytes : Point → Bytes
  | some (x, y) => be 48 x ++ be 48 y
  | none => zeros 96

/-- The public key of a private one. -/
def publicKey (d : Nat) : Bytes := pointBytes (Point.times 384 d curveG)

/-- The shared secret of a private and a public key: the x-coordinate (SP 800-56A). -/
def ecdh (d : Nat) (q : Bytes) : Bytes := (pointBytes (Point.times 384 d (curvePoint q))).take 48

/-- ECDSA over SHA-384 (FIPS 186-5): the signature of a message under a private key, with the number drawn for it. -/
def ecdsaSign (d k : Nat) (msg : Bytes) : Bytes :=
  let n := curveN
  let r := ofBe ((publicKey k).take 48) % n
  be 48 r ++ be 48 (invMod n k * (ofBe (sha384 msg) + r * d) % n)

/-- Does a signature verify over a message under a public key (FIPS 186-5)? -/
def ecdsaVerify (key msg sig : Bytes) : Bool :=
  let n := curveN
  let r := netAt sig 0 48
  let t := netAt sig 48 48
  let inv := invMod n t
  match curvePoint key with
  | none => false
  | some q =>
    if sig.length ≠ 96 ∨ r = 0 ∨ n ≤ r ∨ t = 0 ∨ n ≤ t then false
    else
      match (Point.times 384 (ofBe (sha384 msg) * inv % n) curveG).add (Point.times 384 (r * inv % n) (some q)) with
      | none => false
      | some (x, _) => x % n == r

/-! Certificates: DER of RFC 5280. -/

/-- One DER element: its tag, its bytes from the tag on, and its contents. -/
structure Der where
  tag : Nat
  whole : Bytes
  body : Bytes

/-- The element at the head of a byte string, and the rest: single-byte tags, and lengths in their shortest form. -/
def derOne (b : Bytes) : Option (Der × Bytes) :=
  match b with
  | t :: l :: rest =>
    let long := l.toNat - 128
    let n := if l.toNat < 128 then l.toNat else ofBe (rest.take long)
    let head := if l.toNat < 128 then 2 else 2 + long
    let short : Bool := l.toNat < 128 || (l.toNat < 133 && 128 < l.toNat && 128 ≤ n && 256 ^ (long - 1) ≤ n)
    if t.toNat % 32 = 31 ∨ !short ∨ b.length < head + n then none
    else some ({ tag := t.toNat, whole := b.take (head + n), body := slice b head n }, b.drop (head + n))
  | _ => none

/-- The elements that a byte string is made of, one after the other. -/
def derAll : Nat → Bytes → Option (List Der)
  | 0, b => if b = [] then some [] else none
  | f + 1, b =>
    if b = [] then some []
    else match derOne b with
      | none => none
      | some (e, r) => (derAll f r).map (e :: ·)

/-- The elements inside one of the given tag. -/
def Der.parts (e : Der) (tag : Nat) : Option (List Der) := if e.tag = tag then derAll e.body.length e.body else none

/-- Bytes of an object identifier with its tag and length. -/
def oid (b : List Nat) : Bytes := [6, BitVec.ofNat 8 b.length] ++ b.map (BitVec.ofNat 8)

/-- ecdsa-with-SHA384, as the one element of an algorithm identifier. -/
def oidEcdsa384 : Bytes := oid [0x2A, 0x86, 0x48, 0xCE, 0x3D, 4, 3, 3]

/-- id-ecPublicKey and secp384r1, the elements of the algorithm of a P-384 key. -/
def oidP384 : Bytes := oid [0x2A, 0x86, 0x48, 0xCE, 0x3D, 2, 1] ++ oid [0x2B, 0x81, 4, 0, 0x22]

/-- keyUsage, extKeyUsage and codeSigning. -/
def oidKeyUsage : Bytes := oid [0x55, 0x1D, 0x0F]
def oidExtUsage : Bytes := oid [0x55, 0x1D, 0x25]
def oidCodeSigning : Bytes := oid [0x2B, 6, 1, 5, 5, 7, 3, 3]

/-- What the engine takes from a certificate. -/
structure Certificate where
  /-- The bytes that are signed, and r and s of the signature. -/
  signed : Bytes
  sig : Bytes
  /-- The subject's P-384 key. -/
  key : Bytes
  /-- Do its extensions carry digitalSignature, and codeSigning? -/
  signs : Bool
  code : Bool

/-- The 96-byte form of a DER signature: two integers. -/
def sigOfDer (b : Bytes) : Option Bytes := do
  let (e, rest) ← derOne b
  match ← e.parts 0x30 with
  | [r, t] =>
    if rest = [] ∧ r.tag = 2 ∧ t.tag = 2 ∧ ofBe r.body < 2 ^ 384 ∧ ofBe t.body < 2 ^ 384 then some (be 48 (ofBe r.body) ++ be 48 (ofBe t.body))
    else none
  | _ => none

/-- The value of an extension: the OCTET STRING that ends it. -/
def extValue (name : Bytes) (l : List Der) : Option Bytes :=
  l.findSome? (fun e => match e.parts 0x30 with
    | some [n, v] => if n.whole = name ∧ v.tag = 4 then some v.body else none
    | some [n, c, v] => if n.whole = name ∧ c.tag = 1 ∧ v.tag = 4 then some v.body else none
    | _ => none)

/-- Does a keyUsage value hold digitalSignature, bit 0? -/
def usageSigns (v : Bytes) : Bool :=
  match derOne v with
  | some (e, []) => e.tag == 3 && 2 ≤ e.body.length && bit (fieldAt e.body 1 1) 7
  | _ => false

/-- Does an extKeyUsage value hold codeSigning? -/
def usageCode (v : Bytes) : Bool :=
  match derOne v with
  | some (e, []) => match e.parts 0x30 with
    | some l => l.any (fun x => x.whole == oidCodeSigning)
    | none => false
  | _ => false

/-- The extensions of a certificate, which the last field may hold. -/
def extensionsOf (l : List Der) : Option (List Der) :=
  match l.getLast? with
  | some e => if e.tag = 0xA3 then (do
      let (x, rest) ← derOne e.body
      if rest = [] then x.parts 0x30 else none) else some []
  | none => some []

/-- A certificate by RFC 5280, with zero fill after it (R557): signed with ECDSA over SHA-384, and with a P-384 key in uncompressed form. -/
def certificateOf (b : Bytes) : Option Certificate := do
  let (c, fill) ← derOne b
  if !fill.all (· == 0) then none
  else match ← c.parts 0x30 with
    | [tbs, alg, val] => do
      let fields ← tbs.parts 0x30
      let fields := match fields with
        | v :: l => if v.tag = 0xA0 then l else v :: l
        | [] => []
      match fields with
      | _serial :: inner :: _issuer :: _validity :: _subject :: spki :: more => do
        let sig ← sigOfDer (val.body.drop 1)
        let exts ← extensionsOf more
        match ← spki.parts 0x30 with
        | [a, k] =>
          if alg.tag = 0x30 ∧ alg.body = oidEcdsa384 ∧ inner.whole = alg.whole ∧ val.tag = 3 ∧ val.body.take 1 = [0]
              ∧ a.tag = 0x30 ∧ a.body = oidP384 ∧ k.tag = 3 ∧ k.body.take 2 = [0, 4] ∧ pointOk (k.body.drop 2) then
            some { signed := tbs.whole, sig := sig, key := k.body.drop 2,
                   signs := ((extValue oidKeyUsage exts).map usageSigns).getD false,
                   code := ((extValue oidExtUsage exts).map usageCode).getD false }
          else none
        | _ => none
      | _ => none
    | _ => none

/-- May a certificate sign firmware: signed under the root key, a P-384 key, and both usages (R558)? -/
def certOk (root b : Bytes) : Bool :=
  match certificateOf b with
  | none => false
  | some c => c.signs && c.code && ecdsaVerify root c.signed c.sig

/-- The public key of a certificate (R558). -/
def certKey (b : Bytes) : Bytes := ((certificateOf b).map (·.key)).getD []

end Sys2Proof.Machine
end

