-- ==== Sys2Proof/Machine/Ecc.lean ====
section
/-! DEFINITION. The SECDED code of the SRAM and of the Hoop FIFOs (R629, R630, R646, R653), and the March C- test of an array (R631). -/

namespace Sys2Proof.Machine

/-! ## The code -/

/-- The 8-bit values of a weight, in ascending order. -/
def ofWeight (w : Nat) : List Nat := (below 256).filter (fun c => ones 8 c = w)

/-- code(i) of the data bits of an SRAM word (R629): the values of weight 3, then the first eight of weight 5. -/
def sramColumns : List Nat := ofWeight 3 ++ (ofWeight 5).take 8

/-- code(i) of a Hoop FIFO word (R646): the values of weight 3, then the first ten of weight 5; EOP is bit 64, SOP bit 65. -/
def hoopColumns : List Nat := ofWeight 3 ++ (ofWeight 5).take 10

/-- The check bits of data: the XOR of the columns of its ones (R629). -/
def checkBits : List Nat → Nat → Nat
  | [], _ => 0
  | c :: t, d => (if d % 2 = 1 then c else 0) ^^^ checkBits t (d / 2)

/-- A stored word: the data, and the check bits above them (R626, R646). -/
def eccWord (cols : List Nat) (d : Nat) : Nat := d + 2 ^ cols.length * checkBits cols d

/-- The syndrome of a stored word (R630). -/
def syndrome (cols : List Nat) (w : Nat) : Nat := checkBits cols (w % 2 ^ cols.length) ^^^ w / 2 ^ cols.length

/-- What a read finds (R630). -/
inductive Ecc where
  | good (data : Nat)
  | corrected (data : Nat)
  | bad
deriving DecidableEq, Repr

/-- A read of a stored word (R630): good, corrected in one bit, or uncorrectable. -/
def eccRead (cols : List Nat) (w : Nat) : Ecc :=
  let n := cols.length
  let s := syndrome cols w
  if s = 0 then .good (w % 2 ^ n)
  else
    match cols.findIdx? (· == s) with
    | some i => .corrected ((w ^^^ 2 ^ i) % 2 ^ n)
    | none => if ones 8 s = 1 then .corrected (w % 2 ^ n) else .bad

/-! ## Hoop FIFO words -/

/-- Words of a packet in a Hoop FIFO (R646). -/
def hoopWords (b : Bytes) : Nat := ceilDiv b.length 8

/-- The bits to be changed in word k of FIFO f. -/
def State.hoopPattern (s : State) (f k : Nat) : Nat :=
  (s.hoopFlips.filter (fun e => e.1 = f && e.2.1 = k)).foldl (fun m e => m ^^^ 2 ^ e.2.2) 0

/-- The changed bits of a FIFO's next n words are gone with the words. -/
def State.dropFlips (s : State) (f n : Nat) : State :=
  { s with hoopFlips := s.hoopFlips.filterMap (fun e => if e.1 ≠ f then some e else if e.2.1 < n then none else some (e.1, e.2.1 - n, e.2.2)) }

/-- The reader decodes words of a FIFO, each with SOP and EOP (R653): it counts the corrections and marks the uncorrectable; the data, none where a
word is uncorrectable. -/
def State.hoopDecode (s : State) (f : Nat) (words : List Nat) : State × Option (List Nat) :=
  let read := (words.zip (below words.length)).map (fun e => eccRead hoopColumns (eccWord hoopColumns e.1 ^^^ s.hoopPattern f e.2))
  let fixed := (read.filter (fun r => match r with
    | .corrected _ => true
    | _ => false)).length
  let bad : Bool := read.contains .bad
  let s := (s.dropFlips f words.length).bump (Obj.hoopCntCorrected f) fixed
  let s := if bad then s.setObj (Obj.hoopHoopStatus f) (s.obj (Obj.hoopHoopStatus f) ||| 4) else s
  (s, if bad then none else some (read.map (fun r => match r with
    | .good d => d % 2 ^ 64
    | .corrected d => d % 2 ^ 64
    | .bad => 0)))

/-- The bytes of a command packet as the sequencer reads them from FIFO f, `none` within where they are as written; none where the packet holds an
uncorrectable word (R653). -/
def State.hoopPacket (s : State) (f : Nat) (raw : Bytes) : State × Option (Option Bytes) :=
  let n := hoopWords raw
  if !s.hoopFlips.any (fun e => e.1 = f) then (s, some none)
  else
    let word (k : Nat) : Nat := fieldAt raw (8 * k) 8 + (if k + 1 = n then 2 ^ 64 else 0) + (if k = 0 then 2 ^ 65 else 0)
    let (s, r) := s.hoopDecode f ((below n).map word)
    (s, r.map (fun l => let b := (l.flatMap (le 8)).take raw.length
      if b = raw then none else some b))

/-! ## March C- -/

/-- An operation on a word: a read or a write of the background, or of its complement. -/
structure MarchOp where
  read : Bool
  one : Bool
deriving DecidableEq, Repr

/-- The elements of March C- (R631): whether the addresses descend, and the operations. Where either order may be taken they ascend. -/
def marchElements : List (Bool × List MarchOp) :=
  [(false, [⟨false, false⟩]), (false, [⟨true, false⟩, ⟨false, true⟩]), (false, [⟨true, true⟩, ⟨false, false⟩]),
   (true, [⟨true, false⟩, ⟨false, true⟩]), (true, [⟨true, true⟩, ⟨false, false⟩]), (false, [⟨true, false⟩])]

/-- A cell by its word address in the array and its bit position. -/
def cellKey (place word col : Nat) : Nat := 128 * (64 * place + word) + col

/-- The key of a defect's cell. -/
def defectKey (d : Defect) : Nat := cellKey d.place d.word d.col

/-- The key of the cell that a coupled cell follows, and whether its rise or its fall counts. -/
def defectFollows (d : Defect) : Option (Nat × Bool) :=
  match d.fault with
  | .coupled w c rise => some (cellKey d.place w c, rise)
  | _ => none

/-- The cells that a run over faulty ones can find otherwise than good, or that such cells follow, with the values they hold. -/
def marchCells (l : List Defect) : Tab Bool :=
  l.foldl (fun t d =>
    let t := match defectFollows d with
      | some (k, _) => if (Tab.find t k).isSome then t else Tab.set t k false
      | none => t
    Tab.set t (defectKey d) (d.fault == .stuck true)) []

/-- What a write of a value leaves in a cell. -/
def cellWrite (l : List Defect) (k : Nat) (old v : Bool) : Bool :=
  (l.filter (fun d => defectKey d = k)).foldl (fun v d => match d.fault with
    | .stuck x => x
    | .noRise => old && v
    | .noFall => old || v
    | .coupled _ _ _ => v) v

/-- A write of a word: its cells, then those that follow them. -/
def marchWrite (l : List Defect) (cells : Tab Bool) (word : Nat) (bg : Nat → Bool) : Tab Bool :=
  let mine := cells.filter (fun c => c.1 / 128 = word)
  let next := mine.map (fun c => (c.1, c.2, cellWrite l c.1 c.2 (bg (c.1 % 128))))
  let cells := next.foldl (fun t c => Tab.set t c.1 c.2.2) cells
  (next.filter (fun c => c.2.1 != c.2.2)).foldl (fun t c =>
    (l.filter (fun d => defectFollows d = some (c.1, c.2.2))).foldl (fun t d => Tab.set t (defectKey d) (!Tab.getD t (defectKey d) false)) t) cells

/-- March C- over faulty cells with a background by word and bit (R631): the cells that fail, which read as the complement of the value expected. -/
def marchRun (l : List Defect) (bg : Nat → Nat → Bool) : List Nat :=
  let cells := marchCells l
  let words := (cells.keys.map (· / 128)).eraseDups
  let run := marchElements.foldl (fun (m : Tab Bool × List Nat) e =>
    (if e.1 then words.reverse else words).foldl (fun m w =>
      e.2.foldl (fun m op =>
        let want (b : Nat) : Bool := bg w b != op.one
        if op.read then (m.1, m.2 ++ ((m.1.filter (fun c => c.1 / 128 = w && c.2 != want (c.1 % 128))).map (·.1)))
        else (marchWrite l m.1 w want, m.2)) m) m) (cells, [])
  run.2.eraseDups

/-- The solid background: every bit 0 (R632, R637). -/
def solid (_ _ : Nat) : Bool := false

/-- The checkerboard background (R632). -/
def checkered (word b : Nat) : Bool := (b + word) % 2 = 1

end Sys2Proof.Machine
end

