-- ==== Sys2Proof/Machine/Port.lean ====
section
/-! DEFINITION. Command packets and responses (R502-R510), acceptance, the authentication of a packet and the retry
cache (R511, R531, R548-R555), and what a command's end writes: the clamp report, LAST_ERROR, the journal and the
response (R505-R510, R516, R533, R561-R565). -/

namespace Sys2Proof.Machine

abbrev opRead : Nat := 0x01
abbrev opWrite : Nat := 0x02
abbrev opCommit : Nat := 0x03
abbrev opDiscard : Nat := 0x04
abbrev opSegStart : Nat := 0x05
abbrev opSegData : Nat := 0x06
abbrev opSegEnd : Nat := 0x07
abbrev opSegAbort : Nat := 0x08
abbrev opSegRead : Nat := 0x09
abbrev opEcho : Nat := 0x0A
abbrev opHello : Nat := 0x20
abbrev opAttest : Nat := 0x21
abbrev opProve : Nat := 0x22
abbrev opClose : Nat := 0x23

/-- Is OP in the tables of R503 and R542? -/
def opKnown (op : Nat) : Bool := (1 ≤ op && op ≤ 10) || (0x20 ≤ op && op ≤ 0x23)

/-- Does an OP receive a JSEQ (R503, R542)? -/
def opJournaled (op : Nat) : Bool := [2, 3, 4, 5, 7, 8, 0x22, 0x23].contains op

/-- The write entries of a body: exactly n with their zero fill, nothing left over (R504, R719). -/
def writeEntries : Nat → Bytes → Option (List (Key × Bytes))
  | 0, b => if b = [] then some [] else none
  | n + 1, b =>
    let size := fieldAt b 3 1
    let whole := 4 + (size + 3) / 4 * 4
    if b.length < 4 ∨ b.length < whole ∨ (b.take whole).drop (4 + size) ≠ zeros (whole - 4 - size) then none
    else
      match writeEntries n (b.drop whole) with
      | none => none
      | some l => some ((256 * fieldAt b 0 2 + fieldAt b 2 1, (b.drop 4).take size) :: l)

/-- The read entries of a body: the key, and STAGED (R504). -/
def readEntries : Nat → Bytes → List (Key × Bool)
  | 0, _ => []
  | n + 1, b => (256 * fieldAt b 0 2 + fieldAt b 2 1, bit (fieldAt b 3 1) 0) :: readEntries n (b.drop 4)

/-- Has the body the form of its OP (R503, R542, R719)? -/
def bodyOk (op entries : Nat) (b : Bytes) : Bool :=
  match op with
  | 0x01 => b.length = 4 * entries
  | 0x02 => (writeEntries entries b).isSome
  | 0x03 => b.length = 16
  | 0x04 => b.length = 4
  | 0x05 => b.length = 8
  | 0x06 => 8 ≤ b.length
  | 0x07 => b.length = 8
  | 0x08 => b.length = 4
  | 0x09 => b.length = 8
  | 0x20 => b.length = 128
  | 0x21 => b.length = 8
  | 0x22 => b.length = 104
  | 0x23 => b.length = 8
  | _ => true

/-- The packet check of R502, R542, R554 and R719; none where it fails. -/
def parsePkt (port : Nat) (raw : Bytes) : Option Pkt :=
  let n := raw.length
  let op := fieldAt raw 0 1
  let flags := fieldAt raw 2 1
  let auth := bit flags 1
  let entries := fieldAt raw 6 1
  let body := (raw.drop 16).take (n - 16 - if auth then 32 else 0)
  if n < 16 ∨ 256 < n ∨ n % 4 ≠ 0 ∨ fieldAt raw 4 2 ≠ n ∨ fieldAt raw 1 1 ≠ 1 ∨ !opKnown op ∨ 3 < flags
      ∨ fieldAt raw 7 1 ≠ 0 ∨ fieldAt raw 12 4 ≠ 0 ∨ (auth && (n < 48 || port = 2 || (0x20 ≤ op && op ≤ 0x22)))
      ∨ !bodyOk op entries body then none
  else some ⟨op, flags, entries, fieldAt raw 8 4, body, if auth then raw.drop (n - 32) else [], raw⟩

/-- The packet bytes of a WRITE (R502, R504), as a sender writes it. -/
def writePacket (tag flags entries : Nat) (body trailer : Bytes) : Bytes :=
  le 1 2 ++ le 1 1 ++ le 1 flags ++ [0] ++ le 2 (16 + body.length + trailer.length) ++ le 1 entries ++ [0] ++ le 4 tag
    ++ zeros 4 ++ body ++ trailer

/-- One write entry (R504). -/
def writeEntry (k : Key) (v : Bytes) : Bytes := le 2 (k / 256) ++ le 1 k ++ le 1 v.length ++ padTo 4 v

/-- The packet bytes of a COMMIT with a target tick (R503). -/
def commitPacket (tag target : Nat) : Bytes :=
  le 1 3 ++ le 1 1 ++ [0, 0] ++ le 2 32 ++ [0, 0] ++ le 4 tag ++ zeros 4 ++ le 8 target ++ zeros 8

/-- The MAC input of R549: direction, SESSION_ID, COUNTER, header and body. -/
def macInput (dir : Nat) (trailer header body : Bytes) : Bytes :=
  le 1 dir ++ zeros 7 ++ trailer.take 16 ++ header ++ body

/-! Ports. -/

/-- A port's own state. -/
def State.port (s : State) (p : Nat) : PortState := s.ports.getD p {}

/-- Replace a port's own state. -/
def State.setPort (s : State) (p : Nat) (x : PortState) : State := { s with ports := s.ports.put p {} x }

/-- CORE of a header: the issuing core on port 2, 0xFF elsewhere (R502). -/
def coreField (i : Issuer) : Nat := if i.port = 2 then i.core else 255

/-- The key of a core's own copy of a port-2 object (R519). -/
def coreKey (core : Nat) (k : Key) : Nat := core * 2 ^ 24 + k

/-- Is a key one of the port-2 members that R519 keeps for each core? -/
def perCore (k : Key) : Bool :=
  k = Obj.tableTableResult 2 || k = Obj.cmmLeaseResult 2 || k = Obj.coderStateSel 2 || k = Obj.portClampReport 2
    || k = Obj.portReportJseq 2 || k = Obj.portLastError 2 || k = Obj.portLastErrorJseq 2

/-- A command of a core has written a port-2 object: the core's copy takes it too (R519). -/
def State.keepCore (s : State) (i : Issuer) (k : Key) : State :=
  if i.port = 2 ∧ perCore k then
    { s with coreDict := s.coreDict.put (coreKey i.core k) (dfltOf k) (s.obj k),
             coreDoms := s.coreDoms.put (coreKey i.core k) (domDflt k) (s.dom k) }
  else s

/-- An integer object as an issuer sees it (R519). -/
def State.objFor (s : State) (i : Issuer) (k : Key) : Nat :=
  if i.port = 2 ∧ perCore k then s.coreDict.getD (coreKey i.core k) (dfltOf k) else s.obj k

/-- A DOMAIN object as an issuer sees it (R519). -/
def State.domFor (s : State) (i : Issuer) (k : Key) : Bytes :=
  if i.port = 2 ∧ perCore k then s.coreDoms.getD (coreKey i.core k) (domDflt k) else s.dom k

/-! Responses. -/

/-- The 32-byte response header of R505, with LENGTH for the bytes that follow. -/
def respHeader (i : Issuer) (op tag status reason jseq effect reports entries : Nat) (truncated auth : Bool) (follow : Nat) :
    Bytes :=
  le 1 (op + 0x80) ++ le 1 1 ++ le 1 (ofBool truncated + 2 * ofBool auth) ++ le 1 (coreField i) ++ le 2 (32 + follow)
    ++ le 1 entries ++ le 1 status ++ le 4 tag ++ le 2 reports ++ le 1 reason ++ le 1 0 ++ le 8 jseq ++ le 8 effect

/-- The bytes of a response; an authenticated command's carries the trailer of R552, `auth` being the command's trailer and K. -/
def respBytes (i : Issuer) (auth : Bytes) (op tag status reason jseq effect reports entries : Nat) (truncated : Bool)
    (body : Bytes) : Bytes :=
  let signed := auth ≠ [] && status != stAuthFail && status != stReplay
  let h := respHeader i op tag status reason jseq effect reports entries truncated signed (body.length + if signed then 32 else 0)
  if signed then h ++ body ++ auth.take 16 ++ mac16 (auth.drop 32) (macInput 2 auth h body) else h ++ body

/-- A VDP header (R529). -/
def vdpHeader (kind : Nat) : Bytes := le 3 0x504456 ++ le 1 kind ++ zeros 4

/-- Hand a response to its issuer: on port 0 it stands in the response slot and vector 0 is raised (R579, R580); on port 1 it leaves as a
datagram of KIND RESPONSE (R529). An
issuer whose port or core was reset receives none (R594, R610). -/
def State.deliverResp (s : State) (i : Issuer) (data : Bytes) : State :=
  if 15 < i.slot then s
  else if i.port = 0 then
    let h := s.host
    (({ s with host := { h with rspSlots := h.rspSlots.put i.slot [] data, rspReady := h.rspReady ||| 2 ^ i.slot } }).emit
      (.response i data)).raise 0
  else if i.port = 1 then s.emit (.response i (vdpHeader 2 ++ data))
  else s.emit (.response i data)

/-! The retry cache (R531). -/

/-- CRC-32 of a packet with CORE taken as zero. -/
def pktCrc (raw : Bytes) : Nat := crc32 (raw.take 3 ++ [0] ++ raw.drop 4)

/-- Does a cache entry have the key of a packet? -/
def cacheHit (e : CacheEntry) (i : Issuer) (tag : Nat) : Bool :=
  e.tag == tag && (i.port != 1 || (e.addr == i.addr && e.udp == i.udp)) && (i.port != 2 || e.core == i.core)

/-- The entry of a packet's key, if the cache holds one. -/
def State.cached (s : State) (i : Issuer) (tag : Nat) : Option CacheEntry := (s.port i.port).cache.find? (fun e => cacheHit e i tag)

/-- A new key replaces the oldest of 64. -/
def State.cachePut (s : State) (i : Issuer) (tag crc jseq : Nat) : State :=
  let p := s.port i.port
  s.setPort i.port { p with cache := lastN 64 (p.cache ++ [⟨tag, i.addr, i.udp, i.core, crc, jseq, none⟩]) }

/-- A command has completed: its response is kept with its key, unless the entry has gone to a later command of that key. -/
def State.cacheResp (s : State) (i : Issuer) (tag jseq : Nat) (r : Bytes) : State :=
  let p := s.port i.port
  s.setPort i.port { p with cache := p.cache.map (fun e => if cacheHit e i tag && e.jseq == jseq then { e with resp := some r } else e) }

/-! What a command's end writes. -/

/-- The reasons of R510 that a command's entries bear: the first of the table. -/
def leastReason (outs : List ObjOut) : Nat :=
  outs.foldl (fun r o => if o.reason ≠ 0 ∧ (r = 0 ∨ o.reason < r) then o.reason else r) 0

/-- The status of a command from its entries (R509, R510). -/
def outStatus (outs : List ObjOut) : Nat :=
  let changed := outs.filter (fun o => o.status ≤ 2)
  if changed ≠ [] then
    if changed.any (fun o => o.status = stSuperseded) then stSuperseded
    else if outs.any (fun o => o.rep.any (fun r => r.status ≠ stSuperseded)) then stClamped
    else stOk
  else if outs.any (fun o => o.status = stStaged) then stStaged
  else (outs.head?.map (·.status)).getD stEmpty

/-- The 32 bytes of a report entry (R508). -/
def RepEntry.bytes (r : RepEntry) : Bytes :=
  le 1 r.status ++ le 1 r.key ++ le 2 (r.key / 256) ++ le 8 r.byJseq ++ le 4 r.fieldId ++ le 8 r.written ++ le 8 r.applied

/-- The report of a command, at most 4,096 entries (R516). -/
def reportOf (outs : List ObjOut) : List RepEntry := (outs.flatMap (·.rep)).take 4096

/-- CLAMP_REPORT and REPORT_JSEQ follow a command that produced a report (R516, R519). -/
def State.setReport (s : State) (i : Issuer) (rep : List RepEntry) (jseq : Nat) : State :=
  if rep = [] then s
  else
    (((s.setDom (Obj.portClampReport i.port) (rep.flatMap RepEntry.bytes)).setObj (Obj.portReportJseq i.port) jseq).keepCore i
      (Obj.portClampReport i.port)).keepCore i (Obj.portReportJseq i.port)

/-- LAST_ERROR and LAST_ERROR_JSEQ follow a refusal (R510, R533): the first refused object that bears the reason. -/
def State.setError (s : State) (i : Issuer) (outs : List ObjOut) (status reason jseq : Nat) : State :=
  let bad := outs.filter (fun o => stRejected ≤ o.status)
  if bad = [] ∧ status < stRejected then s
  else
    let named := match bad.find? (fun o => o.reason = reason) with
      | some o => o.key
      | none => (bad.head?.map (·.key)).getD 0
    (((s.setObj (Obj.portLastError i.port) (256 * named + reason)).setObj (Obj.portLastErrorJseq i.port) jseq).keepCore i
      (Obj.portLastError i.port)).keepCore i (Obj.portLastErrorJseq i.port)

/-- The bytes of a value (R498). -/
def valBytes (k : Key) (v : Val) : Bytes :=
  match v with
  | .byt b => b
  | .num n =>
    match findObj k with
    | some d => le (d.ty.width / 8) n
    | none => []

/-- CONT entries of a value's bytes past the first 8 (R562). -/
def State.jConts (s : State) (jseq : Nat) (t : Tick) : Nat → Bytes → State
  | 0, _ => s
  | f + 1, b => if b = [] then s else (s.jWrite 4 0 jseq t (fieldAt b 8 4) (fieldAt b 0 8)).jConts jseq t f (b.drop 12)

/-- Is an object a DOMAIN? -/
def isDomain (k : Key) : Bool := (findObj k).any (fun d => d.ty == .dom)

/-- The VALUE entry of one object, with its CONTs (R562-R564). -/
def State.jValue (s : State) (jseq : Nat) (t : Tick) (o : ObjOut) : State :=
  match o.applied with
  | none => s
  | some v =>
    let b := valBytes o.key v
    let flags := ofBool (o.status = stStaged) + 2 * ofBool (o.status = stSuperseded)
      + 4 * ofBool (o.status = stClamped || o.rep.any (fun r => r.status = stClamped))
    if isDomain o.key then s.jWrite 3 (flags + 8) jseq t (256 * o.key + 8) (2 ^ 32 * b.length + crc32 b)
    else (s.jWrite 3 flags jseq t (256 * o.key + b.length) (fieldAt b 0 8)).jConts jseq t 8 (b.drop 8)

/-- The outcomes that the journal lists: what was applied or staged (R563). -/
def journaledOuts (outs : List ObjOut) : List ObjOut := outs.filter (fun o => o.applies && o.applied.isSome)

/-- The OUTCOME of a command and its VALUEs (R562-R565). -/
def State.jOutcome (s : State) (jseq : Nat) (t : Tick) (status reason reports : Nat) (final : Bool) (outs : List ObjOut) : State :=
  if jseq = 0 then s
  else
    let l := journaledOuts outs
    l.foldl (fun s o => s.jValue jseq t o)
      (s.jWrite 2 (16 * ofBool final) jseq t 0 (satN 16 l.length * 2 ^ 32 + reports * 2 ^ 16 + reason * 2 ^ 8 + status))

/-- A command that SC0 sent for the configuration block has ended (R622). -/
def State.configStep (s : State) (i : Issuer) (status : Nat) : State :=
  match s.flash.applying with
  | none => s
  | some r => if i.port = 2 ∧ i.core = 0 ∧ stRejected ≤ status then { s with flash := { s.flash with applying := some { r with bad := true } } } else s

/-- A command ends: its outcome is journaled, its report and its refusal are kept, its response is sent (R505-R516). -/
def State.finish (s : State) (l : Landing) (t : Tick) : State :=
  let (status, reason) := l.fixed.getD (outStatus l.outs, leastReason l.outs)
  let rep := reportOf l.outs
  let s := (s.setReport l.iss rep l.jseq).setError l.iss l.outs status reason l.jseq
  let s := s.jOutcome l.jseq t status reason rep.length l.final l.outs
  if l.op = 0 then s
  else
    let shown := rep.take 6
    let changed : Bool := match l.fixed with
      | some _ => status == stOk
      | none => l.outs.any (fun o => o.status ≤ stSuperseded)
    let effect := if changed then l.effect else 0
    let r := respBytes l.iss l.trailer l.op l.tag status reason l.jseq effect rep.length shown.length (6 < rep.length)
      (shown.flatMap RepEntry.bytes)
    ((s.cacheResp l.iss l.tag l.jseq r).configStep l.iss status).deliverResp l.iss r

/-- A response with a body of its own: READ, SEG_READ, ECHO and the session messages; `outs` are the objects a read was refused (R510, R533). -/
def State.reply (s : State) (i : Issuer) (auth : Bytes) (op tag status reason jseq entries : Nat) (body : Bytes) (outs : List ObjOut := []) :
    State :=
  let r := respBytes i auth op tag status reason jseq 0 0 entries false body
  ((s.setError i outs status reason jseq).cacheResp i tag jseq r).deliverResp i r

/-- A packet that is not accepted is answered at once, outside cache and journal (R550). -/
def State.turnAway (s : State) (i : Issuer) (op tag status reason : Nat) : State :=
  (s.setError i [] status reason 0).deliverResp i (respBytes i [] op tag status reason 0 0 0 0 false [])

/-! Acceptance. -/

/-- The state behind a session slot. -/
def State.session (s : State) (k : Nat) : Session := s.sessions.getD k {}

/-- Replace the state behind a session slot. -/
def State.setSession (s : State) (k : Nat) (x : Session) : State := { s with sessions := s.sessions.put k {} x }

/-- PEER of a session: the source address and UDP port on port 1 (R541, R570). -/
def peerOf (i : Issuer) : Bytes := if i.port = 1 then i.addr ++ le 2 i.udp else zeros 18

/-- The slot of the session a SESSION_ID names for an issuer, in one of the given states (R541, R550). -/
def State.sessionOf (s : State) (i : Issuer) (id : Bytes) (states : List Nat) : Option Nat :=
  (below 8).find? (fun k => states.contains (s.obj (Obj.sessState k)) && (s.session k).id == id
    && s.obj (Obj.sessPort k) == i.port && s.dom (Obj.sessPeer k) == peerOf i && i.port != 2)

/-- Is a transfer the issuer's own (R519)? -/
def Transfer.mine (x : Transfer) (i : Issuer) : Bool := x.iss.port == i.port && (i.port != 2 || x.iss.core == i.core)

/-- The open transfer an issuer names. -/
def State.transferOf (s : State) (i : Issuer) (n : Nat) : Option Transfer := s.transfers.find? (fun x => x.xfer == n && x.mine i)

/-- Is an object critical (R500)? -/
def isCritical (k : Key) : Bool := (findObj k).any (·.crit)

/-- The transfer that a SEG_DATA, SEG_END or SEG_ABORT names. -/
def State.pktTransfer (s : State) (i : Issuer) (p : Pkt) : Option Transfer :=
  if [opSegData, opSegEnd, opSegAbort].contains p.op then s.transferOf i (fieldAt p.body 0 2) else none

/-- Does a packet need a trailer (R553-R555)? -/
def State.needsTrailer (s : State) (i : Issuer) (p : Pkt) : Bool :=
  let pol := s.obj Obj.secPolicy
  if p.op = opClose then true
  else if i.port = 2 then false
  else if p.op = opRead ∨ p.op = opSegRead ∨ p.op = opEcho then bit pol 1
  else if 0x20 ≤ p.op then false
  else bit pol 0
    || (p.op = opWrite && ((writeEntries p.entries p.body).getD []).any (fun e => isCritical e.1))
    || (p.op = opSegStart && isCritical (256 * fieldAt p.body 0 2 + fieldAt p.body 2 1))
    || (s.pktTransfer i p).any (fun x => isCritical x.key)

/-- The trailer of a packet, checked in the order of R550: the slot of its session, or none where it fails. -/
def State.checkTrailer (s : State) (i : Issuer) (p : Pkt) : Option Nat :=
  match s.sessionOf i (p.trailer.take 8) [2] with
  | none => none
  | some k =>
    let want := mac16 (s.session k).key (macInput 1 p.trailer (p.raw.take 3 ++ [0] ++ (p.raw.drop 4).take 12) p.body)
    let sameSession := match s.pktTransfer i p with
      | some x => !isCritical x.key || x.session == p.trailer.take 8
      | none => true
    if p.trailer.drop 16 == want && sameSession && !(p.op == opClose && p.body != p.trailer.take 8) then some k else none

/-- The response to a packet that was rewound (R502, R505): none where fewer than 16 bytes were received. -/
def State.rewound (s : State) (i : Issuer) (raw : Bytes) : State :=
  if 256 < raw.length then
    (s.bump (Obj.portCntOversize i.port) 1).turnAway i (fieldAt raw 0 1 % 128) (fieldAt raw 8 4) stOversize 0
  else
    let s := s.bump (Obj.portCntCheckFail i.port) 1
    if raw.length < 16 then s else s.turnAway i (fieldAt raw 0 1 % 128) (fieldAt raw 8 4) stRejected reHeader

/-- A command slot's packet is accepted or rewound (R578). -/
def State.clearBusy (s : State) (i : Issuer) : State :=
  if i.port = 0 ∧ i.slot < 16 ∧ bit s.host.cmdBusy i.slot then
    { s with host := { s.host with cmdBusy := s.host.cmdBusy - 2 ^ i.slot } }
  else s

/-- The packet leaves its ingress FIFO, if it came through it (R511, R647). -/
def State.popHoop (s : State) (i : Issuer) (raw : Bytes) : State :=
  match s.hoop.getD i.port [] with
  | (j, b) :: t => if j = i ∧ b = raw then { s with hoop := s.hoop.put i.port [] t } else s
  | [] => s

/-- Must a packet wait in its FIFO (R511, R578): its port has given a packet in this tick, or a later port has, or others
stand before it, or it is not yet written whole? -/
def State.mustWait (s : State) (i : Issuer) (raw : Bytes) : Bool :=
  s.taken.any (fun p => i.port ≤ p) || (i.port == 0 && s.host.mail.contains (i, raw))
    || (match s.hoop.getD i.port [] with
        | h :: _ => h != (i, raw)
        | [] => false)

/-- Keep a packet in its FIFO until it may be accepted, once (R647). -/
def State.park (s : State) (i : Issuer) (raw : Bytes) : State :=
  let q := s.hoop.getD i.port []
  if q.contains (i, raw) || (i.port == 0 && s.host.mail.contains (i, raw)) then s else { s with hoop := s.hoop.put i.port [] (q ++ [(i, raw)]) }

/-- HEAD of a journaled command (R562, R563). -/
def State.jHead (s : State) (i : Issuer) (p : Pkt) (slot jseq : Nat) : State :=
  s.jWrite 1 0 jseq s.tick (p.op * 2 ^ 24 + i.port * 2 ^ 16 + coreField i * 2 ^ 8 + p.flags)
    (p.tag * 2 ^ 32 + (if p.trailer = [] then 0 else fieldAt p.trailer 8 2) * 2 ^ 16 + slot * 2 ^ 8 + p.entries)

/-- The checks of R550 in their order: the state after them, and the accepted packet where every one passed. A port-2 packet of the
engine's own services (`fresh`) is never a retry. -/
def State.admission (s : State) (i : Issuer) (p : Pkt) (fresh : Bool) : State × Option Accepted :=
  let failed (s : State) : State × Option Accepted :=
    ((s.bump (Obj.portCntAuthFail i.port) 1).turnAway i p.op p.tag stAuthFail 0, none)
  let slot := if p.trailer = [] then none else s.checkTrailer i p
  if p.trailer ≠ [] ∧ slot = none then failed s
  else if p.trailer = [] ∧ s.needsTrailer i p then failed s
  else
    let crc := pktCrc p.raw
    match (if fresh then none else s.cached i p.tag) with
    | some e =>
      if e.crc = crc then
        match e.resp with
        | some r => ((s.bump (Obj.portCntRetries i.port) 1).deliverResp i r, none)
        | none => (s, none)
      else ((s.bump (Obj.portCntTagReuse i.port) 1).turnAway i p.op p.tag stRejected reTagReuse, none)
    | none =>
      let counter := fieldAt p.trailer 8 8
      let stale := slot.any (fun k => counter ≤ s.obj (Obj.sessLastCounter k))
      if stale then ((s.bump (Obj.portCntReplays i.port) 1).turnAway i p.op p.tag stReplay 0, none)
      else
        let s := (s.bump (Obj.portCntAccepted i.port) 1).cachePut i p.tag crc (if opJournaled p.op then s.obj Obj.jnlLastJseq + 1 else 0)
        let s := match slot with
          | some k => ((s.setSession k { s.session k with usedAt := s.tick }).setObj (Obj.sessLastCounter k) counter).setObj (Obj.sessLastUseTick k) s.tick
          | none => s
        let auth := match slot with
          | some k => p.trailer ++ (s.session k).key
          | none => []
        if opJournaled p.op then
          let (j, s) := s.nextJseq
          (s.jHead i p (slot.getD 255) j, some ⟨i, p, auth, slot.getD 255, j⟩)
        else (s, some ⟨i, p, auth, slot.getD 255, 0⟩)

/-- The sequencer reads a packet of a row's OP from its FIFO (R653): one with an uncorrectable word, or that no longer is such a packet, is rewound. -/
def State.received (s : State) (op : Nat) (i : Issuer) (raw : Bytes) (p : Pkt) : State × Option Pkt :=
  match s.hoopPacket i.port raw with
  | (s, none) => (s.rewound i raw, none)
  | (s, some none) => (s, some p)
  | (s, some (some b)) => match (parsePkt i.port b).filter (fun p => p.op = op) with
    | some p => (s, some p)
    | none => (s.rewound i b, none)

/-- A packet reaches the sequencer (R502, R511, R531, R550). In BOOT no command is accepted (R659). The command `f`
acts where the packet is accepted and has the OP of the row; another OP is another row's packet. -/
def State.packet (s : State) (op : Nat) (i : Issuer) (raw : Bytes) (f : Accepted → State → State) : State :=
  if !s.booted then s
  else
    match parsePkt i.port raw with
    | none => if s.mustWait i raw then s.park i raw
              else ((({ s with taken := s.taken ++ [i.port] }).popHoop i raw |>.clearBusy i).hoopPacket i.port raw).1.rewound i raw
    | some p =>
      if p.op ≠ op then s
      else if s.mustWait i raw then s.park i raw
      else
        match ((({ s with taken := s.taken ++ [i.port] }).popHoop i raw).clearBusy i).received op i raw p with
        | (s, none) => s
        | (s, some p) =>
          match s.admission i p false with
          | (s, none) => s
          | (s, some a) => f a s

/-- What a command leaves for its end: no entries yet. -/
def Accepted.landing (a : Accepted) : Landing :=
  { iss := a.iss, op := a.pkt.op, flags := a.pkt.flags, trailer := a.auth, tag := a.pkt.tag, jseq := a.jseq }

/-- A command that ends at its acceptance with a status and a reason. -/
def State.endNow (s : State) (a : Accepted) (status reason : Nat) : State :=
  s.finish { a.landing with fixed := some (status, reason) } s.tick

/-- As endNow, about one object. -/
def State.endObj (s : State) (a : Accepted) (o : ObjOut) : State := s.finish { a.landing with outs := [o] } s.tick

/-- ECHO (R503, R507). -/
def execEcho (iss : Issuer) (pkt : Bytes) (s : State) : Ans :=
  .next (s.packet opEcho iss pkt (fun a s =>
    if (if a.auth = [] then 224 else 192) < a.pkt.body.length then s.endNow a stRejected reRange
    else s.reply iss a.auth opEcho a.pkt.tag stOk 0 0 0 a.pkt.body))

end Sys2Proof.Machine
end

