-- ==== Sys2Proof/Machine/Check.lean ====
section
/-! DEFINITION. The checks of single fields of a write (R496-R504, R508, R514): index, access, size, type, Range and Zero, and the
device states and straps that refuse a write (R657, R664). -/

namespace Sys2Proof.Machine

/-- The low 64 bits of a value as a report gives them: the tick of a TIME, zero for bytes (R508). -/
def lowOf (v : Val) : Nat :=
  match v with
  | .num n => cut 64 n
  | .byt _ => 0

/-- WRITTEN and APPLIED of an object's own report entries (R508); those of the fields of TIMINGS state both themselves (R727). -/
def ObjOut.fill (o : ObjOut) (written : Val) : ObjOut :=
  { o with rep := o.rep.map (fun r =>
      if r.key = o.key ∧ r.key ≠ Obj.cmmTimings then
        { r with written := lowOf written, applied := if stRejected ≤ o.status then 0 else (o.applied.map lowOf).getD 0 }
      else r) }

/-- The check of an integer against its Range (R499): the value applied and the reason of a clamp; none where it is refused. -/
def rangeCheck (r : Rng) (signed : Bool) (width v : Nat) : Option (Nat × Nat) :=
  let x : Int := if signed then toInt width v else v
  let into (lo hi : Int) : Nat × Nat :=
    if x < lo then (ofInt width lo, rpRaised) else if hi < x then (ofInt width hi, rpLowered) else (v, 0)
  match r with
  | .any => some (v, 0)
  | .clamp lo hi => some (into lo hi)
  | .zeroOwn lo hi => some (if v = 0 then (v, 0) else into lo hi)
  | .parts zeroRejected ps =>
    if ps.any (fun p => p.1 ≤ x && x ≤ p.2) then some (v, 0)
    else if v = 0 ∧ zeroRejected then none
    else
      match ps.head?, ps.getLast? with
      | some a, some b =>
        if x < a.1 then some (ofInt width a.1, rpRaised) else if b.2 < x then some (ofInt width b.2, rpLowered) else none
      | _, _ => none
  | .enum hi => if v ≤ hi then some (v, 0) else none
  | .bits mask => some (v &&& mask, if v &&& mask = v then 0 else rpCleared)
  | .pow2 lo hi =>
    if v = 0 then none
    else if v < lo then some (lo, rpRaised)
    else
      let p := min hi (2 ^ v.log2)
      some (p, if p = v then 0 else rpLowered)
  | .len _ _ => some (v, 0)
  | .special => some (v, 0)

/-- The fields that a clamp changes, most and least significant bit: the whole value, or each reserved field that is not zero (R508, R514). -/
def clampedFields (r : Rng) (width v : Nat) : List (Nat × Nat) :=
  match r with
  | .bits mask => ((gapsOf mask).map (fun g => (min g.1 (width - 1), g.2))).filter (fun g => g.2 < width && bits v g.1 g.2 != 0)
  | _ => [(width - 1, 0)]

/-- Objects whose own rule checks one field: R571, R68, R72, R107, R148, R633. None where the rule refuses. -/
def State.ownCheck (s : State) (k : Key) (v : Nat) : Option (Nat × List RepEntry) :=
  let ix := k / 256
  let sub := k % 256
  if k = Obj.jnlMirrorEntries then
    let p := if v = 0 then 0 else min (2 ^ 24) (max (2 ^ 21) (2 ^ v.log2))
    some (p, if p = v then [] else [clampEntry k (if v < p then rpRaised else rpLowered) 32 v p])
  else if k = Obj.synLSynWord then
    if v = 0 then none else let (w, r, _) := s.checkWord 1 k v; some (w, r)
  else if 0x2204 ≤ ix ∧ ix < 0x2208 ∧ sub = 1 then
    if v = 0 then some (0, []) else let (w, r, _) := s.checkWord (ix - 0x2204 + 2) k v; some (w, r)
  else if ix = 0x2210 then checkBand k v
  else if 0x3000 ≤ ix ∧ ix < 0x3100 ∧ sub = 7 then
    let p := clampN 1 15 (if v % 2 = 0 then v + 1 else v)
    some (p, if p = v then [] else [clampEntry k (if v < p then rpRaised else rpLowered) 8 v p])
  else if 0x3100 ≤ ix ∧ ix < 0x3120 ∧ 0x20 ≤ sub ∧ sub < 0x2C then
    let x := toInt 8 v
    let p := ofInt 8 (if sub = 0x20 then clampI (-64) 63 x else clampI (-32) 31 x)
    some (p, if p = v then [] else [clampEntry k (if x < 0 then rpRaised else rpLowered) 8 v p])
  else if ix = 0x5C00 ∧ 3 ≤ sub ∧ sub ≤ 5 then if 231 < v ∧ v ≠ 0xFFFF then none else some (v, [])
  else some (v, [])

/-- The check of one integer or TIME value (R498, R499, R42). -/
def State.numCheck (s : State) (k : Key) (d : ObjDef) (v : Nat) : ObjOut :=
  let w := d.ty.width
  if v = 0 ∧ d.zeroEmpty then emptyOut k
  else if d.ty = .time then
    let x := v % 2 ^ 70
    clampedOut k (.num x) (if x = v then [] else [clampField k rpCleared 79 70 0 0])
  else if d.ty = .bool then
    if v ≤ 1 then okOut k (.num v) else clampedOut k (.num 1) [clampEntry k rpReplaced 8 v 1]
  else if d.rng = .special then
    match s.ownCheck k v with
    | some (x, rep) => clampedOut k (.num x) rep
    | none => rejOut k
  else
    match rangeCheck d.rng d.ty.signed w v with
    | none => rejOut k
    | some (x, reason) =>
      clampedOut k (.num x) (if reason = 0 then [] else (clampedFields d.rng w v).map (fun f => clampField k reason f.1 f.2 0 0))

/-- The check of one byte string (R504). -/
def bytCheck (k : Key) (d : ObjDef) (b : Bytes) : ObjOut :=
  let (lo, hi) := match d.rng with
    | .len lo hi => (lo, hi)
    | _ => (0, 0)
  if b = [] then if d.zeroEmpty then emptyOut k else rejOut k
  else if b.length < lo ∨ hi < b.length then rejOut k
  else okOut k (.byt b)

/-- The value that an entry's bytes write, for a report. -/
def writtenVal (k : Key) (b : Bytes) : Val :=
  match findObj k with
  | some d => if d.ty.bytes then .byt b else .num (ofLe b)
  | none => .num (ofLe (b.take 8))

/-- Does the state of the device refuse a write of the object, BUSY (R657, R664)? -/
def State.writeBusy (s : State) (k : Key) : Bool :=
  let h := k / 65536
  (s.obj Obj.devDevState == 5 && h != 0x12 && h != 0x20 && h != 0x5C) || (bit (s.obj Obj.devStraps) 0 && h == 0x58)

/-- The check of one write entry (R514): refused with its reason, empty, or the value that would be applied. -/
def State.checkEntry (s : State) (k : Key) (b : Bytes) : ObjOut :=
  (match findObj k with
  | none => badOut k stRejected reNoObject
  | some d =>
    if absentIndex s.otp.variant (k / 256) then badOut k stNotPresent 0
    else if d.acc = Acc.ro then badOut k stRejected reAccess
    else if s.writeBusy k then badOut k stBusy 0
    else if d.ty.bytes then bytCheck k d b
    else if b.length ≠ d.ty.width / 8 then badOut k stRejected reType
    else s.numCheck k d (ofLe b)).fill (writtenVal k b)

/-- Is an object staged (R500)? -/
def isStaged (k : Key) : Bool := (findObj k).any (fun d => d.acc == .rws)

/-- Is a write of the object an action (R513)? -/
def isAction (k : Key) : Bool := (findObj k).any (fun d => d.acc == .wo)

end Sys2Proof.Machine
end

