-- ==== Sys2Proof/Machine/Security.lean ====
section
/-! DEFINITION. Sessions (R540-R547), the owner key, the policy floor and the firmware security version (R538, R539, R555,
R556, R559): the session messages and the actions of the security objects. -/

namespace Sys2Proof.Machine

/-- A label's ASCII bytes, without terminator. -/
def ascii (x : String) : Bytes := x.toList.map (fun c => BitVec.ofNat 8 c.toNat)

/-- A drawn number as a private key: 1 to the order less one (FIPS 186-5). -/
def secretOf (x : Nat) : Nat := 1 + x % (curveN - 1)

/-- The private key of the n-th handshake's ephemeral pair (R542). -/
def ephemeralOf (n : Nat) : Nat := secretOf (Config.ephemeralSecret n)

/-- The transcript hash TH of R543. -/
def State.transcript (s : State) (x : Session) : Bytes :=
  sha384 (ascii "EPC-SESSION-1" ++ x.id ++ x.qh ++ x.nh ++ x.qe ++ x.ne ++ le 8 s.otp.serial)

/-- A session slot is free again (R546, R570). -/
def State.endSession (s : State) (k : Nat) : State :=
  ({ s with sessions := s.sessions.del k }).restAll (fun key => key / 256 == 0x1210 + k)

/-- A session ends by time or by reset: SESSION_END with its reason (R546, R562). -/
def State.timeSession (s : State) (k reason : Nat) (t : Tick) : State := (s.endSession k).jSystem 2 (256 * k + reason) t

/-- The reset of a port ends its sessions (R546). -/
def State.endPortSessions (s : State) (port : Nat) (t : Tick) : State :=
  ((below 8).filter (fun k => s.obj (Obj.sessState k) ≠ 0 && s.obj (Obj.sessPort k) = port)).foldl (fun s k => s.timeSession k 3 t) s

/-- A SESSION_ID from a draw: 8 bytes, never zero (R542). -/
def idOf (draw : Nat) : Bytes := le 8 (if draw % 2 ^ 64 = 0 then 1 else draw)

/-- HELLO (R541, R542, R545). -/
def State.hello (a : Accepted) (s : State) : State :=
  let p := s.port a.iss.port
  let qh := a.pkt.body.take 96
  match (below 8).find? (fun k => s.obj (Obj.sessState k) = 0) with
  | none => s.endNow a stBusy 0
  | some k =>
    if a.iss.port = 2 then s.endNow a stAuthFail 0
    else if p.lockedAt.any (fun t => s.tick < t + 1000000000) then s.endNow a stBusy 0
    else if !pointOk qh then s.endNow a stRejected reRange
    else
      let n := s.draws
      let x : Session := { id := idOf (Config.sessionDraw n), qh := qh, nh := (a.pkt.body.drop 96).take 32,
                           qe := publicKey (ephemeralOf n), ne := slice (Config.nonce n) 0 32, draw := n, helloAt := s.tick }
      let s := (({ s with draws := n + 1 }).setSession k x).setObjs [(Obj.sessState k, 1), (Obj.sessPort k, a.iss.port)]
      (s.setDom (Obj.sessPeer k) (peerOf a.iss)).reply a.iss [] opHello a.pkt.tag stOk 0 0 0 (x.id ++ x.qe ++ x.ne)

/-- ATTEST (R542, R543). -/
def State.attest (a : Accepted) (s : State) : State :=
  match s.sessionOf a.iss a.pkt.body [1, 2] with
  | none => s.endNow a stAuthFail 0
  | some k =>
    let x := s.session k
    ({ s with draws := s.draws + 1 }).reply a.iss [] opAttest a.pkt.tag stOk 0 0 0
      (x.id ++ ecdsaSign s.otp.privKey (secretOf (Config.signSecret s.draws)) (ascii "EPC-DEV-1" ++ s.transcript x))

/-- The session key K of R544: ECDH from the handshake's ephemeral pair and Qh, then HKDF. -/
def sessionKey (x : Session) : Bytes := hkdf384 (x.nh ++ x.ne) (ecdh (ephemeralOf x.draw) x.qh) (ascii "EPC-MAC-1" ++ x.id) 32

/-- PROVE (R542-R545). -/
def State.prove (a : Accepted) (s : State) : State :=
  let p := s.port a.iss.port
  match s.sessionOf a.iss (a.pkt.body.take 8) [1] with
  | none => s.endNow a stAuthFail 0
  | some k =>
    let x := s.session k
    let msg := ascii "EPC-OWN-1" ++ s.transcript x
    if s.obj Obj.secOwnerState = 1 ∧ ecdsaVerify (s.dom Obj.secOwnerKey) msg (a.pkt.body.drop 8) then
      let key := sessionKey x
      let s := (s.setSession k { x with key := key, usedAt := s.tick }).setObjs [(Obj.sessState k, 2), (Obj.sessLastCounter k, 0), (Obj.sessOpenedTick k, s.tick)]
      let s := (s.bump Obj.jnlCntSessionsOpened 1).setPort a.iss.port { p with proveFails := 0 }
      (s.jOutcome a.jseq s.tick stOk 0 0 true []).reply a.iss [] opProve a.pkt.tag stOk 0 a.jseq 0
        (x.id ++ mac16 key (ascii "EPC-KEYCHECK-1" ++ x.id) ++ le 1 k ++ zeros 7)
    else
      let n := p.proveFails + 1
      let s := ((s.endSession k).bump Obj.jnlCntProveFails 1).setPort a.iss.port
        { p with proveFails := n, lockedAt := if n = 8 then some s.tick else p.lockedAt }
      s.endNow a stAuthFail 0

/-- CLOSE (R542, R546, R547): the session ends after its response. -/
def State.closeMessage (a : Accepted) (s : State) : State :=
  let s := (s.jOutcome a.jseq (s.tick + 1) stOk 0 0 true []).reply a.iss a.auth opClose a.pkt.tag stOk 0 a.jseq 0 (a.pkt.body.take 8)
  s.endSession a.slot

/-- HELLO. -/
def execHello (iss : Issuer) (pkt : Bytes) (s : State) : Ans := .next (s.packet opHello iss pkt State.hello)

/-- ATTEST. -/
def execAttest (iss : Issuer) (pkt : Bytes) (s : State) : Ans := .next (s.packet opAttest iss pkt State.attest)

/-- PROVE. -/
def execProve (iss : Issuer) (pkt : Bytes) (s : State) : Ans := .next (s.packet opProve iss pkt State.prove)

/-- CLOSE. -/
def execClose (iss : Issuer) (pkt : Bytes) (s : State) : Ans := .next (s.packet opClose iss pkt State.closeMessage)

/-- SESSION_IDLE_TIMEOUT (R546, R547): SESSION_IDLE_S seconds without an accepted command. -/
def execSessionIdleTimeout (slot : Nat) (s : State) : Ans :=
  let idle := s.obj Obj.secSessionIdleS
  if slot < 8 ∧ s.obj (Obj.sessState slot) = 2 ∧ idle ≠ 0 ∧ (s.session slot).usedAt + 1000000000 * idle ≤ s.tick + 1 then
    .next ((s.timeSession slot 1 (s.tick + 1)).bump Obj.jnlCntSessionsTimedOut 1)
  else .next s

/-- HANDSHAKE_TIMEOUT (R546): 1,000,000,000 ticks without a valid PROVE. -/
def execHandshakeTimeout (slot : Nat) (s : State) : Ans :=
  if slot < 8 ∧ s.obj (Obj.sessState slot) = 1 ∧ (s.session slot).helloAt + 1000000000 ≤ s.tick + 1 then
    .next ((s.timeSession slot 2 (s.tick + 1)).bump Obj.jnlCntSessionsTimedOut 1)
  else .next s

/-- PROVE_LOCKOUT_END (R545). -/
def execProveLockoutEnd (port : Nat) (s : State) : Ans :=
  let p := s.port port
  match p.lockedAt with
  | some t => if t + 1000000000 ≤ s.tick + 1 then .next (s.setPort port { p with lockedAt := none, proveFails := 0 }) else .next s
  | none => .next s

/-! The actions of the security objects. -/

/-- Does a command wait for something (R505)? -/
def State.waitsFor (s : State) (w : Wait) : Bool :=
  s.deferred.any (fun e => e.1 == w) || s.landing.any (fun l => l.waits == some w)

/-- A write of OWNER_KEY (R538, R539). -/
def State.ownerKey (s : State) (b : Bytes) : State × ObjOut × Option Wait :=
  let k := Obj.secOwnerKey
  if s.waitsFor .ownerKey then (s, badOut k stBusy 0, none)
  else if s.obj Obj.secOwnerState = 1 ∨ s.otp.ownerKey ≠ [] then (s, badOut k stRejected reAccess, none)
  else if !pointOk b then (s, rejOut k, none)
  else (({ s with otp := { s.otp with ownerKey := b } }.setDom k b).setObj Obj.secOwnerState 1, okOut k (.byt b), some .ownerKey)

/-- A write of POLICY keeps the bits that POLICY_FLOOR holds (R555). -/
def State.policy (s : State) (v : Nat) : State × ObjOut :=
  let k := Obj.secPolicy
  let x := v ||| s.obj Obj.secPolicyFloor
  (s.setObj k x, clampedOut k (.num x) (if x = v then [] else [clampEntry k rpRaised 8 v x]))

/-- A write of POLICY_FLOOR sets bits in OTP, which stay (R556). -/
def State.policyFloor (s : State) (v : Nat) : State × ObjOut :=
  let k := Obj.secPolicyFloor
  let x := v ||| s.otp.policyFloor
  (({ s with otp := { s.otp with policyFloor := x } }).setObj k x, clampedOut k (.num x) (if x = v then [] else [clampEntry k rpRaised 8 v x]))

/-- A write of FW_SEC_RAISE (R559). -/
def State.fwSecRaise (s : State) (v : Nat) : State × ObjOut :=
  let k := Obj.secFwSecRaise
  let old := s.otp.secMin
  if v ≤ old then (s, clampedOut k (.num old) [clampEntry k rpRaised 16 v old])
  else if 63 ≤ s.otp.secRaises then (s, rejOut k)
  else
    (({ s with otp := { s.otp with secMin := v, secRaises := s.otp.secRaises + 1 } }).setObj Obj.secFwSecMin v, okOut k (.num v))

/-- A write of 1 to a slot's CLOSE (R546). -/
def State.sessionClose (s : State) (k : Nat) : State × ObjOut := (s.endSession k, okOut (Obj.sessClose k) (.num 1))

end Sys2Proof.Machine
end

