-- ==== Sys2Proof/Machine/HostPort.lean ====
section
/-! DEFINITION. The PCIe host port (R573-R599): BAR0, the command mailbox, the readout rings, the BAR2 window, bus mastering and
the port-0 reset. -/

namespace Sys2Proof.Machine

/-- Replace the host port. -/
def State.setHost (s : State) (f : HostPort → HostPort) : State := { s with host := f s.host }

/-- Can the host reach BAR0 and BAR2: the link is up (R598)? -/
def State.linkUp (s : State) : Bool := s.booted && s.obj Obj.hostLinkState == 2

/-! BAR0 and the command mailbox (R576-R579). -/

/-- Words held in an ingress FIFO. -/
def State.hoopHeld (s : State) (f : Nat) : Nat := ((s.hoop.getD f []).map (fun e => hoopWords e.2)).sum

/-- CMD_DOORBELL (R577, R578): slot, LENGTH, and the bytes the host wrote into the slot (the slot's own where none are given). A whole packet
is put into HF0 by the mailbox in the ticks that follow. -/
def execCmdDoorbell (value : Nat) (slotBytes : Bytes) (s : State) : Ans :=
  let k := bits value 3 0
  let n := bits value 16 8
  let h := s.host
  if !s.linkUp then .next s
  else if bit h.cmdBusy k || bit h.rspReady k then .next (s.bump Obj.hostCntDoorbellIgnored 1)
  else
    let b := if slotBytes = [] then h.cmdSlots.getD k [] else slotBytes
    let s := s.setHost (fun h => { h with cmdBusy := h.cmdBusy ||| 2 ^ k, cmdSlots := h.cmdSlots.put k [] b })
    let i : Issuer := { port := 0, slot := k }
    let raw := slice b 0 n
    if n = 0 then .next ((s.clearBusy i).turnAway i 0 0 stEmpty 0)
    else if n < 16 ∨ n % 4 ≠ 0 then
      .next (((s.bump (Obj.portCntCheckFail 0) 1).clearBusy i).turnAway i (fieldAt raw 0 1 % 128) (fieldAt raw 8 4) stRejected reHeader)
    else if 256 < n then
      .next (((s.bump (Obj.portCntOversize 0) 1).clearBusy i).turnAway i (fieldAt raw 0 1 % 128) (fieldAt raw 8 4) stOversize 0)
    else .next (s.setHost (fun h => { h with mail := h.mail ++ [(i, raw)] }))

/-- The mailbox in tick u (R578, R647, R651): one word a tick; a packet begins where the free stages cover it, and is in HF0 from the tick after its
last word. -/
def State.mailTick (s : State) (u : Tick) : State :=
  let s := match s.host.mailAt, s.host.mail with
    | some b, p :: rest =>
      if b + hoopWords p.2 ≤ u then
        ({ s with hoop := s.hoop.put 0 [] (s.hoop.getD 0 [] ++ [p]) } : State).setHost (fun h => { h with mail := rest, mailAt := none })
      else s
    | _, _ => s
  match s.host.mailAt, s.host.mail with
  | none, p :: _ => if s.hoopHeld 0 + hoopWords p.2 ≤ 32 then s.setHost (fun h => { h with mailAt := some u }) else s
  | _, _ => s

/-- The response slots whose bits a word holds. -/
def dropSlots (t : Tab Bytes) (mask : Nat) : Tab Bytes := t.filter (fun e => !bit mask e.1)

/-- Clear bits of a register (a RW1C write). -/
def clearBits (reg mask : Nat) : Nat := reg - (reg &&& mask)

/-- RSP_ACK (R576). -/
def execRspAck (value : Nat) (s : State) : Ans :=
  if !s.linkUp then .next s
  else .next (s.setHost (fun h => { h with rspReady := clearBits h.rspReady value, rspSlots := dropSlots h.rspSlots value }))

/-- NOTE_HEAD (R581). -/
def execNoteHead (value : Nat) (s : State) : Ans :=
  if !s.linkUp then .next s else .next (s.setHost (fun h => { h with noteHead := cut 32 value }))

/-- Vectors that have been unmasked with their PBA bit set send their message (R580). -/
def State.sendPending (s : State) : State :=
  (s.host.pba.filter (fun v => !bit (s.host.msix.getD (4 * v + 3) 1) 0)).foldl (fun s v =>
    (s.setHost (fun h => { h with pba := h.pba.filter (· != v) })).emit (.msix v)) s

/-- BAR0_WRITE (R576): INT_STATUS, RING_PENDING, the MSI-X table and the command slots. A 32-bit register needs one 4-byte access. -/
def execBar0Write (offset value width : Nat) (s : State) : Ans :=
  if !s.linkUp then .next s
  else if offset = 0x30 ∧ width = 4 then .next (s.setHost (fun h => { h with intStatus := clearBits h.intStatus (cut 32 value) }))
  else if offset = 0x38 ∧ (width = 8 ∨ width = 4) then
    .next (s.setHost (fun h => { h with ringPending := clearBits h.ringPending (cut (8 * width) value) }))
  else if offset = 0x3C ∧ width = 4 then
    .next (s.setHost (fun h => { h with ringPending := clearBits h.ringPending (cut 32 value * 2 ^ 32) }))
  else if 0x8000 ≤ offset ∧ offset < 0x9000 ∧ offset % 4 = 0 ∧ width = 4 then
    let w := (offset - 0x8000) / 4
    .next ((s.setHost (fun h => { h with msix := h.msix.set w (cut 32 value) })).sendPending)
  else if 0x1000 ≤ offset ∧ offset + width ≤ 0x2000 ∧ width ≤ 8 ∧ offset % 256 + width ≤ 256 then
    let k := (offset - 0x1000) / 256
    let b := slice (s.host.cmdSlots.getD k []) 0 256
    .next (s.setHost (fun h => { h with cmdSlots := h.cmdSlots.put k [] (b.take (offset % 256) ++ le width value ++ b.drop (offset % 256 + width)) }))
  else .next s

/-! What a read of BAR0 returns (R576, R580, R666). -/

/-- The DEV_STATE register (R666). -/
def State.devStateReg (s : State) : Nat :=
  s.obj Obj.devDevState + 2 ^ 8 * s.obj Obj.devFaultCause + 2 ^ 16 * s.obj Obj.devStraps + 2 ^ 24 * s.obj Obj.devLastReset

/-- The PBA: the bits of the vectors whose message waits. -/
def State.pbaWord (s : State) : Nat := s.host.pba.foldl (fun w v => w ||| 2 ^ v) 0

/-- The registers of BAR0 that a read finds, each at its offset; every other byte reads as zero. -/
def State.bar0Regs (s : State) : List (Nat × Bytes) :=
  [(0, le 4 s.devStateReg), (0x08, le 8 s.tick), (0x18, le 4 s.host.cmdBusy), (0x20, le 4 s.host.rspReady), (0x30, le 4 s.host.intStatus),
    (0x38, le 8 s.host.ringPending), (0x9000, le 32 s.pbaWord)]
    ++ s.host.rspSlots.map (fun e => (0x2000 + 256 * e.1, slice e.2 0 256))
    ++ s.host.msix.map (fun e => (0x8000 + 4 * e.1, le 4 e.2))

/-- The bytes that a read of BAR0 returns. -/
def State.bar0Read (s : State) (offset n : Nat) : Bytes :=
  (upFrom n offset).map (fun a => match s.bar0Regs.find? (fun r => r.1 ≤ a ∧ a < r.1 + r.2.length) with
    | some r => r.2.getD (a - r.1) 0
    | none => 0)

/-! Readout rings (R582-R589). -/

/-- A ring behind its objects. -/
def State.ring (s : State) (k : Nat) : Ring := s.host.rings.getD k {}

/-- Replace a ring. -/
def State.setRing (s : State) (k : Nat) (x : Ring) : State := s.setHost (fun h => { h with rings := h.rings.put k {} x })

/-- The difference of two free-running 32-bit counts. -/
def ahead32 (a b : Nat) : Nat := cut 32 (a % 2 ^ 32 + 2 ^ 32 - b % 2 ^ 32)

/-- A ring enters ERROR (R584). -/
def State.ringError (s : State) (k cause : Nat) : State := (s.setObjs [(Obj.ringState k, 3), (Obj.ringError k, cause)]).raise 1

/-- DESC_TAIL (R583, R584). -/
def execDescTail (ring value : Nat) (s : State) : Ans :=
  if !s.linkUp ∨ 64 ≤ ring then .next s
  else
    let s := s.setRing ring { s.ring ring with tail := cut 32 value }
    let running : Bool := s.obj (Obj.ringState ring) = 1 || s.obj (Obj.ringState ring) = 2
    if running ∧ s.obj (Obj.ringRingSize ring) < ahead32 value (s.obj (Obj.ringDescHead ring)) then .next (s.ringError ring 1)
    else .next s

/-- CPL_HEAD (R583). -/
def execCplHead (ring value : Nat) (s : State) : Ans :=
  if !s.linkUp ∨ 64 ≤ ring then .next s else .next (s.setRing ring { s.ring ring with cplHead := cut 32 value })

/-- Is there room for a completion (R583)? -/
def State.cplRoom (s : State) (k : Nat) : Bool :=
  ahead32 (s.obj (Obj.ringCplTail k)) (s.ring k).cplHead < s.obj (Obj.ringRingSize k)

/-- May a ring work: RUNNING, and the data plane not halted (R584, R595, R669)? -/
def State.ringRuns (s : State) (k : Nat) : Bool := k < 64 && s.running && s.obj (Obj.ringState k) == 1

/-- A completion entry and what follows it (R588, R589): the oldest descriptor leaves the ring. -/
def State.complete (s : State) (k : Nat) (desc : Bytes) (lease bytes outcome status : Nat) : State :=
  let tail := s.obj (Obj.ringCplTail k)
  let size := s.obj (Obj.ringRingSize k)
  let phase := if tail / size % 2 = 0 then 1 else 0
  let entry := le 1 phase ++ le 1 0 ++ le 1 status ++ le 1 outcome ++ le 2 (fieldAt desc 2 2) ++ le 2 tail ++ le 4 bytes ++ le 4 lease
  let s := (s.emit (.hostWrite (s.obj (Obj.ringCplBase k) + 16 * (tail % size)) entry)).setObj (Obj.ringCplTail k) (cut 32 (tail + 1))
  let s := s.setHost (fun h => { h with ringPending := h.ringPending ||| 2 ^ k })
  let x := s.ring k
  let s := s.setRing k { x with fetched := x.fetched.drop 1, sent := 0, failed := false }
  if bit (fieldAt desc 1 1) 0 then s.raise (s.obj (Obj.ringVector k)) else s

/-- The fields of a descriptor (R585). -/
def descOp (d : Bytes) : Nat := fieldAt d 0 1
def descUser (d : Bytes) : Nat := fieldAt d 2 2
def descQueue (d : Bytes) : Nat := fieldAt d 4 2
def descCount (d : Bytes) : Nat := fieldAt d 6 2
def descLease (d : Bytes) : Nat := fieldAt d 8 4
def descSeq (d : Bytes) : Nat := fieldAt d 12 4
def descOffset (d : Bytes) : Nat := fieldAt d 16 4
def descLength (d : Bytes) : Nat := fieldAt d 20 4
def descAddr (d : Bytes) : Nat := fieldAt d 24 8
def descFlag (d : Bytes) (i : Nat) : Bool := bit (fieldAt d 0 2) i

/-- Is a descriptor malformed (R585)? -/
def badDesc (d : Bytes) : Bool :=
  4 < descOp d || fieldAt d 1 1 / 16 != 0 || 268435456 < descLength d || (descOp d == 2 && 65535 < descOffset d)
    || (descOp d == 1 && (4096 < descCount d || 4095 < descQueue d))

/-- Descriptors that need no work complete when they are the oldest: BAD_DESC, and an OP of zero (R585, R589). -/
def State.skipBad (s : State) (k : Nat) : Nat → State
  | 0 => s
  | f + 1 =>
    match (s.ring k).fetched with
    | [] => s
    | e :: _ =>
      if !s.cplRoom k then s
      else if descOp e.desc = 0 then (s.complete k e.desc (descLease e.desc) 0 0 stEmpty).skipBad k f
      else if badDesc e.desc then (s.complete k e.desc (descLease e.desc) 0 6 stRejected).skipBad k f
      else s

/-- DESC_FETCH (R583, R584, R587): the descriptor at DESC_HEAD, or a failed read. -/
def execDescFetch (ring : Nat) (desc : HostRead) (s : State) : Ans :=
  let x := s.ring ring
  let head := s.obj (Obj.ringDescHead ring)
  if !s.ringRuns ring ∨ head = x.tail ∨ 8 < x.fetched.length ∨ !s.cplRoom ring then .next s
  else
    match desc with
    | .failed => .next (s.ringError ring 2)
    | .data b =>
      let s := (s.setObj (Obj.ringDescHead ring) (cut 32 (head + 1))).setRing ring { x with fetched := x.fetched ++ [⟨head, slice b 0 32⟩] }
      .next (s.skipBad ring 10)

/-- The oldest descriptor of a ring, where it has the OP and may run. -/
def State.oldestDesc (s : State) (k op : Nat) : Option Bytes :=
  match (s.ring k).fetched with
  | [] => none
  | e :: _ => if s.ringRuns k && s.cplRoom k && descOp e.desc == op && !badDesc e.desc then some e.desc else none

/-- The lease a descriptor names: 0xFFFFFFFF is that of the ring's latest successful GRANT (R585). -/
def State.descLeaseId (s : State) (k : Nat) (d : Bytes) : Nat :=
  if descLease d = 0xFFFFFFFF then (s.ring k).lease.getD 0xFFFFFFFF else descLease d

/-- DESC_GRANT (R585, R586). -/
def execDescGrant (ring : Nat) (s : State) : Ans :=
  match s.oldestDesc ring 1 with
  | none => .next s
  | some d =>
    if descCount d = 0 then .next ((s.complete ring d 0 0 0 stEmpty).skipBad ring 10)
    else
      let ms := if descLength d = 0 then s.obj Obj.cmmLeaseTimeoutMs else min (descLength d) 60000
      match s.takeLease ring (descQueue d) (descOffset d) (descSeq d) (descCount d) ms (descFlag d 10) with
      | (some (id, s), _) =>
        let s := s.setRing ring { s.ring ring with lease := some id }
        .next ((s.complete ring d id 0 0 (if 60000 < descLength d then stClamped else stOk)).skipBad ring 10)
      | (none, o) => .next ((s.complete ring d 0 0 o stRejected).skipBad ring 10)

/-- The pages of a lease from one on (R586). -/
def State.leaseFrom (s : State) (l : Lease) (seq : Nat) : List Page := (s.leasePages l).filter (fun p => seq ≤ p.seq)

/-- Do n bytes from a page's offset on lie in the pages of a lease (R586)? -/
def State.leaseCovers (s : State) (l : Lease) (seq off n : Nat) : Bool :=
  (s.leaseFrom l seq).head?.map (·.seq) == some seq && off + n ≤ 65536 * (s.leaseFrom l seq).length

/-- The parts of a lease's pages that make up n bytes from a page's offset on: frame, offset, length. -/
def State.leaseParts (s : State) (l : Lease) (seq off n : Nat) : List (Nat × Nat × Nat) :=
  (s.leaseFrom l seq).zipIdx.filterMap (fun e =>
    let lo := max off (65536 * e.2)
    let hi := min (off + n) (65536 * (e.2 + 1))
    if hi ≤ lo then none else some (e.1.pfn, lo - 65536 * e.2, hi - lo))

/-- Those bytes. -/
def State.leaseBytes (s : State) (l : Lease) (seq off n : Nat) : Bytes :=
  (s.leaseParts l seq off n).flatMap (fun p => s.pageRead p.1 p.2.1 p.2.2)

/-- Is one of their bursts uncorrectable (R370)? -/
def State.leaseBad (s : State) (l : Lease) (seq off n : Nat) (first : Bool) : Bool :=
  (s.leaseParts l seq off n).any (fun p => s.readBad p.1 p.2.1 p.2.2 first)

/-- Count the reads of a range of a lease's pages by channel (R408). -/
def State.countLease (s : State) (l : Lease) (seq off n : Nat) (first : Bool) : State :=
  (s.leaseParts l seq off n).foldl (fun s p => s.countRead p.1 p.2.1 p.2.2 first) s

/-- The lease of a ring's oldest READ, where it has data to transfer (R586). -/
def State.readLease (s : State) (k : Nat) : Option Lease :=
  match s.oldestDesc k 2 with
  | none => none
  | some d =>
    let id := s.descLeaseId k d
    if descLength d = 0 ∨ s.cmm.revoked.contains id then none
    else (s.cmm.leaseOf id).filter (fun l => l.holder == k && s.leaseCovers l (descSeq d) (descOffset d) (descLength d))

/-- Is it a ring's turn (R587): the first after the ring served last that has data to transfer? -/
def State.readTurn (s : State) (k : Nat) : Bool :=
  ((upFrom 64 1).map (fun d => (s.host.served + d) % 64)).find? (fun j => (s.readLease j).isSome) == some k

/-- The bytes of a READ that the next unit transfers (R587). -/
def State.readUnit (s : State) (k : Nat) (d : Bytes) : Nat := min 4096 (descLength d - (s.ring k).sent)

/-- The page and the offset of a byte of some parts. -/
def partAt : List (Nat × Nat × Nat) → Nat → Nat × Nat
  | [], _ => (0, 0)
  | (pfn, off, n) :: l, i => if i < n then (pfn, off + i) else partAt l (i - n)

/-- A burst of a range of a lease's pages came uncorrectable: which of them, and so which channel counts it, is free (R370). -/
def State.badBurst (s : State) (l : Lease) (seq off n : Nat) : State :=
  let (r, s) := s.fresh
  let p := partAt (s.leaseParts l seq off n) (r % max 1 n)
  s.bump (Obj.mcCntUncorrectable (s.chunkChannel p.1 p.2)) 1

/-- DESC_READ (R586, R587, R589): in the ring's turn the next unit of up to 4 KiB goes to the host, and after the last unit the completion;
`memErr` says that a burst came uncorrectable, as one that memory holds so does (R370). -/
def execDescRead (ring : Nat) (memErr : Bool) (s : State) : Ans :=
  match s.oldestDesc ring 2 with
  | none => .next s
  | some d =>
    let id := s.descLeaseId ring d
    let done (s : State) (bytes outcome status : Nat) : Ans := .next ((s.complete ring d id bytes outcome status).skipBad ring 10)
    let sent := (s.ring ring).sent
    if descLength d = 0 then done s 0 0 stEmpty
    else if s.cmm.revoked.contains id then done s sent 4 stRevoked
    else
      match s.cmm.leaseOf id with
      | none => done s sent 3 stRejected
      | some l =>
        if l.holder ≠ ring then done s sent 3 stRejected
        else if !s.leaseCovers l (descSeq d) (descOffset d) (descLength d) then done s sent 7 stRejected
        else if !s.readTurn ring then .next s
        else
          let off := descOffset d + sent
          let n := s.readUnit ring d
          let first : Bool := sent == 0
          let bad := memErr || (s.ring ring).failed || s.leaseBad l (descSeq d) off n first
          let b := s.leaseBytes l (descSeq d) off n
          let s := (((s.emit (.hostWrite (descAddr d + sent) b)).countLease l (descSeq d) off n first).bump Obj.hostCntReadoutBytes n).touchLease id s.tick
          let s := if memErr then s.badBurst l (descSeq d) off n else s
          let s := s.setHost (fun h => { h with served := ring })
          if sent + n < descLength d then .next (s.setRing ring { s.ring ring with sent := sent + n, failed := bad })
          else if bad then done s (sent + n) 5 stRejected
          else done (if descFlag d 11 then s.endLease id (descFlag d 9) false else s) (sent + n) 0 stOk

/-- RENEW and RELEASE: BAD_LEASE, REVOKED, or the lease (R586, R402). -/
def State.descLeaseState (s : State) (k id : Nat) : Nat :=
  if s.cmm.revoked.contains id then 4
  else match s.cmm.leaseOf id with
    | none => 3
    | some l => if l.holder = k then 0 else 3

/-- The status of an outcome (R589). -/
def cplStatus (outcome : Nat) : Nat := if outcome = 0 then stOk else if outcome = 4 then stRevoked else stRejected

/-- DESC_RENEW (R586). -/
def execDescRenew (ring : Nat) (s : State) : Ans :=
  match s.oldestDesc ring 3 with
  | none => .next s
  | some d =>
    let id := s.descLeaseId ring d
    let o := s.descLeaseState ring id
    let s := if o = 0 then s.touchLease id s.tick else s
    .next ((s.complete ring d id 0 o (cplStatus o)).skipBad ring 10)

/-- DESC_RELEASE (R586). -/
def execDescRelease (ring : Nat) (s : State) : Ans :=
  match s.oldestDesc ring 4 with
  | none => .next s
  | some d =>
    let id := s.descLeaseId ring d
    let o := s.descLeaseState ring id
    let s := if o = 0 then s.endLease id (descFlag d 9) false else s
    .next ((s.complete ring d id 0 o (cplStatus o)).skipBad ring 10)

/-- The verdict of the host port on one object of a write (R582, R598). -/
def hostVerdict (old new : State) (k : Key) : Option (Nat × Nat) :=
  let ix := k / 256
  if 0x5810 ≤ ix ∧ ix < 0x5850 then
    let n := ix - 0x5810
    if k % 256 ≤ 3 ∧ old.obj (Obj.ringEnable n) = 1 ∧ old.obj k ≠ new.obj k then some (stBusy, 0)
    else if k = Obj.ringEnable n ∧ new.obj k = 1 ∧ old.obj k = 0
        ∧ (new.obj (Obj.ringDescBase n) % 32 ≠ 0 ∨ new.obj (Obj.ringCplBase n) % 16 ≠ 0) then some (stRejected, reRange)
    else none
  else if (k = Obj.hostMapBase ∧ new.obj k % 4096 ≠ 0) ∨ (k = Obj.hostNoteBase ∧ new.obj k % 32 ≠ 0) then some (stRejected, reRange)
  else none

/-- A ring stops (R589): the descriptor in progress ends FLUSHED where it may complete, later ones are dropped. -/
def State.stopRing (s : State) (k : Nat) (flush : Bool) : State :=
  let s := match (s.ring k).fetched with
    | e :: _ => if flush ∧ s.obj (Obj.ringState k) ≠ 3 ∧ s.cplRoom k then s.complete k e.desc (s.descLeaseId k e.desc) (s.ring k).sent 8 stRejected else s
    | [] => s
  (s.setRing k { s.ring k with fetched := [], sent := 0, failed := false }).setObjs [(Obj.ringState k, 0), (Obj.ringError k, 0)]

/-- What a write of host-port objects does at its boundary (R582, R589, R590). -/
def State.hostEffects (s old : State) (keys : List Key) : State :=
  let s := if keys.contains Obj.hostMapBase && s.obj Obj.hostMapBase != old.obj Obj.hostMapBase then s.setHost (fun h => { h with cache := [] }) else s
  ((below 64).filter (fun n => keys.contains (Obj.ringEnable n))).foldl (fun s n =>
    let k := Obj.ringEnable n
    if old.obj k = 0 ∧ s.obj k = 1 then
      (s.setObjs [(Obj.ringDescHead n, 0), (Obj.ringCplTail n, 0), (Obj.ringState n, if s.host.busMaster then 1 else 2)]).setRing n
        { s.ring n with fetched := [], lease := none, sent := 0, failed := false }
    else if old.obj k = 1 ∧ s.obj k = 0 then s.stopRing n true
    else s) s

/-! The BAR2 window (R590-R592). -/

/-- A write of MAP_INVALIDATE (R590). -/
def State.mapInvalidate (s : State) : State × ObjOut :=
  (s.setHost (fun h => { h with cache := [] }), okOut Obj.hostMapInvalidate (.num 1))

/-- A BAR2 fault (R591). -/
def State.bar2Fault (s : State) : State := (s.bump Obj.hostCntBar2Faults 1).raise 1

/-- The cached entry of a window page, or the one read from host memory where R591 lets it be cached. -/
def State.window (s : State) (w : Nat) (entry : Bytes) : Option (Nat × Nat) :=
  let (pfn, id, valid) := match s.host.cache.find w with
    | some (p, i) => (p, i, true)
    | none => (bits (fieldAt entry 0 4) 27 0, fieldAt entry 4 4, bit (fieldAt entry 0 4) 28)
  match s.cmm.leaseOf id with
  | none => none
  | some l => if valid && l.holder = 0x40 && (s.leasePages l).any (fun p => p.pfn = pfn) then some (pfn, id) else none

/-- Is it a waiting read of BAR2? -/
def Parked.isBar2 : Parked → Bool
  | .bar2 _ _ _ => true
  | _ => false

/-- May a read of BAR2 be served in the open tick (R592): in request order, and no more than 4 KiB? -/
def State.bar2Room (s : State) (n : Nat) : Bool := !s.parked.any Parked.isBar2 && (s.host.bar2Count == 0 || s.host.bar2Count + n ≤ 4096)

/-- A read of BAR2 is served (R590, R591). -/
def State.takeBar2 (s : State) (addr count : Nat) (entry : Bytes) : State :=
  let w := addr / 65536
  let off := addr % 65536
  let n := min count (65536 - off)
  if !s.linkUp then s
  else
    let s := s.setHost (fun h => { h with bar2Count := h.bar2Count + n })
    match (if s.obj Obj.hostMapBase = 0 ∨ !s.running then none else s.window w entry) with
    | none => (s.emit (.bar2 addr (List.replicate count 0xFF))).bar2Fault
    | some (pfn, id) =>
      let s := if s.host.cache.length < 4096 then s.setHost (fun h => { h with cache := h.cache.set w (pfn, id) }) else s
      (((s.emit (.bar2 addr (s.pageRead pfn off n))).countRead pfn off n true).bump Obj.hostCntReadoutBytes n).touchLease id s.tick

/-- BAR2_READ (R590-R592): `count` bytes at an offset of BAR2, and the mapping entry in host memory. -/
def execBar2Read (addr count : Nat) (entry : Bytes) (s : State) : Ans :=
  if !s.linkUp then .next s
  else .next (if s.bar2Room (min count (65536 - addr % 65536)) then s.takeBar2 addr count entry else s.postpone (.bar2 addr count entry))

/-- BAR2_WRITE (R591). -/
def execBar2Write (addr : Nat) (s : State) : Ans := let _ := addr; if !s.linkUp then .next s else .next (s.bump Obj.hostCntBar2Faults 1)

/-! Link loss, host reset and bus mastering (R593-R595). -/

/-- A response that no longer reaches its issuer (R594, R610). -/
def muted (i : Issuer) : Issuer := { i with slot := 999 }

/-- What waits for a boundary, with its issuer changed. -/
def Due.sentBy (m : Issuer → Issuer) : Due → Due
  | .write a es => .write { a with iss := m a.iss } es
  | .strict a b l => .strict { a with iss := m a.iss } b l
  | .held h o => .held { h with iss := m h.iss } o
  | .alone h => .alone { h with iss := m h.iss }
  | .discard a v => .discard { a with iss := m a.iss } v
  | .commit p j => .commit p j
  | .point => .point
  | .pulse n => .pulse n

/-- The responses of a port's commands, or of one core's, are no longer delivered. -/
def State.mute (s : State) (p : Issuer → Bool) : State :=
  let m (i : Issuer) : Issuer := if p i then muted i else i
  { s with
    landing := s.landing.map (fun l => { l with iss := m l.iss }),
    deferred := s.deferred.map (fun e => (e.1, { e.2 with iss := m e.2.iss })),
    due := s.due.map (Due.sentBy m),
    ports := s.ports.map (fun e => (e.1, { e.2 with pend := e.2.pend.map (fun x => { x with iss := m x.iss }) })) }

/-- Abort the open transfers of issuers (R525). -/
def State.dropTransfers (s : State) (p : Issuer → Bool) : State := { s with transfers := s.transfers.filter (fun x => !p x.iss) }

/-- Flush an ingress FIFO with the packet that is being written (R652). -/
def State.flushHoop (s : State) (f : Nat) : State :=
  let s := if f = 0 ∧ s.host.mailAt.isSome then s.setHost (fun h => { h with mail := h.mail.drop 1, mailAt := none }) else s
  ({ s with hoop := s.hoop.put f [] [], hoopFlips := s.hoopFlips.filter (·.1 ≠ f) }).bump (Obj.hoopCntFlushes f) 1

/-- PORT0_RESET (R593, R594). -/
def execPort0Reset (s : State) : Ans :=
  if !s.booted ∨ bit (s.obj Obj.devStraps) 0 then .next s
  else
    let t := s.tick + 1
    let s := { s with parked := s.parked.filter (fun p => !p.isBar2) }
    let s := (below 65).foldl (fun s h => s.resetHolder h t) s
    let s := (below 64).foldl (fun s k => (s.setObj (Obj.ringEnable k) 0).stopRing k false) s
    let s := (s.setObjs [(Obj.hostMapBase, 0), (Obj.hostNoteBase, 0)]).setHost (fun h =>
      { h with cache := [], cmdBusy := 0, rspReady := 0, cmdSlots := [], rspSlots := [], busMaster := false, msix := [], pba := [],
               mail := h.mail.take (ofBool h.mailAt.isSome) })
    let s := ((s.flushHoop 0).endPortSessions 0 t).dropTransfers (fun i => i.port == 0)
    let s := ({ s with readBufs := s.readBufs.del 0 }).setPort 0 { s.port 0 with cache := [] }
    .next (((s.mute (fun i => i.port == 0)).bump Obj.hostCntPortResets 1).setObjs
      [(Obj.hostLinkState, 1), (Obj.hostLinkSpeed, 0), (Obj.hostLinkWidth, 0)])

/-- BME_CLEAR (R595). -/
def execBmeClear (s : State) : Ans :=
  if !s.linkUp then .next s
  else
    .next ((below 64).foldl (fun s k => if s.obj (Obj.ringState k) = 1 then s.setObj (Obj.ringState k) 2 else s)
      (s.setHost (fun h => { h with busMaster := false })))

/-- BME_SET (R595). -/
def execBmeSet (s : State) : Ans :=
  if !s.linkUp then .next s
  else
    .next ((below 64).foldl (fun s k => if s.obj (Obj.ringState k) = 2 then s.setObj (Obj.ringState k) 1 else s)
      (s.setHost (fun h => { h with busMaster := true })))

/-- PCIE_LINK_UP (R573, R594, R598): training ends at a speed in GT/s and a width. -/
def execPcieLinkUp (speed width : Nat) (s : State) : Ans :=
  if !s.booted ∨ bit (s.obj Obj.devStraps) 0 ∨ s.obj Obj.hostLinkState = 2 ∨ !([16, 32, 64].contains speed) ∨ !([1, 4, 8, 16].contains width) then
    .next s
  else .next (s.setObjs [(Obj.hostLinkState, 2), (Obj.hostLinkSpeed, speed), (Obj.hostLinkWidth, width)])

end Sys2Proof.Machine
end

