-- ==== Sys2Proof/Machine/Cores.lean ====
section
/-! DEFINITION. Service cores, firmware and flash (R600-R610, R620-R622): the port-2 write lock, core resets, the check of firmware
images and configuration blocks, and the writes of flash. -/

namespace Sys2Proof.Machine

/-- Replace the write lock. -/
def State.setLock (s : State) (x : Lock) : State := { s with lock := x }

/-- Is a core's packet the whole of what its first word's LENGTH says (R651)? -/
def wholePacket (b : Bytes) : Bool := 8 ≤ b.length && fieldAt b 4 2 ≤ b.length

/-- LOCK_REQUEST (R606): a running core asks for the lock with the packet it will write. -/
def execLockRequest (core : Nat) (pkt : Bytes) (s : State) : Ans :=
  if coresOf s.otp.variant ≤ core ∨ s.obj (Obj.coreState core) ≠ 2 ∨ s.lock.waiting.any (fun e => e.1 = core) ∨ s.lock.holder = some core then
    .next s
  else .next (s.setLock { s.lock with waiting := s.lock.waiting ++ [(core, pkt)] })

/-- The requester that the lock goes to: the first after the last holder whose packet fits the free stages (R606, R651). -/
def State.lockNext (s : State) : Option (Nat × Bytes) :=
  let free := 32 - s.hoopHeld 2
  ((upFrom 4 1).filterMap (fun d => s.lock.waiting.find? (fun e =>
    e.1 = (s.lock.last + d) % 4 && min 32 (ceilDiv (fieldAt e.2 4 2) 8) ≤ free))).head?

/-- The lock in one tick (R606, R650): a packet written to its end enters HF2 and the lock is released; a free lock is granted. -/
def State.lockTick (s : State) (u : Tick) : State :=
  let l := s.lock
  let s := match l.holder with
    | none => s
    | some c =>
      let i : Issuer := { port := 2, core := c }
      if u < l.start + hoopWords l.data ∨ !wholePacket l.data then s
      else
        let s := s.setLock { l with holder := none, data := [], freed := u }
        if 32 < hoopWords l.data then
          ((((s.bump (Obj.hoopCntRewinds 2) 1).setObj (Obj.hoopHoopStatus 2) (s.obj (Obj.hoopHoopStatus 2) ||| 2)).bump
            (Obj.portCntOversize 2) 1)).turnAway i (fieldAt l.data 0 1 % 128) (fieldAt l.data 8 4) stOversize 0
        else { s with hoop := s.hoop.put 2 [] (s.hoop.getD 2 [] ++ [(i, l.data)]) }
  if s.lock.holder.isSome ∨ u ≤ s.lock.freed then s
  else
    match s.lockNext with
    | none => s
    | some (c, b) =>
      s.setLock { s.lock with holder := some c, data := b, start := u, last := c, waiting := s.lock.waiting.filter (fun e => e.1 ≠ c) }

/-- The lock is taken from its holder and its open packet rewound (R607, R610). -/
def State.breakLock (s : State) (t : Tick) : State :=
  let s := if s.lock.data = [] ∨ t ≤ s.lock.start then s else s.bump (Obj.hoopCntRewinds 2) 1
  s.setLock { s.lock with holder := none, data := [], freed := t }

/-- LOCK_TIMEOUT (R607): 1,024 ticks without a word. -/
def execLockTimeout (s : State) : Ans :=
  match s.lock.holder with
  | none => .next s
  | some c =>
    if wholePacket s.lock.data ∨ s.tick + 1 < s.lock.start + hoopWords s.lock.data + 1024 then .next s
    else .next ((s.breakLock (s.tick + 1)).bump (Obj.coreLockTimeouts c) 1)

/-! Core reset (R609, R610). -/

/-- The core that runs a service (R604): 1 WATCH, 2 FLOWHEALTH, 3 SIGNATURE, 4 STREAM. -/
def serviceCore (variant service : Nat) : Nat :=
  match service with
  | 1 => 0
  | 2 => 1
  | 3 => if variant = 2 then 0 else 2
  | _ => if variant = 2 then 1 else 3

/-- Does the core of a service run? -/
def State.serviceUp (s : State) (service : Nat) : Bool := s.obj (Obj.coreState (serviceCore s.otp.variant service)) == 2

/-- What a service held in its scratchpad is gone (R610). -/
def State.forget (s : State) (c : Nat) : State :=
  let s := if serviceCore s.otp.variant 2 = c then { s with health := [] } else s
  let s := if serviceCore s.otp.variant 3 = c then { s with sigs := s.sigs.map (fun e => (e.1, { e.2 with place := none })) } else s
  if serviceCore s.otp.variant 4 = c then { s with streams := [] } else s

/-- What the reset of a core does at its boundary (R610); SC0 forgets the configuration block that it was applying. -/
def State.resetCore (s : State) (c kind state : Nat) (t : Tick) : State :=
  let s := if s.lock.holder = some c then s.breakLock t else s
  let s := s.setLock { s.lock with waiting := s.lock.waiting.filter (fun e => e.1 ≠ c) }
  let s := if c = 0 then { s with flash := { s.flash with applying := none } } else s
  let mine (i : Issuer) : Bool := i.port == 2 && i.core == c
  let p := s.port 2
  let s := (s.mute mine).setPort 2 { (s.mute mine).port 2 with staging := p.staging.filter (fun e => e.core ≠ c) }
  let s := ((s.dropTransfers mine).resetHolder (0x48 + c) t).forget c
  (s.bump (Obj.coreResets c) 1).setObjs [(Obj.coreState c, state), (Obj.coreLastReset c, kind)]

/-- The state of a core after a reset of its own: BOOTING where firmware runs. -/
def State.bootState (s : State) : Nat := if s.obj Obj.fwFwState = 1 ∨ s.obj Obj.fwFwState = 2 then 1 else 0

/-- A core that exists and is neither OFF nor in FAULT. -/
def State.coreLives (s : State) (c : Nat) : Bool :=
  c < coresOf s.otp.variant && (s.obj (Obj.coreState c) == 1 || s.obj (Obj.coreState c) == 2)

/-- A reset by watchdog or fault: the third in 60 s leaves the core in FAULT (R609). -/
def State.faultCore (s : State) (c kind : Nat) (t : Tick) : State :=
  let x := s.cores.getD c {}
  let l := (x.faults.filter (fun f => t < f + 60000000000)) ++ [t]
  let stays : Bool := 3 ≤ l.length
  ({ s with cores := s.cores.put c {} { faults := l, latched := stays } }).resetCore c kind (if stays then 3 else s.bootState) t

/-- WATCHDOG_EXPIRY (R609). -/
def execWatchdogExpiry (core : Nat) (s : State) : Ans := if s.coreLives core then .next (s.faultCore core 2 (s.tick + 1)) else .next s

/-- CORE_FAULT (R609). -/
def execCoreFault (core : Nat) (s : State) : Ans := if s.coreLives core then .next (s.faultCore core 3 (s.tick + 1)) else .next s

/-- A write of 1 to a core's RESET (R609). -/
def State.coreResetWrite (s : State) (c : Nat) (t : Tick) : State × ObjOut :=
  (({ s with cores := s.cores.put c {} {} }).resetCore c 1 s.bootState t, okOut (Obj.coreReset c) (.num 1))

/-- Where the firmware slots A and B and the two copies of the configuration block lie in flash (R601), numbered 0 to 3. -/
def flashBase (slot : Nat) : Nat :=
  match slot with
  | 0 => 0
  | 1 => 0xA00000
  | 2 => 0x1400000
  | _ => 0x1410000

/-- The commands that read a slot (R712): one four-byte quad double-data-rate read. -/
def flashRead (slot : Nat) : Output := .flash 0xEE (flashBase slot) []

/-- The commands that write a slot (R712): each 4 KiB sector it covers is erased, then each page of 256 bytes programmed; every erase
and program follows a write enable and ends with a read of the status. -/
def flashWrite (slot : Nat) (b : Bytes) : List Output :=
  let at_ := flashBase slot
  let op (code addr : Nat) (data : Bytes) : List Output := [.flash 0x06 0 [], .flash code addr data, .flash 0x05 0 []]
  (below (ceilDiv b.length 4096)).flatMap (fun k => op 0x21 (at_ + 4096 * k) [])
    ++ (below (ceilDiv b.length 256)).flatMap (fun k => op 0x12 (at_ + 256 * k) ((b.drop (256 * k)).take 256))

/-- A start of all cores (R602, R609, R652). Without flash the cores stay OFF (R657); a core that R609 holds in FAULT stays there until
its own RESET is written. -/
def State.startCores (s : State) (t : Tick) : State :=
  if !bit (s.obj Obj.devStraps) 1 then s
  else
    let s := (below (coresOf s.otp.variant)).foldl (fun s c => s.resetCore c 4 (if (s.cores.getD c {}).latched then 3 else 1) t) (s.flushHoop 2)
    { ((s.setObj Obj.fwFwState 1).emits ((below 4).map flashRead)) with
      flash := { s.flash with checking := true, applying := none }, cores := s.cores.filter (fun e => e.2.latched) }

/-- A write of 1 to FW_RESTART (R603). -/
def State.fwRestart (s : State) (t : Tick) : State × ObjOut := (s.startCores t, okOut Obj.fwFwRestart (.num 1))

/-! Firmware images and configuration blocks (R557, R558, R602, R603, R620-R622). -/

/-- The check of a firmware image: the step that fails, 0 where none does (R557, R558). -/
def State.fwCheck (s : State) (img : Bytes) : Nat :=
  let body := fieldAt img 24 4
  let cert := fieldAt img 28 4
  let signed := 32 + body + cert
  let c := (img.drop (32 + body)).take cert
  if fieldAt img 0 4 ≠ 0x57464353 ∨ fieldAt img 4 2 ≠ 1 ∨ fieldAt img 6 12 ≠ 0 ∨ cert = 0 ∨ 4096 < cert ∨ cert % 4 ≠ 0
      ∨ body < 4 ∨ 8388608 < body ∨ body % 4 ≠ 0 ∨ img.length < signed + 96 then 1
  else if !certOk (s.dom Obj.certRootKey) c then 2
  else if !ecdsaVerify (certKey c) (img.take signed) ((img.drop signed).take 96) then 3
  else if fieldAt img 18 2 < s.obj Obj.secFwSecMin then 4
  else 0

/-- The rank of an image: SEC_VERSION, then VERSION (R602). -/
def fwRank (img : Bytes) : Nat := fieldAt img 18 2 * 2 ^ 32 + fieldAt img 20 4

/-- Is a copy of the configuration block valid (R620, R621)? -/
def State.blockOk (s : State) (b : Bytes) : Bool :=
  let n := fieldAt b 20 4
  let body := (b.drop 32).take n
  let signed := bit (fieldAt b 5 1) 0
  fieldAt b 0 4 == 0x47464348 && fieldAt b 4 1 == 1 && fieldAt b 5 1 < 2 && fieldAt b 6 12 == 0 && n % 4 == 0
    && 32 + n + (if signed then 96 else 0) ≤ 65536 && body.length == n && crc32 body == fieldAt b 28 4
    && (writeEntries (fieldAt b 18 2) body).isSome
    && (s.obj Obj.secOwnerState == 0 || (signed && ecdsaVerify (s.dom Obj.secOwnerKey) (b.take (32 + n)) ((b.drop (32 + n)).take 96)))

/-- GENERATION of a valid copy. -/
def State.blockGen (s : State) (b : Bytes) : Option Nat := if s.blockOk b then some (fieldAt b 24 4) else none

/-- What the check of the two firmware slots and the two configuration copies leads to (R602, R622); a core that R609 holds in FAULT
stays there. -/
def State.firmwareChosen (s : State) (slotA slotB config0 config1 : Bytes) : State :=
  let a := s.fwCheck slotA = 0
  let b := s.fwCheck slotB = 0
  let pick : Option (Nat × Bytes) :=
    if a ∧ (!b ∨ fwRank slotB ≤ fwRank slotA) then some (0, slotA) else if b then some (1, slotB) else none
  let g0 := s.blockGen config0
  let g1 := s.blockGen config1
  let s := { s with flash := { s.flash with checking := false, gen0 := g0, gen1 := g1 } }
  let cores (s : State) (st : Nat) : State := (below (coresOf s.otp.variant)).foldl (fun s c =>
    if (s.cores.getD c {}).latched then s else s.setObj (Obj.coreState c) st) s
  match pick with
  | none => cores (s.setObjs [(Obj.fwFwState, 3), (Obj.fwFwSlot, 255), (Obj.fwFwVersion, 0)]) 0
  | some (n, img) =>
    let s := cores (s.setObjs [(Obj.fwFwState, 2), (Obj.fwFwSlot, n), (Obj.fwFwVersion, fieldAt img 20 4)]) 2
    if !bit (s.obj Obj.devStraps) 0 then s
    else
      let copy : Option Bytes := match g0, g1 with
        | some x, some y => if x < y then some config1 else some config0
        | some _, none => some config0
        | none, some _ => some config1
        | none, none => none
      match copy with
      | none => s.setObj Obj.fwConfigState 3
      | some blk => { s with flash := { s.flash with applying := some {
          left := (writeEntries (fieldAt blk 18 2) ((blk.drop 32).take (fieldAt blk 20 4))).getD [] } } }

/-- A write of FLASH_IMAGE (R603). -/
def State.flashImage (s : State) (b : Bytes) : State × ObjOut × Option Wait :=
  let k := Obj.fwFlashImage
  let step := s.fwCheck b
  if !bit (s.obj Obj.devStraps) 1 then (s, rejOut k, none)
  else if s.flash.writing.isSome then (s, badOut k stBusy 0, none)
  else if step ≠ 0 ∨ b.length ≠ 32 + fieldAt b 24 4 + fieldAt b 28 4 + 96 then
    (s.setObj Obj.fwFwReject (if step = 0 then 1 else step), rejOut k, none)
  else
    let slot := if s.obj Obj.fwFwSlot = 0 then 1 else 0
    ({ (s.emits (flashWrite slot b)) with flash := { s.flash with writing := some (slot, 0) } }, okOut k (.byt b), some .flash)

/-- A write of FLASH_CONFIG (R621): the copy with the lower GENERATION is written. -/
def State.flashConfig (s : State) (b : Bytes) : State × ObjOut × Option Wait :=
  let k := Obj.fwFlashConfig
  if !bit (s.obj Obj.devStraps) 1 then (s, rejOut k, none)
  else if s.flash.writing.isSome then (s, badOut k stBusy 0, none)
  else if !s.blockOk b then (s, rejOut k, none)
  else
    let copy := match s.flash.gen0, s.flash.gen1 with
      | some x, some y => if y < x then 3 else 2
      | some _, none => 3
      | _, _ => 2
    ({ (s.emits (flashWrite copy b)) with flash := { s.flash with writing := some (copy, fieldAt b 24 4) } }, okOut k (.byt b), some .flash)

/-- A command that waited for an event ends (R505): the oldest that waits for it. -/
def State.resolve (s : State) (w : Wait) : State :=
  match s.deferred.find? (fun e => e.1 == w) with
  | none => s
  | some e => ({ s with deferred := s.deferred.erase e }).finish e.2 s.tick

/-- Does a command wait for an event past its boundary? -/
def State.isDeferred (s : State) (w : Wait) : Bool := s.deferred.any (fun e => e.1 == w)

/-- FLASH_PROGRAMMED (R603, R621). -/
def execFlashProgrammed (s : State) : Ans :=
  match s.flash.writing with
  | none => .next s
  | some (n, gen) =>
    if !s.isDeferred .flash then .next s
    else
      let f := { s.flash with writing := none }
      let f := if n = 2 then { f with gen0 := some gen } else if n = 3 then { f with gen1 := some gen } else f
      .next (({ s with flash := f }).resolve .flash)

/-- OWNER_KEY_PROGRAMMED (R539). -/
def execOwnerKeyProgrammed (s : State) : Ans := .next (s.resolve .ownerKey)

/-- FLUSH_LEARNT_DONE (R253): one full pass of the lane's scanner since a FLUSH_LEARNT was taken. -/
def execFlushLearntDone (lane : Nat) (s : State) : Ans :=
  let x := s.flowLanes.getD lane {}
  if x.flushes.contains 0 ∧ s.isDeferred (.flush lane) then
    .next (({ s with flowLanes := s.flowLanes.put lane {} { x with flushes := x.flushes.erase 0 } }).resolve (.flush lane))
  else .next s

end Sys2Proof.Machine
end

