-- ==== Sys2Proof/Machine/Flow.lean ====
section
/-! DEFINITION. The flow engine (chapter "Flow engine", R222-R257, with R198, R199, R205, R478, R479): parsing, lookup and
learning, sequence, jitter and frame tracking, delivery to queues, the scanner and the table window. -/

namespace Sys2Proof.Machine

/-! ## Parsing (R225-R231) -/

/-- Reasons of R230. -/
abbrev unNonUdp : Nat := 1
abbrev unFragment : Nat := 2
abbrev unBadHdr : Nat := 3
abbrev unBadFrame : Nat := 4
abbrev unNoMatch : Nat := 5
abbrev unBucketFull : Nat := 6
abbrev unRate : Nat := 7

/-- What the layers above RTP say of a frame: unclassified, a PTP event message, or a UDP packet with its key and payload. -/
inductive Parsed where
  | bad (reason : Nat)
  | ptp
  | udp (key payload : Bytes)
deriving DecidableEq, Repr

/-- Is a message a PTP event message (R228)? -/
def ptpEvent (b : Bytes) : Bool := 2 ≤ b.length && fieldAt b 0 1 % 16 ≤ 3 && fieldAt b 1 1 % 16 = 2

/-- The 40 key bytes of R231. -/
def flowKey (vlan sp dp : Nat) (src dst : Bytes) : Bytes := dst ++ src ++ le 2 dp ++ le 2 sp ++ le 2 vlan ++ zeros 2

/-- An IPv4 address as IPv4-mapped IPv6 (R231). -/
def mapped4 (a : Bytes) : Bytes := zeros 10 ++ [0xFF, 0xFF] ++ a

/-- The one's-complement sum of 16-bit words, folded. -/
def sum16 : Nat → Bytes → Nat
  | 0, _ => 0
  | f + 1, b => if b.isEmpty then 0 else netAt b 0 2 + sum16 f (b.drop 2)

/-- Is the checksum of an IPv4 header right? -/
def ipv4Sum (h : Bytes) : Bool :=
  let x := sum16 60 h
  let x := x % 65536 + x / 65536
  (x % 65536 + x / 65536) = 65535

/-- The UDP layer over an IP payload (R225, R228). -/
def parseUdp (ptpOn : Bool) (vlan : Nat) (src dst ip : Bytes) : Parsed :=
  let len := netAt ip 4 2
  if ip.length < 8 ∨ len < 8 ∨ ip.length < len then .bad unBadHdr
  else
    let payload := (ip.take len).drop 8
    if ptpOn && netAt ip 2 2 = 319 && ptpEvent payload then .ptp
    else .udp (flowKey vlan (netAt ip 0 2) (netAt ip 2 2) src dst) payload

/-- The extension headers of IPv6 (R225): at most two; `first` allows Hop-by-Hop. -/
def parseExt (ptpOn : Bool) (vlan : Nat) (src dst : Bytes) : Nat → Bool → Nat → Bytes → Parsed
  | fuel, first, next, b =>
    if next = 17 then parseUdp ptpOn vlan src dst b
    else if next = 44 then .bad unFragment
    else if next = 43 ∨ next = 60 ∨ (next = 0 ∧ first) then
      match fuel with
      | 0 => .bad unNonUdp
      | f + 1 =>
        let len := 8 * (fieldAt b 1 1 + 1)
        if b.length < 8 ∨ b.length < len then .bad unBadHdr
        else parseExt ptpOn vlan src dst f false (fieldAt b 0 1) (b.drop len)
    else .bad unNonUdp

/-- The layers from the EtherType on (R225); `b` follows the EtherType and ends before the frame check sequence. -/
def parseType (ptpOn : Bool) (vlan ty : Nat) (b : Bytes) : Parsed :=
  if ty = 0x88F7 then (if ptpOn && ptpEvent b then .ptp else .bad unNonUdp)
  else if ty = 0x0800 then
    let ihl := fieldAt b 0 1 % 16
    let total := netAt b 2 2
    if b.length < 20 ∨ fieldAt b 0 1 / 16 ≠ 4 ∨ ihl < 5 ∨ total < 4 * ihl ∨ b.length < total ∨ !ipv4Sum (b.take (4 * ihl)) then
      .bad unBadHdr
    else if netAt b 6 2 % 16384 ≠ 0 then .bad unFragment
    else if fieldAt b 9 1 ≠ 17 then .bad unNonUdp
    else parseUdp ptpOn vlan (mapped4 (slice b 12 4)) (mapped4 (slice b 16 4)) ((b.take total).drop (4 * ihl))
  else if ty = 0x86DD then
    let len := netAt b 4 2
    if b.length < 40 ∨ fieldAt b 0 1 / 16 ≠ 6 ∨ b.length < 40 + len then .bad unBadHdr
    else parseExt ptpOn vlan (slice b 8 16) (slice b 24 16) 2 true (fieldAt b 6 1) ((b.take (40 + len)).drop 40)
  else .bad unNonUdp

/-- Parse a frame (R225): Ethernet II with up to two tags. -/
def parseFrame (ptpOn : Bool) (d : Bytes) : Parsed :=
  let b := d.take (d.length - 4)
  let ty := netAt b 12 2
  if ty = 0x8100 ∨ ty = 0x88A8 then
    let inner := netAt b 16 2
    if inner = 0x8100 then parseType ptpOn (4096 + netAt b 18 2 % 4096) (netAt b 20 2) (b.drop 22)
    else parseType ptpOn (4096 + netAt b 14 2 % 4096) inner (b.drop 18)
  else parseType ptpOn 0 ty (b.drop 14)

/-- The bucket and the fingerprint of a key (R232). -/
def flowHash (seed : Nat) (key : Bytes) : Nat × Nat :=
  let h := crc32cRun seed key
  (bits h 11 0 ^^^ bits h 27 16, 65536 * crc32 key + bits h 31 16)

/-- The essence that a first packet shows (R227); with RTP_PORT_LO = 0 no port is tested (R256). -/
def State.learntEssence (s : State) (n : Nat) (key payload : Bytes) : Nat :=
  let v2 : Bool := fieldAt payload 0 1 / 64 = 2
  let pt := fieldAt payload 1 1 % 128
  let names (x : Nat) : Bool := x ≠ 0 && x = pt
  let dp := fieldAt key 32 2
  if 12 ≤ payload.length ∧ v2 ∧ names (s.obj (Obj.flPt20 n)) then 2
  else if 12 ≤ payload.length ∧ v2 ∧ names (s.obj (Obj.flPt30 n)) then 3
  else if 12 ≤ payload.length ∧ v2 ∧ names (s.obj (Obj.flPt40 n)) then 4
  else if 1 ≤ payload.length ∧ v2 ∧ (s.obj (Obj.flRtpPortLo n) = 0 ∨ (s.obj (Obj.flRtpPortLo n) ≤ dp ∧ dp ≤ s.obj (Obj.flRtpPortHi n))) then 1
  else 0

/-- The RTP packet of a flow: marker, sequence number, timestamp, RFC 4175 extended sequence and sample rows (row with
its field bit, offset, data). -/
structure Rtp where
  marker : Bool
  seq : Nat
  ts : Nat
  ext : Nat := 0
  rows : List (Nat × Nat × Bytes) := []
deriving DecidableEq, Repr

/-- Sample row data headers up to the first with continuation 0 (R225): lengths, rows, offsets, and what follows. -/
def srdHeads : Nat → Bytes → Option (List (Nat × Nat × Nat) × Bytes)
  | 0, _ => none
  | f + 1, b =>
    if b.length < 6 then none
    else
      let h := (netAt b 0 2, netAt b 2 2, netAt b 4 2 % 32768)
      if netAt b 4 2 / 32768 = 1 then (srdHeads f (b.drop 6)).map (fun r => (h :: r.1, r.2)) else some ([h], b.drop 6)

/-- The data of each row. -/
def srdRows : List (Nat × Nat × Nat) → Bytes → List (Nat × Nat × Bytes)
  | [], _ => []
  | h :: t, b => (h.2.1, h.2.2, b.take h.1) :: srdRows t (b.drop h.1)

/-- The RTP and RFC 4175 rows of R225; none is BAD_HDR. -/
def parseRtp (essence : Nat) (p : Bytes) : Option Rtp :=
  let cc := fieldAt p 0 1 % 16
  let fixed := 12 + 4 * cc
  let ext := if bit (fieldAt p 0 1) 4 then 4 + 4 * netAt p (fixed + 2) 2 else 0
  let pad := if bit (fieldAt p 0 1) 5 then (p.getLastD 0).toNat else 0
  if p.length < 12 ∨ fieldAt p 0 1 / 64 ≠ 2 ∨ (bit (fieldAt p 0 1) 4 ∧ p.length < fixed + 4) ∨ p.length < fixed + ext + pad then none
  else
    let r : Rtp := { marker := bit (fieldAt p 1 1) 7, seq := netAt p 2 2, ts := netAt p 4 4 }
    if essence = 2 then
      let b := (p.take (p.length - pad)).drop (fixed + ext)
      if b.length < 2 then none
      else
        match srdHeads b.length (b.drop 2) with
        | none => none
        | some (hs, rest) =>
          if rest.length < (hs.map (·.1)).sum then none else some { r with ext := netAt b 0 2, rows := srdRows hs rest }
    else some r

/-! ## Contexts -/

/-- A context by its FID. -/
def State.flow (s : State) (fid : Nat) : FlowCtx := s.flows.getD fid {}

/-- Give a context its value. -/
def State.setFlow (s : State) (fid : Nat) (c : FlowCtx) : State := { s with flows := s.flows.put fid {} c }

/-- A lane of the flow engine. -/
def State.flLane (s : State) (n : Nat) : FlowLane := s.flowLanes.getD n {}

/-- Give a lane its state. -/
def State.setFlLane (s : State) (n : Nat) (x : FlowLane) : State := { s with flowLanes := s.flowLanes.put n {} x }

/-- The 32 bytes of a context (R239). -/
def FlowCtx.bytes (c : FlowCtx) : Bytes :=
  le 2 c.packets ++ le 1 (ofBool c.jitInit + 2 * c.late) ++ le 1 c.reordered ++ le 2 c.lost ++ le 3 c.jitter ++ le 5 c.lastArr
    ++ le 4 c.lastTs ++ le 2 c.cycles ++ le 2 c.maxSeq
    ++ le 4 (c.stopSel + 2 ^ 2 * ofBool c.queueEn + 2 ^ 3 * ofBool c.silent + 2 ^ 4 * ofBool c.inFrame + 2 ^ 5 * ofBool c.seqInit
      + 2 ^ 6 * ofBool c.sigEn + 2 ^ 7 * ofBool c.installed + 2 ^ 8 * ofBool c.valid + 2 ^ 9 * c.essence + 2 ^ 12 * c.tag
      + 2 ^ 20 * c.queue)
    ++ le 6 c.fp

/-- The two contexts of a bucket (R234). -/
def bucketFids (n b : Nat) : List Nat := [8192 * n + 2 * b, 8192 * n + 2 * b + 1]

/-- The valid context of a bucket with a fingerprint (R235). -/
def State.findFlow (s : State) (n b fp : Nat) : Option Nat :=
  (bucketFids n b).find? (fun f => (s.flow f).valid && (s.flow f).fp = fp)

/-- How long ago a context's last arrival was, modulo 2^40. -/
def FlowCtx.age (c : FlowCtx) (t : Tick) : Nat := (t % 2 ^ 40 + 2 ^ 40 - c.lastArr) % 2 ^ 40

/-- Of contexts that may give way, the one whose LAST_ARR is the older; way 0 on a tie (R235, R253). -/
def State.oldest (s : State) (t : Tick) (l : List Nat) : Option Nat :=
  l.foldl (fun best f => match best with
    | none => some f
    | some g => if (s.flow g).age t < (s.flow f).age t then some f else best) none

/-- The context that create() of R236 writes. -/
def freshFlow (fp essence queue tag : Nat) : FlowCtx :=
  { fp := fp, valid := true, inFrame := true, essence := essence, queue := queue % 4096, queueEn := queue ≠ 0xFFFF, tag := tag }

/-- The context a learnt flow gets: the lowest free way, or that of a silent learnt one (R235, R236). -/
def State.learnSlot (s : State) (n b : Nat) (t : Tick) : Option (Nat × Bool) :=
  match (bucketFids n b).find? (fun f => !(s.flow f).valid) with
  | some f => some (f, false)
  | none =>
    if s.flag (Obj.flEvictSilent n) then
      (s.oldest t ((bucketFids n b).filter (fun f => !(s.flow f).installed && (s.flow f).silent))).map (fun f => (f, true))
    else none

/-! ## Events -/

/-- A flow event (R246, R438): kind, DETAIL, the count of a LOSS, D of a LATE. -/
structure FlowEv where
  kind : Nat
  detail : Nat := 0
  count : Nat := 0
  late : Int := 0
deriving DecidableEq, Repr

/-- The queue that takes copies by number: its source kind is FLOW (R249, R375). -/
def State.flowQueue (s : State) (q : Nat) : Option Nat := if q < 4096 ∧ s.obj (Obj.qSrcKind q) = 4 then some q else none

/-- The queue whose source is a tag group (R249). -/
def State.tagQueue (s : State) (tag : Nat) : Option Nat :=
  if tag = 0 then none
  else s.queueList.find? (fun q => s.obj (Obj.qSrcKind q) = 5 && s.obj (Obj.qSource q) = tag)

/-- The flow's own queue and that of its tag group (R249). -/
def State.ownQueues (s : State) (c : FlowCtx) : List Nat :=
  (if c.queueEn then (s.flowQueue c.queue).toList else []) ++ (s.tagQueue c.tag).toList

/-- The queues of R247. -/
def State.eventQueues (s : State) (n : Nat) (c : FlowCtx) : List Nat :=
  (s.ownQueues c ++ (s.flowQueue (s.obj (Obj.flEventQueue n))).toList).eraseDups

/-- Records reach queues. -/
def State.toQueues (s : State) (qs : List Nat) (recs : List Rec) (t now : Tick) (tally : List (Key × Nat) := []) : State :=
  qs.foldl (fun s q => s.deliver q recs 1 (ofTick t) (ofTick t) now tally) s

/-- The tick at which a flow event reaches the units (R248): within 8 ticks, 2 for STOP (assumption 9). -/
def flowDue (n kind : Nat) (now : Tick) : Tick := now + 1 + Config.delay (64 + n) kind % (if kind = 5 then 2 else 8)

/-- The records of flow events of one time, of the kinds that EVENT_MASK stores (R247). -/
def State.eventRecs (s : State) (n fid : Nat) (c : FlowCtx) (key : Bytes) (l : List FlowEv) (t : Tick) : List Rec :=
  (l.filter (fun e => bit (s.obj (Obj.flEventMask n)) e.kind)).map (fun e =>
    flowEventRec n t e.kind c.essence fid e.detail (if e.kind = 1 then key else []))

/-- Flow events of one time are raised: to the units always, to the queues when EVENT_MASK stores their kind (R246-R248); in a queue that also takes a copy
of their packet they stand after it, as one with it (R247, R423). -/
def State.flowEvents (s : State) (n fid : Nat) (c : FlowCtx) (key : Bytes) (l : List FlowEv) (own : List Nat) (pkt : List Rec) (t now : Tick) : State :=
  let s := l.foldl (fun s e => s.arrive (flowDue n e.kind now) (.flow n e.kind fid c.tag e.count e.late (ofTick t))) s
  let evs := s.eventRecs n fid c key l t
  let qs := if evs = [] then [] else s.eventQueues n c
  (own ++ qs).eraseDups.foldl (fun s q =>
    let mine := if qs.contains q then evs else []
    let copy := if own.contains q then pkt else []
    s.deliver q (copy ++ mine) (ofBool (copy != []) + mine.length) (ofTick t) (ofTick t) now) s

/-! ## One packet of a flow -/

/-- The advance of R240: the context, its events, and whether the packet advanced the sequence and restarted it. -/
def flowSeq (c : FlowCtx) (p : Rtp) (jumpMax misMax : Nat) : FlowCtx × List FlowEv × Bool × Bool :=
  let x := 65536 * c.cycles + c.maxSeq
  let s0 := if c.essence = 2 then 65536 * p.ext + p.seq
    else if c.seqInit then (x + 1 + ofInt 32 (toInt 16 (p.seq + 2 ^ 32 - x - 1))) % 2 ^ 32 else p.seq
  let x := if c.seqInit then x else (s0 + 2 ^ 32 - 1) % 2 ^ 32
  let d := toInt 32 (s0 + 2 ^ 33 - x - 1)
  let first := (x + 1) % 2 ^ 32
  let on := { c with seqInit := true, cycles := s0 / 65536, maxSeq := s0 % 65536 }
  if d = 0 then (on, [], true, false)
  else if 0 < d ∧ d ≤ jumpMax then
    ({ on with lost := min 65535 (c.lost + d.toNat) },
      [{ kind := 2, detail := first + 2 ^ 32 * d.toNat, count := d.toNat }], true, false)
  else if d < 0 ∧ -(misMax : Int) ≤ d then
    ({ c with seqInit := true, reordered := min 255 (c.reordered + 1) },
      [{ kind := 3, detail := s0 + 2 ^ 32 * (-d).toNat }], false, false)
  else (on, [{ kind := 2, detail := first }], true, true)

/-- TS_NS_Q16 of a rate (R243). -/
def tsNsQ16 (rate : Nat) : Nat := (2 ^ 16 * 1000000000 * 2 + rate) / (2 * rate)

/-- The jitter step of R242. -/
def flowJitter (c : FlowCtx) (ts a scale lateNs : Nat) : FlowCtx × List FlowEv :=
  let a40 := a % 2 ^ 40
  let set_ (c : FlowCtx) : FlowCtx := { c with lastArr := a40, lastTs := ts, jitInit := true }
  let dt : Nat := (a40 + 2 ^ 40 - c.lastArr) % 2 ^ 40
  if c.jitInit ∧ dt < 2 ^ 39 then
    let ds := toInt 32 (ts + 2 ^ 32 - c.lastTs)
    let dd : Int := dt - (ds * scale + 2 ^ 15) / 2 ^ 16
    let j := min (2 ^ 24 - 1) (c.jitter + dd.natAbs - (c.jitter + 8) / 16)
    let c := set_ { c with jitter := j }
    if lateNs ≠ 0 ∧ (lateNs : Int) < dd then
      ({ c with late := min 127 (c.late + 1) }, [{ kind := 4, detail := ofInt 32 (clampI (-2147483648) 2147483647 dd), late := clampI (-2147483648) 2147483647 dd }])
    else (c, [])
  else (set_ c, [])

/-- What one packet of a flow did. -/
structure FlowStep where
  ctx : FlowCtx
  events : List FlowEv
  restart : Bool := false
  /-- A signature closed: CRC-32, bytes covered, INCOMPLETE. -/
  closed : Option (Nat × Nat × Bool) := none
  frameEnd : Bool := false
deriving DecidableEq, Repr

/-- A packet's rows enter the open signature (R198), which opens with the first packet after a FRAME_END (R245). -/
def flowSign (was c : FlowCtx) (p : Rtp) (advanced bad : Bool) : FlowCtx :=
  if !c.sigEn ∨ c.essence ≠ 2 then c
  else
    let opened := match c.sig with
      | some x => some x
      | none => if advanced && was.seqInit && !was.inFrame then some (0xFFFFFFFF, 0, false) else none
    match opened with
    | none => c
    | some (r, n, inc) =>
      let data := p.rows.flatMap (fun x => x.2.2)
      { c with sig := some (crc32Run r data, n + data.length, inc || bad) }

/-- One packet of a flow whose essence is not UDP (R240-R246). -/
def flowRtp (c : FlowCtx) (p : Rtp) (a jumpMax misMax scale lateNs : Nat) : FlowStep :=
  let first : Bool := !c.seqInit
  let (c1, e1, advanced, restart) := flowSeq c p jumpMax misMax
  let (c2, e2) :=
    if !advanced then (c1, [])
    else if c.essence = 2 ∧ first then ({ c1 with lastArr := a % 2 ^ 40, lastTs := p.ts }, [])
    else if c.essence = 2 ∧ c.inFrame then (c1, [])
    else flowJitter c1 p.ts a scale lateNs
  let c3 := flowSign c c2 p advanced (e1 ≠ [])
  if advanced ∧ c.essence ≠ 3 then
    if p.marker then
      let e : FlowEv := { kind := 6, detail := 65536 * c3.cycles + c3.maxSeq + 2 ^ 32 * p.ts }
      { ctx := { c3 with inFrame := false, sig := none }, events := e1 ++ e2 ++ [e], restart := restart,
        closed := c3.sig.map (fun x => (x.1 ^^^ 0xFFFFFFFF, x.2.1, x.2.2)), frameEnd := true }
    else { ctx := { c3 with inFrame := true }, events := e1 ++ e2, restart := restart }
  else { ctx := c3, events := e1 ++ e2, restart := restart }

/-! ## The Filet track of a flow (R473-R479) -/

/-- A big-endian field of bits of a byte string. -/
def netBits (b : Bytes) (off n : Nat) : Nat :=
  natOfBits (((below n).map (fun i => bit ((b.getD ((off + i) / 8) 0).toNat) (7 - (off + i) % 8))).reverse)

/-- The samples of a row's data in a format (R478): component 0 Y or R, 1 Cb or G, 2 Cr or B. -/
def pgroupSamples (format off : Nat) (data : Bytes) (t : Tick) : List FlowSample :=
  let size := if format = 1 then 4 else if format = 2 then 5 else if format = 3 then 3 else 15
  let w := if format = 1 ∨ format = 3 then 8 else 10
  (below (data.length / size)).flatMap (fun g =>
    let v (i : Nat) : Nat := netBits data (8 * size * g + w * i) w
    if format ≤ 2 then
      [⟨1, off / 2 + g, v 0, t⟩, ⟨0, off + 2 * g, v 1, t⟩, ⟨2, off / 2 + g, v 2, t⟩, ⟨0, off + 2 * g + 1, v 3, t⟩]
    else
      let per := if format = 3 then 1 else 4
      (below (3 * per)).map (fun i => ⟨i % 3, off + per * g + i / 3, v i, t⟩))

/-- One group of a component: its samples in order with the time of the first, none where some are missing; the last
group of the row is filled with its last sample (R475, R479). -/
def flowGroup (l : List FlowSample) (g : Nat) (last : Bool) : Option (List Nat × Tick) :=
  let at_ (i : Nat) : Option FlowSample := l.find? (fun x => x.pos = 16 * g + i)
  let have_ := (below 16).map at_
  let run := (have_.takeWhile (·.isSome)).filterMap id
  let all := (have_.filterMap id).length
  match run with
  | [] => none
  | a :: _ =>
    if run.length = 16 ∨ (last ∧ run.length = all) then
      let v := run.map (·.value)
      some (v ++ List.replicate (16 - v.length) (v.getLastD 0), a.time)
    else none

/-- The records of one component of a row, cut at 253 words from the first group on. -/
def cutRuns : Nat → Nat → Tick → List Nat → (Nat → Tick) → List (Nat × Tick × List Nat)
  | 0, _, _, _, _ => []
  | f + 1, g, t, ws, time =>
    if ws.length ≤ 253 then [(g, t, ws)] else (g, t, ws.take 253) :: cutRuns f (g + 253) (time (g + 253)) (ws.drop 253) time

/-- Runs of complete groups without a limit. -/
def wholeRuns : List (Nat × Option (List Nat × Tick)) → List (Nat × Tick × List Nat)
  | [] => []
  | (g, x) :: t =>
    match x, wholeRuns t with
    | none, r => r
    | some (v, time), (g', t', ws) :: rest =>
      if g' = g + 1 then (g, time, filetWord v :: ws) :: rest else (g, time, [filetWord v]) :: (g', t', ws) :: rest
    | some (v, time), [] => [(g, time, [filetWord v])]

/-- The row of a Filet track closes (R476, R479). -/
def State.closeRow (s : State) (n fid : Nat) (c : FlowCtx) (now : Tick) : State :=
  match c.row with
  | none => s
  | some row =>
    let mask := s.obj (Obj.laneCodeFiletComponents n)
    let base := if s.obj (Obj.laneCodeFiletFormat n) ≤ 2 then 0 else 3
    let qs := s.ownQueues c
    ((below 3).filter (bit mask)).foldl (fun s k =>
      let l := c.samples.filter (fun x => x.comp = k)
      let count := l.foldl (fun m x => max m (x.pos / 16 + 1)) 0
      let groups := (below count).map (fun g => (g, flowGroup l g (g + 1 = count)))
      let time (g : Nat) : Tick := (((groups.find? (fun e => e.1 = g)).bind (·.2)).map (·.2)).getD 0
      let s := s.bump Obj.coderCntFiletDropped (groups.filter (fun e => e.2.isNone)).length
      (wholeRuns groups).foldl (fun s r =>
        (cutRuns 64 r.1 r.2.1 r.2.2 time).foldl (fun s x =>
          s.toQueues qs [filetRec n x.2.1 (row % 2048) (base + k) (some fid) x.1 x.2.2] x.2.1 now [(Obj.coderCntFiletWords, x.2.2.length)]) s) s) s

/-- The rows of a packet enter the flow's Filet track (R478, R479). -/
def State.flowFilet (s : State) (n fid : Nat) (p : Rtp) (frameEnd : Bool) (t now : Tick) : State :=
  let c := s.flow fid
  let format := s.obj (Obj.laneCodeFiletFormat n)
  if !c.sigEn ∨ c.essence ≠ 2 ∨ format = 0 then s.setFlow fid { c with row := none, samples := [] }
  else
    let s := p.rows.foldl (fun (s : State) r =>
      let c := s.flow fid
      let s := if c.row.all (· = r.1) then s else (s.closeRow n fid c now).setFlow fid { c with row := none, samples := [] }
      let c := s.flow fid
      let new := pgroupSamples format r.2.1 r.2.2 t
      let kept := c.samples.filter (fun x => !new.any (fun y => y.comp = x.comp && y.pos = x.pos))
      s.setFlow fid { c with row := some r.1, samples := new ++ kept }) s
    if frameEnd then
      let c := s.flow fid
      (s.closeRow n fid c now).setFlow fid { c with row := none, samples := [] }
    else s

/-! ## One frame -/

/-- The bytes of a frame that are stored (R250). -/
def State.snap (s : State) (n : Nat) (d : Bytes) : Bytes := let k := s.obj (Obj.flSnapLen n); if k = 0 then d else d.take k

/-- An unclassified frame, stored whole (R230); it is counted as stored where its queue did not drop it (R257). -/
def State.unclassified (s : State) (n reason flags orig : Nat) (d : Bytes) (t now : Tick) : State :=
  let s := s.bump (Obj.flCntUnclassified n reason) 1
  match s.flowQueue (s.obj (Obj.flOverflowQueue n)) with
  | none => s
  | some q =>
    s.toQueues [q] (packetRecs n t 1 reason flags orig 0 0 d) t now [(Obj.flCntOverflowStored n, 1)]

/-- A PTP event message, stored whole (R228, R229). -/
def State.ptpFrame (s : State) (n flags orig : Nat) (d : Bytes) (t now : Tick) : State :=
  let s := s.bump (Obj.flCntPtpEvents n) 1
  match s.flowQueue (s.obj (Obj.flPtpQueue n)) with
  | none => s
  | some q => s.toQueues [q] (packetRecs n t 2 0 flags orig 0 0 d) t now

/-- The rate object of an essence (R243). -/
def State.tsRate (s : State) (essence : Nat) : Nat :=
  s.obj (if essence = 1 then Obj.flowTsRateRtp else if essence = 2 then Obj.flowTsRateVideo
    else if essence = 3 then Obj.flowTsRateAudio else Obj.flowTsRateAnc)

/-- A packet of a context: its state, its copies, its events, its signature and its Filet track (R239-R251). -/
def State.flowHit (s : State) (n fid flags orig : Nat) (key d : Bytes) (p : Option Rtp) (t now : Tick) : State :=
  let c := s.flow fid
  let isNew : Bool := !c.seen
  let c := { c with silent := false, seen := true, packets := (c.packets + 1) % 65536 }
  let st : FlowStep := match p with
    | none => { ctx := { c with lastArr := t % 2 ^ 40 }, events := [] }
    | some p => flowRtp c p t (s.obj (Obj.flLossJumpMax n)) (s.obj (Obj.flMisorderMax n)) (tsNsQ16 (s.tsRate c.essence)) (s.obj (Obj.flLateNs n))
  let s := (s.bump (Obj.flCntClassified n) 1).setFlow fid st.ctx
  let s := if st.restart then s.bump (Obj.flCntSeqRestart n) 1 else s
  let misbound := ofBool (c.queueEn && (s.flowQueue c.queue).isNone) + ofBool (c.tag ≠ 0 && (s.tagQueue c.tag).isNone)
  let s := s.bump (Obj.flCntMisbound n) misbound
  let evs : List FlowEv := (if isNew then [{ kind := 1 }] else []) ++ st.events
  let s := s.flowEvents n fid st.ctx key evs (s.ownQueues c) (packetRecs n t 0 0 flags orig fid 0 (s.snap n d)) t now
  let s := match st.closed with
    | none => s
    | some (sig, len, inc) =>
      let s := s.bump (Obj.flCntSignatures n) 1
      let s := s.arrive (flowDue n 6 now) (.video n (some fid) 6 0 sig inc (ofTick t))
      let s := s.toQueues (s.eventQueues n st.ctx) [videoEventRec n t 6 inc (some fid) (sig + 2 ^ 32 * cut 32 len)] t now
      s.tapSignature n (some fid) sig inc (ofTick t)
  match p with
  | some p => s.flowFilet n fid p st.frameEnd t now
  | none => s

/-- The RTP layer of a packet of an essence; none in the second place is BAD_HDR. -/
def rtpLayer (essence : Nat) (payload : Bytes) : Option (Option Rtp) :=
  if essence = 0 then some none else (parseRtp essence payload).map some

/-- Lookup and learning (R226, R235). -/
def State.flowLookup (s : State) (n flags orig : Nat) (key payload d : Bytes) (t now : Tick) : State :=
  let s := s.setFlLane n { s.flLane n with usedAt := some now }
  let (b, fp) := flowHash (s.obj (Obj.flHashSeed n)) key
  match s.findFlow n b fp with
  | some fid =>
    match rtpLayer (s.flow fid).essence payload with
    | none => s.unclassified n unBadHdr flags orig d t now
    | some p => s.flowHit n fid flags orig key d p t now
  | none =>
    if s.obj (Obj.flLearnMode n) = 1 then s.unclassified n unNoMatch flags orig d t now
    else
      match s.learnSlot n b now with
      | none => s.unclassified n unBucketFull flags orig d t now
      | some (fid, evicted) =>
        let e := s.learntEssence n key payload
        match rtpLayer e payload with
        | none => s.unclassified n unBadHdr flags orig d t now
        | some p =>
          let s := if evicted then s.bump (Obj.flCntEvicted n) 1 else s
          let s := (s.bump (Obj.flCntLearnt n) 1).setFlow fid (freshFlow fp e (s.obj (Obj.flDefaultQueue n)) (s.obj (Obj.flDefaultTag n)))
          s.flowHit n fid flags orig key d p t now

/-- A frame reaches the flow engine (R222-R224, R228, R230). -/
def State.flowFrame (s : State) (n flags orig : Nat) (d : Bytes) (t now : Tick) : State :=
  let s := s.bump (Obj.flCntPackets n) 1
  if !s.flag (Obj.flFlowEnable n) then s
  else
    let x := s.flLane n
    let second : Bool := x.frameAt = some now
    let s := s.setFlLane n { x with frameAt := some now }
    if second then s.unclassified n unRate flags orig d t now
    else if flags % 32 ≠ 0 then s.unclassified n unBadFrame flags orig d t now
    else
      match parseFrame (s.flag (Obj.flPtpEnable n)) d with
      | .bad r => s.unclassified n r flags orig d t now
      | .ptp => s.ptpFrame n flags orig d t now
      | .udp key payload => s.flowLookup n flags orig key payload d t now

/-- The flags of R205 that follow from a frame's bytes, beside those the decoding gave it. -/
def frameFlags (maxFrame : Nat) (f : Frame) : Nat :=
  let long : Bool := maxFrame < f.data.length
  let fcs : Bool := !long && (f.data.length < 4 || fieldAt f.data (f.data.length - 4) 4 != crc32 (f.data.take (f.data.length - 4)))
  ofBool fcs + 2 * ofBool (bit f.flags 1) + 4 * ofBool (bit f.flags 2) + 8 * ofBool (f.data.length < 64) + 16 * ofBool long
    + 32 * ofBool (bit f.flags 5)

/-- The oldest frame that a decoder has read reaches the flow engine and the units (R205-R207, R222); the bound of R175 runs from the tick in which the
frame was read. -/
def State.takeFrame (s : State) (n : Nat) : State :=
  match (s.dec n).ready with
  | [] => s
  | (built, f) :: rest =>
    let now := s.tick
    let s := s.setDec n { s.dec n with ready := rest }
    let flags := frameFlags f.limit f
    let d := f.data.take f.limit
    let s := s.bump (Obj.decCntEthFrames n) 1
    let s := if bit flags 0 then (s.bump (Obj.decCntFcsErr n) 1).codeError n 6 1 0 f.time now else s
    let s := if bit flags 3 then s.bump (Obj.decCntRunts n) 1 else s
    let s := if bit flags 4 then s.bump (Obj.decCntTruncated n) 1 else s
    let s := s.arrive (max (now + 1) (s.decDue n false built)) (.field n 1 0 d (ofTick f.time))
    s.flowFrame n flags f.data.length d f.time now

/-- Does a frame of the lane wait for the next tick? -/
def Parked.frameOf (lane : Nat) (p : Parked) : Bool := p == .frame lane

/-- ETH_FRAME (R205-R207, R222, R255): a decoder delivers a frame, in the next tick where the scanner's visit of this one is past. -/
def execEthFrame (lane : Nat) (s : State) : Ans :=
  if !s.running ∨ (s.dec lane).ready = [] then .next s
  else if s.belongsLater (Parked.frameOf lane) || (s.flLane lane).visitAt == some s.tick then .next (s.postpone (.frame lane))
  else .next (s.takeFrame lane)

/-! ## The scanner -/

/-- Has a context become silent (R244)? -/
def State.stopsAt (s : State) (n : Nat) (now : Tick) (f : Nat) : Bool :=
  let c := s.flow f
  let us := s.obj (Obj.flStopUs n c.stopSel)
  c.valid && !c.silent && us != 0 && 1000 * us ≤ c.age now

/-- One visit of a bucket (R244, R253): at most one STOP (R248). -/
def State.visitBucket (s : State) (n b : Nat) (now : Tick) : State :=
  let x := s.flLane n
  let flushing : Bool := x.flushes.any (0 < ·)
  let s := if flushing then
      (bucketFids n b).foldl (fun s f => let c := s.flow f; if c.valid && !c.installed then s.setFlow f { c with valid := false } else s) s
    else s
  match (bucketFids n b).find? (s.stopsAt n now) with
  | none => s
  | some f =>
    let c := { s.flow f with silent := true }
    (s.setFlow f c).flowEvents n f c [] [{ kind := 5, detail := c.lastArr }] [] [] now now

/-- The copy of a visited bucket that FLOWHEALTH gets, where it is enabled on the lane (R20, R614), and where its pass began. -/
def State.tapBucket (s : State) (n b : Nat) : State :=
  if s.obj (Obj.fhState n) ≠ 1 then s
  else
    let h := s.health.getD n {}
    let copy := (bucketFids n b).foldl (fun t f => let c := s.flow f
      if c.valid then t.put f {} c else t.del f) h.copy
    let begun := if b = 0 then some s.tick else h.begun
    { s with health := s.health.put n {} { h with copy := copy, begun := begun, whole := if b = 4095 then begun else h.whole } }

/-- A lane's scanner visits its next bucket, in a tick in which neither a frame nor a table command uses the memory (R244, R253, R255). Where both contexts of
a bucket are due the scanner stays for the second STOP, so that none is later than R244 lets it be (DESIGN CHOICE, assumption 35). -/
def State.takeVisit (s : State) (n : Nat) : State :=
  let x := s.flLane n
  if !s.hasLane n ∨ !s.running ∨ x.usedAt = some s.tick ∨ x.tableAt = some s.tick ∨ x.visitAt = some s.tick then s
  else
    let s := (s.visitBucket n x.bucket s.tick).tapBucket n x.bucket
    if (bucketFids n x.bucket).any (s.stopsAt n s.tick) then s.setFlLane n { x with visitAt := some s.tick }
    else s.setFlLane n { x with bucket := (x.bucket + 1) % 4096, visitAt := some s.tick, flushes := x.flushes.map (· - 1) }

/-- Does a visit of the lane wait for the next tick? -/
def Parked.visitOf (lane : Nat) (p : Parked) : Bool := p == .visit lane

/-- SCANNER_VISIT (R244, R253, R255). -/
def execScannerVisit (lane : Nat) (s : State) : Ans :=
  .next (if s.belongsLater (Parked.visitOf lane) then (if s.hasLane lane then s.postpone (.visit lane) else s) else s.takeVisit lane)

/-! ## The table window -/

/-- The objects of the lane that read its table (R256). -/
def State.flowView (s : State) (k : Key) : Option Nat :=
  let n := k / 256 - 0x3420
  if 0x3420 ≤ k / 256 ∧ k / 256 < 0x3440 then
    let l := s.flows.filter (fun e => e.1 / 8192 = n && e.2.valid)
    if k = Obj.flValidCount n then some l.length
    else if k = Obj.flSigSlotsFree n then some (8 - (l.filter (fun e => e.2.sigEn)).length)
    else none
  else none

/-- The 40-byte TABLE_RESULT (R254). -/
def tableResult (outcome lane index fid : Nat) (ctx : Bytes) : Bytes :=
  le 1 outcome ++ le 1 lane ++ le 2 index ++ le 4 fid ++ ctx

/-- What a TABLE_CMD asks for once its fields are checked. -/
structure TableCmd where
  op : Nat
  lane : Nat
  index : Nat
  essence : Nat
  tag : Nat
  queue : Nat
  stopSel : Nat
  sigEn : Bool
  key : Bytes
deriving DecidableEq, Repr

/-- The fields of a TABLE_CMD (R231, R252): refused, or the command with its report. -/
def tableFields (b : Bytes) : Option (TableCmd × List RepEntry) :=
  let index := fieldAt b 2 2
  let queue := fieldAt b 6 2
  let key := slice b 16 40
  let flags := fieldAt b 9 1
  let stop := fieldAt b 8 1
  if 7 < fieldAt b 0 1 ∨ (8191 < index ∧ index ≠ 0xFFFF) ∨ 4 < fieldAt b 4 1 ∨ (4095 < queue ∧ queue ≠ 0xFFFF)
      ∨ fieldAt key 38 2 ≠ 0 ∨ 8191 < fieldAt key 36 2 ∨ (fieldAt b 0 1 = 5 ∧ index = 0xFFFF) then none
  else
    let rep := (if 3 < stop then [domField Obj.tableTableCmd stClamped rpLowered 8 0] else [])
      ++ (if 1 < flags then [domField Obj.tableTableCmd stClamped rpCleared 9 1] else [])
      ++ (if fieldAt b 10 6 ≠ 0 then [domField Obj.tableTableCmd stClamped rpCleared 10 0] else [])
    some ({ op := fieldAt b 0 1, lane := fieldAt b 1 1, index := index, essence := fieldAt b 4 1, tag := fieldAt b 5 1, queue := queue,
            stopSel := min stop 3, sigEn := bit flags 0, key := key }, rep)

/-- Is a signature slot of the lane free (R251)? -/
def State.sigSlotFree (s : State) (n : Nat) : Bool := (s.flowView (Obj.flSigSlotsFree n)).getD 0 ≠ 0

/-- Give a context the fields that INSTALL and UPDATE write (R253). -/
def FlowCtx.given (c : FlowCtx) (x : TableCmd) : FlowCtx :=
  let c := if c.essence = x.essence then c
    else { c with essence := x.essence, seqInit := false, jitInit := false, inFrame := false, sig := none, row := none, samples := [] }
  let c := if x.sigEn then c else { c with sig := none, row := none, samples := [] }
  { c with queue := x.queue % 4096, queueEn := x.queue ≠ 0xFFFF, tag := x.tag, stopSel := x.stopSel, sigEn := x.sigEn, installed := true }

/-- The outcome of a table operation: OUTCOME, FID of the context where one is located, and the state (R253). -/
def State.tableOp (s : State) (x : TableCmd) (t : Tick) : Nat × Option Nat × State :=
  let n := x.lane
  let (b, fp) := flowHash (s.obj (Obj.flHashSeed n)) x.key
  let byKey := s.findFlow n b fp
  let located : Option Nat := if x.index = 0xFFFF then byKey
    else if (s.flow (8192 * n + x.index)).valid then some (8192 * n + x.index) else none
  match x.op with
  | 1 => match byKey with
    | some f => (0, some f, s)
    | none => (1, none, s)
  | 2 => match byKey with
    | some f => (2, some f, s)
    | none =>
      let free := (bucketFids n b).find? (fun f => !(s.flow f).valid)
      let slot := match free with
        | some f => some f
        | none => s.oldest t ((bucketFids n b).filter (fun f => !(s.flow f).installed))
      match slot with
      | none => (3, none, s)
      | some f =>
        if x.sigEn && !s.sigSlotFree n then (4, none, s)
        else
          let s := if free.isNone then s.bump (Obj.flCntEvicted n) 1 else s
          (0, some f, s.setFlow f ((freshFlow fp x.essence x.queue x.tag).given x))
  | 3 => match located with
    | none => (1, none, s)
    | some f =>
      if x.sigEn && !(s.flow f).sigEn && !s.sigSlotFree n then (4, some f, s) else (0, some f, s.setFlow f ((s.flow f).given x))
  | 4 => match located with
    | none => (1, none, s)
    | some f => (0, some f, s.setFlow f { s.flow f with valid := false, sig := none, row := none, samples := [] })
  | 5 => (0, some (8192 * n + x.index), s)
  | 6 => match located with
    | none => (1, none, s)
    | some f => (0, some f, s.setFlow f { s.flow f with jitter := 0, lost := 0, reordered := 0, late := 0, packets := 0 })
  | _ => (0, none, s.setFlLane n { s.flLane n with flushes := (s.flLane n).flushes ++ [4096] })

/-- Does a TABLE_CMD have a result: not a no-op, and no field refused (R252, R254)? -/
def State.tableAnswers (s : State) (b : Bytes) : Bool :=
  match tableFields b with
  | none => false
  | some (x, _) => x.op != 0 && s.hasLane x.lane

/-- A write of TABLE_CMD acts (R252-R255): the object's outcome, and what it waits for. -/
def State.tableCmd (s : State) (port : Nat) (b : Bytes) (t : Tick) : State × ObjOut × Option Wait :=
  let k := Obj.tableTableCmd
  match tableFields b with
  | none => (s, rejOut k, none)
  | some (x, rep) =>
    if x.op = 0 then (s, emptyOut k, none)
    else if !s.hasLane x.lane then (s, badOut k stNotPresent 0, none)
    else
      let s := s.setFlLane x.lane { s.flLane x.lane with tableAt := some t }
      let (o, fid, s) := s.tableOp x t
      let (r, s) := if fid.isSome then (0, s) else s.fresh
      let f := fid.getD (r % 2 ^ 32)
      let index := match fid with
        | some f => f % 8192
        | none => r / 2 ^ 32 % 2 ^ 16
      let ctx := match o, fid with
        | 0, some f => (s.flow f).bytes
        | _, _ => zeros 32
      let s := s.setDom (Obj.tableTableResult port) (tableResult o x.lane index f ctx)
      if o = 0 then (s, clampedOut k (.byt b) rep, if x.op = 7 then some (.flush x.lane) else none)
      else (s, rejOut k, none)

/-- A committed HASH_SEED of a lane whose table holds a valid context (R238). -/
def State.flowVerdict (s : State) (k : Key) : Option ObjOut :=
  let n := k / 256 - 0x3420
  if 0x3420 ≤ k / 256 ∧ k / 256 < 0x3440 ∧ k = Obj.flHashSeed n ∧ s.flowView (Obj.flValidCount n) ≠ some 0 then
    some (badOut k stBusy 0)
  else none

/-- Every context is empty again (R673). -/
def State.clearFlows (s : State) : State := { s with flows := [], flowLanes := [] }

end Sys2Proof.Machine
end

