-- ==== Sys2Proof/Machine/Services.lean ====
section
/-! DEFINITION. The services' own objects (R605, R611-R619, R623): the relations that a service checks, FLOWHEALTH samples and the
SIGNATURE comparison. -/

namespace Sys2Proof.Machine

/-- DETAIL of a class-13 notification (R623). -/
def serviceDetail (service event data : Nat) : Nat := service * 2 ^ 56 + event * 2 ^ 48 + cut 48 data

/-- A service notification (R623). -/
def State.serviceNote (s : State) (service entry event data : Nat) (t : Tick) : State :=
  s.notify 13 entry (serviceDetail service event data) t

/-! The relations between objects (R605). -/

/-- The queues of a WATCH entry (R611). -/
def State.watchQueues (s : State) (w : Nat) : List Nat := upFrom (s.obj (Obj.watchQcount w)) (s.obj (Obj.watchFirstQ w))

/-- Is a queue IDLE or DONE? -/
def State.atRest (s : State) (q : Nat) : Bool := !s.activeQueue q

/-- The relations of a WATCH entry (R611); `enabling` adds the one that holds when the entry is enabled. -/
def State.watchOk (s : State) (w : Nat) (enabling : Bool) : Bool :=
  let qs := s.watchQueues w
  let f := s.obj (Obj.watchFirstQ w)
  qs.all (fun q => q < 4096 && s.obj (Obj.qMode q) == 1 && s.obj (Obj.qSrcKind q) == s.obj (Obj.qSrcKind f)
    && s.obj (Obj.qSource q) == s.obj (Obj.qSource f) && s.obj (Obj.qQgroup q) == s.obj (Obj.qQgroup f)
    && s.obj (Obj.qQgroup q) != 0xFF && (!enabling || s.atRest q))

/-- The relations of a SIGNATURE entry (R617, R618, R625). -/
def State.sigOk (s : State) (k : Nat) : Bool :=
  s.dom (Obj.sigGolden k) != []
    && (if s.obj (Obj.sigSrc k) = 0 then s.obj (Obj.sigSource k) < 32 else s.obj (Obj.sigSource k) < 262144)

/-- The relations of a STREAM entry (R625). -/
def State.streamOk (s : State) (k : Nat) : Bool :=
  s.dom (Obj.streamDestAddr k) != zeros 16 && s.obj (Obj.streamDestPort k) != 0

/-- Instances of a service's objects: how many, the first index. -/
def serviceBase (service : Nat) : Nat × Nat :=
  match service with
  | 1 => (16, 0x5A20)
  | 2 => (32, 0x5A40)
  | 3 => (8, 0x5A60)
  | _ => (4, 0x5A80)

/-- The STATE object of an entry. -/
def serviceState (service k : Nat) : Key := ((serviceBase service).2 + k) * 256 + 0x0F

/-- The ENABLE object of an entry. -/
def serviceEnable (service k : Nat) : Key := ((serviceBase service).2 + k) * 256 + 0x01

/-- Do the relations of an entry hold? -/
def State.serviceOk (s : State) (service k : Nat) (enabling : Bool) : Bool :=
  match service with
  | 1 => s.watchOk k enabling
  | 2 => true
  | 3 => s.sigOk k
  | _ => s.streamOk k

/-- STREAM starts: a capture that has already ended is not exported by itself (R619). -/
def State.seeCapture (s : State) (k : Nat) : State :=
  let q := s.obj (Obj.streamQueue k)
  let c := s.obj (Obj.qCapture q)
  { s with streams := s.streams.put k {} { s.streams.getD k {} with seen := if s.obj (Obj.qState q) = 2 then c else c - 1 } }

/-- A service checks one entry and sets its STATE (R605); FLOWHEALTH counts its first period from here. -/
def State.checkService (s : State) (service k : Nat) (enabling : Bool) (t : Tick) : State :=
  let st := serviceState service k
  if !s.flag (serviceEnable service k) then s.setObj st 0
  else if s.serviceOk service k enabling then
    let s := if service = 2 ∧ s.obj st ≠ 1 then { s with health := s.health.put k {} { lastAt := t } } else s
    let s := if service = 4 ∧ s.obj st ≠ 1 then s.seeCapture k else s
    if s.obj st = 3 ∧ !enabling then s else s.setObj st 1
  else
    let s := if s.obj st = 2 then s else s.serviceNote service k 0xFF 0 t
    s.setObj st 2

/-- Does a change of an object bear on an entry (R605)? -/
def State.bearsOn (s : State) (service k : Nat) (key : Key) : Bool :=
  let ix := key / 256
  ix == (serviceBase service).2 + k
    || (service == 1 && (s.watchQueues k).any (fun q => ix == 0x4000 + q && [3, 4, 5, 0x0A].contains (key % 256)))

/-- What a commit or a write means for the services (R605): an entry is checked when ENABLE takes effect and when a related
object has changed, where its core runs. -/
def State.serviceEffects (s old : State) (keys : List Key) (t : Tick) : State :=
  (upFrom 4 1).foldl (fun s sv =>
    if !s.serviceUp sv then s
    else (below (serviceBase sv).1).foldl (fun s k =>
      let en := serviceEnable sv k
      if keys.any (fun key => s.bearsOn sv k key || old.bearsOn sv k key) then
        s.checkService sv k (s.flag en && !old.flag en) t
      else s) s) s

/-- The services of a core that starts resume from their objects (R610). -/
def State.startServices (s : State) (c : Nat) (t : Tick) : State :=
  (upFrom 4 1).foldl (fun s sv =>
    if serviceCore s.otp.variant sv ≠ c ∨ !s.serviceUp sv then s
    else (below (serviceBase sv).1).foldl (fun s k =>
      if s.flag (serviceEnable sv k) then s.checkService sv k (sv == 1 && s.obj (Obj.watchLiveQ k) == 0xFFFF) t else s) s) s

/-- CORE_BOOTED (R610). -/
def execCoreBooted (core : Nat) (s : State) : Ans :=
  if core < coresOf s.otp.variant ∧ s.obj (Obj.coreState core) = 1 ∧ s.obj Obj.fwFwState = 2 then
    .next ((s.setObj (Obj.coreState core) 2).startServices core s.tick)
  else .next s

/-- FW_CHECK_END (R602, R622): SC0 has checked the two firmware slots and the two configuration copies. -/
def execFwCheckEnd (slotA slotB config0 config1 : Bytes) (s : State) : Ans :=
  if !s.flash.checking then .next s
  else
    let s := s.firmwareChosen slotA slotB config0 config1
    .next ((below (coresOf s.otp.variant)).foldl (fun s c => s.startServices c s.tick) s)

/-! FLOWHEALTH (R614-R616). -/

/-- The 32 bytes of one record (R615). -/
def healthRecord (fid essence tick flags late reorder jitter lost packets : Nat) : Bytes :=
  le 32 (essence * 2 ^ 43 + fid * 2 ^ 46 + cut 64 tick * 2 ^ 64 + flags * 2 ^ 128 + late * 2 ^ 152 + reorder * 2 ^ 160
    + jitter * 2 ^ 168 + lost * 2 ^ 192 + packets * 2 ^ 224)

/-- A delta of two counts in a field of n bits. -/
def deltaOf (n now before : Nat) : Nat := ofInt n ((now : Int) - (before : Int))

/-- The record of one context, and whether it raises an alarm (R615, R616). -/
def State.healthOf (s : State) (n fid : Nat) (c : FlowCtx) (prev : Tab (Nat × Nat × Nat × Nat)) : Bytes × Bool :=
  let old := prev.find fid
  let (p, l, r, d) := old.getD (0, 0, 0, 0)
  let lost := deltaOf 32 c.lost l
  let la := s.obj (Obj.fhLossAlarm n)
  let ja := s.obj (Obj.fhJitterAlarmNs n)
  let loss : Bool := la != 0 && la ≤ lost
  let jit : Bool := ja != 0 && ja * 16 ≤ c.jitter
  let full : Bool := c.lost == 65535 || c.reordered == 255 || c.late == 127
  (healthRecord fid c.essence s.tick
    (ofBool loss + 2 * ofBool jit + 4 * ofBool c.silent + 8 * ofBool old.isNone + 16 * ofBool full)
    (deltaOf 8 c.late d) (deltaOf 8 c.reordered r) c.jitter lost (deltaOf 16 c.packets p), loss || jit)

/-- FLOWHEALTH_SAMPLE (R614-R616): a pass of the scanner that began after PERIOD_MS has ended; the sample is of the copies that it gave. -/
def execFlowhealthSample (lane : Nat) (s : State) : Ans :=
  let x := s.health.getD lane {}
  let due := x.lastAt + 1000000 * s.obj (Obj.fhPeriodMs lane)
  if !s.hasLane lane ∨ !s.serviceUp 2 ∨ s.obj (Obj.fhState lane) ≠ 1 ∨ !x.whole.any (due ≤ ·) then .next s
  else
    let l := x.copy
    let recs := l.map (fun e => (e.1, s.healthOf lane e.1 e.2 x.prev))
    let half (p : Nat → Bool) : Bytes := (recs.filter (fun e => p (e.1 % 8192))).flatMap (fun e => e.2.1)
    let s := (s.setDom (Obj.fhTable lane) (half (· < 4096))).setDom (Obj.fhTableHi lane) (half (4096 ≤ ·))
    let now : HealthRun := { x with lastAt := x.whole.getD 0, prev := l.map (fun e => (e.1, (e.2.packets, e.2.lost, e.2.reordered, e.2.late))) }
    let s := { s with health := s.health.put lane {} now }
    .next (recs.foldl (fun s e =>
      if e.2.2 then (s.bump (Obj.fhAlarms lane) 1).serviceNote 2 lane 1 e.1 s.tick else s) s)

/-! SIGNATURE (R617, R618). -/

/-- The CRC values of a GOLDEN list (R618). -/
def goldenList : Nat → Bytes → List Nat
  | 0, _ => []
  | f + 1, b => if b.length < 4 then [] else fieldAt b 0 4 :: goldenList f (b.drop 4)

/-- The first place of a value in a list. -/
def placeOf (l : List Nat) (v : Nat) : Option Nat := firstFrom (fun i => l[i]? = some v) l.length 0

/-- The comparison of one signature with the golden list (R618): does it match, and the place afterwards. -/
def sigCompare (mode : Nat) (l : List Nat) (place : Option Nat) (sig : Nat) : Bool × Option Nat :=
  if mode = 0 then (l.contains sig, place)
  else
    match place with
    | none => ((placeOf l sig).isSome, placeOf l sig)
    | some p => if l[(p + 1) % l.length]? = some sig then (true, some ((p + 1) % l.length)) else (false, placeOf l sig)

/-- SIGNATURE_TAP (R617, R618): the service takes the oldest event of an entry's tap. -/
def execSignatureTap (entry : Nat) (s : State) : Ans :=
  let x := s.sigs.getD entry {}
  match x.tap with
  | [] => .next s
  | (sig, incomplete, t) :: rest =>
    if 8 ≤ entry ∨ !s.serviceUp 3 ∨ s.obj (Obj.sigState entry) ≠ 1 then .next s
    else if incomplete then
      .next (({ s with sigs := s.sigs.put entry {} { x with tap := rest } }).bump (Obj.sigSkipped entry) 1)
    else
      let g := s.dom (Obj.sigGolden entry)
      let (ok, place) := sigCompare (s.obj (Obj.sigMode entry)) (goldenList (g.length / 4) g) x.place sig
      let s := { s with sigs := s.sigs.put entry {} ⟨rest, place⟩ }
      if ok then .next (s.bump (Obj.sigMatches entry) 1)
      else
        .next (((s.bump (Obj.sigMismatches entry) 1).setObj (Obj.sigLastMismatch entry) (timeVal t)).serviceNote 3 entry 1 sig s.tick)

/-- A write of GOLDEN (R618): the list takes effect and the sequence is unlocked. -/
def State.writeGolden (s : State) (k : Nat) (b : Bytes) (t : Tick) : State × ObjOut :=
  let key := Obj.sigGolden k
  if b.length % 4 ≠ 0 then (s, rejOut key)
  else
    let old := s
    let x := s.sigs.getD k {}
    let s := { (s.setDom key b) with sigs := s.sigs.put k {} { x with place := none } }
    (s.serviceEffects old [key] t, okOut key (.byt b))

/-- A write of RESEND (R619): the capture joins those still to send. -/
def State.resend (s : State) (k v : Nat) : State × ObjOut :=
  let x := s.streams.getD k {}
  ({ s with streams := s.streams.put k {} { x with todo := x.todo ++ [v] } }, okOut (Obj.streamResend k) (.num v))

end Sys2Proof.Machine
end

