-- ==== Sys2Proof/Machine/Deflate.lean ====
section
/-! DEFINITION. The streams of the export deflater (R480, R481, R488): the code of RFC 1951 for literals, matches and blocks, the choice among the
block types and the reserve of the output. Match selection and dynamic code lengths are the maker's (R481); the model takes any matches
that repeat the bytes before them and any header that gives every symbol of the block a code. -/

namespace Sys2Proof.Machine

/-- Bytes of output that stay free after every symbol (R488). -/
abbrev deflReserve : Nat := 16

/-- The most input bytes of a block (R481). -/
abbrev deflBlock : Nat := 16384

/-- The window (R480). -/
abbrev deflWindow : Nat := 32768

/-- A code of n bits, its most significant bit first. -/
def codeBits (n c : Nat) : List Bool := (below n).map (fun i => bit c (n - 1 - i))

/-- A value of n bits, its least significant bit first. -/
def extraBits (n v : Nat) : List Bool := (below n).map (bit v)

/-- The canonical code of a symbol (R461). -/
def canonical (lens : List Nat) (s : Nat) : List Bool :=
  let n := lens.getD s 0
  codeBits n (firstCode lens n + ((lens.take s).filter (· == n)).length)

/-- Symbol, number of extra bits and their value for a match length of RFC 1951, 3 to 258. -/
def lengthSymbol (len : Nat) : Nat × Nat × Nat :=
  if len = 258 then (285, 0, 0)
  else
    let l := len - 3
    if l < 8 then (257 + l, 0, 0)
    else
      let n := Nat.log2 l - 2
      (257 + 4 * n + l / 2 ^ n, n, l % 2 ^ n)

/-- Symbol, number of extra bits and their value for a distance of RFC 1951, 1 to 32,768. -/
def distanceSymbol (dist : Nat) : Nat × Nat × Nat :=
  let d := dist - 1
  if d < 4 then (d, 0, 0)
  else
    let n := Nat.log2 d - 1
    (2 * n + d / 2 ^ n, n, d % 2 ^ n)

/-- One symbol of a block. -/
inductive DeflSymbol where
  | literal (b : Nat)
  | copy (len dist : Nat)
deriving DecidableEq, Repr

/-- The input bytes that a symbol covers. -/
def DeflSymbol.covers : DeflSymbol → Nat
  | .literal _ => 1
  | .copy len _ => len

/-- The bits of a symbol under the code lengths of literals and lengths, and of distances. -/
def DeflSymbol.coded (lit dist : List Nat) : DeflSymbol → List Bool
  | .literal b => canonical lit b
  | .copy len d =>
    let (ls, ln, lv) := lengthSymbol len
    let (ds, dn, dv) := distanceSymbol d
    canonical lit ls ++ extraBits ln lv ++ canonical dist ds ++ extraBits dn dv

/-- Does a code give a symbol its bits? -/
def DeflSymbol.hasCode (lit dist : List Nat) : DeflSymbol → Bool
  | .literal b => lit.getD b 0 != 0
  | .copy len d => lit.getD (lengthSymbol len).1 0 != 0 && dist.getD (distanceSymbol d).1 0 != 0

/-- The code lengths of BTYPE 1 for literals and lengths. -/
def fixedLit : List Nat := List.replicate 144 8 ++ List.replicate 112 9 ++ List.replicate 24 7 ++ List.replicate 8 8

/-- The code lengths of BTYPE 1 for distances. -/
def fixedDist : List Nat := List.replicate 30 5

/-- Is it a match: a length of 3 to 258, a distance within the window and the stream, and the bytes that stand there? The stream's bytes
before it come latest first. -/
def isMatch (before input : Bytes) (len dist : Nat) : Bool :=
  let far := (before.take dist).reverse
  decide (3 ≤ len ∧ len ≤ 258 ∧ 1 ≤ dist ∧ dist ≤ deflWindow ∧ far.length = dist ∧ (input.take len).length = len)
    && ((far ++ input).take len == input.take len)

/-- The symbols of a block from the maker's matches; a match that is none is a literal. -/
def blockSymbols : Nat → Bytes → Bytes → List (Option (Nat × Nat)) → List DeflSymbol
  | 0, _, _, _ => []
  | _ + 1, _, [], _ => []
  | _ + 1, _, input, [] => input.map (fun b => .literal b.toNat)
  | _ + 1, _, _, none :: _ => []
  | f + 1, before, b :: input, some (len, dist) :: more =>
    if isMatch before (b :: input) len dist then
      .copy len dist :: blockSymbols f (((b :: input).take len).reverse ++ before) ((b :: input).drop len) more
    else .literal b.toNat :: blockSymbols f (b :: before) input more

/-- The symbols of the next block (R481), which covers at least one byte. -/
def nextBlock (history input : Bytes) (mode : Nat) : List DeflSymbol :=
  let input := input.take deflBlock
  match blockSymbols input.length history.reverse input (Config.deflateMatches history input mode) with
  | [] => (input.take 1).map (fun b => .literal b.toNat)
  | l => l

/-- The input bytes that symbols cover. -/
def coverOf (l : List DeflSymbol) : Nat := (l.map DeflSymbol.covers).sum

/-! ## The header of a dynamic block -/

/-- The order of the code lengths of the code length code. -/
def clOrder : List Nat := [16, 17, 18, 0, 8, 7, 9, 6, 10, 5, 11, 4, 12, 3, 13, 2, 14, 1, 15]

/-- The sum of 2^(15 - n) over the lengths of the used symbols: 2^15 for a complete code. -/
def kraft (lens : List Nat) : Nat := ((lens.filter (· != 0)).map (fun n => 2 ^ (15 - n))).sum

/-- The code lengths that a header's run-length code spells: n of them, and the bits left. -/
def readLens (cl : List Nat) : Nat → Nat → List Nat → List Bool → Option (List Nat × List Bool)
  | 0, _, _, _ => none
  | f + 1, n, got, s =>
    if n ≤ got.length then (if got.length = n then some (got, s) else none)
    else
      match nextSymbol cl 7 0 0 s with
      | none => none
      | some (y, s) =>
        if y < 16 then readLens cl f n (got ++ [y]) s
        else
          let (k, base, v) := if y = 16 then (2, 3, got.getLastD 0) else if y = 17 then (3, 3, 0) else (7, 11, 0)
          if y = 16 ∧ got = [] then none
          else
            match takeBits k s with
            | some (r, s) => readLens cl f n (got ++ List.replicate (base + r) v) s
            | none => none

/-- The code lengths that a dynamic header gives, of literals and lengths and of distances, and the bits after it; none where RFC 1951 does not
allow it. -/
def takeHeader (s : List Bool) : Option (List Nat × List Nat × List Bool) :=
  match takeBits 5 s with
  | none => none
  | some (hlit, s) =>
    match takeBits 5 s with
    | none => none
    | some (hdist, s) =>
      match takeBits 4 s with
      | none => none
      | some (hclen, s) =>
        let m := hclen + 4
        let cl := (below 19).map (fun y => match clOrder.findIdx? (· == y) with
          | some i => if i < m then natOfBits ((s.drop (3 * i)).take 3) else 0
          | none => 0)
        let n := hlit + 257
        if 29 < hlit ∨ 29 < hdist ∨ s.length < 3 * m ∨ kraft cl ≠ 2 ^ 15 then none
        else
          match readLens cl 317 (n + hdist + 1) [] (s.drop (3 * m)) with
          | some (l, s) =>
            let (lit, dist) := (l.take n, l.drop n)
            if kraft lit = 2 ^ 15 ∧ lit.getD 256 0 ≠ 0
                ∧ (kraft dist = 2 ^ 15 ∨ dist.filter (· != 0) = [] ∨ dist.filter (· != 0) = [1]) then some (lit, dist, s)
            else none
          | none => none

/-- The code lengths of bits that are a dynamic header and nothing more. -/
def readHeader (s : List Bool) : Option (List Nat × List Nat) :=
  match takeHeader s with
  | some (lit, dist, []) => some (lit, dist)
  | _ => none

/-- A code that gives every symbol bits: it stands where the maker's header gives a symbol of the block none. -/
def flatLit : List Nat := List.replicate 226 8 ++ List.replicate 60 9

/-- The distances of that code. -/
def flatDist : List Nat := List.replicate 2 4 ++ List.replicate 28 5

/-- The header of that code: its code lengths 4, 5, 8 and 9 have codes of two bits. -/
def flatHeader : List Bool :=
  let cl := (below 19).map (fun y => if y = 4 ∨ y = 5 ∨ y = 8 ∨ y = 9 then 2 else 0)
  extraBits 5 29 ++ extraBits 5 29 ++ extraBits 4 15 ++ clOrder.flatMap (fun y => extraBits 3 (cl.getD y 0))
    ++ (flatLit ++ flatDist).flatMap (canonical cl)

/-- The dynamic form of a block (R481): header bits after BTYPE, code lengths of literals and lengths, and of distances. -/
def dynamicCode (l : List DeflSymbol) : List Bool × List Nat × List Nat :=
  let h := Config.deflateHeader (l.map (fun y => match y with | .literal b => (0, b) | .copy len d => (len, d)))
  match readHeader h with
  | some (lit, dist) => if l.all (DeflSymbol.hasCode lit dist) then (h, lit, dist) else (flatHeader, flatLit, flatDist)
  | none => (flatHeader, flatLit, flatDist)

/-! ## Writing blocks -/

/-- An output as it is written: the pieces of bits, latest first, their number, the input bytes covered, the symbols that may still come, and
whether a symbol has found too little output left. -/
structure Deflated where
  pieces : List (List Bool)
  pos : Nat
  used : Nat
  budget : Nat
  full : Bool
deriving DecidableEq, Repr

/-- An output that begins with bytes. -/
def Deflated.begin (b : Bytes) (budget : Nat) : Deflated :=
  { pieces := [bitsOfBytes b], pos := 8 * b.length, used := 0, budget := budget, full := false }

/-- Bits that cover no input. -/
def Deflated.put (e : Deflated) (b : List Bool) : Deflated := { e with pieces := b :: e.pieces, pos := e.pos + b.length }

/-- Zeros up to a byte boundary. -/
def Deflated.pad (e : Deflated) : Deflated := e.put (List.replicate ((8 - e.pos % 8) % 8) false)

/-- The symbols of a block, each only where the reserve stays (R488). -/
def Deflated.symbols (outLen : Nat) (lit dist : List Nat) : List DeflSymbol → Deflated → Deflated
  | [], e => e
  | y :: t, e =>
    let b := y.coded lit dist
    if e.budget = 0 then e
    else if outLen < ceilDiv (e.pos + b.length) 8 + deflReserve then { e with full := true }
    else ({ e.put b with used := e.used + y.covers, budget := e.budget - 1 } : Deflated).symbols outLen lit dist t

/-- A block of BTYPE 1 or 2: begun only where its first symbol fits, and ended with its end-of-block code. -/
def Deflated.coded (e : Deflated) (outLen btype : Nat) (header : List Bool) (lit dist : List Nat) (l : List DeflSymbol) : Deflated :=
  let d := (e.put (false :: extraBits 2 btype ++ header)).symbols outLen lit dist l
  if d.used = e.used then { e with full := d.full } else d.put (canonical lit 256)

/-- A block of BTYPE 0 of the input's first n bytes: of as many as leave the reserve, each a symbol. -/
def Deflated.stored (e : Deflated) (outLen n : Nat) (input : Bytes) : Deflated :=
  let room := outLen - (ceilDiv (e.pos + 3) 8 + 4 + deflReserve)
  let m := min (min n room) e.budget
  if m = 0 then { e with full := decide (e.budget ≠ 0) }
  else
    let d := ((e.put [false, false, false]).pad.put (bitsOfBytes (le 2 m ++ le 2 (65535 - m)))).put (bitsOfBytes (input.take m))
    { d with used := e.used + m, budget := e.budget - m, full := decide (m < n ∧ m < e.budget) }

/-- The bits of symbols with their end-of-block code. -/
def codedSize (lit dist : List Nat) (l : List DeflSymbol) : Nat :=
  ((l.map (fun y => (y.coded lit dist).length)).sum) + lit.getD 256 0

/-- One block (R481): of AUTO the smallest form, of a forced type that type; a dynamic header that would not leave the reserve gives way to BTYPE 1. -/
def Deflated.block (e : Deflated) (outLen mode : Nat) (l : List DeflSymbol) (input : Bytes) : Deflated :=
  let n := coverOf l
  let (h, lit, dist) := dynamicCode l
  let sized : List (Nat × Nat) :=
    [(8 * (ceilDiv (e.pos + 3) 8 + 4 + n) - e.pos, 0), (3 + codedSize fixedLit fixedDist l, 1), (3 + h.length + codedSize lit dist l, 2)]
  let least := sized.foldl (fun (a : Nat × Nat) b => if b.1 < a.1 then b else a) (sized.headD (0, 0))
  let btype := if mode = 0 then least.2 else mode - 1
  if btype = 0 then e.stored outLen n input
  else if btype = 2 ∧ ceilDiv (e.pos + 3 + h.length) 8 + deflReserve ≤ outLen then e.coded outLen 2 h lit dist l
  else e.coded outLen 1 [] fixedLit fixedDist l

/-- The blocks of an input (R481), until its end, a full output or the last symbol of the budget; where more input may come, only
those that all of a block's input is there for. -/
def deflateBlocks (outLen mode : Nat) (ended : Bool) : Nat → Bytes → Bytes → Deflated → Deflated
  | 0, _, _, e => e
  | f + 1, history, input, e =>
    if input = [] ∨ e.full ∨ e.budget = 0 ∨ (ended = false ∧ input.length < deflBlock) then e
    else
      let l := nextBlock history input mode
      let n := coverOf l
      deflateBlocks outLen mode ended f (lastN deflWindow (history ++ input.take n)) (input.drop n) (e.block outLen mode l input)

/-- The output's end (R488, R489): an empty stored block, BFINAL with `final`, to a byte boundary. -/
def Deflated.close (e : Deflated) (final : Bool) : Bytes :=
  bytesOfBits ((e.put [final, false, false]).pad.pieces.reverse.flatten) ++ [0, 0, 0xFF, 0xFF]

/-! ## Inflating (R492) -/

/-- The least match length of a symbol of RFC 1951 above 256, and its number of extra bits. -/
def lengthOf (y : Nat) : Nat × Nat :=
  let k := y - 257
  if y = 285 then (258, 0) else if k < 8 then (3 + k, 0) else (3 + (4 + k % 4) * 2 ^ (k / 4 - 1), k / 4 - 1)

/-- The least distance of a distance symbol, and its number of extra bits. -/
def distanceOf (d : Nat) : Nat × Nat :=
  if d < 4 then (d + 1, 0) else (1 + (2 + d % 2) * 2 ^ (d / 2 - 1), d / 2 - 1)

/-- The symbols of a block of BTYPE 1 or 2 up to its end-of-block code: the stream's bytes, latest first, and the bits left. -/
def inflateSymbols (lit dist : List Nat) : Nat → Bytes → List Bool → Option (Bytes × List Bool)
  | 0, _, _ => none
  | f + 1, out, s =>
    match nextSymbol lit 15 0 0 s with
    | none => none
    | some (y, s) =>
      if y < 256 then inflateSymbols lit dist f (BitVec.ofNat 8 y :: out) s
      else if y = 256 then some (out, s)
      else
        match takeBits (lengthOf y).2 s with
        | none => none
        | some (v, s) =>
          match nextSymbol dist 15 0 0 s with
          | none => none
          | some (d, s) =>
            match takeBits (distanceOf d).2 s with
            | none => none
            | some (w, s) =>
              let far := (distanceOf d).1 + w
              if 285 < y ∨ 29 < d ∨ out.length < far then none
              else inflateSymbols lit dist f ((below ((lengthOf y).1 + v)).foldl (fun o _ => o.getD (far - 1) 0 :: o) out) s

/-- The blocks of whole bytes, until a final block or the end: the stream's bytes, latest first, and the bits after the last block. -/
def inflateBlocks : Nat → Bytes → List Bool → Option (Bytes × List Bool)
  | 0, _, _ => none
  | f + 1, out, s =>
    match s with
    | [] => some (out, [])
    | final :: s =>
      let body : Option (Bytes × List Bool) :=
        match takeBits 2 s with
        | some (0, s) =>
          let s := s.drop (s.length % 8)
          let n := natOfBits (s.take 16)
          if s.length < 32 + 8 * n ∨ n + natOfBits ((s.drop 16).take 16) ≠ 65535 then none
          else some ((bytesOfBits ((s.drop 32).take (8 * n))).reverse ++ out, s.drop (32 + 8 * n))
        | some (1, s) => inflateSymbols fixedLit fixedDist (s.length + 1) out s
        | some (2, s) =>
          match takeHeader s with
          | some (lit, dist, s) => inflateSymbols lit dist (s.length + 1) out s
          | none => none
        | _ => none
      match body with
      | none => none
      | some (out, s) => if final then some (out, s) else inflateBlocks f out s

/-- Does an output after a history inflate to bytes of the CRC-32 of the input, its blocks ending on a byte boundary (R492)? -/
def inflatesTo (history output input : Bytes) : Bool :=
  match inflateBlocks (output.length + 1) history.reverse (bitsOfBytes output) with
  | some (out, s) => crc32 (out.take (out.length - history.length)).reverse == crc32 input && s.length % 8 == 0
  | none => false

end Sys2Proof.Machine
end

