-- ==== Sys2Proof/Machine/Jobs.lean ====
section
/-! DEFINITION. The export deflater (chapter "Stitch coder, Filet track and export deflater", R480-R495): jobs, the state
slots behind the handles, the end of a job with its output and JOB_RESULT. -/

namespace Sys2Proof.Machine

/-- Outcomes of R486. -/
abbrev joDone : Nat := 0
abbrev joOutFull : Nat := 1
abbrev joEmpty : Nat := 2
abbrev joVerifyFail : Nat := 3
abbrev joNoPage : Nat := 4
abbrev joNoHandle : Nat := 5
abbrev joBadHandle : Nat := 6
abbrev joMemError : Nat := 7
abbrev joRevoked : Nat := 8
abbrev joAborted : Nat := 9
abbrev joDestFail : Nat := 10

/-- A state slot. -/
def State.defl (s : State) (i : Nat) : DeflSlot := s.deflSlots.getD i {}

/-- Give a state slot its state. -/
def State.setDefl (s : State) (i : Nat) (x : DeflSlot) : State := { s with deflSlots := s.deflSlots.put i {} x }

/-- Is a state slot neither named by a handle nor held by a job (R487)? -/
def DeflSlot.free (x : DeflSlot) : Bool := !x.live && x.job.isNone

/-- The slot that a valid handle names (R487, R490). -/
def State.handleSlot (s : State) (h : Nat) : Option Nat :=
  let i := h % 256
  if h < 65536 ∧ i < 16 ∧ (s.defl i).live ∧ (s.defl i).gen = h / 256 then some i else none

/-- HANDLES_FREE and JOB_STATE (R494). -/
def State.jobView (s : State) (k : Key) : Option Nat :=
  if k = Obj.deflHandlesFree then some ((below 16).filter (fun i => (s.defl i).free)).length else none

/-- The 48 bytes of JOB_RESULT (R485). -/
def jobResult (start stop outcome handle produced consumed total crc : Nat) : Bytes :=
  le 8 start ++ le 8 stop ++ zeros 1 ++ le 1 outcome ++ le 2 handle ++ le 4 produced ++ le 8 consumed ++ le 8 total ++ zeros 4 ++ le 4 crc

/-- A job has ended: JOB_RESULT, JOB_STATE, the count and the notification on the issuing port (R485, R494, R495, R532). -/
def State.jobEnded (s : State) (j : Nat) (notify : Bool) (port : Nat) (r : Bytes) (consumed produced : Nat) (t : Tick) : State :=
  let s := ((s.setDom (Obj.jobJobResult j) r).setObj (Obj.jobJobState j) 3).bump Obj.deflCntDeflateJobs 1
  let s := (s.bump Obj.deflCntDeflateBytesIn consumed).bump Obj.deflCntDeflateBytesOut produced
  let n : Note := ⟨8, j, t, fieldAt r 16 8⟩
  if !notify then s
  else if port = 0 then s.noteHost n
  else if port = 1 then (below 8).foldl (fun s k => s.noteSub n k) s
  else s

/-- A job refused at acceptance: its outcome stands in JOB_RESULT (R486). -/
def State.jobRefused (s : State) (j outcome handle : Nat) (t : Tick) : State :=
  (s.setDom (Obj.jobJobResult j) (jobResult t t outcome handle 0 0 0 0)).setObj (Obj.jobJobState j) 3

/-! ## The wrapper (R480) -/

/-- The header that the first job of a stream writes. -/
def wrapHeader (w : Nat) : Bytes :=
  if w = 1 then [0x78, 0x9C] else if w = 2 then [0x1F, 0x8B, 8, 0, 0, 0, 0, 0, 0, 0xFF] else []

/-- Adler-32 carried on over bytes. -/
def adlerRun (c : Nat) (b : Bytes) : Nat :=
  let r := b.foldl (fun (p : Nat × Nat) x => let a := (p.1 + x.toNat) % 65521; (a, (p.2 + a) % 65521)) (c % 65536, c / 65536)
  r.1 + 65536 * r.2

/-- The running check value before any input. -/
def checkInit (w : Nat) : Nat := if w = 1 then 1 else 0xFFFFFFFF

/-- The running check value after bytes. -/
def checkRun (w c : Nat) (b : Bytes) : Nat := if w = 1 then adlerRun c b else crc32Run c b

/-- The trailer at the end of the stream. -/
def wrapTrailer (w check total : Nat) : Bytes :=
  if w = 1 then be 4 check else if w = 2 then le 4 (check ^^^ 0xFFFFFFFF) ++ le 4 total else []

/-! ## Ending a job -/

/-- What a job's run gives before its output is delivered: outcome, input bytes consumed, output. -/
structure JobRun where
  outcome : Nat
  consumed : Bytes
  output : Bytes
deriving DecidableEq, Repr

/-- The page that a job reads, where its lease stands. -/
def State.jobPage (s : State) (j : Job) : Option Page :=
  match j.lease.bind s.cmm.leaseOf with
  | some l => (s.leasePages l).head?
  | none => none

/-- Has a running job's lease been revoked before its end (R402)? -/
def State.jobRevoked (s : State) (j : Job) : Bool := j.lease.any (fun id => (s.cmm.leaseOf id).isNone)

/-- Give up the lease of a job, without CONSUME (R482). -/
def State.jobUnlease (s : State) (j : Job) : State :=
  match j.lease with
  | some id => s.endLease id false false
  | none => s

/-- A job comes to a page, which it reads under a lease of its own (R24, R482); none is NO_PAGE. -/
def State.jobLease (s : State) (ix : Nat) (j : Job) (q capture seq off left : Nat) : State :=
  let set_ (s : State) (lease cut : Option Nat) : State :=
    { s with jobs := s.jobs.set ix { j with lease := lease, page := seq, at_ := off, left := left, cut := cut } }
  if left = 0 then set_ s none none
  else
    match (s.takeLease 0x50 q capture seq 1 (s.obj Obj.cmmLeaseTimeoutMs) false).1 with
    | some (id, s) => set_ s (some id) none
    | none => set_ s none (some joNoPage)

/-- The running job reads on in tick u (R482, R483): up to 16 bytes of its page; a page that it no longer needs is released, and the next one leased;
an uncorrectable burst stops it (R486). -/
def State.jobTick (s : State) (u : Tick) : State :=
  match s.jobs.find? (fun e => e.2.running) with
  | none => s
  | some (ix, j) =>
    if j.left = 0 ∨ j.cut.isSome then s
    else
      match s.jobPage j, j.lease.bind s.cmm.leaseOf with
      | some p, some l =>
        let m := min (min 16 j.left) (256 - j.at_ % 256)
        let got := j.got ++ s.pageRead p.pfn j.at_ m
        let first : Bool := j.got == []
        let bad := s.readBad p.pfn j.at_ m first
        let s := s.countRead p.pfn j.at_ m first
        if bad then { s with jobs := s.jobs.set ix { j with cut := some joMemError } }
        else if j.left = m ∨ 65536 ≤ j.at_ + m then
          (s.jobUnlease j).jobLease ix { j with got := got } l.queue l.capture (j.page + 1) 0 (j.left - m)
        else
          let s := s.touchLease (j.lease.getD 0) u
          { s with jobs := s.jobs.set ix { j with got := got, at_ := j.at_ + m, left := j.left - m } }
      | _, _ => { s with jobs := s.jobs.set ix { j with lease := none, cut := some joRevoked } }

/-- The blocks that a job writes over the input it has read: of a budget of symbols, and only whole blocks where more input may come. -/
def jobBlocks (j : Job) (x : DeflSlot) (fresh : Bool) (budget : Nat) (ended : Bool) : Deflated :=
  deflateBlocks j.outLen j.block ended j.got.length x.history j.got
    (Deflated.begin (if fresh then wrapHeader x.wrapper else []) budget)

/-- The work of a job over the input that it has read, in symbols of a budget: `stop` is the cause that ends it (R488, R489). -/
def jobWork (j : Job) (x : DeflSlot) (fresh : Bool) (budget : Nat) (stop : Option Nat) : JobRun :=
  if j.op = 3 ∧ stop = none then
    { outcome := joDone, consumed := [], output := [1, 0, 0, 0xFF, 0xFF] ++ wrapTrailer x.wrapper x.check x.total }
  else
    let d := jobBlocks j x fresh budget true
    let c := j.got.take d.used
    if d.full then { outcome := joOutFull, consumed := c, output := d.close false }
    else
      match stop with
      | some e => { outcome := e, consumed := c, output := d.close false }
      | none =>
        { outcome := joDone, consumed := c,
          output := d.close x.final ++ (if x.final then wrapTrailer x.wrapper (checkRun x.wrapper x.check c) (x.total + c.length) else []) }

/-- The stream state a job works on: a new one, or that of its handle with the input it names (R487, R490). -/
def State.jobStream (s : State) (j : Job) : DeflSlot :=
  let x := s.defl j.slot
  if j.op = 1 ∧ !j.cont then
    { gen := x.gen, job := x.job, wrapper := j.wrapper, check := checkInit j.wrapper, final := j.final, queue := j.queue, capture := j.capture,
      first := j.first, offset := j.offset, remain := j.inLen }
  else if j.op = 1 then
    { x with final := j.final, queue := j.queue, capture := j.capture, first := j.first, offset := j.offset, remain := j.inLen }
  else x

/-- Write bytes into the service memory, which is 1 MiB (R600). -/
def State.setShm (s : State) (a : Nat) : Bytes → State
  | [] => s
  | b :: t => ({ s with shm := Tab.put s.shm a 0 b }).setShm (a + 1) t

/-- Read bytes of the service memory. -/
def State.shmBytes (s : State) (a n : Nat) : Bytes := (upFrom n a).map (fun i => Tab.getD s.shm i 0)

/-- Deliver the output of a job (R484). -/
def State.jobOutput (s : State) (j : Job) (o : Bytes) : State :=
  if o = [] then s else if j.dest = 0 then s.emit (.hostWrite j.addr o) else s.setShm j.addr o

/-- A job is over: its slot is free of it, its handle is the one given. -/
def State.jobClose (s : State) (ix : Nat) (j : Job) (slot : DeflSlot) (outcome consumed produced total crc : Nat) (t : Tick) : State :=
  let slot := { slot with job := none, named := t }
  let s := (s.jobUnlease j).setDefl j.slot (if slot.live then slot else { gen := slot.gen })
  let handle := if slot.live then j.slot + 256 * slot.gen else 0xFFFF
  let s := { s with jobs := s.jobs.del ix }
  s.jobEnded ix j.notify j.iss.port (jobResult j.startAt t outcome handle produced consumed total crc) consumed produced t

/-- Can an output reach its destination: a HOST job needs bus mastering (R594, R595)? -/
def State.destUp (s : State) (j : Job) : Bool := j.dest ≠ 0 || s.host.busMaster

/-- The deflater's own check of a job (R492): what follows the wrapper's header inflates to the input consumed. -/
def JobRun.checks (r : JobRun) (x : DeflSlot) (fresh : Bool) : Bool :=
  inflatesTo x.history (if fresh then r.output.drop (wrapHeader x.wrapper).length else r.output) r.consumed

/-- A job ends (R485-R492). -/
def State.jobFinish (s : State) (ix : Nat) (j : Job) (verifyFail destFail memError : Bool) (t : Tick) : State :=
  let old := s.defl j.slot
  let x := s.jobStream j
  let fresh : Bool := j.op = 1 && !j.cont
  let memError := memError && j.op ≠ 3
  let stop : Option Nat := if j.abort then some joAborted else if s.jobRevoked j then some joRevoked else if memError then some joMemError else j.cut
  let (budget, s) := if stop.isSome then s.fresh else (j.got.length, s)
  let s := match memError, s.jobPage j with
    | true, some p => s.bump (Obj.mcCntUncorrectable (s.chunkChannel p.pfn j.at_)) 1
    | _, _ => s
  let r := jobWork j x fresh budget stop
  let c := r.consumed
  let check := checkRun x.wrapper x.check c
  let total := x.total + c.length
  let crc := crc32 c
  if verifyFail ∨ !r.checks x fresh then
    (s.bump Obj.deflCntDeflateVerifyFails 1 |>.jobOutput j r.output).jobClose ix j old joVerifyFail c.length r.output.length total crc t
  else if destFail ∨ !s.destUp j then
    let (a, s) := s.fresh
    let (b, s) := s.fresh
    let out := r.output.take (a % (r.output.length + 1))
    let c := c.take (b % (c.length + 1))
    (s.jobOutput j out).jobClose ix j old joDestFail c.length out.length (x.total + c.length) (crc32 c) t
  else
    let s := s.jobOutput j r.output
    if r.outcome = joDone ∧ (j.op = 3 ∨ x.final) then
      s.jobClose ix j { gen := old.gen } joDone c.length r.output.length total crc t
    else
      let left := x.remain - c.length
      let pos := x.offset + c.length
      let slot := { x with gen := (old.gen + 1) % 256, live := true, history := lastN 32768 (x.history ++ c), check := check, total := total,
                           first := x.first + pos / 65536, offset := pos % 65536, remain := left }
      s.jobClose ix j slot r.outcome c.length r.output.length total crc t

/-- Does a job that names a handle no longer have its stream (R487, R490): the handle is stale or free, or it has input still to consume? -/
def State.jobStale (s : State) (j : Job) : Bool :=
  !(j.op = 1 && !j.cont) && (s.handleSlot j.handle != some j.slot || (j.cont && (s.defl j.slot).remain ≠ 0))

/-- A job ends that has no stream to write back (R485, R486). -/
def State.jobDrop (s : State) (ix : Nat) (j : Job) (outcome : Nat) (t : Tick) : State :=
  ({ s with jobs := s.jobs.del ix } : State).jobEnded ix j.notify j.iss.port (jobResult t t outcome 0xFFFF 0 0 0 (crc32 [])) 0 0 t

/-- A job is ended ABORTED (R491, R669, R673), a queued one with no input read; one whose handle is stale, or held by the running job,
ends without it. -/
def State.jobAbort (s : State) (ix : Nat) (t : Tick) : State :=
  match s.jobs.find ix with
  | none => s
  | some j =>
    if j.running then s.jobFinish ix { j with abort := true } false false false t
    else if s.jobStale j || (s.defl j.slot).job.any (· ≠ ix) then s.jobDrop ix j joAborted t
    else s.jobFinish ix { j with abort := true, startAt := t } false false false t

/-- Every job ends ABORTED, and with `release` every handle is released (R669, R673). -/
def State.abortJobs (s : State) (release : Bool) (t : Tick) : State :=
  let s := s.jobs.keys.foldl (fun s j => s.jobAbort j t) s
  if release then { s with deflSlots := s.deflSlots.map (fun e => (e.1, { gen := e.2.gen })) } else s

/-! ## JOB_DESC (R484) -/

/-- The outcome of a write of JOB_DESC of job slot `ix` that acts at the boundary of tick t (R483, R484, R489-R491). -/
def State.jobDesc (s : State) (iss : Issuer) (ix : Nat) (b : Bytes) (t : Tick) : State × ObjOut :=
  let k := Obj.jobJobDesc ix
  let op := fieldAt b 0 1
  let flags := fieldAt b 4 1
  let wrapper := fieldAt b 5 1
  let block := fieldAt b 6 1
  let dest := fieldAt b 7 1
  let handle := fieldAt b 24 2
  let queue := fieldAt b 26 2
  let queueC := min queue 4095
  let offset := fieldAt b 36 4
  let inLen := fieldAt b 40 8
  let out := fieldAt b 52 4
  let addr := fieldAt b 56 8
  let busy := (s.jobs.find ix).isSome
  if busy ∧ op ≠ 4 then (s, badOut k stBusy 0)
  else if op = 0 then (s, emptyOut k)
  else if 4 < op then (s, rejOut k)
  else if out = 0 then (s, emptyOut k)
  else
    let start : Bool := op = 1
    let cont : Bool := start && bit flags 2
    let outC := min out 16777216
    if out < 1024 ∨ 1 < dest ∨ (dest = 1 ∧ iss.port ≠ 2) ∨ (dest = 1 ∧ 2 ^ 20 < addr + outC) ∨ 3 < block
        ∨ ((op = 4 ∨ (start ∧ !cont)) ∧ 2 < wrapper) ∨ (start ∧ 65535 < offset) then (s, rejOut k)
    else
      let rep := (if fieldAt b 1 3 ≠ 0 then [domField k stClamped rpCleared 1 0] else [])
        ++ (if 7 < flags then [domField k stClamped rpCleared 4 3] else [])
        ++ (if slice b 8 16 ≠ zeros 16 then [domField k stClamped rpCleared 8 0] else [])
        ++ (if start ∧ queueC < queue then [domField k stClamped rpLowered 26 0] else [])
        ++ (if fieldAt b 48 4 ≠ 0 then [domField k stClamped rpCleared 48 0] else [])
        ++ (if outC < out then [domField k stClamped rpLowered 52 0] else [])
      let job (slot : Nat) : Job :=
        { op := op, final := bit flags 0, notify := bit flags 1, cont := cont, wrapper := wrapper, block := block, dest := dest, addr := addr,
          outLen := outC, queue := queueC, capture := fieldAt b 28 4, first := fieldAt b 32 4, offset := offset, inLen := inLen,
          handle := handle, iss := iss, slot := slot, order := s.jobOrder }
      let accept (s : State) (j : Job) : State :=
        ({ s with jobs := s.jobs.set ix j, jobOrder := s.jobOrder + 1 } : State).setObj (Obj.jobJobState ix) 1
      let handleOk : Option Nat := (s.handleSlot handle).filter (fun i => !cont || (s.defl i).remain = 0)
      if op = 4 then
        match s.jobs.find ix with
        | none => (s, rejOut k)
        | some j =>
          (if j.running then { s with jobs := s.jobs.set ix { j with abort := true } } else s.jobAbort ix t, clampedOut k (.byt b) rep)
      else if start && inLen = 0 then
        (s.jobEnded ix (bit flags 1) iss.port (jobResult t t joEmpty 0xFFFF 0 0 0 (crc32 [])) 0 0 t, emptyOut k)
      else if start && !cont then
        match (below 16).find? (fun i => (s.defl i).free) with
        | none => (s.jobRefused ix joNoHandle 0xFFFF t, rejOut k)
        | some i => (accept (s.setDefl i { gen := (s.defl i).gen, job := some ix }) (job i), clampedOut k (.byt b) rep)
      else
        match handleOk with
        | none => (s.jobRefused ix joBadHandle 0xFFFF t, rejOut k)
        | some i => (accept (s.setDefl i { s.defl i with named := t }) (job i), clampedOut k (.byt b) rep)

/-- JOB_RUN (R482, R483): the next accepted job runs when the deflater is free. -/
def execJobRun (s : State) : Ans :=
  if !s.booted ∨ s.obj Obj.devDevState = 5 ∨ s.jobs.any (fun e => e.2.running) then .next s
  else
    match s.jobs.foldl (fun (best : Option (Nat × Job)) e => match best with
        | none => some e
        | some c => if e.2.order < c.2.order then some e else best) none with
    | none => .next s
    | some (ix, j) =>
      let t := s.tick
      if s.jobStale j then .next (s.jobDrop ix j joBadHandle t)
      else
        let x := s.jobStream j
        let s := s.setDefl j.slot { s.defl j.slot with job := some ix, named := t }
        let j := { j with running := true, startAt := t }
        .next ((s.jobLease ix j x.queue x.capture x.first x.offset (if j.op = 3 then 0 else x.remain)).setObj (Obj.jobJobState ix) 2)

/-- Has a running job come to its end (R488, R489): it has read all its input, something has stopped it, or its output is full? -/
def State.jobOver (s : State) (j : Job) : Bool :=
  let x := s.jobStream j
  j.left == 0 || j.cut.isSome || j.abort || s.jobRevoked j || (jobBlocks j x (j.op = 1 && !j.cont) j.got.length false).full

/-- JOB_END (R485-R492): the running job ends; its verification, its destination and its reads may fail. -/
def execJobEnd (verifyFail destFail memError : Bool) (s : State) : Ans :=
  match s.jobs.find? (fun e => e.2.running) with
  | none => .next s
  | some (ix, j) => .next (if destFail || memError || s.jobOver j then s.jobFinish ix j verifyFail destFail memError s.tick else s)

/-- A write of RELEASE_HANDLE (R494). -/
def State.releaseHandle (s : State) (h : Nat) : State × ObjOut :=
  let k := Obj.deflReleaseHandle
  match s.handleSlot h with
  | none => (s, rejOut k)
  | some i =>
    let x := s.defl i
    (s.setDefl i (if x.job.isSome then { x with live := false } else { gen := x.gen }), okOut k (.num h))

/-- HANDLE_TIMEOUT (R491): a handle that no job has named for HANDLE_TIMEOUT_MS is released. -/
def execHandleTimeout (h : Nat) (s : State) : Ans :=
  match s.handleSlot h with
  | none => .next s
  | some i =>
    let x := s.defl i
    let ms := s.obj Obj.deflHandleTimeoutMs
    if ms = 0 ∨ x.job.isSome ∨ s.jobs.any (fun e => e.2.slot = i) ∨ s.tick < x.named + 1000000 * ms then .next s
    else .next (s.setDefl i { gen := x.gen })

end Sys2Proof.Machine
end

