-- ==== Sys2Proof/Machine/Bobbins.lean ====
section
/-! DEFINITION. Bobbins (chapter "Bobbins: multi-level trigger sequencing", R301-R336): evaluation, actions, the trigger
pins, cascade messages and the event reader. A branch record is the 512-bit number of R345. -/

namespace Sys2Proof.Machine

/-- A Bobbin's state behind its objects. -/
def State.bb (s : State) (b : Nat) : Bobbin := s.bbs.getD b {}

/-- Give a Bobbin its state. -/
def State.setBb (s : State) (b : Nat) (x : Bobbin) : State := { s with bbs := s.bbs.put b {} x }

/-- The branch record of a level (R344); all zero where none is listed. -/
def Bobbin.branch (x : Bobbin) (level k : Nat) : Nat := x.recs.getD (4 * level + k) 0

/-- An input's bit and event time in the tick (R304). -/
def State.bbInput (s : State) (b code : Nat) : Bool × Option SubTime :=
  if code < 0x100 then ((s.cuOut.find code).isSome, s.cuOut.find code)
  else if code < 0x108 then ((s.xs.find (code - 0x100)).isSome, s.xs.find (code - 0x100))
  else if code < 0x10C then (decide (s.obj (Obj.bbCntLimit b (code - 0x108)) ≤ s.obj (Obj.bbCnt b (code - 0x108))), none)
  else if code < 0x110 then (decide (s.obj (Obj.bbTmrLimit b (code - 0x10C)) ≤ bits (s.obj (Obj.bbTmr b (code - 0x10C))) 47 0), none)
  else (false, none)

/-- The code of input j of a branch. -/
def brIn (r j : Nat) : Nat := bits r (256 + 10 * j + 9) (256 + 10 * j)

/-- The index into TABLE (R305). -/
def State.brIndex (s : State) (b r : Nat) : Nat :=
  natOfBits ((below 8).map (fun j => (s.bbInput b (brIn r j)).1))

/-- lookback of R309. -/
def State.lookback (s : State) (r u : Nat) : Bool :=
  let h := bits r 415 408
  let w := bits r 403 384
  if h = 0xFF then true
  else
    let d := s.histDepth h u
    if bit r 405 && decide (d < w) then false
    else
      let seen := (s.rings.getD h []).any (fun p => decide ((u : Int) ≤ p + w) && decide (p < u) && decide ((u : Int) ≤ p + d))
      if bit r 404 then !seen else seen

/-- The term of a branch (R307). -/
def State.brTerm (s : State) (b r u : Nat) : Bool := bit r (s.brIndex b r) && s.lookback r u

/-- One branch in tick u (R311): its run count afterwards, and whether it is true. -/
def State.brJudge (s : State) (b r u : Nat) (entry : Tick) (run : Nat) : Nat × Bool :=
  if !bit r 336 then (run, false)
  else
    let term := s.brTerm b r u
    let dur := bits r 383 352
    match bits r 338 337 with
    | 1 => let n := if term then min (run + 1) dur else 0; (n, n == dur)
    | 2 => (run, term && decide (u - entry < dur))
    | 3 => (run, term && decide (dur ≤ u - entry))
    | _ => (run, term)

/-- The event time of a taken branch, and TIME_FALLBACK (R306). -/
def State.brTime (s : State) (b r u : Nat) : SubTime × Bool :=
  let ins := (below 8).map (fun j => s.bbInput b (brIn r j))
  let sel := bits r 342 339
  let found := if sel = 0 then latest (ins.filterMap (fun i => if i.1 then i.2 else none))
    else ((ins.getD (sel - 1) (false, none)).2)
  match found with
  | some t => (t, false)
  | none => (ofTick u, true)

/-- Capacity of an event Hoop FIFO, in words (R330). -/
abbrev evCapacity : Nat := 32

/-- An event of a Bobbin is lost (R330). -/
def State.loseEvent (s : State) (b : Nat) : State :=
  ((s.setBb b { s.bb b with lost := true }).setObj (Obj.bbEvtOverrun b) 1).bump (Obj.bbCntEventsLost b) 1

/-- Write an event into a Bobbin's FIFO (R328, R330). -/
def State.writeEvent (s : State) (b level branch mask : Nat) (trigger notify : Bool) (kind lag : Nat) (t : Tick) : State :=
  let x := s.bb b
  let w := kind + 2 ^ 2 * ofBool x.lost + 2 ^ 3 * ofBool notify + 2 ^ 4 * ofBool trigger + 2 ^ 5 * mask + 2 ^ 9 * branch + 2 ^ 11 * level
    + 2 ^ 15 * satN 14 lag + 2 ^ 29 * cut 35 t
  let s := s.setObj (Obj.bbLastEvent b) w
  if evCapacity ≤ x.fifo.length then
    (((s.loseEvent b).setObj (Obj.hoopHoopStatus (3 + b)) (s.obj (Obj.hoopHoopStatus (3 + b)) ||| 1)).bump (Obj.hoopCntOverruns (3 + b)) 1)
  else (s.setBb b { x with fifo := x.fifo ++ [w], lost := false }).bump (Obj.bbCntEvents b) 1

/-- A counter operation (R316). -/
def State.cntOp (s : State) (b j op : Nat) : State :=
  let k := Obj.bbCnt b j
  match op with
  | 1 =>
    let v := s.obj k
    if v + 1 = 2 ^ 48 then (s.setObj k 0).bump (Obj.bbCntCntWraps b) 1 else s.setObj k (v + 1)
  | 2 => s.setObj k 0
  | 3 => s.setObj k (s.obj (Obj.bbCntPreset b j))
  | _ => s

/-- A timer in one tick (R317); bit 63 of TMR says that it runs. -/
def State.tmrOp (s : State) (b j op : Nat) : State :=
  let k := Obj.bbTmr b j
  let v := bits (s.obj k) 47 0
  match op with
  | 1 => s.setObj k (2 ^ 63)
  | 2 => s.setObj k v
  | 3 => s.setObj k (2 ^ 63 + v)
  | 4 => s.setObj k 0
  | _ =>
    if !bit (s.obj k) 63 then s
    else if v + 1 = 2 ^ 48 then (s.setObj k (2 ^ 63)).bump (Obj.bbCntTmrWraps b) 1 else s.setObj k (2 ^ 63 + v + 1)

/-- Queue a cascade message of a taken branch (R324): code and source octet, and the tick from which it may leave. -/
def State.queueCasc (s : State) (p code bb u : Nat) : State :=
  let c := s.cascPort p
  if !c.sync ∨ 8 ≤ c.queue.length then s.bump (Obj.cascCascDropped p) 1
  else s.setCasc p (fun c => { c with queue := c.queue ++ [(u + 6, code, bb)] })

/-- What a Bobbin decides in a tick. -/
structure Decision where
  bb : Nat
  run : List Nat
  mask : Nat
  taken : Option Nat
  time : SubTime
  fallback : Bool
deriving DecidableEq, Repr

/-- The decision of one armed Bobbin in tick u (R311, R312). -/
def State.bbDecide (s : State) (b u : Nat) : Decision :=
  let x := s.bb b
  let level := s.obj (Obj.bbLevel b)
  let j := (below 4).map (fun k => s.brJudge b (x.branch level k) u x.entry (x.run.getD k 0))
  let mask := natOfBits (j.map (·.2))
  let taken := (below 4).find? (bit mask)
  let (t, f) := match taken with
    | some k => s.brTime b (x.branch level k) u
    | none => (0, false)
  ⟨b, j.map (·.1), mask, taken, t, f⟩

/-- Carry out a Bobbin's decision (R311, R316-R318, R323-R325, R328). -/
def State.bbAct (s : State) (u : Nat) (d : Decision) : State :=
  let b := d.bb
  let level := s.obj (Obj.bbLevel b)
  match d.taken with
  | none => (below 4).foldl (fun s j => s.tmrOp b j 0) (s.setBb b { s.bb b with run := d.run })
  | some k =>
    let r := (s.bb b).branch level k
    let go : Bool := bit r 343
    let halt : Bool := bit r 349
    let next := if go then bits r 347 344 else level
    let s := s.setBb b { s.bb b with run := if go then [0, 0, 0, 0] else d.run.set k 0, entry := if go then u + 1 else (s.bb b).entry }
    let s := s.writeEvent b next k d.mask (bit r 416) (bit r 348) (if halt then 2 else 0) (ofTick u - d.time) u
    let s := if bit r 416 then s.bump (Obj.bbCntTriggers b) 1 else s
    let s := if bit r 416 || bit r 417 || bits r 425 424 != 0 then
        { s with acts := s.acts ++ [⟨b, level, k, bit r 416, bit r 417, bits r 423 418, d.time, d.fallback, bits r 425 424, bits r 431 426⟩] }
      else s
    let s := (below 8).foldl (fun s i =>
      if bit r (440 + i) then { s with trigOut := s.trigOut.modify i {} (fun p => { p with starts := if p.starts.contains (u + 16) then p.starts else p.starts ++ [u + 16] }) } else s) s
    let s := (below 4).foldl (fun s p => if bit r (472 + p) then s.queueCasc p (bits r 487 480) b u else s) s
    let s := (below 4).foldl (fun s j => (s.cntOp b j (bits r (433 + 2 * j) (432 + 2 * j))).tmrOp b j (bits r (450 + 3 * j) (448 + 3 * j))) s
    let s := s.setObj (Obj.bbLevel b) next
    if halt then s.setObj (Obj.bbState b) 2 else s

/-- The cross-signals raised in tick u, for the next one (R314, R315): the earliest event time of the raisers. -/
def State.raised (s : State) (ds : List Decision) : Tab SubTime :=
  (below 8).filterMap (fun k =>
    (earliest (ds.filterMap (fun d => match d.taken with
      | some i => if bit ((s.bb d.bb).branch (s.obj (Obj.bbLevel d.bb)) i) (464 + k) then some d.time else none
      | none => none))).map (fun t => (k, t)))

/-- The values of a Bobbin that its own decisions set for the next tick (R316-R318). -/
def bbValues (b : Nat) : List Key :=
  [Obj.bbState b, Obj.bbLevel b] ++ (below 4).flatMap (fun j => [Obj.bbCnt b j, Obj.bbTmr b j])

/-- Every Bobbin in tick u (R311): all decide at once, then each acts, in ascending order. -/
def State.bobbinsTick (s : State) (u : Nat) : State :=
  let armed := (below 8).filter (fun b => s.obj (Obj.bbState b) = 1)
  let ds := armed.map (fun b => s.bbDecide b u)
  let xs := s.raised ds
  let new := ds.foldl (fun s d => s.bbAct u d) { s with acts := [] }
  { new with xs := xs, bbShown := (armed.flatMap bbValues).filterMap (fun k => if s.obj k = new.obj k then none else some (k, s.obj k)) }

/-! ## Trigger-output pins (R323) -/

/-- A pin goes active or inactive (R323, R335); with INVERT the ball is then low or high. -/
def State.driveOut (s : State) (i : Nat) (active : Bool) : State := s.setObj (Obj.trigOutLevel i) (ofBool active)

/-- The level at a TRIG_OUT pin (R323): active low where INVERT is set. -/
def State.trigOutPin (s : State) (i : Nat) : Bool := s.flag (Obj.trigOutLevel i) != s.flag (Obj.trigOutInvert i)

/-- The oldest requested pulse of a pin begins, where its boundary has come (R323). -/
def State.beginPulse (s : State) (pin : Nat) (u : Tick) : State :=
  let p := s.trigOut.getD pin {}
  match p.starts with
  | [] => s
  | t :: rest =>
    if u < t then s
    else
      ({ s with trigOut := s.trigOut.put pin {} { p with starts := rest, until_ := some (t + s.obj (Obj.trigOutWidth pin)) } } : State).driveOut pin true

/-- TRIG_OUT_START (R16, R323): the pulse begins at the boundary that opens the next tick, with the WIDTH then in force. -/
def execTrigOutStart (pin : Nat) (s : State) : Ans := .next (if 8 ≤ pin ∨ s.due.contains (.pulse pin) then s else s.await (.pulse pin))

/-- TRIG_OUT_END (R323): the pulse ends unless a later request has begun by then. -/
def execTrigOutEnd (pin : Nat) (s : State) : Ans :=
  let p := s.trigOut.getD pin {}
  match p.until_ with
  | none => .next s
  | some e =>
    if 8 ≤ pin ∨ s.tick + 1 < e ∨ p.starts.any (· ≤ e) then .next s
    else .next (({ s with trigOut := s.trigOut.put pin {} { p with until_ := none } } : State).driveOut pin false)

/-! ## Cascade messages (R292, R293, R324) -/

/-- CASCADE_MESSAGE_SEND (R324): the first message leaves at a boundary whose count is a multiple of 4, 16 ticks or more after
the one before, and when the port is idle. -/
def execCascadeMessageSend (port : Nat) (s : State) : Ans :=
  let c := s.cascPort port
  let t := s.tick + 1
  match c.queue with
  | [] => .next s
  | (due, code, src) :: rest =>
    let spaced : Bool := match c.lastMsg with
      | some l => decide (l + 16 ≤ t)
      | none => true
    if 4 ≤ port ∨ t < due ∨ t % 4 ≠ 0 ∨ t < c.busyUntil ∨ !spaced then .next s
    else
      .next ((s.setCasc port (fun c => { c with queue := rest, lastMsg := some t })).emit
        (.cascade port [0x5C, BitVec.ofNat 8 code, BitVec.ofNat 8 src, BitVec.ofNat 8 (255 - code % 256)]))

/-- CASCADE_MESSAGE_RECEIVE (R292, R293, R324): four characters whose first arrived in the open tick. On a port that is not ALIGNED, which has no
RX_LATENCY, the latency is a free value of 1 to 16 ticks. -/
def execCascadeMessageReceive (port : Nat) (chars : Bytes) (s : State) : Ans :=
  if 4 ≤ port ∨ !s.running ∨ !(s.cascPort port).sync ∨ chars.length ≠ 4 ∨ chars.headD 0 ≠ 0x5C then .next s
  else
    let code := fieldAt chars 1 1
    if fieldAt chars 3 1 ≠ 255 - code then .next (s.bump (Obj.cascCascRxBad port) 1)
    else
      let lat := s.obj (Obj.cpRxLatency port)
      let (r, s) := if lat = 0 then s.fresh else (lat - 1, s)
      .next { s with arrivals := s.arrivals ++ [(s.tick + 1 + r % 16, .casc port code (ofTick s.tick))] }

/-! ## The event reader (R325, R329) -/

/-- Does a Bobbin's FIFO hold an entry that the reader sees: one written before the open tick (R647)? -/
def State.eventSeen (s : State) (b : Nat) : Bool :=
  match (s.bb b).fifo with
  | [] => false
  | w :: _ => bits w 63 29 != s.tick % 2 ^ 35 && bits w 63 29 != (s.tick + 1) % 2 ^ 35

/-- The FIFO the reader serves next: the non-empty ones in turn, at most one entry each and four in a tick. -/
def State.nextEvent (s : State) : Option Nat :=
  if 4 ≤ s.evRead.length then none
  else ((below 8).map (fun i => (s.evLast + 1 + i) % 8)).find? (fun b => s.eventSeen b && !s.evRead.contains b)

/-- The full tick of an event word (R329): the latest tick not later than now whose low 35 bits are DTICK. -/
def fullTick (now dtick : Nat) : Nat :=
  let t := now / 2 ^ 35 * 2 ^ 35 + dtick
  if now < t then t - 2 ^ 35 else t

/-- The MARK of reason EVENT (R445): its record time is the event's tick (R416, R328). -/
def eventMark (s : State) (q b w : Nat) : Rec :=
  let dt := fullTick s.tick (bits w 63 29)
  let time := ofTick dt - bits w 28 15
  ⟨0x31, b, dt, trigBody time 0 5 false false (bits w 14 11) (bits w 10 9) 0 (s.queue q).segNo w⟩

/-- An event word as the reader finds it in FIFO HF3 + b; none where it is uncorrectable (R653). -/
def State.eventWord (s : State) (b w : Nat) : State × Option Nat :=
  if !s.hoopFlips.any (fun e => e.1 = 3 + b) then (s, some w)
  else
    let (s, r) := s.hoopDecode (3 + b) [w + 2 ^ 64 + 2 ^ 65]
    (s, r.map (·.headD 0))

/-- EVENT_READ (R329, R653): the reader takes one entry; the mark is stored, the notification raised. -/
def execEventRead (bb : Nat) (s : State) : Ans :=
  if s.nextEvent ≠ some bb ∨ !s.running then .next s
  else
    match (s.bb bb).fifo with
    | [] => .next s
    | w :: rest =>
      let s := { s.setBb bb { s.bb bb with fifo := rest } with evLast := bb, evRead := s.evRead ++ [bb] }
      match s.eventWord bb w with
      | (s, none) => .next (s.loseEvent bb)
      | (s, some w) =>
        let s := (s.sourceQueues 7 bb).foldl (fun s q =>
          let m := eventMark s q bb w
          s.deliver q [m] 1 (ofTick m.tick) (ofTick m.tick) s.tick) s
        .next (if bit w 3 then s.notify bb bb w s.tick else s)

end Sys2Proof.Machine
end

