-- ==== Sys2Proof/Machine/Pricking.lean ====
section
/-! DEFINITION. Pricking images (chapter "Pricking images", R337-R361, R728), and arming, stopping and patching a Bobbin
(R331-R333, R359). -/

namespace Sys2Proof.Machine

/-- A FIELD_ID of R351. -/
def fieldId (reason byte bit_ : Nat) : Nat := reason * 2 ^ 24 + bit_ * 2 ^ 16 + cut 16 byte

/-- The progress of a check: the bytes as clamped, the clamps (FIELD_IDs), and the refusal: status and FIELD_ID. -/
structure ImgCheck where
  img : Bytes
  reps : List Nat := []
  fail : Option (Nat × Nat) := none
deriving DecidableEq, Repr

/-- Refuse, unless already refused. -/
def ImgCheck.refuse (c : ImgCheck) (status reason byte bit_ : Nat) : ImgCheck :=
  if c.fail.isSome then c else { c with fail := some (status, fieldId reason byte bit_) }

/-- Refuse with REJECTED unless a condition holds. -/
def ImgCheck.need (c : ImgCheck) (ok : Bool) (reason byte : Nat) : ImgCheck := if ok then c else c.refuse stRejected reason byte 0

/-- Report a clamp. -/
def ImgCheck.clamped (c : ImgCheck) (reason byte bit_ : Nat) : ImgCheck :=
  if c.fail.isSome then c else { c with reps := c.reps ++ [fieldId reason byte bit_] }

/-- Replace n bytes from an offset. -/
def putBytes (b : Bytes) (off n v : Nat) : Bytes := b.take off ++ le n v ++ b.drop (off + n)

/-- A field of the bytes: bits [hi:lo] counted from a base byte. -/
def ImgCheck.field (c : ImgCheck) (base hi lo : Nat) : Nat := bits (fieldAt c.img (base + lo / 8) ((hi + 8) / 8 - lo / 8)) (hi - lo / 8 * 8) (lo % 8)

/-- Give bits [hi:lo] a value. -/
def ImgCheck.setBits (c : ImgCheck) (base hi lo v : Nat) : ImgCheck :=
  let byte := base + lo / 8
  let n := (hi + 8) / 8 - lo / 8
  let w := fieldAt c.img byte n
  let old := bits w (hi - lo / 8 * 8) (lo % 8)
  { c with img := putBytes c.img byte n (w - old * 2 ^ (lo % 8) + v * 2 ^ (lo % 8)) }

/-- Give bits [hi:lo] a value and report the clamp. -/
def ImgCheck.setField (c : ImgCheck) (base hi lo reason v : Nat) : ImgCheck :=
  if c.fail.isSome then c else (c.setBits base hi lo v).clamped reason (base + lo / 8) (lo % 8)

/-- Apply the clamps of one field at a byte: the report names the field once for each reason (R351, R353). -/
def ImgCheck.fixed (c : ImgCheck) (base : Nat) (l : List UnitFix) : ImgCheck :=
  if c.fail.isSome then c
  else ((l.map (·.reason)).eraseDups).foldl (fun c r => c.clamped r base 0) (l.foldl (fun c x => c.setBits base x.hi x.lo x.now) c)

/-- Clear a reserved field (R353). -/
def ImgCheck.reserved (c : ImgCheck) (base hi lo : Nat) : ImgCheck :=
  if c.field base hi lo = 0 then c else c.setField base hi lo rpCleared 0

/-- Is a code one that R304 lists? -/
def inputCode (c : Nat) : Bool := c < 0x110 || c == 0x3FF

/-- One branch record at a byte (R345, R353), field by field from bit 0. -/
def ImgCheck.branch (c : ImgCheck) (base : Nat) : ImgCheck :=
  let en : Bool := c.field base 336 336 = 1
  let when_ (p : Bool) (hi lo reason v : Nat) (c : ImgCheck) : ImgCheck := if en && p then c.setField base hi lo reason v else c
  let f (hi lo : Nat) : Nat := c.field base hi lo
  let c := (below 8).foldl (fun c j => when_ (!inputCode (f (256 + 10 * j + 9) (256 + 10 * j))) (256 + 10 * j + 9) (256 + 10 * j) rpReplaced 0x3FF c) c
  let c := when_ (9 ≤ f 342 339) 342 339 rpReplaced 0 c
  let c := c.reserved base 351 350
  let c := when_ (f 383 352 = 0 && f 338 337 != 0) 383 352 rpRaised 1 c
  let lb : Bool := f 415 408 != 0xFF
  let c := when_ (lb && f 403 384 = 0) 403 384 rpRaised 1 c
  let c := when_ (lb && decide (524288 < f 403 384)) 403 384 rpLowered 524288 c
  let c := c.reserved base 407 406
  let c := if en && decide (64 ≤ f 415 408) && lb then c.refuse stRejected 0x24 (base + 51) 0 else c
  let c := when_ (f 425 424 = 3) 425 424 rpReplaced 0 c
  let c := (below 4).foldl (fun c j => when_ (5 ≤ f (450 + 3 * j) (448 + 3 * j)) (450 + 3 * j) (448 + 3 * j) rpReplaced 0 c) c
  let c := c.reserved base 463 460
  let c := c.reserved base 479 476
  c.reserved base 511 488

/-- One entry of the section table (R339). -/
structure Section where
  type : Nat
  off : Nat
  len : Nat
  count : Nat
deriving DecidableEq, Repr

/-- The section table of an image. -/
def sections (img : Bytes) : List Section :=
  (below (fieldAt img 6 2)).map (fun i =>
    let b := 64 + 16 * i
    ⟨fieldAt img b 2, fieldAt img (b + 4) 4, fieldAt img (b + 8) 4, fieldAt img (b + 12) 4⟩)

/-- One entry of the section table is checked against those before it (R340, R341). -/
def ImgCheck.sectionEntry (c : ImgCheck) (len cnt : Nat) (before : List Section) (i : Nat) (x : Section) : ImgCheck :=
  let b := 64 + 16 * i
  let c := c.need (!(x.type = 0 || (5 ≤ x.type && x.type < 0x8000))) 0x07 b
  let c := c.reserved b 31 16
  let c := c.need (!(x.type < 5 && before.any (fun y => y.type == x.type))) 0x08 b
  let meets := before.any (fun y => x.len != 0 && y.len != 0 && x.off < y.off + y.len && y.off < x.off + x.len)
  let c := c.need (x.off % 8 = 0 && 64 + 16 * cnt ≤ x.off && x.off + x.len + 4 ≤ len && !meets) 0x0A (b + 4)
  let want : Option (Nat × Bool) := match x.type with
    | 1 => some (104, x.count = 1)
    | 2 => some (4096, x.count = 64)
    | 3 => some (72 * x.count, x.count ≤ 256)
    | 4 => some (128, x.count = 64)
    | _ => none
  match want with
  | some (l, ok) => (c.need (x.len = l) 0x0A (b + 8)).need ok 0x0A (b + 12)
  | none => c

/-- The section table, entry by entry. -/
def ImgCheck.table (len cnt : Nat) : ImgCheck → List Section → Nat → List Section → ImgCheck
  | c, _, _, [] => c
  | c, before, i, x :: l => ImgCheck.table len cnt (c.sectionEntry len cnt before i x) (before ++ [x]) (i + 1) l

/-- The PROGRAM section (R343, R353): of a preset or limit the field is the word. -/
def ImgCheck.program (c : ImgCheck) (off : Nat) : ImgCheck :=
  (upFrom 12 1).foldl (fun c w =>
    let v := c.field (off + 8 * w) 63 48
    if v = 0 then c else c.fixed (off + 8 * w) [⟨0, 63, 48, rpCleared, v, 0⟩]) (c.reserved off 63 4)

/-- The configuration a UNITS entry names, at a byte (R346). -/
def unitEntry (img : Bytes) (b hist : Nat) : UnitCfg :=
  { type := fieldAt img (b + 2) 1, mode := fieldAt img (b + 3) 1, source := fieldAt img (b + 4) 2, hist := hist,
    p0 := fieldAt img (b + 8) 8, p1 := fieldAt img (b + 16) 8, p2 := fieldAt img (b + 24) 8, p3 := fieldAt img (b + 32) 8,
    terms := (below 4).map (fun j => fieldAt img (b + 40 + 8 * j) 8) }

/-- The refusals of a unit by field (R350, R353): reason and byte within the entry. DESIGN CHOICE (assumption 12): an absent lane of a FID, to which the
engine would set SOURCE (R285, R287), fails at SOURCE. -/
def unitRefusal (c : UnitCfg) (variant : Nat) : Option (Nat × Nat × Nat) :=
  -- a unit that differs only in the field under test tells which field fails first
  let with_ (mode source p3 : Nat) : UnitCfg := { type := c.type, mode := mode, source := source, p3 := p3 }
  let okSrc := if c.type = 12 ∨ c.type = 0 then c.source else 0
  let okP3 := 2 ^ 16
  if 12 < c.type then some (stRejected, 0x22, 2)
  else if c.type ≠ 12 ∧ ((with_ c.mode okSrc okP3).verdict variant).isSome then some (stRejected, 0x22, 3)
  else if c.type = 12 ∧ 3 < c.mode then some (stRejected, 0x22, 3)
  else
    match (with_ c.mode c.source okP3).verdict variant with
    | some (st, _) => some (st, if st = stNotPresent then 0x23 else 0x22, 4)
    | none =>
      if (c.type = 8 ∨ c.type = 9) ∧ (c.fix.1.verdict variant).isSome then some (stNotPresent, 0x23, 4)
      else if ((with_ c.mode c.source c.p3).verdict variant).isSome then some (stRejected, 0x22, 32) else none

/-- One UNITS entry (R346, R350, R353), field by field from bit 0. -/
def ImgCheck.unit (c : ImgCheck) (variant : Nat) (seen : List Nat) (b : Nat) : ImgCheck :=
  let n := fieldAt c.img b 2
  let c := c.need (n < 256) 0x20 b
  let c := c.need (!seen.contains n) 0x21 b
  let cfg := unitEntry c.img b 255
  let bad := unitRefusal cfg variant
  -- FIELD is refused at P3, behind P0 to P2; every other refusal stands before them
  let early : Bool := match bad with
    | some (_, _, byte) => byte != 32
    | none => false
  let refuse (c : ImgCheck) : ImgCheck := match bad with
    | some (st, reason, byte) => c.refuse st reason (b + byte) 0
    | none => c
  let c := if early then refuse c else c
  let fixes := cfg.fix.2
  let word (w : Nat) (c : ImgCheck) : ImgCheck := c.fixed (if w = 4 then b + 4 else if w < 4 then b + 8 + 8 * w else b + 8 * w) (fixesAt fixes w)
  let c := word 2 (word 1 (word 0 ((word 4 c).reserved b 63 48)))
  let c := if early then c else refuse c
  [3, 5, 6, 7, 8].foldl (fun c w => word w c) c

/-- The HISTORY section (R347, R353). -/
def ImgCheck.history (c : ImgCheck) (off : Nat) : ImgCheck :=
  (below 64).foldl (fun c h =>
    let b := off + 2 * h
    let v := fieldAt c.img b 2
    let c := c.need (!(0x100 ≤ v && v ≤ 0xFFFD)) 0x25 b
    c.need (!(v < 0x100 && (below h).any (fun i => fieldAt c.img (off + 2 * i) 2 == v))) 0x26 b) c

/-- One section's contents (R350, step 5). -/
def ImgCheck.section_ (c : ImgCheck) (variant : Nat) (x : Section) : ImgCheck :=
  match x.type with
  | 1 => c.program x.off
  | 2 => (below 64).foldl (fun c k => c.branch (x.off + 64 * k)) c
  | 3 => (below x.count).foldl (fun c k => c.unit variant ((below k).map (fun i => fieldAt c.img (x.off + 72 * i) 2)) (x.off + 72 * k)) c
  | 4 => c.history x.off
  | _ => c

/-- The checks of R350 on a transferred image. -/
def checkImage (variant : Nat) (raw : Bytes) : ImgCheck :=
  let n := raw.length
  let c : ImgCheck := { img := raw }
  let c := c.need (fieldAt raw 8 4 = n && n % 4 = 0 && 4300 ≤ n && n ≤ 32768) 0x03 8
  let c := c.need (fieldAt raw 0 4 = 0x4B435250) 0x01 0
  let c := c.need (fieldAt raw 4 2 = 1) 0x02 4
  let c := c.need (c.fail.isSome || crc32 (raw.take (n - 4)) = fieldAt raw (n - 4) 4) 0x04 (n - 4)
  let c := c.need (fieldAt raw 20 44 = 0) 0x05 20
  let cnt := fieldAt raw 6 2
  let c := c.need (2 ≤ cnt && cnt ≤ 16) 0x06 6
  if c.fail.isSome then c
  else
    let t := sections raw
    let c := ImgCheck.table n cnt c [] 0 t
    let c := c.need (t.any (fun x => x.type = 1) && t.any (fun x => x.type = 2)) 0x09 6
    if c.fail.isSome then c
    else
      let c := t.foldl (fun c x => c.section_ variant x) c
      let body := c.img.take (n - 4)
      { c with img := body ++ le 4 (crc32 body) }

/-- An image that has arrived for a slot: the bytes staged and the entry's outcome (R349-R352). -/
def State.stageImage (s : State) (slot : Nat) (raw : Bytes) : State × ObjOut :=
  let k := Obj.slotImage slot
  let c := checkImage s.otp.variant raw
  let reps := c.reps.map (fun f => ({ key := k, status := stClamped, fieldId := f } : RepEntry))
  match c.fail with
  | some (st, f) =>
    (s.setObjs [(Obj.slotLoadStatus slot, st), (Obj.slotFailField slot, f)],
      { key := k, status := st, reason := if st = stNotPresent then 0 else reRange, rep := reps ++ [{ key := k, status := st, fieldId := f }] })
  | none => (s.setObj (Obj.slotLoadStatus slot) stStaged, clampedOut k (.byt c.img) reps)

/-- IMAGE. -/
def isImage (k : Key) : Bool := 0x3810 ≤ k / 256 && k / 256 < 0x3820 && k % 256 == 1

/-- LOAD_STATUS of a slot is the outcome of its last transfer or activation (R361). -/
def State.noteLoad (s : State) (k : Key) (status : Nat) : State :=
  if isImage k then s.setObj (Obj.slotLoadStatus (k / 256 - 0x3810)) status else s

/-! ## Slots -/

/-- Is a slot valid? -/
def State.slotValid (s : State) (slot : Nat) : Bool := s.dom (Obj.slotImage slot) != []

/-- The units and history entries of an image with the byte of each, in section-table order (R346, R347). -/
def imageUnits (img : Bytes) : List (Nat × Nat) :=
  (sections img).flatMap (fun x => if x.type = 3 then (below x.count).map (fun i => (x.off + 72 * i, fieldAt img (x.off + 72 * i) 2)) else [])

/-- The HISTORY entries of an image: byte, channel, entry. -/
def imageHistory (img : Bytes) : List (Nat × Nat × Nat) :=
  (sections img).flatMap (fun x => if x.type = 4 then (below 64).map (fun h => (x.off + 2 * h, h, fieldAt img (x.off + 2 * h) 2)) else [])

/-- The units an image names and the channels it assigns (R356). -/
def imageNames (img : Bytes) : List Nat × List Nat :=
  let h := (imageHistory img).filter (fun e => e.2.2 < 0x100)
  ((imageUnits img).map (·.2) ++ h.map (·.2.2), h.map (·.2.1))

/-- The first field through which an image meets units and channels already named (R351, R356). -/
def meeting (img : Bytes) (units chans : List Nat) : Option Nat :=
  let fields := (sections img).flatMap (fun x =>
    if x.type = 3 then (below x.count).map (fun i => (x.off + 72 * i, [fieldAt img (x.off + 72 * i) 2], ([] : List Nat)))
    else if x.type = 4 then (below 64).filterMap (fun h =>
      let v := fieldAt img (x.off + 2 * h) 2
      if v < 0x100 then some (x.off + 2 * h, [v], [h]) else none)
    else [])
  (fields.find? (fun f => f.2.1.any units.contains || f.2.2.any chans.contains)).map (·.1)

/-- Give a unit a history channel, or 0xFF. -/
def State.setHist (s : State) (n h : Nat) : State := s.setObj (Obj.cuHistCh n) h

/-- The unit that holds a history channel. -/
def State.histHolder (s : State) (h : Nat) : Option Nat := (below 256).find? (fun n => s.obj (Obj.cuHistCh n) == h)

/-- Install one image in its slot (R355, R357): the state, the units it configures, the objects it writes, the reports. -/
def State.installImage (s : State) (slot : Nat) (img : Bytes) : State × List Nat × List Key × List RepEntry :=
  let k := Obj.slotImage slot
  let s := (s.setDom k img).setObj (Obj.slotLoadStatus slot) stOk
  let us := imageUnits img
  let s := us.foldl (fun s u => s.setObjs ((unitEntry img u.1 (s.obj (Obj.cuHistCh u.2))).objs u.2)) s
  let wrote := us.flatMap (fun u => (([1, 2, 3] ++ upFrom 8 5) : List Nat).map (fun j => (0x3600 + u.2) * 256 + j))
  let r := (imageHistory img).foldl (fun (a : State × List Key × List RepEntry) e =>
    let (s, ks, rs) := a
    let h := e.2.1
    let v := e.2.2
    let holder := s.histHolder h
    if v = 0xFFFF then a
    else if v = 0xFFFE then
      match holder with
      | some n => (s.setHist n 0xFF, ks ++ [Obj.cuHistCh n], rs)
      | none => a
    else
      match holder with
      | some n =>
        if n = v then (s, ks ++ [Obj.cuHistCh v], rs)
        else ((s.setHist n 0xFF).setHist v h, ks ++ [Obj.cuHistCh n, Obj.cuHistCh v], rs ++ [{ key := k, fieldId := fieldId 0x30 e.1 0 }])
      | none => (s.setHist v h, ks ++ [Obj.cuHistCh v], rs)) (s, wrote, [])
  (r.1, us.map (·.2), r.2.1, r.2.2)

/-- CLEAR of a slot (R360), as far as the slot itself. -/
def State.emptySlot (s : State) (slot : Nat) : State := s.setDom (Obj.slotImage slot) []

/-- What a reader of a slot's objects sees (R354, R359, R361). -/
def State.slotView (s : State) (k : Key) : Option Nat :=
  if 0x3810 ≤ k / 256 ∧ k / 256 < 0x3820 then
    let slot := k / 256 - 0x3810
    let img := s.dom (Obj.slotImage slot)
    match k % 256 with
    | 2 => some (ofBool (img != []))
    | 3 => some (fieldAt img 12 4)
    | 4 => some img.length
    | 5 => some (fieldAt img (img.length - 4) 4)
    | 6 => some (natOfBits ((below 8).map (fun b => s.obj (Obj.bbState b) != 0 && (s.bb b).slot == slot)))
    | _ => none
  else none

/-! ## Arming, stopping, patching -/

/-- RUN = 1 at a boundary (R331): the program of the slot named by SLOT as it stands. -/
def State.armBobbin (s : State) (b : Nat) (t : Tick) : State :=
  let slot := s.obj (Obj.bbSlot b)
  let img := s.dom (Obj.slotImage slot)
  let secs := sections img
  let prog := ((secs.find? (fun x => x.type = 1)).map (·.off)).getD 0
  let brs := ((secs.find? (fun x => x.type = 2)).map (·.off)).getD 0
  let word (w : Nat) : Nat := bits (fieldAt img (prog + 8 * w) 8) 47 0
  let recs : Tab Nat := (below 64).filterMap (fun i =>
    let r := fieldAt img (brs + 64 * i) 64
    if r = 0 then none else some (i, r))
  let start := fieldAt img prog 1 % 16
  let s := s.setBb b { s.bb b with recs := recs, slot := slot, entry := t, run := [0, 0, 0, 0] }
  let s := (below 4).foldl (fun s j =>
    s.setObjs [(Obj.bbCntPreset b j, word (1 + j)), (Obj.bbCntLimit b j, word (5 + j)), (Obj.bbTmrLimit b j, word (9 + j)),
               (Obj.bbCnt b j, word (1 + j)), (Obj.bbTmr b j, 0)]) s
  (s.setObjs [(Obj.bbState b, 1), (Obj.bbLevel b, start)]).writeEvent b start 0 0 false false 1 0 t

/-- RUN = 0 at a boundary (R332). -/
def State.stopBobbin (s : State) (b : Nat) (t : Tick) : State :=
  if s.obj (Obj.bbState b) = 0 then s
  else (s.setObj (Obj.bbState b) 0).writeEvent b (s.obj (Obj.bbLevel b)) 0 0 false false 3 0 t

/-- The checks of a PATCH (R333, R728). -/
def checkPatch (raw : Bytes) : ImgCheck :=
  (below (raw.length / 66)).foldl (fun c i =>
    let b := 66 * i
    let c := c.need (fieldAt raw b 1 ≤ 15) 0x27 b
    let c := c.need (fieldAt raw (b + 1) 1 ≤ 3) 0x27 (b + 1)
    c.branch (b + 2)) { img := raw }

/-- A PATCH as a WRITE or a transfer brings it: the outcome of the entry, with the bytes as clamped. -/
def patchEntry (k : Key) (raw : Bytes) : ObjOut :=
  let c := checkPatch raw
  let reps := c.reps.map (fun f => ({ key := k, status := stClamped, fieldId := f } : RepEntry))
  if raw = [] then emptyOut k
  else if raw.length % 66 ≠ 0 ∨ 16 < raw.length / 66 then rejOut k
  else
    match c.fail with
    | some (st, f) => { key := k, status := st, reason := reRange, rep := reps ++ [{ key := k, status := st, fieldId := f }] }
    | none => clampedOut k (.byt c.img) reps

/-- Apply a PATCH at its boundary (R333). -/
def State.patchBobbin (s : State) (b : Nat) (img : Bytes) : State :=
  (below (img.length / 66)).foldl (fun s i =>
    let level := fieldAt img (66 * i) 1
    let k := fieldAt img (66 * i + 1) 1
    let r := fieldAt img (66 * i + 2) 64
    let x := s.bb b
    let run := if level = s.obj (Obj.bbLevel b) then x.run.set k 0 else x.run
    s.setBb b { x with recs := x.recs.put (4 * level + k) 0 r, run := run }) (s.setDom (Obj.bbPatch b) img)

end Sys2Proof.Machine
end

