-- ==== Sys2Proof/Machine/Storage.lean ====
section
/-! DEFINITION. Storage integrity (R626-R655): the SRAM instances, their errors, the March engine, the Darner, repair and fusing. -/

namespace Sys2Proof.Machine

/-- Rows of an SRAM instance (R626). -/
def instRows (i : Nat) : Nat :=
  if i < 96 then 512 else if i < 160 then 128 else if i < 162 then 1024 else if i < 174 then 512 else if i < 179 then 2048
  else if i < 195 then 512 else if i < 211 then 64 else if i < 219 then 32 else if i < 225 then 128 else if i < 228 then 1024 else 256

/-- The first instance of each name, and the name (R626). -/
def instGroups : List (Nat × String) :=
  [(231, "DIC"), (228, "RDB"), (225, "STS"), (219, "CUC"), (211, "BBP"), (195, "PRK"), (194, "DFW"), (192, "DFH"), (187, "CTX"),
   (179, "JRN"), (178, "SHM"), (174, "SCP"), (167, "CCX"), (163, "QST"), (162, "LSE"), (160, "FLC"), (96, "HST"), (64, "FLW"), (0, "STG")]

/-- A number's decimal digits. -/
def decimal (n : Nat) : String := toString n

/-- NAME of an instance (R626, R654). -/
def instName (i : Nat) : Bytes :=
  match instGroups.find? (fun e => e.1 ≤ i) with
  | some (b, n) => ascii (if [231, 194, 178, 162].contains b then n else n ++ decimal (i - b))
  | none => []

/-- Does an uncorrectable word in the instance put the device into FAULT (R626)? -/
def faultInst (i : Nat) : Bool := (160 ≤ i && i < 167) || (195 ≤ i && i < 228)

/-- Replace the repair state. -/
def State.setRepair (s : State) (f : Repair → Repair) : State := { s with repair := f s.repair }

/-- A row needs repair (R641). -/
def State.needRow (s : State) (i row : Nat) : State :=
  s.setRepair (fun r => if r.needs.contains (i, row) then r else { r with needs := r.needs ++ [(i, row)] })

/-- A free spare row of an instance that has not failed the March test (R642). -/
def State.freeSpare (s : State) (i : Nat) : Option Nat :=
  (below 4).find? (fun sp => !s.repair.badSpares.contains (i, sp) && !s.repair.spares.any (fun e => e.1 == i && e.2.2 == sp))

/-- A spare row serves a row from now on (R642, R643). -/
def State.assignSpare (s : State) (i row sp : Nat) : State :=
  let s := s.setObj (Obj.instSpareRowsUsed i) (s.obj (Obj.instSpareRowsUsed i) + 1)
  let s := s.setRepair (fun r => { r with spares := r.spares ++ [(i, row, sp)] })
  if s.obj (Obj.instState i) = 0 then s.setObj (Obj.instState i) 1 else s

/-- The repair of a row by a spare row, or DEGRADED where none is free (R642, R643). -/
def State.repairRow (s : State) (i row : Nat) : State :=
  let s := s.setRepair (fun r => { r with needs := r.needs.filter (· != (i, row)) })
  match s.freeSpare i with
  | some sp => ((s.assignSpare i row sp).bump Obj.integRepairsPending 1).setRepair (fun r => { r with soft := r.soft ++ [(i, row)] })
  | none => s.setObj (Obj.instState i) 2

/-- The place of a row in its array: its own, or that of the spare row that serves it. -/
def State.rowPlace (s : State) (i row : Nat) : Nat :=
  match (s.repair.spares.filter (fun e => e.1 = i && e.2.1 = row)).getLast? with
  | some e => instRows i + e.2.2
  | none => row

/-- The row that a place of the array serves, if it does. -/
def State.placeRow (s : State) (i place : Nat) : Option Nat :=
  if place < instRows i then (if s.rowPlace i place = place then some place else none)
  else ((s.repair.spares.find? (fun e => e.1 = i && s.rowPlace i e.2.1 = place)).map (·.2.1))

/-- The instances present. -/
def State.insts (s : State) : List Nat := (below 232).filter (fun i => !instAbsent s.otp.variant i)

/-! Errors that owners read (R626, R630, R641). -/

/-- A corrected word: CE, and the row's count against CE_THRESHOLD (R630, R641). -/
def State.sramCorrected (s : State) (i word : Nat) : State :=
  if 232 ≤ i ∨ instAbsent s.otp.variant i then s
  else
    let row := word / 64
    let n := s.repair.rowCe.getD (65536 * i + row) 0 + 1
    let s := (s.bump (Obj.instCntCe i) 1).setRepair (fun r => { r with rowCe := r.rowCe.put (65536 * i + row) 0 n })
    if n = s.obj Obj.integCeThreshold then s.needRow i row else s

/-- A cause of FAULT has been detected (R667). -/
def State.faultCause (s : State) (cause inst : Nat) : State :=
  { s with dev := { s.dev with causes := s.dev.causes ++ [(cause, inst)] } }

/-- The owner's handling of an uncorrectable word (R626). A history channel's bit of tick u stands at bit u mod 524,288 of its instance (assumption 44). -/
def State.ownerHandles (s : State) (i word : Nat) (t : Tick) : State :=
  if faultInst i then s.faultCause 1 i
  else if 64 ≤ i ∧ i < 96 then { s with flows := s.flows.del (8192 * (i - 64) + word / 4) }
  else if 96 ≤ i ∧ i < 160 then { s with rings := s.rings.map (fun e => if e.1 = i - 96 then (e.1, e.2.filter (fun u => u % 524288 / 64 ≠ word)) else e) }
  else if 174 ≤ i ∧ i < 178 then if s.coreLives (i - 174) then s.faultCore (i - 174) 3 t else s
  else if i = 178 then
    let (r, s) := s.fresh
    let c := r % coresOf s.otp.variant
    if s.coreLives c then s.faultCore c 3 t else s
  else if 179 ≤ i ∧ i < 187 then
    { s with journal := s.journal.map (fun e => if e.eno % 65536 = 8192 * (i - 179) + word / 4 then { e with kind := 0 } else e) }
  else if 192 ≤ i ∧ i < 195 then
    match s.jobs.find? (fun e => e.2.running) with
    | some (ix, j) => s.jobFinish ix j true false false t
    | none => s
  else if 228 ≤ i ∧ i < 231 then
    { s with readBufs := s.readBufs.map (fun e => if e.1 = i - 228 ∨ (i = 230 ∧ 2 ≤ e.1) then (e.1, { e.2 with bad := true }) else e) }
  else s

/-- An uncorrectable word (R626, R641). -/
def State.sramUncorrectable (s : State) (i word : Nat) (t : Tick) : State :=
  if 232 ≤ i ∨ instAbsent s.otp.variant i then s
  else ((s.bump (Obj.instCntUe i) 1).needRow i (word / 64)).ownerHandles i word t

/-! Stored words and their errors (R629, R630, R638). -/

/-- The key of a word of an instance. -/
def wordKey (i word : Nat) : Nat := 131072 * i + word

/-- The save buffer's copy of a word, while the word is redirected (R638). -/
def State.savedWord (s : State) (i word : Nat) : Option Nat :=
  match s.repair.borrow with
  | some b => if b.inst = i ∧ b.row = word / 64 then b.saved.find (word % 64) else none
  | none => none

/-- The bits in which a word, where its owner finds it, differs from what was written. -/
def State.wordFlips (s : State) (i word : Nat) : Nat := (s.savedWord i word).getD (s.repair.flips.getD (wordKey i word) 0)

/-- What differs in a word is now this: in the save buffer while the word is redirected, in the array otherwise (R638). -/
def State.setFlips (s : State) (i word x : Nat) : State :=
  s.setRepair (fun r => match s.savedWord i word, r.borrow with
    | some _, some b => { r with borrow := some { b with saved := b.saved.set (word % 64) x } }
    | _, _ => { r with flips := r.flips.put (wordKey i word) 0 x })

/-- A read of a word by its owner (R630). The code is linear: what a read finds depends on the changed bits alone. -/
def State.sramRead (s : State) (i word : Nat) (t : Tick) : State :=
  match eccRead sramColumns (s.wordFlips i word) with
  | .good _ => s
  | .corrected _ => s.sramCorrected i word
  | .bad => s.sramUncorrectable i word t

/-- A stored bit changes by itself; in the array under test that is without effect. -/
def State.sramUpset (s : State) (i word b : Nat) : State :=
  if (s.savedWord i word).isSome then s else s.setFlips i word (s.wordFlips i word ^^^ 2 ^ b)

/-- A word read for the save buffer (R637, R639): the bits in which the copy differs from what was written, none where it was corrected. An uncorrectable
word makes its row need repair. -/
def State.saveRead (s : State) (i word : Nat) : State × Nat :=
  let x := s.repair.flips.getD (wordKey i word) 0
  match eccRead sramColumns x with
  | .good d => (s, if d = 0 then 0 else x)
  | .corrected d => (s.sramCorrected i word, if d = 0 then 0 else x)
  | .bad => ((s.bump (Obj.instCntUe i) 1).needRow i (word / 64), x)

/-! The Darner (R635-R640, R642). -/

/-- The instance that the Darner borrows next (R635): ascending from the last one, among those enabled. -/
def State.nextInst (s : State) : Option Nat :=
  let on (i : Nat) : Bool := !instAbsent s.otp.variant i && s.obj (Obj.instDarnerEn i) == 1
  match firstFrom on (231 - s.repair.place) (s.repair.place + 1) with
  | some i => some i
  | none => firstFrom on 232 0

/-- The row of its next borrow: one that needs repair, else NEXT_ROW (R635). -/
def State.nextRow (s : State) (i : Nat) : Nat :=
  match s.repair.needs.find? (fun e => e.1 = i) with
  | some (_, row) => row
  | none => s.obj (Obj.instNextRow i)

/-- DARNER_BORROW (R635-R637): the borrow of the next instance in order begins. -/
def execDarnerBorrow (inst : Nat) (_fails : Blank) (s : State) : Ans :=
  if !s.running ∨ s.obj Obj.integDarnerEnable = 0 ∨ s.repair.borrow.isSome ∨ s.repair.march.isSome ∨ s.nextInst ≠ some inst
      ∨ s.repair.lastEnd.any (fun e => e.1 = inst && s.tick + 1 < e.2 + 100000) then .next s
  else .next (s.setRepair (fun r => { r with borrow := some { inst := inst, row := s.nextRow inst, start := s.tick + 1 }, place := inst }))

/-- The cells of a row that fail March C- with the solid background, the spare column's where it is not in use and the bit position that it replaces
left out (R637, R644). -/
def State.rowFails (s : State) (i row : Nat) : Bool :=
  let col := s.obj (Obj.instSpareColumn i)
  let place := s.rowPlace i row
  (marchRun (s.otp.defects.filter (fun d => d.inst = i && d.place = place)) solid).any (fun k =>
    k % 128 != col && (k % 128 != 72 || col != 0xFF))

/-- A row has been tested by the Darner (R640). -/
def State.testRow (s : State) (i row : Nat) : State :=
  if s.rowFails i row then (s.bump (Obj.instCntDarnerFails i) 1).needRow i row else s

/-- The save of word k of the borrowed row (R637, R638). -/
def State.saveWord (s : State) (b : Borrow) (k : Nat) : State :=
  let (s, x) := s.saveRead b.inst (64 * b.row + k)
  s.setRepair (fun r => { r with borrow := r.borrow.map (fun b => { b with saved := b.saved.set k x }) })

/-- The restore of word k of the borrowed row (R637-R639). -/
def State.restoreWord (s : State) (b : Borrow) (k : Nat) : State :=
  match b.saved.find k with
  | some x => s.setRepair (fun r => { r with flips := r.flips.put (wordKey b.inst (64 * b.row + k)) 0 x,
                                             borrow := r.borrow.map (fun b => { b with saved := b.saved.del k }) })
  | none => s

/-- The test side of the port in tick t (R637): one word saved, the end of the test, or one word restored. -/
def State.borrowTick (s : State) (t : Tick) : State :=
  match s.repair.borrow with
  | none => s
  | some b =>
    let n := t - b.start
    if t < b.start then s
    else if n < 64 then s.saveWord b n
    else if n = 703 then s.testRow b.inst b.row
    else if 704 ≤ n ∧ n < 768 then s.restoreWord b (n - 704)
    else s

/-- What the arrays hold where a borrow breaks off: the words of the save buffer are restored. -/
def State.unborrowed (s : State) : Repair :=
  match s.repair.borrow with
  | some b => (b.saved.keys.foldl (fun s k => s.restoreWord b k) s).repair
  | none => s.repair

/-- BORROW_END (R637, R640, R642): 768 ticks after its start a borrow ends, with its row repaired where it needs to be. -/
def execBorrowEnd (s : State) : Ans :=
  match s.repair.borrow with
  | none => .next s
  | some b =>
    if s.tick + 1 < b.start + 768 then .next s
    else
      let s := { s with repair := s.unborrowed }
      let s := s.setRepair (fun r => { r with borrow := none, lastEnd := r.lastEnd.set b.inst (b.start + 767) })
      let s := s.bump (Obj.instCntBorrows b.inst) 1
      let s := if s.obj (Obj.instNextRow b.inst) = b.row then s.setObj (Obj.instNextRow b.inst) ((b.row + 1) % instRows b.inst) else s
      .next (if s.repair.needs.contains (b.inst, b.row) then s.repairRow b.inst b.row else s)

/-- The SRAM in the tick that ends when tick u opens (R628): what changes in it, the owners' accesses in the first half of the tick, and the test side
in the second. -/
def State.sramTick (s : State) (inp : TickInput) (u : Tick) : State :=
  let s := inp.upsets.foldl (fun s e => s.sramUpset e.1 e.2.1 e.2.2) s
  let s := inp.sramReads.foldl (fun s e => s.sramRead e.1 e.2 u) s
  let s := inp.sramWrites.foldl (fun s e => s.setFlips e.1 e.2 0) s
  s.borrowTick (u - 1)

/-! The March engine (R631-R634, R644). -/

/-- The instances a March request names (R633). -/
def State.marchSet (s : State) (v : Nat) : List Nat :=
  if v = 0xFFFF then (below 232).filter (fun i => !instAbsent s.otp.variant i) else [v]

/-- A March request: its mode 1 PRESERVE, 2 DESTROY, 3 RECOVER (R633, R634). -/
def State.march (s : State) (mode v : Nat) : State × ObjOut :=
  let k := [Obj.integMarchPreserve, Obj.integMarchPreserve, Obj.integMarchDestroy, Obj.integMarchRecover].getD mode 0
  let d := s.obj Obj.devDevState
  let allowed : Bool := if mode = 1 then d != 5 else if mode = 2 then d == 1 else d == 5
  if v ≠ 0xFFFF ∧ instAbsent s.otp.variant v then (s, badOut k stNotPresent 0)
  else if s.obj Obj.integMarchState = 1 ∨ !allowed then (s, badOut k stBusy 0)
  else ((s.setRepair (fun r => { r with march := some (mode, s.marchSet v) })).setObj Obj.integMarchState 1, okOut k (.num v))

/-- An instance after DESTROY or RECOVER: zeros, or its power-up contents (R633). -/
def State.wipe (s : State) (i : Nat) : State :=
  if 64 ≤ i ∧ i < 96 then { s with flows := s.flows.filter (fun e => e.1 / 8192 ≠ i - 64) }
  else if 96 ≤ i ∧ i < 160 then s.clearRing (i - 96) (s.tick + 1)
  else if 179 ≤ i ∧ i < 187 then
    { s with journal := s.journal.map (fun e => if e.eno % 65536 / 8192 = i - 179 then { e with kind := 0 } else e) }
  else if 192 ≤ i ∧ i < 194 then { s with deflSlots := [] }
  else if 195 ≤ i ∧ i < 211 then s.emptySlot (i - 195)
  else if 211 ≤ i ∧ i < 219 then { s with bbs := s.bbs.map (fun e => if e.1 = i - 211 then (e.1, { e.2 with recs := [] }) else e) }
  else if 225 ≤ i ∧ i < 228 then s.setPort (i - 225) { s.port (i - 225) with staging := [] }
  else if 228 ≤ i ∧ i < 231 then { s with readBufs := s.readBufs.filter (fun e => if i = 230 then e.1 < 2 else e.1 ≠ i - 228) }
  else if i = 178 then { s with shm := [] }
  else if i = 231 then { s with swept := [] }
  else s

/-- The bit position that the spare column of an instance is to replace (R644): the lowest at which cells of three rows or more fail, where the column is
free and none of its own cells in those rows fails. `cells` are the failing cells as (row, bit position). -/
def columnFor (cells : List (Nat × Nat)) : Option Nat :=
  if cells.any (fun e => e.2 = 72) then none
  else (below 72).find? (fun b => 3 ≤ ((cells.filter (fun e => e.2 = b)).map (·.1)).eraseDups.length)

/-- The March test of one instance with both backgrounds, and its repair (R632, R642, R644); whether it had anything to repair. -/
def State.marchInst (s : State) (i : Nat) : State × Bool :=
  let l := s.otp.defects.filter (fun d => d.inst = i)
  let fails := (marchRun l solid ++ marchRun l checkered).eraseDups
  let cells := fails.filterMap (fun k => (s.placeRow i (k / 8192)).map (fun row => (row, k % 128)))
  let s := match if s.obj (Obj.instSpareColumn i) = 0xFF then columnFor cells else none with
    | some b => (s.setObj (Obj.instSpareColumn i) b).setObj (Obj.instState i) (max 1 (s.obj (Obj.instState i)))
    | none => s
  let col := s.obj (Obj.instSpareColumn i)
  let counts (b : Nat) : Bool := b != col && (b != 72 || col != 0xFF)
  let bad := (below 4).filter (fun sp => fails.any (fun k => k / 8192 = instRows i + sp && counts (k % 128)))
  let s := s.setRepair (fun r => { r with badSpares := r.badSpares.filter (·.1 != i) ++ bad.map (fun sp => (i, sp)) })
  let rows := ((cells.filter (fun e => counts e.2)).map (·.1) ++ (s.repair.needs.filter (fun e => e.1 = i)).map (·.2)).eraseDups
  (rows.foldl (fun s row => s.repairRow i row) s, cells != [] || rows != [])

/-- The March test of instances, which leaves zeros in them (R632); the worst STATE among those that it repaired (R654). -/
def State.marchTest (s : State) (insts : List Nat) : State × Nat :=
  let r := insts.foldl (fun (m : State × Nat) i =>
    let (s, hit) := m.1.marchInst i
    (s, if hit then max m.2 (s.obj (Obj.instState i)) else m.2)) (s, 0)
  (r.1.setRepair (fun x => { x with flips := x.flips.filter (fun e => !insts.contains (e.1 / 131072)) }), r.2)

/-- The rows of an instance on which a borrow would have anything to do. -/
def State.rowsAtIssue (s : State) (i : Nat) : List Nat :=
  ((s.repair.flips.filter (fun (e : Nat × Nat) => e.1 / 131072 = i)).map (fun (e : Nat × Nat) => e.1 % 131072 / 64)
    ++ (s.otp.defects.filter (fun (d : Defect) => d.inst = i)).filterMap (fun (d : Defect) => s.placeRow i d.place)
    ++ (s.repair.needs.filter (fun (e : Nat × Nat) => e.1 = i)).map (fun (e : Nat × Nat) => e.2)).eraseDups

/-- The borrow of every row of an instance in turn (R633): each is scrubbed, tested and repaired where it needs to be. -/
def State.preserve (s : State) (i : Nat) : State × Bool :=
  (s.rowsAtIssue i).foldl (fun (m : State × Bool) row =>
    let s := (below 64).foldl (fun (s : State) (k : Nat) =>
      let w := 64 * row + k
      if s.repair.flips.getD (wordKey i w) 0 = 0 then s
      else
        let (s, x) := s.saveRead i w
        s.setRepair (fun r => { r with flips := r.flips.put (wordKey i w) 0 x })) m.1
    let s := s.testRow i row
    if s.repair.needs.contains (i, row) then (s.repairRow i row, true) else (s, m.2)) (s, false)

/-- MARCH_END (R633, R634, R641-R644): the request ends. -/
def execMarchEnd (_rows _cols : Blank) (s : State) : Ans :=
  match s.repair.march with
  | none => .next s
  | some (mode, insts) =>
    let (s, result) := if mode = 1 then
        insts.foldl (fun (m : State × Nat) i =>
          let (s, hit) := m.1.preserve i
          (s.bump (Obj.instCntBorrows i) (instRows i), if hit then max m.2 (s.obj (Obj.instState i)) else m.2)) (s, 0)
      else s.marchTest insts
    let s := if mode = 1 then s else insts.foldl State.wipe s
    let named : Bool := mode = 3 && insts.contains (s.obj Obj.devFaultInst)
    .next ((s.setRepair (fun r => { r with march := none, recovered := r.recovered || named })).setObjs
      [(Obj.integMarchState, 0), (Obj.integMarchResult, result)])

/-! Fusing (R645). -/

/-- A write of FUSE_REPAIRS (R645). -/
def State.fuseRepairs (s : State) : State × ObjOut × Option Wait :=
  let k := Obj.integFuseRepairs
  if s.queueList.any s.capturing then (s, badOut k stBusy 0, none) else (s, okOut k (.num 1), some .fuses)

/-- FUSE_PROGRAMMED (R645). -/
def execFuseProgrammed (s : State) : Ans :=
  if !s.isDeferred .fuses then .next s
  else
    let fused (i : Nat) : Bool := s.otp.columns.any (fun e => e.1 = i)
    let columns := (s.insts.filter (fun i => s.obj (Obj.instSpareColumn i) != 0xFF && !fused i)).map (fun i => (i, s.obj (Obj.instSpareColumn i)))
    let s := { s with otp := { s.otp with repairs := s.otp.repairs ++ s.repair.soft, columns := s.otp.columns ++ columns } }
    .next (((s.setRepair (fun r => { r with soft := [] })).setObj Obj.integRepairsPending 0).resolve .fuses)

end Sys2Proof.Machine
end

