-- ==== Sys2Proof/Machine/View.lean ====
section
/-! DEFINITION. What a reader of the dictionary sees (R500, R501, R506, R526-R528, R568): the objects that are computed when they are
read, the telemetry sweep, the journal window, read-to-clear. -/

namespace Sys2Proof.Machine

/-- The identity objects of R501 that are numbers. -/
def idView (o : Otp) (k : Key) : Option Nat :=
  if k = Obj.idVariant then some o.variant
  else if k = Obj.idGrade then some o.grade
  else if k = Obj.idSerial then some o.serial
  else if k = Obj.idLanes then some (lanesOf o.variant)
  else if k = Obj.idLcGroups then some (groupsOf o.variant)
  else if k = Obj.idMemChannels then some (memChansOf o.variant)
  else if k = Obj.idServiceCores then some (coresOf o.variant)
  else if k = Obj.commMacAddr then some o.mac
  else none

/-- PART of a variant (R501). -/
def partName (variant : Nat) : Bytes := ascii (["EPC-8856", "EPC-8832", "EPC-8816"].getD variant "EPC-8856")

/-- DOMAIN bytes in a staging store (R518). -/
def stagedBytes (l : List Staged) : Nat :=
  (l.map (fun e => match e.val with
    | .byt b => b.length
    | .num _ => 0)).sum

/-- The objects of a port (R533). -/
def State.portView (s : State) (k : Key) : Option Nat :=
  if 0x1F00 ≤ k / 256 ∧ k / 256 < 0x1F03 then
    let p := s.port (k / 256 - 0x1F00)
    match k % 256 with
    | 1 => some p.staging.length
    | 2 => some (stagedBytes p.staging)
    | 3 => some p.pend.length
    | 4 => some (((p.pend.map (·.target)).min?).getD 0)
    | 9 => some (s.transfers.filter (fun x => x.iss.port = k / 256 - 0x1F00)).length
    | _ => none
  else none

/-- STAGED_LEN of a slot as a port sees it (R361). -/
def State.stagedLen (s : State) (port slot : Nat) : Nat :=
  match (s.port port).staging.find? (fun e => e.key = Obj.slotImage slot) with
  | some e => stagedBytes [e]
  | none => 0

/-- An object that is computed when it is read, as a port sees it. -/
def State.view (s : State) (port : Nat) (k : Key) : Option Nat :=
  if 0x3810 ≤ k / 256 ∧ k / 256 < 0x3820 ∧ k % 256 = 8 then some (s.stagedLen port (k / 256 - 0x3810))
  else if 0x3000 ≤ k / 256 ∧ k / 256 < 0x3100 ∧ k = Obj.lcFlagsPeek (k / 256 - 0x3000) then some (s.obj (Obj.lcFlags (k / 256 - 0x3000)))
  else if 0x3800 ≤ k / 256 ∧ k / 256 < 0x3808 then s.bbShown.find k
  else
    ((((((idView s.otp k).orElse (fun _ => s.portView k)).orElse (fun _ => captureView s k)).orElse (fun _ => timeView s k)).orElse
      (fun _ => s.unitView k)).orElse (fun _ => s.slotView k)).orElse (fun _ => (s.flowView k).orElse (fun _ => s.jobView k))

/-! Telemetry (R528). -/

/-- Is a key telemetry? -/
def isTele (k : Key) : Bool := 0x6000 ≤ k / 256 && k / 256 ≤ 0x6FFF

/-- The values of one telemetry index, by sub-index. -/
def State.gather (s : State) (ix : Nat) : Tab Nat :=
  if ix = 0x6200 then (below 64).filterMap (fun h => (s.unitView (ix * 256 + 1 + h)).map (fun v => (1 + h, v)))
  else s.dict.filterMap (fun e => if e.1 / 256 = ix then some (e.1 % 256, e.2) else none)

/-- The sweep gathers one index at a tick. -/
def State.sweep (s : State) (ix : Nat) (w : Tick) : State := { s with swept := s.swept.put ix (0, []) (w, s.gather ix) }

/-- The snapshot of an index that a READ served in the open tick returns: one at most 1,000 ticks old, else one gathered now. -/
def State.snapshot (s : State) (ix : Nat) : Tick × Tab Nat :=
  match s.swept.find ix with
  | some (w, l) => if w ≤ s.tick ∧ s.tick < w + 1000 then (w, l) else (s.tick, s.gather ix)
  | none => (s.tick, s.gather ix)

/-- A telemetry value, SNAP_TICK among them. -/
def State.teleValue (s : State) (k : Key) : Nat :=
  let (w, l) := s.snapshot (k / 256)
  if k % 256 = 0xFF then timeVal (ofTick w) else l.getD (k % 256) (dfltOf k)

/-! The journal window (R568). -/

/-- The ENO of the oldest entry still held. -/
def State.oldestHeld (s : State) : Nat := if s.obj Obj.jnlMirrorState = 1 then s.obj Obj.jnlMirrorOldestEno else s.obj Obj.jnlOldestEno

/-- An entry as the mirror gives it: KIND 0 where its burst is uncorrectable (R567). -/
def State.mirrored (s : State) (e : JEntry) : JEntry := if s.memBad.getD (s.mirrorAddr e.eno / 64) 0 = 2 then { e with kind := 0 } else e

/-- The entries of BLOCK, oldest first: from the ring while it holds them, else from the mirror. -/
def State.blockList (s : State) : List JEntry :=
  let start := max (s.obj Obj.jnlCursor) s.oldestHeld
  let ring := s.journal.filter (fun e => start ≤ e.eno)
  let low := s.obj Obj.jnlOldestEno
  let old := s.mirror.filter (fun e => start ≤ e.eno && e.eno < low)
  (old.reverse.map s.mirrored ++ ring.reverse).take 4096

/-! One object. -/

/-- The byte strings that are not held among the objects, or are computed; none where the object cannot be read now. -/
def State.readDom (s : State) (iss : Issuer) (k : Key) : Option Bytes :=
  if k = Obj.idVendor then some (ascii "Dolidom")
  else if k = Obj.idPart then some (partName s.otp.variant)
  else if k = Obj.idRevision then some (ascii "B0")
  else if k = Obj.certCertChain then some s.otp.certChain
  else if k = Obj.certDevicePubkey then some s.otp.pubKey
  else if k = Obj.certRootKey then some s.otp.rootKey
  else if k = Obj.jnlBlock then some (s.blockList.flatMap JEntry.bytes)
  else if 0x5C10 ≤ k / 256 ∧ k / 256 < 0x5CF8 ∧ k % 256 = 1 then some (instName (k / 256 - 0x5C10))
  else if k / 256 = 0x5400 ∧ 0x13 ≤ k % 256 ∧ k % 256 < 0x16 then
    let p := k % 256 - 0x13
    s.readCoder p (s.objFor iss (Obj.coderStateSel p))
  else some (s.domFor iss k)

/-- The value in force of a readable object, as bytes (R498). -/
def State.readValue (s : State) (iss : Issuer) (k : Key) (d : ObjDef) : Option Bytes :=
  if d.ty.bytes then s.readDom iss k
  else
    let v := if isTele k then s.teleValue k else (s.view iss.port k).getD (s.objFor iss k)
    some (le (d.ty.width / 8) v)

/-- The objects that a READ clears (R126, R131, R330, R407, R654, R716). -/
def readClears (k : Key) : Bool :=
  let ix := k / 256
  let sub := k % 256
  (0x3000 ≤ ix && ix < 0x3100 && sub == 0x0C) || (0x2400 ≤ ix && ix < 0x2410 && sub == 6)
    || (0x3800 ≤ ix && ix < 0x3808 && sub == 6) || (0x4000 ≤ ix && ix < 0x5000 && sub == 0x2D) || (ix == 0x5C01)
    || k == Obj.teleTjPeak || k == Obj.teleSupplyFlags

/-- What a read leaves behind. -/
def State.afterRead (s : State) (k : Key) : State :=
  if !readClears k then s else s.setObj k (if k = Obj.teleTjPeak then s.obj Obj.teleTj else 0)

/-- After a READ, the snapshot of an index of which it may have cleared an object is gone: the next is gathered anew. Within the READ every
object of an index came from one snapshot (R528). -/
def State.resweep (s : State) (keys : List Key) : State :=
  { s with swept := s.swept.filter (fun e => !keys.any (fun k => isTele k && readClears k && k / 256 == e.1)) }

/-- The result of one read entry (R506, R527): status, reason and value. -/
def State.readEntry (s : State) (iss : Issuer) (k : Key) (staged : Bool) : Nat × Nat × Bytes :=
  match findObj k with
  | none => (stRejected, reNoObject, [])
  | some d =>
    if absentIndex s.otp.variant (k / 256) then (stNotPresent, 0, [])
    else if d.acc = Acc.wo then (stRejected, reAccess, [])
    else
      match (if staged && d.acc == Acc.rws then (s.port iss.port).staging.find? (fun e => e.key = k) else none) with
      | some e => (stOk, 0, valBytes k e.val)
      | none =>
        match s.readValue iss k d with
        | some b => (if staged && d.acc == Acc.rws then stEmpty else stOk, 0, b)
        | none => (stNotPresent, 0, [])

/-- A read result (R506). -/
def readResult (k : Key) (status : Nat) (b : Bytes) : Bytes :=
  le 2 (k / 256) ++ le 1 k ++ le 1 status ++ le 1 b.length ++ zeros 3 ++ padTo 4 b

end Sys2Proof.Machine
end

