-- ==== Sys2Proof/Machine/Apply.lean ====
section
/-! DEFINITION. What one write does: the actions (R513), the values of objects that are not staged, the staging store (R518), the
paired objects (R521, R522). -/

namespace Sys2Proof.Machine

/-- What a write of one object has come to: the state, its outcome, and what its response waits for. -/
abbrev Acted := State × ObjOut × Option Wait

/-- An outcome that waits for nothing. -/
def done (r : State × ObjOut) : Acted := (r.1, r.2, none)

/-- A value as a number. -/
def Val.nat (v : Val) : Nat :=
  match v with
  | .num n => n
  | .byt _ => 0

/-- A value as bytes. -/
def Val.bytes (v : Val) : Bytes :=
  match v with
  | .byt b => b
  | .num _ => []

/-- Give an object of either kind its value. -/
def State.setVal (s : State) (k : Key) (v : Val) : State :=
  match v with
  | .num n => s.setObj k n
  | .byt b => s.setDom k b

/-- The value an object holds, of the kind of another. -/
def State.valLike (s : State) (k : Key) (v : Val) : Val :=
  match v with
  | .num _ => .num (s.obj k)
  | .byt _ => .byt (s.dom k)

/-- A device reset is asked for (R670, R671): BUSY in FAULT while its cause persists. -/
def State.askReset (s : State) (kind : Nat) (t : Tick) : State × ObjOut :=
  let k := Obj.devReset
  let cause := s.obj Obj.devFaultCause
  let persists : Bool :=
    if cause = 1 then !s.repair.recovered
    else if cause = 2 then decide (880 < s.int Obj.teleTj)
    else s.dev.railBad.any (fun r => decide (t < r + 10000000))
  if s.obj Obj.devDevState = 5 ∧ kind = 1 ∧ persists then (s, badOut k stBusy 0)
  else ({ s with dev := { s.dev with resets := s.dev.resets ++ [(t + 10000, kind)] } }, okOut k (.num kind))

/-- STATE_SEL (R470): the bits that name nothing are cleared. -/
def State.stateSel (s : State) (iss : Issuer) (k : Key) (v : Nat) : State × ObjOut :=
  let x := v &&& 0x70FFF
  ((s.setObj k x).keepCore iss k, clampedOut k (.num x) (if x = v then [] else [clampField k rpCleared 31 12 v x]))

/-- TRAIN (R367, R663): an accepted TRAIN enters TRAINING. -/
def State.trainDev (s : State) (t : Tick) : State × ObjOut :=
  let (s, o) := s.train t
  (if o.applies then s.setDev 2 t else s, o)

/-- CLEAR of a slot (R360): staged images and open transfers go, and the images of pending commits are cancelled. -/
def State.clearSlot (s : State) (slot : Nat) : State × ObjOut :=
  let img := Obj.slotImage slot
  let s := s.emptySlot slot
  let gone (e : Staged) : Staged := if e.key = img then { e with out := badOut img stRejected reCancelled } else e
  let ports := s.ports.map (fun p =>
    (p.1, { p.2 with staging := p.2.staging.filter (fun e => e.key ≠ img), pend := p.2.pend.map (fun c => { c with set := c.set.map gone }) }))
  ({ s with ports := ports, transfers := s.transfers.filter (fun x => x.key ≠ img) }, okOut (Obj.slotClear slot) (.num 1))

/-- A write of an object that is no action and is not staged: its value stands from the boundary on. -/
def State.setNow (s : State) (k : Key) (v : Val) : State × ObjOut :=
  let new := s.setVal k v
  match hostVerdict s new k with
  | some (st, r) => (s, badOut k st r)
  | none => (new.hostEffects s [k], okOut k v)

/-- A checked write acts at the boundary that opens tick t (R512, R513): the actions of every chapter, and plain values. -/
def State.act (s : State) (iss : Issuer) (k : Key) (v : Val) (t : Tick) : Acted :=
  let ix := k / 256
  let sub := k % 256
  let n := v.nat
  let b := v.bytes
  if k = Obj.devReset then done (s.askReset n t)
  else if k = Obj.tbTimeAction then done (s.timeAction n t)
  else if k = Obj.corrFreqCorr then (s.freqCorr n t, okOut k v, none)
  else if k = Obj.corrPhaseCorr then done (s.phaseCorr n t)
  else if 0x2204 ≤ ix ∧ ix < 0x2208 ∧ sub = 8 then done (s.picotWrite (ix - 0x2204) n)
  else if 0x3100 ≤ ix ∧ ix < 0x3120 ∧ sub = 0x44 then done (s.eyeRequest (ix - 0x3100) n)
  else if k = Obj.tableTableCmd then
    let answers := s.tableAnswers b
    let (s, o, w) := s.tableCmd iss.port b t
    (if answers then s.keepCore iss (Obj.tableTableResult 2) else s, o, w)
  else if k = Obj.swSwTrigger then (s.pulseLines t n, okOut k v, none)
  else if 0x3810 ≤ ix ∧ ix < 0x3820 ∧ sub = 7 then done (s.clearSlot (ix - 0x3810))
  else if k = Obj.cmmTrain then done (s.trainDev t)
  else if k = Obj.cmmLeaseCmd then
    let (s, o) := s.leaseCmd iss.port iss.core b
    (if leaseAnswers b then s.keepCore iss (Obj.cmmLeaseResult 2) else s, o, none)
  else if 0x4000 ≤ ix ∧ ix < 0x5000 ∧ sub = 0x11 then done (s.freeQueue (ix - 0x4000))
  else if 0x4000 ≤ ix ∧ ix < 0x5000 ∧ sub = 0x12 then done (s.askClose (ix - 0x4000))
  else if ix = 0x5400 ∧ 0x10 ≤ sub ∧ sub < 0x13 then done (s.stateSel iss k n)
  else if ix = 0x5400 ∧ 0x13 ≤ sub ∧ sub < 0x16 then
    done (s.writeCoder (sub - 0x13) (s.objFor iss (Obj.coderStateSel (sub - 0x13))) b)
  else if 0x5500 ≤ ix ∧ ix < 0x5510 ∧ sub = 1 then done (s.jobDesc iss (ix - 0x5500) b t)
  else if k = Obj.deflReleaseHandle then done (s.releaseHandle n)
  else if k = Obj.secOwnerKey then s.ownerKey b
  else if k = Obj.secPolicy then done (s.policy n)
  else if k = Obj.secPolicyFloor then done (s.policyFloor n)
  else if k = Obj.secFwSecRaise then done (s.fwSecRaise n)
  else if 0x1210 ≤ ix ∧ ix < 0x1218 ∧ sub = 7 then done (s.sessionClose (ix - 0x1210))
  else if k = Obj.hostMapInvalidate then done s.mapInvalidate
  else if k = Obj.fwFlashImage then s.flashImage b
  else if k = Obj.fwFlashConfig then s.flashConfig b
  else if k = Obj.fwFwRestart then done (s.fwRestart t)
  else if 0x5A10 ≤ ix ∧ ix < 0x5A14 ∧ sub = 2 then done (s.coreResetWrite (ix - 0x5A10) t)
  else if 0x5A60 ≤ ix ∧ ix < 0x5A68 ∧ sub = 5 then done (s.writeGolden (ix - 0x5A60) b t)
  else if 0x5A80 ≤ ix ∧ ix < 0x5A84 ∧ sub = 7 then done (s.resend (ix - 0x5A80) n)
  else if k = Obj.integMarchPreserve then done (s.march 1 n)
  else if k = Obj.integMarchDestroy then done (s.march 2 n)
  else if k = Obj.integMarchRecover then done (s.march 3 n)
  else if k = Obj.integFuseRepairs then s.fuseRepairs
  else done (s.setNow k v)

/-- The outcome of an action joined to that of the check before it. -/
def ObjOut.after (o chk : ObjOut) : ObjOut :=
  if o.applies then { o with status := if o.status = stOk ∧ chk.rep ≠ [] then stClamped else o.status, rep := chk.rep ++ o.rep }
  else o

/-- WRITTEN of the report of an object refused at the boundary (R508). -/
def ObjOut.refusedWith (o : ObjOut) (written : Val) : ObjOut := if stRejected ≤ o.status then o.fill written else o

/-! Staging (R518, R349). -/

/-- TIMINGS as staged (R366): no value is zero. -/
def timingsOk (b : Bytes) : Bool := (below 16).all (fun i => fieldAt b (4 * i) 4 != 0)

/-- The check of an entry that is to be staged: images, patches and TIMINGS have checks of their own (R333, R349, R366). -/
def State.stageCheck (s : State) (k : Key) (b : Bytes) (byTransfer : Bool) : State × ObjOut :=
  let ix := k / 256
  let o := s.checkEntry k b
  if !o.applies then (s, o)
  else if 0x3810 ≤ ix ∧ ix < 0x3820 ∧ k % 256 = 1 then
    if byTransfer then s.stageImage (ix - 0x3810) b else (s, badOut k stRejected reType)
  else if 0x3800 ≤ ix ∧ ix < 0x3808 ∧ k = Obj.bbPatch (ix - 0x3800) then (s, patchEntry k b)
  else if k = Obj.cmmTimings ∧ !timingsOk b then (s, rejOut k)
  else (s, o)

/-- Put a checked value into a port's staging store: STAGED, or BUSY where it would exceed the store. -/
def State.stage1 (s : State) (a : Accepted) (o : ObjOut) (written : Val) : State × ObjOut :=
  match o.applied with
  | none => (s, o)
  | some v =>
    let p := s.port a.iss.port
    let o := { o with status := stStaged }
    let e : Staged := { key := o.key, val := v, written := written, out := o, jseq := a.jseq, core := a.iss.core }
    let l := if p.staging.any (fun x => x.key = o.key) then p.staging.map (fun x => if x.key = o.key then e else x) else p.staging ++ [e]
    if 4096 < l.length ∨ 524288 < stagedBytes l then (s, (badOut o.key stBusy reStagingFull).fill written)
    else (s.setPort a.iss.port { p with staging := l }, o)

/-! Later writes of one boundary (R513). -/

/-- WRITTEN of an outcome: that of its report where it was clamped, else the value applied (R508). -/
def ObjOut.writtenLow (o : ObjOut) : Nat := ((o.rep.find? (fun r => r.key = o.key)).map (·.written)).getD ((o.applied.map lowOf).getD 0)

/-- Mark an outcome SUPERSEDED by a later command. -/
def ObjOut.superseded (o : ObjOut) (k : Key) (by_ : Nat) : ObjOut :=
  if o.key = k ∧ (o.status = stOk ∨ o.status = stClamped) then
    { o with status := stSuperseded,
             rep := o.rep ++ [{ key := k, status := stSuperseded, written := o.writtenLow, applied := (o.applied.map lowOf).getD 0, byJseq := by_ }] }
  else o

/-- The commands that land at the boundary and wrote the object earlier see it overwritten. -/
def State.supersede (s : State) (k : Key) (by_ : Nat) : State :=
  { s with landing := s.landing.map (fun l => { l with outs := l.outs.map (fun o => o.superseded k by_) }) }

/-- Of two entries of one command for one object the earlier is superseded by the command itself (R513). -/
def supersedeOwn (by_ : Nat) : List ObjOut → List ObjOut
  | [] => []
  | o :: t => (if t.any (fun x => x.key = o.key ∧ x.status ≤ stSuperseded) && !isAction o.key then o.superseded o.key by_ else o) :: supersedeOwn by_ t

/-- As supersede, for every object that a command applied as a value. -/
def State.supersedeAll (s : State) (outs : List ObjOut) (by_ : Nat) : State :=
  outs.foldl (fun s o => if (o.status = stOk ∨ o.status = stClamped) ∧ !isAction o.key then s.supersede o.key by_ else s) s

/-! Pairs (R521, R522). -/

/-- The partner of a paired object. -/
def pairPartner (k : Key) : Option Key :=
  if k = Obj.commIpv4Addr then some Obj.commIpv4Prefix
  else if k = Obj.commIpv4Prefix then some Obj.commIpv4Addr
  else if k = Obj.commIpv6Addr then some Obj.commIpv6Prefix
  else if k = Obj.commIpv6Prefix then some Obj.commIpv6Addr
  else if k = Obj.corrFreqCorr then some Obj.corrPhaseCorr
  else if k = Obj.corrPhaseCorr then some Obj.corrFreqCorr
  else if 0x1110 ≤ k / 256 ∧ k / 256 < 0x1118 ∧ k % 256 = 1 then some (k + 1)
  else if 0x1110 ≤ k / 256 ∧ k / 256 < 0x1118 ∧ k % 256 = 2 then some (k - 1)
  else none

/-- A unicast host address under a prefix, or the pair is off (R521). -/
def ipv4Ok (addr pre : Nat) : Bool :=
  let host := 2 ^ (32 - pre)
  let first := addr / 2 ^ 24
  addr == 0 || pre == 0
    || (1 ≤ first && first < 224 && first != 127 && addr % host != 0 && addr % host != host - 1)

/-- Zero, global unicast or unique local (R521). -/
def ipv6Ok (a : Bytes) : Bool :=
  let first := netAt a 0 1
  a.all (· == 0) || first / 32 == 1 || first / 2 == 0x7E

/-- The check of the pair that a value belongs to, on the state that would follow. -/
def State.pairOk (new : State) (k : Key) : Bool :=
  if k = Obj.commIpv4Addr ∨ k = Obj.commIpv4Prefix then ipv4Ok (new.obj Obj.commIpv4Addr) (new.obj Obj.commIpv4Prefix)
  else if k = Obj.commIpv6Addr ∨ k = Obj.commIpv6Prefix then ipv6Ok (new.dom Obj.commIpv6Addr)
  else true

/-- Paired values take effect together at the boundary of tick t: FREQ_CORR before PHASE_CORR, the others as a pair that passes or
is refused whole. -/
def State.applyPair (s : State) (iss : Issuer) (chks : List ObjOut) (t : Tick) : State × List ObjOut :=
  let vals := chks.filterMap (fun o => o.applied.map (fun v => (o.key, v)))
  if chks.any (fun o => o.key = Obj.corrFreqCorr || o.key = Obj.corrPhaseCorr) then
    let first := chks.filter (fun o => o.key = Obj.corrFreqCorr)
    let later := chks.filter (fun o => o.key ≠ Obj.corrFreqCorr)
    (first ++ later).foldl (fun (r : State × List ObjOut) chk =>
      match chk.applied with
      | some v => let (s, o, _) := r.1.act iss chk.key v t; (s, r.2 ++ [o.after chk])
      | none => (r.1, r.2 ++ [chk])) (s, [])
  else
    let new := vals.foldl (fun s e => s.setVal e.1 e.2) s
    if vals.all (fun e => new.pairOk e.1) then (new, chks)
    else (s, chks.map (fun o => if o.applied.isSome then rejOut o.key else o))

/-- One member of a pair takes effect at its own place (R521, R522), beside a partner's value that takes effect at the same boundary or stands. -/
def State.applyMember (s : State) (iss : Issuer) (chk : ObjOut) (partner : Option (Key × Val)) (t : Tick) : State × ObjOut :=
  match chk.applied with
  | none => (s, chk)
  | some v =>
    if chk.key = Obj.corrFreqCorr ∨ chk.key = Obj.corrPhaseCorr then
      let (s, o, _) := s.act iss chk.key v t
      (s, o.after chk)
    else
      let new := (match partner with
        | some p => s.setVal p.1 p.2
        | none => s).setVal chk.key v
      if new.pairOk chk.key then (s.setVal chk.key v, chk) else (s, rejOut chk.key)

/-- The held member of a pair for a port, if it is held. -/
def PortState.heldOf (p : PortState) (k : Key) : Option HeldPair := p.held.find? (fun h => h.key = k)

/-- The FINAL OUTCOME of a held write (R564): no response goes with it. -/
def heldLanding (h : HeldPair) (o : ObjOut) (t : Tick) : Landing :=
  { iss := h.iss, op := 0, tag := h.tag, jseq := h.jseq, effect := t, outs := [o] }

/-- A port's held value of a member goes, replaced by the value of a later command (R522): the earlier write ends SUPERSEDED. -/
def State.dropHeld (s : State) (port : Nat) (k : Key) (by_ : Nat) : State :=
  let p := s.port port
  match p.heldOf k with
  | none => s
  | some h =>
    let o : ObjOut := { key := k, status := stSuperseded,
                        rep := [{ key := k, status := stSuperseded, written := lowOf h.written, byJseq := by_ }] }
    { (s.setPort port { p with held := p.held.filter (fun x => x.key ≠ k) }) with landing := s.landing ++ [heldLanding h o (s.tick + 1)] }

/-- A port's held value of a member leaves its place, since its partner has come (R521). -/
def State.takeHeld (s : State) (port : Nat) (k : Key) : State :=
  s.setPort port { s.port port with held := (s.port port).held.filter (fun x => x.key ≠ k) }

/-- Hold a member for its port (R521, R522): a second write does not restart the time. -/
def State.holdPair (s : State) (a : Accepted) (k : Key) (written : Val) : State :=
  let since := (((s.port a.iss.port).heldOf k).map (·.since)).getD s.tick
  let s := s.dropHeld a.iss.port k a.jseq
  let p := s.port a.iss.port
  s.setPort a.iss.port { p with held := p.held ++ [{ iss := a.iss, jseq := a.jseq, tag := a.pkt.tag, key := k, written := written, since := since }] }

/-- The bytes that a held value was written as. -/
def heldBytes (h : HeldPair) : Bytes := valBytes h.key h.written

/-- What the command that held a member reports of it now that it has taken effect: the partner's response reports both (R521). -/
def State.heldReport (s : State) (h : HeldPair) : List RepEntry :=
  ((s.landing.reverse.find? (fun l => l.op = 0 ∧ l.jseq = h.jseq)).map (fun l => l.outs.flatMap (·.rep))).getD []

/-- Objects that a WRITE changed and that count for CONFIG_CHANGE (R520). -/
def changedOuts (outs : List ObjOut) : List ObjOut :=
  outs.filter (fun o => o.status ≤ stSuperseded && o.applied.isSome && !isAction o.key)

/-- CONFIG_CHANGE and DEV_STATE after the changes of one command (R26, R520, R665). -/
def State.settle (s : State) (kind : Nat) (iss : Issuer) (jseq : Nat) (outs : List ObjOut) (t : Tick) : State :=
  let l := changedOuts outs
  let s := if l.any (fun o => 0x2000 ≤ o.key / 256) then s.configChange kind iss.port (coreField iss) l.length jseq t else s
  s.devSync t

/-! One WRITE (R512-R515). -/

/-- The outcome that an entry has reached. -/
def Entry.out : Entry → ObjOut
  | .settled o => o
  | .acts o _ => o
  | .pairs o _ => o
  | .mate o _ _ => o

/-- The first part of an entry (R512, R518, R521): staged, held for its partner, or checked for the boundary. -/
def State.begin1 (s : State) (a : Accepted) (keys : List Key) (byTransfer : Bool) (k : Key) (b : Bytes) : State × Entry :=
  if isStaged k then
    let (s, o) := s.stageCheck k b byTransfer
    let o := o.fill (writtenVal k b)
    let (s, o) := if o.applies then s.stage1 a o (writtenVal k b) else (s, o)
    (if byTransfer then s.noteLoad k o.status else s, .settled o)
  else
    let o := s.checkEntry k b
    if !o.applies then (s, .settled o)
    else
      match pairPartner k with
      | none => (s, .acts o (writtenVal k b))
      | some m =>
        if keys.contains m then (s, .pairs o (writtenVal k b))
        else
          match (s.port a.iss.port).heldOf m with
          | some h => ((s.takeHeld a.iss.port m).await (.held h o), .mate o (writtenVal k b) h)
          | none => (s.holdPair a k (writtenVal k b), .settled { key := k, status := stPairPending, rep := if bit a.pkt.flags 0 then o.rep else [] })

/-- The entries of a command in order, up to the boundary. -/
def State.beginAll (s : State) (a : Accepted) (byTransfer : Bool) (l : List (Key × Bytes)) : State × List Entry :=
  l.foldl (fun (r : State × List Entry) e =>
    let (s, x) := r.1.begin1 a (l.map (·.1)) byTransfer e.1 e.2
    (s, r.2 ++ [x])) (s, [])

/-- What the boundary part of a command has come to so far: state, outcomes, pair members already applied, what it waits for. -/
structure Acting where
  s : State
  outs : List ObjOut := []
  paired : List ObjOut := []
  waits : Option Wait := none

/-- The boundary part of one entry. -/
def Acting.step (r : Acting) (a : Accepted) (all : List Entry) (t : Tick) (e : Entry) : Acting :=
  match e with
  | .settled o => { r with outs := r.outs ++ [o] }
  | .acts chk written =>
    match chk.applied with
    | none => { r with outs := r.outs ++ [chk] }
    | some v =>
      let (s, o, w) := r.s.act a.iss chk.key v t
      { r with s := s, outs := r.outs ++ [(o.after chk).refusedWith written], waits := r.waits.orElse (fun _ => w) }
  | .mate chk written h =>
    let (s, o) := r.s.applyMember a.iss chk (some (h.key, h.written)) t
    let o := o.refusedWith written
    { r with s := s, outs := r.outs ++ [{ o with rep := s.heldReport h ++ o.rep }] }
  | .pairs chk written =>
    match r.paired.find? (fun o => o.key = chk.key) with
    | some o => { r with outs := r.outs ++ [o.refusedWith written] }
    | none =>
        let partner := (pairPartner chk.key).getD 0
        let mates := all.filterMap (fun x => match x with
          | .pairs o _ => if o.key = partner then some o else none
          | _ => none)
        let s := (r.s.dropHeld a.iss.port chk.key a.jseq).dropHeld a.iss.port partner a.jseq
        let (s, outs) := s.applyPair a.iss (chk :: mates.take 1) t
        let o := ((outs.find? (fun o => o.key = chk.key)).getD chk).refusedWith written
        { r with s := s, outs := r.outs ++ [o], paired := r.paired ++ outs }

/-- Does an outcome make a STRICT command fail (R515)? -/
def strictFails (o : ObjOut) : Bool :=
  o.status == stClamped || stRejected ≤ o.status || o.rep.any (fun r => r.status == stClamped || stRejected ≤ r.status)

/-- The outcomes of a refused STRICT command: every entry as it would have been applied, and nothing applied (R515). -/
def strictReport (outs : List ObjOut) : List ObjOut :=
  outs.map (fun o => { o with applied := none, rep := if o.rep = [] then
    [{ key := o.key, status := o.status, written := (o.applied.map lowOf).getD 0, applied := (o.applied.map lowOf).getD 0 }] else o.rep })

end Sys2Proof.Machine
end

