-- ==== Sys2Proof/Machine/Landing.lean ====
section
/-! DEFINITION. The landing of a COMMIT (R23, R355, R513-R515): the checks that involve other objects, the clamps they make, the order
of the changes and what each chapter does with them at the boundary. -/

namespace Sys2Proof.Machine

/-- A change that a check of several objects makes: object, value, report. -/
abbrev Fix := Key × Nat × List RepEntry

/-- A fix of one whole object, where it is one. -/
def fixOne (new : State) (k : Key) (v reason width : Nat) : List Fix :=
  if new.obj k = v then [] else [(k, v, [clampEntry k reason width (new.obj k) v])]

/-- The clamps of the logic channels (R101, R107). -/
def lcFixes (new : State) (n : Nat) : List Fix :=
  let hi := new.obj (Obj.lcThrHi n)
  let lo := new.obj (Obj.lcThrLo n)
  let (h, l) := if new.obj (Obj.lcWinMode n) = 1 then windowFix hi lo (new.obj (Obj.lcHystHi n)) (new.obj (Obj.lcHystLo n)) else (hi, lo)
  let ft := new.obj (Obj.lcFilterT n)
  let fn := new.obj (Obj.lcFilterN n)
  let t := if ft = 0 then 0 else clampN ((fn + 1) / 2) fn ft
  fixOne new (Obj.lcThrHi n) h (if hi < h then rpRaised else rpLowered) 16
    ++ fixOne new (Obj.lcThrLo n) l (if lo < l then rpRaised else rpLowered) 16
    ++ fixOne new (Obj.lcFilterT n) t (if ft < t then rpRaised else rpLowered) 8

/-- The clamps of the capture memory's objects (R364, R366, R389, R394). -/
def cmmFixes (new : State) (ix : Nat) : List Fix :=
  if ix = 0x5000 then
    let r := new.obj Obj.cmmDataRate
    let v := clampRate (new.obj Obj.cmmDpc) r
    fixOne new Obj.cmmDataRate v (if r < v then rpRaised else rpLowered) 16
  else if 0x4000 ≤ ix ∧ ix < 0x5000 then
    let q := ix - 0x4000
    let g := new.obj Obj.cmmGuaranteeMbps
    let mx := new.obj (Obj.qQmax q)
    fixOne new (Obj.qCommitRate q) (min (new.obj (Obj.qCommitRate q)) g) rpLowered 32
      ++ (if mx = 0 then [] else fixOne new (Obj.qQmax q) (max mx (new.obj (Obj.qQmin q))) rpRaised 32)
  else if 0x5020 ≤ ix ∧ ix < 0x5030 then
    let p := ix - 0x5020
    let l := new.obj (Obj.poolLimit p)
    let v := min (max l (new.obj (Obj.poolReserve p))) (new.obj Obj.cmmUsablePages)
    if l = 0 then [] else fixOne new (Obj.poolLimit p) v (if l < v then rpRaised else rpLowered) 32
  else []

/-- Every clamp that a commit of objects of one index brings, on what it would leave. -/
def fixesOf (old new : State) (t : Tick) (ix : Nat) : List Fix :=
  let n := ix - 0x3420
  if 0x3000 ≤ ix ∧ ix < 0x3100 then lcFixes new (ix - 0x3000)
  else if 0x3600 ≤ ix ∧ ix < 0x3700 then unitFixes new (ix - 0x3600)
  else if 0x3420 ≤ ix ∧ ix < 0x3440 then
    fixOne new (Obj.flRtpPortHi n) (max (new.obj (Obj.flRtpPortHi n)) (new.obj (Obj.flRtpPortLo n))) rpRaised 16
  else if 0x2204 ≤ ix ∧ ix < 0x2208 then
    [6, 7].flatMap (fun sub =>
      let k := ix * 256 + sub
      match replaceTime old new k t with
      | some v => fixOne new k v rpRaised 80
      | none => [])
  else lineFixes new (ix * 256) ++ cmmFixes new ix

/-- TIMINGS as the controller can program it at the data rate that the commit leaves, R364's clamp on it made (R366, R727). -/
def timingsFix (new : State) (b : Bytes) : Bytes × List RepEntry :=
  let rate := clampRate (new.obj Obj.cmmDpc) (new.obj Obj.cmmDataRate)
  let each (i : Nat) : Nat × Nat := (fieldAt b (4 * i) 4, clampTiming rate i (fieldAt b (4 * i) 4))
  ((below 16).flatMap (fun i => le 4 (each i).2),
    (below 16).filterMap (fun i =>
      let (x, y) := each i
      if x = y then none else some { domField Obj.cmmTimings stClamped rpLowered (4 * i) 0 with written := x, applied := y }))

/-- The indices of keys, each once. -/
def indicesOf (keys : List Key) : List Nat := (keys.map (· / 256)).foldl (fun l i => if l.contains i then l else l ++ [i]) []

/-- The state that a set of values would leave as written. -/
def State.asWritten (s : State) (vals : List (Key × Val)) : State := vals.foldl (fun (s : State) e => s.setVal e.1 e.2) s

/-- The state that a set of values would leave, with the clamps applied, and the clamps. -/
def State.wouldBe (s : State) (vals : List (Key × Val)) (t : Tick) : State × List Fix × List RepEntry :=
  let new := s.asWritten vals
  let (new, tims) :=
    if vals.any (fun e => [Obj.cmmTimings, Obj.cmmDataRate, Obj.cmmDpc].contains e.1) then
      let (b, reps) := timingsFix new (new.dom Obj.cmmTimings)
      (new.setDom Obj.cmmTimings b, reps)
    else (new, [])
  let (new, fixes) := (indicesOf (vals.map (·.1))).foldl (fun (r : State × List Fix) ix =>
    let f := fixesOf s r.1 t ix
    (f.foldl (fun s e => s.setObj e.1 e.2.1) r.1, r.2 ++ f)) (new, [])
  (new, fixes, tims)

/-- The first verdict of the chapters on one object of a commit; none where it may apply. A unit is judged as it is written, before its clamps (R260). -/
def verdictOf (old raw new : State) (vals : List (Key × Val)) (k : Key) : Option (Nat × Nat) :=
  let nums := vals.map (fun e => (e.1, e.2.nat))
  let flow : Option (Nat × Nat) := if old.obj k = new.obj k then none else (old.flowVerdict k).map (fun o => (o.status, o.reason))
  ((((((captureVerdict old new nums k).orElse (fun _ => populationVerdict new k)).orElse (fun _ => timeVerdict old new k)).orElse
    (fun _ => synVerdict old new k)).orElse (fun _ => lineVerdict new k)).orElse (fun _ => unitVerdict raw k)).orElse (fun _ => flow)

/-- The values that no verdict refuses, and the refusals: a refusal may bring others, so the check is repeated until none comes. The sums over
queues and pools (R382, R389) are judged on what every other check lets through. -/
def State.sift (s : State) (t : Tick) : Nat → List (Key × Val) → List (Key × Nat × Nat) → List (Key × Val) × List (Key × Nat × Nat)
  | 0, vals, bad => (vals, bad)
  | f + 1, vals, bad =>
    let (new, _, _) := s.wouldBe vals t
    let more := vals.filterMap (fun e => (verdictOf s (s.asWritten vals) new vals e.1).map (fun v => (e.1, v.1, v.2)))
    -- TAI writes are judged by the DISC_SRC then in force (R722), so its own refusal comes first
    let more := if more.any (fun m => m.1 = Obj.tbDiscSrc) then more.filter (fun m => m.1 = Obj.tbDiscSrc) else more
    let nums := vals.map (fun e => (e.1, e.2.nat))
    let more := if more = [] then vals.filterMap (fun e => (sumVerdict s new nums e.1).map (fun v => (e.1, v.1, v.2))) else more
    if more = [] then (vals, bad)
    else s.sift t f (vals.filter (fun e => !more.any (fun m => m.1 = e.1))) (bad ++ more)

/-! Images, arming, patches (R355-R357). -/

/-- The images of a commit so far: state, units counted as changed, keys written with the slot write's JSEQ, names taken, outcomes. -/
structure Installed where
  s : State
  forced : List Nat := []
  wrote : List (Key × Nat) := []
  units : List Nat := []
  chans : List Nat := []
  outs : List ObjOut := []

/-- Install one image, or refuse it for a conflict with a lower slot (R356, R357). -/
def Installed.add (r : Installed) (e : Staged) : Installed :=
  let slot := e.key / 256 - 0x3810
  let img := e.val.bytes
  match meeting img r.units r.chans with
  | some byte =>
    let f := fieldId 0x31 byte 0
    { r with s := r.s.setObjs [(Obj.slotLoadStatus slot, stRejected), (Obj.slotFailField slot, f)],
             outs := r.outs ++ [{ key := e.key, status := stRejected, reason := reRange,
                                  rep := [{ key := e.key, status := stRejected, fieldId := f }] }] }
  | none =>
    let (s, us, keys, reps) := r.s.installImage slot img
    let (nu, nc) := imageNames img
    { r with s := s, forced := r.forced ++ us, wrote := r.wrote ++ keys.map (fun k => (k, e.jseq)), units := r.units ++ nu,
             chans := r.chans ++ nc, outs := r.outs ++ [{ key := e.key, applied := some e.val, rep := reps }] }

/-- Sort staged images by slot. -/
def bySlot (l : List Staged) : List Staged := (below 16).filterMap (fun n => l.find? (fun e => e.key = Obj.slotImage n))

/-- RUN of a Bobbin (R331, R332): arming from an empty slot is refused and RUN keeps its value. -/
def State.runBobbin (s old : State) (b run : Nat) (t : Tick) : State × ObjOut :=
  let k := Obj.bbRun b
  if run = 0 then (s.stopBobbin b t, okOut k (.num 0))
  else if !s.slotValid (s.obj (Obj.bbSlot b)) then (s.setObj k (old.obj k), rejOut k)
  else (s.armBobbin b t, okOut k (.num 1))

/-- One PATCH (R333). -/
def State.applyPatch (s : State) (e : Staged) : State × ObjOut :=
  let b := e.key / 256 - 0x3800
  if s.obj (Obj.bbState b) = 0 then (s, rejOut e.key) else (s.patchBobbin b e.val.bytes, okOut e.key e.val)

/-- Is a key the RUN of a Bobbin, the PATCH of one, a slot's image? -/
def isBobbinRun (k : Key) : Bool := 0x3800 ≤ k / 256 && k / 256 < 0x3808 && k == Obj.bbRun (k / 256 - 0x3800)

/-- PATCH. -/
def isPatch (k : Key) : Bool := 0x3800 ≤ k / 256 && k / 256 < 0x3808 && k == Obj.bbPatch (k / 256 - 0x3800)

/-! The landing. -/

/-- The outcome of an object that a commit applied as a value, with the clamps made at the boundary. -/
def appliedOut (new : State) (e : Staged) (fixes : List Fix) (tims : List RepEntry) : ObjOut :=
  let reps := (fixes.filter (fun f => f.1 = e.key)).flatMap (·.2.2) ++ if e.key = Obj.cmmTimings then tims else []
  clampedOut e.key (new.valLike e.key e.val) reps

/-- The staged objects of a commit apply in the order of R355: state and outcomes. An object that DEV_STATE or a strap holds is
BUSY (R657, R664). -/
def State.landSet (s : State) (set : List Staged) (t : Tick) : State × List ObjOut :=
  let set := set.map (fun e => if s.writeBusy e.key ∧ e.out.status < stRejected then { e with out := badOut e.key stBusy 0 } else e)
  let live := set.filter (fun e => e.out.status < stRejected)
  let plain := live.filter (fun e => !isImage e.key && !isPatch e.key)
  let (vals, bad) := s.sift t plain.length (plain.map (fun e => (e.key, e.val))) []
  let nums := vals.map (fun e => (e.1, e.2.nat))
  let (new, fixes, tims) := s.wouldBe vals t
  -- the stops first, on the configuration before the commit (R384); then its values
  let s1 := s.runStops nums t
  let s2 := { (fixes.foldl (fun s f => s.setObj f.1 f.2.1) (vals.foldl (fun (s : State) e => s.setVal e.1 e.2) s1)) with doms := new.doms }
  let inst := (bySlot (live.filter (fun e => isImage e.key))).foldl Installed.add { s := s2 }
  let keys := vals.map (·.1) ++ fixes.map (·.1) ++ inst.wrote.map (·.1)
  let s3 := inst.s
  let s4 := ((((s3.timeEffects s keys t).synEffects s keys t).lcEffects s t keys).lineEffects s t keys).unitEffects s t keys inst.forced
  let s5 := (((s4.codeEffects s keys).hostEffects s keys).serviceEffects s keys t).runStarts nums t
  let (s6, runs) := (nums.filter (fun e => isBobbinRun e.1)).foldl (fun (r : State × List ObjOut) e =>
    let (s', o) := r.1.runBobbin s (e.1 / 256 - 0x3800) e.2 t
    (s', r.2 ++ [o])) (s5, [])
  let (s7, patches) := (live.filter (fun e => isPatch e.key)).foldl (fun (r : State × List ObjOut) e =>
    let (s', o) := r.1.applyPatch e
    (s', r.2 ++ [o])) (s6, [])
  let own (e : Staged) : ObjOut :=
    if stRejected ≤ e.out.status then e.out
    else
      match bad.find? (fun b => b.1 = e.key) with
      | some b => badOut e.key b.2.1 b.2.2
      | none =>
        match (runs ++ patches ++ inst.outs).find? (fun o => o.key = e.key) with
        | some o => o
        | none =>
          let o := appliedOut new e fixes tims
          match inst.wrote.find? (fun w => w.1 = e.key) with
          | some w => o.superseded e.key w.2
          | none => o
  let extra := fixes.filter (fun f => !vals.any (fun e => e.1 = f.1))
  let s7 := (set.filter (fun e => isImage e.key)).foldl (fun s e => s.noteLoad e.key (own e).status) s7
  let timings : List ObjOut :=
    if tims = [] ∨ vals.any (fun e => e.1 = Obj.cmmTimings) then [] else [clampedOut Obj.cmmTimings (.byt (new.dom Obj.cmmTimings)) tims]
  let outs := set.map (fun e => (own e).fill e.written) ++ extra.map (fun f => clampedOut f.1 (.num f.2.1) f.2.2) ++ timings
  (s7, outs)

/-- A pending commit lands at the boundary that opens tick t (R23, R355, R513, R515, R520). -/
def State.landCommit (s : State) (c : Pending) (t : Tick) : State :=
  let p := s.port c.iss.port
  let s := s.setPort c.iss.port { p with pend := p.pend.filter (fun x => x.jseq ≠ c.jseq) }
  let (done_, outs) := s.landSet c.set t
  let strict := bit c.flags 0
  let l : Landing := { iss := c.iss, op := opCommit, flags := c.flags, trailer := c.trailer, tag := c.tag, jseq := c.jseq,
                       pktCrc := c.pktCrc, effect := t }
  if strict ∧ outs.any strictFails then
    { s with landing := s.landing ++ [{ l with fixed := some (stRejected, reStrict), outs := strictReport outs }] }
  else
    let s := (done_.supersedeAll outs c.jseq).settle 1 c.iss c.jseq outs t
    let s := { s with landing := s.landing ++ [{ l with outs := outs }] }
    s.notify 10 c.iss.port c.jseq t

/-- Every pending commit, in the order of JSEQ. -/
def State.allPending (s : State) : List Pending :=
  (s.ports.flatMap (fun p => p.2.pend)).foldl (fun l c => l.filter (fun x => x.jseq < c.jseq) ++ [c] ++ l.filter (fun x => c.jseq < x.jseq)) []

/-- The commits that are due at a boundary. -/
def State.dueCommits (s : State) (t : Tick) : List Pending := s.allPending.filter (fun c => c.target ≤ t)

/-- A port's pending commit of a JSEQ lands, as it stands by then (R360, R518). -/
def State.landPending (s : State) (port jseq : Nat) (t : Tick) : State :=
  match (s.port port).pend.find? (fun x => x.jseq = jseq) with
  | some c => s.landCommit c t
  | none => s

/-- COMMIT_LAND (R513, R517): a port's first commit whose boundary is the one that opens the next tick lands there, with the other changes
of that boundary, in the order of JSEQ. -/
def execCommitLand (port : Nat) (s : State) : Ans :=
  match (s.dueCommits (s.tick + 1)).find? (fun c => c.iss.port = port) with
  | none => .next s
  | some c => .next (s.await (.commit port c.jseq))

end Sys2Proof.Machine
end

