-- ==== Sys2Proof/Machine/Commands.lean ====
section
/-! DEFINITION. The commands of the dictionary (R502-R527, R719): READ, WRITE, COMMIT, DISCARD, the transfers, the pair timeout, and the
journal's mirror. -/

namespace Sys2Proof.Machine

/-! READ (R506, R527). -/

/-- Serve the entries in order while their results fit: the body, how many were served, the statuses with their reasons, the state. -/
def State.serve (s : State) (iss : Issuer) (room : Nat) : List (Key × Bool) → Bytes → List (Nat × Nat) → Bytes × List (Nat × Nat) × State
  | [], body, sts => (body, sts, s)
  | (k, staged) :: rest, body, sts =>
    let (st, r, b) := s.readEntry iss k staged
    let whole := readResult k st b
    if room < whole.length then
      let head := readResult k stRejected []
      if room < body.length + head.length then (body, sts, s)
      else s.serve iss room rest (body ++ head) (sts ++ [(stRejected, reRange)])
    else if room < body.length + whole.length then (body, sts, s)
    else (if st = stOk then s.afterRead k else s).serve iss room rest (body ++ whole) (sts ++ [(st, r)])

/-- The status of a READ from its entries (R510). -/
def readStatus (sts : List (Nat × Nat)) : Nat :=
  if sts.any (fun e => e.1 = stOk) then stOk else (sts.head?.map (·.1)).getD stEmpty

/-- The first reason of R510's table among the entries. -/
def readReason (sts : List (Nat × Nat)) : Nat := sts.foldl (fun r e => if e.2 ≠ 0 ∧ (r = 0 ∨ e.2 < r) then e.2 else r) 0

/-- The objects of the entries that were served with a value. -/
def readKeys (l : List (Key × Bool)) (sts : List (Nat × Nat)) : List Key := ((l.zip sts).filter (fun e => e.2.1 = stOk)).map (·.1.1)

/-- The entries that were served, as LAST_ERROR takes them (R510, R533). -/
def readOuts (l : List (Key × Bool)) (sts : List (Nat × Nat)) : List ObjOut := (l.zip sts).map (fun e => badOut e.1.1 e.2.1 e.2.2)

/-- READ (R503, R506, R527, R528). -/
def execRead (iss : Issuer) (pkt : Bytes) (s : State) : Ans :=
  .next (s.packet opRead iss pkt (fun a s =>
    let l := readEntries a.pkt.entries a.pkt.body
    let (body, sts, s) := s.serve iss (if a.auth = [] then 224 else 192) l [] []
    (s.resweep (readKeys l sts)).reply iss a.auth opRead a.pkt.tag (readStatus sts) (readReason sts) 0 sts.length body (readOuts l sts)))

/-! WRITE (R512-R515). -/

/-- Is every entry of a command staged (R503)? -/
def allStaged (l : List (Key × Bytes)) : Bool := l.all (fun e => isStaged e.1)

/-- Does an outcome wait for its pair (R521)? -/
def ObjOut.waitsPair (o : ObjOut) : Bool := o.status == stPairPending

/-- What entries have come to at acceptance: those that no boundary brings. -/
def settledOuts (es : List Entry) : List ObjOut :=
  es.filterMap (fun e => match e with
    | .settled o => some o
    | _ => none)

/-- A command of write entries: WRITE, or SEG_END of a transfer (R512-R516, R520, R525). It ends at acceptance where every entry is staged; a STRICT
one waits for its boundary whole; one with a held member is answered at once, and its other entries take effect at the boundary. -/
def State.writeCmd (s : State) (a : Accepted) (byTransfer : Bool) (l : List (Key × Bytes)) : State :=
  if l = [] then s.endNow a stEmpty 0
  else if bit a.pkt.flags 0 then s.await (.strict a byTransfer l)
  else
    let (s, es) := s.beginAll a byTransfer l
    let outs := settledOuts es
    if allStaged l then s.finish { a.landing with outs := outs } s.tick
    else if outs.any ObjOut.waitsPair then
      let s := s.finish { a.landing with fixed := some (stPairPending, leastReason outs), outs := outs, final := false } s.tick
      if outs.length < es.length then s.await (.write a es) else s
    else s.await (.write a es)

/-- WRITE (R503, R512-R516). -/
def execWrite (iss : Issuer) (pkt : Bytes) (s : State) : Ans :=
  .next (s.packet opWrite iss pkt (fun a s => s.writeCmd a false ((writeEntries a.pkt.entries a.pkt.body).getD [])))

/-- PAIR_TIMEOUT (R521): the held value of a port that has waited 1,000,000 ticks is checked alone at the boundary that opens the next tick. -/
def execPairTimeout (port : Nat) (s : State) : Ans :=
  match (s.port port).held.find? (fun h => h.since + 1000000 ≤ s.tick + 1) with
  | none => .next s
  | some h => .next ((s.takeHeld port h.key).await (.alone h))

/-! COMMIT and DISCARD (R517, R518). -/

/-- A COMMIT as accepted (R517, R518). -/
def State.takeCommit (s : State) (a : Accepted) : State :=
  let p := s.port a.iss.port
  let target := fieldAt a.pkt.body 0 8
  if fieldAt a.pkt.body 10 6 ≠ 0 then s.endNow a stRejected reRange
  else if target ≠ 0 ∧ target ≤ s.tick then s.endNow a stRejected reTargetPast
  else if s.tick + 2 ^ 40 < target then s.endNow a stRejected reTargetFar
  else if p.staging = [] then s.endNow a stEmpty 0
  else if 4 ≤ p.pend.length then s.endNow a stBusy rePendingFull
  else
    let c : Pending := { iss := a.iss, jseq := a.jseq, tag := a.pkt.tag, flags := a.pkt.flags, trailer := a.auth, pktCrc := pktCrc a.pkt.raw,
                         target := if target = 0 then s.tick + 1 else target, set := p.staging }
    s.setPort a.iss.port { p with pend := p.pend ++ [c], staging := [] }

/-- COMMIT (R503, R517, R518). -/
def execCommit (iss : Issuer) (pkt : Bytes) (s : State) : Ans := .next (s.packet opCommit iss pkt (fun a s => s.takeCommit a))

/-- A pending commit ends without landing (R518). -/
def State.cancelCommit (s : State) (c : Pending) (reason : Nat) (t : Tick) : State :=
  let p := s.port c.iss.port
  let l : Landing := { iss := c.iss, op := opCommit, flags := c.flags, trailer := c.trailer, tag := c.tag, jseq := c.jseq,
                       pktCrc := c.pktCrc, effect := t, fixed := some (stRejected, reason) }
  { (s.setPort c.iss.port { p with pend := p.pend.filter (fun x => x.jseq ≠ c.jseq) }) with landing := s.landing ++ [l] }

/-- Every pending commit of the ports a test names is cancelled. -/
def State.cancelAll (s : State) (ports : Nat → Bool) (reason : Nat) (t : Tick) : State :=
  (s.allPending.filter (fun c => ports c.iss.port)).foldl (fun s c => s.cancelCommit c reason t) s

/-- DISCARD as accepted: it acts at the next boundary (R503, R518). -/
def State.discard (s : State) (a : Accepted) : State :=
  let v := fieldAt a.pkt.body 0 4
  if 3 < v then s.endNow a stRejected reRange
  else if v = 0 then s.endNow a stEmpty 0
  else s.await (.discard a v)

/-- DISCARD (R503, R518). -/
def execDiscard (iss : Issuer) (pkt : Bytes) (s : State) : Ans := .next (s.packet opDiscard iss pkt (fun a s => s.discard a))

/-! The boundary (R22, R512, R513). -/

/-- The entries of a WRITE take effect at the boundary that opens tick t, and the command's end waits for the tick; of a command that was
answered PAIR_PENDING only the outcome is journaled (R503, R564). -/
def State.landWrite (s : State) (a : Accepted) (es : List Entry) (t : Tick) : State :=
  let r := es.foldl (fun r e => r.step a es t e) { s := s : Acting }
  let outs := supersedeOwn a.jseq r.outs
  let s := (r.s.supersedeAll outs a.jseq).settle 2 a.iss a.jseq outs t
  if (settledOuts es).any ObjOut.waitsPair then
    { s with landing := s.landing ++ [{ a.landing with op := 0, effect := t, outs := outs.filter (fun o => !o.waitsPair && o.status != stStaged), final := false }] }
  else { s with landing := s.landing ++ [{ a.landing with effect := t, outs := outs, waits := r.waits }] }

/-- A held member whose partner has come takes effect, in the place of the write that held it (R521, R522). -/
def State.landHeld (s : State) (h : HeldPair) (mate : ObjOut) (t : Tick) : State :=
  let (s, o) := s.applyMember h.iss (s.checkEntry h.key (heldBytes h)) (mate.applied.map (fun v => (mate.key, v))) t
  let o := o.refusedWith h.written
  let s := (s.supersedeAll [o] h.jseq).settle 2 h.iss h.jseq [o] t
  { s with landing := s.landing ++ [heldLanding h o t] }

/-- A STRICT WRITE is checked and applied whole at its boundary, or refused whole (R515). -/
def State.landStrict (s : State) (a : Accepted) (byTransfer : Bool) (l : List (Key × Bytes)) (t : Tick) : State :=
  let (s1, es) := s.beginAll a byTransfer l
  let s1 := s1.due.foldl (fun s d => match d with
    | .held h m => s.landHeld h m t
    | _ => s) { s1 with due := [] }
  let r := es.foldl (fun r e => r.step a es t e) { s := s1 : Acting }
  let outs := supersedeOwn a.jseq r.outs
  if outs.any strictFails then
    { s with landing := s.landing ++ [{ a.landing with effect := t, fixed := some (stRejected, reStrict), outs := strictReport outs }] }
  else
    let s := (r.s.supersedeAll outs a.jseq).settle 2 a.iss a.jseq outs t
    if outs.any ObjOut.waitsPair then
      { s with landing := s.landing ++ [{ a.landing with effect := t, fixed := some (stPairPending, leastReason outs), outs := outs, final := false }] }
    else { s with landing := s.landing ++ [{ a.landing with effect := t, outs := outs, waits := r.waits }] }

/-- The held value of a port whose partner has not come is checked alone against the partner in force (R521). -/
def State.landAlone (s : State) (h : HeldPair) (t : Tick) : State :=
  let (s, o) := s.applyMember h.iss (s.checkEntry h.key (heldBytes h)) none t
  let e : RepEntry := { key := h.key, status := o.status, fieldId := rePairTimeout * 2 ^ 24, written := lowOf h.written,
                        applied := (o.applied.map lowOf).getD 0 }
  let o := { o with rep := [e] }
  let s := (s.supersedeAll [o] h.jseq).settle 2 h.iss h.jseq [o] t
  let (detail, s) := s.fresh
  { s with landing := s.landing ++ [{ heldLanding h o t with fixed := some (o.status, rePairTimeout) }] }.notify 9 h.iss.port (detail % 2 ^ 64) t

/-- A DISCARD acts (R518). -/
def State.landDiscard (s : State) (a : Accepted) (v : Nat) (t : Tick) : State :=
  let port := a.iss.port
  let s := if bit v 0 then s.setPort port { s.port port with staging := [] } else s
  let s := if bit v 1 then s.cancelAll (· == port) reCancelled t else s
  { s with landing := s.landing ++ [{ a.landing with effect := t, fixed := some (stOk, 0) }] }

/-- The place of what waits in the order of its boundary: the JSEQ of the command that carries it (R513, R522). -/
def Due.place : Due → Nat
  | .write a _ => a.jseq
  | .strict a _ _ => a.jseq
  | .held h _ => h.jseq
  | .alone h => h.jseq
  | .discard a _ => a.jseq
  | .commit _ j => j
  | .point => 2 ^ 64
  | .pulse _ => 2 ^ 64

/-- Put what waits into its place, behind what has the same place. -/
def dueInto : List Due → Due → List Due
  | [], d => [d]
  | x :: l, d => if d.place < x.place then d :: x :: l else x :: dueInto l d

/-- What takes effect at the boundary that opens tick t, in its order: what waits, and the pending commits whose target has come. -/
def State.dueAt (s : State) (t : Tick) : List Due :=
  let commits := (s.dueCommits t).map (fun c => Due.commit c.iss.port c.jseq)
  (s.due ++ commits.filter (fun d => !s.due.contains d)).foldl dueInto []

/-- One of them takes effect. -/
def State.landDue (s : State) (t : Tick) : Due → State
  | .write a es => s.landWrite a es t
  | .strict a b l => s.landStrict a b l t
  | .held h m => s.landHeld h m t
  | .alone h => s.landAlone h t
  | .discard a v => s.landDiscard a v t
  | .commit p j => s.landPending p j t
  | .point => s.mapPoint t
  | .pulse n => s.beginPulse n t

/-- The boundary that opens the next tick: every change of configuration takes effect, and no other step brings one (R16, R22, R23, R513). -/
def State.atBoundary (s : State) : State :=
  let t := s.tick + 1
  (s.dueAt t).foldl (fun s d => s.landDue t d) { s with due := [] }

/-! Transfers (R523-R526). -/

/-- The first XFER number from a place on that no open transfer has. -/
def State.freeXfer (s : State) (start : Nat) : Nat :=
  ((firstFrom (fun n => !s.transfers.any (fun x => x.xfer = (start + n) % 65536)) 65536 0).getD 0 + start) % 65536

/-- Why a transfer to an object may not start: status and reason, none where it may (R348, R500, R504, R523). -/
def State.startRefusal (s : State) (i : Issuer) (k : Key) (total : Nat) : Option (Nat × Nat) :=
  match findObj k with
  | none => some (stRejected, reNoObject)
  | some d =>
    let (lo, hi) := match d.rng with
      | .len lo hi => (lo, hi)
      | _ => (0, 0)
    if absentIndex s.otp.variant (k / 256) then some (stNotPresent, 0)
    else if d.ty ≠ Ty.dom then some (stRejected, reType)
    else if d.acc = Acc.ro then some (stRejected, reAccess)
    else if s.writeBusy k then some (stBusy, 0)
    else if total = 0 then some (if d.zeroEmpty then (stEmpty, 0) else (stRejected, reRange))
    else if total < lo ∨ hi < total then some (stRejected, reRange)
    else if 4 ≤ (s.transfers.filter (fun x => x.iss.port = i.port)).length then some (stBusy, reSegLimit)
    else if isImage k ∧ s.transfers.any (fun x => x.key = k) then some (stBusy, 0)
    else none

/-- SEG_START as accepted (R523): the XFER number is the engine's own choice. -/
def State.segStart (s : State) (a : Accepted) : State :=
  let k := 256 * fieldAt a.pkt.body 0 2 + fieldAt a.pkt.body 2 1
  let total := fieldAt a.pkt.body 4 4
  let refused (st r : Nat) : State := s.finish { a.landing with fixed := some (st, r), outs := [{ badOut k st r with rep := [] }] } s.tick
  if fieldAt a.pkt.body 3 1 ≠ 0 then refused stRejected reRange
  else
    match s.startRefusal a.iss k total with
    | some (st, r) => refused st r
    | none =>
      let (r, s) := s.fresh
      let x := s.freeXfer (r % 65536)
      let tr : Transfer := { xfer := x, iss := a.iss, key := k, total := total, data := [], last := s.tick, session := a.auth.take 8 }
      { s with transfers := s.transfers ++ [tr] }.finish { a.landing with fixed := some (stOk, 0), effect := x } s.tick

/-- SEG_START (R503, R523). -/
def execSegStart (iss : Issuer) (pkt : Bytes) (s : State) : Ans := .next (s.packet opSegStart iss pkt (fun a s => s.segStart a))

/-- SEG_DATA as accepted (R524): data in order, 1 to 3 fill bytes at the end ignored. -/
def State.segData (s : State) (a : Accepted) : State :=
  match s.transferOf a.iss (fieldAt a.pkt.body 0 2) with
  | none => s.endNow a stRejected reRange
  | some x =>
    let data := a.pkt.body.drop 8
    let room := x.total - x.data.length
    if fieldAt a.pkt.body 2 2 ≠ 0 then s.endNow a stRejected reRange
    else
      let put (d : Bytes) : State :=
        { s with transfers := s.transfers.map (fun y => if y.xfer = x.xfer ∧ y.mine a.iss then { x with data := d, last := s.tick } else y) }
      if fieldAt a.pkt.body 4 4 ≠ x.data.length then (put x.data).endNow a stRejected reSegOrder
      else if room + 4 ≤ data.length then (put x.data).endNow a stRejected reRange
      else if data = [] then (put x.data).endNow a stEmpty 0
      else (put (x.data ++ data.take room)).endNow a stOk 0

/-- SEG_DATA (R503, R524). -/
def execSegData (iss : Issuer) (pkt : Bytes) (s : State) : Ans := .next (s.packet opSegData iss pkt (fun a s => s.segData a))

/-- An open transfer closes. -/
def State.closeXfer (s : State) (x : Transfer) : State :=
  { s with transfers := s.transfers.filter (fun y => !(y.xfer == x.xfer && y.iss.port == x.iss.port)) }

/-- SEG_END as accepted (R525): the whole value is one write entry. -/
def State.segEnd (s : State) (a : Accepted) : State :=
  match s.transferOf a.iss (fieldAt a.pkt.body 0 2) with
  | none => s.endNow a stRejected reRange
  | some x =>
    if fieldAt a.pkt.body 2 2 ≠ 0 then s.endNow a stRejected reRange
    else if x.data.length ≠ x.total ∨ crc32 x.data ≠ fieldAt a.pkt.body 4 4 then ((s.closeXfer x).noteLoad x.key stRejected).endObj a (badOut x.key stRejected reSegCrc)
    else (s.closeXfer x).writeCmd a true [(x.key, x.data)]

/-- SEG_END (R503, R525). -/
def execSegEnd (iss : Issuer) (pkt : Bytes) (s : State) : Ans := .next (s.packet opSegEnd iss pkt (fun a s => s.segEnd a))

/-- SEG_ABORT (R503, R525). -/
def execSegAbort (iss : Issuer) (pkt : Bytes) (s : State) : Ans :=
  .next (s.packet opSegAbort iss pkt (fun a s =>
    match s.transferOf a.iss (fieldAt a.pkt.body 0 2) with
    | none => s.endNow a stRejected reRange
    | some x => (s.closeXfer x).endNow a stOk 0))

/-- TRANSFER_IDLE_TIMEOUT (R525). -/
def execTransferIdleTimeout (port xfer : Nat) (s : State) : Ans :=
  match s.transfers.find? (fun x => x.iss.port = port ∧ x.xfer = xfer) with
  | some x => if x.last + 1000000000 ≤ s.tick + 1 then .next (s.closeXfer x) else .next s
  | none => .next s

/-- The read buffer of an issuer (R519, R526). -/
def bufOf (i : Issuer) : Nat := if i.port = 2 then 2 + i.core else i.port

/-- Reading the entries of BLOCK that the ring no longer holds counts the faulty bursts of the mirror (R370). -/
def State.countMirror (s : State) : State :=
  let low := s.obj Obj.jnlOldestEno
  let bursts := ((s.blockList.filter (fun e => e.eno < low)).map (fun e => s.mirrorAddr e.eno / 64)).eraseDups
  bursts.foldl (fun s b =>
    let m := s.chunkChannel (b / 1024) (64 * b % 65536)
    match s.memBad.find b with
    | none => s
    | some n => s.bump (if n = 1 then Obj.mcCntCorrected m else Obj.mcCntUncorrectable m) 1) s

/-- SEG_READ as accepted (R507, R526). -/
def State.segRead (s : State) (a : Accepted) : State :=
  let i := a.iss
  let k := 256 * fieldAt a.pkt.body 0 2 + fieldAt a.pkt.body 2 1
  let len := min (fieldAt a.pkt.body 3 1) (if a.auth = [] then 216 else 184)
  let off := fieldAt a.pkt.body 4 4
  let answer (s : State) (st r : Nat) : State := s.reply i a.auth opSegRead a.pkt.tag st r 0 0 [] [badOut k st r]
  let serve (s : State) (b : ReadBuf) : State :=
    if b.bad then answer s stRejected reRange
    else s.reply i a.auth opSegRead a.pkt.tag stOk 0 0 1 (readResult k stOk ((b.data.drop off).take len))
  if len = 0 then answer s stEmpty 0
  else if off ≠ 0 then
    match s.readBufs.find (bufOf i) with
    | some b => if b.key = k then serve s b else answer s stRejected reSegOrder
    | none => answer s stRejected reSegOrder
  else
    let (st, r, v) := s.readEntry i k false
    if st ≠ stOk then answer s st r
    else
      let s := if k = Obj.jnlBlock then s.setObj Obj.jnlBlockEno ((s.blockList.head?.map (·.eno)).getD (s.obj Obj.jnlNextEno)) else s
      let s := if k = Obj.jnlBlock then s.countMirror else s
      let b : ReadBuf := { key := k, data := v.take 131072 }
      serve ({ (s.afterRead k).resweep [k] with readBufs := s.readBufs.set (bufOf i) b }) b

/-- SEG_READ (R503, R507, R526, R568). -/
def execSegRead (iss : Issuer) (pkt : Bytes) (s : State) : Ans := .next (s.packet opSegRead iss pkt (fun a s => s.segRead a))

/-! The journal's mirror (R566, R567). -/

/-- The next ENO that the mirror has not taken. -/
def State.mirrorNext (s : State) : Nat := (s.mirror.head?.map (fun e => e.eno + 1)).getD 0

/-- MIRROR_COPY (R566, R567): the oldest entry not yet copied goes into the DDR ring; entries that the on-chip ring has overwritten
are lost from the mirror. -/
def execMirrorCopy (s : State) : Ans :=
  let size := s.cmm.mirror
  let next := max s.mirrorNext (s.obj Obj.jnlMirrorOldestEno)
  let old := s.obj Obj.jnlOldestEno
  if size = 0 ∨ s.obj Obj.cmmMemState ≠ 2 ∨ s.obj Obj.jnlNextEno ≤ next then .next s
  else
    match s.journal.find? (fun e => e.eno = max next old) with
    | none => .next s
    | some e =>
      let l : List JEntry := (e :: s.mirror).take size
      let s := ({ s with mirror := l }.scrubMem (s.mirrorAddr e.eno) 32).setObj Obj.jnlMirrorOldestEno (((l.getLast?).map (fun (x : JEntry) => x.eno)).getD e.eno)
      if old ≤ next then .next s
      else .next (((s.setObj Obj.jnlMirrorState 2).bump Obj.jnlCntMirrorLost (old - next)).jSystem 3 (old - next) s.tick)

end Sys2Proof.Machine
end

