-- ==== Sys2Proof/Machine/Actions.lean ====
section
/-! DEFINITION. The rows that are one write of one object: the command's packet carries that one entry. A value too long for a packet
(R504) comes as the SEG_END of a transfer that has brought it (R525). -/

namespace Sys2Proof.Machine

/-- The packet of a write of one number. -/
def numPacket (c : WriteCmd) (k : Key) (v : Nat) : Bytes :=
  writePacket c.tag c.flags 1 (writeEntry k (valBytes k (.num v))) c.trailer

/-- A write of one number to one object. -/
def State.writeNum (s : State) (c : WriteCmd) (k : Key) (v : Nat) : State :=
  s.packet opWrite c.iss (numPacket c k v) (fun a s => s.writeCmd a false ((writeEntries a.pkt.entries a.pkt.body).getD []))

/-- The packet of a write of one byte string. -/
def bytPacket (c : BytesCmd) (k : Key) : Bytes := writePacket c.tag c.flags 1 (writeEntry k c.value) c.trailer

/-- The packet of a SEG_END (R503). -/
def segEndPacket (c : BytesCmd) (xfer : Nat) : Bytes :=
  le 1 opSegEnd ++ le 1 1 ++ le 1 c.flags ++ [0] ++ le 2 (24 + c.trailer.length) ++ [0, 0] ++ le 4 c.tag ++ zeros 4
    ++ le 2 xfer ++ [0, 0] ++ le 4 (crc32 c.value) ++ c.trailer

/-- A write of one byte string that fits a packet. -/
def State.writeByt (s : State) (c : BytesCmd) (k : Key) : State :=
  s.packet opWrite c.iss (bytPacket c k) (fun a s => s.writeCmd a false ((writeEntries a.pkt.entries a.pkt.body).getD []))

/-- The open transfer of the issuer that holds the whole value for an object, if there is one. -/
def State.wholeTransfer (s : State) (c : BytesCmd) (k : Key) : Option Transfer :=
  s.transfers.find? (fun x => x.key = k ∧ x.mine c.iss ∧ x.total = c.value.length ∧ x.data = c.value)

/-- A write of a byte string of any length: in a WRITE where it fits, else as the SEG_END of the transfer that has brought it (SEG_START
and SEG_DATA have their own rows). -/
def State.writeLong (s : State) (c : BytesCmd) (k : Key) : State :=
  if c.value.length + 20 + c.trailer.length ≤ 256 then s.writeByt c k
  else
    match s.wholeTransfer c k with
    | none => s
    | some x => s.packet opSegEnd c.iss (segEndPacket c x.xfer) (fun a s => s.segEnd a)

/-- SESSION_CLOSE: a write of CLOSE (R546, R570). -/
def execSessionClose (c : WriteCmd) (slot : Nat) (s : State) : Ans := .next (s.writeNum c (Obj.sessClose (slot % 8)) c.value)

/-- OWNER_KEY (R538, R539). -/
def execOwnerKey (c : BytesCmd) (s : State) : Ans := .next (s.writeLong c Obj.secOwnerKey)

/-- POLICY_FLOOR (R556). -/
def execPolicyFloor (c : WriteCmd) (s : State) : Ans := .next (s.writeNum c Obj.secPolicyFloor c.value)

/-- FW_SEC_RAISE (R559). -/
def execFwSecRaise (c : WriteCmd) (s : State) : Ans := .next (s.writeNum c Obj.secFwSecRaise c.value)

/-- STEP_NOW: TIME_ACTION 1 (R54). -/
def execStepNow (c : WriteCmd) (s : State) : Ans := .next (s.writeNum c Obj.tbTimeAction 1)

/-- SLEW_NOW: TIME_ACTION 2 (R54). -/
def execSlewNow (c : WriteCmd) (s : State) : Ans := .next (s.writeNum c Obj.tbTimeAction 2)

/-- REALIGN: TIME_ACTION 3 (R723). -/
def execRealign (c : WriteCmd) (s : State) : Ans := .next (s.writeNum c Obj.tbTimeAction 3)

/-- FREQ_CORR (R51, R521). -/
def execFreqCorr (c : WriteCmd) (s : State) : Ans := .next (s.writeNum c Obj.corrFreqCorr c.value)

/-- PHASE_CORR (R51, R521). -/
def execPhaseCorr (c : WriteCmd) (s : State) : Ans := .next (s.writeNum c Obj.corrPhaseCorr c.value)

/-- PICOT_STEPS (R85). -/
def execPicotSteps (c : WriteCmd) (n : Nat) (s : State) : Ans := .next (s.writeNum c (Obj.synOPicotSteps (n % 4)) c.value)

/-- SW_TRIGGER (R294). -/
def execSwTrigger (c : WriteCmd) (s : State) : Ans := .next (s.writeNum c Obj.swSwTrigger c.value)

/-- EYE_REQUEST (R160). -/
def execEyeRequest (c : WriteCmd) (lane : Nat) (s : State) : Ans := .next (s.writeNum c (Obj.laneEyeRequest (lane % 32)) c.value)

/-- CLEAR of a pricking slot (R360). -/
def execClear (c : WriteCmd) (slot : Nat) (s : State) : Ans := .next (s.writeNum c (Obj.slotClear (slot % 16)) c.value)

/-- TRAIN (R367, R369). -/
def execTrain (c : WriteCmd) (s : State) : Ans := .next (s.writeNum c Obj.cmmTrain c.value)

/-- TRAIN_END (R367, R368, R663): the channels end, at latest 500 ms after they began. -/
def execTrainEnd (failSteps : List (Nat × Nat)) (s : State) : Ans :=
  match s.cmm.training with
  | none => .next s
  | some _ =>
    let t := s.tick + 1
    let s := s.finishTraining failSteps
    .next (if s.obj Obj.devDevState = 2 then s.setDev (if s.obj Obj.cmmMemState = 2 then 3 else 1) t else s)

/-- FREE (R385). -/
def execFree (c : WriteCmd) (queue : Nat) (s : State) : Ans := .next (s.writeNum c (Obj.qFree (queue % 4096)) c.value)

/-- CLOSE_PAGE (R386). -/
def execClosePage (c : WriteCmd) (queue : Nat) (s : State) : Ans := .next (s.writeNum c (Obj.qClosePage (queue % 4096)) c.value)

/-! Operations of one object: the first byte of the block names the operation; another one is another row's. -/

/-- A block written to an object when it names the operation. -/
def State.writeOp (s : State) (c : BytesCmd) (k : Key) (op : Nat) : State := if fieldAt c.value 0 1 = op then s.writeByt c k else s

/-- GRANT of a lease (R403). -/
def execGrant (c : BytesCmd) (s : State) : Ans := .next (s.writeOp c Obj.cmmLeaseCmd 1)

/-- RENEW (R403). -/
def execRenew (c : BytesCmd) (s : State) : Ans := .next (s.writeOp c Obj.cmmLeaseCmd 2)

/-- RELEASE (R403). -/
def execRelease (c : BytesCmd) (s : State) : Ans := .next (s.writeOp c Obj.cmmLeaseCmd 3)

/-- QUERY (R403). -/
def execQuery (c : BytesCmd) (s : State) : Ans := .next (s.writeOp c Obj.cmmLeaseCmd 4)

/-- LOOKUP (R252, R253). -/
def execLookup (c : BytesCmd) (s : State) : Ans := .next (s.writeOp c Obj.tableTableCmd 1)

/-- INSTALL (R252, R253). -/
def execInstall (c : BytesCmd) (s : State) : Ans := .next (s.writeOp c Obj.tableTableCmd 2)

/-- UPDATE (R252, R253). -/
def execUpdate (c : BytesCmd) (s : State) : Ans := .next (s.writeOp c Obj.tableTableCmd 3)

/-- REMOVE (R252, R253). -/
def execRemove (c : BytesCmd) (s : State) : Ans := .next (s.writeOp c Obj.tableTableCmd 4)

/-- READ of a context (R252, R253). -/
def execTableRead (c : BytesCmd) (s : State) : Ans := .next (s.writeOp c Obj.tableTableCmd 5)

/-- CLEAR_STATS (R252, R253). -/
def execClearStats (c : BytesCmd) (s : State) : Ans := .next (s.writeOp c Obj.tableTableCmd 6)

/-- FLUSH_LEARNT (R252, R253). -/
def execFlushLearnt (c : BytesCmd) (s : State) : Ans := .next (s.writeOp c Obj.tableTableCmd 7)

/-- STATE_RESTORE: a write of the issuer port's STATE (R471). -/
def execStateRestore (c : BytesCmd) (s : State) : Ans := .next (s.writeLong c (Obj.coderState (c.iss.port % 3)))

/-- JOB_START (R484). -/
def execJobStart (c : BytesCmd) (job : Nat) (s : State) : Ans := .next (s.writeOp c (Obj.jobJobDesc (job % 16)) 1)

/-- RESUME of a stopped job (R490). -/
def execResume (c : BytesCmd) (job : Nat) (s : State) : Ans := .next (s.writeOp c (Obj.jobJobDesc (job % 16)) 2)

/-- FINISH of a stopped job (R490). -/
def execFinish (c : BytesCmd) (job : Nat) (s : State) : Ans := .next (s.writeOp c (Obj.jobJobDesc (job % 16)) 3)

/-- ABORT of a job (R490). -/
def execAbort (c : BytesCmd) (job : Nat) (s : State) : Ans := .next (s.writeOp c (Obj.jobJobDesc (job % 16)) 4)

/-- RELEASE_HANDLE (R494). -/
def execReleaseHandle (c : WriteCmd) (s : State) : Ans := .next (s.writeNum c Obj.deflReleaseHandle c.value)

/-- RING_ENABLE: ENABLE = 1 (R582). -/
def execRingEnable (c : WriteCmd) (ring : Nat) (s : State) : Ans := .next (s.writeNum c (Obj.ringEnable (ring % 64)) 1)

/-- RING_DISABLE: ENABLE = 0 (R589). -/
def execRingDisable (c : WriteCmd) (ring : Nat) (s : State) : Ans := .next (s.writeNum c (Obj.ringEnable (ring % 64)) 0)

/-- MAP_INVALIDATE (R590). -/
def execMapInvalidate (c : WriteCmd) (s : State) : Ans := .next (s.writeNum c Obj.hostMapInvalidate c.value)

/-- CORE_RESET: RESET of a core (R609, R610). -/
def execCoreReset (c : WriteCmd) (core : Nat) (s : State) : Ans := .next (s.writeNum c (Obj.coreReset (core % 4)) c.value)

/-- FW_RESTART (R603). -/
def execFwRestart (c : WriteCmd) (s : State) : Ans := .next (s.writeNum c Obj.fwFwRestart c.value)

/-- FLASH_IMAGE (R603). -/
def execFlashImage (c : BytesCmd) (s : State) : Ans := .next (s.writeLong c Obj.fwFlashImage)

/-- FLASH_CONFIG (R621). -/
def execFlashConfig (c : BytesCmd) (s : State) : Ans := .next (s.writeLong c Obj.fwFlashConfig)

/-- GOLDEN (R618). -/
def execGolden (c : BytesCmd) (entry : Nat) (s : State) : Ans := .next (s.writeLong c (Obj.sigGolden (entry % 8)))

/-- RESEND (R619). -/
def execResend (c : WriteCmd) (entry : Nat) (s : State) : Ans := .next (s.writeNum c (Obj.streamResend (entry % 4)) c.value)

/-- MARCH_PRESERVE (R633). -/
def execMarchPreserve (c : WriteCmd) (s : State) : Ans := .next (s.writeNum c Obj.integMarchPreserve c.value)

/-- MARCH_DESTROY (R633). -/
def execMarchDestroy (c : WriteCmd) (s : State) : Ans := .next (s.writeNum c Obj.integMarchDestroy c.value)

/-- MARCH_RECOVER (R633). -/
def execMarchRecover (c : WriteCmd) (s : State) : Ans := .next (s.writeNum c Obj.integMarchRecover c.value)

/-- FUSE_REPAIRS (R645). -/
def execFuseRepairs (c : WriteCmd) (s : State) : Ans := .next (s.writeNum c Obj.integFuseRepairs c.value)

/-- A write of RESET (R671). -/
def State.writeReset (s : State) (c : WriteCmd) (kind : Nat) : State := s.writeNum c Obj.devReset kind

/-- RESET_WARM (R671). -/
def execResetWarm (c : WriteCmd) (s : State) : Ans := .next (s.writeReset c 1)

/-- RESET_CONTROL (R671). -/
def execResetControl (c : WriteCmd) (s : State) : Ans := .next (s.writeReset c 2)

/-- RESET_DATA (R671). -/
def execResetData (c : WriteCmd) (s : State) : Ans := .next (s.writeReset c 3)

/-- RESET_MANAGEMENT (R671). -/
def execResetManagement (c : WriteCmd) (s : State) : Ans := .next (s.writeReset c 4)

/-- TICK_LOAD (R40, R63, R518): the tick counter takes a new count, and every pending commit ends TICK_LOADED. -/
def execTickLoad (s : State) : Ans :=
  match s.tickLoad with
  | none => .next s
  | some s => .next (s.cancelAll (fun _ => true) reTickLoaded s.tick)

end Sys2Proof.Machine
end

