-- ==== Sys2Proof/Machine/Device.lean ====
section
/-! DEFINITION. Start-up, states and reset (R656-R676): the power-up sequence, the four resets that RESET asks for, FAULT and its causes
(R667-R670, R699, R715). -/

namespace Sys2Proof.Machine

/-! FAULT (R667-R669). -/

/-- FAULT is entered at the boundary that opens tick t (R667, R669): the lowest of the causes detected is recorded. -/
def State.enterFault (s : State) (t : Tick) : State :=
  let cause := (s.dev.causes.map (·.1)).foldl min 3
  let inst := ((s.dev.causes.find? (fun e => e.1 = 1)).map (·.2)).getD 0xFFFF
  let s := s.setObjs [(Obj.devFaultCause, cause), (Obj.devFaultInst, if cause = 1 then inst else 0xFFFF)]
  let s := if cause = 2 then s.bump Obj.teleThermalTrips 1 else s
  let s := { s with dev := { s.dev with causes := [], cold := s.dev.cold || cause == 2 } }
  let s := (below 8).foldl (fun s b => s.setObj (Obj.bbState b) 0) s
  let s := (below 8).foldl (fun s i => s.driveOut i false) { s with trigOut := [] }
  let s := s.cmm.leases.foldl (fun s e => s.revoke (65536 * e.2.gen + e.1)) s
  let s := (below (coresOf s.otp.variant)).foldl (fun s c => s.resetCore c 4 0 t) s
  let s := { s with flash := { s.flash with checking := false, applying := none } }
  let s := s.abortJobs false t
  let s := { s with repair := { s.unborrowed with borrow := none, recovered := false } }
  s.setDev 5 t

/-- FAULT_ENTRY (R667, R669): at the boundary that opens the next tick, after the changes that take effect there. -/
def execFaultEntry (s : State) : Ans := if s.running ∧ s.dev.causes ≠ [] then .next (s.atBoundary.enterFault (s.tick + 1)) else .next s

/-- The rails that the monitor watches (R716): 0 VDD, 1 VDDQ, 2 VIO, 3 VFP, 4 VFN, with their operating ranges in millivolts (R696). -/
def railRange (k : Nat) : Int × Int := [((776 : Int), (824 : Int)), (1067, 1133), (1710, 1890), (4850, 5150), (-2060, -1940)].getD k (0, 0)

/-- THERMAL_TRIP (R667, R668, R715): TJ exceeds the shutdown temperature, 120 °C within 3 °C. In BOOT the front ends and lane receivers
are powered down at once. -/
def execThermalTrip (tj : Int) (s : State) : Ans :=
  if tj < 936 then .next s
  else
    let t := clampI (-32768) 32767 tj
    let s := (s.setInt Obj.teleTj t).setInt Obj.teleTjPeak (max t (s.int Obj.teleTjPeak))
    let s := s.faultCause 2 0xFFFF
    .next (if s.booted then s else { s with dev := { s.dev with cold := true } })

/-- SUPPLY_FAULT (R667, R699): a rail is out of its range by more than 3 % for 10 µs. During the first power-up sequence the rail holds
the engine in power-on reset instead (R668). -/
def execSupplyFault (rail : Nat) (s : State) : Ans :=
  if 5 ≤ rail ∨ !s.time.counting then .next s
  else
    let s := s.setObj Obj.teleSupplyFlags (s.obj Obj.teleSupplyFlags ||| 2 ^ rail)
    .next (({ s with dev := { s.dev with railBad := some s.tick } } : State).faultCause 3 0xFFFF)

/-! The power-up sequence (R656-R661). -/

/-- The objects that fuse load fills (R73, R128, R538, R556, R559, R569, R645). -/
def Otp.objects (o : Otp) : List (Key × Nat) :=
  o.bands.map (fun p => (Obj.bandBandEntry p.1, p.2)) ++ o.toggle.map (fun p => (Obj.lgToggleOffset p.1, p.2))
    ++ [(Obj.secOwnerState, ofBool (o.ownerKey != [])), (Obj.secPolicy, o.policyFloor), (Obj.secPolicyFloor, o.policyFloor),
        (Obj.secFwSecMin, o.secMin)]

/-- POWER_ON_RESET (R39, R656, R658, R673): what survives is OTP. The balls STRAP_HOSTLESS and STRAP_FLASH are sampled. -/
def execPowerOnReset (straps : Nat) (s : State) : Ans :=
  let z : State := { otp := s.otp, free := s.free, draws := s.draws, out := s.out, pending := s.pending,
                     chans := s.chans.map (fun e => (e.1, { ball := e.2.ball })), trigIn := s.trigIn.map (fun e => (e.1, { ball := e.2.ball })) }
  let z := (z.setObjs s.otp.objects).setDom Obj.secOwnerKey s.otp.ownerKey
  let z := s.otp.repairs.foldl (fun z e => z.assignSpare e.1 e.2 (z.obj (Obj.instSpareRowsUsed e.1))) z
  let z := s.otp.columns.foldl (fun z e => (z.setObj (Obj.instSpareColumn e.1) e.2).setObj (Obj.instState e.1) 1) z
  .next (z.setObj Obj.devStraps (straps % 4))

/-- The parts that step 4 of R658 starts, at the boundary that opens tick t: the endpoint, the service cores, the front ends, the START
entry of the reset (R661, R662), the state that R663 names. -/
def State.startUp (s : State) (kind micros : Nat) (t : Tick) : State :=
  let s := s.setObjs [(Obj.devLastReset, kind), (Obj.devBootTime, min micros 0xFFFFFFFF)]
  let s := if bit (s.obj Obj.devStraps) 0 then s else s.setObj Obj.hostLinkState 1
  let s := s.jSystem 1 kind t
  -- the first boundary after the power-up sequence is that of tick 1; the depth of the history rings counts from here (R300, R726)
  let s := { s.restartPins (if kind = 1 then t + 1 else t) with ringClr := if t = 0 then [] else (below 64).map (fun h => (h, (t : Int))), rings := [] }
  let s := if s.dev.causes != [] then s else (s.startFrontEnds t).startCores t
  let s := if s.dev.causes != [] then s.enterFault t else s.setDev (if s.memTrained then 3 else 1) t
  { s with dev := { s.dev with cold := s.dev.cold && s.obj Obj.devDevState == 5 } }

/-- STANDBY_ENTRY (R39, R54, R658-R660): SYN-T has locked and tick 0 opens, a multiple of
TIME_MAP_INTERVAL with its point (R45). The March of R632 has run on every instance. -/
def execStandbyEntry (micros : Nat) (_rows _cols : Blank) (s : State) : Ans :=
  if s.booted ∨ s.time.counting ∨ s.obj Obj.refRefclkClass = 0 ∨ !s.time.refclk then .next s
  else
    let s := (s.marchTest s.insts).1
    let s := (s.setObj Obj.synTLocked 1).setSynth 0 (fun x => { x with relockAt := none, lockedAt := some s.time.cyc })
    let s := s.setTime (fun b => { b with counting := true })
    let s := s.acquire s.tick
    let s := if s.obj Obj.tbTimeMapInterval = 0 then s else s.newPoint (ofTick s.tick) 0 false
    .next (s.startUp 1 micros s.tick)

/-! The resets that RESET asks for (R671-R673): each at the boundary that opens the next tick, after the changes that take effect there. -/

/-- The requests due at the boundary that opens the next tick, by kind. -/
def State.resetDue (s : State) (kind : Nat) : Bool := s.dev.resets.any (fun e => e.1 ≤ s.tick + 1 && e.2 == kind)

/-- A request has been served. -/
def State.resetServed (s : State) (kind : Nat) : State :=
  { s with dev := { s.dev with resets := s.dev.resets.filter (fun e => !(e.1 ≤ s.tick + 1 && e.2 == kind)) } }

/-- The commands whose effects took place at the boundary that opens tick u end (R505, R513); one that waits for another event goes
on waiting. -/
def State.flushLanding (s : State) (u : Tick) : State :=
  s.landing.foldl (fun s l => match l.waits with
    | some w => { s with deferred := s.deferred ++ [(w, l)] }
    | none => s.finish l u) { s with landing := [] }

/-- A plane reset ends: its START entry, with the kind as R662 codes it, one above the code of RESET. -/
def State.planeDone (s : State) (kind : Nat) (t : Tick) : State :=
  ((s.resetServed kind).setObj Obj.devLastReset (kind + 1)).jSystem 1 (kind + 1) t

/-- The objects a warm reset keeps (R672, R673): identity, communication and security; the journal's; the device's; the band table and
SYN-T; the population and the training; repairs; integrity and security counters; the eye logs; the sensors. -/
def warmKeeps (k : Key) : Bool :=
  let ix := k / 256
  let sub := k % 256
  (0x1000 ≤ ix && ix < 0x1300 && !(0x1210 ≤ ix && ix < 0x1218)) || (ix == 0x1300 && sub ≤ 6)
    || (ix == 0x2000 && [1, 2, 6, 7].contains sub) || ix == 0x2210
    || [Obj.refRefclkClass, Obj.synTSynWord, Obj.synTLocked, Obj.synTBand, Obj.synLSynWord, Obj.synLLocked, Obj.synLBand].contains k
    || (ix == 0x5000 && (sub ≤ 7 || (9 ≤ sub && sub ≤ 0x10))) || (0x5100 ≤ ix && ix < 0x510C)
    || k == Obj.integRepairsPending || (0x5C10 ≤ ix && ix < 0x5CF8 && [2, 4, 5].contains sub)
    || ix == 0x6020 || (0x6500 ≤ ix && ix < 0x65E8) || (0x6600 ≤ ix && ix < 0x660B)
    || (0x3100 ≤ ix && ix < 0x3120 && [0x45, 0x46].contains sub) || ix == 0x6700

/-- The event FIFOs HF3-HF10 are flushed (R652). -/
def State.flushEvents (s : State) : State :=
  (below 8).foldl (fun s b => (s.setBb b { s.bb b with fifo := [] }).bump (Obj.hoopCntFlushes (3 + b)) 1)
    { s with hoopFlips := s.hoopFlips.filter (·.1 < 3) }

/-- WARM_RESET (R54, R671-R673): the sequence begins; memory is in self-refresh, and the free list is rebuilt. -/
def execWarmReset (s : State) : Ans :=
  if !s.resetDue 1 then .next s
  else
    let t := s.tick + 1
    let s := s.atBoundary
    let s := ([0, 1, 2].foldl (fun s p => s.endPortSessions p t) s)
    let s := (([0, 1, 2].foldl (fun s f => s.flushHoop f) s).flushEvents).mute (fun _ => true)
    let usable := s.obj Obj.cmmUsablePages
    let z : State :=
      { tick := s.tick, otp := s.otp, free := s.free, draws := s.draws, out := s.out, pending := s.pending,
        dict := s.dict.filter (fun e => warmKeeps e.1), doms := s.doms.filter (fun e => warmKeeps e.1),
        journal := s.journal, mirror := s.mirror, jPace := s.jPace, mem := s.mem, memBad := s.memBad, landing := s.landing,
        ports := s.ports.map (fun e => (e.1, { proveFails := e.2.proveFails, lockedAt := e.2.lockedAt })),
        cmm := { free := if s.obj Obj.cmmMemState = 2 ∧ usable ≠ 0 then [(0, usable)] else [], mirror := s.cmm.mirror, training := s.cmm.training, trainMask := s.cmm.trainMask },
        chans := s.chans.map (fun e => (e.1, { ball := e.2.ball })), ringClr := (below 64).map (fun h => (h, (t : Int))),
        trigIn := s.trigIn.map (fun e => (e.1, { ball := e.2.ball })),
        syn := s.syn.filter (fun e => e.1 < 2),
        time := { counting := true, refclk := s.time.refclk, offset := s.time.offset, rate := s.time.rate, point := s.time.point,
                  nextSeq := s.time.nextSeq, taiValid := s.time.taiValid,
                  cyc := s.time.cyc, cycRem := s.time.cycRem, cycDen := s.time.cycDen },
        repair := { s.unborrowed with borrow := none, march := none, lastEnd := [], place := 231, recovered := false },
        dev := { railBad := s.dev.railBad, cold := s.dev.cold } }
    let z := ((z.setObjs (z.otp.toggle.map (fun p => (Obj.lgToggleOffset p.1, p.2)))).setObj Obj.tbDiscState (s.obj Obj.tbDiscState)).setDev 0 t
    let l := mkWord 64 1 (refRatio (z.obj Obj.refRefclkClass)) 0
    let z := if z.obj Obj.synLSynWord = l then z else (z.setObj Obj.synLSynWord l).relock 1 t true
    .next (z.acquire t)

/-- WARM_RESET_END (R662, R663, R672): the March has run on every instance but JRN0-JRN7. -/
def execWarmResetEnd (micros : Nat) (_rows _cols : Blank) (s : State) : Ans :=
  if s.booted ∨ !s.time.counting then .next s
  else
    .next (((s.marchTest (s.insts.filter (fun i => i < 179 || 187 ≤ i))).1).startUp 2 micros (s.tick + 1))

/-- CONTROL_RESET (R671, R673). -/
def execControlReset (s : State) : Ans :=
  if s.resetDue 1 ∨ !s.resetDue 2 then .next s
  else
    let t := s.tick + 1
    let s := (s.atBoundary.cancelAll (fun _ => true) reCancelled t).flushLanding t
    let s := [0, 1, 2].foldl (fun s p =>
      let held := s.hoop.getD p [] ++ (if p = 0 ∧ s.host.mailAt.isSome then s.host.mail.take 1 else [])
      let s := ((held.foldl (fun s e => s.clearBusy e.1) s).flushHoop p).endPortSessions p t
      ((s.setPort p { proveFails := (s.port p).proveFails, lockedAt := (s.port p).lockedAt }).setDom (Obj.portClampReport p) []).setObj
        (Obj.portReportJseq p) 0) s
    let s := { s with coreDict := s.coreDict.filter (fun e => e.1 % 2 ^ 24 != Obj.portReportJseq 2),
                      coreDoms := s.coreDoms.filter (fun e => e.1 % 2 ^ 24 != Obj.portClampReport 2), transfers := [], readBufs := [] }
    .next (s.planeDone 2 t)

/-- DATA_RESET (R332, R380, R402, R671, R673, R726). -/
def execDataReset (s : State) : Ans :=
  if s.resetDue 1 ∨ s.resetDue 2 ∨ !s.resetDue 3 then .next s
  else
    let t := s.tick + 1
    let s := s.atBoundary
    let s := s.queueList.foldl (fun s q => (if s.capturing q then s.stopCapture q 2 t 0 else s).setObj (Obj.qRun q) 0) s
    let s := s.cmm.leases.foldl (fun s e => s.revoke (65536 * e.2.gen + e.1)) s
    let s := (below 8).foldl (fun s b => (s.stopBobbin b t).setObj (Obj.bbRun b) 0) s
    let s := ((s.flushEvents.startFrontEnds t).restartLanes t).clearFlows
    let s := s.restartPins t
    let s := { s with parked := s.parked.filter Parked.isBar2, decs := s.decs.map (fun (e : Nat × Decoder) => (e.1, { e.2 with ready := [] })) }
    .next ((s.devSync t).planeDone 3 t)

/-- MANAGEMENT_RESET (R610, R671, R673). -/
def execManagementReset (s : State) : Ans :=
  if s.resetDue 1 ∨ s.resetDue 2 ∨ s.resetDue 3 ∨ !s.resetDue 4 then .next s
  else
    let t := s.tick + 1
    let flash := bit (s.obj Obj.devStraps) 1
    let s := s.atBoundary
    let s := if flash ∧ s.obj Obj.devDevState ≠ 5 then s.startCores t
      else (below (coresOf s.otp.variant)).foldl (fun s c => s.resetCore c 4 0 t) (s.flushHoop 2)
    let s := s.setPort 2 { s.port 2 with staging := [] }
    let s := ((s.mute (fun i => i.port == 2)).dropTransfers (fun i => i.port == 2)).resetHolder 0x50 t
    .next ((s.abortJobs true t).planeDone 4 t)

end Sys2Proof.Machine
end

