-- ==== Sys2Proof/Machine/Net.lean ====
section
/-! DEFINITION. The management port (R529, R530, R532, R652, R711): VDP datagrams, the answers to ARP, neighbour solicitations and echo
requests, next hops, and notifications on their way. -/

namespace Sys2Proof.Machine

/-- Is the management link up? -/
def State.netUp (s : State) : Bool := s.booted && s.sgmii

/-- Is a datagram a VDP command, on the VDP port (R529)? -/
def isVdpCommand (d : NetIn) : Bool :=
  d.port == 47120 && 8 ≤ d.data.length && fieldAt d.data 0 3 == 0x504456 && fieldAt d.data 3 1 == 1

/-- The link-local address formed from MAC_ADDR by the modified EUI-64 rule (R530). -/
def linkLocal (mac : Nat) : Bytes :=
  let m := be 6 mac
  [0xFE, 0x80] ++ zeros 6 ++ ((m.take 1).map (· ^^^ 2)) ++ (m.drop 1).take 2 ++ [0xFF, 0xFE] ++ m.drop 3

/-- An IPv4 address in the form of R231. -/
def mappedNat (a : Nat) : Bytes := mapped4 (be 4 a)

/-- Is an address in the form of R231 an IPv4 one? -/
def isV4 (a : Bytes) : Bool := a.take 12 == zeros 10 ++ [0xFF, 0xFF]

/-- Is the IPv4 pair on (R521)? -/
def State.v4On (s : State) : Bool := s.obj Obj.commIpv4Addr != 0 && s.obj Obj.commIpv4Prefix != 0

/-- Does the engine hold an address (R530)? -/
def State.ownAddr (s : State) (a : Bytes) : Bool :=
  a == linkLocal s.otp.mac || (s.v4On && a == mappedNat (s.obj Obj.commIpv4Addr))
    || (a == s.dom Obj.commIpv6Addr && a != zeros 16)

/-- Are the first n bits of two addresses equal? -/
def samePrefix (n : Nat) (a b : Bytes) : Bool := netAt a 0 16 / 2 ^ (128 - n) == netAt b 0 16 / 2 ^ (128 - n)

/-- The next hop of a destination (R530); none where it is unreachable. -/
def State.nextHop (s : State) (d : Bytes) : Option Bytes :=
  if isV4 d then
    let a := netAt d 12 4
    if a / 65536 = 0xA9FE ∨ (s.v4On && samePrefix (96 + s.obj Obj.commIpv4Prefix) d (mappedNat (s.obj Obj.commIpv4Addr))) then some d
    else if s.v4On ∧ s.obj Obj.commIpv4Gateway ≠ 0 then some (mappedNat (s.obj Obj.commIpv4Gateway))
    else none
  else
    let own := s.dom Obj.commIpv6Addr
    if samePrefix 10 d (linkLocal 0) ∨ (own != zeros 16 && samePrefix (s.obj Obj.commIpv6Prefix) d own) then some d
    else if s.dom Obj.commIpv6Gateway ≠ zeros 16 then some (s.dom Obj.commIpv6Gateway)
    else none

/-- A dropped datagram counts for its subscriber, if it is a notification (R530). -/
def State.countDrop (s : State) (sub : Option Nat) : State :=
  match sub with
  | some k => s.bump (Obj.subSubDropped k) 1
  | none => s

/-- A datagram that the engine originates: sent, or waiting for its next hop, or dropped (R530). -/
def State.originate (s : State) (sub : Option Nat) (dest : Bytes) (udp : Nat) (data : Bytes) : State :=
  match s.nextHop dest with
  | none => s.countDrop sub
  | some h =>
    match s.hops.find? (fun x => x.addr = h) with
    | none =>
      let y : NextHop := { addr := h, since := s.tick, waiting := [(sub, dest, udp, data)] }
      ({ s with hops := s.hops ++ [y] } : State).emit (.resolve h)
    | some x =>
      if x.resolved then s.emit (.datagram dest udp data)
      else if x.waiting.length < 4 then
        { s with hops := s.hops.map (fun (y : NextHop) => if y.addr = h then { y with waiting := y.waiting ++ [(sub, dest, udp, data)] } else y) }
      else s.countDrop sub

/-- At most 32 resolved next hops are kept (R530): the one confirmed longest ago goes. -/
def trimHops (l : List NextHop) : List NextHop :=
  let r := l.filter (·.resolved)
  if r.length ≤ 32 then l
  else
    let oldest := r.foldl (fun m x => min m x.since) (r.head?.map (·.since) |>.getD 0)
    match r.find? (fun x => x.since = oldest) with
    | some x => l.filter (fun y => y.addr ≠ x.addr)
    | none => l

/-- NEXT_HOP_REPLY (R530): a reply from the address that was asked for, or of a next hop already resolved. -/
def execNextHopReply (d : NetIn) (s : State) : Ans :=
  match s.hops.find? (fun x => x.addr = d.addr) with
  | none => .next s
  | some x =>
    if !s.netUp then .next s
    else
      let hops := trimHops ((s.hops.filter (fun y => y.addr ≠ d.addr)) ++ [{ x with resolved := true, since := s.tick, waiting := [] }])
      .next (x.waiting.foldl (fun s w => s.emit (.datagram w.2.1 w.2.2.1 w.2.2.2)) { s with hops := hops })

/-- NEXT_HOP_RETRY (R530): 1 s without an answer; after the third request the datagrams that wait are dropped. -/
def execNextHopRetry (addr : Bytes) (s : State) : Ans :=
  match s.hops.find? (fun x => x.addr = addr) with
  | none => .next s
  | some x =>
    if x.resolved ∨ s.tick < x.since + 1000000000 then .next s
    else if x.asked < 3 then
      let ask := fun (y : NextHop) => if y.addr = addr then { y with asked := y.asked + 1, since := s.tick } else y
      .next (({ s with hops := s.hops.map ask } : State).emit (.resolve addr))
    else .next (x.waiting.foldl (fun s w => s.countDrop w.1) { s with hops := s.hops.filter (fun y => y.addr ≠ addr) })

/-- NEXT_HOP_EXPIRY (R530): 300 s since a reply last confirmed it; it is resolved again. -/
def execNextHopExpiry (addr : Bytes) (s : State) : Ans :=
  match s.hops.find? (fun x => x.addr = addr) with
  | none => .next s
  | some x =>
    if !x.resolved ∨ s.tick < x.since + 300000000000 then .next s
    else
      let y : NextHop := { x with resolved := false, asked := 1, since := s.tick }
      let again := fun (z : NextHop) => if z.addr = addr then y else z
      .next (({ s with hops := s.hops.map again } : State).emit (.resolve addr))

/-- DATAGRAM_DISCARD (R529): nothing follows from a fragment or from a datagram that is no VDP command. -/
def execDatagramDiscard (_d : NetIn) (_fragment : Bool) (s : State) : Ans := .next s

/-- VDP_COMMAND (R529, R647): the packet of a command datagram enters HF1, where the free stages cover it (R651); a packet of more than 256
bytes is answered OVERSIZE. -/
def execVdpCommand (d : NetIn) (s : State) : Ans :=
  let pkt := d.data.drop 8
  let i : Issuer := { port := 1, addr := d.addr, udp := d.udp, mac := d.mac }
  if !s.netUp ∨ !isVdpCommand d then .next s
  else if 256 < pkt.length then .next (s.rewound i pkt)
  else if 32 < s.hoopHeld 1 + hoopWords pkt then .next s
  else .next { s with hoop := s.hoop.put 1 [] (s.hoop.getD 1 [] ++ [(i, pkt)]) }

/-- ARP_REQUEST (R530): answered for the IPv4 address. -/
def execArpRequest (d : NetIn) (s : State) : Ans :=
  if s.netUp ∧ s.v4On ∧ d.target = mappedNat (s.obj Obj.commIpv4Addr) then .next (s.emit (.answer 0 d.addr (le 6 s.otp.mac))) else .next s

/-- NEIGHBOUR_SOLICITATION (R530): answered for the IPv6 addresses. -/
def execNeighbourSolicitation (d : NetIn) (s : State) : Ans :=
  if s.netUp ∧ s.ownAddr d.target ∧ !isV4 d.target then .next (s.emit (.answer 1 d.addr (le 6 s.otp.mac))) else .next s

/-- ICMP_ECHO_REQUEST (R530): answered for every address of the engine. -/
def execIcmpEchoRequest (d : NetIn) (s : State) : Ans :=
  if s.netUp ∧ s.ownAddr d.target then .next (s.emit (.answer 2 d.addr d.data)) else .next s

/-- NOTIFICATION_SEND (R532): the oldest notification queued for a subscriber leaves. -/
def execNotificationSend (sub : Nat) (s : State) : Ans :=
  match s.subQ.getD sub [] with
  | [] => .next s
  | (nseq, n) :: rest =>
    if !s.netUp ∨ !s.subOn sub then .next s
    else
      let s := { s with subQ := s.subQ.put sub [] rest }
      .next (s.originate (some sub) (s.dom (Obj.subSubAddr sub)) (s.obj (Obj.subSubPort sub)) (vdpHeader 3 ++ noteBytes n nseq))

/-- SGMII_SYNC (R711). -/
def execSgmiiSync (s : State) : Ans := if s.booted then .next { s with sgmii := true } else .next s

/-- SGMII_SYNC_LOSS (R546, R652): HF1 is flushed and the sessions of port 1 end. -/
def execSgmiiSyncLoss (s : State) : Ans :=
  if s.sgmii then .next (({ s with sgmii := false }.flushHoop 1).endPortSessions 1 (s.tick + 1)) else .next s

end Sys2Proof.Machine
end

