-- ==== Sys2Proof/Machine/Watch.lean ====
section
/-! DEFINITION. The services that act by commands of their own on port 2: WATCH (R611-R613) and STREAM (R619). The packets are those
that the service's core writes; the tag is the firmware's and a free value. -/

namespace Sys2Proof.Machine

/-- A command that the firmware of a core has sent: it is accepted in the open tick. -/
def State.ownPacket (s : State) (core : Nat) (raw : Bytes) (f : Accepted → State → State) : State :=
  let i : Issuer := { port := 2, core := core }
  match parsePkt 2 raw with
  | none => s
  | some p =>
    match s.admission i p true with
    | (s, none) => s
    | (s, some a) => f a s

/-- A WRITE of one entry by a core. -/
def State.ownWrite (s : State) (core : Nat) (k : Key) (v : Bytes) : State :=
  let (r, s) := s.fresh
  s.ownPacket core (writePacket (r % 2 ^ 32) 0 1 (writeEntry k v) []) (fun a s => s.writeCmd a false [(k, v)])

/-- A COMMIT of target 0 by a core. -/
def State.ownCommit (s : State) (core : Nat) : State :=
  let (r, s) := s.fresh
  s.ownPacket core (commitPacket (r % 2 ^ 32) 0) (fun a s => s.takeCommit a)

/-! The configuration block (R622). -/

/-- A WRITE of several entries by a core. -/
def State.ownWrites (s : State) (core : Nat) (l : List (Key × Bytes)) : State :=
  let (r, s) := s.fresh
  s.ownPacket core (writePacket (r % 2 ^ 32) 0 l.length (l.flatMap (fun e => writeEntry e.1 e.2)) []) (fun a s => s.writeCmd a false l)

/-- Who sent what waits for a boundary. -/
def Due.issuer : Due → Option Issuer
  | .write a _ => some a.iss
  | .strict a _ _ => some a.iss
  | .discard a _ => some a.iss
  | _ => none

/-- Does a core wait for the response to a command of its own? -/
def State.coreWaits (s : State) (c : Nat) : Bool :=
  let mine (i : Issuer) : Bool := i.port == 2 && i.core == c
  s.due.any (fun d => d.issuer.any mine) || s.landing.any (fun l => mine l.iss) || s.deferred.any (fun e => mine e.2.iss) || (s.port 2).pend.any (fun x => mine x.iss)

/-- The entries of RWS objects at the front that fit one packet. -/
def rwsRun : Nat → List (Key × Bytes) → List (Key × Bytes)
  | _, [] => []
  | room, e :: t =>
    let n := (writeEntry e.1 e.2).length
    if isStaged e.1 && n ≤ room then e :: rwsRun (room - n) t else []

/-- SC0 applies the configuration block (R622): one command at a time, the next once the last has its response and no training runs. -/
def State.configTick (s : State) : State :=
  match s.flash.applying with
  | none => s
  | some r =>
    if !s.booted ∨ s.obj (Obj.coreState 0) ≠ 2 ∨ s.coreWaits 0 ∨ s.obj Obj.cmmMemState = 1 then s
    else
      let going (r : ConfigRun) : State := { s with flash := { s.flash with applying := some r } }
      match r.left with
      | [] =>
        if r.ended then ({ s with flash := { s.flash with applying := none } } : State).setObj Obj.fwConfigState (if r.bad then 2 else 1)
        else (going { r with ended := true }).ownCommit 0
      | e :: t =>
        let rws := isStaged e.1
        if !rws && r.staged then (going { r with staged := false }).ownCommit 0
        else
          let l := if rws then e :: rwsRun (240 - (writeEntry e.1 e.2).length) t else [e]
          (going { r with left := r.left.drop l.length, staged := rws, bad := r.bad || 240 < (writeEntry e.1 e.2).length }).ownWrites 0 l

/-- WATCH commits RUN of a queue (R611, R612). -/
def State.watchRun (s : State) (q run : Nat) : State :=
  let c := serviceCore s.otp.variant 1
  (s.ownWrite c (Obj.qRun q) (le 1 run)).ownCommit c

/-! WATCH. -/

/-- The queues of an entry after the live one, wrapping. -/
def State.watchOrder (s : State) (w : Nat) : List Nat :=
  let qs := s.watchQueues w
  let live := s.obj (Obj.watchLiveQ w)
  qs.filter (live < ·) ++ qs.filter (· < live)

/-- The pages a queue has pinned. -/
def State.pinnedPages (s : State) (q : Nat) : Nat := ((s.queue q).pages.filter (·.pinned)).length

/-- Is a queue free (R612)? -/
def State.queueFree (s : State) (q : Nat) : Bool := !s.capturing q && (s.queue q).pages == []

/-- The next free queue becomes the live one, and the former is kept (R612). -/
def State.watchNext (s : State) (w q : Nat) : State :=
  let old := s.obj (Obj.watchLiveQ w)
  ((((s.watchRun q 1).setObj (Obj.watchLiveQ w) q).bump (Obj.watchKept w) 1)).serviceNote 1 w 1 old s.tick

/-- The kept queue with the oldest capture (R613). -/
def State.oldestKept (s : State) (w : Nat) : Option Nat :=
  let l := (s.watchOrder w).filter (fun q => !s.activeQueue q && (s.queue q).pages != [])
  let first := l.foldl (fun m q => min m (s.queue q).openedAt) (l.head?.map (fun q => (s.queue q).openedAt) |>.getD 0)
  l.find? (fun q => (s.queue q).openedAt = first)

/-- WATCH reads the live queue of a running entry (R612, R613). -/
def State.watchLive (s : State) (w : Nat) : State :=
  let live := s.obj (Obj.watchLiveQ w)
  if live = 0xFFFF then
    let q := s.obj (Obj.watchFirstQ w)
    (s.watchRun q 1).setObj (Obj.watchLiveQ w) q
  else if s.pinnedPages live = 0 then s
  else
    match (s.watchOrder w).find? s.queueFree with
    | some q => s.watchNext w q
    | none =>
      if s.obj (Obj.watchFullPolicy w) = 0 then
        match s.oldestKept w with
        | some q => (s.ownWrite (serviceCore s.otp.variant 1) (Obj.qFree q) [1]).watchNext w q
        | none => s
      else if s.capturing live then s
      else (((s.setObj (Obj.watchState w) 3).setObj (Obj.watchLiveQ w) 0xFFFF)).serviceNote 1 w 2 0 s.tick

/-- WATCH_POLL (R611-R613, R622): WATCH starts after the configuration block has been applied. -/
def execWatchPoll (entry : Nat) (s : State) : Ans :=
  let live := s.obj (Obj.watchLiveQ entry)
  if 16 ≤ entry ∨ !s.running ∨ !s.serviceUp 1 ∨ s.flash.applying.isSome then .next s
  else if !s.flag (Obj.watchEnable entry) then
    if live = 0xFFFF then .next s
    else .next ((if s.capturing live then s.watchRun live 0 else s).setObj (Obj.watchLiveQ entry) 0xFFFF)
  else if s.obj (Obj.watchState entry) ≠ 1 then .next s
  else .next (s.watchLive entry)

/-! STREAM. -/

/-- Replace a STREAM entry's run. -/
def State.setStream (s : State) (k : Nat) (x : StreamRun) : State := { s with streams := s.streams.put k {} x }

/-- JOB_DESC of an export for an entry (R484): START of a capture from its oldest page, or RESUME of a handle. -/
def streamDesc (op wrapper k outLen queue capture first pages handle : Nat) : Bytes :=
  le 1 op ++ zeros 3 ++ [1] ++ le 1 wrapper ++ [0, 1] ++ zeros 16 ++ le 2 handle ++ le 2 queue ++ le 4 capture ++ le 4 first ++ zeros 4
    ++ le 8 (65536 * pages) ++ zeros 4 ++ le 4 outLen ++ le 8 (262144 * k)

/-- The firmware writes a descriptor into an idle job slot of its choice: the slot and the tag of the write, whose response it awaits. -/
def State.streamJob (s : State) (desc : Nat → Bytes) : Option (Nat × Nat) × State :=
  let (r, s) := s.fresh
  let (n, s) := s.fresh
  match (upFrom 16 r).find? (fun i => (s.jobs.find (i % 16)).isNone) with
  | none => (none, s)
  | some i =>
    let tag := Config.freeNat s.free % 2 ^ 32
    (some (i % 16, tag), s.ownWrite (serviceCore s.otp.variant 4) (Obj.jobJobDesc (i % 16)) (desc (1024 + n % 261121)))

/-- The status with which a core's own command of a tag was answered, where it has been. -/
def State.ownAnswer (s : State) (core tag : Nat) : Option Nat :=
  ((s.cached { port := 2, core := core } tag).bind (·.resp)).map (fun r => fieldAt r 7 1)

/-- The next capture of an entry, and those that follow: a capture that has ended, or one that RESEND names (R619). -/
def State.streamTodo (s : State) (k : Nat) (x : StreamRun) : List Nat × Nat :=
  let q := s.obj (Obj.streamQueue k)
  let c := s.obj (Obj.qCapture q)
  if s.obj (Obj.qState q) = 2 ∧ c ≠ x.seen then (x.todo ++ [c], c) else (x.todo, x.seen)

/-- STREAM starts the export of its next capture. -/
def State.streamStart (s : State) (k : Nat) (x : StreamRun) : State :=
  let q := s.obj (Obj.streamQueue k)
  match s.streamTodo k x with
  | ([], _) => s
  | (c :: rest, seen) =>
    let pages := (s.queue q).pages.filter (fun p => p.capture = c)
    match pages with
    | [] => s.setStream k { todo := rest, seen := seen, cur := some c, ended := true, nextAt := x.nextAt }
    | p :: _ =>
      let (job, s) := s.streamJob (fun n => streamDesc 1 (s.obj (Obj.streamWrapper k)) k n q c p.seq pages.length 0)
      match job with
      | none => s.setStream k { x with todo := c :: rest, seen := seen }
      | some (ix, tag) => s.setStream k { todo := rest, seen := seen, cur := some c, job := some ix, nextAt := x.nextAt, asked := some (tag, none) }

/-- STREAM takes the output of a job that has ended, and resumes one that found its output full (R488, R490). -/
def State.streamTake (s : State) (k ix : Nat) (x : StreamRun) : State :=
  let r := s.dom (Obj.jobJobResult ix)
  let out := s.shmBytes (262144 * k) (fieldAt r 20 4)
  if fieldAt r 17 1 = 1 then
    let (job, s) := s.streamJob (fun n => streamDesc 2 0 k n 0 0 0 0 (fieldAt r 18 2))
    match job with
    | none => s
    | some (j, tag) => s.setStream k { x with ready := out, job := some j, asked := some (tag, some ix) }
  else s.setStream k { x with ready := out, job := none, ended := true }

/-- STREAM reads the answer to its job descriptor, where one is awaited: a job that was not accepted leaves the entry as it was before, to be
tried again (R483, R619). -/
def State.streamAnswer (s : State) (k : Nat) : State :=
  let x := s.streams.getD k {}
  let core := serviceCore s.otp.variant 4
  match x.asked with
  | none => s
  | some (tag, before) =>
    if s.coreWaits core then s
    else if (s.ownAnswer core tag).any (· ≤ stSuperseded) then s.setStream k { x with asked := none }
    else
      match before with
      | some ix => s.setStream k { x with asked := none, job := some ix, ready := [] }
      | none => s.setStream k { x with asked := none, job := none, cur := none, todo := x.cur.toList ++ x.todo }

/-- STREAM_EXPORT (R619). -/
def execStreamExport (entry : Nat) (s : State) : Ans :=
  let s := if entry < 4 ∧ s.running ∧ s.serviceUp 4 then s.streamAnswer entry else s
  let x := s.streams.getD entry {}
  if 4 ≤ entry ∨ !s.running ∨ !s.serviceUp 4 ∨ s.obj (Obj.streamState entry) ≠ 1 ∨ x.ready ≠ [] ∨ x.ended ∨ x.asked.isSome then .next s
  else
    match x.cur, x.job with
    | none, _ => .next (s.streamStart entry x)
    | some _, some ix => if (s.jobs.find ix).isNone then .next (s.streamTake entry ix x) else .next s
    | some _, none => .next s

/-- The 16-byte header of a STREAM datagram (R619). -/
def streamHeader (entry length queue capture offset : Nat) : Bytes :=
  le 3 0x4D5453 ++ le 1 entry ++ le 2 length ++ le 2 queue ++ le 4 capture ++ le 4 offset

/-- STREAM_SEND (R619): the next datagram, within the rate; the end marker when the stream has been sent whole. -/
def execStreamSend (entry : Nat) (s : State) : Ans :=
  let x := s.streams.getD entry {}
  match x.cur with
  | none => .next s
  | some c =>
    if 4 ≤ entry ∨ !s.netUp ∨ !s.serviceUp 4 ∨ s.obj (Obj.streamState entry) ≠ 1 ∨ s.tick < x.nextAt ∨ x.asked.isSome ∨ (x.ready = [] ∧ !x.ended) then .next s
    else
      let q := s.obj (Obj.streamQueue entry)
      let dest := s.dom (Obj.streamDestAddr entry)
      let data := x.ready.take (if isV4 dest then 1440 else 1420)
      let s := s.originate none dest (s.obj (Obj.streamDestPort entry)) (streamHeader entry data.length q c x.sent ++ data)
      let next := s.tick + ceilDiv (8000 * (16 + data.length)) (s.obj (Obj.streamRateMbps entry))
      if data = [] then
        let s := s.setStream entry { todo := x.todo, seen := x.seen, nextAt := next }
        .next ((s.bump (Obj.streamSent entry) 1).serviceNote 4 entry 1 (c % 2 ^ 32 * 2 ^ 16 + q) s.tick)
      else .next (s.setStream entry { x with ready := x.ready.drop data.length, sent := x.sent + data.length, nextAt := next })

end Sys2Proof.Machine
end

