-- ==== Sys2Proof/Machine/Tick.lean ====
section
/-! DEFINITION. The tick boundary (R16, R39): what every block does when the next tick opens. -/

namespace Sys2Proof.Machine

/-- Steps 2 and 3 of R390 in tick u, with what the blocks and the stops of the boundary leave to be written. -/
def State.cmmTick (s : State) (fails : List (Nat × Nat)) (u : Tick) : State :=
  let s := (s.fullBlocks fails u)
  let s := s.queueList.foldl (fun s q => s.flushInbox q u) s
  let s := s.acts.foldl (fun s a => s.takeAction u s.acts a) s
  let s := s.queueList.foldl (fun s q => (s.padStopped q u).trim q u) s
  s.queueList.foldl (fun s q =>
    let x := s.queue q
    let s := x.past.foldl (fun s p => if p.stopAt < u then s.dropPast q p u else s) s
    if x.stopAt.any (· < u) && !s.capturing q && x.waiting != [] then s.dropWaiting q u else s) s

/-- The open tick ends: what the decoders gathered in it is written, and last come the write grants of R390, after the page allocations of the tick. -/
def State.closeTick (s : State) : State := if s.running then s.decClose.writeGrants else s

/-- The data plane in tick u up to the allocations (R16, R390). -/
def State.dataTick (s : State) (inp : TickInput) (u : Tick) : State :=
  let s := ({ s with cmm := { s.cmm with fails := inp.verifyFail } } : State).cmmTick inp.verifyFail u
  let s := ((s.lcTick inp.waves inp.verifyFail u).linkTick u).decTick u
  let s := ((s.unitsTick u).bobbinsTick u).historyTick u
  s.laneTick inp.lanes u

/-- A rail's reading (R670, R699, R716). -/
def State.railRead (s : State) (k : Nat) (mv : Int) : State :=
  if 5 ≤ k then s
  else
    let (lo, hi) := railRange k
    let s := s.setInt (Obj.teleRailMv k) (clampI (-32768) 32767 mv)
    if mv < lo ∨ hi < mv then s.setObj Obj.teleSupplyFlags (s.obj Obj.teleSupplyFlags ||| 2 ^ k) else s

/-- A rail stands out of its range (R670). -/
def State.railOut (s : State) : Bool :=
  (below 5).any (fun k =>
    let v := s.int (Obj.teleRailMv k)
    v != 0 && (decide (v < (railRange k).1) || decide ((railRange k).2 < v)))

/-- The phase detectors and the tick-period fence, which act from power-up on (R75, R79, R92, R659), with the cells that fail, the Hoop FIFO bits that
change and, in trained memory, the bursts that come to hold errors (R370). -/
def State.clockInput (s : State) (inp : TickInput) : State :=
  let s := (inp.pfd.foldl State.pfd s).bump Obj.synTTickFenceCount inp.fences
  let s := if s.obj Obj.cmmMemState = 2 then inp.memFaults.foldl (fun s e => s.upsetMem e.1 e.2) s else s
  { s with otp := { s.otp with defects := s.otp.defects ++ inp.defects }, hoopFlips := s.hoopFlips ++ inp.hoopFlips }

/-- The sensors and the telemetry sweep in tick u (R528, R716). -/
def State.senseTick (s : State) (inp : TickInput) (u : Tick) : State :=
  let s := match inp.tj with
    | some v =>
      let v := clampI (-32768) 32767 v
      (s.setInt Obj.teleTj v).setInt Obj.teleTjPeak (max v (s.int Obj.teleTjPeak))
    | none => s
  let s := inp.rails.foldl (fun s e => s.railRead e.1 e.2) s
  let s := if s.railOut then { s with dev := { s.dev with railBad := some u } } else s
  inp.swept.foldl (fun s ix => s.sweep ix u) s

/-- Tick u opens (R39): the commands whose effects took place at its boundary end, and what counts within one tick begins anew. -/
def State.openTick (s : State) (u : Tick) : State :=
  let s := ((s.jTick).flushLanding u).revokeGone u
  { s with tick := u, taken := [], evRead := [], bbShown := [], cmm := { s.cmm with allocs := 0, leased := false }, host := { s.host with bar2Count := 0 } }

/-- One piece of work that waited for the tick now open; a second word of a lane waits again (R15), as does a read of BAR2 beyond 4 KiB (R592). -/
def State.runParked (s : State) (p : Parked) : State :=
  match p with
  | .word lane raw stamp => if (s.lane lane).wordAt == some s.tick then s.postpone p else s.takeWord lane raw stamp
  | .frame lane => s.takeFrame lane
  | .visit lane => s.takeVisit lane
  | .alloc => s.takeAlloc
  | .bar2 addr count entry =>
    if s.bar2Room (min count (65536 - addr % 65536)) then s.takeBar2 addr count entry else s.postpone p

/-- What waited for the tick now open is done in it, in order (R15, R25, R255, R592). -/
def State.unpark (s : State) : State := s.parked.foldl State.runParked { s with parked := [] }

/-- TICK (R16, R39): the next tick opens. Before SYN-T has locked no tick is counted, and only the synthesisers' phase detectors and the fence
act; in BOOT and FAULT the data plane is halted (R659, R669). -/
def execTick (inp : TickInput) (s : State) : Ans :=
  let s := s.clockInput inp
  if !s.time.counting then .next s
  else
    let u := s.tick + 1
    let s := (((s.countCyc.closeTick.atBoundary.openTick u).clocksTick u).joinFlags).samplePins inp.pins
    let s := if s.running then s.dataTick inp u else s.ballsOnly inp.waves
    .next ((((((s.sramTick inp u).mailTick u).lockTick u).jobTick u).unpark).senseTick inp u).configTick

end Sys2Proof.Machine
end

