-- ==== Sys2Proof/Machine/Dispatch.lean ====
section
/-! DEFINITION. The dispatcher: one arm per command, each a direct call of its meaning. -/

namespace Sys2Proof.Machine

/-- The effect of a command on everything but the queue. -/
def exec (i : Instr) (s : State) : Host.Outcome State Fault Refusal :=
  match i with
  | .tick inp => Sys2Proof.Machine.execTick inp s
  | .laneWord lane raw stamp fec => Sys2Proof.Machine.execLaneWord lane raw stamp fec s
  | .ethFrame lane => Sys2Proof.Machine.execEthFrame lane s
  | .scannerVisit lane => Sys2Proof.Machine.execScannerVisit lane s
  | .hiBerWindow dec => Sys2Proof.Machine.execHiBerWindow dec s
  | .cdrSignalDetect lane => Sys2Proof.Machine.execCdrSignalDetect lane s
  | .cdrFreqLock lane => Sys2Proof.Machine.execCdrFreqLock lane s
  | .cdrLock lane ctle dfe => Sys2Proof.Machine.execCdrLock lane ctle dfe s
  | .cdrSignalLoss lane partialBits => Sys2Proof.Machine.execCdrSignalLoss lane partialBits s
  | .cdrFreqLoss lane partialBits => Sys2Proof.Machine.execCdrFreqLoss lane partialBits s
  | .cdrTransitionLoss lane partialBits => Sys2Proof.Machine.execCdrTransitionLoss lane partialBits s
  | .linkFailRetry link => Sys2Proof.Machine.execLinkFailRetry link s
  | .noMarkerTimeout link => Sys2Proof.Machine.execNoMarkerTimeout link s
  | .eyeScanStart lane => Sys2Proof.Machine.execEyeScanStart lane s
  | .eyeScanEnd eye => Sys2Proof.Machine.execEyeScanEnd eye s
  | .comparatorSettle lc lower microvolts => Sys2Proof.Machine.execComparatorSettle lc lower microvolts s
  | .trigInAccept pin level => Sys2Proof.Machine.execTrigInAccept pin level s
  | .trigOutStart pin => Sys2Proof.Machine.execTrigOutStart pin s
  | .trigOutEnd pin => Sys2Proof.Machine.execTrigOutEnd pin s
  | .eventRead bb => Sys2Proof.Machine.execEventRead bb s
  | .cascadeMessageSend port => Sys2Proof.Machine.execCascadeMessageSend port s
  | .cascadeMessageReceive port chars => Sys2Proof.Machine.execCascadeMessageReceive port chars s
  | .alignWordSend port => Sys2Proof.Machine.execAlignWordSend port s
  | .alignWordReceive port count arrival point rtt => Sys2Proof.Machine.execAlignWordReceive port count arrival point rtt s
  | .alignWordTimeout port => Sys2Proof.Machine.execAlignWordTimeout port s
  | .cascadeSyncLoss port => Sys2Proof.Machine.execCascadeSyncLoss port s
  | .tickLoad => Sys2Proof.Machine.execTickLoad s
  | .ppsEdge time => Sys2Proof.Machine.execPpsEdge time s
  | .vrefEdge time aboveHi => Sys2Proof.Machine.execVrefEdge time aboveHi s
  | .loopUpdate => Sys2Proof.Machine.execLoopUpdate s
  | .ppsMiss => Sys2Proof.Machine.execPpsMiss s
  | .vrefMiss => Sys2Proof.Machine.execVrefMiss s
  | .hostTimeout => Sys2Proof.Machine.execHostTimeout s
  | .refclkLoss => Sys2Proof.Machine.execRefclkLoss s
  | .refclkReturn => Sys2Proof.Machine.execRefclkReturn s
  | .step => Sys2Proof.Machine.execStep s
  | .slewEnd => Sys2Proof.Machine.execSlewEnd s
  | .timeMapPoint => Sys2Proof.Machine.execTimeMapPoint s
  | .refclkClassify hertz => Sys2Proof.Machine.execRefclkClassify hertz s
  | .synLock syn => Sys2Proof.Machine.execSynLock syn s
  | .clkoutRestart n => Sys2Proof.Machine.execClkoutRestart n s
  | .clkoutStart n => Sys2Proof.Machine.execClkoutStart n s
  | .clkoutStop n => Sys2Proof.Machine.execClkoutStop n s
  | .picotStep n => Sys2Proof.Machine.execPicotStep n s
  | .read iss pkt => Sys2Proof.Machine.execRead iss pkt s
  | .write iss pkt => Sys2Proof.Machine.execWrite iss pkt s
  | .pairTimeout port => Sys2Proof.Machine.execPairTimeout port s
  | .commit iss pkt => Sys2Proof.Machine.execCommit iss pkt s
  | .commitLand port => Sys2Proof.Machine.execCommitLand port s
  | .discard iss pkt => Sys2Proof.Machine.execDiscard iss pkt s
  | .segStart iss pkt => Sys2Proof.Machine.execSegStart iss pkt s
  | .segData iss pkt => Sys2Proof.Machine.execSegData iss pkt s
  | .segEnd iss pkt => Sys2Proof.Machine.execSegEnd iss pkt s
  | .segAbort iss pkt => Sys2Proof.Machine.execSegAbort iss pkt s
  | .transferIdleTimeout port xfer => Sys2Proof.Machine.execTransferIdleTimeout port xfer s
  | .segRead iss pkt => Sys2Proof.Machine.execSegRead iss pkt s
  | .echo iss pkt => Sys2Proof.Machine.execEcho iss pkt s
  | .hello iss pkt => Sys2Proof.Machine.execHello iss pkt s
  | .attest iss pkt => Sys2Proof.Machine.execAttest iss pkt s
  | .prove iss pkt => Sys2Proof.Machine.execProve iss pkt s
  | .close iss pkt => Sys2Proof.Machine.execClose iss pkt s
  | .sessionIdleTimeout slot => Sys2Proof.Machine.execSessionIdleTimeout slot s
  | .handshakeTimeout slot => Sys2Proof.Machine.execHandshakeTimeout slot s
  | .proveLockoutEnd port => Sys2Proof.Machine.execProveLockoutEnd port s
  | .sessionClose c slot => Sys2Proof.Machine.execSessionClose c slot s
  | .ownerKey c => Sys2Proof.Machine.execOwnerKey c s
  | .ownerKeyProgrammed => Sys2Proof.Machine.execOwnerKeyProgrammed s
  | .policyFloor c => Sys2Proof.Machine.execPolicyFloor c s
  | .fwSecRaise c => Sys2Proof.Machine.execFwSecRaise c s
  | .mirrorCopy => Sys2Proof.Machine.execMirrorCopy s
  | .stepNow c => Sys2Proof.Machine.execStepNow c s
  | .slewNow c => Sys2Proof.Machine.execSlewNow c s
  | .realign c => Sys2Proof.Machine.execRealign c s
  | .freqCorr c => Sys2Proof.Machine.execFreqCorr c s
  | .phaseCorr c => Sys2Proof.Machine.execPhaseCorr c s
  | .picotSteps c n => Sys2Proof.Machine.execPicotSteps c n s
  | .swTrigger c => Sys2Proof.Machine.execSwTrigger c s
  | .eyeRequest c lane => Sys2Proof.Machine.execEyeRequest c lane s
  | .clear c slot => Sys2Proof.Machine.execClear c slot s
  | .train c => Sys2Proof.Machine.execTrain c s
  | .trainEnd failSteps => Sys2Proof.Machine.execTrainEnd failSteps s
  | .free c queue => Sys2Proof.Machine.execFree c queue s
  | .closePage c queue => Sys2Proof.Machine.execClosePage c queue s
  | .grant c => Sys2Proof.Machine.execGrant c s
  | .renew c => Sys2Proof.Machine.execRenew c s
  | .release c => Sys2Proof.Machine.execRelease c s
  | .query c => Sys2Proof.Machine.execQuery c s
  | .leaseExpire index => Sys2Proof.Machine.execLeaseExpire index s
  | .pageAlloc => Sys2Proof.Machine.execPageAlloc s
  | .chunkFlush queue => Sys2Proof.Machine.execChunkFlush queue s
  | .segmentClose queue => Sys2Proof.Machine.execSegmentClose queue s
  | .segmentOpen queue => Sys2Proof.Machine.execSegmentOpen queue s
  | .drainEnd queue => Sys2Proof.Machine.execDrainEnd queue s
  | .lookup c => Sys2Proof.Machine.execLookup c s
  | .install c => Sys2Proof.Machine.execInstall c s
  | .update c => Sys2Proof.Machine.execUpdate c s
  | .remove c => Sys2Proof.Machine.execRemove c s
  | .tableRead c => Sys2Proof.Machine.execTableRead c s
  | .clearStats c => Sys2Proof.Machine.execClearStats c s
  | .flushLearnt c => Sys2Proof.Machine.execFlushLearnt c s
  | .flushLearntDone lane => Sys2Proof.Machine.execFlushLearntDone lane s
  | .stateRestore c => Sys2Proof.Machine.execStateRestore c s
  | .jobStart c job => Sys2Proof.Machine.execJobStart c job s
  | .resume c job => Sys2Proof.Machine.execResume c job s
  | .finish c job => Sys2Proof.Machine.execFinish c job s
  | .abort c job => Sys2Proof.Machine.execAbort c job s
  | .jobRun => Sys2Proof.Machine.execJobRun s
  | .jobEnd verifyFail destFail memError => Sys2Proof.Machine.execJobEnd verifyFail destFail memError s
  | .releaseHandle c => Sys2Proof.Machine.execReleaseHandle c s
  | .handleTimeout handle => Sys2Proof.Machine.execHandleTimeout handle s
  | .cmdDoorbell value slotBytes => Sys2Proof.Machine.execCmdDoorbell value slotBytes s
  | .rspAck value => Sys2Proof.Machine.execRspAck value s
  | .noteHead value => Sys2Proof.Machine.execNoteHead value s
  | .descTail ring value => Sys2Proof.Machine.execDescTail ring value s
  | .cplHead ring value => Sys2Proof.Machine.execCplHead ring value s
  | .bar0Write offset value width => Sys2Proof.Machine.execBar0Write offset value width s
  | .descFetch ring desc => Sys2Proof.Machine.execDescFetch ring desc s
  | .descGrant ring => Sys2Proof.Machine.execDescGrant ring s
  | .descRead ring memErr => Sys2Proof.Machine.execDescRead ring memErr s
  | .descRenew ring => Sys2Proof.Machine.execDescRenew ring s
  | .descRelease ring => Sys2Proof.Machine.execDescRelease ring s
  | .ringEnable c ring => Sys2Proof.Machine.execRingEnable c ring s
  | .ringDisable c ring => Sys2Proof.Machine.execRingDisable c ring s
  | .mapInvalidate c => Sys2Proof.Machine.execMapInvalidate c s
  | .bar2Read addr count entry => Sys2Proof.Machine.execBar2Read addr count entry s
  | .bar2Write addr => Sys2Proof.Machine.execBar2Write addr s
  | .port0Reset => Sys2Proof.Machine.execPort0Reset s
  | .bmeClear => Sys2Proof.Machine.execBmeClear s
  | .bmeSet => Sys2Proof.Machine.execBmeSet s
  | .datagramDiscard d fragment => Sys2Proof.Machine.execDatagramDiscard d fragment s
  | .arpRequest d => Sys2Proof.Machine.execArpRequest d s
  | .neighbourSolicitation d => Sys2Proof.Machine.execNeighbourSolicitation d s
  | .icmpEchoRequest d => Sys2Proof.Machine.execIcmpEchoRequest d s
  | .nextHopReply d => Sys2Proof.Machine.execNextHopReply d s
  | .nextHopRetry addr => Sys2Proof.Machine.execNextHopRetry addr s
  | .nextHopExpiry addr => Sys2Proof.Machine.execNextHopExpiry addr s
  | .notificationSend sub => Sys2Proof.Machine.execNotificationSend sub s
  | .sgmiiSyncLoss => Sys2Proof.Machine.execSgmiiSyncLoss s
  | .lockRequest core pkt => Sys2Proof.Machine.execLockRequest core pkt s
  | .lockTimeout => Sys2Proof.Machine.execLockTimeout s
  | .coreReset c core => Sys2Proof.Machine.execCoreReset c core s
  | .watchdogExpiry core => Sys2Proof.Machine.execWatchdogExpiry core s
  | .coreFault core => Sys2Proof.Machine.execCoreFault core s
  | .fwRestart c => Sys2Proof.Machine.execFwRestart c s
  | .fwCheckEnd slotA slotB config0 config1 => Sys2Proof.Machine.execFwCheckEnd slotA slotB config0 config1 s
  | .flashImage c => Sys2Proof.Machine.execFlashImage c s
  | .flashConfig c => Sys2Proof.Machine.execFlashConfig c s
  | .watchPoll entry => Sys2Proof.Machine.execWatchPoll entry s
  | .flowhealthSample lane => Sys2Proof.Machine.execFlowhealthSample lane s
  | .signatureTap entry => Sys2Proof.Machine.execSignatureTap entry s
  | .golden c entry => Sys2Proof.Machine.execGolden c entry s
  | .streamExport entry => Sys2Proof.Machine.execStreamExport entry s
  | .streamSend entry => Sys2Proof.Machine.execStreamSend entry s
  | .resend c entry => Sys2Proof.Machine.execResend c entry s
  | .darnerBorrow inst fails => Sys2Proof.Machine.execDarnerBorrow inst fails s
  | .borrowEnd => Sys2Proof.Machine.execBorrowEnd s
  | .marchPreserve c => Sys2Proof.Machine.execMarchPreserve c s
  | .marchDestroy c => Sys2Proof.Machine.execMarchDestroy c s
  | .marchRecover c => Sys2Proof.Machine.execMarchRecover c s
  | .marchEnd rows cols => Sys2Proof.Machine.execMarchEnd rows cols s
  | .fuseRepairs c => Sys2Proof.Machine.execFuseRepairs c s
  | .fuseProgrammed => Sys2Proof.Machine.execFuseProgrammed s
  | .resetWarm c => Sys2Proof.Machine.execResetWarm c s
  | .resetControl c => Sys2Proof.Machine.execResetControl c s
  | .resetData c => Sys2Proof.Machine.execResetData c s
  | .resetManagement c => Sys2Proof.Machine.execResetManagement c s
  | .warmReset => Sys2Proof.Machine.execWarmReset s
  | .controlReset => Sys2Proof.Machine.execControlReset s
  | .dataReset => Sys2Proof.Machine.execDataReset s
  | .managementReset => Sys2Proof.Machine.execManagementReset s
  | .powerOnReset straps => Sys2Proof.Machine.execPowerOnReset straps s
  | .standbyEntry micros rows cols => Sys2Proof.Machine.execStandbyEntry micros rows cols s
  | .thermalTrip tj => Sys2Proof.Machine.execThermalTrip tj s
  | .supplyFault rail => Sys2Proof.Machine.execSupplyFault rail s
  | .faultEntry => Sys2Proof.Machine.execFaultEntry s
  | .warmResetEnd micros rows cols => Sys2Proof.Machine.execWarmResetEnd micros rows cols s
  | .pcieLinkUp speed width => Sys2Proof.Machine.execPcieLinkUp speed width s
  | .cascadeSync port => Sys2Proof.Machine.execCascadeSync port s
  | .sgmiiSync => Sys2Proof.Machine.execSgmiiSync s
  | .vdpCommand d => Sys2Proof.Machine.execVdpCommand d s
  | .flashProgrammed => Sys2Proof.Machine.execFlashProgrammed s
  | .coreBooted core => Sys2Proof.Machine.execCoreBooted core s

end Sys2Proof.Machine
end

