-- ==== Sys2Proof/Machine/Pins.lean ====
section
/-! DEFINITION. What the state shows at the package besides the outputs of the commands: the configuration header of the PCI Express
endpoint (R573, R574), and the balls of a memory channel (R693, R694). -/

namespace Sys2Proof.Machine

/-! The configuration header and capabilities (R574). -/

/-- A base address register: where it stands, whether it is prefetchable, and its size; both are 64 bits wide. -/
structure Bar where
  offset : Nat
  prefetch : Bool
  size : Nat
deriving DecidableEq, Repr

/-- A capability of the function. -/
inductive PciCap where
  | pciExpress
  /-- Power Management, with the states D0 and D3hot. -/
  | powerManagement
  /-- MSI-X, with the entries of its table (R576). -/
  | msix (entries : Nat)
  | advancedErrors
  | serialNumber (value : Nat)
  | dataLinkFeature
deriving DecidableEq, Repr

/-- What the configuration space of the one physical function holds. -/
structure PciFunction where
  vendor : Nat
  device : Nat
  revision : Nat
  classCode : Nat
  subVendor : Nat
  subDevice : Nat
  bars : List Bar
  interruptPin : Nat
  caps : List PciCap
deriving DecidableEq, Repr

/-- Device ID by VARIANT. -/
def pciDevice (variant : Nat) : Nat := if variant = 0 then 0x8856 else if variant = 1 then 0x8832 else 0x8816

/-- The configuration header and capabilities (R573, R574). -/
def State.pci (s : State) : PciFunction where
  vendor := 0x1E7D
  device := pciDevice s.otp.variant
  revision := 0xB0
  classCode := 0x118000
  subVendor := s.otp.subVendor.getD 0x1E7D
  subDevice := s.otp.subDevice.getD (pciDevice s.otp.variant)
  bars := [{ offset := 0x10, prefetch := false, size := 2 ^ 16 }, { offset := 0x18, prefetch := true, size := 2 ^ 36 }]
  interruptPin := 0
  caps := [.pciExpress, .powerManagement, .msix 256, .advancedErrors, .serialNumber s.otp.serial, .dataLinkFeature]

/-! The balls of a memory channel (R694, R695). -/

/-- A ball of a memory channel; the clocks of two ranks of modules, the chip selects 0 to 3. -/
inductive MemBall where
  | drst
  | ckTrue (n : Nat)
  | ckComp (n : Nat)
  | dca (n : Nat)
  | dpar
  | dcs (n : Nat)
  | dq (n : Nat)
  | dqs (n : Nat)
  /-- ALERT_N, an input (R695). -/
  | alert
deriving DecidableEq, Repr

/-- What stands at a ball. -/
inductive BallLevel where
  | low
  | high
  /-- High impedance with an internal pull-down of 50 kΩ. -/
  | pulledDown
  /-- As the memory protocol drives or receives it (R695, R708). -/
  | active
  /-- No circuit behind the ball (R693). -/
  | open_
deriving DecidableEq, Repr

/-- The level at a ball of memory channel m (R693, R694), for the CHANNEL_MASK and the DPC in force. -/
def State.memBall (s : State) (m : Nat) (b : MemBall) : BallLevel :=
  if memChansOf s.otp.variant ≤ m then .open_
  else if !bit (s.obj Obj.cmmChannelMask) m then
    match b with
    | .drst | .ckTrue _ | .dca _ | .dpar | .dcs _ => .low
    | .ckComp _ => .high
    | .dq _ | .dqs _ => .pulledDown
    | .alert => .active
  else if s.obj Obj.cmmDpc = 1 then
    match b with
    | .dcs n => if n = 2 ∨ n = 3 then .high else .active
    | .ckTrue n => if n = 1 then .low else .active
    | .ckComp n => if n = 1 then .high else .active
    | .drst | .dca _ | .dpar | .dq _ | .dqs _ | .alert => .active
  else .active

end Sys2Proof.Machine
end

