-- ==== Sys2Proof/Safety.lean ====
section
/-! DEFINITION. What a safe run is, in the terms the statements use: no stop, the memories and the dictionary in their canonical forms,
the fuses only ever programmed, nothing taken back of what has left the engine. -/

namespace Sys2Proof

open Sys2Proof.Machine

/-- A memory is in canonical form: addresses strictly rising, no byte listed as zero, which is what an unlisted address reads as. -/
abbrev Memory.wf (m : List Host.Cell) : Prop := Tab.sorted m = true ∧ ∀ c ∈ m, c.2 ≠ 0

/-- The dictionary is in canonical form: keys strictly rising, no object listed at its default. -/
abbrev Dict.wf (d : Tab Nat) : Prop := Tab.sorted d = true ∧ ∀ e ∈ d, e.2 ≠ dfltOf e.1

/-- A run is safe while the machine answers next states. -/
def Safe (s : State) : Prop := ∃ t, step s = .next t

/-- The invariant of the engine's memories: capture memory and service memory are canonical, the dictionary is canonical, and
the journal holds at most the 65,536 entries of its ring (R371, R560, R600). -/
structure Inv (s : State) : Prop where
  mem : Memory.wf s.mem
  shm : Memory.wf s.shm
  dict : Dict.wf s.dict
  journal : s.journal.length ≤ 65536

/-- What a program of fuses leaves: the factory's fuses as they were, an owner key once installed unchanged, POLICY_FLOOR with no bit
cleared, FW_SEC_MIN not lowered, no repair taken back, no faulty cell mended (R538, R556, R559, R631, R645). -/
structure FusesKept (a b : Otp) : Prop where
  factory : b = { a with ownerKey := b.ownerKey, policyFloor := b.policyFloor, secMin := b.secMin, secRaises := b.secRaises,
                         repairs := b.repairs, columns := b.columns, defects := b.defects }
  owner : a.ownerKey = [] ∨ b.ownerKey = a.ownerKey
  floor : b.policyFloor ||| a.policyFloor = b.policyFloor
  sec : a.secMin ≤ b.secMin
  repairs : a.repairs <+: b.repairs
  columns : a.columns <+: b.columns
  defects : a.defects <+: b.defects

namespace Machine

/-! Commands that come through a port. -/

/-- The packet that a port takes from its sender now, with the state in which its command then acts: start-up has ended, the packet passes
its check and has the OP of the row, its turn has come, it leaves its FIFO as it was sent, and it is admitted (R502, R511, R550, R653, R659). -/
def State.taking (s : State) (op : Nat) (i : Issuer) (raw : Bytes) : Option (State × Accepted) :=
  if !s.booted then none
  else
    match parsePkt i.port raw with
    | none => none
    | some p =>
      if p.op ≠ op ∨ s.mustWait i raw then none
      else
        match ((({ s with taken := s.taken ++ [i.port] }).popHoop i raw).clearBusy i).received op i raw p with
        | (_, none) => none
        | (s, some q) =>
          if q ≠ p then none
          else
            match s.admission i q false with
            | (_, none) => none
            | (s, some a) => some (s, a)

/-- A packet's trailer has the 32 bytes that FLAGS bit 1 announces, or none (R502, R548). -/
def Trailed (flags : Nat) (trailer : Bytes) : Prop := flags < 4 ∧ trailer.length = if bit flags 1 then 32 else 0

/-- An object may be written: it is present on the variant, and neither FAULT nor a strap refuses the write (R497, R657, R664). -/
def Writable (s : State) (k : Key) : Prop := absentIndex s.otp.variant (k / 256) = false ∧ s.writeBusy k = false

/-- Nothing else takes effect at the boundary that opens the next tick: no write waits for it and no commit lands there. -/
def State.Alone (s : State) : Prop := s.due = [] ∧ s.dueCommits (s.tick + 1) = []

/-- A command is taken and waits for the boundary that opens the next tick (R22, R512): until then nothing is different but that, and with
nothing else at that boundary the state it leaves is t. -/
def Lands (s : State) (r : Ans) (t : State) : Prop :=
  ∃ d : Due, r = .next { s with due := [d] } ∧ State.atBoundary { s with due := [d] } = t

/-- A write of one number is taken: the packet is the one the row's operands spell, the object may be written, and nothing else takes
effect at its boundary. `s1` is the state in which it acts, `a` the accepted command. -/
def Writes (s : State) (c : WriteCmd) (k : Key) (v : Nat) (s1 : State) (a : Accepted) : Prop :=
  Trailed c.flags c.trailer ∧ s.taking opWrite c.iss (numPacket c k v) = some (s1, a) ∧ s1.Alone ∧ Writable s1 k

/-- As Writes, for a byte string that fits a packet. -/
def WritesBytes (s : State) (c : BytesCmd) (k : Key) (s1 : State) (a : Accepted) : Prop :=
  Trailed c.flags c.trailer ∧ c.value.length + 20 + c.trailer.length ≤ 256 ∧ s.taking opWrite c.iss (bytPacket c k) = some (s1, a)
    ∧ s1.Alone ∧ Writable s1 k

/-- As WritesBytes, for a byte string of any length: in a WRITE where it fits a packet, else by the SEG_END of the issuer's open transfer
that has brought the whole value (R525); `s1` is then the state with that transfer closed. -/
def WritesLong (s : State) (c : BytesCmd) (k : Key) (s1 : State) (a : Accepted) : Prop :=
  if c.value.length + 20 + c.trailer.length ≤ 256 then WritesBytes s c k s1 a
  else ∃ (x : Transfer) (s0 : State), Trailed c.flags c.trailer ∧ s.wholeTransfer c k = some x ∧ x.xfer < 65536
    ∧ s.taking opSegEnd c.iss (segEndPacket c x.xfer) = some (s0, a) ∧ s0.transferOf c.iss x.xfer = some x ∧ s1 = s0.closeXfer x
    ∧ s1.Alone ∧ Writable s1 k

/-- A command's one write has acted at the boundary that opens the next tick with outcome `o`: earlier commands of the boundary that wrote
the object see it overwritten (R513), CONFIG_CHANGE and DEV_STATE follow (R520, R665; an action brings no CONFIG_CHANGE), and the command's
end waits for the tick to open (R505), or for `w`. -/
def State.ended (s : State) (a : Accepted) (o : ObjOut) (w : Option Wait := none) : State :=
  let s1 := (s.supersedeAll [o] a.jseq).settle 2 a.iss a.jseq [o] (s.tick + 1)
  { s1 with landing := s1.landing ++ [{ a.landing with effect := s.tick + 1, outs := [o], waits := w }] }

/-- A STRICT command whose entry ends with anything but OK (R515): nothing is applied, and the report says what would have been. -/
def State.strictEnd (s : State) (a : Accepted) (o : ObjOut) : State :=
  { s with landing := s.landing ++ [{ a.landing with effect := s.tick + 1, fixed := some (stRejected, reStrict), outs := strictReport [o] }] }

/-- A command's one write ends with outcome `o` and leaves `t`, or, with bit 0 of FLAGS set and an outcome other than OK, nothing of it (R515). -/
def State.endedOr (s : State) (flags : Nat) (a : Accepted) (o : ObjOut) (t : State) (w : Option Wait := none) : State :=
  if bit flags 0 = true ∧ strictFails o = true then s.strictEnd a o else t.ended a o w

/-! What reports leave alone. -/

/-- The objects that reports change: DEV_STATE (R663), NSEQ and DROPPED of the subscribers (R532), the dropped notifications of port 0
(R581). -/
def reportKey (k : Nat) : Bool :=
  k == Obj.devDevState || (0x1110 ≤ k / 256 && k / 256 < 0x1118 && (k % 256 == 4 || k % 256 == 5)) || k == Obj.hostCntNoteDropped

/-- The parts of the state that no report touches. -/
def State.unreported (s : State) : State := { s with dict := [], queues := [], landing := [], out := [], host := {}, subQ := [] }

/-- A host port but for the interrupts and notifications it has yet to show (R580, R581). -/
def HostPort.quiet (h : HostPort) : HostPort := { h with intStatus := 0, pba := [], noteSeq := 0 }

/-- A queue but for the control records on their way into it, and the loss run of a re-arm (R320, R421). -/
def Queue.quiet (x : Queue) : Queue := { x with inbox := [], rearmLoss := none }

/-- From s to t nothing happened but reports: control records entered queues, notifications were raised, DEV_STATE moved between READY
and RUN or was set, outcomes joined those that wait for the tick. -/
structure OnlyReported (s t : State) : Prop where
  rest : t.unreported = s.unreported
  objs : ∀ k, reportKey k = false → t.obj k = s.obj k
  host : t.host.quiet = s.host.quiet
  queues : ∀ q, (t.queue q).quiet = (s.queue q).quiet
  landing : s.landing.length ≤ t.landing.length
  out : s.out <+: t.out

/-- Every object but the listed ones reads as before. -/
def SameObjs (s t : State) (ks : List Key) : Prop := ∀ k, k ∉ ks → t.obj k = s.obj k

/-- A counter has counted n more, or stands at its maximum (R527). -/
def Counted (s t : State) (k : Key) (n : Nat) : Prop := t.obj k = min (s.obj k + n) (maxOf k)

end Machine

end Sys2Proof
end

