-- ==== Sys2Proof/Certificates/Slice0/Obligations.lean ====
section
/-! DEFINITION. The statements about the engine that the provers are asked for. `Lands s1 (exec c s) t` says that the command completes, that it waits for
the boundary that opens the next tick (R22, R512), and that it leaves t there. A clause `∃ t : State, exec c s = .next t ∧ …` says that the command
completes, and what its next state holds. -/

open Sys2Proof Sys2Proof.Machine

/-! Time and its sources (R43 to R65). -/

/-- TIME_MAP_POINT, STEP and SLEW_END (R45, R58, R59). TIME_MAP_POINT asks for the boundary that opens the next tick, once; where that tick's count
is a multiple of the TIME_MAP_INTERVAL then in force a new point of the time map stands: at that tick, numbered by the next SEQ, with the RATE in force, its TAI that of the point before it at that instant. A step that
waits lands: its point is marked stepped and TAI has moved by the jump, 1,024 units of 2^-16 ns to the sub-tick. A slew whose residual is
within LOCK_WINDOW ends: no slew offset is left and SLEWING becomes LOCKED. Nothing else changes but what is reported.
The model's readings here: assumption 39. -/
def Obligations.TimeMapMovesAtPointsStepsAndSlewEnds : Prop :=
  (∀ s : State, exec .timeMapPoint s = .next (if s.due.contains .point then s else s.await .point))
  ∧ (∀ s : State, s.Alone → s.obj Obj.tbTimeMapInterval ≠ 0 → (s.tick + 1) % s.obj Obj.tbTimeMapInterval = 0 →
    s.time.counting = true →
    ∃ t : State, Lands s (exec .timeMapPoint s) t ∧ t.time = { s.time with point := t.time.point, nextSeq := (s.time.nextSeq + 1) % 256 }
      ∧ t.time.point.at_ = 64 * (s.tick + 1) ∧ t.time.point.seq = s.time.nextSeq ∧ t.time.point.stepped = false
      ∧ t.time.point.rate = s.time.rate - s.time.slewOffset
      ∧ (s.time.taiValid = true → t.time.point.tai = s.time.point.taiAt (64 * (s.tick + 1)))
      ∧ OnlyReported { s with time := t.time } t)
  ∧ (∀ (s : State) (j : Int) (cause : Nat), s.time.step = some (j, cause) →
    ∃ t : State, exec .step s = .next t ∧ t.time = { s.time with step := none, point := t.time.point, nextSeq := (s.time.nextSeq + 1) % 256 }
      ∧ t.time.point.at_ = 64 * (s.tick + 1) ∧ t.time.point.stepped = true
      ∧ (s.time.taiValid = true → t.time.point.tai = ((s.time.point.taiAt (64 * (s.tick + 1)) : Int) + 1024 * j).toNat)
      ∧ OnlyReported { s with time := t.time } t)
  ∧ (∀ s : State, s.time.slewOffset ≠ 0 → s.residual (s.tick + 1) ≤ s.obj Obj.tbLockWindow →
    ∃ t : State, exec .slewEnd s = .next t ∧ t.time.slewOffset = 0 ∧ t.time.offset = s.time.offset
      ∧ (s.obj Obj.tbDiscState = 4 → t.obj Obj.tbDiscState = 2) ∧ (s.obj Obj.tbDiscState ≠ 4 → t.obj Obj.tbDiscState = s.obj Obj.tbDiscState)
      ∧ (∀ k, reportKey k = false → k ∉ [Obj.tbDiscState, Obj.synTSynWord] → t.obj k = s.obj k)
      ∧ OnlyReported { s with dict := t.dict, time := t.time } t)

/-- PPS_EDGE and VREF_EDGE (R48, R50). An edge within the window of its prediction is taken: it is the last edge, one more in the row, and
no edge is missing any more; with LOCK_COUNT of them the source is qualified. The first edge starts the row, and is enough where LOCK_COUNT is 1.
PPS_MISS, VREF_MISS and HOST_TIMEOUT (R48, R54, R55). A predicted edge that does not come is one more miss and starts the row of
edges anew; at the limit, or when HOST_TIMEOUT ms bring no correction, the source is lost, and a LOCKED engine is in HOLDOVER.
The model's readings here: assumption 39. -/
def Obligations.SourceEdgesAreTakenOrMissed : Prop :=
  ((∀ (s : State) (time e : Nat), s.obj Obj.tbDiscSrc = 1 → s.time.counting = true → tickOf time ≤ s.tick →
    s.time.lastEdge = some e → ((time : Int) - e - 64000000000 * s.time.ahead).natAbs ≤ 64000000 →
    ∃ t : State, exec (.ppsEdge time) s = .next t ∧ t.time.lastEdge = some time ∧ t.time.edges = s.time.edges + 1 ∧ t.time.misses = 0
      ∧ (s.obj Obj.tbLockCount ≤ s.time.edges + 1 → t.time.sourceOk = true))
  ∧ (∀ (s : State) (time e : Nat) (hi : Bool), s.obj Obj.tbDiscSrc = 2 → s.time.counting = true → tickOf time ≤ s.tick →
    (s.obj Obj.vrefVrefEdge = 1 → hi = true) → s.time.lastEdge = some e →
    (((time * s.obj Obj.vrefVrefDen : Nat) : Int) - (e * s.obj Obj.vrefVrefDen + 64 * s.obj Obj.vrefVrefNum * s.time.ahead : Nat)).natAbs
      ≤ 64 * s.obj Obj.vrefVrefTol * s.obj Obj.vrefVrefDen →
    ∃ t : State, exec (.vrefEdge time hi) s = .next t ∧ t.time.lastEdge = some time ∧ t.time.edges = s.time.edges + 1 ∧ t.time.misses = 0
      ∧ (s.obj Obj.tbLockCount ≤ s.time.edges + 1 → t.time.sourceOk = true))
  ∧ (∀ (s : State) (time : Nat) (hi : Bool), s.obj Obj.tbDiscSrc = 2 → s.time.counting = true → tickOf time ≤ s.tick →
    (s.obj Obj.vrefVrefEdge = 1 → hi = true) → s.time.lastEdge = none →
    (1 < s.obj Obj.tbLockCount → s.time.sourceOk = false → s.obj Obj.tbDiscState ≠ 2 → s.obj Obj.tbDiscState ≠ 4 →
      exec (.vrefEdge time hi) s = .next { s with time := { s.time with lastEdge := some time, edges := 1, misses := 0, ahead := 1 } })
    ∧ (s.obj Obj.tbLockCount ≤ 1 →
      ∃ t : State, exec (.vrefEdge time hi) s = .next t ∧ t.time.lastEdge = some time ∧ t.time.edges = 1 ∧ t.time.sourceOk = true)))
  ∧ ((∀ (s : State) (e : Nat), s.obj Obj.tbDiscSrc = 1 → s.time.lastEdge = some e →
    e + 64000000000 * s.time.ahead + 64000000 ≤ 64 * (s.tick + 1) →
    (s.time.misses + 1 < s.obj Obj.tbPpsMissLimit → s.time.sourceOk = true →
      exec .ppsMiss s = .next { s with time := { s.time with misses := s.time.misses + 1, ahead := s.time.ahead + 1, edges := 0 } })
    ∧ (s.obj Obj.tbPpsMissLimit ≤ s.time.misses + 1 →
      ∃ t : State, exec .ppsMiss s = .next t ∧ t.time.sourceOk = false ∧ t.time.lastEdge = none
        ∧ (s.obj Obj.tbDiscState = 2 → t.obj Obj.tbDiscState = 3 ∧ t.time.holdSince = s.tick + 1)))
  ∧ (∀ (s : State) (e : Nat), s.obj Obj.tbDiscSrc = 2 → s.time.lastEdge = some e →
    e * s.obj Obj.vrefVrefDen + 64 * s.obj Obj.vrefVrefNum * s.time.ahead + 64 * s.obj Obj.vrefVrefTol * s.obj Obj.vrefVrefDen
      < 64 * (s.tick + 1) * s.obj Obj.vrefVrefDen →
    (s.time.misses + 1 < s.obj Obj.vrefVrefMissLimit → s.time.sourceOk = true →
      exec .vrefMiss s = .next { s with time := { s.time with misses := s.time.misses + 1, ahead := s.time.ahead + 1, edges := 0 } })
    ∧ (s.obj Obj.vrefVrefMissLimit ≤ s.time.misses + 1 →
      ∃ t : State, exec .vrefMiss s = .next t ∧ t.time.sourceOk = false ∧ t.time.lastEdge = none
        ∧ (s.obj Obj.tbDiscState = 2 → t.obj Obj.tbDiscState = 3 ∧ t.time.holdSince = s.tick + 1)))
  ∧ (∀ (s : State) (c : Nat), s.obj Obj.tbDiscSrc = 4 → s.time.lastCorr = some c → s.obj Obj.corrHostTimeout ≠ 0 →
    c + 1000000 * s.obj Obj.corrHostTimeout ≤ s.tick + 1 →
    ∃ t : State, exec .hostTimeout s = .next t ∧ t.time.lastCorr = none ∧ t.time.sourceOk = false
      ∧ (s.obj Obj.tbDiscState = 2 → t.obj Obj.tbDiscState = 3 ∧ t.time.holdSince = s.tick + 1)))

/-- LOOP_UPDATE (R48, R52, R91). With DISC_SRC REFCLK and LOCKED or SLEWING the loop updates every 1,024 ticks: SYN-T's word becomes the
nominal ratio moved by the sum of the discipline and slew offsets, at most +500 ppm, and the discipline offset is within 200 ppm. Only
the timebase, that word and the count of free values change: the loop's arithmetic is the maker's (assumption 7). -/
def Obligations.LoopUpdateSteersWithinItsBounds : Prop :=
  ∀ s : State, s.obj Obj.tbDiscSrc = 0 → s.obj Obj.tbDiscState = 2 ∨ s.obj Obj.tbDiscState = 4 → s.time.lastUpdate + 1024 ≤ s.tick + 1 →
    ∃ t : State, exec .loopUpdate s = .next t ∧ t.time.lastUpdate = s.tick + 1 ∧ t.time.sinceUpdate = 0
      ∧ -219902325 ≤ t.time.offset ∧ t.time.offset ≤ 219902325
      ∧ t.obj Obj.synTSynWord = synTWordOf (((refRatio (s.obj Obj.refRefclkClass) * 2 ^ 32 : Nat) : Int)
          + ((refRatio (s.obj Obj.refRefclkClass) * 2 ^ 32 : Nat) : Int) * min (t.time.offset + s.time.slewOffset) 549755813 / 2 ^ 40).toNat
      ∧ SameObjs s t [Obj.synTSynWord]
      ∧ t = { s with dict := t.dict, time := t.time, free := s.free + 2 }

/-! Clock synthesis and clock outputs (R66 to R95). -/

/-- SYN_LOCK (R79, R80). A relock that has begun ends in lock once 256 phase-detector cycles have passed, while REFCLK is present: LOCKED reads 1
and the synthesiser is in no relock; before that nothing happens. An output's STATE is then 2 where its gate is open, 3 where a started output
waits for its restart, 4 else; SYN-T and SYN-L have no STATE.
The model's readings here: assumptions 3 and 48. -/
def Obligations.SynthesiserLocksAfterItsRelock : Prop :=
  (∀ (s : State) (i : Nat), i < 6 → (s.synth i).relockAt.isSome = true → 256 ≤ (s.synth i).cycles → s.time.refclk = true →
    s.obj (synWordKey i) ≠ 0 →
    ∃ t : State, exec (.synLock i) s = .next t ∧ t = { s with dict := t.dict, syn := t.syn }
      ∧ t.obj (synLockedKey i) = 1
      ∧ t.synth i = { s.synth i with relockAt := none, lockedAt := some s.refCyc } ∧ (∀ j, j ≠ i → t.synth j = s.synth j)
      ∧ (i < 2 → SameObjs s t [synLockedKey i])
      ∧ (2 ≤ i → t.obj (Obj.synOState (i - 2)) = (if (s.synth i).gate then 2 else if (s.synth i).hold ∧ (s.synth i).on then 3 else 4)
        ∧ SameObjs s t [synLockedKey i, Obj.synOState (i - 2)]))
  ∧ ∀ (s : State) (i : Nat), (s.synth i).cycles < 256 → exec (.synLock i) s = .next s

/-- CLKOUT_START, CLKOUT_STOP and CLKOUT_RESTART (R70, R80, R82, R87, R88). A start that is due opens the gate of an output that is not held, and an
opening gate releases the divider from reset; a stop that is due closes it; the hold of a gated relock or of a power-down closes it and leaves the
output started; 1,024 cycles of REFCLK after lock the hold ends, and the gate of a started output opens. Only that output's state and its STATE
change: 0 without a word, 1 in a relock, else 2 where the gate is open, 3 where a started output is held, 4 else. While the gate is open the output
is high for the first (D + 1) / 2 VCO periods of its period (D / 2 for an even D) and low for the rest.
PICOT_STEP (R86). While Picot steps are pending and REFCLK is present, one is taken every PICOT_INTERVAL cycles of REFCLK: PICOT_PENDING moves by one
towards zero, and the divider owes one 128th of a VCO period of delay for a positive step, of advance for a negative one; nothing else changes.
The model's readings here: assumptions 3 and 48. -/
def Obligations.OutputsAndPicotsMoveAtTheirBoundaries : Prop :=
  ((∀ (s : State) (n : Nat), n < 4 → (s.synth (n + 2)).opens.any (· ≤ s.tick + 1) = true →
    ∃ t : State, exec (.clkoutStart n) s = .next t ∧ t = { s with dict := t.dict, syn := t.syn } ∧ (∀ j, j ≠ n + 2 → t.synth j = s.synth j)
      ∧ (t.synth (n + 2)).on = true ∧ (t.synth (n + 2)).opens = (s.synth (n + 2)).opens.filter (s.tick + 1 < ·)
      ∧ (t.synth (n + 2)).closes = (s.synth (n + 2)).closes ∧ (t.synth (n + 2)).hold = (s.synth (n + 2)).hold
      ∧ ((s.synth (n + 2)).hold = false → (t.synth (n + 2)).gate = true)
      ∧ ((s.synth (n + 2)).hold = false → (s.synth (n + 2)).gate = false →
          (t.synth (n + 2)).run = true ∧ (t.synth (n + 2)).since = s.tick + 1 ∧ (t.synth (n + 2)).phase = 0)
      ∧ t.obj (Obj.synOState n) = (t.synth (n + 2)).shown (s.obj (Obj.synOSynWord n)) ∧ SameObjs s t [Obj.synOState n])
  ∧ (∀ (s : State) (n : Nat), n < 4 → ((s.synth (n + 2)).closes.any (· ≤ s.tick + 1) || (s.synth (n + 2)).holdAt.any (· ≤ s.tick + 1)) = true →
    ∃ t : State, exec (.clkoutStop n) s = .next t ∧ t = { s with dict := t.dict, syn := t.syn } ∧ (∀ j, j ≠ n + 2 → t.synth j = s.synth j)
      ∧ (t.synth (n + 2)).gate = false ∧ (t.synth (n + 2)).closes = (s.synth (n + 2)).closes.filter (s.tick + 1 < ·)
      ∧ (t.synth (n + 2)).opens = (s.synth (n + 2)).opens
      ∧ ((s.synth (n + 2)).closes.any (· ≤ s.tick + 1) = true → (t.synth (n + 2)).on = false)
      ∧ ((s.synth (n + 2)).closes.any (· ≤ s.tick + 1) = false → (t.synth (n + 2)).on = (s.synth (n + 2)).on)
      ∧ ((s.synth (n + 2)).holdAt.any (· ≤ s.tick + 1) = true → (t.synth (n + 2)).hold = true ∧ (t.synth (n + 2)).holdAt = none)
      ∧ ((s.synth (n + 2)).gate = true → (t.synth (n + 2)).shut = some (s.tick + 1))
      ∧ t.obj (Obj.synOState n) = (t.synth (n + 2)).shown (s.obj (Obj.synOSynWord n)) ∧ SameObjs s t [Obj.synOState n])
  ∧ (∀ (s : State) (n l : Nat), n < 4 → (s.synth (n + 2)).lockedAt = some l → (s.synth (n + 2)).hold = true →
    l + 1024 ≤ s.refCyc →
    ∃ t : State, exec (.clkoutRestart n) s = .next t ∧ t = { s with dict := t.dict, syn := t.syn } ∧ (∀ j, j ≠ n + 2 → t.synth j = s.synth j)
      ∧ (t.synth (n + 2)).hold = false ∧ (t.synth (n + 2)).on = (s.synth (n + 2)).on ∧ (t.synth (n + 2)).gate = (s.synth (n + 2)).on
      ∧ t.obj (Obj.synOState n) = (t.synth (n + 2)).shown (s.obj (Obj.synOSynWord n)) ∧ SameObjs s t [Obj.synOState n])
  ∧ (∀ (x : Synth) (num den : Nat) (u : Tick), x.run = true → x.gate = true → x.owe = 0 → den ≠ 0 → x.den = den → x.since < u →
      (x.advance num den u).phase = (x.phase + (x.rem + num) / den) % (128 * wordD x.inUse)
      ∧ (x.advance num den u).rem = (x.rem + num) % den
      ∧ (x.advance num den u).level = decide ((x.advance num den u).phase < 128 * ((wordD x.inUse + 1) / 2))))
  ∧ (∀ (s : State) (n : Nat), n < 4 → s.int (Obj.synOPicotPending n) ≠ 0 → s.time.refclk = true →
    (s.synth (n + 2)).lastStep + s.obj (Obj.synOPicotInterval n) ≤ s.refCyc →
    let due := if s.refCyc < (s.synth (n + 2)).lastStep + 2 * s.obj (Obj.synOPicotInterval n)
      then (s.synth (n + 2)).lastStep + s.obj (Obj.synOPicotInterval n) else s.refCyc
    ∃ t : State, exec (.picotStep n) s = .next t ∧ t = { s with dict := t.dict, syn := t.syn }
      ∧ (0 < s.int (Obj.synOPicotPending n) → t.int (Obj.synOPicotPending n) = s.int (Obj.synOPicotPending n) - 1
        ∧ t.synth (n + 2) = { s.synth (n + 2) with lastStep := due, owe := (s.synth (n + 2)).owe - 1 })
      ∧ (s.int (Obj.synOPicotPending n) < 0 → t.int (Obj.synOPicotPending n) = s.int (Obj.synOPicotPending n) + 1
        ∧ t.synth (n + 2) = { s.synth (n + 2) with lastStep := due, owe := (s.synth (n + 2)).owe + 1 })
      ∧ SameObjs s t [Obj.synOPicotPending n] ∧ (∀ j, j ≠ n + 2 → t.synth j = s.synth j))

/-- REFCLK_CLASSIFY, REFCLK_LOSS and REFCLK_RETURN (R71, R84, R90). In the power-up sequence a REFCLK within 5 % of a nominal frequency
gives its class, SYN-T the word D 10, P 1 with the class's ratio, SYN-L the word D 64, P 1 with it, and both begin to relock; another gives
class 0. On a loss of REFCLK every synthesiser that has a word loses LOCKED and freezes; on its return SYN-T is locked and runs again, and
each of the others that has a word begins to relock.
The model's readings here: assumption 3. -/
def Obligations.ReferenceClockSetsAndStopsTheSynthesisers : Prop :=
  (∀ (s : State) (hz : Nat), s.obj Obj.devDevState = 0 → s.time.counting = false →
    (∀ c, 1 ≤ c → c ≤ 5 → refHz c * 95 ≤ hz * 100 → hz * 100 ≤ refHz c * 105 →
      ∃ t : State, exec (.refclkClassify hz) s = .next t ∧ t.obj Obj.refRefclkClass = c
        ∧ t.obj Obj.synTSynWord = 10 * 2 ^ 48 + 2 ^ 43 + refRatio c * 2 ^ 32 ∧ t.obj Obj.synLSynWord = 64 * 2 ^ 48 + 2 ^ 43 + refRatio c * 2 ^ 32
        ∧ t.time = { s.time with refclk := true }
        ∧ (t.synth 0).relockAt = some (s.tick + 1) ∧ (t.synth 1).relockAt = some (s.tick + 1))
    ∧ ((∀ c, 1 ≤ c → c ≤ 5 → ¬(refHz c * 95 ≤ hz * 100 ∧ hz * 100 ≤ refHz c * 105)) →
      ∃ t : State, exec (.refclkClassify hz) s = .next t ∧ t.obj Obj.refRefclkClass = 0 ∧ t.time = { s.time with refclk := false }
        ∧ SameObjs s t [Obj.refRefclkClass]))
  ∧ (∀ s : State, s.time.refclk = true →
    ∃ t : State, exec .refclkLoss s = .next t ∧ t.time.refclk = false
      ∧ ∀ i, i < 6 → s.obj (synWordKey i) ≠ 0 → t.obj (synLockedKey i) = 0 ∧ (t.synth i).frozen = true)
  ∧ (∀ s : State, s.time.refclk = false → s.obj Obj.refRefclkClass ≠ 0 →
    ∃ t : State, exec .refclkReturn s = .next t ∧ t.time.refclk = true ∧ t.obj Obj.synTLocked = 1 ∧ (t.synth 0).frozen = false
      ∧ ∀ i, 1 ≤ i → i < 6 → s.obj (synWordKey i) ≠ 0 → (t.synth i).relockAt = some (s.tick + 1) ∧ t.obj (synLockedKey i) = 0)

/-! Cascade ports (R61 to R64, R324). -/

/-- ALIGN_WORD_SEND and ALIGN_WORD_RECEIVE (R61, R62, R64). A port that is not the one aligned to sends, when 1,024 ticks have passed since
its last word and no message is on its way, at a boundary whose count is a multiple of 4 (R30), the tick count of the boundary and the point in force. A word that arrives sets RTT; on the
port aligned to, PHASE_ERR is the arrival minus the carried tick plus CABLE_DELAY. While ACQUIRING the counter's load that would make it
zero waits, BLOCKED_CAPTURING while a queue captures; once LOCKED the port is ALIGNED and the loop updates.
ALIGN_WORD_TIMEOUT, CASCADE_SYNC and CASCADE_SYNC_LOSS (R48). 4,096 ticks without a word on the port aligned to lose the source: the
port is MEASURING again, and a LOCKED engine is in HOLDOVER. A port that gains synchronisation is ready to send at once; one that loses it
forgets its word and its load, and is the loss of the source where alignment is taken from it.
The model's readings here: assumption 38. -/
def Obligations.AlignmentWordsMeasureAndKeepTheAlignment : Prop :=
  ((∀ (s : State) (n : Nat), n < 4 → (s.cascPort n).sync = true → ¬(s.obj Obj.tbDiscSrc = 3 ∧ s.obj Obj.tbCascadePort = n) →
    (∀ x, (s.cascPort n).lastSent = some x → x + 1024 ≤ s.tick + 1) → (∀ x, (s.cascPort n).lastMsg = some x → x + 16 ≤ s.tick + 1) →
    s.time.counting = true → (s.tick + 1) % 4 = 0 →
    ∃ t : State, exec (.alignWordSend n) s = .next t
      ∧ t = { s with casc := t.casc, free := s.free + 1, out := s.out ++ [.cascade n (le 8 (s.tick + 1) ++ s.time.point.bytes)] }
      ∧ t.cascPort n = { s.cascPort n with lastSent := some (s.tick + 1), busyUntil := (t.cascPort n).busyUntil }
      ∧ (∀ m, m ≠ n → t.cascPort m = s.cascPort m))
  ∧ (∀ (s : State) (n count arrival : Nat) (point : Bytes) (rtt : Nat), n < 4 → (s.cascPort n).sync = true → tickOf arrival ≤ s.tick →
    s.time.counting = true →
    (¬(s.obj Obj.tbDiscSrc = 3 ∧ s.obj Obj.tbCascadePort = n) →
      exec (.alignWordReceive n count arrival point rtt) s = .next (s.setObj (Obj.cpRtt n) (satN 32 rtt)))
    ∧ (s.obj Obj.tbDiscSrc = 3 → s.obj Obj.tbCascadePort = n →
      ∃ t : State, exec (.alignWordReceive n count arrival point rtt) s = .next t ∧ t.obj (Obj.cpRtt n) = satN 32 rtt
        ∧ t.int (Obj.cpPhaseErr n)
          = clampI (-2147483648) 2147483647 ((arrival : Int) - (64 * count + s.obj (Obj.cpCableDelay n) : Nat))
        ∧ (t.cascPort n).lastWord = some s.tick
        ∧ (s.obj Obj.tbDiscState = 1 →
          t.obj (Obj.cpAlignState n) = (if s.queueList.any s.capturing then 4 else 2)
          ∧ (t.cascPort n).load = some (-((arrival : Int) - (64 * count + s.obj (Obj.cpCableDelay n) : Nat))))
        ∧ (s.obj Obj.tbDiscState = 2 → t.obj (Obj.cpAlignState n) = 3 ∧ t.time.lastUpdate = s.tick + 1))))
  ∧ ((∀ (s : State) (n w : Nat), s.obj Obj.tbDiscSrc = 3 → s.obj Obj.tbCascadePort = n → n < 4 → (s.cascPort n).lastWord = some w → w + 4096 ≤ s.tick + 1 →
    ∃ t : State, exec (.alignWordTimeout n) s = .next t ∧ (t.cascPort n).lastWord = none ∧ (t.cascPort n).load = none ∧ t.obj (Obj.cpAlignState n) = 2
      ∧ t.time.sourceOk = false ∧ (s.obj Obj.tbDiscState = 2 → t.obj Obj.tbDiscState = 3))
  ∧ (∀ (s : State) (n : Nat), n < 4 → (s.cascPort n).sync = false → s.time.counting = true →
    ∃ t : State, exec (.cascadeSync n) s = .next t ∧ t = { s with dict := t.dict, casc := t.casc }
      ∧ t.cascPort n = { s.cascPort n with sync := true, lastSent := none } ∧ (∀ m, m ≠ n → t.cascPort m = s.cascPort m)
      ∧ SameObjs s t [Obj.cpAlignState n, Obj.cpRxLatency n]
      ∧ t.obj (Obj.cpAlignState n) = (if s.obj Obj.tbDiscSrc = 3 ∧ s.obj Obj.tbCascadePort = n then 2 else s.obj (Obj.cpAlignState n)))
  ∧ (∀ (s : State) (n : Nat), n < 4 → (s.cascPort n).sync = true →
    ∃ t : State, exec (.cascadeSyncLoss n) s = .next t
      ∧ t.cascPort n = { s.cascPort n with sync := false, lastWord := none, load := none } ∧ (∀ m, m ≠ n → t.cascPort m = s.cascPort m)
      ∧ (¬(s.obj Obj.tbDiscSrc = 3 ∧ s.obj Obj.tbCascadePort = n) → t = { s with casc := t.casc })
      ∧ (s.obj Obj.tbDiscSrc = 3 → s.obj Obj.tbCascadePort = n → t.obj (Obj.cpAlignState n) = 1 ∧ t.time.sourceOk = false)))

/-- CASCADE_MESSAGE_SEND and CASCADE_MESSAGE_RECEIVE (R30, R293, R324). The first message waiting leaves at a boundary whose count is a
multiple of 4, when its time has come, 16 ticks after the one before it and not within an alignment word: K28.2, the code, the source, the
code's complement. A received message whose fourth character is not the complement of the second is counted in CASC_RX_BAD and nothing
else happens; another reaches the units RX_LATENCY later, and a free 1 to 16 ticks later on a port that is not ALIGNED.
The model's readings here: assumption 38. -/
def Obligations.CascadeMessagesLeaveAndArriveWhole : Prop :=
  (∀ (s : State) (n due code src : Nat) (rest : List (Nat × Nat × Nat)), n < 4 → (s.cascPort n).queue = (due, code, src) :: rest →
    due ≤ s.tick + 1 → (s.tick + 1) % 4 = 0 → (s.cascPort n).busyUntil ≤ s.tick + 1 →
    (∀ x, (s.cascPort n).lastMsg = some x → x + 16 ≤ s.tick + 1) →
    ∃ t : State, exec (.cascadeMessageSend n) s = .next t
      ∧ t = { s with casc := t.casc, out := s.out ++ [.cascade n [0x5C, BitVec.ofNat 8 code, BitVec.ofNat 8 src, BitVec.ofNat 8 (255 - code % 256)]] }
      ∧ t.cascPort n = { s.cascPort n with queue := rest, lastMsg := some (s.tick + 1) } ∧ (∀ m, m ≠ n → t.cascPort m = s.cascPort m))
  ∧ (∀ (s : State) (n : Nat) (a b c : Byte), n < 4 → s.running = true → (s.cascPort n).sync = true →
    (c.toNat ≠ 255 - a.toNat →
      exec (.cascadeMessageReceive n [0x5C, a, b, c]) s = .next (s.bump (Obj.cascCascRxBad n) 1))
    ∧ (c.toNat = 255 - a.toNat → s.obj (Obj.cpRxLatency n) = 0 →
      ∃ d, 1 ≤ d ∧ d ≤ 16 ∧ exec (.cascadeMessageReceive n [0x5C, a, b, c]) s
        = .next { s with free := s.free + 1, arrivals := s.arrivals ++ [(s.tick + d, .casc n a.toNat (64 * s.tick))] })
    ∧ (c.toNat = 255 - a.toNat → 1 ≤ s.obj (Obj.cpRxLatency n) → s.obj (Obj.cpRxLatency n) ≤ 16 →
      exec (.cascadeMessageReceive n [0x5C, a, b, c]) s
        = .next { s with arrivals := s.arrivals ++ [(s.tick + s.obj (Obj.cpRxLatency n), .casc n a.toNat (64 * s.tick))] }))

/-- TICK_LOAD (R40, R63, R518). While no queue captures, the load that waits on the port aligned to moves the tick count, to the nearest
whole tick; the port is ALIGNED and the source qualified; every pending commit ends REJECTED with reason TICK_LOADED.
The model's readings here: assumptions 21 and 38. -/
def Obligations.TickLoadMovesTheCountAndEndsPendingCommits : Prop :=
  ∀ (s : State) (l : Int), s.obj Obj.tbDiscSrc = 3 → s.obj Obj.tbCascadePort < 4 → (s.cascPort (s.obj Obj.tbCascadePort)).load = some l →
    s.queueList.any s.capturing = false →
    ∃ t : State, exec .tickLoad s = .next t ∧ t.tick = ((s.tick : Int) + (l + 32) / 64).toNat
      ∧ (t.cascPort (s.obj Obj.tbCascadePort)).load = none ∧ t.obj (Obj.cpAlignState (s.obj Obj.tbCascadePort)) = 3 ∧ t.time.sourceOk = true
      ∧ ∀ c ∈ s.allPending, ∃ e ∈ t.landing, e.jseq = c.jseq ∧ e.op = opCommit ∧ e.fixed = some (stRejected, reTickLoaded)

/-! Commands on the timebase (R51, R54, R85, R521, R723). -/

/-- STEP_NOW, SLEW_NOW and REALIGN (R54, R723): TIME_ACTION in HELD. STEP_NOW asks for a step of LAST_JUMP and is LOCKED; SLEW_NOW, for a
jump below 1 µs, starts the slew of 50 ppm against it and is SLEWING; REALIGN, with DISC_SRC CASCADE and no queue capturing, acquires
anew: the source is not qualified, and the port aligned to is MEASURING or UNLOCKED by its synchronisation. Outside HELD each is BUSY; STEP_NOW with
source CASCADE, REALIGN with another source and SLEW_NOW for a larger jump are REJECTED with reason RANGE, REALIGN while a queue captures is
BUSY, and none of these changes anything. A write of 0 outside HELD is assumption 39's. -/
def Obligations.TimeActionsEndHeld : Prop :=
  (∀ (s s1 : State) (c : WriteCmd) (a : Accepted), Writes s c Obj.tbTimeAction 1 s1 a → s1.obj Obj.tbDiscState = 5 → s1.obj Obj.tbDiscSrc ≠ 3 →
    ∃ t : State, Lands s1 (exec (.stepNow c) s) (t.ended a (okOut Obj.tbTimeAction (.num 1)))
      ∧ t.time.step = some (s1.int Obj.tbLastJump, 3) ∧ t.obj Obj.tbDiscState = 2
      ∧ (∀ k, reportKey k = false → k ≠ Obj.tbDiscState → t.obj k = s1.obj k)
      ∧ OnlyReported { s1 with dict := t.dict, time := t.time } t)
  ∧ (∀ (s s1 : State) (c : WriteCmd) (a : Accepted), Writes s c Obj.tbTimeAction 2 s1 a → s1.obj Obj.tbDiscState = 5 →
    (s1.int Obj.tbLastJump).natAbs < 64000 →
    ∃ t : State, Lands s1 (exec (.slewNow c) s) (t.ended a (okOut Obj.tbTimeAction (.num 2)))
      ∧ t.obj Obj.tbDiscState = 4 ∧ t.time.slewFrom = s1.int Obj.tbLastJump ∧ t.time.slewStart = s1.tick + 1
      ∧ t.time.slewOffset = (if s1.int Obj.tbLastJump < 0 then -54975581 else 54975581)
      ∧ (∀ k, reportKey k = false → k ∉ [Obj.tbDiscState, Obj.synTSynWord] → t.obj k = s1.obj k)
      ∧ OnlyReported { s1 with dict := t.dict, time := t.time } t)
  ∧ (∀ (s s1 : State) (c : WriteCmd) (a : Accepted), Writes s c Obj.tbTimeAction 3 s1 a → s1.obj Obj.tbDiscState = 5 → s1.obj Obj.tbDiscSrc = 3 →
    s1.obj Obj.tbCascadePort < 4 → s1.queueList.any s1.capturing = false →
    ∃ t : State, Lands s1 (exec (.realign c) s) (t.ended a (okOut Obj.tbTimeAction (.num 3)))
      ∧ t.obj Obj.tbDiscState = 1 ∧ t.time.sourceOk = false ∧ t.time.step = none ∧ t.time.slewOffset = 0
      ∧ t.obj (Obj.cpAlignState (s1.obj Obj.tbCascadePort)) = (if (s1.cascPort (s1.obj Obj.tbCascadePort)).sync then 2 else 1))
  ∧ (∀ (s s1 : State) (c : WriteCmd) (v : Nat) (a : Accepted), Writes s c Obj.tbTimeAction v s1 a →
    let turned (r : Ans) (st re : Nat) := Lands s1 r (s1.endedOr c.flags a ((badOut Obj.tbTimeAction st re).fill (.num v)) s1)
    (s1.obj Obj.tbDiscState ≠ 5 → (v = 1 → turned (exec (.stepNow c) s) stBusy 0) ∧ (v = 2 → turned (exec (.slewNow c) s) stBusy 0)
        ∧ (v = 3 → turned (exec (.realign c) s) stBusy 0))
    ∧ (s1.obj Obj.tbDiscState = 5 → (v = 1 → s1.obj Obj.tbDiscSrc = 3 → turned (exec (.stepNow c) s) stRejected reRange)
        ∧ (v = 2 → 64000 ≤ (s1.int Obj.tbLastJump).natAbs → turned (exec (.slewNow c) s) stRejected reRange)
        ∧ (v = 3 → s1.obj Obj.tbDiscSrc ≠ 3 → turned (exec (.realign c) s) stRejected reRange)
        ∧ (v = 3 → s1.obj Obj.tbDiscSrc = 3 → s1.queueList.any s1.capturing = true → turned (exec (.realign c) s) stBusy 0)))

/-- FREQ_CORR and PHASE_CORR (R51, R521, R522): a write of one whose partner the port holds. Until the boundary only the held value may leave its
place; there both take effect, in the order of the writes that brought them; the held command's outcome is final, and the command that
brought the partner ends with it. With DISC_SRC other than HOST neither moves the timebase; with HOST the frequency correction becomes the
discipline offset, and a phase correction below 1 µs starts a slew, except while the word of a holdover is held: a frequency correction that
comes first may end the holdover.
The model's readings here: assumptions 22 and 39. -/
def Obligations.HostCorrectionsTakeEffectInPairs : Prop :=
  (∀ (s s1 : State) (c : WriteCmd) (a : Accepted) (h : HeldPair) (w : Nat), Writes s c Obj.corrFreqCorr c.value s1 a →
    c.value < 2 ^ 32 → (toInt 32 c.value).natAbs ≤ 219902325 →
    (s1.port c.iss.port).heldOf Obj.corrPhaseCorr = some h → h.written = .num w → w < 2 ^ 64 → w ≠ 0 → (toInt 64 w).natAbs < 64000 →
    ∃ u : State, exec (.freqCorr c) s = .next u ∧ u = { s1 with ports := u.ports, due := u.due } ∧
      let t := u.atBoundary
      t.obj Obj.corrFreqCorr = c.value ∧ (t.port c.iss.port).heldOf Obj.corrPhaseCorr = none
      ∧ heldLanding h (okOut Obj.corrPhaseCorr (.num w)) (s1.tick + 1) ∈ t.landing
      ∧ (∃ rep, { a.landing with effect := s1.tick + 1, outs := [{ okOut Obj.corrFreqCorr (.num c.value) with rep := rep }] } ∈ t.landing)
      ∧ (s1.obj Obj.tbDiscSrc ≠ 4 → t.time = s1.time ∧ ∀ k, reportKey k = false → k ≠ Obj.corrFreqCorr → t.obj k = s1.obj k)
      ∧ (s1.obj Obj.tbDiscSrc = 4 → t.time.offset = toInt 32 c.value ∧ t.time.lastCorr = some (s1.tick + 1) ∧ t.time.sourceOk = true
        ∧ (s1.obj Obj.tbDiscState ≠ 5 → s1.obj Obj.tbDiscState ≠ 3 → t.time.slewFrom = toInt 64 w ∧ t.time.slewOffset ≠ 0)
        ∧ (s1.obj Obj.tbDiscState = 5 → s1.time.sourceOk = true → t.time.slewOffset = s1.time.slewOffset)))
  ∧ (∀ (s s1 : State) (c : WriteCmd) (a : Accepted) (h : HeldPair) (w : Nat), Writes s c Obj.corrPhaseCorr c.value s1 a →
    c.value < 2 ^ 64 → c.value ≠ 0 → (toInt 64 c.value).natAbs < 64000 →
    (s1.port c.iss.port).heldOf Obj.corrFreqCorr = some h → h.written = .num w → w < 2 ^ 32 → (toInt 32 w).natAbs ≤ 219902325 →
    ∃ u : State, exec (.phaseCorr c) s = .next u ∧ u = { s1 with ports := u.ports, due := u.due } ∧
      let t := u.atBoundary
      t.obj Obj.corrFreqCorr = w ∧ (t.port c.iss.port).heldOf Obj.corrFreqCorr = none
      ∧ heldLanding h (okOut Obj.corrFreqCorr (.num w)) (s1.tick + 1) ∈ t.landing
      ∧ (∃ rep, { a.landing with effect := s1.tick + 1, outs := [{ okOut Obj.corrPhaseCorr (.num c.value) with rep := rep }] } ∈ t.landing)
      ∧ (s1.obj Obj.tbDiscSrc ≠ 4 → t.time = s1.time ∧ ∀ k, reportKey k = false → k ≠ Obj.corrFreqCorr → t.obj k = s1.obj k)
      ∧ (s1.obj Obj.tbDiscSrc = 4 → t.time.offset = toInt 32 w ∧ t.time.lastCorr = some (s1.tick + 1) ∧ t.time.sourceOk = true
        ∧ (s1.obj Obj.tbDiscState ≠ 5 → s1.obj Obj.tbDiscState ≠ 3 → t.time.slewFrom = toInt 64 c.value ∧ t.time.slewOffset ≠ 0)
        ∧ (h.jseq ≤ a.jseq → s1.obj Obj.tbDiscState = 3 → s1.time.sourceOk = false → t.time.slewFrom = toInt 64 c.value ∧ t.time.slewOffset ≠ 0)
        ∧ (s1.obj Obj.tbDiscState = 5 → s1.time.sourceOk = true → t.time.slewOffset = s1.time.slewOffset)))

/-- PICOT_STEPS, SW_TRIGGER and EYE_REQUEST (R85, R160, R294). The steps written join PICOT_PENDING of the output; the software lines
written are pulsed at the boundary at which the write takes effect; a scan of the lane's eye is asked for where EYE_MODE allows one.
The model's readings here: assumption 31. -/
def Obligations.RequestsOfStepsPulsesAndScansAreKept : Prop :=
  (∀ (s s1 : State) (c : WriteCmd) (n : Nat) (a : Accepted), n < 4 → Writes s c (Obj.synOPicotSteps n) c.value s1 a → c.value < 2 ^ 32 →
    c.value ≠ 0 → (toInt 32 c.value).natAbs ≤ 1048576 → (s1.int (Obj.synOPicotPending n) + toInt 32 c.value).natAbs ≤ 1048576 →
    ∃ t : State, Lands s1 (exec (.picotSteps c n) s) (t.ended a (okOut (Obj.synOPicotSteps n) (.num c.value)))
      ∧ t = { s1 with dict := t.dict } ∧ t.int (Obj.synOPicotPending n) = s1.int (Obj.synOPicotPending n) + toInt 32 c.value
      ∧ SameObjs s1 t [Obj.synOPicotPending n])
  ∧ (∀ (s s1 : State) (c : WriteCmd) (a : Accepted), Writes s c Obj.swSwTrigger c.value s1 a → c.value < 2 ^ 32 → c.value ≠ 0 →
    ∃ t : State, Lands s1 (exec (.swTrigger c) s) (t.ended a (okOut Obj.swSwTrigger (.num c.value)))
      ∧ t = { s1 with arrivals := t.arrivals }
      ∧ ((∀ l x, (s1.tick + 1, Arrival.soft l x) ∉ s1.arrivals) → t.arrivals = s1.arrivals ++ [(s1.tick + 1, .soft c.value (64 * (s1.tick + 1)))])
      ∧ (∀ l x, s1.arrivals = [(s1.tick + 1, .soft l x)] → t.arrivals = [(s1.tick + 1, .soft (l ||| c.value) (64 * (s1.tick + 1)))]))
  ∧ (∀ (s s1 : State) (c : WriteCmd) (n : Nat) (a : Accepted), n < 32 → Writes s c (Obj.laneEyeRequest n) 1 s1 a → c.value = 1 →
    s1.obj (Obj.laneEyeMode n) ≠ 0 →
    Lands s1 (exec (.eyeRequest c n) s)
      ((s1.setLane n { s1.lane n with eyeAsked := true }).ended a (okOut (Obj.laneEyeRequest n) (.num 1))))

/-! Sessions, the owner key and the fuses of the policy (R538 to R559). -/

/-- HELLO, ATTEST and PROVE (R541 to R545). A HELLO with a valid point takes the lowest free slot: HANDSHAKE, with the issuer's port and
peer and a SESSION_ID that is not zero. ATTEST answers with the signature over the transcript. A PROVE that the owner's key verifies opens the
session, with LAST_COUNTER 0 and K from the transcript; one that fails frees the slot, is counted, and the eighth in a row locks the port.
The ends of a session (R542, R545, R546, R562). CLOSE, answered before the session is gone; a 1 written to the slot's CLOSE;
SESSION_IDLE_S seconds without a command; 1,000,000,000 ticks without a valid PROVE: the slot is free again, its objects at their defaults,
its secrets gone, and an end by time is a SYSTEM entry SESSION_END with its reason. The lockout of a port ends after as long.
The model's readings here: assumptions 8, 11 and 15. -/
def Obligations.SessionsOpenAndEnd : Prop :=
  ((∀ (s s1 : State) (i : Issuer) (p : Bytes) (a : Accepted) (n : Nat), s.taking opHello i p = some (s1, a) → i.port < 2 →
    (s1.port i.port).lockedAt = none → n < 8 → s1.obj (Obj.sessState n) = 0 → (∀ m < n, s1.obj (Obj.sessState m) ≠ 0) →
    if pointOk (a.pkt.body.take 96) = true then
      ∃ t : State, exec (.hello i p) s
          = .next (t.reply i [] opHello a.pkt.tag stOk 0 0 0 ((t.session n).id ++ (t.session n).qe ++ (t.session n).ne))
        ∧ t = { s1 with dict := t.dict, doms := t.doms, sessions := t.sessions, draws := s1.draws + 1 }
        ∧ SameObjs s1 t [Obj.sessState n, Obj.sessPort n] ∧ t.obj (Obj.sessState n) = 1 ∧ t.obj (Obj.sessPort n) = i.port
        ∧ t.dom (Obj.sessPeer n) = peerOf i ∧ (t.session n).id ≠ zeros 8 ∧ (t.session n).qh = a.pkt.body.take 96
        ∧ (t.session n).qe = publicKey (ephemeralOf s1.draws) ∧ (t.session n).draw = s1.draws
        ∧ (t.session n).nh = (a.pkt.body.drop 96).take 32 ∧ (t.session n).helloAt = s1.tick ∧ ∀ m, m ≠ n → t.session m = s1.session m
    else exec (.hello i p) s = .next (s1.endNow a stRejected reRange))
  ∧ (∀ (s s1 : State) (i : Issuer) (p : Bytes) (a : Accepted) (n : Nat), s.taking opAttest i p = some (s1, a) →
    s1.sessionOf i a.pkt.body [1, 2] = some n →
    ∃ k, exec (.attest i p) s = .next (({ s1 with draws := s1.draws + 1 }).reply i [] opAttest a.pkt.tag stOk 0 0 0
      ((s1.session n).id ++ ecdsaSign s1.otp.privKey (secretOf k) (ascii "EPC-DEV-1" ++ s1.transcript (s1.session n)))))
  ∧ (∀ (s s1 : State) (i : Issuer) (p : Bytes) (a : Accepted) (n : Nat), s.taking opProve i p = some (s1, a) →
    s1.sessionOf i (a.pkt.body.take 8) [1] = some n →
    if s1.obj Obj.secOwnerState = 1
        ∧ ecdsaVerify (s1.dom Obj.secOwnerKey) (ascii "EPC-OWN-1" ++ s1.transcript (s1.session n)) (a.pkt.body.drop 8) = true then
      ∃ t : State, exec (.prove i p) s = .next (t.reply i [] opProve a.pkt.tag stOk 0 a.jseq 0 ((s1.session n).id
          ++ mac16 (t.session n).key (ascii "EPC-KEYCHECK-1" ++ (s1.session n).id) ++ le 1 n ++ zeros 7))
        ∧ t.obj (Obj.sessState n) = 2 ∧ t.obj (Obj.sessLastCounter n) = 0 ∧ t.obj (Obj.sessOpenedTick n) = s1.tick
        ∧ (t.port i.port).proveFails = 0
        ∧ t.session n = { s1.session n with
            usedAt := s1.tick,
            key := hkdf384 ((s1.session n).nh ++ (s1.session n).ne) (ecdh (ephemeralOf (s1.session n).draw) (s1.session n).qh)
              (ascii "EPC-MAC-1" ++ (s1.session n).id) 32 }
    else
      ∃ t : State, exec (.prove i p) s = .next (t.endNow a stAuthFail 0) ∧ t.obj (Obj.sessState n) = 0 ∧ t.session n = {}
        ∧ (t.port i.port).proveFails = (s1.port i.port).proveFails + 1
        ∧ (t.port i.port).lockedAt = (if (s1.port i.port).proveFails = 7 then some s1.tick else (s1.port i.port).lockedAt)
        ∧ t.obj Obj.jnlCntProveFails = min (s1.obj Obj.jnlCntProveFails + 1) (maxOf Obj.jnlCntProveFails)))
  ∧ ((∀ (s : State) (n : Nat), (s.endSession n) = { s with dict := (s.endSession n).dict, doms := (s.endSession n).doms, sessions := (s.endSession n).sessions }
    ∧ (s.endSession n).session n = {} ∧ (∀ m, m ≠ n → (s.endSession n).session m = s.session m)
    ∧ ∀ k, if k / 256 = 0x1210 + n then (s.endSession n).obj k = dfltOf k ∧ (s.endSession n).dom k = domDflt k
           else (s.endSession n).obj k = s.obj k ∧ (s.endSession n).dom k = s.dom k)
  ∧ (∀ (s s1 : State) (i : Issuer) (p : Bytes) (a : Accepted), s.taking opClose i p = some (s1, a) →
    exec (.close i p) s = .next (((s1.jOutcome a.jseq (s1.tick + 1) stOk 0 0 true []).reply i a.auth opClose a.pkt.tag stOk 0 a.jseq 0
      (a.pkt.body.take 8)).endSession a.slot))
  ∧ (∀ (s s1 : State) (c : WriteCmd) (n : Nat) (a : Accepted), n < 8 → Writes s c (Obj.sessClose n) 1 s1 a → c.value = 1 →
    Lands s1 (exec (.sessionClose c n) s) ((s1.endSession n).ended a (okOut (Obj.sessClose n) (.num 1))))
  ∧ (∀ (s : State) (n : Nat), n < 8 → s.obj (Obj.sessState n) = 2 → s.obj Obj.secSessionIdleS ≠ 0 →
    (s.session n).usedAt + 1000000000 * s.obj Obj.secSessionIdleS ≤ s.tick + 1 →
    ∃ t : State, exec (.sessionIdleTimeout n) s = .next t ∧ t.obj (Obj.sessState n) = 0 ∧ t.session n = {}
      ∧ t.jLatest = some ⟨s.jNextEno, s.obj Obj.jnlLastJseq, s.tick + 1, 5, 0, 2, 256 * n + 1⟩
      ∧ t = { s with dict := t.dict, doms := t.doms, sessions := t.sessions, journal := t.journal, jPace := t.jPace })
  ∧ (∀ (s : State) (n : Nat), n < 8 → s.obj (Obj.sessState n) = 1 → (s.session n).helloAt + 1000000000 ≤ s.tick + 1 →
    ∃ t : State, exec (.handshakeTimeout n) s = .next t ∧ t.obj (Obj.sessState n) = 0 ∧ t.session n = {}
      ∧ t.jLatest = some ⟨s.jNextEno, s.obj Obj.jnlLastJseq, s.tick + 1, 5, 0, 2, 256 * n + 2⟩
      ∧ t = { s with dict := t.dict, doms := t.doms, sessions := t.sessions, journal := t.journal, jPace := t.jPace })
  ∧ (∀ (s : State) (p : Nat) (x : Tick), (s.port p).lockedAt = some x → x + 1000000000 ≤ s.tick + 1 →
    exec (.proveLockoutEnd p) s = .next (s.setPort p { s.port p with lockedAt := none, proveFails := 0 })))

/-- OWNER_KEY and POLICY_FLOOR (R538, R539, R556). An owner key goes into OTP once, where it is a point of the curve, and the command waits for
the programming, whose end answers it. POLICY_FLOOR only gains bits.
The model's readings here: assumption 8. -/
def Obligations.FusesArePermanent : Prop :=
  (∀ (s s1 : State) (c : BytesCmd) (a : Accepted), WritesBytes s c Obj.secOwnerKey s1 a → c.value.length = 96 →
    s1.obj Obj.secOwnerState = 0 → s1.otp.ownerKey = [] → s1.waitsFor .ownerKey = false →
    if pointOk c.value = true then
      ∃ t : State, Lands s1 (exec (.ownerKey c) s) (t.ended a (okOut Obj.secOwnerKey (.byt c.value)) (some .ownerKey))
        ∧ t = { s1 with dict := t.dict, doms := t.doms, otp := { s1.otp with ownerKey := c.value } } ∧ t.obj Obj.secOwnerState = 1
        ∧ t.dom Obj.secOwnerKey = c.value ∧ SameObjs s1 t [Obj.secOwnerState]
    else Lands s1 (exec (.ownerKey c) s) (s1.endedOr c.flags a ((rejOut Obj.secOwnerKey).fill (.byt c.value)) s1))
  ∧ (∀ (s : State) (l : Landing), s.deferred.find? (fun e => e.1 == Wait.ownerKey) = some (.ownerKey, l) →
    exec .ownerKeyProgrammed s = .next (({ s with deferred := s.deferred.erase (.ownerKey, l) }).finish l s.tick))
  ∧ (∀ (s s1 : State) (c : WriteCmd) (a : Accepted), Writes s c Obj.secPolicyFloor c.value s1 a → c.value < 4 →
    ∃ t : State, Lands s1 (exec (.policyFloor c) s)
        (s1.endedOr c.flags a (if c.value ||| s1.otp.policyFloor = c.value then okOut Obj.secPolicyFloor (.num c.value) else
            clampedOut Obj.secPolicyFloor (.num (c.value ||| s1.otp.policyFloor))
              [clampEntry Obj.secPolicyFloor rpRaised 8 c.value (c.value ||| s1.otp.policyFloor)]) t)
      ∧ t = { s1 with dict := t.dict, otp := { s1.otp with policyFloor := c.value ||| s1.otp.policyFloor } }
      ∧ t.obj Obj.secPolicyFloor = c.value ||| s1.otp.policyFloor ∧ SameObjs s1 t [Obj.secPolicyFloor])

/-- FW_SEC_RAISE (R559). A value above FW_SEC_MIN becomes FW_SEC_MIN in OTP, and nothing else changes; a value not above it changes nothing and is
CLAMPED to it; after 63 raises a later one is REJECTED with reason RANGE. Zero is no raise and completes EMPTY, as the object's row says. -/
def Obligations.FwSecMinOnlyRises : Prop :=
  ∀ (s s1 : State) (c : WriteCmd) (a : Accepted), Writes s c Obj.secFwSecRaise c.value s1 a → c.value < 65536 →
    if c.value = 0 then Lands s1 (exec (.fwSecRaise c) s) (s1.endedOr c.flags a (emptyOut Obj.secFwSecRaise) s1)
    else if c.value ≤ s1.otp.secMin then
      Lands s1 (exec (.fwSecRaise c) s) (s1.endedOr c.flags a (clampedOut Obj.secFwSecRaise (.num s1.otp.secMin)
        [clampEntry Obj.secFwSecRaise rpRaised 16 c.value s1.otp.secMin]) s1)
    else if s1.otp.secRaises < 63 then
      ∃ t : State, Lands s1 (exec (.fwSecRaise c) s) (t.ended a (okOut Obj.secFwSecRaise (.num c.value)))
        ∧ t = { s1 with dict := t.dict, otp := { s1.otp with secMin := c.value, secRaises := s1.otp.secRaises + 1 } }
        ∧ t.obj Obj.secFwSecMin = c.value ∧ SameObjs s1 t [Obj.secFwSecMin]
    else Lands s1 (exec (.fwSecRaise c) s) (s1.endedOr c.flags a ((rejOut Obj.secFwSecRaise).fill (.num c.value)) s1)

/-! Commands on the dictionary (R502 to R527). -/

/-- WRITE (R512 to R515): one write of one object that is neither staged nor paired. A value that its check refuses, or that asks for
nothing, changes nothing and ends with that outcome. Another acts at the boundary that opens the next tick, with the value the check leaves,
and ends with the outcome of the act joined to the clamps of the check. STRICT and anything but OK: nothing is applied and the command ends
REJECTED with reason STRICT.
The model's readings here: assumptions 2, 12 and 13. -/
def Obligations.WriteOfOneObjectActsAtTheNextBoundary : Prop :=
  ∀ (s s1 : State) (c : WriteCmd) (k v : Nat) (a : Accepted), Writes s c k v s1 a → k < 2 ^ 24 → isStaged k = false → pairPartner k = none →
    let chk := s1.checkEntry k (valBytes k (.num v))
    let refused (o : ObjOut) : State := { s1 with landing := s1.landing ++ [{ a.landing with effect := s1.tick + 1, fixed := some (stRejected, reStrict),
                                                                                             outs := strictReport [o] }] }
    (chk.applies = false →
      Lands s1 (exec (.write c.iss (numPacket c k v)) s) (if bit c.flags 0 = true ∧ strictFails chk = true then refused chk else s1.ended a chk))
    ∧ (∀ (w : Val) (s2 : State) (o : ObjOut) (wt : Option Wait), chk.applies = true → chk.applied = some w →
      s1.act c.iss k w (s1.tick + 1) = (s2, o, wt) → o.status ≠ stPairPending →
      let r := (o.after chk).refusedWith (writtenVal k (valBytes k (.num v)))
      Lands s1 (exec (.write c.iss (numPacket c k v)) s)
        (if bit c.flags 0 = true ∧ strictFails r = true then refused r else s2.ended a r wt))

/-- What a command's end changes (R505, R520, R563, R665): it joins the outcomes that wait for the tick to open, the outcomes before it may
read SUPERSEDED, and the rest is reports: control records on their way into queues, notifications, DEV_STATE.
The model's readings here: assumption 2. -/
def Obligations.CommandEndOnlyReports : Prop :=
  ∀ (s : State) (a : Accepted) (o : ObjOut) (w : Option Wait), OnlyReported s (s.ended a o w)
    ∧ (s.ended a o w).landing.getLast? = some { a.landing with effect := s.tick + 1, outs := [o], waits := w }

/-- READ and SEG_READ (R506, R507, R526, R527). A READ of one object answers the value in force, or, for STAGED, the value in the port's own
staging store; a read-to-clear object is then cleared; an object that is not there, or only written, is refused. SEG_READ at offset 0 takes the
value into the issuer's read buffer and answers its first bytes; at another offset it answers from that buffer, and only from it.
The model's readings here: assumptions 2 and 23. -/
def Obligations.ReadsAnswerTheValueInForce : Prop :=
  (∀ (s s1 : State) (i : Issuer) (p : Bytes) (a : Accepted) (k : Nat) (d : ObjDef) (b : Bytes), s.taking opRead i p = some (s1, a) →
    readEntries a.pkt.entries a.pkt.body = [(k, false)] → findObj k = some d → absentIndex s1.otp.variant (k / 256) = false → d.acc ≠ .wo →
    s1.readValue i k d = some b → b.length ≤ 184 →
    ∃ t : State, exec (.read i p) s = .next (t.reply i a.auth opRead a.pkt.tag stOk 0 0 1 (readResult k stOk b) [badOut k stOk 0])
      ∧ t = { s1 with dict := t.dict, swept := t.swept } ∧ SameObjs s1 t [k]
      ∧ t.obj k = (if readClears k = true then (if k = Obj.teleTjPeak then s1.obj Obj.teleTj else 0) else s1.obj k))
  ∧ (∀ (s s1 : State) (i : Issuer) (p : Bytes) (a : Accepted) (k : Nat) (e : Staged), s.taking opRead i p = some (s1, a) →
    readEntries a.pkt.entries a.pkt.body = [(k, true)] → isStaged k = true → absentIndex s1.otp.variant (k / 256) = false →
    (s1.port i.port).staging.find? (fun e => e.key = k) = some e → (valBytes k e.val).length ≤ 184 →
    ∃ t : State, exec (.read i p) s
        = .next (t.reply i a.auth opRead a.pkt.tag stOk 0 0 1 (readResult k stOk (valBytes k e.val)) [badOut k stOk 0])
      ∧ t = { s1 with dict := t.dict, swept := t.swept } ∧ (readClears k = false → t = s1))
  ∧ (∀ (s s1 : State) (i : Issuer) (p : Bytes) (a : Accepted) (k : Nat), s.taking opRead i p = some (s1, a) →
    readEntries a.pkt.entries a.pkt.body = [(k, false)] →
    let refused (st r : Nat) := s1.reply i a.auth opRead a.pkt.tag st r 0 1 (readResult k st []) [badOut k st r]
    (findObj k = none → exec (.read i p) s = .next (refused stRejected reNoObject))
    ∧ (findObj k ≠ none → absentIndex s1.otp.variant (k / 256) = true → exec (.read i p) s = .next (refused stNotPresent 0))
    ∧ (absentIndex s1.otp.variant (k / 256) = false → isAction k = true → exec (.read i p) s = .next (refused stRejected reAccess)))
  ∧ (∀ (s s1 : State) (i : Issuer) (p : Bytes) (a : Accepted) (k len off : Nat) (v : Bytes), s.taking opSegRead i p = some (s1, a) →
    k = 256 * fieldAt a.pkt.body 0 2 + fieldAt a.pkt.body 2 1 → off = fieldAt a.pkt.body 4 4 → fieldAt a.pkt.body 3 1 ≠ 0 →
    len = min (fieldAt a.pkt.body 3 1) (if a.auth = [] then 216 else 184) →
    (off = 0 → s1.readEntry i k false = (stOk, 0, v) → ∃ t : State,
      exec (.segRead i p) s = .next (t.reply i a.auth opSegRead a.pkt.tag stOk 0 0 1 (readResult k stOk (v.take len)))
        ∧ t.readBufs.find (bufOf i) = some { key := k, data := v.take 131072 })
    ∧ (off ≠ 0 → s1.readBufs.find (bufOf i) = some { key := k, data := v } →
      exec (.segRead i p) s = .next (s1.reply i a.auth opSegRead a.pkt.tag stOk 0 0 1 (readResult k stOk ((v.drop off).take len))))
    ∧ (off ≠ 0 → (∀ b, s1.readBufs.find (bufOf i) = some b → b.key ≠ k) →
      exec (.segRead i p) s = .next (s1.reply i a.auth opSegRead a.pkt.tag stRejected reSegOrder 0 0 [] [badOut k stRejected reSegOrder])))

/-- ECHO (R503): the body comes back as it was sent, and nothing else happens. -/
def Obligations.EchoReturnsItsBody : Prop :=
  ∀ (s s1 : State) (i : Issuer) (p : Bytes) (a : Accepted), s.taking opEcho i p = some (s1, a) →
    a.pkt.body.length ≤ (if a.auth = [] then 224 else 192) →
    exec (.echo i p) s = .next (s1.reply i a.auth opEcho a.pkt.tag stOk 0 0 0 a.pkt.body)

/-- Staging, COMMIT and DISCARD (R512, R517, R518). A WRITE of a staged object enters the port's staging store, changes no object, and answers
STAGED at once. COMMIT takes the whole store for a target at most 2^40 ticks ahead and pends; past, far, empty and full are refused. DISCARD
empties the store, or cancels every pending commit of the port, at the next boundary.
The model's readings here: assumptions 12 and 13. -/
def Obligations.StagedValuesWaitForACommit : Prop :=
  (∀ (s s1 : State) (i : Issuer) (p : Bytes) (a : Accepted) (k : Nat) (b : Bytes) (w : Val), s.taking opWrite i p = some (s1, a) →
    (writeEntries a.pkt.entries a.pkt.body).getD [] = [(k, b)] → bit a.pkt.flags 0 = false → isStaged k = true → isImage k = false →
    isPatch k = false → k ≠ Obj.cmmTimings → (s1.checkEntry k b).applies = true → (s1.checkEntry k b).applied = some w →
    (s1.port i.port).staging.length < 4096 → (∀ e ∈ (s1.port i.port).staging, ∃ n, e.val = .num n) → (∃ n, w = .num n) →
    ∃ (t : State) (e : Staged), exec (.write i p) s
        = .next (t.finish { a.landing with outs := [{ s1.checkEntry k b with status := stStaged }] } s1.tick)
      ∧ t = { s1 with ports := t.ports } ∧ e ∈ (t.port i.port).staging ∧ e.key = k ∧ e.val = w
      ∧ (t.port i.port).staging.filter (fun e => e.key ≠ k) = (s1.port i.port).staging.filter (fun e => e.key ≠ k)
      ∧ (t.port i.port).pend = (s1.port i.port).pend ∧ ∀ q, q ≠ i.port → t.port q = s1.port q)
  ∧ (∀ (s s1 : State) (i : Issuer) (p : Bytes) (a : Accepted) (target : Nat), s.taking opCommit i p = some (s1, a) →
    target = fieldAt a.pkt.body 0 8 → fieldAt a.pkt.body 10 6 = 0 →
    (target ≠ 0 → target ≤ s1.tick → exec (.commit i p) s = .next (s1.endNow a stRejected reTargetPast))
    ∧ (s1.tick + 2 ^ 40 < target → exec (.commit i p) s = .next (s1.endNow a stRejected reTargetFar))
    ∧ ((target = 0 ∨ s1.tick < target) → target ≤ s1.tick + 2 ^ 40 →
      ((s1.port i.port).staging = [] → exec (.commit i p) s = .next (s1.endNow a stEmpty 0))
      ∧ ((s1.port i.port).staging ≠ [] → 4 ≤ (s1.port i.port).pend.length → exec (.commit i p) s = .next (s1.endNow a stBusy rePendingFull))
      ∧ ((s1.port i.port).staging ≠ [] → (s1.port i.port).pend.length < 4 → ∃ c : Pending,
        exec (.commit i p) s = .next (s1.setPort i.port { s1.port i.port with staging := [], pend := (s1.port i.port).pend ++ [c] })
          ∧ c.set = (s1.port i.port).staging ∧ c.target = (if target = 0 then s1.tick + 1 else target) ∧ c.jseq = a.jseq ∧ c.iss = i)))
  ∧ (∀ (s s1 : State) (i : Issuer) (p : Bytes) (a : Accepted) (v : Nat), s.taking opDiscard i p = some (s1, a) → v = fieldAt a.pkt.body 0 4 →
    0 < v → v < 4 → s1.Alone → (∀ q, ∀ c ∈ (s1.port q).pend, c.iss.port = q) →
    ∃ t : State, Lands s1 (exec (.discard i p) s) t ∧ t = { s1 with ports := t.ports, landing := t.landing }
      ∧ (t.port i.port).staging = (if bit v 0 = true then [] else (s1.port i.port).staging)
      ∧ (t.port i.port).pend = (if bit v 1 = true then [] else (s1.port i.port).pend)
      ∧ (∀ q, q ≠ i.port → t.port q = s1.port q)
      ∧ t.landing.getLast? = some { a.landing with effect := s1.tick + 1, fixed := some (stOk, 0) })

/-- COMMIT_LAND (R22, R513, R515, R517, R518): a port's first commit whose boundary is the next one waits for it; with none nothing happens. The one
commit due at a boundary leaves its port there and ends. Under STRICT, an object
that would not end OK leaves every object as it is; else the values are applied as landSet says, and what follows are reports, the notification
of the commit among them.
The model's readings here: assumption 21. -/
def Obligations.CommitsLandWholeOrNotAtAll : Prop :=
  (∀ (s : State) (p : Nat), exec (.commitLand p) s = .next (match (s.dueCommits (s.tick + 1)).find? (fun c => c.iss.port = p) with
    | some c => s.await (.commit p c.jseq)
    | none => s))
  ∧ ∀ (s : State) (p : Nat) (c : Pending), s.due = [] → s.dueCommits (s.tick + 1) = [c] → c.iss.port = p → c ∈ (s.port p).pend →
    (∀ x ∈ (s.port p).pend, x.jseq = c.jseq → x = c) →
    let s1 := s.setPort p { s.port p with pend := (s.port p).pend.filter (fun x => x.jseq ≠ c.jseq) }
    let r := s1.landSet c.set (s.tick + 1)
    let l : Landing := { iss := c.iss, op := opCommit, flags := c.flags, trailer := c.trailer, tag := c.tag, jseq := c.jseq, pktCrc := c.pktCrc,
                         effect := s.tick + 1 }
    if bit c.flags 0 = true ∧ r.2.any strictFails = true then
      Lands s (exec (.commitLand p) s)
        { s1 with landing := s1.landing ++ [{ l with fixed := some (stRejected, reStrict), outs := strictReport r.2 }] }
    else ∃ t : State, Lands s (exec (.commitLand p) s) t ∧ OnlyReported r.1 t ∧ { l with outs := r.2 } ∈ t.landing

/-- The transfers of long values (R523 to R526). SEG_START opens one under a number that no open transfer has. SEG_DATA in order extends it,
out of order does not. SEG_END of the whole value with its CRC is one write entry; with another CRC the object is refused; both close it, as do
SEG_ABORT and 1,000,000,000 ticks without a packet.
The model's readings here: assumptions 12 and 23. -/
def Obligations.TransfersCarryLongValues : Prop :=
  (∀ (s s1 : State) (i : Issuer) (p : Bytes) (a : Accepted), s.taking opSegStart i p = some (s1, a) → fieldAt a.pkt.body 3 1 = 0 →
    s1.startRefusal i (256 * fieldAt a.pkt.body 0 2 + fieldAt a.pkt.body 2 1) (fieldAt a.pkt.body 4 4) = none → s1.transfers.length < 65536 →
    ∃ x : Transfer, exec (.segStart i p) s = .next (State.finish { s1 with free := s1.free + 1, transfers := s1.transfers ++ [x] }
        { a.landing with fixed := some (stOk, 0), effect := x.xfer } s1.tick)
      ∧ x.iss = i ∧ x.key = 256 * fieldAt a.pkt.body 0 2 + fieldAt a.pkt.body 2 1 ∧ x.total = fieldAt a.pkt.body 4 4 ∧ x.data = []
      ∧ x.last = s1.tick ∧ x.xfer < 65536 ∧ ∀ y ∈ s1.transfers, y.xfer ≠ x.xfer)
  ∧ (∀ (s s1 : State) (i : Issuer) (p : Bytes) (a : Accepted) (x : Transfer), s.taking opSegData i p = some (s1, a) →
    s1.transferOf i (fieldAt a.pkt.body 0 2) = some x → fieldAt a.pkt.body 2 2 = 0 →
    ∃ t : State, t = { s1 with transfers := t.transfers }
      ∧ (fieldAt a.pkt.body 4 4 = x.data.length → a.pkt.body.drop 8 ≠ [] → (a.pkt.body.drop 8).length < x.total - x.data.length + 4 →
        exec (.segData i p) s = .next (t.endNow a stOk 0) ∧ t.transferOf i (fieldAt a.pkt.body 0 2)
          = some { x with data := x.data ++ (a.pkt.body.drop 8).take (x.total - x.data.length), last := s1.tick })
      ∧ (fieldAt a.pkt.body 4 4 ≠ x.data.length → exec (.segData i p) s = .next (t.endNow a stRejected reSegOrder)
        ∧ t.transferOf i (fieldAt a.pkt.body 0 2) = some { x with last := s1.tick }))
  ∧ (∀ (s : State) (i : Issuer) (x : Transfer), s.transferOf i x.xfer = some x → (s.closeXfer x).transferOf i x.xfer = none
    ∧ (s.closeXfer x) = { s with transfers := (s.closeXfer x).transfers })
  ∧ (∀ (s s1 : State) (i : Issuer) (p : Bytes) (a : Accepted) (x : Transfer), s.taking opSegEnd i p = some (s1, a) →
    s1.transferOf i (fieldAt a.pkt.body 0 2) = some x → fieldAt a.pkt.body 2 2 = 0 →
    exec (.segEnd i p) s = .next (if x.data.length = x.total ∧ crc32 x.data = fieldAt a.pkt.body 4 4 then
      (s1.closeXfer x).writeCmd a true [(x.key, x.data)] else ((s1.closeXfer x).noteLoad x.key stRejected).endObj a (badOut x.key stRejected reSegCrc)))
  ∧ (∀ (s s1 : State) (i : Issuer) (p : Bytes) (a : Accepted) (x : Transfer), s.taking opSegAbort i p = some (s1, a) →
    s1.transferOf i (fieldAt a.pkt.body 0 2) = some x → exec (.segAbort i p) s = .next ((s1.closeXfer x).endNow a stOk 0))
  ∧ (∀ (s : State) (p n : Nat) (x : Transfer), s.transfers.find? (fun x => x.iss.port = p ∧ x.xfer = n) = some x →
    x.last + 1000000000 ≤ s.tick + 1 → exec (.transferIdleTimeout p n) s = .next (s.closeXfer x))

/-- Pairs (R521, R522). One member written alone is checked, held by its port and answered PAIR_PENDING: no object changes. The PAIR_TIMEOUT of
a member that is neither correction, held for 1,000,000 ticks, gives it its value where the pair that results is allowed, and reports PAIR_TIMEOUT.
The model's readings here: assumption 22. -/
def Obligations.PairsAreHeldForTheirPartner : Prop :=
  (∀ (s s1 : State) (i : Issuer) (p : Bytes) (a : Accepted) (k m : Nat) (b : Bytes), s.taking opWrite i p = some (s1, a) →
    (writeEntries a.pkt.entries a.pkt.body).getD [] = [(k, b)] → bit a.pkt.flags 0 = false → isStaged k = false → pairPartner k = some m →
    (s1.checkEntry k b).applies = true → (s1.port i.port).heldOf m = none → (s1.port i.port).heldOf k = none →
    ∃ (t : State) (h : HeldPair), exec (.write i p) s = .next (t.finish { a.landing with
          fixed := some (stPairPending, 0), outs := [{ key := k, status := stPairPending }], final := false } s1.tick)
      ∧ (t.port i.port).heldOf k = some h ∧ h.since = s1.tick ∧ h.written = writtenVal k b ∧ h.jseq = a.jseq
      ∧ t = { s1 with ports := t.ports })
  ∧ (∀ (s : State) (p : Nat) (h : HeldPair) (v : Val), (s.port p).held.find? (fun h => h.since + 1000000 ≤ s.tick + 1) = some h →
    s.Alone → h.key ≠ Obj.corrFreqCorr → h.key ≠ Obj.corrPhaseCorr →
    (s.checkEntry h.key (heldBytes h)).applied = some v → (s.setVal h.key v).pairOk h.key = true →
    ∃ t : State, Lands (s.takeHeld p h.key) (exec (.pairTimeout p) s) t ∧ (t.port p).held = (s.port p).held.filter (fun x => x.key ≠ h.key)
      ∧ OnlyReported { s.setVal h.key v with ports := t.ports, free := s.free + 1 } t
      ∧ (∃ l ∈ t.landing, l.jseq = h.jseq ∧ l.op = 0 ∧ l.fixed = some ((s.checkEntry h.key (heldBytes h)).status, rePairTimeout)))

/-- MIRROR_COPY (R566, R567): the oldest entry that the mirror has not taken enters the DDR ring of its size, MIRROR_OLDEST_ENO follows; where
the on-chip ring has overwritten entries before it, they are counted, MIRROR_STATE reads 2, and a SYSTEM entry says how many.
The model's readings here: assumption 47. -/
def Obligations.TheMirrorTakesTheJournalInOrder : Prop :=
  ∀ (s : State) (e : JEntry), s.cmm.mirror ≠ 0 → s.obj Obj.cmmMemState = 2 →
    let next := max s.mirrorNext (s.obj Obj.jnlMirrorOldestEno)
    let old := s.obj Obj.jnlOldestEno
    next < s.obj Obj.jnlNextEno → s.journal.find? (fun e => e.eno = max next old) = some e →
    ∃ t : State, exec .mirrorCopy s = .next t ∧ t.mirror = (e :: s.mirror).take s.cmm.mirror ∧ 
      t = { s with mirror := t.mirror, dict := t.dict, journal := t.journal, jPace := t.jPace, memBad := t.memBad }
      ∧ t.mirror.getLast?.map (·.eno) = some (t.obj Obj.jnlMirrorOldestEno)
      ∧ (old ≤ next → t.journal = s.journal ∧ t.jPace = s.jPace ∧ SameObjs s t [Obj.jnlMirrorOldestEno])
      ∧ (next < old → t.obj Obj.jnlMirrorState = 2
        ∧ t.obj Obj.jnlCntMirrorLost = min (s.obj Obj.jnlCntMirrorLost + (old - next)) (maxOf Obj.jnlCntMirrorLost)
        ∧ t.jLatest = some ⟨s.jNextEno, s.obj Obj.jnlLastJseq, s.tick, 5, 0, 3, old - next⟩)

/-! Logic channels, lanes, links, decoders and the flow engine (R103 to R257). -/

/-- COMPARATOR_SETTLE (R103, R104): after the settling ticks, a level outside the trip points makes the comparator known with it, sets the
window state and counts a STATE_EST; a level between them leaves it unknown and waiting, unless it has no hysteresis: then it becomes known at its
threshold too, with a level that is not stated. A channel whose TIE is set is judged by its tie (R128).
The model's readings here: assumption 29. -/
def Obligations.ComparatorsSettleOnTheLevelTheyFind : Prop :=
  ∀ (s : State) (n : Nat) (lower : Bool) (v : Int), s.hasLc n = true → s.flag (Obj.lcEnable n) = true →
    let x := if lower = true then (s.chan n).lo else (s.chan n).up
    let k := (s.thr n lower).1
    let tp := trips k (s.thr n lower).2
    let u := (s.tieLevel n (s.tick + 1)).getD v
    x.known = false → x.settled = false → x.settleAt ≠ 0 → x.settleAt ≤ s.tick + 1 → (lower = true → s.obj (Obj.lcWinMode n) = 1) →
    ∃ t : State, exec (.comparatorSettle n lower v) s = .next t ∧ t.tick = s.tick ∧ (∀ m, m ≠ n → t.chan m = s.chan m)
      ∧ (if lower = true then (t.chan n).lo else (t.chan n).up).settled = true
      ∧ (k ≤ 4000 → tp.2 ≤ u → u ≤ tp.1 → (s.thr n lower).2 ≠ 0 →
        (if lower = true then (t.chan n).lo else (t.chan n).up).known = false ∧ t = { s with chans := t.chans })
      ∧ (k ≤ 4000 → tp.2 ≤ u → u ≤ tp.1 → (s.thr n lower).2 = 0 → (if lower = true then (t.chan n).lo else (t.chan n).up).known = true
        ∧ t.obj (Obj.lcState n) = windowState (decide (s.obj (Obj.lcWinMode n) = 1)) (t.chan n).up (t.chan n).lo)
      ∧ (4000 < k ∨ tp.1 < u ∨ u < tp.2 →
        let y := if lower = true then (t.chan n).lo else (t.chan n).up
        y.known = true ∧ y.f = decide (k ≤ 4000 ∧ tp.1 < u)
        ∧ t.obj (Obj.lcState n) = windowState (decide (s.obj (Obj.lcWinMode n) = 1)) (t.chan n).up (t.chan n).lo
        ∧ Counted s t (Obj.lcCntStateEstCount (n / 16) (n % 16)) 1)

/-- The clock recovery of a lane (R135, R136, R144, R146, R147, R724): SIGNAL to FREQ once the amplitude has held 1,000 ticks, FREQ to PHASE after four
windows within LOCK_PPM, PHASE to LOCKED after 16,384 ticks without a slip, in ADAPT with the codes settled; not before. The equaliser is seeded on
the way into FREQ. A loss falls back to NO_SIGNAL or ACQUIRING with its reason, and out of LOCKED it is counted with the bits in hand.
The model's readings here: assumption 31. -/
def Obligations.ClockRecoveryMovesThroughItsStates : Prop :=
  (∀ (s : State) (n : Nat), s.cdr n = 1 →
    ((s.lane n).loud < 1000 → exec (.cdrSignalDetect n) s = .next s)
    ∧ (1000 ≤ (s.lane n).loud → ∃ t : State, exec (.cdrSignalDetect n) s = .next t ∧ t = { s with dict := t.dict, lanes := t.lanes }
      ∧ t.obj (Obj.laneCdrState n) = 2 ∧ SameObjs s t (Obj.laneCdrState n :: Obj.laneCtleLive n :: (upFrom 12 1).map (Obj.laneDfeLive n))
      ∧ (∀ m, m ≠ n → t.lane m = s.lane m) ∧ (t.lane n).windowAt = s.tick ∧ (t.lane n).near = 0 ∧ (t.lane n).far = 0
      ∧ (s.obj (Obj.laneEqMode n) = 0 → t.obj (Obj.laneCtleLive n) = min 31 (s.obj (Obj.laneCtleSet n))
        ∧ t.int (Obj.laneDfeLive n 1) = clampI (-64) 63 (s.int (Obj.laneDfeSet n 1))
        ∧ ∀ j, 2 ≤ j → j ≤ 12 → t.int (Obj.laneDfeLive n j) = clampI (-32) 31 (s.int (Obj.laneDfeSet n j)))))
  ∧ (∀ (s : State) (n : Nat), s.cdr n = 2 →
    ((s.lane n).near < 4 → exec (.cdrFreqLock n) s = .next s)
    ∧ (4 ≤ (s.lane n).near → exec (.cdrFreqLock n) s
      = .next ((s.setObj (Obj.laneCdrState n) 3).setLane n { s.lane n with cleanAt := s.tick })))
  ∧ (∀ (s : State) (n : Nat), s.cdr n = 3 →
    let ready := (s.lane n).cleanAt + 16384 ≤ s.tick ∧ (s.obj (Obj.laneEqMode n) = 0 → s.settled n = true)
    (¬ready → exec (.cdrLock n () ()) s = .next s)
    ∧ (ready → ∃ t : State, exec (.cdrLock n () ()) s = .next t ∧ t.obj (Obj.laneCdrState n) = 4
      ∧ (16 ≤ s.obj (Obj.laneLink n) → t = (s.setObj (Obj.laneCdrState n) 4).setLane n (t.lane n))
      ∧ (t.lane n).lockAt = some s.tick ∧ (t.lane n).chain = none
      ∧ (t.lane n).form = some ((s.bitPeriod n).1, (s.bitPeriod n).2, s.obj (Obj.laneModulation n))
      ∧ (∀ k, k < 16 → s.obj (Obj.laneLink n) = k → s.obj (Obj.linkLinkState k) = 1 → s.ratesAgree k = true → n ∈ s.linkLanes k →
        (∀ l ∈ s.linkLanes k, l = n ∨ s.locked l = true) → t.obj (Obj.linkLinkState k) = (if s.obj (Obj.linkDeskewMode k) = 1 then 3 else 2))))
  ∧ (∀ (s : State) (n bits : Nat) (c : Instr) (from_ to_ reason : Nat) (seen : Bool),
    (c, from_, to_, reason, seen) ∈ [(Instr.cdrSignalLoss n bits, 2, 1, 1, decide (1000 ≤ (s.lane n).quiet)),
      (.cdrFreqLoss n bits, 3, 2, 2, decide (2 ≤ (s.lane n).far)), (.cdrTransitionLoss n bits, 4, 2, 3, decide (2048 ≤ (s.lane n).still))] →
    from_ ≤ s.cdr n → s.cdr n ≤ 4 →
    (seen = false → exec c s = .next s)
    ∧ (seen = true → ∃ t : State, exec c s = .next t ∧ t.obj (Obj.laneCdrState n) = to_ ∧ t.obj (Obj.laneLossReason n) = reason ∧ t.tick = s.tick
      ∧ (s.locked n = false → SameObjs s t (Obj.laneCdrState n :: Obj.laneLossReason n :: Obj.laneCtleLive n :: (upFrom 12 1).map (Obj.laneDfeLive n)))
      ∧ (s.locked n = true → Counted s t (Obj.laneCntCdrLossCount n) 1 ∧ Counted s t (Obj.laneCntDiscardedBits n) (min 63 bits)
        ∧ (s.tick + 1, Arrival.broken n true) ∈ t.arrivals
        ∧ ((s.lane n).gap = none → (t.lane n).gap = some (s.tick, if min 63 bits = 0 then 0 else 1)))))

/-- LANE_WORD and HI_BER_WINDOW (R15, R140 to R144, R207, R265). A word of a locked lane whose 64 bits have come is counted, closes the lane's gap and
goes on its way to the units with its polarity and code undone, behind the break that a relock leaves; the first word of a lock starts with the lock,
and every other one where the one before it ends. A second word of a lane in a tick waits for the next one. At the end of a 125 µs interval the bad headers start anew, and HI_BER falls if they were fewer than 16.
The model's readings here: assumptions 31 and 32. -/
def Obligations.LaneWordsArePassedOnAndErrorsWatched : Prop :=
  (∀ (s : State) (n raw stamp : Nat), s.belongsLater (Parked.wordOf n) = false → (s.lane n).wordAt ≠ some s.tick → s.running = true →
    s.hasLane n = true → s.locked n = true →
    let (num, den, mode) := s.wordForm n
    (s.lane n).follows num den stamp = true → stamp * den + 64 * num ≤ (s.tick + 1) * den →
    ∃ t : State, exec (.laneWord n raw stamp ()) s = .next t ∧ t.tick = s.tick ∧ Counted s t (Obj.laneCntWords n) 1
      ∧ ((s.lane n).gap2 = none → (t.lane n).gap = none) ∧ ((s.lane n).chain = none → (t.lane n).chain = some (stamp, 1, stamp))
      ∧ (t.lane n).wordAt = some s.tick
      ∧ s.arrivals ++ (if (s.lane n).gap.isSome = true then [(s.tick + 1, .broken n true)] else [])
        ++ [(s.tick + 1, .word n (s.wordOf n raw stamp) stamp num den)] <+: t.arrivals
      ∧ (mode = 0 → s.flag (Obj.lanePolarity n) = false → (s.lane n).pols = [] → raw < 2 ^ 64 →
        s.wordOf n raw stamp = raw))
  ∧ (∀ (s : State) (n raw stamp : Nat), n < 32 → s.belongsLater (Parked.wordOf n) = true ∨ (s.lane n).wordAt = some s.tick →
    exec (.laneWord n raw stamp ()) s = .next { s with parked := s.parked ++ [.word n raw stamp] })
  ∧ (∀ (s : State) (n : Nat), n < 32 → s.obj (Obj.decPersonality n) = 2 → (s.dec n).badSince + 125000 ≤ s.tick →
    ∃ t : State, exec (.hiBerWindow n) s = .next t ∧ t = { s with dict := t.dict, decs := t.decs } ∧ SameObjs s t [Obj.decHiBer n]
      ∧ t.dec n = { s.dec n with bad := 0, badSince := s.tick } ∧ (∀ m, m ≠ n → t.dec m = s.dec m)
      ∧ t.obj (Obj.decHiBer n) = (if (s.dec n).bad < 16 then 0 else s.obj (Obj.decHiBer n)))

/-- The link timers (R151, R152). A FAIL other than RATE is tried again after 1,000,000 ticks: the link waits for lock, and goes on at once
where every lane is LOCKED. A SEARCH without a marker of logical lane 0 for 1,000,000,000 ticks fails NO_MARKER.
The model's readings here: assumption 34. -/
def Obligations.LinksTryAgainAndGiveUp : Prop :=
  (∀ (s : State) (k : Nat), s.running = true → s.obj (Obj.linkLinkState k) = 4 → s.obj (Obj.linkFailReason k) ≠ 1 →
    (s.lnk k).since + 1000000 ≤ s.tick + 1 →
    ∃ t : State, exec (.linkFailRetry k) s = .next t ∧ t.tick = s.tick ∧ (t.lnk k).misaligned = 0 ∧ (t.lnk k).buf = []
      ∧ t.obj (Obj.linkLinkState k) = (if s.linkLanes k = [] then 1 else if s.ratesAgree k = false then 4
        else if (s.linkLanes k).all s.locked = false then 1 else if s.obj (Obj.linkDeskewMode k) = 1 then 3 else 2)
      ∧ t.obj (Obj.linkFailReason k) = (if s.linkLanes k ≠ [] ∧ s.ratesAgree k = false then 1 else 0))
  ∧ (∀ (s : State) (k : Nat), s.running = true → s.obj (Obj.linkLinkState k) = 2 → (s.lnk k).lastZero + 1000000000 ≤ s.tick →
    ∃ t : State, exec (.noMarkerTimeout k) s = .next t ∧ t = { s with dict := t.dict, links := t.links }
      ∧ t.obj (Obj.linkLinkState k) = 4 ∧ t.obj (Obj.linkFailReason k) = 3 ∧ t.lnk k = { s.lnk k with since := s.tick + 1 }
      ∧ SameObjs s t [Obj.linkLinkState k, Obj.linkFailReason k])

/-- The eye monitor (R160 to R164). The lowest lane due is scanned when the monitor is free: a locked lane's scan runs with its mode and dwell,
another's ends at once NO_LOCK. A scan ends no earlier than its bits can have come; its end is counted, stamped and logged, with WIDTH and HEIGHT of
each eye, zero where its centre is closed, and in MODE MAP the errors of its points are stored.
The model's readings here: assumption 31. -/
def Obligations.EyeScansTakeTheLanesInTurn : Prop :=
  (∀ (s : State) (n : Nat), s.running = true → s.eye = none → (below 32).find? s.eyeDue = some n →
    if s.locked n = true then
      exec (.eyeScanStart n) s = .next { s.setLane n { s.lane n with eyeAsked := false } with
        eye := some { lane := n, mode := s.obj (Obj.laneEyeMode n), dwell := s.obj (Obj.laneEyeDwellLog2 n), abort := 0, start := s.tick } }
    else ∃ t : State, exec (.eyeScanStart n) s = .next t ∧ t = { s with dict := t.dict, doms := t.doms, lanes := t.lanes, free := t.free }
      ∧ Counted s t (Obj.laneCntEyeScans n) 1 ∧ SameObjs s t [Obj.laneCntEyeScans n]
      ∧ t.lane n = { s.lane n with lastEye := s.tick, eyeAsked := false }
      ∧ lastN 32 (t.dom (Obj.laneEyeLog n)) = eyeEntry s.tick n (s.obj (Obj.laneEyeMode n)) 1 (ofInt 8 (s.int Obj.teleTj / 8))
          (s.obj (Obj.laneEyeDwellLog2 n)) (s.obj (Obj.laneModulation n)) [] 0 0)
  ∧ (∀ (s : State) (e : EyeRun) (m : EyeData), s.eye = some e →
    let (num, den) := s.bitPeriod e.lane
    let due := e.abort ≠ 0 ∨ eyeBits e.mode e.dwell * num * 1000 ≤ (s.tick - e.start) * den * 1001
    let eyes := if e.abort = 0 then (below (1 + 2 * s.obj (Obj.laneModulation e.lane))).map (fun i => (m.errors.getD i []).map (min (2 ^ e.dwell))) else []
    let centre := (eyes.map (fun l => l.getD (phasePoint e.mode 32) 0)).sum
    (¬due → exec (.eyeScanEnd m) s = .next s)
    ∧ (due → ∃ t : State, exec (.eyeScanEnd m) s = .next t ∧ t = { s with dict := t.dict, doms := t.doms, lanes := t.lanes, free := t.free, eye := none }
      ∧ Counted s t (Obj.laneCntEyeScans e.lane) 1 ∧ SameObjs s t [Obj.laneCntEyeScans e.lane]
      ∧ t.lane e.lane = { s.lane e.lane with lastEye := s.tick } ∧ (∀ n, n ≠ e.lane → t.lane n = s.lane n)
      ∧ t.dom (Obj.laneEyeMap e.lane) = (if e.abort = 0 ∧ e.mode = 2 then
          eyes.flatMap (fun l => (below 8128).flatMap (fun i => le 1 (min 255 (l.getD i 0)))) else s.dom (Obj.laneEyeMap e.lane))
      ∧ (centre < 2 ^ 32 → lastN 32 (t.dom (Obj.laneEyeLog e.lane)) = eyeEntry s.tick e.lane e.mode e.abort (ofInt 8 (s.int Obj.teleTj / 8)) e.dwell
          (s.obj (Obj.laneModulation e.lane)) (eyes.map (eyeSize e.mode (s.obj (Obj.laneEyeErrLimit e.lane)))) centre ((s.tick - e.start) / 1000))))
  ∧ (∀ (mode limit : Nat) (l : List Nat), limit < l.getD (phasePoint mode 32) 0 → eyeSize mode limit l = (0, 0))

/-- ETH_FRAME (R205, R222 to R236, R255). The oldest frame of a decoder is counted there and in the flow engine. With the flow engine off, that
is all. A frame with a flag, or a second one in a tick, is UNCLASSIFIED with its reason, and no context changes. A UDP frame of a known flow whose
essence is UDP counts in its context and wakes it; of an unknown one, with learning on and a free way, it makes a context with its
fingerprint. After the scanner's visit of the tick, or behind a frame that waits, the frame is of the next tick.
SCANNER_VISIT (R244, R248, R253, R255): in a tick in which neither a frame nor a table command uses the lane's memory the scanner visits one
bucket and moves to the next, unless a second flow of it is due; the first flow that has been still for its stop time is SILENT, a learnt one of it goes while a flush runs, and no
other context changes.
The model's readings here: assumption 35. -/
def Obligations.FramesAreClassifiedAndBucketsVisited : Prop :=
  (∀ (s : State) (n : Nat) (f : Frame) (built : Tick) (rest : List (Tick × Frame)), n < 32 → s.running = true → s.obj (Obj.decPersonality n) = 2 →
    (s.dec n).ready = (built, f) :: rest →
    ((s.belongsLater (Parked.frameOf n) = true ∨ (s.flLane n).visitAt = some s.tick) →
      exec (.ethFrame n) s = .next { s with parked := s.parked ++ [.frame n] })
    ∧ (s.belongsLater (Parked.frameOf n) = false → (s.flLane n).visitAt ≠ some s.tick →
    let flags := frameFlags f.limit f
    let on := s.flag (Obj.flFlowEnable n)
    let first := (s.flLane n).frameAt ≠ some s.tick
    ∃ t : State, exec (.ethFrame n) s = .next t ∧ t.tick = s.tick ∧ Counted s t (Obj.decCntEthFrames n) 1 ∧ Counted s t (Obj.flCntPackets n) 1
      ∧ (t.dec n).ready = rest
      ∧ (bit flags 0 = true → Counted s t (Obj.decCntFcsErr n) 1)
      ∧ (on = false → t.flows = s.flows ∧ t.flowLanes = s.flowLanes ∧ (bit flags 0 = false → t.queues = s.queues))
      ∧ (on = true → first → flags % 32 ≠ 0 → Counted s t (Obj.flCntUnclassified n 4) 1 ∧ t.flows = s.flows)
      ∧ (on = true → ¬first → Counted s t (Obj.flCntUnclassified n 7) 1 ∧ t.flows = s.flows)
      ∧ (∀ key payload : Bytes, on = true → first → flags % 32 = 0 →
        parseFrame (s.flag (Obj.flPtpEnable n)) (f.data.take f.limit) = .udp key payload →
        let h := flowHash (s.obj (Obj.flHashSeed n)) key
        (∀ fid, s.findFlow n h.1 h.2 = some fid → (s.flow fid).essence = 0 →
          Counted s t (Obj.flCntClassified n) 1 ∧ (t.flow fid).packets = ((s.flow fid).packets + 1) % 65536
          ∧ (t.flow fid).lastArr = f.time % 2 ^ 40 ∧ (t.flow fid).silent = false ∧ (∀ g, g ≠ fid → t.flow g = s.flow g))
        ∧ (∀ fid, s.findFlow n h.1 h.2 = none → s.obj (Obj.flLearnMode n) ≠ 1 → s.learnSlot n h.1 s.tick = some (fid, false) →
          s.learntEssence n key payload = 0 →
          Counted s t (Obj.flCntLearnt n) 1 ∧ (t.flow fid).valid = true ∧ (t.flow fid).fp = h.2 ∧ (t.flow fid).installed = false
          ∧ (t.flow fid).packets = 1 ∧ (∀ g, g ≠ fid → t.flow g = s.flow g))
        ∧ (s.findFlow n h.1 h.2 = none → s.obj (Obj.flLearnMode n) = 1 → Counted s t (Obj.flCntUnclassified n 5) 1 ∧ t.flows = s.flows))))
  ∧ (∀ (s : State) (n : Nat), n < 32 → s.hasLane n = true → s.belongsLater (Parked.visitOf n) = true →
    exec (.scannerVisit n) s = .next { s with parked := s.parked ++ [.visit n] })
  ∧ (∀ (s : State) (n : Nat), n < 32 → s.hasLane n = true → s.running = true → s.belongsLater (Parked.visitOf n) = false →
    (s.flLane n).usedAt ≠ some s.tick → (s.flLane n).tableAt ≠ some s.tick → (s.flLane n).visitAt ≠ some s.tick →
    let fids := bucketFids n (s.flLane n).bucket
    let flushing := (s.flLane n).flushes.any (0 < ·)
    ∃ t : State, exec (.scannerVisit n) s = .next t ∧ t.tick = s.tick ∧ (∀ f, f ∉ fids → t.flow f = s.flow f)
      ∧ t.flLane n = (if fids.any (t.stopsAt n s.tick) = true then { s.flLane n with visitAt := some s.tick }
          else { s.flLane n with bucket := ((s.flLane n).bucket + 1) % 4096, visitAt := some s.tick,
                                 flushes := (s.flLane n).flushes.map (· - 1) })
      ∧ (flushing = true → ∀ f ∈ fids, (s.flow f).valid = true → (s.flow f).installed = false → (t.flow f).valid = false)
      ∧ (flushing = false → ∀ f ∈ fids, t.flow f
          = if fids.find? (s.stopsAt n s.tick) = some f then { s.flow f with silent := true } else s.flow f))

/-! Triggers, Bobbins and the capture memory (R292 to R408, R720, R721). -/

/-- The trigger pins (R291, R293, R323, R726). A level of TRIG_IN that has stood FILTER samples reaches the units with the time of its first
sample; each tick's sample, inverted by INVERT, that differs from the conditioned level is one more in the row, and one that agrees ends it. A
requested pulse makes its output active from its boundary on, for the WIDTH ticks in force there (R16), and inactive at its end unless a later
request has begun by then.
The model's readings here: assumption 37. -/
def Obligations.TriggerPinsAreFilteredAndPulsed : Prop :=
  (∀ (s : State) (p : Nat) (level : Bool), p < 8 → (s.trigIn.getD p {}).level ≠ level → s.running = true →
    s.obj (Obj.trigInFilter p) ≤ (s.trigIn.getD p {}).count →
    ∃ t : State, exec (.trigInAccept p level) s = .next t ∧ t = { s with trigIn := t.trigIn, arrivals := t.arrivals }
      ∧ t.trigIn.getD p {} = { s.trigIn.getD p {} with level := level, count := 0 } ∧ (∀ q, q ≠ p → t.trigIn.getD q {} = s.trigIn.getD q {})
      ∧ t.arrivals = s.arrivals ++ [(s.tick + 1 - (s.trigIn.getD p {}).count + 1 + s.obj (Obj.trigInFilter p),
          .trigIn p level (64 * (s.tick + 1 - (s.trigIn.getD p {}).count)))])
  ∧ (∀ (s : State) (changes : List (Nat × Bool)) (p : Nat), p < 8 → (∀ e ∈ changes, e.1 ≠ p) →
    ((s.samplePins changes).trigIn.getD p {}).count
      = if ((s.trigIn.getD p {}).ball != s.flag (Obj.trigInInvert p)) = (s.trigIn.getD p {}).level then 0 else (s.trigIn.getD p {}).count + 1)
  ∧ (∀ (s : State) (p : Nat), p < 8 → s.due.contains (.pulse p) = false →
    exec (.trigOutStart p) s = .next { s with due := s.due ++ [.pulse p] })
  ∧ (∀ (s : State) (p t0 : Nat) (rest : List Tick), p < 8 → s.Alone → (s.trigOut.getD p {}).starts = t0 :: rest → t0 ≤ s.tick + 1 →
    ∃ t : State, Lands s (exec (.trigOutStart p) s) t ∧ t = { s with dict := t.dict, trigOut := t.trigOut } ∧ t.obj (Obj.trigOutLevel p) = 1
      ∧ SameObjs s t [Obj.trigOutLevel p] ∧ (∀ q, q ≠ p → t.trigOut.getD q {} = s.trigOut.getD q {})
      ∧ t.trigOut.getD p {} = { s.trigOut.getD p {} with starts := rest, until_ := some (t0 + s.obj (Obj.trigOutWidth p)) })
  ∧ (∀ (s : State) (p e : Nat), p < 8 → (s.trigOut.getD p {}).until_ = some e → e ≤ s.tick + 1 →
    ((s.trigOut.getD p {}).starts.any (· ≤ e) = true → exec (.trigOutEnd p) s = .next s)
    ∧ ((s.trigOut.getD p {}).starts.any (· ≤ e) = false → ∃ t : State, exec (.trigOutEnd p) s = .next t
      ∧ t = { s with dict := t.dict, trigOut := t.trigOut } ∧ t.obj (Obj.trigOutLevel p) = 0 ∧ SameObjs s t [Obj.trigOutLevel p]
      ∧ t.trigOut.getD p {} = { s.trigOut.getD p {} with until_ := none }))

/-- EVENT_READ and CLEAR (R329, R360, R653). The reader takes the oldest entry of the Bobbin whose turn it is; with no queue on EVENT, no
notification asked for and no bit of its FIFO changed, that is all it does. CLEAR empties a slot, with every image staged for it, every transfer to it, and the image of every
pending commit, which then ends CANCELLED.
The model's readings here: assumption 37. -/
def Obligations.EventsAreReadAndSlotsCleared : Prop :=
  (∀ (s : State) (b w : Nat) (rest : List Nat), s.nextEvent = some b → s.running = true → (s.bb b).fifo = w :: rest →
    ∃ t : State, exec (.eventRead b) s = .next t ∧ (t.bb b).fifo = rest ∧ t.evLast = b ∧ t.evRead = s.evRead ++ [b]
      ∧ (∀ c, c ≠ b → t.bb c = s.bb c) ∧ t.tick = s.tick
      ∧ ((∀ q, s.obj (Obj.qSrcKind q) ≠ 7) → bit w 3 = false → s.hoopFlips.any (fun e => e.1 = 3 + b) = false →
        t = { s with bbs := t.bbs, evLast := b, evRead := t.evRead }))
  ∧ (∀ (s s1 : State) (c : WriteCmd) (n : Nat) (a : Accepted), n < 16 → Writes s c (Obj.slotClear n) 1 s1 a → c.value = 1 →
    ∃ t : State, Lands s1 (exec (.clear c n) s) (t.ended a (okOut (Obj.slotClear n) (.num 1)))
      ∧ t = { s1 with doms := t.doms, ports := t.ports, transfers := t.transfers } ∧ t.dom (Obj.slotImage n) = []
      ∧ (∀ k, k ≠ Obj.slotImage n → t.dom k = s1.dom k) ∧ (∀ x ∈ t.transfers, x.key ≠ Obj.slotImage n)
      ∧ ∀ p, (t.port p).staging = (s1.port p).staging.filter (fun e => e.key ≠ Obj.slotImage n)
        ∧ (∀ x ∈ (t.port p).pend, ∀ e ∈ x.set, e.key = Obj.slotImage n → e.out = badOut (Obj.slotImage n) stRejected reCancelled))

/-- TRAIN and TRAIN_END (R367 to R374, R663, R694). Training forgets every page and the free list, tries each channel of the mask, and the engine is in
TRAINING; while a queue captures, a lease stands or training runs it is BUSY, and with no channel in the mask it is refused. Where no step of a channel failed memory is READY and sized,
every usable page free; else it has FAILED, with the failing steps.
The balls of a channel outside CHANNEL_MASK, and with DPC 1 those of the second module, stand at the levels of R694.
The model's readings here: assumption 28. -/
def Obligations.TrainingMakesTheMemoryReady : Prop :=
  (∀ (s s1 : State) (c : WriteCmd) (a : Accepted), Writes s c Obj.cmmTrain 1 s1 a → c.value = 1 →
    if s1.queueList.any s1.capturing = true ∨ s1.cmm.leases ≠ [] ∨ s1.cmm.training.isSome = true then
      Lands s1 (exec (.train c) s) (s1.endedOr c.flags a ((badOut Obj.cmmTrain stBusy 0).fill (.num 1)) s1)
    else if s1.obj Obj.cmmChannelMask = 0 then Lands s1 (exec (.train c) s) (s1.endedOr c.flags a ((rejOut Obj.cmmTrain).fill (.num 1)) s1)
    else
      ∃ t : State, Lands s1 (exec (.train c) s) (t.ended a (okOut Obj.cmmTrain (.num 1)))
        ∧ t.obj Obj.devDevState = 2 ∧ t.obj Obj.cmmMemState = 1 ∧ t.mem = [] ∧ t.cmm.free = []
        ∧ t.cmm.training = some (s1.tick + 1, s1.obj Obj.cmmChannelMask) ∧ t.cmm.trainMask = s1.obj Obj.cmmChannelMask
        ∧ (∀ q, (t.queue q).pages = [] ∧ (t.queue q).chunks = [] ∧ (t.queue q).waiting = [] ∧ (t.queue q).past = [])
        ∧ ∀ m, m < 12 → bit (s1.obj Obj.cmmChannelMask) m = true → t.obj (Obj.mcTrainState m) = 2 ∧ t.obj (Obj.mcFailStep m) = 0)
  ∧ (∀ (s : State) (fails : List (Nat × Nat)) (t0 mask : Nat), s.cmm.training = some (t0, mask) →
    let real := fails.filter (fun e => e.1 < 12 && bit mask e.1 && 1 ≤ e.2 && e.2 ≤ 7)
    let gb := moduleGb (s.obj Obj.cmmRanks) (s.obj Obj.cmmDeviceWidth) (s.obj Obj.cmmDensityGbit)
    let total := ones 12 (s.obj Obj.cmmChannelMask) * s.obj Obj.cmmDpc * gb * 16384
    let usable := total - ceilDiv total 16384 - s.obj Obj.jnlMirrorEntries / 2048
    ∃ t : State, exec (.trainEnd fails) s = .next t ∧ t.cmm.training = none ∧ t.queues = s.queues ∧ t.mem = s.mem
      ∧ (real = [] → t.obj Obj.cmmMemState = 2 ∧ t.obj Obj.cmmTotalPages = total ∧ t.obj Obj.cmmUsablePages = usable
        ∧ t.cmm.free = (if usable = 0 then [] else [(0, usable)]) ∧ (s.obj Obj.devDevState = 2 → t.obj Obj.devDevState = 3)
        ∧ ∀ m, m < 12 → bit mask m = true → t.obj (Obj.mcTrainState m) = 3)
      ∧ (real ≠ [] → t.obj Obj.cmmMemState = 3 ∧ (s.obj Obj.devDevState = 2 → t.obj Obj.devDevState = 1) ∧ t.cmm.free = s.cmm.free
        ∧ ∀ m, m < 12 → bit mask m = true → match Tab.find real m with
          | some step => t.obj (Obj.mcTrainState m) = 4 ∧ t.obj (Obj.mcFailStep m) = step
          | none => t.obj (Obj.mcTrainState m) = 3))
  ∧ (∀ (s : State) (m : Nat), m < memChansOf s.otp.variant →
    (bit (s.obj Obj.cmmChannelMask) m = false → ∀ n, s.memBall m .drst = .low ∧ s.memBall m (.ckTrue n) = .low ∧ s.memBall m (.ckComp n) = .high
      ∧ s.memBall m (.dca n) = .low ∧ s.memBall m .dpar = .low ∧ s.memBall m (.dcs n) = .low ∧ s.memBall m (.dq n) = .pulledDown
      ∧ s.memBall m (.dqs n) = .pulledDown)
    ∧ (bit (s.obj Obj.cmmChannelMask) m = true → s.obj Obj.cmmDpc = 1 → s.memBall m (.dcs 2) = .high ∧ s.memBall m (.dcs 3) = .high
      ∧ s.memBall m (.ckTrue 1) = .low ∧ s.memBall m (.ckComp 1) = .high))

/-- FREE and CLOSE_PAGE (R385, R386, R407). FREE of a queue that neither captures nor drains frees every page of it that no lease covers, and its
contexts; the pages under a lease wait for its end. CLOSE_PAGE asks a capturing queue for its next page, where the open one holds a record; a page
that is full already closes as it is (R411).
The model's readings here: assumption 27. -/
def Obligations.QueuesFreeAndClosePages : Prop :=
  (∀ (s s1 : State) (c : WriteCmd) (q : Nat) (a : Accepted), q < 4096 → Writes s c (Obj.qFree q) 1 s1 a → c.value = 1 →
    if s1.activeQueue q = true then Lands s1 (exec (.free c q) s) (s1.endedOr c.flags a ((badOut (Obj.qFree q) stBusy 0).fill (.num 1)) s1)
    else ∃ t : State, Lands s1 (exec (.free c q) s) (t.ended a (okOut (Obj.qFree q) (.num 1)))
      ∧ t = { s1 with queues := t.queues, cmm := { s1.cmm with free := t.cmm.free } } ∧ (∀ r, r ≠ q → t.queue r = s1.queue r)
      ∧ (t.queue q).coders = [] ∧ (∀ p ∈ (t.queue q).pages, p.freePending = true ∧ s1.cmm.covers q p = true)
      ∧ ∀ p ∈ (s1.queue q).pages, s1.cmm.covers q p = true → (∀ x ∈ (s1.queue q).pages, x.pfn = p.pfn → x = p) →
        ∃ x ∈ (t.queue q).pages, x.pfn = p.pfn)
  ∧ (∀ (s s1 : State) (c : WriteCmd) (q : Nat) (a : Accepted), q < 4096 → Writes s c (Obj.qClosePage q) 1 s1 a → c.value = 1 →
    if s1.capturing q = false then
      Lands s1 (exec (.closePage c q) s) (s1.endedOr c.flags a ((rejOut (Obj.qClosePage q)).fill (.num 1)) s1)
    else Lands s1 (exec (.closePage c q) s) (match (s1.queue q).open_ with
      | some p => if p.records = 0 then s1.endedOr c.flags a (emptyOut (Obj.qClosePage q)) s1
        else (if (s1.queue q).waiting = [] then s1.setQueue q { s1.queue q with wantPage := true } else s1).ended a (okOut (Obj.qClosePage q) (.num 1))
      | none => s1.endedOr c.flags a (emptyOut (Obj.qClosePage q)) s1))

/-- The leases (R399 to R404). GRANT of closed pages that the queue holds makes a lease under an ID that no live lease has. RENEW restarts its
timer; RELEASE ends it; QUERY by any holder shows it; each answers in LEASE_RESULT. At its timeout a lease is revoked.
The model's readings here: assumption 23. -/
def Obligations.LeasesAreGrantedRenewedAndEnded : Prop :=
  (∀ (s s1 : State) (c : BytesCmd) (a : Accepted) (q count : Nat), WritesBytes s c Obj.cmmLeaseCmd s1 a → c.value.length = 32 →
    fieldAt c.value 0 1 = 1 → fieldAt c.value 1 1 < 4 → q = fieldAt c.value 2 2 → q < 4096 → count = fieldAt c.value 8 2 → 0 < count →
    count ≤ 4096 → fieldAt c.value 10 2 = 0 → fieldAt c.value 20 4 ≤ 60000 → fieldAt c.value 24 8 = 0 → s1.cmm.leases.length < 4096 →
    count ≤ ((s1.queue q).pages.filter (fun p => p.capture = fieldAt c.value 12 4 && fieldAt c.value 4 4 ≤ p.seq
      && p.seq < fieldAt c.value 4 4 + count && p.closed)).length →
    ∃ (t : State) (id : Nat) (l : Lease), Lands s1 (exec (.grant c) s) (t.ended a (okOut Obj.cmmLeaseCmd (.byt c.value)))
      ∧ t.cmm.leaseOf id = some l ∧ s1.cmm.leases.find (id % 65536) = none ∧ l.holder = holderOf c.iss.port c.iss.core ∧ l.queue = q
      ∧ l.capture = fieldAt c.value 12 4 ∧ l.first = fieldAt c.value 4 4 ∧ l.count = count ∧ l.since = s1.tick + 1
      ∧ l.timeout = (if fieldAt c.value 20 4 = 0 then s1.obj Obj.cmmLeaseTimeoutMs else fieldAt c.value 20 4)
      ∧ id ∉ t.cmm.revoked ∧ t.queues = s1.queues ∧ (∀ i, i ≠ id % 65536 → t.cmm.leases.find i = s1.cmm.leases.find i)
      ∧ t.dom (Obj.cmmLeaseResult c.iss.port) = t.leaseResult 0 l.holder id)
  ∧ (∀ (s s1 : State) (c : BytesCmd) (a : Accepted) (id op : Nat) (l : Lease), WritesBytes s c Obj.cmmLeaseCmd s1 a → c.value.length = 32 →
    op = fieldAt c.value 0 1 → fieldAt c.value 1 1 < 4 → fieldAt c.value 10 2 = 0 → fieldAt c.value 24 8 = 0 → id = fieldAt c.value 16 4 →
    s1.cmm.revoked.contains id = false → s1.cmm.leaseOf id = some l → (op ≠ 4 → l.holder = holderOf c.iss.port c.iss.core) →
    ∃ t : State, (op = 2 → Lands s1 (exec (.renew c) s) (t.ended a (okOut Obj.cmmLeaseCmd (.byt c.value)))
        ∧ t.cmm = { s1.cmm with leases := t.cmm.leases } ∧ t.queues = s1.queues ∧ t.cmm.leaseOf id = some { l with since := s1.tick + 1 }
        ∧ (∀ i, i ≠ id % 65536 → t.cmm.leases.find i = s1.cmm.leases.find i)
        ∧ t.dom (Obj.cmmLeaseResult c.iss.port) = t.leaseResult 0 l.holder id)
      ∧ (op = 3 → Lands s1 (exec (.release c) s) (t.ended a (okOut Obj.cmmLeaseCmd (.byt c.value))) ∧ t.cmm.leaseOf id = none
        ∧ (∀ i, i ≠ id % 65536 → t.cmm.leases.find i = s1.cmm.leases.find i) ∧ (∀ q, q ≠ l.queue → t.queue q = s1.queue q)
        ∧ t.dom (Obj.cmmLeaseResult c.iss.port) = s1.leaseResult 0 l.holder id)
      ∧ (op = 4 → Lands s1 (exec (.query c) s) (t.ended a (okOut Obj.cmmLeaseCmd (.byt c.value))) ∧ t.cmm = s1.cmm ∧ t.queues = s1.queues
        ∧ t.dom (Obj.cmmLeaseResult c.iss.port) = s1.leaseResult 0 l.holder id))
  ∧ (∀ (s : State) (i : Nat) (l : Lease), i < 65536 → s.cmm.leases.find i = some l → l.since + 1000000 * l.timeout ≤ s.tick + 1 →
    ∃ t : State, exec (.leaseExpire i) s = .next t ∧ t.cmm.leases.find i = none ∧ t.cmm.revoked = s.cmm.revoked ++ [65536 * l.gen + i]
      ∧ (∀ j, j ≠ i → t.cmm.leases.find j = s.cmm.leases.find j) ∧ (∀ q, q ≠ l.queue → t.queue q = s.queue q)
      ∧ (l.holder = 0x40 → t.host = { s.host with cache := [] }) ∧ (l.holder ≠ 0x40 → t.host = s.host) ∧ t.dict = s.dict)

/-- PAGE_ALLOC, CHUNK_FLUSH and DRAIN_END (R25, R383, R387, R390, R391, R418, R721). The next queue of the round that needs a page, below its QMIN and
QMAX, takes the head of the free list, first for what still waits of a stopped capture; with none free its failure is counted, and a STOP_ON_FULL
queue stops; after a change of the lease table in
the tick the allocation is of the next one (R25). What has waited FLUSH_TICKS is
completed, a last chunk with PAD. A stopped queue's page whose chunks are written is closed, padded, under its header; then draining ends.
SEGMENT_CLOSE and SEGMENT_OPEN (R320, R443). When the window has run out the segment closes: in SEGMENTS with more to come the queue re-arms
and goes on capturing; else the capture stops, and the queue drains. Four ticks after the close the next segment opens with the next number.
The model's readings here: assumption 27. -/
def Obligations.PagesAndSegmentsAreFilledAndClosed : Prop :=
  ((∀ (s : State) (q : Nat), q < 4096 → s.running = true → s.cmm.leased = false →
    s.belongsLater (· == .alloc) = false → s.cmm.allocs < 8 → (roundFrom (s.queueList.filter s.needsPage) s.cmm.rr).head? = some q →
    (s.obj (Obj.qQmax q) = 0 ∨ s.heldPages q < s.obj (Obj.qQmax q)) → s.heldPages q < s.obj (Obj.qQmin q) →
    ∃ t : State, exec .pageAlloc s = .next t ∧ t.cmm.rr = q + 1 ∧ t.cmm.allocs = s.cmm.allocs + 1 ∧ t.cmm.leases = s.cmm.leases
      ∧ (∀ r, r ≠ q → (t.queue r).pages = (s.queue r).pages)
      ∧ (∀ pfn l, takeFree s.cmm.free = some (pfn, l) → t.cmm.free = l
        ∧ (t.queue q).pages.map (·.pfn) = (s.queue q).pages.map (·.pfn) ++ [pfn]
        ∧ ((s.queue q).past = [] → (t.queue q).wantPage = false)
        ∧ (∀ x rest, (s.queue q).past = x :: rest → ∃ p ∈ (t.queue q).pages, p.pfn = pfn ∧ p.capture = x.capture ∧ p.seq = x.seq))
      ∧ (takeFree s.cmm.free = none → t.cmm.free = s.cmm.free ∧ Counted s t (Obj.qAllocFail q) 1
        ∧ (∀ x rest, (s.queue q).past = x :: rest → (t.queue q).past = rest)
        ∧ ((s.queue q).past = [] → s.capturing q = true → t.obj (Obj.qState q) = (if (s.queue q).mode = 3 then 2 else 1))))
  ∧ (∀ s : State, s.cmm.leased = true ∨ s.belongsLater (· == .alloc) = true →
    exec .pageAlloc s = .next { s with parked := s.parked ++ [.alloc] })
  ∧ (∀ (s : State) (q : Nat), ∃ t : State, exec (.chunkFlush q) s = .next t ∧ t.tick = s.tick ∧ t.mem = s.mem
    ∧ (∀ r, r ≠ q → t.queue r = s.queue r)
    ∧ (∀ e ∈ (t.queue q).builders, s.tick < e.2.since + s.obj Obj.cmmFlushTicks)
    ∧ (∀ e, (t.queue q).edges = some e → s.tick < e.since + s.obj Obj.cmmFlushTicks)
    ∧ (∀ p ch, (s.queue q).builders = [] → (s.queue q).edges = none → (s.queue q).pages = [p] → (s.queue q).chunks = [ch] → p.closed = false →
      p.pfn = ch.pfn → p.fill = ch.off + ch.data.length → p.fill % 8 = 0 → p.fill % 256 ≠ 0 → ch.since + s.obj Obj.cmmFlushTicks ≤ s.tick →
      ∃ pad : Bytes, (t.queue q).chunks = [{ ch with data := ch.data ++ pad, upto := ch.off + ch.data.length + pad.length }] ∧ pad = padBytes ((256 - p.fill % 256) / 8)
        ∧ (ch.off + ch.data.length + pad.length) % 256 = 0))
  ∧ (∀ (s : State) (q : Nat), (s.queue q).draining = true →
    (s.drainedPage q = none → s.capturing q = false → (s.queue q).waiting = [] → (s.queue q).inbox = [] → (s.queue q).past = [] →
      (∀ p ∈ (s.queue q).pages, p.closed = true) →
      exec (.drainEnd q) s = .next (s.setQueue q { s.queue q with draining := false, stopAt := none }))
    ∧ (∀ p, s.drainedPage q = some p → 64 ≤ p.fill → p.fill ≤ 65536 → p.fill % 8 = 0 → (∀ f, p.padFrom = some f → f % 8 = 0 ∧ f ≤ p.fill) →
      ∃ t : State, exec (.drainEnd q) s = .next t ∧ t.cmm = s.cmm ∧ (∀ x ∈ (t.queue q).pages, x.pfn = p.pfn → x.closed = true)
        ∧ (∀ a, (a < 65536 * p.pfn ∨ 65536 * (p.pfn + 1) ≤ a) → t.memByte a = s.memByte a)
        ∧ ∀ i, i < 64 → t.memByte (65536 * p.pfn + i) = (pageHeader q p noPfn
          (ofBool (p.seq = 0) + 2 + 4 * ofBool (p.firstTy = 0x33) + 8 * ofBool (p.lastTy = 0x34) + 16)).getD i 0)))
  ∧ ((∀ (s : State) (q c : Nat), q < 4096 → s.windowEnd q = some c → c ≤ s.tick + 1 → s.capturing q = true → ∃ t : State, exec (.segmentClose q) s = .next t
    ∧ t.tick = s.tick ∧ (t.queue q).window = none ∧ t.obj (Obj.qSegment q) = 0 ∧ t.mem = s.mem ∧ (∀ r, r ≠ q → (t.queue r).quiet = (s.queue r).quiet)
    ∧ ((s.queue q).mode = 2 → (s.queue q).segNo < (s.queue q).segsOf → (t.queue q).rearm = some (s.tick + 1) ∧ t.obj (Obj.qState q) = 1)
    ∧ (¬((s.queue q).mode = 2 ∧ (s.queue q).segNo < (s.queue q).segsOf) → t.obj (Obj.qState q) = 2 ∧ (t.queue q).draining = true
      ∧ (t.queue q).stopAt = some (s.tick + 1)))
  ∧ (∀ (s : State) (q c : Nat), q < 4096 → (s.queue q).rearm = some c → c + 4 ≤ s.tick + 1 → s.capturing q = true →
    ∃ t : State, exec (.segmentOpen q) s = .next t ∧ t = { s with dict := t.dict, queues := t.queues } ∧ SameObjs s t [Obj.qSegment q]
      ∧ t.obj (Obj.qSegment q) = (s.queue q).segNo + 1 ∧ (∀ r, r ≠ q → t.queue r = s.queue r)
      ∧ t.queue q = { s.queue q with rearm := none, opening := true, openedAt := s.tick + 1, segNo := (s.queue q).segNo + 1 }))


/-! The flow table's window, the coder's states and the export deflater (R252 to R256, R471, R482 to R494). -/

/-- The commands on the flow table (R252 to R254). LOOKUP finds the context of a key; INSTALL makes one in a free or learnt way; UPDATE, REMOVE,
READ and CLEAR_STATS act on the one named by index or key. TABLE_RESULT shows outcome 0, the place and the 32 bytes after the command; no other
context changes. Where LOOKUP, UPDATE, REMOVE or CLEAR_STATS find none, the outcome is 1 and the command is refused.
FLUSH_LEARNT (R253): it waits for one full pass of the lane's scanner, 4,096 visits, and changes no context itself; when the pass is done
the oldest command that waits for it ends.
The model's readings here: assumption 35. -/
def Obligations.TableCommandsAndFlushesReachTheTable : Prop :=
  (∀ (s s1 : State) (c : BytesCmd) (a : Accepted) (x : TableCmd) (o : Nat) (r : Instr), WritesBytes s c Obj.tableTableCmd s1 a →
    c.value.length = 56 → tableFields c.value = some (x, []) → x.lane < 32 → s1.hasLane x.lane = true → x.op = o →
    (o, r) ∈ [(1, Instr.lookup c), (2, .install c), (3, .update c), (4, .remove c), (5, .tableRead c), (6, .clearStats c)] →
    let h := flowHash (s1.obj (Obj.flHashSeed x.lane)) x.key
    let found := s1.findFlow x.lane h.1 h.2
    let named := if x.index = 0xFFFF then found else if (s1.flow (8192 * x.lane + x.index)).valid = true then some (8192 * x.lane + x.index) else none
    let way := ((bucketFids x.lane h.1).find? (fun f => !(s1.flow f).valid)).orElse
      (fun _ => s1.oldest (s1.tick + 1) ((bucketFids x.lane h.1).filter (fun f => !(s1.flow f).installed)))
    let target := if o = 1 then found else if o = 2 then (if found = none then way else none) else if o = 5 then some (8192 * x.lane + x.index) else named
    (∀ f, target = some f → (o = 2 ∨ (o = 3 ∧ (s1.flow f).sigEn = false) → x.sigEn = true → s1.sigSlotFree x.lane = true) →
      ∃ t : State, Lands s1 (exec r s) (t.ended a (okOut Obj.tableTableCmd (.byt c.value)))
        ∧ t.dom (Obj.tableTableResult c.iss.port) = tableResult 0 x.lane (f % 8192) f (t.flow f).bytes
        ∧ (t.flLane x.lane).tableAt = some (s1.tick + 1) ∧ t.queues = s1.queues ∧ (∀ g, g ≠ f → t.flow g = s1.flow g)
        ∧ t.flow f = (if o = 2 then (freshFlow h.2 x.essence x.queue x.tag).given x else if o = 3 then (s1.flow f).given x
            else if o = 4 then { s1.flow f with valid := false, sig := none, row := none, samples := [] }
            else if o = 6 then { s1.flow f with jitter := 0, lost := 0, reordered := 0, late := 0, packets := 0 } else s1.flow f))
    ∧ (o ≠ 2 → target = none → ∃ t : State,
        Lands s1 (exec r s) (s1.endedOr c.flags a ((rejOut Obj.tableTableCmd).fill (.byt c.value)) t)
        ∧ t.flows = s1.flows ∧ fieldAt (t.dom (Obj.tableTableResult c.iss.port)) 0 1 = 1))
  ∧ ((∀ (s s1 : State) (c : BytesCmd) (a : Accepted) (x : TableCmd), WritesBytes s c Obj.tableTableCmd s1 a → c.value.length = 56 →
    tableFields c.value = some (x, []) → x.lane < 32 → s1.hasLane x.lane = true → x.op = 7 →
    ∃ t : State, Lands s1 (exec (.flushLearnt c) s) (t.ended a (okOut Obj.tableTableCmd (.byt c.value)) (some (.flush x.lane)))
      ∧ t.flows = s1.flows ∧ (t.flLane x.lane).flushes = (s1.flLane x.lane).flushes ++ [4096] ∧ (t.flLane x.lane).tableAt = some (s1.tick + 1)
      ∧ (∀ n, n ≠ x.lane → t.flLane n = s1.flLane n))
  ∧ (∀ (s : State) (n : Nat) (l : Landing), (s.flLane n).flushes.contains 0 = true →
    s.deferred.find? (fun e => e.1 == Wait.flush n) = some (.flush n, l) →
    let x := { s.flLane n with flushes := (s.flLane n).flushes.erase 0 }
    let s1 := s.setFlLane n x
    exec (.flushLearntDone n) s = .next (State.finish { s1 with deferred := s1.deferred.erase (.flush n, l) } l s.tick)))

/-- STATE_RESTORE (R471): a written context state replaces the selected context, marked restored, where FORMAT is 1, STATE_CRC is
right, SRC_KIND, SOURCE, QUEUE and LOGICAL are the context's, the reserved bits are clear, and LAST_LENGTHS keep
R462 or LAST_VALID is clear; another is refused; while the queue captures it is BUSY, and with no context selected NOT_PRESENT.
The handles (R487, R491, R494). RELEASE_HANDLE of a valid handle frees its slot, or, where a job holds the slot, only the handle; of another it
is refused. A handle that no job has named for HANDLE_TIMEOUT_MS is released.
The model's readings here: assumptions 8 and 46. -/
def Obligations.CoderStatesAreRestoredAndReleased : Prop :=
  (∀ (s s1 : State) (c : BytesCmd) (a : Accepted), c.iss.port < 3 → WritesBytes s c (Obj.coderState c.iss.port) s1 a → c.value.length = 160 →
    let k := Obj.coderState c.iss.port
    let bad (st r : Nat) := s1.endedOr c.flags a ((badOut k st r).fill (.byt c.value)) s1
    Lands s1 (exec (.stateRestore c) s) (match s1.selected c.iss.port (s1.objFor c.iss (Obj.coderStateSel c.iss.port)) with
      | none => bad stNotPresent 0
      | some (q, l, x) =>
        if s1.capturing q = true then bad stBusy 0
        else if fieldAt c.value 84 4 = 1 ∧ fieldAt c.value 156 4 = crc32 (c.value.take 156) ∧ fieldAt c.value 104 1 = x.srcKind
            ∧ fieldAt c.value 105 1 = l ∧ fieldAt c.value 106 2 = x.source ∧ fieldAt c.value 108 2 = q
            ∧ fieldAt c.value 80 4 ≤ 1 ∧ fieldAt c.value 110 2 = 0 ∧ slice c.value 128 28 = zeros 28
            ∧ (fieldAt c.value 80 4 = 0 ∨ lensOk (unnibble (slice c.value 64 16)) = true) then
          (s1.setQueue q { s1.queue q with coders := (s1.queue q).coders.set l (stateOf x c.value) }).ended a (okOut k (.byt c.value))
        else bad stRejected reRange))
  ∧ ((∀ (s s1 : State) (c : WriteCmd) (a : Accepted), Writes s c Obj.deflReleaseHandle c.value s1 a → c.value < 65536 →
    Lands s1 (exec (.releaseHandle c) s) (match s1.handleSlot c.value with
      | none => s1.endedOr c.flags a ((rejOut Obj.deflReleaseHandle).fill (.num c.value)) s1
      | some i => (s1.setDefl i (if (s1.defl i).job.isSome = true then { s1.defl i with live := false } else { gen := (s1.defl i).gen })).ended a
          (okOut Obj.deflReleaseHandle (.num c.value))))
  ∧ (∀ (s : State) (h i : Nat), s.handleSlot h = some i → s.obj Obj.deflHandleTimeoutMs ≠ 0 → (s.defl i).job = none →
    s.jobs.any (fun e => e.2.slot = i) = false → (s.defl i).named + 1000000 * s.obj Obj.deflHandleTimeoutMs ≤ s.tick →
    exec (.handleTimeout h) s = .next (s.setDefl i { gen := (s.defl i).gen })))

/-- The descriptors of export jobs (R483, R484, R489, R490). START takes a free state slot, RESUME and FINISH the slot of their handle, and the job
is ACCEPTED in order; a second descriptor is BUSY, whatever its fields. ABORT marks a running job, and ends one that has not run: ABORTED without a
handle where its handle is stale or held, else with the ending of R488 written.
The model's readings here: assumption 46. -/
def Obligations.JobDescriptorsAreAccepted : Prop :=
  (∀ (s s1 : State) (c : BytesCmd) (a : Accepted) (n op : Nat) (r : Instr), n < 16 → WritesBytes s c (Obj.jobJobDesc n) s1 a → c.value.length = 64 →
    op = fieldAt c.value 0 1 → (op, r) ∈ [(1, Instr.jobStart c n), (2, .resume c n), (3, .finish c n)] → (s1.jobs.find n).isSome = true →
    Lands s1 (exec r s) (s1.endedOr c.flags a ((badOut (Obj.jobJobDesc n) stBusy 0).fill (.byt c.value)) s1))
  ∧ (∀ (s s1 : State) (c : BytesCmd) (a : Accepted) (n i op : Nat) (r : Instr), n < 16 → WritesBytes s c (Obj.jobJobDesc n) s1 a →
    c.value.length = 64 → op = fieldAt c.value 0 1 → (op, r) ∈ [(1, Instr.jobStart c n), (2, .resume c n), (3, .finish c n)] →
    fieldAt c.value 1 3 = 0 → fieldAt c.value 4 1 < 4 → fieldAt c.value 5 1 ≤ 2 → fieldAt c.value 6 1 ≤ 3 → fieldAt c.value 7 1 = 0 →
    slice c.value 8 16 = zeros 16 → fieldAt c.value 48 4 = 0 → 1024 ≤ fieldAt c.value 52 4 → fieldAt c.value 52 4 ≤ 16777216 →
    fieldAt c.value 26 2 ≤ 4095 → fieldAt c.value 36 4 ≤ 65535 → fieldAt c.value 40 8 ≠ 0 →
    (s1.jobs.find n = none → (if op = 1 then (below 16).find? (fun i => (s1.defl i).free) else s1.handleSlot (fieldAt c.value 24 2)) = some i →
      ∃ (t : State) (j : Job), Lands s1 (exec r s) (t.ended a (okOut (Obj.jobJobDesc n) (.byt c.value)))
        ∧ t = { s1 with dict := t.dict, jobs := t.jobs, deflSlots := t.deflSlots, jobOrder := s1.jobOrder + 1 }
        ∧ t.obj (Obj.jobJobState n) = 1 ∧ SameObjs s1 t [Obj.jobJobState n] ∧ t.jobs.find n = some j
        ∧ (∀ m, m ≠ n → t.jobs.find m = s1.jobs.find m) ∧ (∀ m, m ≠ i → t.defl m = s1.defl m)
        ∧ j.op = op ∧ j.slot = i ∧ j.order = s1.jobOrder ∧ j.running = false ∧ j.abort = false ∧ j.final = bit (fieldAt c.value 4 1) 0
        ∧ j.queue = fieldAt c.value 26 2 ∧ j.capture = fieldAt c.value 28 4 ∧ j.first = fieldAt c.value 32 4 ∧ j.offset = fieldAt c.value 36 4
        ∧ j.inLen = fieldAt c.value 40 8 ∧ j.outLen = fieldAt c.value 52 4 ∧ j.addr = fieldAt c.value 56 8
        ∧ t.defl i = (if op = 1 then { gen := (s1.defl i).gen, job := some n } else { s1.defl i with named := s1.tick + 1 })))
  ∧ (∀ (s s1 : State) (c : BytesCmd) (a : Accepted) (n : Nat) (j : Job), n < 16 → WritesBytes s c (Obj.jobJobDesc n) s1 a → c.value.length = 64 →
    fieldAt c.value 0 1 = 4 → fieldAt c.value 1 3 = 0 → fieldAt c.value 4 1 < 8 → fieldAt c.value 5 1 ≤ 2 → fieldAt c.value 6 1 ≤ 3 →
    fieldAt c.value 7 1 = 0 → slice c.value 8 16 = zeros 16 → fieldAt c.value 48 4 = 0 → 1024 ≤ fieldAt c.value 52 4 →
    fieldAt c.value 52 4 ≤ 16777216 → s1.jobs.find n = some j →
    if j.running = true then
      Lands s1 (exec (.abort c n) s) (State.ended { s1 with jobs := s1.jobs.set n { j with abort := true } } a (okOut (Obj.jobJobDesc n) (.byt c.value)))
    else ∃ t : State, Lands s1 (exec (.abort c n) s) (t.ended a (okOut (Obj.jobJobDesc n) (.byt c.value))) ∧ t.jobs.find n = none
      ∧ t.obj (Obj.jobJobState n) = 3 ∧ Counted s1 t Obj.deflCntDeflateJobs 1
      ∧ (∃ b : Nat, let x := s1.jobStream j
          let fresh : Bool := j.op = 1 && !j.cont
          let w := jobWork { j with abort := true, startAt := s1.tick + 1 } x fresh b (some joAborted)
          fieldAt (t.dom (Obj.jobJobResult n)) 17 1 =
            if s1.jobStale j = true ∨ (s1.defl j.slot).job.any (· ≠ n) = true then joAborted
            else if w.checks x fresh = false then joVerifyFail else if s1.destUp j = false then joDestFail else w.outcome)
      ∧ ∀ m, m ≠ n → t.jobs.find m = s1.jobs.find m)

/-- The run of export jobs (R482, R485 to R492). With none running, the accepted START of the lowest order runs, under a lease of its first page,
NO_PAGE where that page cannot be leased. The running job ends when it has read all its input, when something has stopped it, when its output is
full, or on an error; its end frees its descriptor, ends its lease, counts it and stands in JOB_RESULT with its outcome; a FINISH that nothing stops
or fails ends DONE with its handle gone.
The model's readings here: assumption 46. -/
def Obligations.JobsRunInOrderAndEnd : Prop :=
  (∀ (s : State) (n : Nat) (j : Job), n < 16 → s.booted = true → s.obj Obj.devDevState ≠ 5 → s.jobs.any (fun e => e.2.running) = false →
    s.jobs.find n = some j → (∀ e ∈ s.jobs, e = (n, j) ∨ j.order < e.2.order) → j.op = 1 → j.cont = false →
    ∃ (t : State) (lease : Option Nat), exec .jobRun s = .next t ∧ t.obj (Obj.jobJobState n) = 2 ∧ SameObjs s t [Obj.jobJobState n]
      ∧ t.jobs.find n = some { j with
          running := true, startAt := s.tick, lease := lease, page := j.first, at_ := j.offset, left := j.inLen,
          cut := if j.inLen ≠ 0 ∧ lease = none then some joNoPage else none } ∧ (t.defl j.slot).job = some n
      ∧ (∀ m, m ≠ n → t.jobs.find m = s.jobs.find m) ∧ t.queues = s.queues
      ∧ (∀ id, lease = some id → ∃ l, t.cmm.leaseOf id = some l ∧ l.holder = 0x50 ∧ l.queue = j.queue ∧ l.first = j.first ∧ l.count = 1)
      ∧ (lease = none → t.cmm = s.cmm)
      ∧ ((∃ p ∈ (s.queue j.queue).pages, p.capture = j.capture ∧ p.seq = j.first ∧ p.closed = true) → s.cmm.leases.length < 4096 → j.inLen ≠ 0 →
          lease.isSome = true))
  ∧ (∀ (s : State) (v d m : Bool) (n : Nat) (j : Job), n < 16 → s.jobs.find? (fun e => e.2.running) = some (n, j) →
    (d = false → m = false → s.jobOver j = false → exec (.jobEnd v d m) s = .next s)
    ∧ (d = true ∨ m = true ∨ s.jobOver j = true → ∃ t : State, exec (.jobEnd v d m) s = .next t ∧ t.jobs.find n = none ∧ (∀ k, k ≠ n → t.jobs.find k = s.jobs.find k)
      ∧ t.obj (Obj.jobJobState n) = 3 ∧ Counted s t Obj.deflCntDeflateJobs 1 ∧ (t.dom (Obj.jobJobResult n)).length = 48
      ∧ (∀ id, j.lease = some id → t.cmm.leaseOf id = none) ∧ (v = true → fieldAt (t.dom (Obj.jobJobResult n)) 17 1 = 3)
      ∧ (j.op = 3 → j.abort = false → s.jobRevoked j = false → j.cut = none → v = false → d = false → s.destUp j = true → fieldAt (t.dom (Obj.jobJobResult n)) 17 1 = 0
        ∧ fieldAt (t.dom (Obj.jobJobResult n)) 18 2 = 0xFFFF ∧ t.defl j.slot = { gen := (s.defl j.slot).gen })))


/-! The host port (R573 to R598). -/

/-- The registers of BAR0 (R576 to R584). The doorbell of a free slot with a LENGTH that a packet can have queues the slot's packet for the port's
FIFO and makes the slot busy; the packets are put into the FIFO in the order of their doorbells, at one word a tick; the doorbell of a slot that is busy or ready it is counted and ignored. RSP_ACK, INT_STATUS and RING_PENDING clear the bits
written; the heads take their values, and so does DESC_TAIL, which a ring that runs answers with an ERROR where it is more than a ring ahead.
The model's readings here: assumptions 14 and 25. -/
def Obligations.HostRegistersTakeTheirWrites : Prop :=
  (∀ (s : State) (v : Nat) (b : Bytes), s.linkUp = true →
    let k := bits v 3 0
    let n := bits v 16 8
    (bit s.host.cmdBusy k = true ∨ bit s.host.rspReady k = true →
      ∃ t : State, exec (.cmdDoorbell v b) s = .next t ∧ Counted s t Obj.hostCntDoorbellIgnored 1 ∧ t = { s with dict := t.dict }
        ∧ SameObjs s t [Obj.hostCntDoorbellIgnored])
    ∧ (bit s.host.cmdBusy k = false → bit s.host.rspReady k = false → b ≠ [] → 16 ≤ n → n ≤ 256 → n % 4 = 0 →
      ∃ t : State, exec (.cmdDoorbell v b) s = .next t ∧ t.host.mail = s.host.mail ++ [(({ port := 0, slot := k } : Issuer), slice b 0 n)]
        ∧ bit t.host.cmdBusy k = true ∧ t.host.cmdSlots.getD k [] = b
        ∧ t = { s with host := { s.host with cmdBusy := t.host.cmdBusy, cmdSlots := t.host.cmdSlots, mail := t.host.mail } }))
  ∧ (∀ (s : State) (u from_ : Tick) (p : Issuer × Bytes) (rest : List (Issuer × Bytes)), s.host.mail = p :: rest → s.host.mailAt = some from_ →
    (u < from_ + hoopWords p.2 → s.mailTick u = s)
    ∧ (from_ + hoopWords p.2 ≤ u → (s.mailTick u).hoop.getD 0 [] = s.hoop.getD 0 [] ++ [p] ∧ (s.mailTick u).host.mail = rest))
  ∧ (∀ (s : State) (v : Nat), s.linkUp = true →
    (∃ t : State, exec (.rspAck v) s = .next t ∧ t = { s with host := { s.host with rspReady := t.host.rspReady, rspSlots := t.host.rspSlots } }
      ∧ ∀ k, bit t.host.rspReady k = (bit s.host.rspReady k && !bit v k) ∧ (bit v k = true → t.host.rspSlots.getD k [] = [])
        ∧ (bit v k = false → t.host.rspSlots.getD k [] = s.host.rspSlots.getD k []))
    ∧ exec (.noteHead v) s = .next { s with host := { s.host with noteHead := v % 2 ^ 32 } }
    ∧ (∃ t : State, exec (.bar0Write 0x30 v 4) s = .next t ∧ t = { s with host := { s.host with intStatus := t.host.intStatus } }
      ∧ ∀ k, k < 32 → bit t.host.intStatus k = (bit s.host.intStatus k && !bit v k))
    ∧ (∃ t : State, exec (.bar0Write 0x38 v 8) s = .next t ∧ t = { s with host := { s.host with ringPending := t.host.ringPending } }
      ∧ ∀ k, k < 64 → bit t.host.ringPending k = (bit s.host.ringPending k && !bit v k)))
  ∧ (∀ (s : State) (r v : Nat), s.linkUp = true → r < 64 →
    exec (.cplHead r v) s = .next (s.setRing r { s.ring r with cplHead := v % 2 ^ 32 })
    ∧ (let late := (s.obj (Obj.ringState r) = 1 ∨ s.obj (Obj.ringState r) = 2)
          ∧ s.obj (Obj.ringRingSize r) < ahead32 v (s.obj (Obj.ringDescHead r))
      (¬late → exec (.descTail r v) s = .next (s.setRing r { s.ring r with tail := v % 2 ^ 32 }))
      ∧ (late → ∃ t : State, exec (.descTail r v) s = .next t ∧ t.ring r = { s.ring r with tail := v % 2 ^ 32 } ∧ t.obj (Obj.ringState r) = 3
        ∧ t.obj (Obj.ringError r) = 1 ∧ bit t.host.intStatus 1 = true
        ∧ SameObjs s t [Obj.ringState r, Obj.ringError r])))

/-- The completion of a ring's oldest descriptor (R588, R589): its 16-byte entry goes to host memory at CPL_TAIL with the phase of the lap,
CPL_TAIL moves on, the ring's bit of RING_PENDING is set, and the descriptor leaves the ring; with INT asked for, the ring's vector is raised.
The work of a running ring (R583 to R587): descriptors are fetched at DESC_HEAD while completions have room, a failed read is an ERROR; the
oldest is carried out and completes: GRANT takes a lease for the ring, READ sends the bytes of its lease to the host in units of 4 KiB, in its ring's
turn, and restarts the lease's timer, RENEW restarts it, RELEASE ends it. The unit that ends a READ completes it, MEM_ERROR where a burst was
uncorrectable; a READ whose lease is revoked completes with the bytes transferred so far.
The model's readings here: assumption 26. -/
def Obligations.RingDescriptorsAreCarriedOutAndCompleted : Prop :=
  (∀ (s : State) (k : Nat) (d : Bytes) (lease n outcome status : Nat), k < 64 →
    let tail := s.obj (Obj.ringCplTail k)
    let size := s.obj (Obj.ringRingSize k)
    let entry := le 1 (if tail / size % 2 = 0 then 1 else 0) ++ [0] ++ le 1 status ++ le 1 outcome ++ le 2 (fieldAt d 2 2) ++ le 2 tail ++ le 4 n
      ++ le 4 lease
    let t := s.complete k d lease n outcome status
    t.obj (Obj.ringCplTail k) = (tail + 1) % 2 ^ 32 ∧ SameObjs s t [Obj.ringCplTail k] ∧ (t.ring k).fetched = (s.ring k).fetched.drop 1
      ∧ (∀ j, j ≠ k → t.ring j = s.ring j) ∧ t.host.ringPending = s.host.ringPending ||| 2 ^ k ∧ t.cmm = s.cmm
      ∧ s.out ++ [.hostWrite (s.obj (Obj.ringCplBase k) + 16 * (tail % size)) entry] <+: t.out
      ∧ (bit (fieldAt d 1 1) 0 = false → t.out = s.out ++ [.hostWrite (s.obj (Obj.ringCplBase k) + 16 * (tail % size)) entry]))
  ∧ ((∀ (s : State) (k : Nat) (b : Bytes), s.ringRuns k = true → s.obj (Obj.ringDescHead k) ≠ (s.ring k).tail → (s.ring k).fetched.length ≤ 8 →
    s.cplRoom k = true →
    (∃ t : State, exec (.descFetch k .failed) s = .next t ∧ t.obj (Obj.ringState k) = 3 ∧ t.obj (Obj.ringError k) = 2 ∧ t.ring k = s.ring k)
    ∧ ∃ t : State, exec (.descFetch k (.data b)) s = .next (t.skipBad k 10) ∧ t = { s with dict := t.dict, host := t.host }
      ∧ t.obj (Obj.ringDescHead k) = (s.obj (Obj.ringDescHead k) + 1) % 2 ^ 32 ∧ SameObjs s t [Obj.ringDescHead k]
      ∧ t.ring k = { s.ring k with fetched := (s.ring k).fetched ++ [⟨s.obj (Obj.ringDescHead k), slice b 0 32⟩] })
  ∧ (∀ (s : State) (k : Nat) (d : Bytes), s.oldestDesc k 1 = some d → 0 < descCount d → descLength d ≤ 60000 → s.cmm.leases.length < 4096 →
    descCount d ≤ ((s.queue (descQueue d)).pages.filter (fun p => p.capture = descOffset d && descSeq d ≤ p.seq
      && p.seq < descSeq d + descCount d && p.closed)).length →
    ∃ (t : State) (id : Nat) (l : Lease), exec (.descGrant k) s = .next ((t.complete k d id 0 0 stOk).skipBad k 10)
      ∧ t.cmm.leaseOf id = some l ∧ s.cmm.leases.find (id % 65536) = none ∧ l.holder = k ∧ l.queue = descQueue d ∧ l.capture = descOffset d
      ∧ l.first = descSeq d ∧ l.count = descCount d ∧ (t.ring k).lease = some id ∧ t.queues = s.queues ∧ t.dict = s.dict)
  ∧ (∀ (s : State) (k : Nat) (d : Bytes) (l : Lease) (e : Bool), s.oldestDesc k 2 = some d → descLength d ≠ 0 → descFlag d 11 = false →
    let id := s.descLeaseId k d
    let at_ := (s.ring k).sent
    let n := s.readUnit k d
    let bad := e || (s.ring k).failed || s.leaseBad l (descSeq d) (descOffset d + at_) n (at_ == 0)
    s.cmm.revoked.contains id = false → s.cmm.leaseOf id = some l → l.holder = k →
    s.leaseCovers l (descSeq d) (descOffset d) (descLength d) = true →
    (s.readTurn k = false → exec (.descRead k e) s = .next s)
    ∧ (s.readTurn k = true → ∃ t : State, t.out = s.out ++ [.hostWrite (descAddr d + at_) (s.leaseBytes l (descSeq d) (descOffset d + at_) n)]
      ∧ Counted s t Obj.hostCntReadoutBytes n ∧ t.cmm.leaseOf id = some { l with since := s.tick } ∧ t.queues = s.queues ∧ t.mem = s.mem
      ∧ t.host = { s.host with served := k }
      ∧ exec (.descRead k e) s = .next (if at_ + n < descLength d then t.setRing k { s.ring k with sent := at_ + n, failed := bad }
          else (t.complete k d id (at_ + n) (if bad then 5 else 0) (if bad then stRejected else stOk)).skipBad k 10)))
  ∧ (∀ (s : State) (k : Nat) (d : Bytes) (l : Lease),
    let id := s.descLeaseId k d
    s.cmm.revoked.contains id = false → s.cmm.leaseOf id = some l → l.holder = k →
    (s.oldestDesc k 3 = some d → ∃ t : State, exec (.descRenew k) s = .next ((t.complete k d id 0 0 stOk).skipBad k 10)
      ∧ t.cmm.leaseOf id = some { l with since := s.tick } ∧ t = { s with cmm := { s.cmm with leases := t.cmm.leases } })
    ∧ (s.oldestDesc k 4 = some d → ∃ t : State, exec (.descRelease k) s = .next ((t.complete k d id 0 0 stOk).skipBad k 10)
      ∧ t.cmm.leaseOf id = none ∧ (∀ q, q ≠ l.queue → t.queue q = s.queue q)))
  ∧ (∀ (s : State) (k : Nat) (d : Bytes) (r : Instr) (op : Nat), (op, r) ∈ [(2, Instr.descRead k false), (3, .descRenew k), (4, .descRelease k)] →
    s.oldestDesc k op = some d → (op = 2 → descLength d ≠ 0) →
    let id := s.descLeaseId k d
    let n := if op = 2 then (s.ring k).sent else 0
    (s.cmm.revoked.contains id = true → exec r s = .next ((s.complete k d id n 4 stRevoked).skipBad k 10))
    ∧ (s.cmm.revoked.contains id = false → s.cmm.leaseOf id = none → exec r s = .next ((s.complete k d id n 3 stRejected).skipBad k 10))))

/-- RING_ENABLE, RING_DISABLE and MAP_INVALIDATE (R582, R589, R590). A ring enabled with aligned bases starts empty, RUNNING where the engine may
be bus master, else STALLED; disabled, it is OFF with nothing fetched. MAP_INVALIDATE forgets every cached window page.
The model's readings here: assumption 25. -/
def Obligations.RingsAreEnabledAndDisabled : Prop :=
  (∀ (s s1 : State) (c : WriteCmd) (k : Nat) (a : Accepted), k < 64 → Writes s c (Obj.ringEnable k) 1 s1 a → s1.obj (Obj.ringEnable k) = 0 →
    if s1.obj (Obj.ringDescBase k) % 32 ≠ 0 ∨ s1.obj (Obj.ringCplBase k) % 16 ≠ 0 then
      Lands s1 (exec (.ringEnable c k) s) (s1.endedOr c.flags a ((rejOut (Obj.ringEnable k)).fill (.num 1)) s1)
    else ∃ t : State, Lands s1 (exec (.ringEnable c k) s) (t.ended a (okOut (Obj.ringEnable k) (.num 1))) ∧ t = { s1 with dict := t.dict, host := t.host }
      ∧ t.obj (Obj.ringEnable k) = 1 ∧ t.obj (Obj.ringState k) = (if s1.host.busMaster = true then 1 else 2) ∧ t.obj (Obj.ringDescHead k) = 0
      ∧ t.obj (Obj.ringCplTail k) = 0 ∧ SameObjs s1 t [Obj.ringEnable k, Obj.ringState k, Obj.ringDescHead k, Obj.ringCplTail k]
      ∧ t.ring k = { s1.ring k with fetched := [], lease := none, sent := 0, failed := false } ∧ (∀ j, j ≠ k → t.ring j = s1.ring j))
  ∧ (∀ (s s1 : State) (c : WriteCmd) (k : Nat) (a : Accepted), k < 64 → Writes s c (Obj.ringEnable k) 0 s1 a → s1.obj (Obj.ringEnable k) = 1 →
    ∃ t : State, Lands s1 (exec (.ringDisable c k) s) (t.ended a (okOut (Obj.ringEnable k) (.num 0))) ∧ t.obj (Obj.ringEnable k) = 0
      ∧ t.obj (Obj.ringState k) = 0 ∧ t.obj (Obj.ringError k) = 0 ∧ (t.ring k).fetched = [] ∧ (∀ j, j ≠ k → t.ring j = s1.ring j)
      ∧ t.cmm = s1.cmm)
  ∧ (∀ (s s1 : State) (c : WriteCmd) (a : Accepted), Writes s c Obj.hostMapInvalidate 1 s1 a → c.value = 1 →
    Lands s1 (exec (.mapInvalidate c) s)
      (State.ended { s1 with host := { s1.host with cache := [] } } a (okOut Obj.hostMapInvalidate (.num 1))))

/-- The BAR2 window (R590 to R592). A read that finds no room in the 4 KiB of the open tick waits for a later one. Else a read through a valid mapping of a page under a lease of port 0 answers the page's bytes, keeps the mapping while
the cache has room, counts them and restarts the lease's timer; any other is answered with ones and counted as a fault, with vector 1. A write is
counted as a fault and changes nothing.
The model's readings here: assumptions 6 and 25. -/
def Obligations.TheWindowReadsLeasedPages : Prop :=
  ∀ (s : State) (addr count : Nat) (e : Bytes), s.linkUp = true →
    let w := addr / 65536
    let off := addr % 65536
    let n := min count (65536 - off)
    let fault := s.obj Obj.hostMapBase = 0 ∨ s.running = false ∨ s.window w e = none
    (s.bar2Room n = false → exec (.bar2Read addr count e) s = .next { s with parked := s.parked ++ [.bar2 addr count e] })
    ∧ (s.bar2Room n = true → fault → ∃ t : State, exec (.bar2Read addr count e) s = .next t ∧ Counted s t Obj.hostCntBar2Faults 1 ∧ SameObjs s t [Obj.hostCntBar2Faults]
      ∧ s.out ++ [.bar2 addr (List.replicate count 0xFF)] <+: t.out ∧ t.cmm = s.cmm ∧ t.host.cache = s.host.cache)
    ∧ (∀ pfn id l, s.bar2Room n = true → ¬fault → s.window w e = some (pfn, id) → s.cmm.leaseOf id = some l →
      ∃ t : State, exec (.bar2Read addr count e) s = .next t ∧ t.out = s.out ++ [.bar2 addr (s.pageRead pfn off n)]
        ∧ Counted s t Obj.hostCntReadoutBytes n ∧ t.cmm.leaseOf id = some { l with since := s.tick } ∧ t.queues = s.queues ∧ t.mem = s.mem
        ∧ (s.host.cache.length < 4096 → t.host.cache.find w = some (pfn, id))
        ∧ (4096 ≤ s.host.cache.length → t.host = { s.host with bar2Count := s.host.bar2Count + n }))
    ∧ (∃ t : State, exec (.bar2Write addr) s = .next t ∧ Counted s t Obj.hostCntBar2Faults 1 ∧ SameObjs s t [Obj.hostCntBar2Faults]
        ∧ t = { s with dict := t.dict })

/-- The host's link (R573, R574, R593 to R595, R598). Training ends at a speed and a width. Bus mastering taken away stalls the running rings, given back it
resumes them. A reset of the port ends its rings, sessions and transfers, empties its mailbox and its FIFO, and the link is down; the leases of its holders
go in the tick after it (R401).
The configuration header holds the IDs, the class, the two BARs and the capabilities of R574.
The model's readings here: assumption 25. -/
def Obligations.TheHostLinkComesAndGoes : Prop :=
  (∀ (s : State) (v w : Nat), s.booted = true → bit (s.obj Obj.devStraps) 0 = false → s.obj Obj.hostLinkState ≠ 2 → v ∈ [16, 32, 64] → w ∈ [1, 4, 8, 16] →
    ∃ t : State, exec (.pcieLinkUp v w) s = .next t ∧ t = { s with dict := t.dict } ∧ t.obj Obj.hostLinkState = 2 ∧ t.obj Obj.hostLinkSpeed = v
      ∧ t.obj Obj.hostLinkWidth = w ∧ SameObjs s t [Obj.hostLinkState, Obj.hostLinkSpeed, Obj.hostLinkWidth])
  ∧ (∀ (s : State) (r : Instr) (on : Bool), (on, r) ∈ [(false, Instr.bmeClear), (true, .bmeSet)] → s.linkUp = true →
    ∃ t : State, exec r s = .next t ∧ t = { s with dict := t.dict, host := { s.host with busMaster := on } }
      ∧ SameObjs s t ((below 64).map Obj.ringState)
      ∧ ∀ k, k < 64 → t.obj (Obj.ringState k) = (if s.obj (Obj.ringState k) = (if on = true then 2 else 1) then (if on = true then 1 else 2)
          else s.obj (Obj.ringState k)))
  ∧ (∀ s : State, s.booted = true → bit (s.obj Obj.devStraps) 0 = false →
    ∃ t : State, exec .port0Reset s = .next t ∧ t.tick = s.tick ∧ t.obj Obj.hostLinkState = 1 ∧ t.obj Obj.hostMapBase = 0 ∧ t.host.cmdBusy = 0
      ∧ t.host.rspReady = 0 ∧ t.host.busMaster = false ∧ t.host.cache = [] ∧ t.hoop.getD 0 [] = [] ∧ Counted s t Obj.hostCntPortResets 1
      ∧ (∀ h, h < 65 → (h, s.tick + 1) ∈ t.cmm.gone) ∧ t.cmm.leases = s.cmm.leases ∧ (∀ x ∈ t.transfers, x.iss.port ≠ 0) ∧ t.readBufs.find 0 = none
      ∧ (∀ k, k < 64 → t.obj (Obj.ringEnable k) = 0 ∧ t.obj (Obj.ringState k) = 0 ∧ (t.ring k).fetched = [])
      ∧ ∀ n, n < 8 → s.obj (Obj.sessState n) ≠ 0 → s.obj (Obj.sessPort n) = 0 → t.obj (Obj.sessState n) = 0)
  ∧ (∀ s : State, s.pci.vendor = 0x1E7D ∧ s.pci.revision = 0xB0 ∧ s.pci.classCode = 0x118000 ∧ s.pci.interruptPin = 0
    ∧ s.pci.device = (if s.otp.variant = 0 then 0x8856 else if s.otp.variant = 1 then 0x8832 else 0x8816)
    ∧ s.pci.subVendor = s.otp.subVendor.getD 0x1E7D ∧ s.pci.subDevice = s.otp.subDevice.getD s.pci.device
    ∧ s.pci.bars = [⟨0x10, false, 65536⟩, ⟨0x18, true, 68719476736⟩]
    ∧ s.pci.caps = [.pciExpress, .powerManagement, .msix 256, .advancedErrors, .serialNumber s.otp.serial, .dataLinkFeature])

/-! The management port (R529, R530, R532, R546, R652, R711). -/

/-- DATAGRAM_DISCARD, ARP_REQUEST, NEIGHBOUR_SOLICITATION, ICMP_ECHO_REQUEST, VDP_COMMAND, SGMII_SYNC and SGMII_SYNC_LOSS (R529, R530, R546, R652).
Other datagrams are discarded. The engine answers ARP for its IPv4 address, neighbour solicitations for its IPv6 addresses, echo requests for all of
them. The packet of a command datagram on the VDP port enters HF1 where it fits, or is answered OVERSIZE under the header of a response. Loss of synchronisation flushes HF1 and ends the sessions
of port 1.
The model's readings here: assumption 24. -/
def Obligations.TheManagementPortTakesAndAnswersDatagrams : Prop :=
  (∀ (s : State) (d : NetIn), (∀ f, exec (.datagramDiscard d f) s = .next s)
    ∧ (s.netUp = true →
      (s.v4On = true → d.target = mappedNat (s.obj Obj.commIpv4Addr) →
        exec (.arpRequest d) s = .next (s.emit (.answer 0 d.addr (le 6 s.otp.mac))))
      ∧ (s.ownAddr d.target = true → exec (.icmpEchoRequest d) s = .next (s.emit (.answer 2 d.addr d.data))
        ∧ (isV4 d.target = false → exec (.neighbourSolicitation d) s = .next (s.emit (.answer 1 d.addr (le 6 s.otp.mac)))))
      ∧ (isVdpCommand d = true →
        let pkt := d.data.drop 8
        let i : Issuer := { port := 1, addr := d.addr, udp := d.udp, mac := d.mac }
        (pkt.length ≤ 256 → s.hoopHeld 1 + hoopWords pkt ≤ 32 →
          ∃ t : State, exec (.vdpCommand d) s = .next t ∧ t = { s with hoop := t.hoop } ∧ t.hoop.getD 1 [] = s.hoop.getD 1 [] ++ [(i, pkt)]
            ∧ ∀ f, f ≠ 1 → t.hoop.getD f [] = s.hoop.getD f [])
        ∧ (256 < pkt.length →
          ∃ t : State, exec (.vdpCommand d) s = .next t ∧ t.hoop = s.hoop ∧ Counted s t (Obj.portCntOversize 1) 1
            ∧ t.out = s.out ++ [.response i (vdpHeader 2 ++ respBytes i [] (fieldAt pkt 0 1 % 128) (fieldAt pkt 8 4) stOversize 0 0 0 0 0 false [])]))))
  ∧ (∀ s : State, (s.booted = true → exec .sgmiiSync s = .next { s with sgmii := true })
    ∧ (s.sgmii = true → ∃ t : State, exec .sgmiiSyncLoss s = .next t ∧ t.sgmii = false ∧ t.hoop.getD 1 [] = []
      ∧ Counted s t (Obj.hoopCntFlushes 1) 1 ∧ (∀ f, f ≠ 1 → t.hoop.getD f [] = s.hoop.getD f [])
      ∧ ∀ n, n < 8 → if s.obj (Obj.sessState n) ≠ 0 ∧ s.obj (Obj.sessPort n) = 1 then t.obj (Obj.sessState n) = 0 ∧ t.session n = {}
        else t.obj (Obj.sessState n) = s.obj (Obj.sessState n) ∧ t.session n = s.session n))

/-- NOTIFICATION_SEND, NEXT_HOP_REPLY, NEXT_HOP_RETRY and NEXT_HOP_EXPIRY (R530, R532). The oldest notification of a subscriber leaves to its
address where the next hop is resolved, else it waits for it, or is dropped and counted where there is none. A reply sends what waits; after 1 s a
request is repeated, three times in all, then what waits is dropped; after 300 s a next hop is asked for again.
The model's readings here: assumption 24. -/
def Obligations.NextHopsAreResolvedAndNotificationsSent : Prop :=
  (∀ (s : State) (k nseq : Nat) (n : Note) (rest : List (Nat × Note)), s.subQ.getD k [] = (nseq, n) :: rest → s.netUp = true → s.subOn k = true →
    let dest := s.dom (Obj.subSubAddr k)
    let data := vdpHeader 3 ++ noteBytes n nseq
    ∃ t : State, exec (.notificationSend k) s = .next t ∧ t.subQ.getD k [] = rest ∧ (∀ j, j ≠ k → t.subQ.getD j [] = s.subQ.getD j [])
      ∧ t = { s with dict := t.dict, hops := t.hops, out := t.out, subQ := t.subQ }
      ∧ match s.nextHop dest with
        | none => Counted s t (Obj.subSubDropped k) 1 ∧ t.out = s.out
        | some h => SameObjs s t (if (s.hops.find? (fun x => x.addr = h)).any (fun x => !x.resolved && 4 ≤ x.waiting.length) = true
              then [Obj.subSubDropped k] else [])
          ∧ match s.hops.find? (fun x => x.addr = h) with
          | some x => x.resolved = true → t.out = s.out ++ [.datagram dest (s.obj (Obj.subSubPort k)) data] ∧ t.hops = s.hops
          | none => t.out = s.out ++ [.resolve h]
              ∧ t.hops = s.hops ++ [{ addr := h, since := s.tick, waiting := [(some k, dest, s.obj (Obj.subSubPort k), data)] }])
  ∧ (∀ (s : State) (d : NetIn) (x : NextHop), s.netUp = true → s.hops.find? (fun y => y.addr = d.addr) = some x →
    ∃ t : State, exec (.nextHopReply d) s = .next t ∧ t = { s with hops := t.hops, out := t.out }
      ∧ t.out = s.out ++ x.waiting.map (fun w => .datagram w.2.1 w.2.2.1 w.2.2.2)
      ∧ ((s.hops.filter (·.resolved)).length ≤ 31 →
        t.hops = s.hops.filter (fun y => y.addr ≠ d.addr) ++ [{ x with resolved := true, since := s.tick, waiting := [] }])
      ∧ ((s.hops.filter (·.resolved)).length ≤ 32 → (t.hops.filter (·.resolved)).length ≤ 32))
  ∧ (∀ (s : State) (addr : Bytes) (x : NextHop), s.hops.find? (fun y => y.addr = addr) = some x →
    (x.resolved = false → x.since + 1000000000 ≤ s.tick → x.asked < 3 →
      ∃ t : State, exec (.nextHopRetry addr) s = .next t ∧ t = { s with hops := t.hops, out := s.out ++ [.resolve addr] }
        ∧ t.hops.find? (fun y => y.addr = addr) = some { x with asked := x.asked + 1, since := s.tick }
        ∧ ∀ b, b ≠ addr → t.hops.find? (fun y => y.addr = b) = s.hops.find? (fun y => y.addr = b))
    ∧ (x.resolved = false → x.since + 1000000000 ≤ s.tick → 3 ≤ x.asked →
      ∃ t : State, exec (.nextHopRetry addr) s = .next t ∧ t = { s with dict := t.dict, hops := s.hops.filter (fun y => y.addr ≠ addr) }
        ∧ ∀ k, x.waiting.any (fun w => w.1 = some k) = true → Counted s t (Obj.subSubDropped k) (x.waiting.countP (fun w => w.1 = some k)))
    ∧ (x.resolved = true → x.since + 300000000000 ≤ s.tick →
      ∃ t : State, exec (.nextHopExpiry addr) s = .next t ∧ t = { s with hops := t.hops, out := s.out ++ [.resolve addr] }
        ∧ t.hops.find? (fun y => y.addr = addr) = some { x with resolved := false, asked := 1, since := s.tick }
        ∧ ∀ b, b ≠ addr → t.hops.find? (fun y => y.addr = b) = s.hops.find? (fun y => y.addr = b)))

/-! Service cores, firmware and flash (R602 to R610, R620 to R622). -/

/-- LOCK_REQUEST, LOCK_TIMEOUT, CORE_RESET, WATCHDOG_EXPIRY, CORE_FAULT and CORE_BOOTED (R606, R607, R609, R610). A running core's request waits;
a lock free since an earlier tick goes to the first requester after the last holder whose packet fits; 1,024 ticks without a word take it back. The
reset of a core takes its lock, drops its staged entries and transfers, and leaves it BOOTING, or in FAULT at the third reset by watchdog or fault
within 60 s; its leases go in the tick after (R401); a write of its RESET forgets those resets. A core that has booted runs.
The model's readings here: assumptions 16 and 17. -/
def Obligations.CoresShareTheLockAndAreReset : Prop :=
  (∀ (s : State) (c : Nat) (p : Bytes), c < coresOf s.otp.variant → s.obj (Obj.coreState c) = 2 → (∀ e ∈ s.lock.waiting, e.1 ≠ c) →
    s.lock.holder ≠ some c → exec (.lockRequest c p) s = .next (s.setLock { s.lock with waiting := s.lock.waiting ++ [(c, p)] }))
  ∧ (∀ (s : State) (u c d : Nat) (p : Bytes), s.lock.holder = none → s.lock.freed < u → d < 4 → c = (s.lock.last + 1 + d) % 4 →
    s.lock.waiting.find? (fun e => e.1 = c) = some (c, p) → min 32 (ceilDiv (fieldAt p 4 2) 8) + s.hoopHeld 2 ≤ 32 →
    (∀ j < d, ∀ e ∈ s.lock.waiting, e.1 ≠ (s.lock.last + 1 + j) % 4) →
    ∃ t : State, s.lockTick u = t ∧ t = { s with lock := t.lock } ∧ t.lock.holder = some c ∧ t.lock.data = p ∧ t.lock.start = u ∧ t.lock.last = c
      ∧ t.lock.waiting = s.lock.waiting.filter (fun e => e.1 ≠ c))
  ∧ (∀ (s : State) (c : Nat), c < 4 → s.lock.holder = some c → wholePacket s.lock.data = false →
    s.lock.start + hoopWords s.lock.data + 1024 ≤ s.tick + 1 →
    ∃ t : State, exec .lockTimeout s = .next t ∧ t = { s with dict := t.dict, lock := t.lock }
      ∧ t.lock = { s.lock with holder := none, data := [], freed := s.tick + 1 } ∧ Counted s t (Obj.coreLockTimeouts c) 1
      ∧ SameObjs s t [Obj.coreLockTimeouts c, Obj.hoopCntRewinds 2] ∧ (s.lock.data ≠ [] → Counted s t (Obj.hoopCntRewinds 2) 1))
  ∧ (∀ (s s1 : State) (c : WriteCmd) (n : Nat) (a : Accepted), n < 4 → Writes s c (Obj.coreReset n) 1 s1 a → c.value = 1 →
    ∃ t : State, Lands s1 (exec (.coreReset c n) s) (t.ended a (okOut (Obj.coreReset n) (.num 1)))
      ∧ t.obj (Obj.coreState n) = s1.bootState ∧ t.obj (Obj.coreLastReset n) = 1 ∧ Counted s1 t (Obj.coreResets n) 1 ∧ t.cores.getD n {} = {}
      ∧ (∀ m, m ≠ n → t.cores.getD m {} = s1.cores.getD m {}) ∧ (∀ m, m < 4 → m ≠ n → t.obj (Obj.coreState m) = s1.obj (Obj.coreState m))
      ∧ t.lock.holder ≠ some n ∧ (∀ e ∈ t.lock.waiting, e.1 ≠ n) ∧ (∀ x ∈ t.transfers, x.iss.port = 2 → x.iss.core ≠ n)
      ∧ (t.port 2).staging = (s1.port 2).staging.filter (fun e => e.core ≠ n)
      ∧ t.cmm = { s1.cmm with gone := s1.cmm.gone ++ [(0x48 + n, s1.tick + 1)] })
  ∧ (∀ (s : State) (c kind : Nat) (r : Instr), (kind, r) ∈ [(2, Instr.watchdogExpiry c), (3, .coreFault c)] → s.coreLives c = true →
    let x := s.cores.getD c {}
    let recent := x.faults.filter (fun f => s.tick + 1 < f + 60000000000) ++ [s.tick + 1]
    ∃ t : State, exec r s = .next t ∧ t.cores.getD c {} = { faults := recent, latched := decide (3 ≤ recent.length) }
      ∧ t.obj (Obj.coreState c) = (if 3 ≤ recent.length then 3 else s.bootState) ∧ t.obj (Obj.coreLastReset c) = kind
      ∧ Counted s t (Obj.coreResets c) 1 ∧ t.lock.holder ≠ some c ∧ (∀ m, m ≠ c → t.cores.getD m {} = s.cores.getD m {})
      ∧ t.cmm = { s.cmm with gone := s.cmm.gone ++ [(0x48 + c, s.tick + 1)] })
  ∧ (∀ (s : State) (u h at_ i : Nat) (l : Lease), (h, at_) ∈ s.cmm.gone → at_ < u → i < 65536 →
    (s.revokeGone u).cmm.leases.find i = some l → l.holder ≠ h)
  ∧ (∀ (s : State) (c : Nat), c < coresOf s.otp.variant → s.obj (Obj.coreState c) = 1 → s.obj Obj.fwFwState = 2 →
    ∃ t : State, exec (.coreBooted c) s = .next t ∧ t.obj (Obj.coreState c) = 2
      ∧ ∀ k, k ≠ Obj.coreState c → reportKey k = false → (∀ sv e, 1 ≤ sv → sv ≤ 4 → e < (serviceBase sv).1 → k ≠ serviceState sv e) →
        t.obj k = s.obj k)

/-- FW_RESTART, FW_CHECK_END, FLASH_IMAGE, FLASH_CONFIG and FLASH_PROGRAMMED (R602, R603, R609, R620 to R622). A start resets every core and has
SC0 read and check the slots. All cores run the valid image of higher rank, slot A on a tie; with none they stay OFF; a core held in FAULT stays there. A
valid image goes into the slot not in use, a valid configuration block over the copy of lower generation, and the command waits until the flash
holds it; an image that fails is refused, its step in FW_REJECT. SC0 applies a block one command at a time, waiting for each response and for training:
it commits what it has staged before the entry of an object that is not RWS and at the end, and then CONFIG_STATE says whether an entry failed.
The model's readings here: assumptions 17 and 18. -/
def Obligations.FirmwareIsChosenAndFlashWritten : Prop :=
  (∀ (s s1 : State) (c : WriteCmd) (a : Accepted), Writes s c Obj.fwFwRestart 1 s1 a → c.value = 1 →
    if bit (s1.obj Obj.devStraps) 1 = true then
      ∃ t : State, Lands s1 (exec (.fwRestart c) s) (t.ended a (okOut Obj.fwFwRestart (.num 1))) ∧ t.obj Obj.fwFwState = 1
        ∧ t.flash = { s1.flash with checking := true, applying := none } ∧ t.hoop.getD 2 [] = [] ∧ Counted s1 t (Obj.hoopCntFlushes 2) 1
        ∧ t.out = s1.out ++ (below 4).map flashRead
        ∧ ∀ n, n < coresOf s1.otp.variant → t.obj (Obj.coreState n) = (if (s1.cores.getD n {}).latched = true then 3 else 1)
          ∧ t.obj (Obj.coreLastReset n) = 4 ∧ Counted s1 t (Obj.coreResets n) 1
    else Lands s1 (exec (.fwRestart c) s) (s1.ended a (okOut Obj.fwFwRestart (.num 1))))
  ∧ (∀ (s : State) (x y g h : Bytes), s.flash.checking = true →
    let okX := s.fwCheck x = 0
    let okY := s.fwCheck y = 0
    ∃ t : State, exec (.fwCheckEnd x y g h) s = .next t ∧ t.flash.checking = false
      ∧ t.flash.gen0 = (if s.blockOk g = true then some (fieldAt g 24 4) else none)
      ∧ t.flash.gen1 = (if s.blockOk h = true then some (fieldAt h 24 4) else none)
      ∧ t.obj Obj.fwFwState = (if okX ∨ okY then 2 else 3)
      ∧ t.obj Obj.fwFwSlot = (if okX ∧ (¬okY ∨ fwRank y ≤ fwRank x) then 0 else if okY then 1 else 255)
      ∧ t.obj Obj.fwFwVersion = (if okX ∧ (¬okY ∨ fwRank y ≤ fwRank x) then fieldAt x 20 4 else if okY then fieldAt y 20 4 else 0)
      ∧ ∀ n, n < coresOf s.otp.variant → t.obj (Obj.coreState n)
          = (if (s.cores.getD n {}).latched = true then s.obj (Obj.coreState n) else if okX ∨ okY then 2 else 0))
  ∧ (∀ (s s1 : State) (c : BytesCmd) (a : Accepted), WritesLong s c Obj.fwFlashImage s1 a → c.value ≠ [] → c.value.length ≤ 10485760 →
    bit (s1.obj Obj.devStraps) 1 = true → s1.flash.writing = none →
    let step := s1.fwCheck c.value
    let slot := if s1.obj Obj.fwFwSlot = 0 then 1 else 0
    if step = 0 ∧ c.value.length = 32 + fieldAt c.value 24 4 + fieldAt c.value 28 4 + 96 then
      ∃ t : State, Lands s1 (exec (.flashImage c) s) (t.ended a (okOut Obj.fwFlashImage (.byt c.value)) (some .flash))
        ∧ t = { s1 with out := s1.out ++ flashWrite slot c.value, flash := { s1.flash with writing := some (slot, 0) } }
    else
      ∃ t : State, Lands s1 (exec (.flashImage c) s) (s1.endedOr c.flags a ((rejOut Obj.fwFlashImage).fill (.byt c.value)) t)
        ∧ t = { s1 with dict := t.dict } ∧ t.obj Obj.fwFwReject = (if step = 0 then 1 else step) ∧ SameObjs s1 t [Obj.fwFwReject])
  ∧ (∀ (s s1 : State) (c : BytesCmd) (a : Accepted), WritesLong s c Obj.fwFlashConfig s1 a → c.value ≠ [] → c.value.length ≤ 65536 →
    bit (s1.obj Obj.devStraps) 1 = true → s1.flash.writing = none →
    let copy := match s1.flash.gen0, s1.flash.gen1 with
      | some x, some y => if y < x then 3 else 2
      | some _, none => 3
      | none, _ => 2
    if s1.blockOk c.value = true then
      ∃ t : State, Lands s1 (exec (.flashConfig c) s) (t.ended a (okOut Obj.fwFlashConfig (.byt c.value)) (some .flash))
        ∧ t = { s1 with out := s1.out ++ flashWrite copy c.value, flash := { s1.flash with writing := some (copy, fieldAt c.value 24 4) } }
    else Lands s1 (exec (.flashConfig c) s) (s1.endedOr c.flags a ((rejOut Obj.fwFlashConfig).fill (.byt c.value)) s1))
  ∧ (∀ (s : State) (n gen : Nat) (l : Landing), s.flash.writing = some (n, gen) →
    s.deferred.find? (fun e => e.1 == Wait.flash) = some (.flash, l) →
    ∃ t : State, exec .flashProgrammed s = .next (t.finish l s.tick) ∧ t = { s with deferred := s.deferred.erase (.flash, l), flash := t.flash }
      ∧ t.flash = { s.flash with writing := none, gen0 := if n = 2 then some gen else s.flash.gen0, gen1 := if n = 3 then some gen else s.flash.gen1 })
  ∧ (∀ (s : State) (r : ConfigRun), s.flash.applying = some r → s.booted = true → s.obj (Obj.coreState 0) = 2 →
    let going (r : Option ConfigRun) : State := { s with flash := { s.flash with applying := r } }
    if s.coreWaits 0 = true ∨ s.obj Obj.cmmMemState = 1 then s.configTick = s
    else (r.left = [] → s.configTick = (if r.ended = true then (going none).setObj Obj.fwConfigState (if r.bad = true then 2 else 1)
        else (going (some { r with ended := true })).ownCommit 0))
      ∧ ∀ e l, r.left = e :: l → isStaged e.1 = false → s.configTick = (if r.staged = true then (going (some { r with staged := false })).ownCommit 0
        else (going (some { r with left := l, bad := r.bad || decide (240 < (writeEntry e.1 e.2).length) })).ownWrites 0 [e]))

/-! The services (R605, R611 to R619, R623). -/

/-- WATCH_POLL, FLOWHEALTH_SAMPLE, SIGNATURE_TAP and GOLDEN (R611 to R618). WATCH runs the first queue; once the live one has pinned a page the next
free queue takes over, or, with none, the oldest kept one is freed for it, or the entry is FULL once its capture has ended. FLOWHEALTH writes, at the end of a
scanner pass that began after its period, the records of the contexts that the pass has copied in order of FID and counts those that raise an alarm. SIGNATURE takes the oldest event of its tap: in SEQUENCE it must be the next
of the golden list, else one of it. A new list unlocks the sequence.
The model's readings here: assumption 19. -/
def Obligations.ServicesWatchSampleAndCompare : Prop :=
  (∀ (s : State) (e : Nat), e < 16 → s.running = true → s.serviceUp 1 = true → s.flash.applying = none →
    let live := s.obj (Obj.watchLiveQ e)
    let next := (s.watchOrder e).find? s.queueFree
    (s.obj (Obj.watchEnable e) = 0 → live ≠ 0xFFFF → s.capturing live = false →
      ∃ t : State, exec (.watchPoll e) s = .next t ∧ t = { s with dict := t.dict } ∧ t.obj (Obj.watchLiveQ e) = 0xFFFF
        ∧ SameObjs s t [Obj.watchLiveQ e])
    ∧ (s.obj (Obj.watchEnable e) ≠ 0 → s.obj (Obj.watchState e) = 1 →
      (live = 0xFFFF → exec (.watchPoll e) s = .next ((s.watchRun (s.obj (Obj.watchFirstQ e)) 1).setObj (Obj.watchLiveQ e) (s.obj (Obj.watchFirstQ e))))
      ∧ (live ≠ 0xFFFF → s.pinnedPages live = 0 → exec (.watchPoll e) s = .next s)
      ∧ (∀ q, live ≠ 0xFFFF → s.pinnedPages live ≠ 0 → next = some q →
        ∃ t : State, exec (.watchPoll e) s = .next t ∧ t.obj (Obj.watchLiveQ e) = q ∧ OnlyReported
          (((s.watchRun q 1).setObj (Obj.watchLiveQ e) q).bump (Obj.watchKept e) 1) t)
      ∧ (∀ q, live ≠ 0xFFFF → s.pinnedPages live ≠ 0 → next = none → s.obj (Obj.watchFullPolicy e) = 0 → s.oldestKept e = some q →
        ∃ t : State, exec (.watchPoll e) s = .next t ∧ t.obj (Obj.watchLiveQ e) = q ∧ OnlyReported
          ((((s.ownWrite (serviceCore s.otp.variant 1) (Obj.qFree q) [1]).watchRun q 1).setObj (Obj.watchLiveQ e) q).bump (Obj.watchKept e) 1) t)
      ∧ (live ≠ 0xFFFF → s.pinnedPages live ≠ 0 → next = none → s.obj (Obj.watchFullPolicy e) ≠ 0 → s.capturing live = false →
        ∃ t : State, exec (.watchPoll e) s = .next t ∧ t.obj (Obj.watchState e) = 3 ∧ t.obj (Obj.watchLiveQ e) = 0xFFFF
          ∧ OnlyReported { s with dict := (s.setObjs [(Obj.watchState e, 3), (Obj.watchLiveQ e, 0xFFFF)]).dict } t)))
  ∧ (∀ (s : State) (n : Nat), s.hasLane n = true → s.serviceUp 2 = true → s.obj (Obj.fhState n) = 1 →
    ∀ whole, (s.health.getD n {}).whole = some whole → (s.health.getD n {}).lastAt + 1000000 * s.obj (Obj.fhPeriodMs n) ≤ whole →
    let l := (s.health.getD n {}).copy
    let r (e : Nat × FlowCtx) := s.healthOf n e.1 e.2 (s.health.getD n {}).prev
    ∃ t : State, exec (.flowhealthSample n) s = .next t ∧ t.flows = s.flows
      ∧ t.dom (Obj.fhTable n) = (l.filter (fun e => e.1 % 8192 < 4096)).flatMap (fun e => (r e).1)
      ∧ t.dom (Obj.fhTableHi n) = (l.filter (fun e => 4096 ≤ e.1 % 8192)).flatMap (fun e => (r e).1)
      ∧ (∀ e ∈ l, ((r e).1).length = 32)
      ∧ t.health.getD n {} = { s.health.getD n {} with
          lastAt := whole, prev := l.map (fun e => (e.1, (e.2.packets, e.2.lost, e.2.reordered, e.2.late))) }
      ∧ (∀ m, m ≠ n → t.health.getD m {} = s.health.getD m {})
      ∧ (if l.any (fun e => (r e).2) = true then Counted s t (Obj.fhAlarms n) (l.countP (fun e => (r e).2))
        else t.obj (Obj.fhAlarms n) = s.obj (Obj.fhAlarms n)))
  ∧ (∀ (s : State) (e sig : Nat) (inc : Bool) (at_ : SubTime) (rest : List (Nat × Bool × SubTime)), e < 8 → s.serviceUp 3 = true →
    s.obj (Obj.sigState e) = 1 → (s.sigs.getD e {}).tap = (sig, inc, at_) :: rest →
    let g := s.dom (Obj.sigGolden e)
    let l := goldenList (g.length / 4) g
    let ok := if s.obj (Obj.sigMode e) = 0 then sig ∈ l else match (s.sigs.getD e {}).place with
      | none => sig ∈ l
      | some p => l[(p + 1) % l.length]? = some sig
    ∃ t : State, exec (.signatureTap e) s = .next t ∧ (t.sigs.getD e {}).tap = rest ∧ (∀ k, k ≠ e → t.sigs.getD k {} = s.sigs.getD k {})
      ∧ (inc = true → Counted s t (Obj.sigSkipped e) 1 ∧ SameObjs s t [Obj.sigSkipped e] ∧ (t.sigs.getD e {}).place = (s.sigs.getD e {}).place)
      ∧ (inc = false → ok → Counted s t (Obj.sigMatches e) 1 ∧ SameObjs s t [Obj.sigMatches e])
      ∧ (inc = false → ¬ok → Counted s t (Obj.sigMismatches e) 1 ∧ t.obj (Obj.sigLastMismatch e) = timeVal at_
        ∧ ∀ k, reportKey k = false → k ∉ [Obj.sigMismatches e, Obj.sigLastMismatch e] → t.obj k = s.obj k))
  ∧ (∀ (s s1 : State) (c : BytesCmd) (n : Nat) (a : Accepted), n < 8 → WritesLong s c (Obj.sigGolden n) s1 a → 4 ≤ c.value.length →
    c.value.length ≤ 4096 →
    if c.value.length % 4 = 0 then
      ∃ t : State, Lands s1 (exec (.golden c n) s) (t.ended a (okOut (Obj.sigGolden n) (.byt c.value))) ∧ t.dom (Obj.sigGolden n) = c.value
        ∧ t.sigs.getD n {} = { s1.sigs.getD n {} with place := none } ∧ (∀ k, k ≠ Obj.sigGolden n → t.dom k = s1.dom k)
        ∧ ∀ m, m ≠ n → t.sigs.getD m {} = s1.sigs.getD m {}
    else Lands s1 (exec (.golden c n) s) (s1.endedOr c.flags a ((rejOut (Obj.sigGolden n)).fill (.byt c.value)) s1))

/-- RESEND, STREAM_EXPORT and STREAM_SEND (R619). RESEND adds a capture to those still to send. With none in hand STREAM starts the export of the next
one, with a descriptor in an idle job slot, and awaits its answer; where it is not accepted, the entry is as it was before, to be tried again. A job
that has ended gives its output, and one that stopped for want of room is resumed. The bytes leave in datagrams under STREAM's header, one
after another in offset, no faster than the rate; a datagram without data ends the stream, and is counted.
The model's readings here: assumption 19. -/
def Obligations.StreamsAreExportedAndSent : Prop :=
  (∀ (s s1 : State) (c : WriteCmd) (n : Nat) (a : Accepted), n < 4 → Writes s c (Obj.streamResend n) c.value s1 a → c.value < 2 ^ 32 →
    ∃ t : State, Lands s1 (exec (.resend c n) s) (t.ended a (okOut (Obj.streamResend n) (.num c.value))) ∧ t = { s1 with streams := t.streams }
      ∧ t.streams.getD n {} = { s1.streams.getD n {} with todo := (s1.streams.getD n {}).todo ++ [c.value] }
      ∧ ∀ m, m ≠ n → t.streams.getD m {} = s1.streams.getD m {})
  ∧ (∀ (s : State) (e : Nat), e < 4 → s.running = true → s.serviceUp 4 = true → s.obj (Obj.streamState e) = 1 → (s.streams.getD e {}).ready = [] →
    (s.streams.getD e {}).ended = false → (s.streams.getD e {}).asked = none →
    let x := s.streams.getD e {}
    let q := s.obj (Obj.streamQueue e)
    let ends := s.obj (Obj.qState q) = 2 ∧ s.obj (Obj.qCapture q) ≠ x.seen
    let todo := if ends then x.todo ++ [s.obj (Obj.qCapture q)] else x.todo
    (x.cur = none → todo = [] → exec (.streamExport e) s = .next s)
    ∧ (∀ c rest, x.cur = none → todo = c :: rest →
      ∃ t : State, exec (.streamExport e) s = .next t ∧ (t.streams.getD e {}).seen = (if ends then s.obj (Obj.qCapture q) else x.seen)
        ∧ if (s.queue q).pages.any (fun p => p.capture = c) = true then
            if (below 16).any (fun i => (s.jobs.find i).isNone) = true then
              (t.streams.getD e {}).cur = some c ∧ (t.streams.getD e {}).todo = rest
                ∧ ∃ i tag, i < 16 ∧ s.jobs.find i = none ∧ (t.streams.getD e {}).job = some i ∧ (t.streams.getD e {}).asked = some (tag, none)
            else (t.streams.getD e {}).cur = none ∧ (t.streams.getD e {}).todo = c :: rest
          else t = { s with streams := t.streams } ∧ (∀ m, m ≠ e → t.streams.getD m {} = s.streams.getD m {}) ∧ (t.streams.getD e {}).cur = some c ∧ (t.streams.getD e {}).todo = rest
            ∧ (t.streams.getD e {}).ended = true)
    ∧ (∀ c i, x.cur = some c → x.job = some i → s.jobs.find i = none →
      let r := s.dom (Obj.jobJobResult i)
      fieldAt r 17 1 ≠ 1 →
      ∃ t : State, exec (.streamExport e) s = .next t ∧ t = { s with streams := t.streams } ∧ (∀ m, m ≠ e → t.streams.getD m {} = s.streams.getD m {})
        ∧ t.streams.getD e {} = { x with ready := s.shmBytes (262144 * e) (fieldAt r 20 4), job := none, ended := true })
    ∧ (∀ c i, x.cur = some c → x.job = some i → (s.jobs.find i).isSome = true → exec (.streamExport e) s = .next s))
  ∧ (∀ (s : State) (e tag : Nat) (before : Option Nat), e < 4 → s.running = true → s.serviceUp 4 = true →
    (s.streams.getD e {}).asked = some (tag, before) →
    let x := s.streams.getD e {}
    let core := serviceCore s.otp.variant 4
    (s.coreWaits core = true → exec (.streamExport e) s = .next s)
    ∧ (s.coreWaits core = false → exec (.streamExport e) s = exec (.streamExport e) (s.setStream e
        (if (s.ownAnswer core tag).any (fun st => decide (st ≤ stSuperseded)) = true then { x with asked := none }
         else match before with
          | some i => { x with asked := none, job := some i, ready := [] }
          | none => { x with asked := none, job := none, cur := none, todo := x.cur.toList ++ x.todo }))))
  ∧ (∀ (s : State) (e c : Nat) (h : Bytes) (y : NextHop), e < 4 → s.netUp = true → s.serviceUp 4 = true → s.obj (Obj.streamState e) = 1 →
    (s.streams.getD e {}).cur = some c → (s.streams.getD e {}).nextAt ≤ s.tick → s.nextHop (s.dom (Obj.streamDestAddr e)) = some h →
    s.hops.find? (fun z => z.addr = h) = some y → y.resolved = true → (s.streams.getD e {}).asked = none →
    let x := s.streams.getD e {}
    let dest := s.dom (Obj.streamDestAddr e)
    let q := s.obj (Obj.streamQueue e)
    let data := x.ready.take (if isV4 dest = true then 1440 else 1420)
    let gram := Output.datagram dest (s.obj (Obj.streamDestPort e)) (streamHeader e data.length q c x.sent ++ data)
    let at_ := s.tick + ceilDiv (8000 * (16 + data.length)) (s.obj (Obj.streamRateMbps e))
    (x.ready ≠ [] → ∃ t : State, exec (.streamSend e) s = .next t ∧ t = { s with streams := t.streams, out := s.out ++ [gram] }
      ∧ t.streams.getD e {} = { x with ready := x.ready.drop data.length, sent := x.sent + data.length, nextAt := at_ }
      ∧ 0 < data.length ∧ ∀ m, m ≠ e → t.streams.getD m {} = s.streams.getD m {})
    ∧ (x.ready = [] → x.ended = true → ∃ t : State, exec (.streamSend e) s = .next t ∧ s.out ++ [gram] <+: t.out ∧ Counted s t (Obj.streamSent e) 1
      ∧ t.streams.getD e {} = { todo := x.todo, seen := x.seen, nextAt := at_ } ∧ ∀ m, m ≠ e → t.streams.getD m {} = s.streams.getD m {}))

/-! The storage (R631 to R645). -/

/-- DARNER_BORROW, BORROW_END, MARCH_PRESERVE, MARCH_DESTROY, MARCH_RECOVER, MARCH_END, FUSE_REPAIRS and FUSE_PROGRAMMED (R633 to R645). The Darner
borrows the next instance in order, a row that needs repair first; each word of it is saved, corrected where one bit of it has changed, and 768 ticks
later the borrow ends, its row repaired by a spare row where it needs it, or the instance DEGRADED where none is free. A March request runs in the
states its mode allows and ends with what the March has found. Fusing is refused while a queue captures, and makes every pending repair permanent.
The code (R629, R630): a word with one changed bit is corrected, and one with two is not; the March C- finds a stuck cell (R631).
The model's readings here: assumptions 45 and 54. -/
def Obligations.SpareRowsRepairWhatTestsFind : Prop :=
  (∀ (s : State) (i : Nat), s.running = true → s.obj Obj.integDarnerEnable ≠ 0 → s.repair.borrow = none → s.repair.march = none →
    s.nextInst = some i → (∀ e ∈ s.repair.lastEnd, e.1 = i → e.2 + 100000 ≤ s.tick + 1) →
    ∃ t : State, exec (.darnerBorrow i ()) s = .next t ∧ t = { s with repair := { s.repair with borrow := t.repair.borrow, place := i } }
      ∧ t.repair.borrow = some { inst := i, row := s.nextRow i, start := s.tick + 1, saved := [] }
      ∧ ((∃ e ∈ s.repair.needs, e.1 = i) → (i, s.nextRow i) ∈ s.repair.needs)
      ∧ ((∀ e ∈ s.repair.needs, e.1 ≠ i) → s.nextRow i = s.obj (Obj.instNextRow i)))
  ∧ (∀ (s : State) (b : Borrow), s.repair.borrow = some b → b.inst < 232 → b.start + 768 ≤ s.tick + 1 →
    let need := (b.inst, b.row) ∈ s.repair.needs
    let used := s.obj (Obj.instSpareRowsUsed b.inst)
    ∃ t : State, exec .borrowEnd s = .next t ∧ t = { s with dict := t.dict, repair := t.repair } ∧ t.repair.borrow = none
      ∧ t.repair.flips = s.unborrowed.flips ∧ t.repair.lastEnd.find b.inst = some (b.start + 767) ∧ (∀ j, j ≠ b.inst → t.repair.lastEnd.find j = s.repair.lastEnd.find j)
      ∧ Counted s t (Obj.instCntBorrows b.inst) 1
      ∧ t.obj (Obj.instNextRow b.inst) = (if s.obj (Obj.instNextRow b.inst) = b.row then (b.row + 1) % instRows b.inst else s.obj (Obj.instNextRow b.inst))
      ∧ (¬need → t.repair.needs = s.repair.needs ∧ t.repair.soft = s.repair.soft
        ∧ SameObjs s t [Obj.instCntBorrows b.inst, Obj.instNextRow b.inst])
      ∧ (need → t.repair.needs = s.repair.needs.filter (· != (b.inst, b.row))
        ∧ SameObjs s t [Obj.instCntBorrows b.inst, Obj.instNextRow b.inst, Obj.instSpareRowsUsed b.inst,
            Obj.instState b.inst, Obj.integRepairsPending]
        ∧ (∀ sp, s.freeSpare b.inst = some sp → t.repair.soft = s.repair.soft ++ [(b.inst, b.row)]
          ∧ t.repair.spares = s.repair.spares ++ [(b.inst, b.row, sp)] ∧ t.rowPlace b.inst b.row = instRows b.inst + sp
          ∧ t.obj (Obj.instSpareRowsUsed b.inst) = used + 1
          ∧ Counted s t Obj.integRepairsPending 1 ∧ (s.obj (Obj.instState b.inst) = 0 → t.obj (Obj.instState b.inst) = 1))
        ∧ (s.freeSpare b.inst = none → t.repair.soft = s.repair.soft ∧ t.repair.spares = s.repair.spares
          ∧ t.obj (Obj.instSpareRowsUsed b.inst) = used ∧ t.obj (Obj.instState b.inst) = 2)))
  ∧ (∀ (s : State) (b : Borrow) (k : Nat), s.repair.borrow = some b → k < 64 →
    let x := s.repair.flips.getD (wordKey b.inst (64 * b.row + k)) 0
    (s.borrowTick (b.start + k)).repair.borrow = some { b with saved := b.saved.set k (match eccRead sramColumns x with
        | .good d => if d = 0 then 0 else x
        | .corrected d => if d = 0 then 0 else x
        | .bad => x) }
      ∧ (eccRead sramColumns x = .bad → (b.inst, b.row) ∈ (s.borrowTick (b.start + k)).repair.needs))
  ∧ (∀ d b : Nat, d < 2 ^ 64 → b < 72 → eccRead sramColumns (eccWord sramColumns d) = .good d
    ∧ eccRead sramColumns (eccWord sramColumns d ^^^ 2 ^ b) = .corrected d
    ∧ ∀ c, c < 72 → c ≠ b → eccRead sramColumns (eccWord sramColumns d ^^^ 2 ^ b ^^^ 2 ^ c) = .bad)
  ∧ (∀ (d : Defect) (x : Bool), d.fault = .stuck x → defectKey d ∈ marchRun [d] solid ∧ defectKey d ∈ marchRun [d] checkered)
  ∧ (∀ (s s1 : State) (c : WriteCmd) (a : Accepted) (mode : Nat) (k : Key) (r : Instr),
    (mode, k, r) ∈ [(1, Obj.integMarchPreserve, Instr.marchPreserve c), (2, Obj.integMarchDestroy, .marchDestroy c),
      (3, Obj.integMarchRecover, .marchRecover c)] →
    Writes s c k c.value s1 a → c.value < 232 ∨ c.value = 0xFFFF →
    let d := s1.obj Obj.devDevState
    let refused := s1.obj Obj.integMarchState = 1 ∨ (mode = 1 ∧ d = 5) ∨ (mode = 2 ∧ d ≠ 1) ∨ (mode = 3 ∧ d ≠ 5)
    let absent := c.value ≠ 0xFFFF ∧ instAbsent s1.otp.variant c.value = true
    (absent → Lands s1 (exec r s) (s1.endedOr c.flags a ((badOut k stNotPresent 0).fill (.num c.value)) s1))
    ∧ (¬absent → refused → Lands s1 (exec r s) (s1.endedOr c.flags a ((badOut k stBusy 0).fill (.num c.value)) s1))
    ∧ (¬absent → ¬refused → ∃ t : State, Lands s1 (exec r s) (t.ended a (okOut k (.num c.value)))
      ∧ t = { s1 with dict := t.dict, repair := { s1.repair with march := t.repair.march } } ∧ t.obj Obj.integMarchState = 1
      ∧ SameObjs s1 t [Obj.integMarchState] ∧ ∃ l, t.repair.march = some (mode, l)
        ∧ ∀ i, i ∈ l ↔ (c.value = i ∨ (c.value = 0xFFFF ∧ i < 232)) ∧ instAbsent s1.otp.variant i = false ∧ i ≠ 0xFFFF))
  ∧ (∀ (s : State) (mode : Nat) (insts : List Nat), s.repair.march = some (mode, insts) →
    ∃ t : State, exec (.marchEnd () ()) s = .next t ∧ t.repair.march = none ∧ t.obj Obj.integMarchState = 0 ∧ t.tick = s.tick
      ∧ ((∀ d ∈ s.otp.defects, d.inst ∉ insts) → (∀ e ∈ s.repair.needs, e.1 ∉ insts) → (∀ e ∈ s.repair.flips, e.1 / 131072 ∉ insts) →
        t.obj Obj.integMarchResult = 0)
      ∧ (mode = 1 → t = { s with dict := t.dict, repair := t.repair })
      ∧ ((∀ i ∈ insts, i < 232) → ∀ e ∈ s.repair.needs, e.1 ∈ insts → e ∈ t.repair.soft ∨ t.obj (Obj.instState e.1) = 2)
      ∧ (mode ≠ 1 → ∀ i ∈ insts, (64 ≤ i → i < 96 → ∀ e ∈ t.flows, e.1 / 8192 ≠ i - 64)
        ∧ (195 ≤ i → i < 211 → t.dom (Obj.slotImage (i - 195)) = []) ∧ (i = 178 → t.shm = []))
      ∧ (mode = 3 → s.obj Obj.devFaultInst ∈ insts → t.repair.recovered = true))
  ∧ (∀ (s s1 : State) (c : WriteCmd) (a : Accepted), Writes s c Obj.integFuseRepairs 1 s1 a → c.value = 1 →
    if s1.queueList.any s1.capturing = true then
      Lands s1 (exec (.fuseRepairs c) s) (s1.endedOr c.flags a ((badOut Obj.integFuseRepairs stBusy 0).fill (.num 1)) s1)
    else Lands s1 (exec (.fuseRepairs c) s) (s1.ended a (okOut Obj.integFuseRepairs (.num 1)) (some .fuses)))
  ∧ (∀ (s : State) (l : Landing), s.deferred.find? (fun e => e.1 == Wait.fuses) = some (.fuses, l) →
    ∃ t : State, exec .fuseProgrammed s = .next (t.finish l s.tick) ∧ t.otp = { s.otp with repairs := s.otp.repairs ++ s.repair.soft, columns := t.otp.columns }
      ∧ s.otp.columns <+: t.otp.columns
      ∧ (∀ i ∈ s.insts, s.obj (Obj.instSpareColumn i) ≠ 0xFF → ∃ e ∈ t.otp.columns, e.1 = i)
      ∧ t = { s with dict := t.dict, deferred := s.deferred.erase (.fuses, l), otp := t.otp, repair := { s.repair with soft := [] } }
      ∧ t.obj Obj.integRepairsPending = 0 ∧ SameObjs s t [Obj.integRepairsPending])

/-! Start-up, resets and FAULT (R656 to R676, R699, R715). -/

/-- RESET_WARM, RESET_CONTROL, RESET_DATA, RESET_MANAGEMENT and the resets they ask for (R671 to R673). A write of RESET asks for a reset 10,000 ticks
after its boundary; in FAULT a WARM reset whose cause persists is BUSY. A reset follows the changes that take effect at its boundary, which leave `b`:
a warm reset ends all but what R672 keeps, with memory kept; a control reset empties the ports, their transfers and their commits; a data reset stops
every capture and Bobbin and revokes every lease; a management reset starts the cores and ends the export jobs. Each but the warm one writes its START
entry.
The model's readings here: assumptions 41 and 42. -/
def Obligations.ResetsAreRequestedAndServed : Prop :=
  (∀ (s s1 : State) (c : WriteCmd) (a : Accepted) (kind : Nat) (r : Instr),
    (kind, r) ∈ [(1, Instr.resetWarm c), (2, .resetControl c), (3, .resetData c), (4, .resetManagement c)] → Writes s c Obj.devReset kind s1 a →
    let cause := s1.obj Obj.devFaultCause
    let persists := if cause = 1 then s1.repair.recovered = false else if cause = 2 then 880 < s1.int Obj.teleTj
      else s1.dev.railBad.any (fun x => decide (s1.tick + 1 < x + 10000000)) = true
    (s1.obj Obj.devDevState = 5 → kind = 1 → persists →
      Lands s1 (exec r s) (s1.endedOr c.flags a ((badOut Obj.devReset stBusy 0).fill (.num kind)) s1))
    ∧ (s1.obj Obj.devDevState ≠ 5 ∨ kind ≠ 1 ∨ ¬persists →
      Lands s1 (exec r s) (State.ended { s1 with dev := { s1.dev with resets := s1.dev.resets ++ [(s1.tick + 10001, kind)] } } a
        (okOut Obj.devReset (.num kind)))))
  ∧ (∀ s : State, s.resetDue 1 = true →
    let b := s.atBoundary
    ∃ t : State, exec .warmReset s = .next t ∧ t.tick = s.tick ∧ t.obj Obj.devDevState = 0 ∧ t.dev.resets = [] ∧ t.mem = b.mem ∧ t.otp = b.otp
      ∧ t.due = [] ∧ t.queues = [] ∧ t.jobs = [] ∧ t.transfers = [] ∧ t.sessions = [] ∧ t.deferred = [] ∧ t.flows = [] ∧ t.shm = [] ∧ t.cmm.leases = []
      ∧ t.cmm.free = (if b.obj Obj.cmmMemState = 2 ∧ b.obj Obj.cmmUsablePages ≠ 0 then [(0, b.obj Obj.cmmUsablePages)] else [])
      ∧ (∀ q, q < 4096 → t.obj (Obj.qState q) = 0 ∧ t.obj (Obj.qRun q) = 0)
      ∧ ∀ k, 0x1000 ≤ k / 256 → k / 256 < 0x1210 → reportKey k = false → t.obj k = b.obj k ∧ t.dom k = b.dom k)
  ∧ (∀ s : State, s.resetDue 1 = false → s.resetDue 2 = true →
    let b := s.atBoundary
    ∃ t : State, exec .controlReset s = .next t ∧ t.tick = s.tick ∧ t.obj Obj.devLastReset = 3 ∧ t.transfers = [] ∧ t.readBufs = [] ∧ t.landing = []
      ∧ t.cmm = b.cmm ∧ t.mem = b.mem
      ∧ (∀ p, p < 3 → t.hoop.getD p [] = [] ∧ (t.port p).staging = [] ∧ (t.port p).pend = [] ∧ (t.port p).lockedAt = (b.port p).lockedAt)
      ∧ (∀ n, n < 8 → b.obj (Obj.sessPort n) < 3 → t.obj (Obj.sessState n) = 0)
      ∧ t.dev.resets = b.dev.resets.filter (fun e => !(e.1 ≤ s.tick + 1 && e.2 == 2))
      ∧ t.jLatest.map (fun e => (e.tick, e.kind, e.data2, e.data)) = some (s.tick + 1, 5, 1, 3))
  ∧ (∀ s : State, s.resetDue 1 = false → s.resetDue 2 = false → s.resetDue 3 = true →
    let b := s.atBoundary
    ∃ t : State, exec .dataReset s = .next t ∧ t.tick = s.tick ∧ t.obj Obj.devLastReset = 4 ∧ t.flows = []
      ∧ (∀ q, q < 4096 → b.capturing q = true → t.obj (Obj.qState q) = 0 ∧ t.obj (Obj.qRun q) = 0)
      ∧ (∀ i, i < 65536 → t.cmm.leases.find i = none)
      ∧ (∀ n, n < 8 → t.obj (Obj.bbState n) = 0 ∧ t.obj (Obj.bbRun n) = 0 ∧ (t.bb n).fifo = [])
      ∧ (b.obj Obj.devDevState = 3 ∨ b.obj Obj.devDevState = 4 → t.obj Obj.devDevState = 3)
      ∧ t.dev.resets = b.dev.resets.filter (fun e => !(e.1 ≤ s.tick + 1 && e.2 == 3))
      ∧ t.jLatest.map (fun e => (e.tick, e.kind, e.data2, e.data)) = some (s.tick + 1, 5, 1, 4))
  ∧ (∀ s : State, s.resetDue 1 = false → s.resetDue 2 = false → s.resetDue 3 = false → s.resetDue 4 = true →
    let b := s.atBoundary
    let starts := bit (s.obj Obj.devStraps) 1 = true ∧ b.obj Obj.devDevState ≠ 5
    ∃ t : State, exec .managementReset s = .next t ∧ t.tick = s.tick ∧ t.obj Obj.devLastReset = 5 ∧ t.jobs = [] ∧ t.hoop.getD 2 [] = []
      ∧ (t.port 2).staging = [] ∧ (∀ x ∈ t.transfers, x.iss.port ≠ 2) ∧ (∀ e ∈ t.deflSlots, e.2.live = false)
      ∧ (∀ n, n < coresOf b.otp.variant → t.obj (Obj.coreState n)
          = (if ¬starts then 0 else if (b.cores.getD n {}).latched = true then 3 else 1))
      ∧ (starts → t.obj Obj.fwFwState = 1 ∧ t.flash.checking = true)
      ∧ t.dev.resets = b.dev.resets.filter (fun e => !(e.1 ≤ s.tick + 1 && e.2 == 4))
      ∧ t.jLatest.map (fun e => (e.tick, e.kind, e.data2, e.data)) = some (s.tick + 1, 5, 1, 5))

/-- POWER_ON_RESET, STANDBY_ENTRY, WARM_RESET_END, THERMAL_TRIP, SUPPLY_FAULT and FAULT_ENTRY (R39, R656 to R663, R667 to R669, R673, R699, R715).
Power-on reset leaves the fuses, and every object at its default but those that fuse load fills. When SYN-T has locked the ticks count, the START entry
is written and the engine is in STANDBY, or READY where memory is trained; a warm reset ends the same way. A trip and a rail out of its range are causes
of FAULT, which is entered after the changes that take effect at its boundary; in FAULT every lease is revoked, every core and Bobbin OFF, every
trigger output inactive, every export job ended.
The model's readings here: assumptions 4, 5, 40 and 43. -/
def Obligations.StartUpAndFaultSetTheState : Prop :=
  (∀ (s : State) (straps : Nat),
    ∃ t : State, exec (.powerOnReset straps) s = .next t ∧ t.tick = 0 ∧ t.otp = s.otp ∧ t.mem = [] ∧ t.shm = [] ∧ t.journal = [] ∧ t.jPace = {} ∧ t.queues = []
      ∧ t.ports = [] ∧ t.time = {} ∧ t.obj Obj.devStraps = straps % 4 ∧ t.obj Obj.devDevState = 0 ∧ t.dom Obj.secOwnerKey = s.otp.ownerKey
      ∧ t.obj Obj.secPolicyFloor = s.otp.policyFloor ∧ t.obj Obj.secFwSecMin = s.otp.secMin
      ∧ ∀ k, k ≠ Obj.devStraps → k ∉ s.otp.objects.map (·.1) →
        (∀ e ∈ s.otp.repairs, k ≠ Obj.instSpareRowsUsed e.1 ∧ k ≠ Obj.instState e.1) →
        (∀ e ∈ s.otp.columns, k ≠ Obj.instSpareColumn e.1 ∧ k ≠ Obj.instState e.1) → t.obj k = dfltOf k)
  ∧ (∀ (s : State) (micros kind : Nat) (r : Instr) (at_ : Tick),
    (r = .standbyEntry micros () () ∧ kind = 1 ∧ at_ = s.tick ∧ s.time.counting = false ∧ s.obj Obj.refRefclkClass ≠ 0 ∧ s.time.refclk = true)
      ∨ (r = .warmResetEnd micros () () ∧ kind = 2 ∧ at_ = s.tick + 1 ∧ s.time.counting = true) →
    s.obj Obj.devDevState = 0 →
    ∃ t : State, exec r s = .next t ∧ t.tick = s.tick ∧ t.time.counting = true ∧ t.obj Obj.devLastReset = kind
      ∧ t.obj Obj.devBootTime = min micros 0xFFFFFFFF ∧ (kind = 1 → t.obj Obj.synTLocked = 1)
      ∧ (s.dev.causes = [] → t.obj Obj.devDevState = (if s.memTrained = true then 3 else 1)
        ∧ t.jLatest = some ⟨s.jNextEno, s.obj Obj.jnlLastJseq, at_, 5, 0, 1, kind⟩)
      ∧ (s.dev.causes ≠ [] → t.obj Obj.devDevState = 5))
  ∧ (∀ (s : State) (tj : Int), 936 ≤ tj →
    ∃ t : State, exec (.thermalTrip tj) s = .next t ∧ t = { s with dict := t.dict, dev := t.dev } ∧ t.dev.causes = s.dev.causes ++ [(2, 0xFFFF)]
      ∧ t.dev.cold = (s.dev.cold || !s.booted) ∧ t.dev.resets = s.dev.resets ∧ t.dev.railBad = s.dev.railBad
      ∧ t.int Obj.teleTj = min tj 32767 ∧ t.int Obj.teleTjPeak = max (min tj 32767) (s.int Obj.teleTjPeak)
      ∧ SameObjs s t [Obj.teleTj, Obj.teleTjPeak])
  ∧ (∀ (s : State) (k : Nat), k < 5 → s.time.counting = true →
    ∃ t : State, exec (.supplyFault k) s = .next t
      ∧ t = { s with dict := t.dict, dev := { s.dev with causes := s.dev.causes ++ [(3, 0xFFFF)], railBad := some s.tick } }
      ∧ t.obj Obj.teleSupplyFlags = s.obj Obj.teleSupplyFlags ||| 2 ^ k ∧ SameObjs s t [Obj.teleSupplyFlags])
  ∧ (∀ s : State, s.running = true → s.dev.causes ≠ [] → exec .faultEntry s = .next (s.atBoundary.enterFault (s.tick + 1)))
  ∧ (∀ (s : State) (u : Tick), s.dev.causes ≠ [] →
    let t := s.enterFault u
    t.tick = s.tick ∧ t.obj Obj.devDevState = 5 ∧ t.dev.causes = [] ∧ t.jobs = [] ∧ t.trigOut = []
      ∧ (∀ e ∈ s.dev.causes, t.obj Obj.devFaultCause ≤ e.1)
      ∧ ((∀ e ∈ s.dev.causes, e.1 ≤ 3) → ∃ e ∈ s.dev.causes, e.1 = t.obj Obj.devFaultCause)
      ∧ (∀ e, t.obj Obj.devFaultCause = 1 → s.dev.causes.find? (fun e => e.1 = 1) = some e → t.obj Obj.devFaultInst = e.2)
      ∧ (∀ b, b < 8 → t.obj (Obj.bbState b) = 0 ∧ t.obj (Obj.trigOutLevel b) = 0) ∧ (∀ i, i < 65536 → t.cmm.leases.find i = none)
      ∧ ∀ n, n < coresOf s.otp.variant → t.obj (Obj.coreState n) = 0)

/-! The tick and the machine as a whole (R14, R16, R39, R371, R505, R538, R556, R559, R560, R645). -/

/-- TICK (R14, R39, R505, R560, R716). Before SYN-T has locked no tick is counted, and only the synthesisers' modulators and the fence's count go on;
what comes into the memories' cells comes whether ticks are counted or not. Else the open tick ends, what waits for the boundary takes effect (R22), the
count is one more, the commands whose effects took place at the boundary end, each with a response unless another event is to end it, and a reading of the junction temperature stands in TJ. No more than 16 journal
entries are written in a tick; those beyond wait in their order, and the next tick opens with the first 16 of them.
The model's readings here: assumption 2. -/
def Obligations.TickCountsAndEndsTheCommandsOfItsBoundary : Prop :=
  (∀ (s : State) (inp : TickInput), s.time.counting = false →
    ∃ t : State, exec (.tick inp) s = .next t ∧ t = { s with
        dict := t.dict, syn := t.syn, otp := t.otp, hoopFlips := s.hoopFlips ++ inp.hoopFlips, mem := t.mem, memBad := t.memBad, free := t.free }
      ∧ (s.obj Obj.cmmMemState ≠ 2 → t.mem = s.mem ∧ t.memBad = s.memBad ∧ t.free = s.free)
      ∧ t.otp = { s.otp with defects := s.otp.defects ++ inp.defects } ∧ SameObjs s t [Obj.synTTickFenceCount]
      ∧ t.obj Obj.synTTickFenceCount = min (s.obj Obj.synTTickFenceCount + inp.fences) (maxOf Obj.synTTickFenceCount))
  ∧ (∀ (s : State) (inp : TickInput), s.time.counting = true →
    let b := (s.clockInput inp).countCyc.closeTick.atBoundary
    ∃ t : State, exec (.tick inp) s = .next t ∧ t.tick = s.tick + 1 ∧ t.taken = [] ∧ s.out <+: t.out
      ∧ (∀ l ∈ b.landing, l.waits = none → l.op ≠ 0 → l.iss.slot ≤ 15 → ∃ r, Output.response l.iss r ∈ t.out)
      ∧ ∀ v, inp.tj = some v → t.int Obj.teleTj = clampI (-32768) 32767 v)
  ∧ (∀ (s : State) (u : Tick), (s.openTick u).landing = [] ∧ (s.openTick u).tick = u
    ∧ ∀ l ∈ s.landing, ∀ w, l.waits = some w → (w, l) ∈ (s.openTick u).deferred)
  ∧ (∀ s : State, s.jTick.jPace = { count := min 16 s.jPace.wait.length, wait := s.jPace.wait.drop 16 }
    ∧ ∀ e ∈ s.jPace.wait.take 16, e ∈ s.jTick.journal)
  ∧ (∀ (s : State) (kind flags jseq : Nat) (t : Tick) (d2 d : Nat), s.jPace.count ≤ 16 →
    (s.jWrite kind flags jseq t d2 d).jPace.count ≤ 16 ∧ (s.jWrite kind flags jseq t d2 d).jLatest = some ⟨s.jNextEno, jseq, t, kind, flags, d2, d⟩)

/-- One step takes the command at the front of the queue and runs it with the queue's rest; with none waiting the block idles (assumption 1). -/
def Obligations.StepRunsTheFrontCommand : Prop :=
  (∀ (c : Instr) (r : List Instr) (s : State), s.pending = c :: r → step s = exec c { s with pending := r })
  ∧ (∀ s : State, s.pending = [] → step s = .next s)

/-- The machine right after reset (R39, R371, R560, R656, R659, R673): BOOT, tick 0 and no tick counted, every integer object at its default but the
band table, every byte string empty or at its default, no memory written, an empty journal, no command waiting, nothing sent. The values that the spec
does not give are those of assumptions 4, 5 and 6. -/
def Obligations.ResetIsBootWithEverythingAtItsDefault : Prop :=
  Inv State.reset ∧ State.reset.obj Obj.devDevState = 0 ∧ State.reset.tick = 0 ∧ State.reset.time.counting = false
    ∧ (∀ k, k / 256 ≠ 0x2210 → State.reset.obj k = dfltOf k) ∧ (∀ k, State.reset.dom k = domDflt k) ∧ State.reset.mem = []
    ∧ State.reset.journal = [] ∧ State.reset.jPace = {} ∧ State.reset.queues = [] ∧ State.reset.pending = [] ∧ State.reset.out = []

/-- Every step keeps the invariant of the memories (R371, R560, R600): capture memory, service memory and the dictionary stay in their canonical
forms, and the journal stays within its 65,536 entries. -/
def Obligations.StepKeepsTheMemoriesCanonical : Prop :=
  ∀ s t : State, Inv s → step s = .next t → Inv t

/-- Every command completes: its answer is a next state, never a stop, which has the queue as it was, takes back nothing of what has left the engine,
and keeps every fuse: the factory's, an owner key once there, the bits of POLICY_FLOOR, FW_SEC_MIN, every repair (R538, R556, R559, R645); no faulty cell
of the SRAM mends. Only TICK,
TICK_LOAD and POWER_ON_RESET set the tick count (R14, R36, R39). -/
def Obligations.EveryCommandCompletesAndKeepsTheFuses : Prop :=
  ∀ (c : Instr) (s : State), ∃ t : State, exec c s = .next t ∧ t.pending = s.pending ∧ s.out <+: t.out ∧ FusesKept s.otp t.otp
    ∧ ((∀ inp, c ≠ .tick inp) → c ≠ .tickLoad → (∀ straps, c ≠ .powerOnReset straps) → t.tick = s.tick)

/-- The packet that a sender writes for one object is read as its fields (R502, R504, R506): the OP, FLAGS, the number of entries, TAG, and one entry
with the object's key and the bytes of the value, which spell the value. -/
def Obligations.WritePacketsAreReadAsTheyAreWritten : Prop :=
  (∀ (c : WriteCmd) (k v port : Nat), k < 2 ^ 24 → Trailed c.flags c.trailer → port < 3 → (port = 2 → c.trailer = []) →
    ∃ (p : Pkt) (b : Bytes), parsePkt port (numPacket c k v) = some p ∧ p.op = opWrite ∧ p.flags = c.flags ∧ p.entries = 1 ∧ p.tag = c.tag % 2 ^ 32
      ∧ p.trailer = c.trailer ∧ p.raw = numPacket c k v ∧ writeEntries p.entries p.body = some [(k, b)]
      ∧ ∀ d, findObj k = some d → ofLe b = v % 2 ^ d.ty.width)
  ∧ (∀ (c : BytesCmd) (k port : Nat), k < 2 ^ 24 → Trailed c.flags c.trailer → port < 3 → (port = 2 → c.trailer = []) → c.value.length ≤ 200 →
    ∃ p : Pkt, parsePkt port (bytPacket c k) = some p ∧ p.op = opWrite ∧ p.flags = c.flags ∧ p.entries = 1 ∧ p.tag = c.tag % 2 ^ 32
      ∧ p.trailer = c.trailer ∧ writeEntries p.entries p.body = some [(k, c.value)])
end

