-- ==== Sys2Proof/Laws/Tab.lean ====
section
/-! SUPPORT. The laws of sparse tables: reading after giving a key a value, and the canonical order of keys. -/

namespace Sys2Proof.Machine

variable {α : Type}

@[simp] theorem Tab.find_nil (i : Nat) : Tab.find ([] : Tab α) i = none := rfl

theorem Tab.find_cons (k : Nat) (v : α) (t : Tab α) (i : Nat) :
    Tab.find ((k, v) :: t) i = if k = i then some v else Tab.find t i := rfl

/-- A deleted key is not listed. -/
@[simp] theorem Tab.find_del_self (t : Tab α) (i : Nat) : (t.del i).find i = none := by
  induction t with
  | nil => rfl
  | cons e t ih => by_cases h : e.1 = i <;> simp [Tab.del, Tab.find, h, ih]

/-- Deleting a key leaves the others. -/
theorem Tab.find_del_ne (t : Tab α) {i j : Nat} (h : j ≠ i) : (t.del i).find j = t.find j := by
  induction t with
  | nil => rfl
  | cons e t ih =>
    by_cases hi : e.1 = i
    · have : e.1 ≠ j := by omega
      simp [Tab.del, Tab.find, hi, ih]; omega
    · simp [Tab.del, Tab.find, hi, ih]

/-- A key put into a table that does not list it reads as what was put. -/
theorem Tab.find_ins_self (t : Tab α) (i : Nat) (x : α) (h : t.find i = none) : (t.ins i x).find i = some x := by
  induction t with
  | nil => simp [Tab.ins, Tab.find]
  | cons e t ih =>
    have hne : e.1 ≠ i := by intro he; simp [Tab.find, he] at h
    have ht : Tab.find t i = none := by simpa [Tab.find, hne] using h
    by_cases hlt : i < e.1 <;> simp [Tab.ins, Tab.find, hlt, hne, ih ht]

theorem Tab.find_ins_ne (t : Tab α) {i j : Nat} (x : α) (h : j ≠ i) : (t.ins i x).find j = t.find j := by
  induction t with
  | nil => simp [Tab.ins, Tab.find, Ne.symm h]
  | cons e t ih => by_cases hlt : i < e.1 <;> simp [Tab.ins, Tab.find, hlt, ih, Ne.symm h]

@[simp] theorem Tab.find_set_self (t : Tab α) (i : Nat) (x : α) : (t.set i x).find i = some x :=
  Tab.find_ins_self _ _ _ (Tab.find_del_self t i)

theorem Tab.find_set_ne (t : Tab α) {i j : Nat} (x : α) (h : j ≠ i) : (t.set i x).find j = t.find j := by
  rw [Tab.set, Tab.find_ins_ne _ _ h, Tab.find_del_ne _ h]

/-- Reading a key after putting a value gives the value. -/
@[simp] theorem Tab.getD_put_self [DecidableEq α] (t : Tab α) (i : Nat) (d x : α) : (t.put i d x).getD i d = x := by
  by_cases h : x = d <;> simp [Tab.put, Tab.getD, h]

/-- Putting a value leaves every other key. -/
theorem Tab.getD_put_ne [DecidableEq α] (t : Tab α) {i j : Nat} (d d' x : α) (h : j ≠ i) : (t.put i d x).getD j d' = t.getD j d' := by
  by_cases hx : x = d <;> simp [Tab.put, Tab.getD, hx, Tab.find_del_ne, Tab.find_set_ne, h]

theorem Tab.getD_put [DecidableEq α] (t : Tab α) (i j : Nat) (d x : α) : (t.put i d x).getD j d = if j = i then x else t.getD j d := by
  by_cases h : j = i
  · subst h; simp
  · simp [h, Tab.getD_put_ne]

/-! The canonical form. -/

theorem Tab.sorted_iff (t : Tab α) : Tab.sorted t = true ↔ t.Pairwise (fun a b => a.1 < b.1) := by
  induction t with
  | nil => simp [Tab.sorted]
  | cons a t ih =>
    cases t with
    | nil => simp [Tab.sorted]
    | cons b t =>
      have hs : Tab.sorted (a :: b :: t) = (decide (a.1 < b.1) && Tab.sorted (b :: t)) := rfl
      rw [hs, Bool.and_eq_true, ih]
      simp only [List.pairwise_cons, decide_eq_true_eq, List.mem_cons, forall_eq_or_imp]
      constructor
      · rintro ⟨h, hb, ht⟩
        exact ⟨⟨h, fun c hc => Nat.lt_trans h (hb c hc)⟩, hb, ht⟩
      · rintro ⟨⟨h, -⟩, hb, ht⟩
        exact ⟨h, hb, ht⟩

theorem Tab.del_sublist (t : Tab α) (i : Nat) : (t.del i).Sublist t := by
  induction t with
  | nil => exact .slnil
  | cons e t ih =>
    by_cases h : e.1 = i
    · simpa [Tab.del, h] using ih.cons e
    · simpa [Tab.del, h] using ih.cons_cons e

theorem Tab.mem_del {t : Tab α} {i : Nat} {e : Nat × α} (h : e ∈ t.del i) : e ∈ t ∧ e.1 ≠ i := by
  induction t with
  | nil => simp [Tab.del] at h
  | cons x t ih =>
    by_cases hx : x.1 = i
    · simp only [Tab.del, hx, if_true] at h
      exact ⟨List.mem_cons_of_mem _ (ih h).1, (ih h).2⟩
    · have h' : e = x ∨ e ∈ Tab.del t i := by simpa [Tab.del, hx] using h
      rcases h' with rfl | h'
      · exact ⟨List.mem_cons_self, hx⟩
      · exact ⟨List.mem_cons_of_mem _ (ih h').1, (ih h').2⟩

theorem Tab.mem_ins {t : Tab α} {i : Nat} {x : α} {e : Nat × α} (h : e ∈ t.ins i x) : e = (i, x) ∨ e ∈ t := by
  induction t with
  | nil => simpa [Tab.ins] using h
  | cons y t ih =>
    by_cases hi : i < y.1
    · simpa [Tab.ins, hi] using h
    · have h' : e = y ∨ e ∈ Tab.ins t i x := by simpa [Tab.ins, hi] using h
      rcases h' with rfl | h'
      · exact .inr List.mem_cons_self
      · exact (ih h').imp_right (List.mem_cons_of_mem _)

theorem Tab.pairwise_ins {t : Tab α} {i : Nat} (x : α) (hne : ∀ e ∈ t, e.1 ≠ i) (h : t.Pairwise (fun a b => a.1 < b.1)) :
    (t.ins i x).Pairwise (fun a b => a.1 < b.1) := by
  induction t with
  | nil => simp [Tab.ins]
  | cons y t ih =>
    obtain ⟨hy, ht⟩ := List.pairwise_cons.mp h
    by_cases hi : i < y.1
    · rw [show Tab.ins (y :: t) i x = (i, x) :: y :: t by simp [Tab.ins, hi]]
      refine List.pairwise_cons.mpr ⟨fun c hc => ?_, h⟩
      rcases List.mem_cons.mp hc with rfl | hc
      · exact hi
      · exact Nat.lt_trans hi (hy c hc)
    · rw [show Tab.ins (y :: t) i x = y :: Tab.ins t i x by simp [Tab.ins, hi], List.pairwise_cons]
      refine ⟨fun c hc => ?_, ih (fun e he => hne e (List.mem_cons_of_mem _ he)) ht⟩
      rcases Tab.mem_ins hc with rfl | hc
      · have := hne y List.mem_cons_self
        show y.1 < i
        omega
      · exact hy c hc

theorem Tab.sorted_del {t : Tab α} (i : Nat) (h : Tab.sorted t = true) : Tab.sorted (t.del i) = true :=
  (Tab.sorted_iff _).mpr (((Tab.sorted_iff _).mp h).sublist (Tab.del_sublist t i))

theorem Tab.sorted_set {t : Tab α} (i : Nat) (x : α) (h : Tab.sorted t = true) : Tab.sorted (t.set i x) = true :=
  (Tab.sorted_iff _).mpr (Tab.pairwise_ins x (fun _ he => (Tab.mem_del he).2) ((Tab.sorted_iff _).mp (Tab.sorted_del i h)))

theorem Tab.sorted_put [DecidableEq α] {t : Tab α} (i : Nat) (d x : α) (h : Tab.sorted t = true) : Tab.sorted (t.put i d x) = true := by
  by_cases hx : x = d
  · simpa [Tab.put, hx] using Tab.sorted_del i h
  · simpa [Tab.put, hx] using Tab.sorted_set i x h

theorem Tab.sorted_filter {t : Tab α} (p : Nat × α → Bool) (h : Tab.sorted t = true) : Tab.sorted (t.filter p) = true :=
  (Tab.sorted_iff _).mpr (((Tab.sorted_iff _).mp h).filter p)

/-- What a table lists after a put is the new pair, unless it is the rest value, or what it listed. -/
theorem Tab.mem_put [DecidableEq α] {t : Tab α} {i : Nat} {d x : α} {e : Nat × α} (h : e ∈ t.put i d x) :
    (e = (i, x) ∧ x ≠ d) ∨ e ∈ t := by
  by_cases hx : x = d
  · exact .inr (Tab.mem_del (by simpa [Tab.put, hx] using h)).1
  · have h' : e ∈ t.set i x := by simpa [Tab.put, hx] using h
    rcases Tab.mem_ins h' with rfl | h'
    · exact .inl ⟨rfl, hx⟩
    · exact .inr (Tab.mem_del h').1

end Sys2Proof.Machine
end

