-- ==== Sys2Proof/Laws/Keep.lean ====
section
/-! SUPPORT. What an operation keeps: the queue of commands, the tick counter, the fuses (which are only programmed), what has left the
engine (which only grows), and the canonical forms of the memories, the dictionary and the journal. -/

namespace Sys2Proof

open Sys2Proof.Machine

theorem FusesKept.refl (a : Otp) : FusesKept a a := ⟨rfl, .inr rfl, Nat.or_self _, Nat.le_refl _, List.prefix_refl _, List.prefix_refl _, List.prefix_refl _⟩

theorem FusesKept.trans {a b c : Otp} (h : FusesKept a b) (g : FusesKept b c) : FusesKept a c where
  factory := by rw [g.factory, h.factory]
  owner := by
    rcases h.owner with ha | ha
    · exact .inl ha
    · rcases g.owner with hb | hb
      · exact .inl (ha ▸ hb)
      · exact .inr (hb.trans ha)
  floor := by
    have h1 := h.floor; have h2 := g.floor
    calc c.policyFloor ||| a.policyFloor
        = (c.policyFloor ||| b.policyFloor) ||| a.policyFloor := by rw [h2]
      _ = c.policyFloor ||| (b.policyFloor ||| a.policyFloor) := Nat.or_assoc ..
      _ = c.policyFloor := by rw [h1, h2]
  sec := Nat.le_trans h.sec g.sec
  repairs := h.repairs.trans g.repairs
  columns := h.columns.trans g.columns
  defects := h.defects.trans g.defects

end Sys2Proof

namespace Sys2Proof.Machine

/-- The parts of the state that most operations leave, or change in one way only. -/
structure Heart where
  pending : List Instr
  tick : Nat
  otp : Otp
  out : List Output
  mem : List Host.Cell
  shm : List Host.Cell
  dict : Tab Nat
  journal : List JEntry

/-- The heart of a state. -/
def State.heart (s : State) : Heart := ⟨s.pending, s.tick, s.otp, s.out, s.mem, s.shm, s.dict, s.journal⟩

/-- What one heart keeps of another. -/
structure HeartKept (a b : Heart) : Prop where
  pending : b.pending = a.pending
  tick : b.tick = a.tick
  fuses : FusesKept a.otp b.otp
  out : a.out <+: b.out
  mem : Memory.wf a.mem → Memory.wf b.mem
  shm : Memory.wf a.shm → Memory.wf b.shm
  dict : Dict.wf a.dict → Dict.wf b.dict
  journal : a.journal.length ≤ 65536 → b.journal.length ≤ 65536

/-- What a state keeps of an earlier one. -/
def Kept (s t : State) : Prop := HeartKept s.heart t.heart

theorem HeartKept.refl (a : Heart) : HeartKept a a :=
  ⟨rfl, rfl, FusesKept.refl _, List.prefix_refl _, id, id, id, id⟩

theorem HeartKept.trans {a b c : Heart} (h : HeartKept a b) (g : HeartKept b c) : HeartKept a c :=
  ⟨g.pending.trans h.pending, g.tick.trans h.tick, h.fuses.trans g.fuses, h.out.trans g.out,
    g.mem ∘ h.mem, g.shm ∘ h.shm, g.dict ∘ h.dict, g.journal ∘ h.journal⟩

theorem Kept.refl (s : State) : Kept s s := HeartKept.refl _

theorem Kept.trans {s t u : State} (h : Kept s t) (g : Kept t u) : Kept s u := HeartKept.trans h g

/-- A record update that leaves the heart. -/
theorem Kept.same {s t : State} (u : State) (h : Kept s u) (e : t.heart = u.heart) : Kept s t := by
  unfold Kept; rw [e]; exact h

/-- A record update of other parts leaves the heart. -/
theorem Kept.upd {s : State} (u : State) (h : Kept s u) {landing ports readBufs transfers sessions draws mirror time casc syn queues cmm
    chans lgRr arrivals units cuOut rings bbs xs acts bbShown trigIn trigOut evLast evRead host hoop subQ lanes links decs eye ringClr
    flowLanes flows deferred jobs deflSlots jobOrder taken sgmii hops lock cores flash sigs streams health repair dev swept free doms parked hoopFlips
    coreDict coreDoms memBad jPace due} :
    Kept s { u with landing := landing, ports := ports, readBufs := readBufs, transfers := transfers, sessions := sessions, draws := draws, mirror := mirror, time := time, casc := casc, syn := syn, queues := queues, cmm := cmm, chans := chans, lgRr := lgRr, arrivals := arrivals, units := units, cuOut := cuOut, rings := rings, bbs := bbs, xs := xs, acts := acts, bbShown := bbShown, trigIn := trigIn, trigOut := trigOut, evLast := evLast, evRead := evRead, host := host, hoop := hoop, subQ := subQ, lanes := lanes, links := links, decs := decs, eye := eye, ringClr := ringClr, flowLanes := flowLanes, flows := flows, deferred := deferred, jobs := jobs, deflSlots := deflSlots, jobOrder := jobOrder, taken := taken, sgmii := sgmii, hops := hops, lock := lock, cores := cores, flash := flash, sigs := sigs, streams := streams, health := health, repair := repair, dev := dev, swept := swept, free := free, doms := doms, parked := parked, hoopFlips := hoopFlips, coreDict := coreDict, coreDoms := coreDoms, memBad := memBad, jPace := jPace, due := due } := h

/-- A record update that clears capture memory. -/
theorem Kept.cleared {s : State} (u : State) (h : Kept s u) (queues : Tab Queue) (cmm : Cmm) :
    Kept s { u with queues := queues, mem := [], memBad := [], cmm := cmm } :=
  HeartKept.trans h ⟨rfl, rfl, FusesKept.refl _, List.prefix_refl _, fun _ => ⟨rfl, fun _ hc => absurd hc List.not_mem_nil⟩, id, id, id⟩

/-- A record update that clears the service memory. -/
theorem Kept.shmClear {s : State} (u : State) (h : Kept s u) : Kept s { u with shm := [] } :=
  HeartKept.trans h ⟨rfl, rfl, FusesKept.refl _, List.prefix_refl _, id, fun _ => ⟨rfl, fun _ hc => absurd hc List.not_mem_nil⟩, id, id⟩

/-- A record update that changes journal entries in place. -/
theorem Kept.journalMap {s : State} (u : State) (h : Kept s u) (f : JEntry → JEntry) : Kept s { u with journal := u.journal.map f } :=
  HeartKept.trans h ⟨rfl, rfl, FusesKept.refl _, List.prefix_refl _, id, id, id, fun hl => by
    show (u.journal.map f).length ≤ 65536
    rw [List.length_map]; exact hl⟩

/-- Fuses programmed. -/
theorem Kept.fuses {s : State} (u : State) (h : Kept s u) (o : Otp) (ho : FusesKept u.otp o) : Kept s { u with otp := o } :=
  HeartKept.trans h ⟨rfl, rfl, ho, List.prefix_refl _, id, id, id, id⟩

theorem Kept.ite {s a b : State} {c : Prop} [Decidable c] (ha : c → Kept s a) (hb : ¬c → Kept s b) : Kept s (if c then a else b) := by
  split
  · exact ha ‹_›
  · exact hb ‹_›

theorem Kept.ite_fst {β : Type} {s : State} {a b : State × β} {c : Prop} [Decidable c] (ha : c → Kept s a.1) (hb : ¬c → Kept s b.1) :
    Kept s (if c then a else b).1 := by
  split
  · exact ha ‹_›
  · exact hb ‹_›

theorem Kept.foldl {α : Type} {s u : State} (f : State → α → State) (l : List α) (h : Kept s u)
    (hf : ∀ v x, Kept s v → Kept s (f v x)) : Kept s (l.foldl f u) := by
  induction l generalizing u with
  | nil => exact h
  | cons x l ih => exact ih (hf _ _ h)

/-- A fold whose accumulator carries the state first. -/
theorem Kept.foldl_fst {α β : Type} {s : State} (f : State × β → α → State × β) (l : List α) {u : State × β} (h : Kept s u.1)
    (hf : ∀ v x, Kept s v.1 → Kept s (f v x).1) : Kept s (l.foldl f u).1 := by
  induction l generalizing u with
  | nil => exact h
  | cons x l ih => exact ih (hf _ _ h)

theorem Kept.fst {β : Type} {s t : State} {b : β} {p : State × β} (e : p = (t, b)) (h : Kept s p.1) : Kept s t := by
  subst e; exact h

theorem Kept.snd {β : Type} {s t : State} {b : β} {p : β × State} (e : p = (b, t)) (h : Kept s p.2) : Kept s t := by
  subst e; exact h

/-- An answer keeps what its next state keeps. -/
def KeptAns (s : State) : Ans → Prop
  | .next t => Kept s t
  | _ => True

theorem KeptAns.next {s t : State} (h : Kept s t) : KeptAns s (.next t) := h

theorem KeptAns.ite {s : State} {a b : Ans} {c : Prop} [Decidable c] (ha : c → KeptAns s a) (hb : ¬c → KeptAns s b) :
    KeptAns s (if c then a else b) := by
  split
  · exact ha ‹_›
  · exact hb ‹_›

/-! The primitive operations. -/

variable {s0 : State}

theorem Memory.wf_put {m : List Host.Cell} (a : Nat) (b : Byte) (h : Memory.wf m) : Memory.wf (Tab.put m a 0 b) := by
  refine ⟨Tab.sorted_put a 0 b h.1, fun c hc => ?_⟩
  rcases Tab.mem_put hc with ⟨rfl, hb⟩ | hc
  · exact hb
  · exact h.2 c hc

theorem Memory.wf_filter {m : List Host.Cell} (p : Host.Cell → Bool) (h : Memory.wf m) : Memory.wf (m.filter p) :=
  ⟨Tab.sorted_filter p h.1, fun c hc => h.2 c (List.mem_filter.mp hc).1⟩

theorem Memory.wf_nil : Memory.wf [] := ⟨rfl, by simp⟩

theorem Dict.wf_put {d : Tab Nat} (k v : Nat) (h : Dict.wf d) : Dict.wf (d.put k (dfltOf k) v) := by
  refine ⟨Tab.sorted_put k _ v h.1, fun c hc => ?_⟩
  rcases Tab.mem_put hc with ⟨rfl, hb⟩ | hc
  · exact hb
  · exact h.2 c hc

theorem Dict.wf_filter {d : Tab Nat} (p : Nat × Nat → Bool) (h : Dict.wf d) : Dict.wf (d.filter p) :=
  ⟨Tab.sorted_filter p h.1, fun c hc => h.2 c (List.mem_filter.mp hc).1⟩

theorem Dict.wf_del {d : Tab Nat} (k : Nat) (h : Dict.wf d) : Dict.wf (d.del k) :=
  ⟨Tab.sorted_del k h.1, fun c hc => h.2 c (Tab.mem_del hc).1⟩

theorem State.setObj_kept {s : State} (h : Kept s0 s) (k v : Nat) : Kept s0 (s.setObj k v) :=
  h.trans ⟨rfl, rfl, FusesKept.refl _, List.prefix_refl _, id, id, Dict.wf_put k v, id⟩

theorem State.setDom_kept {s : State} (h : Kept s0 s) (k : Key) (v : Bytes) : Kept s0 (s.setDom k v) := h

theorem State.rest_kept {s : State} (h : Kept s0 s) (k : Key) : Kept s0 (s.rest k) :=
  h.trans ⟨rfl, rfl, FusesKept.refl _, List.prefix_refl _, id, id, Dict.wf_del k, id⟩

theorem State.restAll_kept {s : State} (h : Kept s0 s) (p : Key → Bool) : Kept s0 (s.restAll p) :=
  h.trans ⟨rfl, rfl, FusesKept.refl _, List.prefix_refl _, id, id, Dict.wf_filter _, id⟩

theorem State.emits_kept {s : State} (h : Kept s0 s) (l : List Output) : Kept s0 (s.emits l) :=
  HeartKept.trans h ⟨rfl, rfl, FusesKept.refl _, List.prefix_append _ _, id, id, id, id⟩

theorem State.emit_kept {s : State} (h : Kept s0 s) (o : Output) : Kept s0 (s.emit o) :=
  h.trans ⟨rfl, rfl, FusesKept.refl _, List.prefix_append _ _, id, id, id, id⟩

theorem State.setMem_kept {s : State} (h : Kept s0 s) (a : Nat) (b : Byte) : Kept s0 (s.setMem a b) :=
  h.trans ⟨rfl, rfl, FusesKept.refl _, List.prefix_refl _, Memory.wf_put a b, id, id, id⟩

theorem State.memClear_kept {s : State} (h : Kept s0 s) (lo n : Nat) : Kept s0 (s.memClear lo n) :=
  h.trans ⟨rfl, rfl, FusesKept.refl _, List.prefix_refl _, Memory.wf_filter _, id, id, id⟩

theorem State.setMemBytes_kept {s : State} (h : Kept s0 s) (a : Nat) (b : Bytes) : Kept s0 (s.setMemBytes a b) := by
  induction b generalizing s a with
  | nil => exact h
  | cons x b ih => exact ih (State.setMem_kept h a x) (a + 1)

theorem State.setShm_kept {s : State} (h : Kept s0 s) (a : Nat) (b : Bytes) : Kept s0 (s.setShm a b) := by
  induction b generalizing s a with
  | nil => exact h
  | cons x b ih =>
    refine ih (s := { s with shm := Tab.put s.shm a 0 x }) ?_ (a + 1)
    exact h.trans ⟨rfl, rfl, FusesKept.refl _, List.prefix_refl _, id, Memory.wf_put a x, id, id⟩

/-- A journal that is cut to its ring. -/
theorem Kept.journal {s : State} (h : Kept s0 s) (l : List JEntry) (hl : s.journal.length ≤ 65536 → l.length ≤ 65536) :
    Kept s0 { s with journal := l } :=
  h.trans ⟨rfl, rfl, FusesKept.refl _, List.prefix_refl _, id, id, id, hl⟩

end Sys2Proof.Machine
end

