-- ==== Sys2Proof/Laws/KeepOps.lean ====
section
/-! SUPPORT. What the operations of Machine/Ops.lean keep. -/

namespace Sys2Proof.Machine

theorem State.setInt_kept {s0 s : State} (h : Kept s0 s) (k : Key) (v : Int) :
    Kept s0 (State.setInt s k v) := by
  unfold State.setInt
  with_reducible repeat' first
    | assumption
    | apply State.setObj_kept
    | (refine Kept.fst (by assumption) ?_)
    | (refine Kept.snd (by assumption) ?_)
    | dsimp only
    | split

theorem State.bump_kept {s0 s : State} (h : Kept s0 s) (k : Key) (n : Nat) :
    Kept s0 (State.bump s k n) := by
  unfold State.bump
  with_reducible repeat' first
    | assumption
    | apply State.setObj_kept

theorem State.setObjs_kept {s0 s : State} (h : Kept s0 s) (l : List (Key × Nat)) :
    Kept s0 (State.setObjs s l) := by
  unfold State.setObjs
  with_reducible repeat' first
    | assumption
    | apply State.setObj_kept
    | (refine Kept.fst (by assumption) ?_)
    | (refine Kept.snd (by assumption) ?_)
    | (apply Kept.foldl <;> intros)

theorem State.fresh_kept {s0 s : State} (h : Kept s0 s) : Kept s0 s.fresh.2 := h

theorem State.await_kept {s0 s : State} (h : Kept s0 s) (d : Due) :
    Kept s0 (State.await s d) := by
  unfold State.await
  with_reducible repeat' first
    | assumption
    | (apply Kept.ite <;> intro)
    | (apply Kept.ite_fst <;> intro)
    | (refine Kept.fst (by assumption) ?_)
    | (refine Kept.snd (by assumption) ?_)
    | (apply Kept.foldl <;> intros)
    | (apply Kept.foldl_fst <;> intros)
    | dsimp only
    | split
    | apply Kept.upd

theorem State.postpone_kept {s0 s : State} (h : Kept s0 s) (p : Parked) :
    Kept s0 (State.postpone s p) := by
  unfold State.postpone
  with_reducible repeat' first
    | assumption
    | (apply Kept.ite <;> intro)
    | (apply Kept.ite_fst <;> intro)
    | (refine Kept.fst (by assumption) ?_)
    | (refine Kept.snd (by assumption) ?_)
    | (apply Kept.foldl <;> intros)
    | (apply Kept.foldl_fst <;> intros)
    | dsimp only
    | split
    | apply Kept.upd

theorem State.raise_kept {s0 s : State} (h : Kept s0 s) (v : Nat) :
    Kept s0 (State.raise s v) := by
  unfold State.raise
  with_reducible repeat' first
    | assumption
    | apply State.emit_kept
    | (apply Kept.ite <;> intro)
    | (refine Kept.fst (by assumption) ?_)
    | (refine Kept.snd (by assumption) ?_)
    | dsimp only
    | split
    | apply Kept.upd

theorem State.noteHost_kept {s0 s : State} (h : Kept s0 s) (n : Note) :
    Kept s0 (State.noteHost s n) := by
  unfold State.noteHost
  with_reducible repeat' first
    | assumption
    | apply State.bump_kept
    | apply State.emit_kept
    | apply State.raise_kept
    | (apply Kept.ite <;> intro)
    | (refine Kept.fst (by assumption) ?_)
    | (refine Kept.snd (by assumption) ?_)
    | dsimp only
    | split
    | apply Kept.upd

theorem State.noteSub_kept {s0 s : State} (h : Kept s0 s) (n : Note) (k : Nat) :
    Kept s0 (State.noteSub s n k) := by
  unfold State.noteSub
  with_reducible repeat' first
    | assumption
    | apply State.bump_kept
    | apply State.setObj_kept
    | (apply Kept.ite <;> intro)
    | (refine Kept.fst (by assumption) ?_)
    | (refine Kept.snd (by assumption) ?_)
    | dsimp only
    | split
    | apply Kept.upd

theorem State.notify_kept {s0 s : State} (h : Kept s0 s) (cls source detail : Nat) (t : Tick) :
    Kept s0 (State.notify s cls source detail t) := by
  unfold State.notify
  with_reducible repeat' first
    | assumption
    | apply State.noteHost_kept
    | apply State.noteSub_kept
    | (refine Kept.fst (by assumption) ?_)
    | (refine Kept.snd (by assumption) ?_)
    | (apply Kept.foldl <;> intros)

theorem State.jStore_kept {s0 s : State} (h : Kept s0 s) (e : JEntry) : Kept s0 (s.jStore e) := by
  unfold State.jStore
  refine State.bump_kept (State.setObj_kept (State.setObj_kept (Kept.upd _ (Kept.journal h ((e :: s.journal).take 65536) fun _ => ?_)) _ _) _ _) _ _
  simp

theorem State.jWrite_kept {s0 s : State} (h : Kept s0 s) (kind flags jseq : Nat) (t : Tick) (data2 data : Nat) :
    Kept s0 (s.jWrite kind flags jseq t data2 data) := by
  unfold State.jWrite
  exact Kept.ite (fun _ => State.jStore_kept h _) (fun _ => Kept.upd _ h)

theorem State.jTick_kept {s0 s : State} (h : Kept s0 s) : Kept s0 s.jTick := by
  unfold State.jTick
  exact Kept.foldl _ _ (Kept.upd _ h) (fun _ _ hv => State.jStore_kept hv _)

theorem State.jSystem_kept {s0 s : State} (h : Kept s0 s) (event detail : Nat) (t : Tick) :
    Kept s0 (State.jSystem s event detail t) := by
  unfold State.jSystem
  with_reducible repeat' first
    | assumption
    | apply State.jWrite_kept

theorem State.nextJseq_kept {s0 s : State} (h : Kept s0 s) : Kept s0 s.nextJseq.2 := State.setObj_kept h _ _

theorem State.setDev_kept {s0 s : State} (h : Kept s0 s) (d : Nat) (t : Tick) :
    Kept s0 (State.setDev s d t) := by
  unfold State.setDev
  with_reducible repeat' first
    | assumption
    | apply State.notify_kept
    | apply State.setObj_kept
    | (apply Kept.ite <;> intro)

end Sys2Proof.Machine
end

