-- ==== Sys2Proof/Laws/KeepCmm.lean ====
section
/-! SUPPORT. What the operations of Machine/Cmm.lean keep. -/

namespace Sys2Proof.Machine

theorem State.setQueue_kept {s0 s : State} (h : Kept s0 s) (q : Nat) (x : Queue) :
    Kept s0 (State.setQueue s q x) := by
  unfold State.setQueue
  with_reducible repeat' first
    | assumption
    | (refine Kept.fst (by assumption) ?_)
    | (refine Kept.snd (by assumption) ?_)
    | dsimp only
    | split
    | apply Kept.upd

theorem State.notePeak_kept {s0 s : State} (h : Kept s0 s) (q : Nat) :
    Kept s0 (State.notePeak s q) := by
  unfold State.notePeak
  with_reducible repeat' first
    | assumption
    | apply State.setObj_kept
    | (apply Kept.ite <;> intro)
    | (apply Kept.ite_fst <;> intro)
    | (refine Kept.fst (by assumption) ?_)
    | (refine Kept.snd (by assumption) ?_)
    | (apply Kept.foldl <;> intros)
    | (apply Kept.foldl_fst <;> intros)
    | dsimp only
    | split
    | apply Kept.upd

theorem State.putGroup_kept {s0 s : State} (h : Kept s0 s) (q : Nat) (g : Group) (now : Tick) :
    Kept s0 (State.putGroup s q g now) := by
  unfold State.putGroup
  with_reducible repeat' first
    | assumption
    | apply State.bump_kept
    | apply State.notePeak_kept
    | apply State.setQueue_kept
    | (apply Kept.ite <;> intro)
    | (apply Kept.ite_fst <;> intro)
    | (refine Kept.fst (by assumption) ?_)
    | (refine Kept.snd (by assumption) ?_)
    | (apply Kept.foldl <;> intros)
    | (apply Kept.foldl_fst <;> intros)
    | dsimp only
    | split
    | apply Kept.upd

theorem State.closeLoss_kept {s0 s : State} (h : Kept s0 s) (q : Nat) (now : Tick) :
    Kept s0 (State.closeLoss s q now) := by
  unfold State.closeLoss
  with_reducible repeat' first
    | assumption
    | apply State.bump_kept
    | apply State.putGroup_kept
    | apply State.setQueue_kept
    | (apply Kept.ite <;> intro)
    | (refine Kept.fst (by assumption) ?_)
    | (refine Kept.snd (by assumption) ?_)
    | dsimp only
    | split

theorem State.stage_kept {s0 s : State} (h : Kept s0 s) (q : Nat) (g : Group) (now : Tick) :
    Kept s0 (State.stage s q g now) := by
  unfold State.stage
  with_reducible repeat' first
    | assumption
    | apply State.bump_kept
    | apply State.closeLoss_kept
    | apply State.putGroup_kept
    | apply State.setQueue_kept
    | (apply Kept.ite <;> intro)

theorem State.endBlock_kept {s0 s : State} (h : Kept s0 s) (q logical : Nat) (fails : List (Nat × Nat)) (now : Tick) :
    Kept s0 (State.endBlock s q logical fails now) := by
  unfold State.endBlock
  with_reducible repeat' first
    | assumption
    | apply State.bump_kept
    | apply State.fresh_kept
    | apply State.setQueue_kept
    | apply State.stage_kept
    | (apply Kept.ite <;> intro)
    | (apply Kept.ite_fst <;> intro)
    | (refine Kept.fst (by assumption) ?_)
    | (refine Kept.snd (by assumption) ?_)
    | (apply Kept.foldl <;> intros)
    | (apply Kept.foldl_fst <;> intros)
    | dsimp only
    | split
    | apply Kept.upd

theorem State.finishBlock_kept {s0 s : State} (h : Kept s0 s) (q logical : Nat) (fails : List (Nat × Nat)) (now : Tick) :
    Kept s0 (State.finishBlock s q logical fails now) := by
  unfold State.finishBlock
  with_reducible repeat' first
    | assumption
    | apply State.endBlock_kept
    | (apply Kept.ite <;> intro)
    | (apply Kept.ite_fst <;> intro)
    | (refine Kept.fst (by assumption) ?_)
    | (refine Kept.snd (by assumption) ?_)
    | (apply Kept.foldl <;> intros)
    | (apply Kept.foldl_fst <;> intros)
    | dsimp only
    | split
    | apply Kept.upd

theorem State.finishEdges_kept {s0 s : State} (h : Kept s0 s) (q : Nat) (now : Tick) :
    Kept s0 (State.finishEdges s q now) := by
  unfold State.finishEdges
  with_reducible repeat' first
    | assumption
    | apply State.setQueue_kept
    | apply State.stage_kept
    | (refine Kept.fst (by assumption) ?_)
    | (refine Kept.snd (by assumption) ?_)
    | dsimp only
    | split

theorem State.finishAll_kept {s0 s : State} (h : Kept s0 s) (q : Nat) (fails : List (Nat × Nat)) (now : Tick) :
    Kept s0 (State.finishAll s q fails now) := by
  unfold State.finishAll
  with_reducible repeat' first
    | assumption
    | apply State.finishBlock_kept
    | apply State.finishEdges_kept
    | (refine Kept.fst (by assumption) ?_)
    | (refine Kept.snd (by assumption) ?_)
    | (apply Kept.foldl <;> intros)

theorem State.rearmLost_kept {s0 s : State} (h : Kept s0 s) (q items : Nat) (first last now : Tick) :
    Kept s0 (State.rearmLost s q items first last now) := by
  unfold State.rearmLost
  with_reducible repeat' first
    | assumption
    | apply State.setQueue_kept
    | (apply Kept.ite <;> intro)
    | (apply Kept.ite_fst <;> intro)
    | (refine Kept.fst (by assumption) ?_)
    | (refine Kept.snd (by assumption) ?_)
    | (apply Kept.foldl <;> intros)
    | (apply Kept.foldl_fst <;> intros)
    | dsimp only
    | split
    | apply Kept.upd

theorem State.deliverGroup_kept {s0 s : State} (h : Kept s0 s) (q : Nat) (g : Group) (now : Tick) :
    Kept s0 (State.deliverGroup s q g now) := by
  unfold State.deliverGroup
  with_reducible repeat' first
    | assumption
    | apply State.finishAll_kept
    | apply State.rearmLost_kept
    | apply State.stage_kept
    | (apply Kept.ite <;> intro)
    | (apply Kept.ite_fst <;> intro)
    | (refine Kept.fst (by assumption) ?_)
    | (refine Kept.snd (by assumption) ?_)
    | (apply Kept.foldl <;> intros)
    | (apply Kept.foldl_fst <;> intros)
    | dsimp only
    | split
    | apply Kept.upd

theorem State.deliver_kept {s0 s : State} (h : Kept s0 s) (q : Nat) (recs : List Rec) (items : Nat) (first last : SubTime) (now : Tick) (tally : List (Key × Nat)) :
    Kept s0 (State.deliver s q recs items first last now tally) := by
  unfold State.deliver
  with_reducible repeat' first
    | assumption
    | apply State.deliverGroup_kept
    | apply State.setQueue_kept
    | (apply Kept.ite <;> intro)
    | (apply Kept.ite_fst <;> intro)
    | (refine Kept.fst (by assumption) ?_)
    | (refine Kept.snd (by assumption) ?_)
    | (apply Kept.foldl <;> intros)
    | (apply Kept.foldl_fst <;> intros)
    | dsimp only
    | split
    | apply Kept.upd

theorem State.control_kept {s0 s : State} (h : Kept s0 s) (q cls : Nat) (r : Rec) :
    Kept s0 (State.control s q cls r) := by
  unfold State.control
  with_reducible repeat' first
    | assumption
    | apply State.setQueue_kept

theorem State.controlNow_kept {s0 s : State} (h : Kept s0 s) (q : Nat) (r : Rec) (now : Tick) :
    Kept s0 (State.controlNow s q r now) := by
  unfold State.controlNow
  with_reducible repeat' first
    | assumption
    | apply State.finishAll_kept
    | apply State.stage_kept

theorem State.fullBlock_kept {s0 s : State} (h : Kept s0 s) (q logical : Nat) (fails : List (Nat × Nat)) (now : Tick) :
    Kept s0 (State.fullBlock s q logical fails now) := by
  unfold State.fullBlock
  with_reducible repeat' first
    | assumption
    | apply State.finishBlock_kept
    | (apply Kept.ite <;> intro)
    | (refine Kept.fst (by assumption) ?_)
    | (refine Kept.snd (by assumption) ?_)
    | dsimp only
    | split

theorem State.addWord_kept {s0 s : State} (h : Kept s0 s) (q logical w : Nat) (t : SubTime) (now : Tick) :
    Kept s0 (State.addWord s q logical w t now) := by
  unfold State.addWord
  with_reducible repeat' first
    | assumption
    | apply State.finishEdges_kept
    | apply State.fullBlock_kept
    | apply State.rearmLost_kept
    | apply State.setQueue_kept
    | (apply Kept.ite <;> intro)
    | (apply Kept.ite_fst <;> intro)
    | (refine Kept.fst (by assumption) ?_)
    | (refine Kept.snd (by assumption) ?_)
    | (apply Kept.foldl <;> intros)
    | (apply Kept.foldl_fst <;> intros)
    | dsimp only
    | split
    | apply Kept.upd

theorem State.addItem_kept {s0 s : State} (h : Kept s0 s) (q logical w : Nat) (t : SubTime) (fails : List (Nat × Nat)) (now : Tick) :
    Kept s0 (State.addItem s q logical w t fails now) := by
  unfold State.addItem
  with_reducible repeat' first
    | assumption
    | apply State.addWord_kept
    | apply State.fullBlock_kept

theorem State.fullBlocks_kept {s0 s : State} (h : Kept s0 s) (fails : List (Nat × Nat)) (now : Tick) :
    Kept s0 (State.fullBlocks s fails now) := by
  unfold State.fullBlocks
  with_reducible repeat' first
    | assumption
    | apply State.fullBlock_kept
    | (refine Kept.fst (by assumption) ?_)
    | (refine Kept.snd (by assumption) ?_)
    | (apply Kept.foldl <;> intros)

theorem State.addEdge_kept {s0 s : State} (h : Kept s0 s) (q chan : Nat) (lower level : Bool) (state : Nat) (t : SubTime) (now : Tick) :
    Kept s0 (State.addEdge s q chan lower level state t now) := by
  unfold State.addEdge
  with_reducible repeat' first
    | assumption
    | apply State.finishBlock_kept
    | apply State.finishEdges_kept
    | apply State.rearmLost_kept
    | apply State.setQueue_kept
    | (apply Kept.ite <;> intro)
    | (apply Kept.ite_fst <;> intro)
    | (refine Kept.fst (by assumption) ?_)
    | (refine Kept.snd (by assumption) ?_)
    | (apply Kept.foldl <;> intros)
    | (apply Kept.foldl_fst <;> intros)
    | dsimp only
    | split
    | apply Kept.upd

theorem State.openNow_kept {s0 s : State} (h : Kept s0 s) (q cls : Nat) (t : Tick) :
    Kept s0 (State.openNow s q cls t) := by
  unfold State.openNow
  with_reducible repeat' first
    | assumption
    | apply State.bump_kept
    | apply State.setQueue_kept
    | (apply Kept.ite <;> intro)
    | (apply Kept.ite_fst <;> intro)
    | (refine Kept.fst (by assumption) ?_)
    | (refine Kept.snd (by assumption) ?_)
    | (apply Kept.foldl <;> intros)
    | (apply Kept.foldl_fst <;> intros)
    | dsimp only
    | split
    | apply Kept.upd

theorem State.flushInbox_kept {s0 s : State} (h : Kept s0 s) (q : Nat) (t : Tick) :
    Kept s0 (State.flushInbox s q t) := by
  unfold State.flushInbox
  with_reducible repeat' first
    | assumption
    | apply State.deliverGroup_kept
    | apply State.finishAll_kept
    | apply State.fresh_kept
    | apply State.openNow_kept
    | apply State.rearmLost_kept
    | apply State.setQueue_kept
    | apply State.stage_kept
    | (apply Kept.ite <;> intro)
    | (apply Kept.ite_fst <;> intro)
    | (refine Kept.fst (by assumption) ?_)
    | (refine Kept.snd (by assumption) ?_)
    | (apply Kept.foldl <;> intros)
    | (apply Kept.foldl_fst <;> intros)
    | dsimp only
    | split
    | apply Kept.upd

theorem State.leaveCapture_kept {s0 s : State} (h : Kept s0 s) (q : Nat) (t : Tick) :
    Kept s0 (State.leaveCapture s q t) := by
  unfold State.leaveCapture
  with_reducible repeat' first
    | assumption
    | apply State.flushInbox_kept
    | apply State.setQueue_kept
    | (apply Kept.ite <;> intro)
    | (apply Kept.ite_fst <;> intro)
    | (refine Kept.fst (by assumption) ?_)
    | (refine Kept.snd (by assumption) ?_)
    | (apply Kept.foldl <;> intros)
    | (apply Kept.foldl_fst <;> intros)
    | dsimp only
    | split
    | apply Kept.upd

theorem State.startCapture_kept {s0 s : State} (h : Kept s0 s) (q : Nat) (t : Tick) :
    Kept s0 (State.startCapture s q t) := by
  unfold State.startCapture
  with_reducible repeat' first
    | assumption
    | apply State.bump_kept
    | apply State.fresh_kept
    | apply State.leaveCapture_kept
    | apply State.setObj_kept
    | apply State.setQueue_kept
    | (apply Kept.ite <;> intro)
    | (apply Kept.ite_fst <;> intro)
    | (refine Kept.fst (by assumption) ?_)
    | (refine Kept.snd (by assumption) ?_)
    | (apply Kept.foldl <;> intros)
    | (apply Kept.foldl_fst <;> intros)
    | dsimp only
    | split
    | apply Kept.upd

theorem State.stopCapture_kept {s0 s : State} (h : Kept s0 s) (q reason : Nat) (t : Tick) (state : Nat) :
    Kept s0 (State.stopCapture s q reason t state) := by
  unfold State.stopCapture
  with_reducible repeat' first
    | assumption
    | apply State.bump_kept
    | apply State.control_kept
    | apply State.finishAll_kept
    | apply State.openNow_kept
    | apply State.setObj_kept
    | apply State.setQueue_kept
    | (apply Kept.ite <;> intro)
    | (apply Kept.ite_fst <;> intro)
    | (refine Kept.fst (by assumption) ?_)
    | (refine Kept.snd (by assumption) ?_)
    | (apply Kept.foldl <;> intros)
    | (apply Kept.foldl_fst <;> intros)
    | dsimp only
    | split
    | apply Kept.upd

theorem State.freePage_kept {s0 s : State} (h : Kept s0 s) (q : Nat) (p : Page) :
    Kept s0 (State.freePage s q p) := by
  unfold State.freePage
  with_reducible repeat' first
    | assumption
    | apply State.setQueue_kept
    | (refine Kept.fst (by assumption) ?_)
    | (refine Kept.snd (by assumption) ?_)
    | dsimp only
    | split
    | apply Kept.upd

theorem State.sweepPages_kept {s0 s : State} (h : Kept s0 s) (q n : Nat) : Kept s0 (s.sweepPages q n) := by
  induction n generalizing s with
  | zero => exact h
  | succ n ih =>
    unfold State.sweepPages
    dsimp only
    split
    · exact ih (State.freePage_kept h _ _)
    · exact h

theorem State.scrubMem_kept {s0 s : State} (h : Kept s0 s) (a n : Nat) :
    Kept s0 (State.scrubMem s a n) := by
  unfold State.scrubMem
  with_reducible repeat' first
    | assumption
    | (apply Kept.ite <;> intro)
    | (apply Kept.ite_fst <;> intro)
    | (refine Kept.fst (by assumption) ?_)
    | (refine Kept.snd (by assumption) ?_)
    | (apply Kept.foldl <;> intros)
    | (apply Kept.foldl_fst <;> intros)
    | dsimp only
    | split
    | apply Kept.upd

theorem State.writeMem_kept {s0 s : State} (h : Kept s0 s) (a : Nat) (b : Bytes) :
    Kept s0 (State.writeMem s a b) := by
  unfold State.writeMem
  with_reducible repeat' first
    | assumption
    | apply State.scrubMem_kept
    | apply State.setMemBytes_kept
    | (apply Kept.ite <;> intro)
    | (apply Kept.ite_fst <;> intro)
    | (refine Kept.fst (by assumption) ?_)
    | (refine Kept.snd (by assumption) ?_)
    | (apply Kept.foldl <;> intros)
    | (apply Kept.foldl_fst <;> intros)
    | dsimp only
    | split
    | apply Kept.upd

theorem State.storeMem_kept {s0 s : State} (h : Kept s0 s) (a : Nat) (b : Bytes) :
    Kept s0 (State.storeMem s a b) := by
  unfold State.storeMem
  with_reducible repeat' first
    | assumption
    | apply State.bump_kept
    | apply State.writeMem_kept
    | (apply Kept.ite <;> intro)
    | (apply Kept.ite_fst <;> intro)
    | (refine Kept.fst (by assumption) ?_)
    | (refine Kept.snd (by assumption) ?_)
    | (apply Kept.foldl <;> intros)
    | (apply Kept.foldl_fst <;> intros)
    | dsimp only
    | split
    | apply Kept.upd

theorem State.closePage_kept {s0 s : State} (h : Kept s0 s) (q : Nat) (p : Page) (next : Nat) (early : Bool) (now : Tick) :
    Kept s0 (State.closePage s q p next early now) := by
  unfold State.closePage
  with_reducible repeat' first
    | assumption
    | apply State.setObj_kept
    | apply State.setQueue_kept
    | apply State.storeMem_kept
    | (apply Kept.ite <;> intro)
    | (apply Kept.ite_fst <;> intro)
    | (refine Kept.fst (by assumption) ?_)
    | (refine Kept.snd (by assumption) ?_)
    | (apply Kept.foldl <;> intros)
    | (apply Kept.foldl_fst <;> intros)
    | dsimp only
    | split
    | apply Kept.upd

theorem State.closeSealed_kept {s0 s : State} (h : Kept s0 s) (q : Nat) (now : Tick) :
    Kept s0 (State.closeSealed s q now) := by
  unfold State.closeSealed
  with_reducible repeat' first
    | assumption
    | apply State.closePage_kept
    | (apply Kept.ite <;> intro)
    | (apply Kept.ite_fst <;> intro)
    | (refine Kept.fst (by assumption) ?_)
    | (refine Kept.snd (by assumption) ?_)
    | (apply Kept.foldl <;> intros)
    | (apply Kept.foldl_fst <;> intros)
    | dsimp only
    | split
    | apply Kept.upd

theorem State.sealPage_kept {s0 s : State} (h : Kept s0 s) (q : Nat) (p : Page) (next : Nat) (early : Bool) (now : Tick) :
    Kept s0 (State.sealPage s q p next early now) := by
  unfold State.sealPage
  with_reducible repeat' first
    | assumption
    | apply State.closeSealed_kept
    | apply State.notePeak_kept
    | apply State.setQueue_kept
    | (apply Kept.ite <;> intro)
    | (apply Kept.ite_fst <;> intro)
    | (refine Kept.fst (by assumption) ?_)
    | (refine Kept.snd (by assumption) ?_)
    | (apply Kept.foldl <;> intros)
    | (apply Kept.foldl_fst <;> intros)
    | dsimp only
    | split
    | apply Kept.upd

theorem State.openPage_kept {s0 s : State} (h : Kept s0 s) (q pfn : Nat) (now : Tick) :
    Kept s0 (State.openPage s q pfn now) := by
  unfold State.openPage
  with_reducible repeat' first
    | assumption
    | apply State.bump_kept
    | apply State.notePeak_kept
    | apply State.sealPage_kept
    | apply State.setQueue_kept
    | (apply Kept.ite <;> intro)
    | (apply Kept.ite_fst <;> intro)
    | (refine Kept.fst (by assumption) ?_)
    | (refine Kept.snd (by assumption) ?_)
    | (apply Kept.foldl <;> intros)
    | (apply Kept.foldl_fst <;> intros)
    | dsimp only
    | split
    | apply Kept.upd

theorem State.openPast_kept {s0 s : State} (h : Kept s0 s) (q pfn : Nat) (p : Past) (now : Tick) :
    Kept s0 (State.openPast s q pfn p now) := by
  unfold State.openPast
  with_reducible repeat' first
    | assumption
    | apply State.bump_kept
    | apply State.notePeak_kept
    | apply State.rest_kept
    | apply State.sealPage_kept
    | apply State.setQueue_kept
    | (apply Kept.ite <;> intro)
    | (apply Kept.ite_fst <;> intro)
    | (refine Kept.fst (by assumption) ?_)
    | (refine Kept.snd (by assumption) ?_)
    | (apply Kept.foldl <;> intros)
    | (apply Kept.foldl_fst <;> intros)
    | dsimp only
    | split
    | apply Kept.upd

theorem State.allocPage_kept {s0 s : State} (h : Kept s0 s) (q : Nat) {p : Nat} {t : State} (e : s.allocPage q = some (p, t)) :
    Kept s0 t := by
  have free : ∀ {r : Nat × State}, (takeFree s.cmm.free).map (fun (a, l) => (a, { s with cmm := { s.cmm with free := l } })) = some r →
      Kept s0 r.2 := by
    intro r hr
    obtain ⟨x, -, rfl⟩ := Option.map_eq_some_iff.mp hr
    exact Kept.upd s h
  unfold State.allocPage at e
  dsimp only at e
  split at e
  · split at e
    · cases e
      exact State.sweepPages_kept (State.bump_kept (State.setQueue_kept h _ _) _ _) _ _
    · cases e
  · split at e
    · exact free e
    · split at e
      · exact free e
      · split at e
        · exact free e
        · split at e
          · cases e
            exact State.sweepPages_kept (State.bump_kept (State.setQueue_kept h _ _) _ _) _ _
          · cases e

theorem State.countDropped_kept {s0 s : State} (h : Kept s0 s) (q : Nat) (waiting : List Group) (loss : Option Loss) :
    Kept s0 (State.countDropped s q waiting loss) := by
  unfold State.countDropped
  with_reducible repeat' first
    | assumption
    | apply State.bump_kept
    | (apply Kept.ite <;> intro)
    | (apply Kept.ite_fst <;> intro)
    | (refine Kept.fst (by assumption) ?_)
    | (refine Kept.snd (by assumption) ?_)
    | (apply Kept.foldl <;> intros)
    | (apply Kept.foldl_fst <;> intros)
    | dsimp only
    | split
    | apply Kept.upd

theorem State.dropWaiting_kept {s0 s : State} (h : Kept s0 s) (q : Nat) (now : Tick) :
    Kept s0 (State.dropWaiting s q now) := by
  unfold State.dropWaiting
  with_reducible repeat' first
    | assumption
    | apply State.countDropped_kept
    | apply State.sealPage_kept
    | apply State.setQueue_kept
    | (apply Kept.ite <;> intro)
    | (apply Kept.ite_fst <;> intro)
    | (refine Kept.fst (by assumption) ?_)
    | (refine Kept.snd (by assumption) ?_)
    | (apply Kept.foldl <;> intros)
    | (apply Kept.foldl_fst <;> intros)
    | dsimp only
    | split
    | apply Kept.upd

theorem State.dropPast_kept {s0 s : State} (h : Kept s0 s) (q : Nat) (p : Past) (now : Tick) :
    Kept s0 (State.dropPast s q p now) := by
  unfold State.dropPast
  with_reducible repeat' first
    | assumption
    | apply State.countDropped_kept
    | apply State.sealPage_kept
    | apply State.setQueue_kept
    | (apply Kept.ite <;> intro)
    | (apply Kept.ite_fst <;> intro)
    | (refine Kept.fst (by assumption) ?_)
    | (refine Kept.snd (by assumption) ?_)
    | (apply Kept.foldl <;> intros)
    | (apply Kept.foldl_fst <;> intros)
    | dsimp only
    | split
    | apply Kept.upd

theorem State.padStopped_kept {s0 s : State} (h : Kept s0 s) (q : Nat) (now : Tick) :
    Kept s0 (State.padStopped s q now) := by
  unfold State.padStopped
  with_reducible repeat' first
    | assumption
    | apply State.notePeak_kept
    | apply State.setQueue_kept
    | (apply Kept.ite <;> intro)
    | (apply Kept.ite_fst <;> intro)
    | (refine Kept.fst (by assumption) ?_)
    | (refine Kept.snd (by assumption) ?_)
    | (apply Kept.foldl <;> intros)
    | (apply Kept.foldl_fst <;> intros)
    | dsimp only
    | split
    | apply Kept.upd

theorem State.trimSegment_kept {s0 s : State} (h : Kept s0 s) (q capture seg : Nat) (t : Tick) (n : Nat) :
    Kept s0 (s.trimSegment q capture seg t n) := by
  induction n generalizing s with
  | zero => exact h
  | succ n ih =>
    unfold State.trimSegment
    with_reducible repeat' first
      | assumption
      | apply ih
      | apply State.freePage_kept
      | dsimp only
      | split

theorem State.trim_kept {s0 s : State} (h : Kept s0 s) (q : Nat) (t : Tick) :
    Kept s0 (State.trim s q t) := by
  unfold State.trim
  with_reducible repeat' first
    | assumption
    | apply State.sweepPages_kept
    | apply State.trimSegment_kept
    | (apply Kept.ite <;> intro)

theorem State.grant_kept {s0 s : State} (h : Kept s0 s) (q : Nat) :
    Kept s0 (State.grant s q) := by
  unfold State.grant
  with_reducible repeat' first
    | assumption
    | apply State.closeSealed_kept
    | apply State.setQueue_kept
    | apply State.storeMem_kept
    | (apply Kept.ite <;> intro)
    | (apply Kept.ite_fst <;> intro)
    | (refine Kept.fst (by assumption) ?_)
    | (refine Kept.snd (by assumption) ?_)
    | (apply Kept.foldl <;> intros)
    | (apply Kept.foldl_fst <;> intros)
    | dsimp only
    | split
    | apply Kept.upd

theorem State.emptyQueues_kept {s0 s : State} (h : Kept s0 s) :
    Kept s0 (State.emptyQueues s) := by
  unfold State.emptyQueues
  with_reducible repeat' first
    | assumption
    | apply State.fresh_kept
    | (apply Kept.ite <;> intro)
    | (apply Kept.ite_fst <;> intro)
    | (refine Kept.fst (by assumption) ?_)
    | (refine Kept.snd (by assumption) ?_)
    | (apply Kept.foldl <;> intros)
    | (apply Kept.foldl_fst <;> intros)
    | dsimp only
    | split
    | apply Kept.upd

theorem State.committedPhase_kept {s0 s : State} (h : Kept s0 s) (l : List Nat) (g : Nat) : Kept s0 (s.committedPhase l g).2 := by
  induction l generalizing s g with
  | nil => exact h
  | cons q l ih =>
    unfold State.committedPhase
    with_reducible repeat' first
      | assumption
      | apply ih
      | apply State.grant_kept
      | apply State.setQueue_kept
      | dsimp only
      | split
      | apply Kept.upd

theorem State.weightedPhase_kept {s0 s : State} (h : Kept s0 s) (l : List Nat) (g : Nat) : Kept s0 (s.weightedPhase l g) := by
  induction l generalizing s g with
  | nil => exact h
  | cons q l ih =>
    unfold State.weightedPhase
    with_reducible repeat' first
      | assumption
      | apply ih
      | apply State.grant_kept
      | apply State.setQueue_kept
      | dsimp only
      | split
      | apply Kept.upd

theorem State.writeGrants_kept {s0 s : State} (h : Kept s0 s) :
    Kept s0 (State.writeGrants s) := by
  unfold State.writeGrants
  with_reducible repeat' first
    | assumption
    | apply State.committedPhase_kept
    | apply State.emptyQueues_kept
    | apply State.setQueue_kept
    | apply State.weightedPhase_kept
    | (apply Kept.ite <;> intro)
    | (apply Kept.ite_fst <;> intro)
    | (refine Kept.fst (by assumption) ?_)
    | (refine Kept.snd (by assumption) ?_)
    | (apply Kept.foldl <;> intros)
    | (apply Kept.foldl_fst <;> intros)
    | dsimp only
    | split
    | apply Kept.upd

theorem State.endLease_kept {s0 s : State} (h : Kept s0 s) (id : Nat) (consume revoked : Bool) :
    Kept s0 (State.endLease s id consume revoked) := by
  unfold State.endLease
  with_reducible repeat' first
    | assumption
    | apply State.setQueue_kept
    | apply State.sweepPages_kept
    | (refine Kept.fst (by assumption) ?_)
    | (refine Kept.snd (by assumption) ?_)
    | dsimp only
    | split
    | apply Kept.upd

theorem State.revoke_kept {s0 s : State} (h : Kept s0 s) (id : Nat) :
    Kept s0 (State.revoke s id) := by
  unfold State.revoke
  with_reducible repeat' first
    | assumption
    | apply State.endLease_kept
    | (refine Kept.fst (by assumption) ?_)
    | (refine Kept.snd (by assumption) ?_)
    | dsimp only
    | split

theorem State.revokeHolder_kept {s0 s : State} (h : Kept s0 s) (h : Nat) :
    Kept s0 (State.revokeHolder s h) := by
  unfold State.revokeHolder
  with_reducible repeat' first
    | assumption
    | apply State.revoke_kept
    | (refine Kept.fst (by assumption) ?_)
    | (refine Kept.snd (by assumption) ?_)
    | (apply Kept.foldl <;> intros)

theorem State.resetHolder_kept {s0 s : State} (h : Kept s0 s) (h : Nat) (t : Tick) :
    Kept s0 (State.resetHolder s h t) := by
  unfold State.resetHolder
  with_reducible repeat' first
    | assumption
    | (apply Kept.ite <;> intro)
    | (apply Kept.ite_fst <;> intro)
    | (refine Kept.fst (by assumption) ?_)
    | (refine Kept.snd (by assumption) ?_)
    | (apply Kept.foldl <;> intros)
    | (apply Kept.foldl_fst <;> intros)
    | dsimp only
    | split
    | apply Kept.upd

theorem State.revokeGone_kept {s0 s : State} (h : Kept s0 s) (u : Tick) :
    Kept s0 (State.revokeGone s u) := by
  unfold State.revokeGone
  with_reducible repeat' first
    | assumption
    | apply State.revokeHolder_kept
    | (apply Kept.ite <;> intro)
    | (apply Kept.ite_fst <;> intro)
    | (refine Kept.fst (by assumption) ?_)
    | (refine Kept.snd (by assumption) ?_)
    | (apply Kept.foldl <;> intros)
    | (apply Kept.foldl_fst <;> intros)
    | dsimp only
    | split
    | apply Kept.upd

theorem State.takeLease_kept {s0 s : State} (h : Kept s0 s) (holder q capture first count timeout : Nat) (expiryFree : Bool)
    {id : Nat} {t : State} {o : Nat} (e : s.takeLease holder q capture first count timeout expiryFree = (some (id, t), o)) : Kept s0 t := by
  unfold State.takeLease at e
  dsimp only at e
  split at e
  · cases e
  · split at e
    · cases e
    · cases e
      exact Kept.upd s.fresh.2 (State.fresh_kept h)

theorem State.takeLease_kept1 {s0 s : State} (h : Kept s0 s) (holder q capture first count timeout : Nat) (expiryFree : Bool)
    {id : Nat} {t : State} (e : (s.takeLease holder q capture first count timeout expiryFree).1 = some (id, t)) : Kept s0 t :=
  State.takeLease_kept h holder q capture first count timeout expiryFree (Prod.ext e rfl)

theorem State.touchLease_kept {s0 s : State} (h : Kept s0 s) (id : Nat) (t : Tick) :
    Kept s0 (State.touchLease s id t) := by
  unfold State.touchLease
  with_reducible repeat' first
    | assumption
    | (refine Kept.fst (by assumption) ?_)
    | (refine Kept.snd (by assumption) ?_)
    | dsimp only
    | split
    | apply Kept.upd

theorem State.leaseCmd_kept {s0 s : State} (h : Kept s0 s) (port core : Nat) (b : Bytes) :
    Kept s0 (s.leaseCmd port core b).1 := by
  unfold State.leaseCmd
  with_reducible repeat' first
    | assumption
    | apply State.setDom_kept
    | apply State.endLease_kept
    | apply State.touchLease_kept
    | (apply Kept.ite_fst <;> intro)
    | (refine State.takeLease_kept ?_ _ _ _ _ _ _ _ (by assumption))
    | dsimp only
    | split

theorem State.countRead_kept {s0 s : State} (h : Kept s0 s) (pfn off n : Nat) (first : Bool) :
    Kept s0 (State.countRead s pfn off n first) := by
  unfold State.countRead
  with_reducible repeat' first
    | assumption
    | apply State.bump_kept
    | (apply Kept.ite <;> intro)
    | (apply Kept.ite_fst <;> intro)
    | (refine Kept.fst (by assumption) ?_)
    | (refine Kept.snd (by assumption) ?_)
    | (apply Kept.foldl <;> intros)
    | (apply Kept.foldl_fst <;> intros)
    | dsimp only
    | split
    | apply Kept.upd

theorem State.upsetMem_kept {s0 s : State} (h : Kept s0 s) (burst : Nat) (two : Bool) :
    Kept s0 (State.upsetMem s burst two) := by
  unfold State.upsetMem
  with_reducible repeat' first
    | assumption
    | apply State.fresh_kept
    | apply State.setMemBytes_kept
    | (apply Kept.ite <;> intro)
    | (apply Kept.ite_fst <;> intro)
    | (refine Kept.fst (by assumption) ?_)
    | (refine Kept.snd (by assumption) ?_)
    | (apply Kept.foldl <;> intros)
    | (apply Kept.foldl_fst <;> intros)
    | dsimp only
    | split
    | apply Kept.upd

end Sys2Proof.Machine
end

