-- ==== Sys2Proof/Laws/KeepCapture.lean ====
section
/-! SUPPORT. What the operations of Machine/Capture.lean keep. -/

namespace Sys2Proof.Machine

theorem State.takeTrigger_kept {s0 s : State} (h : Kept s0 s) (a : TrigAct) (t : Tick) (q : Nat) :
    Kept s0 (State.takeTrigger s a t q) := by
  unfold State.takeTrigger
  with_reducible repeat' first
    | assumption
    | apply State.bump_kept
    | apply State.controlNow_kept
    | apply State.setQueue_kept
    | (apply Kept.ite <;> intro)

theorem State.markQueue_kept {s0 s : State} (h : Kept s0 s) (q : Nat) (r : Rec) (t : Tick) :
    Kept s0 (State.markQueue s q r t) := by
  unfold State.markQueue
  with_reducible repeat' first
    | assumption
    | apply State.controlNow_kept
    | apply State.setQueue_kept
    | (apply Kept.ite <;> intro)
    | (apply Kept.ite_fst <;> intro)
    | (refine Kept.fst (by assumption) ?_)
    | (refine Kept.snd (by assumption) ?_)
    | (apply Kept.foldl <;> intros)
    | (apply Kept.foldl_fst <;> intros)
    | dsimp only
    | split
    | apply Kept.upd

theorem State.takeStore_kept {s0 s : State} (h : Kept s0 s) (a : TrigAct) (t : Tick) (q : Nat) :
    Kept s0 (State.takeStore s a t q) := by
  unfold State.takeStore
  with_reducible repeat' first
    | assumption
    | apply State.markQueue_kept
    | apply State.setQueue_kept
    | (apply Kept.ite <;> intro)
    | (apply Kept.ite_fst <;> intro)
    | (refine Kept.fst (by assumption) ?_)
    | (refine Kept.snd (by assumption) ?_)
    | (apply Kept.foldl <;> intros)
    | (apply Kept.foldl_fst <;> intros)
    | dsimp only
    | split
    | apply Kept.upd

theorem State.takeAction_kept {s0 s : State} (h : Kept s0 s) (t : Tick) (l : List TrigAct) (a : TrigAct) :
    Kept s0 (State.takeAction s t l a) := by
  unfold State.takeAction
  with_reducible repeat' first
    | assumption
    | apply State.bump_kept
    | apply State.markQueue_kept
    | apply State.takeStore_kept
    | apply State.takeTrigger_kept
    | (apply Kept.ite <;> intro)
    | (apply Kept.ite_fst <;> intro)
    | (refine Kept.fst (by assumption) ?_)
    | (refine Kept.snd (by assumption) ?_)
    | (apply Kept.foldl <;> intros)
    | (apply Kept.foldl_fst <;> intros)
    | dsimp only
    | split
    | apply Kept.upd

theorem State.closeSegment_kept {s0 s : State} (h : Kept s0 s) (q : Nat) (t : Tick) :
    Kept s0 (State.closeSegment s q t) := by
  unfold State.closeSegment
  with_reducible repeat' first
    | assumption
    | apply State.control_kept
    | apply State.finishAll_kept
    | apply State.setObj_kept
    | apply State.setQueue_kept
    | apply State.stopCapture_kept
    | (apply Kept.ite <;> intro)

theorem State.openSegment_kept {s0 s : State} (h : Kept s0 s) (q : Nat) (t : Tick) :
    Kept s0 (State.openSegment s q t) := by
  unfold State.openSegment
  with_reducible repeat' first
    | assumption
    | apply State.setObj_kept
    | apply State.setQueue_kept

theorem State.freeQueue_kept {s0 s : State} (h : Kept s0 s) (q : Nat) :
    Kept s0 ((State.freeQueue s q).1) := by
  unfold State.freeQueue
  with_reducible repeat' first
    | assumption
    | apply State.setQueue_kept
    | apply State.sweepPages_kept
    | (apply Kept.ite_fst <;> intro)

theorem State.askClose_kept {s0 s : State} (h : Kept s0 s) (q : Nat) :
    Kept s0 ((State.askClose s q).1) := by
  unfold State.askClose
  with_reducible repeat' first
    | assumption
    | apply State.setQueue_kept
    | (apply Kept.ite_fst <;> intro)
    | (refine Kept.fst (by assumption) ?_)
    | (refine Kept.snd (by assumption) ?_)
    | dsimp only
    | split

theorem State.runStops_kept {s0 s : State} (h : Kept s0 s) (vals : List (Key × Nat)) (t : Tick) :
    Kept s0 (State.runStops s vals t) := by
  unfold State.runStops
  with_reducible repeat' first
    | assumption
    | apply State.stopCapture_kept
    | (apply Kept.ite <;> intro)
    | (refine Kept.fst (by assumption) ?_)
    | (refine Kept.snd (by assumption) ?_)
    | (apply Kept.foldl <;> intros)
    | dsimp only
    | split

theorem State.runStarts_kept {s0 s : State} (h : Kept s0 s) (vals : List (Key × Nat)) (t : Tick) :
    Kept s0 (State.runStarts s vals t) := by
  unfold State.runStarts
  with_reducible repeat' first
    | assumption
    | apply State.startCapture_kept
    | (apply Kept.ite <;> intro)
    | (refine Kept.fst (by assumption) ?_)
    | (refine Kept.snd (by assumption) ?_)
    | (apply Kept.foldl <;> intros)
    | dsimp only
    | split

theorem State.configChange_kept {s0 s : State} (h : Kept s0 s) (kind port core objects jseq : Nat) (t : Tick) :
    Kept s0 (State.configChange s kind port core objects jseq t) := by
  unfold State.configChange
  with_reducible repeat' first
    | assumption
    | apply State.control_kept
    | (apply Kept.ite <;> intro)
    | (refine Kept.fst (by assumption) ?_)
    | (refine Kept.snd (by assumption) ?_)
    | (apply Kept.foldl <;> intros)

theorem State.devSync_kept {s0 s : State} (h : Kept s0 s) (t : Tick) :
    Kept s0 (State.devSync s t) := by
  unfold State.devSync
  with_reducible repeat' first
    | assumption
    | apply State.setDev_kept
    | (apply Kept.ite <;> intro)

theorem State.train_kept {s0 s : State} (h : Kept s0 s) (t : Tick) :
    Kept s0 ((State.train s t).1) := by
  unfold State.train
  with_reducible repeat' first
    | assumption
    | apply State.setObj_kept
    | (refine Kept.cleared _ ?_ _ _)
    | (apply Kept.ite <;> intro)
    | (apply Kept.ite_fst <;> intro)
    | (refine Kept.fst (by assumption) ?_)
    | (refine Kept.snd (by assumption) ?_)
    | (apply Kept.foldl <;> intros)

theorem State.sizeMemory_kept {s0 s : State} (h : Kept s0 s) :
    Kept s0 (State.sizeMemory s) := by
  unfold State.sizeMemory
  with_reducible repeat' first
    | assumption
    | apply State.setObjs_kept
    | (refine Kept.fst (by assumption) ?_)
    | (refine Kept.snd (by assumption) ?_)
    | dsimp only
    | split
    | apply Kept.upd

theorem State.finishTraining_kept {s0 s : State} (h : Kept s0 s) (fails : List (Nat × Nat)) :
    Kept s0 (State.finishTraining s fails) := by
  unfold State.finishTraining
  with_reducible repeat' first
    | assumption
    | apply State.setObj_kept
    | apply State.sizeMemory_kept
    | (apply Kept.ite <;> intro)
    | (refine Kept.fst (by assumption) ?_)
    | (refine Kept.snd (by assumption) ?_)
    | (apply Kept.foldl <;> intros)
    | dsimp only
    | split
    | apply Kept.upd

theorem State.codeEffects_kept {s0 s : State} (h : Kept s0 s) (old : State) (keys : List Key) :
    Kept s0 (State.codeEffects s old keys) := by
  unfold State.codeEffects
  with_reducible repeat' first
    | assumption
    | (refine Kept.fst (by assumption) ?_)
    | (refine Kept.snd (by assumption) ?_)
    | dsimp only
    | split
    | apply Kept.upd

theorem State.writeCoder_kept {s0 s : State} (h : Kept s0 s) (port sel : Nat) (b : Bytes) :
    Kept s0 ((State.writeCoder s port sel b).1) := by
  unfold State.writeCoder
  with_reducible repeat' first
    | assumption
    | apply State.setQueue_kept
    | (apply Kept.ite_fst <;> intro)
    | (refine Kept.fst (by assumption) ?_)
    | (refine Kept.snd (by assumption) ?_)
    | dsimp only
    | split

theorem State.takeAlloc_kept {s0 s : State} (h : Kept s0 s) :
    Kept s0 (State.takeAlloc s) := by
  unfold State.takeAlloc
  with_reducible repeat' first
    | assumption
    | apply State.bump_kept
    | apply State.devSync_kept
    | apply State.dropPast_kept
    | apply State.dropWaiting_kept
    | apply State.flushInbox_kept
    | apply State.openPage_kept
    | apply State.openPast_kept
    | apply State.stopCapture_kept
    | (refine State.allocPage_kept ?_ _ (by assumption))
    | (apply Kept.ite <;> intro)
    | (apply Kept.ite_fst <;> intro)
    | (refine Kept.fst (by assumption) ?_)
    | (refine Kept.snd (by assumption) ?_)
    | (apply Kept.foldl <;> intros)
    | (apply Kept.foldl_fst <;> intros)
    | dsimp only
    | split
    | apply Kept.upd

theorem execPageAlloc_kept {s0 s : State} (h : Kept s0 s) : KeptAns s0 (execPageAlloc s) :=
  KeptAns.next (Kept.ite (fun _ => State.postpone_kept h _) (fun _ => State.takeAlloc_kept h))

theorem execChunkFlush_kept {s0 s : State} (h : Kept s0 s) (q : Nat) :
    KeptAns s0 (execChunkFlush q s) := by
  unfold execChunkFlush
  with_reducible repeat' first
    | assumption
    | apply KeptAns.next
    | (apply KeptAns.ite <;> intro)
    | apply State.finishBlock_kept
    | apply State.finishEdges_kept
    | apply State.notePeak_kept
    | apply State.setQueue_kept
    | (apply Kept.ite <;> intro)
    | (apply Kept.ite_fst <;> intro)
    | (refine Kept.fst (by assumption) ?_)
    | (refine Kept.snd (by assumption) ?_)
    | (apply Kept.foldl <;> intros)
    | (apply Kept.foldl_fst <;> intros)
    | dsimp only
    | split
    | apply Kept.upd

theorem execSegmentClose_kept {s0 s : State} (h : Kept s0 s) (q : Nat) :
    KeptAns s0 (execSegmentClose q s) := by
  unfold execSegmentClose
  with_reducible repeat' first
    | assumption
    | apply KeptAns.next
    | (apply KeptAns.ite <;> intro)
    | apply State.closeSegment_kept
    | apply State.devSync_kept
    | (refine Kept.fst (by assumption) ?_)
    | (refine Kept.snd (by assumption) ?_)
    | dsimp only
    | split

theorem execSegmentOpen_kept {s0 s : State} (h : Kept s0 s) (q : Nat) :
    KeptAns s0 (execSegmentOpen q s) := by
  unfold execSegmentOpen
  with_reducible repeat' first
    | assumption
    | apply KeptAns.next
    | (apply KeptAns.ite <;> intro)
    | apply State.openSegment_kept
    | (refine Kept.fst (by assumption) ?_)
    | (refine Kept.snd (by assumption) ?_)
    | dsimp only
    | split

theorem execDrainEnd_kept {s0 s : State} (h : Kept s0 s) (q : Nat) :
    KeptAns s0 (execDrainEnd q s) := by
  unfold execDrainEnd
  with_reducible repeat' first
    | assumption
    | apply KeptAns.next
    | (apply KeptAns.ite <;> intro)
    | apply State.closePage_kept
    | apply State.setQueue_kept
    | (apply Kept.ite <;> intro)
    | (refine Kept.fst (by assumption) ?_)
    | (refine Kept.snd (by assumption) ?_)
    | dsimp only
    | split

theorem execLeaseExpire_kept {s0 s : State} (h : Kept s0 s) (i : Nat) :
    KeptAns s0 (execLeaseExpire i s) := by
  unfold execLeaseExpire
  with_reducible repeat' first
    | assumption
    | apply KeptAns.next
    | (apply KeptAns.ite <;> intro)
    | apply State.revoke_kept
    | (refine Kept.fst (by assumption) ?_)
    | (refine Kept.snd (by assumption) ?_)
    | dsimp only
    | split

end Sys2Proof.Machine
end

