-- ==== Sys2Proof/Laws/KeepTime.lean ====
section
/-! SUPPORT. What the operations of Machine/Time.lean keep. -/

namespace Sys2Proof.Machine

theorem State.setTime_kept {s0 s : State} (h : Kept s0 s) (f : TimeBase → TimeBase) :
    Kept s0 (State.setTime s f) := by
  unfold State.setTime
  with_reducible repeat' first
    | assumption
    | (refine Kept.fst (by assumption) ?_)
    | (refine Kept.snd (by assumption) ?_)
    | dsimp only
    | split
    | apply Kept.upd

theorem State.setCasc_kept {s0 s : State} (h : Kept s0 s) (n : Nat) (f : CascPort → CascPort) :
    Kept s0 (State.setCasc s n f) := by
  unfold State.setCasc
  with_reducible repeat' first
    | assumption
    | (refine Kept.fst (by assumption) ?_)
    | (refine Kept.snd (by assumption) ?_)
    | dsimp only
    | split
    | apply Kept.upd

theorem State.newPoint_kept {s0 s : State} (h : Kept s0 s) (t : SubTime) (j : Int) (stepped : Bool) :
    Kept s0 (State.newPoint s t j stepped) := by
  unfold State.newPoint
  with_reducible repeat' first
    | assumption
    | apply State.setTime_kept

theorem State.pointInto_kept {s0 s : State} (h : Kept s0 s) (q : Nat) :
    Kept s0 (State.pointInto s q) := by
  unfold State.pointInto
  with_reducible repeat' first
    | assumption
    | apply State.rearmLost_kept
    | apply State.setQueue_kept
    | (apply Kept.ite <;> intro)
    | (apply Kept.ite_fst <;> intro)
    | (refine Kept.fst (by assumption) ?_)
    | (refine Kept.snd (by assumption) ?_)
    | (apply Kept.foldl <;> intros)
    | (apply Kept.foldl_fst <;> intros)
    | dsimp only
    | split
    | apply Kept.upd

theorem State.writePoint_kept {s0 s : State} (h : Kept s0 s) (all : Bool) :
    Kept s0 (State.writePoint s all) := by
  unfold State.writePoint
  with_reducible repeat' first
    | assumption
    | apply State.pointInto_kept
    | (apply Kept.ite <;> intro)
    | (refine Kept.fst (by assumption) ?_)
    | (refine Kept.snd (by assumption) ?_)
    | (apply Kept.foldl <;> intros)

theorem State.writeStep_kept {s0 s : State} (h : Kept s0 s) (j : Int) (cause : Nat) (t : Tick) :
    Kept s0 (State.writeStep s j cause t) := by
  unfold State.writeStep
  with_reducible repeat' first
    | assumption
    | apply State.control_kept
    | apply State.writePoint_kept
    | (apply Kept.ite <;> intro)
    | (refine Kept.fst (by assumption) ?_)
    | (refine Kept.snd (by assumption) ?_)
    | (apply Kept.foldl <;> intros)

theorem State.setDisc_kept {s0 s : State} (h : Kept s0 s) (d : Nat) (t : SubTime) :
    Kept s0 (State.setDisc s d t) := by
  unfold State.setDisc
  with_reducible repeat' first
    | assumption
    | apply State.newPoint_kept
    | apply State.notify_kept
    | apply State.setObj_kept
    | apply State.writePoint_kept
    | (apply Kept.ite <;> intro)

theorem State.steer_kept {s0 s : State} (h : Kept s0 s) :
    Kept s0 (State.steer s) := by
  unfold State.steer
  with_reducible repeat' first
    | assumption
    | apply State.setObj_kept

theorem State.loop_kept {s0 s : State} (h : Kept s0 s) (t : Tick) :
    Kept s0 (State.loop s t) := by
  unfold State.loop
  with_reducible repeat' first
    | assumption
    | apply State.fresh_kept
    | apply State.setTime_kept
    | apply State.steer_kept

theorem State.sourceLost_kept {s0 s : State} (h : Kept s0 s) (t : Tick) :
    Kept s0 (State.sourceLost s t) := by
  unfold State.sourceLost
  with_reducible repeat' first
    | assumption
    | apply State.setDisc_kept
    | apply State.setObj_kept
    | apply State.setTime_kept
    | (apply Kept.ite <;> intro)

theorem State.startSlew_kept {s0 s : State} (h : Kept s0 s) (j : Int) (t : SubTime) :
    Kept s0 (State.startSlew s j t) := by
  unfold State.startSlew
  with_reducible repeat' first
    | assumption
    | apply State.setTime_kept

theorem State.qualify_kept {s0 s : State} (h : Kept s0 s) (j : Int) (t : SubTime) :
    Kept s0 (State.qualify s j t) := by
  unfold State.qualify
  with_reducible repeat' first
    | assumption
    | apply Acting.step_kept
    | apply State.newPoint_kept
    | apply State.notify_kept
    | apply State.policy_kept
    | apply State.setDisc_kept
    | apply State.setInt_kept
    | apply State.setObj_kept
    | apply State.setTime_kept
    | apply State.startSlew_kept
    | apply State.steer_kept
    | apply State.writePoint_kept
    | (apply Kept.ite <;> intro)
    | (apply Kept.ite_fst <;> intro)
    | (refine Kept.fst (by assumption) ?_)
    | (refine Kept.snd (by assumption) ?_)
    | (apply Kept.foldl <;> intros)
    | (apply Kept.foldl_fst <;> intros)
    | dsimp only
    | split
    | apply Kept.upd

theorem State.alignTo_kept {s0 s : State} (h : Kept s0 s) (n st : Nat) :
    Kept s0 (State.alignTo s n st) := by
  unfold State.alignTo
  with_reducible repeat' first
    | assumption
    | apply State.fresh_kept
    | apply State.setObj_kept
    | (apply Kept.ite <;> intro)
    | (apply Kept.ite_fst <;> intro)
    | (refine Kept.fst (by assumption) ?_)
    | (refine Kept.snd (by assumption) ?_)
    | (apply Kept.foldl <;> intros)
    | (apply Kept.foldl_fst <;> intros)
    | dsimp only
    | split
    | apply Kept.upd

theorem State.acquire_kept {s0 s : State} (h : Kept s0 s) (t : Tick) :
    Kept s0 (State.acquire s t) := by
  unfold State.acquire
  with_reducible repeat' first
    | assumption
    | apply Acting.step_kept
    | apply State.alignTo_kept
    | apply State.newPoint_kept
    | apply State.qualify_kept
    | apply State.setCasc_kept
    | apply State.setDisc_kept
    | apply State.setTime_kept
    | apply State.steer_kept
    | apply State.writePoint_kept
    | (apply Kept.ite <;> intro)
    | (apply Kept.ite_fst <;> intro)
    | (refine Kept.fst (by assumption) ?_)
    | (refine Kept.snd (by assumption) ?_)
    | (apply Kept.foldl <;> intros)
    | (apply Kept.foldl_fst <;> intros)
    | dsimp only
    | split
    | apply Kept.upd

theorem State.doStep_kept {s0 s : State} (h : Kept s0 s) (t : Tick) :
    Kept s0 (State.doStep s t) := by
  unfold State.doStep
  with_reducible repeat' first
    | assumption
    | apply State.newPoint_kept
    | apply State.setTime_kept
    | apply State.writeStep_kept
    | (refine Kept.fst (by assumption) ?_)
    | (refine Kept.snd (by assumption) ?_)
    | dsimp only
    | split

theorem State.taiWrite_kept {s0 s : State} (h : Kept s0 s) (at_ : SubTime) (t : Tick) :
    Kept s0 (State.taiWrite s at_ t) := by
  unfold State.taiWrite
  with_reducible repeat' first
    | assumption
    | apply State.doStep_kept
    | apply State.newPoint_kept
    | apply State.setTime_kept
    | apply State.writePoint_kept
    | apply State.writeStep_kept
    | (apply Kept.ite <;> intro)
    | (apply Kept.ite_fst <;> intro)
    | (refine Kept.fst (by assumption) ?_)
    | (refine Kept.snd (by assumption) ?_)
    | (apply Kept.foldl <;> intros)
    | (apply Kept.foldl_fst <;> intros)
    | dsimp only
    | split
    | apply Kept.upd

theorem State.tookEdge_kept {s0 s : State} (h : Kept s0 s) (t : SubTime) :
    Kept s0 (State.tookEdge s t) := by
  unfold State.tookEdge
  with_reducible repeat' first
    | assumption
    | apply State.setTime_kept

theorem execPpsEdge_kept {s0 s : State} (h : Kept s0 s) (time : Nat) :
    KeptAns s0 (execPpsEdge time s) := by
  unfold execPpsEdge
  with_reducible repeat' first
    | assumption
    | apply KeptAns.next
    | (apply KeptAns.ite <;> intro)
    | apply Acting.step_kept
    | apply State.loop_kept
    | apply State.qualify_kept
    | apply State.setInt_kept
    | apply State.setTime_kept
    | apply State.taiWrite_kept
    | apply State.tookEdge_kept
    | (apply Kept.ite <;> intro)
    | (apply Kept.ite_fst <;> intro)
    | (refine Kept.fst (by assumption) ?_)
    | (refine Kept.snd (by assumption) ?_)
    | (apply Kept.foldl <;> intros)
    | (apply Kept.foldl_fst <;> intros)
    | dsimp only
    | split
    | apply Kept.upd

theorem State.vrefTook_kept {s0 s : State} (h : Kept s0 s) (time : SubTime) :
    Kept s0 (State.vrefTook s time) := by
  unfold State.vrefTook
  with_reducible repeat' first
    | assumption
    | apply State.loop_kept
    | apply State.qualify_kept
    | apply State.setInt_kept
    | apply State.setTime_kept
    | (apply Kept.ite <;> intro)
    | (apply Kept.ite_fst <;> intro)
    | (refine Kept.fst (by assumption) ?_)
    | (refine Kept.snd (by assumption) ?_)
    | (apply Kept.foldl <;> intros)
    | (apply Kept.foldl_fst <;> intros)
    | dsimp only
    | split
    | apply Kept.upd

theorem execVrefEdge_kept {s0 s : State} (h : Kept s0 s) (time : Nat) (aboveHi : Bool) :
    KeptAns s0 (execVrefEdge time aboveHi s) := by
  unfold execVrefEdge
  with_reducible repeat' first
    | assumption
    | apply KeptAns.next
    | (apply KeptAns.ite <;> intro)
    | apply State.setTime_kept
    | apply State.tookEdge_kept
    | apply State.vrefTook_kept
    | (apply Kept.ite <;> intro)
    | (apply Kept.ite_fst <;> intro)
    | (refine Kept.fst (by assumption) ?_)
    | (refine Kept.snd (by assumption) ?_)
    | (apply Kept.foldl <;> intros)
    | (apply Kept.foldl_fst <;> intros)
    | dsimp only
    | split
    | apply Kept.upd

theorem execLoopUpdate_kept {s0 s : State} (h : Kept s0 s) :
    KeptAns s0 (execLoopUpdate s) := by
  unfold execLoopUpdate
  with_reducible repeat' first
    | assumption
    | apply KeptAns.next
    | (apply KeptAns.ite <;> intro)
    | apply State.loop_kept

theorem execPpsMiss_kept {s0 s : State} (h : Kept s0 s) :
    KeptAns s0 (execPpsMiss s) := by
  unfold execPpsMiss
  with_reducible repeat' first
    | assumption
    | apply KeptAns.next
    | (apply KeptAns.ite <;> intro)
    | apply State.setTime_kept
    | apply State.sourceLost_kept
    | (apply Kept.ite <;> intro)
    | (refine Kept.fst (by assumption) ?_)
    | (refine Kept.snd (by assumption) ?_)
    | dsimp only
    | split

theorem execVrefMiss_kept {s0 s : State} (h : Kept s0 s) :
    KeptAns s0 (execVrefMiss s) := by
  unfold execVrefMiss
  with_reducible repeat' first
    | assumption
    | apply KeptAns.next
    | (apply KeptAns.ite <;> intro)
    | apply State.setTime_kept
    | apply State.sourceLost_kept
    | (apply Kept.ite <;> intro)
    | (refine Kept.fst (by assumption) ?_)
    | (refine Kept.snd (by assumption) ?_)
    | dsimp only
    | split

theorem execHostTimeout_kept {s0 s : State} (h : Kept s0 s) :
    KeptAns s0 (execHostTimeout s) := by
  unfold execHostTimeout
  with_reducible repeat' first
    | assumption
    | apply KeptAns.next
    | (apply KeptAns.ite <;> intro)
    | apply State.setTime_kept
    | apply State.sourceLost_kept
    | (refine Kept.fst (by assumption) ?_)
    | (refine Kept.snd (by assumption) ?_)
    | dsimp only
    | split

theorem execStep_kept {s0 s : State} (h : Kept s0 s) :
    KeptAns s0 (execStep s) := by
  unfold execStep
  with_reducible repeat' first
    | assumption
    | apply KeptAns.next
    | apply State.doStep_kept

theorem execSlewEnd_kept {s0 s : State} (h : Kept s0 s) :
    KeptAns s0 (execSlewEnd s) := by
  unfold execSlewEnd
  with_reducible repeat' first
    | assumption
    | apply KeptAns.next
    | (apply KeptAns.ite <;> intro)
    | apply State.newPoint_kept
    | apply State.setDisc_kept
    | apply State.setTime_kept
    | apply State.steer_kept
    | apply State.writePoint_kept
    | (apply Kept.ite <;> intro)

theorem State.mapPoint_kept {s0 s : State} (h : Kept s0 s) (t : Tick) :
    Kept s0 (State.mapPoint s t) := by
  unfold State.mapPoint
  with_reducible repeat' first
    | assumption
    | apply State.newPoint_kept
    | apply State.writePoint_kept
    | (apply Kept.ite <;> intro)
    | (apply Kept.ite_fst <;> intro)
    | (refine Kept.fst (by assumption) ?_)
    | (refine Kept.snd (by assumption) ?_)
    | (apply Kept.foldl <;> intros)
    | (apply Kept.foldl_fst <;> intros)
    | dsimp only
    | split
    | apply Kept.upd

theorem execTimeMapPoint_kept {s0 s : State} (h : Kept s0 s) :
    KeptAns s0 (execTimeMapPoint s) := by
  unfold execTimeMapPoint
  with_reducible repeat' first
    | assumption
    | apply KeptAns.next
    | (apply KeptAns.ite <;> intro)
    | apply State.await_kept
    | (apply Kept.ite <;> intro)
    | (apply Kept.ite_fst <;> intro)
    | (refine Kept.fst (by assumption) ?_)
    | (refine Kept.snd (by assumption) ?_)
    | (apply Kept.foldl <;> intros)
    | (apply Kept.foldl_fst <;> intros)
    | dsimp only
    | split
    | apply Kept.upd

theorem State.freqCorr_kept {s0 s : State} (h : Kept s0 s) (v : Nat) (t : Tick) :
    Kept s0 (State.freqCorr s v t) := by
  unfold State.freqCorr
  with_reducible repeat' first
    | assumption
    | apply State.loop_kept
    | apply State.qualify_kept
    | apply State.setObj_kept
    | apply State.setTime_kept
    | (apply Kept.ite <;> intro)

theorem State.phaseCorr_kept {s0 s : State} (h : Kept s0 s) (v : Nat) (t : Tick) :
    Kept s0 ((State.phaseCorr s v t).1) := by
  unfold State.phaseCorr
  with_reducible repeat' first
    | assumption
    | apply Acting.step_kept
    | apply State.loop_kept
    | apply State.newPoint_kept
    | apply State.setTime_kept
    | apply State.startSlew_kept
    | apply State.steer_kept
    | apply State.writePoint_kept
    | (apply Kept.ite <;> intro)
    | (apply Kept.ite_fst <;> intro)
    | (refine Kept.fst (by assumption) ?_)
    | (refine Kept.snd (by assumption) ?_)
    | (apply Kept.foldl <;> intros)
    | (apply Kept.foldl_fst <;> intros)
    | dsimp only
    | split
    | apply Kept.upd

theorem State.timeAction_kept {s0 s : State} (h : Kept s0 s) (v : Nat) (t : Tick) :
    Kept s0 ((State.timeAction s v t).1) := by
  unfold State.timeAction
  with_reducible repeat' first
    | assumption
    | apply Acting.step_kept
    | apply State.acquire_kept
    | apply State.newPoint_kept
    | apply State.notify_kept
    | apply State.setDisc_kept
    | apply State.setObj_kept
    | apply State.setTime_kept
    | apply State.startSlew_kept
    | apply State.steer_kept
    | apply State.writePoint_kept
    | (apply Kept.ite <;> intro)
    | (apply Kept.ite_fst <;> intro)
    | (refine Kept.fst (by assumption) ?_)
    | (refine Kept.snd (by assumption) ?_)
    | (apply Kept.foldl <;> intros)
    | (apply Kept.foldl_fst <;> intros)
    | dsimp only
    | split
    | apply Kept.upd

theorem execAlignWordSend_kept {s0 s : State} (h : Kept s0 s) (n : Nat) :
    KeptAns s0 (execAlignWordSend n s) := by
  unfold execAlignWordSend
  with_reducible repeat' first
    | assumption
    | apply KeptAns.next
    | (apply KeptAns.ite <;> intro)
    | apply State.emit_kept
    | apply State.fresh_kept
    | apply State.setCasc_kept
    | (apply Kept.ite <;> intro)
    | (apply Kept.ite_fst <;> intro)
    | (refine Kept.fst (by assumption) ?_)
    | (refine Kept.snd (by assumption) ?_)
    | (apply Kept.foldl <;> intros)
    | (apply Kept.foldl_fst <;> intros)
    | dsimp only
    | split
    | apply Kept.upd

theorem State.takeMapping_kept {s0 s : State} (h : Kept s0 s) (p : TimePoint) :
    Kept s0 (State.takeMapping s p) := by
  unfold State.takeMapping
  with_reducible repeat' first
    | assumption
    | apply State.setTime_kept
    | (apply Kept.ite <;> intro)
    | (apply Kept.ite_fst <;> intro)
    | (refine Kept.fst (by assumption) ?_)
    | (refine Kept.snd (by assumption) ?_)
    | (apply Kept.foldl <;> intros)
    | (apply Kept.foldl_fst <;> intros)
    | dsimp only
    | split
    | apply Kept.upd

theorem execAlignWordReceive_kept {s0 s : State} (h : Kept s0 s) (n count arrival : Nat) (point : Bytes) (rtt : Nat) :
    KeptAns s0 (execAlignWordReceive n count arrival point rtt s) := by
  unfold execAlignWordReceive
  with_reducible repeat' first
    | assumption
    | apply KeptAns.next
    | (apply KeptAns.ite <;> intro)
    | apply State.alignTo_kept
    | apply State.loop_kept
    | apply State.qualify_kept
    | apply State.setCasc_kept
    | apply State.setInt_kept
    | apply State.setObj_kept
    | apply State.takeMapping_kept
    | (apply Kept.ite <;> intro)
    | (apply Kept.ite_fst <;> intro)
    | (refine Kept.fst (by assumption) ?_)
    | (refine Kept.snd (by assumption) ?_)
    | (apply Kept.foldl <;> intros)
    | (apply Kept.foldl_fst <;> intros)
    | dsimp only
    | split
    | apply Kept.upd

theorem execAlignWordTimeout_kept {s0 s : State} (h : Kept s0 s) (n : Nat) :
    KeptAns s0 (execAlignWordTimeout n s) := by
  unfold execAlignWordTimeout
  with_reducible repeat' first
    | assumption
    | apply KeptAns.next
    | (apply KeptAns.ite <;> intro)
    | apply State.alignTo_kept
    | apply State.setCasc_kept
    | apply State.sourceLost_kept
    | (apply Kept.ite <;> intro)
    | (apply Kept.ite_fst <;> intro)
    | (refine Kept.fst (by assumption) ?_)
    | (refine Kept.snd (by assumption) ?_)
    | (apply Kept.foldl <;> intros)
    | (apply Kept.foldl_fst <;> intros)
    | dsimp only
    | split
    | apply Kept.upd

theorem execCascadeSyncLoss_kept {s0 s : State} (h : Kept s0 s) (n : Nat) :
    KeptAns s0 (execCascadeSyncLoss n s) := by
  unfold execCascadeSyncLoss
  with_reducible repeat' first
    | assumption
    | apply KeptAns.next
    | (apply KeptAns.ite <;> intro)
    | apply State.alignTo_kept
    | apply State.setCasc_kept
    | apply State.sourceLost_kept
    | (apply Kept.ite <;> intro)
    | (apply Kept.ite_fst <;> intro)
    | (refine Kept.fst (by assumption) ?_)
    | (refine Kept.snd (by assumption) ?_)
    | (apply Kept.foldl <;> intros)
    | (apply Kept.foldl_fst <;> intros)
    | dsimp only
    | split
    | apply Kept.upd

theorem execCascadeSync_kept {s0 s : State} (h : Kept s0 s) (n : Nat) :
    KeptAns s0 (execCascadeSync n s) := by
  unfold execCascadeSync
  with_reducible repeat' first
    | assumption
    | apply KeptAns.next
    | (apply KeptAns.ite <;> intro)
    | apply State.alignTo_kept
    | apply State.setCasc_kept
    | (apply Kept.ite <;> intro)
    | (apply Kept.ite_fst <;> intro)
    | (refine Kept.fst (by assumption) ?_)
    | (refine Kept.snd (by assumption) ?_)
    | (apply Kept.foldl <;> intros)
    | (apply Kept.foldl_fst <;> intros)
    | dsimp only
    | split
    | apply Kept.upd

theorem State.timeEffects_kept {s0 s : State} (h : Kept s0 s) (old : State) (keys : List Key) (t : Tick) :
    Kept s0 (State.timeEffects s old keys t) := by
  unfold State.timeEffects
  with_reducible repeat' first
    | assumption
    | apply State.acquire_kept
    | apply State.setTime_kept
    | apply State.taiWrite_kept
    | (apply Kept.ite <;> intro)
    | (apply Kept.ite_fst <;> intro)
    | (refine Kept.fst (by assumption) ?_)
    | (refine Kept.snd (by assumption) ?_)
    | (apply Kept.foldl <;> intros)
    | (apply Kept.foldl_fst <;> intros)
    | dsimp only
    | split
    | apply Kept.upd

end Sys2Proof.Machine
end

