-- ==== Sys2Proof/Laws/KeepSynth.lean ====
section
/-! SUPPORT. What the operations of Machine/Synth.lean keep. -/

namespace Sys2Proof.Machine

theorem State.setSynth_kept {s0 s : State} (h : Kept s0 s) (i : Nat) (f : Synth → Synth) :
    Kept s0 (State.setSynth s i f) := by
  unfold State.setSynth
  with_reducible repeat' first
    | assumption
    | (refine Kept.fst (by assumption) ?_)
    | (refine Kept.snd (by assumption) ?_)
    | dsimp only
    | split
    | apply Kept.upd

theorem State.pfd_kept {s0 s : State} (h : Kept s0 s) (i : Nat) :
    Kept s0 (State.pfd s i) := by
  unfold State.pfd
  with_reducible repeat' first
    | assumption
    | apply State.setSynth_kept
    | (apply Kept.ite <;> intro)
    | (apply Kept.ite_fst <;> intro)
    | (refine Kept.fst (by assumption) ?_)
    | (refine Kept.snd (by assumption) ?_)
    | (apply Kept.foldl <;> intros)
    | (apply Kept.foldl_fst <;> intros)
    | dsimp only
    | split
    | apply Kept.upd

theorem State.countCyc_kept {s0 s : State} (h : Kept s0 s) :
    Kept s0 (State.countCyc s) := by
  unfold State.countCyc
  with_reducible repeat' first
    | assumption
    | apply State.setTime_kept
    | (apply Kept.ite <;> intro)
    | (apply Kept.ite_fst <;> intro)
    | (refine Kept.fst (by assumption) ?_)
    | (refine Kept.snd (by assumption) ?_)
    | (apply Kept.foldl <;> intros)
    | (apply Kept.foldl_fst <;> intros)
    | dsimp only
    | split
    | apply Kept.upd

theorem State.clockOut_kept {s0 s : State} (h : Kept s0 s) (u : Tick) (i : Nat) :
    Kept s0 (State.clockOut s u i) := by
  unfold State.clockOut
  with_reducible repeat' first
    | assumption
    | apply State.setSynth_kept
    | (apply Kept.ite <;> intro)
    | (apply Kept.ite_fst <;> intro)
    | (refine Kept.fst (by assumption) ?_)
    | (refine Kept.snd (by assumption) ?_)
    | (apply Kept.foldl <;> intros)
    | (apply Kept.foldl_fst <;> intros)
    | dsimp only
    | split
    | apply Kept.upd

theorem State.clocksTick_kept {s0 s : State} (h : Kept s0 s) (u : Tick) :
    Kept s0 (State.clocksTick s u) := by
  unfold State.clocksTick
  with_reducible repeat' first
    | assumption
    | apply State.clockOut_kept
    | (apply Kept.ite <;> intro)
    | (apply Kept.ite_fst <;> intro)
    | (refine Kept.fst (by assumption) ?_)
    | (refine Kept.snd (by assumption) ?_)
    | (apply Kept.foldl <;> intros)
    | (apply Kept.foldl_fst <;> intros)
    | dsimp only
    | split
    | apply Kept.upd

theorem State.showSyn_kept {s0 s : State} (h : Kept s0 s) (n : Nat) :
    Kept s0 (State.showSyn s n) := by
  unfold State.showSyn
  with_reducible repeat' first
    | assumption
    | apply State.setObj_kept
    | (apply Kept.ite <;> intro)
    | (apply Kept.ite_fst <;> intro)
    | (refine Kept.fst (by assumption) ?_)
    | (refine Kept.snd (by assumption) ?_)
    | (apply Kept.foldl <;> intros)
    | (apply Kept.foldl_fst <;> intros)
    | dsimp only
    | split
    | apply Kept.upd

theorem State.relock_kept {s0 s : State} (h : Kept s0 s) (i : Nat) (t : Tick) (gated : Bool) :
    Kept s0 (State.relock s i t gated) := by
  unfold State.relock
  with_reducible repeat' first
    | assumption
    | apply State.bump_kept
    | apply State.setObj_kept
    | apply State.setSynth_kept
    | apply State.showSyn_kept
    | (apply Kept.ite <;> intro)
    | (apply Kept.ite_fst <;> intro)
    | (refine Kept.fst (by assumption) ?_)
    | (refine Kept.snd (by assumption) ?_)
    | (apply Kept.foldl <;> intros)
    | (apply Kept.foldl_fst <;> intros)
    | dsimp only
    | split
    | apply Kept.upd

theorem State.synEffects_kept {s0 s : State} (h : Kept s0 s) (old : State) (keys : List Key) (t : Tick) :
    Kept s0 (State.synEffects s old keys t) := by
  unfold State.synEffects
  with_reducible repeat' first
    | assumption
    | apply State.relock_kept
    | apply State.setObjs_kept
    | apply State.setSynth_kept
    | apply State.showSyn_kept
    | (apply Kept.ite <;> intro)
    | (apply Kept.ite_fst <;> intro)
    | (refine Kept.fst (by assumption) ?_)
    | (refine Kept.snd (by assumption) ?_)
    | (apply Kept.foldl <;> intros)
    | (apply Kept.foldl_fst <;> intros)
    | dsimp only
    | split
    | apply Kept.upd

theorem State.picotWrite_kept {s0 s : State} (h : Kept s0 s) (n v : Nat) :
    Kept s0 ((State.picotWrite s n v).1) := by
  unfold State.picotWrite
  with_reducible repeat' first
    | assumption
    | apply State.setInt_kept
    | (apply Kept.ite_fst <;> intro)

theorem execPicotStep_kept {s0 s : State} (h : Kept s0 s) (n : Nat) :
    KeptAns s0 (execPicotStep n s) := by
  unfold execPicotStep
  with_reducible repeat' first
    | assumption
    | apply KeptAns.next
    | (apply KeptAns.ite <;> intro)
    | apply State.setInt_kept
    | apply State.setSynth_kept
    | (apply Kept.ite <;> intro)
    | (apply Kept.ite_fst <;> intro)
    | (refine Kept.fst (by assumption) ?_)
    | (refine Kept.snd (by assumption) ?_)
    | (apply Kept.foldl <;> intros)
    | (apply Kept.foldl_fst <;> intros)
    | dsimp only
    | split
    | apply Kept.upd

theorem execSynLock_kept {s0 s : State} (h : Kept s0 s) (i : Nat) :
    KeptAns s0 (execSynLock i s) := by
  unfold execSynLock
  with_reducible repeat' first
    | assumption
    | apply KeptAns.next
    | (apply KeptAns.ite <;> intro)
    | apply State.setObj_kept
    | apply State.setSynth_kept
    | apply State.showSyn_kept
    | (apply Kept.ite <;> intro)
    | (apply Kept.ite_fst <;> intro)
    | (refine Kept.fst (by assumption) ?_)
    | (refine Kept.snd (by assumption) ?_)
    | (apply Kept.foldl <;> intros)
    | (apply Kept.foldl_fst <;> intros)
    | dsimp only
    | split
    | apply Kept.upd

theorem execClkoutRestart_kept {s0 s : State} (h : Kept s0 s) (n : Nat) :
    KeptAns s0 (execClkoutRestart n s) := by
  unfold execClkoutRestart
  with_reducible repeat' first
    | assumption
    | apply KeptAns.next
    | (apply KeptAns.ite <;> intro)
    | apply State.setSynth_kept
    | apply State.showSyn_kept
    | (apply Kept.ite <;> intro)
    | (apply Kept.ite_fst <;> intro)
    | (refine Kept.fst (by assumption) ?_)
    | (refine Kept.snd (by assumption) ?_)
    | (apply Kept.foldl <;> intros)
    | (apply Kept.foldl_fst <;> intros)
    | dsimp only
    | split
    | apply Kept.upd

theorem execClkoutStart_kept {s0 s : State} (h : Kept s0 s) (n : Nat) :
    KeptAns s0 (execClkoutStart n s) := by
  unfold execClkoutStart
  with_reducible repeat' first
    | assumption
    | apply KeptAns.next
    | (apply KeptAns.ite <;> intro)
    | apply State.setSynth_kept
    | apply State.showSyn_kept
    | (apply Kept.ite <;> intro)
    | (apply Kept.ite_fst <;> intro)
    | (refine Kept.fst (by assumption) ?_)
    | (refine Kept.snd (by assumption) ?_)
    | (apply Kept.foldl <;> intros)
    | (apply Kept.foldl_fst <;> intros)
    | dsimp only
    | split
    | apply Kept.upd

theorem execClkoutStop_kept {s0 s : State} (h : Kept s0 s) (n : Nat) :
    KeptAns s0 (execClkoutStop n s) := by
  unfold execClkoutStop
  with_reducible repeat' first
    | assumption
    | apply KeptAns.next
    | (apply KeptAns.ite <;> intro)
    | apply State.setSynth_kept
    | apply State.showSyn_kept
    | (apply Kept.ite <;> intro)
    | (apply Kept.ite_fst <;> intro)
    | (refine Kept.fst (by assumption) ?_)
    | (refine Kept.snd (by assumption) ?_)
    | (apply Kept.foldl <;> intros)
    | (apply Kept.foldl_fst <;> intros)
    | dsimp only
    | split
    | apply Kept.upd

theorem execRefclkLoss_kept {s0 s : State} (h : Kept s0 s) :
    KeptAns s0 (execRefclkLoss s) := by
  unfold execRefclkLoss
  with_reducible repeat' first
    | assumption
    | apply KeptAns.next
    | (apply KeptAns.ite <;> intro)
    | apply State.setObj_kept
    | apply State.setSynth_kept
    | apply State.setTime_kept
    | apply State.sourceLost_kept
    | (apply Kept.ite <;> intro)
    | (refine Kept.fst (by assumption) ?_)
    | (refine Kept.snd (by assumption) ?_)
    | (apply Kept.foldl <;> intros)

theorem execRefclkReturn_kept {s0 s : State} (h : Kept s0 s) :
    KeptAns s0 (execRefclkReturn s) := by
  unfold execRefclkReturn
  with_reducible repeat' first
    | assumption
    | apply KeptAns.next
    | (apply KeptAns.ite <;> intro)
    | apply State.qualify_kept
    | apply State.relock_kept
    | apply State.setObj_kept
    | apply State.setSynth_kept
    | apply State.setTime_kept
    | (apply Kept.ite <;> intro)
    | (refine Kept.fst (by assumption) ?_)
    | (refine Kept.snd (by assumption) ?_)
    | (apply Kept.foldl <;> intros)

theorem execRefclkClassify_kept {s0 s : State} (h : Kept s0 s) (hertz : Nat) :
    KeptAns s0 (execRefclkClassify hertz s) := by
  unfold execRefclkClassify
  with_reducible repeat' first
    | assumption
    | apply KeptAns.next
    | (apply KeptAns.ite <;> intro)
    | apply State.relock_kept
    | apply State.setObj_kept
    | apply State.setObjs_kept
    | apply State.setTime_kept

end Sys2Proof.Machine
end

