-- ==== Sys2Proof/Laws/KeepLc.lean ====
section
/-! SUPPORT. What the operations of Machine/Lc.lean keep. -/

namespace Sys2Proof.Machine

theorem State.setChan_kept {s0 s : State} (h : Kept s0 s) (n : Nat) (c : Channel) :
    Kept s0 (State.setChan s n c) := by
  unfold State.setChan
  with_reducible repeat' first
    | assumption
    | (refine Kept.fst (by assumption) ?_)
    | (refine Kept.snd (by assumption) ?_)
    | dsimp only
    | split
    | apply Kept.upd

theorem State.stateEst_kept {s0 s : State} (h : Kept s0 s) (n reason sub state : Nat) (level lower : Bool) (t : Tick) :
    Kept s0 (State.stateEst s n reason sub state level lower t) := by
  unfold State.stateEst
  with_reducible repeat' first
    | assumption
    | apply State.bump_kept
    | apply State.deliver_kept
    | (refine Kept.fst (by assumption) ?_)
    | (refine Kept.snd (by assumption) ?_)
    | (apply Kept.foldl <;> intros)

theorem State.chanTick_kept {s0 s : State} (h : Kept s0 s) (waves : Tab (List (Nat × Int))) (u : Tick) (n : Nat) :
    Kept s0 ((State.chanTick s waves u n).1) := by
  unfold State.chanTick
  with_reducible repeat' first
    | assumption
    | apply State.bump_kept
    | apply State.setChan_kept
    | apply State.setObj_kept
    | apply State.stateEst_kept
    | (apply Kept.ite <;> intro)
    | (apply Kept.ite_fst <;> intro)
    | (refine Kept.fst (by assumption) ?_)
    | (refine Kept.snd (by assumption) ?_)
    | (apply Kept.foldl <;> intros)
    | (apply Kept.foldl_fst <;> intros)
    | dsimp only
    | split
    | apply Kept.upd

theorem State.drainOne_kept {s0 s : State} (h : Kept s0 s) (u : Tick) (n : Nat) :
    Kept s0 (State.drainOne s u n) := by
  unfold State.drainOne
  with_reducible repeat' first
    | assumption
    | apply State.addEdge_kept
    | apply State.deliver_kept
    | apply State.rest_kept
    | apply State.setChan_kept
    | (refine Kept.fst (by assumption) ?_)
    | (refine Kept.snd (by assumption) ?_)
    | (apply Kept.foldl <;> intros)
    | dsimp only
    | split

theorem State.drainGroup_kept {s0 s : State} (h : Kept s0 s) (u : Tick) (g : Nat) :
    Kept s0 (State.drainGroup s u g) := by
  unfold State.drainGroup
  with_reducible repeat' first
    | assumption
    | apply State.drainOne_kept
    | (apply Kept.ite_fst <;> intro)
    | (refine Kept.fst (by assumption) ?_)
    | (refine Kept.snd (by assumption) ?_)
    | (apply Kept.foldl_fst <;> intros)
    | dsimp only
    | split
    | apply Kept.upd

theorem State.keepBalls_kept {s0 s : State} (h : Kept s0 s) (waves : Tab (List (Nat × Int))) (g : Nat) :
    Kept s0 (State.keepBalls s waves g) := by
  unfold State.keepBalls
  with_reducible repeat' first
    | assumption
    | apply State.setChan_kept
    | (apply Kept.ite <;> intro)
    | (apply Kept.ite_fst <;> intro)
    | (refine Kept.fst (by assumption) ?_)
    | (refine Kept.snd (by assumption) ?_)
    | (apply Kept.foldl <;> intros)
    | (apply Kept.foldl_fst <;> intros)
    | dsimp only
    | split
    | apply Kept.upd

theorem State.groupTick_kept {s0 s : State} (h : Kept s0 s) (waves : Tab (List (Nat × Int))) (fails : List (Nat × Nat)) (u : Tick) (g : Nat) :
    Kept s0 (State.groupTick s waves fails u g) := by
  unfold State.groupTick
  with_reducible repeat' first
    | assumption
    | apply State.addItem_kept
    | apply State.chanTick_kept
    | apply State.drainGroup_kept
    | apply State.keepBalls_kept
    | (apply Kept.ite <;> intro)
    | (apply Kept.ite_fst <;> intro)
    | (refine Kept.fst (by assumption) ?_)
    | (refine Kept.snd (by assumption) ?_)
    | (apply Kept.foldl <;> intros)
    | (apply Kept.foldl_fst <;> intros)
    | dsimp only
    | split
    | apply Kept.upd

theorem State.lcTick_kept {s0 s : State} (h : Kept s0 s) (waves : List Wave) (fails : List (Nat × Nat)) (u : Tick) :
    Kept s0 (State.lcTick s waves fails u) := by
  unfold State.lcTick
  with_reducible repeat' first
    | assumption
    | apply State.groupTick_kept
    | (refine Kept.fst (by assumption) ?_)
    | (refine Kept.snd (by assumption) ?_)
    | (apply Kept.foldl <;> intros)

theorem State.ballsOnly_kept {s0 s : State} (h : Kept s0 s) (waves : List Wave) :
    Kept s0 (State.ballsOnly s waves) := by
  unfold State.ballsOnly
  with_reducible repeat' first
    | assumption
    | apply State.keepBalls_kept
    | (apply Kept.ite <;> intro)
    | (apply Kept.ite_fst <;> intro)
    | (refine Kept.fst (by assumption) ?_)
    | (refine Kept.snd (by assumption) ?_)
    | (apply Kept.foldl <;> intros)
    | (apply Kept.foldl_fst <;> intros)
    | dsimp only
    | split
    | apply Kept.upd

theorem State.joinFlags_kept {s0 s : State} (h : Kept s0 s) :
    Kept s0 (State.joinFlags s) := by
  unfold State.joinFlags
  with_reducible repeat' first
    | assumption
    | apply State.setChan_kept
    | apply State.setObj_kept
    | (apply Kept.ite <;> intro)
    | (apply Kept.ite_fst <;> intro)
    | (refine Kept.fst (by assumption) ?_)
    | (refine Kept.snd (by assumption) ?_)
    | (apply Kept.foldl <;> intros)
    | (apply Kept.foldl_fst <;> intros)
    | dsimp only
    | split
    | apply Kept.upd

theorem State.startChan_kept {s0 s : State} (h : Kept s0 s) (n : Nat) (t : Tick) (upper lower : Bool) :
    Kept s0 (State.startChan s n t upper lower) := by
  unfold State.startChan
  with_reducible repeat' first
    | assumption
    | apply State.setChan_kept
    | apply State.setObj_kept
    | (apply Kept.ite <;> intro)
    | (apply Kept.ite_fst <;> intro)
    | (refine Kept.fst (by assumption) ?_)
    | (refine Kept.snd (by assumption) ?_)
    | (apply Kept.foldl <;> intros)
    | (apply Kept.foldl_fst <;> intros)
    | dsimp only
    | split
    | apply Kept.upd

theorem execComparatorSettle_kept {s0 s : State} (h : Kept s0 s) (n : Nat) (lower : Bool) (microvolts : Int) :
    KeptAns s0 (execComparatorSettle n lower microvolts s) := by
  unfold execComparatorSettle
  with_reducible repeat' first
    | assumption
    | apply KeptAns.next
    | (apply KeptAns.ite <;> intro)
    | apply State.fresh_kept
    | apply State.setChan_kept
    | apply State.setObj_kept
    | apply State.stateEst_kept
    | (apply Kept.ite <;> intro)
    | (apply Kept.ite_fst <;> intro)
    | (refine Kept.fst (by assumption) ?_)
    | (refine Kept.snd (by assumption) ?_)
    | (apply Kept.foldl <;> intros)
    | (apply Kept.foldl_fst <;> intros)
    | dsimp only
    | split
    | apply Kept.upd

theorem State.lcEffects_kept {s0 s : State} (h : Kept s0 s) (old : State) (t : Tick) (keys : List Key) :
    Kept s0 (State.lcEffects s old t keys) := by
  unfold State.lcEffects
  with_reducible repeat' first
    | assumption
    | apply State.setChan_kept
    | apply State.startChan_kept
    | (apply Kept.ite <;> intro)
    | (apply Kept.ite_fst <;> intro)
    | (refine Kept.fst (by assumption) ?_)
    | (refine Kept.snd (by assumption) ?_)
    | (apply Kept.foldl <;> intros)
    | (apply Kept.foldl_fst <;> intros)
    | dsimp only
    | split
    | apply Kept.upd

theorem State.startFrontEnds_kept {s0 s : State} (h : Kept s0 s) (t : Tick) :
    Kept s0 (State.startFrontEnds s t) := by
  unfold State.startFrontEnds
  with_reducible repeat' first
    | assumption
    | apply State.restAll_kept
    | (refine Kept.fst (by assumption) ?_)
    | (refine Kept.snd (by assumption) ?_)
    | dsimp only
    | split
    | apply Kept.upd

end Sys2Proof.Machine
end

