-- ==== Sys2Proof/Laws/KeepUnits.lean ====
section
/-! SUPPORT. What the operations of Machine/Units.lean keep. -/

namespace Sys2Proof.Machine

theorem State.unitTick_kept {s0 s : State} (h : Kept s0 s) (here : List Arrival) (u : Tick) (n : Nat) :
    Kept s0 (State.unitTick s here u n) := by
  unfold State.unitTick
  with_reducible repeat' first
    | assumption
    | apply State.bump_kept
    | apply State.setObj_kept
    | (apply Kept.ite <;> intro)
    | (apply Kept.ite_fst <;> intro)
    | (refine Kept.fst (by assumption) ?_)
    | (refine Kept.snd (by assumption) ?_)
    | (apply Kept.foldl <;> intros)
    | (apply Kept.foldl_fst <;> intros)
    | dsimp only
    | split
    | apply Kept.upd

theorem State.showPins_kept {s0 s : State} (h : Kept s0 s) (here : List Arrival) :
    Kept s0 (State.showPins s here) := by
  unfold State.showPins
  with_reducible repeat' first
    | assumption
    | apply State.setObj_kept
    | (refine Kept.fst (by assumption) ?_)
    | (refine Kept.snd (by assumption) ?_)
    | (apply Kept.foldl <;> intros)
    | dsimp only
    | split
    | apply Kept.upd

theorem State.unitsTick_kept {s0 s : State} (h : Kept s0 s) (u : Tick) :
    Kept s0 (State.unitsTick s u) := by
  unfold State.unitsTick
  with_reducible repeat' first
    | assumption
    | apply State.showPins_kept
    | apply State.unitTick_kept
    | (refine Kept.fst (by assumption) ?_)
    | (refine Kept.snd (by assumption) ?_)
    | (apply Kept.foldl <;> intros)
    | dsimp only
    | split
    | apply Kept.upd

theorem State.historyTick_kept {s0 s : State} (h : Kept s0 s) (u : Tick) :
    Kept s0 (State.historyTick s u) := by
  unfold State.historyTick
  with_reducible repeat' first
    | assumption
    | (apply Kept.ite <;> intro)
    | (refine Kept.fst (by assumption) ?_)
    | (refine Kept.snd (by assumption) ?_)
    | (apply Kept.foldl <;> intros)
    | dsimp only
    | split
    | apply Kept.upd

theorem State.clearRing_kept {s0 s : State} (h : Kept s0 s) (h : Nat) (t : Tick) :
    Kept s0 (State.clearRing s h t) := by
  unfold State.clearRing
  with_reducible repeat' first
    | assumption
    | (apply Kept.ite <;> intro)
    | (refine Kept.fst (by assumption) ?_)
    | (refine Kept.snd (by assumption) ?_)
    | dsimp only
    | split
    | apply Kept.upd

theorem State.unitEffects_kept {s0 s : State} (h : Kept s0 s) (old : State) (t : Tick) (keys : List Key) (forced : List Nat) :
    Kept s0 (State.unitEffects s old t keys forced) := by
  unfold State.unitEffects
  with_reducible repeat' first
    | assumption
    | apply State.clearRing_kept
    | (apply Kept.ite <;> intro)
    | (refine Kept.fst (by assumption) ?_)
    | (refine Kept.snd (by assumption) ?_)
    | (apply Kept.foldl <;> intros)
    | dsimp only
    | split
    | apply Kept.upd

theorem State.samplePins_kept {s0 s : State} (h : Kept s0 s) (changes : List (Nat × Bool)) :
    Kept s0 (State.samplePins s changes) := by
  unfold State.samplePins
  with_reducible repeat' first
    | assumption
    | (apply Kept.ite <;> intro)
    | (apply Kept.ite_fst <;> intro)
    | (refine Kept.fst (by assumption) ?_)
    | (refine Kept.snd (by assumption) ?_)
    | (apply Kept.foldl <;> intros)
    | (apply Kept.foldl_fst <;> intros)
    | dsimp only
    | split
    | apply Kept.upd

theorem State.restartPins_kept {s0 s : State} (h : Kept s0 s) (t : Tick) :
    Kept s0 (State.restartPins s t) := by
  unfold State.restartPins
  with_reducible repeat' first
    | assumption
    | apply State.setObj_kept
    | (apply Kept.ite <;> intro)
    | (apply Kept.ite_fst <;> intro)
    | (refine Kept.fst (by assumption) ?_)
    | (refine Kept.snd (by assumption) ?_)
    | (apply Kept.foldl <;> intros)
    | (apply Kept.foldl_fst <;> intros)
    | dsimp only
    | split
    | apply Kept.upd

theorem execTrigInAccept_kept {s0 s : State} (h : Kept s0 s) (pin : Nat) (level : Bool) :
    KeptAns s0 (execTrigInAccept pin level s) := by
  unfold execTrigInAccept
  with_reducible repeat' first
    | assumption
    | apply KeptAns.next
    | (apply KeptAns.ite <;> intro)
    | (apply Kept.ite <;> intro)
    | (apply Kept.ite_fst <;> intro)
    | (refine Kept.fst (by assumption) ?_)
    | (refine Kept.snd (by assumption) ?_)
    | (apply Kept.foldl <;> intros)
    | (apply Kept.foldl_fst <;> intros)
    | dsimp only
    | split
    | apply Kept.upd

theorem State.pulseLines_kept {s0 s : State} (h : Kept s0 s) (t : Tick) (lines : Nat) :
    Kept s0 (State.pulseLines s t lines) := by
  unfold State.pulseLines
  with_reducible repeat' first
    | assumption
    | apply State.rest_kept
    | (refine Kept.fst (by assumption) ?_)
    | (refine Kept.snd (by assumption) ?_)
    | dsimp only
    | split
    | apply Kept.upd

end Sys2Proof.Machine
end

