-- ==== Sys2Proof/Laws/KeepDecoders.lean ====
section
/-! SUPPORT. What the operations of Machine/Decoders.lean keep. -/

namespace Sys2Proof.Machine

theorem State.setDec_kept {s0 s : State} (h : Kept s0 s) (n : Nat) (d : Decoder) :
    Kept s0 (State.setDec s n d) := by
  unfold State.setDec
  with_reducible repeat' first
    | assumption
    | (refine Kept.fst (by assumption) ?_)
    | (refine Kept.snd (by assumption) ?_)
    | dsimp only
    | split
    | apply Kept.upd

theorem State.arrive_kept {s0 s : State} (h : Kept s0 s) (due : Tick) (a : Arrival) :
    Kept s0 (State.arrive s due a) := by
  unfold State.arrive
  with_reducible repeat' first
    | assumption
    | (refine Kept.fst (by assumption) ?_)
    | (refine Kept.snd (by assumption) ?_)
    | dsimp only
    | split
    | apply Kept.upd

theorem State.toVideo_kept {s0 s : State} (h : Kept s0 s) (n : Nat) (recs : List Rec) (t now : Tick) (tally : List (Key × Nat)) :
    Kept s0 (State.toVideo s n recs t now tally) := by
  unfold State.toVideo
  with_reducible repeat' first
    | assumption
    | apply State.deliver_kept
    | (apply Kept.ite <;> intro)
    | (apply Kept.ite_fst <;> intro)
    | (refine Kept.fst (by assumption) ?_)
    | (refine Kept.snd (by assumption) ?_)
    | (apply Kept.foldl <;> intros)
    | (apply Kept.foldl_fst <;> intros)
    | dsimp only
    | split
    | apply Kept.upd

theorem State.videoEvent_kept {s0 s : State} (h : Kept s0 s) (n kind ln sig : Nat) (incomplete : Bool) (detail : Nat) (t now : Tick) :
    Kept s0 (State.videoEvent s n kind ln sig incomplete detail t now) := by
  unfold State.videoEvent
  with_reducible repeat' first
    | assumption
    | apply State.arrive_kept
    | apply State.toVideo_kept
    | (apply Kept.ite <;> intro)

theorem State.codeError_kept {s0 s : State} (h : Kept s0 s) (n kind count logical : Nat) (t now : Tick) :
    Kept s0 (State.codeError s n kind count logical t now) := by
  unfold State.codeError
  with_reducible repeat' first
    | assumption
    | apply State.arrive_kept
    | apply State.bump_kept
    | apply State.setDec_kept
    | (apply Kept.ite <;> intro)

theorem State.flushErrors_kept {s0 s : State} (h : Kept s0 s) (n : Nat) (now : Tick) :
    Kept s0 (State.flushErrors s n now) := by
  unfold State.flushErrors
  with_reducible repeat' first
    | assumption
    | apply State.setDec_kept
    | apply State.toVideo_kept
    | (refine Kept.fst (by assumption) ?_)
    | (refine Kept.snd (by assumption) ?_)
    | dsimp only
    | split

theorem State.flushLoss_kept {s0 s : State} (h : Kept s0 s) (n : Nat) (now : Tick) :
    Kept s0 (State.flushLoss s n now) := by
  unfold State.flushLoss
  with_reducible repeat' first
    | assumption
    | apply State.arrive_kept
    | apply State.bump_kept
    | apply State.setDec_kept
    | apply State.setObj_kept
    | apply State.videoEvent_kept
    | (refine Kept.fst (by assumption) ?_)
    | (refine Kept.snd (by assumption) ?_)
    | dsimp only
    | split

theorem State.decSync_kept {s0 s : State} (h : Kept s0 s) (n now : Tick) :
    Kept s0 (State.decSync s n now) := by
  unfold State.decSync
  with_reducible repeat' first
    | assumption
    | apply State.setDec_kept
    | apply State.setObj_kept
    | apply State.videoEvent_kept
    | (apply Kept.ite <;> intro)
    | (apply Kept.ite_fst <;> intro)
    | (refine Kept.fst (by assumption) ?_)
    | (refine Kept.snd (by assumption) ?_)
    | (apply Kept.foldl <;> intros)
    | (apply Kept.foldl_fst <;> intros)
    | dsimp only
    | split
    | apply Kept.upd

theorem State.tapSignature_kept {s0 s : State} (h : Kept s0 s) (inst : Nat) (flow : Option Nat) (sig : Nat) (incomplete : Bool) (t : SubTime) :
    Kept s0 (State.tapSignature s inst flow sig incomplete t) := by
  unfold State.tapSignature
  with_reducible repeat' first
    | assumption
    | apply State.bump_kept
    | (apply Kept.ite <;> intro)
    | (refine Kept.fst (by assumption) ?_)
    | (refine Kept.snd (by assumption) ?_)
    | (apply Kept.foldl <;> intros)
    | dsimp only
    | split
    | apply Kept.upd

theorem State.signFrame_kept {s0 s : State} (h : Kept s0 s) (n : Nat) (f : SdiFrame) (t : Tick) (lines : Nat) (now : Tick) :
    Kept s0 (State.signFrame s n f t lines now) := by
  unfold State.signFrame
  with_reducible repeat' first
    | assumption
    | apply State.bump_kept
    | apply State.setObj_kept
    | apply State.tapSignature_kept
    | apply State.videoEvent_kept
    | (apply Kept.ite <;> intro)
    | (apply Kept.ite_fst <;> intro)
    | (refine Kept.fst (by assumption) ?_)
    | (refine Kept.snd (by assumption) ?_)
    | (apply Kept.foldl <;> intros)
    | (apply Kept.foldl_fst <;> intros)
    | dsimp only
    | split
    | apply Kept.upd

theorem State.decLose_kept {s0 s : State} (h : Kept s0 s) (n reason : Nat) (t : Tick) (open_ : Bool) :
    Kept s0 (State.decLose s n reason t open_) := by
  unfold State.decLose
  dsimp only
  have hm : Kept s0 (match (s.dec n).frame.closed with
      | some (at_, lines) => s.signFrame n (takeLines (s.decLanes n).length (((s.dec n).frame.queue.getD 0 []).length + 1) (s.dec n).frame) at_ lines s.tick
      | none => s) := by
    split
    · exact State.signFrame_kept h ..
    · exact h
  have ha (x : Decoder) (u : Tick) (y : Arrival) := State.arrive_kept (State.setDec_kept hm n x) u y
  refine Kept.ite (fun _ => State.setObjs_kept ?_ _) (fun _ => State.setDec_kept h _ _)
  exact Kept.ite (fun _ => State.bump_kept (ha _ _ _) _ _) (fun _ => ha _ _ _)

theorem State.finishFrame_kept {s0 s : State} (h : Kept s0 s) (n now : Tick) :
    Kept s0 (State.finishFrame s n now) := by
  unfold State.finishFrame
  with_reducible repeat' first
    | assumption
    | apply State.setDec_kept
    | apply State.signFrame_kept
    | (apply Kept.ite <;> intro)
    | (apply Kept.ite_fst <;> intro)
    | (refine Kept.fst (by assumption) ?_)
    | (refine Kept.snd (by assumption) ?_)
    | (apply Kept.foldl <;> intros)
    | (apply Kept.foldl_fst <;> intros)
    | dsimp only
    | split
    | apply Kept.upd

theorem State.markIncomplete_kept {s0 s : State} (h : Kept s0 s) (n i : Nat) (t : Tick) :
    Kept s0 (State.markIncomplete s n i t) := by
  unfold State.markIncomplete
  with_reducible repeat' first
    | assumption
    | apply State.setDec_kept
    | (apply Kept.ite <;> intro)
    | (apply Kept.ite_fst <;> intro)
    | (refine Kept.fst (by assumption) ?_)
    | (refine Kept.snd (by assumption) ?_)
    | (apply Kept.foldl <;> intros)
    | (apply Kept.foldl_fst <;> intros)
    | dsimp only
    | split
    | apply Kept.upd

theorem State.sdiLine_kept {s0 s : State} (h : Kept s0 s) (n i ln : Nat) (f v : Bool) (prev : Option Nat) (prevV : Bool) (t now : Tick) :
    Kept s0 (State.sdiLine s n i ln f v prev prevV t now) := by
  unfold State.sdiLine
  with_reducible repeat' first
    | assumption
    | apply State.arrive_kept
    | apply State.bump_kept
    | apply State.finishFrame_kept
    | apply State.markIncomplete_kept
    | apply State.setDec_kept
    | apply State.setObj_kept
    | apply State.videoEvent_kept
    | (apply Kept.ite <;> intro)
    | (apply Kept.ite_fst <;> intro)
    | (refine Kept.fst (by assumption) ?_)
    | (refine Kept.snd (by assumption) ?_)
    | (apply Kept.foldl <;> intros)
    | (apply Kept.foldl_fst <;> intros)
    | dsimp only
    | split
    | apply Kept.upd

theorem State.linkCheck_kept {s0 s : State} (h : Kept s0 s) (n now : Tick) :
    Kept s0 (State.linkCheck s n now) := by
  unfold State.linkCheck
  with_reducible repeat' first
    | assumption
    | apply State.finishFrame_kept
    | apply State.markIncomplete_kept
    | apply State.setDec_kept
    | apply State.videoEvent_kept
    | (apply Kept.ite <;> intro)
    | (apply Kept.ite_fst <;> intro)
    | (refine Kept.fst (by assumption) ?_)
    | (refine Kept.snd (by assumption) ?_)
    | (apply Kept.foldl <;> intros)
    | (apply Kept.foldl_fst <;> intros)
    | dsimp only
    | split
    | apply Kept.upd

theorem State.sdiAnc_kept {s0 s : State} (h : Kept s0 s) (n stream ln : Nat) (vertical : Bool) (off : Nat) (words : List Nat) (t now : Tick) :
    Kept s0 (State.sdiAnc s n stream ln vertical off words t now) := by
  unfold State.sdiAnc
  with_reducible repeat' first
    | assumption
    | apply State.arrive_kept
    | apply State.bump_kept
    | apply State.setDec_kept
    | apply State.setObj_kept
    | apply State.videoEvent_kept
    | (apply Kept.ite <;> intro)

theorem State.releaseAnc_kept {s0 s : State} (h : Kept s0 s) (n now : Tick) :
    Kept s0 (State.releaseAnc s n now) := by
  unfold State.releaseAnc
  with_reducible repeat' first
    | assumption
    | apply State.bump_kept
    | apply State.rest_kept
    | apply State.setDec_kept
    | apply State.toVideo_kept
    | (refine Kept.fst (by assumption) ?_)
    | (refine Kept.snd (by assumption) ?_)
    | dsimp only
    | split

theorem State.sdiFilet_kept {s0 s : State} (h : Kept s0 s) (n ln : Nat) (luma chroma : List Nat) (now : Tick) :
    Kept s0 (State.sdiFilet s n ln luma chroma now) := by
  unfold State.sdiFilet
  refine Kept.ite (fun _ => ?_) (fun _ => h)
  exact Kept.foldl _ _ h fun _ _ hv => State.toVideo_kept hv ..

theorem State.presentItem_kept {s0 s : State} (h : Kept s0 s) (n : Nat) (c : CodeItem) (now : Tick) :
    Kept s0 (State.presentItem s n c now) := by
  unfold State.presentItem
  with_reducible repeat' first
    | assumption
    | apply State.arrive_kept
    | (apply Kept.ite <;> intro)

theorem State.presentLink_kept {s0 s : State} (h : Kept s0 s) (n now : Tick) (lanes : Nat) (fuel : Nat) : Kept s0 (State.presentLink s n now lanes fuel) := by
  induction fuel generalizing s with
  | zero => exact h
  | succ n ih =>
    unfold State.presentLink
    with_reducible repeat' first
      | assumption
      | apply ih
      | apply State.presentItem_kept
      | apply State.setDec_kept
      | (apply Kept.foldl <;> intros)
      | (apply Kept.ite <;> intro)

theorem State.codeItem_kept {s0 s : State} (h : Kept s0 s) (n i : Nat) (c : CodeItem) (now : Tick) :
    Kept s0 (State.codeItem s n i c now) := by
  unfold State.codeItem
  with_reducible repeat' first
    | assumption
    | apply State.presentItem_kept
    | apply State.presentLink_kept
    | apply State.setDec_kept
    | (apply Kept.ite <;> intro)

theorem State.countBad_kept {s0 s : State} (h : Kept s0 s) (n count : Nat) :
    Kept s0 (State.countBad s n count) := by
  unfold State.countBad
  with_reducible repeat' first
    | assumption
    | apply State.setDec_kept
    | apply State.setObj_kept
    | (apply Kept.ite <;> intro)

theorem State.decOut_kept {s0 s : State} (h : Kept s0 s) (n i now : Tick) (e : DecOut) :
    Kept s0 (State.decOut s n i now e) := by
  unfold State.decOut
  with_reducible repeat' first
    | assumption
    | apply State.arrive_kept
    | apply State.bump_kept
    | apply State.codeError_kept
    | apply State.codeItem_kept
    | apply State.countBad_kept
    | apply State.decLose_kept
    | apply State.decSync_kept
    | apply State.finishFrame_kept
    | apply State.markIncomplete_kept
    | apply State.sdiAnc_kept
    | apply State.sdiFilet_kept
    | apply State.sdiLine_kept
    | apply State.setDec_kept
    | apply State.videoEvent_kept
    | (apply Kept.ite <;> intro)
    | (apply Kept.ite_fst <;> intro)
    | (refine Kept.fst (by assumption) ?_)
    | (refine Kept.snd (by assumption) ?_)
    | (apply Kept.foldl <;> intros)
    | (apply Kept.foldl_fst <;> intros)
    | dsimp only
    | split
    | apply Kept.upd

theorem State.decWord_kept {s0 s : State} (h : Kept s0 s) (n i lane w stamp now : Nat) :
    Kept s0 (State.decWord s n i lane w stamp now) := by
  unfold State.decWord
  with_reducible repeat' first
    | assumption
    | apply State.decOut_kept
    | apply State.decSync_kept
    | apply State.setDec_kept
    | apply State.setObj_kept
    | (apply Kept.ite <;> intro)
    | (apply Kept.ite_fst <;> intro)
    | (refine Kept.fst (by assumption) ?_)
    | (refine Kept.snd (by assumption) ?_)
    | (apply Kept.foldl <;> intros)
    | (apply Kept.foldl_fst <;> intros)
    | dsimp only
    | split
    | apply Kept.upd

theorem State.decTick_kept {s0 s : State} (h : Kept s0 s) (u : Tick) :
    Kept s0 (State.decTick s u) := by
  unfold State.decTick
  with_reducible repeat' first
    | assumption
    | apply State.flushErrors_kept
    | apply State.flushLoss_kept
    | apply State.linkCheck_kept
    | apply State.releaseAnc_kept
    | (refine Kept.fst (by assumption) ?_)
    | (refine Kept.snd (by assumption) ?_)
    | (apply Kept.foldl <;> intros)

theorem State.decClose_kept {s0 s : State} (h : Kept s0 s) :
    Kept s0 (State.decClose s) := by
  unfold State.decClose
  with_reducible repeat' first
    | assumption
    | apply State.flushErrors_kept
    | apply State.flushLoss_kept
    | (apply Kept.ite <;> intro)
    | (apply Kept.ite_fst <;> intro)
    | (refine Kept.fst (by assumption) ?_)
    | (refine Kept.snd (by assumption) ?_)
    | (apply Kept.foldl <;> intros)
    | (apply Kept.foldl_fst <;> intros)
    | dsimp only
    | split
    | apply Kept.upd

theorem execHiBerWindow_kept {s0 s : State} (h : Kept s0 s) (n : Nat) :
    KeptAns s0 (execHiBerWindow n s) := by
  unfold execHiBerWindow
  with_reducible repeat' first
    | assumption
    | apply KeptAns.next
    | (apply KeptAns.ite <;> intro)
    | apply State.setDec_kept
    | apply State.setObj_kept
    | (apply Kept.ite <;> intro)

end Sys2Proof.Machine
end

