-- ==== Sys2Proof/Laws/KeepLanes.lean ====
section
/-! SUPPORT. What the operations of Machine/Lanes.lean keep. -/

namespace Sys2Proof.Machine

theorem State.setLane_kept {s0 s : State} (h : Kept s0 s) (n : Nat) (x : Lane) :
    Kept s0 (State.setLane s n x) := by
  unfold State.setLane
  with_reducible repeat' first
    | assumption
    | (refine Kept.fst (by assumption) ?_)
    | (refine Kept.snd (by assumption) ?_)
    | dsimp only
    | split
    | apply Kept.upd

theorem State.setLnk_kept {s0 s : State} (h : Kept s0 s) (k : Nat) (x : Link) :
    Kept s0 (State.setLnk s k x) := by
  unfold State.setLnk
  with_reducible repeat' first
    | assumption
    | (refine Kept.fst (by assumption) ?_)
    | (refine Kept.snd (by assumption) ?_)
    | dsimp only
    | split
    | apply Kept.upd

theorem State.sourceGap_kept {s0 s : State} (h : Kept s0 s) (kind src cause start stop items : Nat) (now : Tick) :
    Kept s0 (State.sourceGap s kind src cause start stop items now) := by
  unfold State.sourceGap
  with_reducible repeat' first
    | assumption
    | apply State.deliver_kept
    | (refine Kept.fst (by assumption) ?_)
    | (refine Kept.snd (by assumption) ?_)
    | (apply Kept.foldl <;> intros)

theorem State.linkPresent_kept {s0 s : State} (h : Kept s0 s) (k i w stamp now : Nat) :
    Kept s0 (State.linkPresent s k i w stamp now) := by
  unfold State.linkPresent
  with_reducible repeat' first
    | assumption
    | apply State.addWord_kept
    | apply State.decWord_kept
    | (apply Kept.ite <;> intro)
    | (apply Kept.ite_fst <;> intro)
    | (refine Kept.fst (by assumption) ?_)
    | (refine Kept.snd (by assumption) ?_)
    | (apply Kept.foldl <;> intros)
    | (apply Kept.foldl_fst <;> intros)
    | dsimp only
    | split
    | apply Kept.upd

theorem State.linkLeave_kept {s0 s : State} (h : Kept s0 s) (k state reason : Nat) (t cause : Tick) :
    Kept s0 (State.linkLeave s k state reason t cause) := by
  unfold State.linkLeave
  with_reducible repeat' first
    | assumption
    | apply State.decLose_kept
    | apply State.setLnk_kept
    | apply State.setObjs_kept
    | (apply Kept.ite <;> intro)
    | (apply Kept.ite_fst <;> intro)
    | (refine Kept.fst (by assumption) ?_)
    | (refine Kept.snd (by assumption) ?_)
    | (apply Kept.foldl <;> intros)
    | (apply Kept.foldl_fst <;> intros)
    | dsimp only
    | split
    | apply Kept.upd

theorem State.linkAlign_kept {s0 s : State} (h : Kept s0 s) (k : Nat) (delays : List Nat) (t : Tick) :
    Kept s0 (State.linkAlign s k delays t) := by
  unfold State.linkAlign
  with_reducible repeat' first
    | assumption
    | apply State.setLnk_kept
    | apply State.setObjs_kept
    | apply State.sourceGap_kept
    | (refine Kept.fst (by assumption) ?_)
    | (refine Kept.snd (by assumption) ?_)
    | dsimp only
    | split

theorem State.linkTry_kept {s0 s : State} (h : Kept s0 s) (k : Nat) (t : Tick) :
    Kept s0 (State.linkTry s k t) := by
  unfold State.linkTry
  with_reducible repeat' first
    | assumption
    | apply State.linkAlign_kept
    | apply State.setLane_kept
    | apply State.setLnk_kept
    | apply State.setObjs_kept
    | (apply Kept.ite <;> intro)
    | (refine Kept.fst (by assumption) ?_)
    | (refine Kept.snd (by assumption) ?_)
    | (apply Kept.foldl <;> intros)

theorem State.linkWait_kept {s0 s : State} (h : Kept s0 s) (k : Nat) (clear : Bool) (t : Tick) :
    Kept s0 (State.linkWait s k clear t) := by
  unfold State.linkWait
  with_reducible repeat' first
    | assumption
    | apply State.linkLeave_kept
    | apply State.linkTry_kept
    | apply State.setLnk_kept
    | apply State.setObj_kept
    | (apply Kept.ite <;> intro)
    | (apply Kept.ite_fst <;> intro)
    | (refine Kept.fst (by assumption) ?_)
    | (refine Kept.snd (by assumption) ?_)
    | (apply Kept.foldl <;> intros)
    | (apply Kept.foldl_fst <;> intros)
    | dsimp only
    | split
    | apply Kept.upd

theorem State.linkSearch_kept {s0 s : State} (h : Kept s0 s) (k : Nat) (t : Tick) :
    Kept s0 (State.linkSearch s k t) := by
  unfold State.linkSearch
  with_reducible repeat' first
    | assumption
    | apply State.linkAlign_kept
    | apply State.setInt_kept
    | apply State.setLnk_kept
    | apply State.setObjs_kept
    | (apply Kept.ite <;> intro)
    | (refine Kept.fst (by assumption) ?_)
    | (refine Kept.snd (by assumption) ?_)
    | (apply Kept.foldl <;> intros)
    | dsimp only
    | split

theorem State.linkCheckSet_kept {s0 s : State} (h : Kept s0 s) (k : Nat) (t : Tick) :
    Kept s0 (State.linkCheckSet s k t) := by
  unfold State.linkCheckSet
  with_reducible repeat' first
    | assumption
    | apply State.bump_kept
    | apply State.linkLeave_kept
    | apply State.rest_kept
    | apply State.setLane_kept
    | apply State.setLnk_kept
    | (apply Kept.ite <;> intro)
    | (apply Kept.ite_fst <;> intro)
    | (refine Kept.fst (by assumption) ?_)
    | (refine Kept.snd (by assumption) ?_)
    | (apply Kept.foldl <;> intros)
    | (apply Kept.foldl_fst <;> intros)
    | dsimp only
    | split
    | apply Kept.upd

theorem State.linkMarks_kept {s0 s : State} (h : Kept s0 s) (k i lane w stamp : Nat) (t : Tick) :
    Kept s0 (State.linkMarks s k i lane w stamp t) := by
  unfold State.linkMarks
  with_reducible repeat' first
    | assumption
    | apply State.linkCheckSet_kept
    | apply State.linkSearch_kept
    | apply State.setLane_kept
    | apply State.setLnk_kept
    | (apply Kept.ite <;> intro)
    | (refine Kept.fst (by assumption) ?_)
    | (refine Kept.snd (by assumption) ?_)
    | (apply Kept.foldl <;> intros)

theorem State.linkWord_kept {s0 s : State} (h : Kept s0 s) (k lane w stamp now : Nat) :
    Kept s0 (State.linkWord s k lane w stamp now) := by
  unfold State.linkWord
  with_reducible repeat' first
    | assumption
    | apply State.linkMarks_kept
    | apply State.linkPresent_kept
    | apply State.setLnk_kept
    | (apply Kept.ite <;> intro)
    | (apply Kept.ite_fst <;> intro)
    | (refine Kept.fst (by assumption) ?_)
    | (refine Kept.snd (by assumption) ?_)
    | (apply Kept.foldl <;> intros)
    | (apply Kept.foldl_fst <;> intros)
    | dsimp only
    | split
    | apply Kept.upd

theorem State.linkTick_kept {s0 s : State} (h : Kept s0 s) (u : Tick) :
    Kept s0 (State.linkTick s u) := by
  unfold State.linkTick
  with_reducible repeat' first
    | assumption
    | apply State.linkPresent_kept
    | apply State.setLnk_kept
    | (apply Kept.ite <;> intro)
    | (apply Kept.ite_fst <;> intro)
    | (refine Kept.fst (by assumption) ?_)
    | (refine Kept.snd (by assumption) ?_)
    | (apply Kept.foldl <;> intros)
    | (apply Kept.foldl_fst <;> intros)
    | dsimp only
    | split
    | apply Kept.upd

theorem State.takeWord_kept {s0 s : State} (h : Kept s0 s) (lane raw stamp : Nat) :
    Kept s0 (State.takeWord s lane raw stamp) := by
  unfold State.takeWord
  with_reducible repeat' first
    | assumption
    | apply State.addWord_kept
    | apply State.arrive_kept
    | apply State.bump_kept
    | apply State.decWord_kept
    | apply State.linkWord_kept
    | apply State.setLane_kept
    | apply State.sourceGap_kept
    | (apply Kept.ite <;> intro)
    | (apply Kept.ite_fst <;> intro)
    | (refine Kept.fst (by assumption) ?_)
    | (refine Kept.snd (by assumption) ?_)
    | (apply Kept.foldl <;> intros)
    | (apply Kept.foldl_fst <;> intros)
    | dsimp only
    | split
    | apply Kept.upd

theorem execLaneWord_kept {s0 s : State} (h : Kept s0 s) (lane raw stamp : Nat) (_a3 : Blank) :
    KeptAns s0 (execLaneWord lane raw stamp _a3 s) := by
  unfold execLaneWord
  with_reducible repeat' first
    | assumption
    | apply KeptAns.next
    | (apply KeptAns.ite <;> intro)
    | apply State.postpone_kept
    | apply State.takeWord_kept
    | (apply Kept.ite <;> intro)
    | (apply Kept.ite_fst <;> intro)
    | (refine Kept.fst (by assumption) ?_)
    | (refine Kept.snd (by assumption) ?_)
    | (apply Kept.foldl <;> intros)
    | (apply Kept.foldl_fst <;> intros)
    | dsimp only
    | split
    | apply Kept.upd

theorem State.setCodes_kept {s0 s : State} (h : Kept s0 s) (n ctle : Nat) (dfe : List Int) :
    Kept s0 (State.setCodes s n ctle dfe) := by
  unfold State.setCodes
  with_reducible repeat' first
    | assumption
    | apply State.setInt_kept
    | apply State.setLane_kept
    | apply State.setObj_kept
    | (apply Kept.ite <;> intro)
    | (apply Kept.ite_fst <;> intro)
    | (refine Kept.fst (by assumption) ?_)
    | (refine Kept.snd (by assumption) ?_)
    | (apply Kept.foldl <;> intros)
    | (apply Kept.foldl_fst <;> intros)
    | dsimp only
    | split
    | apply Kept.upd

theorem State.seedEq_kept {s0 s : State} (h : Kept s0 s) (n : Nat) :
    Kept s0 (State.seedEq s n) := by
  unfold State.seedEq
  with_reducible repeat' first
    | assumption
    | apply State.setCodes_kept
    | (apply Kept.ite <;> intro)
    | (apply Kept.ite_fst <;> intro)
    | (refine Kept.fst (by assumption) ?_)
    | (refine Kept.snd (by assumption) ?_)
    | (apply Kept.foldl <;> intros)
    | (apply Kept.foldl_fst <;> intros)
    | dsimp only
    | split
    | apply Kept.upd

theorem State.freqAcq_kept {s0 s : State} (h : Kept s0 s) (n : Nat) :
    Kept s0 (State.freqAcq s n) := by
  unfold State.freqAcq
  with_reducible repeat' first
    | assumption
    | apply State.seedEq_kept
    | apply State.setLane_kept
    | (apply Kept.ite <;> intro)
    | (apply Kept.ite_fst <;> intro)
    | (refine Kept.fst (by assumption) ?_)
    | (refine Kept.snd (by assumption) ?_)
    | (apply Kept.foldl <;> intros)
    | (apply Kept.foldl_fst <;> intros)
    | dsimp only
    | split
    | apply Kept.upd

theorem State.abortEye_kept {s0 s : State} (h : Kept s0 s) (n result : Nat) :
    Kept s0 (State.abortEye s n result) := by
  unfold State.abortEye
  with_reducible repeat' first
    | assumption
    | (apply Kept.ite <;> intro)
    | (refine Kept.fst (by assumption) ?_)
    | (refine Kept.snd (by assumption) ?_)
    | dsimp only
    | split
    | apply Kept.upd

theorem State.laneDrop_kept {s0 s : State} (h : Kept s0 s) (n state reason partial_ : Nat) (t : Tick) :
    Kept s0 (State.laneDrop s n state reason partial_ t) := by
  unfold State.laneDrop
  with_reducible repeat' first
    | assumption
    | apply State.abortEye_kept
    | apply State.arrive_kept
    | apply State.bump_kept
    | apply State.decLose_kept
    | apply State.freqAcq_kept
    | apply State.linkWait_kept
    | apply State.setLane_kept
    | apply State.setObjs_kept
    | (apply Kept.ite <;> intro)
    | (apply Kept.ite_fst <;> intro)
    | (refine Kept.fst (by assumption) ?_)
    | (refine Kept.snd (by assumption) ?_)
    | (apply Kept.foldl <;> intros)
    | (apply Kept.foldl_fst <;> intros)
    | dsimp only
    | split
    | apply Kept.upd

theorem execCdrSignalDetect_kept {s0 s : State} (h : Kept s0 s) (lane : Nat) :
    KeptAns s0 (execCdrSignalDetect lane s) := by
  unfold execCdrSignalDetect
  with_reducible repeat' first
    | assumption
    | apply KeptAns.next
    | (apply KeptAns.ite <;> intro)
    | apply State.freqAcq_kept
    | apply State.setObj_kept
    | (apply Kept.ite <;> intro)
    | (apply Kept.ite_fst <;> intro)
    | (refine Kept.fst (by assumption) ?_)
    | (refine Kept.snd (by assumption) ?_)
    | (apply Kept.foldl <;> intros)
    | (apply Kept.foldl_fst <;> intros)
    | dsimp only
    | split
    | apply Kept.upd

theorem execCdrFreqLock_kept {s0 s : State} (h : Kept s0 s) (lane : Nat) :
    KeptAns s0 (execCdrFreqLock lane s) := by
  unfold execCdrFreqLock
  with_reducible repeat' first
    | assumption
    | apply KeptAns.next
    | (apply KeptAns.ite <;> intro)
    | apply State.setLane_kept
    | apply State.setObj_kept
    | (apply Kept.ite <;> intro)
    | (apply Kept.ite_fst <;> intro)
    | (refine Kept.fst (by assumption) ?_)
    | (refine Kept.snd (by assumption) ?_)
    | (apply Kept.foldl <;> intros)
    | (apply Kept.foldl_fst <;> intros)
    | dsimp only
    | split
    | apply Kept.upd

theorem execCdrLock_kept {s0 s : State} (h : Kept s0 s) (lane : Nat) (_a1 _a2 : Blank) :
    KeptAns s0 (execCdrLock lane _a1 _a2 s) := by
  unfold execCdrLock
  with_reducible repeat' first
    | assumption
    | apply KeptAns.next
    | (apply KeptAns.ite <;> intro)
    | apply State.linkTry_kept
    | apply State.setLane_kept
    | apply State.setObj_kept
    | (apply Kept.ite <;> intro)
    | (apply Kept.ite_fst <;> intro)
    | (refine Kept.fst (by assumption) ?_)
    | (refine Kept.snd (by assumption) ?_)
    | (apply Kept.foldl <;> intros)
    | (apply Kept.foldl_fst <;> intros)
    | dsimp only
    | split
    | apply Kept.upd

theorem execCdrSignalLoss_kept {s0 s : State} (h : Kept s0 s) (lane partialBits : Nat) :
    KeptAns s0 (execCdrSignalLoss lane partialBits s) := by
  unfold execCdrSignalLoss
  with_reducible repeat' first
    | assumption
    | apply KeptAns.next
    | apply State.laneDrop_kept
    | (apply Kept.ite <;> intro)

theorem execCdrFreqLoss_kept {s0 s : State} (h : Kept s0 s) (lane partialBits : Nat) :
    KeptAns s0 (execCdrFreqLoss lane partialBits s) := by
  unfold execCdrFreqLoss
  with_reducible repeat' first
    | assumption
    | apply KeptAns.next
    | apply State.laneDrop_kept
    | (apply Kept.ite <;> intro)

theorem execCdrTransitionLoss_kept {s0 s : State} (h : Kept s0 s) (lane partialBits : Nat) :
    KeptAns s0 (execCdrTransitionLoss lane partialBits s) := by
  unfold execCdrTransitionLoss
  with_reducible repeat' first
    | assumption
    | apply KeptAns.next
    | apply State.laneDrop_kept
    | (apply Kept.ite <;> intro)

theorem State.adapt_kept {s0 s : State} (h : Kept s0 s) (n : Nat) (m : LaneSense) :
    Kept s0 (State.adapt s n m) := by
  unfold State.adapt
  with_reducible repeat' first
    | assumption
    | apply State.setCodes_kept
    | apply State.setLane_kept
    | (apply Kept.ite <;> intro)
    | (apply Kept.ite_fst <;> intro)
    | (refine Kept.fst (by assumption) ?_)
    | (refine Kept.snd (by assumption) ?_)
    | (apply Kept.foldl <;> intros)
    | (apply Kept.foldl_fst <;> intros)
    | dsimp only
    | split
    | apply Kept.upd

theorem execLinkFailRetry_kept {s0 s : State} (h : Kept s0 s) (link : Nat) :
    KeptAns s0 (execLinkFailRetry link s) := by
  unfold execLinkFailRetry
  with_reducible repeat' first
    | assumption
    | apply KeptAns.next
    | apply State.linkWait_kept
    | (apply Kept.ite <;> intro)

theorem execNoMarkerTimeout_kept {s0 s : State} (h : Kept s0 s) (link : Nat) :
    KeptAns s0 (execNoMarkerTimeout link s) := by
  unfold execNoMarkerTimeout
  with_reducible repeat' first
    | assumption
    | apply KeptAns.next
    | apply State.setLnk_kept
    | apply State.setObjs_kept
    | (apply Kept.ite <;> intro)

theorem State.eyeEnd_kept {s0 s : State} (h : Kept s0 s) (n mode dwell result start : Nat) (e : EyeData) :
    Kept s0 (State.eyeEnd s n mode dwell result start e) := by
  unfold State.eyeEnd
  with_reducible repeat' first
    | assumption
    | apply State.bump_kept
    | apply State.fresh_kept
    | apply State.setDom_kept
    | apply State.setLane_kept
    | (apply Kept.ite <;> intro)
    | (apply Kept.ite_fst <;> intro)
    | (refine Kept.fst (by assumption) ?_)
    | (refine Kept.snd (by assumption) ?_)
    | (apply Kept.foldl <;> intros)
    | (apply Kept.foldl_fst <;> intros)
    | dsimp only
    | split
    | apply Kept.upd

theorem execEyeScanStart_kept {s0 s : State} (h : Kept s0 s) (lane : Nat) :
    KeptAns s0 (execEyeScanStart lane s) := by
  unfold execEyeScanStart
  with_reducible repeat' first
    | assumption
    | apply KeptAns.next
    | (apply KeptAns.ite <;> intro)
    | apply State.eyeEnd_kept
    | apply State.setLane_kept
    | (apply Kept.ite <;> intro)
    | (apply Kept.ite_fst <;> intro)
    | (refine Kept.fst (by assumption) ?_)
    | (refine Kept.snd (by assumption) ?_)
    | (apply Kept.foldl <;> intros)
    | (apply Kept.foldl_fst <;> intros)
    | dsimp only
    | split
    | apply Kept.upd

theorem execEyeScanEnd_kept {s0 s : State} (h : Kept s0 s) (eye : EyeData) :
    KeptAns s0 (execEyeScanEnd eye s) := by
  unfold execEyeScanEnd
  with_reducible repeat' first
    | assumption
    | apply KeptAns.next
    | (apply KeptAns.ite <;> intro)
    | apply State.eyeEnd_kept
    | (apply Kept.ite <;> intro)
    | (apply Kept.ite_fst <;> intro)
    | (refine Kept.fst (by assumption) ?_)
    | (refine Kept.snd (by assumption) ?_)
    | (apply Kept.foldl <;> intros)
    | (apply Kept.foldl_fst <;> intros)
    | dsimp only
    | split
    | apply Kept.upd

theorem State.eyeRequest_kept {s0 s : State} (h : Kept s0 s) (n v : Nat) :
    Kept s0 ((State.eyeRequest s n v).1) := by
  unfold State.eyeRequest
  with_reducible repeat' first
    | assumption
    | apply State.setLane_kept
    | (apply Kept.ite_fst <;> intro)

theorem State.laneCommit_kept {s0 s : State} (h : Kept s0 s) (old : State) (n : Nat) (t : Tick) :
    Kept s0 (State.laneCommit s old n t) := by
  unfold State.laneCommit
  with_reducible repeat' first
    | assumption
    | apply State.abortEye_kept
    | apply State.fresh_kept
    | apply State.laneDrop_kept
    | apply State.seedEq_kept
    | apply State.setLane_kept
    | apply State.setObj_kept
    | (apply Kept.ite <;> intro)

theorem State.linkCommit_kept {s0 s : State} (h : Kept s0 s) (old : State) (k : Nat) (t : Tick) :
    Kept s0 (State.linkCommit s old k t) := by
  unfold State.linkCommit
  with_reducible repeat' first
    | assumption
    | apply State.decLose_kept
    | apply State.linkTry_kept
    | apply State.linkWait_kept
    | apply State.setLnk_kept
    | apply State.setObj_kept
    | apply State.setObjs_kept
    | (apply Kept.ite <;> intro)
    | (refine Kept.fst (by assumption) ?_)
    | (refine Kept.snd (by assumption) ?_)
    | (apply Kept.foldl <;> intros)

theorem State.lineEffects_kept {s0 s : State} (h : Kept s0 s) (old : State) (t : Tick) (keys : List Key) :
    Kept s0 (State.lineEffects s old t keys) := by
  unfold State.lineEffects
  with_reducible repeat' first
    | assumption
    | apply State.decLose_kept
    | apply State.laneCommit_kept
    | apply State.linkCommit_kept
    | apply State.setDec_kept
    | apply State.setLane_kept
    | (apply Kept.ite <;> intro)
    | (apply Kept.ite_fst <;> intro)
    | (refine Kept.fst (by assumption) ?_)
    | (refine Kept.snd (by assumption) ?_)
    | (apply Kept.foldl <;> intros)
    | (apply Kept.foldl_fst <;> intros)
    | dsimp only
    | split
    | apply Kept.upd

theorem State.laneTick_kept {s0 s : State} (h : Kept s0 s) (l : List LaneSense) (u : Tick) :
    Kept s0 (State.laneTick s l u) := by
  unfold State.laneTick
  with_reducible repeat' first
    | assumption
    | apply State.adapt_kept
    | apply State.bump_kept
    | apply State.setLane_kept
    | (apply Kept.ite <;> intro)
    | (apply Kept.ite_fst <;> intro)
    | (refine Kept.fst (by assumption) ?_)
    | (refine Kept.snd (by assumption) ?_)
    | (apply Kept.foldl <;> intros)
    | (apply Kept.foldl_fst <;> intros)
    | dsimp only
    | split
    | apply Kept.upd

theorem State.restartLanes_kept {s0 s : State} (h : Kept s0 s) (t : Tick) :
    Kept s0 (State.restartLanes s t) := by
  unfold State.restartLanes
  with_reducible repeat' first
    | assumption
    | apply State.fresh_kept
    | apply State.laneDrop_kept
    | (apply Kept.ite <;> intro)
    | (refine Kept.fst (by assumption) ?_)
    | (refine Kept.snd (by assumption) ?_)
    | (apply Kept.foldl <;> intros)

end Sys2Proof.Machine
end

