-- ==== Sys2Proof/Laws/KeepEcc.lean ====
section
/-! SUPPORT. What the operations of Machine/Ecc.lean keep. -/

namespace Sys2Proof.Machine

theorem State.dropFlips_kept {s0 s : State} (h : Kept s0 s) (f n : Nat) :
    Kept s0 (State.dropFlips s f n) := by
  unfold State.dropFlips
  with_reducible repeat' first
    | assumption
    | (apply Kept.ite <;> intro)
    | (apply Kept.ite_fst <;> intro)
    | (refine Kept.fst (by assumption) ?_)
    | (refine Kept.snd (by assumption) ?_)
    | (apply Kept.foldl <;> intros)
    | (apply Kept.foldl_fst <;> intros)
    | dsimp only
    | split
    | apply Kept.upd

theorem State.hoopDecode_kept {s0 s : State} (h : Kept s0 s) (f : Nat) (words : List Nat) :
    Kept s0 ((State.hoopDecode s f words).1) := by
  unfold State.hoopDecode
  with_reducible repeat' first
    | assumption
    | apply State.bump_kept
    | apply State.dropFlips_kept
    | apply State.setObj_kept
    | (apply Kept.ite <;> intro)
    | (apply Kept.ite_fst <;> intro)
    | (refine Kept.fst (by assumption) ?_)
    | (refine Kept.snd (by assumption) ?_)
    | (apply Kept.foldl <;> intros)
    | (apply Kept.foldl_fst <;> intros)
    | dsimp only
    | split
    | apply Kept.upd

theorem State.hoopPacket_kept {s0 s : State} (h : Kept s0 s) (f : Nat) (raw : Bytes) :
    Kept s0 ((State.hoopPacket s f raw).1) := by
  unfold State.hoopPacket
  with_reducible repeat' first
    | assumption
    | apply State.hoopDecode_kept
    | (apply Kept.ite <;> intro)
    | (apply Kept.ite_fst <;> intro)
    | (refine Kept.fst (by assumption) ?_)
    | (refine Kept.snd (by assumption) ?_)
    | (apply Kept.foldl <;> intros)
    | (apply Kept.foldl_fst <;> intros)
    | dsimp only
    | split
    | apply Kept.upd

end Sys2Proof.Machine
end

