-- ==== Sys2Proof/Laws/KeepPort.lean ====
section
/-! SUPPORT. What the operations of Machine/Port.lean keep. -/

namespace Sys2Proof.Machine

theorem State.setPort_kept {s0 s : State} (h : Kept s0 s) (p : Nat) (x : PortState) :
    Kept s0 (State.setPort s p x) := by
  unfold State.setPort
  with_reducible repeat' first
    | assumption
    | (refine Kept.fst (by assumption) ?_)
    | (refine Kept.snd (by assumption) ?_)
    | dsimp only
    | split
    | apply Kept.upd

theorem State.keepCore_kept {s0 s : State} (h : Kept s0 s) (i : Issuer) (k : Key) :
    Kept s0 (State.keepCore s i k) := by
  unfold State.keepCore
  with_reducible repeat' first
    | assumption
    | (apply Kept.ite <;> intro)
    | (refine Kept.fst (by assumption) ?_)
    | (refine Kept.snd (by assumption) ?_)
    | dsimp only
    | split
    | apply Kept.upd

theorem State.deliverResp_kept {s0 s : State} (h : Kept s0 s) (i : Issuer) (data : Bytes) :
    Kept s0 (State.deliverResp s i data) := by
  unfold State.deliverResp
  with_reducible repeat' first
    | assumption
    | apply State.emit_kept
    | apply State.raise_kept
    | (apply Kept.ite <;> intro)
    | (refine Kept.fst (by assumption) ?_)
    | (refine Kept.snd (by assumption) ?_)
    | dsimp only
    | split
    | apply Kept.upd

theorem State.cachePut_kept {s0 s : State} (h : Kept s0 s) (i : Issuer) (tag crc jseq : Nat) :
    Kept s0 (State.cachePut s i tag crc jseq) := by
  unfold State.cachePut
  with_reducible repeat' first
    | assumption
    | apply State.setPort_kept
    | (apply Kept.ite <;> intro)
    | (apply Kept.ite_fst <;> intro)
    | (refine Kept.fst (by assumption) ?_)
    | (refine Kept.snd (by assumption) ?_)
    | (apply Kept.foldl <;> intros)
    | (apply Kept.foldl_fst <;> intros)
    | dsimp only
    | split
    | apply Kept.upd

theorem State.cacheResp_kept {s0 s : State} (h : Kept s0 s) (i : Issuer) (tag jseq : Nat) (r : Bytes) :
    Kept s0 (State.cacheResp s i tag jseq r) := by
  unfold State.cacheResp
  with_reducible repeat' first
    | assumption
    | apply State.setPort_kept
    | (apply Kept.ite <;> intro)
    | (apply Kept.ite_fst <;> intro)
    | (refine Kept.fst (by assumption) ?_)
    | (refine Kept.snd (by assumption) ?_)
    | (apply Kept.foldl <;> intros)
    | (apply Kept.foldl_fst <;> intros)
    | dsimp only
    | split
    | apply Kept.upd

theorem State.setReport_kept {s0 s : State} (h : Kept s0 s) (i : Issuer) (rep : List RepEntry) (jseq : Nat) :
    Kept s0 (State.setReport s i rep jseq) := by
  unfold State.setReport
  with_reducible repeat' first
    | assumption
    | apply State.keepCore_kept
    | apply State.setDom_kept
    | apply State.setObj_kept
    | (apply Kept.ite <;> intro)

theorem State.setError_kept {s0 s : State} (h : Kept s0 s) (i : Issuer) (outs : List ObjOut) (status reason jseq : Nat) :
    Kept s0 (State.setError s i outs status reason jseq) := by
  unfold State.setError
  with_reducible repeat' first
    | assumption
    | apply State.keepCore_kept
    | apply State.setObj_kept
    | (apply Kept.ite <;> intro)

theorem State.jConts_kept {s0 s : State} (h : Kept s0 s) (jseq : Nat) (t : Tick) (f : Nat) (b : Bytes) : Kept s0 (State.jConts s jseq t f b) := by
  induction f generalizing s b with
  | zero => exact h
  | succ n ih =>
    unfold State.jConts
    with_reducible repeat' first
      | assumption
      | apply ih
      | apply State.jWrite_kept
      | (apply Kept.ite <;> intro)

theorem State.jValue_kept {s0 s : State} (h : Kept s0 s) (jseq : Nat) (t : Tick) (o : ObjOut) :
    Kept s0 (State.jValue s jseq t o) := by
  unfold State.jValue
  with_reducible repeat' first
    | assumption
    | apply State.jConts_kept
    | apply State.jWrite_kept
    | (apply Kept.ite <;> intro)
    | (refine Kept.fst (by assumption) ?_)
    | (refine Kept.snd (by assumption) ?_)
    | dsimp only
    | split

theorem State.jOutcome_kept {s0 s : State} (h : Kept s0 s) (jseq : Nat) (t : Tick) (status reason reports : Nat) (final : Bool) (outs : List ObjOut) :
    Kept s0 (State.jOutcome s jseq t status reason reports final outs) := by
  unfold State.jOutcome
  with_reducible repeat' first
    | assumption
    | apply State.jValue_kept
    | apply State.jWrite_kept
    | (apply Kept.ite <;> intro)
    | (refine Kept.fst (by assumption) ?_)
    | (refine Kept.snd (by assumption) ?_)
    | (apply Kept.foldl <;> intros)

theorem State.configStep_kept {s0 s : State} (h : Kept s0 s) (i : Issuer) (status : Nat) :
    Kept s0 (State.configStep s i status) := by
  unfold State.configStep
  with_reducible repeat' first
    | assumption
    | (apply Kept.ite <;> intro)
    | (apply Kept.ite_fst <;> intro)
    | (refine Kept.fst (by assumption) ?_)
    | (refine Kept.snd (by assumption) ?_)
    | (apply Kept.foldl <;> intros)
    | (apply Kept.foldl_fst <;> intros)
    | dsimp only
    | split
    | apply Kept.upd

theorem State.finish_kept {s0 s : State} (h : Kept s0 s) (l : Landing) (t : Tick) :
    Kept s0 (State.finish s l t) := by
  unfold State.finish
  with_reducible repeat' first
    | assumption
    | apply State.cacheResp_kept
    | apply State.configStep_kept
    | apply State.deliverResp_kept
    | apply State.jOutcome_kept
    | apply State.setError_kept
    | apply State.setReport_kept
    | (apply Kept.ite <;> intro)
    | (apply Kept.ite_fst <;> intro)
    | (refine Kept.fst (by assumption) ?_)
    | (refine Kept.snd (by assumption) ?_)
    | (apply Kept.foldl <;> intros)
    | (apply Kept.foldl_fst <;> intros)
    | dsimp only
    | split
    | apply Kept.upd

theorem State.reply_kept {s0 s : State} (h : Kept s0 s) (i : Issuer) (auth : Bytes) (op tag status reason jseq entries : Nat) (body : Bytes) (outs : List ObjOut) :
    Kept s0 (State.reply s i auth op tag status reason jseq entries body outs) := by
  unfold State.reply
  with_reducible repeat' first
    | assumption
    | apply State.cacheResp_kept
    | apply State.deliverResp_kept
    | apply State.setError_kept
    | (apply Kept.ite <;> intro)
    | (apply Kept.ite_fst <;> intro)
    | (refine Kept.fst (by assumption) ?_)
    | (refine Kept.snd (by assumption) ?_)
    | (apply Kept.foldl <;> intros)
    | (apply Kept.foldl_fst <;> intros)
    | dsimp only
    | split
    | apply Kept.upd

theorem State.turnAway_kept {s0 s : State} (h : Kept s0 s) (i : Issuer) (op tag status reason : Nat) :
    Kept s0 (State.turnAway s i op tag status reason) := by
  unfold State.turnAway
  with_reducible repeat' first
    | assumption
    | apply State.deliverResp_kept
    | apply State.setError_kept

theorem State.setSession_kept {s0 s : State} (h : Kept s0 s) (k : Nat) (x : Session) :
    Kept s0 (State.setSession s k x) := by
  unfold State.setSession
  with_reducible repeat' first
    | assumption
    | (refine Kept.fst (by assumption) ?_)
    | (refine Kept.snd (by assumption) ?_)
    | dsimp only
    | split
    | apply Kept.upd

theorem State.rewound_kept {s0 s : State} (h : Kept s0 s) (i : Issuer) (raw : Bytes) :
    Kept s0 (State.rewound s i raw) := by
  unfold State.rewound
  with_reducible repeat' first
    | assumption
    | apply State.bump_kept
    | apply State.turnAway_kept
    | (apply Kept.ite <;> intro)

theorem State.clearBusy_kept {s0 s : State} (h : Kept s0 s) (i : Issuer) :
    Kept s0 (State.clearBusy s i) := by
  unfold State.clearBusy
  with_reducible repeat' first
    | assumption
    | (apply Kept.ite <;> intro)
    | (refine Kept.fst (by assumption) ?_)
    | (refine Kept.snd (by assumption) ?_)
    | dsimp only
    | split
    | apply Kept.upd

theorem State.popHoop_kept {s0 s : State} (h : Kept s0 s) (i : Issuer) (raw : Bytes) :
    Kept s0 (State.popHoop s i raw) := by
  unfold State.popHoop
  with_reducible repeat' first
    | assumption
    | (apply Kept.ite <;> intro)
    | (refine Kept.fst (by assumption) ?_)
    | (refine Kept.snd (by assumption) ?_)
    | dsimp only
    | split
    | apply Kept.upd

theorem State.park_kept {s0 s : State} (h : Kept s0 s) (i : Issuer) (raw : Bytes) :
    Kept s0 (State.park s i raw) := by
  unfold State.park
  with_reducible repeat' first
    | assumption
    | (apply Kept.ite <;> intro)
    | (refine Kept.fst (by assumption) ?_)
    | (refine Kept.snd (by assumption) ?_)
    | dsimp only
    | split
    | apply Kept.upd

theorem State.jHead_kept {s0 s : State} (h : Kept s0 s) (i : Issuer) (p : Pkt) (slot jseq : Nat) :
    Kept s0 (State.jHead s i p slot jseq) := by
  unfold State.jHead
  with_reducible repeat' first
    | assumption
    | apply State.jWrite_kept

theorem State.admission_kept {s0 s : State} (h : Kept s0 s) (i : Issuer) (p : Pkt) (fresh : Bool) :
    Kept s0 ((State.admission s i p fresh).1) := by
  unfold State.admission
  with_reducible repeat' first
    | assumption
    | apply State.bump_kept
    | apply State.cachePut_kept
    | apply State.deliverResp_kept
    | apply State.fresh_kept
    | apply State.jHead_kept
    | apply State.nextJseq_kept
    | apply State.setObj_kept
    | apply State.setSession_kept
    | apply State.turnAway_kept
    | (apply Kept.ite <;> intro)
    | (apply Kept.ite_fst <;> intro)
    | (refine Kept.fst (by assumption) ?_)
    | (refine Kept.snd (by assumption) ?_)
    | (apply Kept.foldl <;> intros)
    | (apply Kept.foldl_fst <;> intros)
    | dsimp only
    | split
    | apply Kept.upd

theorem State.received_kept {s0 s : State} (h : Kept s0 s) (op : Nat) (i : Issuer) (raw : Bytes) (p : Pkt) :
    Kept s0 ((State.received s op i raw p).1) := by
  unfold State.received
  with_reducible repeat' first
    | assumption
    | apply State.hoopPacket_kept
    | apply State.rewound_kept
    | (apply Kept.ite <;> intro)
    | (apply Kept.ite_fst <;> intro)
    | (refine Kept.fst (by assumption) ?_)
    | (refine Kept.snd (by assumption) ?_)
    | (apply Kept.foldl <;> intros)
    | (apply Kept.foldl_fst <;> intros)
    | dsimp only
    | split
    | apply Kept.upd

theorem State.packet_kept {s0 s : State} (h : Kept s0 s) (op : Nat) (i : Issuer) (raw : Bytes) (f : Accepted → State → State)
    (hf : ∀ a v, Kept s0 v → Kept s0 (f a v)) : Kept s0 (State.packet s op i raw f) := by
  have hq : Kept s0 ((({ s with taken := s.taken ++ [i.port] }).popHoop i raw).clearBusy i) :=
    State.clearBusy_kept (State.popHoop_kept (Kept.upd _ h) _ _) _
  unfold State.packet
  refine Kept.ite (fun _ => h) (fun _ => ?_)
  split
  · refine Kept.ite (fun _ => State.park_kept h _ _) (fun _ => State.rewound_kept (State.hoopPacket_kept hq _ _) _ _)
  · refine Kept.ite (fun _ => h) (fun _ => Kept.ite (fun _ => State.park_kept h _ _) (fun _ => ?_))
    have hr := State.received_kept hq op i raw ‹_›
    split
    · rename_i e; rw [e] at hr; exact hr
    · rename_i e; rw [e] at hr
      have ha := State.admission_kept hr i ‹_› false
      split
      · rename_i e; rw [e] at ha; exact ha
      · rename_i e; rw [e] at ha; exact hf _ _ ha

theorem State.endNow_kept {s0 s : State} (h : Kept s0 s) (a : Accepted) (status reason : Nat) :
    Kept s0 (State.endNow s a status reason) := by
  unfold State.endNow
  with_reducible repeat' first
    | assumption
    | apply State.finish_kept
    | (apply Kept.ite <;> intro)
    | (apply Kept.ite_fst <;> intro)
    | (refine Kept.fst (by assumption) ?_)
    | (refine Kept.snd (by assumption) ?_)
    | (apply Kept.foldl <;> intros)
    | (apply Kept.foldl_fst <;> intros)
    | dsimp only
    | split
    | apply Kept.upd

theorem State.endObj_kept {s0 s : State} (h : Kept s0 s) (a : Accepted) (o : ObjOut) :
    Kept s0 (State.endObj s a o) := by
  unfold State.endObj
  with_reducible repeat' first
    | assumption
    | apply State.finish_kept
    | (apply Kept.ite <;> intro)
    | (apply Kept.ite_fst <;> intro)
    | (refine Kept.fst (by assumption) ?_)
    | (refine Kept.snd (by assumption) ?_)
    | (apply Kept.foldl <;> intros)
    | (apply Kept.foldl_fst <;> intros)
    | dsimp only
    | split
    | apply Kept.upd

theorem execEcho_kept {s0 s : State} (h : Kept s0 s) (iss : Issuer) (pkt : Bytes) :
    KeptAns s0 (execEcho iss pkt s) := by
  unfold execEcho
  with_reducible repeat' first
    | assumption
    | apply KeptAns.next
    | apply State.endNow_kept
    | apply State.reply_kept
    | (refine State.packet_kept ?_ _ _ _ _ (fun _ _ _ => ?_))
    | (apply Kept.ite <;> intro)

end Sys2Proof.Machine
end

