-- ==== Sys2Proof/Laws/KeepSecurity.lean ====
section
/-! SUPPORT. What the operations of Machine/Security.lean keep. -/

namespace Sys2Proof.Machine

theorem State.endSession_kept {s0 s : State} (h : Kept s0 s) (k : Nat) :
    Kept s0 (State.endSession s k) := by
  unfold State.endSession
  with_reducible repeat' first
    | assumption
    | apply State.restAll_kept
    | (refine Kept.fst (by assumption) ?_)
    | (refine Kept.snd (by assumption) ?_)
    | dsimp only
    | split
    | apply Kept.upd

theorem State.timeSession_kept {s0 s : State} (h : Kept s0 s) (k reason : Nat) (t : Tick) :
    Kept s0 (State.timeSession s k reason t) := by
  unfold State.timeSession
  with_reducible repeat' first
    | assumption
    | apply State.endSession_kept
    | apply State.jSystem_kept

theorem State.endPortSessions_kept {s0 s : State} (h : Kept s0 s) (port : Nat) (t : Tick) :
    Kept s0 (State.endPortSessions s port t) := by
  unfold State.endPortSessions
  with_reducible repeat' first
    | assumption
    | apply State.timeSession_kept
    | (refine Kept.fst (by assumption) ?_)
    | (refine Kept.snd (by assumption) ?_)
    | (apply Kept.foldl <;> intros)

theorem State.hello_kept {s0 s : State} (h : Kept s0 s) (a : Accepted) :
    Kept s0 (State.hello a s) := by
  unfold State.hello
  with_reducible repeat' first
    | assumption
    | apply State.endNow_kept
    | apply State.reply_kept
    | apply State.setDom_kept
    | apply State.setObjs_kept
    | apply State.setSession_kept
    | (apply Kept.ite <;> intro)
    | (refine Kept.fst (by assumption) ?_)
    | (refine Kept.snd (by assumption) ?_)
    | dsimp only
    | split
    | apply Kept.upd

theorem State.attest_kept {s0 s : State} (h : Kept s0 s) (a : Accepted) :
    Kept s0 (State.attest a s) := by
  unfold State.attest
  with_reducible repeat' first
    | assumption
    | apply State.endNow_kept
    | apply State.reply_kept
    | (apply Kept.ite <;> intro)
    | (apply Kept.ite_fst <;> intro)
    | (refine Kept.fst (by assumption) ?_)
    | (refine Kept.snd (by assumption) ?_)
    | (apply Kept.foldl <;> intros)
    | (apply Kept.foldl_fst <;> intros)
    | dsimp only
    | split
    | apply Kept.upd

theorem State.prove_kept {s0 s : State} (h : Kept s0 s) (a : Accepted) :
    Kept s0 (State.prove a s) := by
  unfold State.prove
  with_reducible repeat' first
    | assumption
    | apply State.bump_kept
    | apply State.endNow_kept
    | apply State.endSession_kept
    | apply State.jOutcome_kept
    | apply State.reply_kept
    | apply State.setObjs_kept
    | apply State.setPort_kept
    | apply State.setSession_kept
    | (apply Kept.ite <;> intro)
    | (refine Kept.fst (by assumption) ?_)
    | (refine Kept.snd (by assumption) ?_)
    | dsimp only
    | split

theorem State.closeMessage_kept {s0 s : State} (h : Kept s0 s) (a : Accepted) :
    Kept s0 (State.closeMessage a s) := by
  unfold State.closeMessage
  with_reducible repeat' first
    | assumption
    | apply State.endSession_kept
    | apply State.jOutcome_kept
    | apply State.reply_kept

theorem execHello_kept {s0 s : State} (h : Kept s0 s) (iss : Issuer) (pkt : Bytes) :
    KeptAns s0 (execHello iss pkt s) := by
  unfold execHello
  with_reducible repeat' first
    | assumption
    | apply KeptAns.next
    | apply State.hello_kept
    | (refine State.packet_kept ?_ _ _ _ _ (fun _ _ _ => ?_))

theorem execAttest_kept {s0 s : State} (h : Kept s0 s) (iss : Issuer) (pkt : Bytes) :
    KeptAns s0 (execAttest iss pkt s) := by
  unfold execAttest
  with_reducible repeat' first
    | assumption
    | apply KeptAns.next
    | apply State.attest_kept
    | (refine State.packet_kept ?_ _ _ _ _ (fun _ _ _ => ?_))

theorem execProve_kept {s0 s : State} (h : Kept s0 s) (iss : Issuer) (pkt : Bytes) :
    KeptAns s0 (execProve iss pkt s) := by
  unfold execProve
  with_reducible repeat' first
    | assumption
    | apply KeptAns.next
    | apply State.prove_kept
    | (refine State.packet_kept ?_ _ _ _ _ (fun _ _ _ => ?_))

theorem execClose_kept {s0 s : State} (h : Kept s0 s) (iss : Issuer) (pkt : Bytes) :
    KeptAns s0 (execClose iss pkt s) := by
  unfold execClose
  with_reducible repeat' first
    | assumption
    | apply KeptAns.next
    | apply State.closeMessage_kept
    | (refine State.packet_kept ?_ _ _ _ _ (fun _ _ _ => ?_))

theorem execSessionIdleTimeout_kept {s0 s : State} (h : Kept s0 s) (slot : Nat) :
    KeptAns s0 (execSessionIdleTimeout slot s) := by
  unfold execSessionIdleTimeout
  with_reducible repeat' first
    | assumption
    | apply KeptAns.next
    | (apply KeptAns.ite <;> intro)
    | apply State.bump_kept
    | apply State.timeSession_kept

theorem execHandshakeTimeout_kept {s0 s : State} (h : Kept s0 s) (slot : Nat) :
    KeptAns s0 (execHandshakeTimeout slot s) := by
  unfold execHandshakeTimeout
  with_reducible repeat' first
    | assumption
    | apply KeptAns.next
    | (apply KeptAns.ite <;> intro)
    | apply State.bump_kept
    | apply State.timeSession_kept

theorem execProveLockoutEnd_kept {s0 s : State} (h : Kept s0 s) (port : Nat) :
    KeptAns s0 (execProveLockoutEnd port s) := by
  unfold execProveLockoutEnd
  with_reducible repeat' first
    | assumption
    | apply KeptAns.next
    | (apply KeptAns.ite <;> intro)
    | apply State.setPort_kept
    | (refine Kept.fst (by assumption) ?_)
    | (refine Kept.snd (by assumption) ?_)
    | dsimp only
    | split

theorem State.ownerKey_kept {s0 s : State} (h : Kept s0 s) (b : Bytes) : Kept s0 (s.ownerKey b).1 := by
  unfold State.ownerKey
  refine Kept.ite_fst (fun _ => h) fun _ => Kept.ite_fst (fun _ => h) fun hk => Kept.ite_fst (fun _ => h) fun _ => ?_
  refine State.setObj_kept (State.setDom_kept (Kept.fuses s h { s.otp with ownerKey := b } ⟨rfl, .inl ?_, Nat.or_self _, Nat.le_refl _, List.prefix_refl _, List.prefix_refl _, List.prefix_refl _⟩) _ _) _ _
  exact Classical.not_not.mp fun hne => hk (.inr hne)

theorem State.policy_kept {s0 s : State} (h : Kept s0 s) (v : Nat) :
    Kept s0 ((State.policy s v).1) := by
  unfold State.policy
  with_reducible repeat' first
    | assumption
    | apply State.setObj_kept

theorem State.policyFloor_kept {s0 s : State} (h : Kept s0 s) (v : Nat) : Kept s0 (s.policyFloor v).1 :=
  State.setObj_kept (Kept.fuses s h { s.otp with policyFloor := v ||| s.otp.policyFloor } ⟨rfl, .inr rfl, by simp, Nat.le_refl _, List.prefix_refl _, List.prefix_refl _, List.prefix_refl _⟩) _ _

theorem State.fwSecRaise_kept {s0 s : State} (h : Kept s0 s) (v : Nat) : Kept s0 (s.fwSecRaise v).1 := by
  unfold State.fwSecRaise
  refine Kept.ite_fst (fun _ => h) fun hv => Kept.ite_fst (fun _ => h) fun _ => ?_
  exact State.setObj_kept (Kept.fuses s h { s.otp with secMin := v, secRaises := s.otp.secRaises + 1 } ⟨rfl, .inr rfl, Nat.or_self _, by show s.otp.secMin ≤ v; omega, List.prefix_refl _, List.prefix_refl _, List.prefix_refl _⟩) _ _

theorem State.sessionClose_kept {s0 s : State} (h : Kept s0 s) (k : Nat) :
    Kept s0 ((State.sessionClose s k).1) := by
  unfold State.sessionClose
  with_reducible repeat' first
    | assumption
    | apply State.endSession_kept

end Sys2Proof.Machine
end

