-- ==== Sys2Proof/Laws/KeepHostPort.lean ====
section
/-! SUPPORT. What the operations of Machine/HostPort.lean keep. -/

namespace Sys2Proof.Machine

theorem State.setHost_kept {s0 s : State} (h : Kept s0 s) (f : HostPort → HostPort) :
    Kept s0 (State.setHost s f) := by
  unfold State.setHost
  with_reducible repeat' first
    | assumption
    | (refine Kept.fst (by assumption) ?_)
    | (refine Kept.snd (by assumption) ?_)
    | dsimp only
    | split
    | apply Kept.upd

theorem execCmdDoorbell_kept {s0 s : State} (h : Kept s0 s) (value : Nat) (slotBytes : Bytes) :
    KeptAns s0 (execCmdDoorbell value slotBytes s) := by
  unfold execCmdDoorbell
  with_reducible repeat' first
    | assumption
    | apply KeptAns.next
    | (apply KeptAns.ite <;> intro)
    | apply State.bump_kept
    | apply State.clearBusy_kept
    | apply State.setHost_kept
    | apply State.turnAway_kept
    | (refine Kept.fst (by assumption) ?_)
    | (refine Kept.snd (by assumption) ?_)
    | dsimp only
    | split
    | apply Kept.upd

theorem State.mailTick_kept {s0 s : State} (h : Kept s0 s) (u : Tick) :
    Kept s0 (State.mailTick s u) := by
  unfold State.mailTick
  with_reducible repeat' first
    | assumption
    | apply State.rest_kept
    | apply State.setHost_kept
    | (apply Kept.ite <;> intro)
    | (apply Kept.ite_fst <;> intro)
    | (refine Kept.fst (by assumption) ?_)
    | (refine Kept.snd (by assumption) ?_)
    | (apply Kept.foldl <;> intros)
    | (apply Kept.foldl_fst <;> intros)
    | dsimp only
    | split
    | apply Kept.upd

theorem execRspAck_kept {s0 s : State} (h : Kept s0 s) (value : Nat) :
    KeptAns s0 (execRspAck value s) := by
  unfold execRspAck
  with_reducible repeat' first
    | assumption
    | apply KeptAns.next
    | (apply KeptAns.ite <;> intro)
    | apply State.setHost_kept

theorem execNoteHead_kept {s0 s : State} (h : Kept s0 s) (value : Nat) :
    KeptAns s0 (execNoteHead value s) := by
  unfold execNoteHead
  with_reducible repeat' first
    | assumption
    | apply KeptAns.next
    | (apply KeptAns.ite <;> intro)
    | apply State.setHost_kept

theorem State.sendPending_kept {s0 s : State} (h : Kept s0 s) :
    Kept s0 (State.sendPending s) := by
  unfold State.sendPending
  with_reducible repeat' first
    | assumption
    | apply State.emit_kept
    | apply State.setHost_kept
    | (refine Kept.fst (by assumption) ?_)
    | (refine Kept.snd (by assumption) ?_)
    | (apply Kept.foldl <;> intros)

theorem execBar0Write_kept {s0 s : State} (h : Kept s0 s) (offset value width : Nat) :
    KeptAns s0 (execBar0Write offset value width s) := by
  unfold execBar0Write
  with_reducible repeat' first
    | assumption
    | apply KeptAns.next
    | (apply KeptAns.ite <;> intro)
    | apply State.sendPending_kept
    | apply State.setHost_kept

theorem State.setRing_kept {s0 s : State} (h : Kept s0 s) (k : Nat) (x : Ring) :
    Kept s0 (State.setRing s k x) := by
  unfold State.setRing
  with_reducible repeat' first
    | assumption
    | apply State.setHost_kept

theorem State.ringError_kept {s0 s : State} (h : Kept s0 s) (k cause : Nat) :
    Kept s0 (State.ringError s k cause) := by
  unfold State.ringError
  with_reducible repeat' first
    | assumption
    | apply State.raise_kept
    | apply State.setObjs_kept

theorem execDescTail_kept {s0 s : State} (h : Kept s0 s) (ring value : Nat) :
    KeptAns s0 (execDescTail ring value s) := by
  unfold execDescTail
  with_reducible repeat' first
    | assumption
    | apply KeptAns.next
    | (apply KeptAns.ite <;> intro)
    | apply State.ringError_kept
    | apply State.setRing_kept

theorem execCplHead_kept {s0 s : State} (h : Kept s0 s) (ring value : Nat) :
    KeptAns s0 (execCplHead ring value s) := by
  unfold execCplHead
  with_reducible repeat' first
    | assumption
    | apply KeptAns.next
    | (apply KeptAns.ite <;> intro)
    | apply State.setRing_kept

theorem State.complete_kept {s0 s : State} (h : Kept s0 s) (k : Nat) (desc : Bytes) (lease bytes outcome status : Nat) :
    Kept s0 (State.complete s k desc lease bytes outcome status) := by
  unfold State.complete
  with_reducible repeat' first
    | assumption
    | apply State.emit_kept
    | apply State.raise_kept
    | apply State.setHost_kept
    | apply State.setObj_kept
    | apply State.setRing_kept
    | (apply Kept.ite <;> intro)

theorem State.skipBad_kept {s0 s : State} (h : Kept s0 s) (k : Nat) (f : Nat) : Kept s0 (State.skipBad s k f) := by
  induction f generalizing s with
  | zero => exact h
  | succ n ih =>
    unfold State.skipBad
    with_reducible repeat' first
      | assumption
      | apply ih
      | apply State.complete_kept
      | (apply Kept.ite <;> intro)
      | dsimp only
      | split

theorem execDescFetch_kept {s0 s : State} (h : Kept s0 s) (ring : Nat) (desc : HostRead) :
    KeptAns s0 (execDescFetch ring desc s) := by
  unfold execDescFetch
  with_reducible repeat' first
    | assumption
    | apply KeptAns.next
    | (apply KeptAns.ite <;> intro)
    | apply State.ringError_kept
    | apply State.setObj_kept
    | apply State.setRing_kept
    | apply State.skipBad_kept
    | (refine Kept.fst (by assumption) ?_)
    | (refine Kept.snd (by assumption) ?_)
    | dsimp only
    | split

theorem execDescGrant_kept {s0 s : State} (h : Kept s0 s) (ring : Nat) :
    KeptAns s0 (execDescGrant ring s) := by
  unfold execDescGrant
  with_reducible repeat' first
    | assumption
    | apply KeptAns.next
    | (apply KeptAns.ite <;> intro)
    | apply State.complete_kept
    | apply State.setRing_kept
    | apply State.skipBad_kept
    | (refine State.takeLease_kept ?_ _ _ _ _ _ _ _ (by assumption))
    | (refine State.takeLease_kept1 ?_ _ _ _ _ _ _ _ (by assumption))
    | (refine Kept.fst (by assumption) ?_)
    | (refine Kept.snd (by assumption) ?_)
    | dsimp only
    | split

theorem State.countLease_kept {s0 s : State} (h : Kept s0 s) (l : Lease) (seq off n : Nat) (first : Bool) :
    Kept s0 (State.countLease s l seq off n first) := by
  unfold State.countLease
  with_reducible repeat' first
    | assumption
    | apply State.countRead_kept
    | (apply Kept.ite <;> intro)
    | (apply Kept.ite_fst <;> intro)
    | (refine Kept.fst (by assumption) ?_)
    | (refine Kept.snd (by assumption) ?_)
    | (apply Kept.foldl <;> intros)
    | (apply Kept.foldl_fst <;> intros)
    | dsimp only
    | split
    | apply Kept.upd

theorem State.badBurst_kept {s0 s : State} (h : Kept s0 s) (l : Lease) (seq off n : Nat) :
    Kept s0 (State.badBurst s l seq off n) := by
  unfold State.badBurst
  with_reducible repeat' first
    | assumption
    | apply State.bump_kept
    | apply State.fresh_kept
    | (apply Kept.ite <;> intro)
    | (apply Kept.ite_fst <;> intro)
    | (refine Kept.fst (by assumption) ?_)
    | (refine Kept.snd (by assumption) ?_)
    | (apply Kept.foldl <;> intros)
    | (apply Kept.foldl_fst <;> intros)
    | dsimp only
    | split
    | apply Kept.upd

theorem execDescRead_kept {s0 s : State} (h : Kept s0 s) (ring : Nat) (memErr : Bool) :
    KeptAns s0 (execDescRead ring memErr s) := by
  unfold execDescRead
  with_reducible repeat' first
    | assumption
    | apply KeptAns.next
    | (apply KeptAns.ite <;> intro)
    | apply State.badBurst_kept
    | apply State.bump_kept
    | apply State.complete_kept
    | apply State.countLease_kept
    | apply State.emit_kept
    | apply State.endLease_kept
    | apply State.setHost_kept
    | apply State.setRing_kept
    | apply State.skipBad_kept
    | apply State.touchLease_kept
    | apply done_kept
    | (apply Kept.ite <;> intro)
    | (apply Kept.ite_fst <;> intro)
    | (refine Kept.fst (by assumption) ?_)
    | (refine Kept.snd (by assumption) ?_)
    | (apply Kept.foldl <;> intros)
    | (apply Kept.foldl_fst <;> intros)
    | dsimp only
    | split
    | apply Kept.upd

theorem execDescRenew_kept {s0 s : State} (h : Kept s0 s) (ring : Nat) :
    KeptAns s0 (execDescRenew ring s) := by
  unfold execDescRenew
  with_reducible repeat' first
    | assumption
    | apply KeptAns.next
    | apply State.complete_kept
    | apply State.skipBad_kept
    | apply State.touchLease_kept
    | (apply Kept.ite <;> intro)
    | (refine Kept.fst (by assumption) ?_)
    | (refine Kept.snd (by assumption) ?_)
    | dsimp only
    | split

theorem execDescRelease_kept {s0 s : State} (h : Kept s0 s) (ring : Nat) :
    KeptAns s0 (execDescRelease ring s) := by
  unfold execDescRelease
  with_reducible repeat' first
    | assumption
    | apply KeptAns.next
    | apply State.complete_kept
    | apply State.endLease_kept
    | apply State.skipBad_kept
    | (apply Kept.ite <;> intro)
    | (refine Kept.fst (by assumption) ?_)
    | (refine Kept.snd (by assumption) ?_)
    | dsimp only
    | split

theorem State.stopRing_kept {s0 s : State} (h : Kept s0 s) (k : Nat) (flush : Bool) :
    Kept s0 (State.stopRing s k flush) := by
  unfold State.stopRing
  with_reducible repeat' first
    | assumption
    | apply State.complete_kept
    | apply State.ringError_kept
    | apply State.setObjs_kept
    | apply State.setRing_kept
    | (apply Kept.ite <;> intro)
    | (refine Kept.fst (by assumption) ?_)
    | (refine Kept.snd (by assumption) ?_)
    | dsimp only
    | split

theorem State.hostEffects_kept {s0 s : State} (h : Kept s0 s) (old : State) (keys : List Key) :
    Kept s0 (State.hostEffects s old keys) := by
  unfold State.hostEffects
  with_reducible repeat' first
    | assumption
    | apply State.setHost_kept
    | apply State.setObjs_kept
    | apply State.setRing_kept
    | apply State.stopRing_kept
    | (apply Kept.ite <;> intro)
    | (refine Kept.fst (by assumption) ?_)
    | (refine Kept.snd (by assumption) ?_)
    | (apply Kept.foldl <;> intros)

theorem State.mapInvalidate_kept {s0 s : State} (h : Kept s0 s) :
    Kept s0 ((State.mapInvalidate s).1) := by
  unfold State.mapInvalidate
  with_reducible repeat' first
    | assumption
    | apply State.setHost_kept

theorem State.bar2Fault_kept {s0 s : State} (h : Kept s0 s) :
    Kept s0 (State.bar2Fault s) := by
  unfold State.bar2Fault
  with_reducible repeat' first
    | assumption
    | apply State.bump_kept
    | apply State.raise_kept

theorem State.takeBar2_kept {s0 s : State} (h : Kept s0 s) (addr count : Nat) (entry : Bytes) :
    Kept s0 (State.takeBar2 s addr count entry) := by
  unfold State.takeBar2
  with_reducible repeat' first
    | assumption
    | apply State.bar2Fault_kept
    | apply State.bump_kept
    | apply State.countRead_kept
    | apply State.emit_kept
    | apply State.setHost_kept
    | apply State.touchLease_kept
    | (apply Kept.ite <;> intro)
    | (apply Kept.ite_fst <;> intro)
    | (refine Kept.fst (by assumption) ?_)
    | (refine Kept.snd (by assumption) ?_)
    | (apply Kept.foldl <;> intros)
    | (apply Kept.foldl_fst <;> intros)
    | dsimp only
    | split
    | apply Kept.upd

theorem execBar2Read_kept {s0 s : State} (h : Kept s0 s) (addr count : Nat) (entry : Bytes) :
    KeptAns s0 (execBar2Read addr count entry s) := by
  unfold execBar2Read
  with_reducible repeat' first
    | assumption
    | apply KeptAns.next
    | (apply KeptAns.ite <;> intro)
    | apply State.postpone_kept
    | apply State.takeBar2_kept
    | (apply Kept.ite <;> intro)
    | (apply Kept.ite_fst <;> intro)
    | (refine Kept.fst (by assumption) ?_)
    | (refine Kept.snd (by assumption) ?_)
    | (apply Kept.foldl <;> intros)
    | (apply Kept.foldl_fst <;> intros)
    | dsimp only
    | split
    | apply Kept.upd

theorem execBar2Write_kept {s0 s : State} (h : Kept s0 s) (addr : Nat) :
    KeptAns s0 (execBar2Write addr s) := by
  unfold execBar2Write
  with_reducible repeat' first
    | assumption
    | apply KeptAns.next
    | (apply KeptAns.ite <;> intro)
    | apply State.bump_kept

theorem State.mute_kept {s0 s : State} (h : Kept s0 s) (p : Issuer → Bool) :
    Kept s0 (State.mute s p) := by
  unfold State.mute
  with_reducible repeat' first
    | assumption
    | (refine Kept.fst (by assumption) ?_)
    | (refine Kept.snd (by assumption) ?_)
    | dsimp only
    | split
    | apply Kept.upd

theorem State.dropTransfers_kept {s0 s : State} (h : Kept s0 s) (p : Issuer → Bool) :
    Kept s0 (State.dropTransfers s p) := by
  unfold State.dropTransfers
  with_reducible repeat' first
    | assumption
    | (refine Kept.fst (by assumption) ?_)
    | (refine Kept.snd (by assumption) ?_)
    | dsimp only
    | split
    | apply Kept.upd

theorem State.flushHoop_kept {s0 s : State} (h : Kept s0 s) (f : Nat) :
    Kept s0 (State.flushHoop s f) := by
  unfold State.flushHoop
  with_reducible repeat' first
    | assumption
    | apply State.bump_kept
    | apply State.setHost_kept
    | (apply Kept.ite <;> intro)
    | (apply Kept.ite_fst <;> intro)
    | (refine Kept.fst (by assumption) ?_)
    | (refine Kept.snd (by assumption) ?_)
    | (apply Kept.foldl <;> intros)
    | (apply Kept.foldl_fst <;> intros)
    | dsimp only
    | split
    | apply Kept.upd

theorem execPort0Reset_kept {s0 s : State} (h : Kept s0 s) :
    KeptAns s0 (execPort0Reset s) := by
  unfold execPort0Reset
  with_reducible repeat' first
    | assumption
    | apply KeptAns.next
    | (apply KeptAns.ite <;> intro)
    | apply State.bump_kept
    | apply State.dropTransfers_kept
    | apply State.endPortSessions_kept
    | apply State.flushHoop_kept
    | apply State.mute_kept
    | apply State.resetHolder_kept
    | apply State.setHost_kept
    | apply State.setObj_kept
    | apply State.setObjs_kept
    | apply State.setPort_kept
    | apply State.stopRing_kept
    | (apply Kept.ite <;> intro)
    | (apply Kept.ite_fst <;> intro)
    | (refine Kept.fst (by assumption) ?_)
    | (refine Kept.snd (by assumption) ?_)
    | (apply Kept.foldl <;> intros)
    | (apply Kept.foldl_fst <;> intros)
    | dsimp only
    | split
    | apply Kept.upd

theorem execBmeClear_kept {s0 s : State} (h : Kept s0 s) :
    KeptAns s0 (execBmeClear s) := by
  unfold execBmeClear
  with_reducible repeat' first
    | assumption
    | apply KeptAns.next
    | (apply KeptAns.ite <;> intro)
    | apply State.setHost_kept
    | apply State.setObj_kept
    | (apply Kept.ite <;> intro)
    | (refine Kept.fst (by assumption) ?_)
    | (refine Kept.snd (by assumption) ?_)
    | (apply Kept.foldl <;> intros)

theorem execBmeSet_kept {s0 s : State} (h : Kept s0 s) :
    KeptAns s0 (execBmeSet s) := by
  unfold execBmeSet
  with_reducible repeat' first
    | assumption
    | apply KeptAns.next
    | (apply KeptAns.ite <;> intro)
    | apply State.setHost_kept
    | apply State.setObj_kept
    | (apply Kept.ite <;> intro)
    | (refine Kept.fst (by assumption) ?_)
    | (refine Kept.snd (by assumption) ?_)
    | (apply Kept.foldl <;> intros)

theorem execPcieLinkUp_kept {s0 s : State} (h : Kept s0 s) (speed width : Nat) :
    KeptAns s0 (execPcieLinkUp speed width s) := by
  unfold execPcieLinkUp
  with_reducible repeat' first
    | assumption
    | apply KeptAns.next
    | (apply KeptAns.ite <;> intro)
    | apply State.setObjs_kept

end Sys2Proof.Machine
end

