-- ==== Sys2Proof/Laws/KeepCores.lean ====
section
/-! SUPPORT. What the operations of Machine/Cores.lean keep. -/

namespace Sys2Proof.Machine

theorem State.setLock_kept {s0 s : State} (h : Kept s0 s) (x : Lock) :
    Kept s0 (State.setLock s x) := by
  unfold State.setLock
  with_reducible repeat' first
    | assumption
    | (refine Kept.fst (by assumption) ?_)
    | (refine Kept.snd (by assumption) ?_)
    | dsimp only
    | split
    | apply Kept.upd

theorem execLockRequest_kept {s0 s : State} (h : Kept s0 s) (core : Nat) (pkt : Bytes) :
    KeptAns s0 (execLockRequest core pkt s) := by
  unfold execLockRequest
  with_reducible repeat' first
    | assumption
    | apply KeptAns.next
    | (apply KeptAns.ite <;> intro)
    | apply State.setLock_kept

theorem State.lockTick_kept {s0 s : State} (h : Kept s0 s) (u : Tick) :
    Kept s0 (State.lockTick s u) := by
  unfold State.lockTick
  with_reducible repeat' first
    | assumption
    | apply State.bump_kept
    | apply State.setLock_kept
    | apply State.setObj_kept
    | apply State.turnAway_kept
    | (apply Kept.ite <;> intro)
    | (refine Kept.fst (by assumption) ?_)
    | (refine Kept.snd (by assumption) ?_)
    | dsimp only
    | split
    | apply Kept.upd

theorem State.breakLock_kept {s0 s : State} (h : Kept s0 s) (t : Tick) :
    Kept s0 (State.breakLock s t) := by
  unfold State.breakLock
  with_reducible repeat' first
    | assumption
    | apply State.bump_kept
    | apply State.setLock_kept
    | (apply Kept.ite <;> intro)

theorem execLockTimeout_kept {s0 s : State} (h : Kept s0 s) :
    KeptAns s0 (execLockTimeout s) := by
  unfold execLockTimeout
  with_reducible repeat' first
    | assumption
    | apply KeptAns.next
    | (apply KeptAns.ite <;> intro)
    | apply State.breakLock_kept
    | apply State.bump_kept
    | (refine Kept.fst (by assumption) ?_)
    | (refine Kept.snd (by assumption) ?_)
    | dsimp only
    | split

theorem State.forget_kept {s0 s : State} (h : Kept s0 s) (c : Nat) :
    Kept s0 (State.forget s c) := by
  unfold State.forget
  with_reducible repeat' first
    | assumption
    | (apply Kept.ite <;> intro)
    | (refine Kept.fst (by assumption) ?_)
    | (refine Kept.snd (by assumption) ?_)
    | dsimp only
    | split
    | apply Kept.upd

theorem State.resetCore_kept {s0 s : State} (h : Kept s0 s) (c kind state : Nat) (t : Tick) :
    Kept s0 (State.resetCore s c kind state t) := by
  unfold State.resetCore
  with_reducible repeat' first
    | assumption
    | apply State.breakLock_kept
    | apply State.bump_kept
    | apply State.dropTransfers_kept
    | apply State.forget_kept
    | apply State.mute_kept
    | apply State.resetHolder_kept
    | apply State.setLock_kept
    | apply State.setObjs_kept
    | apply State.setPort_kept
    | (apply Kept.ite <;> intro)
    | (apply Kept.ite_fst <;> intro)
    | (refine Kept.fst (by assumption) ?_)
    | (refine Kept.snd (by assumption) ?_)
    | (apply Kept.foldl <;> intros)
    | (apply Kept.foldl_fst <;> intros)
    | dsimp only
    | split
    | apply Kept.upd

theorem State.faultCore_kept {s0 s : State} (h : Kept s0 s) (c kind : Nat) (t : Tick) :
    Kept s0 (State.faultCore s c kind t) := by
  unfold State.faultCore
  with_reducible repeat' first
    | assumption
    | apply State.resetCore_kept
    | (apply Kept.ite <;> intro)
    | (apply Kept.ite_fst <;> intro)
    | (refine Kept.fst (by assumption) ?_)
    | (refine Kept.snd (by assumption) ?_)
    | (apply Kept.foldl <;> intros)
    | (apply Kept.foldl_fst <;> intros)
    | dsimp only
    | split
    | apply Kept.upd

theorem execWatchdogExpiry_kept {s0 s : State} (h : Kept s0 s) (core : Nat) :
    KeptAns s0 (execWatchdogExpiry core s) := by
  unfold execWatchdogExpiry
  with_reducible repeat' first
    | assumption
    | apply KeptAns.next
    | (apply KeptAns.ite <;> intro)
    | apply State.faultCore_kept

theorem execCoreFault_kept {s0 s : State} (h : Kept s0 s) (core : Nat) :
    KeptAns s0 (execCoreFault core s) := by
  unfold execCoreFault
  with_reducible repeat' first
    | assumption
    | apply KeptAns.next
    | (apply KeptAns.ite <;> intro)
    | apply State.faultCore_kept

theorem State.coreResetWrite_kept {s0 s : State} (h : Kept s0 s) (c : Nat) (t : Tick) :
    Kept s0 ((State.coreResetWrite s c t).1) := by
  unfold State.coreResetWrite
  with_reducible repeat' first
    | assumption
    | apply State.resetCore_kept
    | (apply Kept.ite <;> intro)
    | (apply Kept.ite_fst <;> intro)
    | (refine Kept.fst (by assumption) ?_)
    | (refine Kept.snd (by assumption) ?_)
    | (apply Kept.foldl <;> intros)
    | (apply Kept.foldl_fst <;> intros)
    | dsimp only
    | split
    | apply Kept.upd

theorem State.startCores_kept {s0 s : State} (h : Kept s0 s) (t : Tick) :
    Kept s0 (State.startCores s t) := by
  unfold State.startCores
  with_reducible repeat' first
    | assumption
    | apply State.emits_kept
    | apply State.flushHoop_kept
    | apply State.resetCore_kept
    | apply State.setObj_kept
    | (apply Kept.ite <;> intro)
    | (apply Kept.ite_fst <;> intro)
    | (refine Kept.fst (by assumption) ?_)
    | (refine Kept.snd (by assumption) ?_)
    | (apply Kept.foldl <;> intros)
    | (apply Kept.foldl_fst <;> intros)
    | dsimp only
    | split
    | apply Kept.upd

theorem State.fwRestart_kept {s0 s : State} (h : Kept s0 s) (t : Tick) :
    Kept s0 ((State.fwRestart s t).1) := by
  unfold State.fwRestart
  with_reducible repeat' first
    | assumption
    | apply State.startCores_kept
    | (apply Kept.ite <;> intro)
    | (apply Kept.ite_fst <;> intro)
    | (refine Kept.fst (by assumption) ?_)
    | (refine Kept.snd (by assumption) ?_)
    | (apply Kept.foldl <;> intros)
    | (apply Kept.foldl_fst <;> intros)
    | dsimp only
    | split
    | apply Kept.upd

theorem State.firmwareChosen_kept {s0 s : State} (h : Kept s0 s) (slotA slotB config0 config1 : Bytes) :
    Kept s0 (State.firmwareChosen s slotA slotB config0 config1) := by
  unfold State.firmwareChosen
  with_reducible repeat' first
    | assumption
    | apply State.setObj_kept
    | apply State.setObjs_kept
    | (apply Kept.ite <;> intro)
    | (refine Kept.fst (by assumption) ?_)
    | (refine Kept.snd (by assumption) ?_)
    | (apply Kept.foldl <;> intros)
    | dsimp only
    | split
    | apply Kept.upd

theorem State.flashImage_kept {s0 s : State} (h : Kept s0 s) (b : Bytes) :
    Kept s0 ((State.flashImage s b).1) := by
  unfold State.flashImage
  with_reducible repeat' first
    | assumption
    | apply Acting.step_kept
    | apply State.emits_kept
    | apply State.setObj_kept
    | (apply Kept.ite <;> intro)
    | (apply Kept.ite_fst <;> intro)
    | (refine Kept.fst (by assumption) ?_)
    | (refine Kept.snd (by assumption) ?_)
    | (apply Kept.foldl <;> intros)
    | (apply Kept.foldl_fst <;> intros)
    | dsimp only
    | split
    | apply Kept.upd

theorem State.flashConfig_kept {s0 s : State} (h : Kept s0 s) (b : Bytes) :
    Kept s0 ((State.flashConfig s b).1) := by
  unfold State.flashConfig
  with_reducible repeat' first
    | assumption
    | apply State.emits_kept
    | (apply Kept.ite <;> intro)
    | (apply Kept.ite_fst <;> intro)
    | (refine Kept.fst (by assumption) ?_)
    | (refine Kept.snd (by assumption) ?_)
    | (apply Kept.foldl <;> intros)
    | (apply Kept.foldl_fst <;> intros)
    | dsimp only
    | split
    | apply Kept.upd

theorem State.resolve_kept {s0 s : State} (h : Kept s0 s) (w : Wait) :
    Kept s0 (State.resolve s w) := by
  unfold State.resolve
  with_reducible repeat' first
    | assumption
    | apply State.finish_kept
    | (refine Kept.fst (by assumption) ?_)
    | (refine Kept.snd (by assumption) ?_)
    | dsimp only
    | split
    | apply Kept.upd

theorem execFlashProgrammed_kept {s0 s : State} (h : Kept s0 s) :
    KeptAns s0 (execFlashProgrammed s) := by
  unfold execFlashProgrammed
  with_reducible repeat' first
    | assumption
    | apply KeptAns.next
    | (apply KeptAns.ite <;> intro)
    | apply State.resolve_kept
    | (refine Kept.fst (by assumption) ?_)
    | (refine Kept.snd (by assumption) ?_)
    | dsimp only
    | split
    | apply Kept.upd

theorem execOwnerKeyProgrammed_kept {s0 s : State} (h : Kept s0 s) :
    KeptAns s0 (execOwnerKeyProgrammed s) := by
  unfold execOwnerKeyProgrammed
  with_reducible repeat' first
    | assumption
    | apply KeptAns.next
    | apply State.ownerKey_kept
    | apply State.resolve_kept

theorem execFlushLearntDone_kept {s0 s : State} (h : Kept s0 s) (lane : Nat) :
    KeptAns s0 (execFlushLearntDone lane s) := by
  unfold execFlushLearntDone
  with_reducible repeat' first
    | assumption
    | apply KeptAns.next
    | (apply KeptAns.ite <;> intro)
    | apply State.resolve_kept
    | (refine Kept.fst (by assumption) ?_)
    | (refine Kept.snd (by assumption) ?_)
    | dsimp only
    | split
    | apply Kept.upd

end Sys2Proof.Machine
end

