-- ==== Sys2Proof/Laws/KeepFlow.lean ====
section
/-! SUPPORT. What the operations of Machine/Flow.lean keep. -/

namespace Sys2Proof.Machine

theorem State.setFlow_kept {s0 s : State} (h : Kept s0 s) (fid : Nat) (c : FlowCtx) :
    Kept s0 (State.setFlow s fid c) := by
  unfold State.setFlow
  with_reducible repeat' first
    | assumption
    | (refine Kept.fst (by assumption) ?_)
    | (refine Kept.snd (by assumption) ?_)
    | dsimp only
    | split
    | apply Kept.upd

theorem State.setFlLane_kept {s0 s : State} (h : Kept s0 s) (n : Nat) (x : FlowLane) :
    Kept s0 (State.setFlLane s n x) := by
  unfold State.setFlLane
  with_reducible repeat' first
    | assumption
    | (refine Kept.fst (by assumption) ?_)
    | (refine Kept.snd (by assumption) ?_)
    | dsimp only
    | split
    | apply Kept.upd

theorem State.toQueues_kept {s0 s : State} (h : Kept s0 s) (qs : List Nat) (recs : List Rec) (t now : Tick) (tally : List (Key × Nat)) :
    Kept s0 (State.toQueues s qs recs t now tally) := by
  unfold State.toQueues
  with_reducible repeat' first
    | assumption
    | apply State.deliver_kept
    | (apply Kept.ite <;> intro)
    | (apply Kept.ite_fst <;> intro)
    | (refine Kept.fst (by assumption) ?_)
    | (refine Kept.snd (by assumption) ?_)
    | (apply Kept.foldl <;> intros)
    | (apply Kept.foldl_fst <;> intros)
    | dsimp only
    | split
    | apply Kept.upd

theorem State.flowEvents_kept {s0 s : State} (h : Kept s0 s) (n fid : Nat) (c : FlowCtx) (key : Bytes) (l : List FlowEv) (own : List Nat) (pkt : List Rec) (t now : Tick) :
    Kept s0 (State.flowEvents s n fid c key l own pkt t now) := by
  unfold State.flowEvents
  with_reducible repeat' first
    | assumption
    | apply State.arrive_kept
    | apply State.deliver_kept
    | (apply Kept.ite <;> intro)
    | (apply Kept.ite_fst <;> intro)
    | (refine Kept.fst (by assumption) ?_)
    | (refine Kept.snd (by assumption) ?_)
    | (apply Kept.foldl <;> intros)
    | (apply Kept.foldl_fst <;> intros)
    | dsimp only
    | split
    | apply Kept.upd

theorem State.closeRow_kept {s0 s : State} (h : Kept s0 s) (n fid : Nat) (c : FlowCtx) (now : Tick) :
    Kept s0 (State.closeRow s n fid c now) := by
  unfold State.closeRow
  with_reducible repeat' first
    | assumption
    | apply State.bump_kept
    | apply State.toQueues_kept
    | (refine Kept.fst (by assumption) ?_)
    | (refine Kept.snd (by assumption) ?_)
    | (apply Kept.foldl <;> intros)
    | dsimp only
    | split

theorem State.flowFilet_kept {s0 s : State} (h : Kept s0 s) (n fid : Nat) (p : Rtp) (frameEnd : Bool) (t now : Tick) :
    Kept s0 (State.flowFilet s n fid p frameEnd t now) := by
  unfold State.flowFilet
  with_reducible repeat' first
    | assumption
    | apply State.closeRow_kept
    | apply State.setFlow_kept
    | (apply Kept.ite <;> intro)
    | (refine Kept.fst (by assumption) ?_)
    | (refine Kept.snd (by assumption) ?_)
    | (apply Kept.foldl <;> intros)

theorem State.unclassified_kept {s0 s : State} (h : Kept s0 s) (n reason flags orig : Nat) (d : Bytes) (t now : Tick) :
    Kept s0 (State.unclassified s n reason flags orig d t now) := by
  unfold State.unclassified
  with_reducible repeat' first
    | assumption
    | apply State.bump_kept
    | apply State.toQueues_kept
    | (apply Kept.ite <;> intro)
    | (refine Kept.fst (by assumption) ?_)
    | (refine Kept.snd (by assumption) ?_)
    | dsimp only
    | split

theorem State.ptpFrame_kept {s0 s : State} (h : Kept s0 s) (n flags orig : Nat) (d : Bytes) (t now : Tick) :
    Kept s0 (State.ptpFrame s n flags orig d t now) := by
  unfold State.ptpFrame
  with_reducible repeat' first
    | assumption
    | apply State.bump_kept
    | apply State.toQueues_kept
    | (refine Kept.fst (by assumption) ?_)
    | (refine Kept.snd (by assumption) ?_)
    | dsimp only
    | split

theorem State.flowHit_kept {s0 s : State} (h : Kept s0 s) (n fid flags orig : Nat) (key d : Bytes) (p : Option Rtp) (t now : Tick) :
    Kept s0 (State.flowHit s n fid flags orig key d p t now) := by
  unfold State.flowHit
  lift_lets
  extract_lets c isNew c1 st s1 s2 misbound s3 evs s5 s5a s6
  have h1 : Kept s0 s1 := State.setFlow_kept (State.bump_kept h _ _) _ _
  have h2 : Kept s0 s2 := Kept.ite (fun _ => State.bump_kept h1 _ _) (fun _ => h1)
  have h5 : Kept s0 s5 := State.flowEvents_kept (State.bump_kept h2 _ _) ..
  clear_value s5
  have h6 : Kept s0 s6 := by
    unfold s6
    split
    · exact h5
    · exact State.tapSignature_kept (State.toQueues_kept (State.arrive_kept (State.bump_kept h5 _ _) _ _) ..) _ _ _ _ _
  clear_value s6
  split
  · exact State.flowFilet_kept h6 _ _ _ _ _ _
  · exact h6

theorem State.flowLookup_kept {s0 s : State} (h : Kept s0 s) (n flags orig : Nat) (key payload d : Bytes) (t now : Tick) :
    Kept s0 (State.flowLookup s n flags orig key payload d t now) := by
  unfold State.flowLookup
  with_reducible repeat' first
    | assumption
    | apply State.bump_kept
    | apply State.flowHit_kept
    | apply State.setFlLane_kept
    | apply State.setFlow_kept
    | apply State.unclassified_kept
    | (apply Kept.ite <;> intro)
    | (apply Kept.ite_fst <;> intro)
    | (refine Kept.fst (by assumption) ?_)
    | (refine Kept.snd (by assumption) ?_)
    | (apply Kept.foldl <;> intros)
    | (apply Kept.foldl_fst <;> intros)
    | dsimp only
    | split
    | apply Kept.upd

theorem State.flowFrame_kept {s0 s : State} (h : Kept s0 s) (n flags orig : Nat) (d : Bytes) (t now : Tick) :
    Kept s0 (State.flowFrame s n flags orig d t now) := by
  unfold State.flowFrame
  with_reducible repeat' first
    | assumption
    | apply State.bump_kept
    | apply State.flowLookup_kept
    | apply State.ptpFrame_kept
    | apply State.setFlLane_kept
    | apply State.unclassified_kept
    | (apply Kept.ite <;> intro)
    | (refine Kept.fst (by assumption) ?_)
    | (refine Kept.snd (by assumption) ?_)
    | dsimp only
    | split

theorem State.takeFrame_kept {s0 s : State} (h : Kept s0 s) (n : Nat) :
    Kept s0 (State.takeFrame s n) := by
  unfold State.takeFrame
  with_reducible repeat' first
    | assumption
    | apply State.arrive_kept
    | apply State.bump_kept
    | apply State.codeError_kept
    | apply State.flowFrame_kept
    | apply State.rest_kept
    | apply State.setDec_kept
    | (apply Kept.ite <;> intro)
    | (apply Kept.ite_fst <;> intro)
    | (refine Kept.fst (by assumption) ?_)
    | (refine Kept.snd (by assumption) ?_)
    | (apply Kept.foldl <;> intros)
    | (apply Kept.foldl_fst <;> intros)
    | dsimp only
    | split
    | apply Kept.upd

theorem execEthFrame_kept {s0 s : State} (h : Kept s0 s) (lane : Nat) :
    KeptAns s0 (execEthFrame lane s) := by
  unfold execEthFrame
  with_reducible repeat' first
    | assumption
    | apply KeptAns.next
    | (apply KeptAns.ite <;> intro)
    | apply State.postpone_kept
    | apply State.takeFrame_kept
    | (apply Kept.ite <;> intro)
    | (apply Kept.ite_fst <;> intro)
    | (refine Kept.fst (by assumption) ?_)
    | (refine Kept.snd (by assumption) ?_)
    | (apply Kept.foldl <;> intros)
    | (apply Kept.foldl_fst <;> intros)
    | dsimp only
    | split
    | apply Kept.upd

theorem State.visitBucket_kept {s0 s : State} (h : Kept s0 s) (n b : Nat) (now : Tick) :
    Kept s0 (State.visitBucket s n b now) := by
  unfold State.visitBucket
  with_reducible repeat' first
    | assumption
    | apply State.flowEvents_kept
    | apply State.setFlow_kept
    | (apply Kept.ite <;> intro)
    | (apply Kept.ite_fst <;> intro)
    | (refine Kept.fst (by assumption) ?_)
    | (refine Kept.snd (by assumption) ?_)
    | (apply Kept.foldl <;> intros)
    | (apply Kept.foldl_fst <;> intros)
    | dsimp only
    | split
    | apply Kept.upd

theorem State.tapBucket_kept {s0 s : State} (h : Kept s0 s) (n b : Nat) :
    Kept s0 (State.tapBucket s n b) := by
  unfold State.tapBucket
  with_reducible repeat' first
    | assumption
    | (apply Kept.ite <;> intro)
    | (apply Kept.ite_fst <;> intro)
    | (refine Kept.fst (by assumption) ?_)
    | (refine Kept.snd (by assumption) ?_)
    | (apply Kept.foldl <;> intros)
    | (apply Kept.foldl_fst <;> intros)
    | dsimp only
    | split
    | apply Kept.upd

theorem State.takeVisit_kept {s0 s : State} (h : Kept s0 s) (n : Nat) :
    Kept s0 (State.takeVisit s n) := by
  unfold State.takeVisit
  with_reducible repeat' first
    | assumption
    | apply State.setFlLane_kept
    | apply State.tapBucket_kept
    | apply State.visitBucket_kept
    | (apply Kept.ite <;> intro)
    | (apply Kept.ite_fst <;> intro)
    | (refine Kept.fst (by assumption) ?_)
    | (refine Kept.snd (by assumption) ?_)
    | (apply Kept.foldl <;> intros)
    | (apply Kept.foldl_fst <;> intros)
    | dsimp only
    | split
    | apply Kept.upd

theorem execScannerVisit_kept {s0 s : State} (h : Kept s0 s) (lane : Nat) :
    KeptAns s0 (execScannerVisit lane s) := by
  unfold execScannerVisit
  with_reducible repeat' first
    | assumption
    | apply KeptAns.next
    | (apply KeptAns.ite <;> intro)
    | apply State.postpone_kept
    | apply State.takeVisit_kept
    | (apply Kept.ite <;> intro)
    | (apply Kept.ite_fst <;> intro)
    | (refine Kept.fst (by assumption) ?_)
    | (refine Kept.snd (by assumption) ?_)
    | (apply Kept.foldl <;> intros)
    | (apply Kept.foldl_fst <;> intros)
    | dsimp only
    | split
    | apply Kept.upd

theorem State.tableOp_kept {s0 s : State} (h : Kept s0 s) (x : TableCmd) (t : Tick) : Kept s0 (s.tableOp x t).2.2 := by
  unfold State.tableOp
  dsimp only
  repeat' split
  all_goals with_reducible repeat' first
    | assumption
    | apply State.setFlow_kept
    | apply State.setFlLane_kept
    | apply State.bump_kept

theorem State.tableCmd_kept {s0 s : State} (h : Kept s0 s) (port : Nat) (b : Bytes) (t : Tick) :
    Kept s0 ((State.tableCmd s port b t).1) := by
  unfold State.tableCmd
  with_reducible repeat' first
    | assumption
    | apply State.fresh_kept
    | apply State.setDom_kept
    | apply State.setFlLane_kept
    | apply State.tableOp_kept
    | (apply Kept.ite_fst <;> intro)
    | (refine Kept.fst (by assumption) ?_)
    | (refine Kept.snd (by assumption) ?_)
    | dsimp only
    | split

theorem State.clearFlows_kept {s0 s : State} (h : Kept s0 s) :
    Kept s0 (State.clearFlows s) := by
  unfold State.clearFlows
  with_reducible repeat' first
    | assumption
    | (refine Kept.fst (by assumption) ?_)
    | (refine Kept.snd (by assumption) ?_)
    | dsimp only
    | split
    | apply Kept.upd

end Sys2Proof.Machine
end

