-- ==== Sys2Proof/Laws/KeepServices.lean ====
section
/-! SUPPORT. What the operations of Machine/Services.lean keep. -/

namespace Sys2Proof.Machine

theorem State.serviceNote_kept {s0 s : State} (h : Kept s0 s) (service entry event data : Nat) (t : Tick) :
    Kept s0 (State.serviceNote s service entry event data t) := by
  unfold State.serviceNote
  with_reducible repeat' first
    | assumption
    | apply State.notify_kept

theorem State.seeCapture_kept {s0 s : State} (h : Kept s0 s) (k : Nat) :
    Kept s0 (State.seeCapture s k) := by
  unfold State.seeCapture
  with_reducible repeat' first
    | assumption
    | (refine Kept.fst (by assumption) ?_)
    | (refine Kept.snd (by assumption) ?_)
    | dsimp only
    | split
    | apply Kept.upd

theorem State.checkService_kept {s0 s : State} (h : Kept s0 s) (service k : Nat) (enabling : Bool) (t : Tick) :
    Kept s0 (State.checkService s service k enabling t) := by
  unfold State.checkService
  with_reducible repeat' first
    | assumption
    | apply State.seeCapture_kept
    | apply State.serviceNote_kept
    | apply State.setObj_kept
    | (apply Kept.ite <;> intro)
    | (refine Kept.fst (by assumption) ?_)
    | (refine Kept.snd (by assumption) ?_)
    | dsimp only
    | split
    | apply Kept.upd

theorem State.serviceEffects_kept {s0 s : State} (h : Kept s0 s) (old : State) (keys : List Key) (t : Tick) :
    Kept s0 (State.serviceEffects s old keys t) := by
  unfold State.serviceEffects
  with_reducible repeat' first
    | assumption
    | apply State.checkService_kept
    | (apply Kept.ite <;> intro)
    | (refine Kept.fst (by assumption) ?_)
    | (refine Kept.snd (by assumption) ?_)
    | (apply Kept.foldl <;> intros)

theorem State.startServices_kept {s0 s : State} (h : Kept s0 s) (c : Nat) (t : Tick) :
    Kept s0 (State.startServices s c t) := by
  unfold State.startServices
  with_reducible repeat' first
    | assumption
    | apply State.checkService_kept
    | (apply Kept.ite <;> intro)
    | (refine Kept.fst (by assumption) ?_)
    | (refine Kept.snd (by assumption) ?_)
    | (apply Kept.foldl <;> intros)

theorem execCoreBooted_kept {s0 s : State} (h : Kept s0 s) (core : Nat) :
    KeptAns s0 (execCoreBooted core s) := by
  unfold execCoreBooted
  with_reducible repeat' first
    | assumption
    | apply KeptAns.next
    | (apply KeptAns.ite <;> intro)
    | apply State.setObj_kept
    | apply State.startServices_kept

theorem execFwCheckEnd_kept {s0 s : State} (h : Kept s0 s) (slotA slotB config0 config1 : Bytes) :
    KeptAns s0 (execFwCheckEnd slotA slotB config0 config1 s) := by
  unfold execFwCheckEnd
  with_reducible repeat' first
    | assumption
    | apply KeptAns.next
    | (apply KeptAns.ite <;> intro)
    | apply State.firmwareChosen_kept
    | apply State.startServices_kept
    | (refine Kept.fst (by assumption) ?_)
    | (refine Kept.snd (by assumption) ?_)
    | (apply Kept.foldl <;> intros)

theorem execFlowhealthSample_kept {s0 s : State} (h : Kept s0 s) (lane : Nat) :
    KeptAns s0 (execFlowhealthSample lane s) := by
  unfold execFlowhealthSample
  with_reducible repeat' first
    | assumption
    | apply KeptAns.next
    | (apply KeptAns.ite <;> intro)
    | apply State.bump_kept
    | apply State.serviceNote_kept
    | apply State.setDom_kept
    | (apply Kept.ite <;> intro)
    | (refine Kept.fst (by assumption) ?_)
    | (refine Kept.snd (by assumption) ?_)
    | (apply Kept.foldl <;> intros)
    | dsimp only
    | split
    | apply Kept.upd

theorem execSignatureTap_kept {s0 s : State} (h : Kept s0 s) (entry : Nat) :
    KeptAns s0 (execSignatureTap entry s) := by
  unfold execSignatureTap
  with_reducible repeat' first
    | assumption
    | apply KeptAns.next
    | (apply KeptAns.ite <;> intro)
    | apply State.bump_kept
    | apply State.rest_kept
    | apply State.serviceNote_kept
    | apply State.setObj_kept
    | (refine Kept.fst (by assumption) ?_)
    | (refine Kept.snd (by assumption) ?_)
    | dsimp only
    | split
    | apply Kept.upd

theorem State.writeGolden_kept {s0 s : State} (h : Kept s0 s) (k : Nat) (b : Bytes) (t : Tick) :
    Kept s0 ((State.writeGolden s k b t).1) := by
  unfold State.writeGolden
  with_reducible repeat' first
    | assumption
    | apply State.serviceEffects_kept
    | apply State.setDom_kept
    | (apply Kept.ite_fst <;> intro)
    | (refine Kept.fst (by assumption) ?_)
    | (refine Kept.snd (by assumption) ?_)
    | dsimp only
    | split
    | apply Kept.upd

theorem State.resend_kept {s0 s : State} (h : Kept s0 s) (k v : Nat) :
    Kept s0 ((State.resend s k v).1) := by
  unfold State.resend
  with_reducible repeat' first
    | assumption
    | (refine Kept.fst (by assumption) ?_)
    | (refine Kept.snd (by assumption) ?_)
    | dsimp only
    | split
    | apply Kept.upd

end Sys2Proof.Machine
end

