-- ==== Sys2Proof/Laws/KeepJobs.lean ====
section
/-! SUPPORT. What the operations of Machine/Jobs.lean keep. -/

namespace Sys2Proof.Machine

theorem State.setDefl_kept {s0 s : State} (h : Kept s0 s) (i : Nat) (x : DeflSlot) :
    Kept s0 (State.setDefl s i x) := by
  unfold State.setDefl
  with_reducible repeat' first
    | assumption
    | (refine Kept.fst (by assumption) ?_)
    | (refine Kept.snd (by assumption) ?_)
    | dsimp only
    | split
    | apply Kept.upd

theorem State.jobEnded_kept {s0 s : State} (h : Kept s0 s) (j : Nat) (notify : Bool) (port : Nat) (r : Bytes) (consumed produced : Nat) (t : Tick) :
    Kept s0 (State.jobEnded s j notify port r consumed produced t) := by
  unfold State.jobEnded
  with_reducible repeat' first
    | assumption
    | apply State.bump_kept
    | apply State.noteHost_kept
    | apply State.noteSub_kept
    | apply State.notify_kept
    | apply State.setDom_kept
    | apply State.setObj_kept
    | (apply Kept.ite <;> intro)
    | (refine Kept.fst (by assumption) ?_)
    | (refine Kept.snd (by assumption) ?_)
    | (apply Kept.foldl <;> intros)

theorem State.jobRefused_kept {s0 s : State} (h : Kept s0 s) (j outcome handle : Nat) (t : Tick) :
    Kept s0 (State.jobRefused s j outcome handle t) := by
  unfold State.jobRefused
  with_reducible repeat' first
    | assumption
    | apply State.setDom_kept
    | apply State.setObj_kept

theorem State.jobOutput_kept {s0 s : State} (h : Kept s0 s) (j : Job) (o : Bytes) :
    Kept s0 (State.jobOutput s j o) := by
  unfold State.jobOutput
  with_reducible repeat' first
    | assumption
    | apply State.emit_kept
    | apply State.setShm_kept
    | (apply Kept.ite <;> intro)

theorem State.jobUnlease_kept {s0 s : State} (h : Kept s0 s) (j : Job) :
    Kept s0 (State.jobUnlease s j) := by
  unfold State.jobUnlease
  with_reducible repeat' first
    | assumption
    | apply State.endLease_kept
    | (refine Kept.fst (by assumption) ?_)
    | (refine Kept.snd (by assumption) ?_)
    | dsimp only
    | split

theorem State.jobLease_kept {s0 s : State} (h : Kept s0 s) (ix : Nat) (j : Job) (q capture seq off left : Nat) :
    Kept s0 (State.jobLease s ix j q capture seq off left) := by
  unfold State.jobLease
  with_reducible repeat' first
    | assumption
    | (refine State.takeLease_kept ?_ _ _ _ _ _ _ _ (by assumption))
    | (refine State.takeLease_kept1 ?_ _ _ _ _ _ _ _ (by assumption))
    | (apply Kept.ite <;> intro)
    | (apply Kept.ite_fst <;> intro)
    | (refine Kept.fst (by assumption) ?_)
    | (refine Kept.snd (by assumption) ?_)
    | (apply Kept.foldl <;> intros)
    | (apply Kept.foldl_fst <;> intros)
    | dsimp only
    | split
    | apply Kept.upd

theorem State.jobTick_kept {s0 s : State} (h : Kept s0 s) (u : Tick) :
    Kept s0 (State.jobTick s u) := by
  unfold State.jobTick
  with_reducible repeat' first
    | assumption
    | apply State.countRead_kept
    | apply State.jobLease_kept
    | apply State.jobUnlease_kept
    | apply State.touchLease_kept
    | (apply Kept.ite <;> intro)
    | (apply Kept.ite_fst <;> intro)
    | (refine Kept.fst (by assumption) ?_)
    | (refine Kept.snd (by assumption) ?_)
    | (apply Kept.foldl <;> intros)
    | (apply Kept.foldl_fst <;> intros)
    | dsimp only
    | split
    | apply Kept.upd

theorem State.jobClose_kept {s0 s : State} (h : Kept s0 s) (ix : Nat) (j : Job) (slot : DeflSlot) (outcome consumed produced total crc : Nat) (t : Tick) :
    Kept s0 (State.jobClose s ix j slot outcome consumed produced total crc t) := by
  unfold State.jobClose
  with_reducible repeat' first
    | assumption
    | apply State.jobEnded_kept
    | apply State.jobUnlease_kept
    | apply State.notify_kept
    | apply State.setDefl_kept
    | (refine Kept.fst (by assumption) ?_)
    | (refine Kept.snd (by assumption) ?_)
    | dsimp only
    | split
    | apply Kept.upd

theorem State.jobFinish_kept {s0 s : State} (h : Kept s0 s) (ix : Nat) (j : Job) (verifyFail destFail memError : Bool) (t : Tick) :
    Kept s0 (State.jobFinish s ix j verifyFail destFail memError t) := by
  unfold State.jobFinish
  with_reducible repeat' first
    | assumption
    | apply State.bump_kept
    | apply State.countInput_kept
    | apply State.fresh_kept
    | apply State.jobClose_kept
    | apply State.jobOutput_kept
    | (apply Kept.ite <;> intro)
    | (refine Kept.fst (by assumption) ?_)
    | (refine Kept.snd (by assumption) ?_)
    | dsimp only
    | split

theorem State.jobDrop_kept {s0 s : State} (h : Kept s0 s) (ix : Nat) (j : Job) (outcome : Nat) (t : Tick) :
    Kept s0 (State.jobDrop s ix j outcome t) := by
  unfold State.jobDrop
  with_reducible repeat' first
    | assumption
    | apply State.jobEnded_kept
    | apply State.notify_kept
    | (apply Kept.ite <;> intro)
    | (apply Kept.ite_fst <;> intro)
    | (refine Kept.fst (by assumption) ?_)
    | (refine Kept.snd (by assumption) ?_)
    | (apply Kept.foldl <;> intros)
    | (apply Kept.foldl_fst <;> intros)
    | dsimp only
    | split
    | apply Kept.upd

theorem State.jobAbort_kept {s0 s : State} (h : Kept s0 s) (ix : Nat) (t : Tick) :
    Kept s0 (State.jobAbort s ix t) := by
  unfold State.jobAbort
  with_reducible repeat' first
    | assumption
    | apply State.jobDrop_kept
    | apply State.jobFinish_kept
    | (apply Kept.ite <;> intro)
    | (apply Kept.ite_fst <;> intro)
    | (refine Kept.fst (by assumption) ?_)
    | (refine Kept.snd (by assumption) ?_)
    | (apply Kept.foldl <;> intros)
    | (apply Kept.foldl_fst <;> intros)
    | dsimp only
    | split
    | apply Kept.upd

theorem State.abortJobs_kept {s0 s : State} (h : Kept s0 s) (release : Bool) (t : Tick) :
    Kept s0 (State.abortJobs s release t) := by
  unfold State.abortJobs
  with_reducible repeat' first
    | assumption
    | apply State.jobAbort_kept
    | (apply Kept.ite <;> intro)
    | (refine Kept.fst (by assumption) ?_)
    | (refine Kept.snd (by assumption) ?_)
    | (apply Kept.foldl <;> intros)
    | dsimp only
    | split
    | apply Kept.upd

theorem State.jobDesc_kept {s0 s : State} (h : Kept s0 s) (iss : Issuer) (ix : Nat) (b : Bytes) (t : Tick) :
    Kept s0 ((State.jobDesc s iss ix b t).1) := by
  unfold State.jobDesc
  with_reducible repeat' first
    | assumption
    | apply State.jobAbort_kept
    | apply State.jobEnded_kept
    | apply State.jobRefused_kept
    | apply State.notify_kept
    | apply State.setDefl_kept
    | apply State.setObj_kept
    | (apply Kept.ite_fst <;> intro)
    | (refine Kept.fst (by assumption) ?_)
    | (refine Kept.snd (by assumption) ?_)
    | dsimp only
    | split
    | apply Kept.upd

theorem execJobRun_kept {s0 s : State} (h : Kept s0 s) :
    KeptAns s0 (execJobRun s) := by
  unfold execJobRun
  with_reducible repeat' first
    | assumption
    | apply KeptAns.next
    | (apply KeptAns.ite <;> intro)
    | apply State.jobDrop_kept
    | apply State.jobLease_kept
    | apply State.setDefl_kept
    | apply State.setObj_kept
    | (apply Kept.ite <;> intro)
    | (apply Kept.ite_fst <;> intro)
    | (refine Kept.fst (by assumption) ?_)
    | (refine Kept.snd (by assumption) ?_)
    | (apply Kept.foldl <;> intros)
    | (apply Kept.foldl_fst <;> intros)
    | dsimp only
    | split
    | apply Kept.upd

theorem execJobEnd_kept {s0 s : State} (h : Kept s0 s) (verifyFail destFail memError : Bool) :
    KeptAns s0 (execJobEnd verifyFail destFail memError s) := by
  unfold execJobEnd
  with_reducible repeat' first
    | assumption
    | apply KeptAns.next
    | apply State.jobFinish_kept
    | (refine Kept.fst (by assumption) ?_)
    | (refine Kept.snd (by assumption) ?_)
    | dsimp only
    | split

theorem State.releaseHandle_kept {s0 s : State} (h : Kept s0 s) (h : Nat) :
    Kept s0 ((State.releaseHandle s h).1) := by
  unfold State.releaseHandle
  with_reducible repeat' first
    | assumption
    | apply State.setDefl_kept
    | (refine Kept.fst (by assumption) ?_)
    | (refine Kept.snd (by assumption) ?_)
    | dsimp only
    | split

theorem execHandleTimeout_kept {s0 s : State} (h : Kept s0 s) (h : Nat) :
    KeptAns s0 (execHandleTimeout h s) := by
  unfold execHandleTimeout
  with_reducible repeat' first
    | assumption
    | apply KeptAns.next
    | (apply KeptAns.ite <;> intro)
    | apply State.setDefl_kept
    | (refine Kept.fst (by assumption) ?_)
    | (refine Kept.snd (by assumption) ?_)
    | dsimp only
    | split

end Sys2Proof.Machine
end

