-- ==== Sys2Proof/Laws/KeepBobbins.lean ====
section
/-! SUPPORT. What the operations of Machine/Bobbins.lean keep. -/

namespace Sys2Proof.Machine

theorem State.setBb_kept {s0 s : State} (h : Kept s0 s) (b : Nat) (x : Bobbin) :
    Kept s0 (State.setBb s b x) := by
  unfold State.setBb
  with_reducible repeat' first
    | assumption
    | (refine Kept.fst (by assumption) ?_)
    | (refine Kept.snd (by assumption) ?_)
    | dsimp only
    | split
    | apply Kept.upd

theorem State.loseEvent_kept {s0 s : State} (h : Kept s0 s) (b : Nat) :
    Kept s0 (State.loseEvent s b) := by
  unfold State.loseEvent
  with_reducible repeat' first
    | assumption
    | apply State.bump_kept
    | apply State.setBb_kept
    | apply State.setObj_kept
    | (apply Kept.ite <;> intro)
    | (apply Kept.ite_fst <;> intro)
    | (refine Kept.fst (by assumption) ?_)
    | (refine Kept.snd (by assumption) ?_)
    | (apply Kept.foldl <;> intros)
    | (apply Kept.foldl_fst <;> intros)
    | dsimp only
    | split
    | apply Kept.upd

theorem State.writeEvent_kept {s0 s : State} (h : Kept s0 s) (b level branch mask : Nat) (trigger notify : Bool) (kind lag : Nat) (t : Tick) :
    Kept s0 (State.writeEvent s b level branch mask trigger notify kind lag t) := by
  unfold State.writeEvent
  with_reducible repeat' first
    | assumption
    | apply State.bump_kept
    | apply State.loseEvent_kept
    | apply State.notify_kept
    | apply State.setBb_kept
    | apply State.setObj_kept
    | (apply Kept.ite <;> intro)
    | (apply Kept.ite_fst <;> intro)
    | (refine Kept.fst (by assumption) ?_)
    | (refine Kept.snd (by assumption) ?_)
    | (apply Kept.foldl <;> intros)
    | (apply Kept.foldl_fst <;> intros)
    | dsimp only
    | split
    | apply Kept.upd

theorem State.cntOp_kept {s0 s : State} (h : Kept s0 s) (b j op : Nat) :
    Kept s0 (State.cntOp s b j op) := by
  unfold State.cntOp
  with_reducible repeat' first
    | assumption
    | apply State.bump_kept
    | apply State.setObj_kept
    | (apply Kept.ite <;> intro)
    | (refine Kept.fst (by assumption) ?_)
    | (refine Kept.snd (by assumption) ?_)
    | dsimp only
    | split

theorem State.tmrOp_kept {s0 s : State} (h : Kept s0 s) (b j op : Nat) :
    Kept s0 (State.tmrOp s b j op) := by
  unfold State.tmrOp
  with_reducible repeat' first
    | assumption
    | apply State.bump_kept
    | apply State.setObj_kept
    | (apply Kept.ite <;> intro)
    | (refine Kept.fst (by assumption) ?_)
    | (refine Kept.snd (by assumption) ?_)
    | dsimp only
    | split

theorem State.queueCasc_kept {s0 s : State} (h : Kept s0 s) (p code bb u : Nat) :
    Kept s0 (State.queueCasc s p code bb u) := by
  unfold State.queueCasc
  with_reducible repeat' first
    | assumption
    | apply State.bump_kept
    | apply State.setCasc_kept
    | (apply Kept.ite <;> intro)

theorem State.bbAct_kept {s0 s : State} (h : Kept s0 s) (u : Nat) (d : Decision) :
    Kept s0 (State.bbAct s u d) := by
  unfold State.bbAct
  with_reducible repeat' first
    | assumption
    | apply State.bump_kept
    | apply State.cntOp_kept
    | apply State.queueCasc_kept
    | apply State.setBb_kept
    | apply State.setObj_kept
    | apply State.tmrOp_kept
    | apply State.writeEvent_kept
    | (apply Kept.ite <;> intro)
    | (refine Kept.fst (by assumption) ?_)
    | (refine Kept.snd (by assumption) ?_)
    | (apply Kept.foldl <;> intros)
    | dsimp only
    | split
    | apply Kept.upd

theorem State.bobbinsTick_kept {s0 s : State} (h : Kept s0 s) (u : Nat) :
    Kept s0 (State.bobbinsTick s u) := by
  unfold State.bobbinsTick
  with_reducible repeat' first
    | assumption
    | apply State.bbAct_kept
    | (refine Kept.fst (by assumption) ?_)
    | (refine Kept.snd (by assumption) ?_)
    | (apply Kept.foldl <;> intros)
    | dsimp only
    | split
    | apply Kept.upd

theorem State.driveOut_kept {s0 s : State} (h : Kept s0 s) (i : Nat) (active : Bool) :
    Kept s0 (State.driveOut s i active) := by
  unfold State.driveOut
  with_reducible repeat' first
    | assumption
    | apply State.setObj_kept

theorem State.beginPulse_kept {s0 s : State} (h : Kept s0 s) (pin : Nat) (u : Tick) :
    Kept s0 (State.beginPulse s pin u) := by
  unfold State.beginPulse
  with_reducible repeat' first
    | assumption
    | apply State.driveOut_kept
    | apply State.rest_kept
    | (apply Kept.ite <;> intro)
    | (apply Kept.ite_fst <;> intro)
    | (refine Kept.fst (by assumption) ?_)
    | (refine Kept.snd (by assumption) ?_)
    | (apply Kept.foldl <;> intros)
    | (apply Kept.foldl_fst <;> intros)
    | dsimp only
    | split
    | apply Kept.upd

theorem execTrigOutStart_kept {s0 s : State} (h : Kept s0 s) (pin : Nat) :
    KeptAns s0 (execTrigOutStart pin s) := by
  unfold execTrigOutStart
  with_reducible repeat' first
    | assumption
    | apply KeptAns.next
    | (apply KeptAns.ite <;> intro)
    | apply State.await_kept
    | (apply Kept.ite <;> intro)
    | (apply Kept.ite_fst <;> intro)
    | (refine Kept.fst (by assumption) ?_)
    | (refine Kept.snd (by assumption) ?_)
    | (apply Kept.foldl <;> intros)
    | (apply Kept.foldl_fst <;> intros)
    | dsimp only
    | split
    | apply Kept.upd

theorem execTrigOutEnd_kept {s0 s : State} (h : Kept s0 s) (pin : Nat) :
    KeptAns s0 (execTrigOutEnd pin s) := by
  unfold execTrigOutEnd
  with_reducible repeat' first
    | assumption
    | apply KeptAns.next
    | (apply KeptAns.ite <;> intro)
    | apply State.driveOut_kept
    | (refine Kept.fst (by assumption) ?_)
    | (refine Kept.snd (by assumption) ?_)
    | dsimp only
    | split
    | apply Kept.upd

theorem execCascadeMessageSend_kept {s0 s : State} (h : Kept s0 s) (port : Nat) :
    KeptAns s0 (execCascadeMessageSend port s) := by
  unfold execCascadeMessageSend
  with_reducible repeat' first
    | assumption
    | apply KeptAns.next
    | (apply KeptAns.ite <;> intro)
    | apply State.emit_kept
    | apply State.rest_kept
    | apply State.setCasc_kept
    | (refine Kept.fst (by assumption) ?_)
    | (refine Kept.snd (by assumption) ?_)
    | dsimp only
    | split

theorem execCascadeMessageReceive_kept {s0 s : State} (h : Kept s0 s) (port : Nat) (chars : Bytes) :
    KeptAns s0 (execCascadeMessageReceive port chars s) := by
  unfold execCascadeMessageReceive
  with_reducible repeat' first
    | assumption
    | apply KeptAns.next
    | (apply KeptAns.ite <;> intro)
    | apply State.bump_kept
    | apply State.fresh_kept
    | (apply Kept.ite <;> intro)
    | (apply Kept.ite_fst <;> intro)
    | (refine Kept.fst (by assumption) ?_)
    | (refine Kept.snd (by assumption) ?_)
    | (apply Kept.foldl <;> intros)
    | (apply Kept.foldl_fst <;> intros)
    | dsimp only
    | split
    | apply Kept.upd

theorem State.eventWord_kept {s0 s : State} (h : Kept s0 s) (b w : Nat) :
    Kept s0 ((State.eventWord s b w).1) := by
  unfold State.eventWord
  with_reducible repeat' first
    | assumption
    | apply State.hoopDecode_kept
    | (apply Kept.ite <;> intro)
    | (apply Kept.ite_fst <;> intro)
    | (refine Kept.fst (by assumption) ?_)
    | (refine Kept.snd (by assumption) ?_)
    | (apply Kept.foldl <;> intros)
    | (apply Kept.foldl_fst <;> intros)
    | dsimp only
    | split
    | apply Kept.upd

theorem execEventRead_kept {s0 s : State} (h : Kept s0 s) (bb : Nat) :
    KeptAns s0 (execEventRead bb s) := by
  unfold execEventRead
  with_reducible repeat' first
    | assumption
    | apply KeptAns.next
    | (apply KeptAns.ite <;> intro)
    | apply State.deliver_kept
    | apply State.eventWord_kept
    | apply State.loseEvent_kept
    | apply State.notify_kept
    | apply State.rest_kept
    | apply State.setBb_kept
    | (apply Kept.ite <;> intro)
    | (apply Kept.ite_fst <;> intro)
    | (refine Kept.fst (by assumption) ?_)
    | (refine Kept.snd (by assumption) ?_)
    | (apply Kept.foldl <;> intros)
    | (apply Kept.foldl_fst <;> intros)
    | dsimp only
    | split
    | apply Kept.upd

end Sys2Proof.Machine
end

