-- ==== Sys2Proof/Laws/KeepPricking.lean ====
section
/-! SUPPORT. What the operations of Machine/Pricking.lean keep. -/

namespace Sys2Proof.Machine

theorem State.stageImage_kept {s0 s : State} (h : Kept s0 s) (slot : Nat) (raw : Bytes) :
    Kept s0 ((State.stageImage s slot raw).1) := by
  unfold State.stageImage
  with_reducible repeat' first
    | assumption
    | apply State.setObj_kept
    | apply State.setObjs_kept
    | (refine Kept.fst (by assumption) ?_)
    | (refine Kept.snd (by assumption) ?_)
    | dsimp only
    | split

theorem State.noteLoad_kept {s0 s : State} (h : Kept s0 s) (k : Key) (status : Nat) :
    Kept s0 (State.noteLoad s k status) := by
  unfold State.noteLoad
  with_reducible repeat' first
    | assumption
    | apply State.setObj_kept
    | (apply Kept.ite <;> intro)
    | (apply Kept.ite_fst <;> intro)
    | (refine Kept.fst (by assumption) ?_)
    | (refine Kept.snd (by assumption) ?_)
    | (apply Kept.foldl <;> intros)
    | (apply Kept.foldl_fst <;> intros)
    | dsimp only
    | split
    | apply Kept.upd

theorem State.setHist_kept {s0 s : State} (h : Kept s0 s) (n h : Nat) :
    Kept s0 (State.setHist s n h) := by
  unfold State.setHist
  with_reducible repeat' first
    | assumption
    | apply State.setObj_kept

theorem State.installImage_kept {s0 s : State} (h : Kept s0 s) (slot : Nat) (img : Bytes) :
    Kept s0 ((State.installImage s slot img).1) := by
  unfold State.installImage
  with_reducible repeat' first
    | assumption
    | apply State.setDom_kept
    | apply State.setHist_kept
    | apply State.setObj_kept
    | apply State.setObjs_kept
    | (apply Kept.ite_fst <;> intro)
    | (refine Kept.fst (by assumption) ?_)
    | (refine Kept.snd (by assumption) ?_)
    | (apply Kept.foldl <;> intros)
    | (apply Kept.foldl_fst <;> intros)
    | dsimp only
    | split

theorem State.emptySlot_kept {s0 s : State} (h : Kept s0 s) (slot : Nat) :
    Kept s0 (State.emptySlot s slot) := by
  unfold State.emptySlot
  with_reducible repeat' first
    | assumption
    | apply State.setDom_kept

theorem State.armBobbin_kept {s0 s : State} (h : Kept s0 s) (b : Nat) (t : Tick) :
    Kept s0 (State.armBobbin s b t) := by
  unfold State.armBobbin
  with_reducible repeat' first
    | assumption
    | apply State.setBb_kept
    | apply State.setObjs_kept
    | apply State.writeEvent_kept
    | (refine Kept.fst (by assumption) ?_)
    | (refine Kept.snd (by assumption) ?_)
    | (apply Kept.foldl <;> intros)

theorem State.stopBobbin_kept {s0 s : State} (h : Kept s0 s) (b : Nat) (t : Tick) :
    Kept s0 (State.stopBobbin s b t) := by
  unfold State.stopBobbin
  with_reducible repeat' first
    | assumption
    | apply State.setObj_kept
    | apply State.writeEvent_kept
    | (apply Kept.ite <;> intro)

theorem State.patchBobbin_kept {s0 s : State} (h : Kept s0 s) (b : Nat) (img : Bytes) :
    Kept s0 (State.patchBobbin s b img) := by
  unfold State.patchBobbin
  with_reducible repeat' first
    | assumption
    | apply State.setBb_kept
    | apply State.setDom_kept
    | (refine Kept.fst (by assumption) ?_)
    | (refine Kept.snd (by assumption) ?_)
    | (apply Kept.foldl <;> intros)

end Sys2Proof.Machine
end

