-- ==== Sys2Proof/Laws/KeepStorage.lean ====
section
/-! SUPPORT. What the operations of Machine/Storage.lean keep. -/

namespace Sys2Proof.Machine

theorem State.setRepair_kept {s0 s : State} (h : Kept s0 s) (f : Repair → Repair) :
    Kept s0 (State.setRepair s f) := by
  unfold State.setRepair
  with_reducible repeat' first
    | assumption
    | (refine Kept.fst (by assumption) ?_)
    | (refine Kept.snd (by assumption) ?_)
    | dsimp only
    | split
    | apply Kept.upd

theorem State.needRow_kept {s0 s : State} (h : Kept s0 s) (i row : Nat) :
    Kept s0 (State.needRow s i row) := by
  unfold State.needRow
  with_reducible repeat' first
    | assumption
    | apply State.setRepair_kept

theorem State.assignSpare_kept {s0 s : State} (h : Kept s0 s) (i row sp : Nat) :
    Kept s0 (State.assignSpare s i row sp) := by
  unfold State.assignSpare
  with_reducible repeat' first
    | assumption
    | apply State.setObj_kept
    | apply State.setRepair_kept
    | (apply Kept.ite <;> intro)
    | (apply Kept.ite_fst <;> intro)
    | (refine Kept.fst (by assumption) ?_)
    | (refine Kept.snd (by assumption) ?_)
    | (apply Kept.foldl <;> intros)
    | (apply Kept.foldl_fst <;> intros)
    | dsimp only
    | split
    | apply Kept.upd

theorem State.repairRow_kept {s0 s : State} (h : Kept s0 s) (i row : Nat) :
    Kept s0 (State.repairRow s i row) := by
  unfold State.repairRow
  with_reducible repeat' first
    | assumption
    | apply State.assignSpare_kept
    | apply State.bump_kept
    | apply State.setObj_kept
    | apply State.setRepair_kept
    | (apply Kept.ite <;> intro)
    | (apply Kept.ite_fst <;> intro)
    | (refine Kept.fst (by assumption) ?_)
    | (refine Kept.snd (by assumption) ?_)
    | (apply Kept.foldl <;> intros)
    | (apply Kept.foldl_fst <;> intros)
    | dsimp only
    | split
    | apply Kept.upd

theorem State.sramCorrected_kept {s0 s : State} (h : Kept s0 s) (i word : Nat) :
    Kept s0 (State.sramCorrected s i word) := by
  unfold State.sramCorrected
  with_reducible repeat' first
    | assumption
    | apply State.bump_kept
    | apply State.needRow_kept
    | apply State.setRepair_kept
    | (apply Kept.ite <;> intro)

theorem State.faultCause_kept {s0 s : State} (h : Kept s0 s) (cause inst : Nat) :
    Kept s0 (State.faultCause s cause inst) := by
  unfold State.faultCause
  with_reducible repeat' first
    | assumption
    | (refine Kept.fst (by assumption) ?_)
    | (refine Kept.snd (by assumption) ?_)
    | dsimp only
    | split
    | apply Kept.upd

theorem State.ownerHandles_kept {s0 s : State} (h : Kept s0 s) (i word : Nat) (t : Tick) :
    Kept s0 (State.ownerHandles s i word t) := by
  unfold State.ownerHandles
  with_reducible repeat' first
    | assumption
    | apply State.faultCause_kept
    | apply State.faultCore_kept
    | apply State.fresh_kept
    | apply State.jobFinish_kept
    | (refine Kept.journalMap _ ?_ _)
    | (refine Kept.shmClear _ ?_)
    | (apply Kept.ite <;> intro)
    | (refine Kept.fst (by assumption) ?_)
    | (refine Kept.snd (by assumption) ?_)
    | dsimp only
    | split
    | apply Kept.upd

theorem State.sramUncorrectable_kept {s0 s : State} (h : Kept s0 s) (i word : Nat) (t : Tick) :
    Kept s0 (State.sramUncorrectable s i word t) := by
  unfold State.sramUncorrectable
  with_reducible repeat' first
    | assumption
    | apply State.bump_kept
    | apply State.needRow_kept
    | apply State.ownerHandles_kept
    | (apply Kept.ite <;> intro)

theorem State.setFlips_kept {s0 s : State} (h : Kept s0 s) (i word x : Nat) :
    Kept s0 (State.setFlips s i word x) := by
  unfold State.setFlips
  with_reducible repeat' first
    | assumption
    | apply State.setRepair_kept
    | (apply Kept.ite <;> intro)
    | (apply Kept.ite_fst <;> intro)
    | (refine Kept.fst (by assumption) ?_)
    | (refine Kept.snd (by assumption) ?_)
    | (apply Kept.foldl <;> intros)
    | (apply Kept.foldl_fst <;> intros)
    | dsimp only
    | split
    | apply Kept.upd

theorem State.sramRead_kept {s0 s : State} (h : Kept s0 s) (i word : Nat) (t : Tick) :
    Kept s0 (State.sramRead s i word t) := by
  unfold State.sramRead
  with_reducible repeat' first
    | assumption
    | apply State.sramCorrected_kept
    | apply State.sramUncorrectable_kept
    | (apply Kept.ite <;> intro)
    | (apply Kept.ite_fst <;> intro)
    | (refine Kept.fst (by assumption) ?_)
    | (refine Kept.snd (by assumption) ?_)
    | (apply Kept.foldl <;> intros)
    | (apply Kept.foldl_fst <;> intros)
    | dsimp only
    | split
    | apply Kept.upd

theorem State.sramUpset_kept {s0 s : State} (h : Kept s0 s) (i word b : Nat) :
    Kept s0 (State.sramUpset s i word b) := by
  unfold State.sramUpset
  with_reducible repeat' first
    | assumption
    | apply State.setFlips_kept
    | (apply Kept.ite <;> intro)
    | (apply Kept.ite_fst <;> intro)
    | (refine Kept.fst (by assumption) ?_)
    | (refine Kept.snd (by assumption) ?_)
    | (apply Kept.foldl <;> intros)
    | (apply Kept.foldl_fst <;> intros)
    | dsimp only
    | split
    | apply Kept.upd

theorem State.saveRead_kept {s0 s : State} (h : Kept s0 s) (i word : Nat) :
    Kept s0 ((State.saveRead s i word).1) := by
  unfold State.saveRead
  with_reducible repeat' first
    | assumption
    | apply State.bump_kept
    | apply State.needRow_kept
    | apply State.sramCorrected_kept
    | (apply Kept.ite <;> intro)
    | (apply Kept.ite_fst <;> intro)
    | (refine Kept.fst (by assumption) ?_)
    | (refine Kept.snd (by assumption) ?_)
    | (apply Kept.foldl <;> intros)
    | (apply Kept.foldl_fst <;> intros)
    | dsimp only
    | split
    | apply Kept.upd

theorem execDarnerBorrow_kept {s0 s : State} (h : Kept s0 s) (inst : Nat) (fails : Blank) :
    KeptAns s0 (execDarnerBorrow inst fails s) := by
  unfold execDarnerBorrow
  with_reducible repeat' first
    | assumption
    | apply KeptAns.next
    | (apply KeptAns.ite <;> intro)
    | apply State.setRepair_kept

theorem State.testRow_kept {s0 s : State} (h : Kept s0 s) (i row : Nat) :
    Kept s0 (State.testRow s i row) := by
  unfold State.testRow
  with_reducible repeat' first
    | assumption
    | apply State.bump_kept
    | apply State.needRow_kept
    | (apply Kept.ite <;> intro)
    | (apply Kept.ite_fst <;> intro)
    | (refine Kept.fst (by assumption) ?_)
    | (refine Kept.snd (by assumption) ?_)
    | (apply Kept.foldl <;> intros)
    | (apply Kept.foldl_fst <;> intros)
    | dsimp only
    | split
    | apply Kept.upd

theorem State.saveWord_kept {s0 s : State} (h : Kept s0 s) (b : Borrow) (k : Nat) :
    Kept s0 (State.saveWord s b k) := by
  unfold State.saveWord
  with_reducible repeat' first
    | assumption
    | apply State.saveRead_kept
    | apply State.setRepair_kept
    | (apply Kept.ite <;> intro)
    | (apply Kept.ite_fst <;> intro)
    | (refine Kept.fst (by assumption) ?_)
    | (refine Kept.snd (by assumption) ?_)
    | (apply Kept.foldl <;> intros)
    | (apply Kept.foldl_fst <;> intros)
    | dsimp only
    | split
    | apply Kept.upd

theorem State.restoreWord_kept {s0 s : State} (h : Kept s0 s) (b : Borrow) (k : Nat) :
    Kept s0 (State.restoreWord s b k) := by
  unfold State.restoreWord
  with_reducible repeat' first
    | assumption
    | apply State.setRepair_kept
    | (apply Kept.ite <;> intro)
    | (apply Kept.ite_fst <;> intro)
    | (refine Kept.fst (by assumption) ?_)
    | (refine Kept.snd (by assumption) ?_)
    | (apply Kept.foldl <;> intros)
    | (apply Kept.foldl_fst <;> intros)
    | dsimp only
    | split
    | apply Kept.upd

theorem State.borrowTick_kept {s0 s : State} (h : Kept s0 s) (t : Tick) :
    Kept s0 (State.borrowTick s t) := by
  unfold State.borrowTick
  with_reducible repeat' first
    | assumption
    | apply State.restoreWord_kept
    | apply State.saveWord_kept
    | apply State.testRow_kept
    | (apply Kept.ite <;> intro)
    | (apply Kept.ite_fst <;> intro)
    | (refine Kept.fst (by assumption) ?_)
    | (refine Kept.snd (by assumption) ?_)
    | (apply Kept.foldl <;> intros)
    | (apply Kept.foldl_fst <;> intros)
    | dsimp only
    | split
    | apply Kept.upd

theorem execBorrowEnd_kept {s0 s : State} (h : Kept s0 s) :
    KeptAns s0 (execBorrowEnd s) := by
  unfold execBorrowEnd
  with_reducible repeat' first
    | assumption
    | apply KeptAns.next
    | (apply KeptAns.ite <;> intro)
    | apply State.bump_kept
    | apply State.repairRow_kept
    | apply State.setObj_kept
    | apply State.setRepair_kept
    | (apply Kept.ite <;> intro)
    | (apply Kept.ite_fst <;> intro)
    | (refine Kept.fst (by assumption) ?_)
    | (refine Kept.snd (by assumption) ?_)
    | (apply Kept.foldl <;> intros)
    | (apply Kept.foldl_fst <;> intros)
    | dsimp only
    | split
    | apply Kept.upd

theorem State.sramTick_kept {s0 s : State} (h : Kept s0 s) (inp : TickInput) (u : Tick) :
    Kept s0 (State.sramTick s inp u) := by
  unfold State.sramTick
  with_reducible repeat' first
    | assumption
    | apply State.borrowTick_kept
    | apply State.setFlips_kept
    | apply State.sramRead_kept
    | apply State.sramUpset_kept
    | (apply Kept.ite <;> intro)
    | (apply Kept.ite_fst <;> intro)
    | (refine Kept.fst (by assumption) ?_)
    | (refine Kept.snd (by assumption) ?_)
    | (apply Kept.foldl <;> intros)
    | (apply Kept.foldl_fst <;> intros)
    | dsimp only
    | split
    | apply Kept.upd

theorem State.march_kept {s0 s : State} (h : Kept s0 s) (mode v : Nat) :
    Kept s0 ((State.march s mode v).1) := by
  unfold State.march
  with_reducible repeat' first
    | assumption
    | apply State.setObj_kept
    | apply State.setRepair_kept
    | (apply Kept.ite_fst <;> intro)

theorem State.wipe_kept {s0 s : State} (h : Kept s0 s) (i : Nat) :
    Kept s0 (State.wipe s i) := by
  unfold State.wipe
  with_reducible repeat' first
    | assumption
    | apply State.clearRing_kept
    | apply State.emptySlot_kept
    | apply State.setPort_kept
    | (refine Kept.journalMap _ ?_ _)
    | (refine Kept.shmClear _ ?_)
    | (apply Kept.ite <;> intro)
    | (refine Kept.fst (by assumption) ?_)
    | (refine Kept.snd (by assumption) ?_)
    | dsimp only
    | split
    | apply Kept.upd

theorem State.marchInst_kept {s0 s : State} (h : Kept s0 s) (i : Nat) :
    Kept s0 ((State.marchInst s i).1) := by
  unfold State.marchInst
  with_reducible repeat' first
    | assumption
    | apply State.repairRow_kept
    | apply State.setObj_kept
    | apply State.setRepair_kept
    | (apply Kept.ite <;> intro)
    | (apply Kept.ite_fst <;> intro)
    | (refine Kept.fst (by assumption) ?_)
    | (refine Kept.snd (by assumption) ?_)
    | (apply Kept.foldl <;> intros)
    | (apply Kept.foldl_fst <;> intros)
    | dsimp only
    | split
    | apply Kept.upd

theorem State.marchTest_kept {s0 s : State} (h : Kept s0 s) (insts : List Nat) :
    Kept s0 ((State.marchTest s insts).1) := by
  unfold State.marchTest
  with_reducible repeat' first
    | assumption
    | apply State.marchInst_kept
    | apply State.setRepair_kept
    | (apply Kept.ite <;> intro)
    | (apply Kept.ite_fst <;> intro)
    | (refine Kept.fst (by assumption) ?_)
    | (refine Kept.snd (by assumption) ?_)
    | (apply Kept.foldl <;> intros)
    | (apply Kept.foldl_fst <;> intros)
    | dsimp only
    | split
    | apply Kept.upd

theorem State.preserve_kept {s0 s : State} (h : Kept s0 s) (i : Nat) :
    Kept s0 ((State.preserve s i).1) := by
  unfold State.preserve
  with_reducible repeat' first
    | assumption
    | apply State.repairRow_kept
    | apply State.saveRead_kept
    | apply State.setRepair_kept
    | apply State.testRow_kept
    | (apply Kept.ite <;> intro)
    | (apply Kept.ite_fst <;> intro)
    | (refine Kept.fst (by assumption) ?_)
    | (refine Kept.snd (by assumption) ?_)
    | (apply Kept.foldl <;> intros)
    | (apply Kept.foldl_fst <;> intros)
    | dsimp only
    | split
    | apply Kept.upd

theorem execMarchEnd_kept {s0 s : State} (h : Kept s0 s) (_a0 _a1 : Blank) :
    KeptAns s0 (execMarchEnd _a0 _a1 s) := by
  unfold execMarchEnd
  with_reducible repeat' first
    | assumption
    | apply KeptAns.next
    | (apply KeptAns.ite <;> intro)
    | apply State.bump_kept
    | apply State.marchTest_kept
    | apply State.march_kept
    | apply State.preserve_kept
    | apply State.setObjs_kept
    | apply State.setRepair_kept
    | apply State.wipe_kept
    | (apply Kept.ite <;> intro)
    | (apply Kept.ite_fst <;> intro)
    | (refine Kept.fst (by assumption) ?_)
    | (refine Kept.snd (by assumption) ?_)
    | (apply Kept.foldl <;> intros)
    | (apply Kept.foldl_fst <;> intros)
    | dsimp only
    | split
    | apply Kept.upd

theorem State.fuseRepairs_kept {s0 s : State} (h : Kept s0 s) :
    Kept s0 ((State.fuseRepairs s).1) := by
  unfold State.fuseRepairs
  with_reducible repeat' first
    | assumption
    | (apply Kept.ite_fst <;> intro)

theorem execFuseProgrammed_kept {s0 s : State} (h : Kept s0 s) : KeptAns s0 (execFuseProgrammed s) := by
  unfold execFuseProgrammed
  refine KeptAns.ite (fun _ => h) fun _ => ?_
  refine KeptAns.next (State.resolve_kept (State.setObj_kept (State.setRepair_kept (Kept.fuses s h _ ?_) _) _ _) _)
  exact ⟨rfl, .inr rfl, Nat.or_self _, Nat.le_refl _, List.prefix_append _ _, List.prefix_append _ _, List.prefix_refl _⟩

end Sys2Proof.Machine
end

