-- ==== Sys2Proof/Laws/KeepView.lean ====
section
/-! SUPPORT. What the operations of Machine/View.lean keep. -/

namespace Sys2Proof.Machine

theorem State.sweep_kept {s0 s : State} (h : Kept s0 s) (ix : Nat) (w : Tick) :
    Kept s0 (State.sweep s ix w) := by
  unfold State.sweep
  with_reducible repeat' first
    | assumption
    | (refine Kept.fst (by assumption) ?_)
    | (refine Kept.snd (by assumption) ?_)
    | dsimp only
    | split
    | apply Kept.upd

theorem State.afterRead_kept {s0 s : State} (h : Kept s0 s) (k : Key) :
    Kept s0 (State.afterRead s k) := by
  unfold State.afterRead
  with_reducible repeat' first
    | assumption
    | apply State.setObj_kept
    | (apply Kept.ite <;> intro)
    | (refine Kept.fst (by assumption) ?_)
    | (refine Kept.snd (by assumption) ?_)
    | dsimp only
    | split
    | apply Kept.upd

theorem State.resweep_kept {s0 s : State} (h : Kept s0 s) (keys : List Key) :
    Kept s0 (State.resweep s keys) := by
  unfold State.resweep
  with_reducible repeat' first
    | assumption
    | (apply Kept.ite <;> intro)
    | (apply Kept.ite_fst <;> intro)
    | (refine Kept.fst (by assumption) ?_)
    | (refine Kept.snd (by assumption) ?_)
    | (apply Kept.foldl <;> intros)
    | (apply Kept.foldl_fst <;> intros)
    | dsimp only
    | split
    | apply Kept.upd

end Sys2Proof.Machine
end

