-- ==== Sys2Proof/Laws/KeepApply.lean ====
section
/-! SUPPORT. What the operations of Machine/Apply.lean keep. -/

namespace Sys2Proof.Machine

theorem done_kept {s0 : State} {r : State × ObjOut} (h : Kept s0 r.1) : Kept s0 (done r).1 := h

theorem State.setVal_kept {s0 s : State} (h : Kept s0 s) (k : Key) (v : Val) :
    Kept s0 (State.setVal s k v) := by
  unfold State.setVal
  with_reducible repeat' first
    | assumption
    | apply State.setDom_kept
    | apply State.setObj_kept
    | (refine Kept.fst (by assumption) ?_)
    | (refine Kept.snd (by assumption) ?_)
    | dsimp only
    | split

theorem State.askReset_kept {s0 s : State} (h : Kept s0 s) (kind : Nat) (t : Tick) :
    Kept s0 ((State.askReset s kind t).1) := by
  unfold State.askReset
  with_reducible repeat' first
    | assumption
    | (apply Kept.ite_fst <;> intro)
    | (refine Kept.fst (by assumption) ?_)
    | (refine Kept.snd (by assumption) ?_)
    | dsimp only
    | split
    | apply Kept.upd

theorem State.stateSel_kept {s0 s : State} (h : Kept s0 s) (iss : Issuer) (k : Key) (v : Nat) :
    Kept s0 ((State.stateSel s iss k v).1) := by
  unfold State.stateSel
  with_reducible repeat' first
    | assumption
    | apply State.keepCore_kept
    | apply State.setObj_kept

theorem State.trainDev_kept {s0 s : State} (h : Kept s0 s) (t : Tick) :
    Kept s0 ((State.trainDev s t).1) := by
  unfold State.trainDev
  with_reducible repeat' first
    | assumption
    | apply State.setDev_kept
    | apply State.train_kept
    | (apply Kept.ite <;> intro)

theorem State.clearSlot_kept {s0 s : State} (h : Kept s0 s) (slot : Nat) :
    Kept s0 ((State.clearSlot s slot).1) := by
  unfold State.clearSlot
  with_reducible repeat' first
    | assumption
    | apply State.emptySlot_kept
    | (refine Kept.fst (by assumption) ?_)
    | (refine Kept.snd (by assumption) ?_)
    | dsimp only
    | split
    | apply Kept.upd

theorem State.setNow_kept {s0 s : State} (h : Kept s0 s) (k : Key) (v : Val) :
    Kept s0 ((State.setNow s k v).1) := by
  unfold State.setNow
  with_reducible repeat' first
    | assumption
    | apply State.hostEffects_kept
    | apply State.setVal_kept
    | (refine Kept.fst (by assumption) ?_)
    | (refine Kept.snd (by assumption) ?_)
    | dsimp only
    | split

theorem State.act_kept {s0 s : State} (h : Kept s0 s) (iss : Issuer) (k : Key) (v : Val) (t : Tick) :
    Kept s0 ((State.act s iss k v t).1) := by
  unfold State.act
  with_reducible repeat' first
    | assumption
    | apply State.askClose_kept
    | apply State.askReset_kept
    | apply State.clearSlot_kept
    | apply State.coreResetWrite_kept
    | apply State.eyeRequest_kept
    | apply State.flashConfig_kept
    | apply State.flashImage_kept
    | apply State.freeQueue_kept
    | apply State.freqCorr_kept
    | apply State.fuseRepairs_kept
    | apply State.fwRestart_kept
    | apply State.fwSecRaise_kept
    | apply State.jobDesc_kept
    | apply State.keepCore_kept
    | apply State.leaseCmd_kept
    | apply State.mapInvalidate_kept
    | apply State.march_kept
    | apply State.ownerKey_kept
    | apply State.phaseCorr_kept
    | apply State.picotWrite_kept
    | apply State.policyFloor_kept
    | apply State.policy_kept
    | apply State.pulseLines_kept
    | apply State.releaseHandle_kept
    | apply State.resend_kept
    | apply State.sessionClose_kept
    | apply State.setNow_kept
    | apply State.stateSel_kept
    | apply State.tableCmd_kept
    | apply State.timeAction_kept
    | apply State.trainDev_kept
    | apply State.writeCoder_kept
    | apply State.writeGolden_kept
    | apply done_kept
    | (apply Kept.ite <;> intro)
    | (apply Kept.ite_fst <;> intro)
    | (refine Kept.fst (by assumption) ?_)
    | (refine Kept.snd (by assumption) ?_)
    | (apply Kept.foldl <;> intros)
    | (apply Kept.foldl_fst <;> intros)
    | dsimp only
    | split
    | apply Kept.upd

theorem State.stageCheck_kept {s0 s : State} (h : Kept s0 s) (k : Key) (b : Bytes) (byTransfer : Bool) :
    Kept s0 ((State.stageCheck s k b byTransfer).1) := by
  unfold State.stageCheck
  with_reducible repeat' first
    | assumption
    | apply State.stageImage_kept
    | (apply Kept.ite_fst <;> intro)

theorem State.stage1_kept {s0 s : State} (h : Kept s0 s) (a : Accepted) (o : ObjOut) (written : Val) :
    Kept s0 ((State.stage1 s a o written).1) := by
  unfold State.stage1
  with_reducible repeat' first
    | assumption
    | apply State.setPort_kept
    | (apply Kept.ite_fst <;> intro)
    | (refine Kept.fst (by assumption) ?_)
    | (refine Kept.snd (by assumption) ?_)
    | dsimp only
    | split

theorem State.supersede_kept {s0 s : State} (h : Kept s0 s) (k : Key) (by_ : Nat) :
    Kept s0 (State.supersede s k by_) := by
  unfold State.supersede
  with_reducible repeat' first
    | assumption
    | (refine Kept.fst (by assumption) ?_)
    | (refine Kept.snd (by assumption) ?_)
    | dsimp only
    | split
    | apply Kept.upd

theorem State.supersedeAll_kept {s0 s : State} (h : Kept s0 s) (outs : List ObjOut) (by_ : Nat) :
    Kept s0 (State.supersedeAll s outs by_) := by
  unfold State.supersedeAll
  with_reducible repeat' first
    | assumption
    | apply State.supersede_kept
    | (apply Kept.ite <;> intro)
    | (refine Kept.fst (by assumption) ?_)
    | (refine Kept.snd (by assumption) ?_)
    | (apply Kept.foldl <;> intros)

theorem State.applyPair_kept {s0 s : State} (h : Kept s0 s) (iss : Issuer) (chks : List ObjOut) (t : Tick) :
    Kept s0 ((State.applyPair s iss chks t).1) := by
  unfold State.applyPair
  with_reducible repeat' first
    | assumption
    | apply State.act_kept
    | apply State.setVal_kept
    | (apply Kept.ite_fst <;> intro)
    | (refine Kept.fst (by assumption) ?_)
    | (refine Kept.snd (by assumption) ?_)
    | (apply Kept.foldl <;> intros)
    | (apply Kept.foldl_fst <;> intros)
    | dsimp only
    | split

theorem State.applyMember_kept {s0 s : State} (h : Kept s0 s) (iss : Issuer) (chk : ObjOut) (partner : Option (Key × Val)) (t : Tick) :
    Kept s0 ((State.applyMember s iss chk partner t).1) := by
  unfold State.applyMember
  with_reducible repeat' first
    | assumption
    | apply State.act_kept
    | apply State.setVal_kept
    | (apply Kept.ite <;> intro)
    | (apply Kept.ite_fst <;> intro)
    | (refine Kept.fst (by assumption) ?_)
    | (refine Kept.snd (by assumption) ?_)
    | (apply Kept.foldl <;> intros)
    | (apply Kept.foldl_fst <;> intros)
    | dsimp only
    | split
    | apply Kept.upd

theorem State.dropHeld_kept {s0 s : State} (h : Kept s0 s) (port : Nat) (k : Key) (by_ : Nat) :
    Kept s0 (State.dropHeld s port k by_) := by
  unfold State.dropHeld
  with_reducible repeat' first
    | assumption
    | apply State.setPort_kept
    | (refine Kept.fst (by assumption) ?_)
    | (refine Kept.snd (by assumption) ?_)
    | dsimp only
    | split
    | apply Kept.upd

theorem State.takeHeld_kept {s0 s : State} (h : Kept s0 s) (port : Nat) (k : Key) :
    Kept s0 (State.takeHeld s port k) := by
  unfold State.takeHeld
  with_reducible repeat' first
    | assumption
    | apply State.setPort_kept
    | (apply Kept.ite <;> intro)
    | (apply Kept.ite_fst <;> intro)
    | (refine Kept.fst (by assumption) ?_)
    | (refine Kept.snd (by assumption) ?_)
    | (apply Kept.foldl <;> intros)
    | (apply Kept.foldl_fst <;> intros)
    | dsimp only
    | split
    | apply Kept.upd

theorem State.holdPair_kept {s0 s : State} (h : Kept s0 s) (a : Accepted) (k : Key) (written : Val) :
    Kept s0 (State.holdPair s a k written) := by
  unfold State.holdPair
  with_reducible repeat' first
    | assumption
    | apply State.dropHeld_kept
    | apply State.setPort_kept

theorem State.settle_kept {s0 s : State} (h : Kept s0 s) (kind : Nat) (iss : Issuer) (jseq : Nat) (outs : List ObjOut) (t : Tick) :
    Kept s0 (State.settle s kind iss jseq outs t) := by
  unfold State.settle
  with_reducible repeat' first
    | assumption
    | apply State.configChange_kept
    | apply State.devSync_kept
    | (apply Kept.ite <;> intro)

theorem State.begin1_kept {s0 s : State} (h : Kept s0 s) (a : Accepted) (keys : List Key) (byTransfer : Bool) (k : Key) (b : Bytes) :
    Kept s0 ((State.begin1 s a keys byTransfer k b).1) := by
  unfold State.begin1
  with_reducible repeat' first
    | assumption
    | apply State.await_kept
    | apply State.holdPair_kept
    | apply State.noteLoad_kept
    | apply State.stage1_kept
    | apply State.stageCheck_kept
    | apply State.takeHeld_kept
    | (apply Kept.ite <;> intro)
    | (apply Kept.ite_fst <;> intro)
    | (refine Kept.fst (by assumption) ?_)
    | (refine Kept.snd (by assumption) ?_)
    | (apply Kept.foldl <;> intros)
    | (apply Kept.foldl_fst <;> intros)
    | dsimp only
    | split
    | apply Kept.upd

theorem State.beginAll_kept {s0 s : State} (h : Kept s0 s) (a : Accepted) (byTransfer : Bool) (l : List (Key × Bytes)) :
    Kept s0 ((State.beginAll s a byTransfer l).1) := by
  unfold State.beginAll
  with_reducible repeat' first
    | assumption
    | apply State.begin1_kept
    | (refine Kept.fst (by assumption) ?_)
    | (refine Kept.snd (by assumption) ?_)
    | (apply Kept.foldl_fst <;> intros)

theorem Acting.step_kept {s0 : State} {r : Acting} (h : Kept s0 r.s) (a : Accepted) (all : List Entry) (t : Tick) (e : Entry) :
    Kept s0 (r.step a all t e).s := by
  cases e with
  | settled o => exact h
  | acts chk written =>
    unfold Acting.step
    dsimp only
    split
    · exact h
    · exact State.act_kept h _ _ _ _
  | pairs chk written =>
    unfold Acting.step
    dsimp only
    split
    · exact h
    · exact State.applyPair_kept (State.dropHeld_kept (State.dropHeld_kept h _ _ _) _ _ _) _ _ _
  | mate chk written held =>
    unfold Acting.step
    dsimp only
    exact State.applyMember_kept h _ _ _ _

/-- The boundary part of a command's entries, one after another. -/
theorem Acting.foldl_kept {s0 : State} {r : Acting} (h : Kept s0 r.s) (a : Accepted) (all : List Entry) (t : Tick) (es : List Entry) :
    Kept s0 (es.foldl (fun r e => r.step a all t e) r).s := by
  induction es generalizing r with
  | nil => exact h
  | cons e es ih => exact ih (Acting.step_kept h _ _ _ _)

end Sys2Proof.Machine
end

