-- ==== Sys2Proof/Laws/KeepLanding.lean ====
section
/-! SUPPORT. What the operations of Machine/Landing.lean keep. -/

namespace Sys2Proof.Machine

theorem State.asWritten_kept {s0 s : State} (h : Kept s0 s) (vals : List (Key × Val)) :
    Kept s0 (State.asWritten s vals) := by
  unfold State.asWritten
  with_reducible repeat' first
    | assumption
    | apply State.setVal_kept
    | (apply Kept.ite <;> intro)
    | (apply Kept.ite_fst <;> intro)
    | (refine Kept.fst (by assumption) ?_)
    | (refine Kept.snd (by assumption) ?_)
    | (apply Kept.foldl <;> intros)
    | (apply Kept.foldl_fst <;> intros)
    | dsimp only
    | split
    | apply Kept.upd

theorem State.wouldBe_kept {s0 s : State} (h : Kept s0 s) (vals : List (Key × Val)) (t : Tick) :
    Kept s0 ((State.wouldBe s vals t).1) := by
  unfold State.wouldBe
  with_reducible repeat' first
    | assumption
    | apply Acting.foldl_kept
    | apply State.asWritten_kept
    | apply State.setDom_kept
    | apply State.setObj_kept
    | (apply Kept.ite <;> intro)
    | (apply Kept.ite_fst <;> intro)
    | (refine Kept.fst (by assumption) ?_)
    | (refine Kept.snd (by assumption) ?_)
    | (apply Kept.foldl <;> intros)
    | (apply Kept.foldl_fst <;> intros)
    | dsimp only
    | split
    | apply Kept.upd

theorem Installed.add_kept {s0 : State} {r : Installed} (h : Kept s0 r.s) (e : Staged) : Kept s0 (r.add e).s := by
  unfold Installed.add
  dsimp only
  split
  · exact State.setObjs_kept h _
  · exact State.installImage_kept h _ _

theorem State.runBobbin_kept {s0 s : State} (h : Kept s0 s) (old : State) (b run : Nat) (t : Tick) :
    Kept s0 ((State.runBobbin s old b run t).1) := by
  unfold State.runBobbin
  with_reducible repeat' first
    | assumption
    | apply State.armBobbin_kept
    | apply State.setObj_kept
    | apply State.stopBobbin_kept
    | (apply Kept.ite_fst <;> intro)

theorem State.applyPatch_kept {s0 s : State} (h : Kept s0 s) (e : Staged) :
    Kept s0 ((State.applyPatch s e).1) := by
  unfold State.applyPatch
  with_reducible repeat' first
    | assumption
    | apply State.patchBobbin_kept
    | (apply Kept.ite_fst <;> intro)

theorem State.landSet_kept {s0 s : State} (h : Kept s0 s) (set : List Staged) (t : Tick) :
    Kept s0 ((State.landSet s set t).1) := by
  unfold State.landSet
  extract_lets set1 live plain
  split
  next vals bad _ =>
  extract_lets nums s1
  split
  next new fixes tims _ =>
  extract_lets s2a s2 inst keys s3 s4 s5 extra timings
  have h1 : Kept s0 s1 := State.runStops_kept h _ _
  have h2 : Kept s0 s2 := by
    have hv : Kept s0 s2a :=
      Kept.foldl _ _ (Kept.foldl _ _ h1 fun _ _ hv => State.setVal_kept hv _ _) fun _ _ hv => State.setObj_kept hv _ _
    with_reducible exact Kept.upd _ hv
  clear_value s2
  have h3 : Kept s0 s3 := by
    have fold : ∀ (l : List Staged) (r : Installed), Kept s0 r.s → Kept s0 (l.foldl Installed.add r).s := by
      intro l
      induction l with
      | nil => exact fun _ hr => hr
      | cons e l ih => exact fun r hr => ih _ (Installed.add_kept hr e)
    exact fold _ _ h2
  have h4 : Kept s0 s4 := State.unitEffects_kept (State.lineEffects_kept (State.lcEffects_kept (State.synEffects_kept
    (State.timeEffects_kept h3 _ _ _) _ _ _) _ _ _) _ _ _) _ _ _ _
  have h5 : Kept s0 s5 := State.runStarts_kept (State.serviceEffects_kept (State.hostEffects_kept (State.codeEffects_kept h4 _ _) _ _) _ _ _) _ _
  clear_value s5
  split
  next s6 runs e6 =>
  have h6 : Kept s0 s6 := Kept.fst e6 (Kept.foldl_fst _ _ h5 fun _ _ hv => State.runBobbin_kept hv _ _ _ _)
  split
  next s7 patches e7 =>
  have h7 : Kept s0 s7 := Kept.fst e7 (Kept.foldl_fst _ _ h6 fun _ _ hv => State.applyPatch_kept hv _)
  exact Kept.foldl _ _ h7 fun _ _ hv => State.noteLoad_kept hv _ _

theorem State.landCommit_kept {s0 s : State} (h : Kept s0 s) (c : Pending) (t : Tick) :
    Kept s0 (State.landCommit s c t) := by
  unfold State.landCommit
  with_reducible repeat' first
    | assumption
    | apply State.landSet_kept
    | apply State.notify_kept
    | apply State.setPort_kept
    | apply State.settle_kept
    | apply State.supersedeAll_kept
    | (apply Kept.ite <;> intro)
    | (apply Kept.ite_fst <;> intro)
    | (refine Kept.fst (by assumption) ?_)
    | (refine Kept.snd (by assumption) ?_)
    | (apply Kept.foldl <;> intros)
    | (apply Kept.foldl_fst <;> intros)
    | dsimp only
    | split
    | apply Kept.upd

theorem State.landPending_kept {s0 s : State} (h : Kept s0 s) (port jseq : Nat) (t : Tick) :
    Kept s0 (State.landPending s port jseq t) := by
  unfold State.landPending
  with_reducible repeat' first
    | assumption
    | apply State.landCommit_kept
    | (apply Kept.ite <;> intro)
    | (apply Kept.ite_fst <;> intro)
    | (refine Kept.fst (by assumption) ?_)
    | (refine Kept.snd (by assumption) ?_)
    | (apply Kept.foldl <;> intros)
    | (apply Kept.foldl_fst <;> intros)
    | dsimp only
    | split
    | apply Kept.upd

theorem execCommitLand_kept {s0 s : State} (h : Kept s0 s) (port : Nat) :
    KeptAns s0 (execCommitLand port s) := by
  unfold execCommitLand
  with_reducible repeat' first
    | assumption
    | apply KeptAns.next
    | (apply KeptAns.ite <;> intro)
    | apply State.await_kept
    | (apply Kept.ite <;> intro)
    | (apply Kept.ite_fst <;> intro)
    | (refine Kept.fst (by assumption) ?_)
    | (refine Kept.snd (by assumption) ?_)
    | (apply Kept.foldl <;> intros)
    | (apply Kept.foldl_fst <;> intros)
    | dsimp only
    | split
    | apply Kept.upd

end Sys2Proof.Machine
end

