-- ==== Sys2Proof/Laws/KeepCommands.lean ====
section
/-! SUPPORT. What the operations of Machine/Commands.lean keep. -/

namespace Sys2Proof.Machine

theorem State.serve_kept {s0 s : State} (h : Kept s0 s) (iss : Issuer) (room : Nat) (l : List (Key × Bool)) (body : Bytes)
    (sts : List (Nat × Nat)) : Kept s0 (s.serve iss room l body sts).2.2 := by
  induction l generalizing s body sts with
  | nil => exact h
  | cons e l ih =>
    unfold State.serve
    dsimp only
    split
    · split
      · exact h
      · exact ih h _ _
    · split
      · exact h
      · exact ih (Kept.ite (fun _ => State.afterRead_kept h _) (fun _ => h)) _ _

theorem execRead_kept {s0 s : State} (h : Kept s0 s) (iss : Issuer) (pkt : Bytes) :
    KeptAns s0 (execRead iss pkt s) := by
  unfold execRead
  with_reducible repeat' first
    | assumption
    | apply KeptAns.next
    | (apply KeptAns.ite <;> intro)
    | apply State.reply_kept
    | apply State.resweep_kept
    | apply State.serve_kept
    | (refine State.packet_kept ?_ _ _ _ _ (fun _ _ _ => ?_))
    | (apply Kept.ite <;> intro)
    | (apply Kept.ite_fst <;> intro)
    | (refine Kept.fst (by assumption) ?_)
    | (refine Kept.snd (by assumption) ?_)
    | (apply Kept.foldl <;> intros)
    | (apply Kept.foldl_fst <;> intros)
    | dsimp only
    | split
    | apply Kept.upd

theorem State.writeCmd_kept {s0 s : State} (h : Kept s0 s) (a : Accepted) (byTransfer : Bool) (l : List (Key × Bytes)) :
    Kept s0 (State.writeCmd s a byTransfer l) := by
  unfold State.writeCmd
  with_reducible repeat' first
    | assumption
    | apply State.await_kept
    | apply State.beginAll_kept
    | apply State.endNow_kept
    | apply State.finish_kept
    | (apply Kept.ite <;> intro)
    | (apply Kept.ite_fst <;> intro)
    | (refine Kept.fst (by assumption) ?_)
    | (refine Kept.snd (by assumption) ?_)
    | (apply Kept.foldl <;> intros)
    | (apply Kept.foldl_fst <;> intros)
    | dsimp only
    | split
    | apply Kept.upd

theorem execWrite_kept {s0 s : State} (h : Kept s0 s) (iss : Issuer) (pkt : Bytes) :
    KeptAns s0 (execWrite iss pkt s) := by
  unfold execWrite
  with_reducible repeat' first
    | assumption
    | apply KeptAns.next
    | (apply KeptAns.ite <;> intro)
    | apply State.writeCmd_kept
    | (refine State.packet_kept ?_ _ _ _ _ (fun _ _ _ => ?_))
    | (apply Kept.ite <;> intro)
    | (apply Kept.ite_fst <;> intro)
    | (refine Kept.fst (by assumption) ?_)
    | (refine Kept.snd (by assumption) ?_)
    | (apply Kept.foldl <;> intros)
    | (apply Kept.foldl_fst <;> intros)
    | dsimp only
    | split
    | apply Kept.upd

theorem execPairTimeout_kept {s0 s : State} (h : Kept s0 s) (port : Nat) :
    KeptAns s0 (execPairTimeout port s) := by
  unfold execPairTimeout
  with_reducible repeat' first
    | assumption
    | apply KeptAns.next
    | (apply KeptAns.ite <;> intro)
    | apply State.await_kept
    | apply State.takeHeld_kept
    | (apply Kept.ite <;> intro)
    | (apply Kept.ite_fst <;> intro)
    | (refine Kept.fst (by assumption) ?_)
    | (refine Kept.snd (by assumption) ?_)
    | (apply Kept.foldl <;> intros)
    | (apply Kept.foldl_fst <;> intros)
    | dsimp only
    | split
    | apply Kept.upd

theorem State.takeCommit_kept {s0 s : State} (h : Kept s0 s) (a : Accepted) :
    Kept s0 (State.takeCommit s a) := by
  unfold State.takeCommit
  with_reducible repeat' first
    | assumption
    | apply State.endNow_kept
    | apply State.setPort_kept
    | (apply Kept.ite <;> intro)

theorem execCommit_kept {s0 s : State} (h : Kept s0 s) (iss : Issuer) (pkt : Bytes) :
    KeptAns s0 (execCommit iss pkt s) := by
  unfold execCommit
  with_reducible repeat' first
    | assumption
    | apply KeptAns.next
    | apply State.takeCommit_kept
    | (refine State.packet_kept ?_ _ _ _ _ (fun _ _ _ => ?_))

theorem State.cancelCommit_kept {s0 s : State} (h : Kept s0 s) (c : Pending) (reason : Nat) (t : Tick) :
    Kept s0 (State.cancelCommit s c reason t) := by
  unfold State.cancelCommit
  with_reducible repeat' first
    | assumption
    | apply State.setPort_kept
    | (refine Kept.fst (by assumption) ?_)
    | (refine Kept.snd (by assumption) ?_)
    | dsimp only
    | split
    | apply Kept.upd

theorem State.cancelAll_kept {s0 s : State} (h : Kept s0 s) (ports : Nat → Bool) (reason : Nat) (t : Tick) :
    Kept s0 (State.cancelAll s ports reason t) := by
  unfold State.cancelAll
  with_reducible repeat' first
    | assumption
    | apply State.cancelCommit_kept
    | (refine Kept.fst (by assumption) ?_)
    | (refine Kept.snd (by assumption) ?_)
    | (apply Kept.foldl <;> intros)

theorem State.discard_kept {s0 s : State} (h : Kept s0 s) (a : Accepted) :
    Kept s0 (State.discard s a) := by
  unfold State.discard
  with_reducible repeat' first
    | assumption
    | apply State.await_kept
    | apply State.endNow_kept
    | (apply Kept.ite <;> intro)
    | (apply Kept.ite_fst <;> intro)
    | (refine Kept.fst (by assumption) ?_)
    | (refine Kept.snd (by assumption) ?_)
    | (apply Kept.foldl <;> intros)
    | (apply Kept.foldl_fst <;> intros)
    | dsimp only
    | split
    | apply Kept.upd

theorem execDiscard_kept {s0 s : State} (h : Kept s0 s) (iss : Issuer) (pkt : Bytes) :
    KeptAns s0 (execDiscard iss pkt s) := by
  unfold execDiscard
  with_reducible repeat' first
    | assumption
    | apply KeptAns.next
    | (apply KeptAns.ite <;> intro)
    | apply State.discard_kept
    | (refine State.packet_kept ?_ _ _ _ _ (fun _ _ _ => ?_))
    | (apply Kept.ite <;> intro)
    | (apply Kept.ite_fst <;> intro)
    | (refine Kept.fst (by assumption) ?_)
    | (refine Kept.snd (by assumption) ?_)
    | (apply Kept.foldl <;> intros)
    | (apply Kept.foldl_fst <;> intros)
    | dsimp only
    | split
    | apply Kept.upd

theorem State.landWrite_kept {s0 s : State} (h : Kept s0 s) (a : Accepted) (es : List Entry) (t : Tick) :
    Kept s0 (State.landWrite s a es t) := by
  have hr := Acting.foldl_kept (r := { s := s }) h a es t es
  unfold State.landWrite
  dsimp only
  split
  all_goals
    with_reducible apply Kept.upd
    exact State.settle_kept (State.supersedeAll_kept hr _ _) _ _ _ _ _

theorem State.landHeld_kept {s0 s : State} (h : Kept s0 s) (h : HeldPair) (mate : ObjOut) (t : Tick) :
    Kept s0 (State.landHeld s h mate t) := by
  unfold State.landHeld
  with_reducible repeat' first
    | assumption
    | apply State.applyMember_kept
    | apply State.settle_kept
    | apply State.supersedeAll_kept
    | (apply Kept.ite <;> intro)
    | (apply Kept.ite_fst <;> intro)
    | (refine Kept.fst (by assumption) ?_)
    | (refine Kept.snd (by assumption) ?_)
    | (apply Kept.foldl <;> intros)
    | (apply Kept.foldl_fst <;> intros)
    | dsimp only
    | split
    | apply Kept.upd

theorem State.landStrict_kept {s0 s : State} (h : Kept s0 s) (a : Accepted) (byTransfer : Bool) (l : List (Key × Bytes)) (t : Tick) :
    Kept s0 (State.landStrict s a byTransfer l t) := by
  have hb := State.beginAll_kept h a byTransfer l
  have hs := Kept.foldl (u := { (s.beginAll a byTransfer l).1 with due := [] }) (fun s d => match d with
    | .held h m => s.landHeld h m t
    | _ => s) (s.beginAll a byTransfer l).1.due hb (fun v x hv => by cases x <;> first | exact hv | exact State.landHeld_kept hv _ _ _)
  have hr := Acting.foldl_kept (r := { s := _ }) hs a (s.beginAll a byTransfer l).2 t (s.beginAll a byTransfer l).2
  unfold State.landStrict
  dsimp only
  repeat' split
  · exact Kept.upd _ h
  all_goals
    with_reducible apply Kept.upd
    exact State.settle_kept (State.supersedeAll_kept hr _ _) _ _ _ _ _

theorem State.landAlone_kept {s0 s : State} (h : Kept s0 s) (h : HeldPair) (t : Tick) :
    Kept s0 (State.landAlone s h t) := by
  unfold State.landAlone
  with_reducible repeat' first
    | assumption
    | apply State.applyMember_kept
    | apply State.fresh_kept
    | apply State.notify_kept
    | apply State.settle_kept
    | apply State.supersedeAll_kept
    | (apply Kept.ite <;> intro)
    | (apply Kept.ite_fst <;> intro)
    | (refine Kept.fst (by assumption) ?_)
    | (refine Kept.snd (by assumption) ?_)
    | (apply Kept.foldl <;> intros)
    | (apply Kept.foldl_fst <;> intros)
    | dsimp only
    | split
    | apply Kept.upd

theorem State.landDiscard_kept {s0 s : State} (h : Kept s0 s) (a : Accepted) (v : Nat) (t : Tick) :
    Kept s0 (State.landDiscard s a v t) := by
  unfold State.landDiscard
  with_reducible repeat' first
    | assumption
    | apply State.cancelAll_kept
    | apply State.setPort_kept
    | (apply Kept.ite <;> intro)
    | (apply Kept.ite_fst <;> intro)
    | (refine Kept.fst (by assumption) ?_)
    | (refine Kept.snd (by assumption) ?_)
    | (apply Kept.foldl <;> intros)
    | (apply Kept.foldl_fst <;> intros)
    | dsimp only
    | split
    | apply Kept.upd

theorem State.landDue_kept {s0 s : State} (h : Kept s0 s) (t : Tick) (d : Due) : Kept s0 (s.landDue t d) := by
  cases d <;> unfold State.landDue <;> dsimp only
  · exact State.landWrite_kept h ..
  · exact State.landStrict_kept h ..
  · exact State.landHeld_kept h ..
  · exact State.landAlone_kept h ..
  · exact State.landDiscard_kept h ..
  · exact State.landPending_kept h ..
  · exact State.mapPoint_kept h ..
  · exact State.beginPulse_kept h ..

theorem State.atBoundary_kept {s0 s : State} (h : Kept s0 s) : Kept s0 s.atBoundary := by
  unfold State.atBoundary
  exact Kept.foldl _ _ h fun _ _ hv => State.landDue_kept hv _ _

theorem State.segStart_kept {s0 s : State} (h : Kept s0 s) (a : Accepted) :
    Kept s0 (State.segStart s a) := by
  unfold State.segStart
  with_reducible repeat' first
    | assumption
    | apply State.endNow_kept
    | apply State.finish_kept
    | apply State.fresh_kept
    | (apply Kept.ite <;> intro)
    | (refine Kept.fst (by assumption) ?_)
    | (refine Kept.snd (by assumption) ?_)
    | dsimp only
    | split
    | apply Kept.upd

theorem execSegStart_kept {s0 s : State} (h : Kept s0 s) (iss : Issuer) (pkt : Bytes) :
    KeptAns s0 (execSegStart iss pkt s) := by
  unfold execSegStart
  with_reducible repeat' first
    | assumption
    | apply KeptAns.next
    | apply State.segStart_kept
    | (refine State.packet_kept ?_ _ _ _ _ (fun _ _ _ => ?_))

theorem State.segData_kept {s0 s : State} (h : Kept s0 s) (a : Accepted) :
    Kept s0 (State.segData s a) := by
  unfold State.segData
  with_reducible repeat' first
    | assumption
    | apply State.endNow_kept
    | (apply Kept.ite <;> intro)
    | (refine Kept.fst (by assumption) ?_)
    | (refine Kept.snd (by assumption) ?_)
    | dsimp only
    | split
    | apply Kept.upd

theorem execSegData_kept {s0 s : State} (h : Kept s0 s) (iss : Issuer) (pkt : Bytes) :
    KeptAns s0 (execSegData iss pkt s) := by
  unfold execSegData
  with_reducible repeat' first
    | assumption
    | apply KeptAns.next
    | apply State.segData_kept
    | (refine State.packet_kept ?_ _ _ _ _ (fun _ _ _ => ?_))

theorem State.closeXfer_kept {s0 s : State} (h : Kept s0 s) (x : Transfer) :
    Kept s0 (State.closeXfer s x) := by
  unfold State.closeXfer
  with_reducible repeat' first
    | assumption
    | (refine Kept.fst (by assumption) ?_)
    | (refine Kept.snd (by assumption) ?_)
    | dsimp only
    | split
    | apply Kept.upd

theorem State.segEnd_kept {s0 s : State} (h : Kept s0 s) (a : Accepted) :
    Kept s0 (State.segEnd s a) := by
  unfold State.segEnd
  with_reducible repeat' first
    | assumption
    | apply State.closeXfer_kept
    | apply State.endNow_kept
    | apply State.endObj_kept
    | apply State.noteLoad_kept
    | apply State.writeCmd_kept
    | (apply Kept.ite <;> intro)
    | (apply Kept.ite_fst <;> intro)
    | (refine Kept.fst (by assumption) ?_)
    | (refine Kept.snd (by assumption) ?_)
    | (apply Kept.foldl <;> intros)
    | (apply Kept.foldl_fst <;> intros)
    | dsimp only
    | split
    | apply Kept.upd

theorem execSegEnd_kept {s0 s : State} (h : Kept s0 s) (iss : Issuer) (pkt : Bytes) :
    KeptAns s0 (execSegEnd iss pkt s) := by
  unfold execSegEnd
  with_reducible repeat' first
    | assumption
    | apply KeptAns.next
    | apply State.segEnd_kept
    | (refine State.packet_kept ?_ _ _ _ _ (fun _ _ _ => ?_))

theorem execSegAbort_kept {s0 s : State} (h : Kept s0 s) (iss : Issuer) (pkt : Bytes) :
    KeptAns s0 (execSegAbort iss pkt s) := by
  unfold execSegAbort
  with_reducible repeat' first
    | assumption
    | apply KeptAns.next
    | apply State.closeXfer_kept
    | apply State.endNow_kept
    | (refine State.packet_kept ?_ _ _ _ _ (fun _ _ _ => ?_))
    | (refine Kept.fst (by assumption) ?_)
    | (refine Kept.snd (by assumption) ?_)
    | dsimp only
    | split

theorem execTransferIdleTimeout_kept {s0 s : State} (h : Kept s0 s) (port xfer : Nat) :
    KeptAns s0 (execTransferIdleTimeout port xfer s) := by
  unfold execTransferIdleTimeout
  with_reducible repeat' first
    | assumption
    | apply KeptAns.next
    | (apply KeptAns.ite <;> intro)
    | apply State.closeXfer_kept
    | (refine Kept.fst (by assumption) ?_)
    | (refine Kept.snd (by assumption) ?_)
    | dsimp only
    | split

theorem State.countMirror_kept {s0 s : State} (h : Kept s0 s) :
    Kept s0 (State.countMirror s) := by
  unfold State.countMirror
  with_reducible repeat' first
    | assumption
    | apply State.bump_kept
    | (apply Kept.ite <;> intro)
    | (apply Kept.ite_fst <;> intro)
    | (refine Kept.fst (by assumption) ?_)
    | (refine Kept.snd (by assumption) ?_)
    | (apply Kept.foldl <;> intros)
    | (apply Kept.foldl_fst <;> intros)
    | dsimp only
    | split
    | apply Kept.upd

theorem State.segRead_kept {s0 s : State} (h : Kept s0 s) (a : Accepted) :
    Kept s0 (State.segRead s a) := by
  unfold State.segRead
  with_reducible repeat' first
    | assumption
    | apply State.afterRead_kept
    | apply State.countMirror_kept
    | apply State.reply_kept
    | apply State.resweep_kept
    | apply State.serve_kept
    | apply State.setObj_kept
    | (apply Kept.ite <;> intro)
    | (apply Kept.ite_fst <;> intro)
    | (refine Kept.fst (by assumption) ?_)
    | (refine Kept.snd (by assumption) ?_)
    | (apply Kept.foldl <;> intros)
    | (apply Kept.foldl_fst <;> intros)
    | dsimp only
    | split
    | apply Kept.upd

theorem execSegRead_kept {s0 s : State} (h : Kept s0 s) (iss : Issuer) (pkt : Bytes) :
    KeptAns s0 (execSegRead iss pkt s) := by
  unfold execSegRead
  with_reducible repeat' first
    | assumption
    | apply KeptAns.next
    | (apply KeptAns.ite <;> intro)
    | apply State.segRead_kept
    | (refine State.packet_kept ?_ _ _ _ _ (fun _ _ _ => ?_))
    | (apply Kept.ite <;> intro)
    | (apply Kept.ite_fst <;> intro)
    | (refine Kept.fst (by assumption) ?_)
    | (refine Kept.snd (by assumption) ?_)
    | (apply Kept.foldl <;> intros)
    | (apply Kept.foldl_fst <;> intros)
    | dsimp only
    | split
    | apply Kept.upd

theorem execMirrorCopy_kept {s0 s : State} (h : Kept s0 s) :
    KeptAns s0 (execMirrorCopy s) := by
  unfold execMirrorCopy
  with_reducible repeat' first
    | assumption
    | apply KeptAns.next
    | (apply KeptAns.ite <;> intro)
    | apply State.bump_kept
    | apply State.jSystem_kept
    | apply State.scrubMem_kept
    | apply State.setObj_kept
    | (apply Kept.ite <;> intro)
    | (apply Kept.ite_fst <;> intro)
    | (refine Kept.fst (by assumption) ?_)
    | (refine Kept.snd (by assumption) ?_)
    | (apply Kept.foldl <;> intros)
    | (apply Kept.foldl_fst <;> intros)
    | dsimp only
    | split
    | apply Kept.upd

end Sys2Proof.Machine
end

