-- ==== Sys2Proof/Laws/KeepActions.lean ====
section
/-! SUPPORT. What the operations of Machine/Actions.lean keep. -/

namespace Sys2Proof.Machine

theorem State.writeNum_kept {s0 s : State} (h : Kept s0 s) (c : WriteCmd) (k : Key) (v : Nat) :
    Kept s0 (State.writeNum s c k v) := by
  unfold State.writeNum
  with_reducible repeat' first
    | assumption
    | apply State.writeCmd_kept
    | (refine State.packet_kept ?_ _ _ _ _ (fun _ _ _ => ?_))

theorem State.writeByt_kept {s0 s : State} (h : Kept s0 s) (c : BytesCmd) (k : Key) :
    Kept s0 (State.writeByt s c k) := by
  unfold State.writeByt
  with_reducible repeat' first
    | assumption
    | apply State.writeCmd_kept
    | (refine State.packet_kept ?_ _ _ _ _ (fun _ _ _ => ?_))

theorem State.writeLong_kept {s0 s : State} (h : Kept s0 s) (c : BytesCmd) (k : Key) :
    Kept s0 (State.writeLong s c k) := by
  unfold State.writeLong
  with_reducible repeat' first
    | assumption
    | apply State.segEnd_kept
    | apply State.writeByt_kept
    | (refine State.packet_kept ?_ _ _ _ _ (fun _ _ _ => ?_))
    | (apply Kept.ite <;> intro)
    | (refine Kept.fst (by assumption) ?_)
    | (refine Kept.snd (by assumption) ?_)
    | dsimp only
    | split

theorem execSessionClose_kept {s0 s : State} (h : Kept s0 s) (c : WriteCmd) (slot : Nat) :
    KeptAns s0 (execSessionClose c slot s) := by
  unfold execSessionClose
  with_reducible repeat' first
    | assumption
    | apply KeptAns.next
    | apply State.writeNum_kept

theorem execOwnerKey_kept {s0 s : State} (h : Kept s0 s) (c : BytesCmd) :
    KeptAns s0 (execOwnerKey c s) := by
  unfold execOwnerKey
  with_reducible repeat' first
    | assumption
    | apply KeptAns.next
    | apply State.writeLong_kept

theorem execPolicyFloor_kept {s0 s : State} (h : Kept s0 s) (c : WriteCmd) :
    KeptAns s0 (execPolicyFloor c s) := by
  unfold execPolicyFloor
  with_reducible repeat' first
    | assumption
    | apply KeptAns.next
    | apply State.writeNum_kept

theorem execFwSecRaise_kept {s0 s : State} (h : Kept s0 s) (c : WriteCmd) :
    KeptAns s0 (execFwSecRaise c s) := by
  unfold execFwSecRaise
  with_reducible repeat' first
    | assumption
    | apply KeptAns.next
    | apply State.writeNum_kept

theorem execStepNow_kept {s0 s : State} (h : Kept s0 s) (c : WriteCmd) :
    KeptAns s0 (execStepNow c s) := by
  unfold execStepNow
  with_reducible repeat' first
    | assumption
    | apply KeptAns.next
    | apply State.writeNum_kept

theorem execSlewNow_kept {s0 s : State} (h : Kept s0 s) (c : WriteCmd) :
    KeptAns s0 (execSlewNow c s) := by
  unfold execSlewNow
  with_reducible repeat' first
    | assumption
    | apply KeptAns.next
    | apply State.writeNum_kept

theorem execRealign_kept {s0 s : State} (h : Kept s0 s) (c : WriteCmd) :
    KeptAns s0 (execRealign c s) := by
  unfold execRealign
  with_reducible repeat' first
    | assumption
    | apply KeptAns.next
    | apply State.writeNum_kept

theorem execFreqCorr_kept {s0 s : State} (h : Kept s0 s) (c : WriteCmd) :
    KeptAns s0 (execFreqCorr c s) := by
  unfold execFreqCorr
  with_reducible repeat' first
    | assumption
    | apply KeptAns.next
    | apply State.writeNum_kept

theorem execPhaseCorr_kept {s0 s : State} (h : Kept s0 s) (c : WriteCmd) :
    KeptAns s0 (execPhaseCorr c s) := by
  unfold execPhaseCorr
  with_reducible repeat' first
    | assumption
    | apply KeptAns.next
    | apply State.writeNum_kept

theorem execPicotSteps_kept {s0 s : State} (h : Kept s0 s) (c : WriteCmd) (n : Nat) :
    KeptAns s0 (execPicotSteps c n s) := by
  unfold execPicotSteps
  with_reducible repeat' first
    | assumption
    | apply KeptAns.next
    | apply State.writeNum_kept

theorem execSwTrigger_kept {s0 s : State} (h : Kept s0 s) (c : WriteCmd) :
    KeptAns s0 (execSwTrigger c s) := by
  unfold execSwTrigger
  with_reducible repeat' first
    | assumption
    | apply KeptAns.next
    | apply State.writeNum_kept

theorem execEyeRequest_kept {s0 s : State} (h : Kept s0 s) (c : WriteCmd) (lane : Nat) :
    KeptAns s0 (execEyeRequest c lane s) := by
  unfold execEyeRequest
  with_reducible repeat' first
    | assumption
    | apply KeptAns.next
    | apply State.writeNum_kept

theorem execClear_kept {s0 s : State} (h : Kept s0 s) (c : WriteCmd) (slot : Nat) :
    KeptAns s0 (execClear c slot s) := by
  unfold execClear
  with_reducible repeat' first
    | assumption
    | apply KeptAns.next
    | apply State.writeNum_kept

theorem execTrain_kept {s0 s : State} (h : Kept s0 s) (c : WriteCmd) :
    KeptAns s0 (execTrain c s) := by
  unfold execTrain
  with_reducible repeat' first
    | assumption
    | apply KeptAns.next
    | apply State.writeNum_kept

theorem execTrainEnd_kept {s0 s : State} (h : Kept s0 s) (failSteps : List (Nat × Nat)) :
    KeptAns s0 (execTrainEnd failSteps s) := by
  unfold execTrainEnd
  with_reducible repeat' first
    | assumption
    | apply KeptAns.next
    | apply State.finishTraining_kept
    | apply State.setDev_kept
    | (apply Kept.ite <;> intro)
    | (refine Kept.fst (by assumption) ?_)
    | (refine Kept.snd (by assumption) ?_)
    | dsimp only
    | split

theorem execFree_kept {s0 s : State} (h : Kept s0 s) (c : WriteCmd) (queue : Nat) :
    KeptAns s0 (execFree c queue s) := by
  unfold execFree
  with_reducible repeat' first
    | assumption
    | apply KeptAns.next
    | apply State.writeNum_kept

theorem execClosePage_kept {s0 s : State} (h : Kept s0 s) (c : WriteCmd) (queue : Nat) :
    KeptAns s0 (execClosePage c queue s) := by
  unfold execClosePage
  with_reducible repeat' first
    | assumption
    | apply KeptAns.next
    | apply State.writeNum_kept

theorem State.writeOp_kept {s0 s : State} (h : Kept s0 s) (c : BytesCmd) (k : Key) (op : Nat) :
    Kept s0 (State.writeOp s c k op) := by
  unfold State.writeOp
  with_reducible repeat' first
    | assumption
    | apply State.writeByt_kept
    | (apply Kept.ite <;> intro)

theorem execGrant_kept {s0 s : State} (h : Kept s0 s) (c : BytesCmd) :
    KeptAns s0 (execGrant c s) := by
  unfold execGrant
  with_reducible repeat' first
    | assumption
    | apply KeptAns.next
    | apply State.writeOp_kept

theorem execRenew_kept {s0 s : State} (h : Kept s0 s) (c : BytesCmd) :
    KeptAns s0 (execRenew c s) := by
  unfold execRenew
  with_reducible repeat' first
    | assumption
    | apply KeptAns.next
    | apply State.writeOp_kept

theorem execRelease_kept {s0 s : State} (h : Kept s0 s) (c : BytesCmd) :
    KeptAns s0 (execRelease c s) := by
  unfold execRelease
  with_reducible repeat' first
    | assumption
    | apply KeptAns.next
    | apply State.writeOp_kept

theorem execQuery_kept {s0 s : State} (h : Kept s0 s) (c : BytesCmd) :
    KeptAns s0 (execQuery c s) := by
  unfold execQuery
  with_reducible repeat' first
    | assumption
    | apply KeptAns.next
    | apply State.writeOp_kept

theorem execLookup_kept {s0 s : State} (h : Kept s0 s) (c : BytesCmd) :
    KeptAns s0 (execLookup c s) := by
  unfold execLookup
  with_reducible repeat' first
    | assumption
    | apply KeptAns.next
    | apply State.writeOp_kept

theorem execInstall_kept {s0 s : State} (h : Kept s0 s) (c : BytesCmd) :
    KeptAns s0 (execInstall c s) := by
  unfold execInstall
  with_reducible repeat' first
    | assumption
    | apply KeptAns.next
    | apply State.writeOp_kept

theorem execUpdate_kept {s0 s : State} (h : Kept s0 s) (c : BytesCmd) :
    KeptAns s0 (execUpdate c s) := by
  unfold execUpdate
  with_reducible repeat' first
    | assumption
    | apply KeptAns.next
    | apply State.writeOp_kept

theorem execRemove_kept {s0 s : State} (h : Kept s0 s) (c : BytesCmd) :
    KeptAns s0 (execRemove c s) := by
  unfold execRemove
  with_reducible repeat' first
    | assumption
    | apply KeptAns.next
    | apply State.writeOp_kept

theorem execTableRead_kept {s0 s : State} (h : Kept s0 s) (c : BytesCmd) :
    KeptAns s0 (execTableRead c s) := by
  unfold execTableRead
  with_reducible repeat' first
    | assumption
    | apply KeptAns.next
    | apply State.writeOp_kept

theorem execClearStats_kept {s0 s : State} (h : Kept s0 s) (c : BytesCmd) :
    KeptAns s0 (execClearStats c s) := by
  unfold execClearStats
  with_reducible repeat' first
    | assumption
    | apply KeptAns.next
    | apply State.writeOp_kept

theorem execFlushLearnt_kept {s0 s : State} (h : Kept s0 s) (c : BytesCmd) :
    KeptAns s0 (execFlushLearnt c s) := by
  unfold execFlushLearnt
  with_reducible repeat' first
    | assumption
    | apply KeptAns.next
    | apply State.writeOp_kept

theorem execStateRestore_kept {s0 s : State} (h : Kept s0 s) (c : BytesCmd) :
    KeptAns s0 (execStateRestore c s) := by
  unfold execStateRestore
  with_reducible repeat' first
    | assumption
    | apply KeptAns.next
    | apply State.writeLong_kept

theorem execJobStart_kept {s0 s : State} (h : Kept s0 s) (c : BytesCmd) (job : Nat) :
    KeptAns s0 (execJobStart c job s) := by
  unfold execJobStart
  with_reducible repeat' first
    | assumption
    | apply KeptAns.next
    | apply State.writeOp_kept

theorem execResume_kept {s0 s : State} (h : Kept s0 s) (c : BytesCmd) (job : Nat) :
    KeptAns s0 (execResume c job s) := by
  unfold execResume
  with_reducible repeat' first
    | assumption
    | apply KeptAns.next
    | apply State.writeOp_kept

theorem execFinish_kept {s0 s : State} (h : Kept s0 s) (c : BytesCmd) (job : Nat) :
    KeptAns s0 (execFinish c job s) := by
  unfold execFinish
  with_reducible repeat' first
    | assumption
    | apply KeptAns.next
    | apply State.writeOp_kept

theorem execAbort_kept {s0 s : State} (h : Kept s0 s) (c : BytesCmd) (job : Nat) :
    KeptAns s0 (execAbort c job s) := by
  unfold execAbort
  with_reducible repeat' first
    | assumption
    | apply KeptAns.next
    | apply State.writeOp_kept

theorem execReleaseHandle_kept {s0 s : State} (h : Kept s0 s) (c : WriteCmd) :
    KeptAns s0 (execReleaseHandle c s) := by
  unfold execReleaseHandle
  with_reducible repeat' first
    | assumption
    | apply KeptAns.next
    | apply State.writeNum_kept

theorem execRingEnable_kept {s0 s : State} (h : Kept s0 s) (c : WriteCmd) (ring : Nat) :
    KeptAns s0 (execRingEnable c ring s) := by
  unfold execRingEnable
  with_reducible repeat' first
    | assumption
    | apply KeptAns.next
    | apply State.writeNum_kept

theorem execRingDisable_kept {s0 s : State} (h : Kept s0 s) (c : WriteCmd) (ring : Nat) :
    KeptAns s0 (execRingDisable c ring s) := by
  unfold execRingDisable
  with_reducible repeat' first
    | assumption
    | apply KeptAns.next
    | apply State.writeNum_kept

theorem execMapInvalidate_kept {s0 s : State} (h : Kept s0 s) (c : WriteCmd) :
    KeptAns s0 (execMapInvalidate c s) := by
  unfold execMapInvalidate
  with_reducible repeat' first
    | assumption
    | apply KeptAns.next
    | apply State.writeNum_kept

theorem execCoreReset_kept {s0 s : State} (h : Kept s0 s) (c : WriteCmd) (core : Nat) :
    KeptAns s0 (execCoreReset c core s) := by
  unfold execCoreReset
  with_reducible repeat' first
    | assumption
    | apply KeptAns.next
    | apply State.writeNum_kept

theorem execFwRestart_kept {s0 s : State} (h : Kept s0 s) (c : WriteCmd) :
    KeptAns s0 (execFwRestart c s) := by
  unfold execFwRestart
  with_reducible repeat' first
    | assumption
    | apply KeptAns.next
    | apply State.writeNum_kept

theorem execFlashImage_kept {s0 s : State} (h : Kept s0 s) (c : BytesCmd) :
    KeptAns s0 (execFlashImage c s) := by
  unfold execFlashImage
  with_reducible repeat' first
    | assumption
    | apply KeptAns.next
    | apply State.writeLong_kept

theorem execFlashConfig_kept {s0 s : State} (h : Kept s0 s) (c : BytesCmd) :
    KeptAns s0 (execFlashConfig c s) := by
  unfold execFlashConfig
  with_reducible repeat' first
    | assumption
    | apply KeptAns.next
    | apply State.writeLong_kept

theorem execGolden_kept {s0 s : State} (h : Kept s0 s) (c : BytesCmd) (entry : Nat) :
    KeptAns s0 (execGolden c entry s) := by
  unfold execGolden
  with_reducible repeat' first
    | assumption
    | apply KeptAns.next
    | apply State.writeLong_kept

theorem execResend_kept {s0 s : State} (h : Kept s0 s) (c : WriteCmd) (entry : Nat) :
    KeptAns s0 (execResend c entry s) := by
  unfold execResend
  with_reducible repeat' first
    | assumption
    | apply KeptAns.next
    | apply State.writeNum_kept

theorem execMarchPreserve_kept {s0 s : State} (h : Kept s0 s) (c : WriteCmd) :
    KeptAns s0 (execMarchPreserve c s) := by
  unfold execMarchPreserve
  with_reducible repeat' first
    | assumption
    | apply KeptAns.next
    | apply State.writeNum_kept

theorem execMarchDestroy_kept {s0 s : State} (h : Kept s0 s) (c : WriteCmd) :
    KeptAns s0 (execMarchDestroy c s) := by
  unfold execMarchDestroy
  with_reducible repeat' first
    | assumption
    | apply KeptAns.next
    | apply State.writeNum_kept

theorem execMarchRecover_kept {s0 s : State} (h : Kept s0 s) (c : WriteCmd) :
    KeptAns s0 (execMarchRecover c s) := by
  unfold execMarchRecover
  with_reducible repeat' first
    | assumption
    | apply KeptAns.next
    | apply State.writeNum_kept

theorem execFuseRepairs_kept {s0 s : State} (h : Kept s0 s) (c : WriteCmd) :
    KeptAns s0 (execFuseRepairs c s) := by
  unfold execFuseRepairs
  with_reducible repeat' first
    | assumption
    | apply KeptAns.next
    | apply State.writeNum_kept

theorem State.writeReset_kept {s0 s : State} (h : Kept s0 s) (c : WriteCmd) (kind : Nat) :
    Kept s0 (State.writeReset s c kind) := by
  unfold State.writeReset
  with_reducible repeat' first
    | assumption
    | apply State.writeNum_kept

theorem execResetWarm_kept {s0 s : State} (h : Kept s0 s) (c : WriteCmd) :
    KeptAns s0 (execResetWarm c s) := by
  unfold execResetWarm
  with_reducible repeat' first
    | assumption
    | apply KeptAns.next
    | apply State.writeReset_kept

theorem execResetControl_kept {s0 s : State} (h : Kept s0 s) (c : WriteCmd) :
    KeptAns s0 (execResetControl c s) := by
  unfold execResetControl
  with_reducible repeat' first
    | assumption
    | apply KeptAns.next
    | apply State.writeReset_kept

theorem execResetData_kept {s0 s : State} (h : Kept s0 s) (c : WriteCmd) :
    KeptAns s0 (execResetData c s) := by
  unfold execResetData
  with_reducible repeat' first
    | assumption
    | apply KeptAns.next
    | apply State.writeReset_kept

theorem execResetManagement_kept {s0 s : State} (h : Kept s0 s) (c : WriteCmd) :
    KeptAns s0 (execResetManagement c s) := by
  unfold execResetManagement
  with_reducible repeat' first
    | assumption
    | apply KeptAns.next
    | apply State.writeReset_kept

end Sys2Proof.Machine
end

