-- ==== Sys2Proof/Laws/Packet.lean ====
section
/-! SUPPORT. What the packets that a row's operands spell are read as (R502, R504). -/

namespace Sys2Proof.Machine

@[simp] theorem le_length (n x : Nat) : (le n x).length = n := by
  induction n generalizing x with
  | zero => rfl
  | succ n ih => simp [le, ih]

@[simp] theorem zeros_length (n : Nat) : (zeros n).length = n := by simp [zeros]

/-- A number's bytes spell the number. -/
theorem ofLe_le (n x : Nat) : ofLe (le n x) = x % 256 ^ n := by
  induction n generalizing x with
  | zero => simp [le, ofLe, Nat.mod_one]
  | succ n ih =>
    rw [le, ofLe, ih, BitVec.toNat_ofNat]
    rw [show 256 ^ (n + 1) = 256 * 256 ^ n by rw [Nat.pow_succ, Nat.mul_comm], Nat.mod_mul]

/-- A field that stands in front. -/
theorem fieldAt_le (n x : Nat) (r : Bytes) : fieldAt (le n x ++ r) 0 n = x % 256 ^ n := by
  have h : slice (le n x ++ r) 0 n = le n x := by
    have : (le n x ++ r).take n = le n x := by rw [List.take_append_of_le_length (by simp), List.take_of_length_le (by simp)]
    simp [slice, this, zeros]
  rw [fieldAt, h, ofLe_le]

/-- A field that stands behind a known number of bytes. -/
theorem fieldAt_append (a r : Bytes) (off n : Nat) (h : a.length ≤ off) : fieldAt (a ++ r) off n = fieldAt r (off - a.length) n := by
  have : (a ++ r).drop off = r.drop (off - a.length) := by
    rw [List.drop_append, List.drop_eq_nil_of_le h, List.nil_append]
  simp [fieldAt, slice, this]

theorem padTo_length (m : Nat) (b : Bytes) : (padTo m b).length = b.length + (m - b.length % m) % m := by simp [padTo]

/-- The header of a WRITE, as its sixteen bytes. -/
def writeHead (tag flags entries n : Nat) : Bytes :=
  le 1 2 ++ le 1 1 ++ le 1 flags ++ [0] ++ le 2 n ++ le 1 entries ++ [0] ++ le 4 tag ++ zeros 4

theorem writePacket_eq (tag flags entries : Nat) (body trailer : Bytes) :
    writePacket tag flags entries body trailer = writeHead tag flags entries (16 + body.length + trailer.length) ++ (body ++ trailer) := by
  simp [writePacket, writeHead, List.append_assoc]

@[simp] theorem writeHead_length (tag flags entries n : Nat) : (writeHead tag flags entries n).length = 16 := by simp [writeHead]

/-- A field of the header of a packet. -/
theorem fieldAt_head (h r : Bytes) (off n : Nat) (hl : off + n ≤ h.length) : fieldAt (h ++ r) off n = fieldAt h off n := by
  have : ((h ++ r).drop off).take n = (h.drop off).take n := by
    rw [List.drop_append_of_le_length (by omega), List.take_append_of_le_length (by simp; omega)]
  simp [fieldAt, slice, this]

theorem writeHead_fields (tag flags entries n : Nat) (hf : flags < 256) (he : entries < 256) (hn : n < 65536) :
    fieldAt (writeHead tag flags entries n) 0 1 = 2 ∧ fieldAt (writeHead tag flags entries n) 1 1 = 1
      ∧ fieldAt (writeHead tag flags entries n) 2 1 = flags ∧ fieldAt (writeHead tag flags entries n) 4 2 = n
      ∧ fieldAt (writeHead tag flags entries n) 6 1 = entries ∧ fieldAt (writeHead tag flags entries n) 7 1 = 0
      ∧ fieldAt (writeHead tag flags entries n) 12 4 = 0 ∧ fieldAt (writeHead tag flags entries n) 8 4 = tag % 2 ^ 32 := by
  simp [writeHead, fieldAt, slice, le, ofLe, zeros, List.replicate, Nat.mod_eq_of_lt, hf, he]
  omega

/-- What the check of R502 reads from the packet of a WRITE that passes it. -/
theorem parse_writePacket {port tag flags entries : Nat} {body trailer : Bytes} {p : Pkt} (ht : Trailed flags trailer)
    (he : entries < 256) (hl : 16 + body.length + trailer.length < 65536)
    (h : parsePkt port (writePacket tag flags entries body trailer) = some p) :
    p = ⟨2, flags, entries, tag % 2 ^ 32, body, trailer, writePacket tag flags entries body trailer⟩ := by
  obtain ⟨hf, hn⟩ := ht
  have hlen : (writePacket tag flags entries body trailer).length = 16 + body.length + trailer.length := by
    rw [writePacket_eq]; simp; omega
  obtain ⟨f0, -, f2, -, f6, -, -, f8⟩ := writeHead_fields tag flags entries (16 + body.length + trailer.length) (by omega) he (by omega)
  have fld : ∀ off n, off + n ≤ 16 → fieldAt (writePacket tag flags entries body trailer) off n
      = fieldAt (writeHead tag flags entries (16 + body.length + trailer.length)) off n := by
    intro off n h; rw [writePacket_eq]; exact fieldAt_head _ _ _ _ (by simpa using h)
  have hdrop : (writePacket tag flags entries body trailer).drop 16 = body ++ trailer := by
    rw [writePacket_eq, List.drop_left' (by simp)]
  have hbody : (body ++ trailer).take (16 + body.length + trailer.length - 16 - if bit flags 1 then 32 else 0) = body := by
    rw [← hn]; apply List.take_left'; omega
  have htr : (if bit flags 1 then (writePacket tag flags entries body trailer).drop (16 + body.length + trailer.length - 32) else [])
      = trailer := by
    split
    · next hb1 =>
      rw [if_pos hb1] at hn
      rw [writePacket_eq, ← List.append_assoc]; apply List.drop_left'; simp; omega
    · next hb1 =>
      rw [if_neg hb1] at hn
      exact (List.eq_nil_of_length_eq_zero hn).symm
  unfold parsePkt at h
  simp only [hlen, fld 0 1 (by omega), fld 2 1 (by omega), fld 6 1 (by omega), fld 8 4 (by omega), f0, f2, f6, f8, hdrop, hbody, htr] at h
  split at h
  · cases h
  · cases h; rfl

/-! One write entry. -/

theorem writeEntry_length (k : Key) (v : Bytes) : (writeEntry k v).length = 4 + (v.length + 3) / 4 * 4 := by
  simp [writeEntry, padTo_length]; omega

/-- The entry that a sender writes is read as its key and its bytes (R504). -/
theorem writeEntries_cons (n k : Nat) (v r : Bytes) (hk : k < 2 ^ 24) (hv : v.length ≤ 255) :
    writeEntries (n + 1) (writeEntry k v ++ r) = (writeEntries n r).map (fun l => (k, v) :: l) := by
  have hlen := writeEntry_length k v
  have hx : writeEntry k v ++ r = le 2 (k / 256) ++ (le 1 k ++ (le 1 v.length ++ (padTo 4 v ++ r))) := by
    simp [writeEntry, List.append_assoc]
  have f0 : fieldAt (writeEntry k v ++ r) 0 2 = k / 256 := by
    rw [hx, fieldAt_le]; omega
  have f2 : fieldAt (writeEntry k v ++ r) 2 1 = k % 256 := by
    rw [hx, fieldAt_append _ _ _ _ (by simp)]; simpa using fieldAt_le 1 k _
  have f3 : fieldAt (writeEntry k v ++ r) 3 1 = v.length := by
    rw [hx, fieldAt_append _ _ _ _ (by simp), fieldAt_append _ _ _ _ (by simp)]
    simp only [le_length]
    rw [fieldAt_le]; omega
  have hp : ((writeEntry k v ++ r).take (4 + (v.length + 3) / 4 * 4)).drop (4 + v.length) = zeros (4 + (v.length + 3) / 4 * 4 - 4 - v.length) := by
    have e : writeEntry k v = (le 2 (k / 256) ++ le 1 k ++ le 1 v.length ++ v) ++ zeros ((4 - v.length % 4) % 4) := by
      simp [writeEntry, padTo, List.append_assoc]
    rw [List.take_left' hlen, e, List.drop_left' (by simp; omega)]
    congr 1
    omega
  have hd : (writeEntry k v ++ r).drop (4 + (v.length + 3) / 4 * 4) = r := List.drop_left' hlen
  have ht : ((writeEntry k v ++ r).drop 4).take v.length = v := by
    rw [hx]
    have : (le 2 (k / 256) ++ (le 1 k ++ (le 1 v.length ++ (padTo 4 v ++ r)))).drop 4 = padTo 4 v ++ r := by
      rw [← List.append_assoc, ← List.append_assoc]; apply List.drop_left'; simp
    rw [this, padTo, List.append_assoc, List.take_left' rfl]
  rw [writeEntries]
  simp only [f0, f2, f3, hd, ht, hp]
  rw [if_neg (by rw [List.length_append, hlen]; simp; omega)]
  rw [show 256 * (k / 256) + k % 256 = k by omega]
  cases writeEntries n r <;> rfl

theorem writeEntries_one (k : Nat) (v : Bytes) (hk : k < 2 ^ 24) (hv : v.length ≤ 255) :
    writeEntries 1 (writeEntry k v) = some [(k, v)] := by
  have h := writeEntries_cons 0 k v [] hk hv
  rw [List.append_nil] at h
  rw [h]; rfl

end Sys2Proof.Machine
end

