-- ==== Sys2Proof/Laws/Write.lean ====
section
/-! SUPPORT. What one write of one object comes to, once its packet is taken and its value has passed its check (R512, R513). -/

namespace Sys2Proof.Machine

/-- An admitted packet is the issuer's own. -/
theorem State.admission_some {s s1 : State} {i : Issuer} {p : Pkt} {fresh : Bool} {a : Accepted} (h : s.admission i p fresh = (s1, some a)) :
    a.iss = i ∧ a.pkt = p := by
  unfold State.admission at h
  dsimp only at h
  repeat' split at h
  all_goals first
    | (simp only [Prod.mk.injEq, Option.some.injEq, reduceCtorEq, and_false] at h; done)
    | (simp only [Prod.mk.injEq, Option.some.injEq] at h; obtain ⟨-, rfl⟩ := h; exact ⟨rfl, rfl⟩)

/-- A taken packet is handed to its command. -/
theorem State.packet_taking {s s1 : State} {op : Nat} {i : Issuer} {raw : Bytes} {a : Accepted} (f : Accepted → State → State)
    (h : s.taking op i raw = some (s1, a)) : s.packet op i raw f = f a s1 := by
  unfold State.taking at h
  unfold State.packet
  split at h
  · cases h
  · next hb =>
    rw [if_neg hb]
    split at h
    · cases h
    · next p hp =>
      split at h
      · cases h
      · next hn =>
        have h1 : ¬(p.op ≠ op) := fun hx => hn (.inl hx)
        have h2 : ¬(s.mustWait i raw = true) := fun hx => hn (.inr hx)
        try rw [hp]
        try dsimp only
        rw [if_neg h1, if_neg h2]
        split at h
        · cases h
        · next hr =>
          split at h
          · cases h
          · split at h
            · cases h
            · next he =>
              cases h
              first | rfl | (rw [hr]; dsimp only; rw [he])

/-- What is taken of a packet. -/
theorem State.taking_some {s s1 : State} {op : Nat} {i : Issuer} {raw : Bytes} {a : Accepted} (h : s.taking op i raw = some (s1, a)) :
    a.iss = i ∧ parsePkt i.port raw = some a.pkt ∧ Kept s s1 := by
  unfold State.taking at h
  split at h
  · cases h
  · split at h
    · cases h
    · next p hp =>
      split at h
      · cases h
      · split at h
        · cases h
        · next hr =>
          split at h
          · cases h
          · next hq =>
            split at h
            · cases h
            · next he =>
              cases h
              obtain ⟨h1, h2⟩ := State.admission_some he
              have hq : _ = p := Classical.not_not.mp hq
              refine ⟨h1, by rw [h2, hq]; exact hp, Kept.fst he (State.admission_kept (Kept.fst hr (State.received_kept ?_ _ _ _ _)) _ _ _)⟩
              exact State.clearBusy_kept (State.popHoop_kept (Kept.upd s (Kept.refl s)) _ _) _

theorem Kept.tick {s t : State} (h : Kept s t) : t.tick = s.tick := HeartKept.tick h

/-- No integer is wider than 10 bytes (R498). -/
theorem valBytes_num_length (k : Key) (v : Nat) : (valBytes k (.num v)).length ≤ 10 := by
  have hw (t : Ty) : t.width / 8 ≤ 10 := by cases t <;> decide
  unfold valBytes
  dsimp only
  split
  · simp; exact hw _
  · simp

theorem ObjOut.fill_key (o : ObjOut) (w : Val) : (o.fill w).key = o.key := rfl

theorem ObjOut.fill_status (o : ObjOut) (w : Val) : (o.fill w).status = o.status := rfl

theorem ObjOut.fill_applied (o : ObjOut) (w : Val) : (o.fill w).applied = o.applied := rfl

/-- A check answers about the object it was asked about. -/
theorem State.checkEntry_key (s : State) (k : Key) (b : Bytes) : (s.checkEntry k b).key = k := by
  unfold State.checkEntry
  rw [ObjOut.fill_key]
  split
  · rfl
  · repeat' split
    all_goals first
      | rfl
      | (unfold bytCheck; dsimp only; repeat' split
         all_goals rfl)
      | (unfold State.numCheck; dsimp only; repeat' split
         all_goals rfl)

/-- No check leaves an entry PAIR_PENDING. -/
theorem State.checkEntry_status (s : State) (k : Key) (b : Bytes) : (s.checkEntry k b).status ≠ stPairPending := by
  have h1 (k : Key) (v : Val) (r : List RepEntry) : (clampedOut k v r).status ≠ stPairPending := by
    unfold clampedOut; dsimp only; split <;> decide
  have h2 (k : Key) : (emptyOut k).status ≠ stPairPending := by simp [emptyOut]
  have h3 (k : Key) : (rejOut k).status ≠ stPairPending := by simp [rejOut, badOut]
  have h4 (k : Key) (v : Val) : (okOut k v).status ≠ stPairPending := by simp [okOut]
  have h5 (d : ObjDef) : (bytCheck k d b).status ≠ stPairPending := by
    unfold bytCheck
    dsimp only
    repeat' split
    all_goals first | exact h2 _ | exact h3 _ | exact h4 _ _
  have h6 (d : ObjDef) (n : Nat) : (s.numCheck k d n).status ≠ stPairPending := by
    unfold State.numCheck
    dsimp only
    repeat' split
    all_goals first | exact h1 _ _ _ | exact h2 _ | exact h3 _ | exact h4 _ _
  unfold State.checkEntry
  rw [ObjOut.fill_status]
  repeat' split
  all_goals first
    | exact h5 _
    | exact h6 _ _
    | simp [badOut]

/-- What waits alone is what the boundary brings. -/
theorem State.Alone.atBoundary {s : State} (h : s.Alone) (d : Due) :
    State.atBoundary { s with due := [d] } = s.landDue (s.tick + 1) d := by
  obtain ⟨hd, hc⟩ := h
  have hc' : ({ s with due := [d] } : State).dueCommits (s.tick + 1) = [] := hc
  have hs : { s with due := [] } = s := by cases s; simp only at hd; subst hd; rfl
  unfold State.atBoundary State.dueAt
  dsimp only
  rw [hc']
  show List.foldl _ { s with due := [] } _ = _
  rw [hs]
  rfl

/-- A command waits alone. -/
theorem State.Alone.await {s : State} (h : s.Alone) (d : Due) : s.await d = { s with due := [d] } := by
  unfold State.await
  rw [h.1, List.nil_append]

/-- What a command that waits alone comes to. -/
theorem State.Alone.lands {s : State} (h : s.Alone) {d : Due} {t : State} (ht : s.landDue (s.tick + 1) d = t) : Lands s (.next (s.await d)) t :=
  ⟨d, by rw [h.await], by rw [h.atBoundary, ht]⟩

/-- One outcome of a command is superseded by no other of it. -/
theorem supersedeOwn_one (n : Nat) (o : ObjOut) : supersedeOwn n [o] = [o] := by
  simp [supersedeOwn]

/-- The end of a command whose one entry has acted. -/
theorem State.landWrite_one {s1 s2 : State} {a : Accepted} {e : Entry} {o : ObjOut} {wt : Option Wait} {t : Tick} (ht : t = s2.tick + 1)
    (hstep : Acting.step { s := s1 } a [e] t e = { s := s2, outs := [o], waits := wt }) (hp : (settledOuts [e]).any ObjOut.waitsPair = false) :
    s1.landWrite a [e] t = s2.ended a o wt := by
  unfold State.landWrite
  dsimp only [List.foldl_cons, List.foldl_nil]
  rw [hstep, hp, supersedeOwn_one, ht]
  rfl

/-- The end of a STRICT command whose one entry has acted (R515). -/
theorem State.landStrict_one {s1 s2 : State} {a : Accepted} {k : Nat} {b : Bytes} {byTransfer : Bool} {e : Entry} {o : ObjOut} {wt : Option Wait}
    {t : Tick} (ht : t = s1.tick + 1) (ht2 : t = s2.tick + 1) (hd : s1.due = []) (hb : s1.beginAll a byTransfer [(k, b)] = (s1, [e]))
    (hstep : Acting.step { s := s1 } a [e] t e = { s := s2, outs := [o], waits := wt }) (hp : o.status ≠ stPairPending) :
    s1.landStrict a byTransfer [(k, b)] t = if strictFails o = true then s1.strictEnd a o else s2.ended a o wt := by
  have hs : { s1 with due := [] } = s1 := by cases s1; simp only at hd; subst hd; rfl
  have hw : ([o].any ObjOut.waitsPair) = false := by simp [ObjOut.waitsPair, hp]
  unfold State.landStrict
  simp only [hb, hd, hs, List.foldl_cons, List.foldl_nil, hstep, supersedeOwn_one, hw, List.any_cons, List.any_nil, Bool.or_false,
    Bool.false_eq_true, if_false]
  split
  · simp only [State.strictEnd, hd, ht]
  · rw [ht2]; rfl

/-- One entry that its check settles. -/
theorem State.writeCmd_settled {s1 : State} {a : Accepted} {k : Nat} {b : Bytes} {byTransfer : Bool} (halone : s1.Alone)
    (hst : isStaged k = false) (hchk : (s1.checkEntry k b).applies = false) (hp : (s1.checkEntry k b).status ≠ stPairPending) :
    Lands s1 (.next (s1.writeCmd a byTransfer [(k, b)])) (if bit a.pkt.flags 0 = true ∧ strictFails (s1.checkEntry k b) = true
      then s1.strictEnd a (s1.checkEntry k b) else s1.ended a (s1.checkEntry k b)) := by
  have hbegin : s1.beginAll a byTransfer [(k, b)] = (s1, [.settled (s1.checkEntry k b)]) := by
    simp [State.beginAll, State.begin1, hst, hchk]
  generalize s1.checkEntry k b = chk at *
  have hw : chk.waitsPair = false := by simp [ObjOut.waitsPair, hp]
  have hstep (t : Tick) : Acting.step { s := s1 } a [.settled chk] t (.settled chk) = { s := s1, outs := [chk] } := rfl
  unfold State.writeCmd
  rw [if_neg (by simp)]
  by_cases hf : bit a.pkt.flags 0 = true
  · rw [if_pos hf]
    refine halone.lands ((State.landStrict_one (e := .settled chk) rfl rfl halone.1 hbegin (hstep _) hp).trans ?_)
    simp [hf]
  · rw [if_neg hf, hbegin]
    dsimp only
    rw [if_neg (by simp [allStaged, hst]), if_neg (by simp [settledOuts, hw])]
    refine halone.lands ((State.landWrite_one rfl (hstep _) (by simp [settledOuts, hw])).trans ?_)
    rw [if_neg (fun h => hf h.1)]

/-- One entry that acts at the boundary. -/
theorem State.writeCmd_one {s1 s2 : State} {a : Accepted} {k : Nat} {b : Bytes} {byTransfer : Bool} {w : Val} {o : ObjOut}
    {wt : Option Wait} (halone : s1.Alone) (hst : isStaged k = false) (hp : pairPartner k = none)
    (hchk : (s1.checkEntry k b).applies = true) (hw : (s1.checkEntry k b).applied = some w) (hk : (s1.checkEntry k b).key = k)
    (hact : s1.act a.iss k w (s1.tick + 1) = (s2, o, wt)) (ho : o.status ≠ stPairPending) :
    let r := (o.after (s1.checkEntry k b)).refusedWith (writtenVal k b)
    Lands s1 (.next (s1.writeCmd a byTransfer [(k, b)]))
      (if bit a.pkt.flags 0 = true ∧ strictFails r = true then s1.strictEnd a r else s2.ended a r wt) := by
  intro r
  have ht : s2.tick = s1.tick := Kept.tick (Kept.fst hact (State.act_kept (Kept.refl s1) _ _ _ _))
  have hbegin : s1.beginAll a byTransfer [(k, b)] = (s1, [.acts (s1.checkEntry k b) (writtenVal k b)]) := by
    simp [State.beginAll, State.begin1, hst, hchk, hp]
  have hr : r.status ≠ stPairPending := by
    have : (o.after (s1.checkEntry k b)).status ≠ stPairPending := by
      unfold ObjOut.after
      split
      · dsimp only; split
        · decide
        · exact ho
      · exact ho
    show (ObjOut.refusedWith _ _).status ≠ _
    unfold ObjOut.refusedWith
    split
    · exact this
    · exact this
  have hstep : Acting.step { s := s1 } a [.acts (s1.checkEntry k b) (writtenVal k b)] (s1.tick + 1) (.acts (s1.checkEntry k b) (writtenVal k b))
      = { s := s2, outs := [r], waits := wt } := by
    unfold Acting.step
    dsimp only
    rw [hw]
    dsimp only
    rw [hk, hact]
    simp [r]
  have ht2 : s1.tick + 1 = s2.tick + 1 := by rw [ht]
  unfold State.writeCmd
  rw [if_neg (by simp)]
  by_cases hf : bit a.pkt.flags 0 = true
  · rw [if_pos hf]
    refine halone.lands ((State.landStrict_one rfl ht2 halone.1 hbegin hstep hr).trans ?_)
    simp [hf]
  · rw [if_neg hf, hbegin]
    dsimp only
    rw [if_neg (by simp [allStaged, hst]), if_neg (by simp [settledOuts])]
    refine halone.lands ((State.landWrite_one ht2 hstep (by simp [settledOuts])).trans ?_)
    rw [if_neg (fun h => hf h.1)]

/-- One write that passes its check and is carried out leaves what `ended` says. -/
theorem State.writeCmd_acts {s1 s2 : State} {a : Accepted} {k : Nat} {b : Bytes} {byTransfer : Bool} {w : Val} {o : ObjOut}
    {wt : Option Wait} (halone : s1.Alone) (hst : isStaged k = false)
    (hp : pairPartner k = none) (hchk : s1.checkEntry k b = okOut k w) (hact : s1.act a.iss k w (s1.tick + 1) = (s2, o, wt))
    (ho : o.status = stOk) (hr : o.rep = []) :
    Lands s1 (.next (s1.writeCmd a byTransfer [(k, b)])) (s2.ended a o wt) := by
  have happ : o.applies = true := by simp [ObjOut.applies, ho]
  have hout : ((o.after (s1.checkEntry k b)).refusedWith (writtenVal k b)) = o := by
    rw [hchk]
    have : o.after (okOut k w) = o := by
      simp [ObjOut.after, happ, okOut]
    rw [this]; simp [ObjOut.refusedWith, ho]
  have h := State.writeCmd_one (a := a) (byTransfer := byTransfer) halone hst hp (by rw [hchk]; simp [okOut, ObjOut.applies]) (by rw [hchk]; rfl)
    (by rw [hchk]; rfl) hact (by rw [ho]; decide)
  dsimp only at h
  rw [hout, if_neg (by simp [strictFails, ho, hr])] at h
  exact h

/-- A packet taken as a write of one value is that write. -/
theorem State.taking_write {s s1 : State} {i : Issuer} {a : Accepted} {k tag flags : Nat} {b trailer : Bytes} (htr : Trailed flags trailer)
    (hk : k < 2 ^ 24) (hb : b.length ≤ 255) (h : s.taking opWrite i (writePacket tag flags 1 (writeEntry k b) trailer) = some (s1, a)) :
    a.iss = i ∧ a.pkt.flags = flags ∧ (writeEntries a.pkt.entries a.pkt.body).getD [] = [(k, b)] := by
  obtain ⟨hi, hparse, -⟩ := State.taking_some h
  have hel := writeEntry_length k b
  have hle : trailer.length ≤ 32 := by have := htr.2; split at this <;> omega
  rw [parse_writePacket htr (by omega) (by omega) hparse]
  exact ⟨hi, rfl, by rw [writeEntries_one k b hk hb]; rfl⟩

/-- A write of one number whose effect is carried out. -/
theorem State.writeNum_acts {s s1 s2 : State} {c : WriteCmd} {a : Accepted} {k v : Nat} {w : Val} {o : ObjOut} {wt : Option Wait}
    (h : Writes s c k v s1 a) (hk : k < 2 ^ 24) (hl : (valBytes k (.num v)).length ≤ 10) (hst : isStaged k = false)
    (hp : pairPartner k = none) (hchk : s1.checkEntry k (valBytes k (.num v)) = okOut k w)
    (hact : s1.act c.iss k w (s1.tick + 1) = (s2, o, wt)) (ho : o.status = stOk) (hr : o.rep = []) :
    Lands s1 (.next (s.writeNum c k v)) (s2.ended a o wt) := by
  obtain ⟨htr, htk, hdue, -⟩ := h
  obtain ⟨hi, -, he⟩ := State.taking_write htr hk (by omega) htk
  unfold State.writeNum
  rw [State.packet_taking _ htk, he]
  exact State.writeCmd_acts hdue hst hp hchk (hi ▸ hact) ho hr

/-- A write of one byte string whose effect is carried out. -/
theorem State.writeByt_acts {s s1 s2 : State} {c : BytesCmd} {a : Accepted} {k : Nat} {w : Val} {o : ObjOut} {wt : Option Wait}
    (h : WritesBytes s c k s1 a) (hk : k < 2 ^ 24) (hst : isStaged k = false)
    (hp : pairPartner k = none) (hchk : s1.checkEntry k c.value = okOut k w)
    (hact : s1.act c.iss k w (s1.tick + 1) = (s2, o, wt)) (ho : o.status = stOk) (hr : o.rep = []) :
    Lands s1 (.next (s.writeByt c k)) (s2.ended a o wt) := by
  obtain ⟨htr, hlen, htk, hdue, -⟩ := h
  obtain ⟨hi, -, he⟩ := State.taking_write htr hk (by omega) htk
  unfold State.writeByt
  rw [State.packet_taking _ htk, he]
  exact State.writeCmd_acts hdue hst hp hchk (hi ▸ hact) ho hr

end Sys2Proof.Machine
end

