-- ==== Sys2Proof/Laws/Rows.lean ====
section
/-! SUPPORT. The check of one value against the row of its object, once per kind of row (R498, R499, R504, R514): what the statements about
one write need of the object tables. -/

namespace Sys2Proof.Machine

/-- The row that the object tables give a key. -/
theorem findObj_row {k : Nat} {d : ObjDef} (h : (rowsOf (k / 65536)).find? (fun d => d.names (k / 256) (k % 256)) = some d) :
    findObj k = some d := by
  unfold findObj; rw [h]

/-- The bytes of an integer read back (R498). -/
theorem ofLe_valBytes {k v : Nat} {d : ObjDef} (hf : findObj k = some d) (hv : v < 2 ^ d.ty.width) :
    ofLe (valBytes k (.num v)) = v ∧ (valBytes k (.num v)).length = d.ty.width / 8 := by
  have hw (t : Ty) : 256 ^ (t.width / 8) = 2 ^ t.width := by cases t <;> decide
  unfold valBytes
  rw [hf]
  exact ⟨by rw [ofLe_le, hw, Nat.mod_eq_of_lt hv], le_length _ _⟩

/-- What the report of a number calls WRITTEN. -/
theorem writtenVal_num {k v : Nat} {d : ObjDef} (hf : findObj k = some d) (ht : d.ty.bytes = false) (hv : v < 2 ^ d.ty.width) :
    writtenVal k (valBytes k (.num v)) = .num v := by
  have h := (ofLe_valBytes hf hv).1
  unfold writtenVal
  rw [hf]
  dsimp only
  rw [if_neg (by simp [ht]), h]

/-- What the report of a byte string calls WRITTEN. -/
theorem writtenVal_byt {k : Nat} {b : Bytes} {d : ObjDef} (hf : findObj k = some d) (ht : d.ty.bytes = true) : writtenVal k b = .byt b := by
  unfold writtenVal
  rw [hf]
  dsimp only
  rw [if_pos ht]

/-- The check of a number of an object that may be written is the check of its row. -/
theorem State.checkEntry_num {s : State} {k v : Nat} {d : ObjDef} (hf : findObj k = some d) (hw : Writable s k) (ha : d.acc ≠ .ro)
    (ht : d.ty.bytes = false) (hv : v < 2 ^ d.ty.width) : s.checkEntry k (valBytes k (.num v)) = (s.numCheck k d v).fill (.num v) := by
  obtain ⟨h1, h2⟩ := ofLe_valBytes hf hv
  have h3 := writtenVal_num hf ht hv
  unfold State.checkEntry
  rw [hf]
  dsimp only
  rw [if_neg (by simp [hw.1]), if_neg ha, if_neg (by simp [hw.2]), if_neg (by simp [ht]), if_neg (by simp [h2]), h1, h3]

/-- A truth value written as 0 or 1. -/
theorem State.checkEntry_bool {s : State} {k v : Nat} {d : ObjDef} (hf : findObj k = some d) (hw : Writable s k) (ha : d.acc ≠ .ro)
    (ht : d.ty = .bool) (hv : v ≤ 1) (hz : ¬(v = 0 ∧ d.zeroEmpty = true)) : s.checkEntry k (valBytes k (.num v)) = okOut k (.num v) := by
  rw [State.checkEntry_num hf hw ha (by rw [ht]; rfl) (by rw [ht]; show v < 256; omega)]
  unfold State.numCheck
  dsimp only
  rw [if_neg hz, if_neg (by simp [ht]), if_pos ht, if_pos hv]
  rfl

/-- A number inside its Range. -/
theorem State.checkEntry_inRange {s : State} {k v : Nat} {d : ObjDef} (hf : findObj k = some d) (hw : Writable s k) (ha : d.acc ≠ .ro)
    (ht : d.ty.bytes = false) (hb : d.ty ≠ .bool) (hm : d.ty ≠ .time) (hs : d.rng ≠ .special) (hv : v < 2 ^ d.ty.width)
    (hz : ¬(v = 0 ∧ d.zeroEmpty = true)) (hr : rangeCheck d.rng d.ty.signed d.ty.width v = some (v, 0)) :
    s.checkEntry k (valBytes k (.num v)) = okOut k (.num v) := by
  rw [State.checkEntry_num hf hw ha ht hv]
  unfold State.numCheck
  dsimp only
  rw [if_neg hz, if_neg hm, if_neg hb, if_neg hs, hr]
  rfl

/-- A byte string of a length the row allows. -/
theorem State.checkEntry_byt {s : State} {k lo hi : Nat} {b : Bytes} {d : ObjDef} (hf : findObj k = some d) (hw : Writable s k)
    (ha : d.acc ≠ .ro) (ht : d.ty.bytes = true) (hr : d.rng = .len lo hi) (hlo : lo ≤ b.length) (hhi : b.length ≤ hi) (hb : b ≠ []) :
    s.checkEntry k b = okOut k (.byt b) := by
  unfold State.checkEntry
  rw [hf]
  dsimp only
  rw [if_neg (by simp [hw.1]), if_neg ha, if_neg (by simp [hw.2]), if_pos ht]
  unfold bytCheck
  dsimp only
  rw [hr]
  dsimp only
  rw [if_neg hb, if_neg (by omega)]
  rfl

/-- After a check that found nothing to report, an action's outcome is its own. -/
theorem ObjOut.after_ok (o : ObjOut) (k : Key) (w : Val) : o.after (okOut k w) = o := by
  unfold ObjOut.after
  split
  · simp [okOut]
  · rfl

/-- One write of one number, whatever its action comes to. -/
theorem State.writeNum_ends {s s1 s2 : State} {c : WriteCmd} {a : Accepted} {k v : Nat} {d : ObjDef} {o : ObjOut} {wt : Option Wait}
    (h : Writes s c k v s1 a) (hk : k < 2 ^ 24) (hst : isStaged k = false) (hp : pairPartner k = none) (hf : findObj k = some d)
    (ht : d.ty.bytes = false) (hv : v < 2 ^ d.ty.width) (hchk : s1.checkEntry k (valBytes k (.num v)) = okOut k (.num v))
    (hact : s1.act c.iss k (.num v) (s1.tick + 1) = (s2, o, wt)) (ho : o.status ≠ stPairPending) :
    Lands s1 (.next (s.writeNum c k v)) (s1.endedOr c.flags a (o.refusedWith (.num v)) s2 wt) := by
  obtain ⟨htr, htk, hdue, -⟩ := h
  obtain ⟨hi, hfl, he⟩ := State.taking_write htr hk (by have := valBytes_num_length k v; omega) htk
  unfold State.writeNum
  rw [State.packet_taking _ htk, he]
  have := State.writeCmd_one (a := a) (byTransfer := false) hdue hst hp (by rw [hchk]; rfl) (by rw [hchk]; rfl)
    (State.checkEntry_key s1 _ _) (hi ▸ hact) ho
  dsimp only at this ⊢
  rw [hchk, ObjOut.after_ok, writtenVal_num hf ht hv, hfl] at this
  exact this

/-- One write of one byte string, whatever its action comes to. -/
theorem State.writeByt_ends {s s1 s2 : State} {c : BytesCmd} {a : Accepted} {k : Nat} {d : ObjDef} {o : ObjOut} {wt : Option Wait}
    (h : WritesBytes s c k s1 a) (hk : k < 2 ^ 24) (hst : isStaged k = false) (hp : pairPartner k = none) (hf : findObj k = some d)
    (ht : d.ty.bytes = true) (hchk : s1.checkEntry k c.value = okOut k (.byt c.value))
    (hact : s1.act c.iss k (.byt c.value) (s1.tick + 1) = (s2, o, wt)) (ho : o.status ≠ stPairPending) :
    Lands s1 (.next (s.writeByt c k)) (s1.endedOr c.flags a (o.refusedWith (.byt c.value)) s2 wt) := by
  obtain ⟨htr, hlen, htk, hdue, -⟩ := h
  obtain ⟨hi, hfl, he⟩ := State.taking_write htr hk (by omega) htk
  unfold State.writeByt
  rw [State.packet_taking _ htk, he]
  have := State.writeCmd_one (a := a) (byTransfer := false) hdue hst hp (by rw [hchk]; rfl) (by rw [hchk]; rfl)
    (State.checkEntry_key s1 _ _) (hi ▸ hact) ho
  dsimp only at this ⊢
  rw [hchk, ObjOut.after_ok, writtenVal_byt hf ht, hfl] at this
  exact this

/-- An outcome of OK without a report is no failure under STRICT. -/
theorem State.endedOr_ok {s t : State} {f : Nat} {a : Accepted} {o : ObjOut} {w : Option Wait} (ho : o.status = stOk) (hr : o.rep = []) :
    s.endedOr f a o t w = t.ended a o w := by
  unfold State.endedOr
  rw [if_neg (by simp [strictFails, ho, hr])]

end Sys2Proof.Machine
end

