-- ==== Sys2Proof/Laws/Act.lean ====
section
/-! SUPPORT. Which action a write of each action object is (R513): one lemma per object. -/

namespace Sys2Proof.Machine

variable (s : State) (i : Issuer) (b : Bytes) (v : Nat) (t : Tick)

theorem act_devReset : s.act i Obj.devReset (.num v) t = done (s.askReset v t) := rfl

theorem act_tbTimeAction : s.act i Obj.tbTimeAction (.num v) t = done (s.timeAction v t) := rfl

theorem act_corrFreqCorr : s.act i Obj.corrFreqCorr (.num v) t = (s.freqCorr v t, okOut Obj.corrFreqCorr (.num v), none) := rfl

theorem act_corrPhaseCorr : s.act i Obj.corrPhaseCorr (.num v) t = done (s.phaseCorr v t) := rfl

theorem act_tableTableCmd : s.act i Obj.tableTableCmd (.byt b) t =
    ((if s.tableAnswers b then (s.tableCmd i.port b t).1.keepCore i (Obj.tableTableResult 2) else (s.tableCmd i.port b t).1),
      (s.tableCmd i.port b t).2.1, (s.tableCmd i.port b t).2.2) := rfl

theorem act_swSwTrigger : s.act i Obj.swSwTrigger (.num v) t = (s.pulseLines t v, okOut Obj.swSwTrigger (.num v), none) := rfl

theorem act_cmmTrain : s.act i Obj.cmmTrain (.num v) t = done (s.trainDev t) := rfl

theorem act_cmmLeaseCmd : s.act i Obj.cmmLeaseCmd (.byt b) t =
    ((if leaseAnswers b then (s.leaseCmd i.port i.core b).1.keepCore i (Obj.cmmLeaseResult 2) else (s.leaseCmd i.port i.core b).1),
      (s.leaseCmd i.port i.core b).2, none) := rfl

theorem act_deflReleaseHandle : s.act i Obj.deflReleaseHandle (.num v) t = done (s.releaseHandle v) := rfl

theorem act_secOwnerKey : s.act i Obj.secOwnerKey (.byt b) t = s.ownerKey b := rfl

theorem act_secPolicy : s.act i Obj.secPolicy (.num v) t = done (s.policy v) := rfl

theorem act_secPolicyFloor : s.act i Obj.secPolicyFloor (.num v) t = done (s.policyFloor v) := rfl

theorem act_secFwSecRaise : s.act i Obj.secFwSecRaise (.num v) t = done (s.fwSecRaise v) := rfl

theorem act_hostMapInvalidate : s.act i Obj.hostMapInvalidate (.num v) t = done s.mapInvalidate := rfl

theorem act_fwFlashImage : s.act i Obj.fwFlashImage (.byt b) t = s.flashImage b := rfl

theorem act_fwFlashConfig : s.act i Obj.fwFlashConfig (.byt b) t = s.flashConfig b := rfl

theorem act_fwFwRestart : s.act i Obj.fwFwRestart (.num v) t = done (s.fwRestart t) := rfl

theorem act_integMarchPreserve : s.act i Obj.integMarchPreserve (.num v) t = done (s.march 1 v) := rfl

theorem act_integMarchDestroy : s.act i Obj.integMarchDestroy (.num v) t = done (s.march 2 v) := rfl

theorem act_integMarchRecover : s.act i Obj.integMarchRecover (.num v) t = done (s.march 3 v) := rfl

theorem act_integFuseRepairs : s.act i Obj.integFuseRepairs (.num v) t = s.fuseRepairs := rfl

theorem act_synOPicotSteps {n : Nat} (h : n < 4) : s.act i (Obj.synOPicotSteps n) (.num v) t = done (s.picotWrite n v) := by interval_cases n <;> rfl

theorem act_laneEyeRequest {n : Nat} (h : n < 32) : s.act i (Obj.laneEyeRequest n) (.num v) t = done (s.eyeRequest n v) := by interval_cases n <;> rfl

theorem act_slotClear {n : Nat} (h : n < 16) : s.act i (Obj.slotClear n) (.num v) t = done (s.clearSlot n) := by interval_cases n <;> rfl

theorem act_jobJobDesc {n : Nat} (h : n < 16) : s.act i (Obj.jobJobDesc n) (.byt b) t = done (s.jobDesc i n b t) := by interval_cases n <;> rfl

theorem act_sessClose {n : Nat} (h : n < 8) : s.act i (Obj.sessClose n) (.num v) t = done (s.sessionClose n) := by interval_cases n <;> rfl

theorem act_coreReset {n : Nat} (h : n < 4) : s.act i (Obj.coreReset n) (.num v) t = done (s.coreResetWrite n t) := by interval_cases n <;> rfl

theorem act_sigGolden {n : Nat} (h : n < 8) : s.act i (Obj.sigGolden n) (.byt b) t = done (s.writeGolden n b t) := by interval_cases n <;> rfl

theorem act_streamResend {n : Nat} (h : n < 4) : s.act i (Obj.streamResend n) (.num v) t = done (s.resend n v) := by interval_cases n <;> rfl

theorem act_coderState {n : Nat} (h : n < 3) : s.act i (Obj.coderState n) (.byt b) t = done (s.writeCoder n (s.objFor i (Obj.coderStateSel n)) b) := by interval_cases n <;> rfl

theorem act_ringEnable {n : Nat} (h : n < 64) : s.act i (Obj.ringEnable n) (.num v) t = done (s.setNow (Obj.ringEnable n) (.num v)) := by interval_cases n <;> rfl

/-- The actions of a queue. -/
theorem act_queue {n m : Nat} (h : n < 4096) (hm : m < 256) : s.act i ((0x4000 + n) * 256 + m) (.num v) t =
    if m = 0x11 then done (s.freeQueue n) else if m = 0x12 then done (s.askClose n)
    else done (s.setNow ((0x4000 + n) * 256 + m) (.num v)) := by
  generalize hk : (0x4000 + n) * 256 + m = k
  have h1 : k / 256 = 0x4000 + n := by omega
  have h2 : k % 256 = m := by omega
  have hne (x : Nat) (hx : x / 256 < 0x4000 ∨ 0x5000 ≤ x / 256) : ¬ k = x := by intro e; rw [← e] at hx; omega
  have hd : 0x4000 + n - 0x4000 = n := by omega
  have e0 : ¬(k = Obj.devReset) := hne _ (by decide)
  have e1 : ¬(k = Obj.tbTimeAction) := hne _ (by decide)
  have e2 : ¬(k = Obj.corrFreqCorr) := hne _ (by decide)
  have e3 : ¬(k = Obj.corrPhaseCorr) := hne _ (by decide)
  have e4 : ¬(0x2204 ≤ (0x4000 + n) ∧ (0x4000 + n) < 0x2208 ∧ m = 8) := by omega
  have e5 : ¬(0x3100 ≤ (0x4000 + n) ∧ (0x4000 + n) < 0x3120 ∧ m = 0x44) := by omega
  have e6 : ¬(k = Obj.tableTableCmd) := hne _ (by decide)
  have e7 : ¬(k = Obj.swSwTrigger) := hne _ (by decide)
  have e8 : ¬(0x3810 ≤ (0x4000 + n) ∧ (0x4000 + n) < 0x3820 ∧ m = 7) := by omega
  have e9 : ¬(k = Obj.cmmTrain) := hne _ (by decide)
  have e10 : ¬(k = Obj.cmmLeaseCmd) := hne _ (by decide)
  have e13 : ¬((0x4000 + n) = 0x5400 ∧ 0x10 ≤ m ∧ m < 0x13) := by omega
  have e14 : ¬((0x4000 + n) = 0x5400 ∧ 0x13 ≤ m ∧ m < 0x16) := by omega
  have e15 : ¬(0x5500 ≤ (0x4000 + n) ∧ (0x4000 + n) < 0x5510 ∧ m = 1) := by omega
  have e16 : ¬(k = Obj.deflReleaseHandle) := hne _ (by decide)
  have e17 : ¬(k = Obj.secOwnerKey) := hne _ (by decide)
  have e18 : ¬(k = Obj.secPolicy) := hne _ (by decide)
  have e19 : ¬(k = Obj.secPolicyFloor) := hne _ (by decide)
  have e20 : ¬(k = Obj.secFwSecRaise) := hne _ (by decide)
  have e21 : ¬(0x1210 ≤ (0x4000 + n) ∧ (0x4000 + n) < 0x1218 ∧ m = 7) := by omega
  have e22 : ¬(k = Obj.hostMapInvalidate) := hne _ (by decide)
  have e23 : ¬(k = Obj.fwFlashImage) := hne _ (by decide)
  have e24 : ¬(k = Obj.fwFlashConfig) := hne _ (by decide)
  have e25 : ¬(k = Obj.fwFwRestart) := hne _ (by decide)
  have e26 : ¬(0x5A10 ≤ (0x4000 + n) ∧ (0x4000 + n) < 0x5A14 ∧ m = 2) := by omega
  have e27 : ¬(0x5A60 ≤ (0x4000 + n) ∧ (0x4000 + n) < 0x5A68 ∧ m = 5) := by omega
  have e28 : ¬(0x5A80 ≤ (0x4000 + n) ∧ (0x4000 + n) < 0x5A84 ∧ m = 7) := by omega
  have e29 : ¬(k = Obj.integMarchPreserve) := hne _ (by decide)
  have e30 : ¬(k = Obj.integMarchDestroy) := hne _ (by decide)
  have e31 : ¬(k = Obj.integMarchRecover) := hne _ (by decide)
  have e32 : ¬(k = Obj.integFuseRepairs) := hne _ (by decide)
  unfold State.act
  simp only [h1, h2, hd]
  rw [if_neg e0, if_neg e1, if_neg e2, if_neg e3, if_neg e4, if_neg e5, if_neg e6, if_neg e7, if_neg e8, if_neg e9, if_neg e10]
  by_cases hf : m = 0x11
  · rw [if_pos hf, if_pos (show (0x4000 ≤ 0x4000 + n ∧ 0x4000 + n < 0x5000 ∧ m = 0x11) from by omega)]
  · rw [if_neg hf, if_neg (show ¬(0x4000 ≤ 0x4000 + n ∧ 0x4000 + n < 0x5000 ∧ m = 0x11) from by omega)]
    by_cases hc : m = 0x12
    · rw [if_pos hc, if_pos (show (0x4000 ≤ 0x4000 + n ∧ 0x4000 + n < 0x5000 ∧ m = 0x12) from by omega)]
    · rw [if_neg hc, if_neg (show ¬(0x4000 ≤ 0x4000 + n ∧ 0x4000 + n < 0x5000 ∧ m = 0x12) from by omega), if_neg e13, if_neg e14, if_neg e15, if_neg e16, if_neg e17, if_neg e18, if_neg e19, if_neg e20, if_neg e21, if_neg e22, if_neg e23, if_neg e24, if_neg e25, if_neg e26, if_neg e27, if_neg e28, if_neg e29, if_neg e30, if_neg e31, if_neg e32]

end Sys2Proof.Machine
end

