-- ==== Sys2Proof/Laws/KeepDevice.lean ====
section
/-! SUPPORT. What the operations of Machine/Device.lean keep. -/

namespace Sys2Proof.Machine

theorem State.enterFault_kept {s0 s : State} (h : Kept s0 s) (t : Tick) :
    Kept s0 (State.enterFault s t) := by
  unfold State.enterFault
  with_reducible repeat' first
    | assumption
    | apply State.abortJobs_kept
    | apply State.bump_kept
    | apply State.driveOut_kept
    | apply State.resetCore_kept
    | apply State.revoke_kept
    | apply State.setDev_kept
    | apply State.setObj_kept
    | apply State.setObjs_kept
    | apply State.setRepair_kept
    | (refine Kept.fst (by assumption) ?_)
    | (refine Kept.snd (by assumption) ?_)
    | (apply Kept.foldl <;> intros)
    | dsimp only
    | split
    | apply Kept.upd

theorem execFaultEntry_kept {s0 s : State} (h : Kept s0 s) :
    KeptAns s0 (execFaultEntry s) := by
  unfold execFaultEntry
  with_reducible repeat' first
    | assumption
    | apply KeptAns.next
    | (apply KeptAns.ite <;> intro)
    | apply State.atBoundary_kept
    | apply State.enterFault_kept
    | (apply Kept.ite <;> intro)
    | (apply Kept.ite_fst <;> intro)
    | (refine Kept.fst (by assumption) ?_)
    | (refine Kept.snd (by assumption) ?_)
    | (apply Kept.foldl <;> intros)
    | (apply Kept.foldl_fst <;> intros)
    | dsimp only
    | split
    | apply Kept.upd

theorem execThermalTrip_kept {s0 s : State} (h : Kept s0 s) (tj : Int) :
    KeptAns s0 (execThermalTrip tj s) := by
  unfold execThermalTrip
  with_reducible repeat' first
    | assumption
    | apply KeptAns.next
    | (apply KeptAns.ite <;> intro)
    | apply State.faultCause_kept
    | apply State.setInt_kept
    | (apply Kept.ite <;> intro)
    | (refine Kept.fst (by assumption) ?_)
    | (refine Kept.snd (by assumption) ?_)
    | dsimp only
    | split
    | apply Kept.upd

theorem execSupplyFault_kept {s0 s : State} (h : Kept s0 s) (rail : Nat) :
    KeptAns s0 (execSupplyFault rail s) := by
  unfold execSupplyFault
  with_reducible repeat' first
    | assumption
    | apply KeptAns.next
    | (apply KeptAns.ite <;> intro)
    | apply State.faultCause_kept
    | apply State.setObj_kept
    | (refine Kept.fst (by assumption) ?_)
    | (refine Kept.snd (by assumption) ?_)
    | dsimp only
    | split
    | apply Kept.upd

theorem State.startUp_kept {s0 s : State} (h : Kept s0 s) (kind micros : Nat) (t : Tick) :
    Kept s0 (State.startUp s kind micros t) := by
  unfold State.startUp
  with_reducible repeat' first
    | assumption
    | apply State.enterFault_kept
    | apply State.jSystem_kept
    | apply State.restartPins_kept
    | apply State.setDev_kept
    | apply State.setObj_kept
    | apply State.setObjs_kept
    | apply State.startCores_kept
    | apply State.startFrontEnds_kept
    | (apply Kept.ite <;> intro)
    | (apply Kept.ite_fst <;> intro)
    | (refine Kept.fst (by assumption) ?_)
    | (refine Kept.snd (by assumption) ?_)
    | (apply Kept.foldl <;> intros)
    | (apply Kept.foldl_fst <;> intros)
    | dsimp only
    | split
    | apply Kept.upd

theorem execStandbyEntry_kept {s0 s : State} (h : Kept s0 s) (micros : Nat) (_a1 _a2 : Blank) :
    KeptAns s0 (execStandbyEntry micros _a1 _a2 s) := by
  unfold execStandbyEntry
  with_reducible repeat' first
    | assumption
    | apply KeptAns.next
    | (apply KeptAns.ite <;> intro)
    | apply State.acquire_kept
    | apply State.marchTest_kept
    | apply State.newPoint_kept
    | apply State.setObj_kept
    | apply State.setSynth_kept
    | apply State.setTime_kept
    | apply State.startUp_kept
    | (apply Kept.ite <;> intro)
    | (apply Kept.ite_fst <;> intro)
    | (refine Kept.fst (by assumption) ?_)
    | (refine Kept.snd (by assumption) ?_)
    | (apply Kept.foldl <;> intros)
    | (apply Kept.foldl_fst <;> intros)
    | dsimp only
    | split
    | apply Kept.upd

theorem State.resetServed_kept {s0 s : State} (h : Kept s0 s) (kind : Nat) :
    Kept s0 (State.resetServed s kind) := by
  unfold State.resetServed
  with_reducible repeat' first
    | assumption
    | (refine Kept.fst (by assumption) ?_)
    | (refine Kept.snd (by assumption) ?_)
    | dsimp only
    | split
    | apply Kept.upd

theorem State.flushLanding_kept {s0 s : State} (h : Kept s0 s) (u : Tick) :
    Kept s0 (State.flushLanding s u) := by
  unfold State.flushLanding
  with_reducible repeat' first
    | assumption
    | apply State.finish_kept
    | (refine Kept.fst (by assumption) ?_)
    | (refine Kept.snd (by assumption) ?_)
    | (apply Kept.foldl <;> intros)
    | dsimp only
    | split
    | apply Kept.upd

theorem State.planeDone_kept {s0 s : State} (h : Kept s0 s) (kind : Nat) (t : Tick) :
    Kept s0 (State.planeDone s kind t) := by
  unfold State.planeDone
  with_reducible repeat' first
    | assumption
    | apply State.jSystem_kept
    | apply State.resetServed_kept
    | apply State.setObj_kept

theorem State.flushEvents_kept {s0 s : State} (h : Kept s0 s) :
    Kept s0 (State.flushEvents s) := by
  unfold State.flushEvents
  with_reducible repeat' first
    | assumption
    | apply State.bump_kept
    | apply State.setBb_kept
    | (apply Kept.ite <;> intro)
    | (apply Kept.ite_fst <;> intro)
    | (refine Kept.fst (by assumption) ?_)
    | (refine Kept.snd (by assumption) ?_)
    | (apply Kept.foldl <;> intros)
    | (apply Kept.foldl_fst <;> intros)
    | dsimp only
    | split
    | apply Kept.upd

theorem execWarmReset_kept {s0 s : State} (h : Kept s0 s) : KeptAns s0 (execWarmReset s) := by
  unfold execWarmReset
  refine KeptAns.ite (fun _ => h) fun _ => ?_
  extract_lets t sb s1 s2 usable r z z1 l z2
  have h1 : Kept s0 s1 := Kept.foldl _ _ (State.atBoundary_kept h) fun _ _ hv => State.endPortSessions_kept hv _ _
  have h2 : Kept s0 s2 :=
    State.mute_kept (State.flushEvents_kept (Kept.foldl _ _ h1 fun _ _ hv => State.flushHoop_kept hv _)) _
  clear_value s2
  have hz : Kept s0 z := HeartKept.trans h2 ⟨rfl, rfl, FusesKept.refl _, List.prefix_refl _, id,
    fun _ => ⟨rfl, fun _ hc => absurd hc List.not_mem_nil⟩, Dict.wf_filter _, id⟩
  clear_value z
  have hz1 : Kept s0 z1 := State.setDev_kept (State.setObj_kept (State.setObjs_kept hz _) _ _) _ _
  have hz2 : Kept s0 z2 := Kept.ite (fun _ => hz1) (fun _ => State.relock_kept (State.setObj_kept hz1 _ _) _ _ _)
  exact KeptAns.next (State.acquire_kept hz2 _)

theorem execWarmResetEnd_kept {s0 s : State} (h : Kept s0 s) (micros : Nat) (_a1 _a2 : Blank) :
    KeptAns s0 (execWarmResetEnd micros _a1 _a2 s) := by
  unfold execWarmResetEnd
  with_reducible repeat' first
    | assumption
    | apply KeptAns.next
    | (apply KeptAns.ite <;> intro)
    | apply State.marchTest_kept
    | apply State.startUp_kept
    | (apply Kept.ite <;> intro)
    | (apply Kept.ite_fst <;> intro)
    | (refine Kept.fst (by assumption) ?_)
    | (refine Kept.snd (by assumption) ?_)
    | (apply Kept.foldl <;> intros)
    | (apply Kept.foldl_fst <;> intros)
    | dsimp only
    | split
    | apply Kept.upd

theorem execControlReset_kept {s0 s : State} (h : Kept s0 s) :
    KeptAns s0 (execControlReset s) := by
  unfold execControlReset
  with_reducible repeat' first
    | assumption
    | apply KeptAns.next
    | (apply KeptAns.ite <;> intro)
    | apply Acting.foldl_kept
    | apply State.atBoundary_kept
    | apply State.cancelAll_kept
    | apply State.clearBusy_kept
    | apply State.endPortSessions_kept
    | apply State.flushHoop_kept
    | apply State.flushLanding_kept
    | apply State.planeDone_kept
    | apply State.setDom_kept
    | apply State.setObj_kept
    | apply State.setPort_kept
    | (apply Kept.ite <;> intro)
    | (apply Kept.ite_fst <;> intro)
    | (refine Kept.fst (by assumption) ?_)
    | (refine Kept.snd (by assumption) ?_)
    | (apply Kept.foldl <;> intros)
    | (apply Kept.foldl_fst <;> intros)
    | dsimp only
    | split
    | apply Kept.upd

theorem execDataReset_kept {s0 s : State} (h : Kept s0 s) :
    KeptAns s0 (execDataReset s) := by
  unfold execDataReset
  with_reducible repeat' first
    | assumption
    | apply KeptAns.next
    | (apply KeptAns.ite <;> intro)
    | apply Acting.foldl_kept
    | apply State.atBoundary_kept
    | apply State.clearFlows_kept
    | apply State.devSync_kept
    | apply State.flushEvents_kept
    | apply State.planeDone_kept
    | apply State.restartLanes_kept
    | apply State.restartPins_kept
    | apply State.revoke_kept
    | apply State.setObj_kept
    | apply State.startFrontEnds_kept
    | apply State.stopBobbin_kept
    | apply State.stopCapture_kept
    | (apply Kept.ite <;> intro)
    | (apply Kept.ite_fst <;> intro)
    | (refine Kept.fst (by assumption) ?_)
    | (refine Kept.snd (by assumption) ?_)
    | (apply Kept.foldl <;> intros)
    | (apply Kept.foldl_fst <;> intros)
    | dsimp only
    | split
    | apply Kept.upd

theorem execManagementReset_kept {s0 s : State} (h : Kept s0 s) :
    KeptAns s0 (execManagementReset s) := by
  unfold execManagementReset
  with_reducible repeat' first
    | assumption
    | apply KeptAns.next
    | (apply KeptAns.ite <;> intro)
    | apply Acting.foldl_kept
    | apply State.abortJobs_kept
    | apply State.atBoundary_kept
    | apply State.dropTransfers_kept
    | apply State.flushHoop_kept
    | apply State.mute_kept
    | apply State.planeDone_kept
    | apply State.resetCore_kept
    | apply State.resetHolder_kept
    | apply State.setPort_kept
    | apply State.startCores_kept
    | (apply Kept.ite <;> intro)
    | (apply Kept.ite_fst <;> intro)
    | (refine Kept.fst (by assumption) ?_)
    | (refine Kept.snd (by assumption) ?_)
    | (apply Kept.foldl <;> intros)
    | (apply Kept.foldl_fst <;> intros)
    | dsimp only
    | split
    | apply Kept.upd

end Sys2Proof.Machine
end

