-- ==== Sys2Proof/Laws/KeepNet.lean ====
section
/-! SUPPORT. What the operations of Machine/Net.lean keep. -/

namespace Sys2Proof.Machine

theorem State.countDrop_kept {s0 s : State} (h : Kept s0 s) (sub : Option Nat) :
    Kept s0 (State.countDrop s sub) := by
  unfold State.countDrop
  with_reducible repeat' first
    | assumption
    | apply State.bump_kept
    | (refine Kept.fst (by assumption) ?_)
    | (refine Kept.snd (by assumption) ?_)
    | dsimp only
    | split

theorem State.originate_kept {s0 s : State} (h : Kept s0 s) (sub : Option Nat) (dest : Bytes) (udp : Nat) (data : Bytes) :
    Kept s0 (State.originate s sub dest udp data) := by
  unfold State.originate
  with_reducible repeat' first
    | assumption
    | apply State.countDrop_kept
    | apply State.emit_kept
    | apply State.resolve_kept
    | (apply Kept.ite <;> intro)
    | (refine Kept.fst (by assumption) ?_)
    | (refine Kept.snd (by assumption) ?_)
    | dsimp only
    | split
    | apply Kept.upd

theorem execNextHopReply_kept {s0 s : State} (h : Kept s0 s) (d : NetIn) :
    KeptAns s0 (execNextHopReply d s) := by
  unfold execNextHopReply
  with_reducible repeat' first
    | assumption
    | apply KeptAns.next
    | (apply KeptAns.ite <;> intro)
    | apply State.emit_kept
    | (refine Kept.fst (by assumption) ?_)
    | (refine Kept.snd (by assumption) ?_)
    | (apply Kept.foldl <;> intros)
    | dsimp only
    | split
    | apply Kept.upd

theorem execNextHopRetry_kept {s0 s : State} (h : Kept s0 s) (addr : Bytes) :
    KeptAns s0 (execNextHopRetry addr s) := by
  unfold execNextHopRetry
  with_reducible repeat' first
    | assumption
    | apply KeptAns.next
    | (apply KeptAns.ite <;> intro)
    | apply State.countDrop_kept
    | apply State.emit_kept
    | apply State.resolve_kept
    | (refine Kept.fst (by assumption) ?_)
    | (refine Kept.snd (by assumption) ?_)
    | (apply Kept.foldl <;> intros)
    | dsimp only
    | split
    | apply Kept.upd

theorem execNextHopExpiry_kept {s0 s : State} (h : Kept s0 s) (addr : Bytes) :
    KeptAns s0 (execNextHopExpiry addr s) := by
  unfold execNextHopExpiry
  with_reducible repeat' first
    | assumption
    | apply KeptAns.next
    | (apply KeptAns.ite <;> intro)
    | apply State.emit_kept
    | apply State.resolve_kept
    | (refine Kept.fst (by assumption) ?_)
    | (refine Kept.snd (by assumption) ?_)
    | dsimp only
    | split
    | apply Kept.upd

theorem execDatagramDiscard_kept {s0 s : State} (h : Kept s0 s) (_a0 : NetIn) (_a1 : Bool) :
    KeptAns s0 (execDatagramDiscard _a0 _a1 s) := by
  unfold execDatagramDiscard
  with_reducible repeat' first
    | assumption
    | apply KeptAns.next

theorem execVdpCommand_kept {s0 s : State} (h : Kept s0 s) (d : NetIn) :
    KeptAns s0 (execVdpCommand d s) := by
  unfold execVdpCommand
  with_reducible repeat' first
    | assumption
    | apply KeptAns.next
    | (apply KeptAns.ite <;> intro)
    | apply State.rewound_kept
    | (refine Kept.fst (by assumption) ?_)
    | (refine Kept.snd (by assumption) ?_)
    | dsimp only
    | split
    | apply Kept.upd

theorem execArpRequest_kept {s0 s : State} (h : Kept s0 s) (d : NetIn) :
    KeptAns s0 (execArpRequest d s) := by
  unfold execArpRequest
  with_reducible repeat' first
    | assumption
    | apply KeptAns.next
    | (apply KeptAns.ite <;> intro)
    | apply State.emit_kept

theorem execNeighbourSolicitation_kept {s0 s : State} (h : Kept s0 s) (d : NetIn) :
    KeptAns s0 (execNeighbourSolicitation d s) := by
  unfold execNeighbourSolicitation
  with_reducible repeat' first
    | assumption
    | apply KeptAns.next
    | (apply KeptAns.ite <;> intro)
    | apply State.emit_kept

theorem execIcmpEchoRequest_kept {s0 s : State} (h : Kept s0 s) (d : NetIn) :
    KeptAns s0 (execIcmpEchoRequest d s) := by
  unfold execIcmpEchoRequest
  with_reducible repeat' first
    | assumption
    | apply KeptAns.next
    | (apply KeptAns.ite <;> intro)
    | apply State.emit_kept

theorem execNotificationSend_kept {s0 s : State} (h : Kept s0 s) (sub : Nat) :
    KeptAns s0 (execNotificationSend sub s) := by
  unfold execNotificationSend
  with_reducible repeat' first
    | assumption
    | apply KeptAns.next
    | (apply KeptAns.ite <;> intro)
    | apply State.originate_kept
    | apply State.rest_kept
    | (refine Kept.fst (by assumption) ?_)
    | (refine Kept.snd (by assumption) ?_)
    | dsimp only
    | split
    | apply Kept.upd

theorem execSgmiiSync_kept {s0 s : State} (h : Kept s0 s) :
    KeptAns s0 (execSgmiiSync s) := by
  unfold execSgmiiSync
  with_reducible repeat' first
    | assumption
    | apply KeptAns.next
    | (apply KeptAns.ite <;> intro)
    | (refine Kept.fst (by assumption) ?_)
    | (refine Kept.snd (by assumption) ?_)
    | dsimp only
    | split
    | apply Kept.upd

theorem execSgmiiSyncLoss_kept {s0 s : State} (h : Kept s0 s) :
    KeptAns s0 (execSgmiiSyncLoss s) := by
  unfold execSgmiiSyncLoss
  with_reducible repeat' first
    | assumption
    | apply KeptAns.next
    | (apply KeptAns.ite <;> intro)
    | apply State.endPortSessions_kept
    | apply State.flushHoop_kept
    | (refine Kept.fst (by assumption) ?_)
    | (refine Kept.snd (by assumption) ?_)
    | dsimp only
    | split
    | apply Kept.upd

end Sys2Proof.Machine
end

