-- ==== Sys2Proof/Laws/KeepWatch.lean ====
section
/-! SUPPORT. What the operations of Machine/Watch.lean keep. -/

namespace Sys2Proof.Machine

theorem State.ownPacket_kept {s0 s : State} (h : Kept s0 s) (core : Nat) (raw : Bytes) (f : Accepted → State → State)
    (hf : ∀ a v, Kept s0 v → Kept s0 (f a v)) : Kept s0 (State.ownPacket s core raw f) := by
  unfold State.ownPacket
  with_reducible repeat' first
    | assumption
    | apply hf
    | apply State.admission_kept
    | (refine Kept.fst (by assumption) ?_)
    | dsimp only
    | split

theorem State.ownWrite_kept {s0 s : State} (h : Kept s0 s) (core : Nat) (k : Key) (v : Bytes) :
    Kept s0 (State.ownWrite s core k v) := by
  unfold State.ownWrite
  with_reducible repeat' first
    | assumption
    | apply State.fresh_kept
    | apply State.writeCmd_kept
    | (refine State.ownPacket_kept ?_ _ _ _ (fun _ _ _ => ?_))

theorem State.ownCommit_kept {s0 s : State} (h : Kept s0 s) (core : Nat) :
    Kept s0 (State.ownCommit s core) := by
  unfold State.ownCommit
  with_reducible repeat' first
    | assumption
    | apply State.fresh_kept
    | apply State.takeCommit_kept
    | (refine State.ownPacket_kept ?_ _ _ _ (fun _ _ _ => ?_))

theorem State.ownWrites_kept {s0 s : State} (h : Kept s0 s) (core : Nat) (l : List (Key × Bytes)) :
    Kept s0 (State.ownWrites s core l) := by
  unfold State.ownWrites
  with_reducible repeat' first
    | assumption
    | apply State.fresh_kept
    | apply State.writeCmd_kept
    | (refine State.ownPacket_kept ?_ _ _ _ (fun _ _ _ => ?_))
    | (apply Kept.ite <;> intro)
    | (apply Kept.ite_fst <;> intro)
    | (refine Kept.fst (by assumption) ?_)
    | (refine Kept.snd (by assumption) ?_)
    | (apply Kept.foldl <;> intros)
    | (apply Kept.foldl_fst <;> intros)
    | dsimp only
    | split
    | apply Kept.upd

theorem State.configTick_kept {s0 s : State} (h : Kept s0 s) :
    Kept s0 (State.configTick s) := by
  unfold State.configTick
  with_reducible repeat' first
    | assumption
    | apply State.ownCommit_kept
    | apply State.ownWrites_kept
    | apply State.setObj_kept
    | (apply Kept.ite <;> intro)
    | (apply Kept.ite_fst <;> intro)
    | (refine Kept.fst (by assumption) ?_)
    | (refine Kept.snd (by assumption) ?_)
    | (apply Kept.foldl <;> intros)
    | (apply Kept.foldl_fst <;> intros)
    | dsimp only
    | split
    | apply Kept.upd

theorem State.watchRun_kept {s0 s : State} (h : Kept s0 s) (q run : Nat) :
    Kept s0 (State.watchRun s q run) := by
  unfold State.watchRun
  with_reducible repeat' first
    | assumption
    | apply State.ownCommit_kept
    | apply State.ownWrite_kept

theorem State.watchNext_kept {s0 s : State} (h : Kept s0 s) (w q : Nat) :
    Kept s0 (State.watchNext s w q) := by
  unfold State.watchNext
  with_reducible repeat' first
    | assumption
    | apply State.bump_kept
    | apply State.serviceNote_kept
    | apply State.setObj_kept
    | apply State.watchRun_kept

theorem State.watchLive_kept {s0 s : State} (h : Kept s0 s) (w : Nat) :
    Kept s0 (State.watchLive s w) := by
  unfold State.watchLive
  with_reducible repeat' first
    | assumption
    | apply State.ownWrite_kept
    | apply State.serviceNote_kept
    | apply State.setObj_kept
    | apply State.watchNext_kept
    | apply State.watchRun_kept
    | (apply Kept.ite <;> intro)
    | (refine Kept.fst (by assumption) ?_)
    | (refine Kept.snd (by assumption) ?_)
    | dsimp only
    | split

theorem execWatchPoll_kept {s0 s : State} (h : Kept s0 s) (entry : Nat) :
    KeptAns s0 (execWatchPoll entry s) := by
  unfold execWatchPoll
  with_reducible repeat' first
    | assumption
    | apply KeptAns.next
    | (apply KeptAns.ite <;> intro)
    | apply State.setObj_kept
    | apply State.watchLive_kept
    | apply State.watchRun_kept
    | (apply Kept.ite <;> intro)

theorem State.setStream_kept {s0 s : State} (h : Kept s0 s) (k : Nat) (x : StreamRun) :
    Kept s0 (State.setStream s k x) := by
  unfold State.setStream
  with_reducible repeat' first
    | assumption
    | (refine Kept.fst (by assumption) ?_)
    | (refine Kept.snd (by assumption) ?_)
    | dsimp only
    | split
    | apply Kept.upd

theorem State.streamJob_kept {s0 s : State} (h : Kept s0 s) (desc : Nat → Bytes) :
    Kept s0 ((State.streamJob s desc).2) := by
  unfold State.streamJob
  with_reducible repeat' first
    | assumption
    | apply State.fresh_kept
    | apply State.ownWrite_kept
    | (refine Kept.fst (by assumption) ?_)
    | (refine Kept.snd (by assumption) ?_)
    | dsimp only
    | split

theorem State.streamStart_kept {s0 s : State} (h : Kept s0 s) (k : Nat) (x : StreamRun) :
    Kept s0 (State.streamStart s k x) := by
  unfold State.streamStart
  with_reducible repeat' first
    | assumption
    | apply State.rest_kept
    | apply State.setStream_kept
    | apply State.streamJob_kept
    | (refine Kept.fst (by assumption) ?_)
    | (refine Kept.snd (by assumption) ?_)
    | dsimp only
    | split

theorem State.streamTake_kept {s0 s : State} (h : Kept s0 s) (k ix : Nat) (x : StreamRun) :
    Kept s0 (State.streamTake s k ix x) := by
  unfold State.streamTake
  with_reducible repeat' first
    | assumption
    | apply State.setStream_kept
    | apply State.streamJob_kept
    | (apply Kept.ite <;> intro)
    | (refine Kept.fst (by assumption) ?_)
    | (refine Kept.snd (by assumption) ?_)
    | dsimp only
    | split

theorem State.streamAnswer_kept {s0 s : State} (h : Kept s0 s) (k : Nat) :
    Kept s0 (State.streamAnswer s k) := by
  unfold State.streamAnswer
  with_reducible repeat' first
    | assumption
    | apply State.setStream_kept
    | (apply Kept.ite <;> intro)
    | (apply Kept.ite_fst <;> intro)
    | (refine Kept.fst (by assumption) ?_)
    | (refine Kept.snd (by assumption) ?_)
    | (apply Kept.foldl <;> intros)
    | (apply Kept.foldl_fst <;> intros)
    | dsimp only
    | split
    | apply Kept.upd

theorem execStreamExport_kept {s0 s : State} (h : Kept s0 s) (entry : Nat) :
    KeptAns s0 (execStreamExport entry s) := by
  unfold execStreamExport
  with_reducible repeat' first
    | assumption
    | apply KeptAns.next
    | (apply KeptAns.ite <;> intro)
    | apply State.streamAnswer_kept
    | apply State.streamStart_kept
    | apply State.streamTake_kept
    | (apply Kept.ite <;> intro)
    | (apply Kept.ite_fst <;> intro)
    | (refine Kept.fst (by assumption) ?_)
    | (refine Kept.snd (by assumption) ?_)
    | (apply Kept.foldl <;> intros)
    | (apply Kept.foldl_fst <;> intros)
    | dsimp only
    | split
    | apply Kept.upd

theorem execStreamSend_kept {s0 s : State} (h : Kept s0 s) (entry : Nat) :
    KeptAns s0 (execStreamSend entry s) := by
  unfold execStreamSend
  with_reducible repeat' first
    | assumption
    | apply KeptAns.next
    | (apply KeptAns.ite <;> intro)
    | apply State.bump_kept
    | apply State.originate_kept
    | apply State.serviceNote_kept
    | apply State.setStream_kept
    | (refine Kept.fst (by assumption) ?_)
    | (refine Kept.snd (by assumption) ?_)
    | dsimp only
    | split

end Sys2Proof.Machine
end

