-- ==== Sys2Proof/Laws/KeepTick.lean ====
section
/-! SUPPORT. What the operations of Machine/Tick.lean keep. -/

namespace Sys2Proof.Machine

theorem State.cmmTick_kept {s0 s : State} (h : Kept s0 s) (fails : List (Nat × Nat)) (u : Tick) :
    Kept s0 (State.cmmTick s fails u) := by
  unfold State.cmmTick
  with_reducible repeat' first
    | assumption
    | apply Acting.foldl_kept
    | apply State.dropPast_kept
    | apply State.dropWaiting_kept
    | apply State.flushInbox_kept
    | apply State.fullBlocks_kept
    | apply State.padStopped_kept
    | apply State.takeAction_kept
    | apply State.trim_kept
    | (apply Kept.ite <;> intro)
    | (apply Kept.ite_fst <;> intro)
    | (refine Kept.fst (by assumption) ?_)
    | (refine Kept.snd (by assumption) ?_)
    | (apply Kept.foldl <;> intros)
    | (apply Kept.foldl_fst <;> intros)
    | dsimp only
    | split
    | apply Kept.upd

theorem State.closeTick_kept {s0 s : State} (h : Kept s0 s) :
    Kept s0 (State.closeTick s) := by
  unfold State.closeTick
  with_reducible repeat' first
    | assumption
    | apply State.decClose_kept
    | apply State.writeGrants_kept
    | (apply Kept.ite <;> intro)
    | (apply Kept.ite_fst <;> intro)
    | (refine Kept.fst (by assumption) ?_)
    | (refine Kept.snd (by assumption) ?_)
    | (apply Kept.foldl <;> intros)
    | (apply Kept.foldl_fst <;> intros)
    | dsimp only
    | split
    | apply Kept.upd

theorem State.dataTick_kept {s0 s : State} (h : Kept s0 s) (inp : TickInput) (u : Tick) :
    Kept s0 (State.dataTick s inp u) := by
  unfold State.dataTick
  with_reducible repeat' first
    | assumption
    | apply State.bobbinsTick_kept
    | apply State.cmmTick_kept
    | apply State.decTick_kept
    | apply State.historyTick_kept
    | apply State.laneTick_kept
    | apply State.lcTick_kept
    | apply State.linkTick_kept
    | apply State.unitsTick_kept
    | (apply Kept.ite <;> intro)
    | (apply Kept.ite_fst <;> intro)
    | (refine Kept.fst (by assumption) ?_)
    | (refine Kept.snd (by assumption) ?_)
    | (apply Kept.foldl <;> intros)
    | (apply Kept.foldl_fst <;> intros)
    | dsimp only
    | split
    | apply Kept.upd

theorem State.railRead_kept {s0 s : State} (h : Kept s0 s) (k : Nat) (mv : Int) :
    Kept s0 (State.railRead s k mv) := by
  unfold State.railRead
  with_reducible repeat' first
    | assumption
    | apply State.setInt_kept
    | apply State.setObj_kept
    | (apply Kept.ite <;> intro)

theorem State.clockInput_kept {s0 s : State} (h : Kept s0 s) (inp : TickInput) : Kept s0 (State.clockInput s inp) := by
  have hb : Kept s0 ((inp.pfd.foldl State.pfd s).bump Obj.synTTickFenceCount inp.fences) :=
    State.bump_kept (Kept.foldl _ _ h fun _ _ hv => State.pfd_kept hv _) _ _
  unfold State.clockInput
  extract_lets b u
  have hu : Kept s0 u := Kept.ite (fun _ => Kept.foldl _ _ hb fun _ _ hv => State.upsetMem_kept hv _ _) fun _ => hb
  exact Kept.same _ (Kept.fuses _ hu { u.otp with defects := u.otp.defects ++ inp.defects }
    ⟨rfl, .inr rfl, Nat.or_self _, Nat.le_refl _, List.prefix_refl _, List.prefix_refl _, List.prefix_append _ _⟩) rfl

theorem State.senseTick_kept {s0 s : State} (h : Kept s0 s) (inp : TickInput) (u : Tick) :
    Kept s0 (State.senseTick s inp u) := by
  unfold State.senseTick
  with_reducible repeat' first
    | assumption
    | apply State.railRead_kept
    | apply State.setInt_kept
    | apply State.sramTick_kept
    | apply State.sweep_kept
    | (apply Kept.ite <;> intro)
    | (apply Kept.ite_fst <;> intro)
    | (refine Kept.fst (by assumption) ?_)
    | (refine Kept.snd (by assumption) ?_)
    | (apply Kept.foldl <;> intros)
    | (apply Kept.foldl_fst <;> intros)
    | dsimp only
    | split
    | apply Kept.upd

theorem State.runParked_kept {s0 s : State} (h : Kept s0 s) (p : Parked) :
    Kept s0 (State.runParked s p) := by
  unfold State.runParked
  with_reducible repeat' first
    | assumption
    | apply State.postpone_kept
    | apply State.takeAlloc_kept
    | apply State.takeBar2_kept
    | apply State.takeFrame_kept
    | apply State.takeVisit_kept
    | apply State.takeWord_kept
    | (apply Kept.ite <;> intro)
    | (apply Kept.ite_fst <;> intro)
    | (refine Kept.fst (by assumption) ?_)
    | (refine Kept.snd (by assumption) ?_)
    | (apply Kept.foldl <;> intros)
    | (apply Kept.foldl_fst <;> intros)
    | dsimp only
    | split
    | apply Kept.upd

theorem State.unpark_kept {s0 s : State} (h : Kept s0 s) :
    Kept s0 (State.unpark s) := by
  unfold State.unpark
  with_reducible repeat' first
    | assumption
    | apply State.runParked_kept
    | (apply Kept.ite <;> intro)
    | (apply Kept.ite_fst <;> intro)
    | (refine Kept.fst (by assumption) ?_)
    | (refine Kept.snd (by assumption) ?_)
    | (apply Kept.foldl <;> intros)
    | (apply Kept.foldl_fst <;> intros)
    | dsimp only
    | split
    | apply Kept.upd

end Sys2Proof.Machine
end

