-- ==== Sys2Proof/Laws/KeepExec.lean ====
section
/-! SUPPORT. What the three commands keep that set the tick counter: TICK, TICK_LOAD and POWER_ON_RESET. -/

namespace Sys2Proof.Machine

/-- Keeping does not depend on the count itself. -/
theorem Kept.retick {s t : State} (h : Kept s t) (n : Nat) : Kept { s with tick := n } { t with tick := n } := by
  have g : HeartKept s.heart t.heart := h
  exact ⟨g.pending, rfl, g.fuses, g.out, g.mem, g.shm, g.dict, g.journal⟩

/-- A tick opens with its own count. -/
theorem State.openTick_kept (s : State) (u : Tick) : Kept { s with tick := u } (s.openTick u) := by
  have h := Kept.retick (State.revokeGone_kept (State.flushLanding_kept (State.jTick_kept (Kept.refl s)) u) u) u
  unfold State.openTick
  generalize (s.jTick.flushLanding u).revokeGone u = v at h ⊢
  exact h

theorem State.pfd_time (s : State) (i : Nat) : (s.pfd i).time = s.time := by
  unfold State.pfd; split <;> rfl

theorem State.setMemBytes_time (s : State) (a : Nat) (b : Bytes) : (s.setMemBytes a b).time = s.time := by
  induction b generalizing s a with
  | nil => rfl
  | cons x b ih => exact ih (s.setMem a x) (a + 1)

theorem State.upsetMem_time (s : State) (n : Nat) (two : Bool) : (s.upsetMem n two).time = s.time := by
  unfold State.upsetMem
  split
  · rfl
  · exact State.setMemBytes_time ..

/-- A fold of steps that leave the timebase leaves it. -/
theorem State.foldl_time {α : Type} (f : State → α → State) (hf : ∀ s x, (f s x).time = s.time) (l : List α) (s : State) :
    (l.foldl f s).time = s.time := by
  induction l generalizing s with
  | nil => rfl
  | cons i l ih => rw [List.foldl_cons, ih, hf]

/-- The clocks' input leaves the timebase. -/
theorem State.clockInput_time (s : State) (inp : TickInput) : (s.clockInput inp).time = s.time := by
  unfold State.clockInput
  extract_lets b u
  have hb : b.time = s.time := State.foldl_time _ State.pfd_time _ s
  have hu : u.time = b.time := by
    show State.time (if _ then _ else _) = _
    split
    · exact State.foldl_time _ (fun s (e : Nat × Bool) => State.upsetMem_time s e.1 e.2) _ b
    · rfl
  exact hu.trans hb

/-- The clocks' input leaves the count. -/
theorem State.clockInput_tick (s : State) (inp : TickInput) : (s.clockInput inp).tick = s.tick := (State.clockInput_kept (Kept.refl s) inp).tick

/-- TICK counts one tick and keeps the rest. -/
theorem execTick_kept (inp : TickInput) (s : State) (h : s.time.counting = true) :
    KeptAns { s with tick := s.tick + 1 } (execTick inp s) := by
  unfold execTick
  extract_lets s0 u s1 s2
  have ht : s0.time = s.time := State.clockInput_time s inp
  have hu : u = s.tick + 1 := congrArg (· + 1) (State.clockInput_tick s inp)
  have hb : Kept s s0.countCyc.closeTick.atBoundary :=
    State.atBoundary_kept (State.closeTick_kept (State.countCyc_kept (State.clockInput_kept (Kept.refl s) inp)))
  have h0 : Kept { s with tick := s.tick + 1 } { s0.countCyc.closeTick.atBoundary with tick := u } := hu ▸ Kept.retick hb u
  refine KeptAns.ite (fun hc => by rw [ht] at hc; simp [h] at hc) fun _ => ?_
  have h1 : Kept { s with tick := s.tick + 1 } s1 :=
    State.samplePins_kept (State.joinFlags_kept (State.clocksTick_kept (h0.trans (State.openTick_kept _ u)) _)) _
  clear_value s1
  have h2 : Kept { s with tick := s.tick + 1 } s2 := Kept.ite (fun _ => State.dataTick_kept h1 _ _) (fun _ => State.ballsOnly_kept h1 _)
  clear_value s2
  exact KeptAns.next (State.configTick_kept (State.senseTick_kept (State.unpark_kept (State.jobTick_kept (State.lockTick_kept
    (State.mailTick_kept (State.sramTick_kept h2 _ _) _) _) _)) _ _))

/-- Before SYN-T has locked no tick is counted. -/
theorem execTick_stopped (inp : TickInput) (s : State) (h : s.time.counting = false) : execTick inp s = .next (s.clockInput inp) := by
  simp [execTick, State.clockInput_time, h]

/-- A load renumbers the ticks and keeps the rest. -/
theorem State.shiftTicks_kept (s : State) (d : Int) : Kept { s with tick := moveTick d s.tick } (s.shiftTicks d) :=
  Kept.same { s with tick := moveTick d s.tick } (Kept.refl _) rfl

/-- TICK_LOAD gives the counter a new count and keeps the rest. -/
theorem execTickLoad_kept (s t : State) (h : execTickLoad s = .next t) : ∃ n, Kept { s with tick := n } t := by
  unfold execTickLoad at h
  split at h
  · cases h
    exact ⟨s.tick, Kept.refl s⟩
  · next u hu =>
    cases h
    unfold State.tickLoad at hu
    dsimp only at hu
    split at hu
    · cases hu
    · split at hu
      · cases hu
      · next l _ _ =>
        refine ⟨moveTick (loadTicks l) s.tick, State.cancelAll_kept ?_ _ _ _⟩
        cases hu
        exact State.takeMapping_kept (State.qualify_kept (State.alignTo_kept (State.setCasc_kept (State.shiftTicks_kept s _) _ _) _ _) _ _) _

/-- POWER_ON_RESET sets the counter to zero and keeps the fuses, the queue and what has left. -/
theorem execPowerOnReset_kept (straps : Nat) (s : State) : KeptAns { s with tick := 0 } (execPowerOnReset straps s) := by
  unfold execPowerOnReset
  extract_lets z0 z1 z2 z3
  have h0 : Kept { s with tick := 0 } z0 := ⟨rfl, rfl, FusesKept.refl _, List.prefix_refl _, fun _ => ⟨rfl, fun _ hc => absurd hc List.not_mem_nil⟩,
    fun _ => ⟨rfl, fun _ hc => absurd hc List.not_mem_nil⟩, fun _ => ⟨rfl, fun _ hc => absurd hc List.not_mem_nil⟩, fun _ => Nat.zero_le _⟩
  clear_value z0
  have h2 : Kept { s with tick := 0 } z2 :=
    Kept.foldl _ _ (State.setDom_kept (State.setObjs_kept h0 _) _ _) fun _ _ hv => State.assignSpare_kept hv _ _ _
  have h3 : Kept { s with tick := 0 } z3 := Kept.foldl _ _ h2 fun _ _ hv => State.setObj_kept (State.setObj_kept hv _ _) _ _
  exact KeptAns.next (State.setObj_kept h3 _ _)

end Sys2Proof.Machine
end

