-- ==== Sys2Proof/Laws/State.lean ====
section
/-! SUPPORT. What each named update of State leaves: one lemma per field per update, and what an object reads after it. -/

namespace Sys2Proof.Machine

variable (s : State)

/-! setObj -/

section
variable (k : Key) (v : Nat)
@[simp] theorem State.setObj_tick : (s.setObj k v).tick = s.tick := rfl
@[simp] theorem State.setObj_doms : (s.setObj k v).doms = s.doms := rfl
@[simp] theorem State.setObj_coreDict : (s.setObj k v).coreDict = s.coreDict := rfl
@[simp] theorem State.setObj_coreDoms : (s.setObj k v).coreDoms = s.coreDoms := rfl
@[simp] theorem State.setObj_ports : (s.setObj k v).ports = s.ports := rfl
@[simp] theorem State.setObj_readBufs : (s.setObj k v).readBufs = s.readBufs := rfl
@[simp] theorem State.setObj_transfers : (s.setObj k v).transfers = s.transfers := rfl
@[simp] theorem State.setObj_landing : (s.setObj k v).landing = s.landing := rfl
@[simp] theorem State.setObj_due : (s.setObj k v).due = s.due := rfl
@[simp] theorem State.setObj_parked : (s.setObj k v).parked = s.parked := rfl
@[simp] theorem State.setObj_sessions : (s.setObj k v).sessions = s.sessions := rfl
@[simp] theorem State.setObj_draws : (s.setObj k v).draws = s.draws := rfl
@[simp] theorem State.setObj_journal : (s.setObj k v).journal = s.journal := rfl
@[simp] theorem State.setObj_mirror : (s.setObj k v).mirror = s.mirror := rfl
@[simp] theorem State.setObj_jPace : (s.setObj k v).jPace = s.jPace := rfl
@[simp] theorem State.setObj_time : (s.setObj k v).time = s.time := rfl
@[simp] theorem State.setObj_casc : (s.setObj k v).casc = s.casc := rfl
@[simp] theorem State.setObj_syn : (s.setObj k v).syn = s.syn := rfl
@[simp] theorem State.setObj_queues : (s.setObj k v).queues = s.queues := rfl
@[simp] theorem State.setObj_cmm : (s.setObj k v).cmm = s.cmm := rfl
@[simp] theorem State.setObj_mem : (s.setObj k v).mem = s.mem := rfl
@[simp] theorem State.setObj_memBad : (s.setObj k v).memBad = s.memBad := rfl
@[simp] theorem State.setObj_chans : (s.setObj k v).chans = s.chans := rfl
@[simp] theorem State.setObj_lgRr : (s.setObj k v).lgRr = s.lgRr := rfl
@[simp] theorem State.setObj_arrivals : (s.setObj k v).arrivals = s.arrivals := rfl
@[simp] theorem State.setObj_units : (s.setObj k v).units = s.units := rfl
@[simp] theorem State.setObj_cuOut : (s.setObj k v).cuOut = s.cuOut := rfl
@[simp] theorem State.setObj_rings : (s.setObj k v).rings = s.rings := rfl
@[simp] theorem State.setObj_bbs : (s.setObj k v).bbs = s.bbs := rfl
@[simp] theorem State.setObj_xs : (s.setObj k v).xs = s.xs := rfl
@[simp] theorem State.setObj_acts : (s.setObj k v).acts = s.acts := rfl
@[simp] theorem State.setObj_bbShown : (s.setObj k v).bbShown = s.bbShown := rfl
@[simp] theorem State.setObj_trigIn : (s.setObj k v).trigIn = s.trigIn := rfl
@[simp] theorem State.setObj_trigOut : (s.setObj k v).trigOut = s.trigOut := rfl
@[simp] theorem State.setObj_evLast : (s.setObj k v).evLast = s.evLast := rfl
@[simp] theorem State.setObj_evRead : (s.setObj k v).evRead = s.evRead := rfl
@[simp] theorem State.setObj_host : (s.setObj k v).host = s.host := rfl
@[simp] theorem State.setObj_hoop : (s.setObj k v).hoop = s.hoop := rfl
@[simp] theorem State.setObj_hoopFlips : (s.setObj k v).hoopFlips = s.hoopFlips := rfl
@[simp] theorem State.setObj_subQ : (s.setObj k v).subQ = s.subQ := rfl
@[simp] theorem State.setObj_otp : (s.setObj k v).otp = s.otp := rfl
@[simp] theorem State.setObj_lanes : (s.setObj k v).lanes = s.lanes := rfl
@[simp] theorem State.setObj_links : (s.setObj k v).links = s.links := rfl
@[simp] theorem State.setObj_decs : (s.setObj k v).decs = s.decs := rfl
@[simp] theorem State.setObj_eye : (s.setObj k v).eye = s.eye := rfl
@[simp] theorem State.setObj_ringClr : (s.setObj k v).ringClr = s.ringClr := rfl
@[simp] theorem State.setObj_flowLanes : (s.setObj k v).flowLanes = s.flowLanes := rfl
@[simp] theorem State.setObj_flows : (s.setObj k v).flows = s.flows := rfl
@[simp] theorem State.setObj_deferred : (s.setObj k v).deferred = s.deferred := rfl
@[simp] theorem State.setObj_jobs : (s.setObj k v).jobs = s.jobs := rfl
@[simp] theorem State.setObj_deflSlots : (s.setObj k v).deflSlots = s.deflSlots := rfl
@[simp] theorem State.setObj_jobOrder : (s.setObj k v).jobOrder = s.jobOrder := rfl
@[simp] theorem State.setObj_taken : (s.setObj k v).taken = s.taken := rfl
@[simp] theorem State.setObj_sgmii : (s.setObj k v).sgmii = s.sgmii := rfl
@[simp] theorem State.setObj_hops : (s.setObj k v).hops = s.hops := rfl
@[simp] theorem State.setObj_lock : (s.setObj k v).lock = s.lock := rfl
@[simp] theorem State.setObj_cores : (s.setObj k v).cores = s.cores := rfl
@[simp] theorem State.setObj_shm : (s.setObj k v).shm = s.shm := rfl
@[simp] theorem State.setObj_flash : (s.setObj k v).flash = s.flash := rfl
@[simp] theorem State.setObj_sigs : (s.setObj k v).sigs = s.sigs := rfl
@[simp] theorem State.setObj_streams : (s.setObj k v).streams = s.streams := rfl
@[simp] theorem State.setObj_health : (s.setObj k v).health = s.health := rfl
@[simp] theorem State.setObj_repair : (s.setObj k v).repair = s.repair := rfl
@[simp] theorem State.setObj_dev : (s.setObj k v).dev = s.dev := rfl
@[simp] theorem State.setObj_swept : (s.setObj k v).swept = s.swept := rfl
@[simp] theorem State.setObj_free : (s.setObj k v).free = s.free := rfl
@[simp] theorem State.setObj_out : (s.setObj k v).out = s.out := rfl
@[simp] theorem State.setObj_pending : (s.setObj k v).pending = s.pending := rfl
@[simp] theorem State.setObj_dom (i : Key) : (s.setObj k v).dom i = s.dom i := rfl
end

/-! setDom -/

section
variable (k : Key) (v : Bytes)
@[simp] theorem State.setDom_tick : (s.setDom k v).tick = s.tick := rfl
@[simp] theorem State.setDom_dict : (s.setDom k v).dict = s.dict := rfl
@[simp] theorem State.setDom_coreDict : (s.setDom k v).coreDict = s.coreDict := rfl
@[simp] theorem State.setDom_coreDoms : (s.setDom k v).coreDoms = s.coreDoms := rfl
@[simp] theorem State.setDom_ports : (s.setDom k v).ports = s.ports := rfl
@[simp] theorem State.setDom_readBufs : (s.setDom k v).readBufs = s.readBufs := rfl
@[simp] theorem State.setDom_transfers : (s.setDom k v).transfers = s.transfers := rfl
@[simp] theorem State.setDom_landing : (s.setDom k v).landing = s.landing := rfl
@[simp] theorem State.setDom_due : (s.setDom k v).due = s.due := rfl
@[simp] theorem State.setDom_parked : (s.setDom k v).parked = s.parked := rfl
@[simp] theorem State.setDom_sessions : (s.setDom k v).sessions = s.sessions := rfl
@[simp] theorem State.setDom_draws : (s.setDom k v).draws = s.draws := rfl
@[simp] theorem State.setDom_journal : (s.setDom k v).journal = s.journal := rfl
@[simp] theorem State.setDom_mirror : (s.setDom k v).mirror = s.mirror := rfl
@[simp] theorem State.setDom_jPace : (s.setDom k v).jPace = s.jPace := rfl
@[simp] theorem State.setDom_time : (s.setDom k v).time = s.time := rfl
@[simp] theorem State.setDom_casc : (s.setDom k v).casc = s.casc := rfl
@[simp] theorem State.setDom_syn : (s.setDom k v).syn = s.syn := rfl
@[simp] theorem State.setDom_queues : (s.setDom k v).queues = s.queues := rfl
@[simp] theorem State.setDom_cmm : (s.setDom k v).cmm = s.cmm := rfl
@[simp] theorem State.setDom_mem : (s.setDom k v).mem = s.mem := rfl
@[simp] theorem State.setDom_memBad : (s.setDom k v).memBad = s.memBad := rfl
@[simp] theorem State.setDom_chans : (s.setDom k v).chans = s.chans := rfl
@[simp] theorem State.setDom_lgRr : (s.setDom k v).lgRr = s.lgRr := rfl
@[simp] theorem State.setDom_arrivals : (s.setDom k v).arrivals = s.arrivals := rfl
@[simp] theorem State.setDom_units : (s.setDom k v).units = s.units := rfl
@[simp] theorem State.setDom_cuOut : (s.setDom k v).cuOut = s.cuOut := rfl
@[simp] theorem State.setDom_rings : (s.setDom k v).rings = s.rings := rfl
@[simp] theorem State.setDom_bbs : (s.setDom k v).bbs = s.bbs := rfl
@[simp] theorem State.setDom_xs : (s.setDom k v).xs = s.xs := rfl
@[simp] theorem State.setDom_acts : (s.setDom k v).acts = s.acts := rfl
@[simp] theorem State.setDom_bbShown : (s.setDom k v).bbShown = s.bbShown := rfl
@[simp] theorem State.setDom_trigIn : (s.setDom k v).trigIn = s.trigIn := rfl
@[simp] theorem State.setDom_trigOut : (s.setDom k v).trigOut = s.trigOut := rfl
@[simp] theorem State.setDom_evLast : (s.setDom k v).evLast = s.evLast := rfl
@[simp] theorem State.setDom_evRead : (s.setDom k v).evRead = s.evRead := rfl
@[simp] theorem State.setDom_host : (s.setDom k v).host = s.host := rfl
@[simp] theorem State.setDom_hoop : (s.setDom k v).hoop = s.hoop := rfl
@[simp] theorem State.setDom_hoopFlips : (s.setDom k v).hoopFlips = s.hoopFlips := rfl
@[simp] theorem State.setDom_subQ : (s.setDom k v).subQ = s.subQ := rfl
@[simp] theorem State.setDom_otp : (s.setDom k v).otp = s.otp := rfl
@[simp] theorem State.setDom_lanes : (s.setDom k v).lanes = s.lanes := rfl
@[simp] theorem State.setDom_links : (s.setDom k v).links = s.links := rfl
@[simp] theorem State.setDom_decs : (s.setDom k v).decs = s.decs := rfl
@[simp] theorem State.setDom_eye : (s.setDom k v).eye = s.eye := rfl
@[simp] theorem State.setDom_ringClr : (s.setDom k v).ringClr = s.ringClr := rfl
@[simp] theorem State.setDom_flowLanes : (s.setDom k v).flowLanes = s.flowLanes := rfl
@[simp] theorem State.setDom_flows : (s.setDom k v).flows = s.flows := rfl
@[simp] theorem State.setDom_deferred : (s.setDom k v).deferred = s.deferred := rfl
@[simp] theorem State.setDom_jobs : (s.setDom k v).jobs = s.jobs := rfl
@[simp] theorem State.setDom_deflSlots : (s.setDom k v).deflSlots = s.deflSlots := rfl
@[simp] theorem State.setDom_jobOrder : (s.setDom k v).jobOrder = s.jobOrder := rfl
@[simp] theorem State.setDom_taken : (s.setDom k v).taken = s.taken := rfl
@[simp] theorem State.setDom_sgmii : (s.setDom k v).sgmii = s.sgmii := rfl
@[simp] theorem State.setDom_hops : (s.setDom k v).hops = s.hops := rfl
@[simp] theorem State.setDom_lock : (s.setDom k v).lock = s.lock := rfl
@[simp] theorem State.setDom_cores : (s.setDom k v).cores = s.cores := rfl
@[simp] theorem State.setDom_shm : (s.setDom k v).shm = s.shm := rfl
@[simp] theorem State.setDom_flash : (s.setDom k v).flash = s.flash := rfl
@[simp] theorem State.setDom_sigs : (s.setDom k v).sigs = s.sigs := rfl
@[simp] theorem State.setDom_streams : (s.setDom k v).streams = s.streams := rfl
@[simp] theorem State.setDom_health : (s.setDom k v).health = s.health := rfl
@[simp] theorem State.setDom_repair : (s.setDom k v).repair = s.repair := rfl
@[simp] theorem State.setDom_dev : (s.setDom k v).dev = s.dev := rfl
@[simp] theorem State.setDom_swept : (s.setDom k v).swept = s.swept := rfl
@[simp] theorem State.setDom_free : (s.setDom k v).free = s.free := rfl
@[simp] theorem State.setDom_out : (s.setDom k v).out = s.out := rfl
@[simp] theorem State.setDom_pending : (s.setDom k v).pending = s.pending := rfl
@[simp] theorem State.setDom_obj (i : Key) : (s.setDom k v).obj i = s.obj i := rfl
end

/-! bump -/

section
variable (k : Key) (n : Nat)
@[simp] theorem State.bump_tick : (s.bump k n).tick = s.tick := rfl
@[simp] theorem State.bump_doms : (s.bump k n).doms = s.doms := rfl
@[simp] theorem State.bump_coreDict : (s.bump k n).coreDict = s.coreDict := rfl
@[simp] theorem State.bump_coreDoms : (s.bump k n).coreDoms = s.coreDoms := rfl
@[simp] theorem State.bump_ports : (s.bump k n).ports = s.ports := rfl
@[simp] theorem State.bump_readBufs : (s.bump k n).readBufs = s.readBufs := rfl
@[simp] theorem State.bump_transfers : (s.bump k n).transfers = s.transfers := rfl
@[simp] theorem State.bump_landing : (s.bump k n).landing = s.landing := rfl
@[simp] theorem State.bump_due : (s.bump k n).due = s.due := rfl
@[simp] theorem State.bump_parked : (s.bump k n).parked = s.parked := rfl
@[simp] theorem State.bump_sessions : (s.bump k n).sessions = s.sessions := rfl
@[simp] theorem State.bump_draws : (s.bump k n).draws = s.draws := rfl
@[simp] theorem State.bump_journal : (s.bump k n).journal = s.journal := rfl
@[simp] theorem State.bump_mirror : (s.bump k n).mirror = s.mirror := rfl
@[simp] theorem State.bump_jPace : (s.bump k n).jPace = s.jPace := rfl
@[simp] theorem State.bump_time : (s.bump k n).time = s.time := rfl
@[simp] theorem State.bump_casc : (s.bump k n).casc = s.casc := rfl
@[simp] theorem State.bump_syn : (s.bump k n).syn = s.syn := rfl
@[simp] theorem State.bump_queues : (s.bump k n).queues = s.queues := rfl
@[simp] theorem State.bump_cmm : (s.bump k n).cmm = s.cmm := rfl
@[simp] theorem State.bump_mem : (s.bump k n).mem = s.mem := rfl
@[simp] theorem State.bump_memBad : (s.bump k n).memBad = s.memBad := rfl
@[simp] theorem State.bump_chans : (s.bump k n).chans = s.chans := rfl
@[simp] theorem State.bump_lgRr : (s.bump k n).lgRr = s.lgRr := rfl
@[simp] theorem State.bump_arrivals : (s.bump k n).arrivals = s.arrivals := rfl
@[simp] theorem State.bump_units : (s.bump k n).units = s.units := rfl
@[simp] theorem State.bump_cuOut : (s.bump k n).cuOut = s.cuOut := rfl
@[simp] theorem State.bump_rings : (s.bump k n).rings = s.rings := rfl
@[simp] theorem State.bump_bbs : (s.bump k n).bbs = s.bbs := rfl
@[simp] theorem State.bump_xs : (s.bump k n).xs = s.xs := rfl
@[simp] theorem State.bump_acts : (s.bump k n).acts = s.acts := rfl
@[simp] theorem State.bump_bbShown : (s.bump k n).bbShown = s.bbShown := rfl
@[simp] theorem State.bump_trigIn : (s.bump k n).trigIn = s.trigIn := rfl
@[simp] theorem State.bump_trigOut : (s.bump k n).trigOut = s.trigOut := rfl
@[simp] theorem State.bump_evLast : (s.bump k n).evLast = s.evLast := rfl
@[simp] theorem State.bump_evRead : (s.bump k n).evRead = s.evRead := rfl
@[simp] theorem State.bump_host : (s.bump k n).host = s.host := rfl
@[simp] theorem State.bump_hoop : (s.bump k n).hoop = s.hoop := rfl
@[simp] theorem State.bump_hoopFlips : (s.bump k n).hoopFlips = s.hoopFlips := rfl
@[simp] theorem State.bump_subQ : (s.bump k n).subQ = s.subQ := rfl
@[simp] theorem State.bump_otp : (s.bump k n).otp = s.otp := rfl
@[simp] theorem State.bump_lanes : (s.bump k n).lanes = s.lanes := rfl
@[simp] theorem State.bump_links : (s.bump k n).links = s.links := rfl
@[simp] theorem State.bump_decs : (s.bump k n).decs = s.decs := rfl
@[simp] theorem State.bump_eye : (s.bump k n).eye = s.eye := rfl
@[simp] theorem State.bump_ringClr : (s.bump k n).ringClr = s.ringClr := rfl
@[simp] theorem State.bump_flowLanes : (s.bump k n).flowLanes = s.flowLanes := rfl
@[simp] theorem State.bump_flows : (s.bump k n).flows = s.flows := rfl
@[simp] theorem State.bump_deferred : (s.bump k n).deferred = s.deferred := rfl
@[simp] theorem State.bump_jobs : (s.bump k n).jobs = s.jobs := rfl
@[simp] theorem State.bump_deflSlots : (s.bump k n).deflSlots = s.deflSlots := rfl
@[simp] theorem State.bump_jobOrder : (s.bump k n).jobOrder = s.jobOrder := rfl
@[simp] theorem State.bump_taken : (s.bump k n).taken = s.taken := rfl
@[simp] theorem State.bump_sgmii : (s.bump k n).sgmii = s.sgmii := rfl
@[simp] theorem State.bump_hops : (s.bump k n).hops = s.hops := rfl
@[simp] theorem State.bump_lock : (s.bump k n).lock = s.lock := rfl
@[simp] theorem State.bump_cores : (s.bump k n).cores = s.cores := rfl
@[simp] theorem State.bump_shm : (s.bump k n).shm = s.shm := rfl
@[simp] theorem State.bump_flash : (s.bump k n).flash = s.flash := rfl
@[simp] theorem State.bump_sigs : (s.bump k n).sigs = s.sigs := rfl
@[simp] theorem State.bump_streams : (s.bump k n).streams = s.streams := rfl
@[simp] theorem State.bump_health : (s.bump k n).health = s.health := rfl
@[simp] theorem State.bump_repair : (s.bump k n).repair = s.repair := rfl
@[simp] theorem State.bump_dev : (s.bump k n).dev = s.dev := rfl
@[simp] theorem State.bump_swept : (s.bump k n).swept = s.swept := rfl
@[simp] theorem State.bump_free : (s.bump k n).free = s.free := rfl
@[simp] theorem State.bump_out : (s.bump k n).out = s.out := rfl
@[simp] theorem State.bump_pending : (s.bump k n).pending = s.pending := rfl
@[simp] theorem State.bump_dom (i : Key) : (s.bump k n).dom i = s.dom i := rfl
end

/-! emit -/

section
variable (o : Output)
@[simp] theorem State.emit_tick : (s.emit o).tick = s.tick := rfl
@[simp] theorem State.emit_dict : (s.emit o).dict = s.dict := rfl
@[simp] theorem State.emit_doms : (s.emit o).doms = s.doms := rfl
@[simp] theorem State.emit_coreDict : (s.emit o).coreDict = s.coreDict := rfl
@[simp] theorem State.emit_coreDoms : (s.emit o).coreDoms = s.coreDoms := rfl
@[simp] theorem State.emit_ports : (s.emit o).ports = s.ports := rfl
@[simp] theorem State.emit_readBufs : (s.emit o).readBufs = s.readBufs := rfl
@[simp] theorem State.emit_transfers : (s.emit o).transfers = s.transfers := rfl
@[simp] theorem State.emit_landing : (s.emit o).landing = s.landing := rfl
@[simp] theorem State.emit_due : (s.emit o).due = s.due := rfl
@[simp] theorem State.emit_parked : (s.emit o).parked = s.parked := rfl
@[simp] theorem State.emit_sessions : (s.emit o).sessions = s.sessions := rfl
@[simp] theorem State.emit_draws : (s.emit o).draws = s.draws := rfl
@[simp] theorem State.emit_journal : (s.emit o).journal = s.journal := rfl
@[simp] theorem State.emit_mirror : (s.emit o).mirror = s.mirror := rfl
@[simp] theorem State.emit_jPace : (s.emit o).jPace = s.jPace := rfl
@[simp] theorem State.emit_time : (s.emit o).time = s.time := rfl
@[simp] theorem State.emit_casc : (s.emit o).casc = s.casc := rfl
@[simp] theorem State.emit_syn : (s.emit o).syn = s.syn := rfl
@[simp] theorem State.emit_queues : (s.emit o).queues = s.queues := rfl
@[simp] theorem State.emit_cmm : (s.emit o).cmm = s.cmm := rfl
@[simp] theorem State.emit_mem : (s.emit o).mem = s.mem := rfl
@[simp] theorem State.emit_memBad : (s.emit o).memBad = s.memBad := rfl
@[simp] theorem State.emit_chans : (s.emit o).chans = s.chans := rfl
@[simp] theorem State.emit_lgRr : (s.emit o).lgRr = s.lgRr := rfl
@[simp] theorem State.emit_arrivals : (s.emit o).arrivals = s.arrivals := rfl
@[simp] theorem State.emit_units : (s.emit o).units = s.units := rfl
@[simp] theorem State.emit_cuOut : (s.emit o).cuOut = s.cuOut := rfl
@[simp] theorem State.emit_rings : (s.emit o).rings = s.rings := rfl
@[simp] theorem State.emit_bbs : (s.emit o).bbs = s.bbs := rfl
@[simp] theorem State.emit_xs : (s.emit o).xs = s.xs := rfl
@[simp] theorem State.emit_acts : (s.emit o).acts = s.acts := rfl
@[simp] theorem State.emit_bbShown : (s.emit o).bbShown = s.bbShown := rfl
@[simp] theorem State.emit_trigIn : (s.emit o).trigIn = s.trigIn := rfl
@[simp] theorem State.emit_trigOut : (s.emit o).trigOut = s.trigOut := rfl
@[simp] theorem State.emit_evLast : (s.emit o).evLast = s.evLast := rfl
@[simp] theorem State.emit_evRead : (s.emit o).evRead = s.evRead := rfl
@[simp] theorem State.emit_host : (s.emit o).host = s.host := rfl
@[simp] theorem State.emit_hoop : (s.emit o).hoop = s.hoop := rfl
@[simp] theorem State.emit_hoopFlips : (s.emit o).hoopFlips = s.hoopFlips := rfl
@[simp] theorem State.emit_subQ : (s.emit o).subQ = s.subQ := rfl
@[simp] theorem State.emit_otp : (s.emit o).otp = s.otp := rfl
@[simp] theorem State.emit_lanes : (s.emit o).lanes = s.lanes := rfl
@[simp] theorem State.emit_links : (s.emit o).links = s.links := rfl
@[simp] theorem State.emit_decs : (s.emit o).decs = s.decs := rfl
@[simp] theorem State.emit_eye : (s.emit o).eye = s.eye := rfl
@[simp] theorem State.emit_ringClr : (s.emit o).ringClr = s.ringClr := rfl
@[simp] theorem State.emit_flowLanes : (s.emit o).flowLanes = s.flowLanes := rfl
@[simp] theorem State.emit_flows : (s.emit o).flows = s.flows := rfl
@[simp] theorem State.emit_deferred : (s.emit o).deferred = s.deferred := rfl
@[simp] theorem State.emit_jobs : (s.emit o).jobs = s.jobs := rfl
@[simp] theorem State.emit_deflSlots : (s.emit o).deflSlots = s.deflSlots := rfl
@[simp] theorem State.emit_jobOrder : (s.emit o).jobOrder = s.jobOrder := rfl
@[simp] theorem State.emit_taken : (s.emit o).taken = s.taken := rfl
@[simp] theorem State.emit_sgmii : (s.emit o).sgmii = s.sgmii := rfl
@[simp] theorem State.emit_hops : (s.emit o).hops = s.hops := rfl
@[simp] theorem State.emit_lock : (s.emit o).lock = s.lock := rfl
@[simp] theorem State.emit_cores : (s.emit o).cores = s.cores := rfl
@[simp] theorem State.emit_shm : (s.emit o).shm = s.shm := rfl
@[simp] theorem State.emit_flash : (s.emit o).flash = s.flash := rfl
@[simp] theorem State.emit_sigs : (s.emit o).sigs = s.sigs := rfl
@[simp] theorem State.emit_streams : (s.emit o).streams = s.streams := rfl
@[simp] theorem State.emit_health : (s.emit o).health = s.health := rfl
@[simp] theorem State.emit_repair : (s.emit o).repair = s.repair := rfl
@[simp] theorem State.emit_dev : (s.emit o).dev = s.dev := rfl
@[simp] theorem State.emit_swept : (s.emit o).swept = s.swept := rfl
@[simp] theorem State.emit_free : (s.emit o).free = s.free := rfl
@[simp] theorem State.emit_pending : (s.emit o).pending = s.pending := rfl
@[simp] theorem State.emit_obj (i : Key) : (s.emit o).obj i = s.obj i := rfl
@[simp] theorem State.emit_dom (i : Key) : (s.emit o).dom i = s.dom i := rfl
end

/-! emits -/

section
variable (l : List Output)
@[simp] theorem State.emits_tick : (s.emits l).tick = s.tick := rfl
@[simp] theorem State.emits_dict : (s.emits l).dict = s.dict := rfl
@[simp] theorem State.emits_doms : (s.emits l).doms = s.doms := rfl
@[simp] theorem State.emits_coreDict : (s.emits l).coreDict = s.coreDict := rfl
@[simp] theorem State.emits_coreDoms : (s.emits l).coreDoms = s.coreDoms := rfl
@[simp] theorem State.emits_ports : (s.emits l).ports = s.ports := rfl
@[simp] theorem State.emits_readBufs : (s.emits l).readBufs = s.readBufs := rfl
@[simp] theorem State.emits_transfers : (s.emits l).transfers = s.transfers := rfl
@[simp] theorem State.emits_landing : (s.emits l).landing = s.landing := rfl
@[simp] theorem State.emits_due : (s.emits l).due = s.due := rfl
@[simp] theorem State.emits_parked : (s.emits l).parked = s.parked := rfl
@[simp] theorem State.emits_sessions : (s.emits l).sessions = s.sessions := rfl
@[simp] theorem State.emits_draws : (s.emits l).draws = s.draws := rfl
@[simp] theorem State.emits_journal : (s.emits l).journal = s.journal := rfl
@[simp] theorem State.emits_mirror : (s.emits l).mirror = s.mirror := rfl
@[simp] theorem State.emits_jPace : (s.emits l).jPace = s.jPace := rfl
@[simp] theorem State.emits_time : (s.emits l).time = s.time := rfl
@[simp] theorem State.emits_casc : (s.emits l).casc = s.casc := rfl
@[simp] theorem State.emits_syn : (s.emits l).syn = s.syn := rfl
@[simp] theorem State.emits_queues : (s.emits l).queues = s.queues := rfl
@[simp] theorem State.emits_cmm : (s.emits l).cmm = s.cmm := rfl
@[simp] theorem State.emits_mem : (s.emits l).mem = s.mem := rfl
@[simp] theorem State.emits_memBad : (s.emits l).memBad = s.memBad := rfl
@[simp] theorem State.emits_chans : (s.emits l).chans = s.chans := rfl
@[simp] theorem State.emits_lgRr : (s.emits l).lgRr = s.lgRr := rfl
@[simp] theorem State.emits_arrivals : (s.emits l).arrivals = s.arrivals := rfl
@[simp] theorem State.emits_units : (s.emits l).units = s.units := rfl
@[simp] theorem State.emits_cuOut : (s.emits l).cuOut = s.cuOut := rfl
@[simp] theorem State.emits_rings : (s.emits l).rings = s.rings := rfl
@[simp] theorem State.emits_bbs : (s.emits l).bbs = s.bbs := rfl
@[simp] theorem State.emits_xs : (s.emits l).xs = s.xs := rfl
@[simp] theorem State.emits_acts : (s.emits l).acts = s.acts := rfl
@[simp] theorem State.emits_bbShown : (s.emits l).bbShown = s.bbShown := rfl
@[simp] theorem State.emits_trigIn : (s.emits l).trigIn = s.trigIn := rfl
@[simp] theorem State.emits_trigOut : (s.emits l).trigOut = s.trigOut := rfl
@[simp] theorem State.emits_evLast : (s.emits l).evLast = s.evLast := rfl
@[simp] theorem State.emits_evRead : (s.emits l).evRead = s.evRead := rfl
@[simp] theorem State.emits_host : (s.emits l).host = s.host := rfl
@[simp] theorem State.emits_hoop : (s.emits l).hoop = s.hoop := rfl
@[simp] theorem State.emits_hoopFlips : (s.emits l).hoopFlips = s.hoopFlips := rfl
@[simp] theorem State.emits_subQ : (s.emits l).subQ = s.subQ := rfl
@[simp] theorem State.emits_otp : (s.emits l).otp = s.otp := rfl
@[simp] theorem State.emits_lanes : (s.emits l).lanes = s.lanes := rfl
@[simp] theorem State.emits_links : (s.emits l).links = s.links := rfl
@[simp] theorem State.emits_decs : (s.emits l).decs = s.decs := rfl
@[simp] theorem State.emits_eye : (s.emits l).eye = s.eye := rfl
@[simp] theorem State.emits_ringClr : (s.emits l).ringClr = s.ringClr := rfl
@[simp] theorem State.emits_flowLanes : (s.emits l).flowLanes = s.flowLanes := rfl
@[simp] theorem State.emits_flows : (s.emits l).flows = s.flows := rfl
@[simp] theorem State.emits_deferred : (s.emits l).deferred = s.deferred := rfl
@[simp] theorem State.emits_jobs : (s.emits l).jobs = s.jobs := rfl
@[simp] theorem State.emits_deflSlots : (s.emits l).deflSlots = s.deflSlots := rfl
@[simp] theorem State.emits_jobOrder : (s.emits l).jobOrder = s.jobOrder := rfl
@[simp] theorem State.emits_taken : (s.emits l).taken = s.taken := rfl
@[simp] theorem State.emits_sgmii : (s.emits l).sgmii = s.sgmii := rfl
@[simp] theorem State.emits_hops : (s.emits l).hops = s.hops := rfl
@[simp] theorem State.emits_lock : (s.emits l).lock = s.lock := rfl
@[simp] theorem State.emits_cores : (s.emits l).cores = s.cores := rfl
@[simp] theorem State.emits_shm : (s.emits l).shm = s.shm := rfl
@[simp] theorem State.emits_flash : (s.emits l).flash = s.flash := rfl
@[simp] theorem State.emits_sigs : (s.emits l).sigs = s.sigs := rfl
@[simp] theorem State.emits_streams : (s.emits l).streams = s.streams := rfl
@[simp] theorem State.emits_health : (s.emits l).health = s.health := rfl
@[simp] theorem State.emits_repair : (s.emits l).repair = s.repair := rfl
@[simp] theorem State.emits_dev : (s.emits l).dev = s.dev := rfl
@[simp] theorem State.emits_swept : (s.emits l).swept = s.swept := rfl
@[simp] theorem State.emits_free : (s.emits l).free = s.free := rfl
@[simp] theorem State.emits_pending : (s.emits l).pending = s.pending := rfl
@[simp] theorem State.emits_obj (i : Key) : (s.emits l).obj i = s.obj i := rfl
@[simp] theorem State.emits_dom (i : Key) : (s.emits l).dom i = s.dom i := rfl
end

/-! setMem -/

section
variable (a : Nat) (b : Byte)
@[simp] theorem State.setMem_tick : (s.setMem a b).tick = s.tick := rfl
@[simp] theorem State.setMem_dict : (s.setMem a b).dict = s.dict := rfl
@[simp] theorem State.setMem_doms : (s.setMem a b).doms = s.doms := rfl
@[simp] theorem State.setMem_coreDict : (s.setMem a b).coreDict = s.coreDict := rfl
@[simp] theorem State.setMem_coreDoms : (s.setMem a b).coreDoms = s.coreDoms := rfl
@[simp] theorem State.setMem_ports : (s.setMem a b).ports = s.ports := rfl
@[simp] theorem State.setMem_readBufs : (s.setMem a b).readBufs = s.readBufs := rfl
@[simp] theorem State.setMem_transfers : (s.setMem a b).transfers = s.transfers := rfl
@[simp] theorem State.setMem_landing : (s.setMem a b).landing = s.landing := rfl
@[simp] theorem State.setMem_due : (s.setMem a b).due = s.due := rfl
@[simp] theorem State.setMem_parked : (s.setMem a b).parked = s.parked := rfl
@[simp] theorem State.setMem_sessions : (s.setMem a b).sessions = s.sessions := rfl
@[simp] theorem State.setMem_draws : (s.setMem a b).draws = s.draws := rfl
@[simp] theorem State.setMem_journal : (s.setMem a b).journal = s.journal := rfl
@[simp] theorem State.setMem_mirror : (s.setMem a b).mirror = s.mirror := rfl
@[simp] theorem State.setMem_jPace : (s.setMem a b).jPace = s.jPace := rfl
@[simp] theorem State.setMem_time : (s.setMem a b).time = s.time := rfl
@[simp] theorem State.setMem_casc : (s.setMem a b).casc = s.casc := rfl
@[simp] theorem State.setMem_syn : (s.setMem a b).syn = s.syn := rfl
@[simp] theorem State.setMem_queues : (s.setMem a b).queues = s.queues := rfl
@[simp] theorem State.setMem_cmm : (s.setMem a b).cmm = s.cmm := rfl
@[simp] theorem State.setMem_memBad : (s.setMem a b).memBad = s.memBad := rfl
@[simp] theorem State.setMem_chans : (s.setMem a b).chans = s.chans := rfl
@[simp] theorem State.setMem_lgRr : (s.setMem a b).lgRr = s.lgRr := rfl
@[simp] theorem State.setMem_arrivals : (s.setMem a b).arrivals = s.arrivals := rfl
@[simp] theorem State.setMem_units : (s.setMem a b).units = s.units := rfl
@[simp] theorem State.setMem_cuOut : (s.setMem a b).cuOut = s.cuOut := rfl
@[simp] theorem State.setMem_rings : (s.setMem a b).rings = s.rings := rfl
@[simp] theorem State.setMem_bbs : (s.setMem a b).bbs = s.bbs := rfl
@[simp] theorem State.setMem_xs : (s.setMem a b).xs = s.xs := rfl
@[simp] theorem State.setMem_acts : (s.setMem a b).acts = s.acts := rfl
@[simp] theorem State.setMem_bbShown : (s.setMem a b).bbShown = s.bbShown := rfl
@[simp] theorem State.setMem_trigIn : (s.setMem a b).trigIn = s.trigIn := rfl
@[simp] theorem State.setMem_trigOut : (s.setMem a b).trigOut = s.trigOut := rfl
@[simp] theorem State.setMem_evLast : (s.setMem a b).evLast = s.evLast := rfl
@[simp] theorem State.setMem_evRead : (s.setMem a b).evRead = s.evRead := rfl
@[simp] theorem State.setMem_host : (s.setMem a b).host = s.host := rfl
@[simp] theorem State.setMem_hoop : (s.setMem a b).hoop = s.hoop := rfl
@[simp] theorem State.setMem_hoopFlips : (s.setMem a b).hoopFlips = s.hoopFlips := rfl
@[simp] theorem State.setMem_subQ : (s.setMem a b).subQ = s.subQ := rfl
@[simp] theorem State.setMem_otp : (s.setMem a b).otp = s.otp := rfl
@[simp] theorem State.setMem_lanes : (s.setMem a b).lanes = s.lanes := rfl
@[simp] theorem State.setMem_links : (s.setMem a b).links = s.links := rfl
@[simp] theorem State.setMem_decs : (s.setMem a b).decs = s.decs := rfl
@[simp] theorem State.setMem_eye : (s.setMem a b).eye = s.eye := rfl
@[simp] theorem State.setMem_ringClr : (s.setMem a b).ringClr = s.ringClr := rfl
@[simp] theorem State.setMem_flowLanes : (s.setMem a b).flowLanes = s.flowLanes := rfl
@[simp] theorem State.setMem_flows : (s.setMem a b).flows = s.flows := rfl
@[simp] theorem State.setMem_deferred : (s.setMem a b).deferred = s.deferred := rfl
@[simp] theorem State.setMem_jobs : (s.setMem a b).jobs = s.jobs := rfl
@[simp] theorem State.setMem_deflSlots : (s.setMem a b).deflSlots = s.deflSlots := rfl
@[simp] theorem State.setMem_jobOrder : (s.setMem a b).jobOrder = s.jobOrder := rfl
@[simp] theorem State.setMem_taken : (s.setMem a b).taken = s.taken := rfl
@[simp] theorem State.setMem_sgmii : (s.setMem a b).sgmii = s.sgmii := rfl
@[simp] theorem State.setMem_hops : (s.setMem a b).hops = s.hops := rfl
@[simp] theorem State.setMem_lock : (s.setMem a b).lock = s.lock := rfl
@[simp] theorem State.setMem_cores : (s.setMem a b).cores = s.cores := rfl
@[simp] theorem State.setMem_shm : (s.setMem a b).shm = s.shm := rfl
@[simp] theorem State.setMem_flash : (s.setMem a b).flash = s.flash := rfl
@[simp] theorem State.setMem_sigs : (s.setMem a b).sigs = s.sigs := rfl
@[simp] theorem State.setMem_streams : (s.setMem a b).streams = s.streams := rfl
@[simp] theorem State.setMem_health : (s.setMem a b).health = s.health := rfl
@[simp] theorem State.setMem_repair : (s.setMem a b).repair = s.repair := rfl
@[simp] theorem State.setMem_dev : (s.setMem a b).dev = s.dev := rfl
@[simp] theorem State.setMem_swept : (s.setMem a b).swept = s.swept := rfl
@[simp] theorem State.setMem_free : (s.setMem a b).free = s.free := rfl
@[simp] theorem State.setMem_out : (s.setMem a b).out = s.out := rfl
@[simp] theorem State.setMem_pending : (s.setMem a b).pending = s.pending := rfl
@[simp] theorem State.setMem_obj (i : Key) : (s.setMem a b).obj i = s.obj i := rfl
@[simp] theorem State.setMem_dom (i : Key) : (s.setMem a b).dom i = s.dom i := rfl
end

/-! setTime -/

section
variable (f : TimeBase → TimeBase)
@[simp] theorem State.setTime_tick : (s.setTime f).tick = s.tick := rfl
@[simp] theorem State.setTime_dict : (s.setTime f).dict = s.dict := rfl
@[simp] theorem State.setTime_doms : (s.setTime f).doms = s.doms := rfl
@[simp] theorem State.setTime_coreDict : (s.setTime f).coreDict = s.coreDict := rfl
@[simp] theorem State.setTime_coreDoms : (s.setTime f).coreDoms = s.coreDoms := rfl
@[simp] theorem State.setTime_ports : (s.setTime f).ports = s.ports := rfl
@[simp] theorem State.setTime_readBufs : (s.setTime f).readBufs = s.readBufs := rfl
@[simp] theorem State.setTime_transfers : (s.setTime f).transfers = s.transfers := rfl
@[simp] theorem State.setTime_landing : (s.setTime f).landing = s.landing := rfl
@[simp] theorem State.setTime_due : (s.setTime f).due = s.due := rfl
@[simp] theorem State.setTime_parked : (s.setTime f).parked = s.parked := rfl
@[simp] theorem State.setTime_sessions : (s.setTime f).sessions = s.sessions := rfl
@[simp] theorem State.setTime_draws : (s.setTime f).draws = s.draws := rfl
@[simp] theorem State.setTime_journal : (s.setTime f).journal = s.journal := rfl
@[simp] theorem State.setTime_mirror : (s.setTime f).mirror = s.mirror := rfl
@[simp] theorem State.setTime_jPace : (s.setTime f).jPace = s.jPace := rfl
@[simp] theorem State.setTime_casc : (s.setTime f).casc = s.casc := rfl
@[simp] theorem State.setTime_syn : (s.setTime f).syn = s.syn := rfl
@[simp] theorem State.setTime_queues : (s.setTime f).queues = s.queues := rfl
@[simp] theorem State.setTime_cmm : (s.setTime f).cmm = s.cmm := rfl
@[simp] theorem State.setTime_mem : (s.setTime f).mem = s.mem := rfl
@[simp] theorem State.setTime_memBad : (s.setTime f).memBad = s.memBad := rfl
@[simp] theorem State.setTime_chans : (s.setTime f).chans = s.chans := rfl
@[simp] theorem State.setTime_lgRr : (s.setTime f).lgRr = s.lgRr := rfl
@[simp] theorem State.setTime_arrivals : (s.setTime f).arrivals = s.arrivals := rfl
@[simp] theorem State.setTime_units : (s.setTime f).units = s.units := rfl
@[simp] theorem State.setTime_cuOut : (s.setTime f).cuOut = s.cuOut := rfl
@[simp] theorem State.setTime_rings : (s.setTime f).rings = s.rings := rfl
@[simp] theorem State.setTime_bbs : (s.setTime f).bbs = s.bbs := rfl
@[simp] theorem State.setTime_xs : (s.setTime f).xs = s.xs := rfl
@[simp] theorem State.setTime_acts : (s.setTime f).acts = s.acts := rfl
@[simp] theorem State.setTime_bbShown : (s.setTime f).bbShown = s.bbShown := rfl
@[simp] theorem State.setTime_trigIn : (s.setTime f).trigIn = s.trigIn := rfl
@[simp] theorem State.setTime_trigOut : (s.setTime f).trigOut = s.trigOut := rfl
@[simp] theorem State.setTime_evLast : (s.setTime f).evLast = s.evLast := rfl
@[simp] theorem State.setTime_evRead : (s.setTime f).evRead = s.evRead := rfl
@[simp] theorem State.setTime_host : (s.setTime f).host = s.host := rfl
@[simp] theorem State.setTime_hoop : (s.setTime f).hoop = s.hoop := rfl
@[simp] theorem State.setTime_hoopFlips : (s.setTime f).hoopFlips = s.hoopFlips := rfl
@[simp] theorem State.setTime_subQ : (s.setTime f).subQ = s.subQ := rfl
@[simp] theorem State.setTime_otp : (s.setTime f).otp = s.otp := rfl
@[simp] theorem State.setTime_lanes : (s.setTime f).lanes = s.lanes := rfl
@[simp] theorem State.setTime_links : (s.setTime f).links = s.links := rfl
@[simp] theorem State.setTime_decs : (s.setTime f).decs = s.decs := rfl
@[simp] theorem State.setTime_eye : (s.setTime f).eye = s.eye := rfl
@[simp] theorem State.setTime_ringClr : (s.setTime f).ringClr = s.ringClr := rfl
@[simp] theorem State.setTime_flowLanes : (s.setTime f).flowLanes = s.flowLanes := rfl
@[simp] theorem State.setTime_flows : (s.setTime f).flows = s.flows := rfl
@[simp] theorem State.setTime_deferred : (s.setTime f).deferred = s.deferred := rfl
@[simp] theorem State.setTime_jobs : (s.setTime f).jobs = s.jobs := rfl
@[simp] theorem State.setTime_deflSlots : (s.setTime f).deflSlots = s.deflSlots := rfl
@[simp] theorem State.setTime_jobOrder : (s.setTime f).jobOrder = s.jobOrder := rfl
@[simp] theorem State.setTime_taken : (s.setTime f).taken = s.taken := rfl
@[simp] theorem State.setTime_sgmii : (s.setTime f).sgmii = s.sgmii := rfl
@[simp] theorem State.setTime_hops : (s.setTime f).hops = s.hops := rfl
@[simp] theorem State.setTime_lock : (s.setTime f).lock = s.lock := rfl
@[simp] theorem State.setTime_cores : (s.setTime f).cores = s.cores := rfl
@[simp] theorem State.setTime_shm : (s.setTime f).shm = s.shm := rfl
@[simp] theorem State.setTime_flash : (s.setTime f).flash = s.flash := rfl
@[simp] theorem State.setTime_sigs : (s.setTime f).sigs = s.sigs := rfl
@[simp] theorem State.setTime_streams : (s.setTime f).streams = s.streams := rfl
@[simp] theorem State.setTime_health : (s.setTime f).health = s.health := rfl
@[simp] theorem State.setTime_repair : (s.setTime f).repair = s.repair := rfl
@[simp] theorem State.setTime_dev : (s.setTime f).dev = s.dev := rfl
@[simp] theorem State.setTime_swept : (s.setTime f).swept = s.swept := rfl
@[simp] theorem State.setTime_free : (s.setTime f).free = s.free := rfl
@[simp] theorem State.setTime_out : (s.setTime f).out = s.out := rfl
@[simp] theorem State.setTime_pending : (s.setTime f).pending = s.pending := rfl
@[simp] theorem State.setTime_obj (i : Key) : (s.setTime f).obj i = s.obj i := rfl
@[simp] theorem State.setTime_dom (i : Key) : (s.setTime f).dom i = s.dom i := rfl
end

/-! setCasc -/

section
variable (n : Nat) (f : CascPort → CascPort)
@[simp] theorem State.setCasc_tick : (s.setCasc n f).tick = s.tick := rfl
@[simp] theorem State.setCasc_dict : (s.setCasc n f).dict = s.dict := rfl
@[simp] theorem State.setCasc_doms : (s.setCasc n f).doms = s.doms := rfl
@[simp] theorem State.setCasc_coreDict : (s.setCasc n f).coreDict = s.coreDict := rfl
@[simp] theorem State.setCasc_coreDoms : (s.setCasc n f).coreDoms = s.coreDoms := rfl
@[simp] theorem State.setCasc_ports : (s.setCasc n f).ports = s.ports := rfl
@[simp] theorem State.setCasc_readBufs : (s.setCasc n f).readBufs = s.readBufs := rfl
@[simp] theorem State.setCasc_transfers : (s.setCasc n f).transfers = s.transfers := rfl
@[simp] theorem State.setCasc_landing : (s.setCasc n f).landing = s.landing := rfl
@[simp] theorem State.setCasc_due : (s.setCasc n f).due = s.due := rfl
@[simp] theorem State.setCasc_parked : (s.setCasc n f).parked = s.parked := rfl
@[simp] theorem State.setCasc_sessions : (s.setCasc n f).sessions = s.sessions := rfl
@[simp] theorem State.setCasc_draws : (s.setCasc n f).draws = s.draws := rfl
@[simp] theorem State.setCasc_journal : (s.setCasc n f).journal = s.journal := rfl
@[simp] theorem State.setCasc_mirror : (s.setCasc n f).mirror = s.mirror := rfl
@[simp] theorem State.setCasc_jPace : (s.setCasc n f).jPace = s.jPace := rfl
@[simp] theorem State.setCasc_time : (s.setCasc n f).time = s.time := rfl
@[simp] theorem State.setCasc_syn : (s.setCasc n f).syn = s.syn := rfl
@[simp] theorem State.setCasc_queues : (s.setCasc n f).queues = s.queues := rfl
@[simp] theorem State.setCasc_cmm : (s.setCasc n f).cmm = s.cmm := rfl
@[simp] theorem State.setCasc_mem : (s.setCasc n f).mem = s.mem := rfl
@[simp] theorem State.setCasc_memBad : (s.setCasc n f).memBad = s.memBad := rfl
@[simp] theorem State.setCasc_chans : (s.setCasc n f).chans = s.chans := rfl
@[simp] theorem State.setCasc_lgRr : (s.setCasc n f).lgRr = s.lgRr := rfl
@[simp] theorem State.setCasc_arrivals : (s.setCasc n f).arrivals = s.arrivals := rfl
@[simp] theorem State.setCasc_units : (s.setCasc n f).units = s.units := rfl
@[simp] theorem State.setCasc_cuOut : (s.setCasc n f).cuOut = s.cuOut := rfl
@[simp] theorem State.setCasc_rings : (s.setCasc n f).rings = s.rings := rfl
@[simp] theorem State.setCasc_bbs : (s.setCasc n f).bbs = s.bbs := rfl
@[simp] theorem State.setCasc_xs : (s.setCasc n f).xs = s.xs := rfl
@[simp] theorem State.setCasc_acts : (s.setCasc n f).acts = s.acts := rfl
@[simp] theorem State.setCasc_bbShown : (s.setCasc n f).bbShown = s.bbShown := rfl
@[simp] theorem State.setCasc_trigIn : (s.setCasc n f).trigIn = s.trigIn := rfl
@[simp] theorem State.setCasc_trigOut : (s.setCasc n f).trigOut = s.trigOut := rfl
@[simp] theorem State.setCasc_evLast : (s.setCasc n f).evLast = s.evLast := rfl
@[simp] theorem State.setCasc_evRead : (s.setCasc n f).evRead = s.evRead := rfl
@[simp] theorem State.setCasc_host : (s.setCasc n f).host = s.host := rfl
@[simp] theorem State.setCasc_hoop : (s.setCasc n f).hoop = s.hoop := rfl
@[simp] theorem State.setCasc_hoopFlips : (s.setCasc n f).hoopFlips = s.hoopFlips := rfl
@[simp] theorem State.setCasc_subQ : (s.setCasc n f).subQ = s.subQ := rfl
@[simp] theorem State.setCasc_otp : (s.setCasc n f).otp = s.otp := rfl
@[simp] theorem State.setCasc_lanes : (s.setCasc n f).lanes = s.lanes := rfl
@[simp] theorem State.setCasc_links : (s.setCasc n f).links = s.links := rfl
@[simp] theorem State.setCasc_decs : (s.setCasc n f).decs = s.decs := rfl
@[simp] theorem State.setCasc_eye : (s.setCasc n f).eye = s.eye := rfl
@[simp] theorem State.setCasc_ringClr : (s.setCasc n f).ringClr = s.ringClr := rfl
@[simp] theorem State.setCasc_flowLanes : (s.setCasc n f).flowLanes = s.flowLanes := rfl
@[simp] theorem State.setCasc_flows : (s.setCasc n f).flows = s.flows := rfl
@[simp] theorem State.setCasc_deferred : (s.setCasc n f).deferred = s.deferred := rfl
@[simp] theorem State.setCasc_jobs : (s.setCasc n f).jobs = s.jobs := rfl
@[simp] theorem State.setCasc_deflSlots : (s.setCasc n f).deflSlots = s.deflSlots := rfl
@[simp] theorem State.setCasc_jobOrder : (s.setCasc n f).jobOrder = s.jobOrder := rfl
@[simp] theorem State.setCasc_taken : (s.setCasc n f).taken = s.taken := rfl
@[simp] theorem State.setCasc_sgmii : (s.setCasc n f).sgmii = s.sgmii := rfl
@[simp] theorem State.setCasc_hops : (s.setCasc n f).hops = s.hops := rfl
@[simp] theorem State.setCasc_lock : (s.setCasc n f).lock = s.lock := rfl
@[simp] theorem State.setCasc_cores : (s.setCasc n f).cores = s.cores := rfl
@[simp] theorem State.setCasc_shm : (s.setCasc n f).shm = s.shm := rfl
@[simp] theorem State.setCasc_flash : (s.setCasc n f).flash = s.flash := rfl
@[simp] theorem State.setCasc_sigs : (s.setCasc n f).sigs = s.sigs := rfl
@[simp] theorem State.setCasc_streams : (s.setCasc n f).streams = s.streams := rfl
@[simp] theorem State.setCasc_health : (s.setCasc n f).health = s.health := rfl
@[simp] theorem State.setCasc_repair : (s.setCasc n f).repair = s.repair := rfl
@[simp] theorem State.setCasc_dev : (s.setCasc n f).dev = s.dev := rfl
@[simp] theorem State.setCasc_swept : (s.setCasc n f).swept = s.swept := rfl
@[simp] theorem State.setCasc_free : (s.setCasc n f).free = s.free := rfl
@[simp] theorem State.setCasc_out : (s.setCasc n f).out = s.out := rfl
@[simp] theorem State.setCasc_pending : (s.setCasc n f).pending = s.pending := rfl
@[simp] theorem State.setCasc_obj (i : Key) : (s.setCasc n f).obj i = s.obj i := rfl
@[simp] theorem State.setCasc_dom (i : Key) : (s.setCasc n f).dom i = s.dom i := rfl
end

/-! setSynth -/

section
variable (i : Nat) (f : Synth → Synth)
@[simp] theorem State.setSynth_tick : (s.setSynth i f).tick = s.tick := rfl
@[simp] theorem State.setSynth_dict : (s.setSynth i f).dict = s.dict := rfl
@[simp] theorem State.setSynth_doms : (s.setSynth i f).doms = s.doms := rfl
@[simp] theorem State.setSynth_coreDict : (s.setSynth i f).coreDict = s.coreDict := rfl
@[simp] theorem State.setSynth_coreDoms : (s.setSynth i f).coreDoms = s.coreDoms := rfl
@[simp] theorem State.setSynth_ports : (s.setSynth i f).ports = s.ports := rfl
@[simp] theorem State.setSynth_readBufs : (s.setSynth i f).readBufs = s.readBufs := rfl
@[simp] theorem State.setSynth_transfers : (s.setSynth i f).transfers = s.transfers := rfl
@[simp] theorem State.setSynth_landing : (s.setSynth i f).landing = s.landing := rfl
@[simp] theorem State.setSynth_due : (s.setSynth i f).due = s.due := rfl
@[simp] theorem State.setSynth_parked : (s.setSynth i f).parked = s.parked := rfl
@[simp] theorem State.setSynth_sessions : (s.setSynth i f).sessions = s.sessions := rfl
@[simp] theorem State.setSynth_draws : (s.setSynth i f).draws = s.draws := rfl
@[simp] theorem State.setSynth_journal : (s.setSynth i f).journal = s.journal := rfl
@[simp] theorem State.setSynth_mirror : (s.setSynth i f).mirror = s.mirror := rfl
@[simp] theorem State.setSynth_jPace : (s.setSynth i f).jPace = s.jPace := rfl
@[simp] theorem State.setSynth_time : (s.setSynth i f).time = s.time := rfl
@[simp] theorem State.setSynth_casc : (s.setSynth i f).casc = s.casc := rfl
@[simp] theorem State.setSynth_queues : (s.setSynth i f).queues = s.queues := rfl
@[simp] theorem State.setSynth_cmm : (s.setSynth i f).cmm = s.cmm := rfl
@[simp] theorem State.setSynth_mem : (s.setSynth i f).mem = s.mem := rfl
@[simp] theorem State.setSynth_memBad : (s.setSynth i f).memBad = s.memBad := rfl
@[simp] theorem State.setSynth_chans : (s.setSynth i f).chans = s.chans := rfl
@[simp] theorem State.setSynth_lgRr : (s.setSynth i f).lgRr = s.lgRr := rfl
@[simp] theorem State.setSynth_arrivals : (s.setSynth i f).arrivals = s.arrivals := rfl
@[simp] theorem State.setSynth_units : (s.setSynth i f).units = s.units := rfl
@[simp] theorem State.setSynth_cuOut : (s.setSynth i f).cuOut = s.cuOut := rfl
@[simp] theorem State.setSynth_rings : (s.setSynth i f).rings = s.rings := rfl
@[simp] theorem State.setSynth_bbs : (s.setSynth i f).bbs = s.bbs := rfl
@[simp] theorem State.setSynth_xs : (s.setSynth i f).xs = s.xs := rfl
@[simp] theorem State.setSynth_acts : (s.setSynth i f).acts = s.acts := rfl
@[simp] theorem State.setSynth_bbShown : (s.setSynth i f).bbShown = s.bbShown := rfl
@[simp] theorem State.setSynth_trigIn : (s.setSynth i f).trigIn = s.trigIn := rfl
@[simp] theorem State.setSynth_trigOut : (s.setSynth i f).trigOut = s.trigOut := rfl
@[simp] theorem State.setSynth_evLast : (s.setSynth i f).evLast = s.evLast := rfl
@[simp] theorem State.setSynth_evRead : (s.setSynth i f).evRead = s.evRead := rfl
@[simp] theorem State.setSynth_host : (s.setSynth i f).host = s.host := rfl
@[simp] theorem State.setSynth_hoop : (s.setSynth i f).hoop = s.hoop := rfl
@[simp] theorem State.setSynth_hoopFlips : (s.setSynth i f).hoopFlips = s.hoopFlips := rfl
@[simp] theorem State.setSynth_subQ : (s.setSynth i f).subQ = s.subQ := rfl
@[simp] theorem State.setSynth_otp : (s.setSynth i f).otp = s.otp := rfl
@[simp] theorem State.setSynth_lanes : (s.setSynth i f).lanes = s.lanes := rfl
@[simp] theorem State.setSynth_links : (s.setSynth i f).links = s.links := rfl
@[simp] theorem State.setSynth_decs : (s.setSynth i f).decs = s.decs := rfl
@[simp] theorem State.setSynth_eye : (s.setSynth i f).eye = s.eye := rfl
@[simp] theorem State.setSynth_ringClr : (s.setSynth i f).ringClr = s.ringClr := rfl
@[simp] theorem State.setSynth_flowLanes : (s.setSynth i f).flowLanes = s.flowLanes := rfl
@[simp] theorem State.setSynth_flows : (s.setSynth i f).flows = s.flows := rfl
@[simp] theorem State.setSynth_deferred : (s.setSynth i f).deferred = s.deferred := rfl
@[simp] theorem State.setSynth_jobs : (s.setSynth i f).jobs = s.jobs := rfl
@[simp] theorem State.setSynth_deflSlots : (s.setSynth i f).deflSlots = s.deflSlots := rfl
@[simp] theorem State.setSynth_jobOrder : (s.setSynth i f).jobOrder = s.jobOrder := rfl
@[simp] theorem State.setSynth_taken : (s.setSynth i f).taken = s.taken := rfl
@[simp] theorem State.setSynth_sgmii : (s.setSynth i f).sgmii = s.sgmii := rfl
@[simp] theorem State.setSynth_hops : (s.setSynth i f).hops = s.hops := rfl
@[simp] theorem State.setSynth_lock : (s.setSynth i f).lock = s.lock := rfl
@[simp] theorem State.setSynth_cores : (s.setSynth i f).cores = s.cores := rfl
@[simp] theorem State.setSynth_shm : (s.setSynth i f).shm = s.shm := rfl
@[simp] theorem State.setSynth_flash : (s.setSynth i f).flash = s.flash := rfl
@[simp] theorem State.setSynth_sigs : (s.setSynth i f).sigs = s.sigs := rfl
@[simp] theorem State.setSynth_streams : (s.setSynth i f).streams = s.streams := rfl
@[simp] theorem State.setSynth_health : (s.setSynth i f).health = s.health := rfl
@[simp] theorem State.setSynth_repair : (s.setSynth i f).repair = s.repair := rfl
@[simp] theorem State.setSynth_dev : (s.setSynth i f).dev = s.dev := rfl
@[simp] theorem State.setSynth_swept : (s.setSynth i f).swept = s.swept := rfl
@[simp] theorem State.setSynth_free : (s.setSynth i f).free = s.free := rfl
@[simp] theorem State.setSynth_out : (s.setSynth i f).out = s.out := rfl
@[simp] theorem State.setSynth_pending : (s.setSynth i f).pending = s.pending := rfl
@[simp] theorem State.setSynth_obj (i : Key) : (s.setSynth i f).obj i = s.obj i := rfl
@[simp] theorem State.setSynth_dom (i : Key) : (s.setSynth i f).dom i = s.dom i := rfl
end

/-! setQueue -/

section
variable (q : Nat) (x : Queue)
@[simp] theorem State.setQueue_tick : (s.setQueue q x).tick = s.tick := rfl
@[simp] theorem State.setQueue_dict : (s.setQueue q x).dict = s.dict := rfl
@[simp] theorem State.setQueue_doms : (s.setQueue q x).doms = s.doms := rfl
@[simp] theorem State.setQueue_coreDict : (s.setQueue q x).coreDict = s.coreDict := rfl
@[simp] theorem State.setQueue_coreDoms : (s.setQueue q x).coreDoms = s.coreDoms := rfl
@[simp] theorem State.setQueue_ports : (s.setQueue q x).ports = s.ports := rfl
@[simp] theorem State.setQueue_readBufs : (s.setQueue q x).readBufs = s.readBufs := rfl
@[simp] theorem State.setQueue_transfers : (s.setQueue q x).transfers = s.transfers := rfl
@[simp] theorem State.setQueue_landing : (s.setQueue q x).landing = s.landing := rfl
@[simp] theorem State.setQueue_due : (s.setQueue q x).due = s.due := rfl
@[simp] theorem State.setQueue_parked : (s.setQueue q x).parked = s.parked := rfl
@[simp] theorem State.setQueue_sessions : (s.setQueue q x).sessions = s.sessions := rfl
@[simp] theorem State.setQueue_draws : (s.setQueue q x).draws = s.draws := rfl
@[simp] theorem State.setQueue_journal : (s.setQueue q x).journal = s.journal := rfl
@[simp] theorem State.setQueue_mirror : (s.setQueue q x).mirror = s.mirror := rfl
@[simp] theorem State.setQueue_jPace : (s.setQueue q x).jPace = s.jPace := rfl
@[simp] theorem State.setQueue_time : (s.setQueue q x).time = s.time := rfl
@[simp] theorem State.setQueue_casc : (s.setQueue q x).casc = s.casc := rfl
@[simp] theorem State.setQueue_syn : (s.setQueue q x).syn = s.syn := rfl
@[simp] theorem State.setQueue_cmm : (s.setQueue q x).cmm = s.cmm := rfl
@[simp] theorem State.setQueue_mem : (s.setQueue q x).mem = s.mem := rfl
@[simp] theorem State.setQueue_memBad : (s.setQueue q x).memBad = s.memBad := rfl
@[simp] theorem State.setQueue_chans : (s.setQueue q x).chans = s.chans := rfl
@[simp] theorem State.setQueue_lgRr : (s.setQueue q x).lgRr = s.lgRr := rfl
@[simp] theorem State.setQueue_arrivals : (s.setQueue q x).arrivals = s.arrivals := rfl
@[simp] theorem State.setQueue_units : (s.setQueue q x).units = s.units := rfl
@[simp] theorem State.setQueue_cuOut : (s.setQueue q x).cuOut = s.cuOut := rfl
@[simp] theorem State.setQueue_rings : (s.setQueue q x).rings = s.rings := rfl
@[simp] theorem State.setQueue_bbs : (s.setQueue q x).bbs = s.bbs := rfl
@[simp] theorem State.setQueue_xs : (s.setQueue q x).xs = s.xs := rfl
@[simp] theorem State.setQueue_acts : (s.setQueue q x).acts = s.acts := rfl
@[simp] theorem State.setQueue_bbShown : (s.setQueue q x).bbShown = s.bbShown := rfl
@[simp] theorem State.setQueue_trigIn : (s.setQueue q x).trigIn = s.trigIn := rfl
@[simp] theorem State.setQueue_trigOut : (s.setQueue q x).trigOut = s.trigOut := rfl
@[simp] theorem State.setQueue_evLast : (s.setQueue q x).evLast = s.evLast := rfl
@[simp] theorem State.setQueue_evRead : (s.setQueue q x).evRead = s.evRead := rfl
@[simp] theorem State.setQueue_host : (s.setQueue q x).host = s.host := rfl
@[simp] theorem State.setQueue_hoop : (s.setQueue q x).hoop = s.hoop := rfl
@[simp] theorem State.setQueue_hoopFlips : (s.setQueue q x).hoopFlips = s.hoopFlips := rfl
@[simp] theorem State.setQueue_subQ : (s.setQueue q x).subQ = s.subQ := rfl
@[simp] theorem State.setQueue_otp : (s.setQueue q x).otp = s.otp := rfl
@[simp] theorem State.setQueue_lanes : (s.setQueue q x).lanes = s.lanes := rfl
@[simp] theorem State.setQueue_links : (s.setQueue q x).links = s.links := rfl
@[simp] theorem State.setQueue_decs : (s.setQueue q x).decs = s.decs := rfl
@[simp] theorem State.setQueue_eye : (s.setQueue q x).eye = s.eye := rfl
@[simp] theorem State.setQueue_ringClr : (s.setQueue q x).ringClr = s.ringClr := rfl
@[simp] theorem State.setQueue_flowLanes : (s.setQueue q x).flowLanes = s.flowLanes := rfl
@[simp] theorem State.setQueue_flows : (s.setQueue q x).flows = s.flows := rfl
@[simp] theorem State.setQueue_deferred : (s.setQueue q x).deferred = s.deferred := rfl
@[simp] theorem State.setQueue_jobs : (s.setQueue q x).jobs = s.jobs := rfl
@[simp] theorem State.setQueue_deflSlots : (s.setQueue q x).deflSlots = s.deflSlots := rfl
@[simp] theorem State.setQueue_jobOrder : (s.setQueue q x).jobOrder = s.jobOrder := rfl
@[simp] theorem State.setQueue_taken : (s.setQueue q x).taken = s.taken := rfl
@[simp] theorem State.setQueue_sgmii : (s.setQueue q x).sgmii = s.sgmii := rfl
@[simp] theorem State.setQueue_hops : (s.setQueue q x).hops = s.hops := rfl
@[simp] theorem State.setQueue_lock : (s.setQueue q x).lock = s.lock := rfl
@[simp] theorem State.setQueue_cores : (s.setQueue q x).cores = s.cores := rfl
@[simp] theorem State.setQueue_shm : (s.setQueue q x).shm = s.shm := rfl
@[simp] theorem State.setQueue_flash : (s.setQueue q x).flash = s.flash := rfl
@[simp] theorem State.setQueue_sigs : (s.setQueue q x).sigs = s.sigs := rfl
@[simp] theorem State.setQueue_streams : (s.setQueue q x).streams = s.streams := rfl
@[simp] theorem State.setQueue_health : (s.setQueue q x).health = s.health := rfl
@[simp] theorem State.setQueue_repair : (s.setQueue q x).repair = s.repair := rfl
@[simp] theorem State.setQueue_dev : (s.setQueue q x).dev = s.dev := rfl
@[simp] theorem State.setQueue_swept : (s.setQueue q x).swept = s.swept := rfl
@[simp] theorem State.setQueue_free : (s.setQueue q x).free = s.free := rfl
@[simp] theorem State.setQueue_out : (s.setQueue q x).out = s.out := rfl
@[simp] theorem State.setQueue_pending : (s.setQueue q x).pending = s.pending := rfl
@[simp] theorem State.setQueue_obj (i : Key) : (s.setQueue q x).obj i = s.obj i := rfl
@[simp] theorem State.setQueue_dom (i : Key) : (s.setQueue q x).dom i = s.dom i := rfl
end

/-! setPort -/

section
variable (p : Nat) (x : PortState)
@[simp] theorem State.setPort_tick : (s.setPort p x).tick = s.tick := rfl
@[simp] theorem State.setPort_dict : (s.setPort p x).dict = s.dict := rfl
@[simp] theorem State.setPort_doms : (s.setPort p x).doms = s.doms := rfl
@[simp] theorem State.setPort_coreDict : (s.setPort p x).coreDict = s.coreDict := rfl
@[simp] theorem State.setPort_coreDoms : (s.setPort p x).coreDoms = s.coreDoms := rfl
@[simp] theorem State.setPort_readBufs : (s.setPort p x).readBufs = s.readBufs := rfl
@[simp] theorem State.setPort_transfers : (s.setPort p x).transfers = s.transfers := rfl
@[simp] theorem State.setPort_landing : (s.setPort p x).landing = s.landing := rfl
@[simp] theorem State.setPort_due : (s.setPort p x).due = s.due := rfl
@[simp] theorem State.setPort_parked : (s.setPort p x).parked = s.parked := rfl
@[simp] theorem State.setPort_sessions : (s.setPort p x).sessions = s.sessions := rfl
@[simp] theorem State.setPort_draws : (s.setPort p x).draws = s.draws := rfl
@[simp] theorem State.setPort_journal : (s.setPort p x).journal = s.journal := rfl
@[simp] theorem State.setPort_mirror : (s.setPort p x).mirror = s.mirror := rfl
@[simp] theorem State.setPort_jPace : (s.setPort p x).jPace = s.jPace := rfl
@[simp] theorem State.setPort_time : (s.setPort p x).time = s.time := rfl
@[simp] theorem State.setPort_casc : (s.setPort p x).casc = s.casc := rfl
@[simp] theorem State.setPort_syn : (s.setPort p x).syn = s.syn := rfl
@[simp] theorem State.setPort_queues : (s.setPort p x).queues = s.queues := rfl
@[simp] theorem State.setPort_cmm : (s.setPort p x).cmm = s.cmm := rfl
@[simp] theorem State.setPort_mem : (s.setPort p x).mem = s.mem := rfl
@[simp] theorem State.setPort_memBad : (s.setPort p x).memBad = s.memBad := rfl
@[simp] theorem State.setPort_chans : (s.setPort p x).chans = s.chans := rfl
@[simp] theorem State.setPort_lgRr : (s.setPort p x).lgRr = s.lgRr := rfl
@[simp] theorem State.setPort_arrivals : (s.setPort p x).arrivals = s.arrivals := rfl
@[simp] theorem State.setPort_units : (s.setPort p x).units = s.units := rfl
@[simp] theorem State.setPort_cuOut : (s.setPort p x).cuOut = s.cuOut := rfl
@[simp] theorem State.setPort_rings : (s.setPort p x).rings = s.rings := rfl
@[simp] theorem State.setPort_bbs : (s.setPort p x).bbs = s.bbs := rfl
@[simp] theorem State.setPort_xs : (s.setPort p x).xs = s.xs := rfl
@[simp] theorem State.setPort_acts : (s.setPort p x).acts = s.acts := rfl
@[simp] theorem State.setPort_bbShown : (s.setPort p x).bbShown = s.bbShown := rfl
@[simp] theorem State.setPort_trigIn : (s.setPort p x).trigIn = s.trigIn := rfl
@[simp] theorem State.setPort_trigOut : (s.setPort p x).trigOut = s.trigOut := rfl
@[simp] theorem State.setPort_evLast : (s.setPort p x).evLast = s.evLast := rfl
@[simp] theorem State.setPort_evRead : (s.setPort p x).evRead = s.evRead := rfl
@[simp] theorem State.setPort_host : (s.setPort p x).host = s.host := rfl
@[simp] theorem State.setPort_hoop : (s.setPort p x).hoop = s.hoop := rfl
@[simp] theorem State.setPort_hoopFlips : (s.setPort p x).hoopFlips = s.hoopFlips := rfl
@[simp] theorem State.setPort_subQ : (s.setPort p x).subQ = s.subQ := rfl
@[simp] theorem State.setPort_otp : (s.setPort p x).otp = s.otp := rfl
@[simp] theorem State.setPort_lanes : (s.setPort p x).lanes = s.lanes := rfl
@[simp] theorem State.setPort_links : (s.setPort p x).links = s.links := rfl
@[simp] theorem State.setPort_decs : (s.setPort p x).decs = s.decs := rfl
@[simp] theorem State.setPort_eye : (s.setPort p x).eye = s.eye := rfl
@[simp] theorem State.setPort_ringClr : (s.setPort p x).ringClr = s.ringClr := rfl
@[simp] theorem State.setPort_flowLanes : (s.setPort p x).flowLanes = s.flowLanes := rfl
@[simp] theorem State.setPort_flows : (s.setPort p x).flows = s.flows := rfl
@[simp] theorem State.setPort_deferred : (s.setPort p x).deferred = s.deferred := rfl
@[simp] theorem State.setPort_jobs : (s.setPort p x).jobs = s.jobs := rfl
@[simp] theorem State.setPort_deflSlots : (s.setPort p x).deflSlots = s.deflSlots := rfl
@[simp] theorem State.setPort_jobOrder : (s.setPort p x).jobOrder = s.jobOrder := rfl
@[simp] theorem State.setPort_taken : (s.setPort p x).taken = s.taken := rfl
@[simp] theorem State.setPort_sgmii : (s.setPort p x).sgmii = s.sgmii := rfl
@[simp] theorem State.setPort_hops : (s.setPort p x).hops = s.hops := rfl
@[simp] theorem State.setPort_lock : (s.setPort p x).lock = s.lock := rfl
@[simp] theorem State.setPort_cores : (s.setPort p x).cores = s.cores := rfl
@[simp] theorem State.setPort_shm : (s.setPort p x).shm = s.shm := rfl
@[simp] theorem State.setPort_flash : (s.setPort p x).flash = s.flash := rfl
@[simp] theorem State.setPort_sigs : (s.setPort p x).sigs = s.sigs := rfl
@[simp] theorem State.setPort_streams : (s.setPort p x).streams = s.streams := rfl
@[simp] theorem State.setPort_health : (s.setPort p x).health = s.health := rfl
@[simp] theorem State.setPort_repair : (s.setPort p x).repair = s.repair := rfl
@[simp] theorem State.setPort_dev : (s.setPort p x).dev = s.dev := rfl
@[simp] theorem State.setPort_swept : (s.setPort p x).swept = s.swept := rfl
@[simp] theorem State.setPort_free : (s.setPort p x).free = s.free := rfl
@[simp] theorem State.setPort_out : (s.setPort p x).out = s.out := rfl
@[simp] theorem State.setPort_pending : (s.setPort p x).pending = s.pending := rfl
@[simp] theorem State.setPort_obj (i : Key) : (s.setPort p x).obj i = s.obj i := rfl
@[simp] theorem State.setPort_dom (i : Key) : (s.setPort p x).dom i = s.dom i := rfl
end

/-! setHost -/

section
variable (f : HostPort → HostPort)
@[simp] theorem State.setHost_tick : (s.setHost f).tick = s.tick := rfl
@[simp] theorem State.setHost_dict : (s.setHost f).dict = s.dict := rfl
@[simp] theorem State.setHost_doms : (s.setHost f).doms = s.doms := rfl
@[simp] theorem State.setHost_coreDict : (s.setHost f).coreDict = s.coreDict := rfl
@[simp] theorem State.setHost_coreDoms : (s.setHost f).coreDoms = s.coreDoms := rfl
@[simp] theorem State.setHost_ports : (s.setHost f).ports = s.ports := rfl
@[simp] theorem State.setHost_readBufs : (s.setHost f).readBufs = s.readBufs := rfl
@[simp] theorem State.setHost_transfers : (s.setHost f).transfers = s.transfers := rfl
@[simp] theorem State.setHost_landing : (s.setHost f).landing = s.landing := rfl
@[simp] theorem State.setHost_due : (s.setHost f).due = s.due := rfl
@[simp] theorem State.setHost_parked : (s.setHost f).parked = s.parked := rfl
@[simp] theorem State.setHost_sessions : (s.setHost f).sessions = s.sessions := rfl
@[simp] theorem State.setHost_draws : (s.setHost f).draws = s.draws := rfl
@[simp] theorem State.setHost_journal : (s.setHost f).journal = s.journal := rfl
@[simp] theorem State.setHost_mirror : (s.setHost f).mirror = s.mirror := rfl
@[simp] theorem State.setHost_jPace : (s.setHost f).jPace = s.jPace := rfl
@[simp] theorem State.setHost_time : (s.setHost f).time = s.time := rfl
@[simp] theorem State.setHost_casc : (s.setHost f).casc = s.casc := rfl
@[simp] theorem State.setHost_syn : (s.setHost f).syn = s.syn := rfl
@[simp] theorem State.setHost_queues : (s.setHost f).queues = s.queues := rfl
@[simp] theorem State.setHost_cmm : (s.setHost f).cmm = s.cmm := rfl
@[simp] theorem State.setHost_mem : (s.setHost f).mem = s.mem := rfl
@[simp] theorem State.setHost_memBad : (s.setHost f).memBad = s.memBad := rfl
@[simp] theorem State.setHost_chans : (s.setHost f).chans = s.chans := rfl
@[simp] theorem State.setHost_lgRr : (s.setHost f).lgRr = s.lgRr := rfl
@[simp] theorem State.setHost_arrivals : (s.setHost f).arrivals = s.arrivals := rfl
@[simp] theorem State.setHost_units : (s.setHost f).units = s.units := rfl
@[simp] theorem State.setHost_cuOut : (s.setHost f).cuOut = s.cuOut := rfl
@[simp] theorem State.setHost_rings : (s.setHost f).rings = s.rings := rfl
@[simp] theorem State.setHost_bbs : (s.setHost f).bbs = s.bbs := rfl
@[simp] theorem State.setHost_xs : (s.setHost f).xs = s.xs := rfl
@[simp] theorem State.setHost_acts : (s.setHost f).acts = s.acts := rfl
@[simp] theorem State.setHost_bbShown : (s.setHost f).bbShown = s.bbShown := rfl
@[simp] theorem State.setHost_trigIn : (s.setHost f).trigIn = s.trigIn := rfl
@[simp] theorem State.setHost_trigOut : (s.setHost f).trigOut = s.trigOut := rfl
@[simp] theorem State.setHost_evLast : (s.setHost f).evLast = s.evLast := rfl
@[simp] theorem State.setHost_evRead : (s.setHost f).evRead = s.evRead := rfl
@[simp] theorem State.setHost_hoop : (s.setHost f).hoop = s.hoop := rfl
@[simp] theorem State.setHost_hoopFlips : (s.setHost f).hoopFlips = s.hoopFlips := rfl
@[simp] theorem State.setHost_subQ : (s.setHost f).subQ = s.subQ := rfl
@[simp] theorem State.setHost_otp : (s.setHost f).otp = s.otp := rfl
@[simp] theorem State.setHost_lanes : (s.setHost f).lanes = s.lanes := rfl
@[simp] theorem State.setHost_links : (s.setHost f).links = s.links := rfl
@[simp] theorem State.setHost_decs : (s.setHost f).decs = s.decs := rfl
@[simp] theorem State.setHost_eye : (s.setHost f).eye = s.eye := rfl
@[simp] theorem State.setHost_ringClr : (s.setHost f).ringClr = s.ringClr := rfl
@[simp] theorem State.setHost_flowLanes : (s.setHost f).flowLanes = s.flowLanes := rfl
@[simp] theorem State.setHost_flows : (s.setHost f).flows = s.flows := rfl
@[simp] theorem State.setHost_deferred : (s.setHost f).deferred = s.deferred := rfl
@[simp] theorem State.setHost_jobs : (s.setHost f).jobs = s.jobs := rfl
@[simp] theorem State.setHost_deflSlots : (s.setHost f).deflSlots = s.deflSlots := rfl
@[simp] theorem State.setHost_jobOrder : (s.setHost f).jobOrder = s.jobOrder := rfl
@[simp] theorem State.setHost_taken : (s.setHost f).taken = s.taken := rfl
@[simp] theorem State.setHost_sgmii : (s.setHost f).sgmii = s.sgmii := rfl
@[simp] theorem State.setHost_hops : (s.setHost f).hops = s.hops := rfl
@[simp] theorem State.setHost_lock : (s.setHost f).lock = s.lock := rfl
@[simp] theorem State.setHost_cores : (s.setHost f).cores = s.cores := rfl
@[simp] theorem State.setHost_shm : (s.setHost f).shm = s.shm := rfl
@[simp] theorem State.setHost_flash : (s.setHost f).flash = s.flash := rfl
@[simp] theorem State.setHost_sigs : (s.setHost f).sigs = s.sigs := rfl
@[simp] theorem State.setHost_streams : (s.setHost f).streams = s.streams := rfl
@[simp] theorem State.setHost_health : (s.setHost f).health = s.health := rfl
@[simp] theorem State.setHost_repair : (s.setHost f).repair = s.repair := rfl
@[simp] theorem State.setHost_dev : (s.setHost f).dev = s.dev := rfl
@[simp] theorem State.setHost_swept : (s.setHost f).swept = s.swept := rfl
@[simp] theorem State.setHost_free : (s.setHost f).free = s.free := rfl
@[simp] theorem State.setHost_out : (s.setHost f).out = s.out := rfl
@[simp] theorem State.setHost_pending : (s.setHost f).pending = s.pending := rfl
@[simp] theorem State.setHost_obj (i : Key) : (s.setHost f).obj i = s.obj i := rfl
@[simp] theorem State.setHost_dom (i : Key) : (s.setHost f).dom i = s.dom i := rfl
end

/-! setChan -/

section
variable (n : Nat) (c : Channel)
@[simp] theorem State.setChan_tick : (s.setChan n c).tick = s.tick := rfl
@[simp] theorem State.setChan_dict : (s.setChan n c).dict = s.dict := rfl
@[simp] theorem State.setChan_doms : (s.setChan n c).doms = s.doms := rfl
@[simp] theorem State.setChan_coreDict : (s.setChan n c).coreDict = s.coreDict := rfl
@[simp] theorem State.setChan_coreDoms : (s.setChan n c).coreDoms = s.coreDoms := rfl
@[simp] theorem State.setChan_ports : (s.setChan n c).ports = s.ports := rfl
@[simp] theorem State.setChan_readBufs : (s.setChan n c).readBufs = s.readBufs := rfl
@[simp] theorem State.setChan_transfers : (s.setChan n c).transfers = s.transfers := rfl
@[simp] theorem State.setChan_landing : (s.setChan n c).landing = s.landing := rfl
@[simp] theorem State.setChan_due : (s.setChan n c).due = s.due := rfl
@[simp] theorem State.setChan_parked : (s.setChan n c).parked = s.parked := rfl
@[simp] theorem State.setChan_sessions : (s.setChan n c).sessions = s.sessions := rfl
@[simp] theorem State.setChan_draws : (s.setChan n c).draws = s.draws := rfl
@[simp] theorem State.setChan_journal : (s.setChan n c).journal = s.journal := rfl
@[simp] theorem State.setChan_mirror : (s.setChan n c).mirror = s.mirror := rfl
@[simp] theorem State.setChan_jPace : (s.setChan n c).jPace = s.jPace := rfl
@[simp] theorem State.setChan_time : (s.setChan n c).time = s.time := rfl
@[simp] theorem State.setChan_casc : (s.setChan n c).casc = s.casc := rfl
@[simp] theorem State.setChan_syn : (s.setChan n c).syn = s.syn := rfl
@[simp] theorem State.setChan_queues : (s.setChan n c).queues = s.queues := rfl
@[simp] theorem State.setChan_cmm : (s.setChan n c).cmm = s.cmm := rfl
@[simp] theorem State.setChan_mem : (s.setChan n c).mem = s.mem := rfl
@[simp] theorem State.setChan_memBad : (s.setChan n c).memBad = s.memBad := rfl
@[simp] theorem State.setChan_lgRr : (s.setChan n c).lgRr = s.lgRr := rfl
@[simp] theorem State.setChan_arrivals : (s.setChan n c).arrivals = s.arrivals := rfl
@[simp] theorem State.setChan_units : (s.setChan n c).units = s.units := rfl
@[simp] theorem State.setChan_cuOut : (s.setChan n c).cuOut = s.cuOut := rfl
@[simp] theorem State.setChan_rings : (s.setChan n c).rings = s.rings := rfl
@[simp] theorem State.setChan_bbs : (s.setChan n c).bbs = s.bbs := rfl
@[simp] theorem State.setChan_xs : (s.setChan n c).xs = s.xs := rfl
@[simp] theorem State.setChan_acts : (s.setChan n c).acts = s.acts := rfl
@[simp] theorem State.setChan_bbShown : (s.setChan n c).bbShown = s.bbShown := rfl
@[simp] theorem State.setChan_trigIn : (s.setChan n c).trigIn = s.trigIn := rfl
@[simp] theorem State.setChan_trigOut : (s.setChan n c).trigOut = s.trigOut := rfl
@[simp] theorem State.setChan_evLast : (s.setChan n c).evLast = s.evLast := rfl
@[simp] theorem State.setChan_evRead : (s.setChan n c).evRead = s.evRead := rfl
@[simp] theorem State.setChan_host : (s.setChan n c).host = s.host := rfl
@[simp] theorem State.setChan_hoop : (s.setChan n c).hoop = s.hoop := rfl
@[simp] theorem State.setChan_hoopFlips : (s.setChan n c).hoopFlips = s.hoopFlips := rfl
@[simp] theorem State.setChan_subQ : (s.setChan n c).subQ = s.subQ := rfl
@[simp] theorem State.setChan_otp : (s.setChan n c).otp = s.otp := rfl
@[simp] theorem State.setChan_lanes : (s.setChan n c).lanes = s.lanes := rfl
@[simp] theorem State.setChan_links : (s.setChan n c).links = s.links := rfl
@[simp] theorem State.setChan_decs : (s.setChan n c).decs = s.decs := rfl
@[simp] theorem State.setChan_eye : (s.setChan n c).eye = s.eye := rfl
@[simp] theorem State.setChan_ringClr : (s.setChan n c).ringClr = s.ringClr := rfl
@[simp] theorem State.setChan_flowLanes : (s.setChan n c).flowLanes = s.flowLanes := rfl
@[simp] theorem State.setChan_flows : (s.setChan n c).flows = s.flows := rfl
@[simp] theorem State.setChan_deferred : (s.setChan n c).deferred = s.deferred := rfl
@[simp] theorem State.setChan_jobs : (s.setChan n c).jobs = s.jobs := rfl
@[simp] theorem State.setChan_deflSlots : (s.setChan n c).deflSlots = s.deflSlots := rfl
@[simp] theorem State.setChan_jobOrder : (s.setChan n c).jobOrder = s.jobOrder := rfl
@[simp] theorem State.setChan_taken : (s.setChan n c).taken = s.taken := rfl
@[simp] theorem State.setChan_sgmii : (s.setChan n c).sgmii = s.sgmii := rfl
@[simp] theorem State.setChan_hops : (s.setChan n c).hops = s.hops := rfl
@[simp] theorem State.setChan_lock : (s.setChan n c).lock = s.lock := rfl
@[simp] theorem State.setChan_cores : (s.setChan n c).cores = s.cores := rfl
@[simp] theorem State.setChan_shm : (s.setChan n c).shm = s.shm := rfl
@[simp] theorem State.setChan_flash : (s.setChan n c).flash = s.flash := rfl
@[simp] theorem State.setChan_sigs : (s.setChan n c).sigs = s.sigs := rfl
@[simp] theorem State.setChan_streams : (s.setChan n c).streams = s.streams := rfl
@[simp] theorem State.setChan_health : (s.setChan n c).health = s.health := rfl
@[simp] theorem State.setChan_repair : (s.setChan n c).repair = s.repair := rfl
@[simp] theorem State.setChan_dev : (s.setChan n c).dev = s.dev := rfl
@[simp] theorem State.setChan_swept : (s.setChan n c).swept = s.swept := rfl
@[simp] theorem State.setChan_free : (s.setChan n c).free = s.free := rfl
@[simp] theorem State.setChan_out : (s.setChan n c).out = s.out := rfl
@[simp] theorem State.setChan_pending : (s.setChan n c).pending = s.pending := rfl
@[simp] theorem State.setChan_obj (i : Key) : (s.setChan n c).obj i = s.obj i := rfl
@[simp] theorem State.setChan_dom (i : Key) : (s.setChan n c).dom i = s.dom i := rfl
end

/-! setLane -/

section
variable (n : Nat) (x : Lane)
@[simp] theorem State.setLane_tick : (s.setLane n x).tick = s.tick := rfl
@[simp] theorem State.setLane_dict : (s.setLane n x).dict = s.dict := rfl
@[simp] theorem State.setLane_doms : (s.setLane n x).doms = s.doms := rfl
@[simp] theorem State.setLane_coreDict : (s.setLane n x).coreDict = s.coreDict := rfl
@[simp] theorem State.setLane_coreDoms : (s.setLane n x).coreDoms = s.coreDoms := rfl
@[simp] theorem State.setLane_ports : (s.setLane n x).ports = s.ports := rfl
@[simp] theorem State.setLane_readBufs : (s.setLane n x).readBufs = s.readBufs := rfl
@[simp] theorem State.setLane_transfers : (s.setLane n x).transfers = s.transfers := rfl
@[simp] theorem State.setLane_landing : (s.setLane n x).landing = s.landing := rfl
@[simp] theorem State.setLane_due : (s.setLane n x).due = s.due := rfl
@[simp] theorem State.setLane_parked : (s.setLane n x).parked = s.parked := rfl
@[simp] theorem State.setLane_sessions : (s.setLane n x).sessions = s.sessions := rfl
@[simp] theorem State.setLane_draws : (s.setLane n x).draws = s.draws := rfl
@[simp] theorem State.setLane_journal : (s.setLane n x).journal = s.journal := rfl
@[simp] theorem State.setLane_mirror : (s.setLane n x).mirror = s.mirror := rfl
@[simp] theorem State.setLane_jPace : (s.setLane n x).jPace = s.jPace := rfl
@[simp] theorem State.setLane_time : (s.setLane n x).time = s.time := rfl
@[simp] theorem State.setLane_casc : (s.setLane n x).casc = s.casc := rfl
@[simp] theorem State.setLane_syn : (s.setLane n x).syn = s.syn := rfl
@[simp] theorem State.setLane_queues : (s.setLane n x).queues = s.queues := rfl
@[simp] theorem State.setLane_cmm : (s.setLane n x).cmm = s.cmm := rfl
@[simp] theorem State.setLane_mem : (s.setLane n x).mem = s.mem := rfl
@[simp] theorem State.setLane_memBad : (s.setLane n x).memBad = s.memBad := rfl
@[simp] theorem State.setLane_chans : (s.setLane n x).chans = s.chans := rfl
@[simp] theorem State.setLane_lgRr : (s.setLane n x).lgRr = s.lgRr := rfl
@[simp] theorem State.setLane_arrivals : (s.setLane n x).arrivals = s.arrivals := rfl
@[simp] theorem State.setLane_units : (s.setLane n x).units = s.units := rfl
@[simp] theorem State.setLane_cuOut : (s.setLane n x).cuOut = s.cuOut := rfl
@[simp] theorem State.setLane_rings : (s.setLane n x).rings = s.rings := rfl
@[simp] theorem State.setLane_bbs : (s.setLane n x).bbs = s.bbs := rfl
@[simp] theorem State.setLane_xs : (s.setLane n x).xs = s.xs := rfl
@[simp] theorem State.setLane_acts : (s.setLane n x).acts = s.acts := rfl
@[simp] theorem State.setLane_bbShown : (s.setLane n x).bbShown = s.bbShown := rfl
@[simp] theorem State.setLane_trigIn : (s.setLane n x).trigIn = s.trigIn := rfl
@[simp] theorem State.setLane_trigOut : (s.setLane n x).trigOut = s.trigOut := rfl
@[simp] theorem State.setLane_evLast : (s.setLane n x).evLast = s.evLast := rfl
@[simp] theorem State.setLane_evRead : (s.setLane n x).evRead = s.evRead := rfl
@[simp] theorem State.setLane_host : (s.setLane n x).host = s.host := rfl
@[simp] theorem State.setLane_hoop : (s.setLane n x).hoop = s.hoop := rfl
@[simp] theorem State.setLane_hoopFlips : (s.setLane n x).hoopFlips = s.hoopFlips := rfl
@[simp] theorem State.setLane_subQ : (s.setLane n x).subQ = s.subQ := rfl
@[simp] theorem State.setLane_otp : (s.setLane n x).otp = s.otp := rfl
@[simp] theorem State.setLane_links : (s.setLane n x).links = s.links := rfl
@[simp] theorem State.setLane_decs : (s.setLane n x).decs = s.decs := rfl
@[simp] theorem State.setLane_eye : (s.setLane n x).eye = s.eye := rfl
@[simp] theorem State.setLane_ringClr : (s.setLane n x).ringClr = s.ringClr := rfl
@[simp] theorem State.setLane_flowLanes : (s.setLane n x).flowLanes = s.flowLanes := rfl
@[simp] theorem State.setLane_flows : (s.setLane n x).flows = s.flows := rfl
@[simp] theorem State.setLane_deferred : (s.setLane n x).deferred = s.deferred := rfl
@[simp] theorem State.setLane_jobs : (s.setLane n x).jobs = s.jobs := rfl
@[simp] theorem State.setLane_deflSlots : (s.setLane n x).deflSlots = s.deflSlots := rfl
@[simp] theorem State.setLane_jobOrder : (s.setLane n x).jobOrder = s.jobOrder := rfl
@[simp] theorem State.setLane_taken : (s.setLane n x).taken = s.taken := rfl
@[simp] theorem State.setLane_sgmii : (s.setLane n x).sgmii = s.sgmii := rfl
@[simp] theorem State.setLane_hops : (s.setLane n x).hops = s.hops := rfl
@[simp] theorem State.setLane_lock : (s.setLane n x).lock = s.lock := rfl
@[simp] theorem State.setLane_cores : (s.setLane n x).cores = s.cores := rfl
@[simp] theorem State.setLane_shm : (s.setLane n x).shm = s.shm := rfl
@[simp] theorem State.setLane_flash : (s.setLane n x).flash = s.flash := rfl
@[simp] theorem State.setLane_sigs : (s.setLane n x).sigs = s.sigs := rfl
@[simp] theorem State.setLane_streams : (s.setLane n x).streams = s.streams := rfl
@[simp] theorem State.setLane_health : (s.setLane n x).health = s.health := rfl
@[simp] theorem State.setLane_repair : (s.setLane n x).repair = s.repair := rfl
@[simp] theorem State.setLane_dev : (s.setLane n x).dev = s.dev := rfl
@[simp] theorem State.setLane_swept : (s.setLane n x).swept = s.swept := rfl
@[simp] theorem State.setLane_free : (s.setLane n x).free = s.free := rfl
@[simp] theorem State.setLane_out : (s.setLane n x).out = s.out := rfl
@[simp] theorem State.setLane_pending : (s.setLane n x).pending = s.pending := rfl
@[simp] theorem State.setLane_obj (i : Key) : (s.setLane n x).obj i = s.obj i := rfl
@[simp] theorem State.setLane_dom (i : Key) : (s.setLane n x).dom i = s.dom i := rfl
end

/-! setLnk -/

section
variable (n : Nat) (x : Link)
@[simp] theorem State.setLnk_tick : (s.setLnk n x).tick = s.tick := rfl
@[simp] theorem State.setLnk_dict : (s.setLnk n x).dict = s.dict := rfl
@[simp] theorem State.setLnk_doms : (s.setLnk n x).doms = s.doms := rfl
@[simp] theorem State.setLnk_coreDict : (s.setLnk n x).coreDict = s.coreDict := rfl
@[simp] theorem State.setLnk_coreDoms : (s.setLnk n x).coreDoms = s.coreDoms := rfl
@[simp] theorem State.setLnk_ports : (s.setLnk n x).ports = s.ports := rfl
@[simp] theorem State.setLnk_readBufs : (s.setLnk n x).readBufs = s.readBufs := rfl
@[simp] theorem State.setLnk_transfers : (s.setLnk n x).transfers = s.transfers := rfl
@[simp] theorem State.setLnk_landing : (s.setLnk n x).landing = s.landing := rfl
@[simp] theorem State.setLnk_due : (s.setLnk n x).due = s.due := rfl
@[simp] theorem State.setLnk_parked : (s.setLnk n x).parked = s.parked := rfl
@[simp] theorem State.setLnk_sessions : (s.setLnk n x).sessions = s.sessions := rfl
@[simp] theorem State.setLnk_draws : (s.setLnk n x).draws = s.draws := rfl
@[simp] theorem State.setLnk_journal : (s.setLnk n x).journal = s.journal := rfl
@[simp] theorem State.setLnk_mirror : (s.setLnk n x).mirror = s.mirror := rfl
@[simp] theorem State.setLnk_jPace : (s.setLnk n x).jPace = s.jPace := rfl
@[simp] theorem State.setLnk_time : (s.setLnk n x).time = s.time := rfl
@[simp] theorem State.setLnk_casc : (s.setLnk n x).casc = s.casc := rfl
@[simp] theorem State.setLnk_syn : (s.setLnk n x).syn = s.syn := rfl
@[simp] theorem State.setLnk_queues : (s.setLnk n x).queues = s.queues := rfl
@[simp] theorem State.setLnk_cmm : (s.setLnk n x).cmm = s.cmm := rfl
@[simp] theorem State.setLnk_mem : (s.setLnk n x).mem = s.mem := rfl
@[simp] theorem State.setLnk_memBad : (s.setLnk n x).memBad = s.memBad := rfl
@[simp] theorem State.setLnk_chans : (s.setLnk n x).chans = s.chans := rfl
@[simp] theorem State.setLnk_lgRr : (s.setLnk n x).lgRr = s.lgRr := rfl
@[simp] theorem State.setLnk_arrivals : (s.setLnk n x).arrivals = s.arrivals := rfl
@[simp] theorem State.setLnk_units : (s.setLnk n x).units = s.units := rfl
@[simp] theorem State.setLnk_cuOut : (s.setLnk n x).cuOut = s.cuOut := rfl
@[simp] theorem State.setLnk_rings : (s.setLnk n x).rings = s.rings := rfl
@[simp] theorem State.setLnk_bbs : (s.setLnk n x).bbs = s.bbs := rfl
@[simp] theorem State.setLnk_xs : (s.setLnk n x).xs = s.xs := rfl
@[simp] theorem State.setLnk_acts : (s.setLnk n x).acts = s.acts := rfl
@[simp] theorem State.setLnk_bbShown : (s.setLnk n x).bbShown = s.bbShown := rfl
@[simp] theorem State.setLnk_trigIn : (s.setLnk n x).trigIn = s.trigIn := rfl
@[simp] theorem State.setLnk_trigOut : (s.setLnk n x).trigOut = s.trigOut := rfl
@[simp] theorem State.setLnk_evLast : (s.setLnk n x).evLast = s.evLast := rfl
@[simp] theorem State.setLnk_evRead : (s.setLnk n x).evRead = s.evRead := rfl
@[simp] theorem State.setLnk_host : (s.setLnk n x).host = s.host := rfl
@[simp] theorem State.setLnk_hoop : (s.setLnk n x).hoop = s.hoop := rfl
@[simp] theorem State.setLnk_hoopFlips : (s.setLnk n x).hoopFlips = s.hoopFlips := rfl
@[simp] theorem State.setLnk_subQ : (s.setLnk n x).subQ = s.subQ := rfl
@[simp] theorem State.setLnk_otp : (s.setLnk n x).otp = s.otp := rfl
@[simp] theorem State.setLnk_lanes : (s.setLnk n x).lanes = s.lanes := rfl
@[simp] theorem State.setLnk_decs : (s.setLnk n x).decs = s.decs := rfl
@[simp] theorem State.setLnk_eye : (s.setLnk n x).eye = s.eye := rfl
@[simp] theorem State.setLnk_ringClr : (s.setLnk n x).ringClr = s.ringClr := rfl
@[simp] theorem State.setLnk_flowLanes : (s.setLnk n x).flowLanes = s.flowLanes := rfl
@[simp] theorem State.setLnk_flows : (s.setLnk n x).flows = s.flows := rfl
@[simp] theorem State.setLnk_deferred : (s.setLnk n x).deferred = s.deferred := rfl
@[simp] theorem State.setLnk_jobs : (s.setLnk n x).jobs = s.jobs := rfl
@[simp] theorem State.setLnk_deflSlots : (s.setLnk n x).deflSlots = s.deflSlots := rfl
@[simp] theorem State.setLnk_jobOrder : (s.setLnk n x).jobOrder = s.jobOrder := rfl
@[simp] theorem State.setLnk_taken : (s.setLnk n x).taken = s.taken := rfl
@[simp] theorem State.setLnk_sgmii : (s.setLnk n x).sgmii = s.sgmii := rfl
@[simp] theorem State.setLnk_hops : (s.setLnk n x).hops = s.hops := rfl
@[simp] theorem State.setLnk_lock : (s.setLnk n x).lock = s.lock := rfl
@[simp] theorem State.setLnk_cores : (s.setLnk n x).cores = s.cores := rfl
@[simp] theorem State.setLnk_shm : (s.setLnk n x).shm = s.shm := rfl
@[simp] theorem State.setLnk_flash : (s.setLnk n x).flash = s.flash := rfl
@[simp] theorem State.setLnk_sigs : (s.setLnk n x).sigs = s.sigs := rfl
@[simp] theorem State.setLnk_streams : (s.setLnk n x).streams = s.streams := rfl
@[simp] theorem State.setLnk_health : (s.setLnk n x).health = s.health := rfl
@[simp] theorem State.setLnk_repair : (s.setLnk n x).repair = s.repair := rfl
@[simp] theorem State.setLnk_dev : (s.setLnk n x).dev = s.dev := rfl
@[simp] theorem State.setLnk_swept : (s.setLnk n x).swept = s.swept := rfl
@[simp] theorem State.setLnk_free : (s.setLnk n x).free = s.free := rfl
@[simp] theorem State.setLnk_out : (s.setLnk n x).out = s.out := rfl
@[simp] theorem State.setLnk_pending : (s.setLnk n x).pending = s.pending := rfl
@[simp] theorem State.setLnk_obj (i : Key) : (s.setLnk n x).obj i = s.obj i := rfl
@[simp] theorem State.setLnk_dom (i : Key) : (s.setLnk n x).dom i = s.dom i := rfl
end

/-! setDec -/

section
variable (n : Nat) (d : Decoder)
@[simp] theorem State.setDec_tick : (s.setDec n d).tick = s.tick := rfl
@[simp] theorem State.setDec_dict : (s.setDec n d).dict = s.dict := rfl
@[simp] theorem State.setDec_doms : (s.setDec n d).doms = s.doms := rfl
@[simp] theorem State.setDec_coreDict : (s.setDec n d).coreDict = s.coreDict := rfl
@[simp] theorem State.setDec_coreDoms : (s.setDec n d).coreDoms = s.coreDoms := rfl
@[simp] theorem State.setDec_ports : (s.setDec n d).ports = s.ports := rfl
@[simp] theorem State.setDec_readBufs : (s.setDec n d).readBufs = s.readBufs := rfl
@[simp] theorem State.setDec_transfers : (s.setDec n d).transfers = s.transfers := rfl
@[simp] theorem State.setDec_landing : (s.setDec n d).landing = s.landing := rfl
@[simp] theorem State.setDec_due : (s.setDec n d).due = s.due := rfl
@[simp] theorem State.setDec_parked : (s.setDec n d).parked = s.parked := rfl
@[simp] theorem State.setDec_sessions : (s.setDec n d).sessions = s.sessions := rfl
@[simp] theorem State.setDec_draws : (s.setDec n d).draws = s.draws := rfl
@[simp] theorem State.setDec_journal : (s.setDec n d).journal = s.journal := rfl
@[simp] theorem State.setDec_mirror : (s.setDec n d).mirror = s.mirror := rfl
@[simp] theorem State.setDec_jPace : (s.setDec n d).jPace = s.jPace := rfl
@[simp] theorem State.setDec_time : (s.setDec n d).time = s.time := rfl
@[simp] theorem State.setDec_casc : (s.setDec n d).casc = s.casc := rfl
@[simp] theorem State.setDec_syn : (s.setDec n d).syn = s.syn := rfl
@[simp] theorem State.setDec_queues : (s.setDec n d).queues = s.queues := rfl
@[simp] theorem State.setDec_cmm : (s.setDec n d).cmm = s.cmm := rfl
@[simp] theorem State.setDec_mem : (s.setDec n d).mem = s.mem := rfl
@[simp] theorem State.setDec_memBad : (s.setDec n d).memBad = s.memBad := rfl
@[simp] theorem State.setDec_chans : (s.setDec n d).chans = s.chans := rfl
@[simp] theorem State.setDec_lgRr : (s.setDec n d).lgRr = s.lgRr := rfl
@[simp] theorem State.setDec_arrivals : (s.setDec n d).arrivals = s.arrivals := rfl
@[simp] theorem State.setDec_units : (s.setDec n d).units = s.units := rfl
@[simp] theorem State.setDec_cuOut : (s.setDec n d).cuOut = s.cuOut := rfl
@[simp] theorem State.setDec_rings : (s.setDec n d).rings = s.rings := rfl
@[simp] theorem State.setDec_bbs : (s.setDec n d).bbs = s.bbs := rfl
@[simp] theorem State.setDec_xs : (s.setDec n d).xs = s.xs := rfl
@[simp] theorem State.setDec_acts : (s.setDec n d).acts = s.acts := rfl
@[simp] theorem State.setDec_bbShown : (s.setDec n d).bbShown = s.bbShown := rfl
@[simp] theorem State.setDec_trigIn : (s.setDec n d).trigIn = s.trigIn := rfl
@[simp] theorem State.setDec_trigOut : (s.setDec n d).trigOut = s.trigOut := rfl
@[simp] theorem State.setDec_evLast : (s.setDec n d).evLast = s.evLast := rfl
@[simp] theorem State.setDec_evRead : (s.setDec n d).evRead = s.evRead := rfl
@[simp] theorem State.setDec_host : (s.setDec n d).host = s.host := rfl
@[simp] theorem State.setDec_hoop : (s.setDec n d).hoop = s.hoop := rfl
@[simp] theorem State.setDec_hoopFlips : (s.setDec n d).hoopFlips = s.hoopFlips := rfl
@[simp] theorem State.setDec_subQ : (s.setDec n d).subQ = s.subQ := rfl
@[simp] theorem State.setDec_otp : (s.setDec n d).otp = s.otp := rfl
@[simp] theorem State.setDec_lanes : (s.setDec n d).lanes = s.lanes := rfl
@[simp] theorem State.setDec_links : (s.setDec n d).links = s.links := rfl
@[simp] theorem State.setDec_eye : (s.setDec n d).eye = s.eye := rfl
@[simp] theorem State.setDec_ringClr : (s.setDec n d).ringClr = s.ringClr := rfl
@[simp] theorem State.setDec_flowLanes : (s.setDec n d).flowLanes = s.flowLanes := rfl
@[simp] theorem State.setDec_flows : (s.setDec n d).flows = s.flows := rfl
@[simp] theorem State.setDec_deferred : (s.setDec n d).deferred = s.deferred := rfl
@[simp] theorem State.setDec_jobs : (s.setDec n d).jobs = s.jobs := rfl
@[simp] theorem State.setDec_deflSlots : (s.setDec n d).deflSlots = s.deflSlots := rfl
@[simp] theorem State.setDec_jobOrder : (s.setDec n d).jobOrder = s.jobOrder := rfl
@[simp] theorem State.setDec_taken : (s.setDec n d).taken = s.taken := rfl
@[simp] theorem State.setDec_sgmii : (s.setDec n d).sgmii = s.sgmii := rfl
@[simp] theorem State.setDec_hops : (s.setDec n d).hops = s.hops := rfl
@[simp] theorem State.setDec_lock : (s.setDec n d).lock = s.lock := rfl
@[simp] theorem State.setDec_cores : (s.setDec n d).cores = s.cores := rfl
@[simp] theorem State.setDec_shm : (s.setDec n d).shm = s.shm := rfl
@[simp] theorem State.setDec_flash : (s.setDec n d).flash = s.flash := rfl
@[simp] theorem State.setDec_sigs : (s.setDec n d).sigs = s.sigs := rfl
@[simp] theorem State.setDec_streams : (s.setDec n d).streams = s.streams := rfl
@[simp] theorem State.setDec_health : (s.setDec n d).health = s.health := rfl
@[simp] theorem State.setDec_repair : (s.setDec n d).repair = s.repair := rfl
@[simp] theorem State.setDec_dev : (s.setDec n d).dev = s.dev := rfl
@[simp] theorem State.setDec_swept : (s.setDec n d).swept = s.swept := rfl
@[simp] theorem State.setDec_free : (s.setDec n d).free = s.free := rfl
@[simp] theorem State.setDec_out : (s.setDec n d).out = s.out := rfl
@[simp] theorem State.setDec_pending : (s.setDec n d).pending = s.pending := rfl
@[simp] theorem State.setDec_obj (i : Key) : (s.setDec n d).obj i = s.obj i := rfl
@[simp] theorem State.setDec_dom (i : Key) : (s.setDec n d).dom i = s.dom i := rfl
end

/-! setFlow -/

section
variable (n : Nat) (c : FlowCtx)
@[simp] theorem State.setFlow_tick : (s.setFlow n c).tick = s.tick := rfl
@[simp] theorem State.setFlow_dict : (s.setFlow n c).dict = s.dict := rfl
@[simp] theorem State.setFlow_doms : (s.setFlow n c).doms = s.doms := rfl
@[simp] theorem State.setFlow_coreDict : (s.setFlow n c).coreDict = s.coreDict := rfl
@[simp] theorem State.setFlow_coreDoms : (s.setFlow n c).coreDoms = s.coreDoms := rfl
@[simp] theorem State.setFlow_ports : (s.setFlow n c).ports = s.ports := rfl
@[simp] theorem State.setFlow_readBufs : (s.setFlow n c).readBufs = s.readBufs := rfl
@[simp] theorem State.setFlow_transfers : (s.setFlow n c).transfers = s.transfers := rfl
@[simp] theorem State.setFlow_landing : (s.setFlow n c).landing = s.landing := rfl
@[simp] theorem State.setFlow_due : (s.setFlow n c).due = s.due := rfl
@[simp] theorem State.setFlow_parked : (s.setFlow n c).parked = s.parked := rfl
@[simp] theorem State.setFlow_sessions : (s.setFlow n c).sessions = s.sessions := rfl
@[simp] theorem State.setFlow_draws : (s.setFlow n c).draws = s.draws := rfl
@[simp] theorem State.setFlow_journal : (s.setFlow n c).journal = s.journal := rfl
@[simp] theorem State.setFlow_mirror : (s.setFlow n c).mirror = s.mirror := rfl
@[simp] theorem State.setFlow_jPace : (s.setFlow n c).jPace = s.jPace := rfl
@[simp] theorem State.setFlow_time : (s.setFlow n c).time = s.time := rfl
@[simp] theorem State.setFlow_casc : (s.setFlow n c).casc = s.casc := rfl
@[simp] theorem State.setFlow_syn : (s.setFlow n c).syn = s.syn := rfl
@[simp] theorem State.setFlow_queues : (s.setFlow n c).queues = s.queues := rfl
@[simp] theorem State.setFlow_cmm : (s.setFlow n c).cmm = s.cmm := rfl
@[simp] theorem State.setFlow_mem : (s.setFlow n c).mem = s.mem := rfl
@[simp] theorem State.setFlow_memBad : (s.setFlow n c).memBad = s.memBad := rfl
@[simp] theorem State.setFlow_chans : (s.setFlow n c).chans = s.chans := rfl
@[simp] theorem State.setFlow_lgRr : (s.setFlow n c).lgRr = s.lgRr := rfl
@[simp] theorem State.setFlow_arrivals : (s.setFlow n c).arrivals = s.arrivals := rfl
@[simp] theorem State.setFlow_units : (s.setFlow n c).units = s.units := rfl
@[simp] theorem State.setFlow_cuOut : (s.setFlow n c).cuOut = s.cuOut := rfl
@[simp] theorem State.setFlow_rings : (s.setFlow n c).rings = s.rings := rfl
@[simp] theorem State.setFlow_bbs : (s.setFlow n c).bbs = s.bbs := rfl
@[simp] theorem State.setFlow_xs : (s.setFlow n c).xs = s.xs := rfl
@[simp] theorem State.setFlow_acts : (s.setFlow n c).acts = s.acts := rfl
@[simp] theorem State.setFlow_bbShown : (s.setFlow n c).bbShown = s.bbShown := rfl
@[simp] theorem State.setFlow_trigIn : (s.setFlow n c).trigIn = s.trigIn := rfl
@[simp] theorem State.setFlow_trigOut : (s.setFlow n c).trigOut = s.trigOut := rfl
@[simp] theorem State.setFlow_evLast : (s.setFlow n c).evLast = s.evLast := rfl
@[simp] theorem State.setFlow_evRead : (s.setFlow n c).evRead = s.evRead := rfl
@[simp] theorem State.setFlow_host : (s.setFlow n c).host = s.host := rfl
@[simp] theorem State.setFlow_hoop : (s.setFlow n c).hoop = s.hoop := rfl
@[simp] theorem State.setFlow_hoopFlips : (s.setFlow n c).hoopFlips = s.hoopFlips := rfl
@[simp] theorem State.setFlow_subQ : (s.setFlow n c).subQ = s.subQ := rfl
@[simp] theorem State.setFlow_otp : (s.setFlow n c).otp = s.otp := rfl
@[simp] theorem State.setFlow_lanes : (s.setFlow n c).lanes = s.lanes := rfl
@[simp] theorem State.setFlow_links : (s.setFlow n c).links = s.links := rfl
@[simp] theorem State.setFlow_decs : (s.setFlow n c).decs = s.decs := rfl
@[simp] theorem State.setFlow_eye : (s.setFlow n c).eye = s.eye := rfl
@[simp] theorem State.setFlow_ringClr : (s.setFlow n c).ringClr = s.ringClr := rfl
@[simp] theorem State.setFlow_flowLanes : (s.setFlow n c).flowLanes = s.flowLanes := rfl
@[simp] theorem State.setFlow_deferred : (s.setFlow n c).deferred = s.deferred := rfl
@[simp] theorem State.setFlow_jobs : (s.setFlow n c).jobs = s.jobs := rfl
@[simp] theorem State.setFlow_deflSlots : (s.setFlow n c).deflSlots = s.deflSlots := rfl
@[simp] theorem State.setFlow_jobOrder : (s.setFlow n c).jobOrder = s.jobOrder := rfl
@[simp] theorem State.setFlow_taken : (s.setFlow n c).taken = s.taken := rfl
@[simp] theorem State.setFlow_sgmii : (s.setFlow n c).sgmii = s.sgmii := rfl
@[simp] theorem State.setFlow_hops : (s.setFlow n c).hops = s.hops := rfl
@[simp] theorem State.setFlow_lock : (s.setFlow n c).lock = s.lock := rfl
@[simp] theorem State.setFlow_cores : (s.setFlow n c).cores = s.cores := rfl
@[simp] theorem State.setFlow_shm : (s.setFlow n c).shm = s.shm := rfl
@[simp] theorem State.setFlow_flash : (s.setFlow n c).flash = s.flash := rfl
@[simp] theorem State.setFlow_sigs : (s.setFlow n c).sigs = s.sigs := rfl
@[simp] theorem State.setFlow_streams : (s.setFlow n c).streams = s.streams := rfl
@[simp] theorem State.setFlow_health : (s.setFlow n c).health = s.health := rfl
@[simp] theorem State.setFlow_repair : (s.setFlow n c).repair = s.repair := rfl
@[simp] theorem State.setFlow_dev : (s.setFlow n c).dev = s.dev := rfl
@[simp] theorem State.setFlow_swept : (s.setFlow n c).swept = s.swept := rfl
@[simp] theorem State.setFlow_free : (s.setFlow n c).free = s.free := rfl
@[simp] theorem State.setFlow_out : (s.setFlow n c).out = s.out := rfl
@[simp] theorem State.setFlow_pending : (s.setFlow n c).pending = s.pending := rfl
@[simp] theorem State.setFlow_obj (i : Key) : (s.setFlow n c).obj i = s.obj i := rfl
@[simp] theorem State.setFlow_dom (i : Key) : (s.setFlow n c).dom i = s.dom i := rfl
end

/-! setFlLane -/

section
variable (n : Nat) (x : FlowLane)
@[simp] theorem State.setFlLane_tick : (s.setFlLane n x).tick = s.tick := rfl
@[simp] theorem State.setFlLane_dict : (s.setFlLane n x).dict = s.dict := rfl
@[simp] theorem State.setFlLane_doms : (s.setFlLane n x).doms = s.doms := rfl
@[simp] theorem State.setFlLane_coreDict : (s.setFlLane n x).coreDict = s.coreDict := rfl
@[simp] theorem State.setFlLane_coreDoms : (s.setFlLane n x).coreDoms = s.coreDoms := rfl
@[simp] theorem State.setFlLane_ports : (s.setFlLane n x).ports = s.ports := rfl
@[simp] theorem State.setFlLane_readBufs : (s.setFlLane n x).readBufs = s.readBufs := rfl
@[simp] theorem State.setFlLane_transfers : (s.setFlLane n x).transfers = s.transfers := rfl
@[simp] theorem State.setFlLane_landing : (s.setFlLane n x).landing = s.landing := rfl
@[simp] theorem State.setFlLane_due : (s.setFlLane n x).due = s.due := rfl
@[simp] theorem State.setFlLane_parked : (s.setFlLane n x).parked = s.parked := rfl
@[simp] theorem State.setFlLane_sessions : (s.setFlLane n x).sessions = s.sessions := rfl
@[simp] theorem State.setFlLane_draws : (s.setFlLane n x).draws = s.draws := rfl
@[simp] theorem State.setFlLane_journal : (s.setFlLane n x).journal = s.journal := rfl
@[simp] theorem State.setFlLane_mirror : (s.setFlLane n x).mirror = s.mirror := rfl
@[simp] theorem State.setFlLane_jPace : (s.setFlLane n x).jPace = s.jPace := rfl
@[simp] theorem State.setFlLane_time : (s.setFlLane n x).time = s.time := rfl
@[simp] theorem State.setFlLane_casc : (s.setFlLane n x).casc = s.casc := rfl
@[simp] theorem State.setFlLane_syn : (s.setFlLane n x).syn = s.syn := rfl
@[simp] theorem State.setFlLane_queues : (s.setFlLane n x).queues = s.queues := rfl
@[simp] theorem State.setFlLane_cmm : (s.setFlLane n x).cmm = s.cmm := rfl
@[simp] theorem State.setFlLane_mem : (s.setFlLane n x).mem = s.mem := rfl
@[simp] theorem State.setFlLane_memBad : (s.setFlLane n x).memBad = s.memBad := rfl
@[simp] theorem State.setFlLane_chans : (s.setFlLane n x).chans = s.chans := rfl
@[simp] theorem State.setFlLane_lgRr : (s.setFlLane n x).lgRr = s.lgRr := rfl
@[simp] theorem State.setFlLane_arrivals : (s.setFlLane n x).arrivals = s.arrivals := rfl
@[simp] theorem State.setFlLane_units : (s.setFlLane n x).units = s.units := rfl
@[simp] theorem State.setFlLane_cuOut : (s.setFlLane n x).cuOut = s.cuOut := rfl
@[simp] theorem State.setFlLane_rings : (s.setFlLane n x).rings = s.rings := rfl
@[simp] theorem State.setFlLane_bbs : (s.setFlLane n x).bbs = s.bbs := rfl
@[simp] theorem State.setFlLane_xs : (s.setFlLane n x).xs = s.xs := rfl
@[simp] theorem State.setFlLane_acts : (s.setFlLane n x).acts = s.acts := rfl
@[simp] theorem State.setFlLane_bbShown : (s.setFlLane n x).bbShown = s.bbShown := rfl
@[simp] theorem State.setFlLane_trigIn : (s.setFlLane n x).trigIn = s.trigIn := rfl
@[simp] theorem State.setFlLane_trigOut : (s.setFlLane n x).trigOut = s.trigOut := rfl
@[simp] theorem State.setFlLane_evLast : (s.setFlLane n x).evLast = s.evLast := rfl
@[simp] theorem State.setFlLane_evRead : (s.setFlLane n x).evRead = s.evRead := rfl
@[simp] theorem State.setFlLane_host : (s.setFlLane n x).host = s.host := rfl
@[simp] theorem State.setFlLane_hoop : (s.setFlLane n x).hoop = s.hoop := rfl
@[simp] theorem State.setFlLane_hoopFlips : (s.setFlLane n x).hoopFlips = s.hoopFlips := rfl
@[simp] theorem State.setFlLane_subQ : (s.setFlLane n x).subQ = s.subQ := rfl
@[simp] theorem State.setFlLane_otp : (s.setFlLane n x).otp = s.otp := rfl
@[simp] theorem State.setFlLane_lanes : (s.setFlLane n x).lanes = s.lanes := rfl
@[simp] theorem State.setFlLane_links : (s.setFlLane n x).links = s.links := rfl
@[simp] theorem State.setFlLane_decs : (s.setFlLane n x).decs = s.decs := rfl
@[simp] theorem State.setFlLane_eye : (s.setFlLane n x).eye = s.eye := rfl
@[simp] theorem State.setFlLane_ringClr : (s.setFlLane n x).ringClr = s.ringClr := rfl
@[simp] theorem State.setFlLane_flows : (s.setFlLane n x).flows = s.flows := rfl
@[simp] theorem State.setFlLane_deferred : (s.setFlLane n x).deferred = s.deferred := rfl
@[simp] theorem State.setFlLane_jobs : (s.setFlLane n x).jobs = s.jobs := rfl
@[simp] theorem State.setFlLane_deflSlots : (s.setFlLane n x).deflSlots = s.deflSlots := rfl
@[simp] theorem State.setFlLane_jobOrder : (s.setFlLane n x).jobOrder = s.jobOrder := rfl
@[simp] theorem State.setFlLane_taken : (s.setFlLane n x).taken = s.taken := rfl
@[simp] theorem State.setFlLane_sgmii : (s.setFlLane n x).sgmii = s.sgmii := rfl
@[simp] theorem State.setFlLane_hops : (s.setFlLane n x).hops = s.hops := rfl
@[simp] theorem State.setFlLane_lock : (s.setFlLane n x).lock = s.lock := rfl
@[simp] theorem State.setFlLane_cores : (s.setFlLane n x).cores = s.cores := rfl
@[simp] theorem State.setFlLane_shm : (s.setFlLane n x).shm = s.shm := rfl
@[simp] theorem State.setFlLane_flash : (s.setFlLane n x).flash = s.flash := rfl
@[simp] theorem State.setFlLane_sigs : (s.setFlLane n x).sigs = s.sigs := rfl
@[simp] theorem State.setFlLane_streams : (s.setFlLane n x).streams = s.streams := rfl
@[simp] theorem State.setFlLane_health : (s.setFlLane n x).health = s.health := rfl
@[simp] theorem State.setFlLane_repair : (s.setFlLane n x).repair = s.repair := rfl
@[simp] theorem State.setFlLane_dev : (s.setFlLane n x).dev = s.dev := rfl
@[simp] theorem State.setFlLane_swept : (s.setFlLane n x).swept = s.swept := rfl
@[simp] theorem State.setFlLane_free : (s.setFlLane n x).free = s.free := rfl
@[simp] theorem State.setFlLane_out : (s.setFlLane n x).out = s.out := rfl
@[simp] theorem State.setFlLane_pending : (s.setFlLane n x).pending = s.pending := rfl
@[simp] theorem State.setFlLane_obj (i : Key) : (s.setFlLane n x).obj i = s.obj i := rfl
@[simp] theorem State.setFlLane_dom (i : Key) : (s.setFlLane n x).dom i = s.dom i := rfl
end

/-! setDefl -/

section
variable (i : Nat) (x : DeflSlot)
@[simp] theorem State.setDefl_tick : (s.setDefl i x).tick = s.tick := rfl
@[simp] theorem State.setDefl_dict : (s.setDefl i x).dict = s.dict := rfl
@[simp] theorem State.setDefl_doms : (s.setDefl i x).doms = s.doms := rfl
@[simp] theorem State.setDefl_coreDict : (s.setDefl i x).coreDict = s.coreDict := rfl
@[simp] theorem State.setDefl_coreDoms : (s.setDefl i x).coreDoms = s.coreDoms := rfl
@[simp] theorem State.setDefl_ports : (s.setDefl i x).ports = s.ports := rfl
@[simp] theorem State.setDefl_readBufs : (s.setDefl i x).readBufs = s.readBufs := rfl
@[simp] theorem State.setDefl_transfers : (s.setDefl i x).transfers = s.transfers := rfl
@[simp] theorem State.setDefl_landing : (s.setDefl i x).landing = s.landing := rfl
@[simp] theorem State.setDefl_due : (s.setDefl i x).due = s.due := rfl
@[simp] theorem State.setDefl_parked : (s.setDefl i x).parked = s.parked := rfl
@[simp] theorem State.setDefl_sessions : (s.setDefl i x).sessions = s.sessions := rfl
@[simp] theorem State.setDefl_draws : (s.setDefl i x).draws = s.draws := rfl
@[simp] theorem State.setDefl_journal : (s.setDefl i x).journal = s.journal := rfl
@[simp] theorem State.setDefl_mirror : (s.setDefl i x).mirror = s.mirror := rfl
@[simp] theorem State.setDefl_jPace : (s.setDefl i x).jPace = s.jPace := rfl
@[simp] theorem State.setDefl_time : (s.setDefl i x).time = s.time := rfl
@[simp] theorem State.setDefl_casc : (s.setDefl i x).casc = s.casc := rfl
@[simp] theorem State.setDefl_syn : (s.setDefl i x).syn = s.syn := rfl
@[simp] theorem State.setDefl_queues : (s.setDefl i x).queues = s.queues := rfl
@[simp] theorem State.setDefl_cmm : (s.setDefl i x).cmm = s.cmm := rfl
@[simp] theorem State.setDefl_mem : (s.setDefl i x).mem = s.mem := rfl
@[simp] theorem State.setDefl_memBad : (s.setDefl i x).memBad = s.memBad := rfl
@[simp] theorem State.setDefl_chans : (s.setDefl i x).chans = s.chans := rfl
@[simp] theorem State.setDefl_lgRr : (s.setDefl i x).lgRr = s.lgRr := rfl
@[simp] theorem State.setDefl_arrivals : (s.setDefl i x).arrivals = s.arrivals := rfl
@[simp] theorem State.setDefl_units : (s.setDefl i x).units = s.units := rfl
@[simp] theorem State.setDefl_cuOut : (s.setDefl i x).cuOut = s.cuOut := rfl
@[simp] theorem State.setDefl_rings : (s.setDefl i x).rings = s.rings := rfl
@[simp] theorem State.setDefl_bbs : (s.setDefl i x).bbs = s.bbs := rfl
@[simp] theorem State.setDefl_xs : (s.setDefl i x).xs = s.xs := rfl
@[simp] theorem State.setDefl_acts : (s.setDefl i x).acts = s.acts := rfl
@[simp] theorem State.setDefl_bbShown : (s.setDefl i x).bbShown = s.bbShown := rfl
@[simp] theorem State.setDefl_trigIn : (s.setDefl i x).trigIn = s.trigIn := rfl
@[simp] theorem State.setDefl_trigOut : (s.setDefl i x).trigOut = s.trigOut := rfl
@[simp] theorem State.setDefl_evLast : (s.setDefl i x).evLast = s.evLast := rfl
@[simp] theorem State.setDefl_evRead : (s.setDefl i x).evRead = s.evRead := rfl
@[simp] theorem State.setDefl_host : (s.setDefl i x).host = s.host := rfl
@[simp] theorem State.setDefl_hoop : (s.setDefl i x).hoop = s.hoop := rfl
@[simp] theorem State.setDefl_hoopFlips : (s.setDefl i x).hoopFlips = s.hoopFlips := rfl
@[simp] theorem State.setDefl_subQ : (s.setDefl i x).subQ = s.subQ := rfl
@[simp] theorem State.setDefl_otp : (s.setDefl i x).otp = s.otp := rfl
@[simp] theorem State.setDefl_lanes : (s.setDefl i x).lanes = s.lanes := rfl
@[simp] theorem State.setDefl_links : (s.setDefl i x).links = s.links := rfl
@[simp] theorem State.setDefl_decs : (s.setDefl i x).decs = s.decs := rfl
@[simp] theorem State.setDefl_eye : (s.setDefl i x).eye = s.eye := rfl
@[simp] theorem State.setDefl_ringClr : (s.setDefl i x).ringClr = s.ringClr := rfl
@[simp] theorem State.setDefl_flowLanes : (s.setDefl i x).flowLanes = s.flowLanes := rfl
@[simp] theorem State.setDefl_flows : (s.setDefl i x).flows = s.flows := rfl
@[simp] theorem State.setDefl_deferred : (s.setDefl i x).deferred = s.deferred := rfl
@[simp] theorem State.setDefl_jobs : (s.setDefl i x).jobs = s.jobs := rfl
@[simp] theorem State.setDefl_jobOrder : (s.setDefl i x).jobOrder = s.jobOrder := rfl
@[simp] theorem State.setDefl_taken : (s.setDefl i x).taken = s.taken := rfl
@[simp] theorem State.setDefl_sgmii : (s.setDefl i x).sgmii = s.sgmii := rfl
@[simp] theorem State.setDefl_hops : (s.setDefl i x).hops = s.hops := rfl
@[simp] theorem State.setDefl_lock : (s.setDefl i x).lock = s.lock := rfl
@[simp] theorem State.setDefl_cores : (s.setDefl i x).cores = s.cores := rfl
@[simp] theorem State.setDefl_shm : (s.setDefl i x).shm = s.shm := rfl
@[simp] theorem State.setDefl_flash : (s.setDefl i x).flash = s.flash := rfl
@[simp] theorem State.setDefl_sigs : (s.setDefl i x).sigs = s.sigs := rfl
@[simp] theorem State.setDefl_streams : (s.setDefl i x).streams = s.streams := rfl
@[simp] theorem State.setDefl_health : (s.setDefl i x).health = s.health := rfl
@[simp] theorem State.setDefl_repair : (s.setDefl i x).repair = s.repair := rfl
@[simp] theorem State.setDefl_dev : (s.setDefl i x).dev = s.dev := rfl
@[simp] theorem State.setDefl_swept : (s.setDefl i x).swept = s.swept := rfl
@[simp] theorem State.setDefl_free : (s.setDefl i x).free = s.free := rfl
@[simp] theorem State.setDefl_out : (s.setDefl i x).out = s.out := rfl
@[simp] theorem State.setDefl_pending : (s.setDefl i x).pending = s.pending := rfl
@[simp] theorem State.setDefl_obj (i : Key) : (s.setDefl i x).obj i = s.obj i := rfl
@[simp] theorem State.setDefl_dom (i : Key) : (s.setDefl i x).dom i = s.dom i := rfl
end

/-! setSession -/

section
variable (k : Nat) (x : Session)
@[simp] theorem State.setSession_tick : (s.setSession k x).tick = s.tick := rfl
@[simp] theorem State.setSession_dict : (s.setSession k x).dict = s.dict := rfl
@[simp] theorem State.setSession_doms : (s.setSession k x).doms = s.doms := rfl
@[simp] theorem State.setSession_coreDict : (s.setSession k x).coreDict = s.coreDict := rfl
@[simp] theorem State.setSession_coreDoms : (s.setSession k x).coreDoms = s.coreDoms := rfl
@[simp] theorem State.setSession_ports : (s.setSession k x).ports = s.ports := rfl
@[simp] theorem State.setSession_readBufs : (s.setSession k x).readBufs = s.readBufs := rfl
@[simp] theorem State.setSession_transfers : (s.setSession k x).transfers = s.transfers := rfl
@[simp] theorem State.setSession_landing : (s.setSession k x).landing = s.landing := rfl
@[simp] theorem State.setSession_due : (s.setSession k x).due = s.due := rfl
@[simp] theorem State.setSession_parked : (s.setSession k x).parked = s.parked := rfl
@[simp] theorem State.setSession_draws : (s.setSession k x).draws = s.draws := rfl
@[simp] theorem State.setSession_journal : (s.setSession k x).journal = s.journal := rfl
@[simp] theorem State.setSession_mirror : (s.setSession k x).mirror = s.mirror := rfl
@[simp] theorem State.setSession_jPace : (s.setSession k x).jPace = s.jPace := rfl
@[simp] theorem State.setSession_time : (s.setSession k x).time = s.time := rfl
@[simp] theorem State.setSession_casc : (s.setSession k x).casc = s.casc := rfl
@[simp] theorem State.setSession_syn : (s.setSession k x).syn = s.syn := rfl
@[simp] theorem State.setSession_queues : (s.setSession k x).queues = s.queues := rfl
@[simp] theorem State.setSession_cmm : (s.setSession k x).cmm = s.cmm := rfl
@[simp] theorem State.setSession_mem : (s.setSession k x).mem = s.mem := rfl
@[simp] theorem State.setSession_memBad : (s.setSession k x).memBad = s.memBad := rfl
@[simp] theorem State.setSession_chans : (s.setSession k x).chans = s.chans := rfl
@[simp] theorem State.setSession_lgRr : (s.setSession k x).lgRr = s.lgRr := rfl
@[simp] theorem State.setSession_arrivals : (s.setSession k x).arrivals = s.arrivals := rfl
@[simp] theorem State.setSession_units : (s.setSession k x).units = s.units := rfl
@[simp] theorem State.setSession_cuOut : (s.setSession k x).cuOut = s.cuOut := rfl
@[simp] theorem State.setSession_rings : (s.setSession k x).rings = s.rings := rfl
@[simp] theorem State.setSession_bbs : (s.setSession k x).bbs = s.bbs := rfl
@[simp] theorem State.setSession_xs : (s.setSession k x).xs = s.xs := rfl
@[simp] theorem State.setSession_acts : (s.setSession k x).acts = s.acts := rfl
@[simp] theorem State.setSession_bbShown : (s.setSession k x).bbShown = s.bbShown := rfl
@[simp] theorem State.setSession_trigIn : (s.setSession k x).trigIn = s.trigIn := rfl
@[simp] theorem State.setSession_trigOut : (s.setSession k x).trigOut = s.trigOut := rfl
@[simp] theorem State.setSession_evLast : (s.setSession k x).evLast = s.evLast := rfl
@[simp] theorem State.setSession_evRead : (s.setSession k x).evRead = s.evRead := rfl
@[simp] theorem State.setSession_host : (s.setSession k x).host = s.host := rfl
@[simp] theorem State.setSession_hoop : (s.setSession k x).hoop = s.hoop := rfl
@[simp] theorem State.setSession_hoopFlips : (s.setSession k x).hoopFlips = s.hoopFlips := rfl
@[simp] theorem State.setSession_subQ : (s.setSession k x).subQ = s.subQ := rfl
@[simp] theorem State.setSession_otp : (s.setSession k x).otp = s.otp := rfl
@[simp] theorem State.setSession_lanes : (s.setSession k x).lanes = s.lanes := rfl
@[simp] theorem State.setSession_links : (s.setSession k x).links = s.links := rfl
@[simp] theorem State.setSession_decs : (s.setSession k x).decs = s.decs := rfl
@[simp] theorem State.setSession_eye : (s.setSession k x).eye = s.eye := rfl
@[simp] theorem State.setSession_ringClr : (s.setSession k x).ringClr = s.ringClr := rfl
@[simp] theorem State.setSession_flowLanes : (s.setSession k x).flowLanes = s.flowLanes := rfl
@[simp] theorem State.setSession_flows : (s.setSession k x).flows = s.flows := rfl
@[simp] theorem State.setSession_deferred : (s.setSession k x).deferred = s.deferred := rfl
@[simp] theorem State.setSession_jobs : (s.setSession k x).jobs = s.jobs := rfl
@[simp] theorem State.setSession_deflSlots : (s.setSession k x).deflSlots = s.deflSlots := rfl
@[simp] theorem State.setSession_jobOrder : (s.setSession k x).jobOrder = s.jobOrder := rfl
@[simp] theorem State.setSession_taken : (s.setSession k x).taken = s.taken := rfl
@[simp] theorem State.setSession_sgmii : (s.setSession k x).sgmii = s.sgmii := rfl
@[simp] theorem State.setSession_hops : (s.setSession k x).hops = s.hops := rfl
@[simp] theorem State.setSession_lock : (s.setSession k x).lock = s.lock := rfl
@[simp] theorem State.setSession_cores : (s.setSession k x).cores = s.cores := rfl
@[simp] theorem State.setSession_shm : (s.setSession k x).shm = s.shm := rfl
@[simp] theorem State.setSession_flash : (s.setSession k x).flash = s.flash := rfl
@[simp] theorem State.setSession_sigs : (s.setSession k x).sigs = s.sigs := rfl
@[simp] theorem State.setSession_streams : (s.setSession k x).streams = s.streams := rfl
@[simp] theorem State.setSession_health : (s.setSession k x).health = s.health := rfl
@[simp] theorem State.setSession_repair : (s.setSession k x).repair = s.repair := rfl
@[simp] theorem State.setSession_dev : (s.setSession k x).dev = s.dev := rfl
@[simp] theorem State.setSession_swept : (s.setSession k x).swept = s.swept := rfl
@[simp] theorem State.setSession_free : (s.setSession k x).free = s.free := rfl
@[simp] theorem State.setSession_out : (s.setSession k x).out = s.out := rfl
@[simp] theorem State.setSession_pending : (s.setSession k x).pending = s.pending := rfl
@[simp] theorem State.setSession_obj (i : Key) : (s.setSession k x).obj i = s.obj i := rfl
@[simp] theorem State.setSession_dom (i : Key) : (s.setSession k x).dom i = s.dom i := rfl
end

/-! setRepair -/

section
variable (f : Repair → Repair)
@[simp] theorem State.setRepair_tick : (s.setRepair f).tick = s.tick := rfl
@[simp] theorem State.setRepair_dict : (s.setRepair f).dict = s.dict := rfl
@[simp] theorem State.setRepair_doms : (s.setRepair f).doms = s.doms := rfl
@[simp] theorem State.setRepair_coreDict : (s.setRepair f).coreDict = s.coreDict := rfl
@[simp] theorem State.setRepair_coreDoms : (s.setRepair f).coreDoms = s.coreDoms := rfl
@[simp] theorem State.setRepair_ports : (s.setRepair f).ports = s.ports := rfl
@[simp] theorem State.setRepair_readBufs : (s.setRepair f).readBufs = s.readBufs := rfl
@[simp] theorem State.setRepair_transfers : (s.setRepair f).transfers = s.transfers := rfl
@[simp] theorem State.setRepair_landing : (s.setRepair f).landing = s.landing := rfl
@[simp] theorem State.setRepair_due : (s.setRepair f).due = s.due := rfl
@[simp] theorem State.setRepair_parked : (s.setRepair f).parked = s.parked := rfl
@[simp] theorem State.setRepair_sessions : (s.setRepair f).sessions = s.sessions := rfl
@[simp] theorem State.setRepair_draws : (s.setRepair f).draws = s.draws := rfl
@[simp] theorem State.setRepair_journal : (s.setRepair f).journal = s.journal := rfl
@[simp] theorem State.setRepair_mirror : (s.setRepair f).mirror = s.mirror := rfl
@[simp] theorem State.setRepair_jPace : (s.setRepair f).jPace = s.jPace := rfl
@[simp] theorem State.setRepair_time : (s.setRepair f).time = s.time := rfl
@[simp] theorem State.setRepair_casc : (s.setRepair f).casc = s.casc := rfl
@[simp] theorem State.setRepair_syn : (s.setRepair f).syn = s.syn := rfl
@[simp] theorem State.setRepair_queues : (s.setRepair f).queues = s.queues := rfl
@[simp] theorem State.setRepair_cmm : (s.setRepair f).cmm = s.cmm := rfl
@[simp] theorem State.setRepair_mem : (s.setRepair f).mem = s.mem := rfl
@[simp] theorem State.setRepair_memBad : (s.setRepair f).memBad = s.memBad := rfl
@[simp] theorem State.setRepair_chans : (s.setRepair f).chans = s.chans := rfl
@[simp] theorem State.setRepair_lgRr : (s.setRepair f).lgRr = s.lgRr := rfl
@[simp] theorem State.setRepair_arrivals : (s.setRepair f).arrivals = s.arrivals := rfl
@[simp] theorem State.setRepair_units : (s.setRepair f).units = s.units := rfl
@[simp] theorem State.setRepair_cuOut : (s.setRepair f).cuOut = s.cuOut := rfl
@[simp] theorem State.setRepair_rings : (s.setRepair f).rings = s.rings := rfl
@[simp] theorem State.setRepair_bbs : (s.setRepair f).bbs = s.bbs := rfl
@[simp] theorem State.setRepair_xs : (s.setRepair f).xs = s.xs := rfl
@[simp] theorem State.setRepair_acts : (s.setRepair f).acts = s.acts := rfl
@[simp] theorem State.setRepair_bbShown : (s.setRepair f).bbShown = s.bbShown := rfl
@[simp] theorem State.setRepair_trigIn : (s.setRepair f).trigIn = s.trigIn := rfl
@[simp] theorem State.setRepair_trigOut : (s.setRepair f).trigOut = s.trigOut := rfl
@[simp] theorem State.setRepair_evLast : (s.setRepair f).evLast = s.evLast := rfl
@[simp] theorem State.setRepair_evRead : (s.setRepair f).evRead = s.evRead := rfl
@[simp] theorem State.setRepair_host : (s.setRepair f).host = s.host := rfl
@[simp] theorem State.setRepair_hoop : (s.setRepair f).hoop = s.hoop := rfl
@[simp] theorem State.setRepair_hoopFlips : (s.setRepair f).hoopFlips = s.hoopFlips := rfl
@[simp] theorem State.setRepair_subQ : (s.setRepair f).subQ = s.subQ := rfl
@[simp] theorem State.setRepair_otp : (s.setRepair f).otp = s.otp := rfl
@[simp] theorem State.setRepair_lanes : (s.setRepair f).lanes = s.lanes := rfl
@[simp] theorem State.setRepair_links : (s.setRepair f).links = s.links := rfl
@[simp] theorem State.setRepair_decs : (s.setRepair f).decs = s.decs := rfl
@[simp] theorem State.setRepair_eye : (s.setRepair f).eye = s.eye := rfl
@[simp] theorem State.setRepair_ringClr : (s.setRepair f).ringClr = s.ringClr := rfl
@[simp] theorem State.setRepair_flowLanes : (s.setRepair f).flowLanes = s.flowLanes := rfl
@[simp] theorem State.setRepair_flows : (s.setRepair f).flows = s.flows := rfl
@[simp] theorem State.setRepair_deferred : (s.setRepair f).deferred = s.deferred := rfl
@[simp] theorem State.setRepair_jobs : (s.setRepair f).jobs = s.jobs := rfl
@[simp] theorem State.setRepair_deflSlots : (s.setRepair f).deflSlots = s.deflSlots := rfl
@[simp] theorem State.setRepair_jobOrder : (s.setRepair f).jobOrder = s.jobOrder := rfl
@[simp] theorem State.setRepair_taken : (s.setRepair f).taken = s.taken := rfl
@[simp] theorem State.setRepair_sgmii : (s.setRepair f).sgmii = s.sgmii := rfl
@[simp] theorem State.setRepair_hops : (s.setRepair f).hops = s.hops := rfl
@[simp] theorem State.setRepair_lock : (s.setRepair f).lock = s.lock := rfl
@[simp] theorem State.setRepair_cores : (s.setRepair f).cores = s.cores := rfl
@[simp] theorem State.setRepair_shm : (s.setRepair f).shm = s.shm := rfl
@[simp] theorem State.setRepair_flash : (s.setRepair f).flash = s.flash := rfl
@[simp] theorem State.setRepair_sigs : (s.setRepair f).sigs = s.sigs := rfl
@[simp] theorem State.setRepair_streams : (s.setRepair f).streams = s.streams := rfl
@[simp] theorem State.setRepair_health : (s.setRepair f).health = s.health := rfl
@[simp] theorem State.setRepair_dev : (s.setRepair f).dev = s.dev := rfl
@[simp] theorem State.setRepair_swept : (s.setRepair f).swept = s.swept := rfl
@[simp] theorem State.setRepair_free : (s.setRepair f).free = s.free := rfl
@[simp] theorem State.setRepair_out : (s.setRepair f).out = s.out := rfl
@[simp] theorem State.setRepair_pending : (s.setRepair f).pending = s.pending := rfl
@[simp] theorem State.setRepair_obj (i : Key) : (s.setRepair f).obj i = s.obj i := rfl
@[simp] theorem State.setRepair_dom (i : Key) : (s.setRepair f).dom i = s.dom i := rfl
end

/-! setLock -/

section
variable (x : Lock)
@[simp] theorem State.setLock_tick : (s.setLock x).tick = s.tick := rfl
@[simp] theorem State.setLock_dict : (s.setLock x).dict = s.dict := rfl
@[simp] theorem State.setLock_doms : (s.setLock x).doms = s.doms := rfl
@[simp] theorem State.setLock_coreDict : (s.setLock x).coreDict = s.coreDict := rfl
@[simp] theorem State.setLock_coreDoms : (s.setLock x).coreDoms = s.coreDoms := rfl
@[simp] theorem State.setLock_ports : (s.setLock x).ports = s.ports := rfl
@[simp] theorem State.setLock_readBufs : (s.setLock x).readBufs = s.readBufs := rfl
@[simp] theorem State.setLock_transfers : (s.setLock x).transfers = s.transfers := rfl
@[simp] theorem State.setLock_landing : (s.setLock x).landing = s.landing := rfl
@[simp] theorem State.setLock_due : (s.setLock x).due = s.due := rfl
@[simp] theorem State.setLock_parked : (s.setLock x).parked = s.parked := rfl
@[simp] theorem State.setLock_sessions : (s.setLock x).sessions = s.sessions := rfl
@[simp] theorem State.setLock_draws : (s.setLock x).draws = s.draws := rfl
@[simp] theorem State.setLock_journal : (s.setLock x).journal = s.journal := rfl
@[simp] theorem State.setLock_mirror : (s.setLock x).mirror = s.mirror := rfl
@[simp] theorem State.setLock_jPace : (s.setLock x).jPace = s.jPace := rfl
@[simp] theorem State.setLock_time : (s.setLock x).time = s.time := rfl
@[simp] theorem State.setLock_casc : (s.setLock x).casc = s.casc := rfl
@[simp] theorem State.setLock_syn : (s.setLock x).syn = s.syn := rfl
@[simp] theorem State.setLock_queues : (s.setLock x).queues = s.queues := rfl
@[simp] theorem State.setLock_cmm : (s.setLock x).cmm = s.cmm := rfl
@[simp] theorem State.setLock_mem : (s.setLock x).mem = s.mem := rfl
@[simp] theorem State.setLock_memBad : (s.setLock x).memBad = s.memBad := rfl
@[simp] theorem State.setLock_chans : (s.setLock x).chans = s.chans := rfl
@[simp] theorem State.setLock_lgRr : (s.setLock x).lgRr = s.lgRr := rfl
@[simp] theorem State.setLock_arrivals : (s.setLock x).arrivals = s.arrivals := rfl
@[simp] theorem State.setLock_units : (s.setLock x).units = s.units := rfl
@[simp] theorem State.setLock_cuOut : (s.setLock x).cuOut = s.cuOut := rfl
@[simp] theorem State.setLock_rings : (s.setLock x).rings = s.rings := rfl
@[simp] theorem State.setLock_bbs : (s.setLock x).bbs = s.bbs := rfl
@[simp] theorem State.setLock_xs : (s.setLock x).xs = s.xs := rfl
@[simp] theorem State.setLock_acts : (s.setLock x).acts = s.acts := rfl
@[simp] theorem State.setLock_bbShown : (s.setLock x).bbShown = s.bbShown := rfl
@[simp] theorem State.setLock_trigIn : (s.setLock x).trigIn = s.trigIn := rfl
@[simp] theorem State.setLock_trigOut : (s.setLock x).trigOut = s.trigOut := rfl
@[simp] theorem State.setLock_evLast : (s.setLock x).evLast = s.evLast := rfl
@[simp] theorem State.setLock_evRead : (s.setLock x).evRead = s.evRead := rfl
@[simp] theorem State.setLock_host : (s.setLock x).host = s.host := rfl
@[simp] theorem State.setLock_hoop : (s.setLock x).hoop = s.hoop := rfl
@[simp] theorem State.setLock_hoopFlips : (s.setLock x).hoopFlips = s.hoopFlips := rfl
@[simp] theorem State.setLock_subQ : (s.setLock x).subQ = s.subQ := rfl
@[simp] theorem State.setLock_otp : (s.setLock x).otp = s.otp := rfl
@[simp] theorem State.setLock_lanes : (s.setLock x).lanes = s.lanes := rfl
@[simp] theorem State.setLock_links : (s.setLock x).links = s.links := rfl
@[simp] theorem State.setLock_decs : (s.setLock x).decs = s.decs := rfl
@[simp] theorem State.setLock_eye : (s.setLock x).eye = s.eye := rfl
@[simp] theorem State.setLock_ringClr : (s.setLock x).ringClr = s.ringClr := rfl
@[simp] theorem State.setLock_flowLanes : (s.setLock x).flowLanes = s.flowLanes := rfl
@[simp] theorem State.setLock_flows : (s.setLock x).flows = s.flows := rfl
@[simp] theorem State.setLock_deferred : (s.setLock x).deferred = s.deferred := rfl
@[simp] theorem State.setLock_jobs : (s.setLock x).jobs = s.jobs := rfl
@[simp] theorem State.setLock_deflSlots : (s.setLock x).deflSlots = s.deflSlots := rfl
@[simp] theorem State.setLock_jobOrder : (s.setLock x).jobOrder = s.jobOrder := rfl
@[simp] theorem State.setLock_taken : (s.setLock x).taken = s.taken := rfl
@[simp] theorem State.setLock_sgmii : (s.setLock x).sgmii = s.sgmii := rfl
@[simp] theorem State.setLock_hops : (s.setLock x).hops = s.hops := rfl
@[simp] theorem State.setLock_cores : (s.setLock x).cores = s.cores := rfl
@[simp] theorem State.setLock_shm : (s.setLock x).shm = s.shm := rfl
@[simp] theorem State.setLock_flash : (s.setLock x).flash = s.flash := rfl
@[simp] theorem State.setLock_sigs : (s.setLock x).sigs = s.sigs := rfl
@[simp] theorem State.setLock_streams : (s.setLock x).streams = s.streams := rfl
@[simp] theorem State.setLock_health : (s.setLock x).health = s.health := rfl
@[simp] theorem State.setLock_repair : (s.setLock x).repair = s.repair := rfl
@[simp] theorem State.setLock_dev : (s.setLock x).dev = s.dev := rfl
@[simp] theorem State.setLock_swept : (s.setLock x).swept = s.swept := rfl
@[simp] theorem State.setLock_free : (s.setLock x).free = s.free := rfl
@[simp] theorem State.setLock_out : (s.setLock x).out = s.out := rfl
@[simp] theorem State.setLock_pending : (s.setLock x).pending = s.pending := rfl
@[simp] theorem State.setLock_obj (i : Key) : (s.setLock x).obj i = s.obj i := rfl
@[simp] theorem State.setLock_dom (i : Key) : (s.setLock x).dom i = s.dom i := rfl
end

/-! setBb -/

section
variable (b : Nat) (x : Bobbin)
@[simp] theorem State.setBb_tick : (s.setBb b x).tick = s.tick := rfl
@[simp] theorem State.setBb_dict : (s.setBb b x).dict = s.dict := rfl
@[simp] theorem State.setBb_doms : (s.setBb b x).doms = s.doms := rfl
@[simp] theorem State.setBb_coreDict : (s.setBb b x).coreDict = s.coreDict := rfl
@[simp] theorem State.setBb_coreDoms : (s.setBb b x).coreDoms = s.coreDoms := rfl
@[simp] theorem State.setBb_ports : (s.setBb b x).ports = s.ports := rfl
@[simp] theorem State.setBb_readBufs : (s.setBb b x).readBufs = s.readBufs := rfl
@[simp] theorem State.setBb_transfers : (s.setBb b x).transfers = s.transfers := rfl
@[simp] theorem State.setBb_landing : (s.setBb b x).landing = s.landing := rfl
@[simp] theorem State.setBb_due : (s.setBb b x).due = s.due := rfl
@[simp] theorem State.setBb_parked : (s.setBb b x).parked = s.parked := rfl
@[simp] theorem State.setBb_sessions : (s.setBb b x).sessions = s.sessions := rfl
@[simp] theorem State.setBb_draws : (s.setBb b x).draws = s.draws := rfl
@[simp] theorem State.setBb_journal : (s.setBb b x).journal = s.journal := rfl
@[simp] theorem State.setBb_mirror : (s.setBb b x).mirror = s.mirror := rfl
@[simp] theorem State.setBb_jPace : (s.setBb b x).jPace = s.jPace := rfl
@[simp] theorem State.setBb_time : (s.setBb b x).time = s.time := rfl
@[simp] theorem State.setBb_casc : (s.setBb b x).casc = s.casc := rfl
@[simp] theorem State.setBb_syn : (s.setBb b x).syn = s.syn := rfl
@[simp] theorem State.setBb_queues : (s.setBb b x).queues = s.queues := rfl
@[simp] theorem State.setBb_cmm : (s.setBb b x).cmm = s.cmm := rfl
@[simp] theorem State.setBb_mem : (s.setBb b x).mem = s.mem := rfl
@[simp] theorem State.setBb_memBad : (s.setBb b x).memBad = s.memBad := rfl
@[simp] theorem State.setBb_chans : (s.setBb b x).chans = s.chans := rfl
@[simp] theorem State.setBb_lgRr : (s.setBb b x).lgRr = s.lgRr := rfl
@[simp] theorem State.setBb_arrivals : (s.setBb b x).arrivals = s.arrivals := rfl
@[simp] theorem State.setBb_units : (s.setBb b x).units = s.units := rfl
@[simp] theorem State.setBb_cuOut : (s.setBb b x).cuOut = s.cuOut := rfl
@[simp] theorem State.setBb_rings : (s.setBb b x).rings = s.rings := rfl
@[simp] theorem State.setBb_xs : (s.setBb b x).xs = s.xs := rfl
@[simp] theorem State.setBb_acts : (s.setBb b x).acts = s.acts := rfl
@[simp] theorem State.setBb_bbShown : (s.setBb b x).bbShown = s.bbShown := rfl
@[simp] theorem State.setBb_trigIn : (s.setBb b x).trigIn = s.trigIn := rfl
@[simp] theorem State.setBb_trigOut : (s.setBb b x).trigOut = s.trigOut := rfl
@[simp] theorem State.setBb_evLast : (s.setBb b x).evLast = s.evLast := rfl
@[simp] theorem State.setBb_evRead : (s.setBb b x).evRead = s.evRead := rfl
@[simp] theorem State.setBb_host : (s.setBb b x).host = s.host := rfl
@[simp] theorem State.setBb_hoop : (s.setBb b x).hoop = s.hoop := rfl
@[simp] theorem State.setBb_hoopFlips : (s.setBb b x).hoopFlips = s.hoopFlips := rfl
@[simp] theorem State.setBb_subQ : (s.setBb b x).subQ = s.subQ := rfl
@[simp] theorem State.setBb_otp : (s.setBb b x).otp = s.otp := rfl
@[simp] theorem State.setBb_lanes : (s.setBb b x).lanes = s.lanes := rfl
@[simp] theorem State.setBb_links : (s.setBb b x).links = s.links := rfl
@[simp] theorem State.setBb_decs : (s.setBb b x).decs = s.decs := rfl
@[simp] theorem State.setBb_eye : (s.setBb b x).eye = s.eye := rfl
@[simp] theorem State.setBb_ringClr : (s.setBb b x).ringClr = s.ringClr := rfl
@[simp] theorem State.setBb_flowLanes : (s.setBb b x).flowLanes = s.flowLanes := rfl
@[simp] theorem State.setBb_flows : (s.setBb b x).flows = s.flows := rfl
@[simp] theorem State.setBb_deferred : (s.setBb b x).deferred = s.deferred := rfl
@[simp] theorem State.setBb_jobs : (s.setBb b x).jobs = s.jobs := rfl
@[simp] theorem State.setBb_deflSlots : (s.setBb b x).deflSlots = s.deflSlots := rfl
@[simp] theorem State.setBb_jobOrder : (s.setBb b x).jobOrder = s.jobOrder := rfl
@[simp] theorem State.setBb_taken : (s.setBb b x).taken = s.taken := rfl
@[simp] theorem State.setBb_sgmii : (s.setBb b x).sgmii = s.sgmii := rfl
@[simp] theorem State.setBb_hops : (s.setBb b x).hops = s.hops := rfl
@[simp] theorem State.setBb_lock : (s.setBb b x).lock = s.lock := rfl
@[simp] theorem State.setBb_cores : (s.setBb b x).cores = s.cores := rfl
@[simp] theorem State.setBb_shm : (s.setBb b x).shm = s.shm := rfl
@[simp] theorem State.setBb_flash : (s.setBb b x).flash = s.flash := rfl
@[simp] theorem State.setBb_sigs : (s.setBb b x).sigs = s.sigs := rfl
@[simp] theorem State.setBb_streams : (s.setBb b x).streams = s.streams := rfl
@[simp] theorem State.setBb_health : (s.setBb b x).health = s.health := rfl
@[simp] theorem State.setBb_repair : (s.setBb b x).repair = s.repair := rfl
@[simp] theorem State.setBb_dev : (s.setBb b x).dev = s.dev := rfl
@[simp] theorem State.setBb_swept : (s.setBb b x).swept = s.swept := rfl
@[simp] theorem State.setBb_free : (s.setBb b x).free = s.free := rfl
@[simp] theorem State.setBb_out : (s.setBb b x).out = s.out := rfl
@[simp] theorem State.setBb_pending : (s.setBb b x).pending = s.pending := rfl
@[simp] theorem State.setBb_obj (i : Key) : (s.setBb b x).obj i = s.obj i := rfl
@[simp] theorem State.setBb_dom (i : Key) : (s.setBb b x).dom i = s.dom i := rfl
end

/-! What each update puts in its own place. -/

@[simp] theorem State.emit_out (o : Output) : (s.emit o).out = s.out ++ [o] := rfl
@[simp] theorem State.setTime_time (f : TimeBase → TimeBase) : (s.setTime f).time = f s.time := rfl
@[simp] theorem State.setHost_host (f : HostPort → HostPort) : (s.setHost f).host = f s.host := rfl
@[simp] theorem State.setRepair_repair (f : Repair → Repair) : (s.setRepair f).repair = f s.repair := rfl
@[simp] theorem State.setLock_lock (x : Lock) : (s.setLock x).lock = x := rfl
theorem State.queue_setQueue (n : Nat) (x : Queue) (m : Nat) : (s.setQueue n x).queue m = if m = n then x else s.queue m := Tab.getD_put ..
@[simp] theorem State.queue_setQueue_self (n : Nat) (x : Queue) : (s.setQueue n x).queue n = x := by simp [State.queue_setQueue]
theorem State.port_setPort (n : Nat) (x : PortState) (m : Nat) : (s.setPort n x).port m = if m = n then x else s.port m := Tab.getD_put ..
@[simp] theorem State.port_setPort_self (n : Nat) (x : PortState) : (s.setPort n x).port n = x := by simp [State.port_setPort]
theorem State.chan_setChan (n : Nat) (x : Channel) (m : Nat) : (s.setChan n x).chan m = if m = n then x else s.chan m := Tab.getD_put ..
@[simp] theorem State.chan_setChan_self (n : Nat) (x : Channel) : (s.setChan n x).chan n = x := by simp [State.chan_setChan]
theorem State.lane_setLane (n : Nat) (x : Lane) (m : Nat) : (s.setLane n x).lane m = if m = n then x else s.lane m := Tab.getD_put ..
@[simp] theorem State.lane_setLane_self (n : Nat) (x : Lane) : (s.setLane n x).lane n = x := by simp [State.lane_setLane]
theorem State.lnk_setLnk (n : Nat) (x : Link) (m : Nat) : (s.setLnk n x).lnk m = if m = n then x else s.lnk m := Tab.getD_put ..
@[simp] theorem State.lnk_setLnk_self (n : Nat) (x : Link) : (s.setLnk n x).lnk n = x := by simp [State.lnk_setLnk]
theorem State.dec_setDec (n : Nat) (x : Decoder) (m : Nat) : (s.setDec n x).dec m = if m = n then x else s.dec m := Tab.getD_put ..
@[simp] theorem State.dec_setDec_self (n : Nat) (x : Decoder) : (s.setDec n x).dec n = x := by simp [State.dec_setDec]
theorem State.flow_setFlow (n : Nat) (x : FlowCtx) (m : Nat) : (s.setFlow n x).flow m = if m = n then x else s.flow m := Tab.getD_put ..
@[simp] theorem State.flow_setFlow_self (n : Nat) (x : FlowCtx) : (s.setFlow n x).flow n = x := by simp [State.flow_setFlow]
theorem State.flLane_setFlLane (n : Nat) (x : FlowLane) (m : Nat) : (s.setFlLane n x).flLane m = if m = n then x else s.flLane m := Tab.getD_put ..
@[simp] theorem State.flLane_setFlLane_self (n : Nat) (x : FlowLane) : (s.setFlLane n x).flLane n = x := by simp [State.flLane_setFlLane]
theorem State.defl_setDefl (n : Nat) (x : DeflSlot) (m : Nat) : (s.setDefl n x).defl m = if m = n then x else s.defl m := Tab.getD_put ..
@[simp] theorem State.defl_setDefl_self (n : Nat) (x : DeflSlot) : (s.setDefl n x).defl n = x := by simp [State.defl_setDefl]
theorem State.session_setSession (n : Nat) (x : Session) (m : Nat) : (s.setSession n x).session m = if m = n then x else s.session m := Tab.getD_put ..
@[simp] theorem State.session_setSession_self (n : Nat) (x : Session) : (s.setSession n x).session n = x := by simp [State.session_setSession]
theorem State.bb_setBb (n : Nat) (x : Bobbin) (m : Nat) : (s.setBb n x).bb m = if m = n then x else s.bb m := Tab.getD_put ..
@[simp] theorem State.bb_setBb_self (n : Nat) (x : Bobbin) : (s.setBb n x).bb n = x := by simp [State.bb_setBb]
theorem State.synth_setSynth (n : Nat) (f : Synth → Synth) (m : Nat) : (s.setSynth n f).synth m = if m = n then f (s.synth n) else s.synth m := Tab.getD_put ..
@[simp] theorem State.synth_setSynth_self (n : Nat) (f : Synth → Synth) : (s.setSynth n f).synth n = f (s.synth n) := by simp [State.synth_setSynth]
theorem State.cascPort_setCasc (n : Nat) (f : CascPort → CascPort) (m : Nat) : (s.setCasc n f).cascPort m = if m = n then f (s.cascPort n) else s.cascPort m := Tab.getD_put ..
@[simp] theorem State.cascPort_setCasc_self (n : Nat) (f : CascPort → CascPort) : (s.setCasc n f).cascPort n = f (s.cascPort n) := by simp [State.cascPort_setCasc]

/-! Reading back. -/

/-- An object reads what was written; every other object reads as before. -/
theorem State.obj_setObj (j v k : Nat) : (s.setObj j v).obj k = if k = j then v else s.obj k := by
  show (s.dict.put j (dfltOf j) v).getD k (dfltOf k) = _
  split
  · next h => subst h; exact Tab.getD_put_self ..
  · next h => exact Tab.getD_put_ne _ _ _ _ h

@[simp] theorem State.obj_setObj_self (k v : Nat) : (s.setObj k v).obj k = v := by simp [State.obj_setObj]

theorem State.obj_setObj_ne {j k : Nat} (v : Nat) (h : k ≠ j) : (s.setObj j v).obj k = s.obj k := by simp [State.obj_setObj, h]

theorem State.obj_bump (j n k : Nat) : (s.bump j n).obj k = if k = j then min (s.obj j + n) (maxOf j) else s.obj k :=
  State.obj_setObj s j _ k

/-- A byte-string object reads what was written; every other reads as before. -/
theorem State.dom_setDom (j : Nat) (v : Bytes) (k : Nat) : (s.setDom j v).dom k = if k = j then v else s.dom k := by
  show (s.doms.put j (domDflt j) v).getD k (domDflt k) = _
  split
  · next h => subst h; exact Tab.getD_put_self ..
  · next h => exact Tab.getD_put_ne _ _ _ _ h

/-- A byte of capture memory reads what was written; every other byte reads as before. -/
theorem State.memByte_setMem (a : Nat) (b : Byte) (c : Nat) : (s.setMem a b).memByte c = if c = a then b else s.memByte c := by
  exact Tab.getD_put ..

end Sys2Proof.Machine
end

