-- ==== Sys2Proof/Laws/Quiet.lean ====
section
/-! SUPPORT. The operations that only report: interrupts, notifications, control records, DEV_STATE, and the end of a command. -/

namespace Sys2Proof.Machine

theorem OnlyReported.refl (s : State) : OnlyReported s s :=
  ⟨rfl, fun _ _ => rfl, rfl, fun _ => rfl, Nat.le_refl _, List.prefix_refl _⟩

theorem OnlyReported.trans {s t u : State} (h : OnlyReported s t) (g : OnlyReported t u) : OnlyReported s u where
  rest := g.rest.trans h.rest
  objs k hk := (g.objs k hk).trans (h.objs k hk)
  host := g.host.trans h.host
  queues q := (g.queues q).trans (h.queues q)
  landing := Nat.le_trans h.landing g.landing
  out := h.out.trans g.out

/-- An update of parts that reports may change, objects among them. -/
theorem OnlyReported.setObj {s t : State} (h : OnlyReported s t) (k v : Nat) (hk : reportKey k = true) : OnlyReported s (t.setObj k v) :=
  h.trans ⟨rfl, fun j hj => State.obj_setObj_ne _ _ (by rintro rfl; simp [hk] at hj), rfl, fun _ => rfl, Nat.le_refl _, List.prefix_refl _⟩

theorem OnlyReported.ite {s a b : State} {c : Prop} [Decidable c] (ha : OnlyReported s a) (hb : OnlyReported s b) :
    OnlyReported s (if c then a else b) := by
  split
  · exact ha
  · exact hb

theorem OnlyReported.foldl {α : Type} {s u : State} (f : State → α → State) (l : List α) (h : OnlyReported s u)
    (hf : ∀ v a, OnlyReported s v → OnlyReported s (f v a)) : OnlyReported s (l.foldl f u) := by
  induction l generalizing u with
  | nil => exact h
  | cons a l ih => exact ih (hf _ _ h)

theorem OnlyReported.emit {s t : State} (h : OnlyReported s t) (o : Output) : OnlyReported s (t.emit o) :=
  h.trans ⟨rfl, fun _ _ => rfl, rfl, fun _ => rfl, Nat.le_refl _, List.prefix_append _ _⟩

theorem OnlyReported.setHost {s t : State} (h : OnlyReported s t) (x : HostPort) (hx : x.quiet = t.host.quiet) :
    OnlyReported s { t with host := x } :=
  h.trans ⟨rfl, fun _ _ => rfl, hx, fun _ => rfl, Nat.le_refl _, List.prefix_refl _⟩

theorem OnlyReported.setSubQ {s t : State} (h : OnlyReported s t) (x : Tab (List (Nat × Note))) : OnlyReported s { t with subQ := x } :=
  h.trans ⟨rfl, fun _ _ => rfl, rfl, fun _ => rfl, Nat.le_refl _, List.prefix_refl _⟩

theorem OnlyReported.setLanding {s t : State} (h : OnlyReported s t) (x : List Landing) (hx : t.landing.length ≤ x.length) :
    OnlyReported s { t with landing := x } :=
  h.trans ⟨rfl, fun _ _ => rfl, rfl, fun _ => rfl, hx, List.prefix_refl _⟩

theorem OnlyReported.setQueue {s t : State} (h : OnlyReported s t) (q : Nat) (x : Queue) (hx : x.quiet = (t.queue q).quiet) :
    OnlyReported s (t.setQueue q x) := by
  refine h.trans ⟨rfl, fun _ _ => rfl, rfl, fun p => ?_, Nat.le_refl _, List.prefix_refl _⟩
  rw [State.queue_setQueue]
  split
  · next e => subst e; exact hx
  · rfl

theorem OnlyReported.raise {s t : State} (h : OnlyReported s t) (v : Nat) : OnlyReported s (t.raise v) := by
  unfold State.raise
  dsimp only
  repeat' split
  all_goals first
    | (refine h.setHost _ ?_; rfl)
    | (refine OnlyReported.emit (h.setHost _ ?_) _; rfl)

theorem OnlyReported.noteHost {s t : State} (h : OnlyReported s t) (n : Note) : OnlyReported s (t.noteHost n) := by
  have hh (x : Nat) : OnlyReported s { t with host := { t.host with noteSeq := x } } := by
    refine h.setHost _ ?_; rfl
  unfold State.noteHost
  dsimp only
  split
  · exact h
  · split
    · exact h.setObj _ _ (by decide)
    · split
      · exact OnlyReported.raise (OnlyReported.setObj (hh _) _ _ (by decide)) _
      · exact OnlyReported.raise (OnlyReported.emit (hh _) _) _

theorem subKey_report (k i : Nat) (hk : k < 8) (hi : i = 4 ∨ i = 5) : reportKey ((0x1110 + k) * 256 + i) = true := by
  have h1 : ((0x1110 + k) * 256 + i) / 256 = 0x1110 + k := by omega
  have h2 : ((0x1110 + k) * 256 + i) % 256 = i := by omega
  unfold reportKey
  simp only [h1, h2]
  rcases hi with rfl | rfl <;> simp <;> omega

theorem OnlyReported.noteSub {s t : State} (h : OnlyReported s t) (n : Note) (k : Nat) (hk : k < 8) : OnlyReported s (t.noteSub n k) := by
  unfold State.noteSub
  dsimp only
  split
  · have h1 := h.setObj (Obj.subSubNseq k) (t.obj (Obj.subSubNseq k) + 1) (subKey_report k 4 hk (.inl rfl))
    split
    · exact h1.setObj _ _ (subKey_report k 5 hk (.inr rfl))
    · exact h1.setSubQ _
  · exact h

theorem OnlyReported.notify {s t : State} (h : OnlyReported s t) (cls source detail : Nat) (u : Tick) :
    OnlyReported s (t.notify cls source detail u) := by
  unfold State.notify
  dsimp only [below, upFrom, List.foldl]
  exact (((((((((h.noteHost _).noteSub _ _ (by decide)).noteSub _ _ (by decide)).noteSub _ _ (by decide)).noteSub _ _ (by decide)).noteSub _ _
    (by decide)).noteSub _ _ (by decide)).noteSub _ _ (by decide)).noteSub _ _ (by decide))

theorem OnlyReported.setDev {s t : State} (h : OnlyReported s t) (d : Nat) (u : Tick) : OnlyReported s (t.setDev d u) := by
  unfold State.setDev
  dsimp only
  split
  · exact h
  · exact (h.setObj _ _ (by decide)).notify _ _ _ _

theorem OnlyReported.devSync {s t : State} (h : OnlyReported s t) (u : Tick) : OnlyReported s (t.devSync u) := by
  unfold State.devSync
  dsimp only
  split
  · exact h.setDev _ _
  · exact h

theorem OnlyReported.control {s t : State} (h : OnlyReported s t) (q cls : Nat) (r : Rec) : OnlyReported s (t.control q cls r) := by
  unfold State.control
  exact h.setQueue _ _ rfl

theorem OnlyReported.rearmLost {s t : State} (h : OnlyReported s t) (q n : Nat) (f l u : Tick) :
    OnlyReported s (t.rearmLost q n f l u) := by
  unfold State.rearmLost
  dsimp only
  split
  · exact h.setQueue _ _ rfl
  · exact h

theorem OnlyReported.configChange {s t : State} (h : OnlyReported s t) (a b c d e : Nat) (u : Tick) :
    OnlyReported s (t.configChange a b c d e u) := by
  unfold State.configChange
  refine OnlyReported.foldl _ _ h (fun v q hv => ?_)
  try dsimp only
  split
  · exact hv.control _ _ _
  · exact hv

theorem OnlyReported.pointInto {s t : State} (h : OnlyReported s t) (q : Nat) : OnlyReported s (t.pointInto q) := by
  unfold State.pointInto
  dsimp only
  repeat' split
  all_goals first
    | exact h
    | exact h.rearmLost _ _ _ _ _
    | exact h.setQueue _ _ rfl

theorem OnlyReported.writePoint {s t : State} (h : OnlyReported s t) (a : Bool) : OnlyReported s (t.writePoint a) := by
  unfold State.writePoint
  refine OnlyReported.foldl _ _ h (fun v q hv => ?_)
  try dsimp only
  split
  · exact hv.pointInto _
  · exact hv

theorem OnlyReported.writeStep {s t : State} (h : OnlyReported s t) (j : Int) (c : Nat) (u : Tick) : OnlyReported s (t.writeStep j c u) := by
  unfold State.writeStep
  refine OnlyReported.writePoint (OnlyReported.foldl _ _ h (fun v q hv => ?_)) _
  try dsimp only
  split
  · exact hv.control _ _ _
  · exact hv

theorem OnlyReported.settle {s t : State} (h : OnlyReported s t) (kind : Nat) (i : Issuer) (j : Nat) (o : List ObjOut) (u : Tick) :
    OnlyReported s (t.settle kind i j o u) := by
  unfold State.settle
  dsimp only
  split
  · exact (h.configChange _ _ _ _ _ _).devSync _
  · exact h.devSync _

theorem OnlyReported.supersedeAll {s t : State} (h : OnlyReported s t) (o : List ObjOut) (j : Nat) : OnlyReported s (t.supersedeAll o j) := by
  unfold State.supersedeAll
  refine OnlyReported.foldl _ _ h (fun v q hv => ?_)
  try dsimp only
  split
  · exact hv.setLanding _ (by simp)
  · exact hv

/-- What an operation that only reports leaves of any part outside the reports. -/
theorem OnlyReported.part {α : Type} {s t : State} (h : OnlyReported s t) (f : State → α) : f t.unreported = f s.unreported := by rw [h.rest]

/-! Every part of the state outside the reports stands as it was. -/

section
variable {s t : State} (h : OnlyReported s t)
include h
theorem OnlyReported.tick : t.tick = s.tick := h.part (·.tick)
theorem OnlyReported.doms : t.doms = s.doms := h.part (·.doms)
theorem OnlyReported.coreDict : t.coreDict = s.coreDict := h.part (·.coreDict)
theorem OnlyReported.coreDoms : t.coreDoms = s.coreDoms := h.part (·.coreDoms)
theorem OnlyReported.ports : t.ports = s.ports := h.part (·.ports)
theorem OnlyReported.readBufs : t.readBufs = s.readBufs := h.part (·.readBufs)
theorem OnlyReported.transfers : t.transfers = s.transfers := h.part (·.transfers)
theorem OnlyReported.sessions : t.sessions = s.sessions := h.part (·.sessions)
theorem OnlyReported.draws : t.draws = s.draws := h.part (·.draws)
theorem OnlyReported.journal : t.journal = s.journal := h.part (·.journal)
theorem OnlyReported.mirror : t.mirror = s.mirror := h.part (·.mirror)
theorem OnlyReported.time : t.time = s.time := h.part (·.time)
theorem OnlyReported.casc : t.casc = s.casc := h.part (·.casc)
theorem OnlyReported.syn : t.syn = s.syn := h.part (·.syn)
theorem OnlyReported.cmm : t.cmm = s.cmm := h.part (·.cmm)
theorem OnlyReported.mem : t.mem = s.mem := h.part (·.mem)
theorem OnlyReported.chans : t.chans = s.chans := h.part (·.chans)
theorem OnlyReported.lgRr : t.lgRr = s.lgRr := h.part (·.lgRr)
theorem OnlyReported.arrivals : t.arrivals = s.arrivals := h.part (·.arrivals)
theorem OnlyReported.units : t.units = s.units := h.part (·.units)
theorem OnlyReported.cuOut : t.cuOut = s.cuOut := h.part (·.cuOut)
theorem OnlyReported.rings : t.rings = s.rings := h.part (·.rings)
theorem OnlyReported.bbs : t.bbs = s.bbs := h.part (·.bbs)
theorem OnlyReported.xs : t.xs = s.xs := h.part (·.xs)
theorem OnlyReported.acts : t.acts = s.acts := h.part (·.acts)
theorem OnlyReported.bbShown : t.bbShown = s.bbShown := h.part (·.bbShown)
theorem OnlyReported.trigIn : t.trigIn = s.trigIn := h.part (·.trigIn)
theorem OnlyReported.trigOut : t.trigOut = s.trigOut := h.part (·.trigOut)
theorem OnlyReported.evLast : t.evLast = s.evLast := h.part (·.evLast)
theorem OnlyReported.evRead : t.evRead = s.evRead := h.part (·.evRead)
theorem OnlyReported.hoop : t.hoop = s.hoop := h.part (·.hoop)
theorem OnlyReported.otp : t.otp = s.otp := h.part (·.otp)
theorem OnlyReported.lanes : t.lanes = s.lanes := h.part (·.lanes)
theorem OnlyReported.links : t.links = s.links := h.part (·.links)
theorem OnlyReported.decs : t.decs = s.decs := h.part (·.decs)
theorem OnlyReported.eye : t.eye = s.eye := h.part (·.eye)
theorem OnlyReported.ringClr : t.ringClr = s.ringClr := h.part (·.ringClr)
theorem OnlyReported.flowLanes : t.flowLanes = s.flowLanes := h.part (·.flowLanes)
theorem OnlyReported.flows : t.flows = s.flows := h.part (·.flows)
theorem OnlyReported.deferred : t.deferred = s.deferred := h.part (·.deferred)
theorem OnlyReported.jobs : t.jobs = s.jobs := h.part (·.jobs)
theorem OnlyReported.deflSlots : t.deflSlots = s.deflSlots := h.part (·.deflSlots)
theorem OnlyReported.jobOrder : t.jobOrder = s.jobOrder := h.part (·.jobOrder)
theorem OnlyReported.taken : t.taken = s.taken := h.part (·.taken)
theorem OnlyReported.sgmii : t.sgmii = s.sgmii := h.part (·.sgmii)
theorem OnlyReported.hops : t.hops = s.hops := h.part (·.hops)
theorem OnlyReported.lock : t.lock = s.lock := h.part (·.lock)
theorem OnlyReported.cores : t.cores = s.cores := h.part (·.cores)
theorem OnlyReported.shm : t.shm = s.shm := h.part (·.shm)
theorem OnlyReported.flash : t.flash = s.flash := h.part (·.flash)
theorem OnlyReported.sigs : t.sigs = s.sigs := h.part (·.sigs)
theorem OnlyReported.streams : t.streams = s.streams := h.part (·.streams)
theorem OnlyReported.health : t.health = s.health := h.part (·.health)
theorem OnlyReported.repair : t.repair = s.repair := h.part (·.repair)
theorem OnlyReported.dev : t.dev = s.dev := h.part (·.dev)
theorem OnlyReported.swept : t.swept = s.swept := h.part (·.swept)
theorem OnlyReported.free : t.free = s.free := h.part (·.free)
theorem OnlyReported.pending : t.pending = s.pending := h.part (·.pending)
theorem OnlyReported.dom (k : Key) : t.dom k = s.dom k := by unfold State.dom; rw [h.doms]
end

end Sys2Proof.Machine
end

