-- ==== Sys2Proof/Laws/Time.lean ====
section
/-! SUPPORT. What the timebase's shared operations can do. -/

namespace Sys2Proof.Machine

/-- From s to t only the timebase, objects and reports changed. -/
theorem OnlyReported.timed {s u t : State} (h : OnlyReported u t) (hr : u.unreported = { s with time := u.time }.unreported)
    (hh : u.host.quiet = s.host.quiet) (hq : ∀ q, (u.queue q).quiet = (s.queue q).quiet) (hl : s.landing.length ≤ u.landing.length)
    (ho : s.out <+: u.out) : OnlyReported { s with dict := t.dict, time := t.time } t where
  rest := by rw [h.rest, hr, h.time]; rfl
  objs _ _ := rfl
  host := h.host.trans hh
  queues q := (h.queues q).trans (hq q)
  landing := Nat.le_trans hl h.landing
  out := ho.trans h.out

/-- DISC_STATE moves (R45, R54, R56): it reads the new state, a new point may stand, and the rest is reports. -/
theorem State.setDisc_spec (s : State) (d : Nat) (t : SubTime) :
    (∀ k, reportKey k = false → (s.setDisc d t).obj k = if k = Obj.tbDiscState then d else s.obj k)
    ∧ (s.setDisc d t).time = { s.time with point := (s.setDisc d t).time.point, nextSeq := (s.setDisc d t).time.nextSeq }
    ∧ OnlyReported { s with dict := (s.setDisc d t).dict, time := (s.setDisc d t).time } (s.setDisc d t) := by
  unfold State.setDisc
  dsimp only
  split
  · next h =>
    refine ⟨fun k _ => ?_, rfl, OnlyReported.refl _⟩
    split
    · next e => rw [e, h]
    · rfl
  · split
    · have hq := (OnlyReported.writePoint (OnlyReported.refl ((s.setObj Obj.tbDiscState d).newPoint t 0 false)) true).notify 12 0
        (discDetail (((s.setObj Obj.tbDiscState d).newPoint t 0 false).writePoint true) d (s.obj Obj.tbDiscState))
        ((((s.setObj Obj.tbDiscState d).newPoint t 0 false).writePoint true).tick + 1)
      refine ⟨fun k hk => ?_, ?_, hq.timed rfl rfl (fun _ => rfl) (Nat.le_refl _) (List.prefix_refl _)⟩
      · rw [hq.objs k hk]; exact State.obj_setObj ..
      · rw [hq.time]; simp [State.newPoint]
    · have hq := (OnlyReported.refl (s.setObj Obj.tbDiscState d)).notify 12 0
        (discDetail (s.setObj Obj.tbDiscState d) d (s.obj Obj.tbDiscState)) ((s.setObj Obj.tbDiscState d).tick + 1)
      refine ⟨fun k hk => ?_, ?_, hq.timed rfl rfl (fun _ => rfl) (Nat.le_refl _) (List.prefix_refl _)⟩
      · rw [hq.objs k hk]; exact State.obj_setObj ..
      · rw [hq.time]; rfl

/-- SYN-T is set to its offset (R91): one word changes. -/
theorem State.steer_obj (s : State) (k : Nat) (h : k ≠ Obj.synTSynWord) : s.steer.obj k = s.obj k := by
  unfold State.steer
  exact State.obj_setObj_ne _ _ h

@[simp] theorem State.steer_time (s : State) : s.steer.time = s.time := rfl

end Sys2Proof.Machine
end

