-- ==== Sys2Proof/WellFormed.lean ====
section
/-! DEFINITION. Which command terms stand for something the outside can send: the operand bounds that the
spec gives the wires, words and instances. A term that is not well formed stands for no command; the machine
is total all the same. -/

namespace Sys2Proof

/-- An issuer of R34, R35 and R529: ports 0 to 2, a core 0 to 3 on port 2, a 16-byte address on port 1, a command slot 0 to 15. -/
def Issuer.wf (i : Issuer) : Bool :=
  i.port < 3 && (if i.port = 2 then i.core < 4 else i.core == 255) && (i.port != 1 || i.addr.length == 16) && i.slot < 16 && i.udp < 2 ^ 16
    && i.mac < 2 ^ 48

/-- What a port can deliver as a packet: the 256 bytes of a command slot (R576), the words of a core's packet (R651, a LENGTH of 16 bits),
or what a datagram of the management network holds (R529). -/
def pktWf (i : Issuer) (p : Bytes) : Bool := i.wf && p.length ≤ (if i.port = 0 then 256 else 65535)

/-- The FLAGS and the trailer of a write packet: FLAGS has two bits, bit 1 asks for the 32-byte trailer (R502). -/
def trailedWf (flags : Nat) (trailer : Bytes) : Bool := flags < 4 && trailer.length == (if flags / 2 % 2 = 1 then 32 else 0)

/-- A write of a number: the widest integer object is a TIME of 10 bytes (R498). -/
def WriteCmd.wf (c : WriteCmd) : Bool := c.iss.wf && c.tag < 2 ^ 32 && trailedWf c.flags c.trailer && c.value < 2 ^ 80

/-- A write of bytes: the longest value a transfer may carry is that of FLASH_IMAGE, 10 MiB (R523). -/
def BytesCmd.wf (c : BytesCmd) : Bool := c.iss.wf && c.tag < 2 ^ 32 && trailedWf c.flags c.trailer && c.value.length ≤ 10485760

/-- A datagram: addresses of 16 bytes in the form of R231, a UDP port, a link-layer address. -/
def NetIn.wf (d : NetIn) : Bool :=
  d.addr.length == 16 && (d.target.length == 16 || d.target == []) && d.udp < 2 ^ 16 && d.port < 2 ^ 16 && d.mac < 2 ^ 48 && d.data.length ≤ 65535

/-- The signals of a tick: 256 logic channels, 64 sub-ticks, 6 synthesisers, 232 SRAM instances, 11 FIFOs, 8 pins, 32 lanes, 5 rails. -/
def TickInput.wf (t : TickInput) : Bool :=
  t.waves.all (fun w => w.lc < 256 && w.changes.all (fun c => c.1 < 64)) && t.pfd.all (· < 6) && t.upsets.all (fun e => e.1 < 232 && e.2.1 < 2 ^ 17 && e.2.2 < 72)
    && t.sramReads.all (fun e => e.1 < 232 && e.2 < 2 ^ 17) && t.sramWrites.all (fun e => e.1 < 232 && e.2 < 2 ^ 17)
    && t.defects.all (fun d => d.inst < 232 && d.place < 2052 && d.word < 64 && d.col < 73)
    && t.hoopFlips.all (fun e => e.1 < 11 && e.2.1 < 32 && e.2.2 < 74) && t.memFaults.all (fun e => e.1 < 2 ^ 38) && t.pins.all (fun e => e.1 < 8)
    && t.lanes.all (fun m => m.lane < 32) && t.verifyFail.all (fun e => e.1 < 4096) && t.swept.all (· < 65536) && t.rails.all (fun e => e.1 < 5)

/-- A command term's operands are within their fields. -/
def Instr.wf : Instr → Bool
  | .tick inp => inp.wf
  | .laneWord lane raw _ _ => lane < 32 && raw < 2 ^ 64
  | .ethFrame lane => lane < 32
  | .scannerVisit lane => lane < 32
  | .hiBerWindow dec => dec < 32
  | .cdrSignalDetect lane => lane < 32
  | .cdrFreqLock lane => lane < 32
  | .cdrLock lane _ _ => lane < 32
  | .cdrSignalLoss lane bits => lane < 32 && bits < 64
  | .cdrFreqLoss lane bits => lane < 32 && bits < 64
  | .cdrTransitionLoss lane bits => lane < 32 && bits < 64
  | .linkFailRetry k => k < 16
  | .noMarkerTimeout k => k < 16
  | .eyeScanStart lane => lane < 32
  | .eyeScanEnd eye => eye.errors.length ≤ 3 && eye.errors.all (fun l => l.length ≤ 8128)
  | .comparatorSettle lc _ _ => lc < 256
  | .trigInAccept pin _ => pin < 8
  | .trigOutStart pin => pin < 8
  | .trigOutEnd pin => pin < 8
  | .eventRead bb => bb < 8
  | .cascadeMessageSend port => port < 4
  | .cascadeMessageReceive port chars => port < 4 && chars.length == 4
  | .alignWordSend port => port < 4
  | .alignWordReceive port count _ _ _ => port < 4 && count < 2 ^ 64
  | .alignWordTimeout port => port < 4
  | .cascadeSyncLoss port => port < 4
  | .tickLoad => true
  | .ppsEdge _ => true
  | .vrefEdge _ _ => true
  | .loopUpdate => true
  | .ppsMiss => true
  | .vrefMiss => true
  | .hostTimeout => true
  | .refclkLoss => true
  | .refclkReturn => true
  | .step => true
  | .slewEnd => true
  | .timeMapPoint => true
  | .refclkClassify _ => true
  | .synLock syn => syn < 6
  | .clkoutRestart n => n < 4
  | .clkoutStart n => n < 4
  | .clkoutStop n => n < 4
  | .picotStep n => n < 4
  | .read i p => pktWf i p
  | .write i p => pktWf i p
  | .pairTimeout port => port < 3
  | .commit i p => pktWf i p
  | .commitLand port => port < 3
  | .discard i p => pktWf i p
  | .segStart i p => pktWf i p
  | .segData i p => pktWf i p
  | .segEnd i p => pktWf i p
  | .segAbort i p => pktWf i p
  | .transferIdleTimeout port xfer => port < 3 && xfer < 65536
  | .segRead i p => pktWf i p
  | .echo i p => pktWf i p
  | .hello i p => pktWf i p
  | .attest i p => pktWf i p
  | .prove i p => pktWf i p
  | .close i p => pktWf i p
  | .sessionIdleTimeout slot => slot < 8
  | .handshakeTimeout slot => slot < 8
  | .proveLockoutEnd port => port < 2
  | .sessionClose c slot => c.wf && slot < 8
  | .ownerKey c => c.wf
  | .ownerKeyProgrammed => true
  | .policyFloor c => c.wf
  | .fwSecRaise c => c.wf
  | .mirrorCopy => true
  | .stepNow c => c.wf
  | .slewNow c => c.wf
  | .realign c => c.wf
  | .freqCorr c => c.wf
  | .phaseCorr c => c.wf
  | .picotSteps c n => c.wf && n < 4
  | .swTrigger c => c.wf
  | .eyeRequest c lane => c.wf && lane < 32
  | .clear c slot => c.wf && slot < 16
  | .train c => c.wf
  | .trainEnd fails => fails.all (fun e => e.1 < 12 && 1 ≤ e.2 && e.2 ≤ 7)
  | .free c queue => c.wf && queue < 4096
  | .closePage c queue => c.wf && queue < 4096
  | .grant c => c.wf
  | .renew c => c.wf
  | .release c => c.wf
  | .query c => c.wf
  | .leaseExpire index => index < 65536
  | .pageAlloc => true
  | .chunkFlush queue => queue < 4096
  | .segmentClose queue => queue < 4096
  | .segmentOpen queue => queue < 4096
  | .drainEnd queue => queue < 4096
  | .lookup c => c.wf
  | .install c => c.wf
  | .update c => c.wf
  | .remove c => c.wf
  | .tableRead c => c.wf
  | .clearStats c => c.wf
  | .flushLearnt c => c.wf
  | .flushLearntDone lane => lane < 32
  | .stateRestore c => c.wf
  | .jobStart c job => c.wf && job < 16
  | .resume c job => c.wf && job < 16
  | .finish c job => c.wf && job < 16
  | .abort c job => c.wf && job < 16
  | .jobRun => true
  | .jobEnd _ _ _ => true
  | .releaseHandle c => c.wf
  | .handleTimeout handle => handle < 65536
  | .cmdDoorbell v b => v < 2 ^ 32 && b.length ≤ 256
  | .rspAck v => v < 2 ^ 32
  | .noteHead v => v < 2 ^ 32
  | .descTail r v => r < 64 && v < 2 ^ 32
  | .cplHead r v => r < 64 && v < 2 ^ 32
  | .bar0Write offset v width => offset < 65536 && (width == 1 || width == 2 || width == 4 || width == 8) && v < 2 ^ (8 * width)
  | .descFetch r _ => r < 64
  | .descGrant r => r < 64
  | .descRead r _ => r < 64
  | .descRenew r => r < 64
  | .descRelease r => r < 64
  | .ringEnable c r => c.wf && r < 64
  | .ringDisable c r => c.wf && r < 64
  | .mapInvalidate c => c.wf
  | .bar2Read addr _ entry => addr < 2 ^ 36 && entry.length == 8
  | .bar2Write addr => addr < 2 ^ 36
  | .port0Reset => true
  | .bmeClear => true
  | .bmeSet => true
  | .datagramDiscard d _ => d.wf
  | .arpRequest d => d.wf
  | .neighbourSolicitation d => d.wf
  | .icmpEchoRequest d => d.wf
  | .nextHopReply d => d.wf
  | .nextHopRetry addr => addr.length == 16
  | .nextHopExpiry addr => addr.length == 16
  | .notificationSend sub => sub < 8
  | .sgmiiSyncLoss => true
  | .lockRequest core p => core < 4 && p.length ≤ 65535
  | .lockTimeout => true
  | .coreReset c core => c.wf && core < 4
  | .watchdogExpiry core => core < 4
  | .coreFault core => core < 4
  | .fwRestart c => c.wf
  | .fwCheckEnd a b g h => a.length ≤ 10485760 && b.length ≤ 10485760 && g.length ≤ 65536 && h.length ≤ 65536
  | .flashImage c => c.wf
  | .flashConfig c => c.wf
  | .watchPoll entry => entry < 16
  | .flowhealthSample lane => lane < 32
  | .signatureTap entry => entry < 8
  | .golden c entry => c.wf && entry < 8
  | .streamExport entry => entry < 4
  | .streamSend entry => entry < 4
  | .resend c entry => c.wf && entry < 4
  | .darnerBorrow inst _ => inst < 232
  | .borrowEnd => true
  | .marchPreserve c => c.wf
  | .marchDestroy c => c.wf
  | .marchRecover c => c.wf
  | .marchEnd _ _ => true
  | .fuseRepairs c => c.wf
  | .fuseProgrammed => true
  | .resetWarm c => c.wf
  | .resetControl c => c.wf
  | .resetData c => c.wf
  | .resetManagement c => c.wf
  | .warmReset => true
  | .controlReset => true
  | .dataReset => true
  | .managementReset => true
  | .powerOnReset straps => straps < 4
  | .standbyEntry _ _ _ => true
  | .thermalTrip tj => 936 ≤ tj
  | .supplyFault rail => rail < 5
  | .faultEntry => true
  | .warmResetEnd _ _ _ => true
  | .pcieLinkUp speed width => (speed == 16 || speed == 32 || speed == 64) && (width == 1 || width == 4 || width == 8 || width == 16)
  | .cascadeSync port => port < 4
  | .sgmiiSync => true
  | .vdpCommand d => d.wf
  | .flashProgrammed => true
  | .coreBooted core => core < 4

end Sys2Proof
end

