-- ==== Sys2Proof/Tests/Slice0.lean ====
section
/-! SUPPORT. The author's tests: the well-formedness smoke, for every statement a witness that meets its hypotheses, and small tests of
single steps whose expected results are calculated by hand from the spec. -/

namespace Sys2Proof.Tests

open Sys2Proof Sys2Proof.Machine

set_option Elab.async false

/-! Small states and commands. -/

/-- An engine that has started: READY, flash fitted, the host link up, ticks counted, the management link up. -/
def ready : State :=
  { (State.reset.setObjs [(Obj.devDevState, 3), (Obj.devStraps, 2), (Obj.cmmMemState, 2), (Obj.hostLinkState, 2)]) with
    tick := 4999, sgmii := true, time := { counting := true, refclk := true } }

/-- The same with some objects at other values. -/
def put (l : List (Key × Nat)) : State := ready.setObjs l

/-- The same with a timebase. -/
def timed (l : List (Key × Nat)) (tick : Tick) (x : TimeBase) : State := { put l with tick := tick, time := { x with counting := true } }

/-- Service core 0 as the sender. -/
def core0 : Issuer := { port := 2, core := 0 }

/-- A write of a number by service core 0. -/
def wc (v : Nat) : WriteCmd := { iss := core0, tag := 7, value := v }

/-- A write of bytes by service core 0. -/
def bc (v : Bytes) : BytesCmd := { iss := core0, tag := 7, value := v }

/-- A packet is accepted, and `p` holds of the state in which the command acts. -/
def took (s : State) (op : Nat) (i : Issuer) (raw : Bytes) (p : State → Accepted → Bool) : Bool :=
  match s.taking op i raw with
  | some (s1, a) => p s1 a
  | none => false

theorem of_took {s : State} {op : Nat} {i : Issuer} {raw : Bytes} {p : State → Accepted → Bool} (h : took s op i raw p = true) :
    ∃ s1 a, s.taking op i raw = some (s1, a) ∧ p s1 a = true := by
  unfold took at h
  split at h
  · next s1 a e => exact ⟨s1, a, e, h⟩
  · cases h

/-- A write of a number is taken, and `p` holds of the state in which it acts. -/
def wrote (s : State) (c : WriteCmd) (k v : Nat) (p : State → Accepted → Bool) : Bool :=
  decide (c.flags < 4 ∧ c.trailer.length = if bit c.flags 1 then 32 else 0)
    && took s opWrite c.iss (numPacket c k v) (fun s1 a =>
      decide (s1.due = [] ∧ s1.dueCommits (s1.tick + 1) = []) && decide (absentIndex s1.otp.variant (k / 256) = false ∧ s1.writeBusy k = false) && p s1 a)

theorem of_wrote {s : State} {c : WriteCmd} {k v : Nat} {p : State → Accepted → Bool} (h : wrote s c k v p = true) :
    ∃ s1 a, Writes s c k v s1 a ∧ p s1 a = true := by
  simp only [wrote, Bool.and_eq_true, decide_eq_true_eq] at h
  obtain ⟨ht, h⟩ := h
  obtain ⟨s1, a, e, h⟩ := of_took h
  simp only [Bool.and_eq_true, decide_eq_true_eq] at h
  exact ⟨s1, a, ⟨ht, e, h.1.1, h.1.2⟩, h.2⟩

/-- A write of bytes is taken, and `p` holds of the state in which it acts. -/
def wroteBytes (s : State) (c : BytesCmd) (k : Nat) (p : State → Accepted → Bool) : Bool :=
  decide (c.flags < 4 ∧ c.trailer.length = if bit c.flags 1 then 32 else 0) && decide (c.value.length + 20 + c.trailer.length ≤ 256)
    && took s opWrite c.iss (bytPacket c k) (fun s1 a =>
      decide (s1.due = [] ∧ s1.dueCommits (s1.tick + 1) = []) && decide (absentIndex s1.otp.variant (k / 256) = false ∧ s1.writeBusy k = false) && p s1 a)

theorem of_wroteBytes {s : State} {c : BytesCmd} {k : Nat} {p : State → Accepted → Bool} (h : wroteBytes s c k p = true) :
    ∃ s1 a, WritesBytes s c k s1 a ∧ p s1 a = true := by
  simp only [wroteBytes, Bool.and_eq_true, decide_eq_true_eq] at h
  obtain ⟨⟨ht, hl⟩, h⟩ := h
  obtain ⟨s1, a, e, h⟩ := of_took h
  simp only [Bool.and_eq_true, decide_eq_true_eq] at h
  exact ⟨s1, a, ⟨ht, hl, e, h.1.1, h.1.2⟩, h.2⟩

theorem of_wroteLong {s : State} {c : BytesCmd} {k : Nat} {p : State → Accepted → Bool} (h : wroteBytes s c k p = true) :
    ∃ s1 a, WritesLong s c k s1 a ∧ p s1 a = true := by
  obtain ⟨s1, a, hw, hp⟩ := of_wroteBytes h
  exact ⟨s1, a, by unfold WritesLong; rw [if_pos hw.2.1]; exact hw, hp⟩

/-- The state that a command leaves. -/
def after (c : Instr) (s : State) : State :=
  match exec c s with
  | .next t => t
  | _ => s

/-- What a command leaves at the boundary that opens the next tick (R22). -/
def landed (c : Instr) (s : State) : State := (after c s).atBoundary

/-! Witnesses: time and its sources. -/

theorem witness_TimeMapMovesAtPointsStepsAndSlewEnds :
    (let s := timed [(Obj.tbTimeMapInterval, 1000)] 4999 {};
      (s.due = [] ∧ s.dueCommits (s.tick + 1) = []) ∧ s.obj Obj.tbTimeMapInterval ≠ 0 ∧ (s.tick + 1) % s.obj Obj.tbTimeMapInterval = 0
        ∧ s.time.counting = true)
    ∧ (timed [] 9 { step := some (-3, 1), taiValid := true }).time.step = some (-3, 1)
    ∧ (let s := timed [(Obj.tbDiscState, 4)] 4999 { slewOffset := 54975581 }
      s.time.slewOffset ≠ 0 ∧ s.residual (s.tick + 1) ≤ s.obj Obj.tbLockWindow ∧ s.obj Obj.tbDiscState = 4) := by decide +kernel

theorem witness_SourceEdgesAreTakenOrMissed :
    (let s := timed [(Obj.tbDiscSrc, 1), (Obj.tbLockCount, 8)] 2000000000 { lastEdge := some 63936000000, edges := 7 }
      let time := 128000000000
      s.obj Obj.tbDiscSrc = 1 ∧ s.running = true ∧ s.time.counting = true ∧ tickOf time ≤ s.tick ∧ s.time.lastEdge = some 63936000000
        ∧ ((time : Int) - 63936000000 - 64000000000 * s.time.ahead).natAbs ≤ 64000000 ∧ s.obj Obj.tbLockCount ≤ s.time.edges + 1)
    ∧ (let s := timed [(Obj.tbDiscSrc, 2), (Obj.vrefVrefNum, 1000), (Obj.vrefVrefDen, 1), (Obj.vrefVrefTol, 10), (Obj.tbLockCount, 8)] 5000
        { lastEdge := some 6400, edges := 7 }
      let time := 70400 + 640
      s.obj Obj.tbDiscSrc = 2 ∧ s.running = true ∧ s.time.counting = true ∧ tickOf time ≤ s.tick ∧ s.time.lastEdge = some 6400
        ∧ (((time * s.obj Obj.vrefVrefDen : Nat) : Int) - (6400 * s.obj Obj.vrefVrefDen + 64 * s.obj Obj.vrefVrefNum * s.time.ahead : Nat)).natAbs
          ≤ 64 * s.obj Obj.vrefVrefTol * s.obj Obj.vrefVrefDen ∧ s.obj Obj.tbLockCount ≤ s.time.edges + 1)
    ∧ (∀ n ∈ [1, 8], let s := timed [(Obj.tbDiscSrc, 2), (Obj.tbLockCount, n)] 5000 {}
      s.obj Obj.tbDiscSrc = 2 ∧ s.running = true ∧ s.time.counting = true ∧ tickOf 320063 ≤ s.tick ∧ s.time.lastEdge = none
        ∧ (if n = 1 then s.obj Obj.tbLockCount ≤ 1 else 1 < s.obj Obj.tbLockCount ∧ s.time.sourceOk = false ∧ s.obj Obj.tbDiscState ≠ 2
          ∧ s.obj Obj.tbDiscState ≠ 4))
    ∧ (let s := timed [(Obj.tbDiscSrc, 1), (Obj.tbPpsMissLimit, 3)] 1000999999 { lastEdge := some 0, misses := 1, sourceOk := true }
      s.obj Obj.tbDiscSrc = 1 ∧ s.time.lastEdge = some 0 ∧ 0 + 64000000000 * s.time.ahead + 64000000 ≤ 64 * (s.tick + 1)
        ∧ s.time.misses + 1 < s.obj Obj.tbPpsMissLimit ∧ s.time.sourceOk = true)
    ∧ (let s := timed [(Obj.tbDiscSrc, 1), (Obj.tbPpsMissLimit, 3), (Obj.tbDiscState, 2)] 1000999999 { lastEdge := some 0, misses := 2, sourceOk := true }
      s.obj Obj.tbDiscSrc = 1 ∧ s.time.lastEdge = some 0 ∧ 0 + 64000000000 * s.time.ahead + 64000000 ≤ 64 * (s.tick + 1)
        ∧ s.obj Obj.tbPpsMissLimit ≤ s.time.misses + 1 ∧ s.obj Obj.tbDiscState = 2)
    ∧ (∀ m ∈ [1, 2],
      let s := timed [(Obj.tbDiscSrc, 2), (Obj.vrefVrefNum, 1000), (Obj.vrefVrefDen, 1), (Obj.vrefVrefTol, 10), (Obj.vrefVrefMissLimit, 3),
        (Obj.tbDiscState, 2)] 1010 { lastEdge := some 0, misses := m, sourceOk := true }
      s.obj Obj.tbDiscSrc = 2 ∧ s.time.lastEdge = some 0
        ∧ 0 * s.obj Obj.vrefVrefDen + 64 * s.obj Obj.vrefVrefNum * s.time.ahead + 64 * s.obj Obj.vrefVrefTol * s.obj Obj.vrefVrefDen
          < 64 * (s.tick + 1) * s.obj Obj.vrefVrefDen
        ∧ s.time.sourceOk = true ∧ (if m = 1 then s.time.misses + 1 < s.obj Obj.vrefVrefMissLimit else s.obj Obj.vrefVrefMissLimit ≤ s.time.misses + 1))
    ∧ (let s := timed [(Obj.tbDiscSrc, 4), (Obj.corrHostTimeout, 1), (Obj.tbDiscState, 2)] 999999 { lastCorr := some 0, sourceOk := true }
      s.obj Obj.tbDiscSrc = 4 ∧ s.time.lastCorr = some 0 ∧ s.obj Obj.corrHostTimeout ≠ 0
        ∧ 0 + 1000000 * s.obj Obj.corrHostTimeout ≤ s.tick + 1 ∧ s.obj Obj.tbDiscState = 2) := by decide +kernel

theorem witness_LoopUpdateSteersWithinItsBounds : ∀ d ∈ [2, 4],
    let s := timed [(Obj.tbDiscSrc, 0), (Obj.tbDiscState, d)] 1023 {}
    s.obj Obj.tbDiscSrc = 0 ∧ (s.obj Obj.tbDiscState = 2 ∨ s.obj Obj.tbDiscState = 4) ∧ s.time.lastUpdate + 1024 ≤ s.tick + 1 := by decide +kernel

/-! Witnesses: clock synthesis. -/

/-- A state with one synthesiser's run. -/
def synth (l : List (Key × Nat)) (i : Nat) (x : Synth) : State := { put l with syn := [(i, x)] }

theorem witness_SynthesiserLocksAfterItsRelock : ∀ i ∈ [0, 1, 2, 5],
    let s := synth [(synWordKey i, 1)] i { relockAt := some 4000, gate := true, cycles := 256 }
    i < 6 ∧ (s.synth i).relockAt.isSome = true ∧ 256 ≤ (s.synth i).cycles ∧ (({} : Synth).cycles < 256) ∧ s.time.refclk = true ∧ s.obj (synWordKey i) ≠ 0 := by decide +kernel

theorem witness_OutputsAndPicotsMoveAtTheirBoundaries :
    (∀ n ∈ [0, 3], let s := synth [(Obj.synOSynWord n, 1)] (n + 2) { opens := [5000] }
      n < 4 ∧ (s.synth (n + 2)).opens.any (· ≤ s.tick + 1) = true ∧ (s.synth (n + 2)).hold = false ∧ (s.synth (n + 2)).gate = false)
    ∧ (∀ n ∈ [0, 3], ∀ b ∈ [true, false],
      let s := synth [] (n + 2) { gate := true, closes := if b then [5000] else [], holdAt := if b then none else some 5000 }
      n < 4 ∧ ((s.synth (n + 2)).closes.any (· ≤ s.tick + 1) || (s.synth (n + 2)).holdAt.any (· ≤ s.tick + 1)) = true
        ∧ (s.synth (n + 2)).closes.any (· ≤ s.tick + 1) = b ∧ (s.synth (n + 2)).holdAt.any (· ≤ s.tick + 1) = !b ∧ (s.synth (n + 2)).gate = true)
    ∧ (∀ n ∈ [0, 3], let s := synth [] (n + 2) { lockedAt := some 0, hold := true } |>.setTime (fun b => { b with cyc := 1024 })
      n < 4 ∧ (s.synth (n + 2)).lockedAt = some 0 ∧ (s.synth (n + 2)).hold = true ∧ 0 + 1024 ≤ s.refCyc)
    ∧ (let x : Synth := { run := true, gate := true, den := 4, since := 4 }; x.run = true ∧ x.gate = true ∧ x.owe = 0 ∧ x.den = 4 ∧ x.since < 5)
    ∧ (∀ n ∈ [0, 3], ∀ v ∈ [1, 2 ^ 32 - 1], let s := (put [(Obj.synOPicotPending n, v)]).setTime (fun b => { b with cyc := 2048 })
      n < 4 ∧ s.int (Obj.synOPicotPending n) ≠ 0 ∧ s.time.refclk = true
        ∧ (s.synth (n + 2)).lastStep + s.obj (Obj.synOPicotInterval n) ≤ s.refCyc
        ∧ (if v = 1 then 0 < s.int (Obj.synOPicotPending n) else s.int (Obj.synOPicotPending n) < 0)) := by decide +kernel

theorem witness_ReferenceClockSetsAndStopsTheSynthesisers :
    (∀ c ∈ [1, 5], let s := State.reset
      s.obj Obj.devDevState = 0 ∧ s.time.counting = false ∧ 1 ≤ c ∧ c ≤ 5 ∧ refHz c * 95 ≤ (refHz c * 105 / 100) * 100
        ∧ (refHz c * 105 / 100) * 100 ≤ refHz c * 105)
    ∧ (∀ c ∈ [1, 2, 3, 4, 5], ¬(refHz c * 95 ≤ 1 * 100 ∧ 1 * 100 ≤ refHz c * 105))
    ∧ (put [(Obj.synTSynWord, 1)]).time.refclk = true ∧ (put [(Obj.synTSynWord, 1)]).obj (synWordKey 0) ≠ 0
    ∧ (let s := { put [(Obj.refRefclkClass, 1), (synWordKey 5, 1)] with time := {} }
      s.time.refclk = false ∧ s.obj Obj.refRefclkClass ≠ 0 ∧ s.obj (synWordKey 5) ≠ 0) := by decide +kernel

/-! Witnesses: cascade ports. -/

/-- A state with one cascade port's run. -/
def casc (l : List (Key × Nat)) (n : Nat) (x : CascPort) : State := { put l with casc := [(n, x)] }

theorem witness_AlignmentWordsMeasureAndKeepTheAlignment :
    (∀ n ∈ [0, 3], let s := casc [] n { sync := true, lastSent := some 3976, lastMsg := some 4984 }
      n < 4 ∧ (s.cascPort n).sync = true ∧ ¬(s.obj Obj.tbDiscSrc = 3 ∧ s.obj Obj.tbCascadePort = n) ∧ s.running = true ∧ s.time.counting = true
        ∧ (s.cascPort n).lastSent = some 3976 ∧ 3976 + 1024 ≤ s.tick + 1 ∧ (s.tick + 1) % 4 = 0 ∧ (s.cascPort n).lastMsg = some 4984 ∧ 4984 + 16 ≤ s.tick + 1)
    ∧ (∀ src ∈ [0, 3], ∀ d ∈ [1, 2], let s := casc [(Obj.tbDiscSrc, src), (Obj.tbCascadePort, 3), (Obj.tbDiscState, d)] 3 { sync := true }
      3 < 4 ∧ (s.cascPort 3).sync = true ∧ tickOf (64 * 4999) ≤ s.tick ∧ s.running = true
        ∧ (if src = 0 then ¬(s.obj Obj.tbDiscSrc = 3 ∧ s.obj Obj.tbCascadePort = 3) else s.obj Obj.tbDiscSrc = 3 ∧ s.obj Obj.tbCascadePort = 3)
        ∧ s.obj Obj.tbDiscState = d)
    ∧ (let s := casc [(Obj.tbDiscSrc, 3), (Obj.tbCascadePort, 3), (Obj.tbDiscState, 2)] 3 { sync := true, lastWord := some 904 }
      s.obj Obj.tbDiscSrc = 3 ∧ s.obj Obj.tbCascadePort = 3 ∧ 3 < 4 ∧ (s.cascPort 3).lastWord = some 904 ∧ 904 + 4096 ≤ s.tick + 1
        ∧ s.obj Obj.tbDiscState = 2)
    ∧ ((ready.cascPort 3).sync = false ∧ ready.running = true)
    ∧ ((casc [] 3 { sync := true }).cascPort 3).sync = true
    ∧ ¬((casc [] 3 { sync := true }).obj Obj.tbDiscSrc = 3 ∧ (casc [] 3 { sync := true }).obj Obj.tbCascadePort = 3)
    ∧ (let s := casc [(Obj.tbDiscSrc, 3), (Obj.tbCascadePort, 3)] 3 { sync := true }
      (s.cascPort 3).sync = true ∧ s.obj Obj.tbDiscSrc = 3 ∧ s.obj Obj.tbCascadePort = 3) := by decide +kernel

theorem witness_CascadeMessagesLeaveAndArriveWhole :
    (let s := casc [] 3 { queue := [(5000, 7, 1)], lastMsg := some 4984, busyUntil := 5000 };
      3 < 4 ∧ (s.cascPort 3).queue = [(5000, 7, 1)] ∧ 5000 ≤ s.tick + 1 ∧ (s.tick + 1) % 4 = 0 ∧ (s.cascPort 3).busyUntil ≤ s.tick + 1
        ∧ (s.cascPort 3).lastMsg = some 4984 ∧ 4984 + 16 ≤ s.tick + 1)
    ∧ (∀ r ∈ [0, 1, 16], let s := casc [(Obj.cpRxLatency 3, r)] 3 { sync := true }
      s.obj (Obj.cpRxLatency 3) = r ∧ 3 < 4 ∧ s.running = true ∧ (s.cascPort 3).sync = true ∧ (248 : Byte).toNat ≠ 255 - (8 : Byte).toNat ∧ (247 : Byte).toNat = 255 - (8 : Byte).toNat) := by
  decide +kernel

/-- A pending commit. -/
def pending1 : Pending := { iss := core0, jseq := 9, tag := 7, flags := 0, trailer := [], pktCrc := 0, target := 5000, set := [] }

theorem witness_TickLoadMovesTheCountAndEndsPendingCommits :
    let s : State := { casc [(Obj.tbDiscSrc, 3), (Obj.tbCascadePort, 3)] 3 { sync := true, load := some (-64 * 4999) } with ports := [(2, { pend := [pending1] })] }
    s.obj Obj.tbDiscSrc = 3 ∧ s.obj Obj.tbCascadePort < 4 ∧ (s.cascPort (s.obj Obj.tbCascadePort)).load = some (-64 * 4999)
      ∧ s.queueList.any s.capturing = false ∧ pending1 ∈ s.allPending := by decide +kernel

/-! Witnesses: commands on the timebase. -/

theorem witness_TimeActionsEndHeld :
    (∃ s1 a, Writes (put [(Obj.tbDiscState, 5)]) (wc 1) Obj.tbTimeAction 1 s1 a
      ∧ decide (s1.obj Obj.tbDiscState = 5 ∧ s1.obj Obj.tbDiscSrc ≠ 3) = true)
    ∧ (∀ j ∈ [63999, 64000], ∃ s1 a, Writes (put [(Obj.tbDiscState, 5), (Obj.tbLastJump, j)]) (wc 2) Obj.tbTimeAction 2 s1 a
      ∧ decide (s1.obj Obj.tbDiscState = 5 ∧ if j = 64000 then 64000 ≤ (s1.int Obj.tbLastJump).natAbs else (s1.int Obj.tbLastJump).natAbs < 64000) = true)
    ∧ (∃ s1 a, Writes (put [(Obj.tbDiscState, 5), (Obj.tbDiscSrc, 3), (Obj.tbCascadePort, 3)]) (wc 3) Obj.tbTimeAction 3 s1 a
      ∧ decide (s1.obj Obj.tbDiscState = 5 ∧ s1.obj Obj.tbDiscSrc = 3 ∧ s1.obj Obj.tbCascadePort < 4 ∧ s1.queueList.any s1.capturing = false) = true)
    ∧ (∀ v ∈ [1, 2, 3], ∃ s1 a, Writes (put [(Obj.tbDiscState, 4)]) (wc v) Obj.tbTimeAction v s1 a ∧ decide (s1.obj Obj.tbDiscState ≠ 5) = true)
    ∧ (∃ s1 a, Writes (put [(Obj.tbDiscState, 5), (Obj.tbDiscSrc, 3)]) (wc 1) Obj.tbTimeAction 1 s1 a
      ∧ decide (s1.obj Obj.tbDiscState = 5 ∧ s1.obj Obj.tbDiscSrc = 3) = true)
    ∧ (∃ s1 a, Writes (put [(Obj.tbDiscState, 5)]) (wc 3) Obj.tbTimeAction 3 s1 a ∧ decide (s1.obj Obj.tbDiscSrc ≠ 3) = true)
    ∧ (∃ s1 a, Writes { put [(Obj.tbDiscState, 5), (Obj.tbDiscSrc, 3), (Obj.qState 4095, 1)] with queues := [(4095, {})] } (wc 3) Obj.tbTimeAction 3 s1 a
      ∧ decide (s1.obj Obj.tbDiscSrc = 3 ∧ s1.queueList.any s1.capturing = true) = true) := by
  refine ⟨of_wrote (by decide +kernel), fun j h => ?_, of_wrote (by decide +kernel), fun v h => ?_, of_wrote (by decide +kernel),
    of_wrote (by decide +kernel), of_wrote (by decide +kernel)⟩ <;> fin_cases h <;> exact of_wrote (by decide +kernel)

/-- A write of TIME_ACTION outside HELD changes nothing but what is reported (R723): the state asks for no step. -/
theorem test_stepNow_busy : (landed (.stepNow (wc 1)) (put [(Obj.tbDiscState, 4)])).time.step = none := by decide +kernel

/-- A state whose port 2 holds one member of a pair. -/
def holding (l : List (Key × Nat)) (k : Key) (w : Nat) : State :=
  { put l with ports := [(2, { held := [{ iss := core0, jseq := 8, tag := 6, key := k, written := .num w, since := 4000 }] })] }

theorem witness_HostCorrectionsTakeEffectInPairs :
    (∀ src ∈ [0, 4], ∃ s1 a, Writes (holding [(Obj.tbDiscSrc, src), (Obj.tbDiscState, 3)] Obj.corrPhaseCorr 63999) (wc 219902325) Obj.corrFreqCorr 219902325
        s1 a
      ∧ decide (((s1.port 2).heldOf Obj.corrPhaseCorr).map (·.written) = some (.num 63999) ∧ (toInt 32 219902325).natAbs ≤ 219902325
        ∧ (toInt 64 63999).natAbs < 64000 ∧ s1.obj Obj.tbDiscSrc = src ∧ s1.obj Obj.tbDiscState = 3 ∧ s1.time.sourceOk = false) = true)
    ∧ (∀ src ∈ [0, 4], ∃ s1 a, Writes (let s := holding [(Obj.tbDiscSrc, src), (Obj.tbDiscState, 5)] Obj.corrFreqCorr 5
          { s with time := { s.time with sourceOk := true } }) (wc 63999) Obj.corrPhaseCorr 63999 s1 a
      ∧ decide (((s1.port 2).heldOf Obj.corrFreqCorr).map (·.written) = some (.num 5) ∧ (toInt 32 5).natAbs ≤ 219902325
        ∧ (toInt 64 63999).natAbs < 64000 ∧ s1.obj Obj.tbDiscSrc = src ∧ s1.obj Obj.tbDiscState = 5 ∧ s1.time.sourceOk = true) = true) := by
  refine ⟨fun src h => ?_, fun src h => ?_⟩ <;> fin_cases h <;> exact of_wrote (by decide +kernel)

theorem witness_RequestsOfStepsPulsesAndScansAreKept :
    (∃ s1 a, Writes (put [(Obj.synOPicotPending 3, 1)]) (wc (2 ^ 32 - 1048576)) (Obj.synOPicotSteps 3) (2 ^ 32 - 1048576) s1 a
      ∧ decide ((toInt 32 (2 ^ 32 - 1048576)).natAbs ≤ 1048576
        ∧ (s1.int (Obj.synOPicotPending 3) + toInt 32 (2 ^ 32 - 1048576)).natAbs ≤ 1048576) = true)
    ∧ (∃ s1 a, Writes ready (wc (2 ^ 32 - 1)) Obj.swSwTrigger (2 ^ 32 - 1) s1 a ∧ decide (s1.arrivals = []) = true)
    ∧ (∃ s1 a, Writes { ready with arrivals := [(5000, .soft 1 320000)] } (wc 2) Obj.swSwTrigger 2 s1 a
      ∧ decide (s1.arrivals = [(s1.tick + 1, .soft 1 320000)]) = true)
    ∧ (∃ s1 a, Writes (put [(Obj.laneEyeMode 31, 1)]) (wc 1) (Obj.laneEyeRequest 31) 1 s1 a ∧ decide (s1.obj (Obj.laneEyeMode 31) ≠ 0) = true) :=
  ⟨of_wrote (by decide +kernel), of_wrote (by decide +kernel), of_wrote (by decide +kernel), of_wrote (by decide +kernel)⟩

/-! Witnesses: sessions and fuses. -/

/-- A packet without a trailer (R502). -/
def pk (op entries : Nat) (body : Bytes) : Bytes :=
  le 1 op ++ le 1 1 ++ [0, 0] ++ le 2 (16 + body.length) ++ le 1 entries ++ [0] ++ le 4 7 ++ zeros 4 ++ body

/-- Port 0 as the sender. -/
def host0 : Issuer := { port := 0, slot := 3 }

/-- A session of port 0 in a slot. -/
def withSession (l : List (Key × Nat)) (n state : Nat) : State :=
  let s := put (l ++ [(Obj.sessState n, state), (Obj.sessPort n, 0)])
  { (s.setDom (Obj.sessPeer n) (zeros 18)) with sessions := [(n, { id := [1, 2, 3, 4, 5, 6, 7, 8] })] }

/-- A slot in HANDSHAKE, and an owner key that was made for one signature over its transcript: with e the hash of R543 as a number, the point of
x-coordinate e less the base point, under which r = s = e verifies (FIPS 186-5), computed with Python's arithmetic. -/
def proving : State :=
  let s := withSession [(Obj.secOwnerState, 1)] 7 1
  { (s.setDom Obj.secOwnerKey
      (be 48 0x3637e74e0c4f9171803c59f7dc6be8047a8f8715cb2496c079f7498473692820a63ed4df94f2de865fad63ac46316b5b
        ++ be 48 0x9c847c1fe5b6410be31f49ca0c396e8b91dd25b889c22ed4bf7b5ad7863b34238f86c5ef9397ce80e102ba1dcd545528)) with
    sessions := [(7, { id := [1, 2, 3, 4, 5, 6, 7, 8], nh := [1] })] }

/-- That signature. -/
def proof1 : Bytes :=
  let e := be 48 0xc085b2247f450d50da776fae1fed2d5913ab713ce53960d921a46a7b8fc8080e00bc2956d2ab65025e715ad1f8000d61
  e ++ e

theorem witness_SessionsOpenAndEnd :
    (∀ b ∈ [zeros 96, pointBytes curveG], ∃ s1 a, (put [(Obj.sessState 0, 2)]).taking opHello host0 (pk opHello 0 (b ++ zeros 32)) = some (s1, a)
      ∧ decide (host0.port < 2 ∧ (s1.port 0).lockedAt = none ∧ s1.obj (Obj.sessState 1) = 0 ∧ s1.obj (Obj.sessState 0) ≠ 0
        ∧ (pointOk (a.pkt.body.take 96) = true ↔ b ≠ zeros 96)) = true)
    ∧ (∃ s1 a, (withSession [] 7 1).taking opAttest host0 (pk opAttest 0 [1, 2, 3, 4, 5, 6, 7, 8]) = some (s1, a)
      ∧ decide (s1.sessionOf host0 a.pkt.body [1, 2] = some 7) = true)
    ∧ (∃ s1 a, (withSession [] 7 1).taking opProve host0 (pk opProve 0 ([1, 2, 3, 4, 5, 6, 7, 8] ++ zeros 96)) = some (s1, a)
      ∧ decide (s1.sessionOf host0 (a.pkt.body.take 8) [1] = some 7) = true)
    ∧ (∃ s1 a, proving.taking opProve host0 (pk opProve 0 ([1, 2, 3, 4, 5, 6, 7, 8] ++ proof1)) = some (s1, a)
      ∧ decide (s1.sessionOf host0 (a.pkt.body.take 8) [1] = some 7 ∧ s1.obj Obj.secOwnerState = 1
        ∧ ecdsaVerify (s1.dom Obj.secOwnerKey) (ascii "EPC-OWN-1" ++ s1.transcript (s1.session 7)) (a.pkt.body.drop 8) = true) = true)
    ∧ (∃ s1 a, Writes (withSession [] 7 2) (wc 1) (Obj.sessClose 7) 1 s1 a ∧ decide ((wc 1).value = 1) = true)
    ∧ (let s : State := { withSession [(Obj.secSessionIdleS, 1)] 7 2 with tick := 1000000004, sessions := [(7, { usedAt := 5 })] }
      s.obj (Obj.sessState 7) = 2 ∧ s.obj Obj.secSessionIdleS ≠ 0
        ∧ (s.session 7).usedAt + 1000000000 * s.obj Obj.secSessionIdleS ≤ s.tick + 1)
    ∧ (let s : State := { withSession [] 7 1 with tick := 999999999 }
      s.obj (Obj.sessState 7) = 1 ∧ (s.session 7).helloAt + 1000000000 ≤ s.tick + 1)
    ∧ (let s : State := { ready with tick := 1000000000, ports := [(0, { lockedAt := some 1, proveFails := 8 })] };
      (s.port 0).lockedAt = some 1 ∧ 1 + 1000000000 ≤ s.tick + 1) :=
  ⟨fun b h => by fin_cases h <;> exact of_took (by decide +kernel), of_took (by decide +kernel), of_took (by decide +kernel),
    of_took (by decide +kernel), of_wrote (by decide +kernel), by decide +kernel⟩

/-- What waits for an event. -/
def waiting (w : Wait) : State := { ready with deferred := [(w, { iss := core0, jseq := 3 })] }

theorem witness_FusesArePermanent :
    (∀ b ∈ [zeros 96, pointBytes curveG], ∃ s1 a, WritesBytes ready (bc b) Obj.secOwnerKey s1 a
      ∧ decide (s1.obj Obj.secOwnerState = 0 ∧ s1.otp.ownerKey = [] ∧ s1.waitsFor .ownerKey = false ∧ (pointOk b = true ↔ b ≠ zeros 96)) = true)
    ∧ (waiting .ownerKey).deferred.find? (fun e => e.1 == Wait.ownerKey) = some (.ownerKey, { iss := core0, jseq := 3 })
    ∧ (∃ s1 a, Writes ready (wc 3) Obj.secPolicyFloor 3 s1 a ∧ decide (3 < 4) = true) :=
  ⟨fun b h => by fin_cases h <;> exact of_wroteBytes (by decide +kernel), by decide +kernel, of_wrote (by decide +kernel)⟩

/-- The published examples of SHA-384 and SHA-256 for "abc": the first bytes (FIPS 180-4). -/
theorem test_hashes : (sha384 (ascii "abc")).take 8 = [0xCB, 0, 0x75, 0x3F, 0x45, 0xA3, 0x5E, 0x8B]
    ∧ (sha256 (ascii "abc")).take 8 = [0xBA, 0x78, 0x16, 0xBF, 0x8F, 1, 0xCF, 0xEA] := by decide +kernel

/-- An engine whose FW_SEC_MIN is 5 after `n` raises. -/
def raised (n : Nat) : State := { ready with otp := { ready.otp with secMin := 5, secRaises := n } }

theorem witness_FwSecMinOnlyRises : ∀ e ∈ [(0, 62), (5, 62), (6, 62), (65535, 63)], ∃ s1 a,
    Writes (raised e.2) (wc e.1) Obj.secFwSecRaise e.1 s1 a ∧ decide (e.1 < 65536 ∧ s1.otp.secMin = 5 ∧ s1.otp.secRaises = e.2) = true := by
  intro e h
  fin_cases h <;> exact of_wrote (by decide +kernel)

/-- The 63rd raise is the last (R559), and zero is none (the object's row). -/
theorem test_fwSecRaise : (landed (.fwSecRaise (wc 6)) (raised 62)).otp.secMin = 6 ∧ (landed (.fwSecRaise (wc 6)) (raised 63)).otp.secMin = 5
    ∧ (landed (.fwSecRaise (wc 5)) (raised 0)).otp = (raised 0).otp
    ∧ (landed (.fwSecRaise (wc 0)) (raised 0)).landing.map (fun l => l.outs) = [[emptyOut Obj.secFwSecRaise]] := by decide +kernel

/-! Witnesses: commands on the dictionary. -/

theorem witness_WriteOfOneObjectActsAtTheNextBoundary :
    isStaged Obj.cmmTrain = false ∧ pairPartner Obj.cmmTrain = none
    ∧ (∃ s1 a, Writes ready (wc 0) Obj.cmmTrain 0 s1 a ∧ decide ((s1.checkEntry Obj.cmmTrain (valBytes Obj.cmmTrain (.num 0))).applies = false) = true)
    ∧ (∃ s1 a, Writes ready (wc 1) Obj.cmmTrain 1 s1 a
      ∧ decide ((s1.checkEntry Obj.cmmTrain (valBytes Obj.cmmTrain (.num 1))).applies = true
        ∧ (s1.checkEntry Obj.cmmTrain (valBytes Obj.cmmTrain (.num 1))).applied = some (.num 1)
        ∧ (s1.act core0 Obj.cmmTrain (.num 1) (s1.tick + 1)).2.1.status ≠ stPairPending) = true) :=
  ⟨by decide +kernel, by decide +kernel, of_wrote (by decide +kernel), of_wrote (by decide +kernel)⟩

/-- The entry of a READ (R504). -/
def rd (k : Key) (staged : Nat) : Bytes := le 2 (k / 256) ++ le 1 k ++ le 1 staged

/-- A staged number. -/
def staged1 (k v : Nat) : Staged := { key := k, val := .num v, written := .num v, out := okOut k (.num v) }

theorem witness_ReadsAnswerTheValueInForce :
    (∃ s1 a, ready.taking opRead host0 (pk opRead 1 (rd Obj.devDevState 0)) = some (s1, a)
      ∧ decide (readEntries a.pkt.entries a.pkt.body = [(Obj.devDevState, false)] ∧ absentIndex s1.otp.variant (Obj.devDevState / 256) = false
        ∧ (findObj Obj.devDevState).any (fun d => d.acc != .wo && (s1.readValue host0 Obj.devDevState d).any (fun b => b.length ≤ 184)) = true) = true)
    ∧ (∃ s1 a, ({ ready with ports := [(0, { staging := [staged1 (Obj.qMode 0) 1] })] } : State).taking opRead host0 (pk opRead 1 (rd (Obj.qMode 0) 1))
          = some (s1, a)
      ∧ decide (readEntries a.pkt.entries a.pkt.body = [(Obj.qMode 0, true)] ∧ isStaged (Obj.qMode 0) = true
        ∧ absentIndex s1.otp.variant (Obj.qMode 0 / 256) = false
        ∧ ((s1.port 0).staging.find? (fun e => e.key = Obj.qMode 0)).any (fun e => (valBytes (Obj.qMode 0) e.val).length ≤ 184) = true) = true)
    ∧ (∃ s1 a, ready.taking opRead host0 (pk opRead 1 (rd 0 0)) = some (s1, a)
      ∧ decide (readEntries a.pkt.entries a.pkt.body = [(0, false)] ∧ (findObj 0).isNone = true) = true)
    ∧ (∃ s1 a, ({ ready with otp := { ready.otp with variant := 2 } } : State).taking opRead host0 (pk opRead 1 (rd (Obj.laneEnable 31) 0)) = some (s1, a)
      ∧ decide (readEntries a.pkt.entries a.pkt.body = [(Obj.laneEnable 31, false)] ∧ (findObj (Obj.laneEnable 31)).isSome = true
        ∧ absentIndex s1.otp.variant (Obj.laneEnable 31 / 256) = true) = true)
    ∧ (∃ s1 a, ready.taking opRead host0 (pk opRead 1 (rd Obj.devReset 0)) = some (s1, a)
      ∧ decide (readEntries a.pkt.entries a.pkt.body = [(Obj.devReset, false)] ∧ absentIndex s1.otp.variant (Obj.devReset / 256) = false
        ∧ isAction Obj.devReset = true) = true)
    ∧ (∃ s1 a, ready.taking opSegRead host0 (pk opSegRead 0 (rd Obj.devDevState 255 ++ le 4 0)) = some (s1, a)
      ∧ decide (256 * fieldAt a.pkt.body 0 2 + fieldAt a.pkt.body 2 1 = Obj.devDevState ∧ fieldAt a.pkt.body 4 4 = 0 ∧ fieldAt a.pkt.body 3 1 ≠ 0
        ∧ (s1.readEntry host0 Obj.devDevState false).1 = stOk ∧ (s1.readEntry host0 Obj.devDevState false).2.1 = 0) = true)
    ∧ (∃ s1 a, ({ ready with readBufs := [(bufOf host0, { key := Obj.devDevState, data := zeros 400 })] } : State).taking opSegRead host0
          (pk opSegRead 0 (rd Obj.devDevState 255 ++ le 4 216)) = some (s1, a)
      ∧ decide (256 * fieldAt a.pkt.body 0 2 + fieldAt a.pkt.body 2 1 = Obj.devDevState ∧ fieldAt a.pkt.body 4 4 ≠ 0 ∧ fieldAt a.pkt.body 3 1 ≠ 0
        ∧ s1.readBufs.find (bufOf host0) = some { key := Obj.devDevState, data := zeros 400 }) = true)
    ∧ (∃ s1 a, ready.taking opSegRead host0 (pk opSegRead 0 (rd Obj.devDevState 1 ++ le 4 1)) = some (s1, a)
      ∧ decide (256 * fieldAt a.pkt.body 0 2 + fieldAt a.pkt.body 2 1 = Obj.devDevState ∧ fieldAt a.pkt.body 4 4 ≠ 0 ∧ fieldAt a.pkt.body 3 1 ≠ 0
        ∧ s1.readBufs.find (bufOf host0) = none) = true) :=
  ⟨of_took (by decide +kernel), of_took (by decide +kernel), of_took (by decide +kernel), of_took (by decide +kernel),
    of_took (by decide +kernel), of_took (by decide +kernel), of_took (by decide +kernel), of_took (by decide +kernel)⟩

theorem witness_EchoReturnsItsBody :
    ∃ s1 a, ready.taking opEcho host0 (pk opEcho 0 (zeros 224)) = some (s1, a)
      ∧ decide (a.pkt.body.length ≤ (if a.auth = [] then 224 else 192)) = true := of_took (by decide +kernel)

/-- A state whose port 0 has staged and pending values. -/
def stocked (staging : List Staged) (n : Nat) : State :=
  { ready with ports := [(0, { staging := staging, pend := List.replicate n { pending1 with iss := host0, target := 10000 } })] }

theorem witness_StagedValuesWaitForACommit :
    (∃ s1 a, (stocked [staged1 (Obj.qMode 0) 2] 0).taking opWrite host0 (pk opWrite 1 (writeEntry (Obj.qMode 0) [1])) = some (s1, a)
      ∧ decide ((writeEntries a.pkt.entries a.pkt.body).getD [] = [(Obj.qMode 0, [1])] ∧ bit a.pkt.flags 0 = false ∧ isStaged (Obj.qMode 0) = true
        ∧ isImage (Obj.qMode 0) = false ∧ isPatch (Obj.qMode 0) = false ∧ Obj.qMode 0 ≠ Obj.cmmTimings
        ∧ (s1.checkEntry (Obj.qMode 0) [1]).applies = true ∧ (s1.checkEntry (Obj.qMode 0) [1]).applied = some (.num 1)
        ∧ (s1.port 0).staging = [staged1 (Obj.qMode 0) 2]) = true)
    ∧ (∀ e ∈ [(4999, 0, false), (4999 + 2 ^ 40 + 1, 0, false), (0, 0, false), (5000, 4, true), (4999 + 2 ^ 40, 3, true)],
      ∃ s1 a, (stocked (if e.2.2 then [staged1 (Obj.qMode 0) 2] else []) e.2.1).taking opCommit host0 (pk opCommit 0 (le 8 e.1 ++ zeros 8)) = some (s1, a)
      ∧ decide (e.1 = fieldAt a.pkt.body 0 8 ∧ fieldAt a.pkt.body 10 6 = 0 ∧ s1.tick = 4999 ∧ ((s1.port 0).staging = [] ↔ e.2.2 = false)
        ∧ (s1.port 0).pend.length = e.2.1) = true)
    ∧ (∀ v ∈ [1, 3], ∃ s1 a, (stocked [staged1 (Obj.qMode 0) 2] 1).taking opDiscard host0 (pk opDiscard 0 (le 4 v)) = some (s1, a)
      ∧ decide (v = fieldAt a.pkt.body 0 4 ∧ 0 < v ∧ v < 4 ∧ (s1.due = [] ∧ s1.dueCommits (s1.tick + 1) = [])
        ∧ s1.ports.all (fun e => e.2.pend.all (fun c => c.iss.port = e.1)) = true) = true) := by
  refine ⟨of_took (by decide +kernel), fun e h => ?_, fun v h => ?_⟩ <;> fin_cases h <;> exact of_took (by decide +kernel)

theorem witness_CommitsLandWholeOrNotAtAll : ∀ f ∈ [0, 1],
    let c : Pending := { pending1 with iss := host0, flags := f, set := [staged1 (Obj.qMode 0) 1] }
    let s : State := { ready with ports := [(0, { pend := [c] })] }
    s.due = [] ∧ s.dueCommits (s.tick + 1) = [c] ∧ c.iss.port = 0 ∧ c ∈ (s.port 0).pend ∧ ∀ x ∈ (s.port 0).pend, x.jseq = c.jseq → x = c := by decide +kernel

/-- An open transfer of port 0. -/
def xfer1 (data : Bytes) : Transfer := { xfer := 65535, iss := host0, key := Obj.sigGolden 0, total := 8, data := data, last := 0, session := [] }

theorem witness_TransfersCarryLongValues :
    (∃ s1 a, ready.taking opSegStart host0 (pk opSegStart 0 (rd (Obj.sigGolden 0) 0 ++ le 4 4096)) = some (s1, a)
      ∧ decide (fieldAt a.pkt.body 3 1 = 0
        ∧ s1.startRefusal host0 (256 * fieldAt a.pkt.body 0 2 + fieldAt a.pkt.body 2 1) (fieldAt a.pkt.body 4 4) = none ∧ s1.transfers = []) = true)
    ∧ (∀ off ∈ [4, 5], ∃ s1 a, ({ ready with transfers := [xfer1 (zeros 4)] } : State).taking opSegData host0
        (pk opSegData 0 (le 2 65535 ++ [0, 0] ++ le 4 off ++ [1, 2, 3, 4])) = some (s1, a)
      ∧ decide (s1.transferOf host0 (fieldAt a.pkt.body 0 2) = some (xfer1 (zeros 4)) ∧ fieldAt a.pkt.body 2 2 = 0
        ∧ fieldAt a.pkt.body 4 4 = off ∧ a.pkt.body.drop 8 ≠ [] ∧ (a.pkt.body.drop 8).length < 8 - 4 + 4) = true)
    ∧ (({ ready with transfers := [xfer1 []] } : State).transferOf host0 65535 = some (xfer1 []))
    ∧ (∃ s1 a, ({ ready with transfers := [xfer1 (zeros 8)] } : State).taking opSegEnd host0
        (pk opSegEnd 0 (le 2 65535 ++ [0, 0] ++ le 4 (crc32 (zeros 8)))) = some (s1, a)
      ∧ decide (s1.transferOf host0 (fieldAt a.pkt.body 0 2) = some (xfer1 (zeros 8)) ∧ fieldAt a.pkt.body 2 2 = 0
        ∧ crc32 (zeros 8) = fieldAt a.pkt.body 4 4) = true)
    ∧ (∃ s1 a, ({ ready with transfers := [xfer1 []] } : State).taking opSegAbort host0 (pk opSegAbort 0 (le 2 65535 ++ [0, 0])) = some (s1, a)
      ∧ decide (s1.transferOf host0 (fieldAt a.pkt.body 0 2) = some (xfer1 [])) = true)
    ∧ (let s : State := { ready with tick := 999999999, transfers := [xfer1 []] }
      s.transfers.find? (fun x => x.iss.port = 0 ∧ x.xfer = 65535) = some (xfer1 []) ∧ (xfer1 []).last + 1000000000 ≤ s.tick + 1) := by
  refine ⟨of_took (by decide +kernel), fun e h => ?_, by decide +kernel, of_took (by decide +kernel), of_took (by decide +kernel), by decide +kernel⟩
  fin_cases h <;> exact of_took (by decide +kernel)

/-- A held member of a pair that is no correction. -/
def held1 : HeldPair := { iss := core0, jseq := 8, tag := 6, key := Obj.commIpv4Addr, written := .num 0x0A000001, since := 4000 }

theorem witness_PairsAreHeldForTheirPartner :
    (∃ s1 a, ready.taking opWrite core0 (pk opWrite 1 (writeEntry Obj.commIpv4Addr (le 4 0x0A000001))) = some (s1, a)
      ∧ decide ((writeEntries a.pkt.entries a.pkt.body).getD [] = [(Obj.commIpv4Addr, le 4 0x0A000001)] ∧ bit a.pkt.flags 0 = false
        ∧ isStaged Obj.commIpv4Addr = false ∧ pairPartner Obj.commIpv4Addr = some Obj.commIpv4Prefix
        ∧ (s1.checkEntry Obj.commIpv4Addr (le 4 0x0A000001)).applies = true ∧ (s1.port 2).heldOf Obj.commIpv4Prefix = none
        ∧ (s1.port 2).heldOf Obj.commIpv4Addr = none) = true)
    ∧ (let s : State := { put [(Obj.commIpv4Prefix, 24)] with tick := 1003999, ports := [(2, { held := [held1] })] }
      (s.port 2).held.find? (fun h => h.since + 1000000 ≤ s.tick + 1) = some held1 ∧ (s.due = [] ∧ s.dueCommits (s.tick + 1) = [])
        ∧ held1.key ≠ Obj.corrFreqCorr ∧ held1.key ≠ Obj.corrPhaseCorr
        ∧ (s.checkEntry held1.key (heldBytes held1)).applied = some (.num 0x0A000001) ∧ (s.setVal held1.key (.num 0x0A000001)).pairOk held1.key = true) :=
  ⟨of_took (by decide +kernel), by decide +kernel⟩

theorem witness_TheMirrorTakesTheJournalInOrder : ∀ old ∈ [0, 1],
    let e : JEntry := ⟨1, 0, 0, 5, 0, 1, 1⟩
    let s : State := { put [(Obj.jnlNextEno, 2), (Obj.jnlOldestEno, old), (Obj.jnlMirrorOldestEno, 1 - old)] with
      journal := [e], mirror := if old = 0 then [⟨0, 0, 0, 5, 0, 1, 1⟩] else [], cmm := { ready.cmm with mirror := 2048 } }
    s.cmm.mirror ≠ 0 ∧ s.obj Obj.cmmMemState = 2 ∧ max s.mirrorNext (s.obj Obj.jnlMirrorOldestEno) < s.obj Obj.jnlNextEno
      ∧ s.journal.find? (fun e => e.eno = max (max s.mirrorNext (s.obj Obj.jnlMirrorOldestEno)) (s.obj Obj.jnlOldestEno)) = some e
      ∧ (if old = 0 then s.obj Obj.jnlOldestEno ≤ max s.mirrorNext (s.obj Obj.jnlMirrorOldestEno)
        else max s.mirrorNext (s.obj Obj.jnlMirrorOldestEno) < s.obj Obj.jnlOldestEno) := by decide +kernel

/-! A CLOSE needs a trailer. -/

/-- The SESSION_ID of the session of `withSession`. -/
def id7 : Bytes := [1, 2, 3, 4, 5, 6, 7, 8]

/-- The header of a CLOSE with a trailer, with CORE zero. -/
def closeHead : Bytes := [0x23, 1, 2, 0, 56, 0, 0, 0, 7, 0, 0, 0, 0, 0, 0, 0]

/-- A CLOSE with its trailer: SESSION_ID, COUNTER and the code of R549. -/
def closeRaw : Bytes := closeHead ++ id7 ++ (id7 ++ le 8 1 ++ mac16 [] (macInput 1 (id7 ++ le 8 1) closeHead id7))

theorem witness_close : ∃ s1 a, (withSession [] 7 2).taking opClose host0 closeRaw = some (s1, a) ∧ a.slot = 7 := by
  obtain ⟨s1, a, h, p⟩ := of_took (s := withSession [] 7 2) (op := opClose) (i := host0) (raw := closeRaw) (p := fun _ a => a.slot == 7) (by decide +kernel)
  exact ⟨s1, a, h, by simpa using p⟩
/-! Witnesses: channels, lanes, links, decoders, flows. -/

/-- A state with one channel whose comparators settle. -/
def settling (l : List (Key × Nat)) (n : Nat) : State :=
  { put ((Obj.lcEnable n, 1) :: (Obj.lcWinMode n, 1) :: l) with chans := [(n, { up := { settleAt := 5000 }, lo := { settleAt := 5000 } })] }

theorem witness_ComparatorsSettleOnTheLevelTheyFind : ∀ lower ∈ [false, true], ∀ e ∈ [((0 : Nat), (0 : Int)), (0, 100000000), (4001, 0)],
    ∀ h ∈ [0, 7], let s := settling [(Obj.lcThrLo 255, e.1), (Obj.lcThrHi 255, e.1), (Obj.lcHystLo 255, h), (Obj.lcHystHi 255, h)] 255;
    let x := if lower = true then (s.chan 255).lo else (s.chan 255).up
    let k := (s.thr 255 lower).1
    let tp := trips k (s.thr 255 lower).2
    s.hasLc 255 = true ∧ s.flag (Obj.lcEnable 255) = true ∧ x.known = false ∧ x.settled = false ∧ x.settleAt ≠ 0 ∧ x.settleAt ≤ s.tick + 1
      ∧ s.obj (Obj.lcWinMode 255) = 1
      ∧ (s.thr 255 lower).2 = h ∧ (if e = (0, 0) then k ≤ 4000 ∧ tp.2 ≤ tp.2 ∧ tp.2 ≤ tp.1 else 4000 < k ∨ tp.1 < e.2 ∨ e.2 < tp.2) := by decide +kernel

/-- A state with one lane. -/
def laned (l : List (Key × Nat)) (n : Nat) (x : Lane) : State := { put l with tick := 20000, lanes := [(n, x)] }

theorem witness_ClockRecoveryMovesThroughItsStates :
    (∀ v ∈ [999, 1000], let s := laned [(Obj.laneCdrState 31, 1)] 31 { loud := v }
      s.cdr 31 = 1 ∧ (s.lane 31).loud = v ∧ s.obj (Obj.laneEqMode 31) = 0)
    ∧ (∀ v ∈ [3, 4], let s := laned [(Obj.laneCdrState 31, 2)] 31 { near := v }; s.cdr 31 = 2 ∧ (s.lane 31).near = v)
    ∧ (∀ c ∈ [3616, 3617], let s := laned [(Obj.laneCdrState 31, 3), (Obj.laneLink 31, 16)] 31 { cleanAt := c }
      s.cdr 31 = 3 ∧ (((s.lane 31).cleanAt + 16384 ≤ s.tick ∧ (s.obj (Obj.laneEqMode 31) = 0 → s.settled 31 = true)) ↔ c = 3616)
        ∧ 16 ≤ s.obj (Obj.laneLink 31))
    ∧ (let s := laned [(Obj.laneCdrState 31, 3)] 31 { codes := [(19999, List.replicate 13 2)] }
      s.cdr 31 = 3 ∧ s.obj (Obj.laneEqMode 31) = 0 ∧ s.settled 31 = false)
    ∧ (let s := laned [(Obj.laneCdrState 31, 3), (Obj.laneLink 31, 15), (Obj.linkLinkState 15, 1), (Obj.linkLaneList 15, 0xFFFFFFFFFFFFFF1F)] 31 {}
      s.cdr 31 = 3 ∧ (s.lane 31).cleanAt + 16384 ≤ s.tick ∧ s.settled 31 = true ∧ s.obj (Obj.laneLink 31) = 15 ∧ s.obj (Obj.linkLinkState 15) = 1
        ∧ s.ratesAgree 15 = true ∧ 31 ∈ s.linkLanes 15 ∧ ∀ l ∈ s.linkLanes 15, l = 31 ∨ s.locked l = true)
    ∧ (∀ e ∈ [(2, ({ quiet := 1000 } : Lane), true), (2, { quiet := 999 }, false), (4, { far := 2 }, true), (4, { far := 1 }, false),
        (4, { still := 2048 }, true), (4, { still := 2047 }, false)],
      let s := laned [(Obj.laneCdrState 31, e.1)] 31 e.2.1
      s.cdr 31 = e.1 ∧ (s.locked 31 = decide (e.1 = 4)) ∧ (s.lane 31).gap = none
        ∧ (decide (1000 ≤ (s.lane 31).quiet) || decide (2 ≤ (s.lane 31).far) || decide (2048 ≤ (s.lane 31).still)) = e.2.2) := by decide +kernel

theorem witness_LaneWordsArePassedOnAndErrorsWatched :
    (∀ g ∈ [none, some (5, 1)], let s := laned [(Obj.laneEnable 31, 1), (Obj.laneCdrState 31, 4), (Obj.laneBaudNum 31, 1485000000), (Obj.laneBaudDen 31, 1)] 31 { gap := g }
      s.belongsLater (Parked.wordOf 31) = false ∧ (s.lane 31).wordAt ≠ some s.tick ∧ s.running = true ∧ s.hasLane 31 = true ∧ s.locked 31 = true
        ∧ (s.lane 31).follows (s.wordForm 31).1 (s.wordForm 31).2.1 0 = true
        ∧ 0 * (s.wordForm 31).2.1 + 64 * (s.wordForm 31).1 ≤ (s.tick + 1) * (s.wordForm 31).2.1 ∧ (s.wordForm 31).2.2 = 0
        ∧ (s.lane 31).gap2 = none ∧ (s.lane 31).chain = none
        ∧ s.flag (Obj.lanePolarity 31) = false ∧ (s.lane 31).pols = [] ∧ (s.lane 31).gap = g)
    ∧ ({ ready with parked := [.word 31 0 0] } : State).belongsLater (Parked.wordOf 31) = true
    ∧ ((laned [] 31 { wordAt := some 20000 }).lane 31).wordAt = some (laned [] 31 {}).tick
    ∧ (∀ b ∈ [15, 16], let s : State := { put [(Obj.decPersonality 31, 2)] with tick := 125000, decs := [(31, { bad := b })] };
      s.obj (Obj.decPersonality 31) = 2 ∧ (s.dec 31).badSince + 125000 ≤ s.tick ∧ (s.dec 31).bad = b) := by decide +kernel

theorem witness_LinksTryAgainAndGiveUp :
    (let s : State := { put [(Obj.linkLinkState 15, 4), (Obj.linkFailReason 15, 3), (Obj.linkLaneList 15, 0xFFFFFFFFFFFFFF1F)] with tick := 999999 };
      s.running = true ∧ s.obj (Obj.linkLinkState 15) = 4 ∧ s.obj (Obj.linkFailReason 15) ≠ 1 ∧ (s.lnk 15).since + 1000000 ≤ s.tick + 1)
    ∧ (let s : State := { put [(Obj.linkLinkState 15, 2)] with tick := 1000000000 };
      s.running = true ∧ s.obj (Obj.linkLinkState 15) = 2 ∧ (s.lnk 15).lastZero + 1000000000 ≤ s.tick) := by decide +kernel

theorem witness_EyeScansTakeTheLanesInTurn :
    (∀ st ∈ [1, 4], let s : State := { put [(Obj.laneCdrState 31, st), (Obj.laneEyeMode 31, 2)] with lanes := [(31, { eyeAsked := true })] };
      s.running = true ∧ s.eye = none ∧ (below 32).find? s.eyeDue = some 31 ∧ s.locked 31 = decide (st = 4))
    ∧ (∀ e ∈ [(0, 0, false), (2, 0, true), (0, 19000, true)], let r : EyeRun := ⟨31, 2, 10, e.1, 0⟩
      let s : State := { put [(Obj.laneBaudNum 31, 1485000000), (Obj.laneBaudDen 31, 1)] with tick := 1000 * e.2.1, eye := some r }
      s.eye = some r ∧ ((r.abort ≠ 0 ∨ eyeBits r.mode r.dwell * (s.bitPeriod 31).1 * 1000 ≤ (s.tick - r.start) * (s.bitPeriod 31).2 * 1001) ↔ e.2.2 = true))
    ∧ (0 < ([1] : List Nat).getD (phasePoint 1 0) 0) ∧ (0 < (List.replicate 191 1).getD (phasePoint 1 32) 0) := by decide +kernel

/-- The width and the height of a scan whose 64 phases and 127 voltages are open but for the outermost (R162). -/
theorem test_eyeSize : eyeSize 1 0 (9 :: List.replicate 62 0 ++ [9, 9] ++ List.replicate 125 0 ++ [9]) = (62, 125) := by decide +kernel

/-- An IPv4 UDP packet in a frame of 64 bytes, without the frame check sequence. -/
def udpBytes : Bytes :=
  zeros 12 ++ [0x08, 0x00, 0x45, 0, 0, 46, 0, 0, 0, 0, 64, 17, 0x66, 0xBD, 10, 0, 0, 1, 10, 0, 0, 2, 0x13, 0x88, 0x13, 0x89, 0, 26, 0, 0] ++ zeros 18

/-- The frame. -/
def udpFrame : Frame := { time := 64 * 4999, data := udpBytes ++ le 4 (crc32 udpBytes), limit := 64 }

/-- Key and payload of a parsed UDP datagram. -/
def udpOf (p : Parsed) : Option (Bytes × Bytes) :=
  match p with
  | .udp k b => some (k, b)
  | _ => none

/-- A state whose decoder 31 is synchronised on Ethernet. -/
def ether (l : List (Key × Nat)) (x : FlowLane) (flows : Tab FlowCtx) : State :=
  { put ([(Obj.decPersonality 31, 2), (Obj.decDecState 31, 2)] ++ l) with flowLanes := [(31, x)], flows := flows }

/-- The flow of `udpFrame`: key and payload. -/
def udpKey (s : State) : Bytes × Bytes :=
  (udpOf (parseFrame (s.flag (Obj.flPtpEnable 31)) (udpFrame.data.take udpFrame.limit))).getD ([], [])

theorem witness_FramesAreClassifiedAndBucketsVisited :
    (∀ on ∈ [0, 1], ∀ fl ∈ [0, 2], ∀ at_ ∈ [none, some 4999], ∀ v ∈ [none, some 4999],
      let f := { udpFrame with flags := fl }
      let s : State := { ether [(Obj.flFlowEnable 31, on)] { frameAt := at_, visitAt := v } [] with decs := [(31, { ready := [(4990, f)] })] }
      s.running = true ∧ s.obj (Obj.decPersonality 31) = 2 ∧ (s.dec 31).ready = [(4990, f)] ∧ s.belongsLater (Parked.frameOf 31) = false
        ∧ ((s.flLane 31).visitAt ≠ some s.tick ↔ v = none) ∧ s.flag (Obj.flFlowEnable 31) = decide (on = 1)
        ∧ (frameFlags f.limit f % 32 = 0 ↔ fl = 0) ∧ ((s.flLane 31).frameAt ≠ some s.tick ↔ at_ = none))
    ∧ (let s : State := { ready with parked := [.frame 31, .visit 31] }
      s.belongsLater (Parked.frameOf 31) = true ∧ s.hasLane 31 = true ∧ s.belongsLater (Parked.visitOf 31) = true)
    ∧ (∀ m ∈ [0, 1], let s := ether [(Obj.flFlowEnable 31, 1), (Obj.flLearnMode 31, m)] {} [];
      let h := flowHash (s.obj (Obj.flHashSeed 31)) (udpKey s).1
      (udpOf (parseFrame (s.flag (Obj.flPtpEnable 31)) (udpFrame.data.take udpFrame.limit))).isSome = true
        ∧ s.findFlow 31 h.1 h.2 = none ∧ (s.learnSlot 31 h.1 s.tick).any (fun e => !e.2) = true ∧ s.learntEssence 31 (udpKey s).1 (udpKey s).2 = 0
        ∧ s.obj (Obj.flLearnMode 31) = m)
    ∧ (let s0 := ether [(Obj.flFlowEnable 31, 1)] {} [];
      let h := flowHash (s0.obj (Obj.flHashSeed 31)) (udpKey s0).1
      let fid := ((s0.learnSlot 31 h.1 0).getD (0, false)).1
      let s := ether [(Obj.flFlowEnable 31, 1)] {} [(fid, { valid := true, fp := h.2, silent := true })];
      s.findFlow 31 h.1 h.2 = some fid ∧ (s.flow fid).essence = 0)
    ∧ (∀ fl ∈ [[], [1]], let s := ether [] { bucket := 4095, flushes := fl } [((bucketFids 31 4095).getD 0 0, { valid := true })];
      s.hasLane 31 = true ∧ s.running = true ∧ s.belongsLater (Parked.visitOf 31) = false ∧ (s.flLane 31).usedAt ≠ some s.tick ∧ (s.flLane 31).tableAt ≠ some s.tick
        ∧ (s.flLane 31).visitAt ≠ some s.tick ∧ (s.flLane 31).flushes.any (0 < ·) = decide (fl = [1])
        ∧ ((bucketFids 31 4095).any (fun f => (s.flow f).valid && !(s.flow f).installed)) = true) := by decide +kernel

/-! Witnesses: triggers, Bobbins and the capture memory. -/

/-- A state with the run of one queue. -/
def queued (l : List (Key × Nat)) (q : Nat) (x : Queue) : State := { put l with queues := [(q, x)] }

/-- A closed page of queue 4095, capture 1, its first. -/
def page1 : Page := { pfn := 5, capture := 1, seq := 0, seg := 1, prev := 0, closed := true }

theorem witness_TriggerPinsAreFilteredAndPulsed :
    (let s : State := { put [(Obj.trigInFilter 7, 4)] with trigIn := [(7, { count := 4 })] };
      7 < 8 ∧ (s.trigIn.getD 7 {}).level ≠ true ∧ s.running = true ∧ s.obj (Obj.trigInFilter 7) ≤ (s.trigIn.getD 7 {}).count)
    ∧ (let s : State := { ready with trigOut := [(7, { starts := [5000, 6000] })] };
      s.due.contains (.pulse 7) = false ∧ (s.due = [] ∧ s.dueCommits (s.tick + 1) = []) ∧ (s.trigOut.getD 7 {}).starts = [5000, 6000]
        ∧ 5000 ≤ s.tick + 1)
    ∧ (∀ st ∈ [5000, 6000], let s : State := { ready with trigOut := [(7, { starts := [st], until_ := some 5000 })] };
      (s.trigOut.getD 7 {}).until_ = some 5000 ∧ 5000 ≤ s.tick + 1 ∧ (s.trigOut.getD 7 {}).starts.any (· ≤ 5000) = decide (st = 5000)) := by
  decide +kernel

theorem witness_EventsAreReadAndSlotsCleared :
    (let s : State := { ready with bbs := [(7, { fifo := [1] })] };
      s.nextEvent = some 7 ∧ s.running = true ∧ (s.bb 7).fifo = [1] ∧ bit 1 3 = false ∧ s.hoopFlips.any (fun e => e.1 = 3 + 7) = false
        ∧ s.dict.all (fun e => e.1 % 256 != Obj.qSrcKind 0 % 256 || e.1 / 256 < 0x4000) = true ∧ dfltOf (Obj.qSrcKind 0) ≠ 7)
    ∧ (∃ s1 a, Writes ready (wc 1) (Obj.slotClear 15) 1 s1 a ∧ decide ((wc 1).value = 1) = true) :=
  ⟨by decide +kernel, of_wrote (by decide +kernel)⟩

theorem witness_TrainingMakesTheMemoryReady :
    (∃ s1 a, Writes (put [(Obj.cmmChannelMask, 0x801)]) (wc 1) Obj.cmmTrain 1 s1 a
      ∧ decide (s1.queueList.any s1.capturing = false ∧ s1.cmm.leases = [] ∧ s1.cmm.training.isSome = false ∧ s1.obj Obj.cmmChannelMask ≠ 0) = true)
    ∧ (∃ s1 a, Writes { ready with cmm := { ready.cmm with training := some (0, 1) } } (wc 1) Obj.cmmTrain 1 s1 a
      ∧ decide (s1.cmm.training.isSome = true) = true)
    ∧ (∃ s1 a, Writes ready (wc 1) Obj.cmmTrain 1 s1 a
      ∧ decide (s1.queueList.any s1.capturing = false ∧ s1.cmm.leases = [] ∧ s1.cmm.training.isSome = false ∧ s1.obj Obj.cmmChannelMask = 0) = true)
    ∧ (let s : State := { put [(Obj.devDevState, 2)] with cmm := { ready.cmm with training := some (5000, 0x801) } };
      s.cmm.training = some (5000, 0x801) ∧ s.obj Obj.devDevState = 2
        ∧ [(11, 7)].filter (fun e : Nat × Nat => e.1 < 12 && bit 0x801 e.1 && 1 ≤ e.2 && e.2 ≤ 7) ≠ [])
    ∧ (∀ m ∈ [0, 11], let s : State := put [(Obj.cmmChannelMask, 0x800), (Obj.cmmDpc, 1)];
      m < memChansOf s.otp.variant ∧ bit (s.obj Obj.cmmChannelMask) m = decide (m = 11) ∧ s.obj Obj.cmmDpc = 1) :=
  ⟨of_wrote (by decide +kernel), of_wrote (by decide +kernel), of_wrote (by decide +kernel), by decide +kernel, by decide +kernel⟩

theorem witness_QueuesFreeAndClosePages :
    (∀ st ∈ [0, 1], ∃ s1 a, Writes (queued [(Obj.qState 4095, st)] 4095 { pages := [page1] }) (wc 1) (Obj.qFree 4095) 1 s1 a
      ∧ decide (s1.activeQueue 4095 = decide (st = 1)) = true)
    ∧ (∀ st ∈ [0, 1], ∃ s1 a, Writes (queued [(Obj.qState 4095, st)] 4095 { pages := [{ page1 with closed := false, records := 1 }] }) (wc 1)
        (Obj.qClosePage 4095) 1 s1 a
      ∧ decide (s1.capturing 4095 = decide (st = 1)) = true) := by
  refine ⟨fun st h => ?_, fun st h => ?_⟩ <;> fin_cases h <;> exact of_wrote (by decide +kernel)

/-- A LEASE_CMD of 32 bytes. -/
def leaseBytes (op count capture id : Nat) : Bytes :=
  le 1 op ++ [0] ++ le 2 4095 ++ le 4 0 ++ le 2 count ++ [0, 0] ++ le 4 capture ++ le 4 id ++ le 4 60000 ++ zeros 8

/-- A lease of a core's holder. -/
def lease1 (holder : Nat) : Lease :=
  { gen := 1, holder := holder, queue := 4095, capture := 1, first := 0, count := 1, timeout := 1, since := 0, expiryFree := false }

/-- A state with that lease under index 9. -/
def leased (holder : Nat) : State :=
  { queued [] 4095 { pages := [page1] } with tick := 999999, cmm := { leases := [(9, lease1 holder)] } }

theorem witness_LeasesAreGrantedRenewedAndEnded :
    (∃ s1 a, WritesBytes (queued [] 4095 { pages := [page1] }) (bc (leaseBytes 1 1 1 0)) Obj.cmmLeaseCmd s1 a
      ∧ decide ((leaseBytes 1 1 1 0).length = 32 ∧ fieldAt (leaseBytes 1 1 1 0) 0 1 = 1 ∧ fieldAt (leaseBytes 1 1 1 0) 1 1 < 4
        ∧ fieldAt (leaseBytes 1 1 1 0) 2 2 = 4095 ∧ fieldAt (leaseBytes 1 1 1 0) 8 2 = 1 ∧ fieldAt (leaseBytes 1 1 1 0) 10 2 = 0
        ∧ fieldAt (leaseBytes 1 1 1 0) 20 4 ≤ 60000 ∧ fieldAt (leaseBytes 1 1 1 0) 24 8 = 0 ∧ s1.cmm.leases.length < 4096
        ∧ 1 ≤ ((s1.queue 4095).pages.filter (fun p => p.capture = 1 && 0 ≤ p.seq && p.seq < 0 + 1 && p.closed)).length) = true)
    ∧ (∀ op ∈ [2, 3, 4], ∃ s1 a, WritesBytes (leased (holderOf 2 0)) (bc (leaseBytes op 0 0 65545)) Obj.cmmLeaseCmd s1 a
      ∧ decide ((leaseBytes op 0 0 65545).length = 32 ∧ fieldAt (leaseBytes op 0 0 65545) 0 1 = op ∧ fieldAt (leaseBytes op 0 0 65545) 1 1 < 4
        ∧ fieldAt (leaseBytes op 0 0 65545) 10 2 = 0 ∧ fieldAt (leaseBytes op 0 0 65545) 24 8 = 0 ∧ fieldAt (leaseBytes op 0 0 65545) 16 4 = 65545
        ∧ s1.cmm.revoked.contains 65545 = false ∧ s1.cmm.leaseOf 65545 = some (lease1 (holderOf 2 0))) = true)
    ∧ (∀ h ∈ [0x40, 0x48], let s := leased h;
      9 < 65536 ∧ s.cmm.leases.find 9 = some (lease1 h) ∧ (lease1 h).since + 1000000 * (lease1 h).timeout ≤ s.tick + 1) := by
  refine ⟨of_wroteBytes (by decide +kernel), fun op h => ?_, by decide +kernel⟩
  fin_cases h <;> exact of_wroteBytes (by decide +kernel)

/-- What waits of a capture of queue 4095 that has stopped. -/
def past1 : Past :=
  { capture := 3, seq := 1, segBytes := 0, waiting := [{ recs := [] }], pinned := false, trigSeg := 0, srcKind := 1, source := 0, stopAt := 4000 }

theorem witness_PagesAndSegmentsAreFilledAndClosed :
    (∀ free ∈ [[(7, 3)], []], ∀ m ∈ [1, 3], ∀ p ∈ [[], [past1]],
      let s : State := { queued [(Obj.qState 4095, 1), (Obj.qQmin 4095, 1)] 4095 { wantPage := true, mode := m, past := p } with cmm := { free := free, allocs := 7 } };
      s.running = true ∧ s.cmm.leased = false ∧ s.belongsLater (· == .alloc) = false ∧ s.cmm.allocs < 8 ∧ (roundFrom (s.queueList.filter s.needsPage) s.cmm.rr).head? = some 4095
        ∧ (s.obj (Obj.qQmax 4095) = 0 ∨ s.heldPages 4095 < s.obj (Obj.qQmax 4095)) ∧ s.heldPages 4095 < s.obj (Obj.qQmin 4095)
        ∧ (takeFree s.cmm.free).isSome = decide (free ≠ []) ∧ s.capturing 4095 = true ∧ (s.queue 4095).past = p)
    ∧ (let s : State := { ready with cmm := { ready.cmm with leased := true } }; s.cmm.leased = true)
    ∧ (let s : State := { ready with parked := [.alloc] }; s.cmm.leased = false ∧ s.belongsLater (· == .alloc) = true)
    ∧ (let p := { page1 with closed := false, fill := 64 + 8 };
      let ch : Chunk := { pfn := 5, off := 64, data := zeros 8, since := 0 };
      let s := queued [(Obj.cmmFlushTicks, 4999)] 4095 { pages := [p], chunks := [ch] };
      (s.queue 4095).builders = [] ∧ (s.queue 4095).edges = none ∧ (s.queue 4095).pages = [p] ∧ (s.queue 4095).chunks = [ch] ∧ p.closed = false
        ∧ p.pfn = ch.pfn ∧ p.fill = ch.off + ch.data.length ∧ p.fill % 8 = 0 ∧ p.fill % 256 ≠ 0 ∧ ch.since + s.obj Obj.cmmFlushTicks ≤ s.tick)
    ∧ (let s := queued [] 4095 { draining := true, stopAt := some 4000, pages := [page1] };
      (s.queue 4095).draining = true ∧ s.drainedPage 4095 = none ∧ s.capturing 4095 = false ∧ (s.queue 4095).waiting = [] ∧ (s.queue 4095).inbox = []
        ∧ (s.queue 4095).past = [] ∧ ∀ p ∈ (s.queue 4095).pages, p.closed = true)
    ∧ (∀ fill ∈ [64, 65536], ∀ f ∈ [none, some 64], let p := { page1 with closed := false, fill := fill, padFrom := f };
      let s := queued [] 4095 { draining := true, pages := [p] };
      (s.queue 4095).draining = true ∧ s.drainedPage 4095 = some p ∧ 64 ≤ p.fill ∧ p.fill ≤ 65536 ∧ p.fill % 8 = 0
        ∧ p.padFrom.all (fun f => decide (f % 8 = 0 ∧ f ≤ p.fill)) = true)
    ∧ (∀ m ∈ [1, 2], let s := queued [(Obj.qState 4095, 1), (Obj.qPost 4095, 10)] 4095 { window := some 4990, mode := m, segNo := 1, segsOf := 2 };
      s.windowEnd 4095 = some 5000 ∧ 5000 ≤ s.tick + 1 ∧ s.capturing 4095 = true ∧ (s.queue 4095).segNo < (s.queue 4095).segsOf
        ∧ (s.queue 4095).mode = m)
    ∧ (let s := queued [(Obj.qState 4095, 1)] 4095 { rearm := some 4996 };
      (s.queue 4095).rearm = some 4996 ∧ 4996 + 4 ≤ s.tick + 1 ∧ s.capturing 4095 = true) := by decide +kernel

/-! Witnesses: the flow table's window, the coder's states and the export deflater. -/

/-- A TABLE_CMD of lane 31 (R252). -/
def tableBytes (op index : Nat) : Bytes := le 1 op ++ le 1 31 ++ le 2 index ++ zeros 2 ++ le 2 4095 ++ zeros 8 ++ zeros 40

/-- The context of the key of zeros on lane 31. -/
def zeroKeyFlow (s : State) : Nat := (bucketFids 31 (flowHash (s.obj (Obj.flHashSeed 31)) (zeros 40)).1).getD 0 0

/-- A state with that context. -/
def withFlow : State :=
  { ready with flows := [(zeroKeyFlow ready, { valid := true, fp := (flowHash (ready.obj (Obj.flHashSeed 31)) (zeros 40)).2 })] }

theorem witness_TableCommandsAndFlushesReachTheTable :
    (∀ e ∈ [(1, true), (1, false), (2, false), (3, true), (4, true), (5, false), (6, true), (6, false)],
      ∃ s1 a, WritesBytes (if e.2 then withFlow else ready) (bc (tableBytes e.1 (if e.1 = 5 then 8191 else 0xFFFF))) Obj.tableTableCmd s1 a
      ∧ decide ((tableFields (tableBytes e.1 (if e.1 = 5 then 8191 else 0xFFFF))).any
          (fun x => x.2.isEmpty && x.1.lane == 31 && x.1.op == e.1 && !x.1.sigEn && x.1.key == zeros 40) = true
        ∧ s1.hasLane 31 = true
        ∧ s1.findFlow 31 (flowHash (s1.obj (Obj.flHashSeed 31)) (zeros 40)).1 (flowHash (s1.obj (Obj.flHashSeed 31)) (zeros 40)).2
          = (if e.2 then some (zeroKeyFlow ready) else none)) = true)
    ∧ (∃ s1 a, WritesBytes ready (bc (tableBytes 7 0)) Obj.tableTableCmd s1 a
      ∧ decide ((tableFields (tableBytes 7 0)).any (fun x => x.2.isEmpty && x.1.lane == 31 && x.1.op == 7) = true ∧ s1.hasLane 31 = true) = true)
    ∧ (let s : State := { waiting (.flush 31) with flowLanes := [(31, { flushes := [0] })] };
      (s.flLane 31).flushes.contains 0 = true ∧ s.deferred.find? (fun e => e.1 == Wait.flush 31) = some (.flush 31, { iss := core0, jseq := 3 })) := by
  refine ⟨fun e h => ?_, of_wroteBytes (by decide +kernel), by decide +kernel⟩
  fin_cases h <;> exact of_wroteBytes (by decide +kernel)

theorem witness_CoderStatesAreRestoredAndReleased :
    (∃ s1 a, WritesBytes ready (bc (zeros 160)) (Obj.coderState 2) s1 a
      ∧ decide ((zeros 160).length = 160 ∧ (s1.selected 2 (s1.objFor core0 (Obj.coderStateSel 2))).isNone = true) = true)
    ∧ (∀ st ∈ [0, 1], ∃ s1 a, WritesBytes (queued [(Obj.qState 0, st)] 0 { coders := [(0, {})] }) (bc (zeros 160)) (Obj.coderState 2) s1 a
      ∧ decide ((s1.selected 2 (s1.objFor core0 (Obj.coderStateSel 2))).any (fun x => x.1 == 0) = true ∧ s1.capturing 0 = decide (st = 1)) = true)
    ∧ (∀ h ∈ [0, 15], ∃ s1 a, Writes { ready with deflSlots := [(15, { live := true })] } (wc h) Obj.deflReleaseHandle h s1 a
      ∧ decide (s1.handleSlot h = if h = 15 then some 15 else none) = true)
    ∧ (let s : State := { put [(Obj.deflHandleTimeoutMs, 1)] with tick := 1000000, deflSlots := [(15, { live := true })] };
      s.handleSlot 15 = some 15 ∧ s.obj Obj.deflHandleTimeoutMs ≠ 0 ∧ (s.defl 15).job = none ∧ s.jobs.any (fun e => e.2.slot = 15) = false
        ∧ (s.defl 15).named + 1000000 * s.obj Obj.deflHandleTimeoutMs ≤ s.tick) := by
  refine ⟨of_wroteBytes (by decide +kernel), fun st h => ?_, fun h hh => ?_, by decide +kernel⟩
  · fin_cases h <;> exact of_wroteBytes (by decide +kernel)
  · fin_cases hh <;> exact of_wrote (by decide +kernel)

/-- A JOB_DESC (R484) with the widest fields. -/
def descBytes (op handle : Nat) : Bytes :=
  le 1 op ++ zeros 3 ++ [3, 2, 3, 0] ++ zeros 16 ++ le 2 handle ++ le 2 4095 ++ le 4 1 ++ le 4 0 ++ le 4 65535 ++ le 8 1 ++ zeros 4 ++ le 4 1024
    ++ le 8 262144

/-- A job in descriptor 15. -/
def job1 (running : Bool) : Job :=
  { op := 3, final := true, notify := false, cont := false, wrapper := 0, block := 1, dest := 1, addr := 0, outLen := 1024, queue := 4095, capture := 1,
    first := 0, offset := 0, inLen := 1, handle := 0, iss := core0, slot := 15, order := 0, running := running, lease := some 65545 }

/-- A state with that job. -/
def working (running : Bool) : State :=
  { ready with jobs := [(15, job1 running)], deflSlots := [(15, { job := some 15 })], cmm := { leases := [(9, lease1 0x50)] } }

theorem witness_JobDescriptorsAreAccepted :
    (∀ op ∈ [1, 2, 3], ∃ s1 a, WritesBytes { ready with deflSlots := [(0, { live := true })] } (bc (descBytes op 0)) (Obj.jobJobDesc 15) s1 a
      ∧ decide ((descBytes op 0).length = 64 ∧ fieldAt (descBytes op 0) 0 1 = op ∧ fieldAt (descBytes op 0) 1 3 = 0 ∧ fieldAt (descBytes op 0) 4 1 < 4
        ∧ fieldAt (descBytes op 0) 5 1 ≤ 2 ∧ fieldAt (descBytes op 0) 6 1 ≤ 3 ∧ fieldAt (descBytes op 0) 7 1 = 0
        ∧ slice (descBytes op 0) 8 16 = zeros 16 ∧ fieldAt (descBytes op 0) 48 4 = 0 ∧ 1024 ≤ fieldAt (descBytes op 0) 52 4
        ∧ fieldAt (descBytes op 0) 52 4 ≤ 16777216 ∧ fieldAt (descBytes op 0) 26 2 ≤ 4095 ∧ fieldAt (descBytes op 0) 36 4 ≤ 65535
        ∧ fieldAt (descBytes op 0) 40 8 ≠ 0 ∧ s1.jobs.find 15 = none
        ∧ (if op = 1 then (below 16).find? (fun i => (s1.defl i).free) else s1.handleSlot (fieldAt (descBytes op 0) 24 2))
          = some (if op = 1 then 1 else 0)) = true)
    ∧ (∃ s1 a, WritesBytes (working true) (bc (descBytes 1 0)) (Obj.jobJobDesc 15) s1 a ∧ decide ((s1.jobs.find 15).isSome = true) = true)
    ∧ (∀ r ∈ [false, true], ∃ s1 a, WritesBytes (working r) (bc (descBytes 4 0)) (Obj.jobJobDesc 15) s1 a
      ∧ decide (fieldAt (descBytes 4 0) 0 1 = 4 ∧ fieldAt (descBytes 4 0) 1 3 = 0 ∧ fieldAt (descBytes 4 0) 4 1 < 8
        ∧ fieldAt (descBytes 4 0) 5 1 ≤ 2 ∧ fieldAt (descBytes 4 0) 6 1 ≤ 3 ∧ fieldAt (descBytes 4 0) 7 1 = 0
        ∧ slice (descBytes 4 0) 8 16 = zeros 16 ∧ fieldAt (descBytes 4 0) 48 4 = 0 ∧ 1024 ≤ fieldAt (descBytes 4 0) 52 4
        ∧ fieldAt (descBytes 4 0) 52 4 ≤ 16777216 ∧ s1.jobs.find 15 = some (job1 r)) = true) := by
  refine ⟨fun op h => ?_, of_wroteBytes (by decide +kernel), fun r h => ?_⟩ <;> fin_cases h <;> exact of_wroteBytes (by decide +kernel)

theorem witness_JobsRunInOrderAndEnd :
    (let j := { job1 false with op := 1, lease := none };
      let s : State := { ready with jobs := [(3, { job1 false with order := 1 }), (15, j)] };
      15 < 16 ∧ s.booted = true ∧ s.obj Obj.devDevState ≠ 5 ∧ s.jobs.any (fun e => e.2.running) = false ∧ s.jobs.find 15 = some j
        ∧ (∀ e ∈ s.jobs, e = (15, j) ∨ j.order < e.2.order) ∧ j.op = 1 ∧ j.cont = false)
    ∧ ((working true).jobs.find? (fun e => e.2.running) = some (15, job1 true) ∧ (job1 true).op = 3 ∧ (job1 true).abort = false
      ∧ (let s : State := { working true with jobs := [(15, { job1 true with lease := none })] }
        s.jobRevoked { job1 true with lease := none } = false ∧ (job1 true).cut = none)
      ∧ (working true).jobOver (job1 true) = true ∧ (working true).destUp (job1 true) = true)
    ∧ (let j := { job1 true with op := 1, inLen := 7, left := 7, cut := none };
      let s : State := { working true with jobs := [(15, j)] };
      s.jobs.find? (fun e => e.2.running) = some (15, j) ∧ s.jobOver j = false)
    ∧ (let j := { job1 false with op := 1, lease := none, first := 0, inLen := 7 };
      let s : State := { queued [] 4095 { pages := [page1] } with jobs := [(15, j)] };
      j.inLen ≠ 0 ∧ (∃ p ∈ (s.queue j.queue).pages, p.capture = j.capture ∧ p.seq = j.first ∧ p.closed = true) ∧ s.cmm.leases.length < 4096) := by
  refine ⟨by decide +kernel, by decide +kernel, by decide +kernel, by decide, ⟨page1, ?_⟩, by decide +kernel⟩
  exact ⟨by decide +kernel, rfl, rfl, rfl⟩


/-! Witnesses: the host port. -/

/-- A READ, GRANT, RENEW or RELEASE descriptor of 32 bytes (R585). -/
def ringDesc (op queue count lease off len : Nat) : Bytes :=
  le 1 op ++ [0] ++ le 2 1 ++ le 2 queue ++ le 2 count ++ le 4 lease ++ le 4 0 ++ le 4 off ++ le 4 len ++ le 8 4096

/-- Ring 63 RUNNING with what has been fetched, and a lease of it under index 9. -/
def ringed (l : List Fetched) : State :=
  { put [(Obj.ringState 63, 1), (Obj.ringRingSize 63, 16), (Obj.ringCplTail 63, 15)] with
    queues := [(4095, { pages := [page1] })], cmm := { leases := [(9, lease1 63)] }, host := { rings := [(63, { tail := 1, cplHead := 0, fetched := l })] } }

theorem witness_HostRegistersTakeTheirWrites :
    (∀ e ∈ [(0x1000F, 15), (0x1000F, 0)], ready.linkUp = true ∧ bits e.1 3 0 = 15)
    ∧ (let s : State := { ready with host := { cmdBusy := 2 ^ 15 } }; s.linkUp = true ∧ bit s.host.cmdBusy (bits 0x1000F 3 0) = true)
    ∧ (let v := 0x1000F; bit ready.host.cmdBusy (bits v 3 0) = false ∧ bit ready.host.rspReady (bits v 3 0) = false ∧ 16 ≤ bits v 16 8
        ∧ bits v 16 8 ≤ 256 ∧ bits v 16 8 % 4 = 0)
    ∧ (∀ u ∈ [7, 8], let s : State := { ready with host := { mail := [(host0, zeros 16)], mailAt := some 6 } };
        s.host.mail = [(host0, zeros 16)] ∧ s.host.mailAt = some 6 ∧ decide (u < 6 + hoopWords (zeros 16)) = decide (u = 7))
    ∧ (∀ v ∈ [16, 17], let s := ringed [];
        s.linkUp = true ∧ s.obj (Obj.ringState 63) = 1
          ∧ decide (s.obj (Obj.ringRingSize 63) < ahead32 v (s.obj (Obj.ringDescHead 63))) = decide (v = 17)) := by decide +kernel

theorem witness_RingDescriptorsAreCarriedOutAndCompleted :
    (let s := ringed []; s.ringRuns 63 = true ∧ s.obj (Obj.ringDescHead 63) ≠ (s.ring 63).tail ∧ (s.ring 63).fetched.length ≤ 8 ∧ s.cplRoom 63 = true)
    ∧ (let d := ringDesc 1 4095 1 0 1 60000; let s := ringed [⟨0, d⟩];
      s.oldestDesc 63 1 = some d ∧ 0 < descCount d ∧ descLength d ≤ 60000 ∧ s.cmm.leases.length < 4096
        ∧ descCount d ≤ ((s.queue (descQueue d)).pages.filter (fun p => p.capture = descOffset d && descSeq d ≤ p.seq
          && p.seq < descSeq d + descCount d && p.closed)).length)
    ∧ (let d := ringDesc 2 0 0 65545 65532 4; let s := ringed [⟨0, d⟩];
      s.oldestDesc 63 2 = some d ∧ descLength d ≠ 0 ∧ descFlag d 11 = false ∧ s.descLeaseId 63 d = 65545 ∧ s.cmm.revoked.contains 65545 = false
        ∧ s.cmm.leaseOf 65545 = some (lease1 63) ∧ s.leaseCovers (lease1 63) (descSeq d) (descOffset d) (descLength d) = true ∧ s.readTurn 63 = true ∧ s.readUnit 63 d = 4)
    ∧ (let d := ringDesc 2 0 0 65545 0 8192; let s := ringed [⟨0, d⟩];
      s.leaseCovers (lease1 63) (descSeq d) (descOffset d) (descLength d) = true ∧ (s.ring 63).sent + s.readUnit 63 d < descLength d
        ∧ s.readTurn 63 = true)
    ∧ (let s : State := { put [(Obj.ringState 63, 1), (Obj.ringRingSize 63, 16), (Obj.ringState 62, 1), (Obj.ringRingSize 62, 16)] with
          queues := [(4095, { pages := [page1] })], cmm := { leases := [(9, lease1 63), (10, lease1 62)] },
          host := { rings := [(62, { fetched := [⟨0, ringDesc 2 0 0 65546 0 4⟩] }), (63, { fetched := [⟨0, ringDesc 2 0 0 65545 0 4⟩] })] } };
      s.readTurn 63 = false ∧ s.readTurn 62 = true)
    ∧ (∀ op ∈ [3, 4], let d := ringDesc op 0 0 65545 0 0; let s := ringed [⟨0, d⟩];
      s.oldestDesc 63 op = some d ∧ s.descLeaseId 63 d = 65545)
    ∧ (∀ op ∈ [2, 3, 4], ∀ r ∈ [true, false], let d := ringDesc op 0 0 65546 0 4
      let s : State := { ringed [⟨0, d⟩] with cmm := { revoked := if r then [65546] else [] } }
      s.oldestDesc 63 op = some d ∧ descLength d ≠ 0 ∧ s.descLeaseId 63 d = 65546 ∧ s.cmm.revoked.contains 65546 = r ∧ s.cmm.leaseOf 65546 = none) := by
  decide +kernel

theorem witness_RingsAreEnabledAndDisabled :
    (∀ b ∈ [0, 31], ∃ s1 a, Writes (put [(Obj.ringDescBase 63, b)]) (wc 1) (Obj.ringEnable 63) 1 s1 a
      ∧ decide (s1.obj (Obj.ringEnable 63) = 0 ∧ s1.obj (Obj.ringDescBase 63) % 32 = b ∧ s1.obj (Obj.ringCplBase 63) % 16 = 0) = true)
    ∧ (∃ s1 a, Writes (put [(Obj.ringEnable 63, 1)]) (wc 0) (Obj.ringEnable 63) 0 s1 a ∧ decide (s1.obj (Obj.ringEnable 63) = 1) = true)
    ∧ (∃ s1 a, Writes ready (wc 1) Obj.hostMapInvalidate 1 s1 a ∧ decide ((wc 1).value = 1) = true) := by
  refine ⟨fun b h => ?_, of_wrote (by decide +kernel), of_wrote (by decide +kernel)⟩
  fin_cases h <;> exact of_wrote (by decide +kernel)

theorem witness_TheWindowReadsLeasedPages : ∀ m ∈ [0, 4096], ∀ n ∈ [0, 4096],
    let s : State := { leased 0x40 with dict := (leased 0x40).dict.set Obj.hostMapBase m, host := { cache := List.replicate n (70000, (0, 0)) } }
    let e := le 4 (2 ^ 28 + 5) ++ le 4 65545
    s.linkUp = true ∧ s.running = true ∧ s.window 0xFFFF e = some (5, 65545) ∧ s.cmm.leaseOf 65545 = some (lease1 0x40)
      ∧ s.obj Obj.hostMapBase = m ∧ s.host.cache.length = n ∧ s.bar2Room 4096 = true
      ∧ ({ s with host := { s.host with bar2Count := 1 } } : State).bar2Room 4096 = false := by decide +kernel

theorem witness_TheHostLinkComesAndGoes :
    (let s := put [(Obj.hostLinkState, 1), (Obj.devStraps, 2)]; s.booted = true ∧ bit (s.obj Obj.devStraps) 0 = false ∧ s.obj Obj.hostLinkState ≠ 2)
    ∧ ready.linkUp = true ∧ ready.booted = true ∧ bit (ready.obj Obj.devStraps) 0 = false := by decide +kernel

/-! Witnesses: the management port, cores and services. -/

/-- The IPv4 address 192.0.2.n, mapped (R231). -/
def v4 (n : Nat) : Bytes := zeros 10 ++ [0xFF, 0xFF, 192, 0, 2] ++ le 1 n

/-- 192.0.2.1/24 with a subscriber of slot 7 at 192.0.2.`to_`, what waits for it, and next hops. -/
def netted (to_ : Nat) (hops : List NextHop) : State :=
  { (put [(Obj.commIpv4Addr, 0xC0000201), (Obj.commIpv4Prefix, 24), (Obj.subSubPort 7, 5000)]).setDom (Obj.subSubAddr 7)
      (if to_ = 0 then zeros 10 ++ [0xFF, 0xFF, 8, 8, 8, 8] else v4 to_) with
    subQ := [(7, [(1, { cls := 9, source := 0, tick := 5, detail := 0 })])], hops := hops }

theorem witness_TheManagementPortTakesAndAnswersDatagrams :
    (let s := netted 9 []; s.netUp = true ∧ s.v4On = true ∧ v4 1 = mappedNat (s.obj Obj.commIpv4Addr) ∧ s.ownAddr (v4 1) = true
      ∧ s.ownAddr (linkLocal s.otp.mac) = true ∧ isV4 (linkLocal s.otp.mac) = false)
    ∧ (∀ n ∈ [256, 257], let d : NetIn := { addr := v4 9, port := 47120, data := [0x56, 0x44, 0x50, 1, 0, 0, 0, 0] ++ zeros n }
      isVdpCommand d = true ∧ (d.data.drop 8).length = n ∧ ready.hoopHeld 1 + hoopWords (zeros 256) ≤ 32)
    ∧ ready.booted = true ∧ ready.sgmii = true
    ∧ (∀ p ∈ [0, 1], (withSession [(Obj.sessPort 7, p)] 7 2).obj (Obj.sessState 7) ≠ 0) := by decide +kernel

/-- A next hop at 192.0.2.9 that something waits for. -/
def hop9 (resolved : Bool) (asked : Nat) : NextHop :=
  { addr := v4 9, resolved := resolved, since := 0, asked := asked, waiting := if resolved then [] else [(some 7, v4 9, 5000, [1])] }

theorem witness_NextHopsAreResolvedAndNotificationsSent :
    (∀ to_ ∈ [0, 9], let s := netted to_ []
      s.subQ.getD 7 [] = [(1, { cls := 9, source := 0, tick := 5, detail := 0 })] ∧ s.netUp = true ∧ s.subOn 7 = true
        ∧ s.nextHop (s.dom (Obj.subSubAddr 7)) = if to_ = 0 then none else some (v4 9))
    ∧ (∀ r ∈ [true, false], let s := netted 9 [hop9 r 1]
      s.nextHop (s.dom (Obj.subSubAddr 7)) = some (v4 9) ∧ s.hops.find? (fun x => x.addr = v4 9) = some (hop9 r 1)
        ∧ (s.hops.filter (·.resolved)).length ≤ 31)
    ∧ (∀ n ∈ [2, 3], let s : State := { netted 9 [hop9 false n] with tick := 1000000000 }
      s.hops.find? (fun y => y.addr = v4 9) = some (hop9 false n) ∧ (hop9 false n).resolved = false
        ∧ (hop9 false n).since + 1000000000 ≤ s.tick ∧ (hop9 false n).asked = n)
    ∧ (let s : State := { netted 9 [hop9 true 1] with tick := 300000000000 }
      s.hops.find? (fun y => y.addr = v4 9) = some (hop9 true 1) ∧ (hop9 true 1).resolved = true ∧ (hop9 true 1).since + 300000000000 ≤ s.tick) := by
  decide +kernel

/-- A state with the lock of the cores. -/
def locking (l : List (Key × Nat)) (x : Lock) : State := { put l with lock := x }

theorem witness_CoresShareTheLockAndAreReset :
    (∀ c ∈ [0, 3], let s := put [(Obj.coreState c, 2)]
      c < coresOf s.otp.variant ∧ s.obj (Obj.coreState c) = 2 ∧ s.lock.waiting = [] ∧ s.lock.holder ≠ some c)
    ∧ (∀ d ∈ [0, 3], let c := (2 + 1 + d) % 4
      let p := zeros 4 ++ le 2 256 ++ zeros 2
      let s := locking [] { last := 2, freed := 4999, waiting := [(c, p)] }
      s.lock.holder = none ∧ s.lock.freed < 5000 ∧ d < 4 ∧ c = (s.lock.last + 1 + d) % 4
        ∧ s.lock.waiting.find? (fun e => e.1 = c) = some (c, p) ∧ min 32 (ceilDiv (fieldAt p 4 2) 8) + s.hoopHeld 2 ≤ 32
        ∧ ∀ j < d, ∀ e ∈ s.lock.waiting, e.1 ≠ (s.lock.last + 1 + j) % 4)
    ∧ (let s := locking [] { holder := some 3, data := zeros 8 ++ [1], start := 3974, last := 3 }
      s.lock.holder = some 3 ∧ s.lock.start + hoopWords s.lock.data + 1024 ≤ s.tick + 1)
    ∧ (let s := locking [] { holder := some 3, data := [1], start := 3974, last := 3 };
      s.lock.holder = some 3 ∧ wholePacket s.lock.data = false ∧ s.lock.start + hoopWords s.lock.data + 1024 ≤ s.tick + 1)
    ∧ (∃ s1 a, Writes ready (wc 1) (Obj.coreReset 3) 1 s1 a ∧ decide ((wc 1).value = 1) = true)
    ∧ (∀ st ∈ [1, 2], (put [(Obj.coreState 3, st)]).coreLives 3 = true)
    ∧ (let s : State := { leased 0x40 with cmm := { (leased 0x40).cmm with gone := [(0x48, 4)] } };
      (0x48, 4) ∈ s.cmm.gone ∧ 4 < 5 ∧ (s.revokeGone 5).cmm.leases.find 9 = some (lease1 0x40))
    ∧ (let s := put [(Obj.coreState 3, 1), (Obj.fwFwState, 2)]
      3 < coresOf s.otp.variant ∧ s.obj (Obj.coreState 3) = 1 ∧ s.obj Obj.fwFwState = 2) :=
  ⟨by decide +kernel, by decide +kernel, by decide +kernel, by decide +kernel, of_wrote (by decide +kernel), by decide +kernel, by decide +kernel, by decide +kernel⟩

/-- A configuration block of generation 6 that writes nothing (R620). -/
def block6 : Bytes := [0x48, 0x43, 0x46, 0x47, 1, 0] ++ zeros 12 ++ le 2 0 ++ le 4 0 ++ le 4 6 ++ le 4 (crc32 [])

theorem witness_FirmwareIsChosenAndFlashWritten :
    (∀ st ∈ [0, 2], ∃ s1 a, Writes (put [(Obj.devStraps, st)]) (wc 1) Obj.fwFwRestart 1 s1 a ∧ decide (s1.obj Obj.devStraps = st) = true)
    ∧ ({ ready with flash := { checking := true } } : State).flash.checking = true
    ∧ (∃ s1 a, WritesLong ready (bc (zeros 4)) Obj.fwFlashImage s1 a
      ∧ decide (bit (s1.obj Obj.devStraps) 1 = true ∧ s1.flash.writing = none ∧ s1.fwCheck (zeros 4) ≠ 0) = true)
    ∧ (∃ s1 a, WritesLong { ready with flash := { gen0 := some 5, gen1 := some 4 } } (bc block6) Obj.fwFlashConfig s1 a
      ∧ decide (bit (s1.obj Obj.devStraps) 1 = true ∧ s1.flash.writing = none ∧ (block6.length = 32) ∧ s1.blockOk block6 = true) = true)
    ∧ (let s : State := { waiting .flash with flash := { writing := some (3, 6) } };
      s.flash.writing = some (3, 6) ∧ s.deferred.find? (fun e => e.1 == Wait.flash) = some (.flash, { iss := core0, jseq := 3 }))
    ∧ (∀ l ∈ [[], [(Obj.cmmTrain, [1])]], ∀ m ∈ [1, 2], let s : State := { put [(Obj.coreState 0, 2), (Obj.cmmMemState, m)] with
        flash := { applying := some { left := l } } };
      s.flash.applying = some { left := l } ∧ s.booted = true ∧ s.obj (Obj.coreState 0) = 2 ∧ s.coreWaits 0 = false ∧ s.obj Obj.cmmMemState = m
        ∧ isStaged Obj.cmmTrain = false) := by
  refine ⟨fun st h => ?_, by decide +kernel, of_wroteLong (by decide +kernel), of_wroteLong (by decide +kernel), by decide +kernel, by decide +kernel⟩
  fin_cases h <;> exact of_wrote (by decide +kernel)

/-- WATCH entry 15 over queues 10 and 11 with a live queue of one pinned page. -/
def watching (l : List (Key × Nat)) (pinned : Bool) (other : List Page) : State :=
  { put ([(Obj.coreState 0, 2), (Obj.watchFirstQ 15, 10), (Obj.watchQcount 15, 2), (Obj.watchEnable 15, 1), (Obj.watchState 15, 1)] ++ l) with
    queues := [(10, { pages := [{ page1 with pinned := pinned }] }), (11, { pages := other })] }

theorem witness_ServicesWatchSampleAndCompare :
    (let s := watching [(Obj.watchEnable 15, 0), (Obj.watchLiveQ 15, 10)] true [];
      s.running = true ∧ s.serviceUp 1 = true ∧ s.flash.applying = none ∧ s.obj (Obj.watchEnable 15) = 0 ∧ s.obj (Obj.watchLiveQ 15) = 10
        ∧ s.capturing 10 = false)
    ∧ (let s := watching [(Obj.watchLiveQ 15, 0xFFFF)] false [];
      s.obj (Obj.watchEnable 15) ≠ 0 ∧ s.obj (Obj.watchState 15) = 1 ∧ s.obj (Obj.watchLiveQ 15) = 0xFFFF)
    ∧ (∀ p ∈ [true, false], let s := watching [(Obj.watchLiveQ 15, 10)] p []
      s.obj (Obj.watchLiveQ 15) = 10 ∧ s.pinnedPages 10 = (if p then 1 else 0) ∧ (s.watchOrder 15).find? s.queueFree = some 11)
    ∧ (∀ f ∈ [0, 1], let s := watching [(Obj.watchLiveQ 15, 10), (Obj.watchFullPolicy 15, f)] true [page1]
      s.pinnedPages 10 ≠ 0 ∧ (s.watchOrder 15).find? s.queueFree = none ∧ s.obj (Obj.watchFullPolicy 15) = f ∧ s.oldestKept 15 = some 11
        ∧ s.capturing 10 = false)
    ∧ (let s : State := { put [(Obj.coreState 1, 2), (Obj.fhState 31, 1), (Obj.fhPeriodMs 31, 1)] with
        tick := 1000000, health := [(31, { whole := some 1000000, copy := [(253952, {}), (258048, {})] })] }
      s.hasLane 31 = true ∧ s.serviceUp 2 = true ∧ s.obj (Obj.fhState 31) = 1
        ∧ (s.health.getD 31 {}).whole = some 1000000 ∧ (s.health.getD 31 {}).lastAt + 1000000 * s.obj (Obj.fhPeriodMs 31) ≤ 1000000)
    ∧ (∀ inc ∈ [true, false], ∀ m ∈ [0, 1], ∀ g ∈ [[], le 4 5],
      let s : State := { (put [(Obj.coreState 2, 2), (Obj.sigState 7, 1), (Obj.sigMode 7, m)]).setDom (Obj.sigGolden 7) g with
        sigs := [(7, { tap := [(5, inc, 320000)] })] }
      s.serviceUp 3 = true ∧ s.obj (Obj.sigState 7) = 1 ∧ (s.sigs.getD 7 {}).tap = [(5, inc, 320000)]
        ∧ s.obj (Obj.sigMode 7) = m ∧ (5 ∈ goldenList (g.length / 4) g ↔ g ≠ []))
    ∧ (∀ n ∈ [4, 5], ∃ s1 a, WritesLong ready (bc (zeros n)) (Obj.sigGolden 7) s1 a ∧ decide ((bc (zeros n)).value.length = n) = true) := by
  refine ⟨by decide +kernel, by decide +kernel, by decide +kernel, by decide +kernel, by decide +kernel, by decide +kernel, fun n h => ?_⟩
  fin_cases h <;> exact of_wroteLong (by decide +kernel)

/-- STREAM slot 3 at work. -/
def streaming (x : StreamRun) (jobs : Tab Job) : State :=
  { (netted 9 [hop9 true 1]).setObjs [(Obj.coreState 3, 2), (Obj.streamState 3, 1), (Obj.streamQueue 3, 4095), (Obj.streamRateMbps 3, 100)] with
    queues := [(4095, { pages := [page1] })], streams := [(3, x)], jobs := jobs }

theorem witness_StreamsAreExportedAndSent :
    (∃ s1 a, Writes ready (wc (2 ^ 32 - 1)) (Obj.streamResend 3) (2 ^ 32 - 1) s1 a ∧ decide ((wc (2 ^ 32 - 1)).value < 2 ^ 32) = true)
    ∧ (∀ todo ∈ [[], [1], [2]], let s := streaming { todo := todo } []
      s.running = true ∧ s.serviceUp 4 = true ∧ s.obj (Obj.streamState 3) = 1 ∧ (s.streams.getD 3 {}).ready = [] ∧ (s.streams.getD 3 {}).ended = false
        ∧ (s.streams.getD 3 {}).asked = none ∧ (below 16).any (fun i => (s.jobs.find i).isNone) = true ∧ (s.streams.getD 3 {}).cur = none ∧ (s.streams.getD 3 {}).todo = todo ∧ s.obj (Obj.qState 4095) ≠ 2
        ∧ ((s.queue 4095).pages.any (fun p => p.capture = 1) = true))
    ∧ (∀ b ∈ [true, false], let s := streaming { cur := some 1, job := some 15 } (if b then [(15, job1 true)] else [])
      (s.streams.getD 3 {}).cur = some 1 ∧ (s.streams.getD 3 {}).job = some 15 ∧ (s.jobs.find 15).isSome = b
        ∧ fieldAt (s.dom (Obj.jobJobResult 15)) 17 1 ≠ 1)
    ∧ (∀ b ∈ [none, some 15], ∀ w ∈ [true, false],
      let s : State := { streaming { cur := some 1, job := some 14, asked := some (7, b) } [] with
        due := if w then [.discard { iss := { port := 2, core := serviceCore 0 4 }, pkt := ⟨0, 0, 0, 0, [], [], []⟩, auth := [], slot := 0, jseq := 1 } 1] else [] }
      s.running = true ∧ s.serviceUp 4 = true ∧ (s.streams.getD 3 {}).asked = some (7, b) ∧ s.coreWaits (serviceCore s.otp.variant 4) = w)
    ∧ (∀ b ∈ [[1], []], let s := (streaming { cur := some 1, ready := b, ended := true } []).setDom (Obj.streamDestAddr 3) (v4 9)
      s.netUp = true ∧ (s.streams.getD 3 {}).nextAt ≤ s.tick ∧ s.nextHop (s.dom (Obj.streamDestAddr 3)) = some (v4 9)
        ∧ s.hops.find? (fun z => z.addr = v4 9) = some (hop9 true 1) ∧ (hop9 true 1).resolved = true ∧ (s.streams.getD 3 {}).ready = b ∧ (s.streams.getD 3 {}).asked = none) :=
  ⟨of_wrote (by decide +kernel), by decide +kernel, by decide +kernel, by decide +kernel, by decide +kernel⟩

/-! Witnesses: storage, resets, start-up and the machine as a whole. -/

/-- A state with the run of the repairs. -/
def repairing (l : List (Key × Nat)) (x : Repair) : State := { put l with repair := x }

theorem witness_SpareRowsRepairWhatTestsFind :
    (∀ needs ∈ [[], [(231, 1)]], let s := repairing [(Obj.integDarnerEnable, 1)] { place := 230, needs := needs }
      s.running = true ∧ s.obj Obj.integDarnerEnable ≠ 0 ∧ s.repair.borrow = none ∧ s.repair.march = none ∧ s.nextInst.isSome = true
        ∧ s.repair.lastEnd = [])
    ∧ (let s := repairing [(Obj.integDarnerEnable, 1)] { place := 230, needs := [(231, 1)] }
      s.nextInst = some 231 ∧ s.nextRow 231 = 1)
    ∧ (∀ n ∈ [[], [(231, 1)]], ∀ u ∈ [0, 4], let b : Borrow := { inst := 231, row := 1, start := 4232, saved := [] }
      let s := repairing [] { borrow := some b, needs := n, spares := (below u).map (fun r => (231, r + 8, r)) }
      s.repair.borrow = some b ∧ b.inst < 232 ∧ b.start + 768 ≤ s.tick + 1 ∧ s.freeSpare 231 = if u = 4 then none else some 0)
    ∧ (∀ k ∈ [0, 63], ∀ x ∈ [0, 1, 3], let b : Borrow := { inst := 231, row := 1, start := 4232, saved := [] }
      let s := repairing [] { borrow := some b, flips := [(wordKey 231 (64 + k), x)] }
      s.repair.borrow = some b ∧ s.repair.flips.getD (wordKey 231 (64 + k)) 0 = x ∧ (eccRead sramColumns x = .bad ↔ x = 3))
    ∧ (∀ e ∈ [(1, 3, 231, Obj.integMarchPreserve), (2, 1, 0xFFFF, Obj.integMarchDestroy), (3, 5, 0, Obj.integMarchRecover),
        (1, 5, 231, Obj.integMarchPreserve), (2, 3, 0, Obj.integMarchDestroy), (3, 3, 231, Obj.integMarchRecover)],
      ∃ s1 a, Writes (put [(Obj.devDevState, e.2.1)]) (wc e.2.2.1) e.2.2.2 e.2.2.1 s1 a
        ∧ decide (s1.obj Obj.devDevState = e.2.1 ∧ s1.obj Obj.integMarchState ≠ 1 ∧ instAbsent s1.otp.variant e.2.2.1 = false) = true)
    ∧ (∃ s1 a, Writes { ready with otp := { ready.otp with variant := 2 } } (wc 95) Obj.integMarchPreserve 95 s1 a
        ∧ decide (instAbsent s1.otp.variant 95 = true) = true)
    ∧ (∀ m ∈ [1, 3], (repairing [] { march := some (m, [231]) }).repair.march = some (m, [231]))
    ∧ (let s := repairing [] { march := some (3, [231]), needs := [(231, 1)] }
      (231, 1) ∈ s.repair.needs ∧ (∀ i ∈ [231], i < 232) ∧ (repairing [(Obj.devFaultInst, 231)] {}).obj Obj.devFaultInst ∈ [231])
    ∧ (∀ st ∈ [0, 1], ∃ s1 a, Writes (queued [(Obj.qState 4095, st)] 4095 {}) (wc 1) Obj.integFuseRepairs 1 s1 a
        ∧ decide (s1.queueList.any s1.capturing = decide (st = 1)) = true)
    ∧ (waiting .fuses).deferred.find? (fun e => e.1 == Wait.fuses) = some (.fuses, { iss := core0, jseq := 3 }) := by
  refine ⟨by decide +kernel, by decide +kernel, by decide +kernel, by decide +kernel, fun e h => ?_, of_wrote (by decide +kernel), by decide +kernel, by decide +kernel, fun st h => ?_, by decide +kernel⟩ <;>
    fin_cases h <;> exact of_wrote (by decide +kernel)

theorem witness_ResetsAreRequestedAndServed :
    (∀ k ∈ [1, 4], ∃ s1 a, Writes ready (wc k) Obj.devReset k s1 a ∧ decide (s1.obj Obj.devDevState ≠ 5) = true)
    ∧ (∀ t ∈ [880, 881], ∃ s1 a, Writes (put [(Obj.devDevState, 5), (Obj.devFaultCause, 2), (Obj.teleTj, t)]) (wc 1) Obj.devReset 1 s1 a
      ∧ decide (s1.obj Obj.devDevState = 5 ∧ s1.obj Obj.devFaultCause = 2 ∧ (880 < s1.int Obj.teleTj ↔ t = 881)) = true)
    ∧ (∀ k ∈ [1, 2, 3, 4], let s : State := { ready with dev := { resets := [(5000, k)] } }
      ∀ j ∈ [1, 2, 3, 4], s.resetDue j = decide (j = k)) := by
  refine ⟨fun k h => ?_, fun t h => ?_, by decide +kernel⟩ <;> fin_cases h <;> exact of_wrote (by decide +kernel)

theorem witness_StartUpAndFaultSetTheState :
    (∀ c ∈ [[], [(2, 0xFFFF)]], let s : State := { put [(Obj.devDevState, 0), (Obj.refRefclkClass, 1)] with time := { refclk := true }, dev := { causes := c } }
      s.time.counting = false ∧ s.obj Obj.refRefclkClass ≠ 0 ∧ s.time.refclk = true ∧ s.obj Obj.devDevState = 0 ∧ s.dev.causes = c)
    ∧ (let s := put [(Obj.devDevState, 0)]; s.time.counting = true ∧ s.obj Obj.devDevState = 0)
    ∧ ready.time.counting = true
    ∧ (let s : State := { ready with dev := { causes := [(3, 0xFFFF), (1, 7)] } };
      s.running = true ∧ s.dev.causes ≠ [] ∧ (∀ e ∈ s.dev.causes, e.1 ≤ 3) ∧ s.dev.causes.find? (fun e => e.1 = 1) = some (1, 7)) := by decide +kernel

theorem witness_TickCountsAndEndsTheCommandsOfItsBoundary :
    State.reset.time.counting = false
    ∧ (let inp : TickInput := { tj := some (-400) }; inp.tj = some (-400))
    ∧ (let l : Landing := { iss := core0, jseq := 3, op := opWrite };
      let s : State := { ready with landing := [l, { l with waits := some .fuses }] };
      s.time.counting = true ∧ l ∈ (State.atBoundary (s.clockInput {}).countCyc.closeTick).landing ∧ l.waits = none ∧ l.op ≠ 0 ∧ l.iss.slot ≤ 15) := by decide +kernel

/-- The invariant holds where memory has been written, and a step from there answers a next state. -/
theorem witness_StepKeepsTheMemoriesCanonical :
    let s : State := { ready with mem := [(5, 1), (9, 255)], pending := [.bmeSet] }
    s.mem ≠ [] ∧ Inv s ∧ ∃ t, step s = .next t := by
  refine ⟨?_, ⟨by decide +kernel, by decide +kernel, by decide +kernel, by decide +kernel⟩, _, rfl⟩
  intro h
  cases h

theorem witness_WritePacketsAreReadAsTheyAreWritten :
    (Trailed (wc 1).flags (wc 1).trailer ∧ Obj.cmmTrain < 2 ^ 24 ∧ (2 = 2 → (wc 1).trailer = []))
    ∧ Trailed 2 (zeros 32) ∧ (zeros 200).length ≤ 200 := by
  refine ⟨⟨⟨by decide, by decide⟩, by decide, fun _ => rfl⟩, ⟨by decide, rfl⟩, by decide +kernel⟩

/-! Small tests: one step each, results by hand from the rule named. -/

/-- No tick is counted before SYN-T has locked (R39). -/
theorem test_tick : (after (.tick {}) State.reset).tick = 0 := by decide +kernel

/-- The block idles on an empty queue (assumption 1) and takes the front command first. -/
theorem test_queue : (match step { ready with pending := [.bmeSet, .bmeClear] } with
    | .next t => t.pending == [.bmeClear] && t.host.busMaster
    | _ => false) = true := by decide +kernel

/-- CRC-32 of "123456789", the check value of IEEE 802.3's polynomial, which R524 names. -/
theorem test_crc32 : crc32 [0x31, 0x32, 0x33, 0x34, 0x35, 0x36, 0x37, 0x38, 0x39] = 0xCBF43926 := by decide +kernel

/-- A Picot step takes the pending count one nearer to zero, from either side (R86). -/
theorem test_picotStep :
    (after (.picotStep 3) ((put [(Obj.synOPicotPending 3, 2)]).setTime (fun b => { b with cyc := 2048 }))).obj (Obj.synOPicotPending 3) = 1
    ∧ (after (.picotStep 3) ((put [(Obj.synOPicotPending 3, 2 ^ 32 - 2)]).setTime (fun b => { b with cyc := 2048 }))).obj (Obj.synOPicotPending 3) = 2 ^ 32 - 1 := by decide +kernel

/-- The software lines of two writes for one boundary are combined by OR (R294). -/
theorem test_swTrigger : (landed (.swTrigger (wc 2)) { ready with arrivals := [(5000, .soft 1 320000)] }).arrivals = [(5000, .soft 3 320000)] := by
  decide +kernel

/-- A cascade message is K28.2, the code, the source and the code's complement (R324), and needs the right complement when received. -/
theorem test_cascadeMessage : (after (.cascadeMessageReceive 3 [0x5C, 8, 1, 248]) (casc [] 3 { sync := true })).obj (Obj.cascCascRxBad 3) = 1 := by
  decide +kernel

/-- REFCLK of 100 MHz is within 5 % of its class; 60 MHz is of none (R90). -/
theorem test_refclkClassify : (after (.refclkClassify 100000000) State.reset).obj Obj.refRefclkClass ≠ 0
    ∧ (after (.refclkClassify 1000000) State.reset).obj Obj.refRefclkClass = 0 := by decide +kernel

/-- POLICY_FLOOR gains bits and loses none (R556). -/
theorem test_policyFloor : (landed (.policyFloor (wc 1)) { ready with otp := { ready.otp with policyFloor := 2 } }).otp.policyFloor = 3 := by decide +kernel

/-- A bit of INT_STATUS is cleared by writing one (R576). -/
theorem test_bar0Write : (after (.bar0Write 0x30 0b0110 4) { ready with host := { intStatus := 0b0011 } }).host.intStatus = 0b0001 := by decide +kernel

/-- RSP_ACK frees the slots whose bits are written (R579). -/
theorem test_rspAck : (after (.rspAck 0x8000) { ready with host := { rspReady := 0x8001, rspSlots := [(15, [1])] } }).host.rspReady = 1 := by decide +kernel

/-- A descriptor count more than a ring ahead of DESC_HEAD is the ring's ERROR 1 (R584). -/
theorem test_descTail : (after (.descTail 63 17) (put [(Obj.ringState 63, 1), (Obj.ringRingSize 63, 16)])).obj (Obj.ringState 63) = 3
    ∧ (after (.descTail 63 16) (put [(Obj.ringState 63, 1), (Obj.ringRingSize 63, 16)])).obj (Obj.ringState 63) = 1 := by decide +kernel

/-- A read of the window without a mapping table answers ones and is counted (R591). -/
theorem test_bar2Read : (after (.bar2Read 0 4 (zeros 8)) ready).out.getLast? = some (.bar2 0 [0xFF, 0xFF, 0xFF, 0xFF])
    ∧ (after (.bar2Write 0) ready).obj Obj.hostCntBar2Faults = 1 := by decide +kernel

/-- The port's reset takes the link down to training (R593). -/
theorem test_port0Reset : (after .port0Reset ready).obj Obj.hostLinkState = 1 ∧ (after (.pcieLinkUp 64 16) (after .port0Reset ready)).obj Obj.hostLinkWidth = 16 := by
  decide +kernel

/-- A frame on a lane without the flow engine counts nowhere in it; the decoder needs synchronisation (R222). -/
theorem test_ethFrame : (after (.ethFrame 31) ready) = ready := by decide +kernel

/-- The lease of a page ends at its timeout (R402). -/
theorem test_leaseExpire : (after (.leaseExpire 9) (leased 0x40)).cmm.leases = [] := by decide +kernel

/-- TRAIN sets its state (R367), and its end without a failed step leaves READY and 0x801's two channels of memory. -/
theorem test_train : (landed (.train (wc 1)) (put [(Obj.cmmChannelMask, 0x801)])).obj Obj.devDevState = 2 := by decide +kernel

/-- March BIST with the DESTROY mode needs STANDBY (R633). -/
theorem test_marchDestroy : (landed (.marchDestroy (wc 0xFFFF)) (put [(Obj.devDevState, 1)])).obj Obj.integMarchState = 1
    ∧ (landed (.marchDestroy (wc 0xFFFF)) ready).obj Obj.integMarchState = 0 := by decide +kernel

/-- A third fault of a core within 60 s leaves it in FAULT (R609). -/
theorem test_coreFault : (after (.coreFault 3) { put [(Obj.coreState 3, 2)] with cores := [(3, { faults := [10, 20] })] }).obj (Obj.coreState 3) = 3
    ∧ (after (.watchdogExpiry 3) { put [(Obj.coreState 3, 2), (Obj.fwFwState, 2)] with cores := [(3, { faults := [10] })] }).obj (Obj.coreState 3) = 1 := by decide +kernel

/-- A thermal trip is a cause of FAULT, which the next entry takes (R699, R667). -/
theorem test_thermalTrip : (after .faultEntry (after (.thermalTrip 936) ready)).obj Obj.devDevState = 5 ∧ (after .faultEntry ready).obj Obj.devDevState = 3 := by
  decide +kernel

/-- A rail out of range is cause 3 (R668). -/
theorem test_supplyFault : (after .faultEntry (after (.supplyFault 4) ready)).obj Obj.devFaultCause = 3 := by decide +kernel

/-- A RESET takes effect 10,000 ticks after its boundary (R671): accepted in tick 4,999 it takes effect at the boundary that opens 5,000, and resets at 15,000. -/
theorem test_resetWarm : (landed (.resetWarm (wc 1)) ready).dev.resets = [(15000, 1)] := by decide +kernel

/-- Power-on reset reads the straps and keeps the fuses (R656). -/
theorem test_powerOnReset : (after (.powerOnReset 3) (raised 5)).obj Obj.devStraps = 3 ∧ (after (.powerOnReset 3) (raised 5)).obj Obj.secFwSecMin = 5 := by
  decide +kernel

/-- Loss of synchronisation takes the management link down (R652). -/
theorem test_sgmii : (after .sgmiiSyncLoss ready).sgmii = false ∧ (after .sgmiiSync (after .sgmiiSyncLoss ready)).sgmii = true := by decide +kernel

/-- The example under R630: data 1 carries check bits 0x07, and a change of bit 1 is corrected; two changed bits are not. -/
theorem test_checkBits : checkBits sramColumns 1 = 0x07 ∧ eccRead sramColumns (eccWord sramColumns 1 ^^^ 2) = .corrected 1
    ∧ eccRead sramColumns (eccWord sramColumns 1 ^^^ 6) = .bad := by decide +kernel

/-- The columns of bits 64 and 65 of a Hoop word (R646). -/
theorem test_hoopColumns : hoopColumns.drop 64 = [0x5B, 0x5D] ∧ sramColumns.take 5 = [0x07, 0x0B, 0x0D, 0x0E, 0x13]
    ∧ sramColumns.drop 55 = [0xE0, 0x1F, 0x2F, 0x37, 0x3B, 0x3D, 0x3E, 0x4F, 0x57] := by decide +kernel

/-- March C- (R631): a cell that a rise of another one inverts is found; a good array has none that fails. -/
theorem test_march : marchRun [⟨0, 1, 5, 3, .coupled 7 9 true⟩] solid = [cellKey 1 5 3] ∧ marchRun [] checkered = [] := by decide +kernel

/-- A shortened codeword of zeros with two wrong symbols is corrected (R204). -/
theorem test_fec : (rsCorrect 14 ((List.replicate 39 0).set 3 5 ++ [9])).map (fun r => (r.1.sum, r.2)) = some (0, 2) := by decide +kernel

/-- The levels of a channel outside CHANNEL_MASK (R694). -/
theorem test_memBall : ready.memBall 3 .drst = .low ∧ (put [(Obj.cmmChannelMask, 8)]).memBall 3 (.dcs 3) = .high := by decide +kernel

/-- The firmware's start reads the flash slots (R621). -/
theorem test_fwRestart : (landed (.fwRestart (wc 1)) ready).out.length = 4 := by decide +kernel

/-- A page allocation after a change of the lease table in the tick is of the next one (R25). -/
theorem test_pageAlloc : (after .pageAlloc { ready with cmm := { leased := true } }).parked = [.alloc] := by decide +kernel

/-- SC0 stages the entry of an RWS object of its configuration block (R622). -/
theorem test_config_entry_is_staged : (let s : State := { put [(Obj.coreState 0, 2)] with flash := { applying := some { left := [(Obj.qWeight 0, [5])] } } };
    ((s.configTick.port 2).staging.map (fun x => (x.key, x.core)), s.configTick.flash.applying.map (·.left.length))) = ([(Obj.qWeight 0, 0)], some 0) := by
  decide +kernel

/-- An error in one device position is corrected and counted; in two it ends a READ with MEM_ERROR (R370, R589). -/
theorem test_memory_errors : (let s : State := { put [(Obj.cmmChannelMask, 1)] with memBad := [(1, 1), (2, 2)] };
    ((s.countRead 0 64 128 true).obj (Obj.mcCntCorrected 0), (s.countRead 0 64 128 true).obj (Obj.mcCntUncorrectable 0),
      s.readBad 0 64 64 true, s.readBad 0 64 65 true, s.readBad 0 129 8 false)) = (1, 1, false, true, false) := by decide +kernel

/-- The seventeenth entry of a tick waits for the next (R560). -/
theorem test_journal_pace : (let s := (below 17).foldl (fun (s : State) n => s.jSystem 1 n 0) ready;
    (s.journal.length, s.jPace.wait.length, s.jTick.journal.length, s.jTick.jPace.wait.length, (s.jTick.journal.head?).map (·.eno)))
      = (16, 1, 17, 0, some 16) := by decide +kernel

/-- The flat dynamic header spells the code lengths it stands for (RFC 1951, R481). -/
theorem test_flat_header : readHeader flatHeader = some (flatLit, flatDist) := by decide +kernel

/-- A block with fixed codes of the letter a and an empty stored block (RFC 1951); another text does not check (R492). -/
theorem test_inflate : inflatesTo [] [0x4A, 0x04, 0, 0, 0, 0xFF, 0xFF] [0x61] = true
    ∧ inflatesTo [] [0x4A, 0x04, 0, 0, 0, 0xFF, 0xFF] [0x62] = false := by decide +kernel

/-- A FINISH that nothing stops ends DONE (R485, R492). -/
theorem test_finish : fieldAt ((after (.jobEnd false false false) { working true with jobs := [(15, { job1 true with lease := none })] }).dom
    (Obj.jobJobResult 15)) 17 1 = 0 := by decide +kernel

/-- A WRITE changes nothing before the boundary that opens the next tick (R22, R512). -/
theorem test_write_waits : (after (.train (wc 1)) (put [(Obj.cmmChannelMask, 0x801)])).obj Obj.cmmMemState = 2
    ∧ (landed (.train (wc 1)) (put [(Obj.cmmChannelMask, 0x801)])).obj Obj.cmmMemState = 1 := by decide +kernel

/-! The well-formedness smoke: for each check a term that it refuses, and terms at the edge that it takes. -/

/-- An issuer on a port that is not there. -/
def noPort : Issuer := { port := 3 }

theorem smoke_issuers : (∀ i ∈ [noPort, { port := 2 }, { port := 2, core := 4 }, { port := 0, core := 0 }, { port := 1, addr := [1] }, { port := 0, slot := 16 },
    { port := 1, addr := zeros 16, udp := 65536 }, { port := 1, addr := zeros 16, mac := 2 ^ 48 }], i.wf = false)
    ∧ ∀ i ∈ [core0, ({ port := 0, slot := 15 } : Issuer), { port := 1, addr := zeros 16, udp := 65535 }], i.wf = true := by decide +kernel

theorem smoke_packets : ∀ f ∈ [Instr.read, .write, .commit, .discard, .segStart, .segData, .segEnd, .segAbort, .segRead, .echo, .hello, .attest,
    .prove, .close].map (fun f => (f noPort [], f { port := 0 } (zeros 257), f { port := 0 } (zeros 256))),
    f.1.wf = false ∧ f.2.1.wf = false ∧ f.2.2.wf = true := by decide +kernel

theorem smoke_writes : ∀ f ∈ [Instr.policyFloor, .fwSecRaise, .stepNow, .slewNow, .realign, .freqCorr, .phaseCorr, .swTrigger, .train, .releaseHandle,
    .mapInvalidate, .fwRestart, .marchPreserve, .marchDestroy, .marchRecover, .fuseRepairs, .resetWarm, .resetControl, .resetData, .resetManagement],
    (f { iss := noPort }).wf = false ∧ (f { iss := core0, tag := 2 ^ 32 }).wf = false ∧ (f { iss := core0, flags := 4 }).wf = false
      ∧ (f { iss := core0, flags := 2 }).wf = false ∧ (f { iss := core0, value := 2 ^ 80 }).wf = false ∧ (f (wc 1)).wf = true := by decide +kernel

theorem smoke_indexed_writes : ∀ f ∈ [(Instr.sessionClose, 8), (.picotSteps, 4), (.eyeRequest, 32), (.clear, 16), (.free, 4096), (.closePage, 4096),
    (.ringEnable, 64), (.ringDisable, 64), (.coreReset, 4), (.resend, 4)],
    (f.1 (wc 1) f.2).wf = false ∧ (f.1 { iss := noPort } 0).wf = false ∧ (f.1 (wc 1) (f.2 - 1)).wf = true := by decide +kernel

theorem smoke_long_writes : (∀ f ∈ [Instr.ownerKey, .grant, .renew, .release, .query, .lookup, .install, .update, .remove, .tableRead, .clearStats,
    .flushLearnt, .stateRestore, .flashImage, .flashConfig],
    (f { iss := noPort, value := [] }).wf = false ∧ (f { iss := core0, tag := 2 ^ 32, value := [] }).wf = false
      ∧ (f { iss := core0, trailer := [0], value := [] }).wf = false ∧ (f (bc [1])).wf = true)
    ∧ ∀ f ∈ [(Instr.jobStart, 16), (.resume, 16), (.finish, 16), (.abort, 16), (.golden, 8)],
      (f.1 (bc []) f.2).wf = false ∧ (f.1 { iss := noPort, value := [] } 0).wf = false ∧ (f.1 (bc []) (f.2 - 1)).wf = true := by decide +kernel

theorem smoke_instances : ∀ f ∈ [(Instr.scannerVisit, 32), (.ethFrame, 32), (.hiBerWindow, 32), (.cdrSignalDetect, 32), (.cdrFreqLock, 32), (.linkFailRetry, 16),
    (.noMarkerTimeout, 16), (.eyeScanStart, 32), (.trigOutStart, 8), (.trigOutEnd, 8), (.eventRead, 8), (.cascadeMessageSend, 4), (.alignWordSend, 4),
    (.alignWordTimeout, 4), (.cascadeSyncLoss, 4), (.cascadeSync, 4), (.synLock, 6), (.clkoutRestart, 4), (.clkoutStart, 4), (.clkoutStop, 4), (.picotStep, 4),
    (.pairTimeout, 3), (.commitLand, 3), (.sessionIdleTimeout, 8), (.handshakeTimeout, 8), (.proveLockoutEnd, 2), (.leaseExpire, 65536),
    (.chunkFlush, 4096), (.segmentClose, 4096), (.segmentOpen, 4096), (.drainEnd, 4096), (.flushLearntDone, 32), (.handleTimeout, 65536),
    (.rspAck, 2 ^ 32), (.noteHead, 2 ^ 32), (.descGrant, 64), (.descRenew, 64), (.descRelease, 64), (.bar2Write, 2 ^ 36), (.notificationSend, 8),
    (.watchdogExpiry, 4), (.coreFault, 4), (.coreBooted, 4), (.watchPoll, 16), (.flowhealthSample, 32), (.signatureTap, 8), (.streamExport, 4),
    (.streamSend, 4), (.powerOnReset, 4), (.supplyFault, 5)],
    (f.1 f.2).wf = false ∧ (f.1 (f.2 - 1)).wf = true := by decide +kernel

theorem smoke_values : ∀ i ∈ [Instr.tick { waves := [⟨256, []⟩] }, .tick { waves := [⟨0, [(64, 0)]⟩] }, .tick { pfd := [6] }, .tick { upsets := [(232, 0, 0)] },
    .tick { upsets := [(0, 2 ^ 17, 0)] }, .tick { upsets := [(0, 0, 72)] }, .tick { sramReads := [(232, 0)] }, .tick { sramWrites := [(0, 2 ^ 17)] },
    .tick { defects := [⟨232, 0, 0, 0, .noRise⟩] }, .tick { defects := [⟨0, 2052, 0, 0, .noRise⟩] }, .tick { defects := [⟨0, 0, 64, 0, .noFall⟩] },
    .tick { defects := [⟨0, 0, 0, 73, .stuck true⟩] }, .tick { hoopFlips := [(11, 0, 0)] }, .tick { hoopFlips := [(0, 32, 0)] },
    .tick { hoopFlips := [(0, 0, 74)] }, .tick { memFaults := [(2 ^ 38, true)] }, .tick { pins := [(8, true)] }, .tick { lanes := [{ lane := 32 }] }, .tick { verifyFail := [(4096, 0)] },
    .tick { swept := [65536] }, .tick { rails := [(5, 0)] }, .laneWord 32 0 0 (), .laneWord 0 (2 ^ 64) 0 (),
    .cdrLock 32 () (), .cdrSignalLoss 0 64, .cdrFreqLoss 0 64, .cdrTransitionLoss 32 0,
    .eyeScanEnd { errors := [[], [], [], []] }, .eyeScanEnd { errors := [List.replicate 8129 0] }, .comparatorSettle 256 false 0,
    .trigInAccept 8 true, .cascadeMessageReceive 4 (zeros 4), .cascadeMessageReceive 0 (zeros 3), .alignWordReceive 4 0 0 [] 0,
    .alignWordReceive 0 (2 ^ 64) 0 [] 0, .transferIdleTimeout 3 0, .transferIdleTimeout 0 65536, .trainEnd [(12, 1)], .trainEnd [(0, 0)], .trainEnd [(0, 8)],
    .cmdDoorbell (2 ^ 32) [], .cmdDoorbell 0 (zeros 257), .descTail 64 0, .descTail 0 (2 ^ 32), .cplHead 64 0, .cplHead 0 (2 ^ 32), .bar0Write 65536 0 4,
    .bar0Write 0 0 3, .bar0Write 0 256 1, .descFetch 64 .failed, .descRead 64 false, .bar2Read (2 ^ 36) 1 (zeros 8), .bar2Read 0 1 [], .lockRequest 4 [],
    .lockRequest 0 (zeros 65536), .nextHopRetry [], .nextHopExpiry [], .fwCheckEnd [] [] (zeros 65537) [], .fwCheckEnd [] [] [] (zeros 65537),
    .darnerBorrow 232 (), .thermalTrip 935, .pcieLinkUp 8 1, .pcieLinkUp 16 2], i.wf = false := by decide +kernel

theorem smoke_datagrams : ∀ f ∈ [Instr.arpRequest, .neighbourSolicitation, .icmpEchoRequest, .nextHopReply, .vdpCommand, (.datagramDiscard · false)],
    (∀ d ∈ [({ addr := [] } : NetIn), { addr := zeros 16, udp := 65536 }, { addr := zeros 16, port := 65536 }, { addr := zeros 16, mac := 2 ^ 48 },
      { addr := zeros 16, target := [1] },
      { addr := zeros 16, data := zeros 65536 }], (f d).wf = false) ∧ (f { addr := zeros 16, target := zeros 16 }).wf = true := by decide +kernel

/-- The longest values: ten mebibytes in a write, in a flash slot, 65,535 bytes in a packet. -/
theorem smoke_lengths (b : Bytes) :
    (10485760 < b.length → (Instr.flashImage (bc b)).wf = false ∧ (Instr.fwCheckEnd b [] [] []).wf = false ∧ (Instr.fwCheckEnd [] b [] []).wf = false)
    ∧ (65535 < b.length → (Instr.read core0 b).wf = false) := by
  have h2 (h : 65535 < b.length) : decide (b.length ≤ 65535) = false := decide_eq_false (by omega)
  exact ⟨fun h => by simp [Instr.wf, BytesCmd.wf, bc]; exact ⟨fun _ _ => decide_eq_false (by omega), h⟩, fun h => by simp [Instr.wf, pktWf, core0, h2 h]⟩

end Sys2Proof.Tests
end

namespace Sys2Proof.Machine

/-! Cascade messages (R30, R292, R293, R324). -/

section
variable (s : State) (n : Nat)

@[simp] theorem State.cascPort_emit (o : Output) : (s.emit o).cascPort n = s.cascPort n := rfl

/-- CASCADE_MESSAGE_SEND where a message is due, the port idle and the spacing kept (R324). -/
theorem execCascadeMessageSend_due {due code src : Nat} {rest : List (Nat × Nat × Nat)} (hn : n < 4)
    (hq : (s.cascPort n).queue = (due, code, src) :: rest) (hdue : due ≤ s.tick + 1) (h4 : (s.tick + 1) % 4 = 0)
    (hbusy : (s.cascPort n).busyUntil ≤ s.tick + 1) (hspace : ∀ x, (s.cascPort n).lastMsg = some x → x + 16 ≤ s.tick + 1) :
    execCascadeMessageSend n s = .next ((s.setCasc n (fun c => { c with queue := rest, lastMsg := some (s.tick + 1) })).emit
      (.cascade n [0x5C, BitVec.ofNat 8 code, BitVec.ofNat 8 src, BitVec.ofNat 8 (255 - code % 256)])) := by
  have hn' := Nat.not_le.mpr hn
  have hdue' := Nat.not_lt.mpr hdue
  have hbusy' := Nat.not_lt.mpr hbusy
  unfold execCascadeMessageSend
  cases hl : (s.cascPort n).lastMsg with
  | none => simp [hq, hl, hn', hdue', h4, hbusy']
  | some l => simp only [hq, hl, hspace l hl, hn', hdue', h4, hbusy', ne_eq, not_true, decide_true, Bool.not_true, Bool.false_eq_true, or_self, if_false]

/-- The byte of a string that stands at an offset, as a field of its own. -/
theorem fieldAt_one {b : Bytes} {i : Nat} {x : Byte} (h : b[i]? = some x) : fieldAt b i 1 = x.toNat := by
  obtain ⟨hi, hx⟩ := List.getElem?_eq_some_iff.mp h
  simp [fieldAt, slice, List.drop_eq_getElem_cons hi, hx, ofLe, zeros]

/-- CASCADE_MESSAGE_RECEIVE of four characters that open with K28.2 on a synchronised port: a bad complement is counted, a good message is on its
way (R293, R324). -/
theorem execCascadeMessageReceive_sync (a b c : Byte) (hn : n < 4) (hr : s.running = true) (hs : (s.cascPort n).sync = true) :
    execCascadeMessageReceive n [0x5C, a, b, c] s =
      if c.toNat ≠ 255 - a.toNat then .next (s.bump (Obj.cascCascRxBad n) 1)
      else
        let (r, s) := if s.obj (Obj.cpRxLatency n) = 0 then s.fresh else (s.obj (Obj.cpRxLatency n) - 1, s)
        .next { s with arrivals := s.arrivals ++ [(s.tick + 1 + r % 16, .casc n a.toNat (64 * s.tick))] } := by
  have ha : fieldAt [0x5C, a, b, c] 1 1 = a.toNat := fieldAt_one rfl
  have hc : fieldAt [0x5C, a, b, c] 3 1 = c.toNat := fieldAt_one rfl
  have hgo : ¬(4 ≤ n ∨ (!s.running) = true ∨ (!(s.cascPort n).sync) = true ∨ [0x5C, a, b, c].length ≠ 4 ∨ [0x5C, a, b, c].headD 0 ≠ 0x5C) := by
    simp [hr, hs]; omega
  unfold execCascadeMessageReceive
  rw [if_neg hgo, ha, hc]
  rfl

end

/-- Settles O8: both rows act in one step, so each clause is the row's own equation. -/
theorem cascadeMessagesLeaveAndArriveWhole : Obligations.CascadeMessagesLeaveAndArriveWhole := by
  unfold Obligations.CascadeMessagesLeaveAndArriveWhole
  refine ⟨fun s n due code src rest hn hq hdue h4 hbusy hspace => ?_, fun s n a b c hn hr hs => ⟨fun hbad => ?_, fun hgood h0 => ?_, fun hgood h1 h16 => ?_⟩⟩
  · refine ⟨_, execCascadeMessageSend_due s n hn hq hdue h4 hbusy hspace, rfl, by simp, fun m hm => ?_⟩
    simp [State.cascPort_setCasc, hm]
  · exact (execCascadeMessageReceive_sync s n a b c hn hr hs).trans (if_pos hbad)
  · refine ⟨1 + Config.freeNat s.free % 16, by omega, by omega, ?_⟩
    exact (execCascadeMessageReceive_sync s n a b c hn hr hs).trans (by simp [hgood, h0, State.fresh, Nat.add_assoc])
  · have hd : s.tick + 1 + (s.obj (Obj.cpRxLatency n) - 1) % 16 = s.tick + s.obj (Obj.cpRxLatency n) := by
      rw [Nat.mod_eq_of_lt (by omega)]; omega
    have h0 : s.obj (Obj.cpRxLatency n) ≠ 0 := by omega
    exact (execCascadeMessageReceive_sync s n a b c hn hr hs).trans (by simp only [hgood, h0, hd, ne_eq, not_true, if_false])

end Sys2Proof.Machine

namespace Sys2Proof.Machine

/-! Notifications (R532, R580, R581): what they leave alone. -/

section
variable (s : State)

/-- The parts of the state that no notification touches. -/
def State.unnoted (s : State) : State := { s with dict := [], host := {}, subQ := [], out := [] }

@[simp] theorem State.raise_unnoted (v : Nat) : (s.raise v).unnoted = s.unnoted := by
  unfold State.raise
  dsimp only
  generalize (if v < 16 then _ else _ : HostPort) = h
  split <;> rfl

@[simp] theorem State.noteHost_unnoted (n : Note) : (s.noteHost n).unnoted = s.unnoted := by
  unfold State.noteHost
  dsimp only
  split
  · rfl
  · split
    · rfl
    · split <;> rw [State.raise_unnoted] <;> rfl

@[simp] theorem State.noteSub_unnoted (n : Note) (k : Nat) : (s.noteSub n k).unnoted = s.unnoted := by
  unfold State.noteSub
  dsimp only
  split
  · split <;> rfl
  · rfl

@[simp] theorem State.notify_unnoted (cls source detail : Nat) (t : Tick) : (s.notify cls source detail t).unnoted = s.unnoted := by
  unfold State.notify
  generalize below 8 = l
  dsimp only
  have hfold (n : Note) (u : State) : (l.foldl (fun s k => s.noteSub n k) u).unnoted = u.unnoted := by
    induction l generalizing u with
    | nil => rfl
    | cons k l ih => rw [List.foldl_cons, ih, State.noteSub_unnoted]
  rw [hfold, State.noteHost_unnoted]

/-- What stands apart from notifications stands as it was. -/
theorem State.landing_of_unnoted {s t : State} (h : t.unnoted = s.unnoted) : t.landing = s.landing :=
  have h := congrArg State.landing h
  h

@[simp] theorem State.notify_landing (cls source detail : Nat) (t : Tick) : (s.notify cls source detail t).landing = s.landing :=
  State.landing_of_unnoted (State.notify_unnoted ..)

end

/-! The landing of a commit (R23, R513, R515, R517). -/

section
variable {s : State} {p : Nat} {c : Pending}

/-- A commit that is the only change of its boundary: the boundary lands it. -/
theorem State.atBoundary_commit (hdue : s.due = []) (hc : s.dueCommits (s.tick + 1) = [c]) (hp : c.iss.port = p) (hm : c ∈ (s.port p).pend)
    (hu : ∀ x ∈ (s.port p).pend, x.jseq = c.jseq → x = c) :
    State.atBoundary { s with due := [.commit p c.jseq] } = s.landCommit c (s.tick + 1) := by
  have hs : ({ s with due := [] } : State) = s := by rw [← hdue]
  have hat : State.dueAt { s with due := [.commit p c.jseq] } (s.tick + 1) = [.commit p c.jseq] := by
    unfold State.dueAt
    rw [show ({ s with due := [.commit p c.jseq] } : State).dueCommits (s.tick + 1) = [c] from hc]
    simp [hp, dueInto]
  have hfind : (s.port p).pend.find? (fun x => x.jseq = c.jseq) = some c := by
    obtain ⟨x, hx⟩ := Option.isSome_iff_exists.mp (List.find?_isSome.mpr ⟨c, hm, by simp⟩ :
      ((s.port p).pend.find? (fun x => x.jseq = c.jseq)).isSome)
    rw [hx, hu x (List.mem_of_find?_eq_some hx) (by simpa using List.find?_some hx)]
  show (State.dueAt _ (s.tick + 1)).foldl _ { s with due := [] } = _
  rw [hat, hs]
  show s.landPending p c.jseq (s.tick + 1) = _
  unfold State.landPending
  rw [hfind]

/-- What a commit that lands at the boundary of tick t leaves for its end: no entries yet. -/
def Pending.landing (c : Pending) (t : Tick) : Landing :=
  { iss := c.iss, op := opCommit, flags := c.flags, trailer := c.trailer, tag := c.tag, jseq := c.jseq, pktCrc := c.pktCrc, effect := t }

/-- The state in which a commit lands: it is no longer pending. -/
def State.unpend (s : State) (c : Pending) : State :=
  s.setPort c.iss.port { s.port c.iss.port with pend := (s.port c.iss.port).pend.filter (fun x => x.jseq ≠ c.jseq) }

/-- Under STRICT, with an entry that fails, a commit only ends (R515). -/
theorem State.landCommit_strict (t : Tick) (h : bit c.flags 0 = true ∧ ((s.unpend c).landSet c.set t).2.any strictFails = true) :
    s.landCommit c t = { s.unpend c with landing := (s.unpend c).landing ++
      [{ c.landing t with fixed := some (stRejected, reStrict), outs := strictReport ((s.unpend c).landSet c.set t).2 }] } :=
  if_pos h

/-- Else its values apply; all that follows them are reports, and its outcomes wait for the tick to open (R515, R520). -/
theorem State.landCommit_applied (t : Tick) (h : ¬(bit c.flags 0 = true ∧ ((s.unpend c).landSet c.set t).2.any strictFails = true)) :
    OnlyReported ((s.unpend c).landSet c.set t).1 (s.landCommit c t)
    ∧ { c.landing t with outs := ((s.unpend c).landSet c.set t).2 } ∈ (s.landCommit c t).landing := by
  unfold State.landCommit
  dsimp only
  split
  · exact absurd ‹_› h
  · refine ⟨(OnlyReported.setLanding ?_ _ (by simp)).notify _ _ _ _, by rw [State.notify_landing]; exact List.mem_append_right _ (List.mem_singleton.mpr rfl)⟩
    exact ((OnlyReported.refl _).supersedeAll _ _).settle _ _ _ _ _

end

/-- Settles O21: the row only puts the commit among what waits, and the boundary's one change is its landing. -/
theorem commitsLandWholeOrNotAtAll : Obligations.CommitsLandWholeOrNotAtAll := by
  unfold Obligations.CommitsLandWholeOrNotAtAll
  refine ⟨fun s p => ?_, fun s p c hdue hc hp hm hu => ?_⟩
  · show execCommitLand p s = _
    unfold execCommitLand
    cases (s.dueCommits (s.tick + 1)).find? (fun c => c.iss.port = p) <;> rfl
  · have hrow : exec (.commitLand p) s = .next { s with due := [.commit p c.jseq] } := by
      show execCommitLand p s = _
      unfold execCommitLand
      rw [hc]
      simp [hp, State.await, hdue]
    have hland := State.atBoundary_commit hdue hc hp hm hu
    subst hp
    intro s1 r l
    split
    · next hs => exact ⟨_, hrow, hland.trans (State.landCommit_strict _ hs)⟩
    · next hs =>
      obtain ⟨hrep, hmem⟩ := State.landCommit_applied _ hs
      exact ⟨_, ⟨_, hrow, hland⟩, hrep, hmem⟩

end Sys2Proof.Machine

namespace Sys2Proof.Machine

/-! Page allocation and what a stopped capture still counts (R390, R391, R495). -/

/-- A queue in STOP_ON_FULL that captures and needs a page, with a group on its way that counts, once stored, in the queue's own ALLOC_FAIL. -/
def stoppedOnFull : Queue :=
  { mode := 3, wantPage := true, inbox := [(2, { recs := [], ctl := true, tally := [(Obj.qAllocFail 0, 1)] })] }

/-- A running device with that queue as queue 0 and no free page. -/
def fullMemory : State :=
  { ({} : State).setObjs [(Obj.devDevState, 3), (Obj.qState 0, 1), (Obj.qQmin 0, 1), (Obj.qStageKib 0, 4)] with queues := [(0, stoppedOnFull)] }

/-- The state is one that the allocation clause speaks of: the next queue that needs a page is queue 0, below its QMIN, and no page is free. -/
theorem fullMemory_needs_page :
    fullMemory.running = true ∧ fullMemory.cmm.leased = false ∧ fullMemory.belongsLater (· == .alloc) = false ∧ fullMemory.cmm.allocs < 8
      ∧ (roundFrom (fullMemory.queueList.filter fullMemory.needsPage) fullMemory.cmm.rr).head? = some 0
      ∧ fullMemory.obj (Obj.qQmax 0) = 0 ∧ fullMemory.heldPages 0 < fullMemory.obj (Obj.qQmin 0) ∧ takeFree fullMemory.cmm.free = none := by
  decide +kernel

/-- The failed allocation stops the capture, the capture's last group is stored, and its tally counts ALLOC_FAIL a second time. -/
theorem fullMemory_takeAlloc_counts_twice :
    fullMemory.takeAlloc.obj (Obj.qAllocFail 0) = 2 ∧ min (fullMemory.obj (Obj.qAllocFail 0) + 1) (maxOf (Obj.qAllocFail 0)) = 1 := by
  decide +kernel

/-- Refutes O36: where a queue in STOP_ON_FULL finds no free page, its ALLOC_FAIL need not count exactly one. The failed allocation counts
once, but it also stops the capture, whose groups on their way are stored then, and each counts what its tally names (R495): the statement
says nothing of the tallies, and in `fullMemory` one names this very counter. -/
theorem not_pagesAndSegmentsAreFilledAndClosed : ¬ Obligations.PagesAndSegmentsAreFilledAndClosed := by
  unfold Obligations.PagesAndSegmentsAreFilledAndClosed
  rintro ⟨⟨halloc, -⟩, -⟩
  obtain ⟨hrun, hlease, hlater, hallocs, hround, hmax, hmin, hfree⟩ := fullMemory_needs_page
  obtain ⟨t, ht, -, -, -, -, -, hfail⟩ := halloc fullMemory 0 (by decide) hrun hlease hlater hallocs hround (.inl hmax) hmin
  obtain ⟨-, hcount, -⟩ := hfail hfree
  have hexec : exec .pageAlloc fullMemory = .next fullMemory.takeAlloc := by
    change execPageAlloc fullMemory = _
    simp [execPageAlloc, hlease, hlater]
  obtain rfl : fullMemory.takeAlloc = t := Host.Outcome.next.inj (hexec.symm.trans ht)
  obtain ⟨htwice, honce⟩ := fullMemory_takeAlloc_counts_twice
  have : (2 : Nat) = 1 := htwice.symm.trans (hcount.trans honce)
  omega

end Sys2Proof.Machine

namespace Sys2Proof.Machine

/-! What the queues do with a lane's items leaves the lanes, their counters and what is on its way to the units as they were. -/

theorem upFrom_eq_range' (n lo : Nat) : upFrom n lo = List.range' lo n := by
  induction n generalizing lo with
  | zero => rfl
  | succ n ih => rw [upFrom, ih, List.range'_succ]

theorem mem_upFrom {n lo k : Nat} : k ∈ upFrom n lo ↔ lo ≤ k ∧ k < lo + n := by
  rw [upFrom_eq_range', List.mem_range'_1]

/-- The counters of the lanes. -/
def laneCounter (k : Nat) : Prop := 0x6040 ≤ k / 256 ∧ k / 256 < 0x6060

theorem not_laneCounter_queue {q i : Nat} (hq : q < 4096) (hi : i < 256) : ¬ laneCounter ((0x4000 + q) * 256 + i) := by
  unfold laneCounter; omega

theorem not_laneCounter_coder (i : Nat) : ¬ laneCounter (0x6440 * 256 + i) := by
  unfold laneCounter; omega

/-- Lanes, their counters and the arrivals of a state are those of an earlier one. -/
structure Aside (s t : State) : Prop where
  arrivals : t.arrivals = s.arrivals
  lanes : t.lanes = s.lanes
  counts : ∀ k, laneCounter k → t.obj k = s.obj k

namespace Aside
variable {s t u : State}

theorem refl (s : State) : Aside s s := ⟨rfl, rfl, fun _ _ => rfl⟩

theorem trans (h : Aside s t) (g : Aside t u) : Aside s u :=
  ⟨g.arrivals.trans h.arrivals, g.lanes.trans h.lanes, fun k hk => (g.counts k hk).trans (h.counts k hk)⟩

theorem setObj (h : Aside s t) {k : Nat} (hk : ¬ laneCounter k) (v : Nat) : Aside s (t.setObj k v) :=
  h.trans ⟨rfl, rfl, fun j hj => State.obj_setObj_ne t v (by rintro rfl; exact hk hj)⟩

theorem bump (h : Aside s t) {k : Nat} (hk : ¬ laneCounter k) (n : Nat) : Aside s (t.bump k n) := h.setObj hk _

theorem bumpQueue (h : Aside s t) {q i : Nat} (hq : q < 4096) (n : Nat) (hi : i < 256 := by decide) :
    Aside s (t.bump ((0x4000 + q) * 256 + i) n) := h.bump (not_laneCounter_queue hq hi) n

theorem bumpCoder (h : Aside s t) {i : Nat} (n : Nat) : Aside s (t.bump (0x6440 * 256 + i) n) := h.bump (not_laneCounter_coder i) n

theorem setQueue (h : Aside s t) (q : Nat) (x : Queue) : Aside s (t.setQueue q x) := h.trans ⟨rfl, rfl, fun _ _ => rfl⟩

theorem ite {a b : State} {c : Prop} [Decidable c] (ha : Aside s a) (hb : Aside s b) : Aside s (if c then a else b) := by
  split
  · exact ha
  · exact hb

theorem foldl {α : Type} {f : State → α → State} {l : List α} (hf : ∀ v, Aside s v → ∀ a ∈ l, Aside s (f v a)) (h : Aside s t) :
    Aside s (l.foldl f t) := by
  induction l generalizing t with
  | nil => exact h
  | cons a l ih => exact ih (fun v hv b hb => hf v hv b (List.mem_cons_of_mem _ hb)) (hf t h a List.mem_cons_self)

variable {q : Nat}

theorem putGroup (h : Aside s t) (hq : q < 4096) {g : Group} (hg : ∀ e ∈ g.tally, ¬ laneCounter e.1) (now : Tick) :
    Aside s (t.putGroup q g now) := by
  have hpeak (v : State) (hv : Aside s v) : Aside s (v.notePeak q) := hv.setObj (not_laneCounter_queue hq (by decide)) _
  exact foldl (fun v hv e he => hv.bump (hg e he) _) (hpeak _ ((h.setQueue ..).bumpQueue hq _))

theorem closeLoss (h : Aside s t) (hq : q < 4096) (now : Tick) : Aside s (t.closeLoss q now) := by
  unfold State.closeLoss
  dsimp only
  split
  · exact h
  · have hs (x : Queue) (n : Nat) := ((h.setQueue q x).bumpQueue (i := 0x29) hq 1).bumpQueue (i := 0x28) hq n
    exact ite ((hs _ _).bumpQueue hq _) ((hs _ _).putGroup hq (by simp) _)

theorem stage (h : Aside s t) (hq : q < 4096) {g : Group} (hg : ∀ e ∈ g.tally, ¬ laneCounter e.1) (now : Tick) :
    Aside s (t.stage q g now) := by
  have hs := h.closeLoss hq now
  exact ite (ite (hs.bumpQueue hq _) (hs.putGroup hq hg _)) (ite (h.setQueue ..) (hs.putGroup hq hg _))

theorem endBlock (h : Aside s t) (hq : q < 4096) (logical : Nat) (fails : List (Nat × Nat)) (now : Tick) :
    Aside s (t.endBlock q logical fails now) := by
  unfold State.endBlock
  have store (v : State) (hv : Aside s v) (x : Queue) (g : Group) (hg : g.tally = []) : Aside s ((v.setQueue q x).stage q g now) :=
    (hv.setQueue q x).stage hq (by simp [hg]) now
  dsimp only
  split
  · exact h
  · refine ite (store _ h _ _ rfl) ?_
    split
    · exact store _ (h.bumpCoder 1) _ _ rfl
    · refine ite (store _ ((h.bumpCoder _).bumpCoder 1) _ _ rfl) (((h.bumpCoder _).setQueue ..).stage hq ?_ now)
      simp only [List.mem_cons, List.not_mem_nil, or_false]
      rintro e (rfl | rfl | rfl) <;> exact not_laneCounter_coder _

theorem finishBlock (h : Aside s t) (hq : q < 4096) (logical : Nat) (fails : List (Nat × Nat)) (now : Tick) :
    Aside s (t.finishBlock q logical fails now) :=
  have hs := h.endBlock hq logical fails now
  ite (foldl (fun _ hv l _ => hv.endBlock hq l fails now) hs) hs

theorem finishEdges (h : Aside s t) (hq : q < 4096) (now : Tick) : Aside s (t.finishEdges q now) := by
  unfold State.finishEdges
  dsimp only
  split
  · exact h
  · exact (h.setQueue ..).stage hq (by simp) now

theorem finishAll (h : Aside s t) (hq : q < 4096) (fails : List (Nat × Nat)) (now : Tick) : Aside s (t.finishAll q fails now) :=
  foldl (fun _ hv l _ => hv.finishBlock hq l fails now) (h.finishEdges hq now)

theorem rearmLost (h : Aside s t) (items : Nat) (first last now : Tick) : Aside s (t.rearmLost q items first last now) :=
  ite (h.setQueue ..) h

theorem deliver (h : Aside s t) (hq : q < 4096) (recs : List Rec) (items : Nat) (first last : SubTime) (now : Tick) {tally : List (Key × Nat)}
    (hg : ∀ e ∈ tally, ¬ laneCounter e.1) : Aside s (t.deliver q recs items first last now tally) :=
  ite (h.setQueue ..) (ite ((h.finishAll hq [] now).stage hq hg now) (h.rearmLost ..))

theorem fullBlock (h : Aside s t) (hq : q < 4096) (logical : Nat) (fails : List (Nat × Nat)) (now : Tick) :
    Aside s (t.fullBlock q logical fails now) := by
  unfold State.fullBlock
  split
  · exact ite (h.finishBlock hq ..) h
  · exact h

theorem addWord (h : Aside s t) (hq : q < 4096) (logical w : Nat) (x : SubTime) (now : Tick) : Aside s (t.addWord q logical w x now) :=
  have hs := h.fullBlock hq logical [] now
  ite ((ite (hs.finishEdges hq now) hs).setQueue ..) (h.rearmLost ..)

end Aside

theorem State.lt_of_mem_queueList {s : State} {q : Nat} (h : q ∈ s.queueList) : q < 4096 := by
  have dedup (l : List Nat) : q ∈ l.foldr (fun p r => if r.head? = some p then r else p :: r) [] → q ∈ l := by
    induction l with
    | nil => exact id
    | cons p l ih =>
      simp only [List.foldr_cons, List.mem_cons]
      split
      · exact fun hm => .inr (ih hm)
      · rintro (_ | ⟨_, hm⟩)
        · exact .inl rfl
        · exact .inr (ih hm)
  obtain ⟨e, -, he⟩ := List.mem_filterMap.mp (dedup _ h)
  dsimp only at he
  split at he
  · next hk => obtain rfl := Option.some.inj he; omega
  · exact absurd he (by simp)

theorem State.lt_of_mem_sourceQueues {s : State} {kind src q : Nat} (h : q ∈ s.sourceQueues kind src) : q < 4096 :=
  State.lt_of_mem_queueList (List.mem_of_mem_filter h)

theorem Aside.sourceGap {s t : State} (h : Aside s t) (kind src cause start stop items : Nat) (now : Tick) :
    Aside s (t.sourceGap kind src cause start stop items now) :=
  foldl (fun _ hv _ hq => hv.deliver (State.lt_of_mem_sourceQueues hq) _ _ _ _ _ (by simp)) h

theorem Aside.toVideo {s t : State} (h : Aside s t) (n : Nat) (recs : List Rec) (x now : Tick) {tally : List (Key × Nat)}
    (hg : ∀ e ∈ tally, ¬ laneCounter e.1) : Aside s (t.toVideo n recs x now tally) :=
  foldl (fun _ hv _ hq => hv.deliver (State.lt_of_mem_sourceQueues hq) _ _ _ _ _ hg) h

theorem Aside.addWords {s t : State} (h : Aside s t) (kind src logical w : Nat) (x : SubTime) (now : Tick) :
    Aside s ((t.sourceQueues kind src).foldl (fun s q => s.addWord q logical w x now) t) :=
  foldl (fun _ hv _ hq => hv.addWord (State.lt_of_mem_sourceQueues hq) _ _ _ _) h

/-! What the decoders and the links do with a word adds to what is on its way to the units, and of a lane changes the marker finder alone. -/

/-- A lane but for its marker finder. -/
def Lane.unfound (x : Lane) : Lane := { x with finder := {} }

/-- A state later in the work on a word: more may be on its way to the units, and each lane is as before but for its marker finder. -/
structure Onward (s t : State) : Prop where
  arrivals : s.arrivals <+: t.arrivals
  lanes : ∀ n, (t.lane n).unfound = (s.lane n).unfound
  counts : ∀ k, laneCounter k → t.obj k = s.obj k

theorem Aside.onward {s t : State} (h : Aside s t) : Onward s t :=
  ⟨h.arrivals ▸ List.prefix_refl _, fun n => by simp [State.lane, h.lanes], h.counts⟩

namespace Onward
variable {s t u : State}

theorem refl (s : State) : Onward s s := (Aside.refl s).onward

theorem trans (h : Onward s t) (g : Onward t u) : Onward s u :=
  ⟨h.arrivals.trans g.arrivals, fun n => (g.lanes n).trans (h.lanes n), fun k hk => (g.counts k hk).trans (h.counts k hk)⟩

theorem ite {a b : State} {c : Prop} [Decidable c] (ha : Onward s a) (hb : Onward s b) : Onward s (if c then a else b) := by
  split
  · exact ha
  · exact hb

theorem ite_of {a b : State} {c : Prop} [Decidable c] (ha : c → Onward s a) (hb : ¬ c → Onward s b) : Onward s (if c then a else b) := by
  split
  · next h => exact ha h
  · next h => exact hb h

theorem foldl {α : Type} {f : State → α → State} {l : List α} (hf : ∀ v, Onward s v → ∀ a ∈ l, Onward s (f v a)) (h : Onward s t) :
    Onward s (l.foldl f t) := by
  induction l generalizing t with
  | nil => exact h
  | cons a l ih => exact ih (fun v hv b hb => hf v hv b (List.mem_cons_of_mem _ hb)) (hf t h a List.mem_cons_self)

theorem setDec (h : Onward s t) (n : Nat) (d : Decoder) : Onward s (t.setDec n d) := h.trans ⟨List.prefix_refl _, fun _ => rfl, fun _ _ => rfl⟩

theorem setLnk (h : Onward s t) (k : Nat) (x : Link) : Onward s (t.setLnk k x) := h.trans ⟨List.prefix_refl _, fun _ => rfl, fun _ _ => rfl⟩

theorem setFinder (h : Onward s t) (n : Nat) (f : Front) : Onward s (t.setLane n { t.lane n with finder := f }) := by
  refine h.trans ⟨List.prefix_refl _, fun m => ?_, fun _ _ => rfl⟩
  rw [State.lane_setLane]
  split
  · next e => subst e; rfl
  · rfl

theorem arrive (h : Onward s t) (due : Tick) (a : Arrival) : Onward s (t.arrive due a) :=
  h.trans ⟨List.prefix_append _ _, fun _ => rfl, fun _ _ => rfl⟩

theorem setObj (h : Onward s t) {k : Nat} (hk : ¬ laneCounter k) (v : Nat) : Onward s (t.setObj k v) :=
  h.trans ((Aside.refl t).setObj hk v).onward

theorem setInt (h : Onward s t) {k : Nat} (hk : ¬ laneCounter k) (v : Int) : Onward s (t.setInt k v) := by
  unfold State.setInt
  split
  · exact h.setObj hk _
  · exact h

/-- An object of a decoder (the family 0x3200). -/
theorem setDecObj (h : Onward s t) {n i : Nat} (hn : n < 256) (v : Nat) (hi : i < 256 := by decide) : Onward s (t.setObj ((0x3200 + n) * 256 + i) v) :=
  h.setObj (by unfold laneCounter; omega) v

/-- A counter of a decoder (the family 0x6060). -/
theorem bumpDec (h : Onward s t) {n i : Nat} (v : Nat) : Onward s (t.bump ((0x6060 + n) * 256 + i) v) :=
  h.setObj (by unfold laneCounter; omega) _

/-- An object of a link (the family 0x3300). -/
theorem setLinkObj (h : Onward s t) {k i : Nat} (hk : k < 16) (v : Nat) (hi : i < 256 := by decide) : Onward s (t.setObj ((0x3300 + k) * 256 + i) v) :=
  h.setObj (by unfold laneCounter; omega) v

theorem toVideo (h : Onward s t) (n : Nat) (recs : List Rec) (x now : Tick) {tally : List (Key × Nat)} (hg : ∀ e ∈ tally, ¬ laneCounter e.1) :
    Onward s (t.toVideo n recs x now tally) := h.trans ((Aside.refl t).toVideo n recs x now hg).onward

theorem addWords (h : Onward s t) (kind src logical w : Nat) (x : SubTime) (now : Tick) :
    Onward s ((t.sourceQueues kind src).foldl (fun s q => s.addWord q logical w x now) t) :=
  h.trans ((Aside.refl t).addWords ..).onward

theorem sourceGap (h : Onward s t) (kind src cause start stop items : Nat) (now : Tick) :
    Onward s (t.sourceGap kind src cause start stop items now) := h.trans ((Aside.refl t).sourceGap ..).onward

theorem videoEvent (h : Onward s t) (n kind ln sig : Nat) (incomplete : Bool) (detail : Nat) (x now : Tick) :
    Onward s (t.videoEvent n kind ln sig incomplete detail x now) :=
  ite ((h.arrive ..).toVideo n _ _ _ (by simp)) (h.arrive ..)

theorem codeError (h : Onward s t) (n kind count logical : Nat) (x now : Tick) : Onward s (t.codeError n kind count logical x now) :=
  have hs := (h.bumpDec count).arrive _ _
  ite h (ite (hs.setDec ..) hs)

theorem tapSignature (h : Onward s t) (inst : Nat) (flow : Option Nat) (sig : Nat) (incomplete : Bool) (x : SubTime) :
    Onward s (t.tapSignature inst flow sig incomplete x) := by
  refine foldl (fun v hv k hk => ite hv (ite (hv.setObj ?_ _) (hv.trans ⟨List.prefix_refl _, fun _ => rfl, fun _ _ => rfl⟩))) h
  have hk8 := (mem_upFrom.mp hk).2
  simp only [laneCounter, Obj.sigSkipped]
  omega

variable {n : Nat}

theorem signFrame (h : Onward s t) (hn : n < 256) (f : SdiFrame) (x : Tick) (lines : Nat) (now : Tick) :
    Onward s (t.signFrame n f x lines now) :=
  ite h ((((h.setDecObj hn _).bumpDec _).videoEvent ..).tapSignature ..)

theorem finishFrame (h : Onward s t) (hn : n < 256) (now : Tick) : Onward s (t.finishFrame n now) := by
  unfold State.finishFrame
  dsimp only
  split
  · exact h.setDec ..
  · exact ite (h.setDec ..) ((h.setDec ..).signFrame hn ..)

theorem decLose (h : Onward s t) (hn : n < 256) (reason : Nat) (x : Tick) (open_ : Bool) : Onward s (t.decLose n reason x open_) := by
  unfold State.decLose
  dsimp only
  refine ite ?_ (h.setDec ..)
  have hsign : Onward s (match (t.dec n).frame.closed with
      | some (at_, lines) =>
        t.signFrame n (takeLines (t.decLanes n).length (((t.dec n).frame.queue.getD 0 []).length + 1) (t.dec n).frame) at_ lines t.tick
      | none => t) := by
    split
    · exact h.signFrame hn ..
    · exact h
  have hbroken (d : Decoder) (due : Tick) := (hsign.setDec n d).arrive due (.broken n false)
  exact ((ite ((hbroken _ _).bumpDec 1) (hbroken _ _)).setDecObj hn 1).setDecObj hn 0

theorem decSync (h : Onward s t) (hn : n < 256) (now : Tick) : Onward s (t.decSync n now) :=
  have hs := ite ((h.setDecObj (i := 0x02) hn 2).setDecObj (i := 0x33) hn 1) (h.setDecObj (i := 0x02) hn 2)
  ite (hs.setDec ..) (hs.videoEvent ..)

theorem markIncomplete (h : Onward s t) (i : Nat) (x : Tick) : Onward s (t.markIncomplete n i x) := h.setDec ..

theorem sdiLine (h : Onward s t) (hn : n < 256) (i ln : Nat) (f v : Bool) (prev : Option Nat) (prevV : Bool) (x now : Tick) :
    Onward s (t.sdiLine n i ln f v prev prevV x now) := by
  unfold State.sdiLine
  extract_lets jump s1 d1 frame1 d2 s2 s3 due s4 d3 s5 whole d4 lines frame2 s6
  have h1 : Onward s s1 := ite (((h.bumpDec 1).videoEvent ..).markIncomplete ..) h
  have h2 : Onward s s2 := h1.setDec ..
  have h3 : Onward s s3 := (h2.bumpDec 1).setDecObj hn ln
  have h4 : Onward s s4 := (h3.videoEvent ..).arrive ..
  have h5 : Onward s s5 := ite (h4.setDec ..) h4
  have h6 : Onward s s6 := (h5.setDec ..).bumpDec 1
  exact ite h2 (ite (h5.setDec ..) (ite ((h6.videoEvent ..).finishFrame hn now) (ite (h5.setDec ..) h5)))

theorem sdiAnc (h : Onward s t) (hn : n < 256) (stream ln : Nat) (vertical : Bool) (off : Nat) (words : List Nat) (x now : Tick) :
    Onward s (t.sdiAnc n stream ln vertical off words x now) := by
  unfold State.sdiAnc
  extract_lets did sdid dc sum badSum badPar due s1 s2 v s3 s4
  have h1 : Onward s s1 := ite ((h.bumpDec 1).videoEvent ..) h
  have h2 : Onward s s2 := h1.arrive ..
  have h3 : Onward s s3 := h2.arrive ..
  have h4 : Onward s s4 := ite (ite h3 ((h3.setDecObj hn v).videoEvent ..)) h2
  exact ite (ite (h4.bumpDec 1) (h4.setDec ..)) h4

theorem sdiFilet (h : Onward s t) (ln : Nat) (luma chroma : List Nat) (now : Tick) : Onward s (t.sdiFilet n ln luma chroma now) := by
  have hword (r : Rec) : ∀ e ∈ [(Obj.coderCntFiletWords, (r.body.length - 8) / 8)], ¬ laneCounter e.1 := by
    rintro e he
    obtain rfl := List.mem_singleton.mp he
    exact not_laneCounter_coder _
  exact ite (foldl (fun _ hv r _ => hv.toVideo _ _ _ _ (hword r)) h) h

theorem presentItem (h : Onward s t) (c : CodeItem) (now : Tick) : Onward s (t.presentItem n c now) :=
  ite ((h.arrive ..).arrive ..) (h.arrive ..)

theorem presentLink (h : Onward s t) (now : Tick) (lanes fuel : Nat) : Onward s (t.presentLink n now lanes fuel) := by
  induction fuel generalizing t with
  | zero => exact h
  | succ fuel ih => exact ite h (ih (foldl (fun _ hv c _ => hv.presentItem c now) (h.setDec ..)))

theorem codeItem (h : Onward s t) (i : Nat) (c : CodeItem) (now : Tick) : Onward s (t.codeItem n i c now) :=
  ite (h.presentItem ..) (ite ((h.setDec ..).presentLink ..) (h.setDec ..))

theorem countBad (h : Onward s t) (hn : n < 256) (count : Nat) : Onward s (t.countBad n count) :=
  ite ((h.setDec ..).setDecObj hn 1) (h.setDec ..)

theorem decOut (h : Onward s t) (hn : n < 256) (i now : Nat) (e : DecOut) : Onward s (t.decOut n i now e) := by
  cases e with
  | acquired => exact ite (h.decSync hn now) h
  | lost open_ => exact ite (h.decLose hn ..) h
  | mark m => exact h
  | symbol stream v x => exact ite (h.arrive ..) h
  | item c => exact ite (h.codeItem ..) h
  | line ln f v present prev r prevV x => exact ite (h.sdiLine hn ..) h
  | eavEnd v => exact ite ((h.setDec ..).finishFrame hn now) h
  | firstActive x =>
    exact have hs := ite (h.videoEvent ..) h
      ite h (ite (hs.videoEvent ..) hs)
  | lineEnd ln bytes luma chroma at_ =>
    exact have hs := ite ((h.setDec ..).finishFrame hn now) h
      ite h (ite (hs.sdiFilet ..) hs)
  | trsErr stream ln x => exact ite (((h.bumpDec 1).videoEvent ..).markIncomplete ..) h
  | crcErr stream ln x => exact ite (((h.bumpDec 1).videoEvent ..).markIncomplete ..) h
  | anc stream ln vertical off words x => exact ite (h.sdiAnc hn ..) h
  | error kind x => exact ite (ite ((h.codeError ..).countBad hn 1) (h.codeError ..)) h
  | codeword bad k r => exact (((h.bumpDec 1).bumpDec _).bumpDec _).bumpDec _
  | frame f => exact ite (h.setDec ..) h

theorem decWord (h : Onward s t) (hn : n < 256) (i lane w stamp now : Nat) : Onward s (t.decWord n i lane w stamp now) := by
  unfold State.decWord
  dsimp only
  exact have hs := ite (h.setDecObj (i := 0x02) hn 1) h
    ite (ite hs (hs.decSync hn now)) (foldl (fun _ hv e _ => hv.decOut hn i now e) (hs.setDec ..))

end Onward

theorem State.linkLanes_headD_lt (s : State) (k : Nat) : (s.linkLanes k).headD 0 < 256 := by
  have hl : ∀ l ∈ s.linkLanes k, l < 256 := by
    intro l hl
    obtain ⟨i, -, rfl⟩ := List.mem_map.mp ((List.takeWhile_sublist _).mem hl)
    have hw : 8 * i + 7 + 1 - 8 * i = 8 := by omega
    simpa [bits, hw] using Nat.mod_lt (s.obj (Obj.linkLaneList k) >>> (8 * i)) (by decide : 0 < 256)
  cases h : s.linkLanes k with
  | nil => decide
  | cons a l => exact hl a (h ▸ List.mem_cons_self)

namespace Onward
variable {s t : State} {k : Nat}

theorem linkPresent (h : Onward s t) (i w stamp now : Nat) : Onward s (t.linkPresent k i w stamp now) :=
  (h.addWords 2 k i w (ofTick stamp) now).decWord (State.linkLanes_headD_lt t k) i ((t.linkLanes k).getD i 0) w stamp now

theorem linkState (h : Onward s t) (hk : k < 16) (state reason : Nat) :
    Onward s (t.setObjs [(Obj.linkLinkState k, state), (Obj.linkFailReason k, reason)]) := (h.setLinkObj hk state).setLinkObj hk reason

theorem linkLeave (h : Onward s t) (hk : k < 16) (state reason : Nat) (x cause : Tick) : Onward s (t.linkLeave k state reason x cause) :=
  linkState (ite ((h.setLnk ..).decLose (State.linkLanes_headD_lt _ k) ..) h) hk ..

theorem linkAlign (h : Onward s t) (hk : k < 16) (delays : List Nat) (x : Tick) : Onward s (t.linkAlign k delays x) := by
  unfold State.linkAlign
  extract_lets l ready s1
  have h1 : Onward s s1 := by
    unfold s1
    split
    · exact h.sourceGap ..
    · exact h
  exact (h1.setLnk ..).linkState hk ..

theorem linkSearch (h : Onward s t) (hk : k < 16) (x : Tick) : Onward s (t.linkSearch k x) := by
  unfold State.linkSearch
  dsimp only
  split
  · refine (foldl (fun v hv i hi => hv.setInt ?_ _) h).linkAlign hk ..
    have hi8 := (mem_upFrom.mp hi).2
    simp only [laneCounter, Obj.linkLaneSkew]
    omega
  · exact ite h ((h.setLnk ..).linkState hk ..)

theorem clearFinders (h : Onward s t) (l : List Nat) : Onward s (l.foldl (fun s n => s.setLane n { s.lane n with finder := {} }) t) :=
  foldl (fun _ hv n _ => hv.setFinder n _) h

theorem linkCheckSet (h : Onward s t) (hk : k < 16) (x : Tick) : Onward s (t.linkCheckSet k x) := by
  unfold State.linkCheckSet
  dsimp only
  split
  · exact h
  · have hs := h.setLinkObj (i := 0x05) hk (min (t.obj (Obj.linkMisalignCount k) + 1) (maxOf (Obj.linkMisalignCount k)))
    exact ite h (ite (h.setLnk ..) (ite (((hs.linkLeave hk ..).clearFinders _).setLnk ..) (hs.setLnk ..)))

theorem linkMarks (h : Onward s t) (hk : k < 16) (i lane w stamp : Nat) (x : Tick) : Onward s (t.linkMarks k i lane w stamp x) := by
  unfold State.linkMarks
  dsimp only
  exact have hs := (h.setFinder lane _).setLnk ..
    ite (hs.linkSearch hk x) (foldl (fun _ hv _ _ => hv.linkCheckSet hk x) hs)

theorem linkWord (h : Onward s t) (hk : k < 16) (lane w stamp now : Nat) : Onward s (t.linkWord k lane w stamp now) :=
  have hs := ite (h.linkPresent ..) (h.setLnk ..)
  ite (hs.linkMarks hk ..) hs

end Onward

/-! A lane's word (R140 to R145). -/

/-- A lane with its next word taken. -/
def Lane.withWord (x : Lane) (stamp now : Tick) : Lane :=
  { x with wordAt := some now, chain := some (match x.chain with
      | some (a, k, _) => (a, k + 1, stamp)
      | none => (stamp, 1, stamp)) }

/-- A locked lane's gap is closed by the word that follows it. -/
def State.closeLaneGap (s : State) (n stamp now : Nat) : State :=
  match (s.lane n).gap with
  | some (start, c) =>
    ((s.sourceGap 1 n 4 start stamp c now).arrive (now + 1) (.broken n true)).setLane n { s.lane n with gap := (s.lane n).gap2, gap2 := none }
  | none => s

/-- The state in which a word of a locked lane has been counted and has closed the gap before it. -/
def State.countWord (s : State) (n stamp : Nat) : State :=
  State.closeLaneGap ((s.bump (Obj.laneCntWords n) 1).setLane n ((s.lane n).withWord stamp s.tick)) n stamp s.tick

section
variable (s : State) (n stamp now : Nat)

theorem State.closeLaneGap_arrivals : (s.closeLaneGap n stamp now).arrivals
    = s.arrivals ++ (if (s.lane n).gap.isSome = true then [(now + 1, .broken n true)] else []) := by
  unfold State.closeLaneGap
  split
  · next start c h =>
    have hq := ((Aside.refl s).sourceGap 1 n 4 start stamp c now).arrivals
    simp [h, State.arrive, hq]
  · next h => simp [h]

theorem State.closeLaneGap_lane : (s.closeLaneGap n stamp now).lane n
    = if (s.lane n).gap.isSome = true then { s.lane n with gap := (s.lane n).gap2, gap2 := none } else s.lane n := by
  unfold State.closeLaneGap
  split
  · next h => simp [h]
  · next h => simp [h]

theorem State.closeLaneGap_counter {k : Nat} (hk : laneCounter k) : (s.closeLaneGap n stamp now).obj k = s.obj k := by
  unfold State.closeLaneGap
  split
  · next start c h => exact ((Aside.refl s).sourceGap 1 n 4 start stamp c now).counts k hk
  · rfl

theorem State.lane_lt_of_hasLane (h : s.hasLane n = true) : n < 32 := by
  have hv : n < lanesOf s.otp.variant := of_decide_eq_true h
  unfold lanesOf at hv
  split at hv
  · exact hv
  · split at hv <;> omega

theorem State.lane_lt_of_wordDue (hdue : s.wordDue n stamp = true) : n < 32 := by
  simp only [State.wordDue, Bool.and_eq_true] at hdue
  obtain ⟨⟨⟨-, hlane⟩, -⟩, -⟩ := hdue
  exact s.lane_lt_of_hasLane n hlane

/-- A word of a locked lane that is due: once it has been counted, the queues of the lane take it, it goes on its way, and the rest is the work of the link or
of the decoder. -/
theorem State.takeWord_onward (raw : Nat) (hdue : s.wordDue n stamp = true) (hlock : s.locked n = true) :
    ∃ u, Aside (s.countWord n stamp) u
      ∧ Onward (u.arrive (s.tick + 1) (.word n (s.wordOf n raw stamp) stamp (s.wordForm n).1 (s.wordForm n).2.1)) (s.takeWord n raw stamp) := by
  refine ⟨((s.countWord n stamp).sourceQueues 1 n).foldl (fun v q => v.addWord q 0 (s.wordOf n raw stamp) (ofTick stamp) s.tick) (s.countWord n stamp),
    (Aside.refl _).addWords .., ?_⟩
  have hn : n < 256 := (s.lane_lt_of_wordDue n stamp hdue).trans (by decide)
  unfold State.takeWord
  rw [if_neg (by simp [hdue])]
  simp only [hlock, Bool.true_or, if_true, Bool.not_true, Bool.false_eq_true, if_false]
  cases hg : (s.lane n).gap with
  | none =>
    simp only [State.countWord, State.closeLaneGap, State.lane_setLane_self, Lane.withWord, hg]
    exact .ite_of (fun hk => (Onward.refl _).linkWord hk ..) (fun _ => (Onward.refl _).decWord hn ..)
  | some e =>
    simp only [State.countWord, State.closeLaneGap, State.lane_setLane_self, Lane.withWord, hg]
    exact .ite_of (fun hk => (Onward.refl _).linkWord hk ..) (fun _ => (Onward.refl _).decWord hn ..)


/-! What the takeover of a word shows (R140 to R144). -/

section
variable {s n stamp} {raw : Nat} (hdue : s.wordDue n stamp = true) (hlock : s.locked n = true)
include hdue hlock

theorem State.takeWord_counts : Counted s (s.takeWord n raw stamp) (Obj.laneCntWords n) 1 := by
  obtain ⟨u, hu, ht⟩ := s.takeWord_onward n stamp raw hdue hlock
  have hk : laneCounter (Obj.laneCntWords n) := by
    have hn := s.lane_lt_of_wordDue n stamp hdue
    simp only [laneCounter, Obj.laneCntWords]
    omega
  calc (s.takeWord n raw stamp).obj (Obj.laneCntWords n)
      = u.obj (Obj.laneCntWords n) := ht.counts _ hk
    _ = (s.countWord n stamp).obj (Obj.laneCntWords n) := hu.counts _ hk
    _ = _ := by rw [State.countWord, State.closeLaneGap_counter _ _ _ _ hk]; simp [State.obj_bump]

/-- A lane's run of words, its gap and the tick of its last word after the word. -/
theorem State.takeWord_lane :
    let x := (s.lane n).withWord stamp s.tick
    ((s.takeWord n raw stamp).lane n).unfound = (if x.gap.isSome = true then { x with gap := x.gap2, gap2 := none } else x).unfound := by
  obtain ⟨u, hu, ht⟩ := s.takeWord_onward n stamp raw hdue hlock
  have harrive : ((u.arrive (s.tick + 1) (.word n (s.wordOf n raw stamp) stamp (s.wordForm n).1 (s.wordForm n).2.1)).lane n)
      = (s.countWord n stamp).lane n := by simp [State.lane, State.arrive, hu.lanes]
  rw [ht.lanes n, harrive, State.countWord, State.closeLaneGap_lane, State.lane_setLane_self]

theorem State.takeWord_arrivals :
    s.arrivals ++ (if (s.lane n).gap.isSome = true then [(s.tick + 1, .broken n true)] else [])
      ++ [(s.tick + 1, .word n (s.wordOf n raw stamp) stamp (s.wordForm n).1 (s.wordForm n).2.1)] <+: (s.takeWord n raw stamp).arrivals := by
  obtain ⟨u, hu, ht⟩ := s.takeWord_onward n stamp raw hdue hlock
  have harr : (s.countWord n stamp).arrivals = s.arrivals ++ (if (s.lane n).gap.isSome = true then [(s.tick + 1, .broken n true)] else []) := by
    rw [State.countWord, State.closeLaneGap_arrivals]
    simp [Lane.withWord]
  rw [← harr, ← hu.arrivals]
  exact ht.arrivals

end

/-- The number that `n` bits of a number make, from bit `lo` on. -/
theorem natOfBits_bits (n lo x : Nat) : natOfBits ((upFrom n lo).map (fun i => bit x i)) = (x >>> lo) % 2 ^ n := by
  induction n generalizing lo with
  | zero => simp [upFrom, natOfBits, Nat.mod_one]
  | succ n ih =>
    have hbit : ofBool (bit x lo) = (x >>> lo) % 2 := by
      rw [Nat.shiftRight_eq_div_pow, ← Nat.toNat_testBit, bit]
      cases x.testBit lo <;> rfl
    calc natOfBits ((upFrom (n + 1) lo).map (fun i => bit x i))
        = (x >>> lo) % 2 + 2 * ((x >>> lo) / 2 % 2 ^ n) := by
          simp only [upFrom, List.map_cons, natOfBits, ih, hbit, Nat.shiftRight_succ]
      _ = (x >>> lo) % 2 ^ (n + 1) := by rw [← Nat.mod_mul, Nat.pow_succ']

/-- NRZ bits of a lane whose POLARITY is 0 and has not changed stand as they were received (R139). -/
theorem State.wordOf_plain {raw : Nat} (hmode : (s.wordForm n).2.2 = 0) (hpol : s.flag (Obj.lanePolarity n) = false) (hpols : (s.lane n).pols = [])
    (hraw : raw < 2 ^ 64) : s.wordOf n raw stamp = raw := by
  simp only [State.wordOf, hmode, if_true, Lane.polarityAt, hpol, hpols, List.find?_nil, Option.map_none, Option.getD_none, Bool.bne_false]
  rw [natOfBits_bits, Nat.shiftRight_zero, Nat.mod_eq_of_lt hraw]

end

/-! The bad headers of a decoder's interval (R207). -/

section
variable (s : State) (n : Nat)

@[simp] theorem State.dec_setObj (k v : Nat) : (s.setObj k v).dec n = s.dec n := rfl

theorem execHiBerWindow_due (hn : n < 32) (hpers : s.obj (Obj.decPersonality n) = 2) (hsince : (s.dec n).badSince + 125000 ≤ s.tick) :
    execHiBerWindow n s = .next ((if (s.dec n).bad < 16 then s.setObj (Obj.decHiBer n) 0 else s).setDec n { s.dec n with bad := 0, badSince := s.tick }) := by
  have h : ¬ (32 ≤ n ∨ s.obj (Obj.decPersonality n) ≠ 2 ∨ s.tick < (s.dec n).badSince + 125000) := by
    rintro (h | h | h)
    · exact absurd hn (Nat.not_lt.mpr h)
    · exact h hpers
    · exact absurd hsince (Nat.not_le.mpr h)
  unfold execHiBerWindow
  rw [if_neg h]
  split <;> rfl

end

/-- Settles O27: a word of a locked lane goes through `takeWord_onward`; the rest is the wait of a second word and the decoder's interval. -/
theorem laneWordsArePassedOnAndErrorsWatched : Obligations.LaneWordsArePassedOnAndErrorsWatched := by
  unfold Obligations.LaneWordsArePassedOnAndErrorsWatched
  refine ⟨fun s n raw stamp hlater hat hrun hlane hlock => ?_, fun s n raw stamp hn hwait => ?_, fun s n hn hpers hsince => ?_⟩
  · rcases hform : s.wordForm n with ⟨num, den, mode⟩
    intro hfollows hdone
    have hdue : s.wordDue n stamp = true := by
      simp [State.wordDue, hform, hrun, hlane, hlock, hfollows, hdone]
    have hl := State.takeWord_lane (raw := raw) hdue hlock
    have harr := State.takeWord_arrivals (raw := raw) hdue hlock
    have hexec : exec (.laneWord n raw stamp ()) s = .next (s.takeWord n raw stamp) := by
      change execLaneWord n raw stamp () s = _
      simp [execLaneWord, hlater, hat]
    rw [hform] at harr
    refine ⟨_, hexec, (State.takeWord_kept (Kept.refl s) ..).tick, State.takeWord_counts hdue hlock, fun hgap2 => ?_, fun hchain => ?_, ?_, harr,
      fun hmode hpol hpols hraw => s.wordOf_plain n stamp (by rw [hform]; exact hmode) hpol hpols hraw⟩
    · refine (congrArg Lane.gap hl).trans ?_
      cases hgap : (s.lane n).gap <;> simp [Lane.withWord, Lane.unfound, hgap, hgap2]
    · refine (congrArg Lane.chain hl).trans ?_
      split <;> simp [Lane.withWord, Lane.unfound, hchain]
    · refine (congrArg Lane.wordAt hl).trans ?_
      split <;> rfl
  · change execLaneWord n raw stamp () s = _
    have h : (s.belongsLater (Parked.wordOf n) || (s.lane n).wordAt == some s.tick) = true := by simpa using hwait
    rw [execLaneWord, if_pos h, if_pos hn]
    rfl
  · change ∃ t, execHiBerWindow n s = .next t ∧ _
    rw [execHiBerWindow_due s n hn hpers hsince]
    refine ⟨_, rfl, ?_⟩
    split
    · exact ⟨rfl, fun k hk => State.obj_setObj_ne s 0 (by simpa using hk), by simp, fun m hm => by simp [State.dec_setDec, hm], by simp⟩
    · exact ⟨rfl, fun _ _ => rfl, by simp, fun m hm => by simp [State.dec_setDec, hm], by simp⟩

end Sys2Proof.Machine

namespace Sys2Proof.Machine

/-! The ports whose packets were taken in the open tick (R511). A tick begins with none, and only a packet that is taken adds its port: no stage of a
tick does. -/

section
variable (s : State)

@[simp] theorem State.ite_taken (c : Prop) [Decidable c] (a b : State) :
    (if c then a else b).taken = if c then a.taken else b.taken := apply_ite ..

@[simp] theorem State.foldl_taken {α : Type} (f : State → α → State) (hf : ∀ v x, (f v x).taken = v.taken) (l : List α) (s : State) :
    (l.foldl f s).taken = s.taken := by
  induction l generalizing s with
  | nil => rfl
  | cons x l ih => rw [List.foldl_cons, ih, hf]

@[simp] theorem State.foldl_fst_taken {α β : Type} (f : State × β → α → State × β) (hf : ∀ p x, (f p x).1.taken = p.1.taken)
    (l : List α) (p : State × β) :
    (l.foldl f p).1.taken = p.1.taken := by
  induction l generalizing p with
  | nil => rfl
  | cons x l ih => rw [List.foldl_cons, ih, hf]

/-! The state's operations, notifications and the journal. -/

@[simp] theorem State.setInt_taken (k : Key) (v : Int) : (s.setInt k v).taken = s.taken := by
  unfold State.setInt
  split <;> simp

@[simp] theorem State.setObjs_taken (l : List (Key × Nat)) : (s.setObjs l).taken = s.taken := by
  unfold State.setObjs
  refine State.foldl_taken _ (fun v x => ?_) ..
  rfl

@[simp] theorem State.fresh_taken : (s.fresh).2.taken = s.taken := (rfl)

@[simp] theorem State.await_taken (d : Due) : (s.await d).taken = s.taken := (rfl)

@[simp] theorem State.postpone_taken (p : Parked) : (s.postpone p).taken = s.taken := (rfl)

@[simp] theorem State.setMemBytes_taken (a : Nat) (data : Bytes) : (s.setMemBytes a data).taken = s.taken := by
  induction data generalizing s a with
  | nil => rfl
  | cons b l ih => exact ih ..

@[simp] theorem State.raise_taken (v : Nat) : (s.raise v).taken = s.taken := by
  simp [State.raise]

@[simp] theorem State.noteHost_taken (n : Note) : (s.noteHost n).taken = s.taken := by
  simp [State.noteHost]

@[simp] theorem State.noteSub_taken (n : Note) (k : Nat) : (s.noteSub n k).taken = s.taken := by
  simp [State.noteSub]

@[simp] theorem State.notify_taken (cls source detail : Nat) (t : Tick) : (s.notify cls source detail t).taken = s.taken := by
  unfold State.notify
  simp

@[simp] theorem State.jStore_taken (e : JEntry) : (s.jStore e).taken = s.taken := by
  exact (State.bump_taken ..).trans ((State.setObj_taken ..).trans (State.setObj_taken ..))

@[simp] theorem State.jWrite_taken (kind flags jseq : Nat) (t : Tick) (data2 data : Nat) : (s.jWrite kind flags jseq t data2 data).taken = s.taken := by
  simp [State.jWrite]

@[simp] theorem State.nextJseq_taken : (s.nextJseq).2.taken = s.taken := (rfl)

@[simp] theorem State.setDev_taken (d : Nat) (t : Tick) : (s.setDev d t).taken = s.taken := by
  simp [State.setDev]

/-! Pages, leases, staging and records of the queues. -/

@[simp] theorem State.notePeak_taken (q : Nat) : (s.notePeak q).taken = s.taken := (rfl)

@[simp] theorem State.putGroup_taken (q : Nat) (g : Group) (now : Tick) : (s.putGroup q g now).taken = s.taken := by
  unfold State.putGroup
  refine (State.foldl_taken _ (fun v e => ?_) ..).trans ?_
  · rfl
  · simp

@[simp] theorem State.closeLoss_taken (q : Nat) (now : Tick) : (s.closeLoss q now).taken = s.taken := by
  unfold State.closeLoss
  dsimp only
  split <;> simp

@[simp] theorem State.stage_taken (q : Nat) (g : Group) (now : Tick) : (s.stage q g now).taken = s.taken := by
  simp [State.stage]

@[simp] theorem State.endBlock_taken (q logical : Nat) (fails : List (Nat × Nat)) (now : Tick) : (s.endBlock q logical fails now).taken = s.taken := by
  unfold State.endBlock
  dsimp only
  (repeat' split) <;> simp

@[simp] theorem State.finishBlock_taken (q logical : Nat) (fails : List (Nat × Nat)) (now : Tick) :
    (s.finishBlock q logical fails now).taken = s.taken := by
  simp [State.finishBlock]

@[simp] theorem State.finishEdges_taken (q : Nat) (now : Tick) : (s.finishEdges q now).taken = s.taken := by
  unfold State.finishEdges
  dsimp only
  split <;> simp

@[simp] theorem State.finishAll_taken (q : Nat) (fails : List (Nat × Nat)) (now : Tick) : (s.finishAll q fails now).taken = s.taken := by
  simp [State.finishAll]

@[simp] theorem State.rearmLost_taken (q items : Nat) (first last now : Tick) : (s.rearmLost q items first last now).taken = s.taken := by
  simp [State.rearmLost]

@[simp] theorem State.deliverGroup_taken (q : Nat) (g : Group) (now : Tick) : (s.deliverGroup q g now).taken = s.taken := by
  simp [State.deliverGroup]

@[simp] theorem State.deliver_taken (q : Nat) (recs : List Rec) (items : Nat) (first last : SubTime) (now : Tick) (tally : List (Key × Nat)) :
    (s.deliver q recs items first last now tally).taken = s.taken := by
  simp [State.deliver]

@[simp] theorem State.control_taken (q cls : Nat) (r : Rec) : (s.control q cls r).taken = s.taken := (rfl)

@[simp] theorem State.controlNow_taken (q : Nat) (r : Rec) (now : Tick) : (s.controlNow q r now).taken = s.taken := by
  simp [State.controlNow]

@[simp] theorem State.fullBlock_taken (q logical : Nat) (fails : List (Nat × Nat)) (now : Tick) :
    (s.fullBlock q logical fails now).taken = s.taken := by
  unfold State.fullBlock
  split <;> simp

@[simp] theorem State.addWord_taken (q logical w : Nat) (t : SubTime) (now : Tick) : (s.addWord q logical w t now).taken = s.taken := by
  simp [State.addWord]

@[simp] theorem State.addItem_taken (q logical w : Nat) (t : SubTime) (fails : List (Nat × Nat)) (now : Tick) :
    (s.addItem q logical w t fails now).taken = s.taken := by
  simp [State.addItem]

@[simp] theorem State.fullBlocks_taken (fails : List (Nat × Nat)) (now : Tick) : (s.fullBlocks fails now).taken = s.taken := by
  simp [State.fullBlocks]

@[simp] theorem State.addEdge_taken (q chan : Nat) (lower level : Bool) (state : Nat) (t : SubTime) (now : Tick) :
    (s.addEdge q chan lower level state t now).taken = s.taken := by
  unfold State.addEdge
  dsimp only
  (repeat' split) <;> simp

@[simp] theorem State.openNow_taken (q cls : Nat) (t : Tick) : (s.openNow q cls t).taken = s.taken := by
  unfold State.openNow
  dsimp only
  (repeat' split) <;> simp

@[simp] theorem State.flushInbox_taken (q : Nat) (t : Tick) : (s.flushInbox q t).taken = s.taken := by
  simp [State.flushInbox]

@[simp] theorem State.freePage_taken (q : Nat) (p : Page) : (s.freePage q p).taken = s.taken := (rfl)

@[simp] theorem State.sweepPages_taken (q : Nat) (fuel : Nat) : (s.sweepPages q fuel).taken = s.taken := by
  induction fuel generalizing s with
  | zero => rfl
  | succ n ih =>
    unfold State.sweepPages
    dsimp only
    split
    · rw [ih, State.freePage_taken]
    · rfl

@[simp] theorem State.scrubMem_taken (a n : Nat) : (s.scrubMem a n).taken = s.taken := (rfl)

@[simp] theorem State.writeMem_taken (a : Nat) (b : Bytes) : (s.writeMem a b).taken = s.taken := by
  simp [State.writeMem]

@[simp] theorem State.storeMem_taken (a : Nat) (b : Bytes) : (s.storeMem a b).taken = s.taken := by
  unfold State.storeMem
  refine (State.foldl_taken _ (fun v c => ?_) ..).trans (State.writeMem_taken ..)
  rfl

@[simp] theorem State.closePage_taken (q : Nat) (p : Page) (next : Nat) (early : Bool) (now : Tick) :
    (s.closePage q p next early now).taken = s.taken := by
  simp [State.closePage]

@[simp] theorem State.closeSealed_taken (q : Nat) (now : Tick) : (s.closeSealed q now).taken = s.taken := by
  unfold State.closeSealed
  refine State.foldl_taken _ (fun v x => ?_) ..
  split <;> simp

@[simp] theorem State.sealPage_taken (q : Nat) (p : Page) (next : Nat) (early : Bool) (now : Tick) :
    (s.sealPage q p next early now).taken = s.taken := by
  simp [State.sealPage]

@[simp] theorem State.openPage_taken (q pfn : Nat) (now : Tick) : (s.openPage q pfn now).taken = s.taken := by
  unfold State.openPage
  dsimp only
  split <;> simp

@[simp] theorem State.openPast_taken (q pfn : Nat) (p : Past) (now : Tick) : (s.openPast q pfn p now).taken = s.taken := by
  unfold State.openPast
  dsimp only
  split <;> simp

@[simp] theorem State.stopCapture_taken (q reason : Nat) (t : Tick) (state : Nat) : (s.stopCapture q reason t state).taken = s.taken := by
  simp [State.stopCapture]

theorem State.allocPage_taken {s : State} {q pfn : Nat} {t : State} (h : s.allocPage q = some (pfn, t)) : t.taken = s.taken := by
  unfold State.allocPage at h
  extract_lets p held qmax committed limit cmm free recycle at h
  have hfree (hf : free = some (pfn, t)) : t.taken = s.taken := by
    obtain ⟨x, -, hx⟩ := Option.map_eq_some_iff.mp hf
    cases hx
    rfl
  have hrecycle (own : Bool) (hr : recycle own = some (pfn, t)) : t.taken = s.taken := by
    simp only [recycle] at hr
    split at hr
    · cases hr
      exact (State.sweepPages_taken ..).trans (State.bump_taken ..)
    · cases hr
  split at h
  · exact hrecycle _ h
  · split at h
    · exact hfree h
    · split at h
      · exact hfree h
      · split at h
        · exact hfree h
        · exact hrecycle _ h

@[simp] theorem State.countDropped_taken (q : Nat) (waiting : List Group) (loss : Option Loss) : (s.countDropped q waiting loss).taken = s.taken := by
  simp [State.countDropped]

@[simp] theorem State.dropWaiting_taken (q : Nat) (now : Tick) : (s.dropWaiting q now).taken = s.taken := by
  unfold State.dropWaiting
  dsimp only
  split <;> simp

@[simp] theorem State.dropPast_taken (q : Nat) (p : Past) (now : Tick) : (s.dropPast q p now).taken = s.taken := by
  unfold State.dropPast
  dsimp only
  split <;> simp

@[simp] theorem State.padStopped_taken (q : Nat) (now : Tick) : (s.padStopped q now).taken = s.taken := by
  simp [State.padStopped]

@[simp] theorem State.trimSegment_taken (q capture seg : Nat) (t : Tick) (fuel : Nat) : (s.trimSegment q capture seg t fuel).taken = s.taken := by
  induction fuel generalizing s with
  | zero => rfl
  | succ n ih =>
    unfold State.trimSegment
    dsimp only
    split <;> simp [ih]

@[simp] theorem State.trim_taken (q : Nat) (t : Tick) : (s.trim q t).taken = s.taken := by
  simp [State.trim]

@[simp] theorem State.endLease_taken (id : Nat) (consume revoked : Bool) : (s.endLease id consume revoked).taken = s.taken := by
  unfold State.endLease
  split <;> simp

@[simp] theorem State.resetHolder_taken (h : Nat) (t : Tick) : (s.resetHolder h t).taken = s.taken := (rfl)

theorem State.takeLease_taken {s : State} {holder q capture first count timeout : Nat} {expiryFree : Bool} {id : Nat} {t : State}
    (h : (s.takeLease holder q capture first count timeout expiryFree).1 = some (id, t)) : t.taken = s.taken := by
  unfold State.takeLease at h
  dsimp only at h
  split at h
  · cases h
  · split at h
    · cases h
    · cases h
      rfl

@[simp] theorem State.touchLease_taken (id : Nat) (t : Tick) : (s.touchLease id t).taken = s.taken := by
  unfold State.touchLease
  split <;> simp

@[simp] theorem State.countRead_taken (pfn off n : Nat) (first : Bool) : (s.countRead pfn off n first).taken = s.taken := by
  unfold State.countRead
  refine (State.foldl_taken _ (fun v c => ?_) ..).trans (State.foldl_taken _ (fun v e => ?_) ..) <;> rfl

/-! Triggers and segments of the queues. -/

@[simp] theorem State.takeTrigger_taken (a : TrigAct) (t : Tick) (q : Nat) : (s.takeTrigger a t q).taken = s.taken := by
  simp [State.takeTrigger]

@[simp] theorem State.markQueue_taken (q : Nat) (r : Rec) (t : Tick) : (s.markQueue q r t).taken = s.taken := by
  simp [State.markQueue]

@[simp] theorem State.takeStore_taken (a : TrigAct) (t : Tick) (q : Nat) : (s.takeStore a t q).taken = s.taken := by
  simp [State.takeStore]

@[simp] theorem State.takeAction_taken (t : Tick) (l : List TrigAct) (a : TrigAct) : (s.takeAction t l a).taken = s.taken := by
  simp [State.takeAction]

@[simp] theorem State.devSync_taken (t : Tick) : (s.devSync t).taken = s.taken := by
  simp [State.devSync]

@[simp] theorem State.takeAlloc_taken : (s.takeAlloc).taken = s.taken := by
  unfold State.takeAlloc
  dsimp only
  split
  · rfl
  · split
    · rfl
    · split
      · next h =>
        have hp := State.allocPage_taken h
        split <;> simp [hp]
      · (repeat' split) <;> simp

/-! The synthesisers and outputs. -/

@[simp] theorem State.clockOut_taken (u : Tick) (i : Nat) : (s.clockOut u i).taken = s.taken := by
  simp [State.clockOut]

@[simp] theorem State.clocksTick_taken (u : Tick) : (s.clocksTick u).taken = s.taken := by
  simp [State.clocksTick]

/-! Logic channels. -/

@[simp] theorem State.stateEst_taken (n reason sub state : Nat) (level lower : Bool) (t : Tick) :
    (s.stateEst n reason sub state level lower t).taken = s.taken := by
  simp [State.stateEst]

@[simp] theorem State.chanTick_taken (waves : Tab (List (Nat × Int))) (u : Tick) (n : Nat) : (s.chanTick waves u n).1.taken = s.taken := by
  simp [State.chanTick]

@[simp] theorem State.drainOne_taken (u : Tick) (n : Nat) : (s.drainOne u n).taken = s.taken := by
  unfold State.drainOne
  dsimp only
  (repeat' split) <;> simp

@[simp] theorem State.drainGroup_taken (u : Tick) (g : Nat) : (s.drainGroup u g).taken = s.taken := by
  have pass (l : List Nat) (x : State × Nat × Nat) : (l.foldl (fun (x : State × Nat × Nat) n =>
      if x.2.1 < 4 && (x.1.chan n).fifo ≠ [] then (x.1.drainOne u n, x.2.1 + 1, (n + 1) % 16) else x) x).1.taken = x.1.taken := by
    refine State.foldl_fst_taken _ (fun p n => ?_) ..
    split <;> simp
  unfold State.drainGroup
  dsimp only
  rw [pass, pass]

@[simp] theorem State.keepBalls_taken (waves : Tab (List (Nat × Int))) (g : Nat) : (s.keepBalls waves g).taken = s.taken := by
  unfold State.keepBalls
  refine State.foldl_taken _ (fun v x => ?_) ..
  split <;> simp

@[simp] theorem State.groupTick_taken (waves : Tab (List (Nat × Int))) (fails : List (Nat × Nat)) (u : Tick) (g : Nat) :
    (s.groupTick waves fails u g).taken = s.taken := by
  unfold State.groupTick
  simp

@[simp] theorem State.lcTick_taken (waves : List Wave) (fails : List (Nat × Nat)) (u : Tick) : (s.lcTick waves fails u).taken = s.taken := by
  simp [State.lcTick]

@[simp] theorem State.ballsOnly_taken (waves : List Wave) : (s.ballsOnly waves).taken = s.taken := by
  simp [State.ballsOnly]

@[simp] theorem State.joinFlags_taken : (s.joinFlags).taken = s.taken := by
  unfold State.joinFlags
  refine State.foldl_taken _ (fun v x => ?_) ..
  rfl

/-! Condition units, history and trigger pins. -/

@[simp] theorem State.unitTick_taken (here : List Arrival) (u : Tick) (n : Nat) : (s.unitTick here u n).taken = s.taken := by
  unfold State.unitTick
  dsimp only
  split <;> simp

@[simp] theorem State.showPins_taken (here : List Arrival) : (s.showPins here).taken = s.taken := by
  unfold State.showPins
  refine State.foldl_taken _ (fun v x => ?_) ..
  split <;> simp

@[simp] theorem State.unitsTick_taken (u : Tick) : (s.unitsTick u).taken = s.taken := by
  simp [State.unitsTick]

@[simp] theorem State.historyTick_taken (u : Tick) : (s.historyTick u).taken = s.taken := by
  simp [State.historyTick]

@[simp] theorem State.samplePins_taken (changes : List (Nat × Bool)) : (s.samplePins changes).taken = s.taken := by
  unfold State.samplePins
  rfl

/-! Line decoders. -/

@[simp] theorem State.arrive_taken (due : Tick) (a : Arrival) : (s.arrive due a).taken = s.taken := (rfl)

@[simp] theorem State.toVideo_taken (n : Nat) (recs : List Rec) (t now : Tick) (tally : List (Key × Nat)) :
    (s.toVideo n recs t now tally).taken = s.taken := by
  simp [State.toVideo]

@[simp] theorem State.videoEvent_taken (n kind ln sig : Nat) (incomplete : Bool) (detail : Nat) (t now : Tick) :
    (s.videoEvent n kind ln sig incomplete detail t now).taken = s.taken := by
  simp [State.videoEvent]

@[simp] theorem State.codeError_taken (n kind count logical : Nat) (t now : Tick) : (s.codeError n kind count logical t now).taken = s.taken := by
  simp [State.codeError]

@[simp] theorem State.tapSignature_taken (inst : Nat) (flow : Option Nat) (sig : Nat) (incomplete : Bool) (t : SubTime) :
    (s.tapSignature inst flow sig incomplete t).taken = s.taken := by
  simp [State.tapSignature]

@[simp] theorem State.signFrame_taken (n : Nat) (f : SdiFrame) (t : Tick) (lines : Nat) (now : Tick) :
    (s.signFrame n f t lines now).taken = s.taken := by
  simp [State.signFrame]

@[simp] theorem State.finishFrame_taken (n now : Tick) : (s.finishFrame n now).taken = s.taken := by
  unfold State.finishFrame
  dsimp only
  split <;> simp

@[simp] theorem State.decLose_taken (n reason : Nat) (t : Tick) (open_ : Bool) : (s.decLose n reason t open_).taken = s.taken := by
  unfold State.decLose
  dsimp only
  (repeat' split) <;> simp

@[simp] theorem State.decSync_taken (n now : Tick) : (s.decSync n now).taken = s.taken := by
  simp [State.decSync]

@[simp] theorem State.markIncomplete_taken (n i : Nat) (t : Tick) : (s.markIncomplete n i t).taken = s.taken := (rfl)

@[simp] theorem State.sdiLine_taken (n i ln : Nat) (f v : Bool) (prev : Option Nat) (prevV : Bool) (t now : Tick) :
    (s.sdiLine n i ln f v prev prevV t now).taken = s.taken := by
  simp [State.sdiLine]

@[simp] theorem State.linkCheck_taken (n now : Tick) : (s.linkCheck n now).taken = s.taken := by
  unfold State.linkCheck
  dsimp only
  split <;> simp

@[simp] theorem State.sdiAnc_taken (n stream ln : Nat) (vertical : Bool) (off : Nat) (words : List Nat) (t now : Tick) :
    (s.sdiAnc n stream ln vertical off words t now).taken = s.taken := by
  simp [State.sdiAnc]

@[simp] theorem State.releaseAnc_taken (n now : Tick) : (s.releaseAnc n now).taken = s.taken := by
  unfold State.releaseAnc
  dsimp only
  split <;> simp

@[simp] theorem State.sdiFilet_taken (n ln : Nat) (luma chroma : List Nat) (now : Tick) : (s.sdiFilet n ln luma chroma now).taken = s.taken := by
  simp [State.sdiFilet]

@[simp] theorem State.presentItem_taken (n : Nat) (c : CodeItem) (now : Tick) : (s.presentItem n c now).taken = s.taken := by
  simp [State.presentItem]

@[simp] theorem State.presentLink_taken (n now : Tick) (lanes : Nat) (fuel : Nat) : (s.presentLink n now lanes fuel).taken = s.taken := by
  induction fuel generalizing s with
  | zero => rfl
  | succ n ih =>
    unfold State.presentLink
    simp [ih]

@[simp] theorem State.codeItem_taken (n i : Nat) (c : CodeItem) (now : Tick) : (s.codeItem n i c now).taken = s.taken := by
  simp [State.codeItem]

@[simp] theorem State.countBad_taken (n count : Nat) : (s.countBad n count).taken = s.taken := by
  simp [State.countBad]

@[simp] theorem State.decOut_taken (n i now : Tick) (e : DecOut) : (s.decOut n i now e).taken = s.taken := by
  unfold State.decOut
  split <;> simp

@[simp] theorem State.decWord_taken (n i lane w stamp now : Nat) : (s.decWord n i lane w stamp now).taken = s.taken := by
  simp [State.decWord]

@[simp] theorem State.decTick_taken (u : Tick) : (s.decTick u).taken = s.taken := by
  simp [State.decTick]

/-! Lanes and links. -/

@[simp] theorem State.sourceGap_taken (kind src cause start stop items : Nat) (now : Tick) :
    (s.sourceGap kind src cause start stop items now).taken = s.taken := by
  simp [State.sourceGap]

@[simp] theorem State.linkPresent_taken (k i w stamp now : Nat) : (s.linkPresent k i w stamp now).taken = s.taken := by
  simp [State.linkPresent]

@[simp] theorem State.linkLeave_taken (k state reason : Nat) (t cause : Tick) : (s.linkLeave k state reason t cause).taken = s.taken := by
  simp [State.linkLeave]

@[simp] theorem State.linkAlign_taken (k : Nat) (delays : List Nat) (t : Tick) : (s.linkAlign k delays t).taken = s.taken := by
  unfold State.linkAlign
  dsimp only
  split <;> simp

@[simp] theorem State.linkSearch_taken (k : Nat) (t : Tick) : (s.linkSearch k t).taken = s.taken := by
  unfold State.linkSearch
  dsimp only
  split <;> simp

@[simp] theorem State.linkCheckSet_taken (k : Nat) (t : Tick) : (s.linkCheckSet k t).taken = s.taken := by
  have clear (v : State) (l : List Nat) : (l.foldl (fun s l => s.setLane l { s.lane l with finder := {} }) v).taken = v.taken := by
    refine State.foldl_taken _ (fun v x => ?_) ..
    rfl
  unfold State.linkCheckSet
  dsimp only
  split <;> simp [clear]

@[simp] theorem State.linkMarks_taken (k i lane w stamp : Nat) (t : Tick) : (s.linkMarks k i lane w stamp t).taken = s.taken := by
  simp [State.linkMarks]

@[simp] theorem State.linkWord_taken (k lane w stamp now : Nat) : (s.linkWord k lane w stamp now).taken = s.taken := by
  simp [State.linkWord]

@[simp] theorem State.linkTick_taken (u : Tick) : (s.linkTick u).taken = s.taken := by
  simp [State.linkTick]

@[simp] theorem State.takeWord_taken (lane raw stamp : Nat) : (s.takeWord lane raw stamp).taken = s.taken := by
  unfold State.takeWord
  dsimp only
  (repeat' split) <;> simp

@[simp] theorem State.setCodes_taken (n ctle : Nat) (dfe : List Int) : (s.setCodes n ctle dfe).taken = s.taken := by
  simp [State.setCodes]

@[simp] theorem State.adapt_taken (n : Nat) (m : LaneSense) : (s.adapt n m).taken = s.taken := by
  unfold State.adapt
  split <;> simp

@[simp] theorem State.laneTick_taken (l : List LaneSense) (u : Tick) : (s.laneTick l u).taken = s.taken := by
  simp [State.laneTick]

/-! Command ports. -/

@[simp] theorem State.keepCore_taken (i : Issuer) (k : Key) : (s.keepCore i k).taken = s.taken := by
  simp [State.keepCore]

@[simp] theorem State.deliverResp_taken (i : Issuer) (data : Bytes) : (s.deliverResp i data).taken = s.taken := by
  simp [State.deliverResp]

@[simp] theorem State.cachePut_taken (i : Issuer) (tag crc jseq : Nat) : (s.cachePut i tag crc jseq).taken = s.taken := (rfl)

@[simp] theorem State.cacheResp_taken (i : Issuer) (tag jseq : Nat) (r : Bytes) : (s.cacheResp i tag jseq r).taken = s.taken := (rfl)

@[simp] theorem State.setReport_taken (i : Issuer) (rep : List RepEntry) (jseq : Nat) : (s.setReport i rep jseq).taken = s.taken := by
  simp [State.setReport]

@[simp] theorem State.setError_taken (i : Issuer) (outs : List ObjOut) (status reason jseq : Nat) :
    (s.setError i outs status reason jseq).taken = s.taken := by
  simp [State.setError]

@[simp] theorem State.jConts_taken (jseq : Nat) (t : Tick) (fuel : Nat) (data : Bytes) : (s.jConts jseq t fuel data).taken = s.taken := by
  induction fuel generalizing s data with
  | zero => rfl
  | succ n ih =>
    unfold State.jConts
    simp [ih]

@[simp] theorem State.jValue_taken (jseq : Nat) (t : Tick) (o : ObjOut) : (s.jValue jseq t o).taken = s.taken := by
  unfold State.jValue
  split <;> simp

@[simp] theorem State.jOutcome_taken (jseq : Nat) (t : Tick) (status reason reports : Nat) (final : Bool) (outs : List ObjOut) :
    (s.jOutcome jseq t status reason reports final outs).taken = s.taken := by
  simp [State.jOutcome]

@[simp] theorem State.configStep_taken (i : Issuer) (status : Nat) : (s.configStep i status).taken = s.taken := by
  unfold State.configStep
  split <;> simp

@[simp] theorem State.finish_taken (l : Landing) (t : Tick) : (s.finish l t).taken = s.taken := by
  simp [State.finish]

@[simp] theorem State.turnAway_taken (i : Issuer) (op tag status reason : Nat) : (s.turnAway i op tag status reason).taken = s.taken := by
  simp [State.turnAway]

@[simp] theorem State.jHead_taken (i : Issuer) (p : Pkt) (slot jseq : Nat) : (s.jHead i p slot jseq).taken = s.taken := by
  simp [State.jHead]

@[simp] theorem State.admission_taken (i : Issuer) (p : Pkt) (fresh : Bool) : (s.admission i p fresh).1.taken = s.taken := by
  unfold State.admission
  dsimp only
  (repeat' split) <;> simp

@[simp] theorem State.endNow_taken (a : Accepted) (status reason : Nat) : (s.endNow a status reason).taken = s.taken := by
  simp [State.endNow]

/-! The host port. -/

@[simp] theorem State.mailTick_taken (u : Tick) : (s.mailTick u).taken = s.taken := by
  unfold State.mailTick
  dsimp only
  (repeat' split) <;> simp

@[simp] theorem State.bar2Fault_taken : (s.bar2Fault).taken = s.taken := by
  simp [State.bar2Fault]

@[simp] theorem State.takeBar2_taken (addr count : Nat) (entry : Bytes) : (s.takeBar2 addr count entry).taken = s.taken := by
  unfold State.takeBar2
  dsimp only
  (repeat' split) <;> simp

@[simp] theorem State.mute_taken (p : Issuer → Bool) : (s.mute p).taken = s.taken := (rfl)

@[simp] theorem State.dropTransfers_taken (p : Issuer → Bool) : (s.dropTransfers p).taken = s.taken := (rfl)

/-! Mailboxes and the lock. -/

@[simp] theorem State.lockTick_taken (u : Tick) : (s.lockTick u).taken = s.taken := by
  unfold State.lockTick
  extract_lets l s0 s1
  have h1 : s1.taken = s.taken := by
    unfold s1
    split
    · rfl
    · dsimp only
      split
      · rfl
      · split
        · exact (State.turnAway_taken ..).trans ((State.bump_taken ..).trans ((State.setObj_taken ..).trans (State.bump_taken ..)))
        · rfl
  split
  · exact h1
  · split
    · exact h1
    · exact h1

@[simp] theorem State.breakLock_taken (t : Tick) : (s.breakLock t).taken = s.taken := by
  simp [State.breakLock]

@[simp] theorem State.forget_taken (c : Nat) : (s.forget c).taken = s.taken := by
  simp [State.forget]

@[simp] theorem State.resetCore_taken (c kind state : Nat) (t : Tick) : (s.resetCore c kind state t).taken = s.taken := by
  simp [State.resetCore]

@[simp] theorem State.faultCore_taken (c kind : Nat) (t : Tick) : (s.faultCore c kind t).taken = s.taken := by
  simp [State.faultCore]

/-! Flows. -/

@[simp] theorem State.toQueues_taken (qs : List Nat) (recs : List Rec) (t now : Tick) (tally : List (Key × Nat)) :
    (s.toQueues qs recs t now tally).taken = s.taken := by
  simp [State.toQueues]

@[simp] theorem State.flowEvents_taken (n fid : Nat) (c : FlowCtx) (key : Bytes) (l : List FlowEv) (own : List Nat) (pkt : List Rec) (t now : Tick) :
    (s.flowEvents n fid c key l own pkt t now).taken = s.taken := by
  simp [State.flowEvents]

@[simp] theorem State.closeRow_taken (n fid : Nat) (c : FlowCtx) (now : Tick) : (s.closeRow n fid c now).taken = s.taken := by
  unfold State.closeRow
  split
  · rfl
  · refine State.foldl_taken _ (fun v k => ?_) ..
    refine (State.foldl_taken _ (fun v r => ?_) ..).trans (State.bump_taken ..)
    exact State.foldl_taken _ (fun v x => State.toQueues_taken ..) ..

@[simp] theorem State.flowFilet_taken (n fid : Nat) (p : Rtp) (frameEnd : Bool) (t now : Tick) :
    (s.flowFilet n fid p frameEnd t now).taken = s.taken := by
  simp [State.flowFilet]

@[simp] theorem State.unclassified_taken (n reason flags orig : Nat) (d : Bytes) (t now : Tick) :
    (s.unclassified n reason flags orig d t now).taken = s.taken := by
  unfold State.unclassified
  dsimp only
  split <;> simp

@[simp] theorem State.ptpFrame_taken (n flags orig : Nat) (d : Bytes) (t now : Tick) : (s.ptpFrame n flags orig d t now).taken = s.taken := by
  unfold State.ptpFrame
  dsimp only
  split <;> simp

@[simp] theorem State.flowHit_taken (n fid flags orig : Nat) (key d : Bytes) (p : Option Rtp) (t now : Tick) :
    (s.flowHit n fid flags orig key d p t now).taken = s.taken := by
  unfold State.flowHit
  extract_lets c isNew c1 st s1 s2 misbound s3 evs s4 s5 s6
  have h2 : s2.taken = s.taken := by
    unfold s2
    split
    · exact (State.bump_taken ..).trans ((State.setFlow_taken ..).trans (State.bump_taken ..))
    · exact (State.setFlow_taken ..).trans (State.bump_taken ..)
  have h4 : s4.taken = s.taken := (State.flowEvents_taken ..).trans ((State.bump_taken ..).trans h2)
  have h6 : s6.taken = s.taken := by
    unfold s6
    split
    · exact h4
    · exact (State.tapSignature_taken ..).trans ((State.toQueues_taken ..).trans ((State.arrive_taken ..).trans ((State.bump_taken ..).trans h4)))
  split
  · exact (State.flowFilet_taken ..).trans h6
  · exact h6

@[simp] theorem State.flowLookup_taken (n flags orig : Nat) (key payload d : Bytes) (t now : Tick) :
    (s.flowLookup n flags orig key payload d t now).taken = s.taken := by
  unfold State.flowLookup
  dsimp only
  (repeat' split) <;> simp

@[simp] theorem State.flowFrame_taken (n flags orig : Nat) (d : Bytes) (t now : Tick) : (s.flowFrame n flags orig d t now).taken = s.taken := by
  unfold State.flowFrame
  dsimp only
  (repeat' split) <;> simp

@[simp] theorem State.takeFrame_taken (n : Nat) : (s.takeFrame n).taken = s.taken := by
  unfold State.takeFrame
  split <;> simp

@[simp] theorem State.visitBucket_taken (n b : Nat) (now : Tick) : (s.visitBucket n b now).taken = s.taken := by
  unfold State.visitBucket
  dsimp only
  split <;> simp

@[simp] theorem State.tapBucket_taken (n b : Nat) : (s.tapBucket n b).taken = s.taken := by
  simp [State.tapBucket]

@[simp] theorem State.takeVisit_taken (n : Nat) : (s.takeVisit n).taken = s.taken := by
  simp [State.takeVisit]

/-! Export jobs. -/

@[simp] theorem State.jobEnded_taken (j : Nat) (notify : Bool) (port : Nat) (r : Bytes) (consumed produced : Nat) (t : Tick) :
    (s.jobEnded j notify port r consumed produced t).taken = s.taken := by
  simp [State.jobEnded]

@[simp] theorem State.jobUnlease_taken (j : Job) : (s.jobUnlease j).taken = s.taken := by
  unfold State.jobUnlease
  split <;> simp

@[simp] theorem State.jobLease_taken (ix : Nat) (j : Job) (q capture seq off left : Nat) :
    (s.jobLease ix j q capture seq off left).taken = s.taken := by
  unfold State.jobLease
  dsimp only
  split
  · rfl
  · split
    · next h =>
      have ht := State.takeLease_taken h
      exact ht
    · rfl

@[simp] theorem State.jobTick_taken (u : Tick) : (s.jobTick u).taken = s.taken := by
  unfold State.jobTick
  dsimp only
  (repeat' split) <;> simp

@[simp] theorem State.setShm_taken (a : Nat) (data : Bytes) : (s.setShm a data).taken = s.taken := by
  induction data generalizing s a with
  | nil => rfl
  | cons b l ih => exact ih ..

@[simp] theorem State.jobOutput_taken (j : Job) (o : Bytes) : (s.jobOutput j o).taken = s.taken := by
  simp [State.jobOutput]

@[simp] theorem State.jobClose_taken (ix : Nat) (j : Job) (slot : DeflSlot) (outcome consumed produced total crc : Nat) (t : Tick) :
    (s.jobClose ix j slot outcome consumed produced total crc t).taken = s.taken := by
  simp [State.jobClose]

@[simp] theorem State.jobFinish_taken (ix : Nat) (j : Job) (verifyFail destFail memError : Bool) (t : Tick) :
    (s.jobFinish ix j verifyFail destFail memError t).taken = s.taken := by
  unfold State.jobFinish
  dsimp only
  (repeat' split) <;> simp

/-! Bobbins. -/

@[simp] theorem State.loseEvent_taken (b : Nat) : (s.loseEvent b).taken = s.taken := (rfl)

@[simp] theorem State.writeEvent_taken (b level branch mask : Nat) (trigger notify : Bool) (kind lag : Nat) (t : Tick) :
    (s.writeEvent b level branch mask trigger notify kind lag t).taken = s.taken := by
  simp [State.writeEvent]

@[simp] theorem State.cntOp_taken (b j op : Nat) : (s.cntOp b j op).taken = s.taken := by
  unfold State.cntOp
  split <;> simp

@[simp] theorem State.tmrOp_taken (b j op : Nat) : (s.tmrOp b j op).taken = s.taken := by
  unfold State.tmrOp
  split <;> simp

@[simp] theorem State.queueCasc_taken (p code bb u : Nat) : (s.queueCasc p code bb u).taken = s.taken := by
  simp [State.queueCasc]

@[simp] theorem State.bbAct_taken (u : Nat) (d : Decision) : (s.bbAct u d).taken = s.taken := by
  unfold State.bbAct
  split <;> simp

@[simp] theorem State.bobbinsTick_taken (u : Nat) : (s.bobbinsTick u).taken = s.taken := by
  simp [State.bobbinsTick]

/-! Images and patches. -/

@[simp] theorem State.stageImage_taken (slot : Nat) (raw : Bytes) : (s.stageImage slot raw).1.taken = s.taken := by
  unfold State.stageImage
  dsimp only
  split <;> simp

@[simp] theorem State.noteLoad_taken (k : Key) (status : Nat) : (s.noteLoad k status).taken = s.taken := by
  simp [State.noteLoad]

/-! Storage and repair. -/

@[simp] theorem State.needRow_taken (i row : Nat) : (s.needRow i row).taken = s.taken := (rfl)

@[simp] theorem State.sramCorrected_taken (i word : Nat) : (s.sramCorrected i word).taken = s.taken := by
  unfold State.sramCorrected
  dsimp only
  (repeat' split) <;> simp

@[simp] theorem State.faultCause_taken (cause inst : Nat) : (s.faultCause cause inst).taken = s.taken := (rfl)

@[simp] theorem State.ownerHandles_taken (i word : Nat) (t : Tick) : (s.ownerHandles i word t).taken = s.taken := by
  unfold State.ownerHandles
  dsimp only
  (repeat' split) <;> simp

@[simp] theorem State.sramUncorrectable_taken (i word : Nat) (t : Tick) : (s.sramUncorrectable i word t).taken = s.taken := by
  simp [State.sramUncorrectable]

@[simp] theorem State.setFlips_taken (i word x : Nat) : (s.setFlips i word x).taken = s.taken := (rfl)

@[simp] theorem State.sramRead_taken (i word : Nat) (t : Tick) : (s.sramRead i word t).taken = s.taken := by
  unfold State.sramRead
  split <;> simp

@[simp] theorem State.sramUpset_taken (i word b : Nat) : (s.sramUpset i word b).taken = s.taken := by
  simp [State.sramUpset]

@[simp] theorem State.saveRead_taken (i word : Nat) : (s.saveRead i word).1.taken = s.taken := by
  unfold State.saveRead
  dsimp only
  split <;> simp

@[simp] theorem State.testRow_taken (i row : Nat) : (s.testRow i row).taken = s.taken := by
  simp [State.testRow]

@[simp] theorem State.saveWord_taken (b : Borrow) (k : Nat) : (s.saveWord b k).taken = s.taken := by
  simp [State.saveWord]

@[simp] theorem State.restoreWord_taken (b : Borrow) (k : Nat) : (s.restoreWord b k).taken = s.taken := by
  unfold State.restoreWord
  split <;> simp

@[simp] theorem State.borrowTick_taken (t : Tick) : (s.borrowTick t).taken = s.taken := by
  unfold State.borrowTick
  split <;> simp

@[simp] theorem State.sramTick_taken (inp : TickInput) (u : Tick) : (s.sramTick inp u).taken = s.taken := by
  simp [State.sramTick]

/-! Telemetry. -/

@[simp] theorem State.sweep_taken (ix : Nat) (w : Tick) : (s.sweep ix w).taken = s.taken := (rfl)

/-! Written entries. -/

@[simp] theorem State.stageCheck_taken (k : Key) (b : Bytes) (byTransfer : Bool) : (s.stageCheck k b byTransfer).1.taken = s.taken := by
  unfold State.stageCheck
  dsimp only
  (repeat' split) <;> simp

@[simp] theorem State.stage1_taken (a : Accepted) (o : ObjOut) (written : Val) : (s.stage1 a o written).1.taken = s.taken := by
  unfold State.stage1
  dsimp only
  (repeat' split) <;> simp

@[simp] theorem State.dropHeld_taken (port : Nat) (k : Key) (by_ : Nat) : (s.dropHeld port k by_).taken = s.taken := by
  unfold State.dropHeld
  dsimp only
  split <;> simp

@[simp] theorem State.takeHeld_taken (port : Nat) (k : Key) : (s.takeHeld port k).taken = s.taken := (rfl)

@[simp] theorem State.holdPair_taken (a : Accepted) (k : Key) (written : Val) : (s.holdPair a k written).taken = s.taken := by
  simp [State.holdPair]

@[simp] theorem State.begin1_taken (a : Accepted) (keys : List Key) (byTransfer : Bool) (k : Key) (b : Bytes) :
    (s.begin1 a keys byTransfer k b).1.taken = s.taken := by
  unfold State.begin1
  dsimp only
  (repeat' split) <;> simp

@[simp] theorem State.beginAll_taken (a : Accepted) (byTransfer : Bool) (l : List (Key × Bytes)) : (s.beginAll a byTransfer l).1.taken = s.taken := by
  simp [State.beginAll]

/-! WRITE and COMMIT. -/

@[simp] theorem State.writeCmd_taken (a : Accepted) (byTransfer : Bool) (l : List (Key × Bytes)) : (s.writeCmd a byTransfer l).taken = s.taken := by
  simp [State.writeCmd]

@[simp] theorem State.takeCommit_taken (a : Accepted) : (s.takeCommit a).taken = s.taken := by
  simp [State.takeCommit]

/-! The firmware's own commands. -/

@[simp] theorem State.ownPacket_taken (core : Nat) (raw : Bytes) (f : Accepted → State → State) (hf : ∀ a v, (f a v).taken = v.taken) :
    (s.ownPacket core raw f).taken = s.taken := by
  unfold State.ownPacket
  dsimp only
  split
  · rfl
  · split
    · next h => exact (congrArg (·.1.taken) h).symm.trans (State.admission_taken ..)
    · next h => exact (hf ..).trans ((congrArg (·.1.taken) h).symm.trans (State.admission_taken ..))

@[simp] theorem State.ownCommit_taken (core : Nat) : (s.ownCommit core).taken = s.taken := by
  simp [State.ownCommit]

@[simp] theorem State.ownWrites_taken (core : Nat) (l : List (Key × Bytes)) : (s.ownWrites core l).taken = s.taken := by
  simp [State.ownWrites]

@[simp] theorem State.configTick_taken : (s.configTick).taken = s.taken := by
  unfold State.configTick
  dsimp only
  (repeat' split) <;> simp

/-! The stages of a tick. -/

@[simp] theorem State.cmmTick_taken (fails : List (Nat × Nat)) (u : Tick) : (s.cmmTick fails u).taken = s.taken := by
  simp [State.cmmTick]

@[simp] theorem State.dataTick_taken (inp : TickInput) (u : Tick) : (s.dataTick inp u).taken = s.taken := by
  simp only [State.dataTick, State.laneTick_taken]
  simp

@[simp] theorem State.railRead_taken (k : Nat) (mv : Int) : (s.railRead k mv).taken = s.taken := by
  simp [State.railRead]

@[simp] theorem State.senseTick_taken (inp : TickInput) (u : Tick) : (s.senseTick inp u).taken = s.taken := by
  unfold State.senseTick
  split <;> simp

@[simp] theorem State.runParked_taken (p : Parked) : (s.runParked p).taken = s.taken := by
  unfold State.runParked
  split <;> simp

@[simp] theorem State.unpark_taken : (s.unpark).taken = s.taken := by
  simp [State.unpark]

end

end Sys2Proof.Machine

namespace Sys2Proof.Machine

/-! What the end of a command leaves as it is: the reading of the junction temperature, and the commands that wait for their end (R505, R716). -/

/-- The commands that end at the boundary, and those that another event ends. -/
def State.awaited (s : State) : List Landing × List (Wait × Landing) := (s.landing, s.deferred)

/-- TJ and the commands that wait for their end are in a state what they are in another. -/
structure Reported (s t : State) : Prop where
  tj : t.obj Obj.teleTj = s.obj Obj.teleTj
  awaited : t.awaited = s.awaited

namespace Reported
variable {s t u : State}

theorem refl (s : State) : Reported s s := ⟨rfl, rfl⟩

theorem trans (h : Reported s t) (g : Reported t u) : Reported s u := ⟨g.tj.trans h.tj, g.awaited.trans h.awaited⟩

theorem setObj (h : Reported s t) {k : Key} (v : Nat) (hk : k ≠ Obj.teleTj) : Reported s (t.setObj k v) :=
  h.trans ⟨State.obj_setObj_ne t v hk.symm, rfl⟩

/-- TJ has the sub-index 1: an object of another sub-index is another object. -/
theorem setSub (h : Reported s t) {ix i : Nat} (v : Nat) (hi : i < 256 ∧ i ≠ 1 := by decide) : Reported s (t.setObj (ix * 256 + i) v) :=
  h.setObj v (fun e => by have e' : ix * 256 + i = 0x6700 * 256 + 1 := e; omega)

theorem setDom (h : Reported s t) (k : Key) (v : Bytes) : Reported s (t.setDom k v) := h.trans ⟨rfl, rfl⟩

theorem emit (h : Reported s t) (o : Output) : Reported s (t.emit o) := h.trans ⟨rfl, rfl⟩

theorem setHost (h : Reported s t) (x : HostPort) : Reported s { t with host := x } := h.trans ⟨rfl, rfl⟩

theorem ite {a b : State} {c : Prop} [Decidable c] (ha : Reported s a) (hb : Reported s b) : Reported s (if c then a else b) := by
  split
  · exact ha
  · exact hb

theorem foldl {α : Type} {f : State → α → State} {l : List α} (hf : ∀ v, Reported s v → ∀ a, Reported s (f v a)) (h : Reported s t) :
    Reported s (l.foldl f t) := by
  induction l generalizing t with
  | nil => exact h
  | cons a l ih => exact ih (hf t h a)

theorem keepCore (h : Reported s t) (i : Issuer) (k : Key) : Reported s (t.keepCore i k) := ite (h.trans ⟨rfl, rfl⟩) h

theorem jStore (h : Reported s t) (e : JEntry) : Reported s (t.jStore e) := by
  have hpush (l : List JEntry) (p : JPace) : Reported s { t with journal := l, jPace := p } := h.trans ⟨rfl, rfl⟩
  exact (((hpush _ _).setObj (k := Obj.jnlNextEno) _ (by decide)).setObj (k := Obj.jnlOldestEno) _ (by decide)).setObj (k := Obj.jnlCntEntries) _
    (by decide)

theorem jWrite (h : Reported s t) (kind flags jseq : Nat) (x : Tick) (d2 d : Nat) : Reported s (t.jWrite kind flags jseq x d2 d) :=
  ite (h.jStore _) (h.trans ⟨rfl, rfl⟩)

theorem jConts (h : Reported s t) (jseq : Nat) (x : Tick) (f : Nat) (b : Bytes) : Reported s (t.jConts jseq x f b) := by
  induction f generalizing t b with
  | zero => exact h
  | succ f ih => exact ite h (ih (h.jWrite ..) _)

theorem jValue (h : Reported s t) (jseq : Nat) (x : Tick) (o : ObjOut) : Reported s (t.jValue jseq x o) := by
  unfold State.jValue
  split
  · exact h
  · exact ite (h.jWrite ..) ((h.jWrite ..).jConts ..)

theorem jOutcome (h : Reported s t) (jseq : Nat) (x : Tick) (status reason reports : Nat) (final : Bool) (outs : List ObjOut) :
    Reported s (t.jOutcome jseq x status reason reports final outs) :=
  ite h (foldl (fun _ hv _ => hv.jValue ..) (h.jWrite ..))

theorem setReport (h : Reported s t) (i : Issuer) (rep : List RepEntry) (jseq : Nat) : Reported s (t.setReport i rep jseq) :=
  ite h ((((h.setDom _ _).setSub _).keepCore ..).keepCore ..)

theorem setError (h : Reported s t) (i : Issuer) (outs : List ObjOut) (status reason jseq : Nat) : Reported s (t.setError i outs status reason jseq) :=
  ite h ((((h.setSub _).setSub _).keepCore ..).keepCore ..)

theorem deliverResp (h : Reported s t) (i : Issuer) (data : Bytes) : Reported s (t.deliverResp i data) := by
  have hraise {v : State} (hv : Reported s v) : Reported s (v.raise 0) := ite (hv.setHost _) ((hv.setHost _).emit _)
  exact ite h (ite (hraise ((h.setHost _).emit _)) (ite (h.emit _) (h.emit _)))

theorem turnAway (h : Reported s t) (i : Issuer) (op tag status reason : Nat) : Reported s (t.turnAway i op tag status reason) :=
  (h.setError ..).deliverResp ..

theorem cacheResp (h : Reported s t) (i : Issuer) (tag jseq : Nat) (r : Bytes) : Reported s (t.cacheResp i tag jseq r) := h.trans ⟨rfl, rfl⟩

theorem configStep (h : Reported s t) (i : Issuer) (status : Nat) : Reported s (t.configStep i status) := by
  unfold State.configStep
  split
  · exact h
  · exact ite (h.trans ⟨rfl, rfl⟩) h

theorem finish (h : Reported s t) (l : Landing) (x : Tick) : Reported s (t.finish l x) := by
  unfold State.finish
  dsimp only
  have hs (rep : List RepEntry) (st r n : Nat) := ((h.setReport l.iss rep l.jseq).setError l.iss l.outs st r l.jseq).jOutcome l.jseq x st r n l.final l.outs
  exact ite (hs ..) ((((hs ..).cacheResp ..).configStep ..).deliverResp ..)

end Reported

/-! The reading of the junction temperature, and what leaves it as it is (R716, R622). -/

/-- TJ reads in a state what it reads in another. -/
def SameTj (s t : State) : Prop := t.obj Obj.teleTj = s.obj Obj.teleTj

namespace SameTj
variable {s t u : State}

theorem refl (s : State) : SameTj s s := rfl

theorem trans (h : SameTj s t) (g : SameTj t u) : SameTj s u := Eq.trans g h

theorem setObj (h : SameTj s t) {k : Key} (v : Nat) (hk : k ≠ Obj.teleTj) : SameTj s (t.setObj k v) :=
  h.trans (State.obj_setObj_ne t v hk.symm)

/-- TJ has the sub-index 1: an object of another sub-index is another object. -/
theorem setSub (h : SameTj s t) {ix i : Nat} (v : Nat) (hi : i < 256 ∧ i ≠ 1 := by decide) : SameTj s (t.setObj (ix * 256 + i) v) :=
  h.setObj v (fun e => by have e' : ix * 256 + i = 0x6700 * 256 + 1 := e; omega)

theorem setInt (h : SameTj s t) {k : Key} (v : Int) (hk : k ≠ Obj.teleTj) : SameTj s (t.setInt k v) := by
  unfold State.setInt
  split
  · exact h.setObj _ hk
  · exact h

theorem ite {a b : State} {c : Prop} [Decidable c] (ha : SameTj s a) (hb : SameTj s b) : SameTj s (if c then a else b) := by
  split
  · exact ha
  · exact hb

theorem foldl {α : Type} {f : State → α → State} {l : List α} (hf : ∀ v, SameTj s v → ∀ a, SameTj s (f v a)) (h : SameTj s t) :
    SameTj s (l.foldl f t) := by
  induction l generalizing t with
  | nil => exact h
  | cons a l ih => exact ih (hf t h a)

theorem ite_fst {β : Type} {a b : State × β} {c : Prop} [Decidable c] (ha : SameTj s a.1) (hb : SameTj s b.1) :
    SameTj s (if c then a else b).1 := by
  split
  · exact ha
  · exact hb

theorem foldl_fst {α β : Type} {f : State × β → α → State × β} {l : List α} {r : State × β} (hf : ∀ v, SameTj s v.1 → ∀ a, SameTj s (f v a).1)
    (h : SameTj s r.1) : SameTj s (l.foldl f r).1 := by
  induction l generalizing r with
  | nil => exact h
  | cons a l ih => exact ih (hf r h a)

theorem jWrite (h : SameTj s t) (kind flags jseq : Nat) (x : Tick) (d2 d : Nat) : SameTj s (t.jWrite kind flags jseq x d2 d) :=
  h.trans ((Reported.refl t).jWrite ..).tj

theorem deliverResp (h : SameTj s t) (i : Issuer) (data : Bytes) : SameTj s (t.deliverResp i data) := h.trans ((Reported.refl t).deliverResp ..).tj

theorem turnAway (h : SameTj s t) (i : Issuer) (op tag status reason : Nat) : SameTj s (t.turnAway i op tag status reason) :=
  h.trans ((Reported.refl t).turnAway ..).tj

theorem finish (h : SameTj s t) (l : Landing) (x : Tick) : SameTj s (t.finish l x) := h.trans ((Reported.refl t).finish ..).tj

theorem await (h : SameTj s t) (d : Due) : SameTj s (t.await d) := h

theorem setPort (h : SameTj s t) (p : Nat) (x : PortState) : SameTj s (t.setPort p x) := h

theorem endNow (h : SameTj s t) (a : Accepted) (status reason : Nat) : SameTj s (t.endNow a status reason) := h.finish ..

/-- A command of a core: its port is 2. -/
theorem admission (h : SameTj s t) {i : Issuer} (hi : i.port = 2) (p : Pkt) (fresh : Bool) : SameTj s (t.admission i p fresh).1 := by
  have haccept : SameTj s (t.bump (Obj.portCntAccepted i.port) 1) := by
    rw [hi]
    exact h.setObj _ (by decide)
  have hput (tag crc jseq : Nat) : SameTj s ((t.bump (Obj.portCntAccepted i.port) 1).cachePut i tag crc jseq) := haccept
  unfold State.admission
  dsimp only
  refine ite_fst ((h.setSub _).turnAway ..) (ite_fst ((h.setSub _).turnAway ..) ?_)
  split
  · refine ite_fst ?_ ((h.setSub _).turnAway ..)
    split
    · exact (h.setSub _).deliverResp ..
    · exact h
  · refine ite_fst ((h.setSub _).turnAway ..) ?_
    have hhead {v : State} (hv : SameTj s v) (slot : Nat) : SameTj s (v.nextJseq.2.jHead i p slot v.nextJseq.1) :=
      (hv.setObj (k := Obj.jnlLastJseq) _ (by decide)).jWrite ..
    have huse {v : State} (hv : SameTj s v) (k c x : Nat) (y : Session) :
        SameTj s (((v.setSession k y).setObj (Obj.sessLastCounter k) c).setObj (Obj.sessLastUseTick k) x) :=
      (SameTj.setSub (t := v.setSession k y) hv c).setSub x
    cases (if p.trailer = [] then none else t.checkTrailer i p) with
    | none => exact ite_fst (hhead (hput ..) _) (hput ..)
    | some k => exact ite_fst (hhead (huse (hput ..) ..) _) (huse (hput ..) ..)

theorem ownPacket (h : SameTj s t) (core : Nat) (raw : Bytes) {f : Accepted → State → State} (hf : ∀ a v, SameTj s v → SameTj s (f a v)) :
    SameTj s (t.ownPacket core raw f) := by
  unfold State.ownPacket
  dsimp only
  split
  · exact h
  · next p _ =>
    have ha := h.admission (i := { port := 2, core := core }) rfl p true
    split
    · next e => rwa [e] at ha
    · next e => rw [e] at ha; exact hf _ _ ha

theorem takeCommit (h : SameTj s t) (a : Accepted) : SameTj s (t.takeCommit a) :=
  ite (h.endNow ..) (ite (h.endNow ..) (ite (h.endNow ..) (ite (h.endNow ..) (ite (h.endNow ..) (h.setPort ..)))))

theorem noteLoad (h : SameTj s t) (k : Key) (status : Nat) : SameTj s (t.noteLoad k status) := ite (h.setSub status) h

theorem stageImage (h : SameTj s t) (slot : Nat) (raw : Bytes) : SameTj s (t.stageImage slot raw).1 := by
  unfold State.stageImage
  dsimp only
  split
  · exact (h.setSub (ix := 0x3810 + slot) (i := 9) _).setSub (ix := 0x3810 + slot) (i := 10) _
  · exact h.setSub _

theorem stageCheck (h : SameTj s t) (k : Key) (b : Bytes) (byTransfer : Bool) : SameTj s (t.stageCheck k b byTransfer).1 := by
  unfold State.stageCheck
  dsimp only
  split
  · exact h
  · split
    · split
      · exact h.stageImage ..
      · exact h
    · split
      · exact h
      · split <;> exact h

theorem stage1 (h : SameTj s t) (a : Accepted) (o : ObjOut) (written : Val) : SameTj s (t.stage1 a o written).1 := by
  unfold State.stage1
  split
  · exact h
  · exact ite_fst h h

theorem holdPair (h : SameTj s t) (a : Accepted) (k : Key) (written : Val) : SameTj s (t.holdPair a k written) := by
  have hdrop (p : Nat) (b : Nat) : SameTj s (t.dropHeld p k b) := by
    unfold State.dropHeld
    dsimp only
    split <;> exact h
  exact hdrop ..

theorem begin1 (h : SameTj s t) (a : Accepted) (keys : List Key) (byTransfer : Bool) (k : Key) (b : Bytes) :
    SameTj s (t.begin1 a keys byTransfer k b).1 := by
  have hcheck := h.stageCheck k b byTransfer
  unfold State.begin1
  dsimp only
  split
  · have hstage : SameTj s (if ((t.stageCheck k b byTransfer).2.fill (writtenVal k b)).applies = true
        then (t.stageCheck k b byTransfer).1.stage1 a ((t.stageCheck k b byTransfer).2.fill (writtenVal k b)) (writtenVal k b)
        else ((t.stageCheck k b byTransfer).1, (t.stageCheck k b byTransfer).2.fill (writtenVal k b))).1 := by
      split
      · exact hcheck.stage1 ..
      · exact hcheck
    exact ite (hstage.noteLoad ..) hstage
  · refine ite_fst h ?_
    split
    · exact h
    · refine ite_fst h ?_
      split
      · exact h
      · exact h.holdPair ..

theorem beginAll (h : SameTj s t) (a : Accepted) (byTransfer : Bool) (l : List (Key × Bytes)) : SameTj s (t.beginAll a byTransfer l).1 :=
  foldl_fst (fun _ hv _ => hv.begin1 ..) h

theorem writeCmd (h : SameTj s t) (a : Accepted) (byTransfer : Bool) (l : List (Key × Bytes)) : SameTj s (t.writeCmd a byTransfer l) := by
  have hbegin := h.beginAll a byTransfer l
  unfold State.writeCmd
  dsimp only
  exact ite (h.endNow ..) (ite h (ite (hbegin.finish ..) (ite (ite (hbegin.finish ..) (hbegin.finish ..)) hbegin)))

theorem configTick (h : SameTj s t) : SameTj s t.configTick := by
  have hcommit (v : State) (hv : SameTj s v) : SameTj s (v.ownCommit 0) :=
    SameTj.ownPacket (t := v.fresh.2) hv _ _ (fun a _ hw => hw.takeCommit a)
  have hwrites (v : State) (hv : SameTj s v) (l : List (Key × Bytes)) : SameTj s (v.ownWrites 0 l) :=
    SameTj.ownPacket (t := v.fresh.2) hv _ _ (fun a _ hw => hw.writeCmd a false l)
  have hflash (x : Flash) : SameTj s { t with flash := x } := h
  unfold State.configTick
  split
  · exact h
  · refine ite h ?_
    dsimp only
    split
    · exact ite ((hflash _).setObj _ (by decide)) (hcommit _ (hflash _))
    · exact ite (hcommit _ (hflash _)) (hwrites _ (hflash _) _)

end SameTj
end Sys2Proof.Machine

namespace Sys2Proof.Machine

/-! The pace of the journal (R560). -/

section
variable (s : State)

theorem State.jStore_jPace (e : JEntry) : (s.jStore e).jPace = { s.jPace with count := s.jPace.count + 1 } :=
  (State.bump_jPace ..).trans ((State.setObj_jPace ..).trans (State.setObj_jPace ..))

theorem State.jStore_journal (e : JEntry) : (s.jStore e).journal = (e :: s.journal).take 65536 :=
  (State.bump_journal ..).trans ((State.setObj_journal ..).trans (State.setObj_journal ..))

theorem State.foldl_jStore_jPace (l : List JEntry) : (l.foldl State.jStore s).jPace = { s.jPace with count := s.jPace.count + l.length } := by
  induction l generalizing s with
  | nil => rfl
  | cons e l ih => rw [List.foldl_cons, ih, State.jStore_jPace, List.length_cons, Nat.add_assoc, Nat.add_comm 1]

/-- Entries that are written stand in the journal, as do those of the journal that they leave room for. -/
theorem State.mem_foldl_jStore_journal (l : List JEntry) {e : JEntry} {n : Nat} (hn : n + l.length = 65536) (he : e ∈ l ∨ e ∈ s.journal.take n) :
    e ∈ (l.foldl State.jStore s).journal := by
  induction l generalizing s n with
  | nil =>
    rcases he with he | he
    · cases he
    · exact List.mem_of_mem_take he
  | cons a l ih =>
    rw [List.length_cons] at hn
    have hn' : n + 1 + l.length = 65536 := by omega
    have hmin : min (n + 1) 65536 = n + 1 := Nat.min_eq_left (by omega)
    rw [List.foldl_cons]
    refine ih (s.jStore a) hn' ?_
    rw [State.jStore_journal, List.take_take, hmin, List.take_succ_cons, List.mem_cons]
    rcases he with he | he
    · rcases List.mem_cons.mp he with rfl | he
      · exact .inr (.inl rfl)
      · exact .inl he
    · exact .inr (.inr he)

/-- The journal that opens a tick (R560). -/
theorem State.jTick_jPace : s.jTick.jPace = { count := min 16 s.jPace.wait.length, wait := s.jPace.wait.drop 16 } := by
  unfold State.jTick
  rw [State.foldl_jStore_jPace]
  simp

theorem State.mem_jTick_journal {e : JEntry} (he : e ∈ s.jPace.wait.take 16) : e ∈ s.jTick.journal :=
  have hlen : (s.jPace.wait.take 16).length ≤ 65536 := (List.length_take_le ..).trans (by decide)
  State.mem_foldl_jStore_journal _ _ (Nat.sub_add_cancel hlen) (.inl he)

theorem State.jWrite_jPace_jLatest (kind flags jseq : Nat) (t : Tick) (d2 d : Nat) (h : s.jPace.count ≤ 16) :
    (s.jWrite kind flags jseq t d2 d).jPace.count ≤ 16
      ∧ (s.jWrite kind flags jseq t d2 d).jLatest = some ⟨s.jNextEno, jseq, t, kind, flags, d2, d⟩ := by
  unfold State.jWrite
  dsimp only
  split
  · next hp =>
    obtain ⟨hwait, hcount⟩ := hp
    rw [State.jLatest, State.jStore_jPace, State.jStore_journal]
    exact ⟨hcount, by simp [hwait]⟩
  · exact ⟨h, by simp [State.jLatest]⟩

end

/-! What a tick does with the commands that wait for their end (R505, R513). -/

section
variable (s : State)

theorem State.foldl_awaited {α : Type} (f : State → α → State) (hf : ∀ v x, (f v x).awaited = v.awaited) (l : List α) (s : State) :
    (l.foldl f s).awaited = s.awaited := by
  induction l generalizing s with
  | nil => rfl
  | cons x l ih => rw [List.foldl_cons, ih, hf]

theorem State.jTick_awaited : s.jTick.awaited = s.awaited :=
  State.foldl_awaited State.jStore (fun v e => ((Reported.refl v).jStore e).awaited) _ _

theorem State.sweepPages_awaited (q n : Nat) : (s.sweepPages q n).awaited = s.awaited := by
  induction n generalizing s with
  | zero => rfl
  | succ n ih =>
    unfold State.sweepPages
    dsimp only
    split
    · rw [ih]
      rfl
    · rfl

theorem State.revoke_awaited (id : Nat) : (s.revoke id).awaited = s.awaited := by
  have hend (consume revoked : Bool) : (s.endLease id consume revoked).awaited = s.awaited := by
    unfold State.endLease
    split
    · rfl
    · exact State.sweepPages_awaited ..
  unfold State.revoke
  split
  · exact hend ..
  · rfl

theorem State.revokeGone_awaited (u : Tick) : (s.revokeGone u).awaited = s.awaited :=
  State.foldl_awaited _ (fun v _ => State.foldl_awaited _ (fun w _ => State.revoke_awaited w _) _ v) _ _

/-- One of the commands whose effects took place at the boundary that opens tick u. -/
def State.landed (u : Tick) (s : State) (l : Landing) : State :=
  match l.waits with
  | some w => { s with deferred := s.deferred ++ [(w, l)] }
  | none => s.finish l u

theorem State.flushLanding_eq (u : Tick) : s.flushLanding u = s.landing.foldl (State.landed u) { s with landing := [] } := rfl

theorem State.landed_kept {s0 : State} (h : Kept s0 s) (u : Tick) (l : Landing) : Kept s0 (s.landed u l) := by
  unfold State.landed
  split
  · exact Kept.upd _ h
  · exact State.finish_kept h ..

/-- A command that another event ends goes on waiting; the boundary ends the others. -/
theorem State.foldl_landed_awaited (u : Tick) (l : List Landing) : (l.foldl (State.landed u) s).awaited
    = (s.landing, s.deferred ++ l.filterMap (fun l => l.waits.map (fun w => (w, l)))) := by
  induction l generalizing s with
  | nil => simp [State.awaited]
  | cons l ls ih =>
    rw [List.foldl_cons, ih, State.landed]
    split
    · next w hw => simp [hw]
    · next hw =>
      obtain ⟨hl, hd⟩ := Prod.mk.inj ((Reported.refl s).finish l u).awaited
      simp [hw, hl, hd]

theorem State.openTick_awaited (u : Tick) : (s.openTick u).awaited
    = ([], s.deferred ++ s.landing.filterMap (fun l => l.waits.map (fun w => (w, l)))) := by
  obtain ⟨hl, hd⟩ := Prod.mk.inj s.jTick_awaited
  refine (State.revokeGone_awaited (s.jTick.flushLanding u) u).trans ?_
  rw [State.flushLanding_eq, State.foldl_landed_awaited, hl, hd]

/-- A command that the boundary ends is answered. -/
theorem State.finish_responds (l : Landing) (t : Tick) (hop : l.op ≠ 0) (hslot : l.iss.slot ≤ 15) : ∃ r, Output.response l.iss r ∈ (s.finish l t).out := by
  have hdeliver (v : State) (b : Bytes) : ∃ r, Output.response l.iss r ∈ (v.deliverResp l.iss b).out := by
    unfold State.deliverResp
    split
    · next h => exact absurd h (Nat.not_lt.mpr hslot)
    split
    · exact ⟨b, (State.raise_kept (Kept.refl _) 0).out.subset (List.mem_append_right _ List.mem_cons_self)⟩
    · split
      · exact ⟨vdpHeader 2 ++ b, List.mem_append_right _ List.mem_cons_self⟩
      · exact ⟨b, List.mem_append_right _ List.mem_cons_self⟩
  unfold State.finish
  dsimp only
  rw [if_neg hop]
  exact hdeliver ..

theorem State.foldl_landed_responds (u : Tick) (ls : List Landing) {l : Landing} (hl : l ∈ ls) (hw : l.waits = none) (hop : l.op ≠ 0)
    (hslot : l.iss.slot ≤ 15) : ∃ r, Output.response l.iss r ∈ (ls.foldl (State.landed u) s).out := by
  induction ls generalizing s with
  | nil => cases hl
  | cons a ls ih =>
    rcases List.mem_cons.mp hl with rfl | hl
    · obtain ⟨r, hr⟩ := s.finish_responds l u hop hslot
      have hland : s.landed u l = s.finish l u := by simp [State.landed, hw]
      refine ⟨r, (Kept.foldl _ ls (Kept.refl (s.landed u l)) (fun v _ hv => State.landed_kept v hv u _)).out.subset ?_⟩
      rwa [hland]
    · exact ih _ hl

theorem State.openTick_responds (u : Tick) {l : Landing} (hl : l ∈ s.landing) (hw : l.waits = none) (hop : l.op ≠ 0) (hslot : l.iss.slot ≤ 15) :
    ∃ r, Output.response l.iss r ∈ (s.openTick u).out := by
  obtain ⟨hland, -⟩ := Prod.mk.inj s.jTick_awaited
  obtain ⟨r, hr⟩ := State.foldl_landed_responds { s.jTick with landing := [] } u s.jTick.landing (hland ▸ hl) hw hop hslot
  exact ⟨r, (State.revokeGone_kept (Kept.refl (s.jTick.flushLanding u)) u).out.subset hr⟩

end
end Sys2Proof.Machine

namespace Sys2Proof.Machine

/-! What acts before SYN-T has locked (R75, R79, R92, R370). -/

section
variable (s : State)

theorem State.foldl_pfd (l : List Nat) : ∃ y, l.foldl State.pfd s = { s with syn := y } := by
  induction l generalizing s with
  | nil => exact ⟨s.syn, rfl⟩
  | cons i l ih =>
    obtain ⟨y, hy⟩ : ∃ y, s.pfd i = { s with syn := y } := by
      unfold State.pfd
      split
      · exact ⟨s.syn, rfl⟩
      · exact ⟨_, rfl⟩
    obtain ⟨z, hz⟩ := ih (s.pfd i)
    exact ⟨z, by rw [List.foldl_cons, hz, hy]⟩

theorem State.setMemBytes_mem (a : Nat) (b : Bytes) : ∃ m, s.setMemBytes a b = { s with mem := m } := by
  induction b generalizing s a with
  | nil => exact ⟨s.mem, rfl⟩
  | cons x b ih =>
    obtain ⟨m, hm⟩ := ih (s.setMem a x) (a + 1)
    exact ⟨m, hm⟩

theorem State.foldl_upsetMem (l : List (Nat × Bool)) :
    ∃ m f y, l.foldl (fun s e => s.upsetMem e.1 e.2) s = { s with mem := m, memBad := f, free := y } := by
  induction l generalizing s with
  | nil => exact ⟨s.mem, s.memBad, s.free, rfl⟩
  | cons e l ih =>
    obtain ⟨m, f, y, h⟩ : ∃ m f y, s.upsetMem e.1 e.2 = { s with mem := m, memBad := f, free := y } := by
      unfold State.upsetMem
      split
      · exact ⟨s.mem, _, s.free, rfl⟩
      · obtain ⟨m, hm⟩ := State.setMemBytes_mem s.fresh.2 (64 * e.1) (le 64 s.fresh.1)
        dsimp only
        rw [hm]
        exact ⟨m, _, _, rfl⟩
    obtain ⟨m', f', y', h'⟩ := ih (s.upsetMem e.1 e.2)
    exact ⟨m', f', y', by rw [List.foldl_cons, h', h]⟩

/-- The clocks' input changes the synthesisers, the fence's count, the cells that fail, the FIFO bits and, in trained memory, the bursts that come to hold
errors. -/
theorem State.clockInput_eq (inp : TickInput) : ∃ y m f z, s.clockInput inp = { s.bump Obj.synTTickFenceCount inp.fences with
      syn := y, otp := { s.otp with defects := s.otp.defects ++ inp.defects }, hoopFlips := s.hoopFlips ++ inp.hoopFlips, mem := m, memBad := f, free := z }
    ∧ (s.obj Obj.cmmMemState ≠ 2 → m = s.mem ∧ f = s.memBad ∧ z = s.free) := by
  obtain ⟨y, hy⟩ := s.foldl_pfd inp.pfd
  have hstate : (({ s with syn := y } : State).bump Obj.synTTickFenceCount inp.fences).obj Obj.cmmMemState = s.obj Obj.cmmMemState :=
    State.obj_setObj_ne _ _ (by decide)
  unfold State.clockInput
  rw [hy]
  dsimp only
  rw [hstate]
  split
  · next h =>
    obtain ⟨m, f, z, hf⟩ := State.foldl_upsetMem (({ s with syn := y } : State).bump Obj.synTTickFenceCount inp.fences) inp.memFaults
    rw [hf]
    exact ⟨y, m, f, z, rfl, fun hne => absurd h hne⟩
  · exact ⟨y, s.mem, s.memBad, s.free, rfl, fun _ => ⟨rfl, rfl, rfl⟩⟩

end

/-! The reading of the junction temperature (R716). -/

theorem toInt_ofInt_16 {v : Int} (hlo : -32768 ≤ v) (hhi : v ≤ 32767) : toInt 16 (ofInt 16 v) = v := by
  unfold toInt ofInt
  norm_num
  split <;> omega

theorem clampI_mem (v : Int) : -32768 ≤ clampI (-32768) 32767 v ∧ clampI (-32768) 32767 v ≤ 32767 := by
  unfold clampI
  split
  · omega
  · split <;> omega

/-- TJ is a 16-bit signed object. -/
theorem findObj_teleTj : (findObj Obj.teleTj).map (·.ty.width) = some 16 := by decide +kernel

theorem State.int_teleTj_of_setInt {s t : State} {v : Int} (h : SameTj (s.setInt Obj.teleTj (clampI (-32768) 32767 v)) t) :
    t.int Obj.teleTj = clampI (-32768) 32767 v := by
  obtain ⟨d, hd, hw⟩ := Option.map_eq_some_iff.mp findObj_teleTj
  obtain ⟨hlo, hhi⟩ := clampI_mem v
  have hobj : t.obj Obj.teleTj = ofInt 16 (clampI (-32768) 32767 v) := by
    rw [h, State.setInt, hd]
    simp [hw]
  rw [State.int, hd]
  dsimp only
  rw [hobj, hw, toInt_ofInt_16 hlo hhi]

theorem SameTj.senseTick (s : State) (inp : TickInput) (u : Tick) {v : Int} (h : inp.tj = some v) :
    SameTj (s.setInt Obj.teleTj (clampI (-32768) 32767 v)) (s.senseTick inp u) := by
  have hrail {a b : State} (hab : SameTj a b) (k : Nat) (mv : Int) : SameTj a (b.railRead k mv) := by
    unfold State.railRead
    dsimp only
    split
    · exact hab
    · next hk =>
      have hr := hab.setInt (k := Obj.teleRailMv k) (clampI (-32768) 32767 mv)
        (fun e => by have e' : 0x6700 * 256 + (0x10 + k) = 0x6700 * 256 + 1 := e; omega)
      exact ite (hr.setObj _ (by decide)) hr
  unfold State.senseTick
  rw [h]
  dsimp only
  have hpeak := (SameTj.refl (s.setInt Obj.teleTj (clampI (-32768) 32767 v))).setInt (k := Obj.teleTjPeak)
    (max (clampI (-32768) 32767 v) (s.int Obj.teleTjPeak)) (by decide)
  have hrails := foldl (l := inp.rails) (fun _ hv e => hrail hv e.1 e.2) hpeak
  exact foldl (fun _ hv _ => hv) (ite hrails hrails)

/-! The tick as a whole (R16, R39). -/

section
variable (s : State) (inp : TickInput)

/-- The work of the tick that has opened, up to the sensors. -/
def State.runTick (u : Tick) : State :=
  let s := ((s.clocksTick u).joinFlags).samplePins inp.pins
  let s := if s.running then s.dataTick inp u else s.ballsOnly inp.waves
  ((((s.sramTick inp u).mailTick u).lockTick u).jobTick u).unpark

theorem State.runTick_kept (u : Tick) : Kept s (s.runTick inp u) := by
  unfold State.runTick
  extract_lets s1 s2
  have h1 : Kept s s1 := State.samplePins_kept (State.joinFlags_kept (State.clocksTick_kept (Kept.refl s) u)) _
  clear_value s1
  have h2 : Kept s s2 := Kept.ite (fun _ => State.dataTick_kept h1 inp u) (fun _ => State.ballsOnly_kept h1 inp.waves)
  clear_value s2
  exact State.unpark_kept (State.jobTick_kept (State.lockTick_kept (State.mailTick_kept (State.sramTick_kept h2 _ _) _) _) _)

theorem State.runTick_taken (u : Tick) : (s.runTick inp u).taken = s.taken := by
  unfold State.runTick
  extract_lets s1 s2
  have h1 : s1.taken = s.taken := (State.samplePins_taken ..).trans ((State.joinFlags_taken _).trans (State.clocksTick_taken ..))
  clear_value s1
  have h2 : s2.taken = s.taken := by
    unfold s2
    rw [State.ite_taken, State.dataTick_taken, State.ballsOnly_taken, ite_self, h1]
  clear_value s2
  rw [State.unpark_taken, State.jobTick_taken, State.lockTick_taken, State.mailTick_taken, State.sramTick_taken, h2]

/-- What has gone out by the time the tick opens stays. -/
theorem State.out_of_opened (u : Tick) {o : Output} (h : o ∈ s.out) : o ∈ (((s.runTick inp u).senseTick inp u).configTick).out := by
  have hkept : Kept s (((s.runTick inp u).senseTick inp u).configTick) := State.configTick_kept (State.senseTick_kept (s.runTick_kept inp u) _ _)
  exact hkept.out.subset h

/-- A tick that is counted opens at the boundary, does its work, reads the sensors, and SC0 goes on with the configuration block. -/
theorem execTick_counted (h : s.time.counting = true) : execTick inp s = .next
    (((((s.clockInput inp).countCyc.closeTick.atBoundary.openTick (s.tick + 1)).runTick inp (s.tick + 1)).senseTick inp (s.tick + 1)).configTick) := by
  unfold execTick
  dsimp only
  rw [State.clockInput_time, h, State.clockInput_tick]
  rfl

end

/-- Settles O55: the tick's stages keep what went out, put nothing into `taken`, and leave TJ alone after the reading; the landings and the journal
entries are followed along their lists. -/
theorem tickCountsAndEndsTheCommandsOfItsBoundary : Obligations.TickCountsAndEndsTheCommandsOfItsBoundary := by
  unfold Obligations.TickCountsAndEndsTheCommandsOfItsBoundary
  refine ⟨fun s inp h => ?_, fun s inp h => ?_, fun s u => ?_, fun s => ⟨s.jTick_jPace, fun e => s.mem_jTick_journal⟩,
    fun s kind flags jseq t d2 d h => s.jWrite_jPace_jLatest kind flags jseq t d2 d h⟩
  · obtain ⟨y, m, f, z, heq, hcells⟩ := s.clockInput_eq inp
    refine ⟨s.clockInput inp, execTick_stopped inp s h, ?_⟩
    rw [heq]
    refine ⟨rfl, hcells, rfl, fun k hk => State.obj_setObj_ne s _ (by simpa using hk), State.obj_setObj_self ..⟩
  · intro b
    have hkept := execTick_kept inp s h
    rw [execTick_counted s inp h] at hkept
    refine ⟨_, execTick_counted s inp h, hkept.tick, ?_, hkept.out, fun l hl hw hop hslot => ?_, fun v hv => ?_⟩
    · rw [State.configTick_taken, State.senseTick_taken, State.runTick_taken]
      rfl
    · obtain ⟨r, hr⟩ := b.openTick_responds (s.tick + 1) hl hw hop hslot
      exact ⟨r, State.out_of_opened _ inp _ hr⟩
    · exact State.int_teleTj_of_setInt (SameTj.senseTick _ inp (s.tick + 1) hv).configTick
  · obtain ⟨hl, hd⟩ := Prod.mk.inj (s.openTick_awaited u)
    refine ⟨hl, rfl, fun l hmem w hw => ?_⟩
    rw [hd]
    exact List.mem_append_right _ (List.mem_filterMap.mpr ⟨l, hmem, by simp [hw]⟩)

end Sys2Proof.Machine

namespace Sys2Proof.Machine

/-! The state after reset (R39, R656, R673). -/

/-- A key that a table does not list reads as the rest value. -/
theorem Tab.getD_of_forall_ne {α : Type} {t : Tab α} {i : Nat} (h : ∀ e ∈ t, e.1 ≠ i) (d : α) : t.getD i d = d := by
  have hfind : t.find i = none := by
    induction t with
    | nil => rfl
    | cons e t ih =>
      rw [Tab.find_cons, if_neg (h e List.mem_cons_self), ih (fun x hx => h x (List.mem_cons_of_mem _ hx))]
  rw [Tab.getD, hfind, Option.getD_none]

/-- After reset the dictionary lists nothing but the band table that OTP fills (R73). -/
theorem reset_dict_band : ∀ e ∈ State.reset.dict, e.1 / 256 = 0x2210 := by decide +kernel

/-- The memories are empty, and no entry of the factory's band table is an object's default. -/
theorem reset_inv : Inv State.reset where
  mem := Memory.wf_nil
  shm := Memory.wf_nil
  dict := by decide +kernel
  journal := Nat.zero_le _

/-- An object outside the band table stands at its default. -/
theorem reset_obj {k : Nat} (hk : k / 256 ≠ 0x2210) : State.reset.obj k = dfltOf k :=
  Tab.getD_of_forall_ne (fun e he heq => hk (by rw [← heq]; exact reset_dict_band e he)) _

/-- Settles O57: the reset state lists the band table and nothing else. -/
theorem resetIsBootWithEverythingAtItsDefault : Obligations.ResetIsBootWithEverythingAtItsDefault := by
  unfold Obligations.ResetIsBootWithEverythingAtItsDefault
  exact ⟨reset_inv, reset_obj (by decide), rfl, rfl, fun _ hk => reset_obj hk, fun _ => rfl, rfl, rfl, rfl, rfl, rfl, rfl⟩

end Sys2Proof.Machine

namespace Sys2Proof.Machine

/-! What the discipline may change: steering, points of the time map, and reports (R43 to R60). -/

/-- The timebase but for what the loop, a slew, a step and the map move. -/
def TimeBase.unsteered (b : TimeBase) : TimeBase :=
  { b with sourceOk := false, sinceUpdate := 0, lastUpdate := 0, words := [], offset := 0, slewOffset := 0, slewStart := 0, slewFrom := 0,
           rate := 0, point := {}, nextSeq := 0, taiValid := false, taiWaits := false, step := none, grid := 0, holdSince := 0 }

/-- The parts of the state that the discipline does not touch. -/
def State.unsteered (s : State) : State :=
  { s with dict := [], queues := [], out := [], host := {}, subQ := [], free := 0, time := s.time.unsteered }

/-- The objects that the discipline moves. -/
def steerKeys : List Key := [Obj.tbDiscState, Obj.synTSynWord, Obj.tbLastJump]

/-- From s to t the discipline acted: the timebase is steered and points stand, DISC_STATE, LAST_JUMP and SYN-T's word may have moved, the
rest is reports, DEV_STATE not among them. The source is not lost by it. -/
structure Steered (s t : State) : Prop where
  rest : t.unsteered = s.unsteered
  objs : ∀ k, reportKey k = false → k ∉ steerKeys → t.obj k = s.obj k
  host : t.host.quiet = s.host.quiet
  queues : ∀ q, (t.queue q).quiet = (s.queue q).quiet
  out : s.out <+: t.out
  dev : t.obj Obj.devDevState = s.obj Obj.devDevState
  sourceOk : s.time.sourceOk = true → t.time.sourceOk = true

/-! Points and notifications put no command's end among those that wait for the tick. -/

@[simp] theorem State.pointInto_landing (s : State) (q : Nat) : (s.pointInto q).landing = s.landing := by
  unfold State.pointInto State.rearmLost
  dsimp only
  repeat' split
  all_goals rfl

/-! Nor do they move an object but the counts of what is notified. -/

@[simp] theorem State.pointInto_dict (s : State) (q : Nat) : (s.pointInto q).dict = s.dict := by
  unfold State.pointInto State.rearmLost
  dsimp only
  repeat' split
  all_goals rfl

theorem State.foldl_dict {α : Type} (f : State → α → State) (hf : ∀ v x, (f v x).dict = v.dict) (l : List α) (s : State) :
    (l.foldl f s).dict = s.dict := by
  induction l generalizing s with
  | nil => rfl
  | cons x l ih => exact (ih (f s x)).trans (hf s x)

@[simp] theorem State.writePoint_dict (s : State) (all : Bool) : (s.writePoint all).dict = s.dict :=
  State.foldl_dict _ (fun v q => by split <;> simp) _ _

@[simp] theorem State.writeStep_dict (s : State) (j : Int) (cause : Nat) (t : Tick) : (s.writeStep j cause t).dict = s.dict :=
  (State.writePoint_dict _ _).trans (State.foldl_dict _ (fun v q => by split <;> rfl) _ _)

theorem State.obj_of_dict {s t : State} (h : t.dict = s.dict) (k : Key) : t.obj k = s.obj k := by
  unfold State.obj
  rw [h]

/-- The counts that a notification moves (R532, R581). -/
def noteKey (k : Nat) : Prop := k = Obj.hostCntNoteDropped ∨ ∃ n, n < 8 ∧ (k = Obj.subSubNseq n ∨ k = Obj.subSubDropped n)

theorem State.raise_dict (s : State) (v : Nat) : (s.raise v).dict = s.dict := by
  unfold State.raise
  dsimp only
  generalize (if v < 16 then _ else _ : HostPort) = h
  split <;> rfl

theorem State.noteHost_obj (s : State) (n : Note) {k : Nat} (hk : ¬ noteKey k) : (s.noteHost n).obj k = s.obj k := by
  have hne : k ≠ Obj.hostCntNoteDropped := fun e => hk (.inl e)
  unfold State.noteHost
  dsimp only
  split
  · rfl
  · split
    · exact State.obj_setObj_ne _ _ hne
    · split
      · exact (State.obj_of_dict (State.raise_dict _ _) k).trans (State.obj_setObj_ne _ _ hne)
      · exact State.obj_of_dict (State.raise_dict _ _) k

theorem State.noteSub_obj (s : State) (n : Note) {i : Nat} (hi : i < 8) {k : Nat} (hk : ¬ noteKey k) : (s.noteSub n i).obj k = s.obj k := by
  have hn : k ≠ Obj.subSubNseq i := fun e => hk (.inr ⟨i, hi, .inl e⟩)
  have hd : k ≠ Obj.subSubDropped i := fun e => hk (.inr ⟨i, hi, .inr e⟩)
  unfold State.noteSub
  split
  · dsimp only
    split
    · exact (State.obj_setObj_ne _ _ hd).trans (State.obj_setObj_ne _ _ hn)
    · exact State.obj_setObj_ne s _ hn
  · rfl

theorem State.noteSubs_obj (n : Note) {k : Nat} (hk : ¬ noteKey k) (l : List Nat) (hl : ∀ i ∈ l, i < 8) (s : State) :
    (l.foldl (fun s i => s.noteSub n i) s).obj k = s.obj k := by
  induction l generalizing s with
  | nil => rfl
  | cons i l ih =>
    rw [List.foldl_cons, ih (fun j hj => hl j (List.mem_cons_of_mem _ hj)), s.noteSub_obj n (hl i List.mem_cons_self) hk]

theorem State.notify_obj (s : State) (cls source detail : Nat) (t : Tick) {k : Nat} (hk : ¬ noteKey k) :
    (s.notify cls source detail t).obj k = s.obj k := by
  unfold State.notify
  dsimp only
  generalize (⟨cls, source, t, detail⟩ : Note) = n
  rw [State.noteSubs_obj n hk (below 8) (by decide), s.noteHost_obj n hk]

/-- DEV_STATE and the rest of index 0x2000 count no notifications. -/
theorem not_noteKey {k : Nat} (h : 0x1118 * 256 ≤ k) (hd : k ≠ Obj.hostCntNoteDropped) : ¬ noteKey k := by
  rintro (rfl | ⟨n, hn, rfl | rfl⟩)
  · exact hd rfl
  · unfold Obj.subSubNseq at h; omega
  · unfold Obj.subSubDropped at h; omega

theorem State.foldl_landing {α : Type} (f : State → α → State) (hf : ∀ v x, (f v x).landing = v.landing) (l : List α) (s : State) :
    (l.foldl f s).landing = s.landing := by
  induction l generalizing s with
  | nil => rfl
  | cons x l ih => exact (ih (f s x)).trans (hf s x)

@[simp] theorem State.writePoint_landing (s : State) (all : Bool) : (s.writePoint all).landing = s.landing :=
  State.foldl_landing _ (fun v q => by split <;> simp) _ _

@[simp] theorem State.writeStep_landing (s : State) (j : Int) (cause : Nat) (t : Tick) : (s.writeStep j cause t).landing = s.landing :=
  (State.writePoint_landing _ _).trans (State.foldl_landing _ (fun v q => by split <;> rfl) _ _)

/-- A loop update moves one object. -/
theorem State.loop_obj_ne (s : State) (t : Tick) {k : Key} (h : k ≠ Obj.synTSynWord) : (s.loop t).obj k = s.obj k := State.obj_setObj_ne _ _ h

namespace Steered

variable {s t u : State}

theorem refl (s : State) : Steered s s := ⟨rfl, fun _ _ _ => rfl, rfl, fun _ => rfl, List.prefix_refl _, rfl, id⟩

theorem trans (h : Steered s t) (g : Steered t u) : Steered s u where
  rest := g.rest.trans h.rest
  objs k hk hn := (g.objs k hk hn).trans (h.objs k hk hn)
  host := g.host.trans h.host
  queues q := (g.queues q).trans (h.queues q)
  out := h.out.trans g.out
  dev := g.dev.trans h.dev
  sourceOk := g.sourceOk ∘ h.sourceOk

/-- Reports that put nothing among the commands' ends. -/
theorem reported (h : Steered s t) (g : OnlyReported t u) (hl : u.landing = t.landing)
    (hd : u.obj Obj.devDevState = t.obj Obj.devDevState) : Steered s u := by
  refine h.trans ⟨?_, fun k hk _ => g.objs k hk, g.host, g.queues, g.out, hd, by rw [g.time]; exact id⟩
  have hrest : ({ u.unreported with landing := u.landing } : State) = { t.unreported with landing := t.landing } := by rw [g.rest, hl]
  have := congrArg State.unsteered hrest
  exact this

theorem setObj (h : Steered s t) {k : Key} (hk : k ∈ steerKeys) (v : Nat) : Steered s (t.setObj k v) :=
  h.trans ⟨rfl, fun _ _ hn => State.obj_setObj_ne _ _ (fun e => hn (e ▸ hk)), rfl, fun _ => rfl, List.prefix_refl _,
    State.obj_setObj_ne _ _ (fun e => absurd (e ▸ hk) (by decide)), id⟩

theorem setInt (h : Steered s t) {k : Key} (hk : k ∈ steerKeys) (v : Int) : Steered s (t.setInt k v) := by
  unfold State.setInt
  split
  · exact h.setObj hk _
  · exact h

theorem fresh (h : Steered s t) : Steered s t.fresh.2 := h.trans ⟨rfl, fun _ _ _ => rfl, rfl, fun _ => rfl, List.prefix_refl _, rfl, id⟩

theorem ite {a b : State} {c : Prop} [Decidable c] (ha : Steered s a) (hb : Steered s b) : Steered s (if c then a else b) := by
  split
  · exact ha
  · exact hb

theorem setTime (h : Steered s t) {f : TimeBase → TimeBase} (hf : (f t.time).unsteered = t.time.unsteered)
    (ho : t.time.sourceOk = true → (f t.time).sourceOk = true) : Steered s (t.setTime f) := by
  refine h.trans ⟨?_, fun _ _ _ => rfl, rfl, fun _ => rfl, List.prefix_refl _, rfl, ho⟩
  show ({ t.unsteered with time := (f t.time).unsteered } : State) = t.unsteered
  rw [hf]; rfl

theorem newPoint (h : Steered s t) (x : SubTime) (j : Int) (stepped : Bool) : Steered s (t.newPoint x j stepped) := by
  unfold State.newPoint
  exact h.setTime rfl id

theorem writePoint (h : Steered s t) (all : Bool) : Steered s (t.writePoint all) :=
  h.reported ((OnlyReported.refl t).writePoint all) (State.writePoint_landing ..) (State.obj_of_dict (State.writePoint_dict ..) _)

theorem writeStep (h : Steered s t) (j : Int) (cause : Nat) (x : Tick) : Steered s (t.writeStep j cause x) :=
  h.reported ((OnlyReported.refl t).writeStep j cause x) (State.writeStep_landing ..) (State.obj_of_dict (State.writeStep_dict ..) _)

theorem notify (h : Steered s t) (cls source detail : Nat) (x : Tick) : Steered s (t.notify cls source detail x) :=
  h.reported ((OnlyReported.refl t).notify cls source detail x) (State.notify_landing ..) (State.notify_obj _ _ _ _ _ (not_noteKey (by decide) (by decide)))

theorem setDisc (h : Steered s t) (d : Nat) (x : SubTime) : Steered s (t.setDisc d x) := by
  have hd : Steered s (t.setObj Obj.tbDiscState d) := h.setObj (by decide) d
  unfold State.setDisc
  exact ite h ((ite ((hd.newPoint x 0 false).writePoint true) hd).notify ..)

theorem steer (h : Steered s t) : Steered s t.steer := h.setObj (by decide) _

theorem startSlew (h : Steered s t) (j : Int) (x : SubTime) : Steered s (t.startSlew j x) := h.setTime rfl id

theorem loop (h : Steered s t) (x : Tick) : Steered s (t.loop x) :=
  h.trans ⟨rfl, fun _ _ hn => State.loop_obj_ne _ _ (fun e => hn (e ▸ by decide)), rfl, fun _ => rfl, List.prefix_refl _, State.loop_obj_ne _ _ (by decide), id⟩

theorem doStep (h : Steered s t) (x : Tick) : Steered s (t.doStep x) := by
  unfold State.doStep
  split
  · exact h
  · exact ((h.setTime rfl id).newPoint _ _ _).writeStep _ _ _

theorem taiWrite (h : Steered s t) (at_ : SubTime) (x : Tick) : Steered s (t.taiWrite at_ x) := by
  unfold State.taiWrite
  dsimp only
  refine ite (writeStep (newPoint (Steered.setTime (h.doStep x) ?_ ?_) _ _ _) _ _ _) (writePoint (newPoint (Steered.setTime (h.doStep x) ?_ ?_) _ _ _) _)
  all_goals first | rfl | exact id

/-- A source that qualifies stays so through what its jump brings. -/
theorem qualified (s : State) (j : Int) (x : SubTime) : Steered (s.setTime (fun b => { b with sourceOk := true })) (s.qualify j x) := by
  have hj {u v : State} (hv : Steered u v) (c : Prop) [Decidable c] : Steered u (if c then v.setInt Obj.tbLastJump j else v) :=
    ite (hv.setInt (by decide) j) hv
  have hstep {u v : State} (hv : Steered u v) (n : Nat) : Steered u (v.setTime (fun b => { b with step := some (j, n) })) := hv.setTime rfl id
  unfold State.qualify
  have h1 := hj (refl (s.setTime (fun b => { b with sourceOk := true })))
    (s.obj Obj.tbDiscState = dsAcquiring ∨ s.obj Obj.tbDiscState = dsHoldover ∨ s.obj Obj.tbDiscState = dsHeld)
  refine ite (Steered.setDisc (ite (hstep h1 1) h1) _ _) (ite (ite (h1.setDisc _ _) (ite ?_ (ite ((hstep h1 2).setDisc _ _) (h1.setDisc _ _)))) h1)
  exact ((((h1.startSlew _ _).setObj (by decide) _).newPoint _ _ _).writePoint _).steer.notify _ _ _ _

theorem qualify (h : Steered s t) (j : Int) (x : SubTime) : Steered s (t.qualify j x) := (h.setTime rfl (fun _ => rfl)).trans (qualified t j x)

/-! What stands as it was. -/

theorem part {α : Type} (h : Steered s t) (f : State → α) : f t.unsteered = f s.unsteered := by rw [h.rest]

theorem tick (h : Steered s t) : t.tick = s.tick := h.part (·.tick)

theorem landing (h : Steered s t) : t.landing = s.landing := h.part (·.landing)

theorem ports (h : Steered s t) : t.ports = s.ports := h.part (·.ports)

theorem due (h : Steered s t) : t.due = s.due := h.part (·.due)

theorem cascPort (h : Steered s t) (n : Nat) : t.cascPort n = s.cascPort n := by
  have hc : t.casc = s.casc := h.part (·.casc)
  unfold State.cascPort
  rw [hc]

theorem lastEdge (h : Steered s t) : t.time.lastEdge = s.time.lastEdge := h.part (·.time.lastEdge)

theorem edges (h : Steered s t) : t.time.edges = s.time.edges := h.part (·.time.edges)

theorem misses (h : Steered s t) : t.time.misses = s.time.misses := h.part (·.time.misses)

theorem lastCorr (h : Steered s t) : t.time.lastCorr = s.time.lastCorr := h.part (·.time.lastCorr)

theorem counting (h : Steered s t) : t.time.counting = s.time.counting := h.part (·.time.counting)

end Steered

/-! What each of these operations leaves in its own place. -/

section
variable (s : State)

theorem State.newPoint_time (t : SubTime) (j : Int) (stepped : Bool) :
    (s.newPoint t j stepped).time = { s.time with point := (s.newPoint t j stepped).time.point, nextSeq := (s.time.nextSeq + 1) % 256 } := rfl

/-- With a valid map the point's TAI is that of the point before it at that instant, moved by the jump (R45, R58). -/
theorem State.newPoint_tai (t : SubTime) (j : Int) (stepped : Bool) (h : s.time.taiValid = true) :
    (s.newPoint t j stepped).time.point.tai = ((s.time.point.taiAt t : Int) + j).toNat := by
  simp [State.newPoint, h]

/-- A step that waits lands: its point stands, marked stepped, and goes into the queues (R58). -/
theorem State.doStep_some {j : Int} {cause : Nat} (h : s.time.step = some (j, cause)) (t : Tick) :
    s.doStep t = ((s.setTime (fun b => { b with step := none })).newPoint (ofTick t) (jumpUnits j) true).writeStep j cause t := by
  unfold State.doStep
  rw [h]

/-- The offset that one loop update gives is the loop's free value, within 200 ppm, unless the source is HOST (R52). -/
theorem State.loop_offset_mem (t : Tick) (h : s.obj Obj.tbDiscSrc ≠ 4) :
    -219902325 ≤ (s.loop t).time.offset ∧ (s.loop t).time.offset ≤ 219902325 := by
  have hoff : (s.loop t).time.offset = ((Config.freeNat s.free % 439804651 : Nat) : Int) - 219902325 := if_neg h
  omega

@[simp] theorem State.loop_lastUpdate (t : Tick) : (s.loop t).time.lastUpdate = t := rfl

@[simp] theorem State.loop_sinceUpdate (t : Tick) : (s.loop t).time.sinceUpdate = 0 := rfl

@[simp] theorem State.loop_slewOffset (t : Tick) : (s.loop t).time.slewOffset = s.time.slewOffset := rfl

/-- The loop moves the timebase, SYN-T's word and the count of free values. -/
theorem State.loop_eq (t : Tick) : s.loop t = { s with dict := (s.loop t).dict, time := (s.loop t).time, free := s.free + 2 } := (rfl)

/-- SYN-T's word after a loop update is the one of the offset then in force (R91). -/
theorem State.loop_word (t : Tick) : (s.loop t).obj Obj.synTSynWord
    = synTWordOf (((refRatio (s.obj Obj.refRefclkClass) * 2 ^ 32 : Nat) : Int)
        + ((refRatio (s.obj Obj.refRefclkClass) * 2 ^ 32 : Nat) : Int) * min ((s.loop t).time.offset + s.time.slewOffset) 549755813 / 2 ^ 40).toNat :=
  State.obj_setObj_self ..

@[simp] theorem State.qualify_sourceOk (j : Int) (t : SubTime) : (s.qualify j t).time.sourceOk = true := (Steered.qualified s j t).sourceOk rfl

theorem State.following_iff : s.following = true ↔ s.obj Obj.tbDiscState = 2 ∨ s.obj Obj.tbDiscState = 4 := by
  simp [State.following]

end

/-- Settles O3: a due row is one loop update, whose offset is the loop's free value. -/
theorem loopUpdateSteersWithinItsBounds : Obligations.LoopUpdateSteersWithinItsBounds := by
  unfold Obligations.LoopUpdateSteersWithinItsBounds
  intro s hsrc hstate hdue
  obtain ⟨hlo, hhi⟩ := s.loop_offset_mem (s.tick + 1) (by omega)
  refine ⟨s.loop (s.tick + 1), ?_, rfl, rfl, hlo, hhi, s.loop_word _, fun k hk => s.loop_obj_ne _ (by simpa using hk), s.loop_eq _⟩
  exact if_pos ⟨hsrc, s.following_iff.mpr hstate, hdue⟩

/-! The rows of the time map (R45, R58, R59). -/

section
variable (s : State)

/-- A point that is due at the boundary (R45). -/
theorem State.mapPoint_due {t : Tick} (h0 : s.obj Obj.tbTimeMapInterval ≠ 0) (hdue : t % s.obj Obj.tbTimeMapInterval = 0)
    (hcount : s.time.counting = true) : s.mapPoint t = (s.newPoint (ofTick t) 0 false).writePoint false :=
  if_pos ⟨h0, hdue, hcount⟩

/-- A slew ends (R59): no slew offset is left, SYN-T follows, and a SLEWING engine is LOCKED, else a point stands. -/
theorem execSlewEnd_due (h0 : s.time.slewOffset ≠ 0) (hres : s.residual (s.tick + 1) ≤ s.obj Obj.tbLockWindow) :
    execSlewEnd s = .next (let s1 := (s.setTime (fun b => { b with slewOffset := 0 })).steer
      if s.obj Obj.tbDiscState = dsSlewing then s1.setDisc dsLocked (ofTick (s.tick + 1))
      else (s1.newPoint (ofTick (s.tick + 1)) 0 false).writePoint false) := by
  have hstate : (s.setTime (fun b => { b with slewOffset := 0 })).steer.obj Obj.tbDiscState = s.obj Obj.tbDiscState :=
    State.steer_obj _ _ (by decide)
  unfold execSlewEnd
  rw [if_pos ⟨h0, hres⟩]
  dsimp only
  rw [hstate]

end

/-- Settles O1: a point, a step and the end of a slew each stand as one operation of the time map, followed by reports. -/
theorem timeMapMovesAtPointsStepsAndSlewEnds : Obligations.TimeMapMovesAtPointsStepsAndSlewEnds := by
  unfold Obligations.TimeMapMovesAtPointsStepsAndSlewEnds
  refine ⟨fun s => rfl, fun s halone h0 hdue hcount => ?_, fun s j cause hstep => ?_, fun s h0 hres => ?_⟩
  · have hrow : exec .timeMapPoint s = .next (s.await .point) := by
      show Host.Outcome.next (if s.due.contains .point then s else s.await .point) = _
      rw [halone.1]; rfl
    have hrep := (OnlyReported.refl (s.newPoint (ofTick (s.tick + 1)) 0 false)).writePoint false
    have htime := hrep.time
    refine ⟨_, hrow ▸ halone.lands (d := .point) (s.mapPoint_due h0 hdue hcount), ?_⟩
    rw [htime]
    exact ⟨rfl, rfl, rfl, rfl, rfl, fun hv => (State.newPoint_tai _ _ _ _ hv).trans (by rw [Int.add_zero, Int.toNat_natCast]; rfl), hrep⟩
  · have hrep := (OnlyReported.refl ((s.setTime (fun b => { b with step := none })).newPoint (ofTick (s.tick + 1)) (jumpUnits j) true)).writeStep
      j cause (s.tick + 1)
    have htime := hrep.time
    refine ⟨_, congrArg Host.Outcome.next (s.doStep_some hstep (s.tick + 1)), ?_⟩
    rw [htime]
    exact ⟨rfl, rfl, rfl, fun hv => State.newPoint_tai _ _ _ _ hv, hrep⟩
  · rw [show exec .slewEnd s = _ from execSlewEnd_due s h0 hres]
    dsimp only
    generalize hs1 : (s.setTime (fun b => { b with slewOffset := 0 })).steer = s1
    have hobj : ∀ k, k ≠ Obj.synTSynWord → s1.obj k = s.obj k := fun k hk => by rw [← hs1]; exact State.steer_obj _ _ hk
    have htime : s1.time = { s.time with slewOffset := 0 } := by rw [← hs1]; rfl
    split
    · next hslew =>
      obtain ⟨ho, ht, hrep⟩ := s1.setDisc_spec dsLocked (ofTick (s.tick + 1))
      have hd := ho Obj.tbDiscState (by decide)
      refine ⟨_, rfl, by rw [ht, htime], by rw [ht, htime], fun _ => by rw [hd, if_pos rfl], fun h => absurd hslew h, fun k hk hn => ?_, ?_⟩
      · rw [ho k hk, if_neg (fun e => hn (by simp [e])), hobj k (fun e => hn (by simp [e]))]
      · subst hs1; exact hrep
    · next hslew =>
      have hrep := (OnlyReported.refl (s1.newPoint (ofTick (s.tick + 1)) 0 false)).writePoint false
      have hd := hobj Obj.tbDiscState (by decide)
      refine ⟨_, rfl, by rw [hrep.time, State.newPoint_time, htime], by rw [hrep.time, State.newPoint_time, htime], fun h => absurd h hslew,
        fun _ => (hrep.objs _ (by decide)).trans hd, fun k hk hn => ?_, ?_⟩
      · exact (hrep.objs k hk).trans (hobj k (fun e => hn (by simp [e])))
      · subst hs1
        exact hrep.timed rfl rfl (fun _ => rfl) (Nat.le_refl _) (List.prefix_refl _)

end Sys2Proof.Machine

namespace Sys2Proof.Machine

/-! The edges of the sources, and their loss (R48, R50, R54, R55). -/

section
variable (s : State)

/-- The timebase once the selected source is lost: no edge counts any more (R54). -/
def TimeBase.unsourced (b : TimeBase) : TimeBase := { b with sourceOk := false, edges := 0, lastEdge := none, misses := 0, ahead := 1 }

/-- Losing the source leaves what the holdover steers (R54, R55). -/
theorem State.sourceLost_steered (t : Tick) : Steered (s.setTime TimeBase.unsourced) (s.sourceLost t) := by
  unfold State.sourceLost
  refine Steered.ite ?_ (Steered.refl _)
  exact Steered.setDisc (Steered.setTime (Steered.setObj (Steered.refl _) (by decide) _) rfl id) _ _

/-- In LOCKED, SLEWING and HELD the loss of the source enters HOLDOVER, which HELD counts from its own start (R54). -/
theorem State.sourceLost_holdover (t : Tick) (h : s.obj Obj.tbDiscState = dsLocked ∨ s.obj Obj.tbDiscState = dsSlewing ∨ s.obj Obj.tbDiscState = dsHeld) :
    (s.sourceLost t).obj Obj.tbDiscState = 3
    ∧ (s.sourceLost t).time.holdSince = if s.obj Obj.tbDiscState = dsHeld then s.time.holdSince else t := by
  have hrow : ∃ w, s.sourceLost t = (((s.setTime TimeBase.unsourced).setObj Obj.synTSynWord w).setTime (fun b =>
      { b with slewOffset := 0, holdSince := if s.obj Obj.tbDiscState = dsHeld then b.holdSince else t })).setDisc dsHoldover (ofTick t) :=
    ⟨_, if_pos h⟩
  obtain ⟨w, hw⟩ := hrow
  rw [hw]
  obtain ⟨hobj, htime, -⟩ := State.setDisc_spec (((s.setTime TimeBase.unsourced).setObj Obj.synTSynWord w).setTime (fun b =>
    { b with slewOffset := 0, holdSince := if s.obj Obj.tbDiscState = dsHeld then b.holdSince else t })) dsHoldover (ofTick t)
  exact ⟨(hobj _ (by decide)).trans (if_pos rfl), by rw [htime]; rfl⟩

/-- With its source lost the engine has none, nor an edge of it. -/
theorem State.sourceLost_unsourced (t : Tick) : (s.sourceLost t).time.sourceOk = false ∧ (s.sourceLost t).time.lastEdge = none := by
  refine ⟨?_, (s.sourceLost_steered t).lastEdge⟩
  unfold State.sourceLost
  dsimp only
  split
  · exact (congrArg TimeBase.sourceOk (State.setDisc_spec _ _ _).2.1).trans rfl
  · rfl

end

/-- From s, the state with an edge counted, to t the discipline acted, and the source is qualified where enough edges stand in the row (R48). -/
structure EdgeTaken (s t : State) : Prop where
  steered : Steered s t
  qualified : s.obj Obj.tbLockCount ≤ s.time.edges → t.time.sourceOk = true

namespace EdgeTaken

variable {s t u : State}

theorem then_ (h : EdgeTaken s t) (g : Steered t u) : EdgeTaken s u := ⟨h.steered.trans g, g.sourceOk ∘ h.qualified⟩

/-- The edge completes the qualification, or its jump is measured while HELD (R54). -/
theorem qualify {q : State} (hq : Steered s q) (hok : q.time.sourceOk = true) (j : Int) :
    EdgeTaken s (if s.obj Obj.tbLockCount ≤ s.time.edges ∧ !s.time.sourceOk then q
      else if s.obj Obj.tbDiscState = dsHeld ∧ s.time.sourceOk then s.setInt Obj.tbLastJump j else s) := by
  have hm : Steered s (if s.obj Obj.tbDiscState = dsHeld ∧ s.time.sourceOk then s.setInt Obj.tbLastJump j else s) :=
    Steered.ite ((Steered.refl s).setInt (k := Obj.tbLastJump) (by decide) j) (Steered.refl s)
  refine ⟨hq.ite hm, fun hcount => ?_⟩
  rw [if_congr (and_iff_right hcount) rfl rfl]
  split
  · exact hok
  · next hn => exact hm.sourceOk (by simpa using hn)

end EdgeTaken

section
variable (s : State) (time : Nat)

/-- What an accepted VREF edge does, once it is counted (R48, R54, R57). -/
theorem State.vrefTook_taken : EdgeTaken s (s.vrefTook time) := by
  have hgrid : Steered s (if s.obj Obj.tbDiscState = dsAcquiring then s.setTime (fun b => { b with grid := b.taiRun time }) else s) :=
    Steered.ite ((Steered.refl s).setTime rfl id) (Steered.refl s)
  unfold State.vrefTook
  exact (EdgeTaken.qualify (hgrid.qualify _ time) (State.qualify_sourceOk _ _ _) _).then_ (Steered.ite ((Steered.refl _).loop _) (Steered.refl _))

/-- A PPS edge within the window of its prediction is taken (R48). -/
theorem execPpsEdge_near {e : Nat} (hsrc : s.obj Obj.tbDiscSrc = 1) (hcount : s.time.counting = true) (hpast : tickOf time ≤ s.tick)
    (hlast : s.time.lastEdge = some e) (hnear : ((time : Int) - e - 64000000000 * s.time.ahead).natAbs ≤ 64000000) :
    ∃ t, execPpsEdge time s = .next t ∧ EdgeTaken (s.tookEdge time) t := by
  have hgo : ¬(s.obj Obj.tbDiscSrc ≠ 1 ∨ (!s.time.counting) = true ∨ s.tick < tickOf time) := by
    simp [hsrc, hcount, hpast]
  unfold execPpsEdge
  rw [if_neg hgo]
  dsimp only
  rw [hlast]
  dsimp only
  rw [if_neg (by simp [hnear]), if_pos (decide_eq_true hnear)]
  refine ⟨_, rfl, ?_⟩
  exact ((EdgeTaken.qualify ((Steered.refl _).qualify _ time) (State.qualify_sourceOk _ _ _) _).then_
    (Steered.ite ((Steered.refl _).taiWrite time _) (Steered.refl _))).then_ (Steered.ite ((Steered.refl _).loop _) (Steered.refl _))

/-- A VREF edge within the window of its prediction is taken (R48, R50). -/
theorem execVrefEdge_near {e : Nat} {hi : Bool} (hsrc : s.obj Obj.tbDiscSrc = 2) (hcount : s.time.counting = true) (hpast : tickOf time ≤ s.tick)
    (hdir : s.obj Obj.vrefVrefEdge = 1 → hi = true) (hlast : s.time.lastEdge = some e)
    (hnear : (((time * s.obj Obj.vrefVrefDen : Nat) : Int) - vrefPredicted s e s.time.ahead).natAbs ≤ 64 * s.obj Obj.vrefVrefTol * s.obj Obj.vrefVrefDen) :
    execVrefEdge time hi s = .next ((s.tookEdge time).vrefTook time) := by
  have hgo : ¬(s.obj Obj.tbDiscSrc ≠ 2 ∨ (!s.time.counting) = true ∨ s.tick < tickOf time ∨ (s.obj Obj.vrefVrefEdge = 1 ∧ (!hi) = true)) := by
    simpa [hsrc, hcount, hpast] using hdir
  unfold execVrefEdge
  rw [if_neg hgo]
  dsimp only
  rw [hlast]
  dsimp only
  rw [if_neg (by omega)]

/-- The first VREF edge starts the row (R48). -/
def State.firstEdge : State := s.setTime (fun b => { b with lastEdge := some time, edges := 1, misses := 0, ahead := 1 })

theorem execVrefEdge_first {hi : Bool} (hsrc : s.obj Obj.tbDiscSrc = 2) (hcount : s.time.counting = true) (hpast : tickOf time ≤ s.tick)
    (hdir : s.obj Obj.vrefVrefEdge = 1 → hi = true) (hlast : s.time.lastEdge = none) :
    execVrefEdge time hi s = .next ((s.firstEdge time).vrefTook time) := by
  have hgo : ¬(s.obj Obj.tbDiscSrc ≠ 2 ∨ (!s.time.counting) = true ∨ s.tick < tickOf time ∨ (s.obj Obj.vrefVrefEdge = 1 ∧ (!hi) = true)) := by
    simpa [hsrc, hcount, hpast] using hdir
  unfold execVrefEdge
  rw [if_neg hgo]
  dsimp only
  rw [hlast]
  rfl

/-- An edge that completes no qualification, in no state that follows the source, is only counted. -/
theorem State.vrefTook_only (hcount : s.time.edges < s.obj Obj.tbLockCount) (hok : s.time.sourceOk = false) (hf : s.following = false) :
    s.vrefTook time = s := by
  simp [State.vrefTook, Nat.not_le.mpr hcount, hok, hf]

/-- The timebase after one more miss: the row of edges starts anew (R48). -/
def TimeBase.missed (b : TimeBase) : TimeBase := { b with misses := b.misses + 1, ahead := b.ahead + 1, edges := 0 }

/-- A predicted edge that does not come: one more miss, and at the limit the loss of the source (R48). -/
def State.missEdge (limit : Nat) : State :=
  if limit ≤ s.time.misses + 1 ∨ !s.time.sourceOk then (s.setTime TimeBase.missed).sourceLost (s.tick + 1) else s.setTime TimeBase.missed

theorem execPpsMiss_due {e : Nat} (hsrc : s.obj Obj.tbDiscSrc = 1) (hlast : s.time.lastEdge = some e)
    (hdue : e + 64000000000 * s.time.ahead + 64000000 ≤ 64 * (s.tick + 1)) : execPpsMiss s = .next (s.missEdge (s.obj Obj.tbPpsMissLimit)) := by
  unfold execPpsMiss
  rw [hlast]
  exact if_pos ⟨hsrc, hdue⟩

theorem execVrefMiss_due {e : Nat} (hsrc : s.obj Obj.tbDiscSrc = 2) (hlast : s.time.lastEdge = some e)
    (hdue : vrefPredicted s e s.time.ahead + 64 * s.obj Obj.vrefVrefTol * s.obj Obj.vrefVrefDen < 64 * (s.tick + 1) * s.obj Obj.vrefVrefDen) :
    execVrefMiss s = .next (s.missEdge (s.obj Obj.vrefVrefMissLimit)) := by
  unfold execVrefMiss
  rw [hlast]
  exact if_pos ⟨hsrc, hdue⟩

theorem State.missEdge_below {limit : Nat} (h : s.time.misses + 1 < limit) (hok : s.time.sourceOk = true) :
    s.missEdge limit = s.setTime TimeBase.missed := if_neg (by simp [hok]; omega)

theorem State.missEdge_limit {limit : Nat} (h : limit ≤ s.time.misses + 1) :
    (s.missEdge limit).time.sourceOk = false ∧ (s.missEdge limit).time.lastEdge = none
      ∧ (s.obj Obj.tbDiscState = 2 → (s.missEdge limit).obj Obj.tbDiscState = 3 ∧ (s.missEdge limit).time.holdSince = s.tick + 1) := by
  have hrow : s.missEdge limit = (s.setTime TimeBase.missed).sourceLost (s.tick + 1) := if_pos (.inl h)
  rw [hrow]
  obtain ⟨hok, hlast⟩ := State.sourceLost_unsourced (s.setTime TimeBase.missed) (s.tick + 1)
  refine ⟨hok, hlast, fun hlocked => ?_⟩
  obtain ⟨hstate, hsince⟩ := State.sourceLost_holdover (s.setTime TimeBase.missed) (s.tick + 1) (.inl hlocked)
  exact ⟨hstate, hsince.trans (if_neg (by simp [hlocked]))⟩

theorem execHostTimeout_due {c : Nat} (hsrc : s.obj Obj.tbDiscSrc = 4) (hlast : s.time.lastCorr = some c) (hms : s.obj Obj.corrHostTimeout ≠ 0)
    (hdue : c + 1000000 * s.obj Obj.corrHostTimeout ≤ s.tick + 1) :
    execHostTimeout s = .next ((s.setTime (fun b => { b with lastCorr := none })).sourceLost (s.tick + 1)) := by
  unfold execHostTimeout
  rw [hlast]
  exact if_pos ⟨hsrc, hms, hdue⟩

end

/-- Settles O2: an edge that is taken is counted first, and what it brings leaves the row; a miss at the limit is the loss of the source. -/
theorem sourceEdgesAreTakenOrMissed : Obligations.SourceEdgesAreTakenOrMissed := by
  unfold Obligations.SourceEdgesAreTakenOrMissed
  refine ⟨⟨fun s time e hsrc hcount hpast hlast hnear => ?_, fun s time e hi hsrc hcount hpast hdir hlast hnear => ?_,
    fun s time hi hsrc hcount hpast hdir hlast => ⟨fun hlock hok h2 h4 => ?_, fun hlock => ?_⟩⟩,
    fun s e hsrc hlast hdue => ⟨fun hlim hok => ?_, fun hlim => ?_⟩, fun s e hsrc hlast hdue => ⟨fun hlim hok => ?_, fun hlim => ?_⟩,
    fun s c hsrc hlast hms hdue => ?_⟩
  · obtain ⟨t, ht, htaken⟩ := execPpsEdge_near s time hsrc hcount hpast hlast hnear
    exact ⟨t, ht, htaken.steered.lastEdge, htaken.steered.edges, htaken.steered.misses, htaken.qualified⟩
  · have htaken := State.vrefTook_taken (s.tookEdge time) time
    exact ⟨_, execVrefEdge_near s time hsrc hcount hpast hdir hlast hnear, htaken.steered.lastEdge, htaken.steered.edges, htaken.steered.misses,
      htaken.qualified⟩
  · refine (execVrefEdge_first s time hsrc hcount hpast hdir hlast).trans (congrArg _ ?_)
    exact State.vrefTook_only (s.firstEdge time) time hlock hok
      (Bool.eq_false_iff.mpr (fun hf => ((State.following_iff _).mp hf).elim h2 h4))
  · have htaken := State.vrefTook_taken (s.firstEdge time) time
    exact ⟨_, execVrefEdge_first s time hsrc hcount hpast hdir hlast, htaken.steered.lastEdge, htaken.steered.edges, htaken.qualified hlock⟩
  · exact (execPpsMiss_due s hsrc hlast hdue).trans (congrArg _ (s.missEdge_below hlim hok))
  · exact ⟨_, execPpsMiss_due s hsrc hlast hdue, s.missEdge_limit hlim⟩
  · exact (execVrefMiss_due s hsrc hlast hdue).trans (congrArg _ (s.missEdge_below hlim hok))
  · exact ⟨_, execVrefMiss_due s hsrc hlast hdue, s.missEdge_limit hlim⟩
  · obtain ⟨hok, -⟩ := State.sourceLost_unsourced (s.setTime (fun b => { b with lastCorr := none })) (s.tick + 1)
    refine ⟨_, execHostTimeout_due s hsrc hlast hms hdue, (State.sourceLost_steered _ _).lastCorr, hok, fun hlocked => ?_⟩
    obtain ⟨hstate, hsince⟩ := State.sourceLost_holdover (s.setTime (fun b => { b with lastCorr := none })) (s.tick + 1) (.inl hlocked)
    exact ⟨hstate, hsince.trans (if_neg (by simp [hlocked]))⟩

end Sys2Proof.Machine

namespace Sys2Proof.Machine

/-! The queues that capture, after a change of an object that is no queue's. -/

section
variable {α : Type}

theorem Tab.mem_del_iff {t : Tab α} {i : Nat} {e : Nat × α} : e ∈ t.del i ↔ e ∈ t ∧ e.1 ≠ i := by
  induction t with
  | nil => simp [Tab.del]
  | cons x t ih =>
    by_cases hx : x.1 = i
    · rw [show Tab.del (x :: t) i = Tab.del t i by simp [Tab.del, hx], ih, List.mem_cons]
      exact ⟨fun h => ⟨.inr h.1, h.2⟩, fun h => ⟨h.1.resolve_left (fun e => h.2 (e ▸ hx)), h.2⟩⟩
    · rw [show Tab.del (x :: t) i = x :: Tab.del t i by simp [Tab.del, hx], List.mem_cons, ih, List.mem_cons]
      exact ⟨fun h => h.elim (fun e => ⟨.inl e, e ▸ hx⟩) (fun h => ⟨.inr h.1, h.2⟩), fun h => h.1.imp_right (fun g => ⟨g, h.2⟩)⟩

theorem Tab.mem_ins_iff {t : Tab α} {i : Nat} {x : α} {e : Nat × α} : e ∈ t.ins i x ↔ e = (i, x) ∨ e ∈ t := by
  induction t with
  | nil => simp [Tab.ins]
  | cons y t ih =>
    by_cases hi : i < y.1
    · rw [show Tab.ins (y :: t) i x = (i, x) :: y :: t by simp [Tab.ins, hi], List.mem_cons]
    · rw [show Tab.ins (y :: t) i x = y :: Tab.ins t i x by simp [Tab.ins, hi], List.mem_cons, ih, List.mem_cons]
      exact or_left_comm

/-- Giving a key a value leaves the pairs of the others. -/
theorem Tab.mem_put_ne [DecidableEq α] {t : Tab α} {i : Nat} {d x : α} {e : Nat × α} (h : e.1 ≠ i) : e ∈ t.put i d x ↔ e ∈ t := by
  have hne : e ≠ (i, x) := fun he => h (by rw [he])
  by_cases hx : x = d
  · simp [Tab.put, hx, Tab.mem_del_iff, h]
  · simp [Tab.put, Tab.set, hx, Tab.mem_ins_iff, Tab.mem_del_iff, h, hne]

end

section
variable (s : State)

/-- Dropping neighbours that repeat leaves the members. -/
theorem mem_foldr_dedup {l : List Nat} {q : Nat} :
    q ∈ l.foldr (fun q l => if l.head? = some q then l else q :: l) [] ↔ q ∈ l := by
  induction l with
  | nil => simp
  | cons x l ih =>
    rw [List.foldr_cons, List.mem_cons, ← ih]
    split
    · next h => exact ⟨.inr, fun hq => hq.elim (fun e => e ▸ List.mem_of_mem_head? h) id⟩
    · exact List.mem_cons

/-- The queues that the dictionary lists an object of. -/
theorem State.mem_queueList {q : Nat} : q ∈ s.queueList ↔ ∃ e ∈ s.dict, (0x4000 ≤ e.1 / 256 ∧ e.1 / 256 < 0x5000) ∧ q = e.1 / 256 - 0x4000 := by
  unfold State.queueList
  rw [mem_foldr_dedup, List.mem_filterMap]
  refine exists_congr (fun e => and_congr_right fun _ => ?_)
  dsimp only
  split
  · next h => simp [h, eq_comm]
  · next h => simp [h]

/-- An object that is no queue's says nothing of which queues capture. -/
theorem State.anyCapturing_setObj {k : Nat} (hk : ¬(0x4000 ≤ k / 256 ∧ k / 256 < 0x5000)) (v : Nat) :
    (s.setObj k v).queueList.any (s.setObj k v).capturing = s.queueList.any s.capturing := by
  have hmem (q : Nat) : q ∈ (s.setObj k v).queueList ↔ q ∈ s.queueList := by
    simp only [State.mem_queueList]
    refine exists_congr (fun e => ?_)
    by_cases he : e.1 = k
    · exact iff_of_false (fun h => hk (he ▸ h.2.1)) (fun h => hk (he ▸ h.2.1))
    · exact and_congr_left fun _ => Tab.mem_put_ne he
  have hcap (q : Nat) (hq : q ∈ s.queueList) : (s.setObj k v).capturing q = s.capturing q := by
    have hlt := State.lt_of_mem_queueList hq
    have hne : Obj.qState q ≠ k := fun h => hk (by rw [← h]; unfold Obj.qState; omega)
    simp only [State.capturing, State.obj_setObj_ne _ _ hne]
  rw [Bool.eq_iff_iff, List.any_eq_true, List.any_eq_true]
  exact exists_congr fun q => ⟨fun h => ⟨(hmem q).mp h.1, (hcap q ((hmem q).mp h.1)) ▸ h.2⟩, fun h => ⟨(hmem q).mpr h.1, (hcap q h.1).symm ▸ h.2⟩⟩

end

end Sys2Proof.Machine

namespace Sys2Proof.Machine

/-! The objects of a cascade port, and ALIGN_STATE (R61 to R65). -/

section
variable {n i : Nat}

/-- The objects of the cascade ports are neither the discipline's nor a report's. -/
theorem cascKey_apart (hn : n < 4) (hi : i < 256) : reportKey ((0x5E00 + n) * 256 + i) = false ∧ (0x5E00 + n) * 256 + i ∉ steerKeys := by
  have hix : ((0x5E00 + n) * 256 + i) / 256 = 0x5E00 + n := by omega
  constructor
  · unfold reportKey
    rw [hix]
    have hdev : (0x5E00 + n) * 256 + i ≠ Obj.devDevState := by unfold Obj.devDevState; omega
    have hdrop : (0x5E00 + n) * 256 + i ≠ Obj.hostCntNoteDropped := by unfold Obj.hostCntNoteDropped; omega
    have hsub : ¬(0x5E00 + n < 0x1118) := by omega
    simp [hdev, hdrop, hsub]
  · unfold steerKeys Obj.tbDiscState Obj.synTSynWord Obj.tbLastJump
    simp only [List.mem_cons, List.not_mem_nil, or_false]
    omega

/-- The objects of the cascade ports differ where their sub-indices do. -/
theorem cascKey_ne {m j : Nat} (h : i % 256 ≠ j % 256) : (0x5E00 + n) * 256 + i ≠ (0x5E00 + m) * 256 + j := by omega

/-- No object below the cascade ports' is one of theirs. -/
theorem ne_cascKey {k : Nat} (h : k < 0x5E0000) : k ≠ (0x5E00 + n) * 256 + i := by omega

/-- PHASE_ERR is a 32-bit signed object. -/
theorem findObj_cpPhaseErr (hn : n < 4) : (findObj (Obj.cpPhaseErr n)).map (·.ty.width) = some 32 := by
  interval_cases n <;> decide +kernel

end

section
variable (s : State)

theorem State.int_congr {s t : State} {k : Key} (h : t.obj k = s.obj k) : t.int k = s.int k := by
  unfold State.int
  rw [h]

theorem toInt_ofInt_32 {v : Int} (hlo : -2147483648 ≤ v) (hhi : v ≤ 2147483647) : toInt 32 (ofInt 32 v) = v := by
  unfold toInt ofInt
  norm_num
  split <;> omega

/-- A 32-bit signed object reads the value it was given. -/
theorem State.int_setInt_32 {k : Key} {v : Int} (hk : (findObj k).map (·.ty.width) = some 32) (hlo : -2147483648 ≤ v) (hhi : v ≤ 2147483647) :
    (s.setInt k v).int k = v := by
  obtain ⟨d, hd, hw⟩ := Option.map_eq_some_iff.mp hk
  simp only [State.int, State.setInt, hd, State.obj_setObj_self, hw]
  exact toInt_ofInt_32 hlo hhi

theorem clampI_32_mem (v : Int) : -2147483648 ≤ clampI (-2147483648) 2147483647 v ∧ clampI (-2147483648) 2147483647 v ≤ 2147483647 := by
  unfold clampI
  split
  · omega
  · split <;> omega

/-- A signed object that is given a value changes alone. -/
theorem State.setInt_eq (k : Key) (v : Int) : s.setInt k v = { s with dict := (s.setInt k v).dict } := by
  unfold State.setInt
  split <;> rfl

theorem State.obj_setInt_ne {k j : Key} (v : Int) (h : k ≠ j) : (s.setInt j v).obj k = s.obj k := by
  unfold State.setInt
  split
  · exact State.obj_setObj_ne _ _ h
  · rfl

theorem State.anyCapturing_setInt {k : Nat} (hk : ¬(0x4000 ≤ k / 256 ∧ k / 256 < 0x5000)) (v : Int) :
    (s.setInt k v).queueList.any (s.setInt k v).capturing = s.queueList.any s.capturing := by
  unfold State.setInt
  split
  · exact State.anyCapturing_setObj s hk _
  · rfl

variable (n st : Nat)

/-- ALIGN_STATE moves, RX_LATENCY with it, and a free value may be taken for it. -/
theorem State.alignTo_eq : s.alignTo n st = { s with dict := (s.alignTo n st).dict, free := (s.alignTo n st).free } := by
  unfold State.alignTo
  dsimp only
  split
  · rfl
  · split <;> rfl

theorem State.alignTo_obj {k : Key} (hk : k ≠ Obj.cpRxLatency n) : (s.alignTo n st).obj k = if k = Obj.cpAlignState n then st else s.obj k := by
  rw [← State.obj_setObj]
  unfold State.alignTo
  dsimp only
  split
  · exact State.obj_setObj_ne _ _ hk
  · split
    · rfl
    · exact State.obj_setObj_ne (s := { s.setObj (Obj.cpAlignState n) st with free := s.free + 1 }) _ hk

@[simp] theorem State.alignTo_alignState : (s.alignTo n st).obj (Obj.cpAlignState n) = st := by
  have hne : Obj.cpAlignState n ≠ Obj.cpRxLatency n := cascKey_ne (by decide)
  rw [State.alignTo_obj _ _ _ hne, if_pos rfl]

theorem State.alignTo_obj_ne {k : Key} (hk : k ≠ Obj.cpRxLatency n) (ha : k ≠ Obj.cpAlignState n) : (s.alignTo n st).obj k = s.obj k := by
  rw [State.alignTo_obj _ _ _ hk, if_neg ha]

/-- Only a port that comes to be ALIGNED takes a free value. -/
theorem State.alignTo_free {st : Nat} (h : st ≠ 3) : (s.alignTo n st).free = s.free := by
  unfold State.alignTo
  dsimp only
  rw [if_pos h]
  rfl

@[simp] theorem State.alignTo_time : (s.alignTo n st).time = s.time := by rw [State.alignTo_eq]
@[simp] theorem State.alignTo_tick : (s.alignTo n st).tick = s.tick := by rw [State.alignTo_eq]
@[simp] theorem State.alignTo_landing : (s.alignTo n st).landing = s.landing := by rw [State.alignTo_eq]
@[simp] theorem State.alignTo_ports : (s.alignTo n st).ports = s.ports := by rw [State.alignTo_eq]
@[simp] theorem State.alignTo_cascPort (m : Nat) : (s.alignTo n st).cascPort m = s.cascPort m := by rw [State.alignTo_eq]; rfl
@[simp] theorem State.setInt_time (k : Key) (v : Int) : (s.setInt k v).time = s.time := by rw [State.setInt_eq]
@[simp] theorem State.setInt_tick (k : Key) (v : Int) : (s.setInt k v).tick = s.tick := by rw [State.setInt_eq]
@[simp] theorem State.setInt_cascPort (k : Key) (v : Int) (m : Nat) : (s.setInt k v).cascPort m = s.cascPort m := by rw [State.setInt_eq]; rfl
@[simp] theorem State.setObj_cascPort (k v m : Nat) : (s.setObj k v).cascPort m = s.cascPort m := rfl

@[simp] theorem State.takeMapping_obj (p : TimePoint) (k : Key) : (s.takeMapping p).obj k = s.obj k := rfl
@[simp] theorem State.takeMapping_tick (p : TimePoint) : (s.takeMapping p).tick = s.tick := rfl
@[simp] theorem State.takeMapping_landing (p : TimePoint) : (s.takeMapping p).landing = s.landing := rfl
@[simp] theorem State.takeMapping_ports (p : TimePoint) : (s.takeMapping p).ports = s.ports := rfl
@[simp] theorem State.takeMapping_cascPort (p : TimePoint) (m : Nat) : (s.takeMapping p).cascPort m = s.cascPort m := rfl

@[simp] theorem State.takeMapping_sourceOk (p : TimePoint) : (s.takeMapping p).time.sourceOk = s.time.sourceOk := by
  unfold State.takeMapping
  simp only [State.setTime_time]
  split <;> rfl

@[simp] theorem State.takeMapping_lastUpdate (p : TimePoint) : (s.takeMapping p).time.lastUpdate = s.time.lastUpdate := by
  unfold State.takeMapping
  simp only [State.setTime_time]
  split <;> rfl

theorem State.alignPort_iff : s.alignPort n = true ↔ s.obj Obj.tbDiscSrc = 3 ∧ s.obj Obj.tbCascadePort = n := by
  simp [State.alignPort]

theorem State.alignPort_eq_false : s.alignPort n = false ↔ ¬(s.obj Obj.tbDiscSrc = 3 ∧ s.obj Obj.tbCascadePort = n) := by
  rw [← Bool.not_eq_true, State.alignPort_iff]

end

/-! The alignment words (R48, R61 to R64). -/

section
variable (s : State) (n : Nat)

theorem execAlignWordSend_due (hn : n < 4) (hsync : (s.cascPort n).sync = true) (halign : ¬(s.obj Obj.tbDiscSrc = 3 ∧ s.obj Obj.tbCascadePort = n))
    (hdue : ∀ x, (s.cascPort n).lastSent = some x → x + 1024 ≤ s.tick + 1) (hidle : ∀ x, (s.cascPort n).lastMsg = some x → x + 16 ≤ s.tick + 1)
    (hcount : s.time.counting = true) (h4 : (s.tick + 1) % 4 = 0) :
    execAlignWordSend n s = .next (
      (s.fresh.2.setCasc n (fun p => { p with lastSent := some (s.tick + 1), busyUntil := s.tick + 1 + s.fresh.1 % 1024 })).emit (.cascade n (le 8 (s.tick + 1) ++ s.time.point.bytes))) := by
  have hd : ((s.cascPort n).lastSent.map (fun x => decide (x + 1024 ≤ s.tick + 1))).getD true = true := by
    cases hl : (s.cascPort n).lastSent with
    | none => rfl
    | some x => simpa using hdue x hl
  have hi : ((s.cascPort n).lastMsg.map (fun x => decide (x + 16 ≤ s.tick + 1))).getD true = true := by
    cases hl : (s.cascPort n).lastMsg with
    | none => rfl
    | some x => simpa using hidle x hl
  have ha : (!s.alignPort n) = true := by rw [(s.alignPort_eq_false n).mpr halign]; rfl
  exact if_pos ⟨hn, hsync, h4, ha, hd, hi, hcount⟩

/-- A word that arrives on the port aligned to: RTT, the tick of the word and PHASE_ERR (R62). -/
def State.wordIn (rtt : Nat) (err : Int) : State :=
  ((s.setObj (Obj.cpRtt n) (satN 32 rtt)).setCasc n (fun p => { p with lastWord := some s.tick })).setInt (Obj.cpPhaseErr n)
    (clampI (-2147483648) 2147483647 err)

/-- What a word has measured, and the tick at which it came. -/
structure WordIn (s : State) (n rtt : Nat) (err : Int) (t : State) : Prop where
  rtt : t.obj (Obj.cpRtt n) = satN 32 rtt
  phaseErr : t.int (Obj.cpPhaseErr n) = clampI (-2147483648) 2147483647 err
  lastWord : (t.cascPort n).lastWord = some s.tick

theorem State.wordIn_obj (rtt : Nat) (err : Int) {k : Key} (hr : k ≠ Obj.cpRtt n) (hp : k ≠ Obj.cpPhaseErr n) : (s.wordIn n rtt err).obj k = s.obj k := by
  unfold State.wordIn
  rw [State.obj_setInt_ne _ _ hp, State.setCasc_obj, State.obj_setObj_ne _ _ hr]

theorem State.wordIn_anyCapturing (hn : n < 4) (rtt : Nat) (err : Int) :
    (s.wordIn n rtt err).queueList.any (s.wordIn n rtt err).capturing = s.queueList.any s.capturing := by
  have hkey (i : Nat) (hi : i < 256) : ¬(0x4000 ≤ ((0x5E00 + n) * 256 + i) / 256 ∧ ((0x5E00 + n) * 256 + i) / 256 < 0x5000) := by omega
  exact (State.anyCapturing_setInt _ (hkey 4 (by decide)) _).trans (State.anyCapturing_setObj s (hkey 3 (by decide)) _)

namespace WordIn

variable {s t u : State} {n rtt : Nat} {err : Int}

theorem wordIn (hn : n < 4) : WordIn s n rtt err (s.wordIn n rtt err) := by
  obtain ⟨hlo, hhi⟩ := clampI_32_mem err
  refine ⟨?_, State.int_setInt_32 _ (findObj_cpPhaseErr hn) hlo hhi, ?_⟩
  · have hne : Obj.cpRtt n ≠ Obj.cpPhaseErr n := cascKey_ne (by decide)
    unfold State.wordIn
    rw [State.obj_setInt_ne _ _ hne, State.setCasc_obj, State.obj_setObj_self]
  · simp [State.wordIn]

/-- What leaves the port's objects and its last word leaves what the word has measured. -/
theorem of_same (h : WordIn s n rtt err t) (hobj : ∀ i : Nat, i = 3 ∨ i = 4 → u.obj ((0x5E00 + n) * 256 + i) = t.obj ((0x5E00 + n) * 256 + i))
    (hcasc : (u.cascPort n).lastWord = (t.cascPort n).lastWord) : WordIn s n rtt err u :=
  ⟨(hobj 3 (.inl rfl)).trans h.rtt, (State.int_congr (hobj 4 (.inr rfl))).trans h.phaseErr, hcasc.trans h.lastWord⟩

theorem alignTo (h : WordIn s n rtt err t) (st : Nat) : WordIn s n rtt err (t.alignTo n st) :=
  h.of_same (fun i hi => State.alignTo_obj_ne _ _ _ (cascKey_ne (by omega)) (cascKey_ne (by omega)))
    (by rw [State.alignTo_cascPort])

theorem steered (h : WordIn s n rtt err t) (hn : n < 4) (g : Steered t u) : WordIn s n rtt err u := by
  refine h.of_same (fun i hi => ?_) (by rw [g.cascPort])
  obtain ⟨hrep, hkey⟩ := cascKey_apart hn (show i < 256 by omega)
  exact g.objs _ hrep hkey

theorem takeMapping (h : WordIn s n rtt err t) (p : TimePoint) : WordIn s n rtt err (t.takeMapping p) := h.of_same (fun _ _ => rfl) rfl

end WordIn

end

section
variable (s : State) (n : Nat)

/-- A word on a port that alignment is not taken from only tells the round trip (R62). -/
theorem execAlignWordReceive_aside (count arrival : Nat) (point : Bytes) (rtt : Nat) (hn : n < 4) (hsync : (s.cascPort n).sync = true)
    (hpast : tickOf arrival ≤ s.tick) (hcount : s.time.counting = true) (halign : s.alignPort n = false) :
    execAlignWordReceive n count arrival point rtt s = .next (s.setObj (Obj.cpRtt n) (satN 32 rtt)) := by
  have hgo : ¬(4 ≤ n ∨ (!(s.cascPort n).sync) = true ∨ s.tick < tickOf arrival ∨ (!s.time.counting) = true) := by
    simp [hsync, hcount, hpast, hn]
  unfold execAlignWordReceive
  rw [if_neg hgo]
  exact if_pos (by rw [halign]; rfl)

/-- What a word does on the port aligned to, once it is measured (R48, R63, R64): while ACQUIRING its load waits; in a holdover it qualifies the
source; while HELD its jump is measured; else the loop updates. -/
def State.wordTakes (s : State) (n : Nat) (t : Tick) (err j : Int) (arrival : Nat) (p : TimePoint) : State :=
  if s.obj Obj.tbDiscState = dsAcquiring then
    (s.setCasc n (fun c => { c with load := some (-err), carried := p })).alignTo n (if s.queueList.any s.capturing then 4 else 2)
  else if s.obj Obj.tbDiscState = dsHoldover ∧ !s.time.sourceOk then (s.alignTo n 3).qualify j arrival
  else if s.obj Obj.tbDiscState = dsHeld then (s.alignTo n 3).setInt Obj.tbLastJump j
  else ((s.alignTo n 3).loop t).takeMapping p

theorem execAlignWordReceive_aligned (count arrival : Nat) (point : Bytes) (rtt : Nat) (hn : n < 4) (hsync : (s.cascPort n).sync = true)
    (hpast : tickOf arrival ≤ s.tick) (hcount : s.time.counting = true) (halign : s.alignPort n = true) :
    ∃ j, execAlignWordReceive n count arrival point rtt s = .next
      ((s.wordIn n rtt ((arrival : Int) - (64 * count + s.obj (Obj.cpCableDelay n) : Nat))).wordTakes n (s.tick + 1)
        ((arrival : Int) - (64 * count + s.obj (Obj.cpCableDelay n) : Nat)) j arrival (pointOf point)) := by
  have hgo : ¬(4 ≤ n ∨ (!(s.cascPort n).sync) = true ∨ s.tick < tickOf arrival ∨ (!s.time.counting) = true) := by
    simp [hsync, hcount, hpast, hn]
  have herr : (arrival : Int) - (64 * count + s.obj (Obj.cpCableDelay n)) = (arrival : Int) - (64 * count + s.obj (Obj.cpCableDelay n) : Nat) := by
    push_cast; rfl
  refine ⟨if (pointOf point).valid then (((pointOf point).taiAt (64 * count) : Int)
      - (s.wordIn n rtt ((arrival : Int) - (64 * count + s.obj (Obj.cpCableDelay n) : Nat))).time.taiOf (arrival - s.obj (Obj.cpCableDelay n))) / 1024
    else -((arrival : Int) - (64 * count + s.obj (Obj.cpCableDelay n) : Nat)), ?_⟩
  unfold execAlignWordReceive State.wordTakes
  rw [if_neg hgo]
  dsimp only
  rw [if_neg (by rw [halign]; decide), herr]
  simp only [State.alignTo_time, apply_ite Host.Outcome.next]
  rfl

variable {s n} {rtt arrival : Nat} {err e j : Int} {t : State} {p : TimePoint} {x : Tick}

/-- What a word brings leaves what it has measured. -/
theorem WordIn.wordTakes (h : WordIn s n rtt err t) (hn : n < 4) : WordIn s n rtt err (t.wordTakes n x e j arrival p) := by
  unfold State.wordTakes
  split
  · have hload : WordIn s n rtt err (t.setCasc n (fun c => { c with load := some (-e), carried := p })) := h.of_same (fun _ _ => rfl) (by simp)
    exact hload.alignTo _
  · split
    · exact (h.alignTo 3).steered hn (Steered.qualify (Steered.refl _) j arrival)
    · split
      · exact (h.alignTo 3).steered hn ((Steered.refl _).setInt (by decide) j)
      · exact ((h.alignTo 3).steered hn ((Steered.refl _).loop x)).takeMapping p

/-- While ACQUIRING the load that would make the phase error zero waits, BLOCKED_CAPTURING while a queue captures (R63). -/
theorem State.wordTakes_acquiring (h : t.obj Obj.tbDiscState = 1) :
    (t.wordTakes n x e j arrival p).obj (Obj.cpAlignState n) = (if t.queueList.any t.capturing then 4 else 2)
    ∧ ((t.wordTakes n x e j arrival p).cascPort n).load = some (-e) := by
  rw [show t.wordTakes n x e j arrival p = _ from if_pos h]
  simp

/-- In LOCKED the port is ALIGNED and the loop updates (R48, R64). -/
theorem State.wordTakes_locked (h : t.obj Obj.tbDiscState = 2) :
    (t.wordTakes n x e j arrival p).obj (Obj.cpAlignState n) = 3 ∧ (t.wordTakes n x e j arrival p).time.lastUpdate = x := by
  unfold State.wordTakes
  rw [if_neg (by rw [h]; decide), if_neg (by rw [h]; simp [dsHoldover]), if_neg (by rw [h]; decide)]
  have hkey : Obj.cpAlignState n ≠ Obj.synTSynWord := (ne_cascKey (by decide)).symm
  simp [State.loop_obj_ne _ _ hkey]

end

/-! Loss and gain of a cascade port's synchronisation (R48, R61). -/

section
variable (s : State) (n : Nat)

/-- On the port aligned to, ALIGN_STATE moves and the source is lost. -/
theorem State.alignTo_sourceLost (hn : n < 4) (st : Nat) (t : Tick) :
    ((s.alignTo n st).sourceLost t).obj (Obj.cpAlignState n) = st ∧ ((s.alignTo n st).sourceLost t).time.sourceOk = false
    ∧ (∀ m, ((s.alignTo n st).sourceLost t).cascPort m = s.cascPort m)
    ∧ (s.obj Obj.tbDiscState = 2 → ((s.alignTo n st).sourceLost t).obj Obj.tbDiscState = 3) := by
  have hsteer := (s.alignTo n st).sourceLost_steered t
  obtain ⟨hrep, hkey⟩ := cascKey_apart hn (show 2 < 256 by decide)
  have hdisc : (s.alignTo n st).obj Obj.tbDiscState = s.obj Obj.tbDiscState :=
    State.alignTo_obj_ne _ _ _ (ne_cascKey (by decide)) (ne_cascKey (by decide))
  refine ⟨(hsteer.objs _ hrep hkey).trans (s.alignTo_alignState n st), (State.sourceLost_unsourced _ t).1, fun m => ?_, fun h => ?_⟩
  · exact (hsteer.cascPort m).trans (s.alignTo_cascPort n st m)
  · exact (State.sourceLost_holdover _ t (.inl (hdisc.trans h))).1

theorem execAlignWordTimeout_due {w : Nat} (halign : s.alignPort n = true) (hlast : (s.cascPort n).lastWord = some w) (hdue : w + 4096 ≤ s.tick + 1) :
    execAlignWordTimeout n s = .next (((s.setCasc n (fun p => { p with lastWord := none, load := none })).alignTo n 2).sourceLost (s.tick + 1)) := by
  unfold execAlignWordTimeout
  rw [hlast]
  exact if_pos ⟨halign, hdue⟩

theorem execCascadeSync_gain (hn : n < 4) (hsync : (s.cascPort n).sync = false) (hcount : s.time.counting = true) :
    execCascadeSync n s = .next (let s1 := s.setCasc n (fun p => { p with sync := true, lastSent := none })
      if s.alignPort n then s1.alignTo n 2 else s1) := if_pos ⟨hn, by rw [hsync]; rfl, hcount⟩

theorem execCascadeSyncLoss_loss (hn : n < 4) (hsync : (s.cascPort n).sync = true) :
    execCascadeSyncLoss n s = .next (let s1 := s.setCasc n (fun p => { p with sync := false, lastWord := none, load := none })
      if s.alignPort n then (s1.alignTo n 1).sourceLost (s.tick + 1) else s1) := if_pos ⟨hn, hsync⟩

end

/-- Settles O7: a word is measured first, and what it brings leaves that; a loss on the port aligned to is the loss of the source. -/
theorem alignmentWordsMeasureAndKeepTheAlignment : Obligations.AlignmentWordsMeasureAndKeepTheAlignment := by
  unfold Obligations.AlignmentWordsMeasureAndKeepTheAlignment
  refine ⟨⟨fun s n hn hsync halign hdue hidle hcount h4 => ?_, fun s n count arrival point rtt hn hsync hpast hcount => ⟨fun halign => ?_, fun hsrc hport => ?_⟩⟩,
    fun s n w hsrc hport hn hlast hdue => ?_, fun s n hn hsync hcount => ?_, fun s n hn hsync => ?_⟩
  · refine ⟨_, execAlignWordSend_due s n hn hsync halign hdue hidle hcount h4, rfl, ?_, fun m hm => ?_⟩
    · rw [State.cascPort_emit, State.cascPort_setCasc_self]; rfl
    · rw [State.cascPort_emit, State.cascPort_setCasc, if_neg hm]; rfl
  · exact execAlignWordReceive_aside s n count arrival point rtt hn hsync hpast hcount ((s.alignPort_eq_false n).mpr halign)
  · obtain ⟨j, hrow⟩ := execAlignWordReceive_aligned s n count arrival point rtt hn hsync hpast hcount ((s.alignPort_iff n).mpr ⟨hsrc, hport⟩)
    have hin := (WordIn.wordIn (s := s) (rtt := rtt) (err := (arrival : Int) - (64 * count + s.obj (Obj.cpCableDelay n) : Nat)) hn).wordTakes
      (x := s.tick + 1) (e := (arrival : Int) - (64 * count + s.obj (Obj.cpCableDelay n) : Nat)) (j := j) (arrival := arrival) (p := pointOf point) hn
    have hdisc := s.wordIn_obj n rtt ((arrival : Int) - (64 * count + s.obj (Obj.cpCableDelay n) : Nat)) (k := Obj.tbDiscState)
      (ne_cascKey (by decide)) (ne_cascKey (by decide))
    refine ⟨_, hrow, hin.rtt, hin.phaseErr, hin.lastWord, fun h => ?_, fun h => State.wordTakes_locked (hdisc.trans h)⟩
    rw [← s.wordIn_anyCapturing n hn rtt ((arrival : Int) - (64 * count + s.obj (Obj.cpCableDelay n) : Nat))]
    exact State.wordTakes_acquiring (hdisc.trans h)
  · obtain ⟨hst, hok, hcasc, hheld⟩ := (s.setCasc n (fun p => { p with lastWord := none, load := none })).alignTo_sourceLost n hn 2 (s.tick + 1)
    exact ⟨_, execAlignWordTimeout_due s n ((s.alignPort_iff n).mpr ⟨hsrc, hport⟩) hlast hdue, by rw [hcasc]; simp, by rw [hcasc]; simp, hst, hok, hheld⟩
  · refine ⟨_, execCascadeSync_gain s n hn hsync hcount, ?_⟩
    dsimp only
    split
    · next h =>
      rw [if_pos ((s.alignPort_iff n).mp h)]
      refine ⟨?_, by simp, fun m hm => by simp [State.cascPort_setCasc, hm], fun k hk => ?_, by simp⟩
      · rw [State.alignTo_eq, State.alignTo_free _ _ (by decide)]; rfl
      · simp only [List.mem_cons, List.not_mem_nil, or_false, not_or] at hk
        rw [State.alignTo_obj_ne _ _ _ hk.2 hk.1, State.setCasc_obj]
    · next h =>
      rw [if_neg ((s.alignPort_eq_false n).mp (by simpa using h))]
      exact ⟨rfl, by simp, fun m hm => by simp [State.cascPort_setCasc, hm], fun k _ => rfl, rfl⟩
  · refine ⟨_, execCascadeSyncLoss_loss s n hn hsync, ?_⟩
    dsimp only
    split
    · next h =>
      obtain ⟨hst, hok, hcasc, -⟩ := (s.setCasc n (fun p => { p with sync := false, lastWord := none, load := none })).alignTo_sourceLost n hn 1 (s.tick + 1)
      exact ⟨by rw [hcasc]; simp, fun m hm => by rw [hcasc]; simp [State.cascPort_setCasc, hm], fun hn => absurd ((s.alignPort_iff n).mp h) hn,
        fun _ _ => ⟨hst, hok⟩⟩
    · next h =>
      exact ⟨by simp, fun m hm => by simp [State.cascPort_setCasc, hm], fun _ => rfl, fun hsrc hport => absurd ((s.alignPort_iff n).mpr ⟨hsrc, hport⟩) h⟩

end Sys2Proof.Machine

namespace Sys2Proof.Machine

/-! A load of the tick counter (R40, R63), and the commits that end with it (R518). -/

section
variable (s : State)

/-- The end of a commit that is cancelled (R518). -/
def Pending.cancelled (c : Pending) (reason : Nat) (t : Tick) : Landing :=
  { c.landing t with fixed := some (stRejected, reason) }

/-- Commits that are cancelled leave their ports, and their ends wait for the tick; nothing else changes. -/
theorem State.foldl_cancelCommit (reason : Nat) (t : Tick) (l : List Pending) :
    ∃ p, l.foldl (fun s c => s.cancelCommit c reason t) s = { s with ports := p, landing := s.landing ++ l.map (fun c => c.cancelled reason t) } := by
  induction l generalizing s with
  | nil => exact ⟨s.ports, by simp⟩
  | cons c l ih =>
    obtain ⟨p, hp⟩ := ih (s.cancelCommit c reason t)
    exact ⟨p, by rw [List.foldl_cons, hp, List.map_cons, List.append_cons]; rfl⟩

theorem State.cancelAll_eq (ports : Nat → Bool) (reason : Nat) (t : Tick) :
    ∃ p, s.cancelAll ports reason t = { s with
      ports := p, landing := s.landing ++ (s.allPending.filter (fun c => ports c.iss.port)).map (fun c => c.cancelled reason t) } :=
  s.foldl_cancelCommit reason t _

@[simp] theorem State.shiftTicks_obj (d : Int) (k : Key) : (s.shiftTicks d).obj k = s.obj k := rfl

@[simp] theorem State.shiftTicks_tick (d : Int) : (s.shiftTicks d).tick = moveTick d s.tick := rfl

/-- Renumbering the ticks leaves the pending commits. -/
theorem State.shiftTicks_allPending (d : Int) : (s.shiftTicks d).allPending = s.allPending := by
  have hports : (s.shiftTicks d).ports.flatMap (fun p => p.2.pend) = s.ports.flatMap (fun p => p.2.pend) := List.flatMap_map ..
  unfold State.allPending
  rw [hports]

theorem State.allPending_congr {s t : State} (h : t.ports = s.ports) : t.allPending = s.allPending := by
  unfold State.allPending
  rw [h]

/-- The load that waits on the port aligned to, while no queue captures (R63). -/
def State.loaded (s : State) (n : Nat) (l : Int) : State :=
  let u := s.shiftTicks (loadTicks l)
  (((u.setCasc n (fun p => { p with load := none, lastWord := some u.tick })).alignTo n 3).qualify 0 (ofTick (u.tick + 1))).takeMapping (s.cascPort n).carried

theorem State.tickLoad_some {l : Int} (hsrc : s.obj Obj.tbDiscSrc = 3) (hload : (s.cascPort (s.obj Obj.tbCascadePort)).load = some l)
    (hcap : s.queueList.any s.capturing = false) : s.tickLoad = some (s.loaded (s.obj Obj.tbCascadePort) l) := by
  unfold State.tickLoad
  dsimp only
  rw [hload]
  exact if_neg (by simp [hsrc, hcap])

variable {n : Nat} (l : Int)

theorem State.loaded_obj (hn : n < 4) : (s.loaded n l).obj (Obj.cpAlignState n) = 3 := by
  obtain ⟨hrep, hkey⟩ := cascKey_apart hn (show 2 < 256 by decide)
  unfold State.loaded
  exact ((Steered.qualify (Steered.refl _) 0 _).objs _ hrep hkey).trans (State.alignTo_alignState ..)

theorem State.loaded_load : ((s.loaded n l).cascPort n).load = none := by
  unfold State.loaded
  rw [State.takeMapping_cascPort, (Steered.qualify (Steered.refl _) 0 _).cascPort, State.alignTo_cascPort, State.cascPort_setCasc_self]

theorem State.loaded_sourceOk : (s.loaded n l).time.sourceOk = true := by
  unfold State.loaded
  rw [State.takeMapping_sourceOk, State.qualify_sourceOk]

theorem State.loaded_tick : (s.loaded n l).tick = ((s.tick : Int) + (l + 32) / 64).toNat := by
  unfold State.loaded
  rw [State.takeMapping_tick, (Steered.qualify (Steered.refl _) 0 _).tick, State.alignTo_tick]
  rfl

theorem State.loaded_allPending : (s.loaded n l).allPending = s.allPending := by
  rw [← s.shiftTicks_allPending (loadTicks l)]
  unfold State.loaded
  refine State.allPending_congr ?_
  rw [State.takeMapping_ports, (Steered.qualify (Steered.refl _) 0 _).ports, State.alignTo_ports]
  rfl

end

/-- Settles O9: the load moves the count and qualifies the source; the commits it cancels are those pending before it. -/
theorem tickLoadMovesTheCountAndEndsPendingCommits : Obligations.TickLoadMovesTheCountAndEndsPendingCommits := by
  unfold Obligations.TickLoadMovesTheCountAndEndsPendingCommits
  intro s l hsrc hn hload hcap
  have htick := s.loaded_tick (n := s.obj Obj.tbCascadePort) l
  have hnone := s.loaded_load (n := s.obj Obj.tbCascadePort) l
  have halign := s.loaded_obj l hn
  have hok := s.loaded_sourceOk (n := s.obj Obj.tbCascadePort) l
  have hpend := s.loaded_allPending (n := s.obj Obj.tbCascadePort) l
  have hrow : exec .tickLoad s = .next ((s.loaded (s.obj Obj.tbCascadePort) l).cancelAll (fun _ => true) reTickLoaded
      (s.loaded (s.obj Obj.tbCascadePort) l).tick) := by
    show execTickLoad s = _
    unfold execTickLoad
    rw [s.tickLoad_some hsrc hload hcap]
  generalize s.loaded (s.obj Obj.tbCascadePort) l = u at *
  obtain ⟨p, hp⟩ := u.cancelAll_eq (fun _ => true) reTickLoaded u.tick
  rw [hp] at hrow
  refine ⟨_, hrow, htick, hnone, halign, hok, fun c hc => ⟨c.cancelled reTickLoaded u.tick, ?_, rfl, rfl, rfl⟩⟩
  exact List.mem_append_right _ (List.mem_map_of_mem (by rw [hpend, List.filter_true]; exact hc))

end Sys2Proof.Machine

namespace Sys2Proof.Machine

/-! Acquiring a source anew (R48, R54). -/

/-- The timebase as ACQUIRING begins: no edge, no correction, no slew, no step that waits, and the source not qualified. -/
def TimeBase.reacquired (b : TimeBase) : TimeBase :=
  { b with edges := 0, misses := 0, lastEdge := none, ahead := 1, sinceUpdate := 0, sourceOk := false, lastCorr := none, slewOffset := 0, step := none }

section
variable (s : State)

/-- A slew that runs ends, and DISC_STATE reads ACQUIRING. -/
def State.startAcquiring (t : Tick) : State :=
  let v := if s.time.slewOffset != 0 then (s.setTime TimeBase.reacquired).steer else s.setTime TimeBase.reacquired
  if s.time.slewOffset != 0 && v.obj Obj.tbDiscState == dsAcquiring then (v.newPoint (ofTick t) 0 false).writePoint false
  else v.setDisc dsAcquiring (ofTick t)

/-- ALIGN_STATE of a cascade port when acquiring begins (R48, R63). -/
def State.alignStart (src n : Nat) : Nat :=
  if src = 3 ∧ n = s.obj Obj.tbCascadePort then (if (s.cascPort n).sync then 2 else 1) else 0

/-- A cascade port forgets its word and its load when acquiring begins. -/
def State.restartPort (src n : Nat) : State :=
  (s.setCasc n (fun p => { p with load := none, lastWord := none })).alignTo n (s.alignStart src n)

theorem State.acquire_eq (t : Tick) : s.acquire t =
    let v := (below 4).foldl (fun v n => v.restartPort ((s.startAcquiring t).obj Obj.tbDiscSrc) n) (s.startAcquiring t)
    if (s.startAcquiring t).obj Obj.tbDiscSrc = 0 ∧ v.flag Obj.synTLocked ∧ v.time.refclk then v.qualify 0 (ofTick t) else v := rfl

theorem State.startAcquiring_steered (t : Tick) : Steered (s.setTime TimeBase.reacquired) (s.startAcquiring t) := by
  have hv : Steered (s.setTime TimeBase.reacquired)
      (if s.time.slewOffset != 0 then (s.setTime TimeBase.reacquired).steer else s.setTime TimeBase.reacquired) :=
    Steered.ite (Steered.refl _).steer (Steered.refl _)
  unfold State.startAcquiring
  exact Steered.ite ((hv.newPoint _ _ _).writePoint _) (hv.setDisc _ _)

/-- Acquiring begins with no slew, no step and no source; but for its point the timebase is as `reacquired` says. -/
theorem State.startAcquiring_spec (t : Tick) : (s.startAcquiring t).obj Obj.tbDiscState = 1
    ∧ (s.startAcquiring t).time = { s.time.reacquired with point := (s.startAcquiring t).time.point, nextSeq := (s.startAcquiring t).time.nextSeq } := by
  unfold State.startAcquiring
  dsimp only
  generalize hv : (if s.time.slewOffset != 0 then (s.setTime TimeBase.reacquired).steer else s.setTime TimeBase.reacquired) = v
  have htime : v.time = s.time.reacquired := by rw [← hv]; split <;> rfl
  split
  · next h =>
    have hrep := (OnlyReported.refl (v.newPoint (ofTick t) 0 false)).writePoint false
    refine ⟨(hrep.objs _ (by decide)).trans (beq_iff_eq.mp (Bool.and_eq_true_iff.mp h).2), ?_⟩
    rw [hrep.time, State.newPoint_time, htime]
  · obtain ⟨hobj, hdisc, -⟩ := v.setDisc_spec dsAcquiring (ofTick t)
    exact ⟨(hobj _ (by decide)).trans (if_pos rfl), by rw [hdisc, htime]⟩

/-- What the cascade ports' restart leaves: everything but their states, their ALIGN_STATE and RX_LATENCY. -/
structure PortsRestarted (s t : State) : Prop where
  rest : t = { s with dict := t.dict, casc := t.casc, free := t.free }
  objs : ∀ k : Nat, k < 0x5E0000 → t.obj k = s.obj k
  sync : ∀ n, (t.cascPort n).sync = (s.cascPort n).sync

namespace PortsRestarted

variable {s} {t u : State}

theorem refl (s : State) : PortsRestarted s s := ⟨rfl, fun _ _ => rfl, fun _ => rfl⟩

theorem trans (h : PortsRestarted s t) (g : PortsRestarted t u) : PortsRestarted s u where
  rest := by rw [g.rest, h.rest]
  objs k hk := (g.objs k hk).trans (h.objs k hk)
  sync n := (g.sync n).trans (h.sync n)

theorem restartPort (src n : Nat) : PortsRestarted t (t.restartPort src n) where
  rest := by unfold State.restartPort; rw [State.alignTo_eq]; rfl
  objs k hk := State.alignTo_obj_ne _ _ _ (ne_cascKey hk) (ne_cascKey hk)
  sync m := by
    unfold State.restartPort
    rw [State.alignTo_cascPort, State.cascPort_setCasc]
    split
    · next h => rw [h]
    · rfl

theorem foldl (src : Nat) (l : List Nat) : PortsRestarted t (l.foldl (fun v n => v.restartPort src n) t) := by
  induction l generalizing t with
  | nil => exact refl _
  | cons n l ih => exact (restartPort src n).trans ih

theorem alignStart (h : PortsRestarted s t) (src n : Nat) : t.alignStart src n = s.alignStart src n := by
  unfold State.alignStart
  rw [h.objs _ (by decide), h.sync]

theorem time (h : PortsRestarted s t) : t.time = s.time := by rw [h.rest]

theorem tick (h : PortsRestarted s t) : t.tick = s.tick := by rw [h.rest]

end PortsRestarted

theorem State.restartPort_alignState_ne (src : Nat) {n m : Nat} (h : n ≠ m) : (s.restartPort src m).obj (Obj.cpAlignState n) = s.obj (Obj.cpAlignState n) := by
  refine State.alignTo_obj_ne _ _ _ (cascKey_ne (by decide)) ?_
  show (0x5E00 + n) * 256 + 2 ≠ (0x5E00 + m) * 256 + 2
  omega

theorem State.foldl_restartPort_ne (src : Nat) (l : List Nat) {n : Nat} (h : n ∉ l) :
    (l.foldl (fun v n => v.restartPort src n) s).obj (Obj.cpAlignState n) = s.obj (Obj.cpAlignState n) := by
  induction l generalizing s with
  | nil => rfl
  | cons m l ih =>
    obtain ⟨hm, hl⟩ := not_or.mp (fun hor => h (List.mem_cons.mpr hor))
    exact (ih _ hl).trans (s.restartPort_alignState_ne src hm)

/-- Every cascade port that restarts has the ALIGN_STATE that acquiring begins with. -/
theorem State.foldl_restartPort_mem (src : Nat) (l : List Nat) {n : Nat} (h : n ∈ l) :
    (l.foldl (fun v n => v.restartPort src n) s).obj (Obj.cpAlignState n) = s.alignStart src n := by
  induction l generalizing s with
  | nil => exact absurd h List.not_mem_nil
  | cons m l ih =>
    by_cases hl : n ∈ l
    · exact (ih _ hl).trans ((PortsRestarted.restartPort src m).alignStart src n)
    · obtain rfl := (List.mem_cons.mp h).resolve_right hl
      exact (State.foldl_restartPort_ne _ src l hl).trans (State.alignTo_alignState ..)

/-- Acquiring a source that does not qualify at once (R48, R54). -/
theorem State.acquire_unqualified (t : Tick) (h : s.obj Obj.tbDiscSrc ≠ 0) :
    (s.acquire t).obj Obj.tbDiscState = 1 ∧ (s.acquire t).time.sourceOk = false ∧ (s.acquire t).time.step = none ∧ (s.acquire t).time.slewOffset = 0
    ∧ ∀ n, n < 4 → (s.acquire t).obj (Obj.cpAlignState n) = s.alignStart (s.obj Obj.tbDiscSrc) n := by
  have hsteer := s.startAcquiring_steered t
  obtain ⟨hstate, htime⟩ := s.startAcquiring_spec t
  have hsrc : (s.startAcquiring t).obj Obj.tbDiscSrc = s.obj Obj.tbDiscSrc := hsteer.objs _ (by decide) (by decide)
  have hstart (n : Nat) : (s.startAcquiring t).alignStart (s.obj Obj.tbDiscSrc) n = s.alignStart (s.obj Obj.tbDiscSrc) n := by
    unfold State.alignStart
    rw [hsteer.objs _ (by decide) (by decide), hsteer.cascPort]
    rfl
  have hports : PortsRestarted (s.startAcquiring t) (s.acquire t) ∧
      ∀ n, n < 4 → (s.acquire t).obj (Obj.cpAlignState n) = (s.startAcquiring t).alignStart (s.obj Obj.tbDiscSrc) n := by
    rw [State.acquire_eq]
    dsimp only
    rw [hsrc, if_neg (fun hq => h hq.1)]
    exact ⟨PortsRestarted.foldl _ _, fun n hn => State.foldl_restartPort_mem _ _ _ (mem_upFrom.mpr ⟨Nat.zero_le _, by omega⟩)⟩
  obtain ⟨hrest, halign⟩ := hports
  rw [hrest.objs _ (by decide), hrest.time, htime]
  exact ⟨hstate, rfl, rfl, rfl, fun n hn => (halign n hn).trans (hstart n)⟩

end

/-! TIME_ACTION (R54, R723). -/

section
variable {s s1 : State} {c : WriteCmd} {a : Accepted} {v : Nat}

/-- A write of TIME_ACTION passes its check and acts at the boundary. -/
theorem Writes.timeAction {t : State} {o : ObjOut} (h : Writes s c Obj.tbTimeAction v s1 a) (hv : v ≤ 3) (hact : s1.timeAction v (s1.tick + 1) = (t, o))
    (ho : o.status ≠ stPairPending) : Lands s1 (.next (s.writeNum c Obj.tbTimeAction v)) (s1.endedOr c.flags a (o.refusedWith (.num v)) t) := by
  have hrow : findObj Obj.tbTimeAction = some ⟨0x2100, 1, 0x13, 1, .enum8, .wo, true, .enum 3, 0, false⟩ := findObj_row (by decide)
  have hwidth : v < 256 := by omega
  refine State.writeNum_ends h (by decide) (by decide) (by decide) hrow rfl hwidth ?_ ?_ ho
  · exact State.checkEntry_inRange hrow h.2.2.2 (by decide) rfl (by decide) (by decide) (by decide) hwidth (by simp) (if_pos hv)
  · rw [act_tbTimeAction, hact]; rfl

/-- An action that is carried out ends OK. -/
theorem Writes.timeAction_ok {t : State} (h : Writes s c Obj.tbTimeAction v s1 a) (hv : v ≤ 3)
    (hact : s1.timeAction v (s1.tick + 1) = (t, okOut Obj.tbTimeAction (.num v))) :
    Lands s1 (.next (s.writeNum c Obj.tbTimeAction v)) (t.ended a (okOut Obj.tbTimeAction (.num v))) := by
  have := h.timeAction hv hact (show stOk ≠ stPairPending by decide)
  rwa [State.endedOr_ok rfl rfl] at this

/-- An action that is refused changes nothing (R723). -/
theorem Writes.timeAction_bad {st re : Nat} (h : Writes s c Obj.tbTimeAction v s1 a) (hv : v ≤ 3) (hst : stRejected ≤ st)
    (hact : s1.timeAction v (s1.tick + 1) = (s1, badOut Obj.tbTimeAction st re)) :
    Lands s1 (.next (s.writeNum c Obj.tbTimeAction v)) (s1.endedOr c.flags a ((badOut Obj.tbTimeAction st re).fill (.num v)) s1) := by
  have hpair : (badOut Obj.tbTimeAction st re).status ≠ stPairPending := by
    show st ≠ 3
    have : 16 ≤ st := hst
    omega
  have := h.timeAction hv hact hpair
  rwa [show (badOut Obj.tbTimeAction st re).refusedWith (.num v) = (badOut Obj.tbTimeAction st re).fill (.num v) from if_pos hst] at this

end

section
variable (s : State) (t : Tick)

/-- STEP_NOW asks for a step of LAST_JUMP, and LOCKED is entered (R54). -/
def State.stepNow : State := (s.setTime (fun b => { b with step := some (s.int Obj.tbLastJump, 3) })).setDisc dsLocked (ofTick t)

/-- SLEW_NOW begins a slew of LAST_JUMP, and SLEWING is entered, with its point and its notification (R45, R54, R56, R59). -/
def State.slewNow : State :=
  let u := (s.startSlew (s.int Obj.tbLastJump) (ofTick t)).setObj Obj.tbDiscState dsSlewing
  let u := ((u.newPoint (ofTick t) (jumpUnits (s.int Obj.tbLastJump)) false).writePoint true).steer
  u.notify 12 0 (discDetail u dsSlewing dsHeld) t

variable {s} (hheld : s.obj Obj.tbDiscState = 5)
include hheld

theorem State.timeAction_step (hsrc : s.obj Obj.tbDiscSrc ≠ 3) : s.timeAction 1 t = (s.stepNow t, okOut Obj.tbTimeAction (.num 1)) := by
  simp [State.timeAction, hheld, hsrc, dsHeld, State.stepNow]

theorem State.timeAction_slew (hj : (s.int Obj.tbLastJump).natAbs < 64000) : s.timeAction 2 t = (s.slewNow t, okOut Obj.tbTimeAction (.num 2)) := by
  simp [State.timeAction, hheld, hj, dsHeld, State.slewNow]

theorem State.timeAction_realign (hsrc : s.obj Obj.tbDiscSrc = 3) (hcap : s.queueList.any s.capturing = false) :
    s.timeAction 3 t = (s.acquire t, okOut Obj.tbTimeAction (.num 3)) := by
  simp [State.timeAction, hheld, hsrc, hcap, dsHeld]

theorem State.timeAction_step_cascade (hsrc : s.obj Obj.tbDiscSrc = 3) : s.timeAction 1 t = (s, badOut Obj.tbTimeAction stRejected reRange) := by
  simp [State.timeAction, hheld, hsrc, dsHeld, rejOut]

theorem State.timeAction_slew_far (hj : 64000 ≤ (s.int Obj.tbLastJump).natAbs) :
    s.timeAction 2 t = (s, badOut Obj.tbTimeAction stRejected reRange) := by
  simp [State.timeAction, hheld, hj, dsHeld, rejOut]

theorem State.timeAction_realign_other (hsrc : s.obj Obj.tbDiscSrc ≠ 3) : s.timeAction 3 t = (s, badOut Obj.tbTimeAction stRejected reRange) := by
  simp [State.timeAction, hheld, hsrc, dsHeld, rejOut]

theorem State.timeAction_realign_capturing (hsrc : s.obj Obj.tbDiscSrc = 3) (hcap : s.queueList.any s.capturing = true) :
    s.timeAction 3 t = (s, badOut Obj.tbTimeAction stBusy 0) := by
  simp [State.timeAction, hheld, hsrc, hcap, dsHeld]

end

section
variable (s : State) (t : Tick)

/-- Outside HELD every action but "no action" is BUSY (R723). -/
theorem State.timeAction_busy {v : Nat} (h : s.obj Obj.tbDiscState ≠ 5) (hv : v ≠ 0) : s.timeAction v t = (s, badOut Obj.tbTimeAction stBusy 0) := by
  simp [State.timeAction, h, hv, dsHeld]

theorem State.stepNow_spec : (s.stepNow t).time.step = some (s.int Obj.tbLastJump, 3) ∧ (s.stepNow t).obj Obj.tbDiscState = 2
    ∧ (∀ k, reportKey k = false → k ≠ Obj.tbDiscState → (s.stepNow t).obj k = s.obj k)
    ∧ OnlyReported { s with dict := (s.stepNow t).dict, time := (s.stepNow t).time } (s.stepNow t) := by
  obtain ⟨hobj, htime, hrep⟩ := State.setDisc_spec (s.setTime (fun b => { b with step := some (s.int Obj.tbLastJump, 3) })) dsLocked (ofTick t)
  refine ⟨?_, (hobj _ (by decide)).trans (if_pos rfl), fun k hk hne => (hobj k hk).trans (if_neg hne), hrep⟩
  unfold State.stepNow
  rw [htime]
  rfl

theorem State.slewNow_spec : (s.slewNow t).obj Obj.tbDiscState = 4 ∧ (s.slewNow t).time.slewFrom = s.int Obj.tbLastJump ∧ (s.slewNow t).time.slewStart = t
    ∧ (s.slewNow t).time.slewOffset = (if s.int Obj.tbLastJump < 0 then -54975581 else 54975581)
    ∧ (∀ k, reportKey k = false → k ∉ [Obj.tbDiscState, Obj.synTSynWord] → (s.slewNow t).obj k = s.obj k)
    ∧ OnlyReported { s with dict := (s.slewNow t).dict, time := (s.slewNow t).time } (s.slewNow t) := by
  generalize hp : ((s.startSlew (s.int Obj.tbLastJump) (ofTick t)).setObj Obj.tbDiscState dsSlewing).newPoint (ofTick t)
    (jumpUnits (s.int Obj.tbLastJump)) false = p
  generalize hw : p.writePoint true = w
  have hpw : OnlyReported p w := hw ▸ (OnlyReported.refl p).writePoint true
  have hnote : OnlyReported w.steer (s.slewNow t) := by
    unfold State.slewNow
    dsimp only
    rw [hp, hw]
    exact (OnlyReported.refl _).notify ..
  have hobjp (k : Nat) : p.obj k = if k = Obj.tbDiscState then 4 else s.obj k := by
    rw [← hp]; exact State.obj_setObj (s.startSlew (s.int Obj.tbLastJump) (ofTick t)) Obj.tbDiscState dsSlewing k
  have hobj (k : Nat) (hk : reportKey k = false) (hne : k ≠ Obj.synTSynWord) : (s.slewNow t).obj k = if k = Obj.tbDiscState then 4 else s.obj k := by
    rw [hnote.objs k hk, State.steer_obj _ _ hne, hpw.objs k hk, hobjp]
  have htime : (s.slewNow t).time = p.time := by rw [hnote.time, State.steer_time, hpw.time]
  refine ⟨(hobj _ (by decide) (by decide)).trans (if_pos rfl), ?_, ?_, ?_, fun k hk hn => ?_, ?_⟩
  · rw [htime, ← hp]; rfl
  · rw [htime, ← hp]
    exact Nat.mul_div_cancel_left t (by decide)
  · rw [htime, ← hp]; rfl
  · simp only [List.mem_cons, List.not_mem_nil, or_false, not_or] at hn
    exact (hobj k hk hn.2).trans (if_neg hn.1)
  · refine hnote.timed ?_ ?_ (fun q => ?_) ?_ ?_
    · show w.unreported = { s with time := w.time }.unreported
      rw [hpw.rest, hpw.time, ← hp]
      rfl
    · show w.host.quiet = s.host.quiet
      rw [hpw.host, ← hp]; rfl
    · show (w.queue q).quiet = (s.queue q).quiet
      rw [hpw.queues q, ← hp]; rfl
    · exact (show s.landing.length = p.landing.length by rw [← hp]; rfl) ▸ hpw.landing
    · have := hpw.out
      rw [← hp] at this
      exact this

end

/-- Settles O10: each action's write acts at the boundary, and a refused one leaves the state it found. -/
theorem timeActionsEndHeld : Obligations.TimeActionsEndHeld := by
  unfold Obligations.TimeActionsEndHeld
  refine ⟨fun s s1 c a hw hheld hsrc => ?_, fun s s1 c a hw hheld hj => ?_, fun s s1 c a hw hheld hsrc hn hcap => ?_, fun s s1 c v a hw => ⟨fun hst => ?_, fun hst => ?_⟩⟩
  · exact ⟨_, hw.timeAction_ok (by decide) (State.timeAction_step _ hheld hsrc), s1.stepNow_spec _⟩
  · exact ⟨_, hw.timeAction_ok (by decide) (State.timeAction_slew _ hheld hj), s1.slewNow_spec _⟩
  · obtain ⟨hstate, hok, hstep, hslew, halign⟩ := s1.acquire_unqualified (s1.tick + 1) (by rw [hsrc]; decide)
    refine ⟨_, hw.timeAction_ok (by decide) (State.timeAction_realign _ hheld hsrc hcap), hstate, hok, hstep, hslew, (halign _ hn).trans ?_⟩
    exact if_pos ⟨hsrc, rfl⟩
  · have hbusy (hv : v ≤ 3) (h0 : v ≠ 0) := hw.timeAction_bad hv (by decide) (s1.timeAction_busy (s1.tick + 1) hst h0)
    exact ⟨fun h => by subst h; exact hbusy (by decide) (by decide), fun h => by subst h; exact hbusy (by decide) (by decide),
      fun h => by subst h; exact hbusy (by decide) (by decide)⟩
  · refine ⟨fun h hsrc => ?_, fun h hj => ?_, fun h hsrc => ?_, fun h hsrc hcap => ?_⟩ <;> subst h
    · exact hw.timeAction_bad (by decide) (by decide) (State.timeAction_step_cascade _ hst hsrc)
    · exact hw.timeAction_bad (by decide) (by decide) (State.timeAction_slew_far _ hst hj)
    · exact hw.timeAction_bad (by decide) (by decide) (State.timeAction_realign_other _ hst hsrc)
    · exact hw.timeAction_bad (by decide) (by decide) (State.timeAction_realign_capturing _ hst hsrc hcap)

end Sys2Proof.Machine

namespace Sys2Proof.Machine

/-! A port that has given a command stands in the table of ports: what it holds changes in its place, and the order of the pending commits is
what it was. -/

section
variable {α β : Type}

theorem Tab.del_eq_self {t : Tab α} {i : Nat} (h : t.find i = none) : t.del i = t := by
  induction t with
  | nil => rfl
  | cons e t ih =>
    have hne : ¬ e.1 = i := fun he => by simp [Tab.find, he] at h
    have ht : Tab.find t i = none := by simpa [Tab.find, hne] using h
    simp [Tab.del, hne, ih ht]

theorem Tab.del_ins {t : Tab α} {i : Nat} (x : α) (h : t.find i = none) : (t.ins i x).del i = t := by
  induction t with
  | nil => simp [Tab.ins, Tab.del]
  | cons e t ih =>
    have hne : ¬ e.1 = i := fun he => by simp [Tab.find, he] at h
    have ht : Tab.find t i = none := by simpa [Tab.find, hne] using h
    by_cases hlt : i < e.1
    · simp [Tab.ins, hlt, Tab.del, hne, Tab.del_eq_self ht]
    · simp [Tab.ins, hlt, Tab.del, hne, ih ht]

/-- Of two values put at one key the later stays, in the place of the earlier. -/
theorem Tab.put_put [DecidableEq α] (t : Tab α) (i : Nat) {d x y : α} (hx : x ≠ d) : (t.put i d x).put i d y = t.put i d y := by
  have hdel : (t.put i d x).del i = t.del i := by
    rw [Tab.put, if_neg hx]
    exact Tab.del_ins x (Tab.find_del_self t i)
  by_cases hy : y = d
  · rw [Tab.put, if_pos hy, hdel, Tab.put, if_pos hy]
  · rw [show (t.put i d x).put i d y = (t.put i d x).set i y from if_neg hy, show t.put i d y = t.set i y from if_neg hy, Tab.set, hdel, Tab.set]

theorem Tab.flatMap_ins (t : Tab α) (i : Nat) {x y : α} (f : Nat × α → List β) (h : f (i, x) = f (i, y)) :
    (t.ins i x).flatMap f = (t.ins i y).flatMap f := by
  induction t with
  | nil => simp [Tab.ins, h]
  | cons e t ih => by_cases hlt : i < e.1 <;> simp [Tab.ins, hlt, h, ih]

theorem Tab.flatMap_put [DecidableEq α] (t : Tab α) (i : Nat) {d x y : α} (hx : x ≠ d) (hy : y ≠ d) (f : Nat × α → List β) (h : f (i, x) = f (i, y)) :
    (t.put i d x).flatMap f = (t.put i d y).flatMap f := by
  rw [Tab.put, if_neg hx, Tab.put, if_neg hy]
  exact Tab.flatMap_ins _ _ f h

end

/-- A port's entry stands in the table, with commands in its retry cache (R511). -/
def State.PortKnown (s : State) (p : Nat) : Prop := ∃ (t : Tab PortState) (x : PortState), x.cache ≠ [] ∧ s.ports = t.put p {} x

theorem PortState.ne_default {x : PortState} (h : x.cache ≠ []) : x ≠ {} := fun he => h (by rw [he])

theorem State.PortKnown.congr {s t : State} {p : Nat} (h : s.PortKnown p) (hp : t.ports = s.ports) : t.PortKnown p := by
  obtain ⟨l, x, hx, hs⟩ := h
  exact ⟨l, x, hx, hp.trans hs⟩

theorem State.portKnown_cachePut (s : State) (i : Issuer) (tag crc jseq : Nat) : (s.cachePut i tag crc jseq).PortKnown i.port := by
  refine ⟨s.ports, _, ?_, rfl⟩
  simp [lastN, List.drop_eq_nil_iff]

theorem State.jStore_ports (s : State) (e : JEntry) : (s.jStore e).ports = s.ports := by
  have hset (u : State) (k : Key) (v : Nat) : (u.setObj k v).ports = u.ports := rfl
  simp only [State.jStore, State.bump, hset]

theorem State.jWrite_ports (s : State) (kind flags jseq : Nat) (t : Tick) (data2 data : Nat) :
    (s.jWrite kind flags jseq t data2 data).ports = s.ports := by
  unfold State.jWrite
  dsimp only
  generalize (⟨s.jNextEno, jseq, t, kind, flags, data2, data⟩ : JEntry) = e
  split
  · exact State.jStore_ports ..
  · rfl

theorem State.admission_portKnown {s s1 : State} {i : Issuer} {p : Pkt} {fresh : Bool} {a : Accepted} (h : s.admission i p fresh = (s1, some a)) :
    s1.PortKnown i.port := by
  unfold State.admission at h
  dsimp only at h
  generalize (if p.trailer = [] then none else s.checkTrailer i p) = slot at h
  generalize pktCrc p.raw = crc at h
  have hput := (s.bump (Obj.portCntAccepted i.port) 1).portKnown_cachePut i p.tag crc (if opJournaled p.op = true then s.obj Obj.jnlLastJseq + 1 else 0)
  generalize (s.bump (Obj.portCntAccepted i.port) 1).cachePut i p.tag crc _ = u at h hput
  split at h
  · simp at h
  · split at h
    · simp at h
    · split at h
      · repeat' split at h
        all_goals simp at h
      · split at h
        · simp at h
        · split at h
          · obtain ⟨rfl, -⟩ := Prod.mk.inj h
            refine State.PortKnown.congr hput ((State.jWrite_ports ..).trans ?_)
            cases slot <;> rfl
          · obtain ⟨rfl, -⟩ := Prod.mk.inj h
            refine State.PortKnown.congr hput ?_
            cases slot <;> rfl

theorem State.taking_portKnown {s s1 : State} {op : Nat} {i : Issuer} {raw : Bytes} {a : Accepted} (h : s.taking op i raw = some (s1, a)) :
    s1.PortKnown i.port := by
  unfold State.taking at h
  split at h
  · cases h
  · split at h
    · cases h
    · split at h
      · cases h
      · split at h
        · cases h
        · split at h
          · cases h
          · split at h
            · cases h
            · next he =>
              cases h
              exact State.admission_portKnown he

/-- A port that keeps its commits and its retry cache leaves the order of all pending commits. -/
theorem State.PortKnown.allPending_setPort {s : State} {p : Nat} (h : s.PortKnown p) {y : PortState} (hp : y.pend = (s.port p).pend)
    (hc : y.cache = (s.port p).cache) : (s.setPort p y).allPending = s.allPending := by
  obtain ⟨t, x, hx, hs⟩ := h
  have hport : s.port p = x := by simp [State.port, hs]
  rw [hport] at hp hc
  have hxd := PortState.ne_default hx
  have hyd : y ≠ {} := PortState.ne_default (hc ▸ hx)
  unfold State.allPending
  rw [show (s.setPort p y).ports = t.put p {} y by rw [← Tab.put_put t p hxd, ← hs]; rfl, hs, Tab.flatMap_put t p hyd hxd _ hp]

theorem State.PortKnown.allPending_takeHeld {s : State} {p : Nat} (h : s.PortKnown p) (k : Key) : (s.takeHeld p k).allPending = s.allPending :=
  h.allPending_setPort rfl rfl

/-- What has left its place is held no more. -/
theorem State.heldOf_takeHeld (s : State) (p : Nat) (k : Key) : ((s.takeHeld p k).port p).heldOf k = none := by
  simp [State.takeHeld, State.port, State.setPort, PortState.heldOf]

end Sys2Proof.Machine

namespace Sys2Proof.Machine

/-! The two corrections of the host (R51), each as a step of the timebase. -/

section
variable (s : State)

theorem State.lockWindow_nonneg : ¬ (s.lockWindow < ((0 : Int).natAbs : Int)) := by
  unfold State.lockWindow
  simp

/-- A source that qualifies without a jump locks an engine that acquires or holds over, and begins no slew (R54). -/
theorem State.qualify_zero (x : SubTime) : s.qualify 0 x =
    let u := s.setTime (fun b => { b with sourceOk := true })
    if s.obj Obj.tbDiscState = 1 ∨ s.obj Obj.tbDiscState = 3 then (u.setInt Obj.tbLastJump 0).setDisc dsLocked x
    else if s.obj Obj.tbDiscState = 5 then u.setInt Obj.tbLastJump 0 else u := by
  have hbig (u : State) : decide (u.lockWindow < ((0 : Int).natAbs : Int)) = false := decide_eq_false u.lockWindow_nonneg
  unfold State.qualify
  simp only [hbig, dsAcquiring, dsHoldover, dsHeld]
  by_cases h1 : s.obj Obj.tbDiscState = 1
  · simp [h1]
  · by_cases h3 : s.obj Obj.tbDiscState = 3
    · simp [h3]
    · by_cases h5 : s.obj Obj.tbDiscState = 5 <;> simp [h1, h3, h5]

theorem State.setDisc_slew (d : Nat) (x : SubTime) :
    (s.setDisc d x).time.slewOffset = s.time.slewOffset ∧ (s.setDisc d x).time.slewFrom = s.time.slewFrom := by
  rw [(s.setDisc_spec d x).2.1]
  exact ⟨rfl, rfl⟩

theorem State.qualify_zero_slew (x : SubTime) :
    (s.qualify 0 x).time.slewOffset = s.time.slewOffset ∧ (s.qualify 0 x).time.slewFrom = s.time.slewFrom := by
  rw [State.qualify_zero]
  dsimp only
  split
  · rw [(State.setDisc_slew ..).1, (State.setDisc_slew ..).2, State.setInt_time]
    exact ⟨rfl, rfl⟩
  · split
    · rw [State.setInt_time]
      exact ⟨rfl, rfl⟩
    · exact ⟨rfl, rfl⟩

theorem State.qualify_zero_state (x : SubTime) : (s.qualify 0 x).obj Obj.tbDiscState
    = if s.obj Obj.tbDiscState = 1 ∨ s.obj Obj.tbDiscState = 3 then 2 else s.obj Obj.tbDiscState := by
  rw [State.qualify_zero]
  dsimp only
  split
  · rw [(State.setDisc_spec _ _ _).1 _ (by decide), if_pos rfl]
  · split
    · exact State.obj_setInt_ne _ _ (by decide)
    · rfl

end

/-- What a correction leaves: the ports, what waits and what has ended, the fuses, DEV_STATE, and every object that neither the discipline nor
a report moves, but FREQ_CORR. -/
structure Corrected (s t : State) : Prop where
  ports : t.ports = s.ports
  due : t.due = s.due
  tick : t.tick = s.tick
  otp : t.otp = s.otp
  landing : t.landing = s.landing
  dev : t.obj Obj.devDevState = s.obj Obj.devDevState
  objs : ∀ k, reportKey k = false → k ∉ steerKeys → k ≠ Obj.corrFreqCorr → t.obj k = s.obj k

namespace Corrected

variable {s t u : State}

theorem refl (s : State) : Corrected s s := ⟨rfl, rfl, rfl, rfl, rfl, rfl, fun _ _ _ _ => rfl⟩

theorem steered (h : Corrected s t) (g : Steered t u) : Corrected s u where
  ports := g.ports.trans h.ports
  due := g.due.trans h.due
  tick := g.tick.trans h.tick
  otp := (g.part (·.otp)).trans h.otp
  landing := g.landing.trans h.landing
  dev := g.dev.trans h.dev
  objs k hk hn hf := (g.objs k hk hn).trans (h.objs k hk hn hf)

theorem setTime (h : Corrected s t) (f : TimeBase → TimeBase) : Corrected s (t.setTime f) := ⟨h.ports, h.due, h.tick, h.otp, h.landing, h.dev, h.objs⟩

theorem setFreq (h : Corrected s t) (v : Nat) : Corrected s (t.setObj Obj.corrFreqCorr v) where
  ports := h.ports
  due := h.due
  tick := h.tick
  otp := h.otp
  landing := h.landing
  dev := (State.obj_setObj_ne _ _ (by decide)).trans h.dev
  objs k hk hn hf := (State.obj_setObj_ne _ _ hf).trans (h.objs k hk hn hf)

theorem src (h : Corrected s t) : t.obj Obj.tbDiscSrc = s.obj Obj.tbDiscSrc := h.objs _ (by decide) (by decide) (by decide)

end Corrected

/-! FREQ_CORR. -/

section
variable (s : State) (v : Nat) (t : Tick)

theorem State.freqCorr_other (h : s.obj Obj.tbDiscSrc ≠ 4) : s.freqCorr v t = s.setObj Obj.corrFreqCorr v := by
  have hsrc : (s.setObj Obj.corrFreqCorr v).obj Obj.tbDiscSrc ≠ 4 := by rwa [State.obj_setObj_ne _ _ (by decide)]
  unfold State.freqCorr
  exact if_neg hsrc

/-- The source HOST after a frequency correction: it is qualified. -/
def State.hostCorrected : State :=
  let u := (s.setObj Obj.corrFreqCorr v).setTime (fun b => { b with lastCorr := some t })
  if u.time.sourceOk then u else u.qualify 0 (ofTick t)

theorem State.freqCorr_host (h : s.obj Obj.tbDiscSrc = 4) : s.freqCorr v t = (s.hostCorrected v t).loop t := by
  have hsrc : (s.setObj Obj.corrFreqCorr v).obj Obj.tbDiscSrc = 4 := by rwa [State.obj_setObj_ne _ _ (by decide)]
  unfold State.freqCorr
  exact if_pos hsrc

theorem State.hostCorrected_steered :
    Steered ((s.setObj Obj.corrFreqCorr v).setTime (fun b => { b with lastCorr := some t })) (s.hostCorrected v t) := by
  unfold State.hostCorrected
  exact Steered.ite (Steered.refl _) ((Steered.refl _).qualify _ _)

theorem State.freqCorr_corrected : Corrected s (s.freqCorr v t) := by
  have hset := (Corrected.refl s).setFreq v
  by_cases h : s.obj Obj.tbDiscSrc = 4
  · rw [State.freqCorr_host _ _ _ h]
    exact (hset.setTime _).steered ((s.hostCorrected_steered v t).loop t)
  · rw [State.freqCorr_other _ _ _ h]
    exact hset

theorem State.freqCorr_freq : (s.freqCorr v t).obj Obj.corrFreqCorr = v := by
  by_cases h : s.obj Obj.tbDiscSrc = 4
  · rw [State.freqCorr_host _ _ _ h, ((s.hostCorrected_steered v t).loop t).objs _ (by decide) (by decide)]
    exact State.obj_setObj_self ..
  · rw [State.freqCorr_other _ _ _ h]
    exact State.obj_setObj_self ..

end

/-- What a frequency correction comes to with DISC_SRC HOST (R48, R51): the correction is the offset, the source is qualified, a slew goes on as
it was, and an engine that is in HOLDOVER or HELD after it was so before, with its source qualified or HELD. -/
structure FreqTaken (s r : State) (v : Nat) (t : Tick) : Prop where
  offset : r.time.offset = toInt 32 v
  lastCorr : r.time.lastCorr = some t
  sourceOk : r.time.sourceOk = true
  slewOffset : r.time.slewOffset = s.time.slewOffset
  slewFrom : r.time.slewFrom = s.time.slewFrom
  state : r.obj Obj.tbDiscState = if s.time.sourceOk = false ∧ (s.obj Obj.tbDiscState = 1 ∨ s.obj Obj.tbDiscState = 3) then 2 else s.obj Obj.tbDiscState

theorem State.loop_time (s : State) (t : Tick) (h : s.obj Obj.tbDiscSrc = 4) : (s.loop t).time.offset = s.int Obj.corrFreqCorr
    ∧ (s.loop t).time.lastCorr = s.time.lastCorr ∧ (s.loop t).time.sourceOk = s.time.sourceOk ∧ (s.loop t).time.slewFrom = s.time.slewFrom :=
  ⟨if_pos h, rfl, rfl, rfl⟩

theorem State.freqCorr_taken (s : State) (v : Nat) (t : Tick) (h : s.obj Obj.tbDiscSrc = 4) : FreqTaken s (s.freqCorr v t) v t := by
  rw [State.freqCorr_host _ _ _ h]
  have hst := s.hostCorrected_steered v t
  have hsrc : (s.hostCorrected v t).obj Obj.tbDiscSrc = 4 :=
    (hst.objs _ (by decide) (by decide)).trans ((State.obj_setObj_ne _ _ (by decide)).trans h)
  have hfreq : (s.hostCorrected v t).obj Obj.corrFreqCorr = v := (hst.objs _ (by decide) (by decide)).trans (State.obj_setObj_self ..)
  obtain ⟨hoff, hlast, hok, hfrom⟩ := (s.hostCorrected v t).loop_time t hsrc
  have hdisc : (s.setObj Obj.corrFreqCorr v).obj Obj.tbDiscState = s.obj Obj.tbDiscState := State.obj_setObj_ne _ _ (by decide)
  generalize hu : (s.setObj Obj.corrFreqCorr v).setTime (fun b => { b with lastCorr := some t }) = u at hst
  have hcorr : s.hostCorrected v t = if u.time.sourceOk then u else u.qualify 0 (ofTick t) := by rw [← hu]; rfl
  have huok : u.time.sourceOk = s.time.sourceOk := by rw [← hu]; rfl
  have hud : u.obj Obj.tbDiscState = s.obj Obj.tbDiscState := by rw [← hu]; exact hdisc
  have huslew : u.time.slewOffset = s.time.slewOffset ∧ u.time.slewFrom = s.time.slewFrom := by rw [← hu]; exact ⟨rfl, rfl⟩
  refine ⟨hoff.trans (by rw [State.int, hfreq]; rfl), hlast.trans (hst.lastCorr.trans (by rw [← hu]; rfl)), hok.trans ?_, ?_, hfrom.trans ?_, ?_⟩
  · rw [hcorr]; split
    · next h => exact h
    · exact State.qualify_sourceOk ..
  · rw [State.loop_slewOffset, hcorr]; split
    · exact huslew.1
    · exact (u.qualify_zero_slew _).1.trans huslew.1
  · rw [hcorr]; split
    · exact huslew.2
    · exact (u.qualify_zero_slew _).2.trans huslew.2
  · rw [State.loop_obj_ne _ _ (by decide), hcorr, huok]
    cases hs : s.time.sourceOk
    · simp [State.qualify_zero_state, hud]
    · simpa using hud

/-! PHASE_CORR below 1 us. -/

section
variable (s : State) (v : Nat) (t : Tick)

/-- What follows a phase correction: where HOST corrects, it has corrected at that tick, and a source that is followed updates the loop. -/
def State.phaseTook : State :=
  let u := s.setTime (fun b => { b with lastCorr := if b.lastCorr.isSome then some t else none })
  if u.following then u.loop t else u

/-- The slew that a phase correction begins, with its point (R45, R59). -/
def State.phaseSlew (p : Int) : State :=
  ((((s.startSlew p (ofTick t)).steer).phaseTook t).newPoint (ofTick t) (jumpUnits p) false).writePoint false

variable {s v}

theorem State.phaseCorr_other (h0 : toInt 64 v ≠ 0) (h : s.obj Obj.tbDiscSrc ≠ 4) : s.phaseCorr v t = (s, okOut Obj.corrPhaseCorr (.num v)) := by
  unfold State.phaseCorr
  dsimp only
  rw [if_neg h0, if_pos h]

theorem State.phaseCorr_holds (h0 : toInt 64 v ≠ 0) (hlt : (toInt 64 v).natAbs < 64000) (h : s.obj Obj.tbDiscSrc = 4)
    (hd : s.obj Obj.tbDiscState = 3 ∨ s.obj Obj.tbDiscState = 5) : s.phaseCorr v t = (s.phaseTook t, okOut Obj.corrPhaseCorr (.num v)) := by
  unfold State.phaseCorr
  dsimp only
  rw [if_neg h0, if_neg (not_not.mpr h), if_pos ⟨hlt, hd⟩]
  rfl

theorem State.phaseCorr_slews (h0 : toInt 64 v ≠ 0) (hlt : (toInt 64 v).natAbs < 64000) (h : s.obj Obj.tbDiscSrc = 4)
    (hd : ¬ (s.obj Obj.tbDiscState = 3 ∨ s.obj Obj.tbDiscState = 5)) :
    s.phaseCorr v t = (s.phaseSlew t (toInt 64 v), okOut Obj.corrPhaseCorr (.num v)) := by
  unfold State.phaseCorr
  dsimp only
  rw [if_neg h0, if_neg (not_not.mpr h), if_neg (fun h => hd h.2), if_pos hlt]
  rfl

end

/-- What a phase correction below 1 us comes to with DISC_SRC HOST (R51): it slews, except while the word of a holdover is held. -/
structure PhaseTaken (s r : State) (p : Int) (t : Tick) : Prop where
  offset : r.time.offset = s.time.offset ∨ r.time.offset = s.int Obj.corrFreqCorr
  lastCorr : s.time.lastCorr.isSome = true → r.time.lastCorr = some t
  sourceOk : r.time.sourceOk = s.time.sourceOk
  state : r.obj Obj.tbDiscState = s.obj Obj.tbDiscState
  freq : r.obj Obj.corrFreqCorr = s.obj Obj.corrFreqCorr
  slews : ¬ (s.obj Obj.tbDiscState = 3 ∨ s.obj Obj.tbDiscState = 5) → r.time.slewFrom = p ∧ r.time.slewOffset ≠ 0
  holds : s.obj Obj.tbDiscState = 5 → r.time.slewOffset = s.time.slewOffset

section
variable (s : State) (t : Tick)

theorem State.phaseTook_corrected : Corrected s (s.phaseTook t) := by
  have h := (Corrected.refl s).setTime (fun b => { b with lastCorr := if b.lastCorr.isSome then some t else none })
  unfold State.phaseTook
  dsimp only
  split
  · exact h.steered ((Steered.refl _).loop t)
  · exact h

theorem State.phaseTook_obj {k : Key} (hk : k ≠ Obj.synTSynWord) : (s.phaseTook t).obj k = s.obj k := by
  unfold State.phaseTook
  dsimp only
  split
  · exact State.loop_obj_ne _ _ hk
  · rfl

theorem State.phaseTook_time (h : s.obj Obj.tbDiscSrc = 4) :
    ((s.phaseTook t).time.offset = s.time.offset ∨ (s.phaseTook t).time.offset = s.int Obj.corrFreqCorr)
    ∧ (s.phaseTook t).time.lastCorr = (if s.time.lastCorr.isSome then some t else none) ∧ (s.phaseTook t).time.sourceOk = s.time.sourceOk
    ∧ (s.phaseTook t).time.slewOffset = s.time.slewOffset ∧ (s.phaseTook t).time.slewFrom = s.time.slewFrom := by
  unfold State.phaseTook
  dsimp only
  split
  · exact ⟨.inr (if_pos h), rfl, rfl, rfl, rfl⟩
  · exact ⟨.inl rfl, rfl, rfl, rfl, rfl⟩

theorem State.startSlew_offset (p : Int) (x : SubTime) : (s.startSlew p x).time.slewOffset ≠ 0 := by
  show (if p < 0 then -54975581 else 54975581 : Int) ≠ 0
  split <;> decide

theorem State.phaseSlew_corrected (p : Int) : Corrected s (s.phaseSlew t p) := by
  have h := (Corrected.refl s).steered ((((Steered.refl s).startSlew p (ofTick t))).steer)
  have h1 := State.phaseTook_corrected ((s.startSlew p (ofTick t)).steer) t
  have h2 : Corrected s (((s.startSlew p (ofTick t)).steer).phaseTook t) :=
    ⟨h1.ports.trans h.ports, h1.due.trans h.due, h1.tick.trans h.tick, h1.otp.trans h.otp, h1.landing.trans h.landing, h1.dev.trans h.dev,
      fun k hk hn hf => (h1.objs k hk hn hf).trans (h.objs k hk hn hf)⟩
  exact h2.steered (((Steered.refl _).newPoint _ _ _).writePoint _)

end

variable {s : State} {v : Nat} {t : Tick}

theorem State.phaseTook_taken (h : s.obj Obj.tbDiscSrc = 4) (hd : s.obj Obj.tbDiscState = 3 ∨ s.obj Obj.tbDiscState = 5) (p : Int) :
    PhaseTaken s (s.phaseTook t) p t := by
  obtain ⟨hoff, hlast, hok, hslew, -⟩ := s.phaseTook_time t h
  exact ⟨hoff, fun hs => hlast.trans (if_pos hs), hok, s.phaseTook_obj t (by decide), s.phaseTook_obj t (by decide), fun hn => absurd hd hn, fun _ => hslew⟩

theorem State.phaseSlew_taken (h : s.obj Obj.tbDiscSrc = 4) (hd : ¬ (s.obj Obj.tbDiscState = 3 ∨ s.obj Obj.tbDiscState = 5)) (p : Int) :
    PhaseTaken s (s.phaseSlew t p) p t := by
  have hobj {k : Nat} (hk : k ≠ Obj.synTSynWord) : ((s.startSlew p (ofTick t)).steer).obj k = s.obj k := State.steer_obj _ _ hk
  have hnz := s.startSlew_offset p (ofTick t)
  generalize hu : (s.startSlew p (ofTick t)).steer = u at hobj
  have hu4 : u.time.slewOffset ≠ 0 ∧ u.time.slewFrom = p ∧ u.time.offset = s.time.offset ∧ u.time.lastCorr = s.time.lastCorr
      ∧ u.time.sourceOk = s.time.sourceOk := by rw [← hu]; exact ⟨hnz, rfl, rfl, rfl, rfl⟩
  obtain ⟨hus, huf, huo, hul, huk⟩ := hu4
  obtain ⟨hoff, hlast, hok, hslew, hfrom⟩ := u.phaseTook_time t ((hobj (by decide)).trans h)
  have hrep := (OnlyReported.refl ((u.phaseTook t).newPoint (ofTick t) (jumpUnits p) false)).writePoint false
  have hr : s.phaseSlew t p = ((u.phaseTook t).newPoint (ofTick t) (jumpUnits p) false).writePoint false := by rw [← hu]; rfl
  have hint : u.int Obj.corrFreqCorr = s.int Obj.corrFreqCorr := State.int_congr (hobj (by decide))
  rw [hr]
  have hk {k : Nat} (hk : k ≠ Obj.synTSynWord) (hr : reportKey k = false) :
      (((u.phaseTook t).newPoint (ofTick t) (jumpUnits p) false).writePoint false).obj k = s.obj k :=
    (hrep.objs k hr).trans ((u.phaseTook_obj t hk).trans (hobj hk))
  refine ⟨?_, fun hs => ?_, ?_, hk (by decide) (by decide), hk (by decide) (by decide), fun _ => ⟨?_, ?_⟩, fun h5 => absurd (.inr h5) hd⟩ <;> rw [hrep.time]
  · exact hoff.imp (·.trans huo) (·.trans hint)
  · exact hlast.trans (if_pos (hul ▸ hs))
  · exact hok.trans huk
  · exact hfrom.trans huf
  · exact fun he => hus (hslew.symm.trans he)

/-- A phase correction that is not zero and below 1 us is carried out. -/
theorem State.phaseCorr_ok (h0 : toInt 64 v ≠ 0) (hlt : (toInt 64 v).natAbs < 64000) (s : State) (t : Tick) :
    (s.phaseCorr v t).2 = okOut Obj.corrPhaseCorr (.num v) ∧ Corrected s (s.phaseCorr v t).1
    ∧ (s.obj Obj.tbDiscSrc ≠ 4 → (s.phaseCorr v t).1 = s) ∧ (s.obj Obj.tbDiscSrc = 4 → PhaseTaken s (s.phaseCorr v t).1 (toInt 64 v) t) := by
  by_cases h : s.obj Obj.tbDiscSrc = 4
  · by_cases hd : s.obj Obj.tbDiscState = 3 ∨ s.obj Obj.tbDiscState = 5
    · rw [State.phaseCorr_holds t h0 hlt h hd]
      exact ⟨rfl, s.phaseTook_corrected t, fun hn => absurd h hn, fun _ => State.phaseTook_taken h hd _⟩
    · rw [State.phaseCorr_slews t h0 hlt h hd]
      exact ⟨rfl, s.phaseSlew_corrected t _, fun hn => absurd h hn, fun _ => State.phaseSlew_taken h hd _⟩
  · rw [State.phaseCorr_other t h0 h]
    exact ⟨rfl, Corrected.refl s, fun _ => rfl, fun hn => absurd hn h⟩

end Sys2Proof.Machine

namespace Sys2Proof.Machine

/-! The end of one member of a pair at its boundary (R513, R521, R522). -/

/-- A member's effect has left `s` with outcome `o`: earlier commands see it overwritten, and its landing `l` waits for the tick. -/
def State.memberEnd (s : State) (iss : Issuer) (jseq : Nat) (o : ObjOut) (l : Landing) (t : Tick) : State :=
  let u := (s.supersedeAll [o] jseq).settle 2 iss jseq [o] t
  { u with landing := u.landing ++ [l] }

section
variable (s : State)

@[simp] theorem State.configChange_landing (kind port core objects jseq : Nat) (t : Tick) :
    (s.configChange kind port core objects jseq t).landing = s.landing :=
  State.foldl_landing _ (fun v q => by dsimp only; split <;> rfl) _ _

@[simp] theorem State.setDev_landing (d : Nat) (t : Tick) : (s.setDev d t).landing = s.landing := by
  unfold State.setDev
  dsimp only
  split
  · rfl
  · exact State.notify_landing ..

@[simp] theorem State.devSync_landing (t : Tick) : (s.devSync t).landing = s.landing := by
  unfold State.devSync
  dsimp only
  split
  · exact State.setDev_landing ..
  · rfl

@[simp] theorem State.settle_landing (kind : Nat) (iss : Issuer) (jseq : Nat) (outs : List ObjOut) (t : Tick) :
    (s.settle kind iss jseq outs t).landing = s.landing := by
  unfold State.settle
  dsimp only
  rw [State.devSync_landing]
  split
  · exact State.configChange_landing ..
  · rfl

theorem State.configChange_dict (kind port core objects jseq : Nat) (t : Tick) : (s.configChange kind port core objects jseq t).dict = s.dict :=
  State.foldl_dict _ (fun v q => by dsimp only; split <;> rfl) _ _

theorem State.setDev_state (d : Nat) (t : Tick) : (s.setDev d t).obj Obj.devDevState = d := by
  unfold State.setDev
  dsimp only
  split
  · next h => exact h
  · rw [State.notify_obj _ _ _ _ _ (not_noteKey (by decide) (by decide))]
    exact State.obj_setObj_self ..

/-- The state that follows the captures is FAULT only where it was (R663, R665). -/
theorem State.devSync_state (t : Tick) (h : s.obj Obj.devDevState ≠ 5) : (s.devSync t).obj Obj.devDevState ≠ 5 := by
  unfold State.devSync
  dsimp only
  split
  · rw [State.setDev_state]
    split <;> decide
  · exact h

theorem State.settle_state (kind : Nat) (iss : Issuer) (jseq : Nat) (outs : List ObjOut) (t : Tick) (h : s.obj Obj.devDevState ≠ 5) :
    (s.settle kind iss jseq outs t).obj Obj.devDevState ≠ 5 := by
  unfold State.settle
  dsimp only
  refine State.devSync_state _ _ ?_
  split
  · rwa [State.obj_of_dict (State.configChange_dict ..)]
  · exact h

theorem State.supersedeAll_one (o : ObjOut) (j : Nat) : s.supersedeAll [o] j = { s with landing := (s.supersedeAll [o] j).landing } := by
  unfold State.supersedeAll
  rw [List.foldl_cons, List.foldl_nil]
  split <;> rfl

/-- An ended command whose one outcome is of another object keeps it (R513). -/
theorem State.mem_supersedeAll_one {o p : ObjOut} {l : Landing} (j : Nat) (hl : l ∈ s.landing) (hp : l.outs = [p]) (hne : p.key ≠ o.key) :
    l ∈ (s.supersedeAll [o] j).landing := by
  unfold State.supersedeAll
  rw [List.foldl_cons, List.foldl_nil]
  split
  · refine List.mem_map.mpr ⟨l, hl, ?_⟩
    have hkeep : p.superseded o.key j = p := if_neg (fun h => hne h.1)
    rw [hp, List.map_cons, List.map_nil, hkeep, ← hp]
  · exact hl

variable (iss : Issuer) (jseq : Nat) (o : ObjOut) (l : Landing) (t : Tick)

theorem State.memberEnd_reported : OnlyReported s (s.memberEnd iss jseq o l t) := by
  have h := ((OnlyReported.refl s).supersedeAll [o] jseq).settle 2 iss jseq [o] t
  exact h.setLanding _ (by simp)

theorem State.mem_memberEnd : l ∈ (s.memberEnd iss jseq o l t).landing := by
  simp [State.memberEnd]

theorem State.mem_memberEnd_of_mem {p : ObjOut} {m : Landing} (hm : m ∈ s.landing) (hp : m.outs = [p]) (hne : p.key ≠ o.key) :
    m ∈ (s.memberEnd iss jseq o l t).landing := by
  unfold State.memberEnd
  dsimp only
  rw [State.settle_landing]
  exact List.mem_append_left _ (s.mem_supersedeAll_one jseq hm hp hne)

theorem State.memberEnd_state (h : s.obj Obj.devDevState ≠ 5) : (s.memberEnd iss jseq o l t).obj Obj.devDevState ≠ 5 := by
  have h1 : (s.supersedeAll [o] jseq).obj Obj.devDevState ≠ 5 := by rw [s.supersedeAll_one]; exact h
  exact State.settle_state _ _ _ _ _ _ h1

theorem State.memberEnd_landing_last : (s.memberEnd iss jseq o l t).landing.getLast? = some l := by
  simp [State.memberEnd]

end

/-! Where each member is put into effect. -/

section
variable {s m : State} {h : HeldPair} {mate : ObjOut} {t : Tick}

/-- A held member that passes its check and is carried out. -/
theorem State.landHeld_ok (hchk : s.checkEntry h.key (heldBytes h) = okOut h.key h.written)
    (hact : s.applyMember h.iss (okOut h.key h.written) (mate.applied.map (fun v => (mate.key, v))) t = (m, okOut h.key h.written)) :
    s.landHeld h mate t = m.memberEnd h.iss h.jseq (okOut h.key h.written) (heldLanding h (okOut h.key h.written) t) t := by
  unfold State.landHeld
  rw [hchk, hact]
  rfl

variable {a : Accepted} {chk : ObjOut} {w : Val}

/-- The outcome of the partner's command, which reports of the held member too (R521). -/
def State.mateOut (m : State) (h : HeldPair) (chk : ObjOut) : ObjOut := { chk with rep := m.heldReport h ++ chk.rep }

/-- The end of the partner's command. -/
def State.mateEnd (m : State) (a : Accepted) (h : HeldPair) (chk : ObjOut) (t : Tick) : State :=
  m.memberEnd a.iss a.jseq (m.mateOut h chk) { a.landing with effect := t, outs := [m.mateOut h chk] } t

theorem Acting.step_mate (hact : s.applyMember a.iss chk (some (h.key, h.written)) t = (m, chk)) (hst : chk.status = stOk) (all : List Entry) :
    Acting.step { s := s } a all t (.mate chk w h) = { s := m, outs := [m.mateOut h chk] } := by
  have href : chk.refusedWith w = chk := if_neg (by rw [hst]; decide)
  unfold Acting.step
  dsimp only
  rw [hact]
  dsimp only
  rw [href]
  rfl

theorem State.landWrite_mate (hact : s.applyMember a.iss chk (some (h.key, h.written)) t = (m, chk)) (hst : chk.status = stOk) :
    s.landWrite a [.mate chk w h] t = m.mateEnd a h chk t := by
  unfold State.landWrite
  rw [List.foldl_cons, List.foldl_nil, Acting.step_mate hact hst]
  dsimp only
  rw [supersedeOwn_one]
  rfl

/-- The held member that has just ended has nothing to report. -/
theorem State.heldReport_nil (hl : m.landing.getLast? = some (heldLanding h (okOut h.key h.written) t)) : m.heldReport h = [] := by
  obtain ⟨l, hl⟩ := List.getLast?_eq_some_iff.mp hl
  unfold State.heldReport
  rw [hl, List.reverse_append]
  simp [heldLanding, okOut]

/-- A STRICT write that brings the partner: the held member takes effect first, and nothing fails. -/
theorem State.landStrict_mate {byTransfer : Bool} {k : Key} {b : Bytes} {P : State} (hdue : P.due = [])
    (hbegin : s.beginAll a byTransfer [(k, b)] = (P.await (.held h chk), [.mate chk w h]))
    (hact : (P.landHeld h chk t).applyMember a.iss chk (some (h.key, h.written)) t = (m, chk)) (hst : chk.status = stOk) (hrep : chk.rep = [])
    (hl : m.landing.getLast? = some (heldLanding h (okOut h.key h.written) t)) :
    s.landStrict a byTransfer [(k, b)] t = m.mateEnd a h chk t := by
  have hP : ({ P.await (.held h chk) with due := [] } : State) = P := by
    unfold State.await
    cases P
    simp only at hdue
    subst hdue
    rfl
  have hd : (P.await (.held h chk)).due = [.held h chk] := by rw [State.await, hdue]; rfl
  have hout : m.mateOut h chk = chk := by
    unfold State.mateOut
    rw [State.heldReport_nil hl, List.nil_append]
  unfold State.landStrict
  simp only [hbegin, hP, hd, List.foldl_cons, List.foldl_nil, Acting.step_mate hact hst, supersedeOwn_one, List.any_cons, List.any_nil, Bool.or_false]
  rw [if_neg (by rw [hout]; simp [strictFails, hst, hrep]), if_neg (by rw [hout]; simp [ObjOut.waitsPair, hst])]
  rfl

end

end Sys2Proof.Machine

namespace Sys2Proof.Machine

/-! A correction whose partner is held: both come to the boundary (R521, R522). -/

/-- How a value of one member takes effect at the boundary of tick t: it ends OK, and leaves what a correction leaves. -/
structure CorrEffect (k : Key) (v : Val) (t : Tick) (f : State → State) : Prop where
  act : ∀ s iss p, s.applyMember iss (okOut k v) p t = (f s, okOut k v)
  corrected : ∀ s, Corrected s (f s)

theorem corrEffect_freq (v : Nat) (t : Tick) : CorrEffect Obj.corrFreqCorr (.num v) t (fun s => s.freqCorr v t) :=
  ⟨fun _ _ _ => rfl, fun s => s.freqCorr_corrected v t⟩

theorem corrEffect_phase {v : Nat} (h0 : toInt 64 v ≠ 0) (hlt : (toInt 64 v).natAbs < 64000) (t : Tick) :
    CorrEffect Obj.corrPhaseCorr (.num v) t (fun s => (s.phaseCorr v t).1) where
  act s iss p := by
    have hout := (State.phaseCorr_ok h0 hlt s t).1
    have happly : s.applyMember iss (okOut Obj.corrPhaseCorr (.num v)) p t
        = ((s.phaseCorr v t).1, (s.phaseCorr v t).2.after (okOut Obj.corrPhaseCorr (.num v))) := rfl
    rw [happly, hout]
    rfl
  corrected s := (State.phaseCorr_ok h0 hlt s t).2.1

/-- The two corrections. -/
def corrKeys : List Key := [Obj.corrFreqCorr, Obj.corrPhaseCorr]

/-- A correction may be written where its index is present and the engine is not in FAULT (R497, R664). -/
theorem writable_corr_iff {k : Nat} (hk : k ∈ corrKeys) (s : State) :
    Writable s k ↔ absentIndex s.otp.variant 0x2120 = false ∧ s.obj Obj.devDevState ≠ 5 := by
  have hix : k / 256 = 0x2120 ∧ k / 65536 = 0x21 := by
    have : ∀ j ∈ corrKeys, j / 256 = 0x2120 ∧ j / 65536 = 0x21 := by decide
    exact this k hk
  simp [Writable, State.writeBusy, hix]

/-- A correction whose value is in its range passes its check unchanged. -/
theorem checkEntry_freq {v : Nat} (hv : v < 2 ^ 32) (hr : (toInt 32 v).natAbs ≤ 219902325) {s : State} (hw : Writable s Obj.corrFreqCorr) :
    s.checkEntry Obj.corrFreqCorr (valBytes Obj.corrFreqCorr (.num v)) = okOut Obj.corrFreqCorr (.num v) := by
  have hrow : findObj Obj.corrFreqCorr = some ⟨0x2120, 1, 0x01, 1, .i32, .rw, false, .clamp (-219902325) 219902325, 0, false⟩ := findObj_row (by decide)
  refine State.checkEntry_inRange hrow hw (by decide) rfl (by decide) (by decide) (by decide) hv (by simp) ?_
  show some (if toInt 32 v < -219902325 then _ else if 219902325 < toInt 32 v then _ else (v, 0)) = some (v, 0)
  rw [if_neg (by omega), if_neg (by omega)]

theorem checkEntry_phase {v : Nat} (hv : v < 2 ^ 64) (h0 : v ≠ 0) {s : State} (hw : Writable s Obj.corrPhaseCorr) :
    s.checkEntry Obj.corrPhaseCorr (valBytes Obj.corrPhaseCorr (.num v)) = okOut Obj.corrPhaseCorr (.num v) := by
  have hrow : findObj Obj.corrPhaseCorr = some ⟨0x2120, 1, 0x02, 1, .i64, .wo, false, .any, 0, true⟩ := findObj_row (by decide)
  exact State.checkEntry_inRange hrow hw (by decide) rfl (by decide) (by decide) (by decide) hv (fun h => h0 h.1) rfl

theorem toInt_64_ne_zero {v : Nat} (hv : v < 2 ^ 64) (h0 : v ≠ 0) : toInt 64 v ≠ 0 := by
  unfold toInt
  rw [Nat.mod_eq_of_lt hv]
  split <;> omega

/-- One effect and then another have led from s to t, with nothing but reports after each. -/
def Sequenced (f g : State → State) (s t : State) : Prop := ∃ u, OnlyReported (f s) u ∧ OnlyReported (g u) t

/-- What the boundary has come to that a held member and its partner's command wait for: the two effects in one order or, where the partner's
command is the earlier, the other, and the end of each command. -/
structure PairLanded (s1 t : State) (a : Accepted) (h : HeldPair) (chk : ObjOut) (p : Nat) (f g : State → State) : Prop where
  order : Sequenced f g (s1.takeHeld p h.key) t ∨ (a.jseq < h.jseq ∧ Sequenced g f (s1.takeHeld p h.key) t)
  ports : t.ports = (s1.takeHeld p h.key).ports
  heldEnd : heldLanding h (okOut h.key h.written) (s1.tick + 1) ∈ t.landing
  mateEnd : ∃ rep, { a.landing with effect := s1.tick + 1, outs := [{ chk with rep := rep }] } ∈ t.landing

section
variable {s : State} {a : Accepted} {h : HeldPair} {k : Nat} {v : Val} {t : Tick} {f g : State → State}

/-- A correction and the end of its command leave the other correction as writable as it was. -/
theorem Corrected.writable (hc : Corrected s (f s)) {j : Nat} (hj : j ∈ corrKeys) (hw : Writable s j) (iss : Issuer) (jseq : Nat) (o : ObjOut) (l : Landing) :
    Writable ((f s).memberEnd iss jseq o l t) j := by
  obtain ⟨hv, hd⟩ := (writable_corr_iff hj s).mp hw
  refine (writable_corr_iff hj _).mpr ⟨?_, State.memberEnd_state _ _ _ _ _ _ (by rw [hc.dev]; exact hd)⟩
  rw [show ((f s).memberEnd iss jseq o l t).otp = s.otp from ((State.memberEnd_reported (f s) iss jseq o l t).part (·.otp)).trans hc.otp]
  exact hv

/-- The held member first, then its partner. -/
theorem landed_held_first (hf : CorrEffect h.key h.written t f) (hg : CorrEffect k v t g) (hne : h.key ≠ k)
    (hchk : s.checkEntry h.key (heldBytes h) = okOut h.key h.written) :
    ∃ m, (s.landHeld h (okOut k v) t).applyMember a.iss (okOut k v) (some (h.key, h.written)) t = (m, okOut k v)
      ∧ m.landing.getLast? = some (heldLanding h (okOut h.key h.written) t)
      ∧ Sequenced f g s (m.mateEnd a h (okOut k v) t) ∧ (m.mateEnd a h (okOut k v) t).ports = s.ports
      ∧ heldLanding h (okOut h.key h.written) t ∈ (m.mateEnd a h (okOut k v) t).landing
      ∧ { a.landing with effect := t, outs := [m.mateOut h (okOut k v)] } ∈ (m.mateEnd a h (okOut k v) t).landing := by
  have hland := State.landHeld_ok (mate := okOut k v) hchk (hf.act s h.iss _)
  generalize hu : (f s).memberEnd h.iss h.jseq (okOut h.key h.written) (heldLanding h (okOut h.key h.written) t) t = u at hland
  have hrep : OnlyReported (f s) u := hu ▸ State.memberEnd_reported ..
  have hlast : u.landing.getLast? = some (heldLanding h (okOut h.key h.written) t) := hu ▸ State.memberEnd_landing_last ..
  have hcg := hg.corrected u
  have hend := State.memberEnd_reported (g u) a.iss a.jseq ((g u).mateOut h (okOut k v))
    { a.landing with effect := t, outs := [(g u).mateOut h (okOut k v)] } t
  refine ⟨g u, by rw [hland]; exact hg.act u a.iss _, hcg.landing ▸ hlast, ⟨u, hrep, hend⟩, ?_, ?_, State.mem_memberEnd ..⟩
  · rw [show ((g u).mateEnd a h (okOut k v) t).ports = (g u).ports from hend.ports, hcg.ports, hrep.ports, (hf.corrected s).ports]
  · have hmem : heldLanding h (okOut h.key h.written) t ∈ (g u).landing := hcg.landing ▸ List.mem_of_getLast? hlast
    exact State.mem_memberEnd_of_mem _ _ _ _ _ _ hmem rfl hne

/-- The partner first, then the held member. -/
theorem landed_mate_first (hf : CorrEffect h.key h.written t f) (hg : CorrEffect k v t g) (hne : h.key ≠ k) (w : Val)
    (hchk : ∀ u, Writable u h.key → u.checkEntry h.key (heldBytes h) = okOut h.key h.written) (hj : h.key ∈ corrKeys) (hw : Writable s h.key) :
    let r := (s.landWrite a [.mate (okOut k v) w h] t).landHeld h (okOut k v) t
    Sequenced g f s r ∧ r.ports = s.ports ∧ heldLanding h (okOut h.key h.written) t ∈ r.landing
      ∧ { a.landing with effect := t, outs := [(g s).mateOut h (okOut k v)] } ∈ r.landing := by
  intro r
  have hland := State.landWrite_mate (w := w) (hg.act s a.iss (some (h.key, h.written))) rfl
  have hwu : Writable ((g s).mateEnd a h (okOut k v) t) h.key := (hg.corrected s).writable hj hw _ _ _ _
  have hrep : OnlyReported (g s) ((g s).mateEnd a h (okOut k v) t) := State.memberEnd_reported ..
  have hmem : { a.landing with effect := t, outs := [(g s).mateOut h (okOut k v)] } ∈ ((g s).mateEnd a h (okOut k v) t).landing :=
    State.mem_memberEnd ..
  generalize (g s).mateEnd a h (okOut k v) t = u at hland hwu hrep hmem
  have hr : r = (f u).memberEnd h.iss h.jseq (okOut h.key h.written) (heldLanding h (okOut h.key h.written) t) t := by
    show (s.landWrite a [.mate (okOut k v) w h] t).landHeld h (okOut k v) t = _
    rw [hland]
    exact State.landHeld_ok (hchk u hwu) (hf.act u h.iss _)
  have hend := State.memberEnd_reported (f u) h.iss h.jseq (okOut h.key h.written) (heldLanding h (okOut h.key h.written) t) t
  have hcf := hf.corrected u
  rw [hr]
  refine ⟨⟨u, hrep, hend⟩, ?_, State.mem_memberEnd .., ?_⟩
  · rw [hend.ports, hcf.ports, hrep.ports, (hg.corrected s).ports]
  · exact State.mem_memberEnd_of_mem _ _ _ _ _ _ (hcf.landing ▸ hmem) rfl (Ne.symm hne)

/-- The beginning of a write whose partner is held (R521). -/
theorem State.beginAll_mate {m : Nat} {b : Bytes} {byTransfer : Bool} (hst : isStaged k = false) (hp : pairPartner k = some m) (hne : m ≠ k)
    (hchk : s.checkEntry k b = okOut k v) (hh : (s.port a.iss.port).heldOf m = some h) :
    s.beginAll a byTransfer [(k, b)] = ((s.takeHeld a.iss.port m).await (.held h (okOut k v)), [.mate (okOut k v) (writtenVal k b) h]) := by
  simp [State.beginAll, State.begin1, hst, hchk, okOut, ObjOut.applies, hp, hh, hne]

/-- The two that wait, in the order of their commands (R513). -/
theorem dueInto_pair (h : HeldPair) (o : ObjOut) (a : Accepted) (es : List Entry) : [Due.held h o, .write a es].foldl dueInto []
    = if a.jseq < h.jseq then [.write a es, .held h o] else [.held h o, .write a es] := rfl

/-- With no commit due, a held member and its partner's command are all that the boundary brings. -/
theorem State.atBoundary_pair (hdue : s.due = []) (hc : s.dueCommits (s.tick + 1) = []) (o : ObjOut) (es : List Entry) :
    State.atBoundary { s with due := [.held h o, .write a es] }
      = if a.jseq < h.jseq then (s.landWrite a es (s.tick + 1)).landHeld h o (s.tick + 1)
        else (s.landHeld h o (s.tick + 1)).landWrite a es (s.tick + 1) := by
  have hc' : ({ s with due := [.held h o, .write a es] } : State).dueCommits (s.tick + 1) = [] := hc
  have hs : { s with due := [] } = s := by cases s; simp only at hdue; subst hdue; rfl
  unfold State.atBoundary State.dueAt
  dsimp only
  rw [hc', List.map_nil, List.filter_nil, List.append_nil, dueInto_pair, hs]
  split <;> rfl

/-- A held value is held under its own key. -/
theorem PortState.heldOf_key {p : PortState} {m : Key} (hh : p.heldOf m = some h) : h.key = m := by
  have := List.find?_some hh
  simpa using this

end

/-- A write that brings the partner of a held correction waits for the boundary, and there both take effect. -/
theorem Writes.pair_lands {s s1 : State} {c : WriteCmd} {a : Accepted} {h : HeldPair} {k m v w : Nat} {f g : State → State}
    (hw : Writes s c k v s1 a) (hh : (s1.port c.iss.port).heldOf m = some h) (hwr : h.written = .num w)
    (hk : k ∈ corrKeys) (hm : m ∈ corrKeys) (hne : m ≠ k) (hp : pairPartner k = some m)
    (hf : CorrEffect m (.num w) (s1.tick + 1) f) (hg : CorrEffect k (.num v) (s1.tick + 1) g)
    (hchkm : ∀ u, Writable u m → u.checkEntry m (valBytes m (.num w)) = okOut m (.num w))
    (hchkk : ∀ u, Writable u k → u.checkEntry k (valBytes k (.num v)) = okOut k (.num v)) :
    ∃ u : State, s.writeNum c k v = u ∧ u = { s1 with ports := u.ports, due := u.due }
      ∧ PairLanded s1 u.atBoundary a h (okOut k (.num v)) c.iss.port f g := by
  obtain ⟨htr, htk, halone, hwk⟩ := hw
  have hsmall : ∀ j ∈ corrKeys, j < 2 ^ 24 ∧ isStaged j = false := by decide
  obtain ⟨hk24, hst⟩ := hsmall k hk
  obtain ⟨hi, hfl, he⟩ := State.taking_write htr hk24 (by have := valBytes_num_length k v; omega) htk
  have hknown := State.taking_portKnown htk
  have hkey := PortState.heldOf_key hh
  subst hkey
  rw [← hwr] at hf hchkm
  have hwm : Writable s1 h.key := (writable_corr_iff hm s1).mpr ((writable_corr_iff hk s1).mp hwk)
  have hbegin (b : Bool) := State.beginAll_mate (a := a) (byTransfer := b) hst hp hne (hchkk s1 hwk) (hi ▸ hh)
  have hcmd : s.writeNum c k v = s1.writeCmd a false [(k, valBytes k (.num v))] := by
    unfold State.writeNum
    rw [State.packet_taking _ htk, he]
  generalize valBytes k (.num v) = b at hbegin hcmd
  rw [hi] at hbegin
  have hPtick : (s1.takeHeld c.iss.port h.key).tick = s1.tick := rfl
  have hPdue : (s1.takeHeld c.iss.port h.key).due = [] := halone.1
  have hPcommits : (s1.takeHeld c.iss.port h.key).dueCommits (s1.tick + 1) = [] := by
    unfold State.dueCommits
    rw [hknown.allPending_takeHeld]
    exact halone.2
  have hPw : Writable (s1.takeHeld c.iss.port h.key) h.key := hwm
  obtain ⟨r, hact, hlast, hseq, hports, hheld, hmate⟩ :=
    landed_held_first (a := a) (s := s1.takeHeld c.iss.port h.key) hf hg hne (hchkm _ hPw)
  refine ⟨_, rfl, ?_⟩
  rw [hcmd]
  unfold State.writeCmd
  rw [if_neg (by simp)]
  by_cases hfl0 : bit a.pkt.flags 0 = true
  · rw [if_pos hfl0, halone.await, halone.atBoundary]
    refine ⟨rfl, ?_⟩
    rw [show s1.landDue (s1.tick + 1) (.strict a false [(k, b)]) = r.mateEnd a h (okOut k (.num v)) (s1.tick + 1) from
      State.landStrict_mate hPdue (hbegin false) hact rfl rfl hlast]
    exact ⟨.inl hseq, hports, hheld, _, hmate⟩
  · rw [if_neg hfl0, hbegin]
    dsimp only
    rw [if_neg (by simp [allStaged, hst]), if_neg (by simp [settledOuts])]
    have hdue : (((s1.takeHeld c.iss.port h.key).await (.held h (okOut k (.num v)))).await (.write a [.mate (okOut k (.num v)) (writtenVal k b) h]))
        = { s1.takeHeld c.iss.port h.key with due := [.held h (okOut k (.num v)), .write a [.mate (okOut k (.num v)) (writtenVal k b) h]] } := by
      unfold State.await
      rw [hPdue]
      rfl
    rw [hdue]
    refine ⟨rfl, ?_⟩
    rw [State.atBoundary_pair hPdue (by rw [hPtick]; exact hPcommits), hPtick]
    split
    · next hlt =>
      obtain ⟨hseq', hports', hheld', hmate'⟩ := landed_mate_first (a := a) hf hg hne (writtenVal k b)
        (fun u hu => hchkm u hu) hm hPw
      exact ⟨.inr ⟨hlt, hseq'⟩, hports', hheld', _, hmate'⟩
    · rw [State.landWrite_mate hact rfl]
      exact ⟨.inl hseq, hports, hheld, _, hmate⟩

/-! What both corrections together leave of the time (R51). -/

/-- Where DISC_SRC is not HOST the two leave the time as it was, and every object but FREQ_CORR; with HOST the frequency correction is the
discipline offset and the source is qualified; the phase correction slews, but not while the word of a holdover is held. -/
structure HostPair (s t : State) (v : Nat) (p : Int) (at_ : Tick) : Prop where
  freq : t.obj Obj.corrFreqCorr = v
  other : s.obj Obj.tbDiscSrc ≠ 4 → t.time = s.time ∧ ∀ k, reportKey k = false → k ≠ Obj.corrFreqCorr → t.obj k = s.obj k
  host : s.obj Obj.tbDiscSrc = 4 → t.time.offset = toInt 32 v ∧ t.time.lastCorr = some at_ ∧ t.time.sourceOk = true
    ∧ (s.obj Obj.tbDiscState ≠ 5 → s.obj Obj.tbDiscState ≠ 3 → t.time.slewFrom = p ∧ t.time.slewOffset ≠ 0)
    ∧ (s.obj Obj.tbDiscState = 5 → s.time.sourceOk = true → t.time.slewOffset = s.time.slewOffset)

section
variable {s t : State} {v w : Nat} {x : Tick} (h0 : toInt 64 w ≠ 0) (hlt : (toInt 64 w).natAbs < 64000)
include h0 hlt

/-- The frequency first: the phase then acts on a qualified source. -/
theorem Sequenced.freq_phase (h : Sequenced (fun s => s.freqCorr v x) (fun s => (s.phaseCorr w x).1) s t) : HostPair s t v (toInt 64 w) x
    ∧ (s.obj Obj.tbDiscSrc = 4 → s.obj Obj.tbDiscState = 3 → s.time.sourceOk = false → t.time.slewFrom = toInt 64 w ∧ t.time.slewOffset ≠ 0) := by
  obtain ⟨u, hu, ht⟩ := h
  have hcf := s.freqCorr_corrected v x
  have hfv := s.freqCorr_freq v x
  have hsrc : u.obj Obj.tbDiscSrc = s.obj Obj.tbDiscSrc := (hu.objs _ (by decide)).trans hcf.src
  have hufreq : u.obj Obj.corrFreqCorr = v := (hu.objs _ (by decide)).trans hfv
  obtain ⟨-, -, hother, hhost⟩ := State.phaseCorr_ok h0 hlt u x
  dsimp only at hu ht
  generalize (u.phaseCorr w x).1 = r at *
  by_cases h4 : s.obj Obj.tbDiscSrc = 4
  · obtain ⟨foff, flast, fok, fslew, ffrom, fstate⟩ := s.freqCorr_taken v x h4
    obtain ⟨poff, plast, pok, pstate, pfreq, pslews, pholds⟩ := hhost (hsrc.trans h4)
    have hut := hu.time
    have hud : u.obj Obj.tbDiscState = (s.freqCorr v x).obj Obj.tbDiscState := hu.objs _ (by decide)
    have hint : u.int Obj.corrFreqCorr = toInt 32 v := by rw [State.int, hufreq]; rfl
    have htt := ht.time
    rw [← hut] at foff flast fok fslew ffrom
    rw [← hud] at fstate
    have hslews : ¬ (u.obj Obj.tbDiscState = 3 ∨ u.obj Obj.tbDiscState = 5) → t.time.slewFrom = toInt 64 w ∧ t.time.slewOffset ≠ 0 := by
      rw [htt]; exact pslews
    refine ⟨⟨(ht.objs _ (by decide)).trans (pfreq.trans hufreq), fun h => absurd h4 h, fun _ => ⟨?_, ?_, ?_, fun h5 h3 => hslews ?_, fun h5 hok => ?_⟩⟩,
      fun _ h3 hok => hslews ?_⟩
    · rw [htt]; exact poff.elim (·.trans foff) (·.trans hint)
    · rw [htt]; exact plast (by rw [flast]; rfl)
    · rw [htt, pok, fok]
    · rw [fstate]; split
      · decide
      · exact fun h => h.elim h3 h5
    · rw [htt, pholds (by rw [fstate, hok, if_neg (by simp)]; exact h5), fslew]
    · rw [fstate, if_pos ⟨hok, .inr h3⟩]; decide
  · have hr := hother (by rw [hsrc]; exact h4)
    subst hr
    have hset := s.freqCorr_other v x h4
    refine ⟨⟨(ht.objs _ (by decide)).trans hufreq, fun _ => ⟨?_, fun k hk hne => ?_⟩, fun h => absurd h h4⟩, fun h => absurd h h4⟩
    · rw [ht.time, hu.time, hset]; rfl
    · rw [ht.objs k hk, hu.objs k hk, hset]; exact State.obj_setObj_ne _ _ hne

/-- The phase first. -/
theorem Sequenced.phase_freq (h : Sequenced (fun s => (s.phaseCorr w x).1) (fun s => s.freqCorr v x) s t) : HostPair s t v (toInt 64 w) x := by
  obtain ⟨u, hu, ht⟩ := h
  have hcf := u.freqCorr_corrected v x
  have hfv := u.freqCorr_freq v x
  obtain ⟨-, hcp, hother, hhost⟩ := State.phaseCorr_ok h0 hlt s x
  have hsrc : u.obj Obj.tbDiscSrc = s.obj Obj.tbDiscSrc := (hu.objs _ (by decide)).trans hcp.src
  dsimp only at hu ht
  generalize (s.phaseCorr w x).1 = r at *
  have htt := ht.time
  by_cases h4 : s.obj Obj.tbDiscSrc = 4
  · obtain ⟨foff, flast, fok, fslew, ffrom, fstate⟩ := u.freqCorr_taken v x (hsrc.trans h4)
    obtain ⟨poff, plast, pok, pstate, pfreq, pslews, pholds⟩ := hhost h4
    rw [hu.time] at fslew ffrom
    refine ⟨(ht.objs _ (by decide)).trans hfv, fun h => absurd h4 h, fun _ => ⟨?_, ?_, ?_, fun h5 h3 => ?_, fun h5 _ => ?_⟩⟩ <;> rw [htt]
    · exact foff
    · exact flast
    · exact fok
    · rw [ffrom, fslew]; exact pslews (fun h => h.elim h3 h5)
    · rw [fslew, pholds h5]
  · have hr := hother h4
    subst hr
    have hset := u.freqCorr_other v x (by rw [hsrc]; exact h4)
    refine ⟨(ht.objs _ (by decide)).trans hfv, fun _ => ⟨?_, fun k hk hne => ?_⟩, fun h => absurd h h4⟩
    · rw [htt, hset]; exact hu.time
    · rw [ht.objs k hk, hset]; exact (State.obj_setObj_ne _ _ hne).trans (hu.objs k hk)

end

/-- Settles O11: a correction whose partner is held comes to the boundary with it, in the order of the two commands; each order is followed through. -/
theorem hostCorrectionsTakeEffectInPairs : Obligations.HostCorrectionsTakeEffectInPairs := by
  unfold Obligations.HostCorrectionsTakeEffectInPairs
  refine ⟨fun s s1 c a h w hw hv hr hh hwr hw64 hw0 hlt => ?_, fun s s1 c a h w hw hv hv0 hlt hh hwr hw32 hr => ?_⟩
  · have h0 := toInt_64_ne_zero hw64 hw0
    have hkey := PortState.heldOf_key hh
    obtain ⟨u, hu, hframe, horder, hports, hheld, hmate⟩ := hw.pair_lands hh hwr (by decide) (by decide) (by decide) (by decide)
      (corrEffect_phase h0 hlt _) (corrEffect_freq c.value _) (fun u hu => checkEntry_phase hw64 hw0 hu) (fun u hu => checkEntry_freq hv hr hu)
    rw [hkey] at horder hports hheld
    rw [hwr] at hheld
    have hpair : HostPair (s1.takeHeld c.iss.port Obj.corrPhaseCorr) u.atBoundary c.value (toInt 64 w) (s1.tick + 1) :=
      horder.elim (fun h => h.phase_freq h0 hlt) (fun h => (h.2.freq_phase h0 hlt).1)
    refine ⟨u, congrArg Host.Outcome.next hu, hframe, hpair.freq, ?_, hheld, hmate, hpair.other, hpair.host⟩
    rw [State.port, hports]
    exact s1.heldOf_takeHeld _ _
  · have h0 := toInt_64_ne_zero hv hv0
    have hkey := PortState.heldOf_key hh
    obtain ⟨u, hu, hframe, horder, hports, hheld, hmate⟩ := hw.pair_lands hh hwr (by decide) (by decide) (by decide) (by decide)
      (corrEffect_freq w _) (corrEffect_phase h0 hlt _) (fun u hu => checkEntry_freq hw32 hr hu) (fun u hu => checkEntry_phase hv hv0 hu)
    rw [hkey] at horder hports hheld
    rw [hwr] at hheld
    have hpair : HostPair (s1.takeHeld c.iss.port Obj.corrFreqCorr) u.atBoundary w (toInt 64 c.value) (s1.tick + 1) :=
      horder.elim (fun h => (h.freq_phase h0 hlt).1) (fun h => h.2.phase_freq h0 hlt)
    refine ⟨u, congrArg Host.Outcome.next hu, hframe, hpair.freq, ?_, hheld, hmate, hpair.other, fun h4 => ?_⟩
    · rw [State.port, hports]
      exact s1.heldOf_takeHeld _ _
    · obtain ⟨hoff, hlast, hok, hslews, hholds⟩ := hpair.host h4
      refine ⟨hoff, hlast, hok, hslews, fun hle hd hno => ?_, hholds⟩
      exact horder.elim (fun h => (h.freq_phase h0 hlt).2 h4 hd hno) (fun h => absurd h.1 (by omega))

end Sys2Proof.Machine

namespace Sys2Proof.Machine

/-! FAULT with a job beyond the 16 job slots (R484, R669). The table of jobs is keyed by any number, and the key of JOB_STATE of entry 0x930 is that of
LEVEL of trigger output 0. The outputs are driven inactive before the jobs are ended, so the state that the job's end writes stays there. -/

/-- A FINISH job that waits, of a handle that names no stream. -/
def staleJob : Job :=
  { op := 3, final := false, notify := false, cont := false, wrapper := 0, block := 0, dest := 0, addr := 0, outLen := 1, queue := 0, capture := 0, first := 0,
    offset := 0, inLen := 0, handle := 0xFFFF, iss := { port := 0 }, slot := 0, order := 0 }

/-- A supply fault has been detected, with that job in the table. -/
def strayJobState : State := { dev := { causes := [(3, 0xFFFF)] }, jobs := [(0x930, staleJob)] }

theorem enterFault_strayJob : (strayJobState.enterFault 0).obj (Obj.trigOutLevel 0) = 3 := by decide +kernel

/-- Refutes O54, in its clause on FAULT: trigger output 0 does not end inactive. -/
theorem not_startUpAndFaultSetTheState : ¬ Obligations.StartUpAndFaultSetTheState := by
  unfold Obligations.StartUpAndFaultSetTheState
  rintro ⟨-, -, -, -, -, hfault⟩
  have hcauses : strayJobState.dev.causes ≠ [] := by decide
  obtain ⟨-, -, -, -, -, -, -, -, houtputs, -⟩ := hfault strayJobState 0 hcauses
  have hlevel := (houtputs 0 (by decide)).2
  rw [enterFault_strayJob] at hlevel
  exact absurd hlevel (by decide)

end Sys2Proof.Machine

namespace Sys2Proof.Machine

/-! The outputs (R70, R80, R82, R86 to R88). -/

section
variable (s : State)

@[simp] theorem State.setObj_synth (k v j : Nat) : (s.setObj k v).synth j = s.synth j := rfl

theorem State.synth_setSynth_ne {n j : Nat} (f : Synth → Synth) (h : j ≠ n) : (s.setSynth n f).synth j = s.synth j :=
  (s.synth_setSynth n f j).trans (if_neg h)

@[simp] theorem State.showSyn_synth (n j : Nat) : (s.showSyn n).synth j = s.synth j := rfl

theorem State.showSyn_obj (n k : Nat) :
    (s.showSyn n).obj k = if k = Obj.synOState n then (s.synth (n + 2)).shown (s.obj (Obj.synOSynWord n)) else s.obj k := State.obj_setObj ..

@[simp] theorem State.showSyn_state (n : Nat) : (s.showSyn n).obj (Obj.synOState n) = (s.synth (n + 2)).shown (s.obj (Obj.synOSynWord n)) :=
  (s.showSyn_obj n _).trans (if_pos rfl)

theorem State.showSyn_obj_ne {n k : Nat} (h : k ≠ Obj.synOState n) : (s.showSyn n).obj k = s.obj k := (s.showSyn_obj n k).trans (if_neg h)

end

/-- From s to t output n's run has become x, and its STATE follows. -/
structure OutputMoved (s t : State) (n : Nat) (x : Synth) : Prop where
  rest : t = { s with dict := t.dict, syn := t.syn }
  others : ∀ j, j ≠ n + 2 → t.synth j = s.synth j
  moved : t.synth (n + 2) = x
  shown : t.obj (Obj.synOState n) = x.shown (s.obj (Obj.synOSynWord n))
  objs : SameObjs s t [Obj.synOState n]

theorem State.outputMoved (s : State) (n : Nat) (f : Synth → Synth) :
    OutputMoved s ((s.setSynth (n + 2) f).showSyn n) n (f (s.synth (n + 2))) where
  rest := rfl
  others j hj := s.synth_setSynth_ne f hj
  moved := s.synth_setSynth_self (n + 2) f
  shown := by rw [State.showSyn_state, State.synth_setSynth_self]; rfl
  objs k hk := State.showSyn_obj_ne _ (by simpa using hk)

namespace Synth

variable (x : Synth) (b : Tick)

/-- The gate alone, the divider it releases and the high phase it lets end are what an opening or closing moves (R87, R88). -/
theorem gateTo_eq : x.gateTo b =
    { x with gate := x.on && !x.hold, run := (x.gateTo b).run, since := (x.gateTo b).since, shut := (x.gateTo b).shut,
             phase := (x.gateTo b).phase, rem := (x.gateTo b).rem, owe := (x.gateTo b).owe } := by
  obtain ⟨on, opens, closes, hold, holdAt, gate⟩ := x
  cases on <;> cases hold <;> cases gate <;> rfl

@[simp] theorem gateTo_gate : (x.gateTo b).gate = (x.on && !x.hold) := by rw [gateTo_eq]
@[simp] theorem gateTo_on : (x.gateTo b).on = x.on := by rw [gateTo_eq]
@[simp] theorem gateTo_hold : (x.gateTo b).hold = x.hold := by rw [gateTo_eq]
@[simp] theorem gateTo_holdAt : (x.gateTo b).holdAt = x.holdAt := by rw [gateTo_eq]
@[simp] theorem gateTo_opens : (x.gateTo b).opens = x.opens := by rw [gateTo_eq]
@[simp] theorem gateTo_closes : (x.gateTo b).closes = x.closes := by rw [gateTo_eq]

/-- An opening gate releases the divider from reset (R87). -/
theorem gateTo_opened (hon : x.on = true) (hhold : x.hold = false) (hgate : x.gate = false) :
    (x.gateTo b).run = true ∧ (x.gateTo b).since = b ∧ (x.gateTo b).phase = 0 := by
  simp [gateTo, hon, hhold, hgate]

/-- A closing gate is shut from its boundary on (R88). -/
theorem gateTo_shut (hwant : (x.on && !x.hold) = false) (hgate : x.gate = true) : (x.gateTo b).shut = some b := by
  simp [gateTo, hwant, hgate]

/-- An output after the start that is due at boundary b (R87). -/
def started : Synth := { x with on := true, opens := x.opens.filter (b < ·) }.gateTo b

/-- An output after the stop or the hold that is due at boundary b (R80, R82, R88). -/
def stopped : Synth :=
  { x with on := x.on && !x.closes.any (· ≤ b), closes := x.closes.filter (b < ·), hold := x.hold || x.holdAt.any (· ≤ b),
           holdAt := if x.holdAt.any (· ≤ b) then none else x.holdAt }.gateTo b

/-- An output after the restart of a gated relock (R80). -/
def restarted : Synth := { x with hold := false }.gateTo b

/-- A stop or a hold closes the gate. -/
theorem stopped_gate (h : (x.closes.any (· ≤ b) || x.holdAt.any (· ≤ b)) = true) : (x.stopped b).gate = false := by
  unfold stopped
  rw [gateTo_gate]
  rcases Bool.or_eq_true_iff.mp h with hc | hh
  · simp [hc]
  · simp [hh]

theorem stopped_shut (h : (x.closes.any (· ≤ b) || x.holdAt.any (· ≤ b)) = true) (hgate : x.gate = true) : (x.stopped b).shut = some b :=
  gateTo_shut _ _ ((gateTo_gate _ b).symm.trans (x.stopped_gate b h)) hgate

/-- An open gate's divider that runs on by its own count moves by the tick's share, and is high in the first half of its period (R70). -/
theorem advance_open {num den : Nat} {u : Tick} (hrun : x.run = true) (hgate : x.gate = true) (howe : x.owe = 0) (h0 : den ≠ 0)
    (hden : x.den = den) (hsince : x.since < u) :
    (x.advance num den u).phase = (x.phase + (x.rem + num) / den) % (128 * wordD x.inUse)
    ∧ (x.advance num den u).rem = (x.rem + num) % den
    ∧ (x.advance num den u).level = decide ((x.advance num den u).phase < 128 * ((wordD x.inUse + 1) / 2)) := by
  have hgo : ¬((!x.run) = true ∨ den = 0) := by simp [hrun, h0]
  unfold advance
  rw [if_neg hgo, if_neg (Nat.not_le.mpr hsince)]
  simp only [hgate, howe, hden, if_true, Int.add_zero, Int.toNat_natCast, Bool.true_or, Bool.and_true, and_self]

end Synth

section
variable (s : State) {n : Nat} (hn : n < 4)
include hn

theorem execClkoutStart_due (hdue : (s.synth (n + 2)).opens.any (· ≤ s.tick + 1) = true) :
    execClkoutStart n s = .next ((s.setSynth (n + 2) (·.started (s.tick + 1))).showSyn n) := if_pos ⟨hn, hdue⟩

theorem execClkoutStop_due
    (hdue : ((s.synth (n + 2)).closes.any (· ≤ s.tick + 1) || (s.synth (n + 2)).holdAt.any (· ≤ s.tick + 1)) = true) :
    execClkoutStop n s = .next ((s.setSynth (n + 2) (·.stopped (s.tick + 1))).showSyn n) := if_pos ⟨hn, Bool.or_eq_true_iff.mp hdue⟩

theorem execClkoutRestart_due {l : Nat} (hlock : (s.synth (n + 2)).lockedAt = some l) (hhold : (s.synth (n + 2)).hold = true)
    (hdue : l + 1024 ≤ s.refCyc) : execClkoutRestart n s = .next ((s.setSynth (n + 2) (·.restarted (s.tick + 1))).showSyn n) :=
  if_pos ⟨hn, hhold, by simpa [hlock] using hdue⟩

end

/-! Picot steps (R86). -/

section
variable (s : State)

/-- The cycle of REFCLK at which a step that is taken now was due. -/
def State.picotDue (n : Nat) : Nat :=
  if s.refCyc < (s.synth (n + 2)).lastStep + 2 * s.obj (Obj.synOPicotInterval n)
    then (s.synth (n + 2)).lastStep + s.obj (Obj.synOPicotInterval n) else s.refCyc

/-- One Picot step of n is taken: PICOT_PENDING moves by e, and the divider owes e. -/
def State.picotTaken (n : Nat) (e : Int) : State :=
  (s.setInt (Obj.synOPicotPending n) (s.int (Obj.synOPicotPending n) + e)).setSynth (n + 2)
    (fun x => { x with lastStep := s.picotDue n, owe := x.owe + e })

variable {n : Nat}

theorem execPicotStep_due (hn : n < 4) (hpend : s.int (Obj.synOPicotPending n) ≠ 0) (href : s.time.refclk = true)
    (hdue : (s.synth (n + 2)).lastStep + s.obj (Obj.synOPicotInterval n) ≤ s.refCyc) :
    execPicotStep n s = .next (s.picotTaken n (if 0 < s.int (Obj.synOPicotPending n) then -1 else 1)) := if_pos ⟨hn, hpend, href, hdue⟩

/-- PICOT_PENDING is a signed object of 32 bits (R94). -/
theorem picotPending_width (hn : n < 4) : (findObj (Obj.synOPicotPending n)).map (·.ty.width) = some 32 :=
  (by decide : ∀ n < 4, (findObj (Obj.synOPicotPending n)).map (·.ty.width) = some 32) n hn

theorem toInt_32_mem (x : Nat) : -2147483648 ≤ toInt 32 x ∧ toInt 32 x ≤ 2147483647 := by
  unfold toInt
  norm_num
  split <;> omega

theorem State.int_32_mem {k : Key} (hk : (findObj k).map (·.ty.width) = some 32) : -2147483648 ≤ s.int k ∧ s.int k ≤ 2147483647 := by
  obtain ⟨d, hd, hw⟩ := Option.map_eq_some_iff.mp hk
  simp only [State.int, hd, hw]
  exact toInt_32_mem _

theorem State.setInt_synth (k : Key) (v : Int) (j : Nat) : (s.setInt k v).synth j = s.synth j := by rw [State.setInt_eq]; rfl

theorem State.picotTaken_rest (e : Int) : s.picotTaken n e = { s with dict := (s.picotTaken n e).dict, syn := (s.picotTaken n e).syn } := by
  unfold State.picotTaken
  rw [State.setInt_eq]
  rfl

theorem State.picotTaken_pending (hn : n < 4) {e : Int} (hlo : -2147483648 ≤ s.int (Obj.synOPicotPending n) + e)
    (hhi : s.int (Obj.synOPicotPending n) + e ≤ 2147483647) :
    (s.picotTaken n e).int (Obj.synOPicotPending n) = s.int (Obj.synOPicotPending n) + e :=
  State.int_setInt_32 s (picotPending_width hn) hlo hhi

theorem State.picotTaken_synth (e : Int) :
    (s.picotTaken n e).synth (n + 2) = { s.synth (n + 2) with lastStep := s.picotDue n, owe := (s.synth (n + 2)).owe + e } := by
  unfold State.picotTaken
  rw [State.synth_setSynth_self, State.setInt_synth]

theorem State.picotTaken_synth_ne (e : Int) {j : Nat} (h : j ≠ n + 2) : (s.picotTaken n e).synth j = s.synth j :=
  (State.synth_setSynth_ne _ _ h).trans (s.setInt_synth _ _ j)

theorem State.picotTaken_objs (e : Int) : SameObjs s (s.picotTaken n e) [Obj.synOPicotPending n] :=
  fun _ hk => State.obj_setInt_ne s _ (by simpa using hk)

end

/-- Settles O5: each row of an output is one change of its run, which its STATE follows; a Picot step is one change of its count and its run. -/
theorem outputsAndPicotsMoveAtTheirBoundaries : Obligations.OutputsAndPicotsMoveAtTheirBoundaries := by
  unfold Obligations.OutputsAndPicotsMoveAtTheirBoundaries
  refine ⟨⟨fun s n hn hdue => ?_, fun s n hn hdue => ?_, fun s n l hn hlock hhold hdue => ?_, fun x num den u => x.advance_open⟩,
    fun s n hn hpend href hdue => ?_⟩
  · have hm := s.outputMoved n (·.started (s.tick + 1))
    refine ⟨_, execClkoutStart_due s hn hdue, hm.rest, hm.others, ?_⟩
    rw [hm.moved]
    refine ⟨Synth.gateTo_on .., Synth.gateTo_opens .., Synth.gateTo_closes .., Synth.gateTo_hold .., fun h => ?_, fun h hg => ?_, hm.shown, hm.objs⟩
    · exact (Synth.gateTo_gate ..).trans (by simp [h])
    · exact Synth.gateTo_opened _ _ rfl h hg
  · have hm := s.outputMoved n (·.stopped (s.tick + 1))
    refine ⟨_, execClkoutStop_due s hn hdue, hm.rest, hm.others, ?_⟩
    rw [hm.moved]
    refine ⟨Synth.stopped_gate _ _ hdue, Synth.gateTo_closes .., Synth.gateTo_opens .., fun h => ?_, fun h => ?_, fun h => ⟨?_, ?_⟩,
      Synth.stopped_shut _ _ hdue, hm.shown, hm.objs⟩
    · exact (Synth.gateTo_on ..).trans (by simp [h])
    · exact (Synth.gateTo_on ..).trans (by simp [h])
    · exact (Synth.gateTo_hold ..).trans (by simp [h])
    · exact (Synth.gateTo_holdAt ..).trans (if_pos h)
  · have hm := s.outputMoved n (·.restarted (s.tick + 1))
    refine ⟨_, execClkoutRestart_due s hn hlock hhold hdue, hm.rest, hm.others, ?_⟩
    rw [hm.moved]
    exact ⟨Synth.gateTo_hold .., Synth.gateTo_on .., (Synth.gateTo_gate ..).trans (Bool.and_true _), hm.shown, hm.objs⟩
  · intro due
    obtain ⟨hlo, hhi⟩ := s.int_32_mem (picotPending_width hn)
    refine ⟨_, execPicotStep_due s hn hpend href hdue, s.picotTaken_rest _, fun h => ?_, fun h => ?_, s.picotTaken_objs _,
      fun j hj => s.picotTaken_synth_ne _ hj⟩
    · rw [if_pos h]
      exact ⟨s.picotTaken_pending hn (by omega) (by omega), s.picotTaken_synth _⟩
    · rw [if_neg (by omega)]
      exact ⟨s.picotTaken_pending hn (by omega) (by omega), s.picotTaken_synth _⟩

/-! A relock and its lock (R76, R79, R80). -/

section
variable (s : State)

/-- The synthesiser's relock has ended in lock. -/
def State.lockSyn (i : Nat) : State :=
  (s.setObj (synLockedKey i) 1).setSynth i (fun x => { x with relockAt := none, lockedAt := some s.refCyc })

theorem execSynLock_due {i : Nat} (hi : i < 6) (hrel : (s.synth i).relockAt.isSome = true) (hcyc : 256 ≤ (s.synth i).cycles)
    (href : s.time.refclk = true) (hword : s.obj (synWordKey i) ≠ 0) :
    execSynLock i s = .next (if i < 2 then s.lockSyn i else (s.lockSyn i).showSyn (i - 2)) := by
  have hnone : ((s.synth i).relockAt.isNone : Bool) = false := Option.isNone_eq_false_iff.mpr hrel
  exact if_neg (by simp [hnone, href, hword, Nat.not_le.mpr hi, Nat.not_lt.mpr hcyc])

theorem execSynLock_early {i : Nat} (h : (s.synth i).cycles < 256) : execSynLock i s = .next s := if_pos (.inr (.inr (.inl h)))

theorem State.lockSyn_synth (i : Nat) : (s.lockSyn i).synth i = { s.synth i with relockAt := none, lockedAt := some s.refCyc } :=
  State.synth_setSynth_self ..

theorem State.lockSyn_synth_ne {i j : Nat} (h : j ≠ i) : (s.lockSyn i).synth j = s.synth j := State.synth_setSynth_ne _ _ h

theorem State.lockSyn_locked (i : Nat) : (s.lockSyn i).obj (synLockedKey i) = 1 := State.obj_setObj_self ..

theorem State.lockSyn_obj_ne {i k : Nat} (h : k ≠ synLockedKey i) : (s.lockSyn i).obj k = s.obj k := State.obj_setObj_ne _ _ h

end

theorem synWordKey_output (n : Nat) : synWordKey (n + 2) = Obj.synOSynWord n := by simp [synWordKey]

/-- The objects of the synthesisers are different objects (R94). -/
theorem synOState_ne_synLockedKey {n : Nat} (h : n < 4) : Obj.synOState n ≠ synLockedKey (n + 2) :=
  (by decide : ∀ n < 4, Obj.synOState n ≠ synLockedKey (n + 2)) n h

theorem synWordKey_ne_synLockedKey {i j : Nat} (hi : i < 6) (hj : j < 6) : synWordKey j ≠ synLockedKey i :=
  (by decide : ∀ i < 6, ∀ j < 6, synWordKey j ≠ synLockedKey i) i hi j hj

theorem synLockedKey_ne {i j : Nat} (hi : i < 6) (hj : j < 6) (h : j ≠ i) : synLockedKey j ≠ synLockedKey i :=
  (by decide : ∀ i < 6, ∀ j < 6, j ≠ i → synLockedKey j ≠ synLockedKey i) i hi j hj h

/-- In no relock an output that has a word shows whether its gate is open, or waits for its restart (R94). -/
theorem Synth.shown_locked {x : Synth} {w : Nat} (hw : w ≠ 0) (hx : x.relockAt = none) :
    x.shown w = if x.gate then 2 else if x.hold ∧ x.on then 3 else 4 := by
  simp [Synth.shown, hw, hx]

/-- Settles O4: the lock changes LOCKED and the synthesiser, and an output's STATE follows. -/
theorem synthesiserLocksAfterItsRelock : Obligations.SynthesiserLocksAfterItsRelock := by
  unfold Obligations.SynthesiserLocksAfterItsRelock
  refine ⟨fun s i hi hrel hcyc href hword => ?_, fun s i => execSynLock_early s⟩
  have hrow := execSynLock_due s hi hrel hcyc href hword
  by_cases h2 : i < 2
  · rw [if_pos h2] at hrow
    exact ⟨_, hrow, rfl, s.lockSyn_locked i, s.lockSyn_synth i, fun j hj => s.lockSyn_synth_ne hj,
      fun _ k hk => s.lockSyn_obj_ne (by simpa using hk), fun h => absurd h2 (by omega)⟩
  · rw [if_neg h2] at hrow
    obtain ⟨n, rfl⟩ : ∃ n, i = n + 2 := ⟨i - 2, by omega⟩
    have hn : n < 4 := by omega
    have hkey := synOState_ne_synLockedKey hn
    have hw : (s.lockSyn (n + 2)).obj (Obj.synOSynWord n) ≠ 0 := by
      rw [← synWordKey_output, s.lockSyn_obj_ne (synWordKey_ne_synLockedKey hi hi)]
      exact hword
    refine ⟨_, hrow, rfl, ?_, s.lockSyn_synth _, fun j hj => s.lockSyn_synth_ne hj, fun h => absurd h h2, fun _ => ⟨?_, fun k hk => ?_⟩⟩
    · exact (State.showSyn_obj_ne _ hkey.symm).trans (s.lockSyn_locked _)
    · refine (State.showSyn_state _ n).trans ?_
      rw [s.lockSyn_synth, Synth.shown_locked hw rfl]
    · simp only [List.mem_cons, List.not_mem_nil, or_false, not_or] at hk
      exact (State.showSyn_obj_ne _ hk.2).trans (s.lockSyn_obj_ne hk.1)

end Sys2Proof.Machine

namespace Sys2Proof.Machine

/-! Operations on each of several synthesisers. -/

/-- From s to t synthesiser i alone was touched: its run, its LOCKED and other objects, but no synthesiser's word. -/
structure OneSynTouched (s t : State) (i : Nat) : Prop where
  rest : t = { s with dict := t.dict, syn := t.syn }
  others : ∀ j, j ≠ i → t.synth j = s.synth j
  word : ∀ j, j < 6 → t.obj (synWordKey j) = s.obj (synWordKey j)
  locked : ∀ j, j < 6 → j ≠ i → t.obj (synLockedKey j) = s.obj (synLockedKey j)

theorem OneSynTouched.refl (s : State) (i : Nat) : OneSynTouched s s i := ⟨rfl, fun _ _ => rfl, fun _ _ => rfl, fun _ _ _ => rfl⟩

/-- An operation on synthesisers that touches one of them. -/
def TouchesOneSyn (f : State → Nat → State) : Prop := ∀ s i, i < 6 → OneSynTouched s (f s i) i

namespace TouchesOneSyn

variable {f : State → Nat → State} (hf : TouchesOneSyn f) {l : List Nat} (hl : ∀ i ∈ l, i < 6)
include hf hl

theorem foldl_rest (s : State) : l.foldl f s = { s with dict := (l.foldl f s).dict, syn := (l.foldl f s).syn } := by
  induction l generalizing s with
  | nil => rfl
  | cons i l ih =>
    rw [List.foldl_cons, ih (fun k hk => hl k (List.mem_cons_of_mem _ hk)) (f s i), (hf s i (hl i List.mem_cons_self)).rest]

/-- A synthesiser that is not listed is left alone. -/
theorem foldl_not_mem (s : State) {j : Nat} (hj : j < 6) (h : j ∉ l) :
    (l.foldl f s).synth j = s.synth j ∧ (l.foldl f s).obj (synLockedKey j) = s.obj (synLockedKey j) := by
  induction l generalizing s with
  | nil => exact ⟨rfl, rfl⟩
  | cons i l ih =>
    obtain ⟨hne, hmem⟩ := not_or.mp (fun hor => h (List.mem_cons.mpr hor))
    obtain ⟨hsyn, hlock⟩ := ih (fun k hk => hl k (List.mem_cons_of_mem _ hk)) (f s i) hmem
    have htouched := hf s i (hl i List.mem_cons_self)
    exact ⟨hsyn.trans (htouched.others j hne), hlock.trans (htouched.locked j hj hne)⟩

/-- A listed synthesiser is left as the operation leaves it, from a state with the same word. -/
theorem foldl_mem (s : State) {j : Nat} (hj : j < 6) (h : j ∈ l) : ∃ u : State, u.obj (synWordKey j) = s.obj (synWordKey j)
    ∧ (l.foldl f s).synth j = (f u j).synth j ∧ (l.foldl f s).obj (synLockedKey j) = (f u j).obj (synLockedKey j) := by
  induction l generalizing s with
  | nil => exact absurd h List.not_mem_nil
  | cons i l ih =>
    have hl' : ∀ k ∈ l, k < 6 := fun k hk => hl k (List.mem_cons_of_mem _ hk)
    by_cases hmem : j ∈ l
    · obtain ⟨u, hword, hu⟩ := ih hl' (f s i) hmem
      exact ⟨u, hword.trans ((hf s i (hl i List.mem_cons_self)).word j hj), hu⟩
    · obtain rfl := (List.mem_cons.mp h).resolve_right hmem
      exact ⟨s, rfl, foldl_not_mem hf hl' (f s j) hj hmem⟩

end TouchesOneSyn

/-! What a relock leaves (R74, R76, R79, R80, R85). -/

/-- From s to u synthesiser i has begun to relock at t, and of the objects only those listed may have moved. -/
structure Relocked (s u : State) (i : Nat) (t : Tick) (ks : List Key) : Prop where
  rest : u = { s with dict := u.dict, syn := u.syn }
  others : ∀ j, j ≠ i → u.synth j = s.synth j
  relockAt : (u.synth i).relockAt = some t
  locked : u.obj (synLockedKey i) = 0
  objs : SameObjs s u ks

theorem Relocked.setObj {s u : State} {i : Nat} {t : Tick} {ks : List Key} (h : Relocked s u i t ks) {k : Key} (hk : synLockedKey i ≠ k) (v : Nat) :
    Relocked s (u.setObj k v) i t (k :: ks) where
  rest := by rw [h.rest]; rfl
  others := h.others
  relockAt := h.relockAt
  locked := (State.obj_setObj_ne _ _ hk).trans h.locked
  objs j hj := by
    obtain ⟨hne, hmem⟩ := not_or.mp (fun hor => hj (List.mem_cons.mpr hor))
    exact (State.obj_setObj_ne _ _ hne).trans (h.objs j hmem)

/-- The objects that a relock of synthesiser i moves: BAND and LOCKED, and an output's Picot counts and STATE. -/
def relockKeys (i : Nat) : List Key :=
  if i < 2 then [synLockedKey i, synBandKey i]
  else [Obj.synOState (i - 2), Obj.synOPicotPending (i - 2), Obj.synOPicotDiscarded (i - 2), synLockedKey i, synBandKey i]

theorem synLockedKey_ne_output {i : Nat} (h2 : ¬ i < 2) (h6 : i < 6) : synLockedKey i ≠ Obj.synOState (i - 2)
    ∧ synLockedKey i ≠ Obj.synOPicotPending (i - 2) ∧ synLockedKey i ≠ Obj.synOPicotDiscarded (i - 2) :=
  (by decide : ∀ i < 6, ¬ i < 2 → synLockedKey i ≠ Obj.synOState (i - 2)
    ∧ synLockedKey i ≠ Obj.synOPicotPending (i - 2) ∧ synLockedKey i ≠ Obj.synOPicotDiscarded (i - 2)) i h6 h2

theorem synWordKey_not_mem_relockKeys {i j : Nat} (hi : i < 6) (hj : j < 6) : synWordKey j ∉ relockKeys i :=
  (by decide : ∀ i < 6, ∀ j < 6, synWordKey j ∉ relockKeys i) i hi j hj

theorem synLockedKey_not_mem_relockKeys {i j : Nat} (hi : i < 6) (hj : j < 6) (h : j ≠ i) : synLockedKey j ∉ relockKeys i :=
  (by decide : ∀ i < 6, ∀ j < 6, j ≠ i → synLockedKey j ∉ relockKeys i) i hi j hj h

theorem Synth.holdFrom_relockAt (x : Synth) (t : Tick) : (x.holdFrom t).relockAt = x.relockAt := by
  unfold Synth.holdFrom
  split <;> rfl

/-- What every relock does first, whichever synthesiser it is of. -/
theorem State.setSynth_relocked (s : State) (i b : Nat) (t : Tick) {f : Synth → Synth} (hf : ∀ x, (f x).relockAt = some t) :
    Relocked s (((s.setObj (synBandKey i) b).setObj (synLockedKey i) 0).setSynth i f) i t [synLockedKey i, synBandKey i] where
  rest := rfl
  others j hj := State.synth_setSynth_ne _ _ hj
  relockAt := by rw [State.synth_setSynth_self]; exact hf _
  locked := State.obj_setObj_self ..
  objs k hk := by
    simp only [List.mem_cons, List.not_mem_nil, or_false, not_or] at hk
    exact (State.obj_setObj_ne _ _ hk.1).trans (State.obj_setObj_ne _ _ hk.2)

theorem State.relock_relocked (s : State) {i : Nat} (hi : i < 6) (t : Tick) (gated : Bool) :
    Relocked s (s.relock i t gated) i t (relockKeys i) := by
  have hx (x : Synth) (h : x.relockAt = some t) : (if gated then x.holdFrom t else x).relockAt = some t := by
    split
    · exact (x.holdFrom_relockAt t).trans h
    · exact h
  unfold State.relock relockKeys
  dsimp only
  split
  · exact State.setSynth_relocked s i _ t (fun x => hx _ rfl)
  · next h2 =>
    obtain ⟨hstate, hpend, hdisc⟩ := synLockedKey_ne_output h2 hi
    exact (((State.setSynth_relocked s i _ t (fun x => hx _ rfl)).setObj hdisc _).setObj hpend _).setObj hstate _

theorem Relocked.time {s u : State} {i : Nat} {t : Tick} {ks : List Key} (h : Relocked s u i t ks) : u.time = s.time := by rw [h.rest]

theorem Relocked.touched {s u : State} {i : Nat} {t : Tick} (h : Relocked s u i t (relockKeys i)) (hi : i < 6) : OneSynTouched s u i :=
  ⟨h.rest, h.others, fun _ hj => h.objs _ (synWordKey_not_mem_relockKeys hi hj), fun _ hj hne => h.objs _ (synLockedKey_not_mem_relockKeys hi hj hne)⟩

section
variable (s : State)

/-- Without REFCLK a synthesiser that has a word loses LOCKED and freezes (R84). -/
def State.freezeSyn (i : Nat) : State :=
  if s.obj (synWordKey i) = 0 then s
  else (s.setObj (synLockedKey i) 0).setSynth i (fun x => { x with frozen := true, lockedAt := none })

/-- With REFCLK back a synthesiser that has a word begins to relock (R84). -/
def State.returnSyn (t : Tick) (i : Nat) : State :=
  if s.obj (synWordKey i) = 0 then s else s.relock i t (i = 1 || s.obj (Obj.synORelockMode (i - 2)) = 0)

end

theorem touchesOneSyn_freezeSyn : TouchesOneSyn State.freezeSyn := by
  intro s i hi
  unfold State.freezeSyn
  split
  · exact OneSynTouched.refl s i
  · exact ⟨rfl, fun j hj => State.synth_setSynth_ne _ _ hj, fun j hj => State.obj_setObj_ne _ _ (synWordKey_ne_synLockedKey hi hj),
      fun j hj hne => State.obj_setObj_ne _ _ (synLockedKey_ne hi hj hne)⟩

theorem State.freezeSyn_frozen {s : State} {i : Nat} (h : s.obj (synWordKey i) ≠ 0) :
    ((s.freezeSyn i).synth i).frozen = true ∧ (s.freezeSyn i).obj (synLockedKey i) = 0 := by
  unfold State.freezeSyn
  rw [if_neg h, State.synth_setSynth_self]
  exact ⟨rfl, State.obj_setObj_self ..⟩

theorem touchesOneSyn_returnSyn (t : Tick) : TouchesOneSyn (fun s i => s.returnSyn t i) := by
  intro s i hi
  dsimp only [State.returnSyn]
  split
  · exact OneSynTouched.refl s i
  · exact (s.relock_relocked hi t _).touched hi

theorem State.returnSyn_relocks {s : State} {t : Tick} {i : Nat} (hi : i < 6) (h : s.obj (synWordKey i) ≠ 0) :
    ((s.returnSyn t i).synth i).relockAt = some t ∧ (s.returnSyn t i).obj (synLockedKey i) = 0 := by
  unfold State.returnSyn
  rw [if_neg h]
  exact ⟨(s.relock_relocked hi t _).relockAt, (s.relock_relocked hi t _).locked⟩

/-! The discipline leaves the synthesisers' runs, their LOCKED and whether REFCLK is present. -/

namespace Steered

variable {s t : State} (h : Steered s t)
include h

theorem synth (i : Nat) : t.synth i = s.synth i := by
  have hsyn : t.syn = s.syn := h.part (·.syn)
  unfold State.synth
  rw [hsyn]

theorem refclk : t.time.refclk = s.time.refclk := h.part (·.time.refclk)

theorem locked {i : Nat} (hi : i < 6) : t.obj (synLockedKey i) = s.obj (synLockedKey i) :=
  h.objs _ ((by decide : ∀ i < 6, reportKey (synLockedKey i) = false) i hi) ((by decide : ∀ i < 6, synLockedKey i ∉ steerKeys) i hi)

end Steered

section
variable (s : State)

theorem execRefclkLoss_present (h : s.time.refclk = true) : execRefclkLoss s
    = .next (((below 6).foldl State.freezeSyn (s.setTime (fun b => { b with refclk := false }))).sourceLost (s.tick + 1)) := by
  unfold execRefclkLoss
  rw [if_neg (by simp [h])]
  rfl

/-- SYN-T is locked and runs again as REFCLK is back (R84). -/
def State.thawed : State := ((s.setTime (fun b => { b with refclk := true })).setObj Obj.synTLocked 1).setSynth 0 (fun x => { x with frozen := false })

@[simp] theorem State.synth_setTime (f : TimeBase → TimeBase) (j : Nat) : (s.setTime f).synth j = s.synth j := rfl

theorem State.thawed_word {i : Nat} (hi : i < 6) : s.thawed.obj (synWordKey i) = s.obj (synWordKey i) :=
  State.obj_setObj_ne (s.setTime (fun b => { b with refclk := true })) 1 (synWordKey_ne_synLockedKey (i := 0) (by decide) hi)

theorem State.thawed_locked : s.thawed.obj (synLockedKey 0) = 1 :=
  State.obj_setObj_self (s.setTime (fun b => { b with refclk := true })) Obj.synTLocked 1

/-- What the source's qualification leaves of the synthesisers. -/
theorem State.qualify_if_keeps (c : Prop) [Decidable c] (j : Int) (x : SubTime) :
    (if c then s.qualify j x else s).time.refclk = s.time.refclk ∧ (∀ i, (if c then s.qualify j x else s).synth i = s.synth i)
    ∧ ∀ i, i < 6 → (if c then s.qualify j x else s).obj (synLockedKey i) = s.obj (synLockedKey i) := by
  split
  · have h := Steered.qualified s j x
    exact ⟨h.refclk, h.synth, fun _ => h.locked⟩
  · exact ⟨rfl, fun _ => rfl, fun _ _ => rfl⟩

theorem execRefclkReturn_absent (h : s.time.refclk = false) (hc : s.obj Obj.refRefclkClass ≠ 0) : execRefclkReturn s
    = .next (let v := [1, 2, 3, 4, 5].foldl (fun v i => v.returnSyn (s.tick + 1) i) s.thawed
      if v.obj Obj.tbDiscSrc = 0 ∧ v.time.counting then v.qualify 0 (ofTick (s.tick + 1)) else v) := by
  unfold execRefclkReturn State.thawed State.returnSyn
  rw [if_neg (by simp [h, hc])]

end

/-! The class of REFCLK (R90). -/

/-- A frequency lies within 5 per cent of that of a class. -/
def NearClass (hz c : Nat) : Prop := refHz c * 95 ≤ hz * 100 ∧ hz * 100 ≤ refHz c * 105

/-- The five classes. -/
def refClasses : List Nat := [1, 2, 3, 4, 5]

theorem mem_refClasses_iff {c : Nat} : c ∈ refClasses ↔ 1 ≤ c ∧ c ≤ 5 := by
  simp only [refClasses, List.mem_cons, List.not_mem_nil, or_false]
  omega

/-- No frequency is near two classes. -/
theorem NearClass.unique {hz c d : Nat} (hc : c ∈ refClasses) (hd : d ∈ refClasses) (h : NearClass hz c) (g : NearClass hz d) : c = d := by
  have hgap : ∀ c ∈ refClasses, ∀ d ∈ refClasses, c < d → refHz c * 105 < refHz d * 95 := by decide
  obtain ⟨hlo, hhi⟩ := h
  obtain ⟨glo, ghi⟩ := g
  rcases Nat.lt_trichotomy c d with hlt | heq | hlt
  · have := hgap c hc d hd hlt; omega
  · exact heq
  · have := hgap d hd c hc hlt; omega

theorem classify_near {hz c : Nat} (hc : c ∈ refClasses) (h : NearClass hz c) : classify hz = c := by
  have hsome : (refClasses.find? (fun d => refHz d * 95 ≤ hz * 100 ∧ hz * 100 ≤ refHz d * 105)).isSome := by
    rw [List.find?_isSome]
    exact ⟨c, hc, decide_eq_true h⟩
  obtain ⟨d, hd⟩ := Option.isSome_iff_exists.mp hsome
  have hnear : NearClass hz d := by simpa [NearClass] using List.find?_some hd
  have hcd := h.unique hc (List.mem_of_find?_eq_some hd) hnear
  unfold classify
  rw [show [1, 2, 3, 4, 5].find? _ = some d from hd, hcd]
  rfl

theorem classify_none {hz : Nat} (h : ∀ c ∈ refClasses, ¬ NearClass hz c) : classify hz = 0 := by
  have hnone : refClasses.find? (fun d => refHz d * 95 ≤ hz * 100 ∧ hz * 100 ≤ refHz d * 105) = none :=
    List.find?_eq_none.mpr (fun c hc hn => h c hc (by simpa [NearClass] using hn))
  unfold classify
  rw [show [1, 2, 3, 4, 5].find? _ = none from hnone]
  rfl

section
variable (s : State)

/-- A word with P 1 and an integer ratio (R67). -/
theorem mkWord_integer (d n : Nat) : mkWord d 1 n 0 = d * 2 ^ 48 + 2 ^ 43 + n * 2 ^ 32 := by simp [mkWord]

theorem State.setObjs_two (j k v w : Nat) : s.setObjs [(j, v), (k, w)] = (s.setObj j v).setObj k w := rfl

/-- The class is known, and SYN-T and SYN-L have the words of that class (R71). -/
def State.classWords (c : Nat) : State :=
  (s.setObj Obj.refRefclkClass c).setObjs [(Obj.synTSynWord, mkWord 10 1 (refRatio c) 0), (Obj.synLSynWord, mkWord 64 1 (refRatio c) 0)]

theorem State.classWords_class (c : Nat) : (s.classWords c).obj Obj.refRefclkClass = c := by
  unfold State.classWords
  rw [State.setObjs_two, State.obj_setObj_ne _ _ (by decide), State.obj_setObj_ne _ _ (by decide), State.obj_setObj_self]

theorem State.classWords_synT (c : Nat) : (s.classWords c).obj Obj.synTSynWord = mkWord 10 1 (refRatio c) 0 := by
  unfold State.classWords
  rw [State.setObjs_two, State.obj_setObj_ne _ _ (by decide), State.obj_setObj_self]

theorem State.classWords_synL (c : Nat) : (s.classWords c).obj Obj.synLSynWord = mkWord 64 1 (refRatio c) 0 := by
  unfold State.classWords
  rw [State.setObjs_two, State.obj_setObj_self]

/-- The class is known, and REFCLK is present. -/
def State.classified (c : Nat) : State := (s.classWords c).setTime (fun b => { b with refclk := true })

theorem State.classified_obj (c : Nat) (k : Key) : (s.classified c).obj k = (s.classWords c).obj k := State.setTime_obj ..

theorem State.classified_time (c : Nat) : (s.classified c).time = { s.time with refclk := true } := by
  unfold State.classified State.classWords
  rw [State.setObjs_two, State.setTime_time, State.setObj_time, State.setObj_time, State.setObj_time]

theorem execRefclkClassify_near {hz c : Nat} (hdev : s.obj Obj.devDevState = 0) (hcount : s.time.counting = false) (hc : c ∈ refClasses)
    (h : NearClass hz c) :
    execRefclkClassify hz s = .next (((s.classified c).relock 0 (s.tick + 1) true).relock 1 (s.tick + 1) true) := by
  have h0 : c ≠ 0 := by have := (mem_refClasses_iff.mp hc).1; omega
  unfold execRefclkClassify
  rewrite [if_neg (by simp [hdev, hcount]), classify_near hc h]
  exact if_neg h0

theorem execRefclkClassify_other {hz : Nat} (hdev : s.obj Obj.devDevState = 0) (hcount : s.time.counting = false)
    (h : ∀ c ∈ refClasses, ¬ NearClass hz c) :
    execRefclkClassify hz s = .next ((s.setObj Obj.refRefclkClass 0).setTime (fun b => { b with refclk := false })) := by
  unfold execRefclkClassify
  rw [if_neg (by simp [hdev, hcount]), classify_none h]
  exact if_pos rfl

end

/-- Settles O6: the loss and the return of REFCLK act on each synthesiser by itself, and what the discipline does then leaves them; each relock of the
classification leaves the words. -/
theorem referenceClockSetsAndStopsTheSynthesisers : Obligations.ReferenceClockSetsAndStopsTheSynthesisers := by
  unfold Obligations.ReferenceClockSetsAndStopsTheSynthesisers
  refine ⟨fun s hz hdev hcount => ⟨fun c h1 h5 hlo hhi => ?_, fun hfar => ?_⟩, fun s href => ?_, fun s href hclass => ?_⟩
  · have hT := (s.classified c).relock_relocked (i := 0) (by decide) (s.tick + 1) true
    have hL := ((s.classified c).relock 0 (s.tick + 1) true).relock_relocked (i := 1) (by decide) (s.tick + 1) true
    have hobj {k : Key} (hk : k ∉ relockKeys 0 ∧ k ∉ relockKeys 1) := (hL.objs k hk.2).trans ((hT.objs k hk.1).trans (s.classified_obj c k))
    refine ⟨_, execRefclkClassify_near s hdev hcount (mem_refClasses_iff.mpr ⟨h1, h5⟩) ⟨hlo, hhi⟩, ?_, ?_, ?_, ?_, ?_, hL.relockAt⟩
    · exact (hobj (by decide)).trans (s.classWords_class c)
    · exact (hobj (by decide)).trans ((s.classWords_synT c).trans (mkWord_integer ..))
    · exact (hobj (by decide)).trans ((s.classWords_synL c).trans (mkWord_integer ..))
    · exact hL.time.trans (hT.time.trans (s.classified_time c))
    · rw [hL.others 0 (by decide)]; exact hT.relockAt
  · refine ⟨_, execRefclkClassify_other s hdev hcount (fun c hc hn => ?_), (State.setTime_obj ..).trans (s.obj_setObj_self _ _), rfl,
      fun k hk => (State.setTime_obj ..).trans (s.obj_setObj_ne _ (by simpa using hk))⟩
    obtain ⟨h1, h5⟩ := mem_refClasses_iff.mp hc
    exact hfar c h1 h5 hn
  · have hmem : ∀ i ∈ below 6, i < 6 := by decide
    have hrest := touchesOneSyn_freezeSyn.foldl_rest hmem (s.setTime (fun b => { b with refclk := false }))
    have hlisted {i : Nat} (hi : i < 6) := touchesOneSyn_freezeSyn.foldl_mem hmem (s.setTime (fun b => { b with refclk := false })) hi
      (mem_upFrom.mpr ⟨Nat.zero_le _, by omega⟩)
    rw [show exec .refclkLoss s = _ from execRefclkLoss_present s href]
    generalize (below 6).foldl _ _ = v at *
    have hlost := v.sourceLost_steered (s.tick + 1)
    refine ⟨_, rfl, hlost.refclk.trans (by rw [hrest]; rfl), fun i hi hword => ?_⟩
    obtain ⟨u, hu, hsyn, hlock⟩ := hlisted hi
    obtain ⟨hfrozen, hzero⟩ := State.freezeSyn_frozen (hu.trans_ne hword)
    exact ⟨(hlost.locked hi).trans (hlock.trans hzero), by rw [hlost.synth, State.synth_setTime, hsyn, hfrozen]⟩
  · have htouch := touchesOneSyn_returnSyn (s.tick + 1)
    have hmem : ∀ i ∈ [1, 2, 3, 4, 5], i < 6 := by decide
    obtain ⟨hsynT, hlockT⟩ := htouch.foldl_not_mem hmem s.thawed (j := 0) (by decide) (by decide)
    have hrest := htouch.foldl_rest hmem s.thawed
    have hlisted {i : Nat} (h1 : 1 ≤ i) (hi : i < 6) := htouch.foldl_mem hmem s.thawed hi (j := i) (by simp; omega)
    rw [show exec .refclkReturn s = _ from execRefclkReturn_absent s href hclass]
    dsimp only
    generalize List.foldl _ s.thawed _ = v at *
    obtain ⟨hpresent, hsyn, hlock⟩ := v.qualify_if_keeps (v.obj Obj.tbDiscSrc = 0 ∧ v.time.counting) 0 (ofTick (s.tick + 1))
    refine ⟨_, rfl, ?_, ?_, ?_, fun i h1 hi hword => ?_⟩
    · rw [hpresent, hrest]; rfl
    · exact (hlock 0 (by decide)).trans (hlockT.trans s.thawed_locked)
    · rw [hsyn, hsynT]
      exact congrArg Synth.frozen (State.synth_setSynth_self ..)
    · obtain ⟨u, hu, hsynu, hlocku⟩ := hlisted h1 hi
      obtain ⟨hrelock, hzero⟩ := State.returnSyn_relocks (t := s.tick + 1) hi (hu.trans_ne (s.thawed_word hi ▸ hword))
      exact ⟨by rw [hsyn, hsynu]; exact hrelock, (hlock i hi).trans (hlocku.trans hzero)⟩

end Sys2Proof.Machine

namespace Sys2Proof.Machine

/-- An object that a taken write names may be written. -/
theorem Writes.writable {s s1 : State} {c : WriteCmd} {k : Key} {v : Nat} {a : Accepted} (h : Writes s c k v s1 a) : Writable s1 k := by
  obtain ⟨-, -, -, hw⟩ := h
  exact hw

/-! PICOT_STEPS (R85). -/

theorem toInt_32_ne_zero {v : Nat} (hv : v < 2 ^ 32) (h0 : v ≠ 0) : toInt 32 v ≠ 0 := by
  unfold toInt
  rw [Nat.mod_eq_of_lt hv]
  split <;> omega

section
variable {s : State} {n v : Nat}

/-- Steps that PICOT_PENDING has room for join it. -/
theorem State.picotWrite_room (h0 : toInt 32 v ≠ 0) (hsum : (s.int (Obj.synOPicotPending n) + toInt 32 v).natAbs ≤ 1048576) :
    s.picotWrite n v = (s.setInt (Obj.synOPicotPending n) (s.int (Obj.synOPicotPending n) + toInt 32 v), okOut (Obj.synOPicotSteps n) (.num v)) := by
  have hclamp : clampI (-1048576) 1048576 (s.int (Obj.synOPicotPending n) + toInt 32 v) = s.int (Obj.synOPicotPending n) + toInt 32 v := by
    unfold clampI
    rw [if_neg (by omega), if_neg (by omega)]
  unfold State.picotWrite
  dsimp only
  rw [if_neg h0, hclamp, if_pos rfl]
  rfl

theorem picotSteps_row (hn : n < 4) :
    findObj (Obj.synOPicotSteps n) = some ⟨0x2204, 4, 0x08, 1, .i32, .wo, false, .clamp (-1048576) 1048576, 0, true⟩ :=
  (by decide : ∀ n < 4, findObj (Obj.synOPicotSteps n) = some ⟨0x2204, 4, 0x08, 1, .i32, .wo, false, .clamp (-1048576) 1048576, 0, true⟩) n hn

/-- PICOT_STEPS in its range passes its check unchanged. -/
theorem checkEntry_picotSteps (hn : n < 4) (hv : v < 2 ^ 32) (h0 : v ≠ 0) (hr : (toInt 32 v).natAbs ≤ 1048576) (hw : Writable s (Obj.synOPicotSteps n)) :
    s.checkEntry (Obj.synOPicotSteps n) (valBytes (Obj.synOPicotSteps n) (.num v)) = okOut (Obj.synOPicotSteps n) (.num v) := by
  refine State.checkEntry_inRange (picotSteps_row hn) hw (by decide) rfl (by decide) (by decide) (by decide) hv (fun h => h0 h.1) ?_
  show some (if toInt 32 v < -1048576 then _ else if 1048576 < toInt 32 v then _ else (v, 0)) = some (v, 0)
  rw [if_neg (by omega), if_neg (by omega)]

end

/-! SW_TRIGGER (R294). -/

section
variable (s : State) (t : Tick) (v : Nat)

theorem State.pulseLines_eq : s.pulseLines t v = { s with arrivals := (s.pulseLines t v).arrivals } := rfl

/-- The first pulse of a boundary is one more arrival. -/
theorem State.pulseLines_first (h : ∀ l x, (t, Arrival.soft l x) ∉ s.arrivals) :
    (s.pulseLines t v).arrivals = s.arrivals ++ [(t, .soft v (ofTick t))] := by
  have hne {l x d : Nat} (hmem : (d, Arrival.soft l x) ∈ s.arrivals) : d ≠ t := fun e => h l x (e ▸ hmem)
  unfold State.pulseLines
  dsimp only
  rw [List.filterMap_eq_nil_iff.mpr ?none, List.filter_eq_self.mpr ?kept, List.foldl_nil, Nat.zero_or]
  all_goals
    rintro ⟨d, x⟩ hmem
    cases x
  case none.soft => exact if_neg (hne hmem)
  case kept.soft => exact bne_iff_ne.mpr (hne hmem)
  all_goals rfl

/-- A second pulse of a boundary joins its lines to the first. -/
theorem State.pulseLines_joined {l x : Nat} (h : s.arrivals = [(t, .soft l x)]) :
    (s.pulseLines t v).arrivals = [(t, .soft (l ||| v) (ofTick t))] := by
  simp [State.pulseLines, h]

end

/-! EYE_REQUEST (R160). -/

theorem eyeRequest_row {n : Nat} (hn : n < 32) : findObj (Obj.laneEyeRequest n) = some ⟨0x3100, 32, 0x44, 1, .bool, .wo, false, .any, 0, true⟩ :=
  (by decide : ∀ n < 32, findObj (Obj.laneEyeRequest n) = some ⟨0x3100, 32, 0x44, 1, .bool, .wo, false, .any, 0, true⟩) n hn

/-- Where EYE_MODE allows scans, one is asked for. -/
theorem State.eyeRequest_asked (s : State) {n : Nat} (h : s.obj (Obj.laneEyeMode n) ≠ 0) :
    s.eyeRequest n 1 = (s.setLane n { s.lane n with eyeAsked := true }, okOut (Obj.laneEyeRequest n) (.num 1)) := if_neg h

/-- Settles O12: each write passes its check and acts at the boundary. -/
theorem requestsOfStepsPulsesAndScansAreKept : Obligations.RequestsOfStepsPulsesAndScansAreKept := by
  unfold Obligations.RequestsOfStepsPulsesAndScansAreKept
  refine ⟨fun s s1 c n a hn hw hv h0 hr hsum => ?_, fun s s1 c a hw hv h0 => ?_, fun s s1 c n a hn hw hv hmode => ?_⟩
  · obtain ⟨hk24, hst, hpair⟩ : Obj.synOPicotSteps n < 2 ^ 24 ∧ isStaged (Obj.synOPicotSteps n) = false ∧ pairPartner (Obj.synOPicotSteps n) = none :=
      (by decide : ∀ n < 4, Obj.synOPicotSteps n < 2 ^ 24 ∧ isStaged (Obj.synOPicotSteps n) = false ∧ pairPartner (Obj.synOPicotSteps n) = none) n hn
    have hrow : exec (.picotSteps c n) s = .next (s.writeNum c (Obj.synOPicotSteps n) c.value) := by
      show Host.Outcome.next (s.writeNum c (Obj.synOPicotSteps (n % 4)) c.value) = _
      rw [Nat.mod_eq_of_lt hn]
    have hact := act_synOPicotSteps s1 c.iss c.value (s1.tick + 1) hn
    rw [State.picotWrite_room (toInt_32_ne_zero hv h0) hsum] at hact
    refine ⟨_, hrow ▸ State.writeNum_acts hw hk24 (valBytes_num_length _ _) hst hpair (checkEntry_picotSteps hn hv h0 hr hw.writable) hact rfl rfl,
      s1.setInt_eq _ _, s1.int_setInt_32 (picotPending_width hn) (by omega) (by omega), fun k hk => s1.obj_setInt_ne _ (by simpa using hk)⟩
  · have hcheck : s1.checkEntry Obj.swSwTrigger (valBytes Obj.swSwTrigger (.num c.value)) = okOut Obj.swSwTrigger (.num c.value) := by
      have hrow : findObj Obj.swSwTrigger = some ⟨0x5E20, 1, 0x01, 1, .u32, .wo, false, .any, 0, true⟩ := findObj_row (by decide)
      exact State.checkEntry_inRange hrow hw.writable (by decide) rfl (by decide) (by decide) (by decide) hv (fun h => h0 h.1) rfl
    exact ⟨_, State.writeNum_acts hw (by decide) (valBytes_num_length _ _) (by decide) (by decide) hcheck (act_swSwTrigger ..) rfl rfl,
      s1.pulseLines_eq _ _, s1.pulseLines_first _ _, fun l x => s1.pulseLines_joined _ _⟩
  · obtain ⟨hk24, hst, hpair⟩ : Obj.laneEyeRequest n < 2 ^ 24 ∧ isStaged (Obj.laneEyeRequest n) = false ∧ pairPartner (Obj.laneEyeRequest n) = none :=
      (by decide : ∀ n < 32, Obj.laneEyeRequest n < 2 ^ 24 ∧ isStaged (Obj.laneEyeRequest n) = false ∧ pairPartner (Obj.laneEyeRequest n) = none) n hn
    have hrow : exec (.eyeRequest c n) s = .next (s.writeNum c (Obj.laneEyeRequest n) 1) := by
      show Host.Outcome.next (s.writeNum c (Obj.laneEyeRequest (n % 32)) c.value) = _
      rw [Nat.mod_eq_of_lt hn, hv]
    have hact := act_laneEyeRequest s1 c.iss 1 (s1.tick + 1) hn
    rw [s1.eyeRequest_asked hmode] at hact
    exact hrow ▸ State.writeNum_acts hw hk24 (valBytes_num_length _ _) hst hpair
      (State.checkEntry_bool (eyeRequest_row hn) hw.writable (by decide) rfl (by decide) (by simp)) hact rfl rfl

end Sys2Proof.Machine

namespace Sys2Proof.Machine

/-! Records of a tick to come wait at their queues (R420): nothing else of the state moves. -/

theorem State.foldl_deliver_later (l : List Nat) (recs : List Rec) (items : Nat) (first last : SubTime) {now : Tick} (s : State) (h : s.tick < now) :
    ∃ qs, l.foldl (fun s q => s.deliver q recs items first last now) s = { s with queues := qs } := by
  induction l generalizing s with
  | nil => exact ⟨s.queues, rfl⟩
  | cons q l ih =>
    have hq : s.deliver q recs items first last now = s.setQueue q
        { s.queue q with inbox := (s.queue q).inbox ++ [(7, { recs := recs, items := items, first := first, last := last })] } := if_pos h
    rw [List.foldl_cons, hq]
    exact ih (s.setQueue q _) h

/-- A STATE_EST of a tick to come is counted, and its record waits at the group's queues (R104). -/
theorem State.stateEst_later (s : State) (n reason sub state : Nat) (level lower : Bool) {t : Tick} (h : s.tick < t) :
    ∃ qs, s.stateEst n reason sub state level lower t = { s.bump (Obj.lcCntStateEstCount (n / 16) (n % 16)) 1 with queues := qs } :=
  State.foldl_deliver_later _ _ _ _ _ _ h

/-! The comparators of a channel, and what one finds after its settling ticks (R103, R104). -/

/-- The lower or the upper comparator of a channel. -/
def Channel.comp (c : Channel) (lower : Bool) : Comp := if lower = true then c.lo else c.up

/-- A channel with its lower or its upper comparator replaced. -/
def Channel.withComp (c : Channel) (lower : Bool) (x : Comp) : Channel := if lower then { c with lo := x } else { c with up := x }

@[simp] theorem Channel.comp_withComp (c : Channel) (lower : Bool) (x : Comp) : (c.withComp lower x).comp lower = x := by
  cases lower <;> rfl

/-- The level that a comparator finds at its input, none between its trip points; a code above 4,000 leaves it low (R98, R104). -/
def foundLevel (k h : Nat) (v : Int) : Option Bool :=
  if 4000 < k then some false else if (trips k h).1 < v then some true else if v < (trips k h).2 then some false else none

theorem foundLevel_between {k h : Nat} {v : Int} (hk : k ≤ 4000) (hlo : (trips k h).2 ≤ v) (hhi : v ≤ (trips k h).1) : foundLevel k h v = none := by
  rw [foundLevel, if_neg (Nat.not_lt.mpr hk), if_neg (Int.not_lt.mpr hhi), if_neg (Int.not_lt.mpr hlo)]

theorem foundLevel_outside {k h : Nat} {v : Int} (hout : 4000 < k ∨ (trips k h).1 < v ∨ v < (trips k h).2) :
    foundLevel k h v = some (decide (k ≤ 4000 ∧ (trips k h).1 < v)) := by
  unfold foundLevel
  split_ifs with hk hhi hlo
  · simp [Nat.not_le.mpr hk]
  · simp [Nat.not_lt.mp hk, hhi]
  · simp [hhi]
  · exact absurd hout (by simp [hk, hhi, hlo])

section
variable (s : State) (n : Nat) (lower : Bool)

/-- A comparator becomes known with a level: the window state follows, and a STATE_EST of reason 1 reports it (R104). -/
def State.settledTo (level : Bool) : State :=
  let c := (s.chan n).withComp lower (((s.chan n).comp lower).know (s.filterN n) level)
  let st := windowState (s.obj (Obj.lcWinMode n) = 1) c.up c.lo
  ((s.setChan n c).setObj (Obj.lcState n) st).stateEst n 1 0 st level lower (s.tick + 1)

/-- A comparator between its trip points is judged and waits, still unknown (R104). -/
def State.settledUnknown : State := s.setChan n ((s.chan n).withComp lower { (s.chan n).comp lower with settled := true })

/-- What the level found makes of the comparator; where none is found, one without hysteresis takes a free one. -/
def State.settlesOn : Option Bool → Ans
  | none => if (s.thr n lower).2 ≠ 0 then .next (s.settledUnknown n lower) else .next (s.fresh.2.settledTo n lower (s.fresh.1 % 2 = 1))
  | some level => .next (s.settledTo n lower level)

/-- COMPARATOR_SETTLE where the comparator waits for its judgement: the level is that of the tie, or of the ball where there is none (R104, R128). -/
theorem execComparatorSettle_due {v : Int} (hlc : s.hasLc n = true) (hen : s.flag (Obj.lcEnable n) = true)
    (hknown : ((s.chan n).comp lower).known = false) (hsettled : ((s.chan n).comp lower).settled = false)
    (hat : ((s.chan n).comp lower).settleAt ≠ 0) (hdue : ((s.chan n).comp lower).settleAt ≤ s.tick + 1)
    (hwin : lower = true → s.obj (Obj.lcWinMode n) = 1) :
    execComparatorSettle n lower v s
      = s.settlesOn n lower (foundLevel (s.thr n lower).1 (s.thr n lower).2 ((s.tieLevel n (s.tick + 1)).getD v)) := by
  refine if_neg ?_
  rintro (h | h | h | h | h | h | h)
  · simp [hlc] at h
  · simp [hen] at h
  · exact absurd (h.symm.trans hknown) (by decide)
  · exact absurd (h.symm.trans hsettled) (by decide)
  · exact hat h
  · exact absurd hdue (Nat.not_le.mpr h)
  · obtain ⟨hlower, hmode⟩ : lower = true ∧ ¬ s.obj (Obj.lcWinMode n) = 1 := by simpa using h
    exact hmode (hwin hlower)

end

theorem lcState_ne_lcCntStateEstCount (n g j : Nat) (hj : j < 16) : Obj.lcState n ≠ Obj.lcCntStateEstCount g j := by
  simp only [Obj.lcState, Obj.lcCntStateEstCount, Key]
  omega

/-- A comparator of a channel has become known with a level; no other channel has moved. -/
structure MadeKnown (s t : State) (n : Nat) (lower level : Bool) : Prop where
  tick : t.tick = s.tick
  others : ∀ m, m ≠ n → t.chan m = s.chan m
  comp : (t.chan n).comp lower = ((s.chan n).comp lower).know (s.filterN n) level
  state : t.obj (Obj.lcState n) = windowState (decide (s.obj (Obj.lcWinMode n) = 1)) (t.chan n).up (t.chan n).lo
  counted : Counted s t (Obj.lcCntStateEstCount (n / 16) (n % 16)) 1

theorem State.settledTo_madeKnown (s : State) (n : Nat) (lower level : Bool) : MadeKnown s (s.settledTo n lower level) n lower level := by
  unfold State.settledTo
  extract_lets c st
  have hkey := lcState_ne_lcCntStateEstCount n (n / 16) (n % 16) (Nat.mod_lt n (by decide))
  obtain ⟨qs, h⟩ := ((s.setChan n c).setObj (Obj.lcState n) st).stateEst_later n 1 0 st level lower (t := s.tick + 1) (Nat.lt_succ_self _)
  rw [h]
  have hself : (s.setChan n c).chan n = c := State.chan_setChan_self ..
  refine ⟨rfl, fun m hm => (State.chan_setChan ..).trans (if_neg hm), ?_, ?_, ?_⟩
  · exact (congrArg (Channel.comp · lower) hself).trans (Channel.comp_withComp ..)
  · refine (State.obj_setObj_ne _ _ hkey).trans ((State.obj_setObj_self ..).trans ?_)
    exact congrArg (fun c => windowState (decide (s.obj (Obj.lcWinMode n) = 1)) c.up c.lo) hself.symm
  · refine (State.obj_setObj_self ..).trans ?_
    rw [State.obj_setObj_ne _ _ hkey.symm, State.setChan_obj]

namespace MadeKnown
variable {s t : State} {n : Nat} {lower level : Bool}

theorem known (h : MadeKnown s t n lower level) : ((t.chan n).comp lower).known = true := congrArg Comp.known h.comp

theorem settled (h : MadeKnown s t n lower level) : ((t.chan n).comp lower).settled = true := congrArg Comp.settled h.comp

theorem f (h : MadeKnown s t n lower level) : ((t.chan n).comp lower).f = level := congrArg Comp.f h.comp

end MadeKnown

theorem State.settledUnknown_chan (s : State) (n : Nat) (lower : Bool) :
    ((s.settledUnknown n lower).chan n).comp lower = { (s.chan n).comp lower with settled := true } := by
  simp [State.settledUnknown]

/-- Settles O25: a level outside the trip points makes the comparator known with it; between them it waits, or, without hysteresis, takes a level of
its own. -/
theorem comparatorsSettleOnTheLevelTheyFind : Obligations.ComparatorsSettleOnTheLevelTheyFind := by
  unfold Obligations.ComparatorsSettleOnTheLevelTheyFind
  intro s n lower v hlc hen x k tp u hknown hsettled hat hdue hwin
  have hexec : exec (.comparatorSettle n lower v) s = s.settlesOn n lower (foundLevel k (s.thr n lower).2 u) :=
    execComparatorSettle_due s n lower hlc hen hknown hsettled hat hdue hwin
  by_cases hout : 4000 < k ∨ tp.1 < u ∨ u < tp.2
  · rw [foundLevel_outside hout] at hexec
    have h := s.settledTo_madeKnown n lower (decide (k ≤ 4000 ∧ tp.1 < u))
    have hnot (hk : k ≤ 4000) (hlo : tp.2 ≤ u) (hhi : u ≤ tp.1) : False := by omega
    exact ⟨_, hexec, h.tick, h.others, h.settled, fun hk hlo hhi => (hnot hk hlo hhi).elim, fun hk hlo hhi => (hnot hk hlo hhi).elim,
      fun _ => ⟨h.known, h.f, h.state, h.counted⟩⟩
  · have hin : k ≤ 4000 ∧ tp.2 ≤ u ∧ u ≤ tp.1 := by omega
    obtain ⟨hk, hlo, hhi⟩ := hin
    rw [foundLevel_between hk hlo hhi] at hexec
    by_cases hhyst : (s.thr n lower).2 = 0
    · have h := s.fresh.2.settledTo_madeKnown n lower (s.fresh.1 % 2 = 1)
      exact ⟨_, hexec.trans (if_neg (not_not.mpr hhyst)), h.tick, h.others, h.settled, fun _ _ _ h0 => absurd hhyst h0,
        fun _ _ _ _ => ⟨h.known, h.state⟩, fun ho => absurd ho hout⟩
    · have h := s.settledUnknown_chan n lower
      exact ⟨_, hexec.trans (if_pos hhyst), rfl, fun m hm => (State.chan_setChan ..).trans (if_neg hm), congrArg Comp.settled h,
        fun _ _ _ _ => ⟨(congrArg Comp.known h).trans hknown, rfl⟩, fun _ _ _ h0 => absurd h0 hhyst, fun ho => absurd ho hout⟩

end Sys2Proof.Machine

namespace Sys2Proof.Machine

/-! A link that waits for lock (R151, R152). -/

theorem State.lt_of_mem_linkLanes {s : State} {k l : Nat} (h : l ∈ s.linkLanes k) : l < 256 := by
  obtain ⟨i, -, rfl⟩ := List.mem_map.mp ((List.takeWhile_sublist _).mem h)
  have hw : 8 * i + 7 + 1 - 8 * i = 8 := by omega
  simpa [bits, hw] using Nat.mod_lt (s.obj (Obj.linkLaneList k) >>> (8 * i)) (by decide : 0 < 256)

theorem State.linkLanes_congr {s t : State} {k : Nat} (h : t.obj (Obj.linkLaneList k) = s.obj (Obj.linkLaneList k)) : t.linkLanes k = s.linkLanes k := by
  rw [State.linkLanes, h]
  rfl

/-- The rates of a link's lanes are read from MODULATION, BAUD_NUM and BAUD_DEN alone. -/
theorem State.ratesAgree_congr {s t : State} {k : Nat} (hl : t.linkLanes k = s.linkLanes k)
    (h : ∀ a < 256, ∀ x ∈ [Obj.laneModulation a, Obj.laneBaudNum a, Obj.laneBaudDen a], t.obj x = s.obj x) : t.ratesAgree k = s.ratesAgree k := by
  unfold State.ratesAgree
  rw [hl]
  split
  · rfl
  · next a l hal =>
    have hrate {b : Nat} (hb : b ∈ a :: l) := h b (State.lt_of_mem_linkLanes (hal ▸ hb))
    simp only [List.mem_cons, forall_eq_or_imp, List.not_mem_nil, false_imp_iff, implies_true, and_true] at hrate
    obtain ⟨⟨ha1, ha2, ha3⟩, hl⟩ := hrate
    rw [Bool.eq_iff_iff, List.all_eq_true, List.all_eq_true]
    refine forall₂_congr fun b hb => ?_
    obtain ⟨hb1, hb2, hb3⟩ := hl b hb
    rw [ha1, ha2, ha3, hb1, hb2, hb3]

/-- The LINK_STATE to which a link goes from WAIT_LOCK (R151). -/
def State.linkGoal (s : State) (k : Nat) : Nat :=
  if s.linkLanes k = [] then 1 else if s.ratesAgree k = false then 4
  else if (s.linkLanes k).all s.locked = false then 1 else if s.obj (Obj.linkDeskewMode k) = 1 then 3 else 2

/-- What a link's lanes are, whether their rates agree and where WAIT_LOCK leads do not depend on the link's own state. -/
theorem State.linkGoal_congr {s t : State} {k : Nat} (h : SameObjs s t [Obj.linkLinkState k, Obj.linkFailReason k]) :
    t.linkLanes k = s.linkLanes k ∧ t.ratesAgree k = s.ratesAgree k ∧ t.linkGoal k = s.linkGoal k := by
  have hlane {a i : Nat} (ha : a < 256) (hi : i < 256) : t.obj ((0x3100 + a) * 256 + i) = s.obj ((0x3100 + a) * 256 + i) := by
    refine h _ ?_
    simp only [Obj.linkLinkState, Obj.linkFailReason, List.mem_cons, List.not_mem_nil, or_false, Key]
    omega
  have hl : t.linkLanes k = s.linkLanes k := State.linkLanes_congr (h _ (by simp [Obj.linkLaneList, Obj.linkLinkState, Obj.linkFailReason]))
  have hr : t.ratesAgree k = s.ratesAgree k := State.ratesAgree_congr hl (by
    simp only [List.mem_cons, forall_eq_or_imp, List.not_mem_nil, false_imp_iff, implies_true, and_true]
    exact fun a ha => ⟨hlane ha (by decide), hlane ha (by decide), hlane ha (by decide)⟩)
  have hlock : (s.linkLanes k).all t.locked = (s.linkLanes k).all s.locked := by
    rw [Bool.eq_iff_iff, List.all_eq_true, List.all_eq_true]
    exact forall₂_congr fun a ha => by rw [State.locked, State.locked, Obj.laneCdrState, hlane (State.lt_of_mem_linkLanes ha) (by decide)]
  have hdeskew : t.obj (Obj.linkDeskewMode k) = s.obj (Obj.linkDeskewMode k) :=
    h _ (by simp [Obj.linkDeskewMode, Obj.linkLinkState, Obj.linkFailReason])
  exact ⟨hl, hr, by rw [State.linkGoal, hl, hr, hlock, hdeskew]; rfl⟩

section
variable (s : State) (k : Nat)

theorem linkLinkState_ne_linkFailReason : Obj.linkLinkState k ≠ Obj.linkFailReason k := by
  simp only [Obj.linkLinkState, Obj.linkFailReason, Key]
  omega

/-- A link with a new LINK_STATE and FAIL_REASON. -/
abbrev State.setLinkState (state reason : Nat) : State := s.setObjs [(Obj.linkLinkState k, state), (Obj.linkFailReason k, reason)]

@[simp] theorem State.setLinkState_state (state reason : Nat) : (s.setLinkState k state reason).obj (Obj.linkLinkState k) = state :=
  (State.obj_setObj_ne _ _ (linkLinkState_ne_linkFailReason k)).trans (State.obj_setObj_self ..)

@[simp] theorem State.setLinkState_reason (state reason : Nat) : (s.setLinkState k state reason).obj (Obj.linkFailReason k) = reason :=
  State.obj_setObj_self ..

theorem State.setLinkState_objs (state reason : Nat) : SameObjs s (s.setLinkState k state reason) [Obj.linkLinkState k, Obj.linkFailReason k] := by
  intro j hj
  simp only [List.mem_cons, List.not_mem_nil, or_false, not_or] at hj
  exact (State.obj_setObj_ne _ _ hj.2).trans (State.obj_setObj_ne _ _ hj.1)

@[simp] theorem State.setLinkState_lnk (state reason : Nat) : (s.setLinkState k state reason).lnk k = s.lnk k := rfl

theorem State.linkAlign_eq (delays : List Nat) (t : Tick) : ∃ u : State, s.linkAlign k delays t = (u.setLnk k { s.lnk k with
    gap := none, delays := delays, since := t, misaligned := 0, buf := (s.lnk k).buf.filter (fun b => t ≤ b.1 + delays.getD b.2.1 0) }).setLinkState k 3 0 :=
  ⟨_, rfl⟩

/-- A link in WAIT_LOCK goes where its lanes lead it; RATE is the reason where they differ in rate, and empty buffers stay empty. -/
theorem State.linkTry_waiting (t : Tick) (hstate : s.obj (Obj.linkLinkState k) = 1) :
    (s.linkTry k t).obj (Obj.linkLinkState k) = s.linkGoal k
      ∧ (s.obj (Obj.linkFailReason k) = 0 →
        (s.linkTry k t).obj (Obj.linkFailReason k) = (if s.linkLanes k ≠ [] ∧ s.ratesAgree k = false then 1 else 0))
      ∧ ((s.lnk k).misaligned = 0 → ((s.linkTry k t).lnk k).misaligned = 0)
      ∧ ((s.lnk k).buf = [] → ((s.linkTry k t).lnk k).buf = []) := by
  unfold State.linkTry State.linkGoal
  by_cases hnone : s.linkLanes k = []
  · simp [hstate, hnone]
  cases hrates : s.ratesAgree k
  · simp [hstate, hnone]
  cases hlocked : (s.linkLanes k).all s.locked
  · simp [hstate, hnone, hlocked]
  by_cases hmanual : s.obj (Obj.linkDeskewMode k) = 1
  · obtain ⟨u, hu⟩ := s.linkAlign_eq k ((below 8).map (fun i => s.obj (Obj.linkDeskewSet k i))) t
    simp +contextual [hstate, hnone, hlocked, hmanual, hu]
  · have hclear : ((s.linkLanes k).foldl (fun s l => s.setLane l { s.lane l with finder := {} }) s).lnk k = s.lnk k :=
      List.foldlRecOn (motive := fun v : State => v.lnk k = s.lnk k) _ _ rfl fun v hv l _ => hv
    simp [hstate, hnone, hlocked, hmanual, hclear]

/-- A link in FAIL that is tried again. -/
theorem execLinkFailRetry_due (hrun : s.running = true) (hstate : s.obj (Obj.linkLinkState k) = 4) (hreason : s.obj (Obj.linkFailReason k) ≠ 1)
    (hsince : (s.lnk k).since + 1000000 ≤ s.tick + 1) :
    exec (.linkFailRetry k) s = .next (s.linkWait k false (s.tick + 1)) := by
  change execLinkFailRetry k s = _
  simp [execLinkFailRetry, hrun, hstate, hreason, hsince]

/-- A link in FAIL has no stream to break: it waits for lock with nothing in hand. -/
theorem State.linkWait_failed (t : Tick) (hstate : s.obj (Obj.linkLinkState k) = 4) : s.linkWait k false t
    = ((s.setLinkState k 1 0).setLnk k { s.lnk k with
        delays := [], marks := [], zeroMarks := 0, misaligned := 0, buf := [], seen := [], sets := [] }).linkTry k t := by
  simp [State.linkWait, State.linkLeave, hstate]

theorem execNoMarkerTimeout_due (hrun : s.running = true) (hstate : s.obj (Obj.linkLinkState k) = 2) (hzero : (s.lnk k).lastZero + 1000000000 ≤ s.tick) :
    exec (.noMarkerTimeout k) s = .next ((s.setLnk k { s.lnk k with since := s.tick + 1 }).setLinkState k 4 3) := by
  change execNoMarkerTimeout k s = _
  simp [execNoMarkerTimeout, hrun, hstate, hzero]

end

/-- Settles O28: a link tried again is one in WAIT_LOCK with nothing in hand (`linkTry_waiting`); a search that gives up only fails. -/
theorem linksTryAgainAndGiveUp : Obligations.LinksTryAgainAndGiveUp := by
  unfold Obligations.LinksTryAgainAndGiveUp
  refine ⟨fun s k hrun hstate hreason hsince => ?_, fun s k hrun hstate hzero => ?_⟩
  · have htick := (State.linkWait_kept (Kept.refl s) k false (s.tick + 1)).tick
    rw [execLinkFailRetry_due s k hrun hstate hreason hsince]
    rw [s.linkWait_failed k _ hstate] at htick ⊢
    obtain ⟨hlanes, hrates, hgoal⟩ := State.linkGoal_congr (s.setLinkState_objs k 1 0)
    obtain ⟨hst, hre, hmis, hbuf⟩ := State.linkTry_waiting ((s.setLinkState k 1 0).setLnk k { s.lnk k with
      delays := [], marks := [], zeroMarks := 0, misaligned := 0, buf := [], seen := [], sets := [] }) k (s.tick + 1)
      (s.setLinkState_state k 1 0)
    exact ⟨_, rfl, htick, hmis (by simp), hbuf (by simp), hst.trans hgoal, (hre (s.setLinkState_reason k 1 0)).trans (by rw [← hlanes, ← hrates]; rfl)⟩
  · exact ⟨_, execNoMarkerTimeout_due s k hrun hstate hzero, rfl, State.setLinkState_state .., State.setLinkState_reason .., by simp,
      (s.setLnk k _).setLinkState_objs k 4 3⟩

end Sys2Proof.Machine

namespace Sys2Proof.Machine

/-! The end of an eye scan (R161 to R164). -/

theorem lastN_append {α : Type} {n : Nat} (l : List α) {e : List α} (h : e.length = n) : lastN n (l ++ e) = e := by
  subst h
  simp [lastN]

theorem lastN_lastN {α : Type} {m n : Nat} (h : m ≤ n) (l : List α) : lastN m (lastN n l) = lastN m l := by
  simp only [lastN, List.drop_drop, List.length_drop]
  congr 1
  omega

theorem eyeEntry_length (t lane mode result tj dwell modulation : Nat) (sizes : List (Nat × Nat)) (centre duration : Nat) :
    (eyeEntry t lane mode result tj dwell modulation sizes centre duration).length = 32 := by
  simp [eyeEntry]

/-- An eye whose centre is closed has no size (R162). -/
theorem eyeSize_closed {mode limit : Nat} {l : List Nat} (h : limit < l.getD (phasePoint mode 32) 0) : eyeSize mode limit l = (0, 0) :=
  if_neg (by simpa using h)

section
variable (s : State) (n mode dwell result start : Nat) (e : EyeData)

/-- The errors of the points of each eye that a scan has measured: those of a scan that ended normally (R161). -/
def State.eyesSeen : List (List Nat) :=
  if result = 0 then (below (1 + 2 * s.obj (Obj.laneModulation n))).map (fun i => (e.errors.getD i []).map (min (2 ^ dwell))) else []

theorem State.eyesSeen_aborted {result : Nat} (h : result ≠ 0) : s.eyesSeen n dwell result e = [] := if_neg h

/-- The errors at the centres of some eyes. -/
def centreErrors (mode : Nat) (eyes : List (List Nat)) : Nat := (eyes.map (fun l => l.getD (phasePoint mode 32) 0)).sum

/-- A scan of a lane that began at a time has ended with a result: it is counted, stamped and logged, and no other lane has moved. -/
structure EyeEnded (s t : State) (n mode dwell result start : Nat) (eyes : List (List Nat)) : Prop where
  rest : t = { s with dict := t.dict, doms := t.doms, lanes := t.lanes, free := t.free, eye := none }
  counted : Counted s t (Obj.laneCntEyeScans n) 1
  objs : SameObjs s t [Obj.laneCntEyeScans n]
  lane : t.lane n = { s.lane n with lastEye := s.tick }
  others : ∀ m, m ≠ n → t.lane m = s.lane m
  map : t.dom (Obj.laneEyeMap n) = (if result = 0 ∧ mode = 2 then
    eyes.flatMap (fun l => (below 8128).flatMap (fun i => le 1 (min 255 (l.getD i 0)))) else s.dom (Obj.laneEyeMap n))
  log : centreErrors mode eyes < 2 ^ 32 → lastN 32 (t.dom (Obj.laneEyeLog n)) = eyeEntry s.tick n mode result (ofInt 8 (s.int Obj.teleTj / 8)) dwell
    (s.obj (Obj.laneModulation n)) (eyes.map (eyeSize mode (s.obj (Obj.laneEyeErrLimit n)))) (centreErrors mode eyes) ((s.tick - start) / 1000)

theorem laneEyeLog_ne_laneEyeMap : Obj.laneEyeLog n ≠ Obj.laneEyeMap n := by
  simp only [Obj.laneEyeLog, Obj.laneEyeMap, Key]
  omega

/-- The bytes that MODE MAP stores of some eyes (R164). -/
def eyeMap (eyes : List (List Nat)) : Bytes := eyes.flatMap (fun l => (below 8128).flatMap (fun i => le 1 (min 255 (l.getD i 0))))

/-- A scan is counted, EYE_LOG has come to `log`, and in MODE MAP a scan that ended normally leaves `map`. -/
def State.storeScan (log map : Bytes) : State :=
  let v := (State.setDom { s with free := s.free + 1 } (Obj.laneEyeLog n) log).bump (Obj.laneCntEyeScans n) 1
  if result = 0 ∧ mode = 2 then v.setDom (Obj.laneEyeMap n) map else v

section
variable (log map : Bytes)

theorem State.storeScan_rest : s.storeScan n mode result log map
    = { s with dict := (s.bump (Obj.laneCntEyeScans n) 1).dict, doms := (s.storeScan n mode result log map).doms, free := s.free + 1 } := by
  unfold State.storeScan
  split <;> rfl

theorem State.storeScan_map : (s.storeScan n mode result log map).dom (Obj.laneEyeMap n)
    = if result = 0 ∧ mode = 2 then map else s.dom (Obj.laneEyeMap n) := by
  unfold State.storeScan
  split
  · exact (State.dom_setDom ..).trans (if_pos rfl)
  · exact (State.dom_setDom ..).trans (if_neg (laneEyeLog_ne_laneEyeMap n).symm)

theorem State.storeScan_log : (s.storeScan n mode result log map).dom (Obj.laneEyeLog n) = log := by
  unfold State.storeScan
  split
  · exact (State.dom_setDom ..).trans ((if_neg (laneEyeLog_ne_laneEyeMap n)).trans ((State.dom_setDom ..).trans (if_pos rfl)))
  · exact (State.dom_setDom ..).trans (if_pos rfl)

end

/-- The EYE_LOG entry of a scan of some eyes; a number of errors at the centre that does not fit its field is free. -/
def State.scanEntry (eyes : List (List Nat)) : Bytes :=
  let centre := centreErrors mode eyes
  eyeEntry s.tick n mode result (ofInt 8 (s.int Obj.teleTj / 8)) dwell (s.obj (Obj.laneModulation n))
    (eyes.map (eyeSize mode (s.obj (Obj.laneEyeErrLimit n)))) (if centre < 2 ^ 32 then centre else Config.freeNat s.free % 2 ^ 32) ((s.tick - start) / 1000)

theorem State.scanEntry_eq {eyes : List (List Nat)} (hc : centreErrors mode eyes < 2 ^ 32) : s.scanEntry n mode dwell result start eyes
    = eyeEntry s.tick n mode result (ofInt 8 (s.int Obj.teleTj / 8)) dwell (s.obj (Obj.laneModulation n))
      (eyes.map (eyeSize mode (s.obj (Obj.laneEyeErrLimit n)))) (centreErrors mode eyes) ((s.tick - start) / 1000) := by
  simp only [State.scanEntry, if_pos hc]

/-- The last step of a scan's end: the monitor is free, and the lane's interval begins again (R160). -/
theorem State.eyeEnded_of_stored {v : State} {eyes : List (List Nat)}
    (hv : v = { s with dict := (s.bump (Obj.laneCntEyeScans n) 1).dict, doms := v.doms, free := s.free + 1 })
    (hmap : v.dom (Obj.laneEyeMap n) = if result = 0 ∧ mode = 2 then eyeMap eyes else s.dom (Obj.laneEyeMap n))
    (hlog : v.dom (Obj.laneEyeLog n) = lastN 2048 (s.dom (Obj.laneEyeLog n) ++ s.scanEntry n mode dwell result start eyes)) :
    EyeEnded s { v.setLane n { v.lane n with lastEye := v.tick } with eye := none } n mode dwell result start eyes := by
  have hobj (k : Key) : v.obj k = (s.bump (Obj.laneCntEyeScans n) 1).obj k := by rw [hv]; rfl
  have hlane (m : Nat) : v.lane m = s.lane m := by rw [hv]; rfl
  refine ⟨?_, ?_, fun k hk => ?_, ?_, fun m hm => ?_, hmap, fun hc => ?_⟩
  · rw [hv]; rfl
  · exact (hobj _).trans ((State.obj_bump ..).trans (if_pos rfl))
  · exact (hobj _).trans ((State.obj_bump ..).trans (if_neg (by simpa using hk)))
  · refine (State.lane_setLane_self ..).trans ?_
    rw [hlane, hv]
  · exact (State.lane_setLane ..).trans ((if_neg hm).trans (hlane m))
  · rw [← s.scanEntry_eq n mode dwell result start hc]
    exact (congrArg (lastN 32) hlog).trans ((lastN_lastN (by decide) _).trans (lastN_append _ (eyeEntry_length ..)))

theorem State.eyeEnd_ended : EyeEnded s (s.eyeEnd n mode dwell result start e) n mode dwell result start (s.eyesSeen n dwell result e) :=
  s.eyeEnded_of_stored n mode dwell result start (s.storeScan_rest ..) (s.storeScan_map ..) (s.storeScan_log ..)

end

section
variable {s : State}

/-- The turn of a lane (R160, R163): its scan runs where it is locked, and ends at once where it is not. -/
theorem execEyeScanStart_due {n : Nat} (hrun : s.running = true) (heye : s.eye = none) (hdue : (below 32).find? s.eyeDue = some n) :
    exec (.eyeScanStart n) s = .next (if s.locked n = true then { s.setLane n { s.lane n with eyeAsked := false } with
        eye := some { lane := n, mode := s.obj (Obj.laneEyeMode n), dwell := s.obj (Obj.laneEyeDwellLog2 n), abort := 0, start := s.tick } }
      else (s.setLane n { s.lane n with eyeAsked := false }).eyeEnd n (s.obj (Obj.laneEyeMode n)) (s.obj (Obj.laneEyeDwellLog2 n)) 1 s.tick {}) := by
  change execEyeScanStart n s = _
  exact if_neg (by simp [hrun, heye, hdue])

/-- A scan that is not aborted ends once its bits can have come (R161). -/
theorem execEyeScanEnd_running {e : EyeRun} (m : EyeData) (heye : s.eye = some e) :
    exec (.eyeScanEnd m) s = .next (if e.abort = 0 ∧ (s.tick - e.start) * (s.bitPeriod e.lane).2 * 1001 < eyeBits e.mode e.dwell * (s.bitPeriod e.lane).1 * 1000
      then s else s.eyeEnd e.lane e.mode e.dwell e.abort e.start m) := by
  change execEyeScanEnd m s = _
  rw [execEyeScanEnd, heye]

end

/-- Settles O29: the turn of a lane begins its scan or ends it at once, and every end is that of `eyeEnd_ended`. -/
theorem eyeScansTakeTheLanesInTurn : Obligations.EyeScansTakeTheLanesInTurn := by
  unfold Obligations.EyeScansTakeTheLanesInTurn
  refine ⟨fun s n hrun heye hturn => ?_, fun s e m heye => ?_, fun mode limit l h => eyeSize_closed h⟩
  · have hexec := execEyeScanStart_due hrun heye hturn
    split
    · next hlock => exact hexec.trans (congrArg _ (if_pos hlock))
    · next hlock =>
      have h := (s.setLane n { s.lane n with eyeAsked := false }).eyeEnd_ended n (s.obj (Obj.laneEyeMode n)) (s.obj (Obj.laneEyeDwellLog2 n)) 1 s.tick {}
      rw [State.eyesSeen_aborted _ _ _ _ Nat.one_ne_zero] at h
      refine ⟨_, hexec.trans (congrArg _ (if_neg hlock)), ?_, h.counted, h.objs, ?_, ?_⟩
      · exact h.rest.trans (by rw [heye]; rfl)
      · exact h.lane.trans (by rw [State.lane_setLane_self]; rfl)
      · refine (h.log (Nat.two_pow_pos 32)).trans ?_
        show eyeEntry _ _ _ _ _ _ _ [] 0 ((s.tick - s.tick) / 1000) = _
        rw [Nat.sub_self, Nat.zero_div]
        rfl
  · have hexec := execEyeScanEnd_running m heye
    dsimp only
    refine ⟨fun hdue => hexec.trans (congrArg _ (if_pos (by omega))), fun hdue => ?_⟩
    have h := s.eyeEnd_ended e.lane e.mode e.dwell e.abort e.start m
    exact ⟨_, hexec.trans (congrArg _ (if_neg (by omega))), h.rest, h.counted, h.objs, h.lane, h.others, h.map, h.log⟩

end Sys2Proof.Machine

namespace Sys2Proof.Machine

/-! What a loss of lock stirs up behind the lane leaves the objects of the lanes as they are: queues, decoders, links and counters stand after them. -/

/-- The objects up to those of the lanes (the family 0x3100) read in a state what they read in another. -/
structure SameLaneObjs (s t : State) : Prop where
  objs : ∀ k, k < 0x312000 → t.obj k = s.obj k

namespace SameLaneObjs
variable {s t u : State}

theorem refl (s : State) : SameLaneObjs s s := ⟨fun _ _ => rfl⟩

theorem trans (h : SameLaneObjs s t) (g : SameLaneObjs t u) : SameLaneObjs s u := ⟨fun k hk => (g.objs k hk).trans (h.objs k hk)⟩

/-- A step that leaves the objects alone. -/
theorem same (h : SameLaneObjs s t) (e : u.dict = t.dict) : SameLaneObjs s u := h.trans ⟨fun k _ => by rw [State.obj, State.obj, e]⟩

theorem setObj (h : SameLaneObjs s t) {k : Nat} (hk : 0x312000 ≤ k) (v : Nat) : SameLaneObjs s (t.setObj k v) :=
  h.trans ⟨fun _ hj => State.obj_setObj_ne t v (Nat.ne_of_lt (Nat.lt_of_lt_of_le hj hk))⟩

/-- An object of a family behind the lanes. -/
theorem setIx (h : SameLaneObjs s t) {b n i : Nat} (v : Nat) (hb : 0x3120 ≤ b := by decide) : SameLaneObjs s (t.setObj ((b + n) * 256 + i) v) :=
  h.setObj (by omega) v

theorem bumpIx (h : SameLaneObjs s t) {b n i : Nat} (v : Nat) (hb : 0x3120 ≤ b := by decide) : SameLaneObjs s (t.bump ((b + n) * 256 + i) v) :=
  h.setIx _ hb

theorem bumpCoder (h : SameLaneObjs s t) {i : Nat} (v : Nat) : SameLaneObjs s (t.bump (0x6440 * 256 + i) v) := h.bumpIx (b := 0x6440) (n := 0) v

theorem ite {a b : State} {c : Prop} [Decidable c] (ha : SameLaneObjs s a) (hb : SameLaneObjs s b) : SameLaneObjs s (if c then a else b) := by
  split
  · exact ha
  · exact hb

theorem foldl {α : Type} {f : State → α → State} {l : List α} (hf : ∀ v, SameLaneObjs s v → ∀ a ∈ l, SameLaneObjs s (f v a)) (h : SameLaneObjs s t) :
    SameLaneObjs s (l.foldl f t) :=
  List.foldlRecOn (motive := SameLaneObjs s) l f h fun v hv a ha => hf v hv a ha

variable {q : Nat}

theorem setQueue (h : SameLaneObjs s t) (x : Queue) : SameLaneObjs s (t.setQueue q x) := h.same rfl

theorem setLnk (h : SameLaneObjs s t) (k : Nat) (x : Link) : SameLaneObjs s (t.setLnk k x) := h.same rfl

theorem setDec (h : SameLaneObjs s t) (n : Nat) (d : Decoder) : SameLaneObjs s (t.setDec n d) := h.same rfl

theorem arrive (h : SameLaneObjs s t) (due : Tick) (a : Arrival) : SameLaneObjs s (t.arrive due a) := h.same rfl

theorem setLane (h : SameLaneObjs s t) (n : Nat) (x : Lane) : SameLaneObjs s (t.setLane n x) := h.same rfl

theorem putGroup (h : SameLaneObjs s t) {g : Group} (hg : ∀ e ∈ g.tally, 0x312000 ≤ e.1) (now : Tick) : SameLaneObjs s (t.putGroup q g now) :=
  foldl (fun _ hv e he => hv.setObj (hg e he) _) (((h.setQueue _).bumpIx _).setIx _)

theorem closeLoss (h : SameLaneObjs s t) (now : Tick) : SameLaneObjs s (t.closeLoss q now) := by
  unfold State.closeLoss
  dsimp only
  split
  · exact h
  · have hs (x : Queue) (n : Nat) := ((h.setQueue (q := q) x).bumpIx (b := 0x4000) (n := q) (i := 0x29) 1).bumpIx (b := 0x4000) (n := q) (i := 0x28) n
    exact ite ((hs _ _).bumpIx _) ((hs _ _).putGroup (by simp) _)

theorem stage (h : SameLaneObjs s t) {g : Group} (hg : ∀ e ∈ g.tally, 0x312000 ≤ e.1) (now : Tick) : SameLaneObjs s (t.stage q g now) :=
  have hs := h.closeLoss now
  ite (ite (hs.bumpIx _) (hs.putGroup hg _)) (ite (h.setQueue _) (hs.putGroup hg _))

theorem endBlock (h : SameLaneObjs s t) (logical : Nat) (fails : List (Nat × Nat)) (now : Tick) : SameLaneObjs s (t.endBlock q logical fails now) := by
  unfold State.endBlock
  have store (v : State) (hv : SameLaneObjs s v) (x : Queue) (g : Group) (hg : g.tally = []) : SameLaneObjs s ((v.setQueue q x).stage q g now) :=
    (hv.setQueue x).stage (by simp [hg]) now
  dsimp only
  split
  · exact h
  · refine ite (store _ h _ _ rfl) ?_
    split
    · exact store _ (h.bumpCoder 1) _ _ rfl
    · refine ite (store _ ((h.bumpCoder _).bumpCoder 1) _ _ rfl) (((h.bumpCoder _).setQueue _).stage ?_ now)
      simp only [List.mem_cons, List.not_mem_nil, or_false]
      rintro e (rfl | rfl | rfl) <;> exact Nat.le_add_right_of_le (by decide)

theorem finishAll (h : SameLaneObjs s t) (fails : List (Nat × Nat)) (now : Tick) : SameLaneObjs s (t.finishAll q fails now) := by
  have hblock (v : State) (hv : SameLaneObjs s v) (l : Nat) : SameLaneObjs s (v.finishBlock q l fails now) :=
    have hs := hv.endBlock l fails now
    ite (foldl (fun _ hw l _ => hw.endBlock l fails now) hs) hs
  have hedges : SameLaneObjs s (t.finishEdges q now) := by
    unfold State.finishEdges
    dsimp only
    split
    · exact h
    · exact (h.setQueue _).stage (by simp) now
  exact foldl (fun v hv l _ => hblock v hv l) hedges

theorem deliver (h : SameLaneObjs s t) (recs : List Rec) (items : Nat) (first last : SubTime) (now : Tick) : SameLaneObjs s (t.deliver q recs items first last now) :=
  ite (h.setQueue _) (ite ((h.finishAll [] now).stage (by simp) now) (ite (h.setQueue _) h))

theorem sourceGap (h : SameLaneObjs s t) (kind src cause start stop items : Nat) (now : Tick) :
    SameLaneObjs s (t.sourceGap kind src cause start stop items now) := foldl (fun _ hv _ _ => hv.deliver ..) h

theorem videoEvent (h : SameLaneObjs s t) (n kind ln sig : Nat) (incomplete : Bool) (detail : Nat) (x now : Tick) :
    SameLaneObjs s (t.videoEvent n kind ln sig incomplete detail x now) := ite (foldl (fun _ hv _ _ => hv.deliver ..) (h.arrive ..)) (h.arrive ..)

theorem signFrame (h : SameLaneObjs s t) (n : Nat) (f : SdiFrame) (x : Tick) (lines : Nat) (now : Tick) : SameLaneObjs s (t.signFrame n f x lines now) :=
  ite h (foldl (fun _ hv _ _ => ite hv (ite (hv.bumpIx _) (hv.same rfl))) (((h.setIx _).bumpIx _).videoEvent ..))

theorem decLose (h : SameLaneObjs s t) (n reason : Nat) (x : Tick) (open_ : Bool) : SameLaneObjs s (t.decLose n reason x open_) := by
  unfold State.decLose
  dsimp only
  refine ite ?_ (h.setDec ..)
  have hsign : SameLaneObjs s (match (t.dec n).frame.closed with
      | some (at_, lines) =>
        t.signFrame n (takeLines (t.decLanes n).length (((t.dec n).frame.queue.getD 0 []).length + 1) (t.dec n).frame) at_ lines t.tick
      | none => t) := by
    split
    · exact h.signFrame ..
    · exact h
  have hbroken (d : Decoder) (due : Tick) := (hsign.setDec n d).arrive due (.broken n false)
  exact ((ite ((hbroken _ _).bumpIx _) (hbroken _ _)).setIx _).setIx _

variable {k : Nat}

theorem linkState (h : SameLaneObjs s t) (state reason : Nat) : SameLaneObjs s (t.setLinkState k state reason) := (h.setIx state).setIx reason

theorem linkAlign (h : SameLaneObjs s t) (delays : List Nat) (x : Tick) : SameLaneObjs s (t.linkAlign k delays x) := by
  unfold State.linkAlign
  extract_lets l ready s1
  have h1 : SameLaneObjs s s1 := by
    unfold s1
    split
    · exact h.sourceGap ..
    · exact h
  exact (h1.setLnk ..).linkState ..

theorem clearFinders (h : SameLaneObjs s t) (l : List Nat) :
    SameLaneObjs s (l.foldl (fun s n => s.setLane n { s.lane n with finder := {} }) t) := foldl (fun _ hv _ _ => hv.setLane ..) h

theorem linkTry (h : SameLaneObjs s t) (x : Tick) : SameLaneObjs s (t.linkTry k x) :=
  ite h (ite ((h.setLnk ..).linkState ..) (ite h (ite (h.linkAlign ..) (((h.clearFinders _).setLnk ..).linkState ..))))

theorem linkWait (h : SameLaneObjs s t) (x : Tick) : SameLaneObjs s (t.linkWait k false x) :=
  (((ite ((h.setLnk ..).decLose ..) h).linkState ..).setLnk ..).linkTry x

end SameLaneObjs

namespace Onward
variable {s t : State} {k : Nat}

theorem linkTry (h : Onward s t) (hk : k < 16) (x : Tick) : Onward s (t.linkTry k x) :=
  ite h (ite ((h.setLnk ..).linkState hk ..) (ite h (ite (h.linkAlign hk ..) (((h.clearFinders _).setLnk ..).linkState hk ..))))

theorem linkWait (h : Onward s t) (hk : k < 16) (x : Tick) : Onward s (t.linkWait k false x) := ((h.linkLeave hk ..).setLnk ..).linkTry hk x

theorem abortEye (h : Onward s t) (n result : Nat) : Onward s (t.abortEye n result) := by
  have heye (e : Option EyeRun) : Onward s { t with eye := e } := h.trans ⟨List.prefix_refl _, fun _ => rfl, fun _ _ => rfl⟩
  unfold State.abortEye
  split
  · exact ite (heye _) h
  · exact h

end Onward

end Sys2Proof.Machine

namespace Sys2Proof.Machine

/-! The codes of a lane's equaliser (R146, R147). -/

section
variable (s : State)

theorem toInt_ofInt_8 {v : Int} (hlo : -128 ≤ v) (hhi : v ≤ 127) : toInt 8 (ofInt 8 v) = v := by
  unfold toInt ofInt
  norm_num
  split <;> omega

/-- An 8-bit signed object reads the value it was given. -/
theorem State.int_setInt_8 {k : Key} {v : Int} (hk : (findObj k).map (·.ty.width) = some 8) (hlo : -128 ≤ v) (hhi : v ≤ 127) :
    (s.setInt k v).int k = v := by
  obtain ⟨d, hd, hw⟩ := Option.map_eq_some_iff.mp hk
  simp only [State.int, State.setInt, hd, State.obj_setObj_self, hw]
  exact toInt_ofInt_8 hlo hhi

/-- Signed objects are given their values in order. -/
def State.setInts (l : List Nat) (key : Nat → Key) (val : Nat → Int) : State := l.foldl (fun s j => s.setInt (key j) (val j)) s

section
variable (l : List Nat) (key : Nat → Key) (val : Nat → Int)

theorem State.setInts_rest : s.setInts l key val = { s with dict := (s.setInts l key val).dict } :=
  List.foldlRecOn (motive := fun v : State => v = { s with dict := v.dict }) l _ rfl fun v hv j _ => by
    rw [State.setInt_eq, hv]

variable {l key}

theorem State.setInts_obj_ne {k : Key} (h : ∀ j ∈ l, k ≠ key j) : (s.setInts l key val).obj k = s.obj k :=
  List.foldlRecOn (motive := fun v : State => v.obj k = s.obj k) l _ rfl fun v hv j hj => (v.obj_setInt_ne _ (h j hj)).trans hv

/-- Of distinct objects of 8 bits each reads its own value. -/
theorem State.setInts_int {j : Nat} (hj : j ∈ l) (hd : (l.map key).Nodup) (hk : (findObj (key j)).map (·.ty.width) = some 8)
    (hlo : -128 ≤ val j) (hhi : val j ≤ 127) : (s.setInts l key val).int (key j) = val j := by
  induction l generalizing s with
  | nil => exact absurd hj List.not_mem_nil
  | cons a l ih =>
    obtain ⟨ha, hl⟩ := List.nodup_cons.mp hd
    rcases List.mem_cons.mp hj with rfl | hmem
    · have hother : ∀ i ∈ l, key j ≠ key i := fun i hi e => ha (e ▸ List.mem_map_of_mem hi)
      exact (State.int_congr ((s.setInt (key j) (val j)).setInts_obj_ne val hother)).trans (s.int_setInt_8 hk hlo hhi)
    · exact ih (s.setInt (key a) (val a)) hmem hl

end

variable (n : Nat)

/-- The codes of a lane's equaliser are objects of the lane. -/
abbrev codeKeys : List Key := Obj.laneCtleLive n :: (upFrom 12 1).map (Obj.laneDfeLive n)

theorem laneObj_not_mem_codeKeys {i : Nat} (hi : i < 0x12) : (0x3100 + n) * 256 + i ∉ codeKeys n := by
  simp only [codeKeys, List.mem_cons, List.mem_map, Obj.laneCtleLive, Obj.laneDfeLive, Key, not_or, not_exists, not_and]
  exact ⟨by omega, fun j _ => by omega⟩

/-- A lane's equaliser may have come to other codes: nothing else has changed but what the lane keeps of them. -/
structure CodesMoved (s t : State) (n : Nat) : Prop where
  rest : t = { s with dict := t.dict, lanes := t.lanes }
  objs : SameObjs s t (codeKeys n)
  others : ∀ m, m ≠ n → t.lane m = s.lane m
  lane : ∃ codes, t.lane n = { s.lane n with codes := codes }

theorem CodesMoved.refl : CodesMoved s s n := ⟨rfl, fun _ _ => rfl, fun _ _ => rfl, _, rfl⟩

/-- The value that tap `j` takes of some taps, each within its bounds (R146). -/
def tapCode (dfe : List Int) (j : Nat) : Int := clampI (if j = 1 then -64 else -32) (if j = 1 then 63 else 31) (dfe.getD (j - 1) 0)

/-- The codes of the equaliser are written. -/
def State.writeCodes (ctle : Nat) (dfe : List Int) : State :=
  (s.setObj (Obj.laneCtleLive n) (min 31 ctle)).setInts (upFrom 12 1) (Obj.laneDfeLive n) (tapCode dfe)

variable {n}

theorem State.setCodes_eq (ctle : Nat) (dfe : List Int) : s.setCodes n ctle dfe = s.writeCodes n ctle dfe
    ∨ ∃ codes, s.setCodes n ctle dfe = (s.writeCodes n ctle dfe).setLane n { (s.writeCodes n ctle dfe).lane n with codes := codes } := by
  by_cases h : (s.writeCodes n ctle dfe).liveCodes n = s.liveCodes n
  · exact .inl (if_pos h)
  · exact .inr ⟨_, if_neg h⟩

theorem State.setCodes_obj (ctle : Nat) (dfe : List Int) (k : Key) : (s.setCodes n ctle dfe).obj k = (s.writeCodes n ctle dfe).obj k := by
  rcases s.setCodes_eq ctle dfe (n := n) with h | ⟨codes, h⟩ <;> rw [h]
  rfl

theorem State.setCodes_moved (ctle : Nat) (dfe : List Int) : CodesMoved s (s.setCodes n ctle dfe) n := by
  have hw : s.writeCodes n ctle dfe = { s with dict := (s.writeCodes n ctle dfe).dict } := by
    rw [State.writeCodes, State.setInts_rest]
    rfl
  have hlane (m : Nat) : (s.writeCodes n ctle dfe).lane m = s.lane m := by rw [hw]; rfl
  have hobjs : SameObjs s (s.setCodes n ctle dfe) (codeKeys n) := by
    intro k hk
    obtain ⟨hctle, hdfe⟩ := not_or.mp (fun h => hk (List.mem_cons.mpr h))
    refine (s.setCodes_obj ctle dfe k).trans ((State.setInts_obj_ne _ _ fun j hj e => hdfe ?_).trans (State.obj_setObj_ne _ _ hctle))
    exact List.mem_map.mpr ⟨j, hj, e.symm⟩
  rcases s.setCodes_eq ctle dfe (n := n) with h | ⟨codes, h⟩ <;> rw [h] at hobjs ⊢
  · exact ⟨by rw [hw], hobjs, fun m _ => hlane m, _, hlane n⟩
  · refine ⟨by rw [hw]; rfl, hobjs, fun m hm => ?_, codes, ?_⟩
    · exact (State.lane_setLane ..).trans ((if_neg hm).trans (hlane m))
    · rw [State.lane_setLane_self, hlane]

theorem laneDfeLive_width {n : Nat} (hn : n < 32) {j : Nat} (hj : j ∈ upFrom 12 1) : (findObj (Obj.laneDfeLive n j)).map (·.ty.width) = some 8 :=
  (by decide : ∀ n < 32, ∀ j ∈ upFrom 12 1, (findObj (Obj.laneDfeLive n j)).map (·.ty.width) = some 8) n hn j hj

theorem State.setCodes_ctle (ctle : Nat) (dfe : List Int) : (s.setCodes n ctle dfe).obj (Obj.laneCtleLive n) = min 31 ctle := by
  refine (s.setCodes_obj ctle dfe _).trans ((State.setInts_obj_ne _ _ fun j hj => ?_).trans (State.obj_setObj_self ..))
  have := (mem_upFrom.mp hj).1
  simp only [Obj.laneCtleLive, Obj.laneDfeLive, Key]
  omega

theorem tapCode_mem (dfe : List Int) (j : Nat) : -128 ≤ tapCode dfe j ∧ tapCode dfe j ≤ 127 := by
  unfold tapCode clampI
  split_ifs <;> omega

theorem State.setCodes_dfe (hn : n < 32) (ctle : Nat) (dfe : List Int) {j : Nat} (hj : j ∈ upFrom 12 1) :
    (s.setCodes n ctle dfe).int (Obj.laneDfeLive n j) = tapCode dfe j := by
  obtain ⟨hlo, hhi⟩ := tapCode_mem dfe j
  have hd : ((upFrom 12 1).map (Obj.laneDfeLive n)).Nodup :=
    List.Nodup.map (fun i j h => by simpa [Obj.laneDfeLive] using h) (by decide)
  exact (State.int_congr (s.setCodes_obj ctle dfe _)).trans (State.setInts_int _ _ hj hd (laneDfeLive_width hn hj) hlo hhi)

end

/-! The entry into FREQ_ACQ (R136, R147). -/

section
variable (s : State) (n : Nat)

/-- The measurement windows of a lane begin again. -/
def State.beginWindows : State := s.setLane n { s.lane n with windowAt := s.tick, near := 0, far := 0 }

theorem State.freqAcq_moved : CodesMoved (s.beginWindows n) (s.freqAcq n) n := by
  have h : s.freqAcq n = if s.obj (Obj.laneEqMode n) = 0 then (s.beginWindows n).seedEq n else s.beginWindows n := rfl
  rw [h]
  split
  · exact State.setCodes_moved ..
  · exact .refl ..

/-- In ADAPT the codes are those of the SET objects, each within its bounds. -/
theorem State.freqAcq_seeds (hn : n < 32) (hmode : s.obj (Obj.laneEqMode n) = 0) :
    (s.freqAcq n).obj (Obj.laneCtleLive n) = min 31 (s.obj (Obj.laneCtleSet n))
      ∧ ∀ j ∈ upFrom 12 1, (s.freqAcq n).int (Obj.laneDfeLive n j)
        = clampI (if j = 1 then -64 else -32) (if j = 1 then 63 else 31) (s.int (Obj.laneDfeSet n j)) := by
  have h : s.freqAcq n = (s.beginWindows n).setCodes n (s.obj (Obj.laneCtleSet n)) ((upFrom 12 1).map (fun j => s.int (Obj.laneDfeSet n j))) := if_pos hmode
  rw [h]
  refine ⟨State.setCodes_ctle .., fun j hj => (State.setCodes_dfe _ hn _ _ hj).trans ?_⟩
  have hget : ((upFrom 12 1).map (fun j => s.int (Obj.laneDfeSet n j))).getD (j - 1) 0 = s.int (Obj.laneDfeSet n j) := by
    obtain ⟨h1, h12⟩ := mem_upFrom.mp hj
    rw [upFrom_eq_range', List.getD_eq_getElem?_getD, List.getElem?_map, List.getElem?_range' (by omega), Option.map_some, Option.getD_some]
    congr 2
    omega
  rw [tapCode, hget]

end

end Sys2Proof.Machine

namespace Sys2Proof.Machine

/-! The states of clock recovery (R135, R136, R724). -/

section
variable {s : State} {n : Nat}

/-- Clock recovery has a state in a lane that is there and runs. -/
theorem State.cdr_inv (h : s.cdr n ≠ 0) : n < 32 ∧ s.obj (Obj.laneCdrState n) = s.cdr n := by
  by_cases hrun : (s.running && s.hasLane n) = true
  · exact ⟨s.lane_lt_of_hasLane n (by simp_all), (if_pos hrun).symm⟩
  · exact absurd (if_neg hrun) h

theorem laneObj_ne_laneCdrState (a : Nat) {i : Nat} (hi : i < 256) (h : i ≠ 2) : (0x3100 + a) * 256 + i ≠ Obj.laneCdrState n := by
  simp only [Obj.laneCdrState, Key]
  omega

theorem execCdrSignalDetect_early (h : (s.lane n).loud < 1000) : exec (.cdrSignalDetect n) s = .next s :=
  congrArg Host.Outcome.next (if_pos (.inr h))

/-- A lane with a signal begins to acquire its frequency. -/
def State.detectSignal (s : State) (n : Nat) : State := (s.setObj (Obj.laneCdrState n) 2).freqAcq n

theorem execCdrSignalDetect_due (hcdr : s.cdr n = 1) (h : 1000 ≤ (s.lane n).loud) : exec (.cdrSignalDetect n) s = .next (s.detectSignal n) :=
  congrArg Host.Outcome.next (if_neg (by omega))

theorem State.detectSignal_moved : CodesMoved ((s.setObj (Obj.laneCdrState n) 2).beginWindows n) (s.detectSignal n) n := State.freqAcq_moved ..

theorem State.detectSignal_cdr : (s.detectSignal n).obj (Obj.laneCdrState n) = 2 :=
  (s.detectSignal_moved.objs _ (laneObj_not_mem_codeKeys n (by decide))).trans (State.obj_setObj_self ..)

theorem State.detectSignal_objs : SameObjs s (s.detectSignal n) (Obj.laneCdrState n :: codeKeys n) := by
  intro k hk
  obtain ⟨hcdr, hcodes⟩ := not_or.mp (fun e => hk (List.mem_cons.mpr e))
  exact (s.detectSignal_moved.objs k hcodes).trans (State.obj_setObj_ne _ _ hcdr)

theorem State.detectSignal_others {m : Nat} (h : m ≠ n) : (s.detectSignal n).lane m = s.lane m :=
  (s.detectSignal_moved.others m h).trans ((State.lane_setLane ..).trans (if_neg h))

theorem State.detectSignal_lane : ∃ codes, (s.detectSignal n).lane n = { s.lane n with windowAt := s.tick, near := 0, far := 0, codes := codes } := by
  obtain ⟨codes, h⟩ := (s.detectSignal_moved (n := n)).lane
  exact ⟨codes, h.trans (congrArg (fun x : Lane => { x with codes := codes }) (State.lane_setLane_self ..))⟩

/-- In ADAPT the equaliser is seeded on the way (R146). -/
theorem State.detectSignal_seeds (hn : n < 32) (hmode : s.obj (Obj.laneEqMode n) = 0) :
    (s.detectSignal n).obj (Obj.laneCtleLive n) = min 31 (s.obj (Obj.laneCtleSet n))
      ∧ ∀ j ∈ upFrom 12 1, (s.detectSignal n).int (Obj.laneDfeLive n j)
        = clampI (if j = 1 then -64 else -32) (if j = 1 then 63 else 31) (s.int (Obj.laneDfeSet n j)) := by
  have hkeep {i : Nat} (hi : i < 256) (h2 : i ≠ 2) : (s.setObj (Obj.laneCdrState n) 2).obj ((0x3100 + n) * 256 + i) = s.obj ((0x3100 + n) * 256 + i) :=
    State.obj_setObj_ne _ _ (laneObj_ne_laneCdrState n hi h2)
  obtain ⟨hctle, hdfe⟩ := (s.setObj (Obj.laneCdrState n) 2).freqAcq_seeds n hn ((hkeep (by decide) (by decide)).trans hmode)
  refine ⟨hctle.trans (congrArg _ (hkeep (by decide) (by decide))), fun j hj => (hdfe j hj).trans (congrArg _ (State.int_congr (hkeep ?_ ?_)))⟩ <;>
    have := mem_upFrom.mp hj <;> omega

theorem execCdrFreqLock_early (h : (s.lane n).near < 4) : exec (.cdrFreqLock n) s = .next s :=
  congrArg Host.Outcome.next (if_pos (.inr h))

theorem execCdrFreqLock_due (hcdr : s.cdr n = 2) (h : 4 ≤ (s.lane n).near) : exec (.cdrFreqLock n) s
    = .next ((s.setObj (Obj.laneCdrState n) 3).setLane n { s.lane n with cleanAt := s.tick }) :=
  congrArg Host.Outcome.next (if_neg (by omega))

/-- The phase loop may lock: no slip for 16,384 ticks, and in ADAPT codes that have settled (R136, R724). -/
def State.cdrReady (s : State) (n : Nat) : Prop :=
  (s.lane n).cleanAt + 16384 ≤ s.tick ∧ (s.obj (Obj.laneEqMode n) = 0 → s.settled n = true)

/-- A lane enters LOCKED. -/
def State.lockLane (s : State) (n : Nat) : State :=
  let x := s.lane n
  (s.setObj (Obj.laneCdrState n) 4).setLane n
    { x with lockAt := some s.tick, chain := none, form := some ((s.bitPeriod n).1, (s.bitPeriod n).2, s.obj (Obj.laneModulation n)),
             gap := x.gap.map (fun g => (g.1, g.2 + (x.gap2.map (·.2)).getD 0)), gap2 := none }

theorem State.lockLane_obj_ne {k : Key} (h : k ≠ Obj.laneCdrState n) : (s.lockLane n).obj k = s.obj k := State.obj_setObj_ne _ _ h

theorem State.lockLane_cdr : (s.lockLane n).obj (Obj.laneCdrState n) = 4 := State.obj_setObj_self ..

theorem execCdrLock_early (h : ¬ s.cdrReady n) : exec (.cdrLock n () ()) s = .next s := by
  refine if_pos (.inr ?_)
  rcases not_and_or.mp h with hclean | hcodes
  · exact .inl (Nat.not_le.mp hclean)
  · obtain ⟨hmode, hset⟩ := Classical.not_imp.mp hcodes
    exact .inr ⟨hmode, by simpa using hset⟩

/-- A lane that locks takes its link along (R151). -/
def State.lockLink (s : State) (n : Nat) : State :=
  if s.obj (Obj.laneLink n) < 16 then (s.lockLane n).linkTry (s.obj (Obj.laneLink n)) (s.tick + 1) else s.lockLane n

theorem State.lockLink_onward : Onward (s.lockLane n) (s.lockLink n) := .ite_of (fun hk => (Onward.refl _).linkTry hk _) (fun _ => .refl _)

theorem State.lockLink_cdr (hn : n < 32) : (s.lockLink n).obj (Obj.laneCdrState n) = 4 := by
  have h : SameLaneObjs (s.lockLane n) (s.lockLink n) := .ite ((SameLaneObjs.refl _).linkTry _) (.refl _)
  refine (h.objs _ ?_).trans State.lockLane_cdr
  simp only [Obj.laneCdrState, Key]
  omega

theorem execCdrLock_ready (hcdr : s.cdr n = 3) (h : s.cdrReady n) : exec (.cdrLock n () ()) s = .next (s.lockLink n) := by
  obtain ⟨hclean, hcodes⟩ := h
  have hlink : (s.lockLane n).obj (Obj.laneLink n) = s.obj (Obj.laneLink n) :=
    State.lockLane_obj_ne (laneObj_ne_laneCdrState n (by decide) (by decide))
  rw [State.lockLink, ← hlink]
  refine if_neg ?_
  rintro (h | h | ⟨hmode, h⟩)
  · exact h hcdr
  · exact absurd hclean (Nat.not_le.mpr h)
  · simp [hcodes hmode] at h

/-- Where a link goes as its last lane locks (R151). -/
theorem State.lockLane_linkGoal {k : Nat} (hmem : n ∈ s.linkLanes k) (hrates : s.ratesAgree k = true)
    (hothers : ∀ l ∈ s.linkLanes k, l = n ∨ s.locked l = true) :
    (s.lockLane n).linkGoal k = if s.obj (Obj.linkDeskewMode k) = 1 then 3 else 2 := by
  have hn := State.lt_of_mem_linkLanes hmem
  have hlinkObj {i : Nat} (hi : i < 256) : (0x3300 + k) * 256 + i ≠ Obj.laneCdrState n := by
    simp only [Obj.laneCdrState, Key]
    omega
  have hlanes : (s.lockLane n).linkLanes k = s.linkLanes k := State.linkLanes_congr (State.lockLane_obj_ne (hlinkObj (by decide)))
  have hdeskew : (s.lockLane n).obj (Obj.linkDeskewMode k) = s.obj (Obj.linkDeskewMode k) := State.lockLane_obj_ne (hlinkObj (by decide))
  have hrates' : (s.lockLane n).ratesAgree k = true := (State.ratesAgree_congr hlanes fun a _ x hx => State.lockLane_obj_ne (by
    simp only [List.mem_cons, List.not_mem_nil, or_false] at hx
    rcases hx with rfl | rfl | rfl <;> exact laneObj_ne_laneCdrState a (by decide) (by decide))).trans hrates
  have hall : (s.linkLanes k).all (s.lockLane n).locked = true := by
    refine List.all_eq_true.mpr fun l hl => ?_
    rcases hothers l hl with rfl | hlock
    · exact beq_iff_eq.mpr State.lockLane_cdr
    · by_cases hln : l = n
      · exact hln ▸ beq_iff_eq.mpr State.lockLane_cdr
      · refine (congrArg (· == 4) (State.lockLane_obj_ne ?_)).trans hlock
        simpa [Obj.laneCdrState] using hln
  unfold State.linkGoal
  rw [hlanes, if_neg (List.ne_nil_of_mem hmem), hrates', if_neg (by decide), hall, if_neg (by decide), hdeskew]

theorem State.lockLink_state {k : Nat} (hk : k < 16) (hlink : s.obj (Obj.laneLink n) = k) (hstate : s.obj (Obj.linkLinkState k) = 1) :
    (s.lockLink n).obj (Obj.linkLinkState k) = (s.lockLane n).linkGoal k := by
  have hstate' : (s.lockLane n).obj (Obj.linkLinkState k) = 1 := (State.lockLane_obj_ne (by
    simp only [Obj.linkLinkState, Obj.laneCdrState, Key]
    omega)).trans hstate
  rw [State.lockLink, hlink, if_pos hk]
  exact (State.linkTry_waiting _ k _ hstate').1

end

/-! The loss of lock and of what leads to it (R136, R138, R144). -/

section
variable (s : State) (n state reason : Nat)

/-- A lane falls back to a state of clock recovery for a reason. -/
def State.dropTo : State :=
  let v := s.setObjs [(Obj.laneCdrState n, state), (Obj.laneLossReason n, reason)]
  if state = 2 then v.freqAcq n else v

/-- The tick and the bits in hand at the loss open the gap of a lane, or wait behind the gap that is open; the loss is counted and the stream broken. -/
def State.loseLock (bits : Nat) (t : Tick) : State :=
  let x := s.lane n
  let item := if bits = 0 then 0 else 1
  (((s.setLane n { x with gap := some (x.gap.getD (t, item)), gap2 := if x.gap.isSome then some (t, item) else none, cut := some (s.tick + 1, bits) }).bump
    (Obj.laneCntCdrLossCount n) 1).bump (Obj.laneCntDiscardedBits n) bits).arrive (t + 1) (.broken n true)

theorem State.dropTo_objs : SameObjs s (s.dropTo n state reason) (Obj.laneCdrState n :: Obj.laneLossReason n :: codeKeys n)
    ∧ (s.dropTo n state reason).obj (Obj.laneCdrState n) = state ∧ (s.dropTo n state reason).obj (Obj.laneLossReason n) = reason := by
  let v := s.setObjs [(Obj.laneCdrState n, state), (Obj.laneLossReason n, reason)]
  have hne : Obj.laneCdrState n ≠ Obj.laneLossReason n := (laneObj_ne_laneCdrState n (by decide) (by decide)).symm
  have hdrop : SameObjs v (s.dropTo n state reason) (codeKeys n) := by
    have hacq : SameObjs v (v.freqAcq n) (codeKeys n) := (v.freqAcq_moved n).objs
    unfold State.dropTo
    split
    · exact hacq
    · exact fun _ _ => rfl
  refine ⟨fun k hk => ?_, ?_, ?_⟩
  · simp only [List.mem_cons, not_or] at hk
    obtain ⟨hcdr, hloss, hcodes⟩ := hk
    exact (hdrop k (by simpa using hcodes)).trans ((State.obj_setObj_ne _ _ hloss).trans (State.obj_setObj_ne _ _ hcdr))
  · exact (hdrop _ (laneObj_not_mem_codeKeys n (by decide))).trans ((State.obj_setObj_ne _ _ hne).trans (State.obj_setObj_self ..))
  · exact (hdrop _ (laneObj_not_mem_codeKeys n (by decide))).trans (State.obj_setObj_self ..)

theorem State.dropTo_rest : (s.dropTo n state reason).arrivals = s.arrivals ∧ ((s.dropTo n state reason).lane n).gap = (s.lane n).gap := by
  unfold State.dropTo
  extract_lets v
  have h := v.freqAcq_moved n
  obtain ⟨codes, hlane⟩ := h.lane
  split
  · exact ⟨by rw [h.rest]; rfl, by rw [hlane, State.beginWindows, State.lane_setLane_self]; rfl⟩
  · exact ⟨rfl, rfl⟩

variable (bits : Nat) (t : Tick)

/-- A lane that was not locked only falls back. -/
theorem State.laneDrop_unlocked (h : s.locked n = false) : s.laneDrop n state reason bits t = s.dropTo n state reason := if_pos (by simp [h])

/-- A lane that was locked falls back and loses its lock; the rest is the work of the link or of the decoder. -/
theorem State.laneDrop_locked (hn : n < 32) (h : s.locked n = true) :
    Onward ((s.dropTo n state reason).loseLock n bits t) (s.laneDrop n state reason bits t)
      ∧ SameLaneObjs ((s.dropTo n state reason).loseLock n bits t) (s.laneDrop n state reason bits t) := by
  let w := (s.dropTo n state reason).loseLock n bits t
  have hon : Onward w (w.abortEye n 2) := (Onward.refl w).abortEye n 2
  have hsame : SameLaneObjs w (w.abortEye n 2) := by
    refine (SameLaneObjs.refl w).same ?_
    unfold State.abortEye
    split
    · split <;> rfl
    · rfl
  have hn' : n < 256 := hn.trans (by decide)
  have hdrop : s.laneDrop n state reason bits t = _ := if_neg (by simp [h])
  rw [hdrop]
  constructor
  · exact .ite_of (fun hk => have hs := .ite (hon.decLose hn' ..) hon; .ite (hs.linkWait hk t) hs) (fun _ => hon.decLose hn' ..)
  · exact have hs := .ite (hsame.decLose ..) hsame; .ite (.ite (hs.linkWait t) hs) (hsame.decLose ..)

/-- A loss of lock changes the objects of the lanes as the fall does. -/
theorem State.loseLock_lanes : SameLaneObjs s (s.loseLock n bits t) := ((((SameLaneObjs.refl s).setLane ..).bumpIx 1).bumpIx bits).arrive ..

theorem State.loseLock_counted : Counted s (s.loseLock n bits t) (Obj.laneCntCdrLossCount n) 1
    ∧ Counted s (s.loseLock n bits t) (Obj.laneCntDiscardedBits n) bits := by
  have hne : Obj.laneCntCdrLossCount n ≠ Obj.laneCntDiscardedBits n := by
    simp only [Obj.laneCntCdrLossCount, Obj.laneCntDiscardedBits, Key]
    omega
  constructor
  · exact (State.obj_setObj_ne _ _ hne).trans (State.obj_setObj_self ..)
  · exact (State.obj_setObj_self ..).trans (congrArg (fun x => min (x + bits) _) (State.obj_setObj_ne _ _ hne.symm))

theorem State.loseLock_gap (h : (s.lane n).gap = none) : ((s.loseLock n bits t).lane n).gap = some (t, if bits = 0 then 0 else 1) := by
  have hlane (x : Lane) : ((((s.setLane n x).bump (Obj.laneCntCdrLossCount n) 1).bump (Obj.laneCntDiscardedBits n) bits).arrive (t + 1) (.broken n true)).lane n
      = x := State.lane_setLane_self ..
  rw [State.loseLock, hlane, h]
  rfl

/-- Locked or not, the fall gives the lane its state and its reason. -/
theorem State.laneDrop_lanes (hn : n < 32) : SameLaneObjs (s.dropTo n state reason) (s.laneDrop n state reason bits t) := by
  cases h : s.locked n with
  | false => rw [s.laneDrop_unlocked n state reason bits t h]; exact .refl _
  | true => exact ((s.dropTo n state reason).loseLock_lanes n bits t).trans (s.laneDrop_locked n state reason bits t hn h).2

theorem State.dropTo_counts {k : Nat} (hk : laneCounter k) (hn : n < 32) : (s.dropTo n state reason).obj k = s.obj k := by
  refine (s.dropTo_objs n state reason).1 k ?_
  simp only [codeKeys, List.mem_cons, List.mem_map, mem_upFrom, not_or, not_exists, not_and]
  simp only [laneCounter, Obj.laneCdrState, Obj.laneLossReason, Obj.laneCtleLive, Obj.laneDfeLive, Key] at hk ⊢
  exact ⟨by omega, by omega, by omega, fun j _ => by omega⟩

/-- A lane that loses its lock: the loss and the bits in hand are counted, the units will see the stream broken, and the gap begins (R144). -/
theorem State.laneDrop_loses (hn : n < 32) (h : s.locked n = true) :
    Counted s (s.laneDrop n state reason bits t) (Obj.laneCntCdrLossCount n) 1
      ∧ Counted s (s.laneDrop n state reason bits t) (Obj.laneCntDiscardedBits n) bits
      ∧ (t + 1, Arrival.broken n true) ∈ (s.laneDrop n state reason bits t).arrivals
      ∧ ((s.lane n).gap = none → ((s.laneDrop n state reason bits t).lane n).gap = some (t, if bits = 0 then 0 else 1)) := by
  obtain ⟨hon, -⟩ := s.laneDrop_locked n state reason bits t hn h
  obtain ⟨hloss, hbits⟩ := (s.dropTo n state reason).loseLock_counted n bits t
  have hcounter {i : Nat} (hi : i < 256) : laneCounter ((0x6040 + n) * 256 + i) := by
    unfold laneCounter
    omega
  have hcounted {i m : Nat} (hi : i < 256) (hc : Counted (s.dropTo n state reason) ((s.dropTo n state reason).loseLock n bits t) ((0x6040 + n) * 256 + i) m) :
      Counted s (s.laneDrop n state reason bits t) ((0x6040 + n) * 256 + i) m :=
    (hon.counts _ (hcounter hi)).trans (hc.trans (by rw [s.dropTo_counts n state reason (hcounter hi) hn]))
  refine ⟨hcounted (by decide) hloss, hcounted (by decide) hbits, hon.arrivals.subset (List.mem_append_right _ List.mem_cons_self), fun hnone => ?_⟩
  exact (congrArg (·.gap) (hon.lanes n)).trans ((s.dropTo n state reason).loseLock_gap n _ _ ((s.dropTo_rest n state reason).2.trans hnone))

end

/-- The three losses, each with the state from which on it can come, the state it falls back to, its reason, and whether it is seen (R136). -/
def State.cdrLosses (s : State) (n bits : Nat) : List (Instr × Nat × Nat × Nat × Bool) :=
  [(.cdrSignalLoss n bits, 2, 1, 1, decide (1000 ≤ (s.lane n).quiet)), (.cdrFreqLoss n bits, 3, 2, 2, decide (2 ≤ (s.lane n).far)),
    (.cdrTransitionLoss n bits, 4, 2, 3, decide (2048 ≤ (s.lane n).still))]

theorem exec_cdrLosses {s : State} {n bits : Nat} {c : Instr} {from_ to_ reason : Nat} {seen : Bool}
    (hmem : (c, from_, to_, reason, seen) ∈ s.cdrLosses n bits) (hfrom : from_ ≤ s.cdr n) (hcdr : s.cdr n ≤ 4) :
    2 ≤ from_ ∧ exec c s = .next (if seen = true then s.laneDrop n to_ reason (min 63 bits) s.tick else s) := by
  have hswap {p : Prop} [Decidable p] {b : Bool} (hp : p ↔ ¬ b = true) (v : State) :
      (Host.Outcome.next (if p then s else v) : Ans) = .next (if b = true then v else s) := by
    by_cases hb : b = true
    · rw [if_neg (by tauto), if_pos hb]
    · rw [if_pos (by tauto), if_neg hb]
  simp only [State.cdrLosses, List.mem_cons, List.not_mem_nil, or_false, Prod.mk.injEq] at hmem
  rcases hmem with ⟨rfl, rfl, rfl, rfl, rfl⟩ | ⟨rfl, rfl, rfl, rfl, rfl⟩ | ⟨rfl, rfl, rfl, rfl, rfl⟩
  · exact ⟨by decide, hswap (by rw [decide_eq_true_iff]; omega) _⟩
  · exact ⟨by decide, hswap (by rw [decide_eq_true_iff]; omega) _⟩
  · exact ⟨by decide, hswap (by rw [decide_eq_true_iff]; omega) _⟩

/-- Settles O26: the way up is each row's own equation with `freqAcq_moved` and `linkTry_waiting`; every loss is a `laneDrop`. -/
theorem clockRecoveryMovesThroughItsStates : Obligations.ClockRecoveryMovesThroughItsStates := by
  unfold Obligations.ClockRecoveryMovesThroughItsStates
  refine ⟨fun s n hcdr => ⟨execCdrSignalDetect_early, fun hloud => ?_⟩, fun s n hcdr => ⟨execCdrFreqLock_early, execCdrFreqLock_due hcdr⟩,
    fun s n hcdr => ⟨execCdrLock_early, fun hready => ?_⟩, fun s n bits c from_ to_ reason seen hmem hfrom hle => ?_⟩
  · obtain ⟨hn, -⟩ := State.cdr_inv (s := s) (n := n) (by omega)
    obtain ⟨codes, hlane⟩ := s.detectSignal_lane (n := n)
    refine ⟨_, execCdrSignalDetect_due hcdr hloud, s.detectSignal_moved.rest, s.detectSignal_cdr, s.detectSignal_objs, fun m hm => s.detectSignal_others hm,
      congrArg (·.windowAt) hlane, congrArg (·.near) hlane, congrArg (·.far) hlane, fun hmode => ?_⟩
    obtain ⟨hctle, hdfe⟩ := s.detectSignal_seeds hn hmode
    refine ⟨hctle, hdfe 1 (by decide), fun j h2 h12 => ?_⟩
    have hj : j ≠ 1 := by omega
    simpa only [hj, if_false] using hdfe j (mem_upFrom.mpr ⟨by omega, by omega⟩)
  · obtain ⟨hn, -⟩ := State.cdr_inv (s := s) (n := n) (by omega)
    have hself : (s.lockLane n).lane n = _ := State.lane_setLane_self ..
    have hlane := (s.lockLink_onward.lanes n).trans (congrArg Lane.unfound hself)
    refine ⟨_, execCdrLock_ready hcdr hready, s.lockLink_cdr hn, fun hk => ?_, congrArg (·.lockAt) hlane, congrArg (·.chain) hlane,
      congrArg (·.form) hlane, fun k hk hlink hstate hrates hmem hothers => ?_⟩
    · rw [State.lockLink, if_neg (Nat.not_lt.mpr hk), hself]
      rfl
    · exact (s.lockLink_state hk hlink hstate).trans (State.lockLane_linkGoal hmem hrates hothers)
  · obtain ⟨h2, hexec⟩ := exec_cdrLosses hmem hfrom hle
    obtain ⟨hn, -⟩ := State.cdr_inv (s := s) (n := n) (by omega)
    refine ⟨fun hseen => hexec.trans (by rw [hseen]; rfl), fun hseen => ?_⟩
    obtain ⟨hobjs, hstate, hreason⟩ := s.dropTo_objs n to_ reason
    have hlanes := s.laneDrop_lanes n to_ reason (min 63 bits) s.tick hn
    have hlow {i : Nat} (hi : i < 256) : (0x3100 + n) * 256 + i < 0x312000 := by omega
    exact ⟨_, hexec.trans (by rw [hseen]; rfl), (hlanes.objs _ (hlow (by decide))).trans hstate, (hlanes.objs _ (hlow (by decide))).trans hreason,
      (State.laneDrop_kept (Kept.refl s) ..).tick, fun hun => s.laneDrop_unlocked n to_ reason _ _ hun ▸ hobjs,
      s.laneDrop_loses n to_ reason (min 63 bits) s.tick hn⟩

end Sys2Proof.Machine

namespace Sys2Proof.Machine

/-! What storing leaves alone: records that reach queues and inputs that go on their way to the units move the queues, the arrivals and the objects
that storing counts in (R248, R249, R257, R375). -/

/-- The objects that storing counts in: those of the queues, OVERFLOW_STORED of the flow engine's lanes, and the coder's. -/
def storeKey (k : Nat) : Prop :=
  (0x4000 ≤ k / 256 ∧ k / 256 < 0x5000) ∨ (0x6080 ≤ k / 256 ∧ k / 256 < 0x60A0 ∧ k % 256 = 0x0F) ∨ 0x6440 ≤ k / 256

theorem storeKey_queue {q i : Nat} (hq : q < 4096) (hi : i < 256) : storeKey ((0x4000 + q) * 256 + i) := by
  unfold storeKey; omega

theorem storeKey_coder (i : Nat) : storeKey (0x6440 * 256 + i) := by
  unfold storeKey; omega

/-- The parts of the state that storing does not touch. -/
def State.unstored (s : State) : State := { s with dict := [], queues := [], arrivals := [] }

/-- From s to t there was only storing. -/
structure Stored (s t : State) : Prop where
  rest : t.unstored = s.unstored
  objs : ∀ k, ¬ storeKey k → t.obj k = s.obj k

namespace Stored
variable {s t u : State}

theorem flows (h : Stored s t) : t.flows = s.flows :=
  have h := congrArg State.flows h.rest
  h

theorem flowLanes (h : Stored s t) : t.flowLanes = s.flowLanes :=
  have h := congrArg State.flowLanes h.rest
  h

theorem decs (h : Stored s t) : t.decs = s.decs :=
  have h := congrArg State.decs h.rest
  h

theorem refl (s : State) : Stored s s := ⟨rfl, fun _ _ => rfl⟩

theorem trans (h : Stored s t) (g : Stored t u) : Stored s u :=
  ⟨g.rest.trans h.rest, fun k hk => (g.objs k hk).trans (h.objs k hk)⟩

theorem setObj (h : Stored s t) {k : Nat} (hk : storeKey k) (v : Nat) : Stored s (t.setObj k v) :=
  h.trans ⟨rfl, fun j hj => State.obj_setObj_ne t v (by rintro rfl; exact hj hk)⟩

theorem bumpQueue (h : Stored s t) {q i : Nat} (hq : q < 4096) (n : Nat) (hi : i < 256 := by decide) :
    Stored s (t.bump ((0x4000 + q) * 256 + i) n) := h.setObj (storeKey_queue hq hi) _

theorem bumpCoder (h : Stored s t) {i : Nat} (n : Nat) : Stored s (t.bump (0x6440 * 256 + i) n) := h.setObj (storeKey_coder i) _

theorem setQueue (h : Stored s t) (q : Nat) (x : Queue) : Stored s (t.setQueue q x) := h.trans ⟨rfl, fun _ _ => rfl⟩

theorem arrive (h : Stored s t) (due : Tick) (a : Arrival) : Stored s (t.arrive due a) := h.trans ⟨rfl, fun _ _ => rfl⟩

theorem ite {a b : State} {c : Prop} [Decidable c] (ha : Stored s a) (hb : Stored s b) : Stored s (if c then a else b) := by
  split
  · exact ha
  · exact hb

theorem foldl {α : Type} {f : State → α → State} {l : List α} (hf : ∀ v, Stored s v → ∀ a ∈ l, Stored s (f v a)) (h : Stored s t) :
    Stored s (l.foldl f t) :=
  List.foldlRecOn (motive := Stored s) l f h fun v hv a ha => hf v hv a ha

variable {q : Nat}

theorem putGroup (h : Stored s t) (hq : q < 4096) {g : Group} (hg : ∀ e ∈ g.tally, storeKey e.1) (now : Tick) : Stored s (t.putGroup q g now) :=
  foldl (fun _ hv e he => hv.setObj (hg e he) _) (((h.setQueue ..).bumpQueue hq _).setObj (storeKey_queue hq (by decide)) _)

theorem closeLoss (h : Stored s t) (hq : q < 4096) (now : Tick) : Stored s (t.closeLoss q now) := by
  unfold State.closeLoss
  dsimp only
  split
  · exact h
  · have hs (x : Queue) (n : Nat) := ((h.setQueue q x).bumpQueue (i := 0x29) hq 1).bumpQueue (i := 0x28) hq n
    exact ite ((hs _ _).bumpQueue hq _) ((hs _ _).putGroup hq (by simp) _)

theorem stage (h : Stored s t) (hq : q < 4096) {g : Group} (hg : ∀ e ∈ g.tally, storeKey e.1) (now : Tick) : Stored s (t.stage q g now) :=
  have hs := h.closeLoss hq now
  ite (ite (hs.bumpQueue hq _) (hs.putGroup hq hg _)) (ite (h.setQueue ..) (hs.putGroup hq hg _))

theorem endBlock (h : Stored s t) (hq : q < 4096) (logical : Nat) (fails : List (Nat × Nat)) (now : Tick) :
    Stored s (t.endBlock q logical fails now) := by
  have raw {v : State} (hv : Stored s v) (x : Queue) (g : Group) (hg : g.tally = []) : Stored s ((v.setQueue q x).stage q g now) :=
    (hv.setQueue q x).stage hq (by simp [hg]) now
  unfold State.endBlock
  dsimp only
  split
  · exact h
  · refine ite (raw h _ _ rfl) ?_
    split
    · exact raw (h.bumpCoder 1) _ _ rfl
    · refine ite (raw ((h.bumpCoder _).bumpCoder 1) _ _ rfl) (((h.bumpCoder _).setQueue ..).stage hq ?_ now)
      simp only [List.forall_mem_cons]
      exact ⟨storeKey_coder _, storeKey_coder _, storeKey_coder _, nofun⟩

theorem finishBlock (h : Stored s t) (hq : q < 4096) (logical : Nat) (fails : List (Nat × Nat)) (now : Tick) :
    Stored s (t.finishBlock q logical fails now) :=
  have hs := h.endBlock hq logical fails now
  ite (foldl (fun _ hv l _ => hv.endBlock hq l fails now) hs) hs

theorem finishEdges (h : Stored s t) (hq : q < 4096) (now : Tick) : Stored s (t.finishEdges q now) := by
  unfold State.finishEdges
  dsimp only
  split
  · exact h
  · exact (h.setQueue ..).stage hq (by simp) now

theorem deliver (h : Stored s t) (hq : q < 4096) (recs : List Rec) (items : Nat) (first last : SubTime) (now : Tick) {tally : List (Key × Nat)}
    (hg : ∀ e ∈ tally, storeKey e.1) : Stored s (t.deliver q recs items first last now tally) :=
  have hs := foldl (fun _ hv l _ => hv.finishBlock hq l [] now) (h.finishEdges hq now)
  ite (h.setQueue ..) (ite (hs.stage hq hg now) (ite (h.setQueue ..) h))

theorem toQueues (h : Stored s t) {qs : List Nat} (hqs : ∀ q ∈ qs, q < 4096) (recs : List Rec) (x now : Tick) {tally : List (Key × Nat)}
    (hg : ∀ e ∈ tally, storeKey e.1) : Stored s (t.toQueues qs recs x now tally) :=
  foldl (fun _ hv q hq => hv.deliver (hqs q hq) _ _ _ _ _ hg) h

end Stored

/-! The queues of the flow engine are queues of the engine (R249). -/

section
variable {s : State} {q : Nat}

theorem State.lt_of_flowQueue {p : Nat} (h : s.flowQueue p = some q) : q < 4096 := by
  unfold State.flowQueue at h
  split at h
  · next hp => exact Option.some.inj h ▸ hp.1
  · exact absurd h nofun

theorem State.lt_of_tagQueue {tag : Nat} (h : s.tagQueue tag = some q) : q < 4096 := by
  unfold State.tagQueue at h
  split at h
  · exact absurd h nofun
  · exact State.lt_of_mem_queueList (List.mem_of_find?_eq_some h)

theorem State.lt_of_mem_ownQueues {c : FlowCtx} (h : q ∈ s.ownQueues c) : q < 4096 := by
  rcases List.mem_append.mp h with h | h
  · split at h
    · exact State.lt_of_flowQueue (Option.mem_toList.mp h)
    · exact absurd h List.not_mem_nil
  · exact State.lt_of_tagQueue (Option.mem_toList.mp h)

theorem State.lt_of_mem_eventQueues {n : Nat} {c : FlowCtx} (h : q ∈ s.eventQueues n c) : q < 4096 := by
  rcases List.mem_append.mp (List.mem_eraseDups.mp h) with h | h
  · exact State.lt_of_mem_ownQueues h
  · exact State.lt_of_flowQueue (Option.mem_toList.mp h)

end

namespace Stored
variable {s t : State}

theorem flowEvents (h : Stored s t) (n fid : Nat) (c : FlowCtx) (key : Bytes) (l : List FlowEv) {own : List Nat} (hown : ∀ q ∈ own, q < 4096)
    (pkt : List Rec) (x now : Tick) : Stored s (t.flowEvents n fid c key l own pkt x now) := by
  refine foldl (fun v hv q hq => hv.deliver ?_ _ _ _ _ _ nofun) (foldl (fun v hv e _ => hv.arrive ..) h)
  rcases List.mem_append.mp (List.mem_eraseDups.mp hq) with hq | hq
  · exact hown q hq
  · split at hq
    · exact absurd hq List.not_mem_nil
    · exact State.lt_of_mem_eventQueues hq

/-- An unclassified frame is counted with its reason; what else it does is storing (R230, R257). -/
theorem unclassified (s : State) {n : Nat} (hn : n < 32) (reason flags orig : Nat) (d : Bytes) (x now : Tick) :
    Stored (s.bump (Obj.flCntUnclassified n reason) 1) (s.unclassified n reason flags orig d x now) := by
  unfold State.unclassified
  dsimp only
  split
  · exact refl _
  · next q hq =>
    refine (refl _).toQueues (fun p hp => List.mem_singleton.mp hp ▸ State.lt_of_flowQueue hq) _ _ _ (fun e he => ?_)
    obtain rfl := List.mem_singleton.mp he
    simp only [storeKey, Obj.flCntOverflowStored]
    omega

end Stored

end Sys2Proof.Machine
namespace Sys2Proof.Machine

/-! What the flow engine does with a frame leaves the decoders and their counters, and the lane's count of frames, as they were (R222). -/

/-- The counters of the decoders, and PACKETS of a lane of the flow engine. -/
def frameCounter (n k : Nat) : Prop := (0x6060 ≤ k / 256 ∧ k / 256 < 0x6080) ∨ k = Obj.flCntPackets n

theorem frameCounter_dec {n m i : Nat} (hm : m < 32) (hi : i < 256) : frameCounter n ((0x6060 + m) * 256 + i) := by
  unfold frameCounter; omega

theorem not_storeKey_frameCounter {n k : Nat} (hn : n < 32) (hk : frameCounter n k) : ¬ storeKey k := by
  unfold frameCounter Obj.flCntPackets at hk
  unfold storeKey
  omega

/-- Decoders, their counters and a lane's PACKETS of a state are those of an earlier one. -/
structure PastDecoder (n : Nat) (s t : State) : Prop where
  decs : t.decs = s.decs
  counts : ∀ k, frameCounter n k → t.obj k = s.obj k

theorem Stored.pastDecoder {s t : State} {n : Nat} (h : Stored s t) (hn : n < 32) : PastDecoder n s t :=
  ⟨h.decs, fun k hk => h.objs k (not_storeKey_frameCounter hn hk)⟩

namespace PastDecoder
variable {s t u : State} {n : Nat}

theorem refl (n : Nat) (s : State) : PastDecoder n s s := ⟨rfl, fun _ _ => rfl⟩

theorem trans (h : PastDecoder n s t) (g : PastDecoder n t u) : PastDecoder n s u :=
  ⟨g.decs.trans h.decs, fun k hk => (g.counts k hk).trans (h.counts k hk)⟩

theorem setFlow (h : PastDecoder n s t) (fid : Nat) (c : FlowCtx) : PastDecoder n s (t.setFlow fid c) := h.trans ⟨rfl, fun _ _ => rfl⟩

theorem setFlLane (h : PastDecoder n s t) (m : Nat) (x : FlowLane) : PastDecoder n s (t.setFlLane m x) := h.trans ⟨rfl, fun _ _ => rfl⟩

theorem setObj (h : PastDecoder n s t) {k : Nat} (hk : ¬ frameCounter n k) (v : Nat) : PastDecoder n s (t.setObj k v) :=
  h.trans ⟨rfl, fun j hj => State.obj_setObj_ne t v (by rintro rfl; exact hk hj)⟩

/-- A counter of the lane behind PACKETS (the family 0x6080). -/
theorem bumpFlow (h : PastDecoder n s t) {i : Nat} (v : Nat) (hi : 2 ≤ i := by decide) : PastDecoder n s (t.bump ((0x6080 + n) * 256 + i) v) :=
  h.setObj (by unfold frameCounter Obj.flCntPackets; omega) _

theorem bumpReason (h : PastDecoder n s t) (reason : Nat) (v : Nat) : PastDecoder n s (t.bump (Obj.flCntUnclassified n reason) v) :=
  h.bumpFlow v (Nat.le_add_right 2 reason)

theorem ite {a b : State} {c : Prop} [Decidable c] (ha : PastDecoder n s a) (hb : PastDecoder n s b) : PastDecoder n s (if c then a else b) := by
  split
  · exact ha
  · exact hb

theorem foldl {α : Type} {f : State → α → State} {l : List α} (hf : ∀ v, PastDecoder n s v → ∀ a ∈ l, PastDecoder n s (f v a))
    (h : PastDecoder n s t) : PastDecoder n s (l.foldl f t) :=
  List.foldlRecOn (motive := PastDecoder n s) l f h fun v hv a ha => hf v hv a ha

theorem tapSignature (h : PastDecoder n s t) (inst : Nat) (flow : Option Nat) (sig : Nat) (incomplete : Bool) (x : SubTime) :
    PastDecoder n s (t.tapSignature inst flow sig incomplete x) := by
  refine foldl (fun v hv k hk => ite hv (ite (hv.setObj ?_ _) (hv.trans ⟨rfl, fun _ _ => rfl⟩))) h
  have hk8 := (mem_upFrom.mp hk).2
  simp only [frameCounter, Obj.sigSkipped, Obj.flCntPackets]
  omega

variable (hn : n < 32)
include hn

theorem toQueues (h : PastDecoder n s t) {qs : List Nat} (hqs : ∀ q ∈ qs, q < 4096) (recs : List Rec) (x now : Tick) {tally : List (Key × Nat)}
    (hg : ∀ e ∈ tally, storeKey e.1) : PastDecoder n s (t.toQueues qs recs x now tally) :=
  h.trans (((Stored.refl t).toQueues hqs recs x now hg).pastDecoder hn)

theorem flowEvents (h : PastDecoder n s t) (fid : Nat) (c : FlowCtx) (key : Bytes) (l : List FlowEv) {own : List Nat} (hown : ∀ q ∈ own, q < 4096)
    (pkt : List Rec) (x now : Tick) : PastDecoder n s (t.flowEvents n fid c key l own pkt x now) :=
  h.trans (((Stored.refl t).flowEvents n fid c key l hown pkt x now).pastDecoder hn)

theorem unclassified (h : PastDecoder n s t) (reason flags orig : Nat) (d : Bytes) (x now : Tick) :
    PastDecoder n s (t.unclassified n reason flags orig d x now) :=
  (h.bumpReason reason 1).trans ((Stored.unclassified t hn reason flags orig d x now).pastDecoder hn)

theorem closeRow (h : PastDecoder n s t) (fid : Nat) (c : FlowCtx) (now : Tick) : PastDecoder n s (t.closeRow n fid c now) := by
  have hcoder (v : State) (i m : Nat) : PastDecoder n v (v.bump (0x6440 * 256 + i) m) :=
    ((Stored.refl v).bumpCoder m).pastDecoder hn
  unfold State.closeRow
  split
  · exact h
  · refine foldl (fun v hv k _ => ?_) h
    refine foldl (fun w hw r _ => ?_) (hv.trans (hcoder ..))
    refine foldl (fun y hy e _ => hy.toQueues hn (fun q => State.lt_of_mem_ownQueues) _ _ _ fun a ha => ?_) hw
    exact List.mem_singleton.mp ha ▸ storeKey_coder _

theorem flowFilet (h : PastDecoder n s t) (fid : Nat) (p : Rtp) (frameEnd : Bool) (x now : Tick) :
    PastDecoder n s (t.flowFilet n fid p frameEnd x now) := by
  have close {v : State} (hv : PastDecoder n s v) (c c' : FlowCtx) : PastDecoder n s ((v.closeRow n fid c now).setFlow fid c') :=
    (hv.closeRow hn fid c now).setFlow fid c'
  unfold State.flowFilet
  refine ite (h.setFlow ..) ?_
  extract_lets rows c
  have hrows : PastDecoder n s rows := foldl (fun v hv r _ => (ite hv (close hv _ _)).setFlow ..) h
  exact ite (close hrows _ _) hrows

theorem flowHit (h : PastDecoder n s t) (fid flags orig : Nat) (key d : Bytes) (p : Option Rtp) (x now : Tick) :
    PastDecoder n s (t.flowHit n fid flags orig key d p x now) := by
  unfold State.flowHit
  extract_lets c isNew c1 st s1 s2 misbound s3 evs s4 s5 s6
  have h1 : PastDecoder n s s1 := (h.bumpFlow 1).setFlow ..
  have h2 : PastDecoder n s s2 := ite (h1.bumpFlow 1) h1
  have h4 : PastDecoder n s s4 := (h2.bumpFlow misbound).flowEvents hn _ _ _ _ (fun q => State.lt_of_mem_ownQueues) _ _ _
  have h6 : PastDecoder n s s6 := by
    unfold s6
    split
    · exact h4
    · refine tapSignature (toQueues hn ?_ (fun q => State.lt_of_mem_eventQueues) _ _ _ (by simp)) ..
      exact (h4.bumpFlow 1).trans (((Stored.refl _).arrive ..).pastDecoder hn)
  split
  · exact h6.flowFilet hn ..
  · exact h6

theorem flowLookup (h : PastDecoder n s t) (flags orig : Nat) (key payload d : Bytes) (x now : Tick) :
    PastDecoder n s (t.flowLookup n flags orig key payload d x now) := by
  have hs := h.setFlLane n { t.flLane n with usedAt := some now }
  unfold State.flowLookup
  dsimp only
  split
  · split
    · exact hs.unclassified hn ..
    · exact hs.flowHit hn ..
  · refine ite (hs.unclassified hn ..) ?_
    split
    · exact hs.unclassified hn ..
    · split
      · exact hs.unclassified hn ..
      · exact (((ite (hs.bumpFlow 1) hs).bumpFlow 1).setFlow ..).flowHit hn ..

theorem ptpFrame (h : PastDecoder n s t) (flags orig : Nat) (d : Bytes) (x now : Tick) : PastDecoder n s (t.ptpFrame n flags orig d x now) := by
  unfold State.ptpFrame
  dsimp only
  split
  · exact h.bumpFlow 1
  · next q hq => exact (h.bumpFlow 1).toQueues hn (fun p hp => List.mem_singleton.mp hp ▸ State.lt_of_flowQueue hq) _ _ _ (by simp)

/-- A frame in the flow engine is counted there; what else the engine does leaves decoders and counters of frames alone. -/
theorem flowFrame (s : State) (flags orig : Nat) (d : Bytes) (x now : Tick) :
    PastDecoder n (s.bump (Obj.flCntPackets n) 1) (s.flowFrame n flags orig d x now) := by
  have hs := (refl n (s.bump (Obj.flCntPackets n) 1)).setFlLane n { s.flLane n with frameAt := some now }
  unfold State.flowFrame
  refine ite (refl ..) (ite (hs.unclassified hn ..) (ite (hs.unclassified hn ..) ?_))
  split
  · exact hs.unclassified hn ..
  · exact hs.ptpFrame hn ..
  · exact hs.flowLookup hn ..

end PastDecoder

end Sys2Proof.Machine
namespace Sys2Proof.Machine

/-! A frame leaves its decoder (R205 to R207). -/

/-- From s to t errors of a decoder's frame were noted: the decoder's frames that are ready, the flow engine and the queues are as they were. -/
structure ErrorsNoted (n : Nat) (s t : State) : Prop where
  ready : (t.dec n).ready = (s.dec n).ready
  flows : t.flows = s.flows
  flowLanes : t.flowLanes = s.flowLanes
  queues : t.queues = s.queues
  objs : SameObjs s t [Obj.decCntCodeErrors n, Obj.decCntRunts n, Obj.decCntTruncated n]

namespace ErrorsNoted
variable {s t u : State} {n : Nat}

theorem refl (n : Nat) (s : State) : ErrorsNoted n s s := ⟨rfl, rfl, rfl, rfl, fun _ _ => rfl⟩

theorem trans (h : ErrorsNoted n s t) (g : ErrorsNoted n t u) : ErrorsNoted n s u :=
  ⟨g.ready.trans h.ready, g.flows.trans h.flows, g.flowLanes.trans h.flowLanes, g.queues.trans h.queues,
    fun k hk => (g.objs k hk).trans (h.objs k hk)⟩

theorem bump (h : ErrorsNoted n s t) {k : Nat} (hk : k ∈ [Obj.decCntCodeErrors n, Obj.decCntRunts n, Obj.decCntTruncated n]) (v : Nat) :
    ErrorsNoted n s (t.bump k v) :=
  h.trans ⟨rfl, rfl, rfl, rfl, fun j hj => State.obj_setObj_ne t _ (by rintro rfl; exact hj hk)⟩

theorem arrive (h : ErrorsNoted n s t) (due : Tick) (a : Arrival) : ErrorsNoted n s (t.arrive due a) := h.trans ⟨rfl, rfl, rfl, rfl, fun _ _ => rfl⟩

theorem ite {a b : State} {c : Prop} [Decidable c] (ha : ErrorsNoted n s a) (hb : ErrorsNoted n s b) : ErrorsNoted n s (if c then a else b) := by
  split
  · exact ha
  · exact hb

theorem codeError (h : ErrorsNoted n s t) (kind count logical : Nat) (x now : Tick) : ErrorsNoted n s (t.codeError n kind count logical x now) :=
  have hs := (h.bump (by simp) count).arrive _ _
  ite h (ite (hs.trans ⟨by simp, rfl, rfl, rfl, fun _ _ => rfl⟩) hs)

end ErrorsNoted

/-- A frame has left its decoder and is counted, and so is an error of its check sequence (R206). -/
def State.countFrame (s : State) (n : Nat) (f : Frame) (rest : List (Tick × Frame)) : State :=
  let u := (s.setDec n { s.dec n with ready := rest }).bump (Obj.decCntEthFrames n) 1
  if bit (frameFlags f.limit f) 0 = true then u.bump (Obj.decCntFcsErr n) 1 else u

section
variable {s : State} {n : Nat} {built : Tick} {f : Frame} {rest : List (Tick × Frame)}

/-- The oldest frame of a decoder is counted, its errors are noted, and then it reaches the flow engine. -/
theorem State.takeFrame_reaches (h : (s.dec n).ready = (built, f) :: rest) :
    ∃ r, ErrorsNoted n (s.countFrame n f rest) r
      ∧ s.takeFrame n = r.flowFrame n (frameFlags f.limit f) f.data.length (f.data.take f.limit) f.time s.tick := by
  unfold State.takeFrame
  rw [h]
  refine ⟨_, ?_, rfl⟩
  have noted (v : State) (hv : ErrorsNoted n (s.countFrame n f rest) v) : ErrorsNoted n (s.countFrame n f rest)
      (let w := if bit (frameFlags f.limit f) 3 then v.bump (Obj.decCntRunts n) 1 else v
       if bit (frameFlags f.limit f) 4 then w.bump (Obj.decCntTruncated n) 1 else w) :=
    have hs := ErrorsNoted.ite (hv.bump (by simp) 1) hv
    .ite (hs.bump (by simp) 1) hs
  refine (noted _ ?_).arrive _ _
  unfold State.countFrame
  dsimp only
  split
  · exact (ErrorsNoted.refl ..).codeError ..
  · exact .refl ..

theorem State.countFrame_obj {k : Nat} (hk : k ∉ [Obj.decCntEthFrames n, Obj.decCntFcsErr n]) : (s.countFrame n f rest).obj k = s.obj k := by
  simp only [List.mem_cons, List.not_mem_nil, or_false, not_or] at hk
  unfold State.countFrame
  split <;> simp [State.obj_bump, hk]

theorem State.countFrame_ethFrames : Counted s (s.countFrame n f rest) (Obj.decCntEthFrames n) 1 := by
  have hne : Obj.decCntEthFrames n ≠ Obj.decCntFcsErr n := by simp [Obj.decCntEthFrames, Obj.decCntFcsErr]
  unfold State.countFrame Counted
  split <;> simp [State.obj_bump, hne]

theorem State.countFrame_fcsErr (h : bit (frameFlags f.limit f) 0 = true) : Counted s (s.countFrame n f rest) (Obj.decCntFcsErr n) 1 := by
  have hne : Obj.decCntFcsErr n ≠ Obj.decCntEthFrames n := by simp [Obj.decCntEthFrames, Obj.decCntFcsErr]
  unfold State.countFrame Counted
  simp [State.obj_bump, hne, h]

theorem State.countFrame_rest : ((s.countFrame n f rest).dec n).ready = rest ∧ (s.countFrame n f rest).flows = s.flows
    ∧ (s.countFrame n f rest).flowLanes = s.flowLanes ∧ (s.countFrame n f rest).queues = s.queues := by
  have hdec : ((s.setDec n { s.dec n with ready := rest }).dec n).ready = rest := by simp
  unfold State.countFrame
  split <;> exact ⟨hdec, rfl, rfl, rfl⟩

end

/-! A frame in the flow engine (R222 to R236). -/

/-- The flow engine's tables and objects are those of an earlier state, but for the counters of frames. -/
structure AtLookup (n : Nat) (s t : State) : Prop where
  flows : t.flows = s.flows
  objs : ∀ k, ¬ frameCounter n k → t.obj k = s.obj k

namespace AtLookup
variable {s t u : State} {n : Nat}

theorem trans (h : AtLookup n s t) (g : AtLookup n t u) : AtLookup n s u := ⟨g.flows.trans h.flows, fun k hk => (g.objs k hk).trans (h.objs k hk)⟩

theorem flow (h : AtLookup n s t) (fid : Nat) : t.flow fid = s.flow fid := by rw [State.flow, h.flows]; rfl

/-- An object of the flow engine (the family 0x3420). -/
theorem lane (h : AtLookup n s t) {i : Nat} (hn : n < 32) (hi : i < 256 := by decide) :
    t.obj ((0x3420 + n) * 256 + i) = s.obj ((0x3420 + n) * 256 + i) :=
  h.objs _ (by unfold frameCounter Obj.flCntPackets; omega)

/-- A counter of the flow engine behind PACKETS (the family 0x6080). -/
theorem counter (h : AtLookup n s t) {i : Nat} (hi : 2 ≤ i) : t.obj ((0x6080 + n) * 256 + i) = s.obj ((0x6080 + n) * 256 + i) :=
  h.objs _ (by unfold frameCounter Obj.flCntPackets; omega)

theorem hashSeed (h : AtLookup n s t) (hn : n < 32) : t.obj (Obj.flHashSeed n) = s.obj (Obj.flHashSeed n) := h.lane hn

theorem learnMode (h : AtLookup n s t) (hn : n < 32) : t.obj (Obj.flLearnMode n) = s.obj (Obj.flLearnMode n) := h.lane hn

theorem findFlow (h : AtLookup n s t) (b fp : Nat) : t.findFlow n b fp = s.findFlow n b fp := by
  simp only [State.findFlow, h.flow]

theorem learnSlot (h : AtLookup n s t) (hn : n < 32) (b : Nat) (x : Tick) : t.learnSlot n b x = s.learnSlot n b x := by
  have hflag : t.flag (Obj.flEvictSilent n) = s.flag (Obj.flEvictSilent n) := congrArg (· != 0) (h.lane hn)
  simp only [State.learnSlot, State.oldest, h.flow, hflag]

theorem learntEssence (h : AtLookup n s t) (hn : n < 32) (key payload : Bytes) : t.learntEssence n key payload = s.learntEssence n key payload := by
  have h20 : t.obj (Obj.flPt20 n) = s.obj (Obj.flPt20 n) := h.lane hn
  have h30 : t.obj (Obj.flPt30 n) = s.obj (Obj.flPt30 n) := h.lane hn
  have h40 : t.obj (Obj.flPt40 n) = s.obj (Obj.flPt40 n) := h.lane hn
  have hlo : t.obj (Obj.flRtpPortLo n) = s.obj (Obj.flRtpPortLo n) := h.lane hn
  have hhi : t.obj (Obj.flRtpPortHi n) = s.obj (Obj.flRtpPortHi n) := h.lane hn
  simp only [State.learntEssence, h20, h30, h40, hlo, hhi]

/-- An unclassified frame is counted with its reason and changes no context (R230). -/
theorem unclassified (h : AtLookup n s t) (hn : n < 32) {reason : Nat} (hr : reason < 8) (flags orig : Nat) (d : Bytes) (x now : Tick) :
    Counted s (t.unclassified n reason flags orig d x now) (Obj.flCntUnclassified n reason) 1
      ∧ (t.unclassified n reason flags orig d x now).flows = s.flows := by
  have hu := Stored.unclassified t hn reason flags orig d x now
  have hk : ¬ storeKey (Obj.flCntUnclassified n reason) := by simp only [storeKey, Obj.flCntUnclassified]; omega
  refine ⟨?_, hu.flows.trans h.flows⟩
  rw [Counted, hu.objs _ hk, State.obj_bump, if_pos rfl, Obj.flCntUnclassified, h.counter (Nat.le_add_right 2 reason)]

end AtLookup

/-- A context that has taken a packet whose essence is UDP (R239, R240). -/
def FlowCtx.arrived (c : FlowCtx) (t : Tick) : FlowCtx :=
  { c with silent := false, seen := true, packets := (c.packets + 1) % 65536, lastArr := t % 2 ^ 40 }

section
variable (s : State) (n flags orig : Nat) (key payload d : Bytes) (t now : Tick)

/-- A packet of a UDP context is counted, the context takes it, and the rest is storing. -/
theorem State.flowHit_udp_stored (fid : Nat) :
    ∃ m, Stored ((((s.bump (Obj.flCntClassified n) 1).setFlow fid ((s.flow fid).arrived t)).bump (Obj.flCntMisbound n) m))
      (s.flowHit n fid flags orig key d none t now) :=
  ⟨_, (Stored.refl _).flowEvents n fid _ key _ (fun _ => State.lt_of_mem_ownQueues) _ t now⟩

theorem State.flowHit_udp_flow (fid g : Nat) :
    (s.flowHit n fid flags orig key d none t now).flow g = if g = fid then (s.flow fid).arrived t else s.flow g := by
  obtain ⟨m, h⟩ := s.flowHit_udp_stored n flags orig key d t now fid
  calc (s.flowHit n fid flags orig key d none t now).flow g
      = (s.setFlow fid ((s.flow fid).arrived t)).flow g := by rw [State.flow, h.flows]; rfl
    _ = _ := State.flow_setFlow ..

/-- A counter of the lane from CLASSIFIED on, but MISBOUND and those that storing counts in. -/
theorem State.flowHit_udp_counter (hn : n < 32) (fid : Nat) {i : Nat} (hi : 2 ≤ i ∧ i < 0x0E) :
    (s.flowHit n fid flags orig key d none t now).obj ((0x6080 + n) * 256 + i)
      = (s.bump (Obj.flCntClassified n) 1).obj ((0x6080 + n) * 256 + i) := by
  obtain ⟨m, h⟩ := s.flowHit_udp_stored n flags orig key d t now fid
  have hk : ¬ storeKey ((0x6080 + n) * 256 + i) := by unfold storeKey; omega
  have hne : (0x6080 + n) * 256 + i ≠ Obj.flCntMisbound n := by unfold Obj.flCntMisbound; omega
  rw [h.objs _ hk, State.obj_bump, if_neg hne]
  rfl

theorem State.flowHit_udp_classified (hn : n < 32) (fid : Nat) :
    Counted s (s.flowHit n fid flags orig key d none t now) (Obj.flCntClassified n) 1 :=
  (s.flowHit_udp_counter n flags orig key d t now hn fid (by decide)).trans ((State.obj_bump ..).trans (if_pos rfl))

theorem State.flowHit_udp_learnt (hn : n < 32) (fid : Nat) :
    (s.flowHit n fid flags orig key d none t now).obj (Obj.flCntLearnt n) = s.obj (Obj.flCntLearnt n) :=
  (s.flowHit_udp_counter n flags orig key d t now hn fid (by decide)).trans
    (State.obj_setObj_ne s _ (by simp [Obj.flCntClassified]))

/-- The state in which a frame that is the first of its tick is looked at. -/
def State.admitFrame : State := (s.bump (Obj.flCntPackets n) 1).setFlLane n { s.flLane n with frameAt := some now }

/-- The state in which a key is looked up. -/
def State.useTable : State := s.setFlLane n { s.flLane n with usedAt := some now }

theorem State.admitFrame_atLookup : AtLookup n s (s.admitFrame n now) :=
  ⟨rfl, fun _ hk => State.obj_setObj_ne s _ (by rintro rfl; exact hk (.inr rfl))⟩

theorem State.useTable_atLookup : AtLookup n s (s.useTable n now) := ⟨rfl, fun _ _ => rfl⟩

/-- PACKETS is no object of the flow engine's set-up (the family 0x3420). -/
theorem State.bumpPackets_obj (i : Nat) (hi : i < 256 := by decide) :
    (s.bump (Obj.flCntPackets n) 1).obj ((0x3420 + n) * 256 + i) = s.obj ((0x3420 + n) * 256 + i) :=
  State.obj_setObj_ne s _ (by unfold Obj.flCntPackets; omega)

theorem State.bumpPackets_enable : (s.bump (Obj.flCntPackets n) 1).flag (Obj.flFlowEnable n) = s.flag (Obj.flFlowEnable n) :=
  congrArg (· != 0) (s.bumpPackets_obj n _)

theorem State.flowFrame_off (hoff : s.flag (Obj.flFlowEnable n) = false) : s.flowFrame n flags orig d t now = s.bump (Obj.flCntPackets n) 1 := by
  simp [State.flowFrame, State.bumpPackets_enable, hoff]

section
variable {s n flags now} (hon : s.flag (Obj.flFlowEnable n) = true)
include hon

theorem State.flowFrame_second (hsecond : (s.flLane n).frameAt = some now) :
    s.flowFrame n flags orig d t now = (s.admitFrame n now).unclassified n unRate flags orig d t now := by
  have hsecond' : ((s.bump (Obj.flCntPackets n) 1).flLane n).frameAt = some now := hsecond
  simp only [State.flowFrame, State.bumpPackets_enable, hon, hsecond', Bool.not_true, Bool.false_eq_true, if_false, decide_true, if_true]
  rfl

section
variable (hfirst : (s.flLane n).frameAt ≠ some now)
include hfirst

theorem State.flowFrame_bad (hbad : flags % 32 ≠ 0) :
    s.flowFrame n flags orig d t now = (s.admitFrame n now).unclassified n unBadFrame flags orig d t now := by
  have hfirst' : ((s.bump (Obj.flCntPackets n) 1).flLane n).frameAt ≠ some now := hfirst
  simp only [State.flowFrame, State.bumpPackets_enable, hon, hfirst', hbad, Bool.not_true, Bool.false_eq_true, if_false, decide_false, ne_eq,
    not_false_iff, if_true]
  rfl

theorem State.flowFrame_udp (hgood : flags % 32 = 0) (hparse : parseFrame (s.flag (Obj.flPtpEnable n)) d = .udp key payload) :
    s.flowFrame n flags orig d t now = (s.admitFrame n now).flowLookup n flags orig key payload d t now := by
  have hfirst' : ((s.bump (Obj.flCntPackets n) 1).flLane n).frameAt ≠ some now := hfirst
  have hptp (x : FlowLane) : parseFrame (((s.bump (Obj.flCntPackets n) 1).setFlLane n x).flag (Obj.flPtpEnable n)) d = .udp key payload :=
    (congrArg (fun v => parseFrame (v != 0) d) (s.bumpPackets_obj n _)).trans hparse
  simp only [State.flowFrame, State.bumpPackets_enable, hon, hfirst', hgood, hptp, Bool.not_true, Bool.false_eq_true, if_false, decide_false,
    ne_eq, not_true]
  rfl

end

end

/-! Lookup and learning (R226, R235, R236). -/

/-- The state in which a flow has been learnt in a context of essence UDP. -/
def State.learnUdp (fid fp : Nat) : State :=
  (s.bump (Obj.flCntLearnt n) 1).setFlow fid (freshFlow fp 0 (s.obj (Obj.flDefaultQueue n)) (s.obj (Obj.flDefaultTag n)))

section
variable {s n key} {b fp : Nat} (hhash : flowHash (s.obj (Obj.flHashSeed n)) key = (b, fp))
include hhash

theorem State.flowLookup_known {fid : Nat} (hfind : s.findFlow n b fp = some fid) (hess : (s.flow fid).essence = 0) :
    s.flowLookup n flags orig key payload d t now = (s.useTable n now).flowHit n fid flags orig key d none t now := by
  have hhash' : flowHash ((s.useTable n now).obj (Obj.flHashSeed n)) key = (b, fp) := hhash
  have hfind' : (s.useTable n now).findFlow n b fp = some fid := hfind
  have hess' : ((s.useTable n now).flow fid).essence = 0 := hess
  rw [State.useTable] at hhash' hfind' hess' ⊢
  simp only [State.flowLookup, hhash', hfind', hess', rtpLayer, if_true]

theorem State.flowLookup_unlearnt (hfind : s.findFlow n b fp = none) (hmode : s.obj (Obj.flLearnMode n) = 1) :
    s.flowLookup n flags orig key payload d t now = (s.useTable n now).unclassified n unNoMatch flags orig d t now := by
  have hhash' : flowHash ((s.useTable n now).obj (Obj.flHashSeed n)) key = (b, fp) := hhash
  have hfind' : (s.useTable n now).findFlow n b fp = none := hfind
  have hmode' : (s.useTable n now).obj (Obj.flLearnMode n) = 1 := hmode
  rw [State.useTable] at hhash' hfind' hmode' ⊢
  simp only [State.flowLookup, hhash', hfind', hmode', if_true]

theorem State.flowLookup_learnt {fid : Nat} (hfind : s.findFlow n b fp = none) (hmode : s.obj (Obj.flLearnMode n) ≠ 1)
    (hslot : s.learnSlot n b now = some (fid, false)) (hess : s.learntEssence n key payload = 0) :
    s.flowLookup n flags orig key payload d t now
      = ((s.useTable n now).learnUdp n fid fp).flowHit n fid flags orig key d none t now := by
  have hhash' : flowHash ((s.useTable n now).obj (Obj.flHashSeed n)) key = (b, fp) := hhash
  have hfind' : (s.useTable n now).findFlow n b fp = none := hfind
  have hmode' : (s.useTable n now).obj (Obj.flLearnMode n) ≠ 1 := hmode
  have hslot' : (s.useTable n now).learnSlot n b now = some (fid, false) := hslot
  have hess' : (s.useTable n now).learntEssence n key payload = 0 := hess
  rw [State.useTable] at hhash' hfind' hmode' hslot' hess' ⊢
  simp only [State.flowLookup, hhash', hfind', hmode', hslot', hess', rtpLayer, if_true, if_false, Bool.false_eq_true]
  rfl

end

end

end Sys2Proof.Machine
namespace Sys2Proof.Machine

/-! ETH_FRAME (R205, R222 to R236, R255): what the lookup of a UDP frame shows. -/

namespace AtLookup
variable {s a : State} {n : Nat} (ha : AtLookup n s a) (hn : n < 32) (flags orig : Nat) {key : Bytes} (payload d : Bytes) (t : Tick) {now : Tick}
  {b fp : Nat} (hhash : flowHash (s.obj (Obj.flHashSeed n)) key = (b, fp))
include ha hn hhash

/-- A frame of a known UDP flow counts in its context and wakes it (R226, R239). -/
theorem flowLookup_known {fid : Nat} (hfind : s.findFlow n b fp = some fid) (hess : (s.flow fid).essence = 0) :
    let u := a.flowLookup n flags orig key payload d t now
    Counted s u (Obj.flCntClassified n) 1 ∧ (u.flow fid).packets = ((s.flow fid).packets + 1) % 65536 ∧ (u.flow fid).lastArr = t % 2 ^ 40
      ∧ (u.flow fid).silent = false ∧ ∀ g, g ≠ fid → u.flow g = s.flow g := by
  have hu := ha.trans (a.useTable_atLookup n now)
  have hcount : (a.useTable n now).obj (Obj.flCntClassified n) = s.obj (Obj.flCntClassified n) := hu.counter (by decide)
  rw [← ha.hashSeed hn] at hhash
  rw [← ha.findFlow] at hfind
  rw [← ha.flow] at hess
  rw [State.flowLookup_known flags orig payload d t now hhash hfind hess]
  have hctx := State.flowHit_udp_flow (a.useTable n now) n flags orig key d t now fid
  have hself : ((a.useTable n now).flowHit n fid flags orig key d none t now).flow fid = (s.flow fid).arrived t := by
    rw [hctx, if_pos rfl, hu.flow]
  refine ⟨(State.flowHit_udp_classified _ _ _ _ _ _ _ _ hn _).trans (by rw [hcount]), ?_, ?_, ?_, fun g hg => ?_⟩
  · exact congrArg FlowCtx.packets hself
  · exact congrArg FlowCtx.lastArr hself
  · exact congrArg FlowCtx.silent hself
  · rw [hctx, if_neg hg, hu.flow]

/-- A frame of an unknown flow makes a context, where learning is on and a way is free (R226, R235, R236). -/
theorem flowLookup_learnt {fid : Nat} (hfind : s.findFlow n b fp = none) (hmode : s.obj (Obj.flLearnMode n) ≠ 1)
    (hslot : s.learnSlot n b now = some (fid, false)) (hess : s.learntEssence n key payload = 0) :
    let u := a.flowLookup n flags orig key payload d t now
    Counted s u (Obj.flCntLearnt n) 1 ∧ (u.flow fid).valid = true ∧ (u.flow fid).fp = fp ∧ (u.flow fid).installed = false
      ∧ (u.flow fid).packets = 1 ∧ ∀ g, g ≠ fid → u.flow g = s.flow g := by
  have hu := ha.trans (a.useTable_atLookup n now)
  have hcount : (a.useTable n now).obj (Obj.flCntLearnt n) = s.obj (Obj.flCntLearnt n) := hu.counter (by decide)
  rw [← ha.hashSeed hn] at hhash
  rw [← ha.findFlow] at hfind
  rw [← ha.learnMode hn] at hmode
  rw [← ha.learnSlot hn] at hslot
  rw [← ha.learntEssence hn] at hess
  rw [State.flowLookup_learnt flags orig payload d t now hhash hfind hmode hslot hess]
  have hlearn (g : Nat) : ((a.useTable n now).learnUdp n fid fp).flow g = if g = fid then
      freshFlow fp 0 (a.obj (Obj.flDefaultQueue n)) (a.obj (Obj.flDefaultTag n)) else (a.useTable n now).flow g := State.flow_setFlow ..
  have hctx := State.flowHit_udp_flow ((a.useTable n now).learnUdp n fid fp) n flags orig key d t now fid
  have hself := (hctx fid).trans ((if_pos rfl).trans (congrArg (·.arrived t) ((hlearn fid).trans (if_pos rfl))))
  refine ⟨?_, ?_, ?_, ?_, ?_, fun g hg => ?_⟩
  · rw [Counted, State.flowHit_udp_learnt _ _ _ _ _ _ _ _ hn, State.learnUdp, State.setFlow_obj, State.obj_bump, if_pos rfl, hcount]
  · exact congrArg FlowCtx.valid hself
  · exact congrArg FlowCtx.fp hself
  · exact congrArg FlowCtx.installed hself
  · exact congrArg FlowCtx.packets hself
  · rw [hctx, if_neg hg, hlearn, if_neg hg, hu.flow]

/-- With learning off a frame of an unknown flow is UNCLASSIFIED (R226). -/
theorem flowLookup_unlearnt (hfind : s.findFlow n b fp = none) (hmode : s.obj (Obj.flLearnMode n) = 1) :
    let u := a.flowLookup n flags orig key payload d t now
    Counted s u (Obj.flCntUnclassified n 5) 1 ∧ u.flows = s.flows := by
  have hu := ha.trans (a.useTable_atLookup n now)
  rw [← ha.hashSeed hn] at hhash
  rw [← ha.findFlow] at hfind
  rw [← ha.learnMode hn] at hmode
  rw [State.flowLookup_unlearnt flags orig payload d t now hhash hfind hmode]
  exact hu.unclassified hn (by decide) ..

end AtLookup

/-! SCANNER_VISIT (R244, R248, R253, R255). -/

/-- What a flush leaves of a context: a learnt one goes (R253). -/
def FlowCtx.flushed (c : FlowCtx) : FlowCtx := if (c.valid && !c.installed) = true then { c with valid := false } else c

theorem FlowCtx.flushed_flushed (c : FlowCtx) : c.flushed.flushed = c.flushed := by
  unfold FlowCtx.flushed
  by_cases h : (c.valid && !c.installed) = true <;> simp [h]

theorem FlowCtx.flushed_valid {c : FlowCtx} (hvalid : c.valid = true) (hlearnt : c.installed = false) : c.flushed.valid = false := by
  simp [FlowCtx.flushed, hvalid, hlearnt]

/-- A flush at one context. -/
def State.flush (s : State) (f : Nat) : State :=
  if ((s.flow f).valid && !(s.flow f).installed) = true then s.setFlow f { s.flow f with valid := false } else s

/-- The bucket as the scanner leaves it where a flush runs (R253). -/
def State.flushBucket (s : State) (n b : Nat) : State :=
  if (s.flLane n).flushes.any (0 < ·) = true then (bucketFids n b).foldl State.flush s else s

/-- A flow becomes SILENT, if one does (R244). -/
def State.silence (s : State) : Option Nat → State
  | none => s
  | some f => s.setFlow f { s.flow f with silent := true }

/-- The flow of a bucket that a visit finds still for its stop time (R244, R248). -/
def State.stopped (s : State) (n b : Nat) (now : Tick) : Option Nat := (bucketFids n b).find? (s.stopsAt n now)

section
variable (s : State) (n b : Nat)

theorem State.flush_flow (f g : Nat) : (s.flush f).flow g = if g = f then (s.flow g).flushed else s.flow g := by
  unfold State.flush
  split
  · next h =>
    rw [State.flow_setFlow]
    split
    · next hg => rw [hg, FlowCtx.flushed, if_pos h]
    · rfl
  · next h =>
    split
    · next hg => rw [hg, FlowCtx.flushed, if_neg h]
    · rfl

theorem State.foldl_flush_flow (l : List Nat) (g : Nat) : (l.foldl State.flush s).flow g = if g ∈ l then (s.flow g).flushed else s.flow g := by
  induction l generalizing s with
  | nil => simp
  | cons f l ih =>
    rw [List.foldl_cons, ih, State.flush_flow]
    by_cases hg : g = f <;> simp [hg, FlowCtx.flushed_flushed]

theorem State.flushBucket_idle (h : (s.flLane n).flushes.any (0 < ·) = false) : s.flushBucket n b = s := by
  rw [State.flushBucket, h]
  rfl

theorem State.flushBucket_flow (h : (s.flLane n).flushes.any (0 < ·) = true) (g : Nat) :
    (s.flushBucket n b).flow g = if g ∈ bucketFids n b then (s.flow g).flushed else s.flow g := by
  rw [State.flushBucket, if_pos h, State.foldl_flush_flow]

theorem State.flushBucket_others {g : Nat} (hg : g ∉ bucketFids n b) : (s.flushBucket n b).flow g = s.flow g := by
  cases h : (s.flLane n).flushes.any (0 < ·) with
  | true => rw [s.flushBucket_flow n b h, if_neg hg]
  | false => rw [s.flushBucket_idle n b h]

theorem State.silence_flow (o : Option Nat) (g : Nat) :
    (s.silence o).flow g = if o = some g then { s.flow g with silent := true } else s.flow g := by
  cases o with
  | none => rfl
  | some f =>
    rw [State.silence, State.flow_setFlow]
    by_cases hg : g = f
    · simp [hg]
    · simp [hg, Ne.symm hg]

variable {s n b} in
theorem State.mem_of_stopped {now : Tick} {f : Nat} (h : s.stopped n b now = some f) : f ∈ bucketFids n b ∧ (s.flow f).valid = true := by
  have hs := List.find?_some h
  simp only [State.stopsAt, Bool.and_eq_true] at hs
  obtain ⟨⟨⟨hvalid, -⟩, -⟩, -⟩ := hs
  exact ⟨List.mem_of_find?_eq_some h, hvalid⟩

/-- A visit flushes the bucket and makes at most one flow silent; what else it does is storing (R244, R248). -/
theorem State.visitBucket_stored (now : Tick) :
    Stored ((s.flushBucket n b).silence ((s.flushBucket n b).stopped n b now)) (s.visitBucket n b now) := by
  unfold State.visitBucket
  dsimp only
  split
  · next h =>
    have hnone : (s.flushBucket n b).stopped n b now = none := h
    rw [hnone]
    exact Stored.refl _
  · next f h =>
    have hsome : (s.flushBucket n b).stopped n b now = some f := h
    rw [hsome]
    exact (Stored.refl _).flowEvents n f _ _ _ (by simp) _ now now

/-- A lane's next bucket has been visited, and FLOWHEALTH has its copy. -/
def State.visited : State := (s.visitBucket n (s.flLane n).bucket s.tick).tapBucket n (s.flLane n).bucket

theorem State.tapBucket_rest : ∃ h, s.tapBucket n b = { s with health := h } := by
  unfold State.tapBucket
  split
  · exact ⟨s.health, rfl⟩
  · exact ⟨_, rfl⟩

theorem State.visited_tick : (s.visited n).tick = s.tick :=
  (State.tapBucket_kept (State.visitBucket_kept (Kept.refl s) ..) ..).tick

theorem State.visited_flow (g : Nat) : (s.visited n).flow g
    = if (s.flushBucket n (s.flLane n).bucket).stopped n (s.flLane n).bucket s.tick = some g
      then { (s.flushBucket n (s.flLane n).bucket).flow g with silent := true } else (s.flushBucket n (s.flLane n).bucket).flow g := by
  obtain ⟨_, htap⟩ := (s.visitBucket n (s.flLane n).bucket s.tick).tapBucket_rest n (s.flLane n).bucket
  rw [← State.silence_flow, State.flow, State.flow, ← (s.visitBucket_stored n (s.flLane n).bucket s.tick).flows, State.visited, htap]

theorem State.takeVisit_due (hlane : s.hasLane n = true) (hrun : s.running = true) (hused : (s.flLane n).usedAt ≠ some s.tick)
    (htable : (s.flLane n).tableAt ≠ some s.tick) (hvisit : (s.flLane n).visitAt ≠ some s.tick) :
    s.takeVisit n = (s.visited n).setFlLane n (if (bucketFids n (s.flLane n).bucket).any ((s.visited n).stopsAt n s.tick) = true
      then { s.flLane n with visitAt := some s.tick }
      else { s.flLane n with bucket := ((s.flLane n).bucket + 1) % 4096, visitAt := some s.tick, flushes := (s.flLane n).flushes.map (· - 1) }) := by
  have htick : ((s.visitBucket n (s.flLane n).bucket s.tick).tapBucket n (s.flLane n).bucket).tick = s.tick := s.visited_tick n
  unfold State.takeVisit
  rw [if_neg (by simp [hlane, hrun, hused, htable, hvisit])]
  simp only [State.visited, htick]
  exact (apply_ite ..).symm

end

end Sys2Proof.Machine
namespace Sys2Proof.Machine

/-! ETH_FRAME as a whole (R205, R222 to R236, R255). -/

/-- ETH_FRAME of a decoder with a frame ready: the frame is of the next tick, or the flow engine takes it (R255). -/
theorem execEthFrame_ready {s : State} {n : Nat} (hrun : s.running = true) (hready : (s.dec n).ready ≠ []) :
    execEthFrame n s = if (s.belongsLater (Parked.frameOf n) || (s.flLane n).visitAt == some s.tick) = true then .next (s.postpone (.frame n))
      else .next (s.takeFrame n) := by
  rw [execEthFrame, if_neg (by simp [hrun, hready])]

section
variable {s r : State} {n : Nat} {f : Frame} {rest : List (Tick × Frame)} (hn : n < 32) (hr : ErrorsNoted n (s.countFrame n f rest) r)
include hr

theorem ErrorsNoted.reached : (r.dec n).ready = rest ∧ r.flows = s.flows ∧ r.flowLanes = s.flowLanes ∧ r.queues = s.queues := by
  obtain ⟨hready, hflows, hlanes, hqueues⟩ := s.countFrame_rest (n := n) (f := f) (rest := rest)
  exact ⟨hr.ready.trans hready, hr.flows.trans hflows, hr.flowLanes.trans hlanes, hr.queues.trans hqueues⟩

theorem ErrorsNoted.reached_ethFrames : Counted s r (Obj.decCntEthFrames n) 1 :=
  (hr.objs _ (by simp [Obj.decCntEthFrames, Obj.decCntCodeErrors, Obj.decCntRunts, Obj.decCntTruncated])).trans State.countFrame_ethFrames

theorem ErrorsNoted.reached_fcsErr (h : bit (frameFlags f.limit f) 0 = true) : Counted s r (Obj.decCntFcsErr n) 1 :=
  (hr.objs _ (by simp [Obj.decCntFcsErr, Obj.decCntCodeErrors, Obj.decCntRunts, Obj.decCntTruncated])).trans (State.countFrame_fcsErr h)

include hn

/-- No counter of the decoder is one of the other objects. -/
theorem ErrorsNoted.reached_obj {k : Nat} (hk : k / 256 < 0x6060 ∨ 0x6080 ≤ k / 256) : r.obj k = s.obj k := by
  have hother {i : Nat} (hi : i < 256) : k ≠ (0x6060 + n) * 256 + i := by omega
  refine (hr.objs k ?_).trans (State.countFrame_obj ?_)
  · simp only [List.mem_cons, List.not_mem_nil, or_false, not_or]
    exact ⟨hother (by decide), hother (by decide), hother (by decide)⟩
  · simp only [List.mem_cons, List.not_mem_nil, or_false, not_or]
    exact ⟨hother (by decide), hother (by decide)⟩

theorem ErrorsNoted.reached_atLookup : AtLookup n s r := by
  obtain ⟨-, hflows, -⟩ := hr.reached
  exact ⟨hflows, fun k hk => hr.reached_obj hn (by unfold frameCounter at hk; omega)⟩

/-- The decoder after its frame has been through the flow engine, and what has counted the frame. -/
theorem ErrorsNoted.flowFrame_counts (flags orig : Nat) (d : Bytes) (x now : Tick) :
    let t := r.flowFrame n flags orig d x now
    Counted s t (Obj.decCntEthFrames n) 1 ∧ Counted s t (Obj.flCntPackets n) 1 ∧ (t.dec n).ready = rest
      ∧ (bit (frameFlags f.limit f) 0 = true → Counted s t (Obj.decCntFcsErr n) 1) := by
  have h := PastDecoder.flowFrame hn r flags orig d x now
  obtain ⟨hready, -⟩ := hr.reached
  have hdec {i : Nat} (hi : i < 256) : (r.flowFrame n flags orig d x now).obj ((0x6060 + n) * 256 + i) = r.obj ((0x6060 + n) * 256 + i) :=
    (h.counts _ (frameCounter_dec hn hi)).trans (State.obj_setObj_ne r _ (by unfold Obj.flCntPackets; omega))
  refine ⟨(hdec (by decide)).trans hr.reached_ethFrames, ?_, ?_, fun hfcs => (hdec (by decide)).trans (hr.reached_fcsErr hfcs)⟩
  · have hpackets : r.obj (Obj.flCntPackets n) = s.obj (Obj.flCntPackets n) := hr.reached_obj hn (by unfold Obj.flCntPackets; omega)
    rw [Counted, h.counts _ (.inr rfl), State.obj_bump, if_pos rfl, hpackets]
  · rw [State.dec, h.decs]
    exact hready

end

end Sys2Proof.Machine
namespace Sys2Proof.Machine

/-- What the scanner's visit leaves of the contexts (R244, R248, R253). -/
theorem State.visited_contexts (s : State) (n : Nat) :
    let fids := bucketFids n (s.flLane n).bucket
    let flushing := (s.flLane n).flushes.any (0 < ·)
    (∀ f, f ∉ fids → (s.visited n).flow f = s.flow f)
    ∧ (flushing = true → ∀ f ∈ fids, (s.flow f).valid = true → (s.flow f).installed = false → ((s.visited n).flow f).valid = false)
    ∧ (flushing = false → ∀ f ∈ fids, (s.visited n).flow f
        = if fids.find? (s.stopsAt n s.tick) = some f then { s.flow f with silent := true } else s.flow f) := by
  refine ⟨fun f hf => ?_, fun hflush f hf hvalid hlearnt => ?_, fun hidle f _ => ?_⟩
  · rw [s.visited_flow n, if_neg (fun h => hf (State.mem_of_stopped h).1), s.flushBucket_others _ _ hf]
  · have hgone : ((s.flushBucket n (s.flLane n).bucket).flow f).valid = false := by
      rw [s.flushBucket_flow _ _ hflush, if_pos hf, FlowCtx.flushed_valid hvalid hlearnt]
    rw [s.visited_flow n, if_neg fun h => ?_, hgone]
    exact absurd ((State.mem_of_stopped h).2.symm.trans hgone) nofun
  · rw [s.visited_flow n, s.flushBucket_idle n _ hidle]
    rfl

/-- Settles O30: a frame reaches the flow engine through `takeFrame_reaches`, each outcome there is one equation of `flowFrame` and `flowLookup`; a
visit is `takeVisit_due` with `visited_contexts`. -/
theorem framesAreClassifiedAndBucketsVisited : Obligations.FramesAreClassifiedAndBucketsVisited := by
  unfold Obligations.FramesAreClassifiedAndBucketsVisited
  refine ⟨fun s n f built rest hn hrun _ hready => ?_, fun s n _ hlane hlater => ?_, fun s n _ hlane hrun hlater hused htable hvisit => ?_⟩
  · have hexec : exec (.ethFrame n) s = _ := execEthFrame_ready hrun (by simp [hready])
    refine ⟨fun hwait => hexec.trans (if_pos (by simpa using hwait)), fun hlater hvisit => ?_⟩
    obtain ⟨r, hr, htake⟩ := State.takeFrame_reaches hready
    obtain ⟨hethFrames, hpackets, hrest, hfcs⟩ :=
      hr.flowFrame_counts hn (frameFlags f.limit f) f.data.length (f.data.take f.limit) f.time s.tick
    obtain ⟨-, hflows, hlanes, hqueues⟩ := hr.reached
    have hat := hr.reached_atLookup hn
    have hon' : r.flag (Obj.flFlowEnable n) = s.flag (Obj.flFlowEnable n) := congrArg (· != 0) (hat.lane hn)
    have hptp : r.flag (Obj.flPtpEnable n) = s.flag (Obj.flPtpEnable n) := congrArg (· != 0) (hat.lane hn)
    have hflLane : r.flLane n = s.flLane n := by rw [State.flLane, hlanes]; rfl
    have hadmit := hat.trans (r.admitFrame_atLookup n s.tick)
    intro flags on first
    refine ⟨_, hexec.trans (if_neg (by simp [hlater, hvisit])), (State.takeFrame_kept (Kept.refl s) n).tick, ?_⟩
    rw [htake]
    refine ⟨hethFrames, hpackets, hrest, hfcs, fun hoff => ?_, fun hon hfirst hbad => ?_, fun hon hsecond => ?_,
      fun key payload hon hfirst hgood hparse => ?_⟩
    · rw [State.flowFrame_off (hoff := hon'.trans hoff)]
      exact ⟨hflows, hlanes, fun _ => hqueues⟩
    · rw [State.flowFrame_bad (hon := hon'.trans hon) (hfirst := hflLane ▸ hfirst) (hbad := hbad)]
      exact hadmit.unclassified hn (by decide) ..
    · rw [State.flowFrame_second (hon := hon'.trans hon) (hsecond := hflLane ▸ not_not.mp hsecond)]
      exact hadmit.unclassified hn (by decide) ..
    · rw [State.flowFrame_udp (hon := hon'.trans hon) (hfirst := hflLane ▸ hfirst) (hgood := hgood) (hparse := hptp ▸ hparse)]
      have hhash : flowHash (s.obj (Obj.flHashSeed n)) key = ((flowHash (s.obj (Obj.flHashSeed n)) key).1, _) := rfl
      exact ⟨fun _ => hadmit.flowLookup_known hn _ _ _ _ _ hhash, fun _ => hadmit.flowLookup_learnt hn _ _ _ _ _ hhash,
        hadmit.flowLookup_unlearnt hn _ _ _ _ _ hhash⟩
  · change execScannerVisit n s = _
    rw [execScannerVisit, if_pos hlater, if_pos hlane]
    rfl
  · have hexec : exec (.scannerVisit n) s = .next (s.takeVisit n) := by
      change execScannerVisit n s = _
      rw [execScannerVisit, if_neg (by simp [hlater])]
    obtain ⟨hothers, hflush, hidle⟩ := s.visited_contexts n
    have htick := s.visited_tick n
    rw [s.takeVisit_due n hlane hrun hused htable hvisit] at hexec
    generalize s.visited n = v at hexec htick hothers hflush hidle
    exact ⟨_, hexec, htick, hothers, State.flLane_setFlLane_self .., hflush, hidle⟩

end Sys2Proof.Machine

namespace Sys2Proof.Machine

/-! The table window (R252 to R254): what a TABLE_CMD asks for, where it acts, and what it leaves in the context there. -/

/-- The bucket and the fingerprint of a command's key (R234). -/
def State.keyHash (s : State) (x : TableCmd) : Nat × Nat := flowHash (s.obj (Obj.flHashSeed x.lane)) x.key

/-- The context that a command's key has. -/
def State.keyedFlow (s : State) (x : TableCmd) : Option Nat := s.findFlow x.lane (s.keyHash x).1 (s.keyHash x).2

/-- The context that a command's INDEX names, or its key where INDEX asks for that. -/
def State.namedFlow (s : State) (x : TableCmd) : Option Nat :=
  if x.index = 0xFFFF then s.keyedFlow x else if (s.flow (8192 * x.lane + x.index)).valid = true then some (8192 * x.lane + x.index) else none

/-- The free way of a command's bucket, if there is one. -/
def State.freeWay (s : State) (x : TableCmd) : Option Nat := (bucketFids x.lane (s.keyHash x).1).find? (fun f => !(s.flow f).valid)

/-- The learnt way of a command's bucket that an INSTALL displaces. -/
def State.learntWay (s : State) (x : TableCmd) (t : Tick) : Option Nat :=
  s.oldest t ((bucketFids x.lane (s.keyHash x).1).filter (fun f => !(s.flow f).installed))

/-- The context that a command of the table acts on, where there is one (R253). -/
def State.tableTarget (s : State) (x : TableCmd) (t : Tick) : Option Nat :=
  if x.op = 1 then s.keyedFlow x
  else if x.op = 2 then (if s.keyedFlow x = none then (s.freeWay x).orElse (fun _ => s.learntWay x t) else none)
  else if x.op = 5 then some (8192 * x.lane + x.index) else s.namedFlow x

/-- A context whose VALID is cleared. -/
def FlowCtx.removed (c : FlowCtx) : FlowCtx := { c with valid := false, sig := none, row := none, samples := [] }

/-- A context whose statistics are zero. -/
def FlowCtx.cleared (c : FlowCtx) : FlowCtx := { c with jitter := 0, lost := 0, reordered := 0, late := 0, packets := 0 }

/-- What a command of the table leaves in the context it acts on (R253). -/
def State.tableContext (s : State) (x : TableCmd) (f : Nat) : FlowCtx :=
  if x.op = 2 then (freshFlow (s.keyHash x).2 x.essence x.queue x.tag).given x else if x.op = 3 then (s.flow f).given x
  else if x.op = 4 then (s.flow f).removed else if x.op = 6 then (s.flow f).cleared else s.flow f

/-- From a state to another one context has taken a value: the others, the lanes of the flow engine and the queues are as they were. -/
structure Recontext (f : Nat) (c : FlowCtx) (s t : State) : Prop where
  flow : t.flow f = c
  others : ∀ g, g ≠ f → t.flow g = s.flow g
  flowLanes : t.flowLanes = s.flowLanes
  queues : t.queues = s.queues

theorem Recontext.flLane {f : Nat} {c : FlowCtx} {s t : State} (h : Recontext f c s t) (n : Nat) : t.flLane n = s.flLane n := by
  rw [State.flLane, h.flowLanes]
  rfl

theorem Recontext.same (s : State) (f : Nat) : Recontext f (s.flow f) s s := ⟨rfl, fun _ _ => rfl, rfl, rfl⟩

theorem Recontext.setFlow (s : State) (f : Nat) (c : FlowCtx) : Recontext f c s (s.setFlow f c) :=
  ⟨s.flow_setFlow_self f c, fun g hg => (s.flow_setFlow f c g).trans (if_neg hg), rfl, rfl⟩

/-- A counter moves beside the context. -/
theorem Recontext.bump_setFlow (s : State) (k : Key) (n f : Nat) (c : FlowCtx) : Recontext f c s ((s.bump k n).setFlow f c) :=
  let h := Recontext.setFlow (s.bump k n) f c
  ⟨h.flow, h.others, h.flowLanes, h.queues⟩

/-! The operations (R253), one by one. -/

section
variable {s : State} {x : TableCmd} {t : Tick} {f : Nat}

theorem State.tableOp_lookup (hop : x.op = 1) (h : s.keyedFlow x = some f) : s.tableOp x t = (0, some f, s) := by
  unfold State.keyedFlow State.keyHash at h
  simp [State.tableOp, hop, h]

theorem State.tableOp_lookup_missed (hop : x.op = 1) (h : s.keyedFlow x = none) : s.tableOp x t = (1, none, s) := by
  unfold State.keyedFlow State.keyHash at h
  simp [State.tableOp, hop, h]

/-- INSTALL of a key that has no context takes a free way, or counts an eviction and takes a learnt one. -/
theorem State.tableOp_install (hop : x.op = 2) (hnew : s.keyedFlow x = none) (hway : (s.freeWay x).orElse (fun _ => s.learntWay x t) = some f)
    (hsig : x.sigEn = true → s.sigSlotFree x.lane = true) :
    s.tableOp x t = (0, some f, (if (s.freeWay x).isNone = true then s.bump (Obj.flCntEvicted x.lane) 1 else s).setFlow f
      ((freshFlow (s.keyHash x).2 x.essence x.queue x.tag).given x)) := by
  have hfull : (x.sigEn && !s.sigSlotFree x.lane) = false := by
    cases h : x.sigEn
    · rfl
    · simp [hsig h]
  unfold State.keyedFlow at hnew
  unfold State.freeWay State.learntWay at hway
  unfold State.freeWay
  unfold State.keyHash at *
  unfold State.tableOp
  simp only [hop, hnew]
  cases hfree : (bucketFids x.lane (flowHash (s.obj (Obj.flHashSeed x.lane)) x.key).1).find? (fun f => !(s.flow f).valid) with
  | some g =>
    rw [hfree] at hway
    obtain rfl : g = f := Option.some.inj hway
    simp [hfull]
  | none =>
    rw [hfree] at hway
    have hlearnt : s.oldest t _ = some f := hway
    simp [hfull, hlearnt]

theorem State.tableOp_update (hop : x.op = 3) (h : s.namedFlow x = some f)
    (hsig : (s.flow f).sigEn = false → x.sigEn = true → s.sigSlotFree x.lane = true) :
    s.tableOp x t = (0, some f, s.setFlow f ((s.flow f).given x)) := by
  have hfull : (x.sigEn && !(s.flow f).sigEn && !s.sigSlotFree x.lane) = false := by
    cases hnew : x.sigEn <;> cases hold : (s.flow f).sigEn
    case true.false => simp [hsig hold hnew]
    all_goals rfl
  unfold State.namedFlow State.keyedFlow State.keyHash at h
  simp [State.tableOp, hop, h, hfull]

theorem State.tableOp_remove (hop : x.op = 4) (h : s.namedFlow x = some f) : s.tableOp x t = (0, some f, s.setFlow f (s.flow f).removed) := by
  unfold State.namedFlow State.keyedFlow State.keyHash at h
  simp [State.tableOp, hop, h, FlowCtx.removed]

theorem State.tableOp_read (hop : x.op = 5) : s.tableOp x t = (0, some (8192 * x.lane + x.index), s) := by
  simp [State.tableOp, hop]

theorem State.tableOp_clearStats (hop : x.op = 6) (h : s.namedFlow x = some f) : s.tableOp x t = (0, some f, s.setFlow f (s.flow f).cleared) := by
  unfold State.namedFlow State.keyedFlow State.keyHash at h
  simp [State.tableOp, hop, h, FlowCtx.cleared]

theorem State.tableOp_named_missed (hop : x.op = 3 ∨ x.op = 4 ∨ x.op = 6) (h : s.namedFlow x = none) : s.tableOp x t = (1, none, s) := by
  unfold State.namedFlow State.keyedFlow State.keyHash at h
  rcases hop with hop | hop | hop <;> simp [State.tableOp, hop, h]

/-- A command with a context to act on is DONE there, and changes that context alone. -/
theorem State.tableOp_done (hop : 1 ≤ x.op ∧ x.op ≤ 6) (h : s.tableTarget x t = some f)
    (hsig : x.op = 2 ∨ (x.op = 3 ∧ (s.flow f).sigEn = false) → x.sigEn = true → s.sigSlotFree x.lane = true) :
    ∃ u, s.tableOp x t = (0, some f, u) ∧ Recontext f (s.tableContext x f) s u := by
  unfold State.tableTarget at h
  unfold State.tableContext
  obtain hop | hop | hop | hop | hop | hop : x.op = 1 ∨ x.op = 2 ∨ x.op = 3 ∨ x.op = 4 ∨ x.op = 5 ∨ x.op = 6 := by omega
  all_goals simp only [hop, Nat.reduceEqDiff, if_true, if_false] at h ⊢
  · exact ⟨s, s.tableOp_lookup hop h, .same s f⟩
  · split at h
    · next hnew =>
      refine ⟨_, State.tableOp_install hop hnew h (hsig (.inl hop)), ?_⟩
      split
      · exact .bump_setFlow ..
      · exact .setFlow ..
    · cases h
  · exact ⟨_, State.tableOp_update hop h (fun hold => hsig (.inr ⟨hop, hold⟩)), .setFlow ..⟩
  · exact ⟨_, State.tableOp_remove hop h, .setFlow ..⟩
  · cases h
    exact ⟨s, State.tableOp_read hop, .same ..⟩
  · exact ⟨_, State.tableOp_clearStats hop h, .setFlow ..⟩

/-- A command but INSTALL with no context to act on is NOT_FOUND and changes nothing. -/
theorem State.tableOp_missed (hop : 1 ≤ x.op ∧ x.op ≤ 6) (hinstall : x.op ≠ 2) (h : s.tableTarget x t = none) :
    s.tableOp x t = (1, none, s) := by
  unfold State.tableTarget at h
  obtain hop | hop | hop | hop | hop | hop : x.op = 1 ∨ x.op = 2 ∨ x.op = 3 ∨ x.op = 4 ∨ x.op = 5 ∨ x.op = 6 := by omega
  all_goals simp only [hop, Nat.reduceEqDiff, if_true, if_false] at h
  · exact State.tableOp_lookup_missed hop h
  · exact absurd hop hinstall
  · exact State.tableOp_named_missed (.inl hop) h
  · exact State.tableOp_named_missed (.inr (.inl hop)) h
  · cases h
  · exact State.tableOp_named_missed (.inr (.inr hop)) h

end

/-! The write of TABLE_CMD. -/

/-- The state in which a TABLE_CMD acts: its lane's table is in use by it. -/
def State.atTable (s : State) (n : Nat) (t : Tick) : State := s.setFlLane n { s.flLane n with tableAt := some t }

theorem State.atTable_flLane (s : State) (n : Nat) (t : Tick) (m : Nat) :
    (s.atTable n t).flLane m = if m = n then { s.flLane n with tableAt := some t } else s.flLane m := s.flLane_setFlLane ..

/-- A lane whose FLUSH_LEARNT has been taken: one more pass of 4,096 visits to wait for. -/
def FlowLane.flushAsked (x : FlowLane) (t : Tick) : FlowLane := { x with tableAt := some t, flushes := x.flushes ++ [4096] }

/-- FLUSH_LEARNT changes no context and no other lane (R253). -/
theorem State.tableOp_flush {s : State} {x : TableCmd} {t : Tick} (hop : x.op = 7) :
    ∃ u, (s.atTable x.lane t).tableOp x t = (0, none, u) ∧ u.flows = s.flows ∧ (u.flLane x.lane).flushes = (s.flLane x.lane).flushes ++ [4096]
      ∧ (u.flLane x.lane).tableAt = some t ∧ ∀ m, m ≠ x.lane → u.flLane m = s.flLane m := by
  have hself : ((s.atTable x.lane t).setFlLane x.lane ((s.flLane x.lane).flushAsked t)).flLane x.lane = (s.flLane x.lane).flushAsked t :=
    State.flLane_setFlLane_self ..
  refine ⟨(s.atTable x.lane t).setFlLane x.lane ((s.flLane x.lane).flushAsked t), ?_, rfl, congrArg FlowLane.flushes hself,
    congrArg FlowLane.tableAt hself, fun m hm => ?_⟩
  · simp [State.tableOp, hop, State.atTable_flLane, FlowLane.flushAsked]
  · rw [State.flLane_setFlLane, if_neg hm, State.atTable_flLane, if_neg hm]

theorem tableFields_op {b : Bytes} {x : TableCmd} {rep : List RepEntry} (h : tableFields b = some (x, rep)) : x.op = fieldAt b 0 1 := by
  unfold tableFields at h
  dsimp only at h
  split at h
  · cases h
  · cases h
    rfl

section
variable {s u : State} {port : Nat} {b : Bytes} {x : TableCmd} {t : Tick} (hx : tableFields b = some (x, [])) (hlane : s.hasLane x.lane = true)
include hx hlane

/-- A command that is DONE shows the context it acted on (R254). -/
theorem State.tableCmd_done {f : Nat} (hop : x.op ≠ 0) (hflush : x.op ≠ 7) (h : (s.atTable x.lane t).tableOp x t = (0, some f, u)) :
    s.tableCmd port b t = (u.setDom (Obj.tableTableResult port) (tableResult 0 x.lane (f % 8192) f (u.flow f).bytes),
      okOut Obj.tableTableCmd (.byt b), none) := by
  unfold State.atTable at h
  simp [State.tableCmd, hx, hlane, hop, hflush, h, clampedOut, okOut]

/-- A command that is NOT_FOUND shows so, and is refused. -/
theorem State.tableCmd_missed (hop : x.op ≠ 0) (h : (s.atTable x.lane t).tableOp x t = (1, none, u)) :
    ∃ index fid ctx, s.tableCmd port b t
      = (u.fresh.2.setDom (Obj.tableTableResult port) (tableResult 1 x.lane index fid ctx), rejOut Obj.tableTableCmd, none) := by
  unfold State.atTable at h
  simp only [State.tableCmd, hx, hlane, hop, h, if_false, Bool.not_true, Bool.false_eq_true, Option.isSome_none, Option.getD_none, Nat.one_ne_zero]
  exact ⟨_, _, _, rfl⟩

/-- A FLUSH_LEARNT is DONE and waits for its pass. -/
theorem State.tableCmd_flush (hop : x.op = 7) (h : (s.atTable x.lane t).tableOp x t = (0, none, u)) :
    ∃ v, s.tableCmd port b t
      = (u.fresh.2.setDom (Obj.tableTableResult port) v, okOut Obj.tableTableCmd (.byt b), some (.flush x.lane)) := by
  unfold State.atTable at h
  simp only [State.tableCmd, hx, hlane, hop, h, Nat.reduceEqDiff, if_false, if_true, Bool.not_true, Bool.false_eq_true, Option.isSome_none]
  exact ⟨_, rfl⟩

end

theorem fieldAt_tableResult (o lane index fid : Nat) (ctx : Bytes) : fieldAt (tableResult o lane index fid ctx) 0 1 = o % 256 := by
  unfold tableResult
  simp only [List.append_assoc]
  exact fieldAt_le 1 o _

/-- What R519 keeps for a core leaves the state but for that core's copies. -/
theorem State.keepCore_rest (s : State) (i : Issuer) (k : Key) : ∃ d e, s.keepCore i k = { s with coreDict := d, coreDoms := e } := by
  unfold State.keepCore
  split
  · exact ⟨_, _, rfl⟩
  · exact ⟨s.coreDict, s.coreDoms, rfl⟩

/-- An object that a taken write of bytes names may be written. -/
theorem WritesBytes.writable {s s1 : State} {c : BytesCmd} {k : Key} {a : Accepted} (h : WritesBytes s c k s1 a) : Writable s1 k := by
  obtain ⟨-, -, -, -, hwritable⟩ := h
  exact hwritable

/-- A TABLE_CMD that names an operation and a lane that is there acts at the boundary; a core keeps its copy of the result. -/
theorem WritesBytes.tableCmd {s s1 u : State} {c : BytesCmd} {a : Accepted} {x : TableCmd} {o : ObjOut} {w : Option Wait}
    (h : WritesBytes s c Obj.tableTableCmd s1 a) (hlen : c.value.length = 56) (hx : tableFields c.value = some (x, []))
    (hlane : s1.hasLane x.lane = true) (hop : x.op ≠ 0) (hcmd : s1.tableCmd c.iss.port c.value (s1.tick + 1) = (u, o, w))
    (ho : o.status ≠ stPairPending) :
    ∃ d e, Lands s1 (.next (s.writeOp c Obj.tableTableCmd x.op))
      (s1.endedOr c.flags a (o.refusedWith (.byt c.value)) { u with coreDict := d, coreDoms := e } w) := by
  have hrow : findObj Obj.tableTableCmd = some ⟨0x3410, 1, 0x01, 1, .dom, .wo, false, .len 56 56, 0, true⟩ := findObj_row (by decide)
  have hchk : s1.checkEntry Obj.tableTableCmd c.value = okOut Obj.tableTableCmd (.byt c.value) :=
    State.checkEntry_byt hrow h.writable (by decide) rfl rfl (by omega) (by omega) (List.ne_nil_of_length_pos (by omega))
  have hanswers : s1.tableAnswers c.value = true := by simp [State.tableAnswers, hx, hop, hlane]
  rw [State.writeOp, if_pos (tableFields_op hx).symm]
  obtain ⟨d, e, hkeep⟩ := u.keepCore_rest c.iss (Obj.tableTableResult 2)
  refine ⟨d, e, State.writeByt_ends h (by decide) (by decide) (by decide) hrow rfl hchk ?_ ho⟩
  rw [act_tableTableCmd, hcmd, if_pos hanswers, hkeep]

/-- The rows of the table window but FLUSH_LEARNT are writes of TABLE_CMD. -/
theorem exec_tableCommand {s : State} {c : BytesCmd} {o : Nat} {r : Instr}
    (h : (o, r) ∈ [(1, Instr.lookup c), (2, .install c), (3, .update c), (4, .remove c), (5, .tableRead c), (6, .clearStats c)]) :
    (1 ≤ o ∧ o ≤ 6) ∧ exec r s = .next (s.writeOp c Obj.tableTableCmd o) := by
  simp only [List.mem_cons, List.not_mem_nil, or_false, Prod.mk.injEq] at h
  obtain ⟨rfl, rfl⟩ | ⟨rfl, rfl⟩ | ⟨rfl, rfl⟩ | ⟨rfl, rfl⟩ | ⟨rfl, rfl⟩ | ⟨rfl, rfl⟩ := h <;> exact ⟨by decide, rfl⟩

theorem execFlushLearntDone_passed {s : State} {n : Nat} {l : Landing} (h : (s.flLane n).flushes.contains 0 = true)
    (hwait : s.deferred.find? (fun e => e.1 == Wait.flush n) = some (.flush n, l)) :
    execFlushLearntDone n s
      = .next (State.resolve (s.setFlLane n { s.flLane n with flushes := (s.flLane n).flushes.erase 0 }) (.flush n)) := by
  have hdeferred : s.isDeferred (.flush n) = true := List.any_eq_true.mpr ⟨_, List.mem_of_find?_eq_some hwait, beq_self_eq_true _⟩
  unfold execFlushLearntDone
  dsimp only
  exact if_pos ⟨h, hdeferred⟩

/-- The oldest command that waits for an event ends. -/
theorem State.resolve_found {s : State} {w : Wait} {e : Wait × Landing} (h : s.deferred.find? (fun e => e.1 == w) = some e) :
    s.resolve w = ({ s with deferred := s.deferred.erase e }).finish e.2 s.tick := by
  rw [State.resolve, h]

/-- Settles O37: a TABLE_CMD acts through `WritesBytes.tableCmd`, each operation is one equation of `tableOp`, and a pass that is done resolves the
oldest wait. -/
theorem tableCommandsAndFlushesReachTheTable : Obligations.TableCommandsAndFlushesReachTheTable := by
  unfold Obligations.TableCommandsAndFlushesReachTheTable
  refine ⟨fun s s1 c a x o r hw hlen hx _ hlane hop hr => ?_, fun s s1 c a x hw hlen hx _ hlane hop => ?_, fun s n l hpass hwait => ?_⟩
  · obtain ⟨hop6, hexec⟩ := exec_tableCommand (s := s) hr
    subst hop
    obtain ⟨hop0, hop7⟩ : x.op ≠ 0 ∧ x.op ≠ 7 := by omega
    intro h found named way target
    refine ⟨fun f htarget hsig => ?_, fun hinstall htarget => ?_⟩
    · have htarget : (s1.atTable x.lane (s1.tick + 1)).tableTarget x (s1.tick + 1) = some f := htarget
      obtain ⟨u, hdone, hu⟩ := State.tableOp_done hop6 htarget hsig
      obtain ⟨d, e, hlands⟩ := hw.tableCmd hlen hx hlane hop0 (State.tableCmd_done hx hlane hop0 hop7 hdone) (show stOk ≠ stPairPending by decide)
      rw [State.endedOr_ok rfl rfl, ← hexec] at hlands
      have htable : (u.flLane x.lane).tableAt = some (s1.tick + 1) := by rw [hu.flLane, State.atTable_flLane, if_pos rfl]
      exact ⟨_, hlands, (State.dom_setDom ..).trans (if_pos rfl), htable, hu.queues, hu.others, hu.flow⟩
    · have htarget : (s1.atTable x.lane (s1.tick + 1)).tableTarget x (s1.tick + 1) = none := htarget
      obtain ⟨index, fid, ctx, hcmd⟩ := State.tableCmd_missed (port := c.iss.port) hx hlane hop0 (State.tableOp_missed hop6 hinstall htarget)
      obtain ⟨d, e, hlands⟩ := hw.tableCmd hlen hx hlane hop0 hcmd (show stRejected ≠ stPairPending by decide)
      rw [← hexec] at hlands
      refine ⟨_, hlands, rfl, ?_⟩
      calc fieldAt _ 0 1 = fieldAt (tableResult 1 x.lane index fid ctx) 0 1 := congrArg (fieldAt · 0 1) ((State.dom_setDom ..).trans (if_pos rfl))
        _ = 1 := fieldAt_tableResult ..
  · obtain ⟨u, hdone, hflows, hflushes, htable, hothers⟩ := State.tableOp_flush (s := s1) (t := s1.tick + 1) hop
    obtain ⟨v, hcmd⟩ := State.tableCmd_flush (port := c.iss.port) hx hlane hop hdone
    obtain ⟨d, e, hlands⟩ := hw.tableCmd hlen hx hlane (by omega) hcmd (show stOk ≠ stPairPending by decide)
    rw [State.endedOr_ok rfl rfl, hop] at hlands
    exact ⟨_, hlands, hflows, hflushes, htable, hothers⟩
  · exact (execFlushLearntDone_passed hpass hwait).trans (congrArg Host.Outcome.next (State.resolve_found hwait))

end Sys2Proof.Machine

namespace Sys2Proof.Machine

/-! TRIG_IN (R291, R293): the sampling of the pins at a boundary, and a level that has stood FILTER samples. -/

/-- A table changed at different keys, each by its own function, is changed at the keys listed and nowhere else. -/
theorem Tab.getD_foldl_modify {α : Type} [DecidableEq α] (f : Nat → α → α) (d : α) {l : List Nat} (hl : l.Nodup) (t : Tab α) (j : Nat) :
    (l.foldl (fun t i => t.modify i d (f i)) t).getD j d = if j ∈ l then f j (t.getD j d) else t.getD j d := by
  induction l generalizing t with
  | nil => rfl
  | cons i l ih =>
    obtain ⟨hi, hl⟩ := List.nodup_cons.mp hl
    rw [List.foldl_cons, ih hl, Tab.modify, Tab.getD_put]
    by_cases hj : j = i
    · subst hj
      simp [hi]
    · simp [hj]

/-- A pin after the sample of a tick: `level` is what INVERT makes of the ball. -/
def Pin.sampled (x : Pin) (ball invert : Bool) : Pin :=
  { x with ball := ball, count := if (ball != invert) = x.level then 0 else x.count + 1 }

/-- The level at a ball: the last of the changes that have come, or the level that was there. -/
def ballAfter (changes : List (Nat × Bool)) (i : Nat) (ball : Bool) : Bool := ((changes.filter (fun e => e.1 = i)).getLast?.map (·.2)).getD ball

theorem ballAfter_unchanged {changes : List (Nat × Bool)} {i : Nat} (h : ∀ e ∈ changes, e.1 ≠ i) (ball : Bool) : ballAfter changes i ball = ball := by
  have hnone : changes.filter (fun e => e.1 = i) = [] := List.filter_eq_nil_iff.mpr fun e he => by simpa using h e he
  rw [ballAfter, hnone]
  rfl

section
variable (s : State) {p : Nat} (hp : p < 8)
include hp

theorem State.samplePins_trigIn (changes : List (Nat × Bool)) :
    (s.samplePins changes).trigIn.getD p {}
      = (s.trigIn.getD p {}).sampled (ballAfter changes p (s.trigIn.getD p {}).ball) (s.flag (Obj.trigInInvert p)) := by
  have hmem : p ∈ below 8 := mem_upFrom.mpr ⟨Nat.zero_le _, by omega⟩
  rw [State.samplePins, Tab.getD_foldl_modify _ _ (by decide), if_pos hmem, Pin.sampled, ← ballAfter]
  simp only [bne_iff_ne, ne_eq, ite_not]

theorem execTrigInAccept_stood {level : Bool} (hlevel : (s.trigIn.getD p {}).level ≠ level) (hrun : s.running = true)
    (hcount : s.obj (Obj.trigInFilter p) ≤ (s.trigIn.getD p {}).count) :
    execTrigInAccept p level s = .next { s with
      trigIn := s.trigIn.put p {} { s.trigIn.getD p {} with level := level, count := 0 },
      arrivals := s.arrivals ++ [(s.tick + 1 - (s.trigIn.getD p {}).count + 1 + s.obj (Obj.trigInFilter p),
        .trigIn p level (64 * (s.tick + 1 - (s.trigIn.getD p {}).count)))] } := by
  have hstood : ¬ (8 ≤ p ∨ (s.trigIn.getD p {}).level = level ∨ (!s.running) = true ∨ (s.trigIn.getD p {}).count < s.obj (Obj.trigInFilter p)) := by
    simp [hlevel, hrun, hp, hcount]
  exact if_neg hstood

end

/-! TRIG_OUT (R16, R323): a pulse that begins or ends changes its pin and the level shown, and nothing else. -/

/-- A TRIG_OUT pin takes a new run, and its output goes active or inactive. -/
def State.pulsed (s : State) (p : Nat) (x : Pin) (active : Bool) : State :=
  ({ s with trigOut := s.trigOut.put p {} x } : State).driveOut p active

section
variable (s : State) (p : Nat) (x : Pin) (active : Bool)

theorem State.pulsed_rest : s.pulsed p x active = { s with dict := (s.pulsed p x active).dict, trigOut := (s.pulsed p x active).trigOut } := rfl

theorem State.pulsed_level : (s.pulsed p x active).obj (Obj.trigOutLevel p) = ofBool active := State.obj_setObj_self ..

theorem State.pulsed_objs : SameObjs s (s.pulsed p x active) [Obj.trigOutLevel p] :=
  fun _ hk => State.obj_setObj_ne _ _ (by simpa using hk)

theorem State.pulsed_pin : (s.pulsed p x active).trigOut.getD p {} = x := Tab.getD_put_self ..

theorem State.pulsed_pin_ne {q : Nat} (h : q ≠ p) : (s.pulsed p x active).trigOut.getD q {} = s.trigOut.getD q {} := Tab.getD_put_ne _ _ _ _ h

end

section
variable {s : State} {p : Nat}

/-- The start of a pulse waits once for each pin. -/
theorem execTrigOutStart_awaits (hp : p < 8) (h : s.due.contains (.pulse p) = false) : execTrigOutStart p s = .next (s.await (.pulse p)) := by
  rw [execTrigOutStart, h, if_neg (by simpa using hp)]

theorem State.beginPulse_due {t0 u : Tick} {rest : List Tick} (h : (s.trigOut.getD p {}).starts = t0 :: rest) (hdue : t0 ≤ u) :
    s.beginPulse p u
      = s.pulsed p { s.trigOut.getD p {} with starts := rest, until_ := some (t0 + s.obj (Obj.trigOutWidth p)) } true := by
  simp only [State.beginPulse, h, if_neg (Nat.not_lt.mpr hdue), State.pulsed]

/-- At the end of a pulse the pin goes inactive, where no later request has begun. -/
theorem execTrigOutEnd_due {e : Tick} (hp : p < 8) (h : (s.trigOut.getD p {}).until_ = some e) (hdue : e ≤ s.tick + 1) :
    execTrigOutEnd p s = if (s.trigOut.getD p {}).starts.any (· ≤ e) = true then .next s
      else .next (s.pulsed p { s.trigOut.getD p {} with until_ := none } false) := by
  simp only [execTrigOutEnd, h, Nat.not_le.mpr hp, Nat.not_lt.mpr hdue, false_or, State.pulsed]

end

/-- Settles O31: an accepted level is one change of its pin and one arrival, a sample is one change of each pin, and a pulse that begins or ends is
`State.pulsed`. -/
theorem triggerPinsAreFilteredAndPulsed : Obligations.TriggerPinsAreFilteredAndPulsed := by
  unfold Obligations.TriggerPinsAreFilteredAndPulsed
  refine ⟨fun s p level hp hlevel hrun hcount => ?_, fun s changes p hp hquiet => ?_, fun s p hp hnew => ?_,
    fun s p t0 rest hp halone hstarts hdue => ?_, fun s p e hp huntil hdue => ⟨fun hlater => ?_, fun hlast => ?_⟩⟩
  · exact ⟨_, execTrigInAccept_stood s hp hlevel hrun hcount, rfl, Tab.getD_put_self .., fun q hq => Tab.getD_put_ne _ _ _ _ hq, rfl⟩
  · rw [s.samplePins_trigIn hp, ballAfter_unchanged hquiet]
    rfl
  · exact execTrigOutStart_awaits hp hnew
  · have hlands := halone.lands (d := .pulse p) (State.beginPulse_due hstarts hdue)
    have hnone : s.due.contains (.pulse p) = false := by rw [halone.1]; rfl
    rw [← execTrigOutStart_awaits hp hnone] at hlands
    exact ⟨_, hlands, s.pulsed_rest .., s.pulsed_level .., s.pulsed_objs _ _ _, fun q hq => s.pulsed_pin_ne _ _ _ hq, s.pulsed_pin ..⟩
  · exact (execTrigOutEnd_due hp huntil hdue).trans (if_pos hlater)
  · have hends := (execTrigOutEnd_due hp huntil hdue).trans (if_neg (Bool.not_eq_true _ ▸ hlast))
    exact ⟨_, hends, s.pulsed_rest .., s.pulsed_level .., s.pulsed_objs _ _ _, s.pulsed_pin ..⟩

end Sys2Proof.Machine

namespace Sys2Proof.Machine

/-! The event reader (R329, R653): what a word does on its way out of a Bobbin's FIFO to the queues and the subscribers. -/

/-- From s to t a word that has left the FIFO of Bobbin b was on its way out: of the reader and the Bobbins at most the loss mark of b moved. -/
structure EventOut (b : Nat) (s t : State) : Prop where
  tick : t.tick = s.tick
  evLast : t.evLast = s.evLast
  evRead : t.evRead = s.evRead
  fifo : (t.bb b).fifo = (s.bb b).fifo
  others : ∀ c, c ≠ b → t.bb c = s.bb c

namespace EventOut
variable {b : Nat} {s t : State}

theorem trans {u : State} (h : EventOut b s t) (g : EventOut b t u) : EventOut b s u :=
  ⟨g.tick.trans h.tick, g.evLast.trans h.evLast, g.evRead.trans h.evRead, g.fifo.trans h.fifo, fun c hc => (g.others c hc).trans (h.others c hc)⟩

theorem of_bbs (htick : t.tick = s.tick) (hlast : t.evLast = s.evLast) (hread : t.evRead = s.evRead) (hbbs : t.bbs = s.bbs) : EventOut b s t :=
  have hbb (c : Nat) : t.bb c = s.bb c := by rw [State.bb, hbbs, State.bb]
  ⟨htick, hlast, hread, congrArg Bobbin.fifo (hbb b), fun c _ => hbb c⟩

theorem refl (b : Nat) (s : State) : EventOut b s s := of_bbs rfl rfl rfl rfl

theorem of_stored (h : Stored s t) : EventOut b s t :=
  have part {α : Type} (f : State → α) : f t.unstored = f s.unstored := congrArg f h.rest
  of_bbs (part State.tick) (part State.evLast) (part State.evRead) (part State.bbs)

theorem ite {v : State} {c : Prop} [Decidable c] (ht : EventOut b s t) (hv : EventOut b s v) : EventOut b s (if c then t else v) := by
  split
  · exact ht
  · exact hv

theorem setObj (h : EventOut b s t) (k v : Nat) : EventOut b s (t.setObj k v) := h.trans (of_bbs rfl rfl rfl rfl)

theorem dropFlips (h : EventOut b s t) (f n : Nat) : EventOut b s (t.dropFlips f n) := h.trans (of_bbs rfl rfl rfl rfl)

theorem notify (h : EventOut b s t) (cls source detail : Nat) (x : Tick) : EventOut b s (t.notify cls source detail x) :=
  have g := (OnlyReported.refl t).notify cls source detail x
  h.trans (of_bbs g.tick g.evLast g.evRead g.bbs)

theorem hoopDecode (h : EventOut b s t) (f : Nat) (words : List Nat) : EventOut b s (t.hoopDecode f words).1 :=
  have hread (fixed : Nat) : EventOut b s ((t.dropFlips f words.length).bump (Obj.hoopCntCorrected f) fixed) := (h.dropFlips ..).setObj ..
  ite ((hread _).setObj ..) (hread _)

theorem eventWord (b w : Nat) (s : State) : EventOut b s (s.eventWord b w).1 := by
  unfold State.eventWord
  split
  · exact refl b s
  · exact (refl b s).hoopDecode ..

/-- A word that cannot be read is an event lost (R330, R653). -/
theorem loseEvent (b : Nat) (s : State) : EventOut b s (s.loseEvent b) :=
  have hbb (c : Nat) : (s.loseEvent b).bb c = if c = b then { s.bb b with lost := true } else s.bb c := s.bb_setBb b _ c
  ⟨rfl, rfl, rfl, (congrArg Bobbin.fifo (hbb b)).trans (by rw [if_pos rfl]), fun c hc => (hbb c).trans (if_neg hc)⟩

end EventOut

/-- The queues on EVENT of Bobbin b store the MARK of a word. -/
def State.eventStored (s : State) (b w : Nat) : State :=
  (s.sourceQueues 7 b).foldl (fun s q => s.deliver q [eventMark s q b w] 1 (ofTick (eventMark s q b w).tick) (ofTick (eventMark s q b w).tick) s.tick) s

/-- What follows the reading of an entry: the word is stored, and notified where its bit 3 asks for it; or, unreadable, it is lost. -/
def State.eventShown (s : State) (b : Nat) : Option Nat → State
  | none => s.loseEvent b
  | some w => if bit w 3 then (s.eventStored b w).notify b b w (s.eventStored b w).tick else s.eventStored b w

/-- The reader has served Bobbin b, whose FIFO is left with `rest`. -/
def State.eventTaken (s : State) (b : Nat) (rest : List Nat) : State :=
  { s.setBb b { s.bb b with fifo := rest } with evLast := b, evRead := s.evRead ++ [b] }

section
variable {s : State} {b w : Nat} {rest : List Nat}

theorem State.eventStored_stored (s : State) (b w : Nat) : Stored s (s.eventStored b w) :=
  Stored.foldl (fun _ hv _ hq => hv.deliver (State.lt_of_mem_sourceQueues hq) _ _ _ _ _ nofun) (Stored.refl s)

theorem EventOut.eventShown (s : State) (b : Nat) (r : Option Nat) : EventOut b s (s.eventShown b r) := by
  cases r with
  | none => exact .loseEvent b s
  | some w =>
    have hstored : EventOut b s (s.eventStored b w) := .of_stored (s.eventStored_stored b w)
    exact .ite (hstored.notify ..) hstored

/-- A word none of whose bits has changed is read as it stands. -/
theorem State.eventWord_unchanged (w : Nat) (h : s.hoopFlips.any (fun e => e.1 = 3 + b) = false) : s.eventWord b w = (s, some w) := by
  rw [State.eventWord, h]
  rfl

theorem State.sourceQueues_eq_nil {kind : Nat} (src : Nat) (h : ∀ q, s.obj (Obj.qSrcKind q) ≠ kind) : s.sourceQueues kind src = [] :=
  List.filter_eq_nil_iff.mpr fun q _ => by simp [h q]

/-- A word that no queue stores and that asks for no notification leaves the state as it is. -/
theorem State.eventShown_unwatched (hqueues : ∀ q, s.obj (Obj.qSrcKind q) ≠ 7) (hnote : bit w 3 = false) : s.eventShown b (some w) = s := by
  rw [State.eventShown, hnote, State.eventStored, State.sourceQueues_eq_nil b hqueues]
  rfl

/-- The reader's turn: the entry leaves its FIFO, is decoded, and is shown. -/
theorem execEventRead_takes (hnext : s.nextEvent = some b) (hrun : s.running = true) (hfifo : (s.bb b).fifo = w :: rest) :
    execEventRead b s = .next (((s.eventTaken b rest).eventWord b w).1.eventShown b ((s.eventTaken b rest).eventWord b w).2) := by
  have hturn : ¬ (s.nextEvent ≠ some b ∨ (!s.running) = true) := by simp [hnext, hrun]
  rw [execEventRead, if_neg hturn, hfifo]
  unfold State.eventTaken
  dsimp only
  split <;> next hword => rw [hword]; rfl

end

/-! CLEAR (R360): what it leaves of a port's staging store and of its pending commits. -/

/-- A staged value as CLEAR leaves it: one for the slot's image is cancelled. -/
def Staged.imageCancelled (img : Key) (e : Staged) : Staged := if e.key = img then { e with out := badOut img stRejected reCancelled } else e

/-- A port as CLEAR leaves it: nothing is staged for the slot's image, and in the pending commits it is cancelled. -/
def PortState.imageCleared (img : Key) (p : PortState) : PortState :=
  { p with staging := p.staging.filter (fun e => e.key ≠ img), pend := p.pend.map (fun c => { c with set := c.set.map (Staged.imageCancelled img) }) }

theorem Staged.imageCancelled_out {img : Key} {e : Staged} (h : (e.imageCancelled img).key = img) :
    (e.imageCancelled img).out = badOut img stRejected reCancelled := by
  unfold Staged.imageCancelled at h ⊢
  split
  · rfl
  · next hkey =>
    rw [if_neg hkey] at h
    exact absurd h hkey

theorem PortState.imageCleared_pend {img : Key} {p : PortState} {x : Pending} {e : Staged} (hx : x ∈ (p.imageCleared img).pend) (he : e ∈ x.set)
    (hkey : e.key = img) : e.out = badOut img stRejected reCancelled := by
  obtain ⟨y, -, rfl⟩ := List.mem_map.mp hx
  obtain ⟨e, -, rfl⟩ := List.mem_map.mp he
  exact Staged.imageCancelled_out hkey

theorem Tab.find_mapVals {α : Type} (t : Tab α) (f : α → α) (i : Nat) : (t.mapVals f).find i = (t.find i).map f := by
  induction t with
  | nil => rfl
  | cons e t ih =>
    obtain ⟨k, x⟩ := e
    rw [Tab.find_cons, apply_ite (Option.map f), ← ih]
    exact Tab.find_cons ..

/-- A change of every value that leaves the rest value as it is changes what every key reads. -/
theorem Tab.getD_mapVals {α : Type} (t : Tab α) {f : α → α} {d : α} (hd : f d = d) (i : Nat) : (t.mapVals f).getD i d = f (t.getD i d) := by
  rw [Tab.getD, Tab.find_mapVals, Tab.getD]
  cases t.find i with
  | none => exact hd.symm
  | some x => rfl

section
variable (s : State) (n : Nat)

theorem State.clearSlot_dom (k : Key) : (s.clearSlot n).1.dom k = if k = Obj.slotImage n then [] else s.dom k := s.dom_setDom ..

theorem State.clearSlot_port (p : Nat) : (s.clearSlot n).1.port p = (s.port p).imageCleared (Obj.slotImage n) := Tab.getD_mapVals s.ports (f := PortState.imageCleared (Obj.slotImage n)) (d := {}) rfl p

theorem State.clearSlot_transfers {x : Transfer} (h : x ∈ (s.clearSlot n).1.transfers) : x.key ≠ Obj.slotImage n := by
  simpa using (List.mem_filter.mp h).2

end

theorem slotClear_row {n : Nat} (hn : n < 16) : findObj (Obj.slotClear n) = some ⟨0x3810, 16, 0x07, 1, .bool, .wo, false, .any, 0, true⟩ :=
  (by decide : ∀ n < 16, findObj (Obj.slotClear n) = some ⟨0x3810, 16, 0x07, 1, .bool, .wo, false, .any, 0, true⟩) n hn

/-- A CLEAR acts at the boundary. -/
theorem exec_clear_lands {s s1 : State} {c : WriteCmd} {n : Nat} {a : Accepted} (hn : n < 16) (h : Writes s c (Obj.slotClear n) 1 s1 a)
    (hv : c.value = 1) : Lands s1 (exec (.clear c n) s) ((s1.clearSlot n).1.ended a (okOut (Obj.slotClear n) (.num 1))) := by
  obtain ⟨hk24, hst, hpair⟩ : Obj.slotClear n < 2 ^ 24 ∧ isStaged (Obj.slotClear n) = false ∧ pairPartner (Obj.slotClear n) = none :=
    (by decide : ∀ n < 16, Obj.slotClear n < 2 ^ 24 ∧ isStaged (Obj.slotClear n) = false ∧ pairPartner (Obj.slotClear n) = none) n hn
  have hrow : exec (.clear c n) s = .next (s.writeNum c (Obj.slotClear n) 1) := by
    show Host.Outcome.next (s.writeNum c (Obj.slotClear (n % 16)) c.value) = _
    rw [Nat.mod_eq_of_lt hn, hv]
  have hcheck := State.checkEntry_bool (v := 1) (slotClear_row hn) h.writable (by decide) rfl (by decide) (by simp)
  rw [hrow]
  exact State.writeNum_acts h hk24 (valBytes_num_length _ _) hst hpair hcheck (act_slotClear s1 c.iss 1 (s1.tick + 1) hn) rfl rfl

/-- Settles O32: the reader takes the entry, and what the word does on its way out is an `EventOut`; CLEAR is one change of the slot, the ports and
the transfers. -/
theorem eventsAreReadAndSlotsCleared : Obligations.EventsAreReadAndSlotsCleared := by
  unfold Obligations.EventsAreReadAndSlotsCleared
  refine ⟨fun s b w rest hnext hrun hfifo => ?_, fun s s1 c n a hn hw hv => ?_⟩
  · have hout := (EventOut.eventWord b w (s.eventTaken b rest)).trans (.eventShown _ b ((s.eventTaken b rest).eventWord b w).2)
    have hself : (s.eventTaken b rest).bb b = { s.bb b with fifo := rest } := s.bb_setBb_self ..
    have hother (c : Nat) (hc : c ≠ b) : (s.eventTaken b rest).bb c = s.bb c := (s.bb_setBb ..).trans (if_neg hc)
    refine ⟨_, execEventRead_takes hnext hrun hfifo, hout.fifo.trans (congrArg Bobbin.fifo hself), hout.evLast, hout.evRead,
      fun c hc => (hout.others c hc).trans (hother c hc), hout.tick, fun hqueues hnote hflips => ?_⟩
    have hword : (s.eventTaken b rest).eventWord b w = (s.eventTaken b rest, some w) := State.eventWord_unchanged w hflips
    have hshown : (s.eventTaken b rest).eventShown b (some w) = s.eventTaken b rest :=
      State.eventShown_unwatched (s := s.eventTaken b rest) hqueues hnote
    rw [hword]
    dsimp only
    rw [hshown]
    rfl
  · exact ⟨_, exec_clear_lands hn hw hv, rfl, (s1.clearSlot_dom ..).trans (if_pos rfl),
      fun k hk => (s1.clearSlot_dom ..).trans (if_neg hk), fun x hx => s1.clearSlot_transfers n hx, fun p => by
        rw [s1.clearSlot_port n p]
        exact ⟨rfl, fun x hx e he hkey => PortState.imageCleared_pend hx he hkey⟩⟩

end Sys2Proof.Machine

namespace Sys2Proof.Machine

/-- A command that does not set the tick counter keeps what the operations it is made of keep. -/
theorem exec_kept {s0 s : State} (h : Kept s0 s) (c : Instr) (htick : ∀ inp, c ≠ .tick inp) (hload : c ≠ .tickLoad)
    (hpower : ∀ straps, c ≠ .powerOnReset straps) : KeptAns s0 (exec c s) := by
  cases c with
  | tick inp => exact absurd rfl (htick inp)
  | laneWord lane raw stamp fec => exact execLaneWord_kept h lane raw stamp fec
  | ethFrame lane => exact execEthFrame_kept h lane
  | scannerVisit lane => exact execScannerVisit_kept h lane
  | hiBerWindow dec => exact execHiBerWindow_kept h dec
  | cdrSignalDetect lane => exact execCdrSignalDetect_kept h lane
  | cdrFreqLock lane => exact execCdrFreqLock_kept h lane
  | cdrLock lane ctle dfe => exact execCdrLock_kept h lane ctle dfe
  | cdrSignalLoss lane partialBits => exact execCdrSignalLoss_kept h lane partialBits
  | cdrFreqLoss lane partialBits => exact execCdrFreqLoss_kept h lane partialBits
  | cdrTransitionLoss lane partialBits => exact execCdrTransitionLoss_kept h lane partialBits
  | linkFailRetry link => exact execLinkFailRetry_kept h link
  | noMarkerTimeout link => exact execNoMarkerTimeout_kept h link
  | eyeScanStart lane => exact execEyeScanStart_kept h lane
  | eyeScanEnd eye => exact execEyeScanEnd_kept h eye
  | comparatorSettle lc lower microvolts => exact execComparatorSettle_kept h lc lower microvolts
  | trigInAccept pin level => exact execTrigInAccept_kept h pin level
  | trigOutStart pin => exact execTrigOutStart_kept h pin
  | trigOutEnd pin => exact execTrigOutEnd_kept h pin
  | eventRead bb => exact execEventRead_kept h bb
  | cascadeMessageSend port => exact execCascadeMessageSend_kept h port
  | cascadeMessageReceive port chars => exact execCascadeMessageReceive_kept h port chars
  | alignWordSend port => exact execAlignWordSend_kept h port
  | alignWordReceive port count arrival point rtt => exact execAlignWordReceive_kept h port count arrival point rtt
  | alignWordTimeout port => exact execAlignWordTimeout_kept h port
  | cascadeSyncLoss port => exact execCascadeSyncLoss_kept h port
  | tickLoad => exact absurd rfl hload
  | ppsEdge time => exact execPpsEdge_kept h time
  | vrefEdge time aboveHi => exact execVrefEdge_kept h time aboveHi
  | loopUpdate => exact execLoopUpdate_kept h
  | ppsMiss => exact execPpsMiss_kept h
  | vrefMiss => exact execVrefMiss_kept h
  | hostTimeout => exact execHostTimeout_kept h
  | refclkLoss => exact execRefclkLoss_kept h
  | refclkReturn => exact execRefclkReturn_kept h
  | step => exact execStep_kept h
  | slewEnd => exact execSlewEnd_kept h
  | timeMapPoint => exact execTimeMapPoint_kept h
  | refclkClassify hertz => exact execRefclkClassify_kept h hertz
  | synLock syn => exact execSynLock_kept h syn
  | clkoutRestart n => exact execClkoutRestart_kept h n
  | clkoutStart n => exact execClkoutStart_kept h n
  | clkoutStop n => exact execClkoutStop_kept h n
  | picotStep n => exact execPicotStep_kept h n
  | read iss pkt => exact execRead_kept h iss pkt
  | write iss pkt => exact execWrite_kept h iss pkt
  | pairTimeout port => exact execPairTimeout_kept h port
  | commit iss pkt => exact execCommit_kept h iss pkt
  | commitLand port => exact execCommitLand_kept h port
  | discard iss pkt => exact execDiscard_kept h iss pkt
  | segStart iss pkt => exact execSegStart_kept h iss pkt
  | segData iss pkt => exact execSegData_kept h iss pkt
  | segEnd iss pkt => exact execSegEnd_kept h iss pkt
  | segAbort iss pkt => exact execSegAbort_kept h iss pkt
  | transferIdleTimeout port xfer => exact execTransferIdleTimeout_kept h port xfer
  | segRead iss pkt => exact execSegRead_kept h iss pkt
  | echo iss pkt => exact execEcho_kept h iss pkt
  | hello iss pkt => exact execHello_kept h iss pkt
  | attest iss pkt => exact execAttest_kept h iss pkt
  | prove iss pkt => exact execProve_kept h iss pkt
  | close iss pkt => exact execClose_kept h iss pkt
  | sessionIdleTimeout slot => exact execSessionIdleTimeout_kept h slot
  | handshakeTimeout slot => exact execHandshakeTimeout_kept h slot
  | proveLockoutEnd port => exact execProveLockoutEnd_kept h port
  | sessionClose c slot => exact execSessionClose_kept h c slot
  | ownerKey c => exact execOwnerKey_kept h c
  | ownerKeyProgrammed => exact execOwnerKeyProgrammed_kept h
  | policyFloor c => exact execPolicyFloor_kept h c
  | fwSecRaise c => exact execFwSecRaise_kept h c
  | mirrorCopy => exact execMirrorCopy_kept h
  | stepNow c => exact execStepNow_kept h c
  | slewNow c => exact execSlewNow_kept h c
  | realign c => exact execRealign_kept h c
  | freqCorr c => exact execFreqCorr_kept h c
  | phaseCorr c => exact execPhaseCorr_kept h c
  | picotSteps c n => exact execPicotSteps_kept h c n
  | swTrigger c => exact execSwTrigger_kept h c
  | eyeRequest c lane => exact execEyeRequest_kept h c lane
  | clear c slot => exact execClear_kept h c slot
  | train c => exact execTrain_kept h c
  | trainEnd failSteps => exact execTrainEnd_kept h failSteps
  | free c queue => exact execFree_kept h c queue
  | closePage c queue => exact execClosePage_kept h c queue
  | grant c => exact execGrant_kept h c
  | renew c => exact execRenew_kept h c
  | release c => exact execRelease_kept h c
  | query c => exact execQuery_kept h c
  | leaseExpire index => exact execLeaseExpire_kept h index
  | pageAlloc => exact execPageAlloc_kept h
  | chunkFlush queue => exact execChunkFlush_kept h queue
  | segmentClose queue => exact execSegmentClose_kept h queue
  | segmentOpen queue => exact execSegmentOpen_kept h queue
  | drainEnd queue => exact execDrainEnd_kept h queue
  | lookup c => exact execLookup_kept h c
  | install c => exact execInstall_kept h c
  | update c => exact execUpdate_kept h c
  | remove c => exact execRemove_kept h c
  | tableRead c => exact execTableRead_kept h c
  | clearStats c => exact execClearStats_kept h c
  | flushLearnt c => exact execFlushLearnt_kept h c
  | flushLearntDone lane => exact execFlushLearntDone_kept h lane
  | stateRestore c => exact execStateRestore_kept h c
  | jobStart c job => exact execJobStart_kept h c job
  | resume c job => exact execResume_kept h c job
  | finish c job => exact execFinish_kept h c job
  | abort c job => exact execAbort_kept h c job
  | jobRun => exact execJobRun_kept h
  | jobEnd verifyFail destFail memError => exact execJobEnd_kept h verifyFail destFail memError
  | releaseHandle c => exact execReleaseHandle_kept h c
  | handleTimeout handle => exact execHandleTimeout_kept h handle
  | cmdDoorbell value slotBytes => exact execCmdDoorbell_kept h value slotBytes
  | rspAck value => exact execRspAck_kept h value
  | noteHead value => exact execNoteHead_kept h value
  | descTail ring value => exact execDescTail_kept h ring value
  | cplHead ring value => exact execCplHead_kept h ring value
  | bar0Write offset value width => exact execBar0Write_kept h offset value width
  | descFetch ring desc => exact execDescFetch_kept h ring desc
  | descGrant ring => exact execDescGrant_kept h ring
  | descRead ring memErr => exact execDescRead_kept h ring memErr
  | descRenew ring => exact execDescRenew_kept h ring
  | descRelease ring => exact execDescRelease_kept h ring
  | ringEnable c ring => exact execRingEnable_kept h c ring
  | ringDisable c ring => exact execRingDisable_kept h c ring
  | mapInvalidate c => exact execMapInvalidate_kept h c
  | bar2Read addr count entry => exact execBar2Read_kept h addr count entry
  | bar2Write addr => exact execBar2Write_kept h addr
  | port0Reset => exact execPort0Reset_kept h
  | bmeClear => exact execBmeClear_kept h
  | bmeSet => exact execBmeSet_kept h
  | datagramDiscard d fragment => exact execDatagramDiscard_kept h d fragment
  | arpRequest d => exact execArpRequest_kept h d
  | neighbourSolicitation d => exact execNeighbourSolicitation_kept h d
  | icmpEchoRequest d => exact execIcmpEchoRequest_kept h d
  | nextHopReply d => exact execNextHopReply_kept h d
  | nextHopRetry addr => exact execNextHopRetry_kept h addr
  | nextHopExpiry addr => exact execNextHopExpiry_kept h addr
  | notificationSend sub => exact execNotificationSend_kept h sub
  | sgmiiSyncLoss => exact execSgmiiSyncLoss_kept h
  | lockRequest core pkt => exact execLockRequest_kept h core pkt
  | lockTimeout => exact execLockTimeout_kept h
  | coreReset c core => exact execCoreReset_kept h c core
  | watchdogExpiry core => exact execWatchdogExpiry_kept h core
  | coreFault core => exact execCoreFault_kept h core
  | fwRestart c => exact execFwRestart_kept h c
  | fwCheckEnd slotA slotB config0 config1 => exact execFwCheckEnd_kept h slotA slotB config0 config1
  | flashImage c => exact execFlashImage_kept h c
  | flashConfig c => exact execFlashConfig_kept h c
  | watchPoll entry => exact execWatchPoll_kept h entry
  | flowhealthSample lane => exact execFlowhealthSample_kept h lane
  | signatureTap entry => exact execSignatureTap_kept h entry
  | golden c entry => exact execGolden_kept h c entry
  | streamExport entry => exact execStreamExport_kept h entry
  | streamSend entry => exact execStreamSend_kept h entry
  | resend c entry => exact execResend_kept h c entry
  | darnerBorrow inst fails => exact execDarnerBorrow_kept h inst fails
  | borrowEnd => exact execBorrowEnd_kept h
  | marchPreserve c => exact execMarchPreserve_kept h c
  | marchDestroy c => exact execMarchDestroy_kept h c
  | marchRecover c => exact execMarchRecover_kept h c
  | marchEnd rows cols => exact execMarchEnd_kept h rows cols
  | fuseRepairs c => exact execFuseRepairs_kept h c
  | fuseProgrammed => exact execFuseProgrammed_kept h
  | resetWarm c => exact execResetWarm_kept h c
  | resetControl c => exact execResetControl_kept h c
  | resetData c => exact execResetData_kept h c
  | resetManagement c => exact execResetManagement_kept h c
  | warmReset => exact execWarmReset_kept h
  | controlReset => exact execControlReset_kept h
  | dataReset => exact execDataReset_kept h
  | managementReset => exact execManagementReset_kept h
  | powerOnReset straps => exact absurd rfl (hpower straps)
  | standbyEntry micros rows cols => exact execStandbyEntry_kept h micros rows cols
  | thermalTrip tj => exact execThermalTrip_kept h tj
  | supplyFault rail => exact execSupplyFault_kept h rail
  | faultEntry => exact execFaultEntry_kept h
  | warmResetEnd micros rows cols => exact execWarmResetEnd_kept h micros rows cols
  | pcieLinkUp speed width => exact execPcieLinkUp_kept h speed width
  | cascadeSync port => exact execCascadeSync_kept h port
  | sgmiiSync => exact execSgmiiSync_kept h
  | vdpCommand d => exact execVdpCommand_kept h d
  | flashProgrammed => exact execFlashProgrammed_kept h
  | coreBooted core => exact execCoreBooted_kept h core

/-- What is kept of a state carries the invariant over. -/
theorem Kept.inv {s t : State} (h : Kept s t) (hs : Inv s) : Inv t := by
  have g : HeartKept s.heart t.heart := h
  exact ⟨g.mem hs.mem, g.shm hs.shm, g.dict hs.dict, g.journal hs.journal⟩

/-- The invariant says nothing of the tick count. -/
theorem inv_setTick {s : State} (hs : Inv s) (n : Nat) : Inv { s with tick := n } := ⟨hs.mem, hs.shm, hs.dict, hs.journal⟩

/-- The invariant says nothing of the queue of commands. -/
theorem inv_setPending {s : State} (hs : Inv s) (q : List Instr) : Inv { s with pending := q } := ⟨hs.mem, hs.shm, hs.dict, hs.journal⟩

/-- A next state that keeps what it should of a state under the invariant is under it. -/
theorem KeptAns.inv {s t : State} {r : Ans} (h : KeptAns s r) (hr : r = .next t) (hs : Inv s) : Inv t := by
  subst hr
  exact Kept.inv h hs

/-- TICK keeps the invariant: before the count runs only the clocks' input acts. -/
theorem execTick_inv {s t : State} {inp : TickInput} (hs : Inv s) (hr : execTick inp s = .next t) : Inv t := by
  cases hc : s.time.counting with
  | true => exact (execTick_kept inp s hc).inv hr (inv_setTick hs _)
  | false =>
    rw [execTick_stopped inp s hc] at hr
    exact (KeptAns.next (State.clockInput_kept (Kept.refl s) inp)).inv hr hs

theorem execTickLoad_inv {s t : State} (hs : Inv s) (hr : execTickLoad s = .next t) : Inv t := by
  obtain ⟨n, hn⟩ := execTickLoad_kept s t hr
  exact hn.inv (inv_setTick hs n)

theorem execPowerOnReset_inv {s t : State} {straps : Nat} (hs : Inv s) (hr : execPowerOnReset straps s = .next t) : Inv t :=
  (execPowerOnReset_kept straps s).inv hr (inv_setTick hs 0)

/-- Every command keeps the invariant of the memories. -/
theorem exec_inv {c : Instr} {s t : State} (hs : Inv s) (hr : exec c s = .next t) : Inv t := by
  by_cases htick : ∃ inp, c = .tick inp
  · obtain ⟨inp, rfl⟩ := htick
    exact execTick_inv hs hr
  by_cases hload : c = .tickLoad
  · subst hload
    exact execTickLoad_inv hs hr
  by_cases hpower : ∃ straps, c = .powerOnReset straps
  · obtain ⟨straps, rfl⟩ := hpower
    exact execPowerOnReset_inv hs hr
  exact (exec_kept (Kept.refl s) c (not_exists.mp htick) hload (not_exists.mp hpower)).inv hr hs

/-- Settles O58: an idle step is none, and the front command keeps the invariant whatever queue it runs with. -/
theorem stepKeepsTheMemoriesCanonical : Obligations.StepKeepsTheMemoriesCanonical := by
  unfold Obligations.StepKeepsTheMemoriesCanonical
  intro s t hs hr
  unfold step at hr
  split at hr
  · cases hr
    exact hs
  · exact exec_inv (inv_setPending hs _) hr

end Sys2Proof.Machine

namespace Sys2Proof.Machine

/-! A write of 1 to an object of type BOOL that asks for an action (R504, R513). -/

/-- An action that a write of 1 asks for: its object is a BOOL that is neither staged nor paired. -/
structure BoolAction (k : Nat) : Prop where
  key : k < 2 ^ 24
  pair : pairPartner k = none
  row : ∃ d, findObj k = some d ∧ d.ty = .bool ∧ d.acc = .wo

theorem BoolAction.unstaged {k : Nat} (h : BoolAction k) : isStaged k = false := by
  obtain ⟨d, hfind, -, hacc⟩ := h.row
  simp [isStaged, hfind, hacc]

section
variable {s s1 : State} {c : WriteCmd} {a : Accepted} {k : Nat}

/-- The write passes its check, and the action makes its end. -/
theorem Writes.boolAction (h : Writes s c k 1 s1 a) (hk : BoolAction k) {r : State × ObjOut}
    (hact : s1.act c.iss k (.num 1) (s1.tick + 1) = done r) (ho : r.2.status ≠ stPairPending) :
    Lands s1 (.next (s.writeNum c k 1)) (s1.endedOr c.flags a (r.2.refusedWith (.num 1)) r.1) := by
  obtain ⟨-, -, -, hwritable⟩ := id h
  obtain ⟨d, hfind, hbool, hacc⟩ := hk.row
  have hcheck : s1.checkEntry k (valBytes k (.num 1)) = okOut k (.num 1) :=
    State.checkEntry_bool hfind hwritable (by simp [hacc]) hbool (by decide) (by simp)
  exact State.writeNum_ends h hk.key hk.unstaged hk.pair hfind (by rw [hbool]; rfl) (by rw [hbool]; decide) hcheck hact ho

/-- An action that is carried out ends OK. -/
theorem Writes.boolAction_ok (h : Writes s c k 1 s1 a) (hk : BoolAction k) {t : State}
    (hact : s1.act c.iss k (.num 1) (s1.tick + 1) = done (t, okOut k (.num 1))) :
    Lands s1 (.next (s.writeNum c k 1)) (t.ended a (okOut k (.num 1))) := by
  have := h.boolAction hk hact (show stOk ≠ stPairPending by decide)
  rwa [State.endedOr_ok rfl rfl] at this

/-- An action that is refused changes nothing. -/
theorem Writes.boolAction_bad (h : Writes s c k 1 s1 a) (hk : BoolAction k) {st re : Nat} (hst : stRejected ≤ st)
    (hact : s1.act c.iss k (.num 1) (s1.tick + 1) = done (s1, badOut k st re)) :
    Lands s1 (.next (s.writeNum c k 1)) (s1.endedOr c.flags a ((badOut k st re).fill (.num 1)) s1) := by
  have hne : st ≠ stPairPending := by
    have : 16 ≤ st := hst
    show st ≠ 3
    omega
  have := h.boolAction hk hact hne
  rwa [show (badOut k st re).refusedWith (.num 1) = (badOut k st re).fill (.num 1) from if_pos hst] at this

/-- An action that has nothing to do changes nothing. -/
theorem Writes.boolAction_empty (h : Writes s c k 1 s1 a) (hk : BoolAction k)
    (hact : s1.act c.iss k (.num 1) (s1.tick + 1) = done (s1, emptyOut k)) :
    Lands s1 (.next (s.writeNum c k 1)) (s1.endedOr c.flags a (emptyOut k) s1) :=
  h.boolAction hk hact (show stEmpty ≠ stPairPending by decide)

end

/-- TRAIN is an action of the one object 5000:08. -/
theorem boolAction_train : BoolAction Obj.cmmTrain where
  key := by decide
  pair := by decide
  row := ⟨⟨0x5000, 1, 0x08, 1, .bool, .wo, false, .any, 0, true⟩, findObj_row (by decide), rfl, rfl⟩

/-- The rows of the queues name their sub-index in every queue (R375). -/
theorem queueRow_names {q m : Nat} (hq : q < 4096) : ∀ d ∈ objs40, d.names (0x4000 + q) m = d.names 0x4000 m := by
  intro d hd
  obtain ⟨hbase, hspan⟩ : d.base = 0x4000 ∧ d.span = 4096 := (by decide : ∀ d ∈ objs40, d.base = 0x4000 ∧ d.span = 4096) d hd
  have hin : 0x4000 + q < 0x4000 + 4096 := by omega
  simp [ObjDef.names, hbase, hspan, hin]

/-- An object of a queue has the row that queue 0 gives its sub-index. -/
theorem findObj_queue {q m : Nat} (hq : q < 4096) (hm : m < 256) {d : ObjDef} (h : objs40.find? (·.names 0x4000 m) = some d) :
    findObj ((0x4000 + q) * 256 + m) = some d := by
  have hindex : ((0x4000 + q) * 256 + m) / 256 = 0x4000 + q := by omega
  have hsub : ((0x4000 + q) * 256 + m) % 256 = m := by omega
  have hrows : rowsOf (((0x4000 + q) * 256 + m) / 65536) = objs40 := by
    obtain ⟨hi, hk⟩ : ∃ hi, ((0x4000 + q) * 256 + m) / 65536 = hi := ⟨_, rfl⟩
    have hlo : 0x40 ≤ hi := by omega
    have hup : hi ≤ 0x4F := by omega
    rw [hk]
    interval_cases hi <;> rfl
  refine findObj_row ?_
  rw [hindex, hsub, hrows, ← h]
  exact List.find?_congr (queueRow_names hq)

/-- The write-only BOOLs of a queue are actions. -/
theorem boolAction_queue {q m : Nat} (hq : q < 4096) (hm : m < 256) {d : ObjDef} (hrow : objs40.find? (·.names 0x4000 m) = some d)
    (hbool : d.ty = .bool) (hacc : d.acc = .wo) : BoolAction ((0x4000 + q) * 256 + m) where
  key := by omega
  pair := by
    have hfar {j : Nat} (hj : j / 65536 < 0x40 ∨ 0x50 ≤ j / 65536) : (0x4000 + q) * 256 + m ≠ j := by rintro rfl; omega
    have hindex : ¬ ((0x4000 + q) * 256 + m) / 256 < 0x1118 := by omega
    unfold pairPartner
    rw [if_neg (hfar (by decide)), if_neg (hfar (by decide)), if_neg (hfar (by decide)), if_neg (hfar (by decide)), if_neg (hfar (by decide)),
      if_neg (hfar (by decide)), if_neg (fun h => hindex h.2.1), if_neg (fun h => hindex h.2.1)]
  row := ⟨d, findObj_queue hq hm hrow, hbool, hacc⟩

end Sys2Proof.Machine

namespace Sys2Proof.Machine

/-! Training of the memory channels (R367 to R373). -/

section
variable {s t : State} (h : t.unnoted = s.unnoted)
include h

theorem State.cmm_of_unnoted : t.cmm = s.cmm :=
  have h := congrArg State.cmm h
  h

theorem State.queues_of_unnoted : t.queues = s.queues :=
  have h := congrArg State.queues h
  h

theorem State.mem_of_unnoted : t.mem = s.mem :=
  have h := congrArg State.mem h
  h

end

theorem State.setDev_unnoted (s : State) (d : Nat) (t : Tick) : (s.setDev d t).unnoted = s.unnoted := by
  unfold State.setDev
  dsimp only
  split
  · rfl
  · rw [State.notify_unnoted]
    rfl

/-- DEV_STATE and the counts of notifications are all that a change of DEV_STATE moves. -/
theorem State.setDev_obj_ne (s : State) (d : Nat) (t : Tick) {k : Nat} (hk : ¬ noteKey k) (hdev : k ≠ Obj.devDevState) :
    (s.setDev d t).obj k = s.obj k := by
  unfold State.setDev
  dsimp only
  split
  · rfl
  · rw [State.notify_obj _ _ _ _ _ hk]
    exact State.obj_setObj_ne _ _ hdev

theorem State.obj_setObjs_ne (s : State) {l : List (Key × Nat)} {k : Nat} (h : k ∉ l.map (·.1)) : (s.setObjs l).obj k = s.obj k := by
  induction l generalizing s with
  | nil => rfl
  | cons p l ih =>
    obtain ⟨hp, hl⟩ := not_or.mp (mt List.mem_cons.mpr h)
    exact (ih (s.setObj p.1 p.2) hl).trans (State.obj_setObj_ne _ _ hp)

/-- Of objects set in order, one that no later pair names reads what it was set to. -/
theorem State.obj_setObjs_head (s : State) {l : List (Key × Nat)} {k : Nat} (v : Nat) (h : k ∉ l.map (·.1)) : (s.setObjs ((k, v) :: l)).obj k = v :=
  (State.obj_setObjs_ne (s.setObj k v) h).trans (State.obj_setObj_self ..)

/-! Channel by channel. -/

/-- A change made channel by channel: of the objects of the one channel, and of nothing else. -/
structure PerChannel (f : State → Nat → State) : Prop where
  rest : ∀ s m, f s m = { s with dict := (f s m).dict }
  objs : ∀ s m k, k / 256 ≠ 0x5100 + m → (f s m).obj k = s.obj k

namespace PerChannel

variable {f : State → Nat → State} (h : PerChannel f) (s : State) {l : List Nat}
include h

theorem foldl_rest : l.foldl f s = { s with dict := (l.foldl f s).dict } := by
  induction l generalizing s with
  | nil => rfl
  | cons m l ih =>
    rw [List.foldl_cons, ih, h.rest s m]

/-- The objects of other indices read as before. -/
theorem foldl_obj_ne {k : Nat} (hk : ∀ m ∈ l, k / 256 ≠ 0x5100 + m) : (l.foldl f s).obj k = s.obj k := by
  induction l generalizing s with
  | nil => rfl
  | cons m l ih =>
    obtain ⟨hm, hl⟩ := List.forall_mem_cons.mp hk
    exact (ih _ hl).trans (h.objs s m k hm)

/-- An object of a channel reads what the change gives it. -/
theorem foldl_obj {m k v : Nat} (hm : m ∈ l) (hk : k / 256 = 0x5100 + m) (hv : ∀ s, (f s m).obj k = v) : (l.foldl f s).obj k = v := by
  induction l generalizing s with
  | nil => exact absurd hm List.not_mem_nil
  | cons n l ih =>
    by_cases hl : m ∈ l
    · exact ih _ hl
    · obtain rfl := (List.mem_cons.mp hm).resolve_right hl
      refine (h.foldl_obj_ne (f s m) fun n hn hkn => hl ?_).trans (hv s)
      obtain rfl : m = n := by omega
      exact hn

end PerChannel

theorem mcTrainState_index (m : Nat) : Obj.mcTrainState m / 256 = 0x5100 + m := by
  show ((0x5100 + m) * 256 + 1) / 256 = 0x5100 + m
  omega

theorem mcFailStep_index (m : Nat) : Obj.mcFailStep m / 256 = 0x5100 + m := by
  show ((0x5100 + m) * 256 + 2) / 256 = 0x5100 + m
  omega

theorem mcTrainState_ne_mcFailStep (m : Nat) : Obj.mcTrainState m ≠ Obj.mcFailStep m := by
  show (0x5100 + m) * 256 + 1 ≠ (0x5100 + m) * 256 + 2
  omega

theorem obj_ne_of_index {k j i : Nat} (hk : k / 256 ≠ i) (hj : j / 256 = i) : k ≠ j := by
  rintro rfl
  exact hk hj

/-- The objects of the memory manager and of its channels (R405, R408). -/
abbrev MemoryKey (k : Nat) : Prop := 0x5000 ≤ k / 256 ∧ k / 256 < 0x5200

/-- They count no notifications, and none is DEV_STATE. -/
theorem MemoryKey.apart {k : Nat} (h : MemoryKey k) : ¬ noteKey k ∧ k ≠ Obj.devDevState := by
  obtain ⟨hlo, hhi⟩ := h
  refine ⟨not_noteKey (by omega) ?_, ?_⟩ <;> rintro rfl
  · exact absurd hhi (by decide)
  · exact absurd hlo (by decide)

section
variable {m k : Nat} (hk : k / 256 = 0x5100 + m)
include hk

theorem memoryKey_channel (hm : m < 12) : MemoryKey k := by omega

theorem channelKey_ne_memState : k ≠ Obj.cmmMemState := obj_ne_of_index (i := 0x5000) (by omega) rfl

end

/-! TRAIN. -/

/-- A channel of the mask begins its training (R368). -/
def State.trainChannel (mask : Nat) (s : State) (m : Nat) : State :=
  if bit mask m then (s.setObj (Obj.mcTrainState m) 2).setObj (Obj.mcFailStep m) 0 else s

theorem perChannel_train (mask : Nat) : PerChannel (State.trainChannel mask) where
  rest s m := by
    unfold State.trainChannel
    split <;> rfl
  objs s m k hk := by
    unfold State.trainChannel
    split
    · rw [State.obj_setObj_ne _ _ (obj_ne_of_index hk (mcFailStep_index m)), State.obj_setObj_ne _ _ (obj_ne_of_index hk (mcTrainState_index m))]
    · rfl

/-- What training leaves of a queue: no page and nothing on its way into one (R369). -/
def Queue.forgotten (x : Queue) : Queue :=
  { x with pages := [], chunks := [], waiting := [], past := [], inbox := [], draining := false, stopAt := none }

/-- The channels of the mask have begun their training. -/
def State.channelsBegun (s : State) : State := (below 12).foldl (State.trainChannel (s.obj Obj.cmmChannelMask)) (s.setObj Obj.cmmMemState 1)

/-- The state in which training that begins at tick t runs. -/
def State.startTraining (s : State) (t : Tick) : State :=
  { s.channelsBegun with
    queues := s.channelsBegun.queues.mapVals Queue.forgotten, mem := [], memBad := [],
    cmm := { s.channelsBegun.cmm with free := [], training := some (t, s.obj Obj.cmmChannelMask), trainMask := s.obj Obj.cmmChannelMask, wq := [] } }

/-- What keeps training from beginning (R369). -/
def State.trainBusy (s : State) : Prop := s.queueList.any s.capturing = true ∨ s.cmm.leases ≠ [] ∨ s.cmm.training.isSome = true

section
variable {s : State} {t : Tick}

theorem State.trainDev_busy (h : s.trainBusy) : s.trainDev t = (s, badOut Obj.cmmTrain stBusy 0) := by
  have htrain : s.train t = (s, badOut Obj.cmmTrain stBusy 0) := if_pos h
  unfold State.trainDev
  rw [htrain]
  rfl

theorem State.trainDev_maskless (h : ¬ s.trainBusy) (hmask : s.obj Obj.cmmChannelMask = 0) : s.trainDev t = (s, rejOut Obj.cmmTrain) := by
  have htrain : s.train t = (s, rejOut Obj.cmmTrain) := (if_neg h).trans (if_pos hmask)
  unfold State.trainDev
  rw [htrain]
  rfl

theorem State.trainDev_starts (h : ¬ s.trainBusy) (hmask : s.obj Obj.cmmChannelMask ≠ 0) :
    s.trainDev t = ((s.startTraining t).setDev 2 t, okOut Obj.cmmTrain (.num 1)) := by
  have htrain : s.train t = (s.startTraining t, okOut Obj.cmmTrain (.num 1)) := (if_neg h).trans (if_neg hmask)
  unfold State.trainDev
  rw [htrain]
  rfl

end

section
variable (s : State) (t : Tick)

theorem State.startTraining_memState : (s.startTraining t).obj Obj.cmmMemState = 1 :=
  ((perChannel_train _).foldl_obj_ne (l := below 12) (s.setObj Obj.cmmMemState 1) (k := Obj.cmmMemState) (by decide)).trans (State.obj_setObj_self ..)

theorem State.startTraining_channel {m : Nat} (hm : m < 12) (hbit : bit (s.obj Obj.cmmChannelMask) m = true) :
    (s.startTraining t).obj (Obj.mcTrainState m) = 2 ∧ (s.startTraining t).obj (Obj.mcFailStep m) = 0 := by
  have hmem : m ∈ below 12 := mem_upFrom.mpr (by omega)
  constructor
  · refine (perChannel_train _).foldl_obj _ hmem (mcTrainState_index m) fun u => ?_
    rw [State.trainChannel, if_pos hbit, State.obj_setObj_ne _ _ (mcTrainState_ne_mcFailStep m), State.obj_setObj_self]
  · refine (perChannel_train _).foldl_obj _ hmem (mcFailStep_index m) fun u => ?_
    rw [State.trainChannel, if_pos hbit, State.obj_setObj_self]

theorem State.channelsBegun_rest : s.channelsBegun = { s with dict := s.channelsBegun.dict } := (perChannel_train _).foldl_rest _

theorem State.startTraining_cmm : (s.startTraining t).cmm =
    { s.cmm with free := [], training := some (t, s.obj Obj.cmmChannelMask), trainMask := s.obj Obj.cmmChannelMask, wq := [] } := by
  unfold State.startTraining
  rw [State.channelsBegun_rest]

theorem State.startTraining_queue (q : Nat) : (s.startTraining t).queue q = (s.queue q).forgotten := by
  unfold State.startTraining
  rw [State.channelsBegun_rest]
  exact Tab.getD_mapVals s.queues (f := Queue.forgotten) (d := {}) rfl q

end

/-! TRAIN_END. -/

/-- A channel of the mask ends its training, where it failed with its step (R368). -/
def State.endChannel (mask : Nat) (fails : List (Nat × Nat)) (s : State) (m : Nat) : State :=
  if bit mask m then
    match Tab.find fails m with
    | some step => (s.setObj (Obj.mcTrainState m) 4).setObj (Obj.mcFailStep m) step
    | none => s.setObj (Obj.mcTrainState m) 3
  else s

section
variable {mask m : Nat} {fails : List (Nat × Nat)} (hbit : bit mask m = true) (s : State)
include hbit

theorem State.endChannel_failed {step : Nat} (h : Tab.find fails m = some step) :
    s.endChannel mask fails m = (s.setObj (Obj.mcTrainState m) 4).setObj (Obj.mcFailStep m) step := by
  rw [State.endChannel, if_pos hbit, h]

theorem State.endChannel_passed (h : Tab.find fails m = none) : s.endChannel mask fails m = s.setObj (Obj.mcTrainState m) 3 := by
  rw [State.endChannel, if_pos hbit, h]

end

theorem perChannel_end (mask : Nat) (fails : List (Nat × Nat)) : PerChannel (State.endChannel mask fails) where
  rest s m := by
    unfold State.endChannel
    (repeat' split) <;> rfl
  objs s m k hk := by
    have hstate := obj_ne_of_index hk (mcTrainState_index m)
    have hstep := obj_ne_of_index hk (mcFailStep_index m)
    unfold State.endChannel
    split
    · split
      · rw [State.obj_setObj_ne _ _ hstep, State.obj_setObj_ne _ _ hstate]
      · exact State.obj_setObj_ne _ _ hstate
    · rfl

/-- The failures that training can have had: of channels it tried, at one of the seven steps (R367, R368). -/
def realFails (mask : Nat) (fails : List (Nat × Nat)) : List (Nat × Nat) :=
  fails.filter (fun e => e.1 < 12 && bit mask e.1 && 1 ≤ e.2 && e.2 ≤ 7)

/-- The channels of the mask have ended, and no training runs. -/
def State.channelsEnded (s : State) (mask : Nat) (fails : List (Nat × Nat)) : State :=
  { (below 12).foldl (State.endChannel mask fails) s with cmm := { ((below 12).foldl (State.endChannel mask fails) s).cmm with training := none } }

theorem State.finishTraining_eq {s : State} {t0 mask : Nat} {fails : List (Nat × Nat)} (h : s.cmm.training = some (t0, mask)) :
    s.finishTraining fails = if realFails mask fails = [] then ((s.channelsEnded mask (realFails mask fails)).setObj Obj.cmmMemState 2).sizeMemory
      else (s.channelsEnded mask (realFails mask fails)).setObj Obj.cmmMemState 3 := by
  unfold State.finishTraining
  rw [h]
  rfl

section
variable (s : State) (mask : Nat) (fails : List (Nat × Nat))

theorem State.channelsEnded_rest : s.channelsEnded mask fails =
    { s with dict := (s.channelsEnded mask fails).dict, cmm := { s.cmm with training := none } } := by
  unfold State.channelsEnded
  rw [(perChannel_end mask fails).foldl_rest]

theorem State.channelsEnded_obj {k : Nat} (hk : ∀ m ∈ below 12, k / 256 ≠ 0x5100 + m) : (s.channelsEnded mask fails).obj k = s.obj k :=
  (perChannel_end mask fails).foldl_obj_ne s hk

variable {mask} {m : Nat} (hm : m < 12) (hbit : bit mask m = true)
include hm hbit

theorem State.channelsEnded_passed (h : Tab.find fails m = none) : (s.channelsEnded mask fails).obj (Obj.mcTrainState m) = 3 := by
  refine (perChannel_end mask fails).foldl_obj s (mem_upFrom.mpr (by omega)) (mcTrainState_index m) fun u => ?_
  rw [State.endChannel_passed hbit u h, State.obj_setObj_self]

theorem State.channelsEnded_failed {step : Nat} (h : Tab.find fails m = some step) :
    (s.channelsEnded mask fails).obj (Obj.mcTrainState m) = 4 ∧ (s.channelsEnded mask fails).obj (Obj.mcFailStep m) = step := by
  have hmem : m ∈ below 12 := mem_upFrom.mpr (by omega)
  constructor
  · refine (perChannel_end mask fails).foldl_obj s hmem (mcTrainState_index m) fun u => ?_
    rw [State.endChannel_failed hbit u h, State.obj_setObj_ne _ _ (mcTrainState_ne_mcFailStep m), State.obj_setObj_self]
  · refine (perChannel_end mask fails).foldl_obj s hmem (mcFailStep_index m) fun u => ?_
    rw [State.endChannel_failed hbit u h, State.obj_setObj_self]

end

end Sys2Proof.Machine

namespace Sys2Proof.Machine

/-! The memory that training leaves (R371, R373). -/

/-- TOTAL_PAGES of the population in force (R371). -/
def State.totalPages (s : State) : Nat :=
  ones 12 (s.obj Obj.cmmChannelMask) * s.obj Obj.cmmDpc * moduleGb (s.obj Obj.cmmRanks) (s.obj Obj.cmmDeviceWidth) (s.obj Obj.cmmDensityGbit) * 16384

/-- USABLE_PAGES of the population in force, below the mirror and the free-list store (R373). -/
def State.usablePages (s : State) : Nat := s.totalPages - ceilDiv s.totalPages 16384 - s.obj Obj.jnlMirrorEntries / 2048

/-- What the size of the memory follows from. -/
def populationKeys : List Key :=
  [Obj.cmmChannelMask, Obj.cmmDpc, Obj.cmmRanks, Obj.cmmDeviceWidth, Obj.cmmDensityGbit, Obj.jnlMirrorEntries]

section
variable {s t : State} (h : ∀ k ∈ populationKeys, t.obj k = s.obj k)
include h

theorem State.totalPages_congr : t.totalPages = s.totalPages := by
  unfold State.totalPages
  rw [h Obj.cmmChannelMask (by decide), h Obj.cmmDpc (by decide), h Obj.cmmRanks (by decide), h Obj.cmmDeviceWidth (by decide),
    h Obj.cmmDensityGbit (by decide)]

theorem State.usablePages_congr : t.usablePages = s.usablePages := by
  unfold State.usablePages
  rw [State.totalPages_congr h, h Obj.jnlMirrorEntries (by decide)]

end

/-- The objects that sizing the memory sets: its pages and rates, and the journal's mirror, which is made anew (R371, R373, R393, R568). -/
def sizeKeys : List Key :=
  [Obj.cmmTotalPages, Obj.cmmUsablePages, Obj.cmmMirrorPages, Obj.cmmPeakMbps, Obj.cmmGuaranteeMbps, Obj.cmmReadGuaranteeMbps,
    Obj.jnlMirrorState, Obj.jnlMirrorOldestEno]

/-- Sizing the memory sets those objects and lists every usable page as free. -/
theorem State.sizeMemory_eq (s : State) : ∃ mirror peak guarantee read state oldest entries, s.sizeMemory =
    { (s.setObjs [(Obj.cmmTotalPages, s.totalPages), (Obj.cmmUsablePages, s.usablePages), (Obj.cmmMirrorPages, mirror), (Obj.cmmPeakMbps, peak),
          (Obj.cmmGuaranteeMbps, guarantee), (Obj.cmmReadGuaranteeMbps, read)]).setObjs [(Obj.jnlMirrorState, state), (Obj.jnlMirrorOldestEno, oldest)] with
      mirror := [], cmm := { s.cmm with free := if s.usablePages = 0 then [] else [(0, s.usablePages)], mirror := entries } } :=
  ⟨_, _, _, _, _, _, _, rfl⟩

theorem State.setObjs_rest (s : State) (l : List (Key × Nat)) : s.setObjs l = { s with dict := (s.setObjs l).dict } := by
  induction l generalizing s with
  | nil => rfl
  | cons p l ih => exact ih (s.setObj p.1 p.2)

/-- What sizing the memory leaves. -/
structure Sized (s t : State) : Prop where
  totalPages : t.obj Obj.cmmTotalPages = s.totalPages
  usablePages : t.obj Obj.cmmUsablePages = s.usablePages
  objs : ∀ k, k ∉ sizeKeys → t.obj k = s.obj k
  free : t.cmm.free = if s.usablePages = 0 then [] else [(0, s.usablePages)]
  training : t.cmm.training = s.cmm.training
  queues : t.queues = s.queues
  mem : t.mem = s.mem

theorem State.sizeMemory_sized (s : State) : Sized s s.sizeMemory := by
  obtain ⟨mirror, peak, guarantee, read, state, oldest, entries, hsize⟩ := s.sizeMemory_eq
  generalize hu : s.setObjs _ = u at hsize
  have hrest : u = { s with dict := u.dict } := hu ▸ s.setObjs_rest _
  have hdict : s.sizeMemory.dict = (u.setObjs [(Obj.jnlMirrorState, state), (Obj.jnlMirrorOldestEno, oldest)]).dict := by rw [hsize]
  have hobj {k : Nat} (hk : k ∉ sizeKeys.drop 6) : s.sizeMemory.obj k = u.obj k :=
    (State.obj_of_dict hdict k).trans (u.obj_setObjs_ne hk)
  refine ⟨(hobj (by decide)).trans ?_, (hobj (by decide)).trans ?_, fun k hk => ?_, by rw [hsize], by rw [hsize], ?_, ?_⟩
  · rw [← hu]
    exact s.obj_setObjs_head _ (show _ ∉ (sizeKeys.take 6).drop 1 by decide)
  · rw [← hu]
    exact (s.setObj Obj.cmmTotalPages s.totalPages).obj_setObjs_head _ (show _ ∉ (sizeKeys.take 6).drop 2 by decide)
  · obtain ⟨hpages, hmirror⟩ := not_or.mp (mt List.mem_append.mpr (show k ∉ sizeKeys.take 6 ++ sizeKeys.drop 6 from hk))
    rw [hobj hmirror, ← hu]
    exact s.obj_setObjs_ne hpages
  · rw [hsize, State.setObjs_rest, hrest]
  · rw [hsize, State.setObjs_rest, hrest]

end Sys2Proof.Machine

namespace Sys2Proof.Machine

/-! The end of training, and what it leaves DEV_STATE (R663). -/

/-- Training leaves TRAINING for READY or STANDBY. -/
def State.leaveTraining (s : State) (t : Tick) : State :=
  if s.obj Obj.devDevState = 2 then s.setDev (if s.obj Obj.cmmMemState = 2 then 3 else 1) t else s

section
variable (s : State) (t : Tick)

theorem State.leaveTraining_unnoted : (s.leaveTraining t).unnoted = s.unnoted := by
  unfold State.leaveTraining
  split
  · exact s.setDev_unnoted ..
  · rfl

theorem State.leaveTraining_cmm : (s.leaveTraining t).cmm = s.cmm := State.cmm_of_unnoted (s.leaveTraining_unnoted t)

theorem State.leaveTraining_queues : (s.leaveTraining t).queues = s.queues := State.queues_of_unnoted (s.leaveTraining_unnoted t)

theorem State.leaveTraining_mem : (s.leaveTraining t).mem = s.mem := State.mem_of_unnoted (s.leaveTraining_unnoted t)

/-- The objects of the memory stand as training left them. -/
theorem State.leaveTraining_obj {k : Nat} (h : MemoryKey k) : (s.leaveTraining t).obj k = s.obj k := by
  obtain ⟨hnote, hdev⟩ := h.apart
  unfold State.leaveTraining
  split
  · exact s.setDev_obj_ne _ _ hnote hdev
  · rfl

theorem State.leaveTraining_state (h : s.obj Obj.devDevState = 2) :
    (s.leaveTraining t).obj Obj.devDevState = if s.obj Obj.cmmMemState = 2 then 3 else 1 := by
  rw [State.leaveTraining, if_pos h, State.setDev_state]

end

theorem exec_trainEnd {s : State} {fails : List (Nat × Nat)} {t0 mask : Nat} (h : s.cmm.training = some (t0, mask)) :
    exec (.trainEnd fails) s = .next ((s.finishTraining fails).leaveTraining (s.tick + 1)) := by
  show execTrainEnd fails s = _
  unfold execTrainEnd
  rw [h]
  rfl

/-- Every channel of the mask has passed. -/
structure TrainingPassed (s t : State) (mask : Nat) : Prop where
  memState : t.obj Obj.cmmMemState = 2
  totalPages : t.obj Obj.cmmTotalPages = s.totalPages
  usablePages : t.obj Obj.cmmUsablePages = s.usablePages
  free : t.cmm.free = if s.usablePages = 0 then [] else [(0, s.usablePages)]
  dev : s.obj Obj.devDevState = 2 → t.obj Obj.devDevState = 3
  channels : ∀ m, m < 12 → bit mask m = true → t.obj (Obj.mcTrainState m) = 3

/-- A channel of the mask has failed; each says at which step, or that it has passed. -/
structure TrainingFailed (s t : State) (mask : Nat) (fails : List (Nat × Nat)) : Prop where
  memState : t.obj Obj.cmmMemState = 3
  dev : s.obj Obj.devDevState = 2 → t.obj Obj.devDevState = 1
  free : t.cmm.free = s.cmm.free
  channels : ∀ m, m < 12 → bit mask m = true → match Tab.find fails m with
    | some step => t.obj (Obj.mcTrainState m) = 4 ∧ t.obj (Obj.mcFailStep m) = step
    | none => t.obj (Obj.mcTrainState m) = 3

/-- Training has ended, and neither queues nor memory have changed in it. -/
structure TrainingOver (s t : State) : Prop where
  training : t.cmm.training = none
  queues : t.queues = s.queues
  mem : t.mem = s.mem

theorem not_mem_sizeKeys {m : Nat} (hm : m < 12) {k : Nat} (hk : k / 256 = 0x5100 + m) : k ∉ sizeKeys := fun h =>
  (by decide : ∀ j ∈ sizeKeys, ∀ m ∈ below 12, j / 256 ≠ 0x5100 + m) k h m (mem_upFrom.mpr (by omega)) hk

section
variable {s : State} {fails : List (Nat × Nat)} {t0 mask : Nat} (h : s.cmm.training = some (t0, mask)) (t : Tick)
include h

theorem State.finishTraining_passed (hreal : realFails mask fails = []) :
    TrainingOver s ((s.finishTraining fails).leaveTraining t) ∧ TrainingPassed s ((s.finishTraining fails).leaveTraining t) mask := by
  rw [State.finishTraining_eq h, if_pos hreal, hreal]
  have hrest := s.channelsEnded_rest mask []
  have hended {k : Nat} (hk : ∀ m ∈ below 12, k / 256 ≠ 0x5100 + m) := s.channelsEnded_obj mask [] hk
  have hchannels {m : Nat} (hm : m < 12) (hbit : bit mask m = true) := s.channelsEnded_passed [] hm hbit rfl
  generalize s.channelsEnded mask [] = u at *
  have hset {k : Nat} (hk : k ≠ Obj.cmmMemState) : (u.setObj Obj.cmmMemState 2).obj k = u.obj k := State.obj_setObj_ne _ _ hk
  have hpop : ∀ k ∈ populationKeys, (u.setObj Obj.cmmMemState 2).obj k = s.obj k := fun k hk =>
    (hset ((by decide : ∀ k ∈ populationKeys, k ≠ Obj.cmmMemState) k hk)).trans
      (hended ((by decide : ∀ k ∈ populationKeys, ∀ m ∈ below 12, k / 256 ≠ 0x5100 + m) k hk))
  have hsized := (u.setObj Obj.cmmMemState 2).sizeMemory_sized
  generalize (u.setObj Obj.cmmMemState 2).sizeMemory = v at *
  have hmem : v.obj Obj.cmmMemState = 2 := (hsized.objs _ (by decide)).trans (State.obj_setObj_self ..)
  have hdev : v.obj Obj.devDevState = s.obj Obj.devDevState :=
    (hsized.objs _ (by decide)).trans ((hset (by decide)).trans (hended (by decide)))
  refine ⟨⟨?_, ?_, ?_⟩, ?_, ?_, ?_, ?_, fun hs => ?_, fun m hm hbit => ?_⟩
  · rw [v.leaveTraining_cmm, hsized.training, State.setObj_cmm, hrest]
  · rw [v.leaveTraining_queues, hsized.queues, State.setObj_queues, hrest]
  · rw [v.leaveTraining_mem, hsized.mem, State.setObj_mem, hrest]
  · exact (v.leaveTraining_obj t (by decide)).trans hmem
  · rw [v.leaveTraining_obj t (by decide), hsized.totalPages, State.totalPages_congr hpop]
  · rw [v.leaveTraining_obj t (by decide), hsized.usablePages, State.usablePages_congr hpop]
  · rw [v.leaveTraining_cmm, hsized.free, State.usablePages_congr hpop]
  · rw [v.leaveTraining_state t (hdev.trans hs), if_pos hmem]
  · have hindex := mcTrainState_index m
    rw [v.leaveTraining_obj t (memoryKey_channel hindex hm), hsized.objs _ (not_mem_sizeKeys hm hindex), hset (channelKey_ne_memState hindex), hchannels hm hbit]

theorem State.finishTraining_failed (hreal : realFails mask fails ≠ []) :
    TrainingOver s ((s.finishTraining fails).leaveTraining t)
      ∧ TrainingFailed s ((s.finishTraining fails).leaveTraining t) mask (realFails mask fails) := by
  rw [State.finishTraining_eq h, if_neg hreal]
  generalize realFails mask fails = real
  have hrest := s.channelsEnded_rest mask real
  have hdev := s.channelsEnded_obj mask real (k := Obj.devDevState) (by decide)
  have hpassed {m : Nat} (hm : m < 12) (hbit : bit mask m = true) := s.channelsEnded_passed real hm hbit
  have hfailed {m : Nat} (hm : m < 12) (hbit : bit mask m = true) {step : Nat} := s.channelsEnded_failed real hm hbit (step := step)
  generalize s.channelsEnded mask real = u at *
  generalize hv : u.setObj Obj.cmmMemState 3 = v
  have hmem : v.obj Obj.cmmMemState = 3 := hv ▸ State.obj_setObj_self ..
  have hset {k : Nat} (hk : k ≠ Obj.cmmMemState) : v.obj k = u.obj k := hv ▸ State.obj_setObj_ne _ _ hk
  refine ⟨⟨?_, ?_, ?_⟩, ?_, fun hs => ?_, ?_, fun m hm hbit => ?_⟩
  · rw [v.leaveTraining_cmm, ← hv, State.setObj_cmm, hrest]
  · rw [v.leaveTraining_queues, ← hv, State.setObj_queues, hrest]
  · rw [v.leaveTraining_mem, ← hv, State.setObj_mem, hrest]
  · exact (v.leaveTraining_obj t (by decide)).trans hmem
  · rw [v.leaveTraining_state t ((hset (by decide)).trans (hdev.trans hs)), if_neg (by rw [hmem]; decide)]
  · rw [v.leaveTraining_cmm, ← hv, State.setObj_cmm, hrest]
  · have hobj {k : Nat} (hk : k / 256 = 0x5100 + m) : (v.leaveTraining t).obj k = u.obj k :=
      (v.leaveTraining_obj t (memoryKey_channel hk hm)).trans (hset (channelKey_ne_memState hk))
    rw [hobj (mcTrainState_index m), hobj (mcFailStep_index m)]
    split
    · next step hstep => exact hfailed hm hbit hstep
    · next hnone => exact hpassed hm hbit hnone

end

/-! The balls of a memory channel (R694). -/

/-- The level of a ball of a channel outside CHANNEL_MASK. -/
theorem State.memBall_unused {s : State} {m : Nat} (hm : m < memChansOf s.otp.variant) (hbit : bit (s.obj Obj.cmmChannelMask) m = false) (n : Nat) :
    s.memBall m .drst = .low ∧ s.memBall m (.ckTrue n) = .low ∧ s.memBall m (.ckComp n) = .high ∧ s.memBall m (.dca n) = .low
      ∧ s.memBall m .dpar = .low ∧ s.memBall m (.dcs n) = .low ∧ s.memBall m (.dq n) = .pulledDown ∧ s.memBall m (.dqs n) = .pulledDown := by
  simp [State.memBall, Nat.not_le.mpr hm, hbit]

/-- With DPC 1 the balls of the second module stand still. -/
theorem State.memBall_oneModule {s : State} {m : Nat} (hm : m < memChansOf s.otp.variant) (hbit : bit (s.obj Obj.cmmChannelMask) m = true)
    (hdpc : s.obj Obj.cmmDpc = 1) : s.memBall m (.dcs 2) = .high ∧ s.memBall m (.dcs 3) = .high ∧ s.memBall m (.ckTrue 1) = .low
      ∧ s.memBall m (.ckComp 1) = .high := by
  simp [State.memBall, Nat.not_le.mpr hm, hbit, hdpc]

/-- What an accepted TRAIN leaves: TRAINING, no page of any queue, and each channel of the mask at its beginning. -/
structure TrainingBegun (s t : State) : Prop where
  dev : t.obj Obj.devDevState = 2
  memState : t.obj Obj.cmmMemState = 1
  mem : t.mem = []
  free : t.cmm.free = []
  training : t.cmm.training = some (s.tick + 1, s.obj Obj.cmmChannelMask)
  trainMask : t.cmm.trainMask = s.obj Obj.cmmChannelMask
  queues : ∀ q, (t.queue q).pages = [] ∧ (t.queue q).chunks = [] ∧ (t.queue q).waiting = [] ∧ (t.queue q).past = []
  channels : ∀ m, m < 12 → bit (s.obj Obj.cmmChannelMask) m = true → t.obj (Obj.mcTrainState m) = 2 ∧ t.obj (Obj.mcFailStep m) = 0

theorem State.startTraining_begun (s : State) : TrainingBegun s ((s.startTraining (s.tick + 1)).setDev 2 (s.tick + 1)) := by
  have hmemState := s.startTraining_memState (s.tick + 1)
  have hcmm := s.startTraining_cmm (s.tick + 1)
  have hqueue := s.startTraining_queue (s.tick + 1)
  have hchannel {m : Nat} := s.startTraining_channel (s.tick + 1) (m := m)
  have hmem : (s.startTraining (s.tick + 1)).mem = [] := rfl
  generalize s.startTraining (s.tick + 1) = u at *
  have hnoted := u.setDev_unnoted 2 (s.tick + 1)
  have hobj {k : Nat} (h : MemoryKey k) : (u.setDev 2 (s.tick + 1)).obj k = u.obj k :=
    u.setDev_obj_ne _ _ h.apart.1 h.apart.2
  have hdev := u.setDev_state 2 (s.tick + 1)
  generalize u.setDev 2 (s.tick + 1) = t at *
  have htcmm := State.cmm_of_unnoted hnoted
  have htqueue (q : Nat) : t.queue q = u.queue q := by
    rw [State.queue, State.queue, State.queues_of_unnoted hnoted]
  refine ⟨hdev, (hobj (by decide)).trans hmemState, (State.mem_of_unnoted hnoted).trans hmem, by rw [htcmm, hcmm], by rw [htcmm, hcmm],
    by rw [htcmm, hcmm], fun q => ?_, fun m hm hbit => ?_⟩
  · rw [htqueue, hqueue]
    exact ⟨rfl, rfl, rfl, rfl⟩
  · rw [hobj (memoryKey_channel (mcTrainState_index m) hm), hobj (memoryKey_channel (mcFailStep_index m) hm)]
    exact hchannel hm hbit

/-- Settles O33: TRAIN is a refusal, or begins channel by channel; its end sizes the memory or leaves it failed. -/
theorem trainingMakesTheMemoryReady : Obligations.TrainingMakesTheMemoryReady := by
  unfold Obligations.TrainingMakesTheMemoryReady
  refine ⟨fun s s1 c a hw hv => ?_, fun s fails t0 mask htraining => ?_, fun s m hm => ⟨fun hbit => s.memBall_unused hm hbit, s.memBall_oneModule hm⟩⟩
  · have hrow : exec (.train c) s = .next (s.writeNum c Obj.cmmTrain 1) := congrArg (fun v => Host.Outcome.next (s.writeNum c Obj.cmmTrain v)) hv
    rw [hrow]
    split
    · next hbusy => exact hw.boolAction_bad boolAction_train (by decide) (congrArg done (State.trainDev_busy hbusy))
    next hidle =>
    split
    · next hmask => exact hw.boolAction_bad boolAction_train (by decide) (congrArg done (State.trainDev_maskless hidle hmask))
    next hmask =>
    obtain ⟨hdev, hmemState, hmem, hfree, htraining, htrainMask, hqueues, hchannels⟩ := s1.startTraining_begun
    exact ⟨_, hw.boolAction_ok boolAction_train (congrArg done (State.trainDev_starts hidle hmask)), hdev, hmemState, hmem, hfree, htraining, htrainMask,
      hqueues, hchannels⟩
  · intro real gb total usable
    refine ⟨_, exec_trainEnd htraining, ?_⟩
    by_cases hreal : realFails mask fails = []
    · obtain ⟨⟨htraining, hqueues, hmem⟩, hstate, htotal, husable, hfree, hdev, hchannels⟩ := State.finishTraining_passed htraining (s.tick + 1) hreal
      exact ⟨htraining, hqueues, hmem, fun _ => ⟨hstate, htotal, husable, hfree, hdev, hchannels⟩, fun h => absurd hreal h⟩
    · obtain ⟨⟨htraining, hqueues, hmem⟩, hstate, hdev, hfree, hchannels⟩ := State.finishTraining_failed htraining (s.tick + 1) hreal
      exact ⟨htraining, hqueues, hmem, fun h => absurd h hreal, fun _ => ⟨hstate, hdev, hfree, hchannels⟩⟩

end Sys2Proof.Machine

namespace Sys2Proof.Machine

/-! The pages of a queue that are freed (R385, R399). -/

/-- From s to t nothing happened but that pages of one queue went to the free list: no other queue changed, and this one kept its contexts and has
no new page. -/
structure PagesFreed (q : Nat) (s t : State) : Prop where
  rest : t = { s with queues := t.queues, cmm := { s.cmm with free := t.cmm.free } }
  others : ∀ r, r ≠ q → t.queue r = s.queue r
  coders : (t.queue q).coders = (s.queue q).coders
  pages : ∀ p ∈ (t.queue q).pages, p ∈ (s.queue q).pages

namespace PagesFreed

variable {q : Nat} {s t u : State}

theorem refl (s : State) : PagesFreed q s s := ⟨rfl, fun _ _ => rfl, rfl, fun _ => id⟩

theorem trans (h : PagesFreed q s t) (g : PagesFreed q t u) : PagesFreed q s u where
  rest := by
    rw [g.rest, h.rest]
  others r hr := (g.others r hr).trans (h.others r hr)
  coders := g.coders.trans h.coders
  pages p hp := h.pages p (g.pages p hp)

end PagesFreed

section
variable (s : State) (q : Nat) (p : Page)

theorem State.freePage_queue : (s.freePage q p).queue q =
    { s.queue q with pages := (s.queue q).pages.filter (fun y => y.pfn != p.pfn), chunks := (s.queue q).chunks.filter (fun c => c.pfn != p.pfn) } :=
  State.queue_setQueue_self ..

theorem State.freePage_freed : PagesFreed q s (s.freePage q p) where
  rest := rfl
  others r hr := (State.queue_setQueue s q _ r).trans (if_neg hr)
  coders := by rw [s.freePage_queue q p]
  pages y hy := by
    rw [s.freePage_queue q p] at hy
    exact (List.mem_filter.mp hy).1

theorem State.mem_freePage {y : Page} : y ∈ ((s.freePage q p).queue q).pages ↔ y ∈ (s.queue q).pages ∧ y.pfn ≠ p.pfn := by
  rw [s.freePage_queue q p]
  simp

/-- The page that a sweep of a queue lets go next (R385, R399). -/
def State.sweepNext : Option Page :=
  (s.queue q).pages.find? (fun p => !s.cmm.covers q p && (p.freePending
    || (p.consumed && ((s.queue q).pages.find? (fun y => y.capture = p.capture)).map (·.pfn) = some p.pfn)))

theorem State.sweepPages_succ (n : Nat) : s.sweepPages q (n + 1) = match s.sweepNext q with
    | some p => (s.freePage q p).sweepPages q n
    | none => s := rfl

/-- A page that is let go belongs to the queue, and no lease covers it. -/
theorem State.sweepNext_some {p : Page} (h : s.sweepNext q = some p) : p ∈ (s.queue q).pages ∧ s.cmm.covers q p = false := by
  refine ⟨List.mem_of_find?_eq_some h, ?_⟩
  have := List.find?_some h
  simp only [Bool.and_eq_true, Bool.not_eq_true'] at this
  exact this.1

theorem State.sweepPages_freed (n : Nat) : PagesFreed q s (s.sweepPages q n) := by
  induction n generalizing s with
  | zero => exact .refl s
  | succ n ih =>
    rw [State.sweepPages_succ]
    split
    · exact (s.freePage_freed q _).trans (ih _)
    · exact .refl s

end

section
variable {s : State} {q : Nat}

/-- Where no page is let go, a page that waits to be freed stands under a lease. -/
theorem State.covers_of_sweepNext_none (h : s.sweepNext q = none) {p : Page} (hp : p ∈ (s.queue q).pages) (hpending : p.freePending = true) :
    s.cmm.covers q p = true := by
  have := List.find?_eq_none.mp h p hp
  simpa [hpending] using this

/-- A sweep long enough frees every page that waits for it and has no lease. -/
theorem State.sweepPages_covers {n : Nat} (hn : (s.queue q).pages.length ≤ n) (hpending : ∀ p ∈ (s.queue q).pages, p.freePending = true) :
    ∀ p ∈ ((s.sweepPages q n).queue q).pages, s.cmm.covers q p = true := by
  induction n generalizing s with
  | zero =>
    intro p hp
    have hempty : (s.queue q).pages = [] := List.length_eq_zero_iff.mp (Nat.le_zero.mp hn)
    exact absurd (hempty ▸ hp) List.not_mem_nil
  | succ n ih =>
    rw [State.sweepPages_succ]
    cases hnext : s.sweepNext q with
    | none => exact fun p hp => State.covers_of_sweepNext_none hnext hp (hpending p hp)
    | some y =>
      obtain ⟨hy, -⟩ := State.sweepNext_some s q hnext
      have hshorter : ((s.freePage q y).queue q).pages.length < (s.queue q).pages.length := by
        rw [s.freePage_queue q y]
        exact List.length_filter_lt_length_iff_exists.mpr ⟨y, hy, by simp⟩
      exact ih (s := s.freePage q y) (by omega) fun p hp => hpending p ((s.freePage_freed q y).pages p hp)

/-- A page under a lease outlives a sweep, unless a page without one shares its frame. -/
theorem State.mem_sweepPages {p : Page} (hp : p ∈ (s.queue q).pages) (hcovered : s.cmm.covers q p = true)
    (hframe : ∀ x ∈ (s.queue q).pages, x.pfn = p.pfn → x = p) (n : Nat) : p ∈ ((s.sweepPages q n).queue q).pages := by
  induction n generalizing s with
  | zero => exact hp
  | succ n ih =>
    rw [State.sweepPages_succ]
    cases hnext : s.sweepNext q with
    | none => exact hp
    | some y =>
      obtain ⟨hy, hfree⟩ := State.sweepNext_some s q hnext
      have hne : p.pfn ≠ y.pfn := by
        intro e
        rw [hframe y hy e.symm, hcovered] at hfree
        cases hfree
      exact ih (s := s.freePage q y) ((s.mem_freePage q y).mpr ⟨hp, hne⟩) hcovered fun x hx => hframe x ((s.freePage_freed q y).pages x hx)

end

/-! FREE (R385). -/

/-- Every page of the queue waits to be freed, and its contexts are free. -/
def Queue.givenUp (x : Queue) : Queue := { x with pages := x.pages.map (fun p => { p with freePending := true }), coders := [] }

section
variable {s : State} {q : Nat}

theorem State.freeQueue_busy (h : s.activeQueue q = true) : s.freeQueue q = (s, badOut (Obj.qFree q) stBusy 0) := if_pos h

theorem State.freeQueue_idle (h : ¬ s.activeQueue q = true) :
    s.freeQueue q = ((s.setQueue q (s.queue q).givenUp).sweepPages q (s.queue q).pages.length, okOut (Obj.qFree q) (.num 1)) := if_neg h

end

/-- What FREE leaves: the pages under a lease, which wait for its end, and nothing else of the queue. -/
structure QueueFreed (q : Nat) (s t : State) : Prop where
  rest : t = { s with queues := t.queues, cmm := { s.cmm with free := t.cmm.free } }
  others : ∀ r, r ≠ q → t.queue r = s.queue r
  coders : (t.queue q).coders = []
  waiting : ∀ p ∈ (t.queue q).pages, p.freePending = true ∧ s.cmm.covers q p = true
  leased : ∀ p ∈ (s.queue q).pages, s.cmm.covers q p = true → (∀ x ∈ (s.queue q).pages, x.pfn = p.pfn → x = p) →
    ∃ x ∈ (t.queue q).pages, x.pfn = p.pfn

theorem State.givenUp_freed (s : State) (q : Nat) :
    QueueFreed q s ((s.setQueue q (s.queue q).givenUp).sweepPages q (s.queue q).pages.length) := by
  have hself : (s.setQueue q (s.queue q).givenUp).queue q = (s.queue q).givenUp := State.queue_setQueue_self ..
  have hother (r : Nat) (hr : r ≠ q) : (s.setQueue q (s.queue q).givenUp).queue r = s.queue r := (s.queue_setQueue ..).trans (if_neg hr)
  have hcmm : (s.setQueue q (s.queue q).givenUp).cmm = s.cmm := rfl
  have hrest : s.setQueue q (s.queue q).givenUp = { s with queues := (s.setQueue q (s.queue q).givenUp).queues } := rfl
  generalize s.setQueue q (s.queue q).givenUp = u at *
  have hfreed := u.sweepPages_freed q (s.queue q).pages.length
  have hpending : ∀ p ∈ (u.queue q).pages, p.freePending = true := by
    intro p hp
    rw [hself] at hp
    obtain ⟨y, -, rfl⟩ := List.mem_map.mp hp
    rfl
  have hlen : (u.queue q).pages.length ≤ (s.queue q).pages.length := by
    rw [hself]
    exact (List.length_map ..).le
  refine ⟨?_, fun r hr => (hfreed.others r hr).trans (hother r hr), by rw [hfreed.coders, hself]; rfl, fun p hp => ⟨hpending p (hfreed.pages p hp), ?_⟩,
    fun p hp hcovered hframe => ?_⟩
  · rw [hfreed.rest, hrest]
  · exact hcmm ▸ State.sweepPages_covers hlen hpending p hp
  · refine ⟨{ p with freePending := true }, State.mem_sweepPages ?_ (hcmm ▸ hcovered) (fun x hx hpfn => ?_) _, rfl⟩
    · rw [hself]
      exact List.mem_map_of_mem hp
    · rw [hself] at hx
      obtain ⟨y, hy, rfl⟩ := List.mem_map.mp hx
      rw [hframe y hy hpfn]

/-! CLOSE_PAGE (R386, R407). -/

section
variable {s : State} {q : Nat}

theorem State.askClose_idle (h : s.capturing q = false) : s.askClose q = (s, rejOut (Obj.qClosePage q)) := by
  simp [State.askClose, h]

theorem State.askClose_closed (h : ¬ s.capturing q = false) (hopen : (s.queue q).open_ = none) :
    s.askClose q = (s, emptyOut (Obj.qClosePage q)) := by
  simp [State.askClose, h, hopen]

theorem State.askClose_blank (h : ¬ s.capturing q = false) {p : Page} (hopen : (s.queue q).open_ = some p) (hp : p.records = 0) :
    s.askClose q = (s, emptyOut (Obj.qClosePage q)) := by
  simp [State.askClose, h, hopen, hp]

theorem State.askClose_asked (h : ¬ s.capturing q = false) {p : Page} (hopen : (s.queue q).open_ = some p) (hp : p.records ≠ 0) :
    s.askClose q = (if (s.queue q).waiting = [] then s.setQueue q { s.queue q with wantPage := true } else s, okOut (Obj.qClosePage q) (.num 1)) := by
  simp [State.askClose, h, hopen, hp]

end

section
variable {q : Nat} (hq : q < 4096)
include hq

theorem boolAction_free : BoolAction (Obj.qFree q) :=
  boolAction_queue hq (d := ⟨0x4000, 4096, 0x11, 1, .bool, .wo, false, .any, 0, true⟩) (by decide) (by decide) rfl rfl

theorem boolAction_closePage : BoolAction (Obj.qClosePage q) :=
  boolAction_queue hq (d := ⟨0x4000, 4096, 0x12, 1, .bool, .wo, false, .any, 0, true⟩) (by decide) (by decide) rfl rfl

theorem act_qFree (s : State) (i : Issuer) (t : Tick) : s.act i (Obj.qFree q) (.num 1) t = done (s.freeQueue q) :=
  act_queue s i 1 t hq (m := 0x11) (by decide)

theorem act_qClosePage (s : State) (i : Issuer) (t : Tick) : s.act i (Obj.qClosePage q) (.num 1) t = done (s.askClose q) :=
  act_queue s i 1 t hq (m := 0x12) (by decide)

theorem exec_free {c : WriteCmd} (hv : c.value = 1) (s : State) : exec (.free c q) s = .next (s.writeNum c (Obj.qFree q) 1) := by
  show Host.Outcome.next (s.writeNum c (Obj.qFree (q % 4096)) c.value) = _
  rw [Nat.mod_eq_of_lt hq, hv]

theorem exec_closePage {c : WriteCmd} (hv : c.value = 1) (s : State) : exec (.closePage c q) s = .next (s.writeNum c (Obj.qClosePage q) 1) := by
  show Host.Outcome.next (s.writeNum c (Obj.qClosePage (q % 4096)) c.value) = _
  rw [Nat.mod_eq_of_lt hq, hv]

end

/-- Settles O34: FREE marks every page and sweeps once for each, which a page survives only under a lease; CLOSE_PAGE is one case of its open page. -/
theorem queuesFreeAndClosePages : Obligations.QueuesFreeAndClosePages := by
  unfold Obligations.QueuesFreeAndClosePages
  refine ⟨fun s s1 c q a hq hw hv => ?_, fun s s1 c q a hq hw hv => ?_⟩
  · rw [exec_free hq hv]
    have hact := act_qFree hq s1 c.iss (s1.tick + 1)
    split
    · next hbusy => exact hw.boolAction_bad (boolAction_free hq) (by decide) (hact.trans (congrArg done (State.freeQueue_busy hbusy)))
    · next hidle =>
      obtain ⟨hrest, hothers, hcoders, hwaiting, hleased⟩ := s1.givenUp_freed q
      exact ⟨_, hw.boolAction_ok (boolAction_free hq) (hact.trans (congrArg done (State.freeQueue_idle hidle))), hrest, hothers, hcoders, hwaiting, hleased⟩
  · rw [exec_closePage hq hv]
    have hact := act_qClosePage hq s1 c.iss (s1.tick + 1)
    have hkey := boolAction_closePage hq
    split
    · next hidle => exact hw.boolAction_bad hkey (by decide) (hact.trans (congrArg done (State.askClose_idle hidle)))
    next hcapturing =>
    split
    · next p hopen =>
      split
      · next hp => exact hw.boolAction_empty hkey (hact.trans (congrArg done (State.askClose_blank hcapturing hopen hp)))
      · next hp => exact hw.boolAction_ok hkey (hact.trans (congrArg done (State.askClose_asked hcapturing hopen hp)))
    · next hopen => exact hw.boolAction_empty hkey (hact.trans (congrArg done (State.askClose_closed hcapturing hopen)))

end Sys2Proof.Machine

namespace Sys2Proof.Machine

/-! Leases (R399 to R404): a free index, the ID and its lease. -/

/-- A number that a search finds passes its test. -/
theorem firstFrom_some {p : Nat → Bool} {n lo j : Nat} (h : firstFrom p n lo = some j) : p j = true := by
  induction n generalizing lo with
  | zero => cases h
  | succ n ih =>
    rw [firstFrom] at h
    split at h
    · next hp =>
      cases h
      exact hp
    · exact ih h

/-- A search that finds nothing has met no number that passes. -/
theorem firstFrom_none {p : Nat → Bool} {n lo : Nat} (h : firstFrom p n lo = none) {j : Nat} (hlo : lo ≤ j) (hhi : j < lo + n) : p j = false := by
  induction n generalizing lo with
  | zero => omega
  | succ n ih =>
    rw [firstFrom] at h
    split at h
    · cases h
    · next hp =>
      by_cases hj : j = lo
      · subst hj
        exact eq_false_of_ne_true hp
      · exact ih h (by omega) (by omega)

theorem Tab.find_none_of_not_mem {α : Type} {t : Tab α} {i : Nat} (h : i ∉ t.keys) : t.find i = none := by
  induction t with
  | nil => rfl
  | cons e t ih =>
    obtain ⟨hne, ht⟩ := not_or.mp (mt List.mem_cons.mpr h)
    exact (if_neg (Ne.symm hne)).trans (ih ht)

/-- A table with fewer entries than there are numbers below n leaves one of them out. -/
theorem Tab.exists_unlisted {α : Type} {t : Tab α} {n : Nat} (h : t.length < n) : ∃ i, i < n ∧ t.find i = none := by
  have hcard : t.keys.toFinset.card < (Finset.range n).card := by
    have hlen : t.keys.length = t.length := List.length_map ..
    have := t.keys.toFinset_card_le
    rw [Finset.card_range]
    omega
  obtain ⟨i, hi, hnot⟩ := Finset.exists_mem_notMem_of_card_lt_card hcard
  exact ⟨i, Finset.mem_range.mp hi, Tab.find_none_of_not_mem fun hmem => hnot (List.mem_toFinset.mpr hmem)⟩

section
variable {i gen : Nat} (hi : i < 65536)
include hi

theorem leaseId_index : (65536 * gen + i) % 65536 = i := by omega

theorem leaseId_gen : (65536 * gen + i) / 65536 = gen := by omega

end

/-- The lease of an ID has its index and its generation (R400). -/
theorem Cmm.leaseOf_eq_some {c : Cmm} {id : Nat} {l : Lease} : c.leaseOf id = some l ↔ c.leases.find (id % 65536) = some l ∧ l.gen = id / 65536 := by
  unfold Cmm.leaseOf
  cases c.leases.find (id % 65536) with
  | none => simp
  | some x =>
    simp only [Option.ite_none_right_eq_some, Option.some.injEq]
    constructor
    · rintro ⟨hgen, rfl⟩
      exact ⟨rfl, hgen⟩
    · rintro ⟨rfl, hgen⟩
      exact ⟨hgen, rfl⟩

theorem Cmm.leaseOf_none {c : Cmm} {id : Nat} (h : c.leases.find (id % 65536) = none) : c.leaseOf id = none := by
  rw [Cmm.leaseOf, h]

/-! A new lease (R399, R400). -/

/-- The next generation of an index. -/
def Cmm.nextGen (c : Cmm) (i : Nat) : Nat :=
  match c.gens.find i with
  | some g => (g + 1) % 65536
  | none => 0

/-- The free index that the table gives out. -/
def State.leaseIndex (s : State) : Nat := (firstFrom (fun i => (s.cmm.leases.find (i % 4096)).isNone) 4096 (s.fresh.1 % 4096)).getD 0 % 4096

/-- The state with a lease under an index. -/
def State.newLease (s : State) (i : Nat) (l : Lease) : State :=
  { s.fresh.2 with cmm := { s.cmm with leases := s.cmm.leases.set i l, leased := true, gens := s.cmm.gens.set i l.gen,
                                       revoked := s.cmm.revoked.filter (· != 65536 * l.gen + i) } }

section
variable {s : State} (h : s.cmm.leases.length < 4096)
include h

/-- No live lease has that index. -/
theorem State.leaseIndex_free : s.cmm.leases.find s.leaseIndex = none := by
  unfold State.leaseIndex
  cases hfirst : firstFrom (fun i => (s.cmm.leases.find (i % 4096)).isNone) 4096 (s.fresh.1 % 4096) with
  | some j => exact Option.isNone_iff_eq_none.mp (firstFrom_some hfirst)
  | none =>
    obtain ⟨k, hk, hfree⟩ := Tab.exists_unlisted h
    have hmet {j : Nat} (hj : j % 4096 = k) (hlo : s.fresh.1 % 4096 ≤ j) (hhi : j < s.fresh.1 % 4096 + 4096) : False := by
      have := firstFrom_none hfirst hlo hhi
      rw [hj, hfree] at this
      cases this
    by_cases hlo : s.fresh.1 % 4096 ≤ k
    · exact (hmet (Nat.mod_eq_of_lt hk) hlo (by omega)).elim
    · exact (hmet (j := k + 4096) (by omega) (by omega) (by omega)).elim

/-- Closed pages that the queue holds are leased. -/
theorem State.takeLease_granted {holder q capture first count timeout : Nat} {expiryFree : Bool} (hcount : 0 < count)
    (hpages : count ≤ ((s.queue q).pages.filter (fun p => p.capture = capture && first ≤ p.seq && p.seq < first + count && p.closed)).length) :
    s.takeLease holder q capture first count timeout expiryFree = (some (65536 * s.cmm.nextGen s.leaseIndex + s.leaseIndex,
      s.newLease s.leaseIndex ⟨s.cmm.nextGen s.leaseIndex, holder, q, capture, first, count, timeout, s.tick + 1, expiryFree⟩), 0) := by
  unfold State.takeLease
  dsimp only
  rw [if_neg (by omega), if_neg (by omega)]
  rfl

end

section
variable (s : State) {i : Nat} (l : Lease) (hi : i < 65536)

theorem State.newLease_leases : (s.newLease i l).cmm.leases = s.cmm.leases.set i l := rfl

theorem State.newLease_queues : (s.newLease i l).queues = s.queues := rfl

theorem State.newLease_revoked : 65536 * l.gen + i ∉ (s.newLease i l).cmm.revoked := fun h => by
  simpa using (List.mem_filter.mp h).2

include hi

theorem State.newLease_leaseOf : (s.newLease i l).cmm.leaseOf (65536 * l.gen + i) = some l := by
  rw [Cmm.leaseOf_eq_some, leaseId_index hi, leaseId_gen hi, State.newLease_leases]
  exact ⟨Tab.find_set_self .., rfl⟩

end

end Sys2Proof.Machine

namespace Sys2Proof.Machine

/-! The end of a lease (R399, R402). -/

/-- A lease has ended and others stand: its ID names none, and of the queues only its own, of the host port only the window's cache has changed. -/
structure LeaseEnded (s t : State) (id : Nat) (l : Lease) : Prop where
  gone : t.cmm.leases.find (id % 65536) = none
  leases : ∀ i, i ≠ id % 65536 → t.cmm.leases.find i = s.cmm.leases.find i
  queues : ∀ q, q ≠ l.queue → t.queue q = s.queue q
  host : t.host = if l.holder = 0x40 then { s.host with cache := [] } else s.host
  dict : t.dict = s.dict

/-- The pages of a lease count as consumed (R399). -/
def Queue.consume (x : Queue) (l : Lease) : Queue :=
  { x with pages := x.pages.map (fun p =>
      if p.capture = l.capture ∧ l.first ≤ p.seq ∧ p.seq < l.first + l.count then { p with consumed := true } else p) }

/-- The state without a lease, before its pages are swept. -/
def State.withoutLease (s : State) (id : Nat) (l : Lease) (consume revoked : Bool) : State :=
  { s.setQueue l.queue (if consume then (s.queue l.queue).consume l else s.queue l.queue) with
    cmm := { s.cmm with leases := s.cmm.leases.del (id % 65536), leased := true, revoked := if revoked then s.cmm.revoked ++ [id] else s.cmm.revoked },
    host := if l.holder = 0x40 then { s.host with cache := [] } else s.host }

theorem State.withoutLease_ended (s : State) (id : Nat) (l : Lease) (consume revoked : Bool) :
    LeaseEnded s (s.withoutLease id l consume revoked) id l where
  gone := Tab.find_del_self ..
  leases _ hi := Tab.find_del_ne _ hi
  queues q hq := (State.queue_setQueue s l.queue _ q).trans (if_neg hq)
  host := rfl
  dict := rfl

/-- A sweep of the lease's own queue leaves what the end of the lease says. -/
theorem LeaseEnded.freed {s t u : State} {id : Nat} {l : Lease} (h : LeaseEnded s t id l) (g : PagesFreed l.queue t u) : LeaseEnded s u id l where
  gone := by
    rw [g.rest]
    exact h.gone
  leases i hi := by
    rw [g.rest]
    exact h.leases i hi
  queues q hq := (g.others q hq).trans (h.queues q hq)
  host := by
    rw [g.rest]
    exact h.host
  dict := by
    rw [g.rest]
    exact h.dict

section
variable {s : State} {id : Nat} {l : Lease} (h : s.cmm.leaseOf id = some l) (consume revoked : Bool)
include h

theorem State.endLease_swept : PagesFreed l.queue (s.withoutLease id l consume revoked) (s.endLease id consume revoked) := by
  unfold State.endLease
  rw [h]
  exact State.sweepPages_freed ..

theorem State.endLease_ended : LeaseEnded s (s.endLease id consume revoked) id l :=
  (s.withoutLease_ended id l consume revoked).freed (State.endLease_swept h consume revoked)

theorem State.endLease_revoked : (s.endLease id consume revoked).cmm.revoked = if revoked then s.cmm.revoked ++ [id] else s.cmm.revoked := by
  rw [(State.endLease_swept h consume revoked).rest]
  rfl

end

/-! LEASE_CMD (R403, R404). -/

/-- The fields of a LEASE_CMD that must be zero are zero. -/
structure PlainLeaseCmd (b : Bytes) : Prop where
  flags : fieldAt b 1 1 < 4
  spare : fieldAt b 10 2 = 0
  tail : fieldAt b 24 8 = 0

section
variable {s : State} {b : Bytes} (hplain : PlainLeaseCmd b) (port core : Nat)
include hplain

/-- GRANT answers with the lease that it has taken. -/
theorem State.leaseCmd_grant {u : State} {id status : Nat} (hop : fieldAt b 0 1 = 1) (hq : fieldAt b 2 2 < 4096) (hpos : 0 < fieldAt b 8 2)
    (hcount : fieldAt b 8 2 ≤ 4096) (htmo : fieldAt b 20 4 ≤ 60000)
    (htake : s.takeLease (holderOf port core) (fieldAt b 2 2) (fieldAt b 12 4) (fieldAt b 4 4) (fieldAt b 8 2)
      (if fieldAt b 20 4 = 0 then s.obj Obj.cmmLeaseTimeoutMs else fieldAt b 20 4) (bit (fieldAt b 1 1) 1) = (some (id, u), status)) :
    s.leaseCmd port core b = (u.setDom (Obj.cmmLeaseResult port) (u.leaseResult 0 (holderOf port core) id), okOut Obj.cmmLeaseCmd (.byt b)) := by
  obtain ⟨hflags, hspare, htail⟩ := hplain
  have hqmin : min (fieldAt b 2 2) 4095 = fieldAt b 2 2 := by omega
  have hqhi : ¬ 4095 < fieldAt b 2 2 := by omega
  have htmin : min (fieldAt b 20 4) 60000 = fieldAt b 20 4 := by omega
  have hzero : ¬ fieldAt b 8 2 = 0 := by omega
  unfold State.leaseCmd
  simp [hop, hqmin, hqhi, htmin, hzero, htake, hspare, htail, Nat.div_eq_of_lt hflags, Nat.not_lt.mpr hcount, Nat.not_lt.mpr htmo, clampedOut, okOut]

variable {l : Lease} (hlive : s.cmm.revoked.contains (fieldAt b 16 4) = false) (hlease : s.cmm.leaseOf (fieldAt b 16 4) = some l)
include hlive hlease

/-- QUERY shows the lease (R404). -/
theorem State.leaseCmd_query (hop : fieldAt b 0 1 = 4) : s.leaseCmd port core b =
    (s.setDom (Obj.cmmLeaseResult port) (s.leaseResult 0 l.holder (fieldAt b 16 4)), okOut Obj.cmmLeaseCmd (.byt b)) := by
  obtain ⟨hflags, hspare, htail⟩ := hplain
  unfold State.leaseCmd
  simp only [hop, hlive, hlease]
  simp [hspare, htail, Nat.div_eq_of_lt hflags, clampedOut, okOut]

variable (hholder : l.holder = holderOf port core)
include hholder

/-- RENEW by the holder restarts the timer. -/
theorem State.leaseCmd_renew (hop : fieldAt b 0 1 = 2) : s.leaseCmd port core b =
    ((s.touchLease (fieldAt b 16 4) (s.tick + 1)).setDom (Obj.cmmLeaseResult port)
      ((s.touchLease (fieldAt b 16 4) (s.tick + 1)).leaseResult 0 l.holder (fieldAt b 16 4)), okOut Obj.cmmLeaseCmd (.byt b)) := by
  obtain ⟨hflags, hspare, htail⟩ := hplain
  unfold State.leaseCmd
  simp only [hop, hlive, hlease]
  simp [hspare, htail, hholder, Nat.div_eq_of_lt hflags, clampedOut, okOut]

/-- RELEASE by the holder ends the lease, and shows what it was. -/
theorem State.leaseCmd_release (hop : fieldAt b 0 1 = 3) : s.leaseCmd port core b =
    ((s.endLease (fieldAt b 16 4) (bit (fieldAt b 1 1) 0) false).setDom (Obj.cmmLeaseResult port) (s.leaseResult 0 l.holder (fieldAt b 16 4)),
      okOut Obj.cmmLeaseCmd (.byt b)) := by
  obtain ⟨hflags, hspare, htail⟩ := hplain
  unfold State.leaseCmd
  simp only [hop, hlive, hlease]
  simp [hspare, htail, hholder, Nat.div_eq_of_lt hflags, clampedOut, okOut]

end

/-- From u to t only LEASE_RESULT of a port changed, and a core's copies of its objects. -/
structure ResultShown (u t : State) (port : Nat) (r : Bytes) : Prop where
  rest : t = { u with doms := t.doms, coreDict := t.coreDict, coreDoms := t.coreDoms }
  result : t.dom (Obj.cmmLeaseResult port) = r

namespace ResultShown

variable {u t : State} {port : Nat} {r : Bytes} (h : ResultShown u t port r)
include h

theorem cmm : t.cmm = u.cmm := by rw [h.rest]

theorem queues : t.queues = u.queues := by rw [h.rest]

/-- What LEASE_RESULT says of a lease follows from the leases, the queues and the tick, which stand. -/
theorem leaseResult (o holder id : Nat) : t.leaseResult o holder id = u.leaseResult o holder id := by
  rw [h.rest]
  rfl

end ResultShown

/-- A LEASE_CMD that is carried out acts at the boundary, and shows its result; a core keeps its copy of it. -/
theorem WritesBytes.leaseCmd {s s1 u : State} {c : BytesCmd} {a : Accepted} {r : Bytes} (h : WritesBytes s c Obj.cmmLeaseCmd s1 a)
    (hlen : c.value.length = 32) (hanswers : leaseAnswers c.value = true)
    (hcmd : s1.leaseCmd c.iss.port c.iss.core c.value = (u.setDom (Obj.cmmLeaseResult c.iss.port) r, okOut Obj.cmmLeaseCmd (.byt c.value))) :
    ∃ t : State, Lands s1 (.next (s.writeOp c Obj.cmmLeaseCmd (fieldAt c.value 0 1))) (t.ended a (okOut Obj.cmmLeaseCmd (.byt c.value)))
      ∧ ResultShown u t c.iss.port r := by
  have hrow : findObj Obj.cmmLeaseCmd = some ⟨0x5000, 1, 0x15, 1, .dom, .wo, false, .len 32 32, 0, true⟩ := findObj_row (by decide)
  have hcheck : s1.checkEntry Obj.cmmLeaseCmd c.value = okOut Obj.cmmLeaseCmd (.byt c.value) :=
    State.checkEntry_byt hrow h.writable (by decide) rfl rfl (by omega) (by omega) (List.ne_nil_of_length_pos (by omega))
  obtain ⟨d, e, hkeep⟩ := (u.setDom (Obj.cmmLeaseResult c.iss.port) r).keepCore_rest c.iss (Obj.cmmLeaseResult 2)
  have hact : s1.act c.iss Obj.cmmLeaseCmd (.byt c.value) (s1.tick + 1)
      = ({ u.setDom (Obj.cmmLeaseResult c.iss.port) r with coreDict := d, coreDoms := e }, okOut Obj.cmmLeaseCmd (.byt c.value), none) := by
    rw [act_cmmLeaseCmd, hcmd, if_pos hanswers, hkeep]
  rw [State.writeOp, if_pos rfl]
  exact ⟨_, State.writeByt_acts h (by decide) (by decide) (by decide) hcheck hact rfl rfl, rfl, (u.dom_setDom ..).trans (if_pos rfl)⟩

/-- A renewed lease counts from now, and no other lease changes. -/
theorem State.touchLease_renewed {s : State} {id : Nat} {l : Lease} (h : s.cmm.leaseOf id = some l) (t : Tick) :
    s.touchLease id t = { s with cmm := { s.cmm with leases := s.cmm.leases.set (id % 65536) { l with since := t } } } := by
  rw [State.touchLease, h]

/-- LEASE_EXPIRE revokes a lease whose time is over (R402). -/
theorem execLeaseExpire_over {s : State} {i : Nat} {l : Lease} (hi : i < 65536) (hlease : s.cmm.leases.find i = some l)
    (hover : l.since + 1000000 * l.timeout ≤ s.tick + 1) :
    s.cmm.leaseOf (65536 * l.gen + i) = some l ∧ execLeaseExpire i s = .next (s.endLease (65536 * l.gen + i) l.expiryFree true) := by
  have hid : s.cmm.leaseOf (65536 * l.gen + i) = some l := by
    rw [Cmm.leaseOf_eq_some, leaseId_index hi, leaseId_gen hi]
    exact ⟨hlease, rfl⟩
  refine ⟨hid, ?_⟩
  unfold execLeaseExpire
  rw [hlease]
  dsimp only
  rw [if_pos hover, State.revoke, hid]

theorem leaseAnswers_grant {b : Bytes} (hop : fieldAt b 0 1 = 1) (hpos : 0 < fieldAt b 8 2) (hcount : fieldAt b 8 2 ≤ 4096) : leaseAnswers b = true := by
  simp [leaseAnswers, hop, hcount, Nat.pos_iff_ne_zero.mp hpos]

theorem leaseAnswers_other {b : Bytes} (hlo : 2 ≤ fieldAt b 0 1) (hhi : fieldAt b 0 1 ≤ 4) : leaseAnswers b = true := by
  have hne : fieldAt b 0 1 ≠ 0 ∧ fieldAt b 0 1 ≠ 1 := by omega
  simp [leaseAnswers, hne, hhi]

end Sys2Proof.Machine

namespace Sys2Proof.Machine

/-! The four operations of LEASE_CMD as rows (R403). -/

section
variable {s s1 : State} {c : BytesCmd} {a : Accepted} (hw : WritesBytes s c Obj.cmmLeaseCmd s1 a) (hlen : c.value.length = 32)
  (hplain : PlainLeaseCmd c.value)
include hw hlen hplain

/-- A granted lease stands under an ID that no live lease had. -/
theorem exec_grant_lands (hop : fieldAt c.value 0 1 = 1) (hq : fieldAt c.value 2 2 < 4096) (hpos : 0 < fieldAt c.value 8 2)
    (hcount : fieldAt c.value 8 2 ≤ 4096) (htmo : fieldAt c.value 20 4 ≤ 60000) (hroom : s1.cmm.leases.length < 4096)
    (hpages : fieldAt c.value 8 2 ≤ ((s1.queue (fieldAt c.value 2 2)).pages.filter (fun p => p.capture = fieldAt c.value 12 4
      && fieldAt c.value 4 4 ≤ p.seq && p.seq < fieldAt c.value 4 4 + fieldAt c.value 8 2 && p.closed)).length) :
    ∃ (t : State) (i : Nat) (l : Lease), i < 65536 ∧ s1.cmm.leases.find i = none
      ∧ Lands s1 (exec (.grant c) s) (t.ended a (okOut Obj.cmmLeaseCmd (.byt c.value)))
      ∧ l = ⟨l.gen, holderOf c.iss.port c.iss.core, fieldAt c.value 2 2, fieldAt c.value 12 4, fieldAt c.value 4 4, fieldAt c.value 8 2,
          if fieldAt c.value 20 4 = 0 then s1.obj Obj.cmmLeaseTimeoutMs else fieldAt c.value 20 4, s1.tick + 1, bit (fieldAt c.value 1 1) 1⟩
      ∧ ResultShown (s1.newLease i l) t c.iss.port ((s1.newLease i l).leaseResult 0 l.holder (65536 * l.gen + i)) := by
  have hindex : s1.leaseIndex < 65536 := by
    have : s1.leaseIndex < 4096 := Nat.mod_lt _ (by decide)
    omega
  have hcmd := State.leaseCmd_grant hplain c.iss.port c.iss.core hop hq hpos hcount htmo (State.takeLease_granted hroom hpos hpages)
  obtain ⟨t, hlands, hshown⟩ := hw.leaseCmd hlen (leaseAnswers_grant hop hpos hcount) hcmd
  rw [hop] at hlands
  exact ⟨t, _, _, hindex, State.leaseIndex_free hroom, hlands, rfl, hshown⟩

variable {l : Lease} (hlive : s1.cmm.revoked.contains (fieldAt c.value 16 4) = false) (hlease : s1.cmm.leaseOf (fieldAt c.value 16 4) = some l)
include hlive hlease

/-- QUERY shows the lease and changes nothing of it. -/
theorem exec_query_lands (hop : fieldAt c.value 0 1 = 4) :
    ∃ t : State, Lands s1 (exec (.query c) s) (t.ended a (okOut Obj.cmmLeaseCmd (.byt c.value)))
      ∧ ResultShown s1 t c.iss.port (s1.leaseResult 0 l.holder (fieldAt c.value 16 4)) := by
  have := hw.leaseCmd hlen (leaseAnswers_other (by omega) (by omega)) (State.leaseCmd_query hplain c.iss.port c.iss.core hlive hlease hop)
  rwa [hop] at this

variable (hholder : l.holder = holderOf c.iss.port c.iss.core)
include hholder

/-- RENEW restarts the timer of the holder's lease. -/
theorem exec_renew_lands (hop : fieldAt c.value 0 1 = 2) :
    ∃ t : State, Lands s1 (exec (.renew c) s) (t.ended a (okOut Obj.cmmLeaseCmd (.byt c.value)))
      ∧ ResultShown (s1.touchLease (fieldAt c.value 16 4) (s1.tick + 1)) t c.iss.port
        ((s1.touchLease (fieldAt c.value 16 4) (s1.tick + 1)).leaseResult 0 l.holder (fieldAt c.value 16 4)) := by
  have := hw.leaseCmd hlen (leaseAnswers_other (by omega) (by omega)) (State.leaseCmd_renew hplain c.iss.port c.iss.core hlive hlease hholder hop)
  rwa [hop] at this

/-- RELEASE ends the holder's lease, and shows it as it stood. -/
theorem exec_release_lands (hop : fieldAt c.value 0 1 = 3) :
    ∃ t : State, Lands s1 (exec (.release c) s) (t.ended a (okOut Obj.cmmLeaseCmd (.byt c.value)))
      ∧ ResultShown (s1.endLease (fieldAt c.value 16 4) (bit (fieldAt c.value 1 1) 0) false) t c.iss.port
        (s1.leaseResult 0 l.holder (fieldAt c.value 16 4)) := by
  have := hw.leaseCmd hlen (leaseAnswers_other (by omega) (by omega)) (State.leaseCmd_release hplain c.iss.port c.iss.core hlive hlease hholder hop)
  rwa [hop] at this

end

/-- Settles O35: each operation of LEASE_CMD acts at the boundary and shows its result; GRANT puts a lease into the table, RENEW sets its timer, RELEASE
and the timeout end it with a sweep of its queue. -/
theorem leasesAreGrantedRenewedAndEnded : Obligations.LeasesAreGrantedRenewedAndEnded := by
  unfold Obligations.LeasesAreGrantedRenewedAndEnded
  refine ⟨fun s s1 c a q count hw hlen hop hflags hq hqlt hcount hpos hcountle hspare htmo htail hroom hpages => ?_,
    fun s s1 c a id op l hw hlen hop hflags hspare htail hid hlive hlease hholder => ?_, fun s i l hi hlease hover => ?_⟩
  · subst hq hcount
    obtain ⟨t, i, l, hi, hfree, hlands, hl, hshown⟩ := exec_grant_lands hw hlen ⟨hflags, hspare, htail⟩ hop hqlt hpos hcountle htmo hroom hpages
    have hleases : t.cmm.leases = s1.cmm.leases.set i l := by rw [hshown.cmm, State.newLease_leases]
    have hleaseOf : t.cmm.leaseOf (65536 * l.gen + i) = some l := by
      rw [hshown.cmm]
      exact s1.newLease_leaseOf l hi
    have hrevoked : 65536 * l.gen + i ∉ t.cmm.revoked := by
      rw [hshown.cmm]
      exact s1.newLease_revoked l
    have hresult : t.dom (Obj.cmmLeaseResult c.iss.port) = t.leaseResult 0 l.holder (65536 * l.gen + i) :=
      hshown.result.trans (hshown.leaseResult ..).symm
    have hothers (j : Nat) (hj : j ≠ i) : t.cmm.leases.find j = s1.cmm.leases.find j := by
      rw [hleases, Tab.find_set_ne _ _ hj]
    rw [← leaseId_index (gen := l.gen) hi] at hfree hothers
    exact ⟨t, _, l, hlands, hleaseOf, hfree, by rw [hl], by rw [hl], by rw [hl], by rw [hl], by rw [hl], by rw [hl], by rw [hl], hrevoked,
      hshown.queues.trans (s1.newLease_queues l), hothers, hresult⟩
  · subst hop hid
    have hplain : PlainLeaseCmd c.value := ⟨hflags, hspare, htail⟩
    by_cases hop2 : fieldAt c.value 0 1 = 2
    · obtain ⟨t, hlands, hshown⟩ := exec_renew_lands hw hlen hplain hlive hlease (hholder (by omega)) hop2
      have hresult := hshown.result.trans (hshown.leaseResult ..).symm
      have hcmm := hshown.cmm
      have hqueues := hshown.queues
      rw [State.touchLease_renewed hlease] at hcmm hqueues
      obtain ⟨-, hgen⟩ := Cmm.leaseOf_eq_some.mp hlease
      refine ⟨t, fun _ => ⟨hlands, by rw [hcmm], hqueues, ?_, fun i hi => ?_, hresult⟩, fun h => by omega, fun h => by omega⟩
      · rw [hcmm, Cmm.leaseOf_eq_some]
        exact ⟨Tab.find_set_self .., hgen⟩
      · rw [hcmm]
        exact Tab.find_set_ne _ _ hi
    by_cases hop3 : fieldAt c.value 0 1 = 3
    · obtain ⟨t, hlands, hshown⟩ := exec_release_lands hw hlen hplain hlive hlease (hholder (by omega)) hop3
      have hended := State.endLease_ended hlease (bit (fieldAt c.value 1 1) 0) false
      refine ⟨t, fun h => by omega, fun _ => ⟨hlands, ?_, fun i hi => ?_, fun q hq => ?_, hshown.result⟩, fun h => by omega⟩
      · rw [hshown.cmm]
        exact Cmm.leaseOf_none hended.gone
      · rw [hshown.cmm]
        exact hended.leases i hi
      · rw [State.queue, hshown.queues]
        exact hended.queues q hq
    by_cases hop4 : fieldAt c.value 0 1 = 4
    · obtain ⟨t, hlands, hshown⟩ := exec_query_lands hw hlen hplain hlive hlease hop4
      exact ⟨t, fun h => by omega, fun h => by omega, fun _ => ⟨hlands, hshown.cmm, hshown.queues, hshown.result⟩⟩
    · exact ⟨s, fun h => absurd h hop2, fun h => absurd h hop3, fun h => absurd h hop4⟩
  · obtain ⟨hid, hexec⟩ := execLeaseExpire_over hi hlease hover
    obtain ⟨hgone, hleases, hqueues, hhost, hdict⟩ := State.endLease_ended hid l.expiryFree true
    rw [leaseId_index hi] at hgone hleases
    exact ⟨_, hexec, hgone, State.endLease_revoked hid l.expiryFree true, hleases, hqueues, fun h => hhost.trans (if_pos h),
      fun h => hhost.trans (if_neg h), hdict⟩

end Sys2Proof.Machine

namespace Sys2Proof.Machine

/-! A write of a byte string of a fixed length that asks for an action (R504, R513). -/

/-- An action that a written block of n bytes asks for: its object is a DOMAIN of that length that is neither staged nor paired. -/
structure BlockAction (k n : Nat) : Prop where
  key : k < 2 ^ 24
  unstaged : isStaged k = false
  pair : pairPartner k = none
  row : ∃ d, findObj k = some d ∧ d.ty = .dom ∧ d.acc ≠ .ro ∧ d.rng = .len n n
  pos : 0 < n

section
variable {s s1 : State} {c : BytesCmd} {a : Accepted} {k n : Nat}

/-- The write passes its check, and the action makes its end. -/
theorem WritesBytes.blockAction (h : WritesBytes s c k s1 a) (hk : BlockAction k n) (hlen : c.value.length = n) {r : State × ObjOut}
    (hact : s1.act c.iss k (.byt c.value) (s1.tick + 1) = done r) (ho : r.2.status ≠ stPairPending) :
    Lands s1 (.next (s.writeByt c k)) (s1.endedOr c.flags a (r.2.refusedWith (.byt c.value)) r.1) := by
  obtain ⟨hkey, hunstaged, hpair, ⟨d, hfind, hdom, hacc, hrange⟩, hpos⟩ := hk
  have hbytes : d.ty.bytes = true := by rw [hdom]; rfl
  have hcheck : s1.checkEntry k c.value = okOut k (.byt c.value) :=
    State.checkEntry_byt hfind h.writable hacc hbytes hrange hlen.ge hlen.le (List.ne_nil_of_length_pos (by omega))
  exact State.writeByt_ends h hkey hunstaged hpair hfind hbytes hcheck hact ho

/-- An action that is carried out ends OK. -/
theorem WritesBytes.blockAction_ok (h : WritesBytes s c k s1 a) (hk : BlockAction k n) (hlen : c.value.length = n) {t : State}
    (hact : s1.act c.iss k (.byt c.value) (s1.tick + 1) = done (t, okOut k (.byt c.value))) :
    Lands s1 (.next (s.writeByt c k)) (t.ended a (okOut k (.byt c.value))) := by
  have := h.blockAction hk hlen hact (show stOk ≠ stPairPending by decide)
  rwa [State.endedOr_ok rfl rfl] at this

/-- An action that is refused changes nothing. -/
theorem WritesBytes.blockAction_bad (h : WritesBytes s c k s1 a) (hk : BlockAction k n) (hlen : c.value.length = n) {st re : Nat}
    (hst : stRejected ≤ st) (hact : s1.act c.iss k (.byt c.value) (s1.tick + 1) = done (s1, badOut k st re)) :
    Lands s1 (.next (s.writeByt c k)) (s1.endedOr c.flags a ((badOut k st re).fill (.byt c.value)) s1) := by
  have hne : st ≠ stPairPending := by
    have : 16 ≤ st := hst
    show st ≠ 3
    omega
  have := h.blockAction hk hlen hact hne
  rwa [show (badOut k st re).refusedWith (.byt c.value) = (badOut k st re).fill (.byt c.value) from if_pos hst] at this

end

/-! STATE_RESTORE (R471): the state of a coder's context. -/

theorem blockAction_coderState {n : Nat} (hn : n < 3) : BlockAction (Obj.coderState n) 160 := by
  obtain ⟨hkey, hunstaged, hpair, hrow⟩ :=
    (by decide : ∀ n < 3, Obj.coderState n < 2 ^ 24 ∧ isStaged (Obj.coderState n) = false ∧ pairPartner (Obj.coderState n) = none
      ∧ findObj (Obj.coderState n) = some ⟨0x5400, 1, 0x13, 3, .dom, .rw, false, .len 160 160, 0, false⟩) n hn
  exact ⟨hkey, hunstaged, hpair, ⟨_, hrow, rfl, by decide, rfl⟩, by decide⟩

/-- What R471 asks of a written state, field by field. -/
theorem stateOk_iff {x : Coder} {q l : Nat} {b : Bytes} (hlen : b.length = 160) : stateOk x q l b = true ↔
    fieldAt b 84 4 = 1 ∧ fieldAt b 156 4 = crc32 (b.take 156) ∧ fieldAt b 104 1 = x.srcKind ∧ fieldAt b 105 1 = l ∧ fieldAt b 106 2 = x.source
      ∧ fieldAt b 108 2 = q ∧ fieldAt b 80 4 ≤ 1 ∧ fieldAt b 110 2 = 0 ∧ slice b 128 28 = zeros 28
      ∧ (fieldAt b 80 4 = 0 ∨ lensOk (unnibble (slice b 64 16)) = true) := by
  simp only [stateOk, hlen, decide_true, Bool.true_and, Bool.and_eq_true, Bool.or_eq_true, decide_eq_true_eq, and_assoc]

section
variable {s : State} {port sel : Nat} {b : Bytes}

theorem State.writeCoder_unselected (h : s.selected port sel = none) :
    s.writeCoder port sel b = (s, badOut (Obj.coderState port) stNotPresent 0) := by
  rw [State.writeCoder, h]

variable {q l : Nat} {x : Coder} (h : s.selected port sel = some (q, l, x))
include h

theorem State.writeCoder_busy (hq : s.capturing q = true) : s.writeCoder port sel b = (s, badOut (Obj.coderState port) stBusy 0) := by
  rw [State.writeCoder, h]
  exact if_pos hq

theorem State.writeCoder_restored (hq : ¬ s.capturing q = true) (hok : stateOk x q l b = true) : s.writeCoder port sel b =
    (s.setQueue q { s.queue q with coders := (s.queue q).coders.set l (stateOf x b) }, okOut (Obj.coderState port) (.byt b)) := by
  rw [State.writeCoder, h]
  exact (if_neg hq).trans (if_pos hok)

theorem State.writeCoder_refused (hq : ¬ s.capturing q = true) (hok : ¬ stateOk x q l b = true) :
    s.writeCoder port sel b = (s, badOut (Obj.coderState port) stRejected reRange) := by
  rw [State.writeCoder, h]
  exact (if_neg hq).trans (if_neg hok)

end

/-- A state that fits a packet is written in one. -/
theorem exec_stateRestore {c : BytesCmd} (hport : c.iss.port < 3) (hfit : c.value.length + 20 + c.trailer.length ≤ 256) (s : State) :
    exec (.stateRestore c) s = .next (s.writeByt c (Obj.coderState c.iss.port)) := by
  show Host.Outcome.next (s.writeLong c (Obj.coderState (c.iss.port % 3))) = _
  rw [Nat.mod_eq_of_lt hport, State.writeLong, if_pos hfit]

theorem WritesBytes.fits {s s1 : State} {c : BytesCmd} {k : Key} {a : Accepted} (h : WritesBytes s c k s1 a) :
    c.value.length + 20 + c.trailer.length ≤ 256 := by
  obtain ⟨-, hfit, -⟩ := h
  exact hfit

/-! The handles of the deflater (R487, R491, R494). -/

theorem releaseHandle_row : findObj Obj.deflReleaseHandle = some ⟨0x55F0, 1, 0x03, 1, .u16, .wo, false, .any, 0, false⟩ :=
  findObj_row (by decide)

/-- RELEASE_HANDLE takes any number of its width. -/
theorem checkEntry_releaseHandle {s : State} {v : Nat} (hw : Writable s Obj.deflReleaseHandle) (hv : v < 65536) :
    s.checkEntry Obj.deflReleaseHandle (valBytes Obj.deflReleaseHandle (.num v)) = okOut Obj.deflReleaseHandle (.num v) :=
  State.checkEntry_inRange releaseHandle_row hw (by decide) rfl (by decide) (by decide) (by decide) hv (by simp) rfl

/-- The slot of a released handle is free, but for the job that holds it. -/
def DeflSlot.released (x : DeflSlot) : DeflSlot := if x.job.isSome = true then { x with live := false } else { gen := x.gen }

section
variable {s : State} {h : Nat}

theorem State.releaseHandle_stale (hslot : s.handleSlot h = none) : s.releaseHandle h = (s, rejOut Obj.deflReleaseHandle) := by
  rw [State.releaseHandle, hslot]

variable {i : Nat} (hslot : s.handleSlot h = some i)
include hslot

theorem State.releaseHandle_valid : s.releaseHandle h = (s.setDefl i (s.defl i).released, okOut Obj.deflReleaseHandle (.num h)) := by
  rw [State.releaseHandle, hslot]
  rfl

/-- A handle whose time is over is released (R491). -/
theorem execHandleTimeout_over (hms : s.obj Obj.deflHandleTimeoutMs ≠ 0) (hjob : (s.defl i).job = none)
    (hnamed : s.jobs.any (fun e => e.2.slot = i) = false) (hover : (s.defl i).named + 1000000 * s.obj Obj.deflHandleTimeoutMs ≤ s.tick) :
    execHandleTimeout h s = .next (s.setDefl i { gen := (s.defl i).gen }) := by
  rw [execHandleTimeout, hslot]
  exact if_neg (by simp [hms, hjob, hnamed, hover])

end

section
variable {s s1 : State} {c : WriteCmd} {a : Accepted} (hw : Writes s c Obj.deflReleaseHandle c.value s1 a) (hv : c.value < 65536)
include hw hv

/-- A write of RELEASE_HANDLE passes its check, and the action makes its end. -/
theorem Writes.releaseHandle {r : State × ObjOut} (hr : s1.releaseHandle c.value = r) (ho : r.2.status ≠ stPairPending) :
    Lands s1 (exec (.releaseHandle c) s) (s1.endedOr c.flags a (r.2.refusedWith (.num c.value)) r.1) :=
  State.writeNum_ends hw (by decide) (by decide) (by decide) releaseHandle_row rfl hv (checkEntry_releaseHandle hw.writable hv)
    ((act_deflReleaseHandle ..).trans (congrArg done hr)) ho

end

/-- Settles O38: a written state meets the branches of `State.writeCoder` in turn, and a handle is its slot or none. -/
theorem coderStatesAreRestoredAndReleased : Obligations.CoderStatesAreRestoredAndReleased := by
  unfold Obligations.CoderStatesAreRestoredAndReleased
  refine ⟨fun s s1 c a hport hw hlen => ?_, fun s s1 c a hw hv => ?_, fun s h i hslot hms hjob hnamed hover =>
    execHandleTimeout_over hslot hms hjob hnamed hover⟩
  · intro k bad
    rw [exec_stateRestore hport hw.fits]
    have hact := act_coderState s1 c.iss c.value (s1.tick + 1) hport
    have hk := blockAction_coderState hport
    split
    · next hsel => exact hw.blockAction_bad hk hlen (by decide) (hact.trans (congrArg done (State.writeCoder_unselected hsel)))
    next q l x hsel =>
    split
    · next hq => exact hw.blockAction_bad hk hlen (by decide) (hact.trans (congrArg done (State.writeCoder_busy hsel hq)))
    next hq =>
    split
    · next hok =>
      exact hw.blockAction_ok hk hlen (hact.trans (congrArg done (State.writeCoder_restored hsel hq ((stateOk_iff hlen).mpr hok))))
    · next hok =>
      exact hw.blockAction_bad hk hlen (by decide) (hact.trans (congrArg done (State.writeCoder_refused hsel hq (mt (stateOk_iff hlen).mp hok))))
  · split
    · next hslot => exact hw.releaseHandle hv (State.releaseHandle_stale hslot) (show stRejected ≠ stPairPending by decide)
    · next i hslot =>
      have := hw.releaseHandle hv (State.releaseHandle_valid hslot) (show stOk ≠ stPairPending by decide)
      rwa [State.endedOr_ok rfl rfl] at this

end Sys2Proof.Machine

namespace Sys2Proof.Machine

/-! The end of a job of the deflater (R482, R485, R494): its descriptor, its lease, its result and its count. -/

section
variable (start stop outcome handle produced consumed total crc : Nat)

theorem jobResult_length : (jobResult start stop outcome handle produced consumed total crc).length = 48 := by simp [jobResult]

theorem fieldAt_jobResult_outcome : fieldAt (jobResult start stop outcome handle produced consumed total crc) 17 1 = outcome % 256 := by
  simp only [jobResult, List.append_assoc]
  rw [fieldAt_append _ _ _ _ (by simp), fieldAt_append _ _ _ _ (by simp), fieldAt_append _ _ _ _ (by simp)]
  simp only [le_length, zeros_length]
  exact fieldAt_le 1 outcome _

theorem fieldAt_jobResult_handle : fieldAt (jobResult start stop outcome handle produced consumed total crc) 18 2 = handle % 65536 := by
  simp only [jobResult, List.append_assoc]
  rw [fieldAt_append _ _ _ _ (by simp), fieldAt_append _ _ _ _ (by simp), fieldAt_append _ _ _ _ (by simp), fieldAt_append _ _ _ _ (by simp)]
  simp only [le_length, zeros_length]
  exact fieldAt_le 2 handle _

end

/-- The keys of a job's JOB_STATE and of the jobs' count lie among no counts of notifications, and apart from the other counts of a job's end. -/
theorem jobState_ne {n : Nat} (hn : n < 16) : ¬ noteKey (Obj.jobJobState n) ∧ Obj.jobJobState n ≠ Obj.deflCntDeflateJobs
    ∧ Obj.jobJobState n ≠ Obj.deflCntDeflateBytesIn ∧ Obj.jobJobState n ≠ Obj.deflCntDeflateBytesOut := by
  obtain ⟨hlow, hnote, hne⟩ := (by decide : ∀ n < 16, 0x1118 * 256 ≤ Obj.jobJobState n ∧ Obj.jobJobState n ≠ Obj.hostCntNoteDropped
    ∧ Obj.jobJobState n ≠ Obj.deflCntDeflateJobs ∧ Obj.jobJobState n ≠ Obj.deflCntDeflateBytesIn
    ∧ Obj.jobJobState n ≠ Obj.deflCntDeflateBytesOut) n hn
  exact ⟨not_noteKey hlow hnote, hne⟩

/-- A job's end is shown: JOB_RESULT, JOB_STATE and the count; the jobs, the slots and the leases stand. -/
structure JobShown (s t : State) (n : Nat) (r : Bytes) : Prop where
  jobs : t.jobs = s.jobs
  slots : t.deflSlots = s.deflSlots
  cmm : t.cmm = s.cmm
  state : t.obj (Obj.jobJobState n) = 3
  counted : Counted s t Obj.deflCntDeflateJobs 1
  result : t.dom (Obj.jobJobResult n) = r

namespace JobShown

variable {s t u : State} {n : Nat} {r : Bytes}

/-- A notification takes nothing of it back. -/
theorem noted (h : JobShown s t n r) (hn : n < 16) (hrest : u.unnoted = t.unnoted) (hobjs : ∀ k, ¬ noteKey k → u.obj k = t.obj k) : JobShown s u n r := by
  obtain ⟨hstate, -⟩ := jobState_ne hn
  have hjobs : u.jobs = t.jobs := by have := congrArg State.jobs hrest; exact this
  have hslots : u.deflSlots = t.deflSlots := by have := congrArg State.deflSlots hrest; exact this
  have hcmm : u.cmm = t.cmm := by have := congrArg State.cmm hrest; exact this
  have hdoms : u.doms = t.doms := by have := congrArg State.doms hrest; exact this
  refine ⟨hjobs.trans h.jobs, hslots.trans h.slots, hcmm.trans h.cmm, (hobjs _ hstate).trans h.state, ?_, ?_⟩
  · exact (hobjs _ (not_noteKey (by decide) (by decide))).trans h.counted
  · rw [State.dom, hdoms]
    exact h.result

end JobShown

theorem State.noteSubs_unnoted (n : Note) (l : List Nat) (s : State) : (l.foldl (fun s i => s.noteSub n i) s).unnoted = s.unnoted := by
  induction l generalizing s with
  | nil => rfl
  | cons i l ih => rw [List.foldl_cons, ih, State.noteSub_unnoted]

/-- What a job's end shows before its notification. -/
def State.showJob (s : State) (n : Nat) (r : Bytes) (consumed produced : Nat) : State :=
  ((((s.setDom (Obj.jobJobResult n) r).setObj (Obj.jobJobState n) 3).bump Obj.deflCntDeflateJobs 1).bump Obj.deflCntDeflateBytesIn consumed).bump
    Obj.deflCntDeflateBytesOut produced

section
variable (s : State) {n : Nat} (hn : n < 16) (r : Bytes) (consumed produced : Nat)
include hn

theorem State.showJob_shown : JobShown s (s.showJob n r consumed produced) n r := by
  obtain ⟨-, hjobs, hin, hout⟩ := jobState_ne hn
  refine ⟨rfl, rfl, rfl, ?_, ?_, (s.dom_setDom ..).trans (if_pos rfl)⟩
  · simp [State.showJob, State.obj_bump, hjobs, hin, hout]
  · have hin : Obj.deflCntDeflateJobs ≠ Obj.deflCntDeflateBytesIn := by decide
    have hout : Obj.deflCntDeflateJobs ≠ Obj.deflCntDeflateBytesOut := by decide
    simp [Counted, State.showJob, State.obj_bump, State.obj_setObj_ne, hjobs.symm, hin, hout]

theorem State.jobEnded_shown (notify : Bool) (port : Nat) (t : Tick) : JobShown s (s.jobEnded n notify port r consumed produced t) n r := by
  have hshown := s.showJob_shown hn r consumed produced
  unfold State.jobEnded
  split
  · exact hshown
  split
  · exact hshown.noted hn (State.noteHost_unnoted ..) fun k hk => State.noteHost_obj _ _ hk
  split
  · exact hshown.noted hn (State.noteSubs_unnoted ..) fun k hk => State.noteSubs_obj _ hk _ (by decide) _
  · exact hshown

end

/-- A job is over: no descriptor lists it, and its end is shown; the other jobs stand. -/
structure JobOver (s t : State) (n : Nat) (r : Bytes) : Prop where
  gone : t.jobs.find n = none
  others : ∀ m, m ≠ n → t.jobs.find m = s.jobs.find m
  state : t.obj (Obj.jobJobState n) = 3
  counted : Counted s t Obj.deflCntDeflateJobs 1
  result : t.dom (Obj.jobJobResult n) = r

/-- A job that its descriptor no longer lists is over when its end is shown. -/
theorem JobShown.over {s u t : State} {n : Nat} {r : Bytes} (h : JobShown u t n r) (hjobs : u.jobs = s.jobs.del n)
    (hcount : u.obj Obj.deflCntDeflateJobs = s.obj Obj.deflCntDeflateJobs) : JobOver s t n r where
  gone := by rw [h.jobs, hjobs, Tab.find_del_self]
  others m hm := by rw [h.jobs, hjobs, Tab.find_del_ne _ hm]
  state := h.state
  counted := by
    rw [Counted, ← hcount]
    exact h.counted
  result := h.result

/-- A job that has no stream to write back is over. -/
theorem State.jobDrop_over (s : State) {n : Nat} (hn : n < 16) (j : Job) (outcome : Nat) (t : Tick) :
    JobOver s (s.jobDrop n j outcome t) n (jobResult t t outcome 0xFFFF 0 0 0 (crc32 [])) :=
  (State.jobEnded_shown _ hn _ 0 0 j.notify j.iss.port t).over rfl rfl

section
variable (s : State) (j : Job)

/-- A job's lease ends, and with it nothing of the jobs and the objects. -/
theorem State.jobUnlease_left : (s.jobUnlease j).jobs = s.jobs ∧ (s.jobUnlease j).dict = s.dict
    ∧ ∀ id, j.lease = some id → (s.jobUnlease j).cmm.leaseOf id = none := by
  unfold State.jobUnlease
  cases hid : j.lease with
  | none => exact ⟨rfl, rfl, fun _ h => nomatch h⟩
  | some id =>
    dsimp only
    cases hlease : s.cmm.leaseOf id with
    | none =>
      rw [State.endLease, hlease]
      exact ⟨rfl, rfl, fun _ h => (Option.some.inj h) ▸ hlease⟩
    | some l =>
      have hended := State.endLease_ended hlease false false
      have hrest := (State.endLease_swept hlease false false).rest
      refine ⟨by rw [hrest]; rfl, hended.dict, fun _ h => ?_⟩
      rw [← Option.some.inj h]
      exact Cmm.leaseOf_none hended.gone

/-- The slot that a job leaves: its stream under its handle, or a free slot. -/
def DeflSlot.left (x : DeflSlot) (t : Tick) : DeflSlot := if x.live = true then { x with job := none, named := t } else { gen := x.gen }

/-- The handle in JOB_RESULT (R485). -/
def DeflSlot.handle (x : DeflSlot) (i : Nat) : Nat := if x.live = true then i + 256 * x.gen else 0xFFFF

section
variable {n : Nat} (hn : n < 16) (x : DeflSlot) (outcome consumed produced total crc : Nat) (t : Tick)
include hn

theorem State.jobClose_over : JobOver s (s.jobClose n j x outcome consumed produced total crc t) n
      (jobResult j.startAt t outcome (x.handle j.slot) produced consumed total crc)
    ∧ (∀ id, j.lease = some id → (s.jobClose n j x outcome consumed produced total crc t).cmm.leaseOf id = none)
    ∧ (s.jobClose n j x outcome consumed produced total crc t).defl j.slot = x.left t := by
  obtain ⟨hjobs, hdict, hlease⟩ := s.jobUnlease_left j
  obtain ⟨u, hu⟩ : ∃ u : State, u = { (s.jobUnlease j).setDefl j.slot (x.left t) with jobs := (s.jobUnlease j).jobs.del n } := ⟨_, rfl⟩
  have hclose : s.jobClose n j x outcome consumed produced total crc t = u.jobEnded n j.notify j.iss.port
      (jobResult j.startAt t outcome (x.handle j.slot) produced consumed total crc) consumed produced t := by
    rw [hu]
    rfl
  have hshown := u.jobEnded_shown hn (jobResult j.startAt t outcome (x.handle j.slot) produced consumed total crc) consumed produced j.notify j.iss.port t
  rw [← hclose] at hshown
  refine ⟨hshown.over ?_ ?_, fun id hid => ?_, ?_⟩
  · rw [hu, ← hjobs]
  · rw [hu]
    exact State.obj_of_dict hdict _
  · rw [hshown.cmm, hu]
    exact hlease id hid
  · rw [State.defl, hshown.slots, hu]
    exact State.defl_setDefl_self ..

end
end

/-! The outcome of a job (R485 to R492). -/

/-- No channel's count of uncorrectable bursts is the count of the jobs. -/
theorem uncorrectable_ne_jobs (c : Nat) : Obj.deflCntDeflateJobs ≠ Obj.mcCntUncorrectable c := by
  intro h
  have : (0x6441 * 256 + 0x01) = (0x6410 + c) * 256 + 0x02 := h
  omega

/-- From s to u a job's output was delivered and errors were counted: the jobs, the host port and the jobs' count stand. -/
structure JobWorked (s u : State) : Prop where
  jobs : u.jobs = s.jobs
  host : u.host = s.host
  count : u.obj Obj.deflCntDeflateJobs = s.obj Obj.deflCntDeflateJobs

namespace JobWorked

variable {s t u : State}

theorem refl (s : State) : JobWorked s s := ⟨rfl, rfl, rfl⟩

theorem bump (h : JobWorked s u) {k : Key} (hk : Obj.deflCntDeflateJobs ≠ k) (m : Nat) : JobWorked s (u.bump k m) :=
  ⟨h.jobs, h.host, ((u.obj_bump ..).trans (if_neg hk)).trans h.count⟩

theorem fresh (h : JobWorked s u) : JobWorked s u.fresh.2 := ⟨h.jobs, h.host, h.count⟩

theorem setShm (h : JobWorked s u) (a : Nat) (b : Bytes) : JobWorked s (u.setShm a b) := by
  induction b generalizing u a with
  | nil => exact h
  | cons x b ih =>
    have hx : JobWorked s { u with shm := Tab.put u.shm a 0 x } := ⟨h.jobs, h.host, h.count⟩
    exact ih hx (a + 1)

theorem output (h : JobWorked s u) (j : Job) (o : Bytes) : JobWorked s (u.jobOutput j o) := by
  unfold State.jobOutput
  split
  · exact h
  split
  · exact ⟨h.jobs, h.host, h.count⟩
  · exact h.setShm ..

/-- A job that is over after its work is over. -/
theorem closed (h : JobWorked s u) {n : Nat} {r : Bytes} (g : JobOver u t n r) : JobOver s t n r where
  gone := g.gone
  others m hm := by rw [g.others m hm, h.jobs]
  state := g.state
  counted := by
    rw [Counted, ← h.count]
    exact g.counted
  result := g.result

end JobWorked

section
variable (s : State) (j : Job)

/-- What has stopped a job before its end, if anything (R486, R491). -/
def State.jobStop (memError : Bool) : Option Nat :=
  if j.abort = true then some joAborted else if s.jobRevoked j = true then some joRevoked
  else if (memError && j.op ≠ 3) = true then some joMemError else j.cut

/-- Does a job begin its stream? -/
def Job.fresh : Bool := j.op = 1 && !j.cont

/-- The run of a job: where something has stopped it, it comes as far as the deflater had come. -/
def State.jobRun (memError : Bool) : JobRun :=
  jobWork j (s.jobStream j) j.fresh (if (s.jobStop j memError).isSome = true then s.fresh.1 else j.got.length) (s.jobStop j memError)

/-- The outcome of a job: its own check comes first, then its destination. -/
def State.jobOutcome (verifyFail destFail memError : Bool) : Nat :=
  if verifyFail = true ∨ (!(s.jobRun j memError).checks (s.jobStream j) j.fresh) = true then joVerifyFail
  else if destFail = true ∨ (!s.destUp j) = true then joDestFail else (s.jobRun j memError).outcome

end

section
variable {s : State} {j : Job} {v d m : Bool}

theorem State.jobOutcome_unverified (h : v = true ∨ (!(s.jobRun j m).checks (s.jobStream j) j.fresh) = true) :
    s.jobOutcome j v d m = joVerifyFail := if_pos h

variable (hverify : ¬ (v = true ∨ (!(s.jobRun j m).checks (s.jobStream j) j.fresh) = true))
include hverify

theorem State.jobOutcome_undelivered (h : d = true ∨ (!s.destUp j) = true) : s.jobOutcome j v d m = joDestFail :=
  (if_neg hverify).trans (if_pos h)

theorem State.jobOutcome_delivered (h : ¬ (d = true ∨ (!s.destUp j) = true)) : s.jobOutcome j v d m = (s.jobRun j m).outcome :=
  (if_neg hverify).trans (if_neg h)

end

/-- The outcome where neither the environment's check nor its destination fails. -/
theorem State.jobOutcome_eq (s : State) (j : Job) : s.jobOutcome j false false false =
    if (s.jobRun j false).checks (s.jobStream j) j.fresh = false then joVerifyFail
    else if s.destUp j = false then joDestFail else (s.jobRun j false).outcome := by
  simp [State.jobOutcome]

/-- Every end of a job closes it, with its outcome; a FINISH that is done leaves no handle. -/
theorem State.jobFinish_closes {s w : State} {n : Nat} {j : Job} {v d m : Bool} {t : Tick} (h : s.jobFinish n j v d m t = w) :
    ∃ (u : State) (x : DeflSlot) (consumed produced total crc : Nat), JobWorked s u
      ∧ w = u.jobClose n j x (s.jobOutcome j v d m) consumed produced total crc t
      ∧ (s.jobOutcome j v d m = joDone → j.op = 3 → x = { gen := (s.defl j.slot).gen }) := by
  unfold State.jobFinish at h
  extract_lets old x fresh memError stop at h
  cases hp : (if stop.isSome = true then s.fresh else (j.got.length, s)) with
  | mk budget u =>
  rw [hp] at h
  dsimp -zeta only at h
  extract_lets u' r at h
  obtain ⟨hbudget, hu⟩ : (if stop.isSome = true then s.fresh.1 else j.got.length) = budget ∧ JobWorked s u := by
    split at hp
    · next hstop =>
      cases hp
      exact ⟨if_pos hstop, (JobWorked.refl s).fresh⟩
    · next hstop =>
      cases hp
      exact ⟨if_neg hstop, JobWorked.refl s⟩
  subst hbudget
  have hrun : r = s.jobRun j m := rfl
  have hu' : JobWorked s u' := by
    unfold u'
    split
    · exact hu.bump (uncorrectable_ne_jobs _) 1
    · exact hu
  have hdest : u'.destUp j = s.destUp j := by rw [State.destUp, State.destUp, hu'.host]
  rw [hdest] at h
  split at h
  · next hverify =>
    rw [State.jobOutcome_unverified hverify]
    exact ⟨_, _, _, _, _, _, (hu'.bump (by decide) 1).output j _, h.symm, fun hdone => absurd hdone (by decide)⟩
  next hverify =>
  split at h
  · next hfail =>
    rw [State.jobOutcome_undelivered hverify hfail]
    exact ⟨_, _, _, _, _, _, hu'.fresh.fresh.output j _, h.symm, fun hdone => absurd hdone (by decide)⟩
  next hfail =>
  rw [State.jobOutcome_delivered hverify hfail]
  split at h
  · next hdone =>
    rw [← hrun, hdone.1]
    exact ⟨_, _, _, _, _, _, hu'.output j _, h.symm, fun _ _ => rfl⟩
  · next hstays =>
    exact ⟨_, _, _, _, _, _, hu'.output j _, h.symm, fun hdone hop => absurd ⟨hdone, .inl hop⟩ hstays⟩

/-- The end of a job, with what its JOB_RESULT says of it. -/
theorem State.jobFinish_over (s : State) {n : Nat} (hn : n < 16) (j : Job) (v d m : Bool) (t : Tick) :
    ∃ r, JobOver s (s.jobFinish n j v d m t) n r ∧ (∀ id, j.lease = some id → (s.jobFinish n j v d m t).cmm.leaseOf id = none)
      ∧ r.length = 48 ∧ fieldAt r 17 1 = s.jobOutcome j v d m % 256
      ∧ (s.jobOutcome j v d m = joDone → j.op = 3 →
        fieldAt r 18 2 = 0xFFFF ∧ (s.jobFinish n j v d m t).defl j.slot = { gen := (s.defl j.slot).gen }) := by
  obtain ⟨w, hw⟩ : ∃ w, s.jobFinish n j v d m t = w := ⟨_, rfl⟩
  obtain ⟨u, x, consumed, produced, total, crc, hu, hclose, hfinish⟩ := State.jobFinish_closes hw
  obtain ⟨hover, hlease, hslot⟩ := u.jobClose_over j hn x (s.jobOutcome j v d m) consumed produced total crc t
  rw [hw, hclose]
  refine ⟨_, hu.closed hover, hlease, jobResult_length .., fieldAt_jobResult_outcome .., fun hdone hop => ?_⟩
  rw [hfinish hdone hop] at hslot ⊢
  exact ⟨fieldAt_jobResult_handle .., hslot⟩

/-- A job that its own check refuses ends VERIFY_FAIL (R492). -/
theorem State.jobOutcome_verifyFail (s : State) (j : Job) (d m : Bool) : s.jobOutcome j true d m = joVerifyFail :=
  State.jobOutcome_unverified (.inl rfl)

/-! A job that is aborted (R491). -/

/-- A job that is aborted before it has run. -/
def Job.aborted (j : Job) (t : Tick) : Job := { j with abort := true, startAt := t }

/-- A job that waits has no stream to end: its handle is stale, or another job holds its slot (R491). -/
def State.jobHeld (s : State) (n : Nat) (j : Job) : Prop := s.jobStale j = true ∨ (s.defl j.slot).job.any (· ≠ n) = true

/-- What is stopped ends with the cause that stopped it, unless its output is full (R488). -/
theorem jobWork_stopped (j : Job) (x : DeflSlot) (fresh : Bool) (budget e : Nat) :
    (jobWork j x fresh budget (some e)).outcome = joOutFull ∨ (jobWork j x fresh budget (some e)).outcome = e := by
  unfold jobWork
  rw [if_neg (by simp)]
  dsimp only
  split
  · exact .inl rfl
  · exact .inr rfl

/-- The ending of an aborted job: as far as the deflater had come. -/
theorem State.jobRun_aborted {s : State} {j : Job} (habort : j.abort = true) (m : Bool) :
    s.jobRun j m = jobWork j (s.jobStream j) j.fresh s.fresh.1 (some joAborted) := by
  have hstop : s.jobStop j m = some joAborted := if_pos habort
  rw [State.jobRun, hstop]
  rfl

theorem State.jobOutcome_aborted_lt {s : State} {j : Job} (habort : j.abort = true) (v d m : Bool) : s.jobOutcome j v d m < 256 := by
  unfold State.jobOutcome
  split
  · decide
  split
  · decide
  · rw [State.jobRun_aborted habort]
    rcases jobWork_stopped j (s.jobStream j) j.fresh s.fresh.1 joAborted with h | h <;> rw [h] <;> decide

section
variable {s : State} {n : Nat} {j : Job} {t : Tick} (hfind : s.jobs.find n = some j) (hwaits : ¬ j.running = true)
include hfind hwaits

/-- A job that has not run ends without its stream where its handle is stale, or another job holds the slot. -/
theorem State.jobAbort_held (h : s.jobHeld n j) : s.jobAbort n t = s.jobDrop n j joAborted t := by
  rw [State.jobAbort, hfind]
  exact (if_neg hwaits).trans (if_pos (by simpa [State.jobHeld] using h))

theorem State.jobAbort_waiting (h : ¬ s.jobHeld n j) : s.jobAbort n t = s.jobFinish n (j.aborted t) false false false t := by
  rw [State.jobAbort, hfind]
  exact (if_neg hwaits).trans (if_neg (by simpa [State.jobHeld] using h))

/-- A job that is aborted before it runs is over: without its stream, or with the ending of R488. -/
theorem State.jobAbort_over (hn : n < 16) : ∃ r, JobOver s (s.jobAbort n t) n r ∧ (s.jobHeld n j → fieldAt r 17 1 = joAborted)
    ∧ (¬ s.jobHeld n j → fieldAt r 17 1 = s.jobOutcome (j.aborted t) false false false) := by
  by_cases hheld : s.jobHeld n j
  · rw [State.jobAbort_held hfind hwaits hheld]
    exact ⟨_, s.jobDrop_over hn j joAborted t, fun _ => fieldAt_jobResult_outcome .., fun h => absurd hheld h⟩
  · rw [State.jobAbort_waiting hfind hwaits hheld]
    obtain ⟨r, hover, -, -, houtcome, -⟩ := s.jobFinish_over hn (j.aborted t) false false false t
    rw [Nat.mod_eq_of_lt (State.jobOutcome_aborted_lt rfl ..)] at houtcome
    exact ⟨r, hover, fun h => absurd h hheld, fun _ => houtcome⟩

end

/-! A FINISH (R490, R492): its output is an empty last block. -/

theorem bitsOfBytes_length (b : Bytes) : (bitsOfBytes b).length = 8 * b.length := by
  induction b with
  | nil => rfl
  | cons x b ih =>
    rw [bitsOfBytes, List.length_append, ih, List.length_map, List.length_cons]
    show 8 + _ = _
    omega

/-- The two lengths of an empty stored block, and what follows. -/
def emptyLengths (s : List Bool) : List Bool := List.replicate 16 false ++ (List.replicate 16 true ++ s)

/-- The bits of an empty stored block after its three first ones: five to the byte boundary, and the two lengths. -/
def emptyBlock (s : List Bool) : List Bool := List.replicate 5 false ++ emptyLengths s

theorem inflateBlocks_emptyLast (f : Nat) (out : Bytes) {s : List Bool} (hs : s.length % 8 = 0) :
    inflateBlocks (f + 1) out (true :: false :: false :: emptyBlock s) = some (out, s) := by
  have htake : takeBits 2 (false :: false :: emptyBlock s) = some (0, emptyBlock s) := rfl
  have hpad : (emptyBlock s).drop ((emptyBlock s).length % 8) = emptyLengths s := by
    have hlen : (emptyBlock s).length % 8 = 5 := by
      simp only [emptyBlock, emptyLengths, List.length_append, List.length_replicate]
      omega
    rw [hlen]
    rfl
  have hnone : natOfBits ((emptyLengths s).take 16) = 0 := by
    rw [emptyLengths, List.take_left' List.length_replicate]
    decide
  have hall : natOfBits (((emptyLengths s).drop 16).take 16) = 65535 := by
    rw [emptyLengths, List.drop_left' List.length_replicate, List.take_left' List.length_replicate]
    decide
  have hroom : 32 ≤ (emptyLengths s).length := by simp [emptyLengths]
  rw [inflateBlocks]
  simp only [htake, hpad, hnone, hall]
  rw [if_neg (by omega)]
  rfl

/-- An empty last block inflates to nothing, whatever trailer follows. -/
theorem inflatesTo_lastBlock (history trailer : Bytes) : inflatesTo history ([1, 0, 0, 0xFF, 0xFF] ++ trailer) [] = true := by
  have hbits : bitsOfBytes ([1, 0, 0, 0xFF, 0xFF] ++ trailer) = true :: false :: false :: emptyBlock (bitsOfBytes trailer) := rfl
  have hlen : (bitsOfBytes trailer).length % 8 = 0 := by
    rw [bitsOfBytes_length]
    omega
  rw [inflatesTo, hbits, inflateBlocks_emptyLast _ _ hlen]
  simp [hlen]

/-- The output of a FINISH (R490). -/
def DeflSlot.lastBlock (x : DeflSlot) : Bytes := [1, 0, 0, 0xFF, 0xFF] ++ wrapTrailer x.wrapper x.check x.total

section
variable {s : State} {j : Job} {m : Bool} (hop : j.op = 3) (habort : j.abort = false) (hrevoked : s.jobRevoked j = false) (hcut : j.cut = none)
include hop habort hrevoked hcut

/-- Nothing stops a FINISH that is not aborted, for it reads nothing. -/
theorem State.jobStop_finish : s.jobStop j m = none := by
  simp [State.jobStop, habort, hrevoked, hop, hcut]

theorem State.jobRun_finish : s.jobRun j m = ⟨joDone, [], (s.jobStream j).lastBlock⟩ := by
  rw [State.jobRun, State.jobStop_finish hop habort hrevoked hcut]
  exact if_pos ⟨hop, rfl⟩

theorem State.jobOutcome_finish (hdest : s.destUp j = true) : s.jobOutcome j false false m = joDone := by
  have hfresh : j.fresh = false := by simp [Job.fresh, hop]
  have hchecks : (s.jobRun j m).checks (s.jobStream j) j.fresh = true := by
    rw [State.jobRun_finish hop habort hrevoked hcut, hfresh]
    exact inflatesTo_lastBlock ..
  rw [State.jobOutcome_delivered (by simp [hchecks]) (by simp [hdest]), State.jobRun_finish hop habort hrevoked hcut]

end

end Sys2Proof.Machine

namespace Sys2Proof.Machine

/-! A job takes its first page (R24, R482). -/

/-- A page of a queue is held and closed, so that it can be leased (R399). -/
def State.pageClosed (s : State) (q capture seq : Nat) : Prop := ∃ p ∈ (s.queue q).pages, p.capture = capture ∧ p.seq = seq ∧ p.closed = true

/-- A job's lease of one page: where it stands it is of that page and the deflater's, where it does not the leases are as they were; a page that is
closed, with room in the table, is leased. -/
structure PageLeased (s u : State) (q capture seq : Nat) (lease : Option Nat) : Prop where
  rest : u = { s with cmm := u.cmm, free := u.free }
  live : ∀ id, lease = some id → ∃ l, u.cmm.leaseOf id = some l ∧ l.holder = 0x50 ∧ l.queue = q ∧ l.first = seq ∧ l.count = 1
  unchanged : lease = none → u.cmm = s.cmm
  taken : s.pageClosed q capture seq → s.cmm.leases.length < 4096 → lease.isSome = true

/-- The page that a lease of one page asks for is among those that the table finds. -/
theorem State.pageClosed_iff {s : State} {q capture seq : Nat} : s.pageClosed q capture seq ↔
    1 ≤ ((s.queue q).pages.filter (fun p => p.capture = capture && seq ≤ p.seq && p.seq < seq + 1 && p.closed)).length := by
  rw [Nat.one_le_iff_ne_zero, Ne, List.length_eq_zero_iff, List.filter_eq_nil_iff]
  simp only [State.pageClosed, Bool.and_eq_true, decide_eq_true_eq]
  constructor
  · rintro ⟨p, hp, hcapture, hseq, hclosed⟩ hnone
    exact hnone p hp ⟨⟨⟨hcapture, by omega⟩, by omega⟩, hclosed⟩
  · intro hsome
    push Not at hsome
    obtain ⟨p, hp, ⟨⟨hcapture, hlo⟩, hhi⟩, hclosed⟩ := hsome
    exact ⟨p, hp, hcapture, by omega, hclosed⟩

/-- A lease of one page is taken, or there is no such page or no room. -/
theorem State.takeLease_one (s : State) (q capture seq timeout : Nat) :
    (∃ id u, (s.takeLease 0x50 q capture seq 1 timeout false).1 = some (id, u) ∧ PageLeased s u q capture seq (some id))
    ∨ ((s.takeLease 0x50 q capture seq 1 timeout false).1 = none ∧ PageLeased s s q capture seq none) := by
  by_cases hpage : s.pageClosed q capture seq
  · by_cases hroom : s.cmm.leases.length < 4096
    · left
      have hindex : s.leaseIndex < 65536 := by
        have : s.leaseIndex < 4096 := Nat.mod_lt _ (by decide)
        omega
      have htake := State.takeLease_granted (holder := 0x50) (timeout := timeout) (expiryFree := false) hroom (by decide) (State.pageClosed_iff.mp hpage)
      refine ⟨_, _, by rw [htake], rfl, fun id hid => ?_, fun h => (nomatch h), fun _ _ => rfl⟩
      cases hid
      exact ⟨_, s.newLease_leaseOf _ hindex, rfl, rfl, rfl, rfl⟩
    · right
      refine ⟨?_, rfl, fun _ h => (nomatch h), fun _ => rfl, fun _ h => absurd h hroom⟩
      unfold State.takeLease
      dsimp only
      rw [if_neg (by have := State.pageClosed_iff.mp hpage; omega), if_pos (by omega)]
  · right
    refine ⟨?_, rfl, fun _ h => (nomatch h), fun _ => rfl, fun h => absurd h hpage⟩
    unfold State.takeLease
    dsimp only
    rw [if_pos (by have := mt State.pageClosed_iff.mpr hpage; omega)]

/-- A job with the page that it has come to. -/
def Job.atPage (j : Job) (lease : Option Nat) (seq off left : Nat) : Job :=
  { j with lease := lease, page := seq, at_ := off, left := left, cut := if left ≠ 0 ∧ lease = none then some joNoPage else none }

theorem State.jobLease_page (s : State) (n : Nat) (j : Job) (q capture seq off left : Nat) :
    ∃ (lease : Option Nat) (u : State), s.jobLease n j q capture seq off left = { u with jobs := s.jobs.set n (j.atPage lease seq off left) }
      ∧ u = { s with cmm := u.cmm, free := u.free } ∧ (left ≠ 0 → PageLeased s u q capture seq lease) ∧ (left = 0 → lease = none ∧ u = s) := by
  unfold State.jobLease
  dsimp only
  by_cases hleft : left = 0
  · refine ⟨none, s, ?_, rfl, fun h => absurd hleft h, fun _ => ⟨rfl, rfl⟩⟩
    rw [if_pos hleft, Job.atPage, if_neg (by simp [hleft])]
  · rw [if_neg hleft]
    obtain ⟨id, u, htake, hleased⟩ | ⟨htake, hleased⟩ := s.takeLease_one q capture seq (s.obj Obj.cmmLeaseTimeoutMs)
    · refine ⟨some id, u, ?_, hleased.rest, fun _ => hleased, fun h => absurd h hleft⟩
      rw [htake, Job.atPage, if_neg (by simp)]
      have : u.jobs = s.jobs := by rw [hleased.rest]
      simp only [this]
    · refine ⟨none, s, ?_, rfl, fun _ => hleased, fun h => absurd h hleft⟩
      rw [htake, Job.atPage, if_pos ⟨hleft, rfl⟩]

/-! The job that runs next (R482, R483). -/

/-- The job that runs before another: the one of the lower order. -/
def soonerJob (best : Option (Nat × Job)) (e : Nat × Job) : Option (Nat × Job) :=
  match best with
  | none => some e
  | some c => if e.2.order < c.2.order then some e else best

/-- The job of the lowest order comes out of the search, once it has been met. -/
theorem foldl_soonerJob {e : Nat × Job} {l : List (Nat × Job)} (hl : ∀ x ∈ l, x = e ∨ e.2.order < x.2.order) {best : Option (Nat × Job)}
    (hbest : ∀ x, best = some x → x = e ∨ e.2.order < x.2.order) (hmem : best = some e ∨ e ∈ l) : l.foldl soonerJob best = some e := by
  induction l generalizing best with
  | nil => exact hmem.resolve_right List.not_mem_nil
  | cons y l ih =>
    have hy := hl y List.mem_cons_self
    refine ih (fun x hx => hl x (List.mem_cons_of_mem _ hx)) ?_ ?_
    · intro x hx
      cases best with
      | none => exact Option.some.inj hx ▸ hy
      | some c =>
        rw [soonerJob] at hx
        split at hx
        · exact Option.some.inj hx ▸ hy
        · exact hbest x hx
    · rw [List.mem_cons, ← or_assoc] at hmem
      refine hmem.imp_left ?_
      rintro (rfl | rfl)
      · have : ¬ y.2.order < e.2.order := by
          rcases hy with rfl | hy <;> omega
        exact if_neg this
      · cases best with
        | none => rfl
        | some c =>
          rw [soonerJob]
          split
          · rfl
          · next hlt => exact congrArg some ((hbest c rfl).resolve_right hlt)

theorem Tab.mem_of_find {α : Type} {t : Tab α} {i : Nat} {x : α} (h : t.find i = some x) : (i, x) ∈ t := by
  induction t with
  | nil => cases h
  | cons e t ih =>
    rw [Tab.find] at h
    split at h
    · next hi => 
      cases h
      exact hi ▸ List.mem_cons_self
    · exact List.mem_cons_of_mem _ (ih h)

/-- A job that runs. -/
def Job.started (j : Job) (t : Tick) : Job := { j with running := true, startAt := t }

section
variable {s : State} {n : Nat} {j : Job}

/-- The state in which a job has taken hold of its slot (R487). -/
def State.holdSlot (s : State) (n : Nat) (j : Job) : State := s.setDefl j.slot { s.defl j.slot with job := some n, named := s.tick }

/-- The accepted job of the lowest order starts, at the page where its stream stands. -/
theorem execJobRun_starts (hbooted : s.booted = true) (hdev : s.obj Obj.devDevState ≠ 5) (hidle : s.jobs.any (fun e => e.2.running) = false)
    (hnext : s.jobs.foldl soonerJob none = some (n, j)) (hstale : s.jobStale j = false) :
    execJobRun s = .next (((s.holdSlot n j).jobLease n (j.started s.tick) (s.jobStream j).queue
      (s.jobStream j).capture (s.jobStream j).first (s.jobStream j).offset (if j.op = 3 then 0 else (s.jobStream j).remain)).setObj (Obj.jobJobState n) 2) := by
  unfold execJobRun
  rw [if_neg (by simp [hbooted, hdev, hidle])]
  split
  · next hnone => exact absurd (hnext.symm.trans hnone) (by simp)
  · next ix k hsome =>
    obtain ⟨rfl, rfl⟩ := Prod.mk.inj (Option.some.inj (hnext.symm.trans hsome))
    dsimp only
    rw [if_neg (by simp [hstale])]
    rfl

/-- A START begins its own stream, which no other job can have taken. -/
theorem State.jobStale_start (hop : j.op = 1) (hcont : j.cont = false) : s.jobStale j = false := by
  simp [State.jobStale, hop, hcont]

theorem State.jobStream_start (hop : j.op = 1) (hcont : j.cont = false) : s.jobStream j =
    { gen := (s.defl j.slot).gen, job := (s.defl j.slot).job, wrapper := j.wrapper, check := checkInit j.wrapper, final := j.final, queue := j.queue,
      capture := j.capture, first := j.first, offset := j.offset, remain := j.inLen } := by
  simp [State.jobStream, hop, hcont]

/-- The accepted START of the lowest order runs, under a lease of its first page. -/
theorem execJobRun_start (hbooted : s.booted = true) (hdev : s.obj Obj.devDevState ≠ 5) (hidle : s.jobs.any (fun e => e.2.running) = false)
    (hfind : s.jobs.find n = some j) (hleast : ∀ e ∈ s.jobs, e = (n, j) ∨ j.order < e.2.order) (hop : j.op = 1) (hcont : j.cont = false) :
    ∃ (u : State) (lease : Option Nat), execJobRun s
        = .next (State.setObj { u with jobs := s.jobs.set n ((j.started s.tick).atPage lease j.first j.offset j.inLen) } (Obj.jobJobState n) 2)
      ∧ u = { s.holdSlot n j with cmm := u.cmm, free := u.free }
      ∧ (j.inLen ≠ 0 → PageLeased (s.holdSlot n j) u j.queue j.capture j.first lease) ∧ (j.inLen = 0 → lease = none ∧ u = s.holdSlot n j) := by
  have hnext : s.jobs.foldl soonerJob none = some (n, j) := foldl_soonerJob hleast (fun _ h => nomatch h) (.inr (Tab.mem_of_find hfind))
  have hexec := execJobRun_starts hbooted hdev hidle hnext (State.jobStale_start hop hcont)
  rw [State.jobStream_start hop hcont, if_neg (by omega)] at hexec
  obtain ⟨lease, u, hpage, hrest, hleased, hempty⟩ :=
    (s.holdSlot n j).jobLease_page n (j.started s.tick) j.queue j.capture j.first j.offset j.inLen
  exact ⟨u, lease, hexec.trans (congrArg (fun t : State => Host.Outcome.next (t.setObj (Obj.jobJobState n) 2)) hpage), hrest, hleased, hempty⟩

/-- With a job running, the deflater looks whether it has come to its end. -/
theorem execJobEnd_running (v d m : Bool) (hrun : s.jobs.find? (fun e => e.2.running) = some (n, j)) :
    execJobEnd v d m s = .next (if (d || m || s.jobOver j) = true then s.jobFinish n j v d m s.tick else s) := by
  rw [execJobEnd, hrun]

end

/-- Settles O40: the search for the lowest order finds the START, whose first page is leased or not; every end of a job goes through
`State.jobFinish_over`, and a FINISH that nothing stops passes its check by `inflatesTo_lastBlock`. -/
theorem jobsRunInOrderAndEnd : Obligations.JobsRunInOrderAndEnd := by
  unfold Obligations.JobsRunInOrderAndEnd
  refine ⟨fun s n j hn hbooted hdev hidle hfind hleast hop hcont => ?_, fun s v d m n j hn hrun => ⟨fun hd hm hover => ?_, fun hends => ?_⟩⟩
  · obtain ⟨u, lease, hexec, hrest, hleased, hempty⟩ := execJobRun_start hbooted hdev hidle hfind hleast hop hcont
    have hobj (k : Key) : u.obj k = s.obj k := State.obj_of_dict (congrArg State.dict hrest) k
    have hqueues : u.queues = s.queues := by
      rw [hrest]
      rfl
    have hslot : (u.defl j.slot).job = some n := by
      rw [State.defl, congrArg State.deflSlots hrest]
      exact congrArg DeflSlot.job (State.defl_setDefl_self ..)
    refine ⟨_, lease, hexec, State.obj_setObj_self .., fun k hk => ?_, Tab.find_set_self .., hslot, fun m hm => Tab.find_set_ne _ _ hm,
      hqueues, fun id hid => ?_, fun hnone => ?_, fun hpage hroom hinput => (hleased hinput).taken hpage hroom⟩
    · exact (State.obj_setObj_ne _ _ (by simpa using hk)).trans (hobj k)
    · have hinput : j.inLen ≠ 0 := by
        intro h
        rw [(hempty h).1] at hid
        cases hid
      exact (hleased hinput).live id hid
    · by_cases hinput : j.inLen = 0
      · obtain ⟨-, rfl⟩ := hempty hinput
        rfl
      · exact (hleased hinput).unchanged hnone
  · exact (execJobEnd_running v d m hrun).trans (congrArg Host.Outcome.next (if_neg (by simp [hd, hm, hover])))
  · obtain ⟨r, hover, hlease, hlen, houtcome, hdone⟩ := s.jobFinish_over hn j v d m s.tick
    refine ⟨_, (execJobEnd_running v d m hrun).trans (congrArg Host.Outcome.next (if_pos (by simpa [or_assoc] using hends))), hover.gone, hover.others,
      hover.state, hover.counted, ?_, hlease, ?_, ?_⟩
    · rw [hover.result, hlen]
    · rintro rfl
      rw [hover.result, houtcome, State.jobOutcome_verifyFail]
      rfl
    · rintro hop habort hrevoked hcut rfl rfl hdest
      have hfinish := State.jobOutcome_finish (m := m) hop habort hrevoked hcut hdest
      obtain ⟨hhandle, hslot⟩ := hdone hfinish hop
      rw [hover.result, houtcome, hfinish]
      exact ⟨rfl, hhandle, hslot⟩

end Sys2Proof.Machine

namespace Sys2Proof.Machine

/-! JOB_DESC (R483, R484, R489 to R491): what a descriptor asks for, and where it acts. -/

theorem blockAction_jobDesc {n : Nat} (hn : n < 16) : BlockAction (Obj.jobJobDesc n) 64 := by
  obtain ⟨hkey, hunstaged, hpair, hrow⟩ :=
    (by decide : ∀ n < 16, Obj.jobJobDesc n < 2 ^ 24 ∧ isStaged (Obj.jobJobDesc n) = false ∧ pairPartner (Obj.jobJobDesc n) = none
      ∧ findObj (Obj.jobJobDesc n) = some ⟨0x5500, 16, 0x01, 1, .dom, .wo, false, .len 64 64, 0, true⟩) n hn
  exact ⟨hkey, hunstaged, hpair, ⟨_, hrow, rfl, by decide, rfl⟩, by decide⟩

/-- The fields that every descriptor has are in their ranges, and what must be zero is zero (R484): a job for the host, of a known wrapper and block type. -/
structure PlainJobDesc (b : Bytes) : Prop where
  reserved : fieldAt b 1 3 = 0
  wrapper : fieldAt b 5 1 ≤ 2
  block : fieldAt b 6 1 ≤ 3
  dest : fieldAt b 7 1 = 0
  spare : slice b 8 16 = zeros 16
  tail : fieldAt b 48 4 = 0
  outLo : 1024 ≤ fieldAt b 52 4
  outHi : fieldAt b 52 4 ≤ 16777216

/-- The job that a plain descriptor asks for. -/
def State.askedJob (s : State) (iss : Issuer) (b : Bytes) (slot : Nat) : Job :=
  { op := fieldAt b 0 1, final := bit (fieldAt b 4 1) 0, notify := bit (fieldAt b 4 1) 1, cont := false, wrapper := fieldAt b 5 1, block := fieldAt b 6 1,
    dest := 0, addr := fieldAt b 56 8, outLen := fieldAt b 52 4, queue := fieldAt b 26 2, capture := fieldAt b 28 4, first := fieldAt b 32 4,
    offset := fieldAt b 36 4, inLen := fieldAt b 40 8, handle := fieldAt b 24 2, iss := iss, slot := slot, order := s.jobOrder }

/-- A job is accepted: it stands in its place of the order. -/
def State.acceptJob (s : State) (n : Nat) (j : Job) : State :=
  ({ s with jobs := s.jobs.set n j, jobOrder := s.jobOrder + 1 } : State).setObj (Obj.jobJobState n) 1

section
variable {s : State} {iss : Issuer} {n : Nat} {b : Bytes} {t : Tick}

/-- A descriptor that holds a job takes no second one (R483). -/
theorem State.jobDesc_busy (hheld : (s.jobs.find n).isSome = true) (hop : fieldAt b 0 1 ≠ 4) :
    s.jobDesc iss n b t = (s, badOut (Obj.jobJobDesc n) stBusy 0) :=
  if_pos ⟨hheld, hop⟩

section
variable (hplain : PlainJobDesc b)
include hplain

/-- ABORT marks the job while it runs, and ends it before (R491). -/
theorem State.jobDesc_abort {j : Job} (hflags : fieldAt b 4 1 < 8) (hop : fieldAt b 0 1 = 4) (hfind : s.jobs.find n = some j) :
    s.jobDesc iss n b t = (if j.running = true then { s with jobs := s.jobs.set n { j with abort := true } } else s.jobAbort n t,
      okOut (Obj.jobJobDesc n) (.byt b)) := by
  obtain ⟨hreserved, hwrapper, hblock, hdest, hspare, htail, houtLo, houtHi⟩ := hplain
  obtain ⟨hout, hpos⟩ : min (fieldAt b 52 4) 16777216 = fieldAt b 52 4 ∧ fieldAt b 52 4 ≠ 0 := by omega
  unfold State.jobDesc
  simp [hop, hfind, hreserved, hdest, hspare, htail, hout, hpos, Nat.not_lt.mpr houtLo, Nat.not_lt.mpr hwrapper, Nat.not_lt.mpr hblock,
    Nat.not_lt.mpr (Nat.le_of_lt_succ hflags), clampedOut, okOut]

variable (hfree : s.jobs.find n = none) (hflags : fieldAt b 4 1 < 4) (hqueue : fieldAt b 26 2 ≤ 4095) (hoffset : fieldAt b 36 4 ≤ 65535) {i : Nat}
include hfree hflags hqueue

/-- RESUME and FINISH name the slot of their handle (R490). -/
theorem State.jobDesc_named (hop : fieldAt b 0 1 = 2 ∨ fieldAt b 0 1 = 3) (hslot : s.handleSlot (fieldAt b 24 2) = some i) :
    s.jobDesc iss n b t = ((s.setDefl i { s.defl i with named := t }).acceptJob n (s.askedJob iss b i), okOut (Obj.jobJobDesc n) (.byt b)) := by
  obtain ⟨hreserved, hwrapper, hblock, hdest, hspare, htail, houtLo, houtHi⟩ := hplain
  obtain ⟨hout, hpos⟩ : min (fieldAt b 52 4) 16777216 = fieldAt b 52 4 ∧ fieldAt b 52 4 ≠ 0 := by omega
  have hhigh : ¬ 7 < fieldAt b 4 1 := by omega
  unfold State.jobDesc
  rcases hop with hop | hop <;>
    simp [hop, hfree, hreserved, hdest, hspare, htail, hout, hpos, hslot, hhigh, hqueue, Nat.not_lt.mpr houtLo, Nat.not_lt.mpr hblock, Option.filter,
      clampedOut, okOut, State.askedJob, State.acceptJob]

include hoffset

/-- START takes a free slot (R487). -/
theorem State.jobDesc_start (hop : fieldAt b 0 1 = 1) (hinput : fieldAt b 40 8 ≠ 0) (hslot : (below 16).find? (fun i => (s.defl i).free) = some i) :
    s.jobDesc iss n b t = ((s.setDefl i { gen := (s.defl i).gen, job := some n }).acceptJob n (s.askedJob iss b i),
      okOut (Obj.jobJobDesc n) (.byt b)) := by
  obtain ⟨hreserved, hwrapper, hblock, hdest, hspare, htail, houtLo, houtHi⟩ := hplain
  obtain ⟨hout, hpos⟩ : min (fieldAt b 52 4) 16777216 = fieldAt b 52 4 ∧ fieldAt b 52 4 ≠ 0 := by omega
  have hhigh : ¬ 7 < fieldAt b 4 1 := by omega
  have hcont : bit (fieldAt b 4 1) 2 = false := Nat.testBit_lt_two_pow hflags
  unfold State.jobDesc
  simp [hop, hfree, hreserved, hdest, hspare, htail, hout, hpos, hslot, hhigh, hqueue, hcont, hinput, Nat.not_lt.mpr houtLo, Nat.not_lt.mpr hblock,
    Nat.not_lt.mpr hwrapper, Nat.not_lt.mpr hoffset, clampedOut, okOut, State.askedJob, State.acceptJob]

/-- The slot of an accepted job: a free one that START takes, or the one whose handle is named. -/
def DeflSlot.taken (x : DeflSlot) (op n : Nat) (t : Tick) : DeflSlot := if op = 1 then { gen := x.gen, job := some n } else { x with named := t }

/-- A plain descriptor that finds its slot is accepted. -/
theorem State.jobDesc_accepted (hop : 1 ≤ fieldAt b 0 1 ∧ fieldAt b 0 1 ≤ 3) (hinput : fieldAt b 40 8 ≠ 0)
    (hslot : (if fieldAt b 0 1 = 1 then (below 16).find? (fun i => (s.defl i).free) else s.handleSlot (fieldAt b 24 2)) = some i) :
    s.jobDesc iss n b t = ((s.setDefl i ((s.defl i).taken (fieldAt b 0 1) n t)).acceptJob n (s.askedJob iss b i), okOut (Obj.jobJobDesc n) (.byt b)) := by
  by_cases hstart : fieldAt b 0 1 = 1
  · rw [if_pos hstart] at hslot
    rw [DeflSlot.taken, if_pos hstart]
    exact State.jobDesc_start hplain hfree hflags hqueue hoffset hstart hinput hslot
  · rw [if_neg hstart] at hslot
    rw [DeflSlot.taken, if_neg hstart]
    exact State.jobDesc_named hplain hfree hflags hqueue (by omega) hslot

end
end

/-- START, RESUME and FINISH are writes of JOB_DESC that name the operation. -/
theorem exec_jobCommand {s : State} {c : BytesCmd} {n op : Nat} {r : Instr} (hn : n < 16) (hop : op = fieldAt c.value 0 1)
    (h : (op, r) ∈ [(1, Instr.jobStart c n), (2, .resume c n), (3, .finish c n)]) :
    (1 ≤ op ∧ op ≤ 3) ∧ exec r s = .next (s.writeByt c (Obj.jobJobDesc n)) := by
  have hwrite : s.writeOp c (Obj.jobJobDesc (n % 16)) op = s.writeByt c (Obj.jobJobDesc n) := by
    rw [Nat.mod_eq_of_lt hn, State.writeOp, if_pos hop.symm]
  rw [← hwrite]
  simp only [List.mem_cons, List.not_mem_nil, or_false, Prod.mk.injEq] at h
  obtain ⟨rfl, rfl⟩ | ⟨rfl, rfl⟩ | ⟨rfl, rfl⟩ := h <;> exact ⟨by decide, rfl⟩

theorem exec_abort {s : State} {c : BytesCmd} {n : Nat} (hn : n < 16) (hop : fieldAt c.value 0 1 = 4) :
    exec (.abort c n) s = .next (s.writeByt c (Obj.jobJobDesc n)) := by
  show Host.Outcome.next (s.writeOp c (Obj.jobJobDesc (n % 16)) 4) = _
  rw [Nat.mod_eq_of_lt hn, State.writeOp, if_pos hop]

/-- Settles O39: each descriptor is one equation of `State.jobDesc`; a job that is aborted before it runs ends by `State.jobAbort_over`. -/
theorem jobDescriptorsAreAccepted : Obligations.JobDescriptorsAreAccepted := by
  unfold Obligations.JobDescriptorsAreAccepted
  refine ⟨fun s s1 c a n op r hn hw hlen hop hr hheld => ?_,
    fun s s1 c a n i op r hn hw hlen hop hr hreserved hflags hwrapper hblock hdest hspare htail houtLo houtHi hqueue hoffset hinput hfree hslot => ?_,
    fun s s1 c a n j hn hw hlen hop hreserved hflags hwrapper hblock hdest hspare htail houtLo houtHi hfind => ?_⟩
  · obtain ⟨hrange, hexec⟩ := exec_jobCommand (s := s) hn hop hr
    rw [hexec]
    exact hw.blockAction_bad (blockAction_jobDesc hn) hlen (by decide)
      ((act_jobJobDesc _ _ _ _ hn).trans (congrArg done (State.jobDesc_busy hheld (by omega))))
  · obtain ⟨hrange, hexec⟩ := exec_jobCommand (s := s) hn hop hr
    subst hop
    rw [hexec]
    have hdesc := State.jobDesc_accepted (iss := c.iss) (t := s1.tick + 1) ⟨hreserved, hwrapper, hblock, hdest, hspare, htail, houtLo, houtHi⟩ hfree hflags
      hqueue hoffset hrange hinput hslot
    have hlands := hw.blockAction_ok (blockAction_jobDesc hn) hlen ((act_jobJobDesc _ _ _ _ hn).trans (congrArg done hdesc))
    exact ⟨_, _, hlands, rfl, State.obj_setObj_self .., fun k hk => State.obj_setObj_ne _ _ (by simpa using hk), Tab.find_set_self ..,
      fun m hm => Tab.find_set_ne _ _ hm, fun m hm => (s1.defl_setDefl ..).trans (if_neg hm), rfl, rfl, rfl, rfl, rfl, rfl, rfl, rfl, rfl, rfl, rfl, rfl, rfl,
      s1.defl_setDefl_self ..⟩
  · rw [exec_abort hn hop]
    have hdesc := State.jobDesc_abort (iss := c.iss) (t := s1.tick + 1) ⟨hreserved, hwrapper, hblock, hdest, hspare, htail, houtLo, houtHi⟩ hflags hop hfind
    have hlands := hw.blockAction_ok (blockAction_jobDesc hn) hlen ((act_jobJobDesc _ _ _ _ hn).trans (congrArg done hdesc))
    split
    · next hruns => rwa [if_pos hruns] at hlands
    next hwaits =>
    rw [if_neg hwaits] at hlands
    obtain ⟨r, hover, hheld, hended⟩ := State.jobAbort_over (t := s1.tick + 1) hfind hwaits hn
    refine ⟨_, hlands, hover.gone, hover.state, hover.counted, ⟨s1.fresh.1, ?_⟩, hover.others⟩
    intro x fresh w
    have hrun : s1.jobRun (j.aborted (s1.tick + 1)) false = w := State.jobRun_aborted rfl _
    rw [hover.result]
    split
    · next h => exact hheld h
    · next h =>
      rw [hended h, State.jobOutcome_eq, hrun]
      rfl

end Sys2Proof.Machine

namespace Sys2Proof.Machine

/-! The packet of a WRITE, as it is written and as it is read (R502, R504, R506). -/

/-- A WRITE whose length is a multiple of 4 and fits a packet passes the check of R502. -/
theorem parsePkt_writePacket {port tag flags entries : Nat} {body trailer : Bytes} (ht : Trailed flags trailer) (hport : port = 2 → trailer = [])
    (he : entries < 256) (hl : 16 + body.length + trailer.length ≤ 256) (h4 : body.length % 4 = 0) (hbody : (writeEntries entries body).isSome = true) :
    parsePkt port (writePacket tag flags entries body trailer)
      = some ⟨opWrite, flags, entries, tag % 2 ^ 32, body, trailer, writePacket tag flags entries body trailer⟩ := by
  suffices h : ∃ p, parsePkt port (writePacket tag flags entries body trailer) = some p by
    obtain ⟨p, hp⟩ := h
    rw [hp, parse_writePacket ht he (by omega) hp]
  obtain ⟨hflags, htrailer⟩ := ht
  obtain ⟨f0, f1, f2, f4, f6, f7, f12, -⟩ := writeHead_fields tag flags entries (16 + body.length + trailer.length) (by omega) he (by omega)
  have hlen : (writePacket tag flags entries body trailer).length = 16 + body.length + trailer.length := by
    rw [writePacket_eq]
    simp only [List.length_append, writeHead_length]
    omega
  have head (off n : Nat) (h : off + n ≤ 16) : fieldAt (writePacket tag flags entries body trailer) off n
      = fieldAt (writeHead tag flags entries (16 + body.length + trailer.length)) off n := by
    rw [writePacket_eq]
    exact fieldAt_head _ _ _ _ (by simpa using h)
  have hread : ((writePacket tag flags entries body trailer).drop 16).take (16 + body.length + trailer.length - 16 - if bit flags 1 then 32 else 0)
      = body := by
    rw [writePacket_eq, List.drop_left' (by simp), ← htrailer]
    exact List.take_left' (by omega)
  have hauth (hb : bit flags 1 = true) : trailer.length = 32 ∧ ¬port = 2 := by
    rw [if_pos hb] at htrailer
    exact ⟨htrailer, fun e => by simp [hport e] at htrailer⟩
  have h4' : trailer.length % 4 = 0 := by split at htrailer <;> omega
  have hpass : (parsePkt port (writePacket tag flags entries body trailer)).isSome = true := by
    unfold parsePkt
    simp only [hlen, head 0 1 (by omega), head 1 1 (by omega), head 2 1 (by omega), head 4 2 (by omega), head 6 1 (by omega), head 7 1 (by omega),
      head 12 4 (by omega), f0, f1, f2, f4, f6, f7, f12, hread]
    rw [if_neg]
    · rfl
    simp only [not_or]
    refine ⟨by omega, by omega, by omega, by simp, by simp, by decide, by omega, by simp, by simp, ?_, by simp [show bodyOk 2 entries body = true from hbody]⟩
    simp only [Bool.and_eq_true, Bool.or_eq_true, decide_eq_true_eq]
    rintro ⟨hb, (hshort | hp2) | hop⟩
    · have := (hauth hb).1
      omega
    · exact (hauth hb).2 hp2
    · omega
  exact Option.isSome_iff_exists.mp hpass

/-- The bytes of a number spell it, cut to the width of its type (R498). -/
theorem ofLe_valBytes_mod {k v : Nat} {d : ObjDef} (hd : findObj k = some d) : ofLe (valBytes k (.num v)) = v % 2 ^ d.ty.width := by
  have hwidth (t : Ty) : 256 ^ (t.width / 8) = 2 ^ t.width := by cases t <;> decide
  simp only [valBytes, hd]
  rw [ofLe_le, hwidth]

/-- A write of one entry that fits a packet is read as that entry. -/
theorem parsePkt_writeEntry {port tag flags k : Nat} {v trailer : Bytes} (ht : Trailed flags trailer) (hport : port = 2 → trailer = [])
    (hk : k < 2 ^ 24) (hv : v.length ≤ 200) :
    ∃ p : Pkt, parsePkt port (writePacket tag flags 1 (writeEntry k v) trailer) = some p ∧ p.op = opWrite ∧ p.flags = flags ∧ p.entries = 1
      ∧ p.tag = tag % 2 ^ 32 ∧ p.trailer = trailer ∧ p.raw = writePacket tag flags 1 (writeEntry k v) trailer
      ∧ writeEntries p.entries p.body = some [(k, v)] := by
  have hentries := writeEntries_one k v hk (by omega)
  have hlen := writeEntry_length k v
  have htrailer : trailer.length ≤ 32 := by have := ht.2; split at this <;> omega
  exact ⟨_, parsePkt_writePacket ht hport (by decide) (by omega) (by omega) (by rw [hentries]; rfl), rfl, rfl, rfl, rfl, rfl, rfl, hentries⟩

/-- Settles O60: both packets are one entry's packet, and a number's bytes spell it. -/
theorem writePacketsAreReadAsTheyAreWritten : Obligations.WritePacketsAreReadAsTheyAreWritten := by
  unfold Obligations.WritePacketsAreReadAsTheyAreWritten
  refine ⟨fun c k v port hk ht _ hport => ?_, fun c k port hk ht _ hport hv => ?_⟩
  · have hv := valBytes_num_length k v
    obtain ⟨p, hp, hop, hflags, hentries, htag, htrailer, hraw, hread⟩ := parsePkt_writeEntry (tag := c.tag) ht hport hk (v := valBytes k (.num v)) (by omega)
    exact ⟨p, _, hp, hop, hflags, hentries, htag, htrailer, hraw, hread, fun d hd => ofLe_valBytes_mod hd⟩
  · obtain ⟨p, hp, hop, hflags, hentries, htag, htrailer, -, hread⟩ := parsePkt_writeEntry (tag := c.tag) ht hport hk hv
    exact ⟨p, hp, hop, hflags, hentries, htag, htrailer, hread⟩

end Sys2Proof.Machine

namespace Sys2Proof.Machine

/-- The answer is a next state. -/
def Completes (r : Ans) : Prop := ∃ t : State, r = .next t

theorem Completes.next (t : State) : Completes (.next t) := ⟨t, rfl⟩

theorem Completes.ite {c : Prop} [Decidable c] {a b : Ans} (ha : Completes a) (hb : Completes b) : Completes (if c then a else b) := by
  split
  · exact ha
  · exact hb

/-- No row stops: each is a next state, or makes one of two by its test, or by what it finds. -/
theorem exec_completes (c : Instr) (s : State) : Completes (exec c s) := by
  cases c
  case tick | laneWord | hiBerWindow | cdrLock | eyeScanStart | trigInAccept | alignWordSend | cascadeSyncLoss | loopUpdate | refclkLoss |
    refclkReturn | slewEnd | synLock | clkoutRestart | clkoutStart | clkoutStop | picotStep | sessionIdleTimeout | handshakeTimeout |
    drainEnd | flushLearntDone | rspAck | noteHead | cplHead | bar2Read | bar2Write | port0Reset | bmeClear | bmeSet | arpRequest |
    neighbourSolicitation | icmpEchoRequest | sgmiiSyncLoss | lockRequest | watchdogExpiry | coreFault | fwCheckEnd | flowhealthSample |
    darnerBorrow | fuseProgrammed | warmReset | controlReset | dataReset | managementReset | standbyEntry | thermalTrip | supplyFault |
    faultEntry | warmResetEnd | pcieLinkUp | cascadeSync | sgmiiSync | coreBooted =>
    exact .ite (.next _) (.next _)
  case ethFrame | cascadeMessageReceive | ppsEdge | refclkClassify | descTail => exact .ite (.next _) (.ite (.next _) (.next _))
  case vdpCommand => exact .ite (.next _) (.ite (.next _) (.ite (.next _) (.next _)))
  case eyeScanEnd | comparatorSettle | trigOutEnd | eventRead | cascadeMessageSend | alignWordReceive | alignWordTimeout | tickLoad |
    vrefEdge | ppsMiss | vrefMiss | hostTimeout | pairTimeout | commitLand | transferIdleTimeout | proveLockoutEnd | mirrorCopy |
    trainEnd | leaseExpire | segmentClose | segmentOpen | jobRun | jobEnd | handleTimeout | cmdDoorbell | bar0Write | descFetch |
    descGrant | descRead | descRenew | descRelease | nextHopReply | nextHopRetry | nextHopExpiry | notificationSend | lockTimeout |
    watchPoll | signatureTap | streamExport | streamSend | borrowEnd | marchEnd | flashProgrammed =>
    simp only [exec, execEyeScanEnd, execComparatorSettle, execTrigOutEnd, execEventRead, execCascadeMessageSend, execAlignWordReceive,
      execAlignWordTimeout, execTickLoad, execVrefEdge, execPpsMiss, execVrefMiss, execHostTimeout, execPairTimeout,
      execCommitLand, execTransferIdleTimeout, execProveLockoutEnd, execMirrorCopy, execTrainEnd, execLeaseExpire,
      execSegmentClose, execSegmentOpen, execJobRun, execJobEnd, execHandleTimeout, execCmdDoorbell, execBar0Write, execDescFetch,
      execDescGrant, execDescRead, execDescRenew, execDescRelease, execNextHopReply, execNextHopRetry, execNextHopExpiry,
      execNotificationSend, execLockTimeout, execWatchPoll, execSignatureTap, execStreamExport, execStreamSend, execBorrowEnd,
      execMarchEnd, execFlashProgrammed]
    repeat' split
    all_goals exact .next _
  all_goals exact .next _

/-- TICK, TICK_LOAD and POWER_ON_RESET set the tick count. -/
def SetsTick (c : Instr) : Prop := (∃ inp, c = .tick inp) ∨ c = .tickLoad ∨ ∃ straps, c = .powerOnReset straps

/-- What a command keeps, whatever it does to the tick count. -/
theorem exec_keptRetick {c : Instr} {s t : State} (hr : exec c s = .next t) :
    ∃ n, Kept { s with tick := n } t ∧ (¬SetsTick c → n = s.tick) := by
  by_cases hset : SetsTick c
  · suffices h : ∃ n, Kept { s with tick := n } t from h.imp fun n hn => ⟨hn, fun h => absurd hset h⟩
    obtain ⟨inp, rfl⟩ | rfl | ⟨straps, rfl⟩ := hset
    · cases hc : s.time.counting with
      | true =>
        have h : KeptAns { s with tick := s.tick + 1 } (exec (.tick inp) s) := execTick_kept inp s hc
        rw [hr] at h
        exact ⟨_, h⟩
      | false =>
        obtain rfl : s.clockInput inp = t := Host.Outcome.next.inj ((execTick_stopped inp s hc).symm.trans hr)
        exact ⟨s.tick, State.clockInput_kept (Kept.refl s) inp⟩
    · exact execTickLoad_kept s t hr
    · have h : KeptAns { s with tick := 0 } (exec (.powerOnReset straps) s) := execPowerOnReset_kept straps s
      rw [hr] at h
      exact ⟨0, h⟩
  · have h : KeptAns s (exec c s) := exec_kept (Kept.refl s) c (fun inp e => hset (.inl ⟨inp, e⟩)) (fun e => hset (.inr (.inl e)))
      (fun straps e => hset (.inr (.inr ⟨straps, e⟩)))
    rw [hr] at h
    exact ⟨s.tick, h, fun _ => rfl⟩

/-- Settles O59: every row completes, and what it keeps is what the operations keep that it is made of. -/
theorem everyCommandCompletesAndKeepsTheFuses : Obligations.EveryCommandCompletesAndKeepsTheFuses := by
  unfold Obligations.EveryCommandCompletesAndKeepsTheFuses
  intro c s
  obtain ⟨t, ht⟩ := exec_completes c s
  obtain ⟨n, ⟨hpending, htick, hfuses, hout, -⟩, hn⟩ := exec_keptRetick ht
  refine ⟨t, ht, hpending, hout, hfuses, fun h1 h2 h3 => htick.trans (hn ?_)⟩
  rintro (⟨inp, e⟩ | e | ⟨straps, e⟩)
  · exact h1 inp e
  · exact h2 e
  · exact h3 straps e

/-- Settles O56. -/
theorem stepRunsTheFrontCommand : Obligations.StepRunsTheFrontCommand := by
  unfold Obligations.StepRunsTheFrontCommand
  refine ⟨fun c r s h => ?_, fun s h => ?_⟩
  · unfold step
    rw [h]
  · unfold step
    rw [h]

/-- Settles O19: a taken packet is handed to the row, and its body fits a response. -/
theorem echoReturnsItsBody : Obligations.EchoReturnsItsBody := by
  unfold Obligations.EchoReturnsItsBody
  intro s s1 i p a htaken hfits
  show Host.Outcome.next (s.packet opEcho i p _) = _
  rw [State.packet_taking _ htaken, if_neg (by omega)]

end Sys2Proof.Machine

namespace Sys2Proof.Machine

/-! WRITE of one object (R512 to R515), and the end of a command (R505, R520, R563, R665). -/

/-- WRITE of the packet of one number is that packet's command. -/
theorem exec_write_num (s : State) (c : WriteCmd) (k v : Nat) : exec (.write c.iss (numPacket c k v)) s = .next (s.writeNum c k v) := rfl

section
variable {s s1 : State} {c : WriteCmd} {a : Accepted} {k v : Nat}

/-- A taken write of a number is its command of one entry. -/
theorem Writes.writeNum_eq (h : Writes s c k v s1 a) (hk : k < 2 ^ 24) :
    a.iss = c.iss ∧ a.pkt.flags = c.flags ∧ s.writeNum c k v = s1.writeCmd a false [(k, valBytes k (.num v))] := by
  obtain ⟨htrailed, htaken, -, -⟩ := h
  have hlen := valBytes_num_length k v
  obtain ⟨hiss, hflags, hentries⟩ := State.taking_write htrailed hk (by omega) htaken
  exact ⟨hiss, hflags, by rw [State.writeNum, State.packet_taking _ htaken, hentries]⟩

/-- A write that its check settles changes nothing. -/
theorem Writes.settled (h : Writes s c k v s1 a) (hk : k < 2 ^ 24) (hstaged : isStaged k = false)
    (hcheck : (s1.checkEntry k (valBytes k (.num v))).applies = false) :
    Lands s1 (.next (s.writeNum c k v)) (s1.endedOr c.flags a (s1.checkEntry k (valBytes k (.num v))) s1) := by
  obtain ⟨-, hflags, hwrite⟩ := h.writeNum_eq hk
  obtain ⟨-, -, halone, -⟩ := h
  rw [hwrite, ← hflags]
  exact State.writeCmd_settled halone hstaged hcheck (State.checkEntry_status _ _ _)

end

/-- Settles O16: the entry is settled by its check, or acts at the boundary. -/
theorem writeOfOneObjectActsAtTheNextBoundary : Obligations.WriteOfOneObjectActsAtTheNextBoundary := by
  unfold Obligations.WriteOfOneObjectActsAtTheNextBoundary
  intro s s1 c k v a hw hk hstaged hpair chk refused
  rw [exec_write_num]
  refine ⟨fun hsettled => hw.settled hk hstaged hsettled, fun w s2 o wt happlies happlied hact hstatus => ?_⟩
  obtain ⟨hiss, hflags, hwrite⟩ := hw.writeNum_eq hk
  obtain ⟨-, -, halone, -⟩ := hw
  rw [hwrite, ← hflags]
  exact State.writeCmd_one halone hstaged hpair happlies happlied (State.checkEntry_key ..) (hiss ▸ hact) hstatus

/-- Settles O17: outcomes before it may read SUPERSEDED, CONFIG_CHANGE and DEV_STATE follow, and the command's own outcome joins them. -/
theorem commandEndOnlyReports : Obligations.CommandEndOnlyReports := by
  unfold Obligations.CommandEndOnlyReports
  intro s a o w
  have hsettled : OnlyReported s ((s.supersedeAll [o] a.jseq).settle 2 a.iss a.jseq [o] (s.tick + 1)) :=
    ((OnlyReported.refl s).supersedeAll _ _).settle _ _ _ _ _
  exact ⟨hsettled.setLanding _ (by simp), List.getLast?_concat ..⟩

/-! The fuses of the policy (R538, R539, R556, R559). -/

/-- Settles O15: zero is settled by its check, and each other value by its place against FW_SEC_MIN. -/
theorem fwSecMinOnlyRises : Obligations.FwSecMinOnlyRises := by
  unfold Obligations.FwSecMinOnlyRises
  intro s s1 c a hw hv
  have hrow : findObj Obj.secFwSecRaise = some ⟨0x1200, 1, 0x07, 1, .u16, .wo, true, .any, 0, true⟩ := findObj_row (by decide)
  have hstaged : isStaged Obj.secFwSecRaise = false := by decide
  show if c.value = 0 then Lands s1 (.next (s.writeNum c Obj.secFwSecRaise c.value)) _ else _
  split
  · next h0 =>
    have hcheck : s1.checkEntry Obj.secFwSecRaise (valBytes Obj.secFwSecRaise (.num c.value)) = emptyOut Obj.secFwSecRaise := by
      rw [State.checkEntry_num hrow hw.writable (by decide) rfl hv, State.numCheck, if_pos ⟨h0, rfl⟩]
      rfl
    have hsettled := hw.settled (by decide) hstaged (by rw [hcheck]; rfl)
    rwa [hcheck] at hsettled
  next h0 =>
  have hcheck := State.checkEntry_inRange hrow hw.writable (by decide) rfl (by decide) (by decide) (by decide) hv (fun h => h0 h.1) rfl
  have hends {o : ObjOut} {t : State} (hraise : s1.fwSecRaise c.value = (t, o)) (ho : o.status ≠ stPairPending) :=
    State.writeNum_ends hw (by decide) hstaged (by decide) hrow rfl hv hcheck ((act_secFwSecRaise ..).trans (congrArg done hraise)) ho
  split
  · next hlow => exact hends (if_pos hlow) (by simp [clampedOut, stPairPending, stClamped])
  next hlow =>
  split
  · next hroom =>
    have hraised := hends ((if_neg hlow).trans (if_neg (by omega))) (by simp [okOut])
    rw [State.endedOr_ok rfl rfl] at hraised
    exact ⟨_, hraised, rfl, State.obj_setObj_self .., fun k hk => State.obj_setObj_ne _ _ (by simpa using hk)⟩
  · exact hends ((if_neg hlow).trans (if_pos (by omega))) (by simp [rejOut, badOut])

/-- Settles O14: an owner key is installed or refused, its programming ends the command, and POLICY_FLOOR takes the bits written. -/
theorem fusesArePermanent : Obligations.FusesArePermanent := by
  unfold Obligations.FusesArePermanent
  refine ⟨fun s s1 c a hw hlen hstate hnone hwaits => ?_, fun s l hfind => ?_, fun s s1 c a hw hv => ?_⟩
  · have hrow : findObj Obj.secOwnerKey = some ⟨0x1200, 1, 0x02, 1, .dom, .rw, false, .len 96 96, 0, false⟩ := findObj_row (by decide)
    have hcheck : s1.checkEntry Obj.secOwnerKey c.value = okOut Obj.secOwnerKey (.byt c.value) :=
      State.checkEntry_byt hrow hw.writable (by decide) rfl rfl hlen.ge hlen.le (List.ne_nil_of_length_pos (by omega))
    have hexec : exec (.ownerKey c) s = .next (s.writeByt c Obj.secOwnerKey) := congrArg Host.Outcome.next (if_pos hw.2.1)
    rw [hexec]
    have hkey : s1.ownerKey c.value = if !pointOk c.value then (s1, rejOut Obj.secOwnerKey, none)
        else (({ s1 with otp := { s1.otp with ownerKey := c.value } }.setDom Obj.secOwnerKey c.value).setObj Obj.secOwnerState 1,
          okOut Obj.secOwnerKey (.byt c.value), some .ownerKey) := by
      rw [State.ownerKey, if_neg (by simp [hwaits]), if_neg (by simp [hstate, hnone])]
    split
    · next hpoint =>
      rw [hpoint] at hkey
      exact ⟨_, State.writeByt_acts hw (by decide) (by decide) (by decide) hcheck ((act_secOwnerKey ..).trans hkey) rfl rfl, rfl,
        State.obj_setObj_self .., State.dom_setDom .., fun k hk => State.obj_setObj_ne _ _ (by simpa using hk)⟩
    · next hpoint =>
      rw [Bool.eq_false_iff.mpr hpoint] at hkey
      exact State.writeByt_ends hw (by decide) (by decide) (by decide) hrow rfl hcheck ((act_secOwnerKey ..).trans hkey) (by simp [rejOut, badOut])
  · exact congrArg Host.Outcome.next (State.resolve_found hfind)
  · have hrow : findObj Obj.secPolicyFloor = some ⟨0x1200, 1, 0x04, 1, .u8, .rw, true, .clamp 0 3, 0, false⟩ := findObj_row (by decide)
    have hcheck : s1.checkEntry Obj.secPolicyFloor (valBytes Obj.secPolicyFloor (.num c.value)) = okOut Obj.secPolicyFloor (.num c.value) := by
      refine State.checkEntry_inRange hrow hw.writable (by decide) rfl (by decide) (by decide) (by decide) (by show _ < 2 ^ 8; omega) (by simp) ?_
      show some (if (c.value : Int) < 0 then _ else if (3 : Int) < c.value then _ else (c.value, 0)) = _
      rw [if_neg (by omega), if_neg (by omega)]
    have hends {t : State} {o : ObjOut} (hfloor : s1.policyFloor c.value = (t, o)) (ho : o.status ≠ stPairPending) :=
      State.writeNum_ends hw (by decide) (by decide) (by decide) hrow rfl (by show _ < 2 ^ 8; omega) hcheck
        ((act_secPolicyFloor ..).trans (congrArg done hfloor)) ho
    refine ⟨({ s1 with otp := { s1.otp with policyFloor := c.value ||| s1.otp.policyFloor } } : State).setObj Obj.secPolicyFloor
      (c.value ||| s1.otp.policyFloor), ?_, rfl, State.obj_setObj_self .., fun k hk => State.obj_setObj_ne _ _ (by simpa using hk)⟩
    split
    · next hfloor =>
      refine hends (t := _) (o := okOut Obj.secPolicyFloor (.num c.value)) ?_ (by simp [okOut])
      simp only [State.policyFloor, hfloor, if_pos, clampedOut]
      rfl
    · next hfloor =>
      refine hends (t := _) (o := clampedOut Obj.secPolicyFloor (.num (c.value ||| s1.otp.policyFloor)) [_]) ?_ (by simp [clampedOut, stPairPending, stClamped])
      simp only [State.policyFloor, hfloor, if_false]
      rfl

end Sys2Proof.Machine

namespace Sys2Proof.Machine

/-! READ and SEG_READ (R506, R507, R526, R527). -/

theorem readResult_length (k st : Nat) (b : Bytes) : (readResult k st b).length = 8 + (b.length + 3) / 4 * 4 := by
  simp only [readResult, List.length_append, le_length, zeros_length, padTo_length]
  omega

theorem readStatus_one (st r : Nat) : readStatus [(st, r)] = st := by
  by_cases h : st = stOk <;> simp [readStatus, h]

theorem readReason_one (st r : Nat) : readReason [(st, r)] = r := by
  by_cases h : r = 0 <;> simp [readReason, h]

/-- What is forgotten of the telemetry sweep when no object of it is cleared. -/
theorem State.resweep_none (s : State) {keys : List Key} (h : ∀ k ∈ keys, readClears k = false) : s.resweep keys = s := by
  have hkeep : s.swept.filter (fun e => !keys.any (fun k => isTele k && readClears k && k / 256 == e.1)) = s.swept := by
    refine List.filter_eq_self.mpr fun e _ => ?_
    rw [Bool.not_eq_true', List.any_eq_false]
    exact fun k hk => by simp [h k hk]
  rw [State.resweep, hkeep]

theorem State.afterRead_of_keeps (s : State) {k : Key} (h : readClears k = false) : s.afterRead k = s := if_pos (by simp [h])

/-- What a READ leaves behind where it has served one object: a read-to-clear object is cleared, and its index is swept anew. -/
def State.afterOne (s : State) (k st : Nat) : State := if st = stOk then (s.afterRead k).resweep [k] else s

section
variable {s s1 : State} {i : Issuer} {p : Bytes} {a : Accepted} {k st r : Nat} {staged : Bool} {b : Bytes}

/-- A READ of one entry whose result fits answers that result. -/
theorem exec_read_one (htaken : s.taking opRead i p = some (s1, a)) (hentries : readEntries a.pkt.entries a.pkt.body = [(k, staged)])
    (hread : s1.readEntry i k staged = (st, r, b)) (hfits : b.length ≤ 184) :
    exec (.read i p) s = .next ((s1.afterOne k st).reply i a.auth opRead a.pkt.tag st r 0 1 (readResult k st b) [badOut k st r]) := by
  have hlen := readResult_length k st b
  have hroom : ¬ (if a.auth = [] then 224 else 192) < (readResult k st b).length := by split <;> omega
  have hserve : s1.serve i (if a.auth = [] then 224 else 192) [(k, staged)] [] []
      = (readResult k st b, [(st, r)], if st = stOk then s1.afterRead k else s1) := by
    simp only [State.serve, hread]
    rw [if_neg hroom, if_neg (by simpa using hroom)]
    rfl
  show Host.Outcome.next (s.packet opRead i p _) = _
  rw [State.packet_taking _ htaken]
  simp only [hentries, hserve]
  have hstate : (if st = stOk then s1.afterRead k else s1).resweep (readKeys [(k, staged)] [(st, r)]) = s1.afterOne k st := by
    unfold State.afterOne
    split
    · next h => simp [readKeys, h]
    · next h => simpa [readKeys, h] using s1.resweep_none (keys := []) (by simp)
  rw [hstate, readStatus_one, readReason_one]
  rfl

end

theorem State.afterOne_frame (s : State) (k st : Nat) :
    s.afterOne k st = { s with dict := (s.afterOne k st).dict, swept := (s.afterOne k st).swept } := by
  unfold State.afterOne State.afterRead
  split
  · split <;> rfl
  · rfl

/-- The objects after a READ: a read-to-clear object reads zero, and TJ_PEAK starts at TJ (R716). -/
theorem State.afterOne_obj (s : State) (k j : Nat) : (s.afterOne k stOk).obj j
    = if j = k ∧ readClears k = true then (if k = Obj.teleTjPeak then s.obj Obj.teleTj else 0) else s.obj j := by
  show (s.afterRead k).obj j = _
  unfold State.afterRead
  by_cases h : readClears k = true
  · simp [h, State.obj_setObj]
  · simp [h]

/-- A SEG_READ at offset 0 takes the value into the issuer's read buffer; a read of the journal's BLOCK also moves its window (R568). -/
def State.intoBuffer (s : State) (i : Issuer) (k : Key) (v : Bytes) : State :=
  let s1 := if k = Obj.jnlBlock then s.setObj Obj.jnlBlockEno ((s.blockList.head?.map (·.eno)).getD (s.obj Obj.jnlNextEno)) else s
  let s2 := if k = Obj.jnlBlock then s1.countMirror else s1
  { (s2.afterRead k).resweep [k] with readBufs := s2.readBufs.set (bufOf i) { key := k, data := v.take 131072 } }

theorem State.intoBuffer_find (s : State) (i : Issuer) (k : Key) (v : Bytes) :
    (s.intoBuffer i k v).readBufs.find (bufOf i) = some { key := k, data := v.take 131072 } := Tab.find_set_self ..

/-- How many bytes a SEG_READ asks for, as far as its response has room (R507). -/
def Accepted.readLen (a : Accepted) : Nat := min (fieldAt a.pkt.body 3 1) (if a.auth = [] then 216 else 184)

section
variable {s : State} {a : Accepted} {k : Key} {v : Bytes} (hkey : 256 * fieldAt a.pkt.body 0 2 + fieldAt a.pkt.body 2 1 = k)
  (hlen : a.readLen ≠ 0)
include hkey hlen

/-- A SEG_READ at offset 0 takes the value into the buffer and serves its first bytes. -/
theorem State.segRead_first (hoff : fieldAt a.pkt.body 4 4 = 0) (hread : s.readEntry a.iss k false = (stOk, 0, v)) :
    s.segRead a = (s.intoBuffer a.iss k v).reply a.iss a.auth opSegRead a.pkt.tag stOk 0 0 1 (readResult k stOk (v.take a.readLen)) := by
  have hfirst : v.take a.readLen = ((v.take 131072).drop (fieldAt a.pkt.body 4 4)).take a.readLen := by
    rw [hoff, List.drop_zero, List.take_take, Nat.min_eq_left (by unfold Accepted.readLen; split <;> omega)]
  subst hkey
  rw [hfirst]
  unfold State.segRead
  extract_lets i k len off answer serve
  rw [if_neg (show ¬ len = 0 from hlen), if_neg (show ¬ off ≠ 0 from not_not.mpr hoff)]
  rw [hread]
  rfl

/-- At another offset it serves from the buffer of the same object. -/
theorem State.segRead_later (hoff : fieldAt a.pkt.body 4 4 ≠ 0) (hbuf : s.readBufs.find (bufOf a.iss) = some { key := k, data := v }) :
    s.segRead a = s.reply a.iss a.auth opSegRead a.pkt.tag stOk 0 0 1 (readResult k stOk ((v.drop (fieldAt a.pkt.body 4 4)).take a.readLen)) := by
  subst hkey
  unfold State.segRead
  extract_lets i k len off answer serve
  rw [if_neg (show ¬ len = 0 from hlen), if_pos (show off ≠ 0 from hoff), hbuf]
  exact if_pos rfl

/-- Without that buffer it is out of order. -/
theorem State.segRead_unordered (hoff : fieldAt a.pkt.body 4 4 ≠ 0) (hbuf : ∀ b, s.readBufs.find (bufOf a.iss) = some b → b.key ≠ k) :
    s.segRead a = s.reply a.iss a.auth opSegRead a.pkt.tag stRejected reSegOrder 0 0 [] [badOut k stRejected reSegOrder] := by
  subst hkey
  unfold State.segRead
  extract_lets i k len off answer serve
  rw [if_neg (show ¬ len = 0 from hlen), if_pos (show off ≠ 0 from hoff)]
  split
  · next b hb => exact if_neg (hbuf b hb)
  · rfl

end

/-- Settles O18: a READ of one entry answers its result, and SEG_READ serves from the buffer it has filled or finds. -/
theorem readsAnswerTheValueInForce : Obligations.ReadsAnswerTheValueInForce := by
  unfold Obligations.ReadsAnswerTheValueInForce
  refine ⟨fun s s1 i p a k d b htaken hentries hfind hpresent hacc hvalue hfits => ?_,
    fun s s1 i p a k e htaken hentries hstaged hpresent hheld hfits => ?_, fun s s1 i p a k htaken hentries => ?_,
    fun s s1 i p a k len off v htaken hk hoff hlen0 hlen => ?_⟩
  · have hread : s1.readEntry i k false = (stOk, 0, b) := by
      simp [State.readEntry, hfind, hpresent, hacc, hvalue]
    refine ⟨s1.afterOne k stOk, exec_read_one htaken hentries hread hfits, s1.afterOne_frame k stOk, fun j hj => ?_, ?_⟩
    · rw [State.afterOne_obj, if_neg (fun h => hj (by simp [h.1]))]
    · simp [State.afterOne_obj]
  · obtain ⟨d, hfind, hacc⟩ : ∃ d, findObj k = some d ∧ d.acc = .rws := by simpa [isStaged, Option.any_eq_true] using hstaged
    have hread : s1.readEntry i k true = (stOk, 0, valBytes k e.val) := by
      simp [State.readEntry, hfind, hpresent, hacc, hheld]
    refine ⟨s1.afterOne k stOk, exec_read_one htaken hentries hread hfits, s1.afterOne_frame k stOk, fun hkeeps => ?_⟩
    rw [State.afterOne, if_pos rfl, s1.afterRead_of_keeps hkeeps]
    exact s1.resweep_none (by simpa using hkeeps)
  · intro refused
    have hrefused {st r : Nat} (hread : s1.readEntry i k false = (st, r, [])) (hst : st ≠ stOk) : exec (.read i p) s = .next (refused st r) := by
      rw [exec_read_one htaken hentries hread (by simp), State.afterOne, if_neg hst]
    refine ⟨fun hnone => hrefused (by simp [State.readEntry, hnone]) (by decide), fun hsome habsent => hrefused ?_ (by decide),
      fun hpresent haction => hrefused ?_ (by decide)⟩
    · obtain ⟨d, hfind⟩ := Option.ne_none_iff_exists'.mp hsome
      simp [State.readEntry, hfind, habsent]
    · obtain ⟨d, hfind, hacc⟩ : ∃ d, findObj k = some d ∧ d.acc = .wo := by simpa [isAction, Option.any_eq_true] using haction
      simp [State.readEntry, hfind, hpresent, hacc]
  · obtain ⟨hiss, -, -⟩ := State.taking_some htaken
    obtain rfl : len = a.readLen := hlen
    have hpos : a.readLen ≠ 0 := by unfold Accepted.readLen; split <;> omega
    have hexec : exec (.segRead i p) s = .next (s1.segRead a) := congrArg Host.Outcome.next (State.packet_taking _ htaken)
    subst hk hoff hiss
    rw [hexec]
    refine ⟨fun h0 hread => ⟨_, congrArg Host.Outcome.next (State.segRead_first rfl hpos h0 hread), State.intoBuffer_find ..⟩,
      fun h0 hbuf => congrArg Host.Outcome.next (State.segRead_later rfl hpos h0 hbuf),
      fun h0 hbuf => congrArg Host.Outcome.next (State.segRead_unordered rfl hpos h0 hbuf)⟩

end Sys2Proof.Machine

namespace Sys2Proof.Machine

/-! DISCARD with one JSEQ pending on two ports (R518). Of the pending commits of one JSEQ the order of all of them names the last only, so that a
DISCARD of the other one's port passes it over. -/

/-- A pending commit of a port, far ahead. -/
def commitOf (port : Nat) : Pending :=
  { iss := { port := port }, jseq := 5, tag := 0, flags := 0, trailer := [], pktCrc := 0, target := 10000, set := [] }

/-- A device that has started, with a commit of the same JSEQ pending on ports 0 and 1. -/
def twiceFive : State :=
  { ({} : State).setObj Obj.devDevState 3 with ports := [(0, { pend := [commitOf 0] }), (1, { pend := [commitOf 1] })] }

/-- The packet of a DISCARD of pending commits (R503). -/
def discardPending : Bytes := le 1 opDiscard ++ le 1 1 ++ [0, 0] ++ le 2 20 ++ [0, 0] ++ zeros 8 ++ le 4 2

/-- The DISCARD is taken, and the commit of its port is still pending after it has acted. -/
theorem twiceFive_discard : (twiceFive.taking opDiscard { port := 0 } discardPending).any (fun x =>
    decide (fieldAt x.2.pkt.body 0 4 = 2) && decide (x.1.due = [] ∧ x.1.dueCommits (x.1.tick + 1) = [])
      && x.1.ports.all (fun e => e.2.pend.all (fun c => c.iss.port == e.1)) && !((x.1.discard x.2).atBoundary.port 0).pend.isEmpty) = true := by
  decide +kernel

theorem State.mem_pend {s : State} {q : Nat} {c : Pending} (h : c ∈ (s.port q).pend) : ∃ x, (q, x) ∈ s.ports ∧ c ∈ x.pend := by
  unfold State.port Tab.getD at h
  cases hfind : s.ports.find q with
  | none => simp [hfind] at h
  | some x => exact ⟨x, Tab.mem_of_find hfind, by simpa [hfind] using h⟩

/-- Refutes O20, in its clause on DISCARD: a pending commit of the port stays where a later port has one of the same JSEQ. -/
theorem not_stagedValuesWaitForACommit : ¬ Obligations.StagedValuesWaitForACommit := by
  unfold Obligations.StagedValuesWaitForACommit
  rintro ⟨-, -, hdiscard⟩
  obtain ⟨⟨s1, a⟩, htaken, hfacts⟩ := (Option.any_eq_true ..).mp twiceFive_discard
  simp only [Bool.and_eq_true, decide_eq_true_eq, List.all_eq_true, beq_iff_eq, Bool.not_eq_true', List.isEmpty_eq_false_iff] at hfacts
  obtain ⟨⟨⟨hvalue, halone⟩, hown⟩, hleft⟩ := hfacts
  have hports (q : Nat) (c : Pending) (hc : c ∈ (s1.port q).pend) : c.iss.port = q := by
    obtain ⟨x, hx, hcx⟩ := State.mem_pend hc
    exact hown _ hx c hcx
  obtain ⟨t, ⟨d, hexec, rfl⟩, -, -, hpend, -⟩ := hdiscard twiceFive s1 { port := 0 } discardPending a 2 htaken hvalue.symm (by decide) (by decide) halone hports
  have hrun : exec (.discard { port := 0 } discardPending) twiceFive = .next (s1.discard a) :=
    congrArg Host.Outcome.next (State.packet_taking _ htaken)
  rw [← Host.Outcome.next.inj (hrun.symm.trans hexec)] at hpend
  exact hleft (hpend.trans (if_pos (by decide)))

end Sys2Proof.Machine

namespace Sys2Proof.Machine

/-! PAIR_TIMEOUT with a table of ports out of order (R518, R521). Taking a held value from its place puts the port's entry where the keys rise. That may
move it behind another port's with a pending commit of the same JSEQ, of which the order of all pending commits then names the other one. -/

/-- A pending commit that stages MODE of queue 0. -/
def commitOfMode (port : Nat) (target : Tick) : Pending :=
  { iss := { port := port }, jseq := 5, tag := 0, flags := 0, trailer := [], pktCrc := 0, target := target,
    set := [{ key := Obj.qMode 0, val := .num 1, written := .num 1, out := okOut (Obj.qMode 0) (.num 1) }] }

/-- An IPV4_ADDR of 0 that has been held for 1,000,000 ticks. -/
def heldAddr : HeldPair := { iss := { port := 0 }, jseq := 8, tag := 6, key := Obj.commIpv4Addr, written := .num 0, since := 0 }

/-- Port 1 stands before port 0 in the table; of their commits of one JSEQ that of port 1 is due, and that of port 0 is not. -/
def outOfOrder : State :=
  { ({} : State).setObj Obj.devDevState 3 with
    tick := 1000000, ports := [(1, { pend := [commitOfMode 1 1] }), (0, { pend := [commitOfMode 0 2000000], held := [heldAddr] })] }

theorem outOfOrder_alone : (outOfOrder.port 0).held.find? (fun h => h.since + 1000000 ≤ outOfOrder.tick + 1) = some heldAddr
    ∧ (outOfOrder.due = [] ∧ outOfOrder.dueCommits (outOfOrder.tick + 1) = [])
    ∧ (outOfOrder.checkEntry heldAddr.key (heldBytes heldAddr)).applied = some (.num 0)
    ∧ (outOfOrder.setVal heldAddr.key (.num 0)).pairOk heldAddr.key = true := by decide +kernel

/-- At the boundary the commit of port 1 lands as well. -/
theorem outOfOrder_lands_commit :
    ((outOfOrder.takeHeld 0 heldAddr.key).await (.alone heldAddr)).atBoundary.obj (Obj.qMode 0) = 1
      ∧ (outOfOrder.setVal heldAddr.key (.num 0)).obj (Obj.qMode 0) = 0 := by decide +kernel

/-- Refutes O23, in its clause on PAIR_TIMEOUT: MODE of queue 0 changes with the held value, by a commit that was not due before. -/
theorem not_pairsAreHeldForTheirPartner : ¬ Obligations.PairsAreHeldForTheirPartner := by
  unfold Obligations.PairsAreHeldForTheirPartner
  rintro ⟨-, htimeout⟩
  obtain ⟨hheld, halone, happlied, hallowed⟩ := outOfOrder_alone
  obtain ⟨t, ⟨d, hexec, rfl⟩, -, ⟨-, hobjs, -, -, -, -⟩, -⟩ :=
    htimeout outOfOrder 0 heldAddr (.num 0) hheld halone (by decide) (by decide) happlied hallowed
  have hrun : exec (.pairTimeout 0) outOfOrder = .next ((outOfOrder.takeHeld 0 heldAddr.key).await (.alone heldAddr)) := by
    show execPairTimeout 0 outOfOrder = _
    unfold execPairTimeout
    rw [hheld]
  have hsame (u : State) (p : Tab PortState) (n : Nat) : ({ u with ports := p, free := n } : State).obj (Obj.qMode 0) = u.obj (Obj.qMode 0) := rfl
  have hmode := hobjs (Obj.qMode 0) (by decide)
  rw [← Host.Outcome.next.inj (hrun.symm.trans hexec), outOfOrder_lands_commit.1, hsame, outOfOrder_lands_commit.2] at hmode
  exact absurd hmode (by decide)

end Sys2Proof.Machine

namespace Sys2Proof.Machine

/-! The transfers of long values (R523 to R526). -/

/-- Fewer open transfers than numbers leave a number free. -/
theorem State.exists_freeXfer {s : State} (h : s.transfers.length < 65536) (start : Nat) :
    ∃ n, n < 65536 ∧ s.transfers.any (fun x => x.xfer = (start + n) % 65536) = false := by
  have hcard : (s.transfers.map (·.xfer)).toFinset.card < (Finset.range 65536).card := by
    have := (s.transfers.map (·.xfer)).toFinset_card_le
    rw [List.length_map] at this
    rw [Finset.card_range]
    omega
  obtain ⟨j, hj, hnot⟩ := Finset.exists_mem_notMem_of_card_lt_card hcard
  have hj : j < 65536 := Finset.mem_range.mp hj
  refine ⟨(j + 65536 - start % 65536) % 65536, Nat.mod_lt _ (by decide), List.any_eq_false.mpr fun x hx hxj => hnot ?_⟩
  have hx2 : x.xfer = j := (of_decide_eq_true hxj).trans (by omega)
  exact List.mem_toFinset.mpr (List.mem_map.mpr ⟨x, hx, hx2⟩)

/-- The number of a new transfer is one that no open transfer has (R523). -/
theorem State.freeXfer_unused {s : State} (h : s.transfers.length < 65536) (start : Nat) : ∀ x ∈ s.transfers, x.xfer ≠ s.freeXfer start := by
  obtain ⟨n, hn, hfree⟩ := State.exists_freeXfer h start
  cases hfound : firstFrom (fun n => !s.transfers.any (fun x => x.xfer = (start + n) % 65536)) 65536 0 with
  | none =>
    have := firstFrom_none hfound (Nat.zero_le n) (by omega)
    simp [hfree] at this
  | some j =>
    have hj := firstFrom_some hfound
    intro x hx hxj
    rw [State.freeXfer, hfound, Option.getD_some, Nat.add_comm] at hxj
    rw [Bool.not_eq_true'] at hj
    exact List.any_eq_false.mp hj x hx (decide_eq_true hxj)

/-- The transfer that a SEG_START opens (R523). -/
def State.newXfer (s : State) (a : Accepted) : Transfer :=
  { xfer := s.freeXfer (s.fresh.1 % 65536), iss := a.iss, key := 256 * fieldAt a.pkt.body 0 2 + fieldAt a.pkt.body 2 1,
    total := fieldAt a.pkt.body 4 4, data := [], last := s.tick, session := a.auth.take 8 }

theorem State.segStart_opens {s : State} {a : Accepted} (hzero : fieldAt a.pkt.body 3 1 = 0)
    (hstart : s.startRefusal a.iss (256 * fieldAt a.pkt.body 0 2 + fieldAt a.pkt.body 2 1) (fieldAt a.pkt.body 4 4) = none) :
    s.segStart a = State.finish { s with free := s.free + 1, transfers := s.transfers ++ [s.newXfer a] }
      { a.landing with fixed := some (stOk, 0), effect := (s.newXfer a).xfer } s.tick := by
  unfold State.segStart
  extract_lets k total refused
  rw [if_neg (not_not.mpr hzero), show s.startRefusal a.iss k total = none from hstart]
  rfl

theorem State.transferOf_mine {s : State} {i : Issuer} {n : Nat} {x : Transfer} (h : s.transferOf i n = some x) : x.xfer = n ∧ x.mine i = true := by
  simpa using List.find?_some h

/-- A transfer of a port is its issuer's port's. -/
theorem Transfer.port_of_mine {x : Transfer} {i : Issuer} (h : x.mine i = true) : x.iss.port = i.port := by
  simp only [Transfer.mine, Bool.and_eq_true, beq_iff_eq] at h
  exact h.1

/-- A transfer that is closed is no longer the issuer's. -/
theorem State.transferOf_closeXfer {s : State} {i : Issuer} {x : Transfer} (h : s.transferOf i x.xfer = some x) :
    (s.closeXfer x).transferOf i x.xfer = none := by
  have hport := Transfer.port_of_mine (State.transferOf_mine h).2
  refine List.find?_eq_none.mpr fun y hy hfound => ?_
  obtain ⟨-, hkept⟩ := List.mem_filter.mp hy
  simp only [Bool.and_eq_true, beq_iff_eq] at hfound
  simp [hfound.1, Transfer.port_of_mine hfound.2, hport] at hkept

/-- What a SEG_DATA leaves of the issuer's transfer: what it holds, and the tick of its last packet (R524). -/
def State.putXfer (s : State) (i : Issuer) (x : Transfer) (data : Bytes) : State :=
  { s with transfers := s.transfers.map (fun y => if y.xfer = x.xfer ∧ y.mine i then { x with data := data, last := s.tick } else y) }

theorem State.transferOf_putXfer {s : State} {i : Issuer} {n : Nat} {x : Transfer} (h : s.transferOf i n = some x) (data : Bytes) :
    (s.putXfer i x data).transferOf i n = some { x with data := data, last := s.tick } := by
  obtain ⟨rfl, hmine⟩ := State.transferOf_mine h
  have hsame : ((fun y : Transfer => y.xfer == x.xfer && y.mine i) ∘
      (fun y => if y.xfer = x.xfer ∧ y.mine i = true then { x with data := data, last := s.tick } else y))
      = (fun y => y.xfer == x.xfer && y.mine i) := by
    funext y
    by_cases hy : y.xfer = x.xfer ∧ y.mine i = true
    · simp [hy, show ({ x with data := data, last := s.tick } : Transfer).mine i = x.mine i from rfl, hmine]
    · simp [hy]
  unfold State.transferOf State.putXfer
  rw [List.find?_map, hsame, show s.transfers.find? (fun y => y.xfer == x.xfer && y.mine i) = some x from h, Option.map_some, if_pos ⟨rfl, hmine⟩]

section
variable {s : State} {a : Accepted} {x : Transfer} (h : s.transferOf a.iss (fieldAt a.pkt.body 0 2) = some x) (hzero : fieldAt a.pkt.body 2 2 = 0)
include h hzero

/-- SEG_DATA in order extends the value. -/
theorem State.segData_next (hoff : fieldAt a.pkt.body 4 4 = x.data.length) (hdata : a.pkt.body.drop 8 ≠ [])
    (hroom : (a.pkt.body.drop 8).length < x.total - x.data.length + 4) :
    s.segData a = (s.putXfer a.iss x (x.data ++ (a.pkt.body.drop 8).take (x.total - x.data.length))).endNow a stOk 0 := by
  unfold State.segData
  rw [h]
  dsimp only
  rw [if_neg (not_not.mpr hzero), if_neg (not_not.mpr hoff), if_neg (by omega), if_neg hdata]
  rfl

/-- SEG_DATA out of order does not. -/
theorem State.segData_unordered (hoff : fieldAt a.pkt.body 4 4 ≠ x.data.length) :
    s.segData a = (s.putXfer a.iss x x.data).endNow a stRejected reSegOrder := by
  unfold State.segData
  rw [h]
  dsimp only
  rw [if_neg (not_not.mpr hzero), if_pos hoff]
  rfl

/-- SEG_END of the whole value is one write entry, else the object is refused. -/
theorem State.segEnd_eq : s.segEnd a = if x.data.length = x.total ∧ crc32 x.data = fieldAt a.pkt.body 4 4 then
    (s.closeXfer x).writeCmd a true [(x.key, x.data)] else ((s.closeXfer x).noteLoad x.key stRejected).endObj a (badOut x.key stRejected reSegCrc) := by
  unfold State.segEnd
  rw [h]
  dsimp only
  rw [if_neg (not_not.mpr hzero)]
  by_cases hwhole : x.data.length = x.total ∧ crc32 x.data = fieldAt a.pkt.body 4 4
  · rw [if_pos hwhole, if_neg (by simp [hwhole])]
  · rw [if_neg hwhole, if_pos (by rwa [← Classical.not_and_iff_not_or_not])]

end

/-- Settles O22: each row acts on the transfer that the issuer names. -/
theorem transfersCarryLongValues : Obligations.TransfersCarryLongValues := by
  unfold Obligations.TransfersCarryLongValues
  refine ⟨fun s s1 i p a htaken hzero hstart hmany => ?_, fun s s1 i p a x htaken hx hzero => ?_, fun s i x hx => ⟨State.transferOf_closeXfer hx, rfl⟩,
    fun s s1 i p a x htaken hx hzero => ?_, fun s s1 i p a x htaken hx => ?_, fun s p n x hx hidle => ?_⟩
  · obtain ⟨rfl, -, -⟩ := State.taking_some htaken
    have hexec : exec (.segStart a.iss p) s = .next (s1.segStart a) := congrArg Host.Outcome.next (State.packet_taking _ htaken)
    exact ⟨s1.newXfer a, by rw [hexec, State.segStart_opens hzero hstart], rfl, rfl, rfl, rfl, rfl, Nat.mod_lt _ (by decide),
      State.freeXfer_unused hmany _⟩
  · obtain ⟨rfl, -, -⟩ := State.taking_some htaken
    have hexec : exec (.segData a.iss p) s = .next (s1.segData a) := congrArg Host.Outcome.next (State.packet_taking _ htaken)
    rw [hexec]
    by_cases hoff : fieldAt a.pkt.body 4 4 = x.data.length
    · exact ⟨s1.putXfer a.iss x (x.data ++ (a.pkt.body.drop 8).take (x.total - x.data.length)), rfl,
        fun _ hdata hroom => ⟨congrArg Host.Outcome.next (State.segData_next hx hzero hoff hdata hroom), State.transferOf_putXfer hx _⟩,
        fun hne => absurd hoff hne⟩
    · exact ⟨s1.putXfer a.iss x x.data, rfl, fun heq => absurd heq hoff,
        fun _ => ⟨congrArg Host.Outcome.next (State.segData_unordered hx hzero hoff), State.transferOf_putXfer hx _⟩⟩
  · obtain ⟨rfl, -, -⟩ := State.taking_some htaken
    have hexec : exec (.segEnd a.iss p) s = .next (s1.segEnd a) := congrArg Host.Outcome.next (State.packet_taking _ htaken)
    rw [hexec, State.segEnd_eq hx hzero]
  · obtain ⟨rfl, -, -⟩ := State.taking_some htaken
    show Host.Outcome.next (s.packet opSegAbort a.iss p _) = _
    rw [State.packet_taking _ htaken, hx]
  · show execTransferIdleTimeout p n s = _
    unfold execTransferIdleTimeout
    rw [hx]
    exact if_pos hidle

end Sys2Proof.Machine

namespace Sys2Proof.Machine

/-! The journal's mirror (R560, R566, R567). -/

section
variable (s : State)

/-- The entry just written is the latest, whether it stands in the ring or waits. -/
theorem State.jWrite_jLatest (kind flags jseq : Nat) (t : Tick) (d2 d : Nat) :
    (s.jWrite kind flags jseq t d2 d).jLatest = some ⟨s.jNextEno, jseq, t, kind, flags, d2, d⟩ := by
  by_cases h : s.jPace.wait = [] ∧ s.jPace.count < 16
  · exact (s.jWrite_jPace_jLatest kind flags jseq t d2 d h.2.le).2
  · rw [State.jWrite, if_neg h]
    simp [State.jLatest]

theorem State.jStore_frame (e : JEntry) :
    s.jStore e = { s with dict := (s.jStore e).dict, journal := (s.jStore e).journal, jPace := (s.jStore e).jPace } := by
  have hobjs (u : State) (x y : Nat) : ((u.setObj Obj.jnlNextEno x).setObj Obj.jnlOldestEno y).bump Obj.jnlCntEntries 1
      = { u with dict := (((u.setObj Obj.jnlNextEno x).setObj Obj.jnlOldestEno y).bump Obj.jnlCntEntries 1).dict } := rfl
  rw [s.jStore_journal, s.jStore_jPace]
  exact hobjs _ _ _

/-- An entry moves the journal, its pace and its objects. -/
theorem State.jWrite_frame (kind flags jseq : Nat) (t : Tick) (d2 d : Nat) : s.jWrite kind flags jseq t d2 d
    = { s with dict := (s.jWrite kind flags jseq t d2 d).dict, journal := (s.jWrite kind flags jseq t d2 d).journal,
               jPace := (s.jWrite kind flags jseq t d2 d).jPace } := by
  unfold State.jWrite
  dsimp only
  split
  · exact s.jStore_frame _
  · rfl

theorem State.jWrite_mirror (kind flags jseq : Nat) (t : Tick) (d2 d : Nat) : (s.jWrite kind flags jseq t d2 d).mirror = s.mirror := by
  rw [State.jWrite_frame]

/-- Of the objects an entry moves the numbers of the ring's entries and their count. -/
theorem State.jWrite_obj (kind flags jseq : Nat) (t : Tick) (d2 d : Nat) {k : Key}
    (hk : k ≠ Obj.jnlNextEno ∧ k ≠ Obj.jnlOldestEno ∧ k ≠ Obj.jnlCntEntries) : (s.jWrite kind flags jseq t d2 d).obj k = s.obj k := by
  obtain ⟨hnext, hold, hcount⟩ := hk
  unfold State.jWrite
  dsimp only
  split
  · unfold State.jStore
    rw [State.obj_bump, if_neg hcount, State.obj_setObj_ne _ _ hold, State.obj_setObj_ne _ _ hnext]
    rfl
  · rfl

/-- The mirror takes an entry, and MIRROR_OLDEST_ENO names the oldest entry of its ring. -/
def State.mirrorTakes (e : JEntry) : State :=
  let l := (e :: s.mirror).take s.cmm.mirror
  ({ s with mirror := l }.scrubMem (s.mirrorAddr e.eno) 32).setObj Obj.jnlMirrorOldestEno ((l.getLast?.map (fun (x : JEntry) => x.eno)).getD e.eno)

variable {s} {e : JEntry}

theorem State.mirrorTakes_oldest (hsize : s.cmm.mirror ≠ 0) :
    (s.mirrorTakes e).mirror.getLast?.map (·.eno) = some ((s.mirrorTakes e).obj Obj.jnlMirrorOldestEno) := by
  obtain ⟨n, hn⟩ := Nat.exists_eq_succ_of_ne_zero hsize
  have hlast : ∃ x, ((e :: s.mirror).take s.cmm.mirror).getLast? = some x :=
    Option.isSome_iff_exists.mp (by simp [hn])
  obtain ⟨x, hx⟩ := hlast
  show ((e :: s.mirror).take s.cmm.mirror).getLast?.map (·.eno) = _
  rw [State.mirrorTakes, State.obj_setObj_self, hx]
  rfl

theorem State.mirrorTakes_obj {k : Key} (h : k ≠ Obj.jnlMirrorOldestEno) : (s.mirrorTakes e).obj k = s.obj k := State.obj_setObj_ne _ _ h

section
variable (hsize : s.cmm.mirror ≠ 0) (hmem : s.obj Obj.cmmMemState = 2)
  (hnext : max s.mirrorNext (s.obj Obj.jnlMirrorOldestEno) < s.obj Obj.jnlNextEno)
  (hfind : s.journal.find? (fun e => e.eno = max (max s.mirrorNext (s.obj Obj.jnlMirrorOldestEno)) (s.obj Obj.jnlOldestEno)) = some e)
include hsize hmem hnext hfind

/-- MIRROR_COPY takes the entry, and where the ring has overwritten entries before it, says how many. -/
theorem exec_mirrorCopy_takes : exec .mirrorCopy s =
    if s.obj Obj.jnlOldestEno ≤ max s.mirrorNext (s.obj Obj.jnlMirrorOldestEno) then .next (s.mirrorTakes e)
    else .next ((((s.mirrorTakes e).setObj Obj.jnlMirrorState 2).bump Obj.jnlCntMirrorLost
      (s.obj Obj.jnlOldestEno - max s.mirrorNext (s.obj Obj.jnlMirrorOldestEno))).jSystem 3
      (s.obj Obj.jnlOldestEno - max s.mirrorNext (s.obj Obj.jnlMirrorOldestEno)) s.tick) := by
  show execMirrorCopy s = _
  unfold execMirrorCopy
  extract_lets size next old
  rw [if_neg (by simp only [not_or]; exact ⟨hsize, not_not.mpr hmem, Nat.not_le.mpr hnext⟩),
    show s.journal.find? (fun e => e.eno = max next old) = some e from hfind]
  dsimp only
  rfl

end

end

/-- Settles O24: the mirror takes the entry; the entries lost before it are counted, and a SYSTEM entry follows. -/
theorem theMirrorTakesTheJournalInOrder : Obligations.TheMirrorTakesTheJournalInOrder := by
  unfold Obligations.TheMirrorTakesTheJournalInOrder
  intro s e hsize hmem next old hnext hfind
  have hexec := exec_mirrorCopy_takes hsize hmem hnext hfind
  by_cases hlost : old ≤ next
  · rw [if_pos hlost] at hexec
    exact ⟨_, hexec, rfl, rfl, State.mirrorTakes_oldest hsize, fun _ => ⟨rfl, rfl, fun k hk => State.mirrorTakes_obj (by simpa using hk)⟩,
      fun h => absurd hlost (Nat.not_le.mpr h)⟩
  · rw [if_neg hlost] at hexec
    obtain ⟨u, hu⟩ : ∃ u, u = ((s.mirrorTakes e).setObj Obj.jnlMirrorState 2).bump Obj.jnlCntMirrorLost (old - next) := ⟨_, rfl⟩
    have hobj {k : Key} (h1 : k ≠ Obj.jnlMirrorOldestEno) (h2 : k ≠ Obj.jnlMirrorState) (h3 : k ≠ Obj.jnlCntMirrorLost) : u.obj k = s.obj k := by
      rw [hu, State.obj_bump, if_neg h3, State.obj_setObj_ne _ _ h2, State.mirrorTakes_obj h1]
    rw [← hu] at hexec
    refine ⟨_, hexec, ?_, ?_, ?_, fun h => absurd h hlost, fun _ => ⟨?_, ?_, ?_⟩⟩
    all_goals unfold State.jSystem
    · rw [State.jWrite_mirror, hu]
      rfl
    · rw [State.jWrite_frame, hu]
      rfl
    · rw [State.jWrite_obj _ _ _ _ _ _ _ (by decide), State.jWrite_mirror, hu, State.obj_bump, if_neg (by decide), State.obj_setObj_ne _ _ (by decide)]
      exact State.mirrorTakes_oldest hsize
    · rw [State.jWrite_obj _ _ _ _ _ _ _ (by decide), hu, State.obj_bump, if_neg (by decide), State.obj_setObj_self]
    · rw [State.jWrite_obj _ _ _ _ _ _ _ (by decide), hu, State.obj_bump, if_pos rfl, State.obj_setObj_ne _ _ (by decide),
        State.mirrorTakes_obj (by decide)]
    · rw [State.jWrite_jLatest, hobj (by decide) (by decide) (by decide)]
      have hnextEno : u.jNextEno = s.jNextEno := by
        rw [State.jNextEno, hobj (by decide) (by decide) (by decide), hu]
        rfl
      rw [hnextEno]

end Sys2Proof.Machine

namespace Sys2Proof.Machine

/-! The host port's state (R573 to R598): what its operations leave unchanged. -/

section
variable {s : State}

/-- A message changes the interrupt registers and what leaves the engine. -/
theorem State.exists_raise (s : State) (v : Nat) : ∃ i p o,
    s.raise v = { s with host := { s.host with intStatus := i, pba := p }, out := s.out ++ o } ∧ (v < 16 → bit i v = true) := by
  have hlow : v < 16 → bit (s.host.intStatus ||| 2 ^ v) v = true := fun _ => by simp [bit, Nat.testBit_or, Nat.testBit_two_pow_self]
  unfold State.raise State.emit
  extract_lets h h' masked
  have hh : h' = { s.host with intStatus := if v < 16 then s.host.intStatus ||| 2 ^ v else s.host.intStatus } := by
    show (if v < 16 then _ else _) = _
    split <;> rfl
  rw [hh]
  split
  · exact ⟨_, _, [], by rw [List.append_nil], fun hv => by rw [if_pos hv]; exact hlow hv⟩
  · exact ⟨_, _, _, rfl, fun hv => by rw [if_pos hv]; exact hlow hv⟩

@[simp] theorem State.raise_obj (v k : Nat) : (s.raise v).obj k = s.obj k := State.obj_of_dict (State.raise_dict s v) k

@[simp] theorem State.raise_cmm (v : Nat) : (s.raise v).cmm = s.cmm := by
  obtain ⟨i, p, o, h, -⟩ := s.exists_raise v
  rw [h]

@[simp] theorem State.raise_ring (v k : Nat) : (s.raise v).ring k = s.ring k := by
  obtain ⟨i, p, o, h, -⟩ := s.exists_raise v
  rw [h]
  rfl

theorem State.raise_out (v : Nat) : s.out <+: (s.raise v).out := by
  obtain ⟨i, p, o, h, -⟩ := s.exists_raise v
  rw [h]
  exact List.prefix_append ..

theorem State.raise_intStatus {v : Nat} (hv : v < 16) : bit (s.raise v).host.intStatus v = true := by
  obtain ⟨i, p, o, h, hi⟩ := s.exists_raise v
  rw [h]
  exact hi hv

@[simp] theorem State.ring_setRing_self (k : Nat) (x : Ring) : (s.setRing k x).ring k = x := Tab.getD_put_self ..

theorem State.ring_setRing_ne {k j : Nat} (x : Ring) (h : j ≠ k) : (s.setRing k x).ring j = s.ring j := Tab.getD_put_ne _ _ _ _ h

end

theorem and_mod_two (a b : Nat) : (a &&& b) % 2 = a % 2 * (b % 2) := by
  rcases Nat.mod_two_eq_zero_or_one a with ha | ha <;> rcases Nat.mod_two_eq_zero_or_one b with hb | hb <;>
    simp [Nat.and_mod_two_pow (n := 1), ha, hb]

/-- Clearing the bits of a mask leaves the others. -/
theorem bit_clearBits (reg mask k : Nat) : bit (clearBits reg mask) k = (bit reg k && !bit mask k) := by
  induction k generalizing reg mask with
  | zero =>
    have hand := and_mod_two reg mask
    have hle := Nat.and_le_left (n := reg) (m := mask)
    rw [Bool.eq_iff_iff]
    simp only [bit, clearBits, Nat.testBit_zero, Bool.and_eq_true, decide_eq_true_eq, Bool.not_eq_true', decide_eq_false_iff_not]
    rcases Nat.mod_two_eq_zero_or_one mask with h' | h' <;> rw [h'] at hand <;> omega
  | succ k ih =>
    have hhalf : clearBits reg mask / 2 = clearBits (reg / 2) (mask / 2) := by
      have hand := and_mod_two reg mask
      have hdiv : (reg &&& mask) / 2 = reg / 2 &&& mask / 2 := Nat.and_div_two
      have hle := Nat.and_le_left (n := reg) (m := mask)
      unfold clearBits
      rcases Nat.mod_two_eq_zero_or_one mask with h' | h' <;> rw [h'] at hand <;> omega
    simp only [bit, Nat.testBit_succ] at ih ⊢
    rw [hhalf, ih]

/-! The registers of BAR0 (R576 to R584). -/

section
variable {s : State}

theorem counted_bump (s : State) (k n : Nat) : Counted s (s.bump k n) k n := (State.obj_bump ..).trans (if_pos rfl)

theorem sameObjs_bump (s : State) (k n : Nat) : SameObjs s (s.bump k n) [k] :=
  fun j hj => (State.obj_bump ..).trans (if_neg (by simpa using hj))

theorem find_dropSlots (t : Tab Bytes) (mask k : Nat) : (dropSlots t mask).find k = if bit mask k then none else t.find k := by
  induction t with
  | nil => exact (ite_self none).symm
  | cons e t ih =>
    obtain ⟨i, b⟩ := e
    have hcons : dropSlots ((i, b) :: t) mask = if bit mask i then dropSlots t mask else (i, b) :: dropSlots t mask := by
      cases h : bit mask i <;> simp [dropSlots, h]
    by_cases hk : i = k
    · subst hk
      rw [hcons]
      split
      · next h => rw [ih, if_pos h]
      · rw [Tab.find_cons, Tab.find_cons, if_pos rfl, if_pos rfl]
    · rw [hcons, Tab.find_cons i b t, if_neg hk, ← ih]
      split
      · rfl
      · rw [Tab.find_cons, if_neg hk]

/-- The doorbell of a slot in use is only counted (R577). -/
theorem exec_cmdDoorbell_ignored {v : Nat} (b : Bytes) (hup : s.linkUp = true)
    (huse : bit s.host.cmdBusy (bits v 3 0) = true ∨ bit s.host.rspReady (bits v 3 0) = true) :
    exec (.cmdDoorbell v b) s = .next (s.bump Obj.hostCntDoorbellIgnored 1) := by
  show execCmdDoorbell v b s = _
  unfold execCmdDoorbell
  extract_lets
  rw [if_neg (by simp [hup]), if_pos (by simpa using huse)]

/-- A doorbell that a free slot takes (R578). -/
def State.rung (s : State) (k : Nat) (b raw : Bytes) : State :=
  s.setHost (fun h => { h with cmdBusy := h.cmdBusy ||| 2 ^ k, cmdSlots := h.cmdSlots.put k [] b, mail := h.mail ++ [({ port := 0, slot := k }, raw)] })

theorem exec_cmdDoorbell_taken {v : Nat} {b : Bytes} (hup : s.linkUp = true) (hbusy : bit s.host.cmdBusy (bits v 3 0) = false)
    (hready : bit s.host.rspReady (bits v 3 0) = false) (hb : b ≠ []) (hlow : 16 ≤ bits v 16 8) (hhigh : bits v 16 8 ≤ 256) (hmod : bits v 16 8 % 4 = 0) :
    exec (.cmdDoorbell v b) s = .next (s.rung (bits v 3 0) b (slice b 0 (bits v 16 8))) := by
  show execCmdDoorbell v b s = _
  unfold execCmdDoorbell
  extract_lets k n h b' s' i raw
  have hb' : b' = b := if_neg hb
  rw [if_neg (by simp [hup]), if_neg (by simp [h, hbusy, hready, k]), if_neg (show ¬ n = 0 by omega), if_neg (show ¬ (n < 16 ∨ n % 4 ≠ 0) by omega),
    if_neg (show ¬ 256 < n by omega)]
  simp only [s', raw, hb']
  rfl

/-- A packet that is written is put into HF0 after its last word, and no sooner (R578, R647). -/
theorem State.mailTick_waits {u b : Tick} {p : Issuer × Bytes} {rest : List (Issuer × Bytes)} (hmail : s.host.mail = p :: rest)
    (hat : s.host.mailAt = some b) (hu : u < b + hoopWords p.2) : s.mailTick u = s := by
  simp only [State.mailTick, hmail, hat, if_neg (Nat.not_le.mpr hu)]

theorem State.mailTick_done {u b : Tick} {p : Issuer × Bytes} {rest : List (Issuer × Bytes)} (hmail : s.host.mail = p :: rest)
    (hat : s.host.mailAt = some b) (hu : b + hoopWords p.2 ≤ u) :
    (s.mailTick u).hoop.getD 0 [] = s.hoop.getD 0 [] ++ [p] ∧ (s.mailTick u).host.mail = rest := by
  simp only [State.mailTick, hmail, hat, if_pos hu]
  split
  · split
    · exact ⟨Tab.getD_put_self .., rfl⟩
    · exact ⟨Tab.getD_put_self .., rfl⟩
  · exact ⟨Tab.getD_put_self .., rfl⟩

/-- DESC_TAIL takes its value, and a running ring that it puts more than a ring ahead is in ERROR (R583, R584). -/
theorem exec_descTail {r : Nat} (hup : s.linkUp = true) (hr : r < 64) (v : Nat) : exec (.descTail r v) s = .next (
    if (s.obj (Obj.ringState r) = 1 ∨ s.obj (Obj.ringState r) = 2) ∧ s.obj (Obj.ringRingSize r) < ahead32 v (s.obj (Obj.ringDescHead r)) then
      (s.setRing r { s.ring r with tail := v % 2 ^ 32 }).ringError r 1
    else s.setRing r { s.ring r with tail := v % 2 ^ 32 }) := by
  show execDescTail r v s = _
  unfold execDescTail
  rw [if_neg (by simp [hup, hr])]
  extract_lets x s' running
  have hrunning : (running = true) = (s.obj (Obj.ringState r) = 1 ∨ s.obj (Obj.ringState r) = 2) := by
    simp only [running, Bool.or_eq_true, decide_eq_true_eq]
    rfl
  rw [apply_ite Host.Outcome.next]
  exact if_congr (hrunning ▸ Iff.rfl) rfl rfl

theorem State.ringError_obj (r cause k : Nat) : (s.ringError r cause).obj k = if k = Obj.ringError r then cause else if k = Obj.ringState r then 3 else s.obj k := by
  show ((s.setObjs _).raise 1).obj k = _
  rw [State.raise_obj]
  exact (State.obj_setObj ..).trans (congrArg _ (State.obj_setObj ..))

end

/-- Settles O41: each register's write, and the mailbox's tick. -/
theorem hostRegistersTakeTheirWrites : Obligations.HostRegistersTakeTheirWrites := by
  unfold Obligations.HostRegistersTakeTheirWrites
  refine ⟨fun s v b hup => ⟨fun huse => ?_, fun hbusy hready hb hlow hhigh hmod => ?_⟩, fun s u b p rest hmail hat =>
    ⟨State.mailTick_waits hmail hat, State.mailTick_done hmail hat⟩, fun s v hup => ⟨?_, ?_, ?_, ?_⟩, fun s r v hup hr => ⟨?_, ?_⟩⟩
  · exact ⟨_, exec_cmdDoorbell_ignored b hup huse, counted_bump .., rfl, sameObjs_bump s _ _⟩
  · refine ⟨_, exec_cmdDoorbell_taken hup hbusy hready hb hlow hhigh hmod, rfl, ?_, Tab.getD_put_self .., rfl⟩
    exact (Nat.testBit_or ..).trans (by rw [Nat.testBit_two_pow_self, Bool.or_true])
  · refine ⟨_, if_neg (by simp [hup]), rfl, fun k => ⟨bit_clearBits .., fun h => ?_, fun h => ?_⟩⟩
    · exact congrArg (·.getD []) ((find_dropSlots ..).trans (if_pos h))
    · exact congrArg (·.getD []) ((find_dropSlots ..).trans (if_neg (Bool.eq_false_iff.mp h)))
  · exact if_neg (by simp [hup])
  · refine ⟨_, (if_neg (by simp [hup])).trans (if_pos ⟨rfl, rfl⟩), rfl, fun k hk => (bit_clearBits ..).trans ?_⟩
    rw [bit, bit, bit, cut, Nat.testBit_mod_two_pow, decide_eq_true hk, Bool.true_and]
  · refine ⟨_, (if_neg (by simp [hup])).trans ((if_neg (by decide)).trans (if_pos ⟨rfl, .inl rfl⟩)), rfl, fun k hk => (bit_clearBits ..).trans ?_⟩
    rw [bit, bit, bit, cut, Nat.testBit_mod_two_pow, decide_eq_true hk, Bool.true_and]
  · exact if_neg (by simp [hup, hr])
  · intro late
    rw [exec_descTail hup hr]
    refine ⟨fun h => congrArg Host.Outcome.next (if_neg h), fun h => ⟨_, congrArg Host.Outcome.next (if_pos h), ?_, ?_, ?_, ?_, fun k hk => ?_⟩⟩
    · exact (State.raise_ring ..).trans (State.ring_setRing_self ..)
    · rw [State.ringError_obj, if_neg (by simp [Obj.ringState, Obj.ringError]), if_pos rfl]
    · rw [State.ringError_obj, if_pos rfl]
    · exact State.raise_intStatus (by decide)
    · obtain ⟨hstate, herror⟩ : k ≠ Obj.ringState r ∧ k ≠ Obj.ringError r := by simpa using hk
      rw [State.ringError_obj, if_neg herror, if_neg hstate]
      rfl

end Sys2Proof.Machine

namespace Sys2Proof.Machine

/-! Rings enabled and disabled (R582, R589), and the window's cache (R590). -/

/-- RING_ENABLE of a ring. -/
structure RingRow (n : Nat) : Prop where
  lt : n < 64
  row : findObj (Obj.ringEnable n) = some ⟨0x5810, 64, 0x05, 1, .bool, .rw, false, .any, 0, false⟩
  pair : pairPartner (Obj.ringEnable n) = none
  only : (below 64).filter (fun m => [Obj.ringEnable n].contains (Obj.ringEnable m)) = [n]

theorem ringRow {n : Nat} (h : n < 64) : RingRow n where
  lt := h
  row := findObj_row (by revert n; decide +kernel)
  pair := by revert n; decide +kernel
  only := by revert n; decide +kernel

section
variable {s s1 : State} {c : WriteCmd} {a : Accepted} {k v : Nat}

/-- A write of RING_ENABLE passes its check, and its value is judged with the ring's other objects (R582). -/
theorem Writes.ringEnable (h : Writes s c (Obj.ringEnable k) v s1 a) (hk : RingRow k) (hv : v ≤ 1)
    {t : State} {o : ObjOut} (hset : s1.setNow (Obj.ringEnable k) (.num v) = (t, o)) (ho : o.status ≠ stPairPending) :
    Lands s1 (.next (s.writeNum c (Obj.ringEnable k) v)) (s1.endedOr c.flags a (o.refusedWith (.num v)) t) := by
  have hlt := hk.lt
  have hbound : Obj.ringEnable k < 2 ^ 24 := by show (0x5810 + k) * 256 + 5 < 2 ^ 24; omega
  have hwidth : v < 2 ^ 8 := by omega
  have hcheck : s1.checkEntry (Obj.ringEnable k) (valBytes (Obj.ringEnable k) (.num v)) = okOut (Obj.ringEnable k) (.num v) :=
    State.checkEntry_bool hk.row h.2.2.2 (by decide) rfl hv (by simp)
  exact State.writeNum_ends h hbound (by rw [isStaged, hk.row]; rfl) hk.pair hk.row rfl hwidth hcheck ((act_ringEnable (h := hlt) ..).trans (congrArg done hset)) ho

/-- The objects at which a write of RING_ENABLE looks. -/
theorem State.ring_verdict (s : State) (hk : RingRow k) (v : Nat) : hostVerdict s (s.setObj (Obj.ringEnable k) v) (Obj.ringEnable k) =
    if v = 1 ∧ s.obj (Obj.ringEnable k) = 0 ∧ (s.obj (Obj.ringDescBase k) % 32 ≠ 0 ∨ s.obj (Obj.ringCplBase k) % 16 ≠ 0) then some (stRejected, reRange)
    else none := by
  have hlt := hk.lt
  have hix : Obj.ringEnable k / 256 = 0x5810 + k := by show ((0x5810 + k) * 256 + 5) / 256 = _; omega
  have hsub : Obj.ringEnable k % 256 = 5 := by show ((0x5810 + k) * 256 + 5) % 256 = _; omega
  have hself : (s.setObj (Obj.ringEnable k) v).obj (Obj.ringEnable k) = v := State.obj_setObj_self ..
  have hdesc : (s.setObj (Obj.ringEnable k) v).obj (Obj.ringDescBase k) = s.obj (Obj.ringDescBase k) := State.obj_setObj_ne _ _ (by simp [Obj.ringEnable, Obj.ringDescBase])
  have hcpl : (s.setObj (Obj.ringEnable k) v).obj (Obj.ringCplBase k) = s.obj (Obj.ringCplBase k) := State.obj_setObj_ne _ _ (by simp [Obj.ringEnable, Obj.ringCplBase])
  unfold hostVerdict
  simp only [hix, hsub, Nat.add_sub_cancel_left]
  rw [hself, hdesc, hcpl, if_pos ⟨Nat.le_add_right .., Nat.add_lt_add_left hlt _⟩, if_neg (by simp)]
  simp only [true_and]

theorem State.setNow_refused {v : Val} {st r : Nat} (h : hostVerdict s (s.setVal k v) k = some (st, r)) : s.setNow k v = (s, badOut k st r) := by
  unfold State.setNow
  dsimp only
  rw [h]

theorem State.setNow_taken {v : Val} (h : hostVerdict s (s.setVal k v) k = none) :
    s.setNow k v = ((s.setVal k v).hostEffects s [k], okOut k v) := by
  unfold State.setNow
  dsimp only
  rw [h]

/-- A ring that is enabled starts empty (R582, R589). -/
def State.ringStarted (s : State) (k : Nat) : State :=
  (s.setObjs [(Obj.ringDescHead k, 0), (Obj.ringCplTail k, 0), (Obj.ringState k, if s.host.busMaster then 1 else 2)]).setRing k
    { s.ring k with fetched := [], lease := none, sent := 0, failed := false }

theorem State.ringStarted_obj (s : State) (k j : Nat) : (s.ringStarted k).obj j =
    if j = Obj.ringState k then (if s.host.busMaster then 1 else 2) else if j = Obj.ringCplTail k then 0 else if j = Obj.ringDescHead k then 0 else s.obj j :=
  by
  show (((s.setObj (Obj.ringDescHead k) 0).setObj (Obj.ringCplTail k) 0).setObj (Obj.ringState k) _).obj j = _
  rw [State.obj_setObj, State.obj_setObj, State.obj_setObj]

theorem State.ringStarted_ring (s : State) (k j : Nat) : (s.ringStarted k).ring j =
    if j = k then { s.ring k with fetched := [], lease := none, sent := 0, failed := false } else s.ring j := Tab.getD_put ..

/-- What a write of RING_ENABLE does to the ring at its boundary (R582, R589). -/
theorem State.ring_effects (s old : State) (hk : RingRow k) : s.hostEffects old [Obj.ringEnable k] =
    if old.obj (Obj.ringEnable k) = 0 ∧ s.obj (Obj.ringEnable k) = 1 then s.ringStarted k
    else if old.obj (Obj.ringEnable k) = 1 ∧ s.obj (Obj.ringEnable k) = 0 then s.stopRing k true
    else s := by
  have hmap : [Obj.ringEnable k].contains Obj.hostMapBase = false := by
    have hne : 0x5800 * 256 + 4 ≠ (0x5810 + k) * 256 + 5 := by omega
    exact (Bool.or_false _).trans (beq_eq_false_iff_ne.mpr hne)
  unfold State.hostEffects
  rw [hmap, Bool.false_and, if_neg Bool.false_ne_true, hk.only]
  rfl

@[simp] theorem State.setObjs_ring (l : List (Key × Nat)) (j : Nat) : (s.setObjs l).ring j = s.ring j := by
  rw [State.setObjs_rest]
  rfl

/-- The objects of a completion are CPL_TAIL's alone (R588). -/
theorem State.complete_obj (s : State) (k : Nat) (d : Bytes) (l n o st j : Nat) : (s.complete k d l n o st).obj j =
    if j = Obj.ringCplTail k then cut 32 (s.obj (Obj.ringCplTail k) + 1) else s.obj j := by
  unfold State.complete
  extract_lets
  split
  · rw [State.raise_obj]
    exact State.obj_setObj ..
  · exact State.obj_setObj ..

theorem State.complete_cmm (s : State) (k : Nat) (d : Bytes) (l n o st : Nat) : (s.complete k d l n o st).cmm = s.cmm := by
  unfold State.complete
  extract_lets
  split
  · rw [State.raise_cmm]
    rfl
  · rfl

theorem State.complete_ring (s : State) (k : Nat) (d : Bytes) (l n o st j : Nat) : (s.complete k d l n o st).ring j =
    if j = k then { s.ring k with fetched := (s.ring k).fetched.drop 1, sent := 0, failed := false } else s.ring j := by
  unfold State.complete
  extract_lets
  split
  · rw [State.raise_ring]
    exact Tab.getD_put ..
  · exact Tab.getD_put ..

/-- The descriptor in progress of a ring that stops (R589). -/
theorem State.exists_stopRing (s : State) (k : Nat) (flush : Bool) : ∃ t : State,
    s.stopRing k flush = (t.setRing k { t.ring k with fetched := [], sent := 0, failed := false }).setObjs [(Obj.ringState k, 0), (Obj.ringError k, 0)]
      ∧ SameObjs s t [Obj.ringCplTail k] ∧ t.cmm = s.cmm ∧ ∀ j, j ≠ k → t.ring j = s.ring j := by
  have hsame : SameObjs s s [Obj.ringCplTail k] ∧ s.cmm = s.cmm ∧ ∀ j, j ≠ k → s.ring j = s.ring j := ⟨fun _ _ => rfl, rfl, fun _ _ => rfl⟩
  unfold State.stopRing
  extract_lets t
  refine ⟨t, rfl, ?_⟩
  simp only [t]
  split
  · split
    · exact ⟨fun j hj => (State.complete_obj ..).trans (if_neg (by simpa using hj)), State.complete_cmm ..,
        fun j hj => (State.complete_ring ..).trans (if_neg hj)⟩
    · exact hsame
  · exact hsame

end

/-- Settles O43: the verdict on RING_ENABLE, what its write does to the ring, and the emptied cache. -/
theorem ringsAreEnabledAndDisabled : Obligations.RingsAreEnabledAndDisabled := by
  unfold Obligations.RingsAreEnabledAndDisabled
  refine ⟨fun s s1 c k a hlt hw hoff => ?_, fun s s1 c k a hlt hw hon => ?_, fun s s1 c a hw hv => ?_⟩
  · have hk := ringRow hlt
    have hexec : exec (.ringEnable c k) s = .next (s.writeNum c (Obj.ringEnable k) 1) := by
      show Host.Outcome.next (s.writeNum c (Obj.ringEnable (k % 64)) 1) = _
      rw [Nat.mod_eq_of_lt hlt]
    have hverdict := s1.ring_verdict hk 1
    rw [hexec]
    split
    · next hbad => exact hw.ringEnable hk le_rfl (State.setNow_refused (hverdict.trans (if_pos ⟨rfl, hoff, hbad⟩))) (by simp [badOut])
    · next hgood =>
      have hends := hw.ringEnable hk le_rfl (State.setNow_taken (hverdict.trans (if_neg (fun h => hgood h.2.2)))) (by simp [okOut])
      have heffects := (s1.setObj (Obj.ringEnable k) 1).ring_effects s1 hk
      rw [if_pos ⟨hoff, State.obj_setObj_self ..⟩] at heffects
      rw [State.endedOr_ok rfl rfl] at hends
      have hobj := (s1.setObj (Obj.ringEnable k) 1).ringStarted_obj k
      have hring := (s1.setObj (Obj.ringEnable k) 1).ringStarted_ring k
      refine ⟨(s1.setObj (Obj.ringEnable k) 1).ringStarted k, heffects ▸ hends, rfl, ?_, ?_, ?_, ?_, fun j hj => ?_, ?_, fun j hj => ?_⟩
      · rw [hobj, if_neg (by simp [Obj.ringEnable, Obj.ringState]), if_neg (by simp [Obj.ringEnable, Obj.ringCplTail]),
          if_neg (by simp [Obj.ringEnable, Obj.ringDescHead]), State.obj_setObj_self]
      · rw [hobj, if_pos rfl]
        rfl
      · simp [hobj, Obj.ringState, Obj.ringCplTail, Obj.ringDescHead]
      · simp [hobj, Obj.ringState, Obj.ringCplTail]
      · obtain ⟨henable, hstate, hhead, htail⟩ : j ≠ Obj.ringEnable k ∧ j ≠ Obj.ringState k ∧ j ≠ Obj.ringDescHead k ∧ j ≠ Obj.ringCplTail k := by
          simpa using hj
        rw [hobj, if_neg hstate, if_neg htail, if_neg hhead, State.obj_setObj_ne _ _ henable]
      · exact (hring k).trans (if_pos rfl)
      · exact (hring j).trans (if_neg hj)
  · have hk := ringRow hlt
    have hexec : exec (.ringDisable c k) s = .next (s.writeNum c (Obj.ringEnable k) 0) := by
      show Host.Outcome.next (s.writeNum c (Obj.ringEnable (k % 64)) 0) = _
      rw [Nat.mod_eq_of_lt hlt]
    have hverdict := (s1.ring_verdict hk 0).trans (if_neg (by simp))
    have hends := hw.ringEnable hk (Nat.zero_le 1) (State.setNow_taken hverdict) (by simp [okOut])
    have heffects := (s1.setObj (Obj.ringEnable k) 0).ring_effects s1 hk
    rw [if_neg (by simp [hon]), if_pos ⟨hon, State.obj_setObj_self ..⟩] at heffects
    rw [State.endedOr_ok rfl rfl] at hends
    obtain ⟨t, hstop, hobjs, hcmm, hrings⟩ := (s1.setObj (Obj.ringEnable k) 0).exists_stopRing k true
    rw [hexec]
    refine ⟨(s1.setObj (Obj.ringEnable k) 0).stopRing k true, heffects ▸ hends, ?_⟩
    rw [hstop]
    refine ⟨?_, ?_, State.obj_setObj_self .., ?_, fun j hj => ?_, hcmm⟩
    · rw [State.obj_setObjs_ne _ (by simp [Obj.ringEnable, Obj.ringState, Obj.ringError])]
      exact (hobjs _ (by simp [Obj.ringEnable, Obj.ringCplTail])).trans (State.obj_setObj_self ..)
    · exact (State.obj_setObj_ne _ _ (by simp [Obj.ringState, Obj.ringError])).trans (State.obj_setObj_self ..)
    · rw [State.setObjs_ring, State.ring_setRing_self]
    · rw [State.setObjs_ring, State.ring_setRing_ne _ hj]
      exact hrings j hj
  · have hk : BoolAction Obj.hostMapInvalidate :=
      ⟨by decide, by decide, ⟨0x5800, 1, 0x05, 1, .bool, .wo, false, .any, 0, true⟩, findObj_row (by decide), rfl, rfl⟩
    have hexec : exec (.mapInvalidate c) s = .next (s.writeNum c Obj.hostMapInvalidate 1) := by
      rw [← hv]
      rfl
    rw [hexec]
    exact hw.boolAction_ok hk (act_hostMapInvalidate ..)

end Sys2Proof.Machine

namespace Sys2Proof.Machine

/-! The host's link (R573, R574, R593 to R595, R598). -/

/-- What the step for an element establishes, and the others keep, holds after all steps. -/
theorem foldl_reaches {α σ : Type} {f : σ → α → σ} {l : List α} {Q : σ → Prop} {a : α} (ha : a ∈ l) (hset : ∀ s, Q (f s a)) (hkeep : ∀ s b, Q s → Q (f s b))
    (s : σ) : Q (l.foldl f s) := by
  obtain ⟨front, back, rfl⟩ := List.append_of_mem ha
  rw [List.foldl_append, List.foldl_cons]
  exact List.foldlRecOn back f (hset _) (fun s h b _ => hkeep s b h)

theorem mem_below {n m : Nat} : m ∈ below n ↔ m < n := mem_upFrom.trans (by omega)

section
variable {s : State}

theorem setObjs_three (s : State) (j k l u v w : Nat) : s.setObjs [(j, u), (k, v), (l, w)] = ((s.setObj j u).setObj k v).setObj l w := rfl

/-- Training ends at a speed and a width (R573). -/
theorem exec_pcieLinkUp {v w : Nat} (hbooted : s.booted = true) (hstraps : bit (s.obj Obj.devStraps) 0 = false) (hdown : s.obj Obj.hostLinkState ≠ 2)
    (hv : v ∈ [16, 32, 64]) (hw : w ∈ [1, 4, 8, 16]) :
    exec (.pcieLinkUp v w) s = .next (s.setObjs [(Obj.hostLinkState, 2), (Obj.hostLinkSpeed, v), (Obj.hostLinkWidth, w)]) := by
  refine if_neg ?_
  rw [List.contains_iff_mem.mpr hv, List.contains_iff_mem.mpr hw, hstraps, hbooted]
  simpa using hdown

/-- Bus mastering moves a ring of one state to the other (R595). -/
def State.ringMoved (a b : Nat) (s : State) (k : Nat) : State := if s.obj (Obj.ringState k) = a then s.setObj (Obj.ringState k) b else s

theorem State.ringMoved_obj (a b : Nat) (s : State) (k j : Nat) : (s.ringMoved a b k).obj j = if j = Obj.ringState k ∧ s.obj j = a then b else s.obj j := by
  unfold State.ringMoved
  split
  · next h =>
    rw [State.obj_setObj]
    split
    · next hj => rw [if_pos ⟨hj, hj ▸ h⟩]
    · next hj => rw [if_neg (fun hn => hj hn.1)]
  · next h => rw [if_neg (show ¬ (j = Obj.ringState k ∧ s.obj j = a) from fun hn => h (hn.1 ▸ hn.2))]

theorem State.ringMoved_rest (a b : Nat) (s : State) (k : Nat) : s.ringMoved a b k = { s with dict := (s.ringMoved a b k).dict } := by
  unfold State.ringMoved
  split <;> rfl

theorem State.ringsMoved_rest (a b : Nat) (l : List Nat) (s : State) : l.foldl (State.ringMoved a b) s = { s with dict := (l.foldl (State.ringMoved a b) s).dict } := by
  induction l generalizing s with
  | nil => rfl
  | cons k l ih => rw [List.foldl_cons, ih, State.ringMoved_rest]

theorem State.ringsMoved_obj {a b : Nat} (hab : b ≠ a) (l : List Nat) (s : State) (j : Nat) : (l.foldl (State.ringMoved a b) s).obj j =
    if j ∈ l.map Obj.ringState ∧ s.obj j = a then b else s.obj j := by
  induction l generalizing s with
  | nil => simp
  | cons k l ih =>
    rw [List.foldl_cons, ih]
    have hstep := s.ringMoved_obj a b k j
    by_cases hs : s.obj j = a
    · by_cases hj : j = Obj.ringState k
      · rw [if_pos ⟨hj, hs⟩] at hstep
        rw [hstep, if_neg (fun h => hab h.2), if_pos ⟨List.mem_map.mpr ⟨k, List.mem_cons_self, hj.symm⟩, hs⟩]
      · rw [if_neg (fun h => hj h.1)] at hstep
        rw [hstep]
        exact if_congr (and_congr_left' (by rw [List.map_cons, List.mem_cons, or_iff_right hj])) rfl rfl
    · rw [if_neg (fun h => hs h.2)] at hstep
      rw [hstep, if_neg (fun h => hs h.2), if_neg (fun h => hs h.2)]

/-- Both changes of bus mastering. -/
theorem exec_busMaster {r : Instr} {on : Bool} (hr : (on, r) ∈ [(false, Instr.bmeClear), (true, .bmeSet)]) (hup : s.linkUp = true) :
    exec r s = .next ((below 64).foldl (State.ringMoved (if on = true then 2 else 1) (if on = true then 1 else 2)) (s.setHost (fun h => { h with busMaster := on }))) := by
  simp only [List.mem_cons, List.not_mem_nil, or_false, Prod.mk.injEq] at hr
  obtain ⟨rfl, rfl⟩ | ⟨rfl, rfl⟩ := hr
  · exact if_neg (by simp [hup])
  · exact if_neg (by simp [hup])

/-! PORT0_RESET, step by step (R593, R594). -/

theorem State.holdersReset (l : List Nat) (t : Tick) (s : State) :
    l.foldl (fun s h => s.resetHolder h t) s = { s with cmm := { s.cmm with gone := s.cmm.gone ++ l.map (fun h => (h, t)) } } := by
  induction l generalizing s with
  | nil => simp
  | cons h l ih =>
    rw [List.foldl_cons, ih]
    simp [State.resetHolder]

/-- A ring of a port that is reset is off, and its descriptors are dropped (R594). -/
def State.ringOff (s : State) (k : Nat) : State := (s.setObj (Obj.ringEnable k) 0).stopRing k false

theorem State.ringOff_eq (s : State) (k : Nat) : s.ringOff k =
    ((s.setObj (Obj.ringEnable k) 0).setRing k { s.ring k with fetched := [], sent := 0, failed := false }).setObjs [(Obj.ringState k, 0), (Obj.ringError k, 0)] := by
  unfold State.ringOff State.stopRing
  extract_lets t
  have ht : t = s.setObj (Obj.ringEnable k) 0 := by
    simp only [t]
    split
    · exact if_neg (by simp)
    · rfl
  have hring : t.ring k = s.ring k := by rw [ht]; rfl
  show (t.setRing k { t.ring k with fetched := [], sent := 0, failed := false }).setObjs _ = _
  rw [hring, ht]

theorem State.ringOff_obj (s : State) (k j : Nat) : (s.ringOff k).obj j =
    if j = Obj.ringError k then 0 else if j = Obj.ringState k then 0 else if j = Obj.ringEnable k then 0 else s.obj j := by
  rw [State.ringOff_eq]
  refine (State.obj_setObj ..).trans (if_congr Iff.rfl rfl ((State.obj_setObj ..).trans (if_congr Iff.rfl rfl ?_)))
  exact State.obj_setObj ..

theorem State.ringOff_ring (s : State) (k j : Nat) : (s.ringOff k).ring j =
    if j = k then { s.ring k with fetched := [], sent := 0, failed := false } else s.ring j := by
  rw [State.ringOff_eq, State.setObjs_ring]
  exact Tab.getD_put ..

theorem State.ringOff_rest (s : State) (k : Nat) : s.ringOff k = { s with dict := (s.ringOff k).dict, host := (s.ringOff k).host } := by
  rw [State.ringOff_eq, State.setObjs_rest]
  rfl

/-- Is a ring off, with nothing fetched? -/
def State.RingIsOff (s : State) (k : Nat) : Prop := s.obj (Obj.ringEnable k) = 0 ∧ s.obj (Obj.ringState k) = 0 ∧ (s.ring k).fetched = []

theorem State.ringOff_off (s : State) (k : Nat) : (s.ringOff k).RingIsOff k := by
  refine ⟨?_, ?_, ?_⟩
  · simp [State.ringOff_obj]
  · simp [State.ringOff_obj]
  · rw [State.ringOff_ring, if_pos rfl]

theorem State.RingIsOff.ringOff {k : Nat} (h : s.RingIsOff k) (j : Nat) : (s.ringOff j).RingIsOff k := by
  obtain ⟨henable, hstate, hfetched⟩ := h
  refine ⟨?_, ?_, ?_⟩
  · simp [State.ringOff_obj, henable]
  · simp [State.ringOff_obj, hstate]
  · rw [State.ringOff_ring]
    split
    · rfl
    · exact hfetched

/-- Every ring is off (R594). -/
def State.ringsOff (s : State) : State := (below 64).foldl State.ringOff s

theorem State.ringsOff_off {k : Nat} (hk : k < 64) : s.ringsOff.RingIsOff k :=
  foldl_reaches (Q := fun t => t.RingIsOff k) (mem_below.mpr hk) (fun t => t.ringOff_off k) (fun _ j h => h.ringOff j) s

theorem State.ringsOff_rest (s : State) : s.ringsOff = { s with dict := s.ringsOff.dict, host := s.ringsOff.host } := by
  unfold State.ringsOff
  refine List.foldlRecOn (motive := fun t => t = { s with dict := t.dict, host := t.host }) (below 64) State.ringOff (b := s) ?_ fun t h k _ => ?_
  · rfl
  rw [State.ringOff_rest, h]

/-- The rings' objects are of the indices from 0x5810 on. -/
theorem State.ringsOff_obj {j : Nat} (hj : ∀ k, k < 64 → j / 256 ≠ 0x5810 + k) : s.ringsOff.obj j = s.obj j := by
  unfold State.ringsOff
  refine List.foldlRecOn (motive := fun t => t.obj j = s.obj j) (below 64) State.ringOff rfl fun t h k hk => ?_
  have hindex := hj k (mem_below.mp hk)
  have herror : j ≠ Obj.ringError k := fun e => hindex (by rw [e]; show ((0x5810 + k) * 256 + 7) / 256 = _; omega)
  have hstate : j ≠ Obj.ringState k := fun e => hindex (by rw [e]; show ((0x5810 + k) * 256 + 6) / 256 = _; omega)
  have henable : j ≠ Obj.ringEnable k := fun e => hindex (by rw [e]; show ((0x5810 + k) * 256 + 5) / 256 = _; omega)
  rw [State.ringOff_obj, if_neg herror, if_neg hstate, if_neg henable, h]

theorem State.obj_restAll (p : Key → Bool) (k : Key) : (s.restAll p).obj k = if p k then dfltOf k else s.obj k := by
  have hfind (t : Tab Nat) : Tab.find (t.filter (fun e => !p e.1)) k = if p k then none else t.find k := by
    induction t with
    | nil => exact (ite_self none).symm
    | cons e t ih =>
      obtain ⟨i, v⟩ := e
      by_cases hk : i = k
      · subst hk
        cases hp : p i <;> simp [hp, Tab.find] at ih ⊢
        exact ih
      · cases hp : p i <;> simp [hp, Tab.find, hk, ih]
  show (Tab.find (s.dict.filter _) k).getD (dfltOf k) = _
  rw [hfind]
  split <;> rfl

/-- The end of a session by reset gives its objects their defaults, and writes an entry (R546, R562). -/
theorem State.timeSession_obj (n reason : Nat) (t : Tick) {k : Key} (hk : k ≠ Obj.jnlNextEno ∧ k ≠ Obj.jnlOldestEno ∧ k ≠ Obj.jnlCntEntries) :
    (s.timeSession n reason t).obj k = if k / 256 = 0x1210 + n then dfltOf k else s.obj k := by
  rw [State.timeSession, State.jSystem, State.jWrite_obj _ _ _ _ _ _ _ hk, State.endSession, State.obj_restAll]
  exact if_congr beq_iff_eq rfl rfl

theorem State.timeSession_rest (n reason : Nat) (t : Tick) : s.timeSession n reason t = { s with
    dict := (s.timeSession n reason t).dict, doms := (s.timeSession n reason t).doms, sessions := (s.timeSession n reason t).sessions,
    journal := (s.timeSession n reason t).journal, jPace := (s.timeSession n reason t).jPace } := by
  unfold State.timeSession State.jSystem
  rw [State.jWrite_frame]
  rfl

theorem State.endPortSessions_rest (port : Nat) (t : Tick) : s.endPortSessions port t = { s with
    dict := (s.endPortSessions port t).dict, doms := (s.endPortSessions port t).doms, sessions := (s.endPortSessions port t).sessions,
    journal := (s.endPortSessions port t).journal, jPace := (s.endPortSessions port t).jPace } := by
  unfold State.endPortSessions
  refine List.foldlRecOn (motive := fun u => u = { s with dict := u.dict, doms := u.doms, sessions := u.sessions, journal := u.journal, jPace := u.jPace })
    _ _ (b := s) ?_ fun u h k _ => ?_
  · rfl
  · rw [State.timeSession_rest, h]

theorem State.endPortSessions_obj (port : Nat) (t : Tick) {k : Key} (hk : k ≠ Obj.jnlNextEno ∧ k ≠ Obj.jnlOldestEno ∧ k ≠ Obj.jnlCntEntries)
    (hindex : ∀ n, n < 8 → k / 256 ≠ 0x1210 + n) : (s.endPortSessions port t).obj k = s.obj k := by
  unfold State.endPortSessions
  refine List.foldlRecOn (motive := fun u => u.obj k = s.obj k) _ _ (b := s) rfl fun u h n hn => ?_
  rw [State.timeSession_obj _ _ _ hk, if_neg (hindex n (mem_below.mp (List.mem_filter.mp hn).1)), h]

theorem sessState_dflt {n : Nat} (hn : n < 8) : dfltOf (Obj.sessState n) = 0 := by
  revert n
  decide +kernel

theorem sessState_unjournalled {n : Nat} (hn : n < 8) :
    Obj.sessState n ≠ Obj.jnlNextEno ∧ Obj.sessState n ≠ Obj.jnlOldestEno ∧ Obj.sessState n ≠ Obj.jnlCntEntries := by
  revert n
  decide +kernel

/-- The sessions of a port that is reset end (R546). -/
theorem State.endPortSessions_ends {port n : Nat} (t : Tick) (hn : n < 8) (hopen : s.obj (Obj.sessState n) ≠ 0) (hport : s.obj (Obj.sessPort n) = port) :
    (s.endPortSessions port t).obj (Obj.sessState n) = 0 := by
  have hdflt := sessState_dflt hn
  have hmem : n ∈ (below 8).filter (fun k => s.obj (Obj.sessState k) ≠ 0 && s.obj (Obj.sessPort k) = port) := by simp [mem_below, hn, hopen, hport]
  refine foldl_reaches (Q := fun u => u.obj (Obj.sessState n) = 0) hmem (fun u => ?_) (fun u j h => ?_) s
  · rw [State.timeSession_obj _ _ _ (sessState_unjournalled hn)]
    refine (if_pos ?_).trans hdflt
    show ((0x1210 + n) * 256 + 1) / 256 = _
    omega
  · rw [State.timeSession_obj _ _ _ (sessState_unjournalled hn), hdflt, h, ite_self]

/-- A FIFO that is flushed is empty, and the packet being written goes (R652). -/
theorem State.exists_flushHoop (s : State) (f : Nat) : ∃ m b, s.flushHoop f =
    ({ s with host := { s.host with mail := m, mailAt := b }, hoop := s.hoop.put f [] [], hoopFlips := s.hoopFlips.filter (·.1 ≠ f) } : State).bump
      (Obj.hoopCntFlushes f) 1 := by
  unfold State.flushHoop
  extract_lets t
  by_cases hmail : f = 0 ∧ s.host.mailAt.isSome
  · have ht : t = s.setHost (fun h => { h with mail := h.mail.drop 1, mailAt := none }) := if_pos hmail
    rw [ht]
    exact ⟨_, _, rfl⟩
  · have ht : t = s := if_neg hmail
    rw [ht]
    exact ⟨_, _, rfl⟩

/-- A port that is reset holds no packet, and the sessions and transfers that it has are over (R525, R546, R652). -/
def State.portOver (s : State) (t : Tick) : State := ((s.flushHoop 0).endPortSessions 0 t).dropTransfers (fun i => i.port == 0)

theorem State.portOver_obj (s : State) (t : Tick) {k : Key} (hk : k ≠ Obj.jnlNextEno ∧ k ≠ Obj.jnlOldestEno ∧ k ≠ Obj.jnlCntEntries ∧ k ≠ Obj.hoopCntFlushes 0)
    (hindex : ∀ n, n < 8 → k / 256 ≠ 0x1210 + n) : (s.portOver t).obj k = s.obj k := by
  obtain ⟨hnext, hold, hcount, hflushes⟩ := hk
  obtain ⟨m, b, hflush⟩ := s.exists_flushHoop 0
  show ((s.flushHoop 0).endPortSessions 0 t).obj k = _
  rw [State.endPortSessions_obj _ _ ⟨hnext, hold, hcount⟩ hindex, hflush, State.obj_bump, if_neg hflushes]
  rfl

/-- What is not a session's stays as the flush left it. -/
theorem State.endPortSessions_others (s : State) (port : Nat) (t : Tick) : (s.endPortSessions port t).tick = s.tick
    ∧ (s.endPortSessions port t).cmm = s.cmm ∧ (s.endPortSessions port t).hoop = s.hoop ∧ (s.endPortSessions port t).host = s.host := by
  rw [State.endPortSessions_rest]
  exact ⟨rfl, rfl, rfl, rfl⟩

theorem State.portOver_others (s : State) (t : Tick) : (s.portOver t).tick = s.tick ∧ (s.portOver t).cmm = s.cmm
    ∧ (s.portOver t).hoop = s.hoop.put 0 [] [] ∧ ∃ m b, (s.portOver t).host = { s.host with mail := m, mailAt := b } := by
  obtain ⟨m, b, hflush⟩ := s.exists_flushHoop 0
  obtain ⟨htick, hcmm, hhoop, hhost⟩ := (s.flushHoop 0).endPortSessions_others 0 t
  rw [hflush] at htick hcmm hhoop hhost
  unfold State.portOver
  rw [hflush]
  exact ⟨htick, hcmm, hhoop, m, b, hhost⟩

theorem State.portOver_transfers (s : State) (t : Tick) : ∀ x ∈ (s.portOver t).transfers, x.iss.port ≠ 0 :=
  fun x hx => by simpa using (List.mem_filter.mp hx).2

theorem State.portOver_session (s : State) (t : Tick) {n : Nat} (hn : n < 8) (hopen : s.obj (Obj.sessState n) ≠ 0) (hport : s.obj (Obj.sessPort n) = 0) :
    (s.portOver t).obj (Obj.sessState n) = 0 := by
  obtain ⟨m, b, hflush⟩ := s.exists_flushHoop 0
  have hobj (k : Key) (hk : k ≠ Obj.hoopCntFlushes 0) : (s.flushHoop 0).obj k = s.obj k := by
    rw [hflush, State.obj_bump, if_neg hk]
    rfl
  have hstate : Obj.sessState n ≠ Obj.hoopCntFlushes 0 := by show (0x1210 + n) * 256 + 1 ≠ (0x6600 + 0) * 256 + 4; omega
  have hown : Obj.sessPort n ≠ Obj.hoopCntFlushes 0 := by show (0x1210 + n) * 256 + 2 ≠ (0x6600 + 0) * 256 + 4; omega
  exact State.endPortSessions_ends t hn (by rwa [hobj _ hstate]) (by rwa [hobj _ hown])

/-- The registers and the mailbox of a port that is reset (R593, R594). -/
def State.portCleared (s : State) : State := (s.setObjs [(Obj.hostMapBase, 0), (Obj.hostNoteBase, 0)]).setHost (fun h =>
  { h with cache := [], cmdBusy := 0, rspReady := 0, cmdSlots := [], rspSlots := [], busMaster := false, msix := [], pba := [],
           mail := h.mail.take (ofBool h.mailAt.isSome) })

/-- The link of a port that is reset is down, and its responses go nowhere (R594). -/
def State.portDown (s : State) : State :=
  (((({ s with readBufs := s.readBufs.del 0 } : State).setPort 0 { s.port 0 with cache := [] }).mute (fun i => i.port == 0)).bump
    Obj.hostCntPortResets 1).setObjs [(Obj.hostLinkState, 1), (Obj.hostLinkSpeed, 0), (Obj.hostLinkWidth, 0)]

/-- The reads of BAR2 that wait go, and the leases of the port's holders in the tick after (R401, R594). -/
def State.port0Left (s : State) (t : Tick) : State :=
  { s with parked := s.parked.filter (fun p => !p.isBar2), cmm := { s.cmm with gone := s.cmm.gone ++ (below 65).map (fun h => (h, t)) } }

/-- What remains of a reset of port 0 once its rings are off. -/
def State.afterReset (s : State) : State := (s.portCleared.portOver (s.tick + 1)).portDown

theorem exec_port0Reset (hbooted : s.booted = true) (hstraps : bit (s.obj Obj.devStraps) 0 = false) :
    exec .port0Reset s = .next (s.port0Left (s.tick + 1)).ringsOff.afterReset := by
  refine (if_neg (by simp [hbooted, hstraps])).trans ?_
  have htick : (s.port0Left (s.tick + 1)).ringsOff.tick = s.tick := by
    rw [State.ringsOff_rest]
    rfl
  rw [State.holdersReset, State.afterReset, htick]
  rfl

theorem State.portDown_obj (s : State) {k : Key} (hk : k ≠ Obj.hostLinkState ∧ k ≠ Obj.hostLinkSpeed ∧ k ≠ Obj.hostLinkWidth) :
    s.portDown.obj k = if k = Obj.hostCntPortResets then min (s.obj Obj.hostCntPortResets + 1) (maxOf Obj.hostCntPortResets) else s.obj k := by
  obtain ⟨hstate, hspeed, hwidth⟩ := hk
  unfold State.portDown
  rw [State.obj_setObjs_ne _ (by simp [hstate, hspeed, hwidth])]
  exact State.obj_bump ..

theorem State.portDown_linkState (s : State) : s.portDown.obj Obj.hostLinkState = 1 :=
  State.obj_setObjs_head _ _ (show Obj.hostLinkState ∉ [Obj.hostLinkSpeed, Obj.hostLinkWidth] by decide)

/-- Nothing that stands in the host port, the FIFOs, memory or the transfers goes with the link. -/
theorem State.portDown_others (s : State) : s.portDown.tick = s.tick ∧ s.portDown.cmm = s.cmm ∧ s.portDown.hoop = s.hoop ∧ s.portDown.host = s.host
    ∧ s.portDown.transfers = s.transfers ∧ s.portDown.readBufs = s.readBufs.del 0 := by
  unfold State.portDown
  rw [State.setObjs_rest]
  exact ⟨rfl, rfl, rfl, rfl, rfl, rfl⟩

theorem State.portCleared_obj (s : State) {k : Key} (hk : k ≠ Obj.hostMapBase ∧ k ≠ Obj.hostNoteBase) : s.portCleared.obj k = s.obj k :=
  State.obj_setObjs_ne _ (by simp [hk])

theorem State.afterReset_others (s : State) : s.afterReset.tick = s.tick ∧ s.afterReset.cmm = s.cmm ∧ s.afterReset.hoop = s.hoop.put 0 [] []
    ∧ s.afterReset.readBufs.find 0 = none ∧ (∀ x ∈ s.afterReset.transfers, x.iss.port ≠ 0)
    ∧ ∃ m b, s.afterReset.host = { s.portCleared.host with mail := m, mailAt := b } := by
  obtain ⟨htick, hcmm, hhoop, m, b, hhost⟩ := s.portCleared.portOver_others (s.tick + 1)
  obtain ⟨htick', hcmm', hhoop', hhost', htransfers, hbufs⟩ := (s.portCleared.portOver (s.tick + 1)).portDown_others
  refine ⟨htick'.trans htick, hcmm'.trans hcmm, hhoop'.trans hhoop, ?_, ?_, m, b, hhost'.trans hhost⟩
  · unfold State.afterReset
    rw [hbufs]
    exact Tab.find_del_self ..
  · unfold State.afterReset
    rw [htransfers]
    exact State.portOver_transfers _ _

theorem State.portCleared_host (s : State) : s.portCleared.host = { s.host with
    cache := [], cmdBusy := 0, rspReady := 0, cmdSlots := [], rspSlots := [], busMaster := false, msix := [], pba := [],
    mail := s.host.mail.take (ofBool s.host.mailAt.isSome) } := by
  unfold State.portCleared
  rw [State.setObjs_rest]
  rfl

theorem State.afterReset_host (s : State) : s.afterReset.host.cmdBusy = 0 ∧ s.afterReset.host.rspReady = 0 ∧ s.afterReset.host.busMaster = false
    ∧ s.afterReset.host.cache = [] := by
  obtain ⟨-, -, -, -, -, m, b, hhost⟩ := s.afterReset_others
  rw [hhost, State.portCleared_host]
  exact ⟨rfl, rfl, rfl, rfl⟩

theorem State.afterReset_mapBase (s : State) : s.afterReset.obj Obj.hostMapBase = 0 := by
  unfold State.afterReset
  rw [State.portDown_obj _ (by decide), if_neg (by decide), State.portOver_obj _ _ (by decide) (by decide)]
  exact State.obj_setObjs_head _ _ (show Obj.hostMapBase ∉ [Obj.hostNoteBase] by decide)

theorem State.afterReset_portResets (s : State) : Counted s s.afterReset Obj.hostCntPortResets 1 := by
  unfold State.afterReset
  rw [Counted, State.portDown_obj _ (by decide), if_pos rfl, State.portOver_obj _ _ (by decide) (by decide), State.portCleared_obj _ (by decide)]

theorem State.afterReset_session {n : Nat} (hn : n < 8) (hopen : s.obj (Obj.sessState n) ≠ 0) (hport : s.obj (Obj.sessPort n) = 0) :
    s.afterReset.obj (Obj.sessState n) = 0 := by
  have hfar (m k : Nat) (hm : m < 256) (hk : 0x1218 * 256 ≤ k) : (0x1210 + n) * 256 + m ≠ k := by omega
  have hcleared (m : Nat) (hm : m < 256) : s.portCleared.obj ((0x1210 + n) * 256 + m) = s.obj ((0x1210 + n) * 256 + m) :=
    State.portCleared_obj _ ⟨hfar _ _ hm (by decide), hfar _ _ hm (by decide)⟩
  have hlt : 1 < 256 := by decide
  refine (State.portDown_obj _ ⟨hfar _ _ hlt (by decide), hfar _ _ hlt (by decide), hfar _ _ hlt (by decide)⟩).trans
    ((if_neg (hfar _ _ hlt (by decide))).trans ?_)
  exact State.portOver_session _ _ hn (fun h => hopen ((hcleared 1 hlt).symm.trans h)) ((hcleared 2 (by decide)).trans hport)

theorem State.RingIsOff.afterReset {k : Nat} (hk : k < 64) (h : s.RingIsOff k) : s.afterReset.RingIsOff k := by
  have hobj (m : Nat) (hm : m < 256) : s.afterReset.obj ((0x5810 + k) * 256 + m) = s.obj ((0x5810 + k) * 256 + m) := by
    have hne (i : Nat) (hi : i < 0x5810 * 256 ∨ 0x5850 * 256 ≤ i) : (0x5810 + k) * 256 + m ≠ i := by omega
    have hindex (n : Nat) (hn : n < 8) : ((0x5810 + k) * 256 + m) / 256 ≠ 0x1210 + n := by omega
    unfold State.afterReset
    rw [State.portDown_obj _ ⟨hne _ (.inl (by decide)), hne _ (.inl (by decide)), hne _ (.inl (by decide))⟩, if_neg (hne _ (.inr (by decide))),
      State.portOver_obj _ _ ⟨hne _ (.inl (by decide)), hne _ (.inl (by decide)), hne _ (.inr (by decide)), hne _ (.inr (by decide))⟩ hindex,
      State.portCleared_obj _ ⟨hne _ (.inl (by decide)), hne _ (.inl (by decide))⟩]
  obtain ⟨henable, hstate, hfetched⟩ := h
  obtain ⟨-, -, -, -, -, m, b, hhost⟩ := s.afterReset_others
  refine ⟨(hobj 5 (by decide)).trans henable, (hobj 6 (by decide)).trans hstate, ?_⟩
  rw [State.ring, hhost]
  exact hfetched

end

/-- Settles O45: the link's training, bus mastering, the port's reset step by step, and the header's fields. -/
theorem theHostLinkComesAndGoes : Obligations.TheHostLinkComesAndGoes := by
  unfold Obligations.TheHostLinkComesAndGoes
  refine ⟨fun s v w hbooted hstraps hdown hv hw => ?_, fun s r on hr hup => ?_, fun s hbooted hstraps => ?_, fun s => ?_⟩
  · refine ⟨_, exec_pcieLinkUp hbooted hstraps hdown hv hw, rfl, ?_, ?_, State.obj_setObj_self .., fun k hk => State.obj_setObjs_ne _ hk⟩
    · exact s.obj_setObjs_head _ (show Obj.hostLinkState ∉ [Obj.hostLinkSpeed, Obj.hostLinkWidth] by decide)
    · exact (s.setObj Obj.hostLinkState 2).obj_setObjs_head _ (show Obj.hostLinkSpeed ∉ [Obj.hostLinkWidth] by decide)
  · have hab : (if on = true then 1 else 2) ≠ if on = true then 2 else 1 := by cases on <;> decide
    refine ⟨_, exec_busMaster hr hup, ?_, fun k hk => ?_, fun k hk => ?_⟩
    · exact State.ringsMoved_rest ..
    · exact (State.ringsMoved_obj hab ..).trans (if_neg (fun h => hk h.1))
    · exact (State.ringsMoved_obj hab ..).trans (if_congr (and_iff_right (List.mem_map_of_mem (mem_below.mpr hk))) rfl rfl)
  · have hoff := (s.port0Left (s.tick + 1)).ringsOff_rest
    have hobj {k : Key} (hk : ∀ n, n < 64 → k / 256 ≠ 0x5810 + n) : (s.port0Left (s.tick + 1)).ringsOff.obj k = s.obj k := State.ringsOff_obj hk
    obtain ⟨htick, hcmm, hhoop, hbufs, htransfers, -⟩ := (s.port0Left (s.tick + 1)).ringsOff.afterReset_others
    obtain ⟨hbusy, hready, hmaster, hcache⟩ := (s.port0Left (s.tick + 1)).ringsOff.afterReset_host
    refine ⟨_, exec_port0Reset hbooted hstraps, ?_, State.portDown_linkState _, State.afterReset_mapBase _, hbusy, hready, hmaster, hcache,
      by rw [hhoop]; exact Tab.getD_put_self .., ?_, fun h hh => ?_, ?_, htransfers, hbufs,
      fun k hk => (State.ringsOff_off hk).afterReset hk, fun n hn hopen hport => ?_⟩
    · rw [htick, hoff]
      rfl
    · exact (State.afterReset_portResets _).trans (by rw [hobj (by decide)])
    · rw [hcmm, hoff]
      exact List.mem_append_right _ (List.mem_map.mpr ⟨h, mem_below.mpr hh, rfl⟩)
    · rw [hcmm, hoff]
      rfl
    · have hindex (m : Nat) (hm : m < 256) (j : Nat) (hj : j < 64) : ((0x1210 + n) * 256 + m) / 256 ≠ 0x5810 + j := by omega
      exact State.afterReset_session hn (fun h => hopen ((hobj (hindex 1 (by decide))).symm.trans h)) ((hobj (hindex 2 (by decide))).trans hport)
  · exact ⟨rfl, rfl, rfl, rfl, rfl, rfl, rfl, rfl, rfl⟩

end Sys2Proof.Machine

namespace Sys2Proof.Machine

/-! The BAR2 window (R590 to R592). -/

section
variable (s : State)

theorem State.chunkChannel_lt (pfn off : Nat) : s.chunkChannel pfn off < 12 := by
  unfold State.chunkChannel
  extract_lets set
  rw [List.getD_eq_getElem?_getD]
  cases hget : set[(256 * pfn + off / 256) % set.length]? with
  | none => decide
  | some m => exact mem_below.mp (List.mem_filter.mp (List.mem_of_getElem? hget)).1

/-- The counts of the memory channels' bursts and bytes (R370, R408). -/
def ChannelCount (k : Nat) : Prop := 0x6410 * 256 ≤ k ∧ k < 0x641C * 256

/-- Counts moved, and nothing else. -/
structure ChannelsCounted (s t : State) : Prop where
  rest : t = { s with dict := t.dict }
  objs : ∀ k, ¬ ChannelCount k → t.obj k = s.obj k

namespace ChannelsCounted

variable {s t : State}

theorem refl (s : State) : ChannelsCounted s s := ⟨rfl, fun _ _ => rfl⟩

theorem trans {u : State} (h : ChannelsCounted s t) (g : ChannelsCounted t u) : ChannelsCounted s u :=
  ⟨by rw [g.rest, h.rest], fun k hk => (g.objs k hk).trans (h.objs k hk)⟩

theorem bump (h : ChannelsCounted s t) {k : Key} (hk : ChannelCount k) (n : Nat) : ChannelsCounted s (t.bump k n) :=
  h.trans ⟨rfl, fun j hj => (State.obj_bump ..).trans (if_neg fun e : j = k => hj (e ▸ hk))⟩

theorem foldl {α : Type} {f : State → α → State} {l : List α} (hf : ∀ v, ChannelsCounted s v → ∀ a ∈ l, ChannelsCounted s (f v a))
    (h : ChannelsCounted s t) : ChannelsCounted s (l.foldl f t) := List.foldlRecOn l f h hf

end ChannelsCounted

theorem channelCount {m i : Nat} (hm : m < 12) (hi : i < 256) : ChannelCount ((0x6410 + m) * 256 + i) := by
  unfold ChannelCount
  omega

/-- A read counts what it reads, and the bursts that were corrected or could not be (R370, R408). -/
theorem State.countRead_counted (pfn off n : Nat) (first : Bool) : ChannelsCounted s (s.countRead pfn off n first) := by
  unfold State.countRead
  refine ChannelsCounted.foldl (fun v h c _ => h.bump (channelCount (v.chunkChannel_lt ..) (by decide)) _)
    (ChannelsCounted.foldl (fun v h e _ => h.bump ?_ _) (.refl s))
  split
  · exact channelCount (v.chunkChannel_lt ..) (by decide)
  · exact channelCount (v.chunkChannel_lt ..) (by decide)

theorem State.leaseOf_touchLease {s : State} {id : Nat} {l : Lease} (h : s.cmm.leaseOf id = some l) (t : Tick) :
    (s.touchLease id t).cmm.leaseOf id = some { l with since := t } := by
  have hgen : l.gen = id / 65536 := ((Cmm.leaseOf_eq_some ..).mp h).2
  rw [State.touchLease_renewed h, Cmm.leaseOf_eq_some]
  exact ⟨Tab.find_set_self .., hgen⟩

/-- A read of BAR2 that finds room is served (R592). -/
theorem exec_bar2Read {s : State} (hup : s.linkUp = true) (addr count : Nat) (e : Bytes) : exec (.bar2Read addr count e) s = .next (
    if s.bar2Room (min count (65536 - addr % 65536)) then s.takeBar2 addr count e else s.postpone (.bar2 addr count e)) := if_neg (by simp [hup])

/-- A read that no valid mapping serves is answered with ones (R591). -/
theorem State.takeBar2_fault {s : State} (hup : s.linkUp = true) {addr count : Nat} {e : Bytes}
    (hfault : s.obj Obj.hostMapBase = 0 ∨ s.running = false ∨ s.window (addr / 65536) e = none) : s.takeBar2 addr count e =
      ((s.setHost (fun h => { h with bar2Count := h.bar2Count + min count (65536 - addr % 65536) })).emit
        (.bar2 addr (List.replicate count 0xFF))).bar2Fault := by
  unfold State.takeBar2
  extract_lets w off n u
  have hrun : u.running = s.running := rfl
  have hnone : (if u.obj Obj.hostMapBase = 0 ∨ !u.running then none else u.window w e) = none := by
    split
    · rfl
    · next h =>
      obtain ⟨hbase, hrunning⟩ := not_or.mp h
      exact (hfault.resolve_left hbase).resolve_left (by simpa [hrun] using hrunning)
  rw [if_neg (by simp [hup]), hnone]

theorem State.bar2Fault_out (s : State) : s.out <+: s.bar2Fault.out := State.raise_out (s := s.bump Obj.hostCntBar2Faults 1) 1

/-- The mapping that a served read leaves cached (R591). -/
def State.windowKept (s : State) (w pfn id : Nat) : State :=
  if s.host.cache.length < 4096 then s.setHost (fun h => { h with cache := h.cache.set w (pfn, id) }) else s

theorem State.exists_windowKept (s : State) (w pfn id : Nat) : ∃ c : Tab (Nat × Nat), s.windowKept w pfn id = { s with host := { s.host with cache := c } }
    ∧ (s.host.cache.length < 4096 → c.find w = some (pfn, id)) ∧ (4096 ≤ s.host.cache.length → c = s.host.cache) := by
  unfold State.windowKept
  split
  · next h => exact ⟨_, rfl, fun _ => Tab.find_set_self .., fun hfull => absurd h (Nat.not_lt.mpr hfull)⟩
  · next h => exact ⟨_, rfl, fun hroom => absurd hroom h, fun _ => rfl⟩

/-- A read through a valid mapping of a leased page (R590, R591). -/
theorem State.takeBar2_served {s : State} (hup : s.linkUp = true) {addr count pfn id : Nat} {e : Bytes} (hbase : s.obj Obj.hostMapBase ≠ 0)
    (hrunning : s.running = true) (hwindow : s.window (addr / 65536) e = some (pfn, id)) : s.takeBar2 addr count e =
      (((((((s.setHost (fun h => { h with bar2Count := h.bar2Count + min count (65536 - addr % 65536) })).windowKept (addr / 65536) pfn id).emit
        (.bar2 addr (s.pageRead pfn (addr % 65536) (min count (65536 - addr % 65536)))))).countRead pfn (addr % 65536)
          (min count (65536 - addr % 65536)) true).bump Obj.hostCntReadoutBytes (min count (65536 - addr % 65536))).touchLease id s.tick) := by
  unfold State.takeBar2
  extract_lets w off n u
  have hrun : u.running = s.running := rfl
  have hsome : (if u.obj Obj.hostMapBase = 0 ∨ !u.running then none else u.window w e) = some (pfn, id) := by
    rw [if_neg (by simp only [not_or]; exact ⟨hbase, by simp [hrun, hrunning]⟩)]
    exact hwindow
  rw [if_neg (by simp [hup]), hsome]
  dsimp only
  unfold State.windowKept
  split <;> rfl

end

/-- Settles O44: by the room of the open tick and by the mapping that the read finds. -/
theorem theWindowReadsLeasedPages : Obligations.TheWindowReadsLeasedPages := by
  unfold Obligations.TheWindowReadsLeasedPages
  intro s addr count e hup w off n fault
  have hexec := exec_bar2Read hup addr count e
  refine ⟨fun hroom => ?_, fun hroom hfault => ?_, fun pfn id l hroom hgood hwindow hlease => ?_, ?_⟩
  · rw [hexec, if_neg (Bool.eq_false_iff.mp hroom)]
    rfl
  · rw [hexec, if_pos hroom, State.takeBar2_fault hup hfault]
    refine ⟨_, rfl, ?_, fun k hk => ?_, ?_, ?_, ?_⟩
    · exact (State.raise_obj ..).trans (counted_bump ..)
    · exact (State.raise_obj ..).trans (sameObjs_bump _ _ _ k hk)
    · exact ((s.setHost (fun h => { h with bar2Count := h.bar2Count + n })).emit (.bar2 addr (List.replicate count 0xFF))).bar2Fault_out
    · exact State.raise_cmm 1
    · obtain ⟨i, p, o, hraise, -⟩ := State.exists_raise (State.bump _ _ _) 1
      unfold State.bar2Fault
      rw [hraise]
      rfl
  · obtain ⟨hbase, hrunning, -⟩ : s.obj Obj.hostMapBase ≠ 0 ∧ ¬s.running = false ∧ _ := by simpa only [fault, not_or] using hgood
    rw [hexec, if_pos hroom, State.takeBar2_served hup hbase (by simpa using hrunning) hwindow]
    obtain ⟨cache, hkept, hcached, hfull⟩ := (s.setHost (fun h => { h with bar2Count := h.bar2Count + n })).exists_windowKept w pfn id
    rw [hkept]
    have hcounted := (({ s.setHost (fun h => { h with bar2Count := h.bar2Count + n }) with
      host := { (s.setHost (fun h => { h with bar2Count := h.bar2Count + n })).host with cache := cache } } : State).emit
      (.bar2 addr (s.pageRead pfn off n))).countRead_counted pfn off n true
    generalize State.countRead _ pfn off n true = u at hcounted ⊢
    obtain ⟨hrest, hobjs⟩ := hcounted
    have hu : (u.bump Obj.hostCntReadoutBytes n).cmm.leaseOf id = some l := by
      rw [hrest]
      exact hlease
    refine ⟨_, rfl, ?_, ?_, State.leaseOf_touchLease hu _, ?_, ?_, ?_, ?_⟩ <;> rw [State.touchLease_renewed hu]
    · rw [hrest]
      rfl
    · refine (counted_bump ..).trans ?_
      rw [hobjs _ (by unfold ChannelCount; decide)]
      rfl
    · rw [hrest]
      rfl
    · rw [hrest]
      rfl
    · intro hroom
      rw [hrest]
      exact hcached hroom
    · intro hlong
      rw [hrest, hfull hlong]
      rfl
  · exact ⟨_, if_neg (by simp [hup]), counted_bump .., sameObjs_bump _ _ _, rfl⟩

end Sys2Proof.Machine

namespace Sys2Proof.Machine

/-! Readout rings (R583 to R589). -/

/-- The 16 bytes of a completion (R588). -/
def State.cplEntry (s : State) (k : Nat) (d : Bytes) (lease n outcome status : Nat) : Bytes :=
  le 1 (if s.obj (Obj.ringCplTail k) / s.obj (Obj.ringRingSize k) % 2 = 0 then 1 else 0) ++ [0] ++ le 1 status ++ le 1 outcome ++ le 2 (fieldAt d 2 2)
    ++ le 2 (s.obj (Obj.ringCplTail k)) ++ le 4 n ++ le 4 lease

section
variable {s : State}

theorem State.raise_host (v : Nat) : (s.raise v).host.ringPending = s.host.ringPending := by
  obtain ⟨i, p, o, h, -⟩ := s.exists_raise v
  rw [h]

/-- What a completion leaves before its message (R588). -/
def State.completed (s : State) (k : Nat) (d : Bytes) (lease n outcome status : Nat) : State :=
  (((s.emit (.hostWrite (s.obj (Obj.ringCplBase k) + 16 * (s.obj (Obj.ringCplTail k) % s.obj (Obj.ringRingSize k)))
    (s.cplEntry k d lease n outcome status))).setObj (Obj.ringCplTail k) (cut 32 (s.obj (Obj.ringCplTail k) + 1))).setHost
      (fun h => { h with ringPending := h.ringPending ||| 2 ^ k })).setRing k { s.ring k with fetched := (s.ring k).fetched.drop 1, sent := 0, failed := false }

theorem State.complete_eq (s : State) (k : Nat) (d : Bytes) (lease n outcome status : Nat) : s.complete k d lease n outcome status =
    if bit (fieldAt d 1 1) 0 then (s.completed k d lease n outcome status).raise ((s.completed k d lease n outcome status).obj (Obj.ringVector k))
    else s.completed k d lease n outcome status := rfl

theorem State.complete_out (s : State) (k : Nat) (d : Bytes) (lease n outcome status : Nat) :
    (s.completed k d lease n outcome status).out <+: (s.complete k d lease n outcome status).out := by
  rw [State.complete_eq]
  split
  · exact State.raise_out _
  · exact List.prefix_rfl

theorem State.complete_ringPending (s : State) (k : Nat) (d : Bytes) (lease n outcome status : Nat) :
    (s.complete k d lease n outcome status).host.ringPending = s.host.ringPending ||| 2 ^ k := by
  rw [State.complete_eq]
  split
  · exact State.raise_host _
  · rfl

/-- The oldest descriptor of a running ring has the OP, and it is not malformed. -/
theorem State.oldestDesc_some {k op : Nat} {d : Bytes} (h : s.oldestDesc k op = some d) : badDesc d = false := by
  unfold State.oldestDesc at h
  split at h
  · cases h
  · split at h
    · next hruns =>
      cases h
      simp only [Bool.and_eq_true, Bool.not_eq_true'] at hruns
      exact hruns.2
    · cases h

/-- A descriptor is fetched where completions have room (R583, R587). -/
theorem exec_descFetch {k : Nat} (hruns : s.ringRuns k = true) (hhead : s.obj (Obj.ringDescHead k) ≠ (s.ring k).tail) (hlen : (s.ring k).fetched.length ≤ 8)
    (hroom : s.cplRoom k = true) (r : HostRead) : exec (.descFetch k r) s = match r with
      | .failed => .next (s.ringError k 2)
      | .data b => .next (((s.setObj (Obj.ringDescHead k) (cut 32 (s.obj (Obj.ringDescHead k) + 1))).setRing k
          { s.ring k with fetched := (s.ring k).fetched ++ [⟨s.obj (Obj.ringDescHead k), slice b 0 32⟩] }).skipBad k 10) := by
  refine (if_neg ?_).trans (by cases r <;> rfl)
  simp [hruns, hhead, hlen, hroom]

/-- A GRANT takes its lease for the ring (R586). -/
theorem exec_descGrant {k id : Nat} {d : Bytes} {u : State} {o : Nat} (hdesc : s.oldestDesc k 1 = some d) (hpos : 0 < descCount d) (hlen : descLength d ≤ 60000)
    (htake : s.takeLease k (descQueue d) (descOffset d) (descSeq d) (descCount d)
      (if descLength d = 0 then s.obj Obj.cmmLeaseTimeoutMs else min (descLength d) 60000) (descFlag d 10) = (some (id, u), o)) :
    exec (.descGrant k) s = .next (((u.setRing k { u.ring k with lease := some id }).complete k d id 0 0 stOk).skipBad k 10) := by
  show execDescGrant k s = _
  unfold execDescGrant
  rw [hdesc]
  dsimp only
  rw [if_neg (Nat.ne_of_gt hpos), htake]
  dsimp only
  rw [if_neg (Nat.not_lt.mpr hlen)]

/-- A range of a lease's pages counts channel by channel (R408). -/
theorem State.countLease_counted (s : State) (l : Lease) (seq off n : Nat) (first : Bool) : ChannelsCounted s (s.countLease l seq off n first) := by
  unfold State.countLease
  exact ChannelsCounted.foldl (fun v h p _ => h.trans (v.countRead_counted ..)) (.refl s)

/-- The unit of a READ in its ring's turn (R586, R587): the bytes go to the host, and the lease's timer starts again. -/
def State.unitRead (s : State) (k : Nat) (d : Bytes) (l : Lease) (e : Bool) : State :=
  let off := descOffset d + (s.ring k).sent
  let n := s.readUnit k d
  let u := (((s.emit (.hostWrite (descAddr d + (s.ring k).sent) (s.leaseBytes l (descSeq d) off n))).countLease l (descSeq d) off n ((s.ring k).sent == 0)).bump
    Obj.hostCntReadoutBytes n).touchLease (s.descLeaseId k d) s.tick
  (if e then u.badBurst l (descSeq d) off n else u).setHost (fun h => { h with served := k })

/-- What a unit of a READ leaves unchanged (R586, R587). -/
structure UnitRead (s t : State) (k : Nat) (d : Bytes) (l : Lease) : Prop where
  out : t.out = s.out ++ [.hostWrite (descAddr d + (s.ring k).sent) (s.leaseBytes l (descSeq d) (descOffset d + (s.ring k).sent) (s.readUnit k d))]
  counted : Counted s t Obj.hostCntReadoutBytes (s.readUnit k d)
  lease : t.cmm.leaseOf (s.descLeaseId k d) = some { l with since := s.tick }
  queues : t.queues = s.queues
  mem : t.mem = s.mem
  host : t.host = { s.host with served := k }

/-- A burst that came uncorrectable is counted (R370). -/
theorem State.badBurst_counted (s : State) (l : Lease) (seq off n : Nat) :
    ∃ f, ChannelsCounted { s with free := f } (s.badBurst l seq off n) :=
  ⟨_, (ChannelsCounted.refl _).bump (channelCount (State.chunkChannel_lt ..) (by decide)) 1⟩

theorem State.unitRead_spec {k : Nat} {d : Bytes} {l : Lease} (hlease : s.cmm.leaseOf (s.descLeaseId k d) = some l) (e : Bool) :
    UnitRead s (s.unitRead k d l e) k d l := by
  unfold State.unitRead
  extract_lets off n u
  have hread := (s.emit (.hostWrite (descAddr d + (s.ring k).sent) (s.leaseBytes l (descSeq d) off n))).countLease_counted l (descSeq d) off n
    ((s.ring k).sent == 0)
  obtain ⟨v, hv⟩ : ∃ v, v = (s.emit (.hostWrite (descAddr d + (s.ring k).sent) (s.leaseBytes l (descSeq d) off n))).countLease l (descSeq d) off n
    ((s.ring k).sent == 0) := ⟨_, rfl⟩
  have hu : u = (v.bump Obj.hostCntReadoutBytes n).touchLease (s.descLeaseId k d) s.tick := by rw [hv]
  rw [← hv] at hread
  obtain ⟨hrest, hobjs⟩ := hread
  have hfound : (v.bump Obj.hostCntReadoutBytes n).cmm.leaseOf (s.descLeaseId k d) = some l := by
    rw [hrest]
    exact hlease
  have hrenewed := State.leaseOf_touchLease hfound s.tick
  rw [← hu] at hrenewed
  rw [State.touchLease_renewed hfound] at hu
  obtain ⟨f, hlast, hcounts⟩ : ∃ f, ChannelsCounted { u with free := f } (if e then u.badBurst l (descSeq d) off n else u) := by
    split
    · exact u.badBurst_counted ..
    · exact ⟨u.free, .refl u⟩
  generalize (if e then u.badBurst l (descSeq d) off n else u) = y at hlast hcounts ⊢
  clear_value u
  have hchannel : ¬ ChannelCount Obj.hostCntReadoutBytes := by unfold ChannelCount; decide
  obtain ⟨hvout, hvqueues, hvmem, hvhost⟩ : v.out = s.out ++ [.hostWrite (descAddr d + (s.ring k).sent) (s.leaseBytes l (descSeq d) off n)]
      ∧ v.queues = s.queues ∧ v.mem = s.mem ∧ v.host = s.host := by
    rw [hrest]
    exact ⟨rfl, rfl, rfl, rfl⟩
  obtain ⟨huout, huqueues, humem, huhost⟩ : u.out = v.out ∧ u.queues = v.queues ∧ u.mem = v.mem ∧ u.host = v.host := by
    rw [hu]
    exact ⟨rfl, rfl, rfl, rfl⟩
  obtain ⟨hyout, hyqueues, hymem, hyhost, hycmm⟩ : y.out = u.out ∧ y.queues = u.queues ∧ y.mem = u.mem ∧ y.host = u.host ∧ y.cmm = u.cmm := by
    rw [hlast]
    exact ⟨rfl, rfl, rfl, rfl, rfl⟩
  refine ⟨hyout.trans (huout.trans hvout), ?_, ?_, hyqueues.trans (huqueues.trans hvqueues), hymem.trans (humem.trans hvmem),
    congrArg (fun h : HostPort => { h with served := k }) (hyhost.trans (huhost.trans hvhost))⟩
  · refine (hcounts _ hchannel).trans ((State.obj_of_dict (s := v.bump Obj.hostCntReadoutBytes n) (by rw [hu]) _).trans ?_)
    exact (counted_bump ..).trans (by rw [hobjs _ hchannel]; rfl)
  · exact (congrArg (Cmm.leaseOf · _) hycmm).trans hrenewed

/-- Has a burst of a READ, up to the unit that comes, been uncorrectable (R370, R586)? -/
def State.unitBad (s : State) (k : Nat) (d : Bytes) (l : Lease) (e : Bool) : Bool :=
  e || (s.ring k).failed || s.leaseBad l (descSeq d) (descOffset d + (s.ring k).sent) (s.readUnit k d) ((s.ring k).sent == 0)

/-- A READ of a lease that the ring holds (R586, R587). -/
theorem exec_descRead {k : Nat} {d : Bytes} {l : Lease} {e : Bool} (hdesc : s.oldestDesc k 2 = some d) (hlen : descLength d ≠ 0) (hkeep : descFlag d 11 = false)
    (hlive : s.cmm.revoked.contains (s.descLeaseId k d) = false) (hlease : s.cmm.leaseOf (s.descLeaseId k d) = some l) (hholder : l.holder = k)
    (hcovers : s.leaseCovers l (descSeq d) (descOffset d) (descLength d) = true) :
    exec (.descRead k e) s = if s.readTurn k = false then .next s else
      .next (if (s.ring k).sent + s.readUnit k d < descLength d then
        (s.unitRead k d l e).setRing k { s.ring k with sent := (s.ring k).sent + s.readUnit k d, failed := s.unitBad k d l e }
      else ((s.unitRead k d l e).complete k d (s.descLeaseId k d) ((s.ring k).sent + s.readUnit k d) (if s.unitBad k d l e then 5 else 0)
        (if s.unitBad k d l e then stRejected else stOk)).skipBad k 10) := by
  have hring : (s.unitRead k d l e).ring k = s.ring k := by
    rw [State.ring, (State.unitRead_spec hlease e).host]
    rfl
  show execDescRead k e s = _
  unfold execDescRead
  rw [hdesc]
  dsimp -zeta only
  extract_lets id done sent
  rw [if_neg hlen, if_neg (show ¬ s.cmm.revoked.contains id = true by simp only [id, hlive]; decide), show s.cmm.leaseOf id = some l from hlease]
  dsimp -zeta only
  rw [if_neg (not_not.mpr hholder), hcovers, if_neg (show ¬ (!true) = true by decide)]
  by_cases hturn : s.readTurn k = true
  · rw [if_neg (show ¬ (!s.readTurn k) = true by simp [hturn]), if_neg (show ¬ s.readTurn k = false by simp [hturn])]
    extract_lets bad b u u' t ring
    have ht : t = s.unitRead k d l e := rfl
    have hsame : ring = s.ring k := hring
    have hbad : s.unitBad k d l e = bad := rfl
    rw [ht, hsame, if_neg (show ¬ descFlag d 11 = true by simp [hkeep]), hbad, apply_ite Host.Outcome.next]
    refine if_congr Iff.rfl rfl ?_
    cases bad <;> rfl
  · rw [if_pos (show (!s.readTurn k) = true by simpa using hturn), if_pos (show s.readTurn k = false by simpa using hturn)]

/-- The answer of RENEW and RELEASE: the lease is the ring's, or it is revoked, or there is none (R402, R586). -/
theorem State.descLeaseState_mine {k id : Nat} {l : Lease} (hlive : s.cmm.revoked.contains id = false) (hlease : s.cmm.leaseOf id = some l)
    (hholder : l.holder = k) : s.descLeaseState k id = 0 := by
  rw [State.descLeaseState, hlive, if_neg Bool.false_ne_true, hlease]
  exact if_pos hholder

theorem State.descLeaseState_revoked {id : Nat} (k : Nat) (h : s.cmm.revoked.contains id = true) : s.descLeaseState k id = 4 := if_pos h

theorem State.descLeaseState_none {id : Nat} (k : Nat) (hlive : s.cmm.revoked.contains id = false) (hnone : s.cmm.leaseOf id = none) :
    s.descLeaseState k id = 3 := by
  rw [State.descLeaseState, hlive, if_neg Bool.false_ne_true, hnone]

theorem exec_descRenew {k : Nat} {d : Bytes} (hdesc : s.oldestDesc k 3 = some d) : exec (.descRenew k) s =
    .next (((if s.descLeaseState k (s.descLeaseId k d) = 0 then s.touchLease (s.descLeaseId k d) s.tick else s).complete k d (s.descLeaseId k d) 0
      (s.descLeaseState k (s.descLeaseId k d)) (cplStatus (s.descLeaseState k (s.descLeaseId k d)))).skipBad k 10) := by
  show execDescRenew k s = _
  unfold execDescRenew
  rw [hdesc]

theorem exec_descRelease {k : Nat} {d : Bytes} (hdesc : s.oldestDesc k 4 = some d) : exec (.descRelease k) s =
    .next (((if s.descLeaseState k (s.descLeaseId k d) = 0 then s.endLease (s.descLeaseId k d) (descFlag d 9) false else s).complete k d
      (s.descLeaseId k d) 0 (s.descLeaseState k (s.descLeaseId k d)) (cplStatus (s.descLeaseState k (s.descLeaseId k d)))).skipBad k 10) := by
  show execDescRelease k s = _
  unfold execDescRelease
  rw [hdesc]

/-- A READ of a lease that is gone completes with the bytes transferred so far (R586). -/
theorem exec_descRead_gone {k o st : Nat} {d : Bytes} (e : Bool) (hdesc : s.oldestDesc k 2 = some d) (hlen : descLength d ≠ 0)
    (hgone : s.cmm.revoked.contains (s.descLeaseId k d) = true ∧ o = 4 ∧ st = stRevoked
      ∨ s.cmm.revoked.contains (s.descLeaseId k d) = false ∧ s.cmm.leaseOf (s.descLeaseId k d) = none ∧ o = 3 ∧ st = stRejected) :
    exec (.descRead k e) s = .next ((s.complete k d (s.descLeaseId k d) (s.ring k).sent o st).skipBad k 10) := by
  show execDescRead k e s = _
  unfold execDescRead
  rw [hdesc]
  dsimp -zeta only
  extract_lets id done sent
  rw [if_neg hlen]
  obtain ⟨hrevoked, rfl, rfl⟩ | ⟨hlive, hnone, rfl, rfl⟩ := hgone
  · rw [if_pos hrevoked]
  · rw [if_neg (show ¬ s.cmm.revoked.contains id = true by simp only [id, hlive]; decide), show s.cmm.leaseOf id = none from hnone]

end

/-- Settles O42: the completion, the fetch, and the four operations by what becomes of the lease. -/
theorem ringDescriptorsAreCarriedOutAndCompleted : Obligations.RingDescriptorsAreCarriedOutAndCompleted := by
  unfold Obligations.RingDescriptorsAreCarriedOutAndCompleted
  refine ⟨fun s k d lease n outcome status hk => ?_, fun s k b hruns hhead hlen hroom => ⟨?_, ?_⟩, fun s k d hdesc hpos hlen hroom hpages => ?_,
    fun s k d l e hdesc hlen hkeep => ?_,
    fun s k d l => ?_, fun s k d r op hr hdesc hlen => ?_⟩
  · intro tail size entry t
    refine ⟨(State.complete_obj ..).trans (if_pos rfl), fun j hj => (State.complete_obj ..).trans (if_neg (by simpa using hj)), ?_, fun j hj => ?_,
      State.complete_ringPending .., State.complete_cmm .., State.complete_out .., fun hint => ?_⟩
    · rw [State.complete_ring, if_pos rfl]
    · rw [State.complete_ring, if_neg hj]
    · show (s.complete k d lease n outcome status).out = _
      rw [State.complete_eq, if_neg (Bool.eq_false_iff.mp hint)]
      rfl
  · refine ⟨_, exec_descFetch hruns hhead hlen hroom .failed, ?_, ?_, ?_⟩
    · rw [State.ringError_obj, if_neg (by simp [Obj.ringState, Obj.ringError]), if_pos rfl]
    · rw [State.ringError_obj, if_pos rfl]
    · exact (State.raise_ring ..).trans (State.setObjs_ring ..)
  · refine ⟨_, exec_descFetch hruns hhead hlen hroom (.data b), rfl, State.obj_setObj_self .., fun j hj => State.obj_setObj_ne _ _ (by simpa using hj),
      State.ring_setRing_self ..⟩
  · have htake := State.takeLease_granted (holder := k) (timeout := if descLength d = 0 then s.obj Obj.cmmLeaseTimeoutMs else min (descLength d) 60000)
      (expiryFree := descFlag d 10) hroom hpos hpages
    have hindex : s.leaseIndex < 65536 := lt_of_lt_of_le (Nat.mod_lt _ (by decide)) (by decide : 4096 ≤ 65536)
    refine ⟨_, _, _, exec_descGrant hdesc hpos hlen htake, s.newLease_leaseOf _ hindex, ?_, rfl, rfl, rfl, rfl, rfl, ?_, rfl, rfl⟩
    · rw [leaseId_index hindex]
      exact State.leaseIndex_free hroom
    · exact congrArg Ring.lease (State.ring_setRing_self ..)
  · intro id at_ n bad hlive hlease hholder hcovers
    have hexec := exec_descRead (e := e) hdesc hlen hkeep hlive hlease hholder hcovers
    refine ⟨fun hturn => hexec.trans (if_pos hturn), fun hturn => ?_⟩
    obtain ⟨hout, hcounted, hsince, hqueues, hmem, hhost⟩ := State.unitRead_spec hlease e
    exact ⟨_, hout, hcounted, hsince, hqueues, hmem, hhost, hexec.trans (if_neg (by simp [hturn]))⟩
  · intro id hlive hlease hholder
    have hstate := State.descLeaseState_mine hlive hlease hholder
    refine ⟨fun hdesc => ?_, fun hdesc => ?_⟩
    · have hexec := exec_descRenew hdesc
      rw [hstate] at hexec
      refine ⟨_, hexec, State.leaseOf_touchLease hlease _, ?_⟩
      rw [if_pos rfl, State.touchLease_renewed hlease]
    · have hexec := exec_descRelease hdesc
      rw [hstate] at hexec
      have hended := State.endLease_ended hlease (descFlag d 9) false
      exact ⟨_, hexec, by rw [if_pos rfl, Cmm.leaseOf, hended.gone], fun q hq => by rw [if_pos rfl, hended.queues q hq]⟩
  · intro id n
    simp only [List.mem_cons, List.not_mem_nil, or_false, Prod.mk.injEq] at hr
    obtain ⟨rfl, rfl⟩ | ⟨rfl, rfl⟩ | ⟨rfl, rfl⟩ := hr
    · exact ⟨fun hrevoked => exec_descRead_gone false hdesc (hlen rfl) (.inl ⟨hrevoked, rfl, rfl⟩),
        fun hlive hnone => exec_descRead_gone false hdesc (hlen rfl) (.inr ⟨hlive, hnone, rfl, rfl⟩)⟩
    · rw [exec_descRenew hdesc]
      refine ⟨fun hrevoked => ?_, fun hlive hnone => ?_⟩
      · rw [State.descLeaseState_revoked k hrevoked]
        rfl
      · rw [State.descLeaseState_none k hlive hnone]
        rfl
    · rw [exec_descRelease hdesc]
      refine ⟨fun hrevoked => ?_, fun hlive hnone => ?_⟩
      · rw [State.descLeaseState_revoked k hrevoked]
        rfl
      · rw [State.descLeaseState_none k hlive hnone]
        rfl

end Sys2Proof.Machine

namespace Sys2Proof.Machine

/-! The management port's datagrams (R529, R530, R546, R652). -/

section
variable {s : State}

theorem State.keepCore_obj (s : State) (i : Issuer) (k j : Key) : (s.keepCore i k).obj j = s.obj j := by
  obtain ⟨d, e, h⟩ := s.keepCore_rest i k
  rw [h]
  rfl

/-- LAST_ERROR of the port, and a core's copy of it (R505). -/
theorem State.setError_frame (s : State) (i : Issuer) (outs : List ObjOut) (status reason jseq : Nat) :
    (s.setError i outs status reason jseq).out = s.out ∧ (s.setError i outs status reason jseq).hoop = s.hoop
      ∧ SameObjs s (s.setError i outs status reason jseq) [Obj.portLastError i.port, Obj.portLastErrorJseq i.port] := by
  unfold State.setError
  extract_lets bad named
  split
  · exact ⟨rfl, rfl, fun _ _ => rfl⟩
  · obtain ⟨d, e, h⟩ := ((s.setObj (Obj.portLastError i.port) (256 * named + reason)).setObj (Obj.portLastErrorJseq i.port) jseq).keepCore_rest i
      (Obj.portLastError i.port)
    obtain ⟨d', e', h'⟩ := (((s.setObj (Obj.portLastError i.port) (256 * named + reason)).setObj (Obj.portLastErrorJseq i.port) jseq).keepCore i
      (Obj.portLastError i.port)).keepCore_rest i (Obj.portLastErrorJseq i.port)
    refine ⟨?_, ?_, fun k hk => ?_⟩
    · rw [h', h]
      rfl
    · rw [h', h]
      rfl
    · obtain ⟨herror, hjseq⟩ : k ≠ Obj.portLastError i.port ∧ k ≠ Obj.portLastErrorJseq i.port := by simpa using hk
      rw [State.keepCore_obj, State.keepCore_obj, State.obj_setObj_ne _ _ hjseq, State.obj_setObj_ne _ _ herror]

/-- A packet of the management port that is turned away is answered in a datagram (R502, R529). -/
theorem State.turnAway_datagram {i : Issuer} (hport : i.port = 1) (hslot : i.slot ≤ 15) (op tag status reason : Nat) :
    (s.turnAway i op tag status reason).out = s.out ++ [.response i (vdpHeader 2 ++ respBytes i [] op tag status reason 0 0 0 0 false [])]
      ∧ (s.turnAway i op tag status reason).hoop = s.hoop
      ∧ SameObjs s (s.turnAway i op tag status reason) [Obj.portLastError i.port, Obj.portLastErrorJseq i.port] := by
  obtain ⟨hout, hhoop, hobjs⟩ := s.setError_frame i [] status reason 0
  have hturn : s.turnAway i op tag status reason = (s.setError i [] status reason 0).emit
      (.response i (vdpHeader 2 ++ respBytes i [] op tag status reason 0 0 0 0 false [])) :=
    (if_neg (Nat.not_lt.mpr hslot)).trans ((if_neg (by simp [hport])).trans (if_pos hport))
  rw [hturn]
  exact ⟨congrArg (· ++ _) hout, hhoop, hobjs⟩

/-- The end of a session by reset leaves the others (R546). -/
theorem State.timeSession_session (n reason : Nat) (t : Tick) (m : Nat) : (s.timeSession n reason t).session m = if m = n then {} else s.session m := by
  have hsessions : (s.timeSession n reason t).sessions = s.sessions.del n := by
    unfold State.timeSession State.jSystem
    rw [State.jWrite_frame]
    rfl
  rw [State.session, hsessions]
  split
  · next h => rw [h, Tab.getD, Tab.find_del_self]; rfl
  · next h => rw [Tab.getD, Tab.find_del_ne _ h]; rfl

/-- Of the sessions those of the port end, and the others stand (R546). -/
theorem State.endPortSessions_session {port n : Nat} (t : Tick) (hn : n < 8) :
    if s.obj (Obj.sessState n) ≠ 0 ∧ s.obj (Obj.sessPort n) = port then
      (s.endPortSessions port t).obj (Obj.sessState n) = 0 ∧ (s.endPortSessions port t).session n = {}
    else (s.endPortSessions port t).obj (Obj.sessState n) = s.obj (Obj.sessState n) ∧ (s.endPortSessions port t).session n = s.session n := by
  split
  · next h =>
    obtain ⟨hopen, hport⟩ := h
    refine ⟨State.endPortSessions_ends t hn hopen hport, ?_⟩
    have hmem : n ∈ (below 8).filter (fun k => s.obj (Obj.sessState k) ≠ 0 && s.obj (Obj.sessPort k) = port) := by simp [mem_below, hn, hopen, hport]
    refine foldl_reaches (Q := fun u => u.session n = {}) hmem (fun u => ?_) (fun u j h => ?_) s
    · rw [State.timeSession_session, if_pos rfl]
    · rw [State.timeSession_session, h, ite_self]
  · next h =>
    unfold State.endPortSessions
    refine List.foldlRecOn (motive := fun u => u.obj (Obj.sessState n) = s.obj (Obj.sessState n) ∧ u.session n = s.session n) _ _ (b := s)
      ⟨rfl, rfl⟩ fun u hu m hm => ?_
    obtain ⟨hobj, hsession⟩ := hu
    have hmn : n ≠ m := by
      rintro rfl
      exact h (by simpa [mem_below, hn] using hm)
    have hindex : (((0x1210 + n) * 256 + 1) / 256 : Nat) ≠ 0x1210 + m := by omega
    rw [State.timeSession_obj _ _ _ (sessState_unjournalled hn), State.timeSession_session, if_neg hmn]
    exact ⟨(if_neg hindex).trans hobj, hsession⟩

end

/-- Settles O46: each answer, the command's way into HF1, and what the link's loss ends. -/
theorem theManagementPortTakesAndAnswersDatagrams : Obligations.TheManagementPortTakesAndAnswersDatagrams := by
  unfold Obligations.TheManagementPortTakesAndAnswersDatagrams
  refine ⟨fun s d => ⟨fun f => rfl, fun hup => ⟨fun hv4 htarget => if_pos ⟨hup, hv4, htarget⟩, fun hown => ⟨if_pos ⟨hup, hown⟩, fun hv6 => ?_⟩, fun hvdp => ?_⟩⟩,
    fun s => ⟨fun hbooted => if_pos hbooted, fun hsync => ?_⟩⟩
  · exact if_pos ⟨hup, hown, by rw [hv6]; rfl⟩
  · intro pkt i
    refine ⟨fun hlen hroom => ?_, fun hlong => ?_⟩
    · refine ⟨{ s with hoop := s.hoop.put 1 [] (s.hoop.getD 1 [] ++ [(i, pkt)]) }, ?_, rfl, Tab.getD_put_self .., fun f hf => Tab.getD_put_ne _ _ _ _ hf⟩
      exact (if_neg (by simp [hup, hvdp])).trans ((if_neg (Nat.not_lt.mpr hlen)).trans (if_neg (Nat.not_lt.mpr hroom)))
    · have hexec : exec (.vdpCommand d) s = .next ((s.bump (Obj.portCntOversize 1) 1).turnAway i (fieldAt pkt 0 1 % 128) (fieldAt pkt 8 4) stOversize 0) :=
        (if_neg (by simp [hup, hvdp])).trans ((if_pos hlong).trans (congrArg Host.Outcome.next (if_pos hlong)))
      obtain ⟨hout, hhoop, hobjs⟩ := (s.bump (Obj.portCntOversize 1) 1).turnAway_datagram (i := i) rfl (Nat.zero_le _) (fieldAt pkt 0 1 % 128)
        (fieldAt pkt 8 4) stOversize 0
      exact ⟨_, hexec, hhoop, (hobjs _ (show Obj.portCntOversize 1 ∉ [Obj.portLastError 1, Obj.portLastErrorJseq 1] by decide)).trans (counted_bump ..), hout⟩
  · obtain ⟨m, b, hflush⟩ := ({ s with sgmii := false } : State).exists_flushHoop 1
    obtain ⟨v, hv⟩ : ∃ v, v = ({ s with sgmii := false } : State).flushHoop 1 := ⟨_, rfl⟩
    have hexec : exec .sgmiiSyncLoss s = .next (v.endPortSessions 1 (s.tick + 1)) := by
      rw [hv]
      exact if_pos hsync
    rw [hflush] at hv
    obtain ⟨-, -, hhoop, -⟩ := v.endPortSessions_others 1 (s.tick + 1)
    have hvhoop : v.hoop = s.hoop.put 1 [] [] := by rw [hv]; rfl
    have hobj {k : Key} (hk : k ≠ Obj.hoopCntFlushes 1) : v.obj k = s.obj k := by
      rw [hv, State.obj_bump, if_neg hk]
      rfl
    refine ⟨_, hexec, ?_, ?_, ?_, fun f hf => ?_, fun n hn => ?_⟩
    · rw [State.endPortSessions_rest, hv]
      rfl
    · rw [hhoop, hvhoop]
      exact Tab.getD_put_self ..
    · rw [Counted, State.endPortSessions_obj _ _ (by decide) (by decide), hv]
      exact counted_bump ..
    · rw [hhoop, hvhoop]
      exact Tab.getD_put_ne _ _ _ _ hf
    · have hfar (m : Nat) (hm : m < 256) : (0x1210 + n) * 256 + m ≠ (0x6600 + 1) * 256 + 4 := by omega
      have hsession : v.session n = s.session n := by rw [hv]; rfl
      have hended := v.endPortSessions_session (port := 1) (s.tick + 1) hn
      have hstate : v.obj (Obj.sessState n) = s.obj (Obj.sessState n) := hobj (hfar 1 (by decide))
      have hport : v.obj (Obj.sessPort n) = s.obj (Obj.sessPort n) := hobj (hfar 2 (by decide))
      rwa [hstate, hport, hsession] at hended

end Sys2Proof.Machine

namespace Sys2Proof.Machine

/-! Next hops and notifications on their way (R530, R532). -/

section
variable {s : State}

/-- What a datagram that the engine originates leaves (R530). -/
theorem State.originate_frame (s : State) (sub : Option Nat) (dest : Bytes) (udp : Nat) (data : Bytes) : s.originate sub dest udp data =
    { s with dict := (s.originate sub dest udp data).dict, hops := (s.originate sub dest udp data).hops, out := (s.originate sub dest udp data).out } := by
  have hdrop : s.countDrop sub = { s with dict := (s.countDrop sub).dict, hops := (s.countDrop sub).hops, out := (s.countDrop sub).out } := by
    cases sub <;> rfl
  unfold State.originate
  split
  · exact hdrop
  · split
    · rfl
    · split
      · rfl
      · split
        · rfl
        · exact hdrop

theorem State.originate_none {dest : Bytes} (h : s.nextHop dest = none) (sub : Option Nat) (udp : Nat) (data : Bytes) :
    s.originate sub dest udp data = s.countDrop sub := by
  rw [State.originate, h]

section
variable {dest h : Bytes} (hhop : s.nextHop dest = some h) (sub : Option Nat) (udp : Nat) (data : Bytes)
include hhop

theorem State.originate_ask (hfind : s.hops.find? (fun x => x.addr = h) = none) : s.originate sub dest udp data =
    { s with hops := s.hops ++ [{ addr := h, since := s.tick, waiting := [(sub, dest, udp, data)] }], out := s.out ++ [.resolve h] } := by
  rw [State.originate, hhop]
  dsimp only
  rw [hfind]
  rfl

theorem State.originate_known {x : NextHop} (hfind : s.hops.find? (fun x => x.addr = h) = some x) : s.originate sub dest udp data =
    if x.resolved then s.emit (.datagram dest udp data)
    else if x.waiting.length < 4 then
      { s with hops := s.hops.map (fun (y : NextHop) => if y.addr = h then { y with waiting := y.waiting ++ [(sub, dest, udp, data)] } else y) }
    else s.countDrop sub := by
  rw [State.originate, hhop]
  dsimp only
  rw [hfind]

end

/-- A notification leaves its subscriber's queue (R532). -/
theorem exec_notificationSend {k nseq : Nat} {n : Note} {rest : List (Nat × Note)} (hqueue : s.subQ.getD k [] = (nseq, n) :: rest) (hup : s.netUp = true)
    (hon : s.subOn k = true) : exec (.notificationSend k) s = .next (({ s with subQ := s.subQ.put k [] rest } : State).originate (some k)
      (s.dom (Obj.subSubAddr k)) (s.obj (Obj.subSubPort k)) (vdpHeader 3 ++ noteBytes n nseq)) := by
  show execNotificationSend k s = _
  unfold execNotificationSend
  rw [hqueue]
  exact if_neg (by simp [hup, hon])

/-! The table of next hops. -/

theorem find_map_addr {l : List NextHop} {f : NextHop → NextHop} (hf : ∀ y, (f y).addr = y.addr) (b : Bytes) :
    (l.map f).find? (fun y => y.addr = b) = (l.find? (fun y => y.addr = b)).map f := by
  rw [List.find?_map]
  congr 2
  funext y
  simp [Function.comp, hf]

theorem find_map_addr_of_eq {l : List NextHop} {f : NextHop → NextHop} (hf : ∀ y, (f y).addr = y.addr) {b : Bytes} (hsame : ∀ y, y.addr = b → f y = y) :
    (l.map f).find? (fun y => y.addr = b) = l.find? (fun y => y.addr = b) := by
  rw [find_map_addr hf]
  cases h : l.find? (fun y => y.addr = b) with
  | none => rfl
  | some x => exact congrArg some (hsame x (by simpa using List.find?_some h))

theorem foldl_emit (f : Option Nat × Bytes × Nat × Bytes → Output) (l : List (Option Nat × Bytes × Nat × Bytes)) (s : State) :
    l.foldl (fun s w => s.emit (f w)) s = { s with out := s.out ++ l.map f } := by
  induction l generalizing s with
  | nil => simp
  | cons w l ih =>
    rw [List.foldl_cons, ih]
    simp [State.emit]

/-- The earliest confirmation is that of one of the resolved next hops. -/
theorem foldl_min_since (l : List NextHop) (m : Tick) : l.foldl (fun m x => min m x.since) m = m ∨ ∃ x ∈ l, l.foldl (fun m x => min m x.since) m = x.since := by
  induction l generalizing m with
  | nil => exact .inl rfl
  | cons y l ih =>
    rw [List.foldl_cons]
    obtain h | ⟨x, hx, h⟩ := ih (min m y.since)
    · obtain hm | hy := min_choice m y.since
      · exact .inl (h.trans hm)
      · exact .inr ⟨y, List.mem_cons_self, h.trans hy⟩
    · exact .inr ⟨x, List.mem_cons_of_mem _ hx, h⟩

theorem trimHops_le (l : List NextHop) (h : (l.filter (·.resolved)).length ≤ 33) : ((trimHops l).filter (·.resolved)).length ≤ 32 := by
  unfold trimHops
  extract_lets r oldest
  split
  · next hr => exact hr
  · next hr =>
    have hlen : r.length ≤ 33 := h
    have hoccurs : ∃ x ∈ r, x.since = oldest := by
      cases hhead : r.head? with
      | none =>
        have hempty : r.length = 0 := List.length_eq_zero_iff.mpr (List.head?_eq_none_iff.mp hhead)
        omega
      | some y =>
        have hold : oldest = r.foldl (fun m x => min m x.since) y.since := by simp only [oldest, hhead]; rfl
        obtain hm | ⟨x, hx, hm⟩ := foldl_min_since r y.since
        · exact ⟨y, List.mem_of_head? hhead, (hold.trans hm).symm⟩
        · exact ⟨x, hx, (hold.trans hm).symm⟩
    obtain ⟨x, hx, hsince⟩ := hoccurs
    cases hfind : r.find? (fun x => x.since = oldest) with
    | none => exact absurd hsince (by simpa using List.find?_eq_none.mp hfind x hx)
    | some y =>
      have hlt : (r.filter (fun z => z.addr ≠ y.addr)).length < r.length :=
        List.length_filter_lt_length_iff_exists.mpr ⟨y, List.mem_of_find?_eq_some hfind, by simp⟩
      have hcomm : (l.filter (fun z => z.addr ≠ y.addr)).filter (·.resolved) = r.filter (fun z => z.addr ≠ y.addr) := List.filter_comm ..
      dsimp only
      rw [hcomm]
      omega

theorem trimHops_of_le {l : List NextHop} (h : (l.filter (·.resolved)).length ≤ 32) : trimHops l = l := if_pos h

/-- A next hop that is asked for again (R530). -/
def NextHop.askedAgain (addr : Bytes) (t : Tick) (y : NextHop) : NextHop := if y.addr = addr then { y with asked := y.asked + 1, since := t } else y

/-- A next hop whose confirmation is over, in the place of the one it was (R530). -/
def NextHop.unconfirmed (addr : Bytes) (x y : NextHop) : NextHop := if y.addr = addr then x else y

theorem NextHop.askedAgain_addr (addr : Bytes) (t : Tick) (y : NextHop) : (NextHop.askedAgain addr t y).addr = y.addr := by
  unfold NextHop.askedAgain
  split <;> rfl

theorem NextHop.unconfirmed_addr {addr : Bytes} {x : NextHop} (hx : x.addr = addr) (y : NextHop) : (NextHop.unconfirmed addr x y).addr = y.addr := by
  unfold NextHop.unconfirmed
  split
  · next h => exact hx.trans h.symm
  · rfl

/-- A reply confirms its next hop, and what waits for it leaves (R530). -/
theorem exec_nextHopReply {d : NetIn} {x : NextHop} (hup : s.netUp = true) (hfind : s.hops.find? (fun y => y.addr = d.addr) = some x) :
    exec (.nextHopReply d) s = .next { s with
      hops := trimHops (s.hops.filter (fun y => y.addr ≠ d.addr) ++ [{ x with resolved := true, since := s.tick, waiting := [] }])
      out := s.out ++ x.waiting.map (fun w => .datagram w.2.1 w.2.2.1 w.2.2.2) } := by
  show execNextHopReply d s = _
  unfold execNextHopReply
  rw [hfind]
  refine (if_neg (by simp [hup])).trans (congrArg Host.Outcome.next ?_)
  exact foldl_emit (fun w => .datagram w.2.1 w.2.2.1 w.2.2.2) _ _

theorem State.countDrop_rest (s : State) (sub : Option Nat) : s.countDrop sub = { s with dict := (s.countDrop sub).dict } := by cases sub <;> rfl

theorem State.countDrop_obj (s : State) (sub : Option Nat) (k : Nat) : (s.countDrop sub).obj (Obj.subSubDropped k) =
    if sub = some k then min (s.obj (Obj.subSubDropped k) + 1) (maxOf (Obj.subSubDropped k)) else s.obj (Obj.subSubDropped k) := by
  cases sub with
  | none => rfl
  | some j =>
    have hkey : Obj.subSubDropped k = Obj.subSubDropped j ↔ some j = some k := by
      constructor
      · intro e
        have e : (0x1110 + k) * 256 + 5 = (0x1110 + j) * 256 + 5 := e
        rw [show j = k by omega]
      · intro e
        rw [Option.some.inj e]
    refine (State.obj_bump ..).trans ?_
    by_cases hj : some j = some k
    · rw [if_pos (hkey.mpr hj), if_pos hj, Option.some.inj hj]
    · rw [if_neg (mt hkey.mp hj), if_neg hj]

/-- The datagrams of a subscriber that are dropped are counted (R530). -/
theorem State.foldl_countDrop_rest (l : List (Option Nat × Bytes × Nat × Bytes)) (s : State) :
    l.foldl (fun s w => s.countDrop w.1) s = { s with dict := (l.foldl (fun s w => s.countDrop w.1) s).dict } := by
  induction l generalizing s with
  | nil => rfl
  | cons w l ih => rw [List.foldl_cons, ih, State.countDrop_rest]

theorem State.foldl_countDrop_obj (k : Nat) (l : List (Option Nat × Bytes × Nat × Bytes)) (s : State) :
    (l.foldl (fun s w => s.countDrop w.1) s).obj (Obj.subSubDropped k) = if l.countP (fun w => w.1 = some k) = 0 then s.obj (Obj.subSubDropped k)
      else min (s.obj (Obj.subSubDropped k) + l.countP (fun w => w.1 = some k)) (maxOf (Obj.subSubDropped k)) := by
  induction l generalizing s with
  | nil => rfl
  | cons w l ih =>
    rw [List.foldl_cons, ih, State.countDrop_obj, List.countP_cons]
    by_cases hw : w.1 = some k
    · simp only [hw, decide_true, if_true]
      split <;> split <;> omega
    · simp only [hw, decide_false, if_false, Bool.false_eq_true, Nat.add_zero]

/-- A request that has not been answered is repeated, three times in all (R530). -/
theorem exec_nextHopRetry {addr : Bytes} {x : NextHop} (hfind : s.hops.find? (fun y => y.addr = addr) = some x) (hopen : x.resolved = false)
    (hlate : x.since + 1000000000 ≤ s.tick) : exec (.nextHopRetry addr) s = .next (
      if x.asked < 3 then { s with hops := s.hops.map (NextHop.askedAgain addr s.tick), out := s.out ++ [.resolve addr] }
      else x.waiting.foldl (fun s w => s.countDrop w.1) { s with hops := s.hops.filter (fun y => y.addr ≠ addr) }) := by
  show execNextHopRetry addr s = _
  unfold execNextHopRetry
  rw [hfind]
  dsimp only
  rw [if_neg (by simpa [hopen] using hlate), apply_ite Host.Outcome.next]
  rfl

/-- A next hop confirmed long ago is asked for again (R530). -/
theorem exec_nextHopExpiry {addr : Bytes} {x : NextHop} (hfind : s.hops.find? (fun y => y.addr = addr) = some x) (hresolved : x.resolved = true)
    (hlate : x.since + 300000000000 ≤ s.tick) : exec (.nextHopExpiry addr) s =
      .next { s with hops := s.hops.map (NextHop.unconfirmed addr { x with resolved := false, asked := 1, since := s.tick }), out := s.out ++ [.resolve addr] } := by
  show execNextHopExpiry addr s = _
  unfold execNextHopExpiry
  rw [hfind]
  exact if_neg (by simpa [hresolved] using hlate)

theorem resolved_append_le (l : List NextHop) (addr : Bytes) (x : NextHop) :
    ((l.filter (fun y => y.addr ≠ addr) ++ [x]).filter (·.resolved)).length ≤ (l.filter (·.resolved)).length + 1 := by
  have hfirst : ((l.filter (fun y => y.addr ≠ addr)).filter (·.resolved)).length ≤ (l.filter (·.resolved)).length :=
    (List.filter_sublist.filter _).length_le
  have hlast : ([x].filter (·.resolved)).length ≤ 1 := List.length_filter_le ..
  rw [List.filter_append, List.length_append]
  omega

end

/-- Settles O47: a notification by its next hop, and a next hop by what becomes of its request. -/
theorem nextHopsAreResolvedAndNotificationsSent : Obligations.NextHopsAreResolvedAndNotificationsSent := by
  unfold Obligations.NextHopsAreResolvedAndNotificationsSent
  refine ⟨fun s k nseq n rest hqueue hup hon => ?_, fun s d x hup hfind => ?_, fun s addr x hfind => ⟨fun hopen hlate hasked => ?_, fun hopen hlate hasked => ?_,
    fun hresolved hlate => ?_⟩⟩
  · intro dest data
    obtain ⟨u, hu⟩ : ∃ u : State, u = { s with subQ := s.subQ.put k [] rest } := ⟨_, rfl⟩
    have hexec := exec_notificationSend hqueue hup hon
    rw [← hu] at hexec
    have hframe := u.originate_frame (some k) dest (s.obj (Obj.subSubPort k)) data
    refine ⟨_, hexec, ?_, fun j hj => ?_, ?_, ?_⟩
    · rw [hframe, hu]
      exact Tab.getD_put_self ..
    · rw [hframe, hu]
      exact Tab.getD_put_ne _ _ _ _ hj
    · rw [hframe, hu]
    · have hnext : u.nextHop dest = s.nextHop dest := by rw [hu]; rfl
      cases hhop : s.nextHop dest with
      | none =>
        have hdrop := (u.originate_none (hnext.trans hhop) (some k) (s.obj (Obj.subSubPort k)) data)
        dsimp only
        rw [hdrop, hu]
        exact ⟨counted_bump .., rfl⟩
      | some h =>
        have hhops : u.hops = s.hops := by rw [hu]
        dsimp only
        cases hfind : s.hops.find? (fun x => x.addr = h) with
        | none =>
          have hask := u.originate_ask (hnext.trans hhop) (some k) (s.obj (Obj.subSubPort k)) data (by rw [hhops, hfind])
          rw [hask, hu]
          exact ⟨fun _ _ => rfl, rfl, rfl⟩
        | some x =>
          have hknown := u.originate_known (hnext.trans hhop) (some k) (s.obj (Obj.subSubPort k)) data (by rw [hhops, hfind])
          rw [hknown, hu]
          cases hresolved : x.resolved with
          | true => exact ⟨fun _ _ => rfl, fun _ => ⟨rfl, rfl⟩⟩
          | false =>
            refine ⟨fun j hj => ?_, fun h => absurd h (by simp [hresolved])⟩
            by_cases hfull : 4 ≤ x.waiting.length
            · rw [if_neg (by simp), if_neg (Nat.not_lt.mpr hfull)]
              have hne : j ≠ Obj.subSubDropped k := by simpa [hresolved, hfull] using hj
              exact (State.obj_bump ..).trans (if_neg hne)
            · rw [if_neg (by simp), if_pos (Nat.lt_of_not_le hfull)]
              rfl
  · have hexec := exec_nextHopReply hup hfind
    have hle := resolved_append_le s.hops d.addr { x with resolved := true, since := s.tick, waiting := [] }
    exact ⟨_, hexec, rfl, rfl, fun hroom => trimHops_of_le (by omega), fun hroom => trimHops_le _ (by omega)⟩
  · refine ⟨_, (exec_nextHopRetry hfind hopen hlate).trans (congrArg _ (if_pos hasked)), rfl, ?_, fun b hb => ?_⟩
    · refine (find_map_addr (NextHop.askedAgain_addr addr s.tick) addr).trans ?_
      rw [hfind]
      exact congrArg some (if_pos (by simpa using List.find?_some hfind))
    · exact find_map_addr_of_eq (NextHop.askedAgain_addr addr s.tick) fun y hy => if_neg (by rw [hy]; exact hb)
  · have hexec := (exec_nextHopRetry hfind hopen hlate).trans (congrArg _ (if_neg (Nat.not_lt.mpr hasked)))
    refine ⟨_, hexec, State.foldl_countDrop_rest .., fun k hk => (State.foldl_countDrop_obj ..).trans (if_neg ?_)⟩
    obtain ⟨w, hw, hwk⟩ := List.any_eq_true.mp hk
    exact Nat.pos_iff_ne_zero.mp (List.countP_pos_iff.mpr ⟨w, hw, hwk⟩)
  · have haddr : x.addr = addr := by simpa using List.find?_some hfind
    have hsame := NextHop.unconfirmed_addr (x := { x with resolved := false, asked := 1, since := s.tick }) haddr
    refine ⟨_, exec_nextHopExpiry hfind hresolved hlate, rfl, ?_, fun b hb => ?_⟩
    · refine (find_map_addr hsame addr).trans ?_
      rw [hfind]
      exact congrArg some (if_pos haddr)
    · exact find_map_addr_of_eq hsame fun y hy => if_neg (by rw [hy]; exact hb)

end Sys2Proof.Machine

namespace Sys2Proof.Machine

/-! Writes of long byte strings: in a WRITE where they fit a packet, else by the SEG_END of the transfer that has brought them (R525). -/

theorem crcBit_lt {poly c : Nat} (hpoly : poly < 2 ^ 32) (hc : c < 2 ^ 32) : crcBit poly c < 2 ^ 32 := by
  unfold crcBit
  split
  · exact Nat.xor_lt_two_pow (by omega) hpoly
  · omega

theorem crc32_lt (b : Bytes) : crc32 b < 2 ^ 32 := by
  have hbyte {c : Nat} (hc : c < 2 ^ 32) (x : Byte) : crcByte 0xEDB88320 c x < 2 ^ 32 := by
    have hx : x.toNat < 2 ^ 32 := lt_of_lt_of_le x.isLt (by decide)
    have hbit {c : Nat} (hc : c < 2 ^ 32) : crcBit 0xEDB88320 c < 2 ^ 32 := crcBit_lt (by decide) hc
    exact hbit (hbit (hbit (hbit (hbit (hbit (hbit (hbit (Nat.xor_lt_two_pow hc hx))))))))
  have hrun : crc32Run 0xFFFFFFFF b < 2 ^ 32 := by
    unfold crc32Run
    exact List.foldlRecOn (motive := fun c => c < 2 ^ 32) b (crcByte 0xEDB88320) (by decide) fun c hc x _ => hbyte hc x
  exact Nat.xor_lt_two_pow hrun (by decide)

/-- The header of a SEG_END, as its sixteen bytes. -/
def segEndHead (tag flags n : Nat) : Bytes := le 1 opSegEnd ++ le 1 1 ++ le 1 flags ++ [0] ++ le 2 n ++ [0, 0] ++ le 4 tag ++ zeros 4

/-- The body of a SEG_END. -/
def segEndBody (c : BytesCmd) (xfer : Nat) : Bytes := le 2 xfer ++ ([0, 0] ++ le 4 (crc32 c.value))

theorem segEndPacket_eq (c : BytesCmd) (xfer : Nat) :
    segEndPacket c xfer = segEndHead c.tag c.flags (24 + c.trailer.length) ++ (segEndBody c xfer ++ c.trailer) := by
  simp [segEndPacket, segEndHead, segEndBody, List.append_assoc]

theorem segEndBody_fields {c : BytesCmd} {xfer : Nat} (hxfer : xfer < 65536) : fieldAt (segEndBody c xfer) 0 2 = xfer
    ∧ fieldAt (segEndBody c xfer) 2 2 = 0 ∧ fieldAt (segEndBody c xfer) 4 4 = crc32 c.value := by
  refine ⟨(fieldAt_le ..).trans (Nat.mod_eq_of_lt hxfer), ?_, ?_⟩
  · rw [segEndBody, fieldAt_append _ _ _ _ (by simp)]
    simp [fieldAt, slice, ofLe, zeros]
  · rw [segEndBody, fieldAt_append _ _ _ _ (by simp), fieldAt_append _ _ _ _ (by simp)]
    have h := fieldAt_le 4 (crc32 c.value) []
    rw [List.append_nil] at h
    simpa using h.trans (Nat.mod_eq_of_lt (crc32_lt c.value))

/-- What the check of R502 reads from the packet of a SEG_END that passes it. -/
theorem parse_segEndPacket {port xfer : Nat} {c : BytesCmd} {p : Pkt} (ht : Trailed c.flags c.trailer) (h : parsePkt port (segEndPacket c xfer) = some p) :
    p.flags = c.flags ∧ p.body = segEndBody c xfer := by
  obtain ⟨hflags, htrailer⟩ := ht
  have hhead : (segEndHead c.tag c.flags (24 + c.trailer.length)).length = 16 := by simp [segEndHead]
  have hlen : (segEndPacket c xfer).length - 16 - (if bit c.flags 1 then 32 else 0) = (segEndBody c xfer).length := by
    rw [segEndPacket_eq, ← htrailer]
    simp only [List.length_append, hhead]
    omega
  have hfield : fieldAt (segEndPacket c xfer) 2 1 = c.flags := by
    rw [segEndPacket_eq, fieldAt_head _ _ _ _ (by omega)]
    have hmod : c.flags % 256 = c.flags := Nat.mod_eq_of_lt (by omega)
    simp [segEndHead, fieldAt, slice, le, ofLe, zeros, hmod]
  have hbody : ((segEndPacket c xfer).drop 16).take (segEndBody c xfer).length = segEndBody c xfer := by
    rw [segEndPacket_eq, List.drop_left' hhead, List.take_left]
  unfold parsePkt at h
  simp only [hfield, hlen, hbody] at h
  split at h
  · cases h
  · cases h
    exact ⟨rfl, rfl⟩

section
variable {s s1 s2 : State} {c : BytesCmd} {a : Accepted} {k : Nat} {d : ObjDef} {o : ObjOut} {wt : Option Wait}

/-- A taken write of a byte string of any length is its command of one entry. -/
theorem WritesLong.writeLong_eq (h : WritesLong s c k s1 a) (hk : k < 2 ^ 24) :
    a.iss = c.iss ∧ a.pkt.flags = c.flags ∧ s1.Alone ∧ Writable s1 k ∧ ∃ byTransfer, s.writeLong c k = s1.writeCmd a byTransfer [(k, c.value)] := by
  unfold WritesLong at h
  unfold State.writeLong
  split at h
  · next hfit =>
    rw [if_pos hfit]
    obtain ⟨htrailed, hlen, htaken, halone, hwritable⟩ := h
    obtain ⟨hiss, hflags, hentries⟩ := State.taking_write htrailed hk (by omega) htaken
    exact ⟨hiss, hflags, halone, hwritable, false, by rw [State.writeByt, State.packet_taking _ htaken, hentries]⟩
  · next hlong =>
    rw [if_neg hlong]
    obtain ⟨x, s0, htrailed, hwhole, hxfer, htaken, hfound, rfl, halone, hwritable⟩ := h
    obtain ⟨hiss, hparse, -⟩ := State.taking_some htaken
    obtain ⟨hflags, hbody⟩ := parse_segEndPacket htrailed hparse
    obtain ⟨hnumber, hzero, hcrc⟩ := segEndBody_fields (c := c) hxfer
    have hx := List.find?_some hwhole
    simp only [decide_eq_true_eq] at hx
    obtain ⟨hkey, -, htotal, hdata⟩ := hx
    refine ⟨hiss, hflags, halone, hwritable, true, ?_⟩
    rw [hwhole]
    dsimp only
    rw [State.packet_taking _ htaken, State.segEnd_eq (x := x) (by rw [hiss, hbody, hnumber]; exact hfound) (by rw [hbody]; exact hzero), if_pos, hkey, hdata]
    rw [hbody, hcrc, hdata, htotal]
    exact ⟨rfl, rfl⟩

/-- One write of one byte string of any length, whatever its action comes to. -/
theorem WritesLong.ends (h : WritesLong s c k s1 a) (hk : k < 2 ^ 24) (hst : isStaged k = false) (hp : pairPartner k = none) (hf : findObj k = some d)
    (ht : d.ty.bytes = true) (hchk : s1.checkEntry k c.value = okOut k (.byt c.value))
    (hact : s1.act c.iss k (.byt c.value) (s1.tick + 1) = (s2, o, wt)) (ho : o.status ≠ stPairPending) :
    Lands s1 (.next (s.writeLong c k)) (s1.endedOr c.flags a (o.refusedWith (.byt c.value)) s2 wt) := by
  obtain ⟨hiss, hflags, halone, -, byTransfer, hwrite⟩ := h.writeLong_eq hk
  have := State.writeCmd_one (a := a) (byTransfer := byTransfer) halone hst hp (by rw [hchk]; rfl) (by rw [hchk]; rfl)
    (State.checkEntry_key s1 _ _) (hiss ▸ hact) ho
  dsimp only at this
  rw [hchk, ObjOut.after_ok, writtenVal_byt hf ht, hflags] at this
  rw [hwrite]
  exact this

end

end Sys2Proof.Machine

namespace Sys2Proof.Machine

/-! Service cores: the write lock and the resets (R606 to R610). -/

section
variable {s : State}

/-- A running core's request waits (R606). -/
theorem exec_lockRequest {c : Nat} (p : Bytes) (hc : c < coresOf s.otp.variant) (hruns : s.obj (Obj.coreState c) = 2)
    (hwaits : ∀ e ∈ s.lock.waiting, e.1 ≠ c) (hholds : s.lock.holder ≠ some c) :
    exec (.lockRequest c p) s = .next (s.setLock { s.lock with waiting := s.lock.waiting ++ [(c, p)] }) := by
  refine if_neg ?_
  simp only [not_or, Nat.not_le]
  exact ⟨hc, not_not.mpr hruns, by simpa using fun b h => hwaits (c, b) h rfl, hholds⟩

/-- The first that passes a test passes a further one, and so is the first that passes both. -/
theorem find_and_of_find {α : Type} {p q : α → Bool} {l : List α} {x : α} (h : l.find? p = some x) (hq : q x = true) :
    l.find? (fun y => p y && q y) = some x := by
  obtain ⟨hx, front, back, rfl, hfront⟩ := List.find?_eq_some_iff_append.mp h
  exact List.find?_eq_some_iff_append.mpr ⟨by simp [hx, hq], front, back, rfl, fun y hy => by simp [Bool.not_eq_true' _ ▸ hfront y hy]⟩

/-- The request of a core whose packet fits the free stages (R651). -/
def State.lockRequestOf (s : State) (d : Nat) : Option (Nat × Bytes) := s.lock.waiting.find? (fun e =>
  e.1 = (s.lock.last + d) % 4 && min 32 (ceilDiv (fieldAt e.2 4 2) 8) ≤ 32 - s.hoopHeld 2)

theorem State.lockNext_findSome (s : State) : s.lockNext = [1, 2, 3, 4].findSome? s.lockRequestOf := List.head?_filterMap ..

/-- The first requester after the last holder whose packet fits (R606, R651). -/
theorem State.lockNext_eq {c d : Nat} {p : Bytes} (hd : d < 4) (hc : c = (s.lock.last + 1 + d) % 4)
    (hfind : s.lock.waiting.find? (fun e => e.1 = c) = some (c, p)) (hfits : min 32 (ceilDiv (fieldAt p 4 2) 8) + s.hoopHeld 2 ≤ 32)
    (hfirst : ∀ j < d, ∀ e ∈ s.lock.waiting, e.1 ≠ (s.lock.last + 1 + j) % 4) : s.lockNext = some (c, p) := by
  have hnone (j : Nat) (hj : j < d) : s.lockRequestOf (1 + j) = none := by
    refine List.find?_eq_none.mpr fun e he => ?_
    have hne := hfirst j hj e he
    rw [← Nat.add_assoc]
    simp [hne]
  have hsome : s.lockRequestOf (1 + d) = some (c, p) := by
    unfold State.lockRequestOf
    rw [← Nat.add_assoc, ← hc]
    exact find_and_of_find hfind (decide_eq_true (by dsimp only; omega))
  rw [State.lockNext_findSome]
  match d, hd with
  | 0, _ => simp [hsome]
  | 1, _ => simp [hnone 0, hsome]
  | 2, _ => simp [hnone 0, hnone 1, hsome]
  | 3, _ => simp [hnone 0, hnone 1, hnone 2, hsome]

/-- A free lock is granted (R606). -/
theorem State.lockTick_granted {u c : Nat} {p : Bytes} (hfree : s.lock.holder = none) (hlate : s.lock.freed < u) (hnext : s.lockNext = some (c, p)) :
    s.lockTick u = s.setLock { s.lock with holder := some c, data := p, start := u, last := c, waiting := s.lock.waiting.filter (fun e => e.1 ≠ c) } := by
  unfold State.lockTick
  simp only [hfree]
  rw [if_neg (by simp [hlate]), hnext]

/-- What the lock's break leaves unchanged (R607, R610). -/
theorem State.exists_breakLock (s : State) (t : Tick) : ∃ u : State, u = s.breakLock t
    ∧ u = { s with dict := u.dict, lock := { s.lock with holder := none, data := [], freed := t } } ∧ SameObjs s u [Obj.hoopCntRewinds 2] := by
  refine ⟨_, rfl, ?_, fun k hk => ?_⟩
  · unfold State.breakLock
    split <;> rfl
  · unfold State.breakLock
    split
    · rfl
    · exact (State.obj_bump ..).trans (if_neg (by simpa using hk))

theorem State.breakLock_rewound {t : Tick} (hdata : s.lock.data ≠ []) (hlate : s.lock.start < t) : Counted s (s.breakLock t) (Obj.hoopCntRewinds 2) 1 := by
  unfold State.breakLock
  rw [if_neg (by simp [hdata, hlate])]
  exact counted_bump ..

/-- The lock is taken from a holder that writes nothing (R607). -/
theorem exec_lockTimeout {c : Nat} (hholds : s.lock.holder = some c) (hopen : wholePacket s.lock.data = false)
    (hlate : s.lock.start + hoopWords s.lock.data + 1024 ≤ s.tick + 1) :
    exec .lockTimeout s = .next ((s.breakLock (s.tick + 1)).bump (Obj.coreLockTimeouts c) 1) := by
  show execLockTimeout s = _
  unfold execLockTimeout
  rw [hholds]
  exact if_neg (not_or.mpr ⟨by simp [hopen], Nat.not_lt.mpr hlate⟩)

/-! Core resets (R609, R610). -/

/-- What the scratchpad of a core held is gone (R610). -/
theorem State.exists_forget (s : State) (c : Nat) : ∃ h g x, s.forget c = { s with health := h, sigs := g, streams := x } := by
  unfold State.forget
  dsimp only
  split_ifs <;> exact ⟨_, _, _, rfl⟩

/-- The reset of a core (R401, R610). -/
structure CoreReset (s t : State) (c kind state : Nat) (at_ : Tick) : Prop where
  state : t.obj (Obj.coreState c) = state
  kind : t.obj (Obj.coreLastReset c) = kind
  counted : Counted s t (Obj.coreResets c) 1
  objs : SameObjs s t [Obj.coreState c, Obj.coreLastReset c, Obj.coreResets c, Obj.hoopCntRewinds 2]
  holder : t.lock.holder ≠ some c
  waiting : ∀ e ∈ t.lock.waiting, e.1 ≠ c
  transfers : ∀ x ∈ t.transfers, x.iss.port = 2 → x.iss.core ≠ c
  staging : (t.port 2).staging = (s.port 2).staging.filter (fun e => e.core ≠ c)
  cmm : t.cmm = { s.cmm with gone := s.cmm.gone ++ [(0x48 + c, at_)] }
  cores : t.cores = s.cores
  out : t.out = s.out
  hoop : t.hoop = s.hoop
  flash : t.flash = if c = 0 then { s.flash with applying := none } else s.flash
  otp : t.otp = s.otp

/-- The lock of a core that is reset: it holds it no more, and its requests are gone (R610). -/
def State.unlocked (s : State) (c : Nat) (t : Tick) : State :=
  let u := if s.lock.holder = some c then s.breakLock t else s
  u.setLock { u.lock with waiting := u.lock.waiting.filter (fun e => e.1 ≠ c) }

theorem State.unlocked_spec (s : State) (c : Nat) (t : Tick) : ∃ u : State, u = s.unlocked c t ∧ u = { s with dict := u.dict, lock := u.lock }
    ∧ SameObjs s u [Obj.hoopCntRewinds 2] ∧ u.lock.holder ≠ some c ∧ ∀ e ∈ u.lock.waiting, e.1 ≠ c := by
  refine ⟨_, rfl, ?_⟩
  obtain ⟨v, hv, hrest, hobjs⟩ := s.exists_breakLock t
  unfold State.unlocked
  split
  · rw [← hv]
    refine ⟨?_, hobjs, ?_, fun e he => by simpa using (List.mem_filter.mp he).2⟩
    · rw [hrest]
      rfl
    · rw [hrest]
      simp [State.setLock]
  · next h => exact ⟨rfl, fun _ _ => rfl, h, fun e he => by simpa using (List.mem_filter.mp he).2⟩

/-- Is an issuer the core? -/
def isCore (c : Nat) (i : Issuer) : Bool := i.port == 2 && i.core == c

/-- What a core that is reset had staged, sent and opened (R610). -/
def State.coreEmptied (s : State) (c : Nat) : State :=
  ((s.mute (isCore c)).setPort 2 { (s.mute (isCore c)).port 2 with staging := (s.port 2).staging.filter (fun e => e.core ≠ c) }).dropTransfers (isCore c)

theorem State.resetCore_eq (s : State) (c kind state : Nat) (t : Tick) : s.resetCore c kind state t =
    (((((if c = 0 then { s.unlocked c t with flash := { (s.unlocked c t).flash with applying := none } } else s.unlocked c t).coreEmptied c).resetHolder
      (0x48 + c) t).forget c).bump (Obj.coreResets c) 1).setObjs [(Obj.coreState c, state), (Obj.coreLastReset c, kind)] := by
  unfold State.resetCore
  rfl

theorem State.resetCore_spec (s : State) {c : Nat} (hc : c < 4) (kind state : Nat) (t : Tick) : CoreReset s (s.resetCore c kind state t) c kind state t := by
  obtain ⟨u, hu, hrest, hobjs, hholder, hwaiting⟩ := s.unlocked_spec c t
  have heq := s.resetCore_eq c kind state t
  rw [← hu] at heq
  have hflash : (if c = 0 then { u with flash := { u.flash with applying := none } } else u)
      = { u with flash := if c = 0 then { u.flash with applying := none } else u.flash } := by split <;> rfl
  obtain ⟨h, g, x, hforget⟩ := (({ u with flash := if c = 0 then { u.flash with applying := none } else u.flash } : State).coreEmptied c |>.resetHolder
    (0x48 + c) t).exists_forget c
  rw [hflash, hforget] at heq
  rw [heq]
  have hport : (u.port 2) = s.port 2 := by rw [hrest]; rfl
  have hkeys : Obj.coreState c ≠ Obj.coreLastReset c ∧ Obj.coreResets c ≠ Obj.coreState c ∧ Obj.coreResets c ≠ Obj.coreLastReset c := by
    simp [Obj.coreState, Obj.coreLastReset, Obj.coreResets]
  obtain ⟨hstate, hresets, hresets'⟩ := hkeys
  have hother : Obj.coreResets c ≠ Obj.hoopCntRewinds 2 := by
    show (0x5A10 + c) * 256 + 4 ≠ (0x6600 + 2) * 256 + 3
    omega
  constructor
  case state => exact State.obj_setObjs_head _ _ (by simpa using hstate)
  case kind => exact State.obj_setObj_self ..
  case counted =>
    rw [Counted, State.obj_setObjs_ne _ (by simp [hresets, hresets'])]
    exact (counted_bump ..).trans (by rw [← hobjs (Obj.coreResets c) (by simpa using hother)]; rfl)
  case objs =>
    intro k hk
    obtain ⟨hk1, hk2, hk3, hk4⟩ : k ≠ Obj.coreState c ∧ k ≠ Obj.coreLastReset c ∧ k ≠ Obj.coreResets c ∧ k ≠ Obj.hoopCntRewinds 2 := by simpa using hk
    rw [State.obj_setObjs_ne _ (by simp [hk1, hk2]), State.obj_bump, if_neg hk3]
    exact hobjs k (by simpa using hk4)
  all_goals rw [State.setObjs_rest]
  case holder => exact hholder
  case waiting => exact hwaiting
  case transfers =>
    intro y hy hport2 hcore
    have hmine := (List.mem_filter.mp hy).2
    simp [isCore, hport2, hcore] at hmine
  case staging =>
    have hset := State.port_setPort (s := State.mute { u with flash := if c = 0 then { u.flash with applying := none } else u.flash } (isCore c)) 2
      { (State.mute { u with flash := if c = 0 then { u.flash with applying := none } else u.flash } (isCore c)).port 2 with
        staging := (u.port 2).staging.filter (fun e => e.core ≠ c) } 2
    rw [if_pos rfl] at hset
    exact (congrArg PortState.staging hset).trans (by rw [hport])
  case cmm =>
    show { u.cmm with gone := u.cmm.gone ++ [(0x48 + c, t)] } = _
    rw [hrest]
  case cores =>
    show u.cores = _
    rw [hrest]
  case out =>
    show u.out = _
    rw [hrest]
  case hoop =>
    show u.hoop = _
    rw [hrest]
  case flash =>
    show (if c = 0 then { u.flash with applying := none } else u.flash) = _
    rw [hrest]
  case otp =>
    show u.otp = _
    rw [hrest]

/-- The third reset by watchdog or fault within 60 s leaves the core in FAULT (R609). -/
theorem exec_coreFaults {c kind : Nat} {r : Instr} (hr : (kind, r) ∈ [(2, Instr.watchdogExpiry c), (3, .coreFault c)]) (hlives : s.coreLives c = true) :
    exec r s = .next (s.faultCore c kind (s.tick + 1)) := by
  simp only [List.mem_cons, List.not_mem_nil, or_false, Prod.mk.injEq] at hr
  obtain ⟨rfl, rfl⟩ | ⟨rfl, rfl⟩ := hr
  · exact if_pos hlives
  · exact if_pos hlives

theorem coresOf_le (variant : Nat) : coresOf variant ≤ 4 := by
  unfold coresOf
  split <;> omega

theorem boolAction_coreReset {n : Nat} (hn : n < 4) : BoolAction (Obj.coreReset n) := by
  obtain ⟨hkey, hpair, hrow⟩ :=
    (by decide : ∀ n < 4, Obj.coreReset n < 2 ^ 24 ∧ pairPartner (Obj.coreReset n) = none
      ∧ findObj (Obj.coreReset n) = some ⟨0x5A10, 4, 0x02, 1, .bool, .wo, true, .any, 0, true⟩) n hn
  exact ⟨hkey, hpair, _, hrow, rfl, rfl⟩

/-! The leases of a core that was reset (R401). -/

/-- Leases go, and none comes. -/
def LeasesGo (s t : State) : Prop := ∀ i l, t.cmm.leases.find i = some l → s.cmm.leases.find i = some l

theorem State.revoke_goes (s : State) (id : Nat) : LeasesGo s (s.revoke id) := by
  intro i l hi
  unfold State.revoke at hi
  split at hi
  · next m hm =>
    have hended := State.endLease_ended hm m.expiryFree true
    by_cases hid : i = id % 65536
    · rw [hid, hended.gone] at hi
      cases hi
    · rwa [← hended.leases i hid]
  · exact hi

theorem State.foldl_revoke_goes (l : List (Nat × Lease)) (s : State) : LeasesGo s (l.foldl (fun s e => s.revoke (65536 * e.2.gen + e.1)) s) :=
  List.foldlRecOn (motive := fun t => LeasesGo s t) l _ (fun _ _ h => h) fun _ ht _ _ i m hm => ht i m (State.revoke_goes _ _ i m hm)

/-- The leases of a holder go (R401). -/
theorem State.revokeHolder_gone (s : State) (h : Nat) {i : Nat} {l : Lease} (hi : i < 65536) (hl : (s.revokeHolder h).cmm.leases.find i = some l) :
    l.holder ≠ h := by
  intro hholder
  have hbefore := State.foldl_revoke_goes _ s i l hl
  have hmem : (i, l) ∈ s.cmm.leases.filter (fun e => e.2.holder = h) := List.mem_filter.mpr ⟨Tab.mem_of_find hbefore, by simpa using hholder⟩
  obtain ⟨front, back, hsplit⟩ := List.append_of_mem hmem
  unfold State.revokeHolder at hl
  rw [hsplit, List.foldl_append, List.foldl_cons] at hl
  have hafter := State.foldl_revoke_goes back _ i l hl
  have hfound := State.revoke_goes _ _ i l hafter
  have hid : Cmm.leaseOf (State.cmm (front.foldl (fun s e => s.revoke (65536 * e.2.gen + e.1)) s)) (65536 * l.gen + i) = some l := by
    rw [Cmm.leaseOf_eq_some, leaseId_index hi, leaseId_gen hi]
    exact ⟨hfound, rfl⟩
  rw [State.revoke, hid] at hafter
  have hended := State.endLease_ended hid l.expiryFree true
  have hgone := hended.gone
  rw [leaseId_index hi] at hgone
  exact absurd (hgone.symm.trans hafter) (by simp)

theorem State.revokeHolder_goes (s : State) (h : Nat) : LeasesGo s (s.revokeHolder h) := State.foldl_revoke_goes _ s

/-- In the tick after its reset a holder has no lease (R401). -/
theorem State.revokeGone_gone {u h at_ i : Nat} {l : Lease} (hgone : (h, at_) ∈ s.cmm.gone) (hlate : at_ < u) (hi : i < 65536)
    (hl : (s.revokeGone u).cmm.leases.find i = some l) : l.holder ≠ h := by
  have hmem : (h, at_) ∈ s.cmm.gone.filter (fun e => e.2 < u) := List.mem_filter.mpr ⟨hgone, by simpa using hlate⟩
  unfold State.revokeGone at hl
  refine foldl_reaches (Q := fun t : State => ∀ l, t.cmm.leases.find i = some l → l.holder ≠ h) hmem ?_ ?_ _ l hl
  · exact fun t l hl => t.revokeHolder_gone h hi hl
  · exact fun t e ht l hl => ht l (t.revokeHolder_goes e.1 i l hl)

/-! The services of a core that starts (R605, R610). -/

/-- The STATE object of a service's entry. -/
def IsServiceState (k : Key) : Prop := ∃ sv e, 1 ≤ sv ∧ sv ≤ 4 ∧ e < (serviceBase sv).1 ∧ k = serviceState sv e

/-- Services have set their entries' STATE, and reported (R605). -/
structure ServicesSet (s t : State) : Prop where
  flash : t.flash = s.flash
  doms : t.doms = s.doms
  sigs : t.sigs = s.sigs
  objs : ∀ k, reportKey k = false → ¬ IsServiceState k → t.obj k = s.obj k

namespace ServicesSet

variable {s t : State}

theorem refl (s : State) : ServicesSet s s := ⟨rfl, rfl, rfl, fun _ _ _ => rfl⟩

theorem trans {u : State} (h : ServicesSet s t) (g : ServicesSet t u) : ServicesSet s u :=
  ⟨g.flash.trans h.flash, g.doms.trans h.doms, g.sigs.trans h.sigs, fun k hk hs => (g.objs k hk hs).trans (h.objs k hk hs)⟩

theorem set (h : ServicesSet s t) {k : Key} (hk : IsServiceState k) (v : Nat) : ServicesSet s (t.setObj k v) :=
  h.trans ⟨rfl, rfl, rfl, fun _ _ hj => State.obj_setObj_ne _ _ fun e => hj (e ▸ hk)⟩

theorem note (h : ServicesSet s t) (sv e event data : Nat) (u : Tick) : ServicesSet s (t.serviceNote sv e event data u) :=
  have hreport := (OnlyReported.refl t).notify 13 e (serviceDetail sv event data) u
  h.trans ⟨hreport.flash, hreport.doms, hreport.sigs, fun k hk _ => hreport.objs k hk⟩

theorem foldl {α : Type} {f : State → α → State} {l : List α} (hf : ∀ v, ServicesSet s v → ∀ a ∈ l, ServicesSet s (f v a)) (h : ServicesSet s t) :
    ServicesSet s (l.foldl f t) := List.foldlRecOn l f h hf

end ServicesSet

theorem State.checkService_set {sv k : Nat} (hlo : 1 ≤ sv) (hhi : sv ≤ 4) (hk : k < (serviceBase sv).1) (enabling : Bool) (t : Tick) :
    ServicesSet s (s.checkService sv k enabling t) := by
  have hstate : IsServiceState (serviceState sv k) := ⟨sv, k, hlo, hhi, hk, rfl⟩
  unfold State.checkService
  extract_lets st u v w
  have hu : ServicesSet s u := by
    simp only [u]
    split
    · exact ⟨rfl, rfl, rfl, fun _ _ _ => rfl⟩
    · exact .refl s
  have hv : ServicesSet s v := by
    simp only [v]
    split
    · exact hu.trans ⟨rfl, rfl, rfl, fun _ _ _ => rfl⟩
    · exact hu
  have hw : ServicesSet s w := by
    simp only [w]
    split
    · exact .refl s
    · exact (ServicesSet.refl s).note ..
  split
  · exact (ServicesSet.refl s).set hstate 0
  · split
    · split
      · exact hv
      · exact hv.set hstate 1
    · exact hw.set hstate 2

theorem State.startServices_set (s : State) (c : Nat) (t : Tick) : ServicesSet s (s.startServices c t) := by
  unfold State.startServices
  refine ServicesSet.foldl (fun u hu sv hsv => ?_) (.refl s)
  have hsv := mem_upFrom.mp hsv
  split
  · exact hu
  · refine ServicesSet.foldl (fun v hv k hk => ?_) hu
    split
    · exact hv.trans (State.checkService_set hsv.1 (by omega) (mem_below.mp hk) _ _)
    · exact hv

/-- A core that has booted runs, and its services with it (R610). -/
theorem exec_coreBooted {c : Nat} (hc : c < coresOf s.otp.variant) (hboots : s.obj (Obj.coreState c) = 1) (hfw : s.obj Obj.fwFwState = 2) :
    exec (.coreBooted c) s = .next ((s.setObj (Obj.coreState c) 2).startServices c s.tick) := if_pos ⟨hc, hboots, hfw⟩

/-- Objects of different index in their instance differ. -/
theorem key_ne_of_index {m n i j : Nat} (hi : i < 256) (hj : j < 256) (hij : i ≠ j) : m * 256 + i ≠ n * 256 + j := by
  omega

/-- Objects of the same index of different instances differ. -/
theorem key_ne_of_instance {m n i : Nat} (hmn : m ≠ n) : m * 256 + i ≠ n * 256 + i := by
  omega

/-- STATE of a core is of no service, and no report. -/
theorem coreState_apart {c : Nat} (hc : c < 4) : reportKey (Obj.coreState c) = false ∧ ¬ IsServiceState (Obj.coreState c) := by
  refine ⟨by revert c; decide +kernel, ?_⟩
  rintro ⟨sv, e, hlo, hhi, he, heq⟩
  exact key_ne_of_index (by decide) (by decide) (by decide) heq

end

/-- Settles O48: the lock's three rows, the two ways a core is reset, the leases that go, and the boot. -/
theorem coresShareTheLockAndAreReset : Obligations.CoresShareTheLockAndAreReset := by
  unfold Obligations.CoresShareTheLockAndAreReset
  refine ⟨fun s c p hc hruns hwaits hholds => exec_lockRequest p hc hruns hwaits hholds,
    fun s u c d p hfree hlate hd hc hfind hfits hfirst => ?_, fun s c hc hholds hopen hlate => ?_, fun s s1 c n a hn hw hv => ?_,
    fun s c kind r hr hlives => ?_, fun s u h at_ i l hgone hlate hi hl => State.revokeGone_gone hgone hlate hi hl, fun s c hc hboots hfw => ?_⟩
  · exact ⟨_, rfl, by rw [State.lockTick_granted hfree hlate (State.lockNext_eq hd hc hfind hfits hfirst)]; exact ⟨rfl, rfl, rfl, rfl, rfl, rfl⟩⟩
  · obtain ⟨u, hu, hrest, hobjs⟩ := s.exists_breakLock (s.tick + 1)
    have hkey : Obj.coreLockTimeouts c ≠ Obj.hoopCntRewinds 2 := by
      show (0x5A10 + c) * 256 + 6 ≠ (0x6600 + 2) * 256 + 3
      omega
    rw [exec_lockTimeout hholds hopen hlate, ← hu]
    refine ⟨_, rfl, ?_, ?_, ?_, fun k hk => ?_, fun hdata => ?_⟩
    · rw [hrest]
      rfl
    · rw [hrest]
      rfl
    · exact (counted_bump ..).trans (by rw [hobjs _ (by simpa using hkey)])
    · obtain ⟨hk1, hk2⟩ : k ≠ Obj.coreLockTimeouts c ∧ k ≠ Obj.hoopCntRewinds 2 := by simpa using hk
      rw [State.obj_bump, if_neg hk1, hobjs k (by simpa using hk2)]
    · rw [Counted, State.obj_bump, if_neg (Ne.symm hkey), hu]
      exact State.breakLock_rewound hdata
        ((Nat.lt_add_of_pos_right (by decide : 0 < 1024)).trans_le ((Nat.add_le_add_right (Nat.le_add_right _ _) _).trans hlate))
  · have hexec : exec (.coreReset c n) s = .next (s.writeNum c (Obj.coreReset n) 1) := by
      show Host.Outcome.next (s.writeNum c (Obj.coreReset (n % 4)) c.value) = _
      rw [Nat.mod_eq_of_lt hn, hv]
    have hreset := ({ s1 with cores := s1.cores.put n {} {} } : State).resetCore_spec hn 1 s1.bootState (s1.tick + 1)
    rw [hexec]
    refine ⟨_, hw.boolAction_ok (boolAction_coreReset hn) (act_coreReset (h := hn) ..), hreset.state, hreset.kind, hreset.counted, ?_, fun m hm => ?_,
      fun m hm4 hm => ?_, hreset.holder, hreset.waiting, hreset.transfers, hreset.staging, hreset.cmm⟩
    · refine (congrArg (Tab.getD · n {}) hreset.cores).trans (Tab.getD_put_self _ n ({} : CoreRun) {})
    · refine (congrArg (Tab.getD · m {}) hreset.cores).trans (Tab.getD_put_ne s1.cores ({} : CoreRun) {} {} hm)
    · refine hreset.objs _ ?_
      simp only [List.mem_cons, List.not_mem_nil, or_false, not_or]
      exact ⟨key_ne_of_instance (by simpa using hm), key_ne_of_index (by decide) (by decide) (by decide),
        key_ne_of_index (by decide) (by decide) (by decide), key_ne_of_index (by decide) (by decide) (by decide)⟩
  · intro x recent
    have hc : c < 4 := by
      simp only [State.coreLives, Bool.and_eq_true, decide_eq_true_eq] at hlives
      exact lt_of_lt_of_le hlives.1 (coresOf_le _)
    have hreset := ({ s with cores := s.cores.put c {} { faults := recent, latched := decide (3 ≤ recent.length) } } : State).resetCore_spec hc kind
      (if decide (3 ≤ recent.length) then 3 else s.bootState) (s.tick + 1)
    refine ⟨_, exec_coreFaults hr hlives, ?_, ?_, hreset.kind, hreset.counted, hreset.holder, fun m hm => ?_, hreset.cmm⟩
    · refine (congrArg (Tab.getD · c {}) hreset.cores).trans (Tab.getD_put_self ..)
    · refine hreset.state.trans (by simp)
    · refine (congrArg (Tab.getD · m {}) hreset.cores).trans (Tab.getD_put_ne _ _ _ _ hm)
  · have hset := (s.setObj (Obj.coreState c) 2).startServices_set c s.tick
    obtain ⟨hreport, hservice⟩ := coreState_apart (lt_of_lt_of_le hc (coresOf_le _))
    refine ⟨_, exec_coreBooted hc hboots hfw, ?_, fun k hk hreportk hservicek => ?_⟩
    · exact (hset.objs _ hreport hservice).trans (State.obj_setObj_self ..)
    · refine (hset.objs k hreportk ?_).trans (State.obj_setObj_ne _ _ hk)
      rintro ⟨sv, e, hlo, hhi, he, heq⟩
      exact hservicek sv e hlo hhi he heq

end Sys2Proof.Machine

namespace Sys2Proof.Machine

/-! Firmware, flash and the configuration block (R602, R603, R609, R620 to R622). -/

section
variable {s s1 : State} {a : Accepted}

/-! The start of the cores. -/

/-- The objects that the reset of a core sets. -/
def resetKeys (c : Nat) : List Key := [Obj.coreState c, Obj.coreLastReset c, Obj.coreResets c]

/-- A core's objects are not those of another core, nor is one a count of rewinds. -/
theorem resetKeys_apart {b c k : Nat} (h : b ≠ c) (hk : k ∈ resetKeys b) : k ≠ Obj.hoopCntRewinds 2 ∧ k ∉ resetKeys c := by
  have hsub : ∃ i, k = (0x5A10 + b) * 256 + i ∧ (i = 1 ∨ i = 5 ∨ i = 4) := by
    simp only [resetKeys, List.mem_cons, List.not_mem_nil, or_false] at hk
    obtain rfl | rfl | rfl := hk
    · exact ⟨1, rfl, .inl rfl⟩
    · exact ⟨5, rfl, .inr (.inl rfl)⟩
    · exact ⟨4, rfl, .inr (.inr rfl)⟩
  obtain ⟨i, rfl, hi⟩ := hsub
  have hfar (j : Nat) (hj : j < 0x20) : (0x5A10 + b) * 256 + i ≠ (0x5A10 + c) * 256 + j := by omega
  refine ⟨key_ne_of_index (by omega) (by decide) (by omega), ?_⟩
  simp only [resetKeys, List.mem_cons, List.not_mem_nil, or_false, not_or]
  exact ⟨hfar 1 (by decide), hfar 5 (by decide), hfar 4 (by decide)⟩

/-- `n` cores from `lo` on have been reset by a start (R602). -/
structure CoresStarted (s t : State) (n lo : Nat) : Prop where
  state : ∀ c, lo ≤ c → c < lo + n → t.obj (Obj.coreState c) = if (s.cores.getD c {}).latched then 3 else 1
  kind : ∀ c, lo ≤ c → c < lo + n → t.obj (Obj.coreLastReset c) = 4
  counted : ∀ c, lo ≤ c → c < lo + n → Counted s t (Obj.coreResets c) 1
  objs : ∀ k, k ≠ Obj.hoopCntRewinds 2 → (∀ c, lo ≤ c → c < lo + n → k ∉ resetKeys c) → t.obj k = s.obj k
  cores : t.cores = s.cores
  out : t.out = s.out
  hoop : t.hoop = s.hoop
  flash : t.flash = { s.flash with applying := t.flash.applying }

/-- One core's reset by a start of all. -/
def State.startCore (u : Tick) (s : State) (c : Nat) : State := s.resetCore c 4 (if (s.cores.getD c {}).latched then 3 else 1) u

theorem State.foldl_startCore (u : Tick) (n lo : Nat) (s : State) (h : lo + n ≤ 4) : CoresStarted s ((upFrom n lo).foldl (State.startCore u) s) n lo := by
  induction n generalizing s lo with
  | zero => exact ⟨fun c _ _ => by omega, fun c _ _ => by omega, fun c _ _ => by omega, fun _ _ _ => rfl, rfl, rfl, rfl, rfl⟩
  | succ n ih =>
    have hfirst : CoreReset s (s.startCore u lo) lo 4 (if (s.cores.getD lo {}).latched then 3 else 1) u := s.resetCore_spec (by omega) ..
    have hrest := ih (lo + 1) (s.startCore u lo) (by omega)
    have hkept {k : Nat} (hk : k ∈ resetKeys lo) : ((upFrom n (lo + 1)).foldl (State.startCore u) (s.startCore u lo)).obj k = (s.startCore u lo).obj k :=
      hrest.objs k (resetKeys_apart (Nat.ne_of_lt (Nat.lt_succ_self lo)) hk).1 fun c hc _ => (resetKeys_apart (by omega) hk).2
    have hother {c k : Nat} (hc : lo + 1 ≤ c) (hk : k ∈ resetKeys c) : (s.startCore u lo).obj k = s.obj k := by
      obtain ⟨hrewinds, hlo⟩ := resetKeys_apart (show c ≠ lo by omega) hk
      refine hfirst.objs k ?_
      simpa [resetKeys, hrewinds] using hlo
    rw [upFrom, List.foldl_cons]
    refine ⟨fun c hlo hhi => ?_, fun c hlo hhi => ?_, fun c hlo hhi => ?_, fun k hk hne => ?_, hrest.cores.trans hfirst.cores, hrest.out.trans hfirst.out,
      hrest.hoop.trans hfirst.hoop, ?_⟩
    · obtain rfl | hlt := hlo.eq_or_lt
      · exact (hkept (by simp [resetKeys])).trans hfirst.state
      · rw [hrest.state c hlt (by omega), hfirst.cores]
    · obtain rfl | hlt := hlo.eq_or_lt
      · exact (hkept (by simp [resetKeys])).trans hfirst.kind
      · exact hrest.kind c hlt (by omega)
    · obtain rfl | hlt := hlo.eq_or_lt
      · exact (hkept (by simp [resetKeys])).trans hfirst.counted
      · exact (hrest.counted c hlt (by omega)).trans (by rw [hother hlt (by simp [resetKeys])])
    · rw [hrest.objs k hk fun c hlo hhi => hne c (by omega) (by omega)]
      refine hfirst.objs k ?_
      simpa [resetKeys, hk] using hne lo (le_refl _) (by omega)
    · rw [hrest.flash, hfirst.flash]
      split <;> rfl

/-- A start of the cores where there is flash (R602, R652). -/
theorem State.startCores_eq (s : State) (u : Tick) (hflash : bit (s.obj Obj.devStraps) 1 = true) : ∃ t : State,
    CoresStarted (s.flushHoop 2) t (coresOf s.otp.variant) 0 ∧ (∀ k, (s.startCores u).obj k = if k = Obj.fwFwState then 1 else t.obj k)
      ∧ (s.startCores u).flash = { t.flash with checking := true, applying := none } ∧ (s.startCores u).hoop = t.hoop
      ∧ (s.startCores u).out = t.out ++ (below 4).map flashRead := by
  unfold State.startCores
  rw [if_neg (by simp [hflash])]
  refine ⟨_, State.foldl_startCore u _ 0 (s.flushHoop 2) (by have := coresOf_le s.otp.variant; omega), fun k => ?_, ?_, ?_, ?_⟩
  · rw [← State.obj_setObj]
    rfl
  all_goals rfl

/-- The flushes of HF2 are not an object of a core, nor is FW_STATE. -/
theorem startKeys_apart {c : Nat} (hc : c < 4) {k : Key} (hk : k ∈ resetKeys c) : k ≠ Obj.hoopCntFlushes 2 ∧ k ≠ Obj.fwFwState :=
  (by decide +kernel : ∀ c < 4, ∀ k ∈ resetKeys c, k ≠ Obj.hoopCntFlushes 2 ∧ k ≠ Obj.fwFwState) c hc k hk

/-- All cores have been started (R602, R652). -/
theorem State.startCores_spec (s : State) (u : Tick) (hflash : bit (s.obj Obj.devStraps) 1 = true) : (s.startCores u).obj Obj.fwFwState = 1
    ∧ (s.startCores u).flash = { s.flash with checking := true, applying := none } ∧ (s.startCores u).hoop.getD 2 [] = []
    ∧ Counted s (s.startCores u) (Obj.hoopCntFlushes 2) 1 ∧ (s.startCores u).out = s.out ++ (below 4).map flashRead
    ∧ ∀ n, n < coresOf s.otp.variant → (s.startCores u).obj (Obj.coreState n) = (if (s.cores.getD n {}).latched = true then 3 else 1)
      ∧ (s.startCores u).obj (Obj.coreLastReset n) = 4 ∧ Counted s (s.startCores u) (Obj.coreResets n) 1 := by
  obtain ⟨t, hstarted, hobjs, hrun, hhoop, hout⟩ := s.startCores_eq u hflash
  have hle := coresOf_le s.otp.variant
  obtain ⟨m, b, hflush⟩ := s.exists_flushHoop 2
  have hflushed : Counted s (s.flushHoop 2) (Obj.hoopCntFlushes 2) 1 := by
    rw [hflush]
    exact counted_bump ..
  have hsame {n : Nat} (hn : n < 4) {k : Key} (hk : k ∈ resetKeys n) : (s.flushHoop 2).obj k = s.obj k := by
    rw [hflush, State.obj_bump, if_neg (startKeys_apart hn hk).1]
    rfl
  have hkept : (s.flushHoop 2).cores = s.cores ∧ (s.flushHoop 2).out = s.out ∧ (s.flushHoop 2).flash = s.flash ∧ (s.flushHoop 2).hoop = s.hoop.put 2 [] [] := by
    rw [hflush]
    exact ⟨rfl, rfl, rfl, rfl⟩
  obtain ⟨hcores, hkeptout, hkeptflash, hkepthoop⟩ := hkept
  have hcore {n : Nat} (hn : n < 4) {k : Key} (hk : k ∈ resetKeys n) : (s.startCores u).obj k = t.obj k :=
    (hobjs k).trans (if_neg (startKeys_apart hn hk).2)
  refine ⟨(hobjs _).trans (if_pos rfl), ?_, ?_, ?_, ?_, fun n hn => ⟨?_, ?_, ?_⟩⟩
  · rw [hrun, hstarted.flash, hkeptflash]
  · rw [hhoop, hstarted.hoop, hkepthoop]
    exact Tab.getD_put_self ..
  · refine ((hobjs _).trans (if_neg (by decide))).trans ?_
    exact (hstarted.objs _ (by decide) fun c _ hc hk => (startKeys_apart (by omega) hk).1 rfl).trans hflushed
  · rw [hout, hstarted.out, hkeptout]
  · rw [hcore (n := n) (by omega) (by simp [resetKeys]), hstarted.state n (Nat.zero_le n) (by simpa using hn), hcores]
  · rw [hcore (n := n) (by omega) (by simp [resetKeys]), hstarted.kind n (Nat.zero_le n) (by simpa using hn)]
  · have hk : Obj.coreResets n ∈ resetKeys n := by simp [resetKeys]
    exact (hcore (by omega) hk).trans ((hstarted.counted n (Nat.zero_le n) (by simpa using hn)).trans (by rw [hsame (by omega) hk]))

theorem boolAction_fwRestart : BoolAction Obj.fwFwRestart where
  key := by decide
  pair := by decide
  row := ⟨⟨0x5A00, 1, 0x08, 1, .bool, .wo, true, .any, 0, true⟩, findObj_row (by decide), rfl, rfl⟩

/-! The choice of the firmware. -/

/-- STATE of a core that is not held in FAULT. -/
def State.setCore (v : Nat) (s : State) (c : Nat) : State := if (s.cores.getD c {}).latched then s else s.setObj (Obj.coreState c) v

theorem State.setCore_rest (v : Nat) (s : State) (c : Nat) : s.setCore v c = { s with dict := (s.setCore v c).dict } := by
  unfold State.setCore
  split <;> rfl

theorem State.setCore_obj (v : Nat) (s : State) (c : Nat) (k : Key) :
    (s.setCore v c).obj k = if k = Obj.coreState c then (if (s.cores.getD c {}).latched then s.obj k else v) else s.obj k := by
  unfold State.setCore
  split
  · exact (ite_self _).symm
  · exact State.obj_setObj ..

theorem coreState_inj {b c : Nat} : Obj.coreState b = Obj.coreState c ↔ b = c :=
  ⟨fun h => by
    have : (0x5A10 + b) * 256 + 1 = (0x5A10 + c) * 256 + 1 := h
    omega, fun h => h ▸ rfl⟩

theorem State.foldl_setCore (v : Nat) (l : List Nat) (s : State) : l.foldl (State.setCore v) s = { s with dict := (l.foldl (State.setCore v) s).dict }
    ∧ (∀ k, (∀ c ∈ l, k ≠ Obj.coreState c) → (l.foldl (State.setCore v) s).obj k = s.obj k)
    ∧ ∀ c ∈ l, (l.foldl (State.setCore v) s).obj (Obj.coreState c) = if (s.cores.getD c {}).latched then s.obj (Obj.coreState c) else v := by
  induction l generalizing s with
  | nil => exact ⟨rfl, fun _ _ => rfl, fun c hc => absurd hc List.not_mem_nil⟩
  | cons b l ih =>
    obtain ⟨hrest, hobjs, hcores⟩ := ih (s.setCore v b)
    have hsame : (s.setCore v b).cores = s.cores := by rw [State.setCore_rest]
    rw [List.foldl_cons]
    refine ⟨?_, fun k hk => ?_, fun c hc => ?_⟩
    · rw [hrest, State.setCore_rest]
    · obtain ⟨hb, hl⟩ := List.forall_mem_cons.mp hk
      rw [hobjs k hl, State.setCore_obj, if_neg hb]
    · by_cases hl : c ∈ l
      · rw [hcores c hl, hsame, State.setCore_obj]
        simp only [coreState_inj]
        split
        · next hlatched =>
          split
          · next h => rw [← h, if_pos hlatched]
          · rfl
        · rfl
      · obtain rfl := (List.mem_cons.mp hc).resolve_right hl
        rw [hobjs _ fun b hb h => hl (by rwa [coreState_inj.mp h]), State.setCore_obj, if_pos rfl]

/-- A core's object is none of the firmware's. -/
theorem fwKey_ne_coreState {i : Nat} (hi : i < 256) (c : Nat) : 0x5A00 * 256 + i ≠ Obj.coreState c := by
  show 0x5A00 * 256 + i ≠ (0x5A10 + c) * 256 + 1
  omega

/-- The firmware that runs, and what the check of the flash has found (R602, R620). -/
structure FirmwareIs (s t : State) (state slot version st : Nat) (gen0 gen1 : Option Nat) : Prop where
  checking : t.flash.checking = false
  gen0 : t.flash.gen0 = gen0
  gen1 : t.flash.gen1 = gen1
  state : t.obj Obj.fwFwState = state
  slot : t.obj Obj.fwFwSlot = slot
  version : t.obj Obj.fwFwVersion = version
  cores : ∀ n, n < coresOf s.otp.variant → t.obj (Obj.coreState n) = if (s.cores.getD n {}).latched then s.obj (Obj.coreState n) else st

/-- The check has been read, and the firmware set. -/
def State.checkedFirmware (s : State) (g0 g1 : Option Nat) (state slot version st : Nat) : State :=
  ((({ s with flash := { s.flash with checking := false, gen0 := g0, gen1 := g1 } } : State).setObjs
    [(Obj.fwFwState, state), (Obj.fwFwSlot, slot), (Obj.fwFwVersion, version)])) |> (below (coresOf s.otp.variant)).foldl (State.setCore st)

theorem State.checkedFirmware_is (s : State) (g0 g1 : Option Nat) (state slot version st : Nat) :
    FirmwareIs s (s.checkedFirmware g0 g1 state slot version st) state slot version st g0 g1 := by
  obtain ⟨hrest, hobjs, hcores⟩ := State.foldl_setCore st (below (coresOf s.otp.variant))
    (({ s with flash := { s.flash with checking := false, gen0 := g0, gen1 := g1 } } : State).setObjs
      [(Obj.fwFwState, state), (Obj.fwFwSlot, slot), (Obj.fwFwVersion, version)])
  constructor
  case checking => exact (congrArg (fun t => t.flash.checking) hrest).trans rfl
  case gen0 => exact (congrArg (fun t => t.flash.gen0) hrest).trans rfl
  case gen1 => exact (congrArg (fun t => t.flash.gen1) hrest).trans rfl
  case state => exact (hobjs _ (fun c _ => fwKey_ne_coreState (i := 1) (by decide) c)).trans (State.obj_setObjs_head (l := [(Obj.fwFwSlot, slot), (Obj.fwFwVersion, version)]) _ _ (by simp [Obj.fwFwState, Obj.fwFwSlot, Obj.fwFwVersion]))
  case slot => exact (hobjs _ (fun c _ => fwKey_ne_coreState (i := 2) (by decide) c)).trans (State.obj_setObjs_head (State.setObj _ Obj.fwFwState state) (l := [(Obj.fwFwVersion, version)]) _ (by simp [Obj.fwFwSlot, Obj.fwFwVersion]))
  case version => exact (hobjs _ (fun c _ => fwKey_ne_coreState (i := 3) (by decide) c)).trans (State.obj_setObj_self ..)
  case cores =>
    intro n hn
    refine (hcores n (mem_below.mpr hn)).trans ?_
    rw [State.obj_setObjs_ne _ ?_]
    · rfl
    · simp only [List.map_cons, List.map_nil, List.mem_cons, List.not_mem_nil, or_false, not_or]
      exact ⟨(fwKey_ne_coreState (i := 1) (by decide) n).symm, (fwKey_ne_coreState (i := 2) (by decide) n).symm,
        (fwKey_ne_coreState (i := 3) (by decide) n).symm⟩

/-- CONFIG_STATE is none of the firmware's. -/
theorem FirmwareIs.noBlock {t : State} {state slot version st : Nat} {g0 g1 : Option Nat} (h : FirmwareIs s t state slot version st g0 g1) (v : Nat) :
    FirmwareIs s (t.setObj Obj.fwConfigState v) state slot version st g0 g1 where
  checking := h.checking
  gen0 := h.gen0
  gen1 := h.gen1
  state := (State.obj_setObj_ne _ _ (by decide)).trans h.state
  slot := (State.obj_setObj_ne _ _ (by decide)).trans h.slot
  version := (State.obj_setObj_ne _ _ (by decide)).trans h.version
  cores n hn := (State.obj_setObj_ne _ _ (fwKey_ne_coreState (i := 7) (by decide) n).symm).trans (h.cores n hn)

theorem FirmwareIs.applies {t : State} {state slot version st : Nat} {g0 g1 : Option Nat} (h : FirmwareIs s t state slot version st g0 g1)
    (r : Option ConfigRun) : FirmwareIs s { t with flash := { t.flash with applying := r } } state slot version st g0 g1 :=
  ⟨h.checking, h.gen0, h.gen1, h.state, h.slot, h.version, h.cores⟩

/-- What a slot that is picked leads to. -/
def State.firmwarePicked (s : State) (n : Nat) (img g h : Bytes) : State :=
  let t := s.checkedFirmware (s.blockGen g) (s.blockGen h) 2 n (fieldAt img 20 4) 2
  if !bit (t.obj Obj.devStraps) 0 then t
  else
    let copy : Option Bytes := match s.blockGen g, s.blockGen h with
      | some x, some y => if x < y then some h else some g
      | some _, none => some g
      | none, some _ => some h
      | none, none => none
    match copy with
    | none => t.setObj Obj.fwConfigState 3
    | some blk => { t with flash := { t.flash with applying := some {
        left := (writeEntries (fieldAt blk 18 2) ((blk.drop 32).take (fieldAt blk 20 4))).getD [] } } }

theorem State.firmwareChosen_eq (s : State) (x y g h : Bytes) : s.firmwareChosen x y g h =
    match (if s.fwCheck x = 0 ∧ (!decide (s.fwCheck y = 0) ∨ fwRank y ≤ fwRank x) then some (0, x) else if s.fwCheck y = 0 then some (1, y) else none) with
    | none => s.checkedFirmware (s.blockGen g) (s.blockGen h) 3 255 0 0
    | some (n, img) => s.firmwarePicked n img g h := by
  unfold State.firmwareChosen
  extract_lets a b pick
  show _ = match pick with
    | none => s.checkedFirmware (s.blockGen g) (s.blockGen h) 3 255 0 0
    | some (n, img) => s.firmwarePicked n img g h
  clear_value pick
  rcases pick with _ | ⟨n, img⟩ <;> rfl

theorem State.firmwarePicked_some (s : State) (n : Nat) (img g h : Bytes) :
    FirmwareIs s (s.firmwarePicked n img g h) 2 n (fieldAt img 20 4) 2 (s.blockGen g) (s.blockGen h) := by
  have hset := s.checkedFirmware_is (s.blockGen g) (s.blockGen h) 2 n (fieldAt img 20 4) 2
  unfold State.firmwarePicked
  extract_lets t copy
  split
  · exact hset
  · clear_value copy
    cases copy with
    | none => exact hset.noBlock 3
    | some blk => exact hset.applies _

theorem State.firmwareChosen_is (s : State) (x y g h : Bytes) :
    let okX := s.fwCheck x = 0
    let okY := s.fwCheck y = 0
    FirmwareIs s (s.firmwareChosen x y g h) (if okX ∨ okY then 2 else 3) (if okX ∧ (¬okY ∨ fwRank y ≤ fwRank x) then 0 else if okY then 1 else 255)
      (if okX ∧ (¬okY ∨ fwRank y ≤ fwRank x) then fieldAt x 20 4 else if okY then fieldAt y 20 4 else 0) (if okX ∨ okY then 2 else 0)
      (s.blockGen g) (s.blockGen h) := by
  intro okX okY
  rw [State.firmwareChosen_eq]
  by_cases hX : okX ∧ (¬okY ∨ fwRank y ≤ fwRank x)
  · rw [if_pos (by simpa [okX, okY] using hX), if_pos (.inl hX.1), if_pos hX, if_pos hX, if_pos (.inl hX.1)]
    exact s.firmwarePicked_some 0 x g h
  · rw [if_neg (by simpa [okX, okY] using hX), if_neg hX, if_neg hX]
    by_cases hY : okY
    · rw [if_pos hY, if_pos (.inr hY), if_pos hY, if_pos hY, if_pos (.inr hY)]
      exact s.firmwarePicked_some 1 y g h
    · have hnone : ¬(okX ∨ okY) := fun hor => hX ⟨hor.resolve_right hY, .inl hY⟩
      rw [if_neg hY, if_neg hnone, if_neg hY, if_neg hY, if_neg hnone]
      exact s.checkedFirmware_is ..

/-! The configuration block is applied (R622). -/

section
variable {r : ConfigRun}

/-- The run over the configuration block, at another place. -/
def State.applyingAt (s : State) (r : Option ConfigRun) : State := { s with flash := { s.flash with applying := r } }

theorem State.configTick_waits (hrun : s.flash.applying = some r) (hwaits : s.coreWaits 0 = true ∨ s.obj Obj.cmmMemState = 1) : s.configTick = s := by
  unfold State.configTick
  rw [hrun]
  exact if_pos (.inr (.inr hwaits))

/-- Nothing holds SC0 from its next command. -/
structure State.ConfigGoes (s : State) (r : ConfigRun) : Prop where
  run : s.flash.applying = some r
  booted : s.booted = true
  core : s.obj (Obj.coreState 0) = 2
  free : s.coreWaits 0 = false
  trained : s.obj Obj.cmmMemState ≠ 1

theorem State.ConfigGoes.at_end (h : s.ConfigGoes r) (hleft : r.left = []) : s.configTick =
    if r.ended = true then (s.applyingAt none).setObj Obj.fwConfigState (if r.bad = true then 2 else 1)
    else (s.applyingAt (some { r with ended := true })).ownCommit 0 := by
  obtain ⟨hrun, hbooted, hcore, hfree, htrained⟩ := h
  unfold State.configTick
  rw [hrun]
  dsimp only
  rw [if_neg (by simp [hbooted, hcore, hfree, htrained]), hleft]
  rfl

theorem State.ConfigGoes.at_entry (h : s.ConfigGoes r) {e : Key × Bytes} {l : List (Key × Bytes)} (hleft : r.left = e :: l)
    (hstaged : isStaged e.1 = false) : s.configTick =
    if r.staged = true then (s.applyingAt (some { r with staged := false })).ownCommit 0
    else (s.applyingAt (some { r with left := l, bad := r.bad || decide (240 < (writeEntry e.1 e.2).length) })).ownWrites 0 [e] := by
  obtain ⟨hrun, hbooted, hcore, hfree, htrained⟩ := h
  unfold State.configTick
  rw [hrun]
  dsimp only
  rw [if_neg (by simp [hbooted, hcore, hfree, htrained]), hleft]
  dsimp only
  rw [hstaged]
  cases hs : r.staged with
  | true => rfl
  | false =>
    obtain ⟨_, _, _, _⟩ := r
    subst hs
    rfl

end

end

section
variable {s s1 : State} {c : BytesCmd} {a : Accepted}

/-! The writes of flash (R603, R621). -/

theorem findObj_flashImage : findObj Obj.fwFlashImage = some ⟨0x5A00, 1, 0x05, 1, .dom, .wo, true, .len 1 10485760, 0, true⟩ := findObj_row (by decide)

theorem findObj_flashConfig : findObj Obj.fwFlashConfig = some ⟨0x5A00, 1, 0x06, 1, .dom, .wo, true, .len 1 65536, 0, true⟩ := findObj_row (by decide)

/-- A write of FLASH_IMAGE ends as its action does. -/
theorem WritesLong.flashImage (hw : WritesLong s c Obj.fwFlashImage s1 a) (hne : c.value ≠ []) (hlen : c.value.length ≤ 10485760)
    {t : State} {o : ObjOut} {w : Option Wait} (hact : s1.flashImage c.value = (t, o, w)) (ho : o.status ≠ stPairPending) :
    Lands s1 (exec (.flashImage c) s) (s1.endedOr c.flags a (o.refusedWith (.byt c.value)) t w) := by
  obtain ⟨-, -, -, hwritable, -⟩ := hw.writeLong_eq (by decide)
  exact hw.ends (by decide) (by decide) (by decide) findObj_flashImage rfl
    (State.checkEntry_byt findObj_flashImage hwritable (by decide) rfl rfl (List.length_pos_iff.mpr hne) hlen hne) hact ho

/-- A write of FLASH_CONFIG ends as its action does. -/
theorem WritesLong.flashConfig (hw : WritesLong s c Obj.fwFlashConfig s1 a) (hne : c.value ≠ []) (hlen : c.value.length ≤ 65536)
    {t : State} {o : ObjOut} {w : Option Wait} (hact : s1.flashConfig c.value = (t, o, w)) (ho : o.status ≠ stPairPending) :
    Lands s1 (exec (.flashConfig c) s) (s1.endedOr c.flags a (o.refusedWith (.byt c.value)) t w) := by
  obtain ⟨-, -, -, hwritable, -⟩ := hw.writeLong_eq (by decide)
  exact hw.ends (by decide) (by decide) (by decide) findObj_flashConfig rfl
    (State.checkEntry_byt findObj_flashConfig hwritable (by decide) rfl rfl (List.length_pos_iff.mpr hne) hlen hne) hact ho

end

/-- Settles O49: the start, the choice of the firmware, the two writes of flash, their end, and SC0's run over the configuration block. -/
theorem firmwareIsChosenAndFlashWritten : Obligations.FirmwareIsChosenAndFlashWritten := by
  unfold Obligations.FirmwareIsChosenAndFlashWritten
  refine ⟨fun s s1 c a hw hv => ?_, fun s x y g h hcheck => ?_, fun s s1 c a hw hne hlen hflash hfree => ?_, fun s s1 c a hw hne hlen hflash hfree => ?_,
    fun s n gen l hwriting hfind => ?_, fun s r hrun hbooted hcore => ?_⟩
  · have hexec : exec (.fwRestart c) s = .next (s.writeNum c Obj.fwFwRestart 1) := by
      rw [← hv]
      rfl
    have hlands := hw.boolAction_ok boolAction_fwRestart (act_fwFwRestart (t := s1.tick + 1) (i := c.iss) (v := 1) (s := s1))
    rw [hexec]
    split
    · next hflash =>
      exact ⟨_, hlands, s1.startCores_spec (s1.tick + 1) hflash⟩
    · next hflash =>
      have hnone : s1.startCores (s1.tick + 1) = s1 := if_pos (by simpa using hflash)
      rwa [hnone] at hlands
  · have hchosen := s.firmwareChosen_is x y g h
    intro okX okY
    have hset : ServicesSet (s.firmwareChosen x y g h) ((below (coresOf (s.firmwareChosen x y g h).otp.variant)).foldl
        (fun t c => t.startServices c t.tick) (s.firmwareChosen x y g h)) :=
      ServicesSet.foldl (fun v hv c _ => hv.trans (v.startServices_set c v.tick)) (.refl _)
    have hfw {i : Nat} (hi : i < 8) : reportKey (0x5A00 * 256 + i) = false ∧ ¬ IsServiceState (0x5A00 * 256 + i) := by
      refine ⟨by revert i; decide +kernel, ?_⟩
      rintro ⟨sv, e, -, -, -, heq⟩
      exact key_ne_of_index (by omega) (by decide) (by omega) heq
    have hkept {i : Nat} (hi : i < 8) := hset.objs _ (hfw hi).1 (hfw hi).2
    refine ⟨_, if_neg (by simp [hcheck]), (congrArg Flash.checking hset.flash).trans hchosen.checking, (congrArg Flash.gen0 hset.flash).trans hchosen.gen0,
      (congrArg Flash.gen1 hset.flash).trans hchosen.gen1, (hkept (i := 1) (by decide)).trans hchosen.state,
      (hkept (i := 2) (by decide)).trans hchosen.slot, (hkept (i := 3) (by decide)).trans hchosen.version, fun n hn => ?_⟩
    obtain ⟨hreport, hservice⟩ := coreState_apart (lt_of_lt_of_le hn (coresOf_le _))
    exact (hset.objs _ hreport hservice).trans (hchosen.cores n hn)
  · intro step slot
    have heq : s1.flashImage c.value = _ := (if_neg (by simp [hflash])).trans (if_neg (by simp [hfree]))
    split
    · next hvalid =>
      rw [if_neg (by simpa using hvalid)] at heq
      have hlands := hw.flashImage hne hlen heq (show stOk ≠ stPairPending by decide)
      exact ⟨_, by rwa [State.endedOr_ok rfl rfl] at hlands, rfl⟩
    · next hbad =>
      rw [if_pos (by simpa [← not_and_or] using hbad)] at heq
      exact ⟨_, hw.flashImage hne hlen heq (by decide), rfl, State.obj_setObj_self .., fun k hk => State.obj_setObj_ne _ _ (by simpa using hk)⟩
  · intro copy
    have heq : s1.flashConfig c.value = _ := (if_neg (by simp [hflash])).trans (if_neg (by simp [hfree]))
    split
    · next hvalid =>
      rw [if_neg (by simp [hvalid])] at heq
      have hlands := hw.flashConfig hne hlen heq (show stOk ≠ stPairPending by decide)
      rw [State.endedOr_ok rfl rfl] at hlands
      refine ⟨_, hlands, ?_⟩
      simp only [copy]
      cases s1.flash.gen0 <;> cases s1.flash.gen1 <;> rfl
    · next hbad =>
      rw [if_pos (by simpa using hbad)] at heq
      exact hw.flashConfig hne hlen heq (by decide)
  · have hdeferred : s.isDeferred .flash = true :=
      List.any_eq_true.mpr ⟨_, List.mem_of_find?_eq_some hfind, by simp⟩
    have hexec : exec .flashProgrammed s = .next (({ s with flash := { s.flash with
        writing := none, gen0 := if n = 2 then some gen else s.flash.gen0, gen1 := if n = 3 then some gen else s.flash.gen1 } } : State).resolve .flash) := by
      show execFlashProgrammed s = _
      unfold execFlashProgrammed
      rw [hwriting]
      refine (if_neg (by simp [hdeferred])).trans ?_
      by_cases h2 : n = 2
      · subst h2
        rfl
      · by_cases h3 : n = 3
        · subst h3
          rfl
        · simp only [h2, h3, if_false]
    have hends (f : Flash) : ({ s with flash := f } : State).resolve .flash
        = ({ s with deferred := s.deferred.erase (.flash, l), flash := f } : State).finish l s.tick := State.resolve_found hfind
    exact ⟨_, hexec.trans (congrArg Host.Outcome.next (hends _)), rfl, rfl⟩
  · intro going
    split
    · next hwaits => exact State.configTick_waits hrun hwaits
    · next hgoes =>
      obtain ⟨hfree, htrained⟩ := not_or.mp hgoes
      have hnext : s.ConfigGoes r := ⟨hrun, hbooted, hcore, by simpa using hfree, htrained⟩
      exact ⟨hnext.at_end, fun e l => hnext.at_entry⟩

end Sys2Proof.Machine

namespace Sys2Proof.Machine

/-! The services: WATCH, FLOWHEALTH and SIGNATURE (R611 to R618). -/

/-- The objects of the services are no reports. -/
theorem serviceKey_unreported {m i : Nat} (hlo : 0x5A20 ≤ m) (hhi : m < 0x5A90) (hi : i < 256) : reportKey (m * 256 + i) = false := by
  have hindex : (m * 256 + i) / 256 = m := by omega
  have hdev : m * 256 + i ≠ Obj.devDevState := by unfold Obj.devDevState; omega
  have hdrop : m * 256 + i ≠ Obj.hostCntNoteDropped := by unfold Obj.hostCntNoteDropped; omega
  have hsub : ¬(m < 0x1118) := by omega
  unfold reportKey
  rw [hindex]
  simp [hdev, hdrop, hsub]

/-- A notification of a service is a report (R623). -/
theorem OnlyReported.serviceNote (s : State) (sv e event data : Nat) (u : Tick) : OnlyReported s (s.serviceNote sv e event data u) :=
  (OnlyReported.refl s).notify 13 e (serviceDetail sv event data) u

section
variable {s s1 : State} {e : Nat}

/-! WATCH (R611 to R613). -/

/-- WATCH polls an entry. -/
structure State.WatchPolls (s : State) (e : Nat) : Prop where
  entry : e < 16
  running : s.running = true
  up : s.serviceUp 1 = true
  idle : s.flash.applying = none

theorem State.WatchPolls.exec_eq (h : s.WatchPolls e) : exec (.watchPoll e) s =
    if !s.flag (Obj.watchEnable e) then
      if s.obj (Obj.watchLiveQ e) = 0xFFFF then .next s
      else .next ((if s.capturing (s.obj (Obj.watchLiveQ e)) then s.watchRun (s.obj (Obj.watchLiveQ e)) 0 else s).setObj (Obj.watchLiveQ e) 0xFFFF)
    else if s.obj (Obj.watchState e) ≠ 1 then .next s
    else .next (s.watchLive e) := by
  obtain ⟨hentry, hrunning, hup, hidle⟩ := h
  exact if_neg (by simp [hentry, hrunning, hup, hidle])

/-- An enabled entry in RUN reads its live queue. -/
theorem State.WatchPolls.exec_live (h : s.WatchPolls e) (hon : s.obj (Obj.watchEnable e) ≠ 0) (hstate : s.obj (Obj.watchState e) = 1) :
    exec (.watchPoll e) s = .next (s.watchLive e) := by
  rw [h.exec_eq, if_neg (by simp [State.flag, hon]), if_neg (by simp [hstate])]

theorem watchKeys {e : Nat} (he : e < 16) : Obj.watchLiveQ e ≠ Obj.watchKept e ∧ Obj.watchState e ≠ Obj.watchLiveQ e
    ∧ reportKey (Obj.watchLiveQ e) = false ∧ reportKey (Obj.watchState e) = false :=
  ⟨key_ne_of_index (by decide) (by decide) (by decide), key_ne_of_index (by decide) (by decide) (by decide),
    serviceKey_unreported (by omega) (by omega) (by decide), serviceKey_unreported (by omega) (by omega) (by decide)⟩

/-- The next queue becomes the live one, and the rest is a report (R612). -/
theorem State.watchNext_spec (s : State) {e : Nat} (he : e < 16) (q : Nat) : (s.watchNext e q).obj (Obj.watchLiveQ e) = q
    ∧ OnlyReported (((s.watchRun q 1).setObj (Obj.watchLiveQ e) q).bump (Obj.watchKept e) 1) (s.watchNext e q) := by
  have hreport := OnlyReported.serviceNote (((s.watchRun q 1).setObj (Obj.watchLiveQ e) q).bump (Obj.watchKept e) 1) 1 e 1 (s.obj (Obj.watchLiveQ e)) s.tick
  obtain ⟨hkept, -, hlive, -⟩ := watchKeys he
  refine ⟨(hreport.objs _ hlive).trans ?_, hreport⟩
  rw [State.obj_bump, if_neg hkept, State.obj_setObj_self]

/-- A queue is free for the next capture. -/
theorem State.watchLive_next {q : Nat} (hlive : s.obj (Obj.watchLiveQ e) ≠ 0xFFFF) (hpinned : s.pinnedPages (s.obj (Obj.watchLiveQ e)) ≠ 0)
    (hnext : (s.watchOrder e).find? s.queueFree = some q) : s.watchLive e = s.watchNext e q := by
  unfold State.watchLive
  extract_lets live
  rw [if_neg hlive, if_neg hpinned, hnext]

/-- No queue is free for the next capture. -/
theorem State.watchLive_full (hlive : s.obj (Obj.watchLiveQ e) ≠ 0xFFFF) (hpinned : s.pinnedPages (s.obj (Obj.watchLiveQ e)) ≠ 0)
    (hnext : (s.watchOrder e).find? s.queueFree = none) : s.watchLive e =
    if s.obj (Obj.watchFullPolicy e) = 0 then
      match s.oldestKept e with
      | some q => (s.ownWrite (serviceCore s.otp.variant 1) (Obj.qFree q) [1]).watchNext e q
      | none => s
    else if s.capturing (s.obj (Obj.watchLiveQ e)) then s
    else (((s.setObj (Obj.watchState e) 3).setObj (Obj.watchLiveQ e) 0xFFFF)).serviceNote 1 e 2 0 s.tick := by
  unfold State.watchLive
  extract_lets live
  rw [if_neg hlive, if_neg hpinned, hnext] <;> rfl

/-! FLOWHEALTH (R614 to R616). -/

/-- An alarm of a sampled context is counted and reported. -/
def State.healthAlarm (n : Nat) (s : State) (x : Nat × Bytes × Bool) : State :=
  if x.2.2 then (s.bump (Obj.fhAlarms n) 1).serviceNote 2 n 1 x.1 s.tick else s

/-- What an alarm leaves, and what it counts. -/
theorem State.healthAlarm_spec {n : Nat} (hn : n < 32) (s : State) (x : Nat × Bytes × Bool) : (s.healthAlarm n x).flows = s.flows
    ∧ (s.healthAlarm n x).doms = s.doms ∧ (s.healthAlarm n x).health = s.health
    ∧ (s.healthAlarm n x).obj (Obj.fhAlarms n) = if x.2.2 then min (s.obj (Obj.fhAlarms n) + 1) (maxOf (Obj.fhAlarms n)) else s.obj (Obj.fhAlarms n) := by
  unfold State.healthAlarm
  split
  · have hreport := OnlyReported.serviceNote (s.bump (Obj.fhAlarms n) 1) 2 n 1 x.1 s.tick
    have hkey : reportKey (Obj.fhAlarms n) = false := serviceKey_unreported (m := 0x5A40 + n) (by omega) (by omega) (by decide)
    exact ⟨hreport.flows, hreport.doms, hreport.health, (hreport.objs _ hkey).trans (counted_bump ..)⟩
  · exact ⟨rfl, rfl, rfl, rfl⟩

theorem State.foldl_healthAlarm {n : Nat} (hn : n < 32) (l : List (Nat × Bytes × Bool)) (s : State) :
    (l.foldl (State.healthAlarm n) s).flows = s.flows ∧ (l.foldl (State.healthAlarm n) s).doms = s.doms
      ∧ (l.foldl (State.healthAlarm n) s).health = s.health
      ∧ if l.any (fun x => x.2.2) = true then Counted s (l.foldl (State.healthAlarm n) s) (Obj.fhAlarms n) (l.countP (fun x => x.2.2))
        else (l.foldl (State.healthAlarm n) s).obj (Obj.fhAlarms n) = s.obj (Obj.fhAlarms n) := by
  induction l generalizing s with
  | nil => exact ⟨rfl, rfl, rfl, rfl⟩
  | cons x l ih =>
    obtain ⟨hflows, hdoms, hhealth, hcount⟩ := ih (s.healthAlarm n x)
    obtain ⟨hflows1, hdoms1, hhealth1, hcount1⟩ := s.healthAlarm_spec hn x
    rw [List.foldl_cons, List.any_cons, List.countP_cons]
    refine ⟨hflows.trans hflows1, hdoms.trans hdoms1, hhealth.trans hhealth1, ?_⟩
    unfold Counted at hcount ⊢
    rw [hcount1] at hcount
    cases hx : x.2.2 with
    | false =>
      rw [hx] at hcount
      exact hcount
    | true =>
      rw [hx] at hcount
      simp only [Bool.true_or, if_true] at hcount ⊢
      split at hcount
      · omega
      · next hnone =>
        have hzero : l.countP (fun x => x.2.2) = 0 := List.countP_eq_zero.mpr (by simpa using hnone)
        rw [hzero, hcount]

/-- The contexts that a pass of the scanner has copied, each with its record and whether it raises an alarm (R615). -/
def State.healthRecords (s : State) (n : Nat) : List (Nat × Bytes × Bool) :=
  (s.health.getD n {}).copy.map (fun e => (e.1, s.healthOf n e.1 e.2 (s.health.getD n {}).prev))

/-- The records of a pass have been written (R615). -/
def State.healthWritten (s : State) (n : Nat) : State :=
  { ((s.setDom (Obj.fhTable n) (((s.healthRecords n).filter (fun e => decide (e.1 % 8192 < 4096))).flatMap (fun e => e.2.1))).setDom (Obj.fhTableHi n)
      (((s.healthRecords n).filter (fun e => decide (4096 ≤ e.1 % 8192))).flatMap (fun e => e.2.1))) with
    health := s.health.put n {} { s.health.getD n {} with lastAt := (s.health.getD n {}).whole.getD 0
                                                          prev := (s.health.getD n {}).copy.map (fun e => (e.1, (e.2.packets, e.2.lost, e.2.reordered, e.2.late))) } }

/-- A pass that began after the period is sampled (R614). -/
theorem exec_flowhealthSample {n whole : Nat} (hlane : s.hasLane n = true) (hup : s.serviceUp 2 = true) (hstate : s.obj (Obj.fhState n) = 1)
    (hwhole : (s.health.getD n {}).whole = some whole) (hdue : (s.health.getD n {}).lastAt + 1000000 * s.obj (Obj.fhPeriodMs n) ≤ whole) :
    exec (.flowhealthSample n) s = .next ((s.healthRecords n).foldl (State.healthAlarm n) (s.healthWritten n)) :=
  if_neg (by simp [hlane, hup, hstate, hwhole, hdue])

theorem healthOf_length (s : State) (n fid : Nat) (c : FlowCtx) (prev : Tab (Nat × Nat × Nat × Nat)) : (s.healthOf n fid c prev).1.length = 32 :=
  le_length ..

/-- The records of the copies that a condition on their place picks. -/
theorem State.healthRecords_half (s : State) (n : Nat) (p : Nat → Bool) : ((s.healthRecords n).filter (fun e => p (e.1 % 8192))).flatMap (fun e => e.2.1) =
    ((s.health.getD n {}).copy.filter (fun e => p (e.1 % 8192))).flatMap (fun e => (s.healthOf n e.1 e.2 (s.health.getD n {}).prev).1) := by
  unfold State.healthRecords
  rw [List.filter_map, List.flatMap_map]
  rfl

theorem lanesOf_le (variant : Nat) : lanesOf variant ≤ 32 := by
  unfold lanesOf
  split_ifs <;> decide

/-! SIGNATURE (R617, R618). -/

theorem placeOf_isSome {l : List Nat} {v : Nat} : (placeOf l v).isSome = true ↔ v ∈ l := by
  unfold placeOf
  cases hfirst : firstFrom (fun i => l[i]? = some v) l.length 0 with
  | none =>
    simp only [Option.isSome_none, Bool.false_eq_true, false_iff]
    intro hmem
    obtain ⟨i, hi, hval⟩ := List.mem_iff_getElem.mp hmem
    have := firstFrom_none hfirst (Nat.zero_le i) (by simpa using hi)
    simp [hi, hval] at this
  | some i =>
    have := firstFrom_some hfirst
    simp only [Option.isSome_some, true_iff]
    exact List.mem_of_getElem? (of_decide_eq_true this)

/-- The comparison of a signature with the golden list (R618). -/
theorem sigCompare_iff (mode : Nat) (l : List Nat) (place : Option Nat) (sig : Nat) : (sigCompare mode l place sig).1 = true ↔
    if mode = 0 then sig ∈ l else match place with
      | none => sig ∈ l
      | some p => l[(p + 1) % l.length]? = some sig := by
  unfold sigCompare
  split
  · exact List.contains_iff_mem
  · cases place with
    | none => exact placeOf_isSome
    | some p =>
      dsimp only
      split <;> simp_all

section
variable {sig : Nat} {inc : Bool} {at_ : SubTime} {rest : List (Nat × Bool × SubTime)}

/-- The service takes an event of its tap (R617). -/
theorem exec_signatureTap (he : e < 8) (hup : s.serviceUp 3 = true) (hstate : s.obj (Obj.sigState e) = 1)
    (htap : (s.sigs.getD e {}).tap = (sig, inc, at_) :: rest) {r : Bool × Option Nat}
    (hr : sigCompare (s.obj (Obj.sigMode e)) (goldenList ((s.dom (Obj.sigGolden e)).length / 4) (s.dom (Obj.sigGolden e))) (s.sigs.getD e {}).place sig = r) :
    exec (.signatureTap e) s =
      if inc then .next (({ s with sigs := s.sigs.put e {} { s.sigs.getD e {} with tap := rest } } : State).bump (Obj.sigSkipped e) 1)
      else if r.1 then .next (({ s with sigs := s.sigs.put e {} ⟨rest, r.2⟩ } : State).bump (Obj.sigMatches e) 1)
      else .next (((({ s with sigs := s.sigs.put e {} ⟨rest, r.2⟩ } : State).bump (Obj.sigMismatches e) 1).setObj (Obj.sigLastMismatch e)
        (timeVal at_)).serviceNote 3 e 1 sig s.tick) := by
  show execSignatureTap e s = _
  unfold execSignatureTap
  extract_lets x
  rw [htap, ← hr]
  exact if_neg (by simp [he, hup, hstate])

end

/-! The golden list (R618). -/

theorem goldenRow {n : Nat} (hn : n < 8) :
    findObj (Obj.sigGolden n) = some ⟨0x5A60, 8, 0x05, 1, .dom, .rw, false, .len 4 4096, 0, false⟩ := by
  interval_cases n <;> exact findObj_row (by decide)

theorem goldenKey {n : Nat} (hn : n < 8) : Obj.sigGolden n < 2 ^ 24 ∧ isStaged (Obj.sigGolden n) = false ∧ pairPartner (Obj.sigGolden n) = none := by
  refine ⟨?_, by simp [isStaged, goldenRow hn], ?_⟩
  · show (0x5A60 + n) * 256 + 5 < _
    omega
  · revert n
    decide

/-- What a change means for the services is their own objects' (R605). -/
theorem State.serviceEffects_set (s old : State) (keys : List Key) (t : Tick) : ServicesSet s (s.serviceEffects old keys t) := by
  unfold State.serviceEffects
  refine ServicesSet.foldl (fun u hu sv hsv => ?_) (.refl s)
  have hsv := mem_upFrom.mp hsv
  split
  · exact hu
  · refine ServicesSet.foldl (fun v hv k hk => ?_) hu
    dsimp only
    split
    · exact hv.trans (State.checkService_set hsv.1 (by omega) (mem_below.mp hk) _ _)
    · exact hv

end

/-- Settles O50: WATCH by its branches, FLOWHEALTH by its alarms, SIGNATURE by its comparison, and the write of GOLDEN. -/
theorem servicesWatchSampleAndCompare : Obligations.ServicesWatchSampleAndCompare := by
  unfold Obligations.ServicesWatchSampleAndCompare
  refine ⟨fun s e he hrun hup hidle => ?_, fun s n hlane hup hstate whole hwhole hdue => ?_, fun s e sig inc at_ rest he hup hstate htap => ?_,
    fun s s1 c n a hn hw hlo hhi => ?_⟩
  · intro live next
    have hpolls : s.WatchPolls e := ⟨he, hrun, hup, hidle⟩
    refine ⟨fun hoff hlive hrest => ?_, fun hon hstate => ⟨fun hlive => ?_, fun hlive hpinned => ?_, fun q hlive hpinned hnext => ?_,
      fun q hlive hpinned hnext hpolicy hkept => ?_, fun hlive hpinned hnext hpolicy hrest => ?_⟩⟩
    · rw [hpolls.exec_eq, if_pos (by simp [State.flag, hoff]), if_neg hlive, if_neg (by simpa using hrest)]
      exact ⟨_, rfl, rfl, State.obj_setObj_self .., fun k hk => State.obj_setObj_ne _ _ (by simpa using hk)⟩
    · rw [hpolls.exec_live hon hstate]
      exact congrArg Host.Outcome.next (if_pos hlive)
    · rw [hpolls.exec_live hon hstate]
      exact congrArg Host.Outcome.next ((if_neg hlive).trans (if_pos hpinned))
    · rw [hpolls.exec_live hon hstate, State.watchLive_next hlive hpinned hnext]
      exact ⟨_, rfl, s.watchNext_spec he q⟩
    · rw [hpolls.exec_live hon hstate, State.watchLive_full hlive hpinned hnext, if_pos hpolicy, hkept]
      exact ⟨_, rfl, State.watchNext_spec _ he q⟩
    · rw [hpolls.exec_live hon hstate, State.watchLive_full hlive hpinned hnext, if_neg hpolicy, if_neg (by simpa using hrest)]
      have hreport := OnlyReported.serviceNote ((s.setObj (Obj.watchState e) 3).setObj (Obj.watchLiveQ e) 0xFFFF) 1 e 2 0 s.tick
      obtain ⟨-, hne, hkey, hkey'⟩ := watchKeys he
      exact ⟨_, rfl, (hreport.objs _ hkey').trans ((State.obj_setObj_ne _ _ hne).trans (State.obj_setObj_self ..)),
        (hreport.objs _ hkey).trans (State.obj_setObj_self ..), hreport⟩
  · intro l r
    have hn : n < 32 := lt_of_lt_of_le (of_decide_eq_true hlane) (lanesOf_le _)
    obtain ⟨hflows, hdoms, hhealth, hcount⟩ := State.foldl_healthAlarm hn (s.healthRecords n) (s.healthWritten n)
    have hdom (k : Key) := congrArg (fun d : Tab Bytes => d.getD k (domDflt k)) hdoms
    refine ⟨_, exec_flowhealthSample hlane hup hstate hwhole hdue, hflows, ?_, ?_, fun e _ => healthOf_length .., ?_, fun m hm => ?_, ?_⟩
    · refine (hdom _).trans ((State.dom_setDom ..).trans ((if_neg (key_ne_of_index (by decide) (by decide) (by decide))).trans ?_))
      exact (State.dom_setDom ..).trans ((if_pos rfl).trans (s.healthRecords_half n fun i => decide (i < 4096)))
    · exact (hdom _).trans ((State.dom_setDom ..).trans ((if_pos rfl).trans (s.healthRecords_half n fun i => decide (4096 ≤ i))))
    · refine (congrArg (Tab.getD · n ({} : HealthRun)) hhealth).trans ((Tab.getD_put_self ..).trans ?_)
      rw [hwhole]
      rfl
    · exact (congrArg (Tab.getD · m ({} : HealthRun)) hhealth).trans (Tab.getD_put_ne _ _ _ _ hm)
    · rw [State.healthRecords, List.any_map, List.countP_map] at hcount
      exact hcount
  · intro g l ok
    obtain ⟨r, hr⟩ : ∃ r, sigCompare (s.obj (Obj.sigMode e)) l (s.sigs.getD e {}).place sig = r := ⟨_, rfl⟩
    have hexec := exec_signatureTap he hup hstate htap hr
    have hsig (x : SigRun) : (s.sigs.put e {} x).getD e {} = x ∧ ∀ k, k ≠ e → (s.sigs.put e {} x).getD k {} = s.sigs.getD k {} :=
      ⟨Tab.getD_put_self .., fun k hk => Tab.getD_put_ne _ _ _ _ hk⟩
    cases inc with
    | true =>
      obtain ⟨hself, hne⟩ := hsig { s.sigs.getD e {} with tap := rest }
      refine ⟨_, hexec, congrArg SigRun.tap hself, hne, fun _ => ⟨counted_bump .., fun k hk => ?_, (congrArg SigRun.place hself :)⟩, nofun, nofun⟩
      rw [State.obj_bump, if_neg (by simpa using hk)]
      rfl
    | false =>
      have hok : (sigCompare (s.obj (Obj.sigMode e)) l (s.sigs.getD e {}).place sig).1 = true ↔ ok := sigCompare_iff ..
      obtain ⟨hself, hne⟩ := hsig ⟨rest, r.2⟩
      rw [hr] at hok
      by_cases hmatch : ok
      · have hnext := (hexec.trans (if_neg nofun)).trans (if_pos (hok.mpr hmatch))
        refine ⟨_, hnext, congrArg SigRun.tap hself, hne, nofun, fun _ _ => ⟨counted_bump .., fun k hk => ?_⟩, fun _ h => absurd hmatch h⟩
        rw [State.obj_bump, if_neg (by simpa using hk)]
        rfl
      · have hnext := (hexec.trans (if_neg nofun)).trans (if_neg (mt hok.mp hmatch))
        obtain ⟨t, ht⟩ : ∃ t : State, t = ((({ s with sigs := s.sigs.put e {} ⟨rest, r.2⟩ } : State).bump (Obj.sigMismatches e) 1).setObj
          (Obj.sigLastMismatch e) (timeVal at_)) := ⟨_, rfl⟩
        have hreport := OnlyReported.serviceNote t 3 e 1 sig s.tick
        have hsigs : t.sigs = s.sigs.put e {} ⟨rest, r.2⟩ := by rw [ht]; rfl
        have hkeys : Obj.sigMismatches e ≠ Obj.sigLastMismatch e := key_ne_of_index (by decide) (by decide) (by decide)
        have hunreported {i : Nat} (hi : i < 256) : reportKey ((0x5A60 + e) * 256 + i) = false := serviceKey_unreported (by omega) (by omega) hi
        rw [← ht] at hnext
        refine ⟨_, hnext, ?_, fun k hk => ?_, nofun, fun _ h => absurd h hmatch, fun _ _ => ⟨?_, ?_, fun k hk hne => ?_⟩⟩
        · rw [hreport.sigs, hsigs, hself]
        · rw [hreport.sigs, hsigs, hne k hk]
        · refine (hreport.objs _ (hunreported (i := 7) (by decide))).trans ?_
          rw [ht]
          exact (State.obj_setObj_ne _ _ hkeys).trans (counted_bump ..)
        · refine (hreport.objs _ (hunreported (i := 9) (by decide))).trans ?_
          rw [ht]
          exact State.obj_setObj_self ..
        · obtain ⟨hcount, hlast⟩ : k ≠ Obj.sigMismatches e ∧ k ≠ Obj.sigLastMismatch e := by simpa using hne
          rw [hreport.objs k hk, ht, State.obj_setObj_ne _ _ hlast, State.obj_bump, if_neg hcount]
          rfl
  · have hrow : findObj (Obj.sigGolden n) = some ⟨0x5A60, 8, 0x05, 1, .dom, .rw, false, .len 4 4096, 0, false⟩ := goldenRow hn
    obtain ⟨-, -, -, hwritable, -⟩ := hw.writeLong_eq (goldenKey hn).1
    have hne : c.value ≠ [] := List.ne_nil_of_length_pos (by omega)
    have hexec : exec (.golden c n) s = .next (s.writeLong c (Obj.sigGolden n)) := by
      show Host.Outcome.next (s.writeLong c (Obj.sigGolden (n % 8))) = _
      rw [Nat.mod_eq_of_lt hn]
    have hends {t : State} {o : ObjOut} (hact : s1.writeGolden n c.value (s1.tick + 1) = (t, o)) (ho : o.status ≠ stPairPending) :
        Lands s1 (exec (.golden c n) s) (s1.endedOr c.flags a (o.refusedWith (.byt c.value)) t) := by
      rw [hexec]
      exact hw.ends (goldenKey hn).1 (goldenKey hn).2.1 (goldenKey hn).2.2 hrow rfl
        (State.checkEntry_byt hrow hwritable (by decide) rfl rfl hlo hhi hne) ((act_sigGolden (h := hn) ..).trans (congrArg done hact)) ho
    split
    · next hwhole =>
      have hlands := hends (if_neg (by simpa using hwhole)) (show stOk ≠ stPairPending by decide)
      rw [State.endedOr_ok rfl rfl] at hlands
      obtain ⟨u, hu⟩ : ∃ u : State, u = { (s1.setDom (Obj.sigGolden n) c.value) with sigs := s1.sigs.put n {} { s1.sigs.getD n {} with place := none } } := ⟨_, rfl⟩
      have hset := u.serviceEffects_set s1 [Obj.sigGolden n] (s1.tick + 1)
      have hdom (k : Key) : (u.serviceEffects s1 [Obj.sigGolden n] (s1.tick + 1)).dom k = if k = Obj.sigGolden n then c.value else s1.dom k := by
        refine (congrArg (fun d : Tab Bytes => d.getD k (domDflt k)) hset.doms).trans ?_
        rw [hu]
        exact State.dom_setDom ..
      have hsigs : u.sigs = s1.sigs.put n {} { s1.sigs.getD n {} with place := none } := by rw [hu]
      rw [← hu] at hlands
      refine ⟨_, hlands, (hdom _).trans (if_pos rfl), ?_, fun k hk => (hdom k).trans (if_neg hk), fun m hm => ?_⟩
      · rw [hset.sigs, hsigs]
        exact Tab.getD_put_self ..
      · rw [hset.sigs, hsigs]
        exact Tab.getD_put_ne _ _ _ _ hm
    · next hbroken =>
      exact hends (if_pos hbroken) (show stRejected ≠ stPairPending by decide)

end Sys2Proof.Machine

namespace Sys2Proof.Machine

/-! STREAM (R619). -/

section
variable {s s1 : State} {e : Nat}

/-! RESEND. -/

theorem resendRow {n : Nat} (hn : n < 4) : findObj (Obj.streamResend n) = some ⟨0x5A80, 4, 0x07, 1, .u32, .wo, false, .any, 0, false⟩ := by
  interval_cases n <;> exact findObj_row (by decide)

theorem resendKey {n : Nat} (hn : n < 4) : Obj.streamResend n < 2 ^ 24 ∧ isStaged (Obj.streamResend n) = false ∧ pairPartner (Obj.streamResend n) = none := by
  refine ⟨?_, by simp [isStaged, resendRow hn], ?_⟩
  · show (0x5A80 + n) * 256 + 7 < _
    omega
  · revert n
    decide

/-! The export. -/

/-- STREAM polls an entry. -/
structure State.StreamPolls (s : State) (e : Nat) : Prop where
  entry : e < 4
  running : s.running = true
  up : s.serviceUp 4 = true

/-- With nothing awaited there is no answer to read. -/
theorem State.streamAnswer_none (h : (s.streams.getD e {}).asked = none) : s.streamAnswer e = s := by
  unfold State.streamAnswer
  extract_lets x core
  rw [show x.asked = none from h]

/-- What STREAM does with an entry whose awaited answer has been read. -/
def State.streamOn (e : Nat) (s : State) : Ans :=
  let x := s.streams.getD e {}
  if 4 ≤ e ∨ !s.running ∨ !s.serviceUp 4 ∨ s.obj (Obj.streamState e) ≠ 1 ∨ x.ready ≠ [] ∨ x.ended ∨ x.asked.isSome then .next s
  else
    match x.cur, x.job with
    | none, _ => .next (s.streamStart e x)
    | some _, some ix => if (s.jobs.find ix).isNone then .next (s.streamTake e ix x) else .next s
    | some _, none => .next s

theorem State.StreamPolls.exec_eq (h : s.StreamPolls e) : exec (.streamExport e) s = (s.streamAnswer e).streamOn e := by
  have hexec : exec (.streamExport e) s = (if e < 4 ∧ s.running ∧ s.serviceUp 4 then s.streamAnswer e else s).streamOn e := rfl
  exact hexec.trans (congrArg (State.streamOn e) (if_pos ⟨h.entry, h.running, h.up⟩))

/-- An entry that runs and awaits nothing, with nothing in hand to send. -/
structure State.StreamIdle (s : State) (e : Nat) : Prop where
  state : s.obj (Obj.streamState e) = 1
  ready : (s.streams.getD e {}).ready = []
  ended : (s.streams.getD e {}).ended = false
  asked : (s.streams.getD e {}).asked = none

theorem State.StreamPolls.exec_idle (h : s.StreamPolls e) (hidle : s.StreamIdle e) : exec (.streamExport e) s =
    match (s.streams.getD e {}).cur, (s.streams.getD e {}).job with
    | none, _ => .next (s.streamStart e (s.streams.getD e {}))
    | some _, some ix => if (s.jobs.find ix).isNone then .next (s.streamTake e ix (s.streams.getD e {})) else .next s
    | some _, none => .next s := by
  rw [h.exec_eq, State.streamAnswer_none hidle.asked]
  obtain ⟨hentry, hrunning, hup⟩ := h
  obtain ⟨hstate, hready, hended, hasked⟩ := hidle
  exact if_neg (by simp [hentry, hrunning, hup, hstate, hready, hended, hasked])

/-- An entry whose descriptor has been answered: taken, or as it was before (R483, R619). -/
def StreamRun.answered (x : StreamRun) (taken : Bool) (before : Option Nat) : StreamRun :=
  if taken = true then { x with asked := none }
  else match before with
    | some i => { x with asked := none, job := some i, ready := [] }
    | none => { x with asked := none, job := none, cur := none, todo := x.cur.toList ++ x.todo }

theorem StreamRun.answered_asked (x : StreamRun) (taken : Bool) (before : Option Nat) : (x.answered taken before).asked = none := by
  unfold StreamRun.answered
  split
  · rfl
  · cases before <;> rfl

/-- The answer to a descriptor is read once no command of the core is open (R483). -/
theorem State.streamAnswer_some {tag : Nat} {before : Option Nat} (hasked : (s.streams.getD e {}).asked = some (tag, before)) : s.streamAnswer e =
    if s.coreWaits (serviceCore s.otp.variant 4) = true then s
    else s.setStream e ((s.streams.getD e {}).answered ((s.ownAnswer (serviceCore s.otp.variant 4) tag).any (fun st => decide (st ≤ stSuperseded))) before) := by
  unfold State.streamAnswer StreamRun.answered
  extract_lets x core
  rw [show x.asked = _ from hasked]
  dsimp only
  split
  · rfl
  · split
    · rfl
    · cases before <;> rfl

/-- A descriptor goes into an idle job slot, where there is one. -/
theorem State.streamJob_slot (s : State) (desc : Nat → Bytes) : if (below 16).any (fun i => (s.jobs.find i).isNone) = true then
      ∃ i tag, i < 16 ∧ s.jobs.find i = none ∧ (s.streamJob desc).1 = some (i, tag)
    else (s.streamJob desc).1 = none := by
  unfold State.streamJob
  dsimp only [State.fresh]
  split
  · next hany =>
    obtain ⟨i, hi, hnone⟩ := List.any_eq_true.mp hany
    split
    · next hfind =>
      have hslot := List.find?_eq_none.mp hfind (Config.freeNat s.free + (i + 16 - Config.freeNat s.free % 16) % 16)
        (mem_upFrom.mpr (by omega))
      have hmod : (Config.freeNat s.free + (i + 16 - Config.freeNat s.free % 16) % 16) % 16 = i := by
        have := mem_below.mp hi
        omega
      rw [hmod] at hslot
      exact absurd hnone hslot
    · next i hfind =>
      exact ⟨i % 16, _, Nat.mod_lt _ (by decide), by simpa using List.find?_some hfind, rfl⟩
  · next hnone =>
    split
    · rfl
    · next i hfind =>
      exact absurd (List.any_eq_true.mpr ⟨i % 16, mem_below.mpr (Nat.mod_lt _ (by decide)), by simpa using List.find?_some hfind⟩) hnone

/-- An entry's run reads what was set, and the others are as before. -/
theorem State.setStream_streams (s : State) (e : Nat) (x : StreamRun) : (s.setStream e x).streams.getD e {} = x
    ∧ ∀ m, m ≠ e → (s.setStream e x).streams.getD m {} = s.streams.getD m {} :=
  ⟨Tab.getD_put_self .., fun _ hm => Tab.getD_put_ne _ _ _ _ hm⟩

/-- The captures still to send, and the last that has been seen to end (R619). -/
theorem State.streamTodo_eq (s : State) (e : Nat) (x : StreamRun) : s.streamTodo e x =
    if s.obj (Obj.qState (s.obj (Obj.streamQueue e))) = 2 ∧ s.obj (Obj.qCapture (s.obj (Obj.streamQueue e))) ≠ x.seen
    then (x.todo ++ [s.obj (Obj.qCapture (s.obj (Obj.streamQueue e)))], s.obj (Obj.qCapture (s.obj (Obj.streamQueue e)))) else (x.todo, x.seen) := rfl

theorem State.streamStart_none {x : StreamRun} {seen : Nat} (h : s.streamTodo e x = ([], seen)) : s.streamStart e x = s := by
  unfold State.streamStart
  rw [h]

section
variable {x : StreamRun} {c seen : Nat} {rest : List Nat} (h : s.streamTodo e x = (c :: rest, seen))
include h

/-- A capture without pages is not exported. -/
theorem State.streamStart_empty (hpages : (s.queue (s.obj (Obj.streamQueue e))).pages.any (fun p => p.capture = c) = false) :
    s.streamStart e x = s.setStream e { todo := rest, seen := seen, cur := some c, ended := true, nextAt := x.nextAt } := by
  unfold State.streamStart
  extract_lets q
  rw [h]
  dsimp only
  rw [List.filter_eq_nil_iff.mpr (by simpa using hpages)]

/-- A capture with pages is exported by a job, where a slot is free. -/
theorem State.streamStart_job (hpages : (s.queue (s.obj (Obj.streamQueue e))).pages.any (fun p => p.capture = c) = true) : ∃ desc, s.streamStart e x =
    match (s.streamJob desc).1 with
    | none => (s.streamJob desc).2.setStream e { x with todo := c :: rest, seen := seen }
    | some (ix, tag) => (s.streamJob desc).2.setStream e
        { todo := rest, seen := seen, cur := some c, job := some ix, nextAt := x.nextAt, asked := some (tag, none) } := by
  unfold State.streamStart
  extract_lets q
  rw [h]
  dsimp only
  obtain ⟨l, hl⟩ : ∃ l, (s.queue q).pages.filter (fun p => p.capture = c) = l := ⟨_, rfl⟩
  cases l with
  | nil =>
    obtain ⟨p, hp, hcapture⟩ := List.any_eq_true.mp hpages
    exact absurd hcapture (List.filter_eq_nil_iff.mp hl p hp)
  | cons p l =>
    rw [hl]
    exact ⟨_, rfl⟩

end

/-! The datagrams. -/

/-- A datagram of an entry's stream leaves, where there is something to send (R619). -/
theorem exec_streamSend {c : Nat} {data : Bytes} {t : State} (he : e < 4) (hnet : s.netUp = true) (hup : s.serviceUp 4 = true)
    (hstate : s.obj (Obj.streamState e) = 1) (hcur : (s.streams.getD e {}).cur = some c) (hat : (s.streams.getD e {}).nextAt ≤ s.tick)
    (hasked : (s.streams.getD e {}).asked = none) (hsome : (s.streams.getD e {}).ready ≠ [] ∨ (s.streams.getD e {}).ended = true)
    (hdata : data = (s.streams.getD e {}).ready.take (if isV4 (s.dom (Obj.streamDestAddr e)) then 1440 else 1420))
    (ht : s.originate none (s.dom (Obj.streamDestAddr e)) (s.obj (Obj.streamDestPort e))
      (streamHeader e data.length (s.obj (Obj.streamQueue e)) c (s.streams.getD e {}).sent ++ data) = t) : exec (.streamSend e) s = .next (
      if data = [] then
        ((t.setStream e { todo := (s.streams.getD e {}).todo, seen := (s.streams.getD e {}).seen
                          nextAt := t.tick + ceilDiv (8000 * (16 + data.length)) (t.obj (Obj.streamRateMbps e)) }).bump
          (Obj.streamSent e) 1).serviceNote 4 e 1 (c % 2 ^ 32 * 2 ^ 16 + s.obj (Obj.streamQueue e)) t.tick
      else t.setStream e { s.streams.getD e {} with
        ready := (s.streams.getD e {}).ready.drop data.length, sent := (s.streams.getD e {}).sent + data.length
        nextAt := t.tick + ceilDiv (8000 * (16 + data.length)) (t.obj (Obj.streamRateMbps e)) }) := by
  subst ht hdata
  show execStreamSend e s = _
  unfold execStreamSend
  extract_lets x
  rw [show x.cur = some c from hcur]
  refine (if_neg (by simpa [x, he, hnet, hup, hstate, hat, hasked, or_iff_not_imp_left] using hsome)).trans ?_
  rw [apply_ite Host.Outcome.next]
  rfl

end

/-- Settles O51: RESEND, the export by what is in hand, the answer to a descriptor, and the datagrams. -/
theorem streamsAreExportedAndSent : Obligations.StreamsAreExportedAndSent := by
  unfold Obligations.StreamsAreExportedAndSent
  refine ⟨fun s s1 c n a hn hw hv => ?_, fun s e he hrun hup hstate hready hended hasked => ?_, fun s e tag before he hrun hup hasked => ?_,
    fun s e c h y he hnet hup hstate hcur hat hhop hfind hresolved hasked => ?_⟩
  · have hexec : exec (.resend c n) s = .next (s.writeNum c (Obj.streamResend n) c.value) := by
      show Host.Outcome.next (s.writeNum c (Obj.streamResend (n % 4)) c.value) = _
      rw [Nat.mod_eq_of_lt hn]
    have hcheck : s1.checkEntry (Obj.streamResend n) (valBytes (Obj.streamResend n) (.num c.value)) = okOut (Obj.streamResend n) (.num c.value) :=
      State.checkEntry_inRange (resendRow hn) hw.2.2.2 (by decide) rfl (by decide) (by decide) (by decide) hv (by simp) rfl
    have hlands := State.writeNum_acts hw (resendKey hn).1 (valBytes_num_length ..) (resendKey hn).2.1 (resendKey hn).2.2 hcheck
      ((act_streamResend (h := hn) ..).trans rfl) rfl rfl
    rw [hexec]
    exact ⟨_, hlands, rfl, Tab.getD_put_self .., fun m hm => Tab.getD_put_ne _ _ _ _ hm⟩
  · intro x q ends todo
    have hpolls : s.StreamPolls e := ⟨he, hrun, hup⟩
    have hexec := hpolls.exec_idle ⟨hstate, hready, hended, hasked⟩
    have htodo : s.streamTodo e x = (todo, if ends then s.obj (Obj.qCapture q) else x.seen) := by
      rw [State.streamTodo_eq]
      simp only [todo]
      split <;> rfl
    refine ⟨fun hcur hnone => ?_, fun c rest hcur hsome => ?_, fun c i hcur hjob hgone => ?_, fun c i hcur hjob hruns => ?_⟩
    · rw [hexec, show (s.streams.getD e {}).cur = none from hcur]
      rw [hnone] at htodo
      exact congrArg Host.Outcome.next (State.streamStart_none htodo)
    · rw [hexec, show (s.streams.getD e {}).cur = none from hcur]
      rw [hsome] at htodo
      dsimp only
      obtain ⟨seen, hseen⟩ : ∃ v, v = if ends then s.obj (Obj.qCapture q) else x.seen := ⟨_, rfl⟩
      rw [← hseen] at htodo ⊢
      by_cases hpages : (s.queue q).pages.any (fun p => p.capture = c) = true
      · obtain ⟨desc, hstart⟩ := State.streamStart_job htodo hpages
        have hslot := s.streamJob_slot desc
        split at hslot
        · next hany =>
          obtain ⟨i, tag, hi, hfree, hjob⟩ := hslot
          rw [hjob] at hstart
          have hself := ((s.streamJob desc).2.setStream_streams e
            { todo := rest, seen := seen, cur := some c, job := some i, nextAt := x.nextAt, asked := some (tag, none) }).1
          refine ⟨_, congrArg Host.Outcome.next hstart, congrArg StreamRun.seen hself, ?_⟩
          rw [if_pos hpages, if_pos hany, hself]
          exact ⟨rfl, rfl, i, tag, hi, hfree, rfl, rfl⟩
        · next hany =>
          rw [hslot] at hstart
          have hself := ((s.streamJob desc).2.setStream_streams e { x with todo := c :: rest, seen := seen }).1
          refine ⟨_, congrArg Host.Outcome.next hstart, congrArg StreamRun.seen hself, ?_⟩
          rw [if_pos hpages, if_neg hany, hself]
          exact ⟨hcur, rfl⟩
      · obtain ⟨hself, hne⟩ := s.setStream_streams e
          { todo := rest, seen := seen, cur := some c, ended := true, nextAt := x.nextAt }
        refine ⟨_, congrArg Host.Outcome.next (State.streamStart_empty htodo (by simpa using hpages)), congrArg StreamRun.seen hself, ?_⟩
        rw [if_neg hpages, hself]
        refine ⟨rfl, hne, ?_⟩
        exact ⟨rfl, rfl, rfl⟩
    · intro r hend
      rw [show (s.streams.getD e {}).cur = some c from hcur, show (s.streams.getD e {}).job = some i from hjob] at hexec
      have htaken := hexec.trans (if_pos (by simp [hgone]))
      obtain ⟨hself, hne⟩ := s.setStream_streams e { x with ready := s.shmBytes (262144 * e) (fieldAt (s.dom (Obj.jobJobResult i)) 20 4), job := none, ended := true }
      exact ⟨_, htaken.trans (congrArg Host.Outcome.next (if_neg hend)), rfl, hne, hself⟩
    · rw [hexec, show (s.streams.getD e {}).cur = some c from hcur, show (s.streams.getD e {}).job = some i from hjob]
      exact if_neg (by simpa [Option.isSome_iff_ne_none] using hruns)
  · intro x core
    have hpolls : s.StreamPolls e := ⟨he, hrun, hup⟩
    have hanswer := State.streamAnswer_some hasked
    refine ⟨fun hwaits => ?_, fun hfree => ?_⟩
    · rw [hpolls.exec_eq, hanswer, if_pos hwaits]
      exact if_pos (by simp [hasked])
    · have hset := s.setStream_streams e (x.answered ((s.ownAnswer core tag).any (fun st => decide (st ≤ stSuperseded))) before)
      have hpolls' (y : StreamRun) : (s.setStream e y).StreamPolls e := ⟨he, hrun, hup⟩
      rw [hpolls.exec_eq, hanswer, if_neg (by simpa using hfree)]
      refine Eq.trans ?_ ((hpolls' _).exec_eq.trans (congrArg (State.streamOn e) (State.streamAnswer_none ?_))).symm
      · refine congrArg (fun y => State.streamOn e (s.setStream e y)) ?_
        cases before <;> rfl
      · exact (congrArg StreamRun.asked hset.1).trans (x.answered_asked _ _)
  · intro x dest q data gram at_
    have hsend : s.originate none dest (s.obj (Obj.streamDestPort e)) (streamHeader e data.length q c x.sent ++ data) = { s with out := s.out ++ [gram] } := by
      rw [State.originate_known hhop none _ _ hfind, if_pos hresolved]
      rfl
    have hexec (hsome : x.ready ≠ [] ∨ x.ended = true) := exec_streamSend (data := data) he hnet hup hstate hcur hat hasked hsome rfl hsend
    refine ⟨fun hready => ?_, fun hready hended => ?_⟩
    · have hpos : 0 < data.length := by
        have := List.length_pos_iff.mpr hready
        simp only [data, List.length_take]
        split <;> omega
      obtain ⟨hself, hne⟩ := ({ s with out := s.out ++ [gram] } : State).setStream_streams e
        { x with ready := x.ready.drop data.length, sent := x.sent + data.length, nextAt := at_ }
      exact ⟨_, (hexec (.inl hready)).trans (congrArg Host.Outcome.next (if_neg (List.ne_nil_of_length_pos hpos))), rfl, hself, hpos, hne⟩
    · have hnone : data = [] := by simp [data, hready]
      obtain ⟨hself, hne⟩ := ({ s with out := s.out ++ [gram] } : State).setStream_streams e { todo := x.todo, seen := x.seen, nextAt := at_ }
      obtain ⟨t, ht⟩ : ∃ t : State, t = ({ s with out := s.out ++ [gram] } : State).setStream e { todo := x.todo, seen := x.seen, nextAt := at_ } := ⟨_, rfl⟩
      have hreport := OnlyReported.serviceNote (t.bump (Obj.streamSent e) 1) 4 e 1 (c % 2 ^ 32 * 2 ^ 16 + q) s.tick
      have hkey : reportKey (Obj.streamSent e) = false := serviceKey_unreported (m := 0x5A80 + e) (by omega) (by omega) (by decide)
      have hstreams : (t.bump (Obj.streamSent e) 1).streams = t.streams := rfl
      have hobj : t.obj (Obj.streamSent e) = s.obj (Obj.streamSent e) := by rw [ht]; rfl
      have hout : (t.bump (Obj.streamSent e) 1).out = s.out ++ [gram] := by rw [ht]; rfl
      rw [← ht] at hself hne
      have hend := (hexec (.inr hended)).trans (congrArg Host.Outcome.next (if_pos hnone))
      refine ⟨(t.bump (Obj.streamSent e) 1).serviceNote 4 e 1 (c % 2 ^ 32 * 2 ^ 16 + q) s.tick, ?_, ?_, ?_, ?_, fun m hm => ?_⟩
      · rw [ht]
        exact hend
      · rw [← hout]
        exact hreport.out
      · exact (hreport.objs _ hkey).trans ((counted_bump ..).trans (by rw [hobj]))
      · rw [hreport.streams, hstreams, hself]
      · rw [hreport.streams, hstreams, hne m hm]

end Sys2Proof.Machine

namespace Sys2Proof.Machine

/-! The code of the SRAM and the March test of a stuck cell (R629 to R631). -/

/-! The code is linear. -/

theorem checkBits_xor (cols : List Nat) (d e : Nat) : checkBits cols (d ^^^ e) = checkBits cols d ^^^ checkBits cols e := by
  induction cols generalizing d e with
  | nil => exact (Nat.xor_self 0).symm
  | cons c cols ih =>
    have hhead : (if (d ^^^ e) % 2 = 1 then c else 0) = (if d % 2 = 1 then c else 0) ^^^ (if e % 2 = 1 then c else 0) := by
      simp only [Nat.xor_mod_two_eq_one]
      by_cases hd : d % 2 = 1 <;> by_cases he : e % 2 = 1 <;> simp [hd, he]
    simp only [checkBits, Nat.xor_div_two, ih, hhead]
    ac_rfl

theorem syndrome_xor (cols : List Nat) (v w : Nat) : syndrome cols (v ^^^ w) = syndrome cols v ^^^ syndrome cols w := by
  simp only [syndrome, Nat.xor_mod_two_pow, Nat.xor_div_two_pow, checkBits_xor]
  ac_rfl

theorem sramColumns_length : sramColumns.length = 64 := by decide +kernel

section
variable {d : Nat} (hd : d < 2 ^ 64)
include hd

/-- The data of a stored word. -/
theorem eccWord_data : eccWord sramColumns d % 2 ^ 64 = d := by
  rw [eccWord, sramColumns_length, Nat.add_mul_mod_self_left, Nat.mod_eq_of_lt hd]

/-- A stored word has no syndrome. -/
theorem syndrome_eccWord : syndrome sramColumns (eccWord sramColumns d) = 0 := by
  rw [syndrome, sramColumns_length, eccWord_data hd, eccWord, sramColumns_length, Nat.add_mul_div_left _ _ (by decide), Nat.div_eq_of_lt hd, Nat.zero_add,
    Nat.xor_self]

end

/-- What a read finds, by the syndrome (R630). -/
theorem eccRead_eq (w : Nat) : eccRead sramColumns w =
    if syndrome sramColumns w = 0 then .good (w % 2 ^ 64)
    else match sramColumns.findIdx? (· == syndrome sramColumns w) with
      | some i => .corrected ((w ^^^ 2 ^ i) % 2 ^ 64)
      | none => if ones 8 (syndrome sramColumns w) = 1 then .corrected (w % 2 ^ 64) else .bad := by
  unfold eccRead
  rw [sramColumns_length] <;> rfl

/-- The syndrome of one changed bit is its column, or one bit where it is a check bit. -/
theorem syndrome_bit : ∀ b < 72, syndrome sramColumns (2 ^ b) ≠ 0
    ∧ sramColumns.findIdx? (· == syndrome sramColumns (2 ^ b)) = (if b < 64 then some b else none)
    ∧ (64 ≤ b → ones 8 (syndrome sramColumns (2 ^ b)) = 1) := by decide +kernel

theorem syndrome_bit_inj : ∀ b < 72, ∀ c < 72, c ≠ b → syndrome sramColumns (2 ^ c) ≠ syndrome sramColumns (2 ^ b) := by
  have hnodup : ((below 72).map (fun b => syndrome sramColumns (2 ^ b))).Nodup := by decide +kernel
  intro b hb c hc hne heq
  exact hne (List.inj_on_of_nodup_map hnodup (mem_below.mpr hc) (mem_below.mpr hb) heq)

/-- The parity of a byte. -/
def parity (x : Nat) : Nat := checkBits (List.replicate 8 1) x

/-- A column or a single check bit is of odd weight (R629). -/
theorem parity_odd : ∀ x < 256, x ∈ sramColumns ∨ ones 8 x = 1 → parity x = 1 := by decide +kernel

theorem syndrome_bit_odd : ∀ b < 72, syndrome sramColumns (2 ^ b) < 256 ∧ parity (syndrome sramColumns (2 ^ b)) = 1 := by decide +kernel

theorem eccRead_flip {d b : Nat} (hd : d < 2 ^ 64) (hb : b < 72) : eccRead sramColumns (eccWord sramColumns d ^^^ 2 ^ b) = .corrected d := by
  obtain ⟨hne, hfind, hcheck⟩ := syndrome_bit b hb
  have hsyn : syndrome sramColumns (eccWord sramColumns d ^^^ 2 ^ b) = syndrome sramColumns (2 ^ b) := by
    rw [syndrome_xor, syndrome_eccWord hd, Nat.zero_xor]
  rw [eccRead_eq, hsyn, if_neg hne, hfind]
  by_cases hdata : b < 64
  · rw [if_pos hdata]
    exact congrArg Ecc.corrected ((congrArg (· % 2 ^ 64) (Nat.xor_xor_cancel_right _ _)).trans (eccWord_data hd))
  · rw [if_neg hdata]
    refine (if_pos (hcheck (by omega))).trans (congrArg Ecc.corrected ?_)
    rw [Nat.xor_mod_two_pow, eccWord_data hd, Nat.mod_eq_zero_of_dvd (Nat.pow_dvd_pow 2 (by omega)), Nat.xor_zero]

theorem eccRead_flips {d b c : Nat} (hd : d < 2 ^ 64) (hb : b < 72) (hc : c < 72) (hne : c ≠ b) :
    eccRead sramColumns (eccWord sramColumns d ^^^ 2 ^ b ^^^ 2 ^ c) = .bad := by
  obtain ⟨x, hx⟩ : ∃ x, x = syndrome sramColumns (2 ^ b) ^^^ syndrome sramColumns (2 ^ c) := ⟨_, rfl⟩
  have hsyn : syndrome sramColumns (eccWord sramColumns d ^^^ 2 ^ b ^^^ 2 ^ c) = x := by
    rw [syndrome_xor, syndrome_xor, syndrome_eccWord hd, Nat.zero_xor, hx]
  obtain ⟨hlt, hodd⟩ := syndrome_bit_odd b hb
  obtain ⟨hlt', hodd'⟩ := syndrome_bit_odd c hc
  have hzero : x ≠ 0 := fun h => syndrome_bit_inj b hb c hc hne (Nat.xor_eq_zero_iff.mp (hx.symm.trans h)).symm
  have heven : parity x = 0 := by rw [hx, parity, checkBits_xor, ← parity, ← parity, hodd, hodd']; rfl
  have hrange : x < 256 := hx ▸ Nat.xor_lt_two_pow (n := 8) hlt hlt'
  have hnone : ¬(x ∈ sramColumns ∨ ones 8 x = 1) := fun h => absurd (parity_odd x hrange h) (by omega)
  obtain ⟨hcol, hone⟩ := not_or.mp hnone
  have hfind : sramColumns.findIdx? (· == x) = none := by
    rw [List.findIdx?_eq_none_iff]
    intro y hy
    simpa using fun h : y = x => hcol (h ▸ hy)
  rw [eccRead_eq, hsyn, if_neg hzero, hfind]
  exact if_neg hone

/-! A stuck cell. -/

section
variable {d : Defect} {x : Bool} (h : d.fault = .stuck x)
include h

theorem marchCells_stuck : marchCells [d] = [(defectKey d, x)] := by
  have hfollows : defectFollows d = none := by simp [defectFollows, h]
  have hvalue : (d.fault == .stuck true) = x := by
    rw [h]
    cases x <;> rfl
  simp only [marchCells, List.foldl_cons, List.foldl_nil, hfollows, hvalue]
  rfl

/-- A write leaves a stuck cell as it is. -/
theorem marchWrite_stuck (bg : Nat → Bool) : marchWrite [d] [(defectKey d, x)] (defectKey d / 128) bg = [(defectKey d, x)] := by
  have hset : Tab.set [(defectKey d, x)] (defectKey d) x = [(defectKey d, x)] := by simp [Tab.set, Tab.del, Tab.ins]
  simp [marchWrite, cellWrite, h, hset]

/-- One operation of the March test on a word. -/
def marchOp (l : List Defect) (bg : Nat → Nat → Bool) (w : Nat) (m : Tab Bool × List Nat) (op : MarchOp) : Tab Bool × List Nat :=
  if op.read then (m.1, m.2 ++ ((m.1.filter (fun c => c.1 / 128 = w && c.2 != (bg w (c.1 % 128) != op.one))).map (·.1)))
  else (marchWrite l m.1 w (fun b => bg w b != op.one), m.2)

/-- What an operation finds in a stuck cell whose background is `v`. -/
def stuckOp (k : Nat) (x v : Bool) (found : List Nat) (op : MarchOp) : List Nat :=
  if op.read && x != (v != op.one) then found ++ [k] else found

theorem marchOp_stuck (bg : Nat → Nat → Bool) (found : List Nat) (op : MarchOp) :
    marchOp [d] bg (defectKey d / 128) ([(defectKey d, x)], found) op =
      ([(defectKey d, x)], stuckOp (defectKey d) x (bg (defectKey d / 128) (defectKey d % 128)) found op) := by
  unfold marchOp stuckOp
  cases hread : op.read with
  | false => simp [marchWrite_stuck h]
  | true => cases hval : x != (bg (defectKey d / 128) (defectKey d % 128) != op.one) <;> simp [hval]

theorem foldl_marchOp_stuck (bg : Nat → Nat → Bool) (ops : List MarchOp) (found : List Nat) :
    ops.foldl (marchOp [d] bg (defectKey d / 128)) ([(defectKey d, x)], found) =
      ([(defectKey d, x)], ops.foldl (stuckOp (defectKey d) x (bg (defectKey d / 128) (defectKey d % 128))) found) := by
  induction ops generalizing found with
  | nil => rfl
  | cons op ops ih => rw [List.foldl_cons, List.foldl_cons, marchOp_stuck h, ih]

/-- A test of one stuck cell is its operations on that cell's word. -/
theorem marchRun_stuck_eq (bg : Nat → Nat → Bool) : marchRun [d] bg = (marchElements.foldl (fun found e =>
    e.2.foldl (stuckOp (defectKey d) x (bg (defectKey d / 128) (defectKey d % 128))) found) []).eraseDups := by
  have hrun : marchRun [d] bg = (marchElements.foldl (fun m e => (if e.1 then (((marchCells [d]).keys.map (· / 128)).eraseDups).reverse
      else ((marchCells [d]).keys.map (· / 128)).eraseDups).foldl (fun m w => e.2.foldl (marchOp [d] bg w) m) m) (marchCells [d], [])).2.eraseDups := rfl
  have hwords : ((Tab.keys [(defectKey d, x)]).map (· / 128)).eraseDups = [defectKey d / 128] := by
    simp [Tab.keys, List.eraseDups, List.eraseDupsBy, List.eraseDupsBy.loop]
  rw [hrun, marchCells_stuck h, hwords]
  refine congrArg List.eraseDups ?_
  suffices hfold : ∀ (l : List (Bool × List MarchOp)) (found : List Nat), l.foldl (fun m e => (if e.1 then [defectKey d / 128].reverse
      else [defectKey d / 128]).foldl (fun m w => e.2.foldl (marchOp [d] bg w) m) m) ([(defectKey d, x)], found) = ([(defectKey d, x)], l.foldl (fun found e =>
        e.2.foldl (stuckOp (defectKey d) x (bg (defectKey d / 128) (defectKey d % 128))) found) found) by rw [hfold]
  intro l
  induction l with
  | nil => exact fun _ => rfl
  | cons e l ih =>
    intro found
    rw [List.foldl_cons, List.foldl_cons, List.reverse_singleton, ite_self, List.foldl_cons, List.foldl_nil, foldl_marchOp_stuck h]
    exact ih _

/-- The March test finds a stuck cell: it reads the cell with both values. -/
theorem marchRun_stuck (bg : Nat → Nat → Bool) : defectKey d ∈ marchRun [d] bg := by
  rw [marchRun_stuck_eq h, List.mem_eraseDups]
  generalize bg (defectKey d / 128) (defectKey d % 128) = v
  cases x <;> cases v <;> simp [marchElements, stuckOp]

end

end Sys2Proof.Machine

namespace Sys2Proof.Machine

/-! The Darner (R635 to R642). -/

section
variable {s : State} {i row : Nat}

/-! Repairs. -/

theorem State.obj_setRepair (s : State) (f : Repair → Repair) (k : Key) : (s.setRepair f).obj k = s.obj k := rfl

/-- The objects of an instance and the counts of the repairs are different objects. -/
theorem instKeys_ne (i : Nat) : Obj.instSpareRowsUsed i ≠ Obj.instState i ∧ Obj.instNextRow i ≠ Obj.instState i
    ∧ Obj.instSpareRowsUsed i ≠ Obj.integRepairsPending ∧ Obj.instState i ≠ Obj.integRepairsPending ∧ Obj.instNextRow i ≠ Obj.integRepairsPending
    ∧ Obj.instNextRow i ≠ Obj.instSpareRowsUsed i :=
  ⟨key_ne_of_index (by decide) (by decide) (by decide), key_ne_of_index (by decide) (by decide) (by decide),
    key_ne_of_index (by decide) (by decide) (by decide), key_ne_of_index (by decide) (by decide) (by decide),
    key_ne_of_index (by decide) (by decide) (by decide), key_ne_of_index (by decide) (by decide) (by decide)⟩

theorem State.needRow_mem (s : State) (i row : Nat) : (i, row) ∈ (s.needRow i row).repair.needs := by
  show (i, row) ∈ (if s.repair.needs.contains (i, row) then s.repair else { s.repair with needs := s.repair.needs ++ [(i, row)] }).needs
  split
  · next h => exact List.contains_iff_mem.mp h
  · exact List.mem_append_right _ (List.mem_singleton_self _)

/-- A row that a spare row has come to serve (R642, R643). -/
structure RowServed (s t : State) (i row sp : Nat) : Prop where
  rest : t = { s with dict := t.dict, repair := t.repair }
  repair : t.repair = { s.repair with needs := s.repair.needs.filter (· != (i, row)), soft := s.repair.soft ++ [(i, row)], spares := s.repair.spares ++ [(i, row, sp)] }
  used : t.obj (Obj.instSpareRowsUsed i) = s.obj (Obj.instSpareRowsUsed i) + 1
  pending : Counted s t Obj.integRepairsPending 1
  state : t.obj (Obj.instState i) = if s.obj (Obj.instState i) = 0 then 1 else s.obj (Obj.instState i)
  objs : SameObjs s t [Obj.instSpareRowsUsed i, Obj.instState i, Obj.integRepairsPending]

theorem State.assignSpare_obj (s : State) (i row sp : Nat) (k : Key) : (s.assignSpare i row sp).obj k =
    if k = Obj.instState i then (if s.obj k = 0 then 1 else s.obj k)
    else if k = Obj.instSpareRowsUsed i then s.obj k + 1 else s.obj k := by
  obtain ⟨hused, -⟩ := instKeys_ne i
  have hset (k : Key) : ((s.setObj (Obj.instSpareRowsUsed i) (s.obj (Obj.instSpareRowsUsed i) + 1)).setRepair
      (fun r => { r with spares := r.spares ++ [(i, row, sp)] })).obj k = if k = Obj.instSpareRowsUsed i then s.obj (Obj.instSpareRowsUsed i) + 1 else s.obj k :=
    State.obj_setObj ..
  unfold State.assignSpare
  extract_lets u v
  have hstate : v.obj (Obj.instState i) = s.obj (Obj.instState i) := (hset _).trans (if_neg hused.symm)
  rw [hstate]
  by_cases hk : k = Obj.instState i
  · subst hk
    rw [if_pos rfl]
    split
    · exact State.obj_setObj_self ..
    · exact hstate
  · have hrest : (if s.obj (Obj.instState i) = 0 then v.setObj (Obj.instState i) 1 else v).obj k = v.obj k := by
      split
      · exact State.obj_setObj_ne _ _ hk
      · rfl
    rw [if_neg hk, hrest]
    refine (hset k).trans ?_
    split
    · next h => rw [h]
    · rfl

theorem State.assignSpare_rest (s : State) (i row sp : Nat) : s.assignSpare i row sp =
    { s with dict := (s.assignSpare i row sp).dict, repair := { s.repair with spares := s.repair.spares ++ [(i, row, sp)] } } := by
  unfold State.assignSpare
  extract_lets u v
  split <;> rfl

theorem State.repairRow_served {sp : Nat} (h : s.freeSpare i = some sp) : RowServed s (s.repairRow i row) i row sp := by
  obtain ⟨hused, -, husedp, hstatep, -⟩ := instKeys_ne i
  obtain ⟨u, hu⟩ : ∃ u : State, u = s.setRepair (fun r => { r with needs := r.needs.filter (· != (i, row)) }) := ⟨_, rfl⟩
  have heq : s.repairRow i row = ((u.assignSpare i row sp).bump Obj.integRepairsPending 1).setRepair (fun r => { r with soft := r.soft ++ [(i, row)] }) := by
    have hfree : u.freeSpare i = some sp := by rw [hu]; exact h
    unfold State.repairRow
    extract_lets t
    rw [show t = u from hu.symm, hfree]
  have hobj (k : Key) : (s.repairRow i row).obj k =
      if k = Obj.integRepairsPending then min (s.obj k + 1) (maxOf k) else (u.assignSpare i row sp).obj k := by
    rw [heq, State.obj_setRepair, State.obj_bump]
    split
    · next hk =>
      subst hk
      rw [State.assignSpare_obj, if_neg hstatep.symm, if_neg husedp.symm, hu]
      rfl
    · rfl
  have hsame (k : Key) : u.obj k = s.obj k := by rw [hu]; rfl
  have hrest := u.assignSpare_rest i row sp
  have hrepair : (s.repairRow i row).repair = { s.repair with
      needs := s.repair.needs.filter (· != (i, row)), soft := s.repair.soft ++ [(i, row)], spares := s.repair.spares ++ [(i, row, sp)] } := by
    rw [heq]
    refine (congrArg (fun t : State => { t.repair with soft := t.repair.soft ++ [(i, row)] }) hrest).trans ?_
    rw [hu]
    rfl
  refine ⟨?_, hrepair, ?_, (hobj _).trans (if_pos rfl), ?_, fun k hk => ?_⟩
  · rw [heq]
    generalize u.assignSpare i row sp = v at hrest
    subst hu
    rw [hrest]
    rfl
  · rw [hobj, if_neg husedp, State.assignSpare_obj, if_neg hused, if_pos rfl, hsame]
  · rw [hobj, if_neg hstatep, State.assignSpare_obj, if_pos rfl, hsame]
  · obtain ⟨hk1, hk2, hk3⟩ : k ≠ Obj.instSpareRowsUsed i ∧ k ≠ Obj.instState i ∧ k ≠ Obj.integRepairsPending := by simpa using hk
    rw [hobj, if_neg hk3, State.assignSpare_obj, if_neg hk2, if_neg hk1, hsame]

/-- Without a free spare row the instance is DEGRADED (R642). -/
theorem State.repairRow_degraded (h : s.freeSpare i = none) : s.repairRow i row =
    ({ s with repair := { s.repair with needs := s.repair.needs.filter (· != (i, row)) } } : State).setObj (Obj.instState i) 2 := by
  have hfree : (s.setRepair (fun r => { r with needs := r.needs.filter (· != (i, row)) })).freeSpare i = none := h
  unfold State.repairRow
  extract_lets t
  rw [hfree]
  rfl

/-- The place of a row that the last spare row serves. -/
theorem State.rowPlace_last {t : State} {sp : Nat} {l : List (Nat × Nat × Nat)} (h : t.repair.spares = l ++ [(i, row, sp)]) :
    t.rowPlace i row = instRows i + sp := by
  unfold State.rowPlace
  rw [h, List.filter_append, List.filter_cons_of_pos (by simp), List.filter_nil, List.getLast?_concat]

/-! Borrows. -/

/-- The words of the save buffer go back, and nothing else of the repair changes. -/
theorem State.restoreWord_rest (s : State) (b : Borrow) (k : Nat) : (s.restoreWord b k).repair =
    { s.repair with flips := (s.restoreWord b k).repair.flips, borrow := (s.restoreWord b k).repair.borrow } := by
  unfold State.restoreWord
  split <;> rfl

theorem State.unborrowed_rest (s : State) : s.unborrowed = { s.repair with flips := s.unborrowed.flips, borrow := s.unborrowed.borrow } := by
  unfold State.unborrowed
  split
  · next b hb =>
    refine List.foldlRecOn (motive := fun t : State => t.repair = { s.repair with flips := t.repair.flips, borrow := t.repair.borrow }) (b := s) _ _ rfl ?_
    intro t ht k _
    rw [State.restoreWord_rest, ht]
  · rfl

/-- The save of a word (R637, R639). -/
theorem State.saveRead_eq (s : State) (i w : Nat) : (s.saveRead i w).2 = (match eccRead sramColumns (s.repair.flips.getD (wordKey i w) 0) with
        | .good d => if d = 0 then 0 else s.repair.flips.getD (wordKey i w) 0
        | .corrected d => if d = 0 then 0 else s.repair.flips.getD (wordKey i w) 0
        | .bad => s.repair.flips.getD (wordKey i w) 0) := by
  unfold State.saveRead
  extract_lets x
  split <;> rename_i h <;> rw [show eccRead sramColumns (s.repair.flips.getD (wordKey i w) 0) = _ from h]

theorem State.needRow_borrow (s : State) (i row : Nat) : (s.needRow i row).repair.borrow = s.repair.borrow := by
  show (if s.repair.needs.contains (i, row) then s.repair else { s.repair with needs := s.repair.needs ++ [(i, row)] }).borrow = _
  split <;> rfl

theorem State.sramCorrected_borrow (s : State) (i w : Nat) : (s.sramCorrected i w).repair.borrow = s.repair.borrow := by
  unfold State.sramCorrected
  extract_lets row n u
  split
  · rfl
  · split
    · exact u.needRow_borrow i row
    · rfl

theorem State.saveRead_borrow (s : State) (i w : Nat) : (s.saveRead i w).1.repair.borrow = s.repair.borrow := by
  unfold State.saveRead
  extract_lets x
  split
  · rfl
  · exact s.sramCorrected_borrow i w
  · exact State.needRow_borrow _ i (w / 64)

/-- A word is saved in each of the first 64 ticks of a borrow (R637). -/
theorem State.borrowTick_save {b : Borrow} {k : Nat} (hb : s.repair.borrow = some b) (hk : k < 64) :
    (s.borrowTick (b.start + k)) = s.saveWord b k := by
  unfold State.borrowTick
  rw [hb]
  dsimp only
  rw [if_neg (Nat.not_lt.mpr (Nat.le_add_right _ _)), Nat.add_sub_cancel_left, if_pos hk]

theorem State.saveWord_saves {b : Borrow} {k : Nat} (hb : s.repair.borrow = some b) :
    (s.saveWord b k).repair.borrow = some { b with saved := b.saved.set k (s.saveRead b.inst (64 * b.row + k)).2 } := by
  show (s.saveRead b.inst (64 * b.row + k)).1.repair.borrow.map _ = _
  rw [State.saveRead_borrow, hb]
  rfl

/-- A borrow is over, its row not yet repaired (R637). -/
def State.borrowOver (s : State) (b : Borrow) : State :=
  let u : State := ({ s with repair := { s.unborrowed with borrow := none, lastEnd := s.unborrowed.lastEnd.set b.inst (b.start + 767) } } : State).bump
      (Obj.instCntBorrows b.inst) 1
  if u.obj (Obj.instNextRow b.inst) = b.row then u.setObj (Obj.instNextRow b.inst) ((b.row + 1) % instRows b.inst) else u

theorem State.borrowOver_rest (s : State) (b : Borrow) : s.borrowOver b = { s with
    dict := (s.borrowOver b).dict
    repair := { s.unborrowed with borrow := none, lastEnd := s.unborrowed.lastEnd.set b.inst (b.start + 767) } } := by
  unfold State.borrowOver
  extract_lets u
  split <;> rfl

theorem instCntBorrows_ne (i : Nat) : Obj.instNextRow i ≠ Obj.instCntBorrows i := key_ne_of_index (by decide) (by decide) (by decide)

theorem State.borrowOver_obj (s : State) (b : Borrow) (k : Key) : (s.borrowOver b).obj k =
    if k = Obj.instNextRow b.inst then (if s.obj k = b.row then (b.row + 1) % instRows b.inst else s.obj k)
    else if k = Obj.instCntBorrows b.inst then min (s.obj k + 1) (maxOf k) else s.obj k := by
  have hbump (k : Key) : (({ s with repair := { s.unborrowed with borrow := none, lastEnd := s.unborrowed.lastEnd.set b.inst (b.start + 767) } } : State).bump
      (Obj.instCntBorrows b.inst) 1).obj k = if k = Obj.instCntBorrows b.inst then min (s.obj k + 1) (maxOf k) else s.obj k := by
    rw [State.obj_bump]
    split
    · next h => rw [h]; rfl
    · rfl
  have hne := instCntBorrows_ne b.inst
  unfold State.borrowOver
  extract_lets _ u
  have hrow : u.obj (Obj.instNextRow b.inst) = s.obj (Obj.instNextRow b.inst) := (hbump _).trans (if_neg hne)
  rw [hrow]
  by_cases hk : k = Obj.instNextRow b.inst
  · subst hk
    rw [if_pos rfl]
    split
    · exact State.obj_setObj_self ..
    · exact hrow
  · rw [if_neg hk, ← hbump k]
    split
    · exact State.obj_setObj_ne _ _ hk
    · rfl

/-- The end of a borrow: its row is repaired where it needs to be (R637, R640, R642). -/
theorem exec_borrowEnd {b : Borrow} (hb : s.repair.borrow = some b) (hlate : b.start + 768 ≤ s.tick + 1) :
    exec .borrowEnd s = .next (if (s.borrowOver b).repair.needs.contains (b.inst, b.row) then (s.borrowOver b).repairRow b.inst b.row else s.borrowOver b) := by
  show execBorrowEnd s = _
  unfold execBorrowEnd
  rw [hb]
  exact if_neg (Nat.not_lt.mpr hlate)

/-- What the end of a borrow leaves of the repair, its row apart. -/
theorem State.borrowOver_repair (s : State) (b : Borrow) : (s.borrowOver b).repair.borrow = none ∧ (s.borrowOver b).repair.flips = s.unborrowed.flips
    ∧ (s.borrowOver b).repair.lastEnd = s.repair.lastEnd.set b.inst (b.start + 767) ∧ (s.borrowOver b).repair.needs = s.repair.needs
    ∧ (s.borrowOver b).repair.soft = s.repair.soft ∧ (s.borrowOver b).repair.spares = s.repair.spares
    ∧ ∀ i, (s.borrowOver b).freeSpare i = s.freeSpare i := by
  have hrepair : (s.borrowOver b).repair = { s.unborrowed with borrow := none, lastEnd := s.unborrowed.lastEnd.set b.inst (b.start + 767) } := by
    rw [State.borrowOver_rest]
  have hrest := s.unborrowed_rest
  have hspares : (s.borrowOver b).repair.spares = s.repair.spares := (congrArg Repair.spares hrepair :).trans (congrArg Repair.spares hrest :)
  have hbad : (s.borrowOver b).repair.badSpares = s.repair.badSpares := (congrArg Repair.badSpares hrepair :).trans (congrArg Repair.badSpares hrest :)
  refine ⟨(congrArg Repair.borrow hrepair :), (congrArg Repair.flips hrepair :), (congrArg Repair.lastEnd hrepair :).trans ?_,
    (congrArg Repair.needs hrepair :).trans (congrArg Repair.needs hrest :), (congrArg Repair.soft hrepair :).trans (congrArg Repair.soft hrest :), hspares, fun i => ?_⟩
  · exact (congrArg (fun r : Repair => r.lastEnd.set b.inst (b.start + 767)) hrest :)
  · rw [State.freeSpare, hspares, hbad]
    rfl

/-- The count of the borrows is no other object of the repair's. -/
theorem borrowKeys_ne (i : Nat) : Obj.instCntBorrows i ∉ [Obj.instSpareRowsUsed i, Obj.instState i, Obj.integRepairsPending] := by
  have hfar : (0x6500 + i) * 256 + 4 ≠ (0x5C10 + i) * 256 + 4 := key_ne_of_instance (by omega)
  simp only [List.mem_cons, List.not_mem_nil, or_false, not_or]
  exact ⟨hfar, key_ne_of_index (by decide) (by decide) (by decide), key_ne_of_index (by decide) (by decide) (by decide)⟩

/-- Nor is the next row. -/
theorem borrowNextRow_ne (i : Nat) : Obj.instNextRow i ∉ [Obj.instSpareRowsUsed i, Obj.instState i, Obj.integRepairsPending] := by
  obtain ⟨-, hstate, -, -, hpending, hused⟩ := instKeys_ne i
  simpa using ⟨hused, hstate, hpending⟩

/-- What a repair sets, the end of a borrow does not. -/
theorem borrowRepair_ne (i : Nat) : (Obj.instState i ≠ Obj.instCntBorrows i ∧ Obj.instState i ≠ Obj.instNextRow i)
    ∧ (Obj.integRepairsPending ≠ Obj.instCntBorrows i ∧ Obj.integRepairsPending ≠ Obj.instNextRow i)
    ∧ Obj.instSpareRowsUsed i ≠ Obj.instCntBorrows i ∧ Obj.instSpareRowsUsed i ≠ Obj.instNextRow i := by
  have hcnt := borrowKeys_ne i
  have hnext := borrowNextRow_ne i
  simp only [List.mem_cons, List.not_mem_nil, or_false, not_or] at hcnt hnext
  obtain ⟨hcused, hcstate, hcpending⟩ := hcnt
  obtain ⟨hnused, hnstate, hnpending⟩ := hnext
  exact ⟨⟨Ne.symm hcstate, Ne.symm hnstate⟩, ⟨Ne.symm hcpending, Ne.symm hnpending⟩, Ne.symm hcused, Ne.symm hnused⟩

end

end Sys2Proof.Machine

namespace Sys2Proof.Machine

/-! The March requests (R632 to R634, R641 to R644). -/

/-- A row that needed repair has it, or its instance is DEGRADED (R642). -/
def State.Cared (s : State) (e : Nat × Nat) : Prop := e ∈ s.repair.soft ∨ s.obj (Obj.instState e.1) = 2

/-- STATE of an instance is not under a key of another kind, nor of another instance. -/
def StateApart (k : Nat) : Prop := 0x5C00 * 256 ≤ k ∧ ∀ i, i < 232 → Obj.instState i ≠ k

/-- The test and repair of the SRAM: it works on the instances' objects and on the repair, and forgets no row that needs repair but those it has cared for. -/
structure Repairs (s t : State) : Prop where
  rest : t = { s with dict := t.dict, repair := t.repair }
  objs : ∀ k : Nat, k < 0x5C00 * 256 → t.obj k = s.obj k
  needs : ∀ e : Nat × Nat, e.1 < 232 → e ∈ s.repair.needs → e ∈ t.repair.needs ∨ t.Cared e
  cared : ∀ e : Nat × Nat, e.1 < 232 → s.Cared e → t.Cared e

namespace Repairs

variable {s t u : State}

theorem refl (s : State) : Repairs s s := ⟨rfl, fun _ _ => rfl, fun _ _ h => .inl h, fun _ _ h => h⟩

theorem trans (h : Repairs s t) (g : Repairs t u) : Repairs s u where
  rest := by rw [g.rest, h.rest]
  objs k hk := (g.objs k hk).trans (h.objs k hk)
  needs e he hneed := (h.needs e he hneed).elim (g.needs e he) fun hc => .inr (g.cared e he hc)
  cared e he hc := g.cared e he (h.cared e he hc)

/-- Another object of the test is set. -/
theorem setObj (h : Repairs s t) {k : Nat} (hk : StateApart k) (v : Nat) : Repairs s (t.setObj k v) :=
  h.trans ⟨rfl, fun _ hj => State.obj_setObj_ne _ _ fun e => absurd (Nat.lt_of_le_of_lt hk.1 (e ▸ hj)) (Nat.lt_irrefl _), fun _ _ hneed => .inl hneed,
    fun e he hc => hc.imp_right fun hstate => (State.obj_setObj_ne _ _ (hk.2 e.1 he)).trans hstate⟩

theorem bump (h : Repairs s t) {k : Nat} (hk : StateApart k) (n : Nat) : Repairs s (t.bump k n) := h.setObj hk _

/-- The repair forgets no row. -/
theorem setRepair (h : Repairs s t) (f : Repair → Repair) (hneeds : t.repair.needs ⊆ (f t.repair).needs) (hsoft : (f t.repair).soft = t.repair.soft) :
    Repairs s (t.setRepair f) :=
  h.trans ⟨rfl, fun _ _ => rfl, fun _ _ hneed => .inl (hneeds hneed), fun e _ hc => hc.imp_left fun hmem => show e ∈ (f t.repair).soft from hsoft ▸ hmem⟩

theorem foldl {α : Type} {f : State → α → State} {l : List α} (hf : ∀ v, Repairs s v → ∀ a ∈ l, Repairs s (f v a)) (h : Repairs s t) :
    Repairs s (l.foldl f t) := List.foldlRecOn l f h hf

theorem needRow (h : Repairs s t) (i row : Nat) : Repairs s (t.needRow i row) := by
  refine h.setRepair _ ?_ ?_
  · split
    · exact fun _ he => he
    · exact fun _ he => List.mem_append_left _ he
  · split <;> rfl

end Repairs

theorem stateApart_cnt {i j : Nat} (hj : j < 256) : StateApart ((0x6500 + i) * 256 + j) := by
  refine ⟨by omega, fun n hn => ?_⟩
  show (0x5C10 + n) * 256 + 2 ≠ _
  omega

theorem stateApart_inst {i j : Nat} (hj : j < 256) (hne : j ≠ 2) : StateApart ((0x5C10 + i) * 256 + j) :=
  ⟨by omega, fun _ _ => key_ne_of_index (by decide) hj hne.symm⟩

theorem stateApart_integ {j : Nat} (hj : j < 256) : StateApart (0x5C00 * 256 + j) := by
  refine ⟨by omega, fun n hn => ?_⟩
  show (0x5C10 + n) * 256 + 2 ≠ _
  omega

theorem instState_inj {i j : Nat} : Obj.instState i = Obj.instState j ↔ i = j :=
  ⟨fun h => by
    have : (0x5C10 + i) * 256 + 2 = (0x5C10 + j) * 256 + 2 := h
    omega, fun h => h ▸ rfl⟩

section
variable {s : State} {i row : Nat}

/-- STATE of an instance goes from HEALTHY on, and not back from DEGRADED. -/
theorem Repairs.setState (v : Nat) (hv : s.obj (Obj.instState i) = 2 → v = 2) : Repairs s (s.setObj (Obj.instState i) v) := by
  refine ⟨rfl, fun k hk => State.obj_setObj_ne _ _ ?_, fun _ _ h => .inl h, fun e he hc => hc.imp_right fun hstate => ?_⟩
  · rintro rfl
    have : (0x5C10 + i) * 256 + 2 < 0x5C00 * 256 := hk
    omega
  · rw [State.obj_setObj]
    split
    · next h => exact hv (h ▸ hstate)
    · exact hstate

/-- A repair cares for its row. -/
theorem State.repairRow_cares (s : State) (i row : Nat) : (s.repairRow i row).Cared (i, row) := by
  cases h : s.freeSpare i with
  | none =>
    rw [State.repairRow_degraded h]
    exact .inr (State.obj_setObj_self ..)
  | some sp =>
    refine .inl ?_
    rw [(State.repairRow_served h).repair]
    exact List.mem_append_right _ (List.mem_singleton_self _)

theorem State.repairRow_needs (s : State) (i row : Nat) : (s.repairRow i row).repair.needs = s.repair.needs.filter (· != (i, row)) := by
  cases h : s.freeSpare i with
  | none => rw [State.repairRow_degraded h]; rfl
  | some sp => rw [(State.repairRow_served h).repair]

theorem State.repairRow_repairs (s : State) (i row : Nat) : Repairs s (s.repairRow i row) := by
  have hneeds (e : Nat × Nat) (hneed : e ∈ s.repair.needs) : e ∈ (s.repairRow i row).repair.needs ∨ (s.repairRow i row).Cared e := by
    by_cases he : e = (i, row)
    · exact .inr (he ▸ s.repairRow_cares i row)
    · exact .inl (by rw [State.repairRow_needs]; exact List.mem_filter.mpr ⟨hneed, by simpa using he⟩)
  cases h : s.freeSpare i with
  | none =>
    rw [State.repairRow_degraded h] at hneeds ⊢
    have hset := Repairs.setState (s := { s with repair := { s.repair with needs := s.repair.needs.filter (· != (i, row)) } }) (i := i) 2 fun _ => rfl
    exact ⟨rfl, hset.objs, fun e _ => hneeds e, fun e he hc => hset.cared e he hc⟩
  | some sp =>
    have hserved := State.repairRow_served (row := row) h
    refine ⟨hserved.rest, fun k hk => hserved.objs k ?_, fun e _ => hneeds e, fun e he hc => ?_⟩
    · have hlow (m j : Nat) : k ≠ (0x5C00 + m) * 256 + j := by omega
      simp only [List.mem_cons, List.not_mem_nil, or_false, not_or]
      have hinst (j : Nat) : k ≠ (0x5C10 + i) * 256 + j := by omega
      exact ⟨hinst 4, hinst 2, hlow 0 9⟩
    · refine hc.imp (fun hmem => ?_) fun hstate => ?_
      · rw [hserved.repair]
        exact List.mem_append_left _ hmem
      · by_cases hi : e.1 = i
        · subst hi
          rw [hserved.state, if_neg (by rw [hstate]; decide), hstate]
        · refine (hserved.objs _ ?_).trans hstate
          simp only [List.mem_cons, List.not_mem_nil, or_false, not_or]
          exact ⟨key_ne_of_index (by decide) (by decide) (by decide), mt instState_inj.mp hi, key_ne_of_index (by decide) (by decide) (by decide)⟩

/-! The words and rows that a test reads. -/

theorem Repairs.sramCorrected {t : State} (h : Repairs s t) (i w : Nat) : Repairs s (t.sramCorrected i w) := by
  unfold State.sramCorrected
  extract_lets row n u
  have hu : Repairs s u := (h.bump (stateApart_cnt (i := i) (j := 1) (by decide)) 1).setRepair _ (fun _ he => he) rfl
  split
  · exact h
  · split
    · exact hu.needRow i row
    · exact hu

theorem Repairs.saveRead {t : State} (h : Repairs s t) (i w : Nat) : Repairs s (t.saveRead i w).1 := by
  unfold State.saveRead
  extract_lets x
  split
  · exact h
  · exact h.sramCorrected i w
  · exact (h.bump (stateApart_cnt (i := i) (j := 2) (by decide)) 1).needRow i (w / 64)

theorem Repairs.testRow {t : State} (h : Repairs s t) (i row : Nat) : Repairs s (t.testRow i row) := by
  unfold State.testRow
  split
  · exact (h.bump (stateApart_cnt (i := i) (j := 3) (by decide)) 1).needRow i row
  · exact h

/-! PRESERVE. -/

/-- A word of a row is scrubbed. -/
def State.scrubWord (i row : Nat) (s : State) (k : Nat) : State :=
  let w := 64 * row + k
  if s.repair.flips.getD (wordKey i w) 0 = 0 then s
  else
    let (s, x) := s.saveRead i w
    s.setRepair (fun r => { r with flips := r.flips.put (wordKey i w) 0 x })

/-- The words of a row are scrubbed. -/
def State.scrubRow (s : State) (i row : Nat) : State := (below 64).foldl (State.scrubWord i row) s

/-- A row is scrubbed and tested, and repaired where it needs to be (R633). -/
def State.preserveRow (i : Nat) (m : State × Bool) (row : Nat) : State × Bool :=
  let s := (m.1.scrubRow i row).testRow i row
  if s.repair.needs.contains (i, row) then (s.repairRow i row, true) else (s, m.2)

theorem State.preserve_eq (s : State) (i : Nat) : s.preserve i = (s.rowsAtIssue i).foldl (State.preserveRow i) (s, false) := by
  unfold State.preserve State.preserveRow State.scrubRow State.scrubWord
  with_reducible rfl

theorem Repairs.scrubRow {t : State} (h : Repairs s t) (i row : Nat) : Repairs s (t.scrubRow i row) := by
  unfold State.scrubRow
  refine h.foldl fun v hv k _ => ?_
  unfold State.scrubWord
  extract_lets w
  split
  · exact hv
  · exact (hv.saveRead i w).setRepair _ (fun _ he => he) rfl

theorem Repairs.preserveRow {m : State × Bool} (h : Repairs s m.1) (i row : Nat) : Repairs s (State.preserveRow i m row).1 := by
  have htested : Repairs s ((m.1.scrubRow i row).testRow i row) := (h.scrubRow i row).testRow i row
  unfold State.preserveRow
  generalize (m.1.scrubRow i row).testRow i row = u at htested ⊢
  dsimp only
  split
  · exact htested.trans (u.repairRow_repairs i row)
  · exact htested

/-- A row that needs repair has it after its borrow. -/
theorem State.preserveRow_cares {m : State × Bool} (hi : i < 232) (h : (i, row) ∈ m.1.repair.needs ∨ m.1.Cared (i, row)) :
    (State.preserveRow i m row).1.Cared (i, row) := by
  have htested : Repairs m.1 ((m.1.scrubRow i row).testRow i row) := ((Repairs.refl m.1).scrubRow i row).testRow i row
  have hkept := h.elim (htested.needs (i, row) hi) fun hc => .inr (htested.cared (i, row) hi hc)
  unfold State.preserveRow
  generalize (m.1.scrubRow i row).testRow i row = u at hkept ⊢
  dsimp only
  split
  · exact u.repairRow_cares i row
  · next hnone => exact hkept.resolve_left fun hneed => hnone (List.contains_iff_mem.mpr hneed)

theorem Repairs.preserve {t : State} (h : Repairs s t) (i : Nat) : Repairs s (t.preserve i).1 := by
  rw [State.preserve_eq]
  exact List.foldlRecOn (motive := fun m : State × Bool => Repairs s m.1) (b := (t, false)) _ _ h fun m hm row _ => hm.preserveRow i row

/-- PRESERVE cares for every row of its instance that needs repair. -/
theorem State.preserve_cares (hi : i < 232) (h : (i, row) ∈ s.repair.needs ∨ s.Cared (i, row)) : (s.preserve i).1.Cared (i, row) := by
  refine h.elim (fun hneed => ?_) fun hc => ((Repairs.refl s).preserve i).cared (i, row) hi hc
  have hrow : row ∈ s.rowsAtIssue i := by
    unfold State.rowsAtIssue
    rw [List.mem_eraseDups]
    exact List.mem_append_right _ (List.mem_map.mpr ⟨(i, row), List.mem_filter.mpr ⟨hneed, by simp⟩, rfl⟩)
  obtain ⟨front, back, hsplit⟩ := List.append_of_mem hrow
  rw [State.preserve_eq, hsplit, List.foldl_append, List.foldl_cons]
  have hfront : Repairs s (front.foldl (State.preserveRow i) (s, false)).1 :=
    List.foldlRecOn (motive := fun m : State × Bool => Repairs s m.1) (b := (s, false)) _ _ (Repairs.refl s) fun m hm row _ => hm.preserveRow i row
  generalize front.foldl (State.preserveRow i) (s, false) = m at hfront ⊢
  have hcares := State.preserveRow_cares (m := m) hi (hfront.needs (i, row) hi hneed)
  generalize State.preserveRow i m row = m' at hcares ⊢
  have hback : Repairs m'.1 (back.foldl (State.preserveRow i) m').1 :=
    List.foldlRecOn (motive := fun m : State × Bool => Repairs m'.1 m.1) (b := m') _ _ (Repairs.refl m'.1) fun m hm row _ => hm.preserveRow i row
  exact hback.cared (i, row) hi hcares

/-! The March test of an instance. -/

theorem Repairs.foldl_repairRow (rows : List Nat) (s : State) (i : Nat) : Repairs s (rows.foldl (fun s row => s.repairRow i row) s) :=
  (Repairs.refl s).foldl fun v hv row _ => hv.trans (v.repairRow_repairs i row)

theorem State.foldl_repairRow_cares {rows : List Nat} (hi : i < 232) (hrow : row ∈ rows) : (rows.foldl (fun s row => s.repairRow i row) s).Cared (i, row) := by
  obtain ⟨front, back, rfl⟩ := List.append_of_mem hrow
  rw [List.foldl_append, List.foldl_cons]
  exact (Repairs.foldl_repairRow back _ i).cared (i, row) hi (State.repairRow_cares _ i row)

theorem State.marchInst_repairs (s : State) (i : Nat) : Repairs s (s.marchInst i).1 := by
  unfold State.marchInst
  extract_lets l fails cells s1 col counts bad s2 rows
  have hs1 : Repairs s s1 := by
    simp only [s1]
    split
    · next b hb =>
      refine ((Repairs.refl s).setObj (stateApart_inst (i := i) (j := 5) (by decide) (by decide)) b).trans (Repairs.setState _ fun hstate => ?_)
      have hsame : s.obj (Obj.instState i) = 2 := (State.obj_setObj_ne _ _ (key_ne_of_index (by decide) (by decide) (by decide))).symm.trans hstate
      rw [hsame]
      rfl
    · exact .refl s
  have hs2 : Repairs s s2 := hs1.setRepair _ (fun _ he => he) rfl
  exact hs2.trans (Repairs.foldl_repairRow rows s2 i)

/-- The March test cares for every row of its instance that needs repair. -/
theorem State.marchInst_cares (hi : i < 232) (h : (i, row) ∈ s.repair.needs ∨ s.Cared (i, row)) : (s.marchInst i).1.Cared (i, row) := by
  refine h.elim (fun hneed => ?_) fun hc => (s.marchInst_repairs i).cared (i, row) hi hc
  unfold State.marchInst
  extract_lets l fails cells s1 col counts bad s2 rows
  have hneed2 : (i, row) ∈ s2.repair.needs := by
    have hs1 : s1.repair = s.repair := by
      simp only [s1]
      split <;> rfl
    show (i, row) ∈ s1.repair.needs
    rw [hs1]
    exact hneed
  refine State.foldl_repairRow_cares hi ?_
  simp only [rows, List.mem_eraseDups]
  exact List.mem_append_right _ (List.mem_map.mpr ⟨(i, row), List.mem_filter.mpr ⟨hneed2, by simp⟩, rfl⟩)

/-- Nothing of an instance is faulty, and no row of it needs repair. -/
structure State.Sound (s : State) (i : Nat) : Prop where
  defects : ∀ d ∈ s.otp.defects, d.inst ≠ i
  needs : ∀ e ∈ s.repair.needs, e.1 ≠ i
  flips : ∀ e ∈ s.repair.flips, e.1 / 131072 ≠ i

/-- The March test of a sound instance has nothing to repair. -/
theorem State.marchInst_idle (h : s.Sound i) :
    (s.marchInst i).2 = false ∧ (s.marchInst i).1.repair.needs = s.repair.needs ∧ (s.marchInst i).1.repair.flips = s.repair.flips := by
  obtain ⟨hdefects, hneeds, -⟩ := h
  have hl : s.otp.defects.filter (fun d => d.inst = i) = [] := List.filter_eq_nil_iff.mpr fun d hd => by simpa using hdefects d hd
  have hn : s.repair.needs.filter (fun e => e.1 = i) = [] := List.filter_eq_nil_iff.mpr fun e he => by simpa using hneeds e he
  have hfails : (marchRun [] solid ++ marchRun [] checkered).eraseDups = [] := by decide +kernel
  unfold State.marchInst
  extract_lets l fails cells s1 col counts bad s2 rows
  have hcells : cells = [] := by
    have hnone : fails = [] := by rw [← hfails, ← hl]
    simp only [cells, hnone, List.filterMap_nil]
  have hs1 : s1.repair = s.repair := by
    simp only [s1]
    split <;> rfl
  have hrows : rows = [] := by
    have : s2.repair.needs.filter (fun e => e.1 = i) = [] := (congrArg (fun r : Repair => r.needs.filter (fun e => decide (e.1 = i))) hs1).trans hn
    simp only [rows, this, hcells]
    rfl
  rw [hrows, hcells]
  exact ⟨rfl, (congrArg Repair.needs hs1 :), (congrArg Repair.flips hs1 :)⟩

/-- PRESERVE has nothing to do in a sound instance. -/
theorem State.preserve_idle (h : s.Sound i) : s.preserve i = (s, false) := by
  obtain ⟨hdefects, hneeds, hflips⟩ := h
  have hrows : s.rowsAtIssue i = [] := by
    unfold State.rowsAtIssue
    rw [List.filter_eq_nil_iff.mpr fun e he => by simpa using hflips e he, List.filter_eq_nil_iff.mpr fun d hd => by simpa using hdefects d hd,
      List.filter_eq_nil_iff.mpr fun e he => by simpa using hneeds e he]
    rfl
  rw [State.preserve_eq, hrows]
  rfl

/-! Several instances. -/

/-- A step of a March request through its instances. -/
structure MarchStep (f : State × Nat → Nat → State × Nat) : Prop where
  repairs : ∀ m i, Repairs m.1 (f m i).1
  cares : ∀ (m : State × Nat) (i row : Nat), i < 232 → (i, row) ∈ m.1.repair.needs ∨ m.1.Cared (i, row) → (f m i).1.Cared (i, row)
  idle : ∀ (m : State × Nat) (i : Nat), m.1.Sound i →
    (f m i).2 = m.2 ∧ (f m i).1.repair.needs = m.1.repair.needs ∧ (f m i).1.repair.flips = m.1.repair.flips

namespace MarchStep

variable {f : State × Nat → Nat → State × Nat} (hf : MarchStep f)
include hf

theorem foldl_repairs (l : List Nat) (m : State × Nat) : Repairs m.1 (l.foldl f m).1 :=
  List.foldlRecOn (motive := fun n : State × Nat => Repairs m.1 n.1) (b := m) _ _ (Repairs.refl m.1) fun n hn i _ => hn.trans (hf.repairs n i)

/-- Every row of the instances that needs repair is cared for. -/
theorem foldl_cares {l : List Nat} {m : State × Nat} {e : Nat × Nat} (he : e.1 < 232) (hmem : e.1 ∈ l) (hneed : e ∈ m.1.repair.needs) :
    (l.foldl f m).1.Cared e := by
  obtain ⟨front, back, rfl⟩ := List.append_of_mem hmem
  rw [List.foldl_append, List.foldl_cons]
  have hfront := (hf.foldl_repairs front m).needs e he hneed
  exact (hf.foldl_repairs back _).cared e he (hf.cares _ e.1 e.2 he hfront)

/-- Sound instances leave the result as it is. -/
theorem foldl_idle {l : List Nat} {m : State × Nat} (hsound : ∀ i ∈ l, m.1.Sound i) : (l.foldl f m).2 = m.2 := by
  induction l generalizing m with
  | nil => rfl
  | cons i l ih =>
    obtain ⟨hi, hl⟩ := List.forall_mem_cons.mp hsound
    obtain ⟨hresult, hneeds, hflips⟩ := hf.idle m i hi
    have hotp : (f m i).1.otp = m.1.otp := by rw [(hf.repairs m i).rest]
    rw [List.foldl_cons, ih fun j hj => ?_, hresult]
    obtain ⟨hdefects, hneedsj, hflipsj⟩ := hl j hj
    exact ⟨hotp ▸ hdefects, hneeds ▸ hneedsj, hflips ▸ hflipsj⟩

end MarchStep

/-- PRESERVE of one instance, and the worst STATE so far (R633, R654). -/
def State.preserveInst (m : State × Nat) (i : Nat) : State × Nat :=
  let (s, hit) := m.1.preserve i
  (s.bump (Obj.instCntBorrows i) (instRows i), if hit then max m.2 (s.obj (Obj.instState i)) else m.2)

/-- The March test of one instance, and the worst STATE so far (R632, R654). -/
def State.testInst (m : State × Nat) (i : Nat) : State × Nat :=
  let (s, hit) := m.1.marchInst i
  (s, if hit then max m.2 (s.obj (Obj.instState i)) else m.2)

theorem marchStep_preserve : MarchStep State.preserveInst where
  repairs m i := ((Repairs.refl m.1).preserve i).bump (stateApart_cnt (i := i) (j := 4) (by decide)) _
  cares m i row hi h := ((Repairs.refl (m.1.preserve i).1).bump (stateApart_cnt (i := i) (j := 4) (by decide)) (instRows i)).cared (i, row) hi
    (State.preserve_cares hi h)
  idle m i h := by
    have heq := State.preserve_idle h
    unfold State.preserveInst
    rw [heq]
    exact ⟨rfl, rfl, rfl⟩

theorem marchStep_test : MarchStep State.testInst where
  repairs m i := m.1.marchInst_repairs i
  cares m i row hi h := State.marchInst_cares hi h
  idle m i h := by
    have hidle := State.marchInst_idle h
    unfold State.testInst
    generalize m.1.marchInst i = r at hidle ⊢
    obtain ⟨t, hit⟩ := r
    obtain ⟨rfl, hneeds, hflips⟩ := hidle
    exact ⟨rfl, hneeds, hflips⟩

theorem State.marchTest_eq (s : State) (insts : List Nat) : s.marchTest insts =
    ((insts.foldl State.testInst (s, 0)).1.setRepair (fun x => { x with flips := x.flips.filter (fun e => !insts.contains (e.1 / 131072)) }),
      (insts.foldl State.testInst (s, 0)).2) := by
  unfold State.marchTest State.testInst
  with_reducible rfl

end

end Sys2Proof.Machine

namespace Sys2Proof.Machine

/-! The requests and the ends of the March test, and the fusing of repairs (R633, R644, R645). -/

/-- What the March test leaves of an instance's contents: zeros, or its power-up contents (R633). -/
structure Wiped (s t : State) : Prop where
  tick : t.tick = s.tick
  objs : ∀ k, t.obj k = s.obj k
  repair : t.repair = s.repair
  flows : t.flows ⊆ s.flows
  shm : s.shm = [] → t.shm = []
  images : ∀ k, s.dom k = [] → t.dom k = []

namespace Wiped

variable {s t u : State}

theorem refl (s : State) : Wiped s s := ⟨rfl, fun _ => rfl, rfl, fun _ he => he, id, fun _ => id⟩

theorem trans (h : Wiped s t) (g : Wiped t u) : Wiped s u :=
  ⟨g.tick.trans h.tick, fun k => (g.objs k).trans (h.objs k), g.repair.trans h.repair, fun _ he => h.flows (g.flows he), g.shm ∘ h.shm,
    fun k => g.images k ∘ h.images k⟩

theorem ite {p : Prop} [Decidable p] (h : Wiped s t) (g : Wiped s u) : Wiped s (if p then t else u) := by
  split
  · exact h
  · exact g

end Wiped

theorem State.wipe_wiped (s : State) (i : Nat) : Wiped s (s.wipe i) := by
  have hslot (n : Nat) : Wiped s (s.emptySlot n) := ⟨rfl, fun _ => rfl, rfl, fun _ he => he, id, fun k hk => by
    rw [State.emptySlot, State.dom_setDom]
    split
    · rfl
    · exact hk⟩
  have hring (n : Nat) (u : Tick) : Wiped s (s.clearRing n u) := by
    unfold State.clearRing
    split
    · exact ⟨rfl, fun _ => rfl, rfl, fun _ he => he, id, fun _ => id⟩
    · exact .refl s
  unfold State.wipe
  refine .ite ?_ (.ite (hring ..) (.ite ?_ (.ite ?_ (.ite (hslot _) (.ite ?_ (.ite ?_ (.ite ?_ (.ite ?_ (.ite ?_ (.refl s))))))))))
  · exact ⟨rfl, fun _ => rfl, rfl, fun _ he => (List.mem_filter.mp he).1, id, fun _ => id⟩
  · exact ⟨rfl, fun _ => rfl, rfl, fun _ he => he, id, fun _ => id⟩
  · exact ⟨rfl, fun _ => rfl, rfl, fun _ he => he, id, fun _ => id⟩
  · exact ⟨rfl, fun _ => rfl, rfl, fun _ he => he, id, fun _ => id⟩
  · exact ⟨rfl, fun _ => rfl, rfl, fun _ he => he, id, fun _ => id⟩
  · exact ⟨rfl, fun _ => rfl, rfl, fun _ he => he, id, fun _ => id⟩
  · exact ⟨rfl, fun _ => rfl, rfl, fun _ he => he, fun _ => rfl, fun _ => id⟩
  · exact ⟨rfl, fun _ => rfl, rfl, fun _ he => he, id, fun _ => id⟩

theorem State.foldl_wipe (l : List Nat) (s : State) : Wiped s (l.foldl State.wipe s) :=
  List.foldlRecOn (motive := fun t => Wiped s t) l _ (.refl s) fun t ht i _ => ht.trans (t.wipe_wiped i)

/-- What an instance held is gone once it is wiped. -/
theorem State.foldl_wipe_gone {l : List Nat} {i : Nat} (hi : i ∈ l) (s : State) :
    (64 ≤ i → i < 96 → ∀ e ∈ (l.foldl State.wipe s).flows, e.1 / 8192 ≠ i - 64)
      ∧ (195 ≤ i → i < 211 → (l.foldl State.wipe s).dom (Obj.slotImage (i - 195)) = []) ∧ (i = 178 → (l.foldl State.wipe s).shm = []) := by
  refine ⟨fun hlo hhi => ?_, fun hlo hhi => ?_, fun h => ?_⟩
  · refine foldl_reaches (Q := fun t : State => ∀ e ∈ t.flows, e.1 / 8192 ≠ i - 64) hi (fun t e he => ?_) (fun t j ht e he => ht e ((t.wipe_wiped j).flows he)) s
    have hwipe : t.wipe i = { t with flows := t.flows.filter (fun e => e.1 / 8192 ≠ i - 64) } := if_pos ⟨hlo, hhi⟩
    rw [hwipe] at he
    simpa using (List.mem_filter.mp he).2
  · refine foldl_reaches (Q := fun t : State => t.dom (Obj.slotImage (i - 195)) = []) hi (fun t => ?_) (fun t j ht => (t.wipe_wiped j).images _ ht) s
    have hwipe : t.wipe i = t.emptySlot (i - 195) := by
      unfold State.wipe
      rw [if_neg (by omega), if_neg (by omega), if_neg (by omega), if_neg (by omega), if_pos ⟨hlo, hhi⟩]
    rw [hwipe]
    exact (State.dom_setDom ..).trans (if_pos rfl)
  · refine foldl_reaches (Q := fun t : State => t.shm = []) hi (fun t => ?_) (fun t j ht => (t.wipe_wiped j).shm ht) s
    subst h
    rfl

section
variable {s s1 : State} {mode : Nat} {insts : List Nat}

/-- What the March test has repaired, and the worst STATE among it (R633, R654). -/
def State.marched (s : State) (mode : Nat) (insts : List Nat) : State × Nat :=
  if mode = 1 then insts.foldl State.preserveInst (s, 0) else s.marchTest insts

/-- The March request ends with a state and a result. -/
def State.marchOver (s : State) (mode : Nat) (insts : List Nat) (result : Nat) : State :=
  (s.setRepair (fun r => { r with march := none, recovered := r.recovered || (mode = 3 && insts.contains (s.obj Obj.devFaultInst)) })).setObjs
    [(Obj.integMarchState, 0), (Obj.integMarchResult, result)]

theorem exec_marchEnd (h : s.repair.march = some (mode, insts)) : exec (.marchEnd () ()) s =
    .next ((if mode = 1 then (s.marched mode insts).1 else insts.foldl State.wipe (s.marched mode insts).1).marchOver mode insts (s.marched mode insts).2) := by
  show execMarchEnd () () s = _
  unfold execMarchEnd State.marched
  rw [h]
  rfl

theorem State.marched_repairs (s : State) (mode : Nat) (insts : List Nat) : Repairs s (s.marched mode insts).1 := by
  unfold State.marched
  split
  · exact marchStep_preserve.foldl_repairs insts (s, 0)
  · rw [State.marchTest_eq]
    exact (marchStep_test.foldl_repairs insts (s, 0)).setRepair (fun x => { x with flips := x.flips.filter (fun e => !insts.contains (e.1 / 131072)) })
      (fun _ he => he) rfl

theorem State.marched_cares {e : Nat × Nat} (he : e.1 < 232) (hmem : e.1 ∈ insts) (hneed : e ∈ s.repair.needs) (mode : Nat) :
    (s.marched mode insts).1.Cared e := by
  unfold State.marched
  split
  · exact marchStep_preserve.foldl_cares (m := (s, 0)) he hmem hneed
  · rw [State.marchTest_eq]
    exact marchStep_test.foldl_cares (m := (s, 0)) he hmem hneed

theorem State.marched_idle (hsound : ∀ i ∈ insts, s.Sound i) (mode : Nat) : (s.marched mode insts).2 = 0 := by
  unfold State.marched
  split
  · exact marchStep_preserve.foldl_idle (m := (s, 0)) hsound
  · rw [State.marchTest_eq]
    exact marchStep_test.foldl_idle (m := (s, 0)) hsound

/-! The requests. -/

theorem marchRow : ∀ k ∈ [Obj.integMarchPreserve, Obj.integMarchDestroy, Obj.integMarchRecover], k < 2 ^ 24 ∧ isStaged k = false ∧ pairPartner k = none
    ∧ ∃ crit, findObj k = some ⟨0x5C00, 1, k % 256, 1, .u16, .wo, crit, .special, 0, false⟩ := by
  intro k hk
  have hrow : ∃ crit, findObj k = some ⟨0x5C00, 1, k % 256, 1, .u16, .wo, crit, .special, 0, false⟩ := by
    simp only [List.mem_cons, List.not_mem_nil, or_false] at hk
    obtain rfl | rfl | rfl := hk
    · exact ⟨false, findObj_row (by decide)⟩
    · exact ⟨true, findObj_row (by decide)⟩
    · exact ⟨true, findObj_row (by decide)⟩
  obtain ⟨crit, hfind⟩ := hrow
  obtain ⟨hkey, hpair⟩ := (by decide : ∀ k ∈ [Obj.integMarchPreserve, Obj.integMarchDestroy, Obj.integMarchRecover],
    k < 2 ^ 24 ∧ pairPartner k = none) k hk
  exact ⟨hkey, by simp [isStaged, hfind], hpair, crit, hfind⟩

/-- A March request passes its check where it names an instance, or all. -/
theorem checkEntry_march {k v : Nat} (hk : k ∈ [Obj.integMarchPreserve, Obj.integMarchDestroy, Obj.integMarchRecover]) (hw : Writable s k)
    (hv : v < 232 ∨ v = 0xFFFF) : s.checkEntry k (valBytes k (.num v)) = okOut k (.num v) := by
  obtain ⟨-, -, -, crit, hfind⟩ := marchRow k hk
  have hwidth : v < 2 ^ 16 := by omega
  have hown : s.ownCheck k v = some (v, []) := by
    simp only [List.mem_cons, List.not_mem_nil, or_false] at hk
    have hin : ¬(231 < v ∧ v ≠ 0xFFFF) := by omega
    obtain rfl | rfl | rfl := hk <;> exact if_neg hin
  rw [State.checkEntry_num hfind hw (by simp) rfl hwidth]
  unfold State.numCheck
  dsimp only
  rw [if_neg (by simp), if_neg (by simp), if_neg (by simp), if_pos rfl, hown]
  rfl

/-- A March request acts as its mode says. -/
theorem act_march {k : Nat} {r : Instr} {c : WriteCmd} (hr : (mode, k, r) ∈ [(1, Obj.integMarchPreserve, Instr.marchPreserve c),
    (2, Obj.integMarchDestroy, .marchDestroy c), (3, Obj.integMarchRecover, .marchRecover c)]) : k ∈ [Obj.integMarchPreserve, Obj.integMarchDestroy,
      Obj.integMarchRecover] ∧ (∀ s : State, exec r s = .next (s.writeNum c k c.value)) ∧ (∀ (s : State) i v t, s.act i k (.num v) t = done (s.march mode v))
      ∧ [Obj.integMarchPreserve, Obj.integMarchPreserve, Obj.integMarchDestroy, Obj.integMarchRecover].getD mode 0 = k ∧ 1 ≤ mode ∧ mode ≤ 3 := by
  simp only [List.mem_cons, List.not_mem_nil, or_false, Prod.mk.injEq] at hr
  obtain ⟨rfl, rfl, rfl⟩ | ⟨rfl, rfl, rfl⟩ | ⟨rfl, rfl, rfl⟩ := hr
  · exact ⟨by simp, fun _ => rfl, fun _ _ _ _ => rfl, rfl, by decide, by decide⟩
  · exact ⟨by simp, fun _ => rfl, fun _ _ _ _ => rfl, rfl, by decide, by decide⟩
  · exact ⟨by simp, fun _ => rfl, fun _ _ _ _ => rfl, rfl, by decide, by decide⟩

/-- A March request waits where a March test runs, or its mode is not one of the device's state (R633, R634). -/
abbrev State.marchRefused (s : State) (mode : Nat) : Prop :=
  s.obj Obj.integMarchState = 1 ∨ (mode = 1 ∧ s.obj Obj.devDevState = 5) ∨ (mode = 2 ∧ s.obj Obj.devDevState ≠ 1) ∨ (mode = 3 ∧ s.obj Obj.devDevState ≠ 5)

theorem State.march_eq {k v : Nat} (hk : [Obj.integMarchPreserve, Obj.integMarchPreserve, Obj.integMarchDestroy, Obj.integMarchRecover].getD mode 0 = k)
    (hlo : 1 ≤ mode) (hhi : mode ≤ 3) : s.march mode v =
    if v ≠ 0xFFFF ∧ instAbsent s.otp.variant v = true then (s, badOut k stNotPresent 0)
    else if s.marchRefused mode then (s, badOut k stBusy 0)
    else ((s.setRepair (fun r => { r with march := some (mode, s.marchSet v) })).setObj Obj.integMarchState 1, okOut k (.num v)) := by
  have hrefused : (s.obj Obj.integMarchState = 1 ∨ (!(if mode = 1 then s.obj Obj.devDevState != 5 else if mode = 2 then s.obj Obj.devDevState == 1
      else s.obj Obj.devDevState == 5)) = true) ↔ s.marchRefused mode := by
    unfold State.marchRefused
    interval_cases mode <;> simp
  unfold State.march
  rw [hk]
  refine if_congr Iff.rfl rfl ?_
  exact if_congr hrefused rfl rfl

/-- The instances that a request names. -/
theorem State.mem_marchSet {v i : Nat} (hpresent : ¬(v ≠ 0xFFFF ∧ instAbsent s.otp.variant v = true)) : i ∈ s.marchSet v ↔
    (v = i ∨ (v = 0xFFFF ∧ i < 232)) ∧ instAbsent s.otp.variant i = false ∧ i ≠ 0xFFFF := by
  unfold State.marchSet
  split
  · next h =>
    simp only [List.mem_filter, mem_below, Bool.not_eq_true', h]
    constructor
    · rintro ⟨hi, habsent⟩
      exact ⟨.inr ⟨trivial, hi⟩, habsent, by omega⟩
    · rintro ⟨hi, habsent, hne⟩
      exact ⟨by omega, habsent⟩
  · next h =>
    have habsent : instAbsent s.otp.variant v = false := by simpa [h] using hpresent
    rw [List.mem_singleton]
    constructor
    · rintro rfl
      exact ⟨.inl rfl, habsent, h⟩
    · rintro ⟨hi, -, -⟩
      omega

end

section
variable {s : State}

/-! The Darner's choices. -/

/-- Where a row of the instance needs repair, the next borrow is of such a row (R635). -/
theorem State.nextRow_need {i : Nat} (h : ∃ e ∈ s.repair.needs, e.1 = i) : (i, s.nextRow i) ∈ s.repair.needs := by
  obtain ⟨e, he, hi⟩ := h
  unfold State.nextRow
  cases hfind : s.repair.needs.find? (fun e => e.1 = i) with
  | none => exact absurd (by simpa using hi) (List.find?_eq_none.mp hfind e he)
  | some e' =>
    obtain ⟨j, row⟩ := e'
    have hj : j = i := by simpa using List.find?_some hfind
    exact hj ▸ List.mem_of_find?_eq_some hfind

theorem State.nextRow_none {i : Nat} (h : ∀ e ∈ s.repair.needs, e.1 ≠ i) : s.nextRow i = s.obj (Obj.instNextRow i) := by
  unfold State.nextRow
  rw [List.find?_eq_none.mpr fun e he => by simpa using h e he]

/-- A word that is uncorrectable as it is saved makes its row need repair (R639). -/
theorem State.saveWord_needs {b : Borrow} {k : Nat} (hk : k < 64)
    (hbad : eccRead sramColumns (s.repair.flips.getD (wordKey b.inst (64 * b.row + k)) 0) = .bad) : (b.inst, b.row) ∈ (s.saveWord b k).repair.needs := by
  have hrow : (64 * b.row + k) / 64 = b.row := by omega
  have hread : (s.saveRead b.inst (64 * b.row + k)).1 = (s.bump (Obj.instCntUe b.inst) 1).needRow b.inst b.row := by
    unfold State.saveRead
    extract_lets x
    rw [show eccRead sramColumns x = .bad from hbad, hrow]
  show (b.inst, b.row) ∈ (s.saveRead b.inst (64 * b.row + k)).1.repair.needs
  rw [hread]
  exact State.needRow_mem _ b.inst b.row

/-! The end of a March request. -/

/-- A March request's end sets its two objects. -/
theorem State.marchOver_spec (s : State) (mode : Nat) (insts : List Nat) (result : Nat) :
    s.marchOver mode insts result = { s with dict := (s.marchOver mode insts result).dict, repair := (s.marchOver mode insts result).repair }
      ∧ (s.marchOver mode insts result).repair = { s.repair with
        march := none, recovered := s.repair.recovered || (mode = 3 && insts.contains (s.obj Obj.devFaultInst)) }
      ∧ (s.marchOver mode insts result).obj Obj.integMarchState = 0 ∧ (s.marchOver mode insts result).obj Obj.integMarchResult = result
      ∧ ∀ i, (s.marchOver mode insts result).obj (Obj.instState i) = s.obj (Obj.instState i) := by
  refine ⟨rfl, rfl, State.obj_setObjs_head _ _ (by simp [Obj.integMarchState, Obj.integMarchResult]), State.obj_setObj_self .., fun i => ?_⟩
  refine State.obj_setObjs_ne _ ?_
  simp only [List.map_cons, List.map_nil, List.mem_cons, List.not_mem_nil, or_false, not_or]
  exact ⟨key_ne_of_index (by decide) (by decide) (by decide), key_ne_of_index (by decide) (by decide) (by decide)⟩

end

section
variable {s : State}

/-! Fusing (R645). -/

/-- The spare columns in use that are not fused yet. -/
def State.newColumns (s : State) : List (Nat × Nat) :=
  (s.insts.filter (fun i => s.obj (Obj.instSpareColumn i) != 0xFF && !s.otp.columns.any (fun e => e.1 = i))).map (fun i => (i, s.obj (Obj.instSpareColumn i)))

/-- The repairs are made permanent. -/
def State.fused (s : State) : State :=
  (({ s with otp := { s.otp with repairs := s.otp.repairs ++ s.repair.soft, columns := s.otp.columns ++ s.newColumns } } : State).setRepair
    (fun r => { r with soft := [] })).setObj Obj.integRepairsPending 0

theorem exec_fuseProgrammed {l : Landing} (hfind : s.deferred.find? (fun e => e.1 == Wait.fuses) = some (.fuses, l)) :
    exec .fuseProgrammed s = .next (({ s.fused with deferred := s.deferred.erase (.fuses, l) } : State).finish l s.tick) := by
  have hdeferred : s.isDeferred .fuses = true := List.any_eq_true.mpr ⟨_, List.mem_of_find?_eq_some hfind, by simp⟩
  have hexec : exec .fuseProgrammed s = .next (s.fused.resolve .fuses) := if_neg (by simp [hdeferred])
  exact hexec.trans (congrArg Host.Outcome.next (State.resolve_found (s := s.fused) hfind))

theorem State.fused_obj (s : State) : s.fused.obj Obj.integRepairsPending = 0 ∧ SameObjs s s.fused [Obj.integRepairsPending] :=
  ⟨State.obj_setObj_self .., fun _ hk => State.obj_setObj_ne _ _ (by simpa using hk)⟩

/-- Each spare column in use is fused. -/
theorem State.fused_columns {i : Nat} (hi : i ∈ s.insts) (hcol : s.obj (Obj.instSpareColumn i) ≠ 0xFF) : ∃ e ∈ s.fused.otp.columns, e.1 = i := by
  show ∃ e ∈ s.otp.columns ++ s.newColumns, e.1 = i
  by_cases hold : s.otp.columns.any (fun e => e.1 = i) = true
  · obtain ⟨e, he, hindex⟩ := List.any_eq_true.mp hold
    exact ⟨e, List.mem_append_left _ he, of_decide_eq_true hindex⟩
  · refine ⟨(i, s.obj (Obj.instSpareColumn i)), List.mem_append_right _ (List.mem_map.mpr ⟨i, List.mem_filter.mpr ⟨hi, ?_⟩, rfl⟩), rfl⟩
    rw [Bool.not_eq_true] at hold
    rw [hold]
    simpa using hcol

end

/-! A row at the end of its borrow. -/

/-- At most the objects and the tables of an instance's repair have changed. -/
structure RowHandled (s t : State) (i : Nat) : Prop where
  rest : t = { s with dict := t.dict, repair := t.repair }
  repair : t.repair = { s.repair with needs := t.repair.needs, soft := t.repair.soft, spares := t.repair.spares }
  objs : SameObjs s t [Obj.instSpareRowsUsed i, Obj.instState i, Obj.integRepairsPending]

theorem State.repairRow_degraded_obj {s : State} {i : Nat} (h : s.freeSpare i = none) (row : Nat) (k : Key) :
    (s.repairRow i row).obj k = if k = Obj.instState i then 2 else s.obj k := by
  rw [State.repairRow_degraded h, State.obj_setObj]
  rfl

theorem State.repairRow_handled (s : State) (i row : Nat) : RowHandled s (s.repairRow i row) i := by
  cases h : s.freeSpare i with
  | none =>
    rw [State.repairRow_degraded h]
    exact ⟨rfl, rfl, fun k hk => State.obj_setObj_ne _ _ fun e => hk (by simp [e])⟩
  | some sp =>
    obtain ⟨hrest, hrepair, -, -, -, hobjs⟩ := State.repairRow_served (row := row) h
    exact ⟨hrest, by rw [hrepair], hobjs⟩

/-- What the end of a borrow leaves, whatever its row has needed. -/
theorem RowHandled.ends {s t : State} {b : Borrow} (h : RowHandled (s.borrowOver b) t b.inst) : t = { s with dict := t.dict, repair := t.repair }
    ∧ t.repair.borrow = none ∧ t.repair.flips = s.unborrowed.flips ∧ t.repair.lastEnd.find b.inst = some (b.start + 767)
    ∧ (∀ j, j ≠ b.inst → t.repair.lastEnd.find j = s.repair.lastEnd.find j) ∧ Counted s t (Obj.instCntBorrows b.inst) 1
    ∧ t.obj (Obj.instNextRow b.inst) = (if s.obj (Obj.instNextRow b.inst) = b.row then (b.row + 1) % instRows b.inst else s.obj (Obj.instNextRow b.inst))
    ∧ SameObjs s t [Obj.instCntBorrows b.inst, Obj.instNextRow b.inst, Obj.instSpareRowsUsed b.inst, Obj.instState b.inst, Obj.integRepairsPending] := by
  obtain ⟨hrest, hrepair, hobjs⟩ := h
  obtain ⟨hnone, hflips, hends, -⟩ := s.borrowOver_repair b
  have hcntne := instCntBorrows_ne b.inst
  refine ⟨by rw [hrest, State.borrowOver_rest], by rw [hrepair]; exact hnone, by rw [hrepair]; exact hflips, ?_, fun j hj => ?_, ?_, ?_, fun k hk => ?_⟩
  · rw [hrepair]
    exact (congrArg (Tab.find · b.inst) hends).trans (Tab.find_set_self ..)
  · rw [hrepair]
    exact (congrArg (Tab.find · j) hends).trans (Tab.find_set_ne _ _ hj)
  · exact (hobjs _ (borrowKeys_ne b.inst)).trans ((s.borrowOver_obj b _).trans ((if_neg hcntne.symm).trans (if_pos rfl)))
  · exact (hobjs _ (borrowNextRow_ne b.inst)).trans ((s.borrowOver_obj b _).trans (if_pos rfl))
  · simp only [List.mem_cons, List.not_mem_nil, or_false, not_or] at hk
    obtain ⟨hcnt, hnext, hrow⟩ := hk
    refine (hobjs k ?_).trans ((s.borrowOver_obj b k).trans ((if_neg hnext).trans (if_neg hcnt)))
    simpa using hrow

/-- Settles O52: the Darner's borrow from its begin to its end, the code and the March test, a request from its write to its end, and the fusing. -/
theorem spareRowsRepairWhatTestsFind : Obligations.SpareRowsRepairWhatTestsFind := by
  unfold Obligations.SpareRowsRepairWhatTestsFind
  refine ⟨fun s i hrun hon hnone hmarch hnext hend => ?_, fun s b hb hi hlate => ?_, fun s b k hb hk => ?_, fun d b hd hb => ?_, fun d x h => ?_,
    fun s s1 c a mode k r hr hw hv => ?_, fun s mode insts hmarch => ?_, fun s s1 c a hw hv => ?_, fun s l hfind => ?_⟩
  · have hfree : s.repair.lastEnd.any (fun e => e.1 = i && s.tick + 1 < e.2 + 100000) = false := by
      rw [List.any_eq_false]
      intro e he
      simpa using hend e he
    exact ⟨_, if_neg (by rw [hnext, hfree]; simp [hrun, hon, hnone, hmarch]), rfl, rfl, State.nextRow_need, State.nextRow_none⟩
  · intro need used
    obtain ⟨-, -, -, hneeds, hsoft, hspares, hfree⟩ := s.borrowOver_repair b
    have hexec := exec_borrowEnd hb hlate
    have hover (k : Key) (hcnt : k ≠ Obj.instCntBorrows b.inst) (hnext : k ≠ Obj.instNextRow b.inst) : (s.borrowOver b).obj k = s.obj k :=
      (s.borrowOver_obj b k).trans ((if_neg hnext).trans (if_neg hcnt))
    obtain ⟨⟨hstate, hstate'⟩, ⟨hpending, hpending'⟩, hused, hused'⟩ := borrowRepair_ne b.inst
    by_cases hneed : need
    · rw [if_pos (by rw [hneeds]; exact List.contains_iff_mem.mpr hneed)] at hexec
      obtain ⟨hrest, hnone, hflips, hend, hends, hcount, hnext, hobjs⟩ := ((s.borrowOver b).repairRow_handled b.inst b.row).ends
      refine ⟨_, hexec, hrest, hnone, hflips, hend, hends, hcount, hnext, fun h => absurd hneed h, fun _ => ⟨?_, hobjs, fun sp hsp => ?_, fun hsp => ?_⟩⟩
      · rw [State.repairRow_needs, hneeds]
      · have hserved := State.repairRow_served (row := b.row) ((hfree b.inst).trans hsp)
        obtain ⟨-, hrepair, hrows, hcounted, hstates, -⟩ := hserved
        refine ⟨by rw [hrepair, hsoft], by rw [hrepair, hspares], State.rowPlace_last (congrArg Repair.spares hrepair :), ?_, ?_, fun hzero => ?_⟩
        · rw [hrows, hover _ hused hused']
        · rw [Counted, ← hover _ hpending hpending']
          exact hcounted
        · rw [hstates, hover _ hstate hstate', if_pos hzero]
      · have hnospare := (hfree b.inst).trans hsp
        have hobj := State.repairRow_degraded_obj hnospare b.row
        refine ⟨?_, ?_, (hobj _).trans ((if_neg (instKeys_ne b.inst).1).trans (hover _ hused hused')), (hobj _).trans (if_pos rfl)⟩
        · rw [State.repairRow_degraded hnospare]
          exact hsoft
        · rw [State.repairRow_degraded hnospare]
          exact hspares
    · rw [if_neg (by rw [hneeds]; exact fun h => hneed (List.contains_iff_mem.mp h))] at hexec
      have hsame : RowHandled (s.borrowOver b) (s.borrowOver b) b.inst := ⟨rfl, rfl, fun _ _ => rfl⟩
      obtain ⟨hrest, hnone, hflips, hend, hends, hcount, hnext, -⟩ := hsame.ends
      refine ⟨_, hexec, hrest, hnone, hflips, hend, hends, hcount, hnext, fun _ => ⟨hneeds, hsoft, fun k hk => ?_⟩, fun h => absurd h hneed⟩
      obtain ⟨hcnt, hnext⟩ : k ≠ Obj.instCntBorrows b.inst ∧ k ≠ Obj.instNextRow b.inst := by simpa using hk
      exact hover k hcnt hnext
  · intro x
    rw [State.borrowTick_save hb hk]
    exact ⟨(State.saveWord_saves hb).trans (by rw [State.saveRead_eq] <;> rfl), State.saveWord_needs hk⟩
  · refine ⟨?_, eccRead_flip hd hb, fun c hc hne => eccRead_flips hd hb hc hne⟩
    rw [eccRead_eq, if_pos (syndrome_eccWord hd), eccWord_data hd]
  · exact ⟨marchRun_stuck h solid, marchRun_stuck h checkered⟩
  · intro d refused absent
    obtain ⟨hk, hexec, hact, hkey, hlo, hhi⟩ := act_march hr
    obtain ⟨hkey24, hstaged, hpair, crit, hrow⟩ := marchRow k hk
    have hends {t : State} {o : ObjOut} (hmarch : s1.march mode c.value = (t, o)) (ho : o.status ≠ stPairPending) :
        Lands s1 (exec r s) (s1.endedOr c.flags a (o.refusedWith (.num c.value)) t) := by
      rw [hexec]
      exact State.writeNum_ends hw hkey24 hstaged hpair hrow rfl (show c.value < 2 ^ 16 by omega) (checkEntry_march hk hw.2.2.2 hv)
        ((hact s1 c.iss c.value (s1.tick + 1)).trans (congrArg done hmarch)) ho
    have hmarch := State.march_eq (s := s1) (v := c.value) hkey hlo hhi
    refine ⟨fun habsent => ?_, fun hpresent hrefused => ?_, fun hpresent hallowed => ?_⟩
    · exact hends (hmarch.trans (if_pos habsent)) (show stNotPresent ≠ stPairPending by decide)
    · exact hends (hmarch.trans ((if_neg hpresent).trans (if_pos hrefused))) (show stBusy ≠ stPairPending by decide)
    · have hlands := hends (hmarch.trans ((if_neg hpresent).trans (if_neg hallowed))) (show stOk ≠ stPairPending by decide)
      rw [State.endedOr_ok rfl rfl] at hlands
      exact ⟨_, hlands, rfl, State.obj_setObj_self .., fun j hj => State.obj_setObj_ne _ _ (by simpa using hj), _, rfl, fun i => State.mem_marchSet hpresent⟩
  · have hrepairs := s.marched_repairs mode insts
    obtain ⟨u, hu⟩ : ∃ u, u = if mode = 1 then (s.marched mode insts).1 else insts.foldl State.wipe (s.marched mode insts).1 := ⟨_, rfl⟩
    have hwiped : Wiped (s.marched mode insts).1 u := by
      rw [hu]
      exact .ite (.refl _) (State.foldl_wipe ..)
    obtain ⟨hrest, hrepair, hstate, hresult, hinst⟩ := u.marchOver_spec mode insts (s.marched mode insts).2
    have hexec := exec_marchEnd hmarch
    rw [← hu] at hexec
    refine ⟨_, hexec, ?_, hstate, ?_, fun hdefects hneeds hflips => ?_, fun hmode => ?_, fun hbound e hneed hmem => ?_, fun hmode i hi => ?_,
      fun hmode hfault => ?_⟩
    · rw [hrepair]
    · rw [hrest]
      exact hwiped.tick.trans (by rw [hrepairs.rest])
    · rw [hresult]
      exact State.marched_idle (fun i hi => ⟨fun d hd h => hdefects d hd (h ▸ hi), fun e he h => hneeds e he (h ▸ hi), fun e he h => hflips e he (h ▸ hi)⟩) mode
    · rw [if_pos hmode] at hu
      rw [hrest, hu, hrepairs.rest]
    · have hcared := State.marched_cares (s := s) (hbound e.1 hmem) hmem hneed mode
      refine hcared.imp (fun hsoft => ?_) fun hdegraded => ?_
      · rw [hrepair, hwiped.repair]
        exact hsoft
      · rw [hinst, hwiped.objs]
        exact hdegraded
    · rw [if_neg hmode] at hu
      have hgone := State.foldl_wipe_gone hi (s.marched mode insts).1
      rw [← hu] at hgone
      exact hgone
    · have hsame : u.obj Obj.devFaultInst = s.obj Obj.devFaultInst := (hwiped.objs _).trans (hrepairs.objs _ (by decide))
      rw [hrepair, hsame]
      simp [hmode, hfault]
  · have hrow : findObj Obj.integFuseRepairs = some ⟨0x5C00, 1, 0x08, 1, .bool, .wo, true, .any, 0, true⟩ := findObj_row (by decide)
    have hexec : exec (.fuseRepairs c) s = .next (s.writeNum c Obj.integFuseRepairs 1) := by
      rw [← hv]
      rfl
    have hends {o : ObjOut} {w : Option Wait} (hact : s1.fuseRepairs = (s1, o, w)) (ho : o.status ≠ stPairPending) :
        Lands s1 (exec (.fuseRepairs c) s) (s1.endedOr c.flags a (o.refusedWith (.num 1)) s1 w) := by
      rw [hexec]
      exact State.writeNum_ends hw (by decide) (by decide) (by decide) hrow rfl (by decide)
        (State.checkEntry_bool hrow hw.2.2.2 (by decide) rfl (by decide) (by decide)) ((act_integFuseRepairs ..).trans hact) ho
    split
    · next hbusy => exact hends (if_pos hbusy) (by decide)
    · next hfree =>
      have hlands := hends (if_neg hfree) (by decide)
      rwa [State.endedOr_ok rfl rfl] at hlands
  · exact ⟨_, exec_fuseProgrammed hfind, rfl, ⟨_, rfl⟩, fun i hi hcol => State.fused_columns hi hcol, rfl, s.fused_obj.1, s.fused_obj.2⟩

end Sys2Proof.Machine

namespace Sys2Proof.Machine

/-! A management reset at a boundary where a commit takes effect that names DEV_STRAPS. No command stages that object, which is only read, but the
statement speaks of every state: it takes the strap STRAP_FLASH from before the boundary, and the start of the cores reads it after the boundary. -/

/-- A pending commit of port 0, due at once, that gives DEV_STRAPS the value 0. -/
def commitOfStraps : Pending :=
  { iss := { port := 0 }, jseq := 5, tag := 0, flags := 0, trailer := [], pktCrc := 0, target := 1,
    set := [{ key := Obj.devStraps, val := .num 0, written := .num 0, out := okOut Obj.devStraps (.num 0) }] }

/-- An engine that is READY, with flash, a management reset due, and that commit pending. -/
def strapsPending : State :=
  { (({} : State).setObj Obj.devDevState 3).setObj Obj.devStraps 2 with
    dev := { resets := [(1, 4)] }, ports := [(0, { pend := [commitOfStraps] })] }

theorem strapsPending_due : (strapsPending.resetDue 1 = false ∧ strapsPending.resetDue 2 = false ∧ strapsPending.resetDue 3 = false)
    ∧ strapsPending.resetDue 4 = true ∧ bit (strapsPending.obj Obj.devStraps) 1 = true ∧ strapsPending.atBoundary.obj Obj.devDevState ≠ 5 := by
  decide +kernel

/-- The reset ends, but no firmware image is being checked: the cores have not been started. -/
theorem strapsPending_reset : (match execManagementReset strapsPending with
    | .next t => t.obj Obj.devLastReset == 5 && !t.flash.checking
    | _ => false) = true := by decide +kernel

/-- Refutes O53, in its clause on the management reset: with STRAP_FLASH set before the boundary and clear after it, no core starts. -/
theorem not_resetsAreRequestedAndServed : ¬ Obligations.ResetsAreRequestedAndServed := by
  unfold Obligations.ResetsAreRequestedAndServed
  rintro ⟨-, -, -, -, hmanagement⟩
  obtain ⟨⟨hwarm, hcontrol, hdata⟩, hdue, hstrap, hstate⟩ := strapsPending_due
  obtain ⟨t, hexec, -, -, -, -, -, -, -, -, hstarts, -, -⟩ := hmanagement strapsPending hwarm hcontrol hdata hdue
  have hchecking : t.flash.checking = true := (hstarts ⟨hstrap, hstate⟩).2
  have hreset := strapsPending_reset
  rw [show execManagementReset strapsPending = .next t from hexec] at hreset
  simp [hchecking] at hreset

end Sys2Proof.Machine
